-- ==== Sys2Proof/Word.lean ====
section
/-! DEFINITION. Sys2Proof/Word.lean: the word types of the PZ-9160 (R3, R8) and nothing else. -/
namespace Sys2Proof

/-- A byte of memory (R4). -/
abbrev Byte := BitVec 8
/-- A 32-bit register value (R8). -/
abbrev Word := BitVec 32
/-- A 64-bit register pair, address or instruction word (R8, R93). -/
abbrev DWord := BitVec 64
/-- A register number v0 to v255 (R8, R95). -/
abbrev Reg := BitVec 8

end Sys2Proof
end

