-- ==== Sys2Proof/Config.lean ====
section
/-! DEFINITION. Sys2Proof/Config.lean: the constants of R1 that the model uses, and the free values: functions without
a body, of which nothing can be proved but that they are functions (log entries name each). -/
namespace Sys2Proof.Config

/-- SIMT cores (R1). -/
def cores : Nat := 192
/-- Clusters (R1). -/
def clusters : Nat := 48
/-- Device shares (R223). -/
def shares : Nat := 24576
/-- Thread slots of a core (R1). -/
def slots : Nat := 2048
/-- Registers of a core: 512 KiB (R1, R59). -/
def coreRegs : Nat := 131072

/-- Bytes of the CXL expander, at most 2^42 (R1, R74): the spec gives no size. Free value, log entry 11. -/
opaque cxlBytes : Nat
/-- The set of a virtual cache in which a line lies (R231): vcid, line base. Free value, log entry 10. -/
opaque lineSet : Nat → Nat → Nat
/-- The choice among equals when a set evicts (R236), and every other choice the spec leaves to the device:
a fresh number each time the step's counter advances. Free value, log entry 12. -/
opaque pick : Nat → Nat
/-- The mask predictor (R122): whether its entry's confidence is at least 1, and the direction it holds for a lane.
Free value, log entry 6. -/
opaque predict : Nat → Nat → Bool × Bool
/-- Bytes of a context image beyond CTAG (R414: not architectural, sealed). Free value, log entry 17. -/
opaque imageByte : Nat → Nat → BitVec 8
/-- flog2, fsin and fcos of an F32 value (R209): which of the values within the bound the device returns. Free value,
log entry 8. -/
opaque flog2Pick : BitVec 32 → Nat
opaque fsinPick : BitVec 32 → Nat
opaque fcosPick : BitVec 32 → Nat
/-- KMAC256 over a token's bits [63:32], the target rank and the job ID, under a key (R323). Free value, log entry 20. -/
opaque kmac : List (BitVec 32) → BitVec 32 → Nat → BitVec 32 → BitVec 32
/-- SHAKE256 measurement of an image (R443). Free value, log entry 20. -/
opaque shake256 : List (BitVec 8) → List (BitVec 8)
/-- ML-DSA-65 verification of an image (R443). Free value, log entry 20. -/
opaque mldsaOk : List (BitVec 8) → Bool
/-- The certificates of the device (R444) and the answers of its sensors (R445). Free values, log entry 20. -/
opaque certificates : List (BitVec 8)
opaque monitor : Nat → List (BitVec 8)
/-- The UALink port of a pod access (R330): a fixed function of the memory node or pod index and the 4 KiB range, which the
spec does not give. Free value, log entry 21. -/
opaque ualinkPort : Nat → Nat → Nat
/-- The pseudo-channel of HBM4 that holds a physical address (R439): the spec does not give the interleaving. Free value, log
entry 120. -/
opaque channelOf : Nat → Nat
/-- ML-DSA-65 signature of a message under the identity key of a number, one for each reset (R444). Free value, log entry 20. -/
opaque mldsaSign : Nat → List (BitVec 8) → List (BitVec 8)


end Sys2Proof.Config
end

