-- ==== Sys2Proof/Syntax.lean ====
section
/-! DEFINITION. Sys2Proof/Syntax.lean: the instructions of the Draond set and the steps of the device's other agents,
one constructor per row of spec/opcode_table.json (R107, R108 and 95_what_each_step_holds). -/
namespace Sys2Proof

/-- The guard of R98: `en` is GE, `reg` is G and `neg` is GN. -/
structure Guard where
  en : Bool
  reg : Reg
  neg : Bool
deriving DecidableEq, Repr

/-- Operand 2 of a binary mould (R97): a register with its kill bit K2, or the 26-bit immediate of I = 1. -/
inductive Opnd where
  | reg (r : Reg) (kill : Bool)
  | imm (v : BitVec 26)
deriving DecidableEq, Repr

/-- The unary mould of R140: D, S1 and K1. -/
structure Alu1 where
  g : Guard
  d : Reg
  s1 : Reg
  k1 : Bool
deriving DecidableEq, Repr

/-- The binary and wide moulds of R140. -/
structure Alu2 where
  g : Guard
  d : Reg
  s1 : Reg
  k1 : Bool
  b : Opnd
deriving DecidableEq, Repr

/-- The ternary mould of R140: S3 is the register MOD[17:10] names (R95). -/
structure Alu3 where
  g : Guard
  d : Reg
  s1 : Reg
  k1 : Bool
  s2 : Reg
  k2 : Bool
  s3 : Reg
deriving DecidableEq, Repr

/-- A mould of two register sources and no immediate form. -/
structure AluR where
  g : Guard
  d : Reg
  s1 : Reg
  k1 : Bool
  s2 : Reg
  k2 : Bool
deriving DecidableEq, Repr

/-- The conditions of `icmp` and `icmp64` (R148). -/
inductive ICond where
  | eq | ne | lt | le | gt | ge
deriving DecidableEq, Repr

/-- The conditions of `fcmp` and `hcmp2` (R206). -/
inductive FCond where
  | eq | ne | lt | le | gt | ge | ord | uno
deriving DecidableEq, Repr

/-- Rounding modes (R193). -/
inductive Rnd where
  | rn | rz | ru | rd | rna
deriving DecidableEq, Repr

/-- RND and FTZ of the floating-point frame (R201). -/
structure FMod where
  rnd : Rnd
  ftz : Bool
deriving DecidableEq, Repr

/-- FILL of `shf` (R145). -/
inductive Fill where
  | rot | z | s
deriving DecidableEq, Repr

/-- OP of `fsgn` (R207). -/
inductive SgnOp where
  | cpy | neg | xor
deriving DecidableEq, Repr

/-- Integer types of `f2i` and `i2f` (R214). -/
inductive IType where
  | i32 | n32 | i64 | n64
deriving DecidableEq, Repr

/-- DIR of `dcvt` (R215), named destination first. -/
inductive CvtDir where
  | f32f64 | f64f32 | i64f64 | f64i64
deriving DecidableEq, Repr

/-- Forms of `vote` (R158). -/
inductive VoteOp where
  | every | some | same | bits | count
deriving DecidableEq, Repr

/-- Types of `gmax` and `gmin` (R159). -/
inductive MType where
  | i32 | n32 | f32
deriving DecidableEq, Repr

/-- Operations of `gbit` (R159). -/
inductive BitOp where
  | and | or | xor
deriving DecidableEq, Repr

/-- Branch policies (R122, R136). -/
inductive Policy where
  | last | all | none | off
deriving DecidableEq, Repr

/-- Orders of R114. -/
inductive Order where
  | rlx | acq | rel | ar | sc
deriving DecidableEq, Repr

/-- Agent scopes of R335. -/
inductive Agent where
  | thr | grp | team | clu | dev | pod | sys
deriving DecidableEq, Repr

/-- HINT of the access mould (R244). -/
inductive Hint where
  | none | ef | el
deriving DecidableEq, Repr

/-- PRIO of `cprio` (R251) and priorities of lines (R236). -/
inductive Prio where
  | first | normal | last
deriving DecidableEq, Repr

/-- FIELD of `mcfg` (R291). -/
inductive MField where
  | astride | bstride | dstride | tstride | sstride
deriving DecidableEq, Repr

/-- The access mould of R244 (`scp` is SCOPED; a plain access has ORD, AGENT and STOR zero). -/
structure Acc where
  g : Guard
  d : Reg
  s1 : Reg
  k1 : Bool
  off : BitVec 8
  size : BitVec 2
  sx : Bool
  ord : Order
  scp : Bool
  agent : Agent
  stor : BitVec 5
  hint : Hint
deriving DecidableEq, Repr

/-- The range mould of R251. -/
structure Rng where
  g : Guard
  s1 : Reg
  k1 : Bool
  s2 : Reg
  k2 : Bool
deriving DecidableEq, Repr

/-- The query and address moulds of 12_memory_instructions: D and an address pair S1. -/
structure Qry where
  g : Guard
  d : Reg
  s1 : Reg
  k1 : Bool
deriving DecidableEq, Repr

/-- The atomic mould of R354 (also R368). -/
structure Atom where
  g : Guard
  d : Reg
  s1 : Reg
  k1 : Bool
  s2 : Reg
  k2 : Bool
  ord : Order
  agent : Agent
  stor : BitVec 5
deriving DecidableEq, Repr

/-- The team-barrier encoding of R365. -/
structure BarOp where
  g : Guard
  d : Reg
  s1 : Reg
  s2 : Reg
  id : BitVec 4
  rlx : Bool
  stor : BitVec 5
deriving DecidableEq, Repr

/-- The copy mould of R310: `spray` is SPRAY 0 to 6, `x` the argument block, `width` WIDTH. -/
structure CopyOp where
  g : Guard
  d : Reg
  s1 : Reg
  k1 : Bool
  s2 : Reg
  k2 : Bool
  x : Reg
  width : BitVec 2
  spray : BitVec 3
deriving DecidableEq, Repr

/-- The matrix mould of R290. -/
structure MatOp where
  g : Guard
  s1 : Reg
  k1 : Bool
  s2 : Reg
  k2 : Bool
  slot : BitVec 3
  tile : BitVec 3
  q : Bool
  z : Bool
deriving DecidableEq, Repr

/-- The Carter data mould of R275 (`p` is the port in D). -/
structure CarOp where
  g : Guard
  p : Reg
  s1 : Reg
  k1 : Bool
  s2 : Reg
  k2 : Bool
  s3 : Reg
  bulk : Bool
  str : Bool
  scale : BitVec 3
  sx : Bool
  esz : BitVec 2
deriving DecidableEq, Repr

/-- The collective mould of R391. -/
structure CollOp where
  g : Guard
  d : Reg
  s1 : Reg
  k1 : Bool
  rlx : Bool
  agent : Agent
  stor : BitVec 5
deriving DecidableEq, Repr

/-- One half of a pair word (R101): `pidx` PIDX, `imm` I. -/
structure PHalf where
  pidx : BitVec 7
  d : Reg
  s : Reg
  g5 : BitVec 5
  gn : Bool
  imm : Bool
deriving DecidableEq, Repr

/-- Stream kinds, with the STREAM_KIND values of R57. -/
inductive Kind where
  | lane | carter | control
deriving DecidableEq, Repr

/-- A stream: its team's TCX (R87), its kind, and its unit: the TID of a lane thread, 4 × c + slot of a Carter stream
on the c-th core of the team, 0 of a control stream. -/
structure SId where
  tcx : Nat
  kind : Kind
  unit : Nat
deriving DecidableEq, Repr

/-- A register write of the host (R36, R433): function whose BAR is written, BAR, offset, bytes and value. -/
structure BarWrite where
  fn : Nat
  bar : Nat
  offset : Nat
  size : Nat
  value : DWord
deriving DecidableEq, Repr

/-- A write of LP_GRAPH_CTL (R47). -/
structure GraphOp where
  fn : Nat
  port : Nat
  size : Nat
  first : BitVec 16
  count : BitVec 16
deriving DecidableEq, Repr

/-- Who walks (R88): a core's first-level TLB or a Dray. -/
inductive Holder where
  | core (c : Nat)
  | dray (d : Nat)
deriving DecidableEq, Repr

/-- A copy: the core of its tracker and its entry (R302). -/
structure CopyId where
  core : Nat
  entry : Nat
deriving DecidableEq, Repr

/-- A request that arrives at this device's Porter (R319 to R327, R361): its job and source, the token it carries, and its
address. -/
structure InReq where
  job : Word
  srcRank : Nat
  token : DWord
  region : Nat
  offset : Nat
deriving DecidableEq, Repr

/-- A copy packet at its target: its bytes by offset in the region, and the region and offset of its notify counter. -/
structure InPacket where
  req : InReq
  copy : Nat
  index : Nat
  data : List (Nat × List Byte)
  notify : Option (Nat × Nat)
deriving DecidableEq, Repr

/-- The read-modify-writes of the atomic instructions (R356, R359, R370). -/
inductive RmwOp where
  | add | add64 | addf | add2h | min | max | umin | umax | minf | maxf | and | or | xor | xchg | cas | cas64 | inc | dec
  | ctadd (err : Bool)
deriving DecidableEq, Repr

/-- An incoming remote atomic (R361): sequence number, time of first sending, operation and the lanes' operands (b, c). -/
structure InAtomic where
  req : InReq
  seq : Nat
  t0 : Nat
  op : RmwOp
  lanes : List (DWord × DWord)
deriving DecidableEq, Repr

/-- What every packet of a collective carries (R376): its job, OP, member set by rank and number, and the shape of its data. -/
structure CollTag where
  job : Word
  op : Nat
  ranks : List Nat
  k : Nat
  algo : Nat
  fmt : Nat
  tripleD : Nat
  chunk : Nat
  total : Nat
deriving DecidableEq, Repr

/-- A collective packet at this device's Porter (R376): its tag, the index of the member that sent it, the generation of the key that
signs it, and whether its MAC matches. -/
structure InColl where
  tag : CollTag
  src : Nat
  keygen : Nat
  macOk : Bool
deriving DecidableEq, Repr

/-- What makes a Miller act (R379): the next steps of an instance of its own, or a packet. -/
inductive MillerIn where
  | own (inst : Nat)
  | packet (p : InColl)
deriving DecidableEq, Repr

/-- A device of a job by its rank. -/
structure Peer where
  job : Word
  rank : Nat
deriving DecidableEq, Repr

/-- The reply of a remote access (R319, R322): data, a NACK with its REASON, or no port (POD_PORT_DOWN, R330). -/
inductive Reply where
  | data (b : List Byte)
  | nack (reason : BitVec 8)
  | portDown
deriving DecidableEq, Repr

/-- The payload of an MCTP request, and whether it comes over the host link in place of the management port (R444). -/
structure MctpReq where
  host : Bool
  bytes : List Byte
deriving DecidableEq, Repr

/-- Where an uncorrectable error lies (R240); a line of a replicated cache in the replica of a cluster. -/
inductive ErrSite where
  | vault (addr : Nat)
  | cacheLine (vcid : Nat) (rep : Option Nat) (base : Nat)
  | hbm (pa : Nat)
deriving DecidableEq, Repr

/-- Units of R438. -/
inductive PowerUnit where
  | cluster (c : Nat)
  | die (d : Nat)
  | channel (p : Nat)
  | device
deriving DecidableEq, Repr

/-- One constructor per row of the opcode table; docstrings name the rule. -/
inductive Instr where
  /-- R153 -/
  | nop (g : Guard)
  /-- R142 -/
  | iadd (o : Alu2)
  | isub (o : Alu2)
  | imul (o : Alu2)
  | imulh (o : Alu2)
  | imulhu (o : Alu2)
  | imad (o : Alu3)
  /-- R143 -/
  | idivs (o : Alu2)
  | idivu (o : Alu2)
  | irem (o : Alu2) (u : Bool)
  /-- R142 -/
  | add64 (o : Alu2)
  | sub64 (o : Alu2)
  | mul64 (o : Alu2)
  | imin (o : Alu2)
  | imax (o : Alu2)
  | umin (o : Alu2)
  | umax (o : Alu2)
  | iabs (o : Alu1) (sat : Bool)
  | ineg (o : Alu1) (sat : Bool)
  | iadds (o : Alu2) (u : Bool)
  | isubs (o : Alu2) (u : Bool)
  | isad (o : Alu3) (u : Bool)
  /-- R144 -/
  | and (o : Alu2)
  | or (o : Alu2)
  | xor (o : Alu2)
  | andn (o : Alu2)
  | not (o : Alu1)
  | lop3 (o : Alu3) (tt : BitVec 8)
  /-- R145 -/
  | shl (o : Alu2)
  | shr (o : Alu2)
  | sar (o : Alu2)
  | rol (o : Alu2)
  | shf (o : Alu3) (fill : Fill)
  | shl64 (o : Alu2)
  | shr64 (o : Alu2) (arith : Bool)
  /-- R146 -/
  | bfe (o : Alu2) (sx : Bool)
  | bfi (o : Alu3)
  /-- R147 -/
  | popc (o : Alu1)
  | clz (o : Alu1)
  | ctz (o : Alu1)
  | brev (o : Alu1)
  | prmt (o : AluR) (sel : BitVec 12) (zero : BitVec 4)
  /-- R148 -/
  | sel (o : Alu3)
  | icmp (o : AluR) (cond : ICond) (u : Bool)
  | icmp64 (o : AluR) (cond : ICond) (u : Bool)
  /-- R149: the register form names its source in S1 with K1, the immediate form has I = 1. -/
  | mov (g : Guard) (d : Reg) (src : Opnd)
  | lih (g : Guard) (d : Reg) (imm : BitVec 16)
  /-- R150 -/
  | movri (o : Alu1) (base : BitVec 8)
  | movwi (g : Guard) (s1 : Reg) (k1 : Bool) (s2 : Reg) (k2 : Bool) (base : BitVec 8)
  /-- R151 -/
  | lea64 (o : Alu2) (sh : BitVec 3) (sx : Bool)
  /-- R152 -/
  | idot4 (o : Alu3) (au : Bool) (bu : Bool)
  | idot2 (o : Alu3) (au : Bool) (bu : Bool)
  /-- R203 -/
  | fadd (o : Alu2) (m : FMod)
  | fsub (o : Alu2) (m : FMod)
  | fmul (o : Alu2) (m : FMod)
  | fdiv (o : Alu2) (m : FMod)
  /-- R204 -/
  | ffma (o : Alu3) (m : FMod)
  | ffms (o : Alu3) (m : FMod)
  | fnma (o : Alu3) (m : FMod)
  /-- R205 -/
  | fmin (o : Alu2) (ftz : Bool)
  | fmax (o : Alu2) (ftz : Bool)
  | fclamp (o : Alu3) (ftz : Bool)
  /-- R206 -/
  | fcmp (o : AluR) (cond : FCond) (ftz : Bool)
  /-- R207 -/
  | fsgn (o : AluR) (op : SgnOp)
  /-- R208 -/
  | frcp (o : Alu1) (m : FMod)
  | frsq (o : Alu1) (m : FMod)
  | fsqrt (o : Alu1) (m : FMod)
  /-- R209 -/
  | fexp2 (o : Alu1) (ftz : Bool)
  | flog2 (o : Alu1) (ftz : Bool)
  | fsin (o : Alu1) (ftz : Bool)
  | fcos (o : Alu1) (ftz : Bool)
  /-- R210 -/
  | frnd (o : Alu1) (m : FMod)
  | fclass (o : Alu1)
  | fscale (o : Alu2) (m : FMod)
  | fexd (o : AluR)
  /-- R211 (`h` is H: true `.f16`) -/
  | hadd2 (o : AluR) (h : Bool) (m : FMod)
  | hmul2 (o : AluR) (h : Bool) (m : FMod)
  | hfma2 (o : Alu3) (h : Bool) (m : FMod)
  | hmin2 (o : AluR) (h : Bool) (ftz : Bool)
  | hmax2 (o : AluR) (h : Bool) (ftz : Bool)
  /-- R212 -/
  | hcmp2 (o : AluR) (h : Bool) (cond : FCond) (ftz : Bool)
  | hdot2 (o : Alu3) (h : Bool) (m : FMod)
  /-- R213 -/
  | dadd (o : AluR) (m : FMod)
  | dmul (o : AluR) (m : FMod)
  | dfma (o : Alu3) (m : FMod)
  /-- R214 -/
  | f2i (o : Alu1) (t : IType) (rnd : Rnd)
  | i2f (o : Alu1) (t : IType) (rnd : Rnd)
  | i2h2 (o : AluR) (sat : Bool) (h : Bool) (u : Bool) (rnd : Rnd)
  /-- R215 -/
  | dcvt (o : Alu1) (dir : CvtDir) (m : FMod)
  /-- R217 -/
  | fpack (o : AluR) (slot : BitVec 3) (pos : BitVec 3)
  | funpk (o : Alu1) (slot : BitVec 3) (pos : BitVec 3) (side : Bool)
  /-- R218 -/
  | q8pack (o : Alu3) (slot : BitVec 3) (pos : BitVec 3)
  | q8unpk (o : AluR) (slot : BitVec 3) (pos : BitVec 3) (side : Bool)
  /-- R219 -/
  | dsenc (o : Alu1) (pos : BitVec 3) (ss4 : Bool)
  | dsdec (o : Alu1) (pos : BitVec 3) (ss4 : Bool)
  /-- R220 -/
  | scfit (o : Alu2)
  | scmul (o : AluR) (inv : Bool) (m : FMod)
  /-- R221: the merge form and, with `mx`, the `.m` form (S1 = S2 = 0). -/
  | atmrg (o : Alu3) (mx : Bool)
  /-- R101 to R104, R222 -/
  | pairWord (a : PHalf) (b : PHalf)
  /-- R157: `f` is the fill register F. -/
  | shfl (o : Alu3)
  | shfx (o : Alu1) (f : Reg) (m : BitVec 6)
  | shup (o : Alu1) (f : Reg) (m : BitVec 6)
  | shdn (o : Alu1) (f : Reg) (m : BitVec 6)
  /-- R158 -/
  | vote (o : Alu1) (op : VoteOp)
  /-- R159 -/
  | gsum (o : Alu1) (f32 : Bool)
  | gmax (o : Alu1) (t : MType)
  | gmin (o : Alu1) (t : MType)
  | gbit (o : Alu1) (op : BitOp)
  /-- R160 -/
  | gscan (o : Alu1) (excl : Bool) (f32 : Bool)
  /-- R157 -/
  | gbcast (o : Alu1) (f : Reg) (m : BitVec 6)
  /-- R161: `match` of the spec -/
  | matchAny (o : Alu1) (i64 : Bool)
  | amask (g : Guard) (d : Reg)
  /-- R163 -/
  | sval (g : Guard) (d : Reg) (code : BitVec 5)
  /-- R169 -/
  | bra (g : Guard) (off : BitVec 26)
  /-- R172: entries (predicate register, negate, offset); K1 kills P0 and K2 kills P1. -/
  | brm (g : Guard) (k1 : Bool) (k2 : Bool) (entries : List (Reg × Bool × Word))
  /-- R171 -/
  | jmp (g : Guard) (s1 : Reg) (k1 : Bool)
  /-- R173: `len` is LEN − 1. -/
  | jtab (g : Guard) (x : Reg) (k1 : Bool) (b : Reg) (k2 : Bool) (len : BitVec 8) (dflt : BitVec 18)
  /-- R169 -/
  | call (g : Guard) (l : Reg) (off : BitVec 26)
  /-- R171 -/
  | callr (g : Guard) (l : Reg) (s1 : Reg) (k1 : Bool)
  | ret (g : Guard) (s1 : Reg) (k1 : Bool)
  /-- R170 -/
  | loop (g : Guard) (c : Reg) (off : BitVec 26)
  /-- R174 -/
  | exit (g : Guard)
  /-- R176: `src` none is SRC = 0; some (M, K1) is SRC = 1. -/
  | jset (g : Guard) (n : BitVec 4) (src : Option (Reg × Bool)) (or : Bool)
  /-- R177 -/
  | join (g : Guard) (n : BitVec 4)
  /-- R178 -/
  | jdrop (g : Guard) (mask : BitVec 16)
  /-- R179 -/
  | jmask (g : Guard) (d : Reg) (n : BitVec 4) (arr : Bool)
  /-- R138 -/
  | yield (g : Guard)
  /-- R137 -/
  | nsleep (g : Guard) (src : Opnd)
  /-- R136 -/
  | bhint (g : Guard) (p : Policy)
  /-- R133: thresholds LDT, STT, CPT, TLT -/
  | wait (g : Guard) (ldt stt cpt tlt : BitVec 8)
  /-- R246 -/
  | ld (o : Acc)
  | st (o : Acc)
  /-- R247 -/
  | ldro (o : Acc)
  /-- R248 -/
  | ldv (o : Acc)
  | stv (o : Acc)
  | ldvw (o : Acc)
  | ldvt (o : Acc)
  | stvp (o : Acc)
  | stvf (o : Acc)
  /-- R252 -/
  | femk (o : Rng) (full : Bool)
  /-- R255 -/
  | feqry (o : Qry)
  /-- R250 -/
  | prf (o : Acc)
  /-- R253 -/
  | cwb (o : Rng)
  | cflush (o : Rng)
  | cinval (o : Rng)
  /-- R254 -/
  | cprio (o : Rng) (p : Prio)
  /-- R256 -/
  | vcq (o : Qry)
  /-- R257 -/
  | ptoa (o : Qry)
  /-- R258 -/
  | sgacq (g : Guard) (s1 : Reg) (k1 : Bool)
  | sgrel (g : Guard) (s1 : Reg) (k1 : Bool)
  /-- R356 -/
  | aadd (o : Atom)
  | aadd64 (o : Atom)
  | aaddf (o : Atom)
  /-- R359 -/
  | aadd2h (o : Atom)
  /-- R356 -/
  | amin (o : Atom) (u : Bool)
  | amax (o : Atom) (u : Bool)
  | aminf (o : Atom)
  | amaxf (o : Atom)
  | aand (o : Atom)
  | aor (o : Atom)
  | axor (o : Atom)
  | axchg (o : Atom)
  | acas (o : Atom)
  | acas64 (o : Atom)
  | ainc (o : Atom)
  | adec (o : Atom)
  /-- R363 -/
  | fence (g : Guard) (ord : Order) (agent : Agent) (stor : BitVec 5)
  /-- R365 -/
  | bar (o : BarOp)
  | bararr (o : BarOp)
  | barwt (o : BarOp)
  /-- R367 -/
  | gbar (g : Guard) (rlx : Bool) (stor : BitVec 5)
  /-- R369 -/
  | waitc (o : Atom)
  /-- R370 -/
  | ctadd (o : Atom) (err : Bool)
  /-- R371 -/
  | ctrd (o : Atom)
  /-- R372 -/
  | hsig (g : Guard) (s1 : Reg) (k1 : Bool) (s2 : Reg) (k2 : Bool) (vector : BitVec 11)
  /-- R373 -/
  | launch (g : Guard) (d : Reg) (s1 : Reg)
  /-- R374 -/
  | gpost (g : Guard) (d : Reg) (s1 : Reg)
  | gpostStart (g : Guard) (d : Reg) (s1 : Reg)
  /-- R311 -/
  | dcopy (o : CopyOp)
  /-- R313 -/
  | tcopy (o : CopyOp)
  /-- R312 -/
  | dfill (o : CopyOp)
  /-- R314 -/
  | dcancel (o : Alu1)
  | dstat (o : Alu1)
  /-- R389: G group register in D, source in S1, argument block X -/
  | mcst (g : Guard) (grp : Reg) (s1 : Reg) (k1 : Bool) (x : Reg)
  | mcput (g : Guard) (grp : Reg) (s1 : Reg) (k1 : Bool) (x : Reg)
  /-- R391 -/
  | coll (o : CollOp)
  | cabort (o : Alu1)
  | cstat (o : Alu1)
  /-- R387 -/
  | wqpush (g : Guard) (s1 : Reg) (k1 : Bool) (s2 : Reg) (k2 : Bool)
  | wqpushClose (g : Guard) (s1 : Reg) (k1 : Bool)
  | wqpushReopen (g : Guard) (s1 : Reg) (k1 : Bool)
  | wqpop (o : Alu1)
  /-- R292 -/
  | mload (o : MatOp)
  /-- R293 -/
  | mswap (g : Guard)
  /-- R297 -/
  | mmul (o : MatOp)
  /-- R295 -/
  | mnew (g : Guard) (tile : BitVec 3)
  | mrel (g : Guard) (tile : BitVec 3)
  /-- R298 -/
  | mdrain (o : MatOp)
  /-- R296 -/
  | mzero (g : Guard) (s2 : Reg) (k2 : Bool) (tile : BitVec 3)
  /-- R294 -/
  | mscA (g : Guard) (s1 : Reg) (k1 : Bool) (slot : BitVec 3)
  | mscB (g : Guard) (s1 : Reg) (k1 : Bool) (slot : BitVec 3)
  /-- R296 -/
  | mtld (g : Guard) (s1 : Reg) (k1 : Bool) (s2 : Reg) (k2 : Bool) (tile : BitVec 3)
  /-- R300 -/
  | mfence (g : Guard)
  /-- R291 -/
  | mcfg (g : Guard) (s1 : Reg) (k1 : Bool) (f : MField)
  /-- R270 -/
  | qbind (g : Guard) (p : Reg) (k : BitVec 4)
  | qbindUn (g : Guard) (p : Reg)
  /-- R271 -/
  | qstat (g : Guard) (d : Reg) (p : Reg)
  /-- R272 -/
  | qpeek (g : Guard) (d : Reg) (p : Reg) (pos : BitVec 4)
  /-- R273 -/
  | qdrop (g : Guard) (d : Reg) (p : Reg) (n : BitVec 5)
  /-- R274 -/
  | cspawn (g : Guard) (d : Reg) (s1 : Reg) (k1 : Bool) (s2 : Reg) (k2 : Bool)
  | cstop (g : Guard) (d : Reg) (slots : BitVec 4)
  /-- R276 to R278 -/
  | aload (o : CarOp)
  | astore (o : CarOp)
  | agath (o : CarOp)
  | ascat (o : CarOp)
  /-- R421 -/
  | trap (g : Guard) (imm : BitVec 16)
  | brk (g : Guard) (imm : BitVec 16)
  /-- R422 -/
  | eret (g : Guard)
  | eretNx (g : Guard)
  /-- R423 -/
  | crd (g : Guard) (d : Reg) (num : BitVec 12)
  | cwr (g : Guard) (s1 : Reg) (k1 : Bool) (num : BitVec 12)
  /-- R424 -/
  | pmrd (g : Guard) (d : Reg) (sel : BitVec 4)
  /-- R411 -/
  | tlbinv (g : Guard) (s1 : Reg) (k1 : Bool) (s2 : Reg) (k2 : Bool) (s3 : Reg)
  | tlbinvAll (g : Guard) (s3 : Reg)
  /-- R412 -/
  | tlbsync (g : Guard) (d : Reg)
  | tlbsyncZero (g : Guard) (d : Reg) (s1 : Reg) (k1 : Bool) (s2 : Reg) (k2 : Bool)
  /-- R414 -/
  | ctxswSwap (g : Guard) (d : Reg) (s2 : Reg) (k2 : Bool)
  | ctxswSv (o : AluR)
  | ctxswLd (o : AluR)
  /-- R417 -/
  | ctxfl (o : Alu1)
  /-- R410 -/
  | fresume (o : AluR) (die : BitVec 2)
  | fresumeFail (o : AluR) (die : BitVec 2)
  /-- R425 -/
  | halt (o : Alu1)
  /-- R238 -/
  | vcdef (g : Guard) (d : Reg) (s1 : Reg) (vcid : BitVec 8)
  | vcdefRm (g : Guard) (d : Reg) (vcid : BitVec 8)
  /-- R239 -/
  | vcmig (g : Guard) (d : Reg) (s1 : Reg) (s2 : Reg) (vcid : BitVec 8)
  /-- R325 -/
  | rgtok (o : AluR)
  | rgtokRm (g : Guard) (d : Reg) (s2 : Reg) (k2 : Bool) (region : BitVec 5)
  /-- R108 -/
  | unassignedOpcode (opc : BitVec 8)
  /-- R405 -/
  | teamEnd (tcx : Nat) (cause : BitVec 8)
  /-- R38 -/
  | lpSubmit (fn : Nat) (port : Nat) (size : Nat) (value : DWord)
  /-- R37: `via` is the function whose BAR 2 carries the write. -/
  | lpConfig (via : Nat) (fn : Nat) (port : Nat) (size : Nat) (value : DWord)
  /-- R47 -/
  | lpGraphInstall (o : GraphOp)
  | lpGraphRemove (o : GraphOp)
  | lpGraphStart (o : GraphOp)
  | graphRemoveComplete (fn : Nat) (port : Nat)
  /-- R423, R36, R433 -/
  | registerWrite (w : BarWrite)
  /-- R39 -/
  | loomTakeSubmission (fn : Nat) (port : Nat)
  /-- R41 -/
  | heldRecordEnter (level : Nat)
  /-- R43 -/
  | gridPromote (grid : Nat)
  | gridReserve (grid : Nat)
  /-- R64 -/
  | placeTeam (grid : Nat)
  /-- R48 -/
  | nodeCompletion (node : Nat)
  /-- R50 -/
  | nodeInstanceRun (node : Nat)
  | waitctrSatisfied (node : Nat)
  /-- R429 -/
  | teamRetire (tcx : Nat)
  /-- R430 -/
  | gridRetire (grid : Nat)
  /-- R121 -/
  | issueAging (sid : SId)
  /-- R125 -/
  | predicateResolve (sid : SId)
  /-- R177 -/
  | joinSlotRelease (tcx : Nat) (group : Nat) (slot : Nat)
  /-- R364: a team barrier, or the grid barrier of the team's grid. -/
  | barrierRelease (tcx : Nat) (id : Option Nat)
  /-- R137 -/
  | nsleepWake (sid : SId)
  /-- R138 -/
  | yieldExpire (sid : SId)
  /-- R264 -/
  | queueStallPark (sid : SId)
  /-- R420 -/
  | watchdogExpire (tcx : Nat)
  /-- R130 -/
  | loadComplete (op : Nat)
  /-- R336 -/
  | storePerformed (op : Nat)
  /-- R358 -/
  | atomicPerform (op : Nat)
  /-- R229 -/
  | vaultBankOp (op : Nat)
  /-- R79 -/
  | pageWalk (who : Holder) (asid : BitVec 16) (va : DWord) (write : Bool)
  /-- R409 -/
  | faultRecordEmit (die : Nat) (entry : Nat)
  /-- R406: the pages probed are an input of the step. -/
  | runahead (sid : SId) (probes : List (DWord × Bool))
  /-- R234 -/
  | dirReadMiss (vcid : Nat) (cluster : Nat) (addr : Nat)
  | dirStore (op : Nat)
  | dirSgacq (op : Nat)
  | dirSgrel (op : Nat)
  | dirEvict (seg : Nat)
  | dirTransitEnd (seg : Nat)
  /-- R227 -/
  | joinQuery (share : Nat)
  | joinGrant (share : Nat) (fn : Nat)
  | joinRelease (share : Nat)
  /-- R238 -/
  | vcRemoveDrain (vcid : Nat)
  /-- R239 -/
  | vcmigSweep (vcid : Nat) (base : Nat)
  | migrationEnd (vcid : Nat)
  /-- R240 -/
  | uncorrectableError (site : ErrSite)
  /-- R241 -/
  | sweeperPass (share : Nat)
  /-- R418 -/
  | coreUncorrectable (tcx : Nat)
  /-- R259 -/
  | entryReady (op : Nat)
  /-- R284 -/
  | tileOpExecute (cluster : Nat)
  /-- R304 -/
  | copyStart (c : CopyId) (dray : Nat)
  /-- R321 -/
  | packetPlace (p : InPacket)
  /-- R322 -/
  | packetAck (c : CopyId) (index : Nat) (data : List Byte)
  | packetNack (c : CopyId) (index : Nat) (reason : BitVec 8)
  | packetRetransmit (c : CopyId) (index : Nat)
  | copyTimeout (c : CopyId) (index : Nat)
  /-- R304 -/
  | copyFinal (c : CopyId)
  /-- R321: source rank and copy identifier of a closed copy at this target. -/
  | copyClose (src : Peer) (copy : Nat)
  /-- R314 -/
  | cancelConfirm (c : CopyId)
  | cancelTimeout (c : CopyId)
  /-- R319: a class-10 load (bytes) or store (data) packet at this target. -/
  | remoteRequest (r : InReq) (load : Option Nat) (data : List Byte)
  | remoteReply (op : Nat) (r : Reply)
  /-- R316, R322 -/
  | remoteAccessTimeout (op : Nat)
  /-- R361 -/
  | remoteAtomicExecute (a : InAtomic)
  | remoteAtomicResend (op : Nat)
  | atomicOutcomeUnknown (op : Nat)
  /-- R329 -/
  | replyCacheExpire (srcRank : Nat) (seq : Nat)
  /-- R315 -/
  | jobSlotValidate (n : Nat) (asid : BitVec 16)
  | jobSlotInvalidate (n : Nat) (asid : BitVec 16)
  | jobSelfRank (n : Nat) (v : BitVec 17)
  | jobSelfNranks (n : Nat) (v : BitVec 17)
  /-- R326 -/
  | regionBaseWrite (n : Nat) (v : Word)
  /-- R328 -/
  | keyInstall (n : Nat) (gen : BitVec 2) (words : List Word)
  | keyRetire (n : Nat) (gen : BitVec 2)
  /-- R385 -/
  | wqCtlWrite (n : Nat) (v : Word)
  /-- R433 -/
  | fnCfgWrite (n : Nat) (v : DWord)
  /-- R379: a Miller step of a collective for a chunk. A packet brings data of the chunk, or with none acknowledges a forward. -/
  | millerStep (x : MillerIn) (chunk : Nat) (data : Option (List Byte))
  /-- R384 -/
  | stepTimeout (inst : Nat) (member : Nat)
  | abortReceive (p : InColl) (member : Nat)
  /-- R382 -/
  | instanceFinal (inst : Nat)
  /-- R386 -/
  | wqChunkPush (inst : Nat) (chunk : Nat)
  /-- R388 -/
  | mcastReplicate (m : Nat) (member : Nat) (reason : BitVec 8)
  /-- R390 -/
  | mcastAck (m : Nat)
  /-- R330 -/
  | ualinkPortDown (port : Nat)
  /-- R434 -/
  | hostLinkLoss
  | hostLinkUp
  /-- R435 -/
  | cxlCompletion (op : Nat)
  | cxlTimeout (op : Nat)
  /-- R431 -/
  | msixUnmask (fn : Nat) (vector : Nat)
  /-- R442 -/
  | eventRecord (event : BitVec 8) (source : BitVec 16) (detail : DWord)
  /-- R440 -/
  | ptpSync (nanos : Nat) (slew : Int) (offset : Nat)
  /-- R438 -/
  | clkGateEnter (cluster : Nat)
  | retainEnter (die : Nat)
  /-- R439 -/
  | hbmSrEnter (channel : Nat)
  /-- R438 -/
  | deepEnter
  | powerWake (u : PowerUnit)
  /-- R436 -/
  | flr (fn : Nat)
  /-- R437 -/
  | pfFlr
  | deviceReset
  /-- R443 -/
  | firmwareStage (stage : Nat) (image : List Byte) (version : Nat)
  /-- R444 -/
  | spdmRequest (nonce : MctpReq)
  | pldmFwUpdate (image : MctpReq) (version : Nat)
  /-- R445 -/
  | pldmMonitor
  | mgmtFlr (fn : Nat)
  | haltAll
  /-- R446 -/
  | crashDump
  /-- R445 -/
  | mgmtKeyInstall (n : Nat) (gen : BitVec 2) (words : List Word)
  | powerLimit (disable : List Nat) (cap : Option Nat)
  /-- R330 -/
  | ualinkPortUp (port : Nat)
  /-- R435 -/
  | cxlLinkDown
  | cxlLinkUp
  /-- R416 -/
  | ctagFlushAck (ctag : Nat)
deriving DecidableEq, Repr

end Sys2Proof
end

