-- ==== Sys2Proof/WellFormed.lean ====
section
/-! DEFINITION. Sys2Proof/WellFormed.lean: the field checks of step 6 of R106 that depend on the instruction alone
(R95 to R100 and each instruction's own map), the registers an instruction names (R96, R119), and the two checks of
step 6 that depend on the stream (R96's REGS, R365's count). -/
namespace Sys2Proof

/-- v240 to v255 name queue ports (R8, R263). -/
def Reg.isPort (r : Reg) : Bool := decide (240 ≤ r.toNat)
/-- A register that is no queue port. -/
def Reg.plain (r : Reg) : Bool := !Reg.isPort r
/-- A 64-bit operand names an even register that is no queue port (R96). -/
def Reg.pair (r : Reg) : Bool := r.toNat % 2 == 0 && Reg.plain r
/-- The next register of a pair or block. -/
def Reg.up (r : Reg) (n : Nat) : Reg := BitVec.ofNat 8 (r.toNat + n)

/-- R98: an unguarded word has G and GN zero; a guard register is no queue port. -/
def Guard.wf (g : Guard) : Bool := if g.en then Reg.plain g.reg else g.reg == 0 && !g.neg

/-- R100: a kill of a queue port is illegal. -/
def killOk (r : Reg) (k : Bool) : Bool := !k || Reg.plain r

def Opnd.wf : Opnd → Bool
  | .reg r k => killOk r k
  | .imm _ => true
/-- Operand 2 is a register form. -/
def Opnd.isReg : Opnd → Bool
  | .reg _ _ => true
  | .imm _ => false
/-- Operand 2 is a register form or an immediate of at most `n`, not negative (R145). -/
def Opnd.count (n : Nat) : Opnd → Bool
  | .reg r k => killOk r k
  | .imm v => decide (v.toNat ≤ n)
/-- Operand 2 is an even pair or an immediate. -/
def Opnd.wide : Opnd → Bool
  | .reg r _ => Reg.pair r
  | .imm _ => true

def Alu1.wf (o : Alu1) : Bool := o.g.wf && killOk o.s1 o.k1
def Alu2.wf (o : Alu2) : Bool := o.g.wf && killOk o.s1 o.k1 && o.b.wf
def Alu3.wf (o : Alu3) : Bool := o.g.wf && killOk o.s1 o.k1 && killOk o.s2 o.k2
def AluR.wf (o : AluR) : Bool := o.g.wf && killOk o.s1 o.k1 && killOk o.s2 o.k2
/-- No operand of the mould is a queue port (R162 and the engine chapters). -/
def Alu1.noPorts (o : Alu1) : Bool := o.g.wf && Reg.plain o.d && Reg.plain o.s1
def AluR.noPorts (o : AluR) : Bool := o.g.wf && Reg.plain o.d && Reg.plain o.s1 && Reg.plain o.s2
def Alu3.noPorts (o : Alu3) : Bool :=
  o.g.wf && Reg.plain o.d && Reg.plain o.s1 && Reg.plain o.s2 && Reg.plain o.s3
/-- The wide mould with two pairs (R140). -/
def Alu2.wide (o : Alu2) : Bool := o.g.wf && Reg.pair o.d && Reg.pair o.s1 && o.b.wide
/-- The wide mould with a 32-bit count (R145, R151). -/
def Alu2.wideCount (o : Alu2) : Bool := o.g.wf && Reg.pair o.d && Reg.pair o.s1 && o.b.wf
/-- An immediate form has the default modifiers (R97, R141). -/
def immDefault (b : Opnd) (dflt : Bool) : Bool := b.isReg || dflt
def FMod.isDefault (m : FMod) : Bool := m.rnd == .rn && !m.ftz
def IType.is64 (t : IType) : Bool := t == .i64 || t == .n64

def AluR.pairs (o : AluR) : Bool := o.g.wf && Reg.pair o.d && Reg.pair o.s1 && Reg.pair o.s2
def Alu3.pairs (o : Alu3) : Bool := o.g.wf && Reg.pair o.d && Reg.pair o.s1 && Reg.pair o.s2 && Reg.pair o.s3

/-- The link register of R169. -/
def linkOk (l : Reg) : Bool := Reg.pair l && l != 0

/-- The conditions of R245 that hold for every access instruction. -/
def Acc.base (o : Acc) : Bool :=
  o.g.wf && Reg.pair o.s1 &&
  (o.scp || (o.ord == .rlx && o.agent == .thr && o.stor == 0)) &&
  (!o.sx || decide (o.size.toNat < 2)) &&
  (o.size != 3 || Reg.pair o.d)
def Acc.wfLoad (o : Acc) : Bool := o.base && o.ord != .rel && o.ord != .ar
def Acc.wfStore (o : Acc) : Bool := o.base && !o.sx && o.ord != .acq && o.ord != .ar
/-- `ldvw`, `ldvt`, `stvp`, `stvf` have SIZE 2 and SX 0 (R245). -/
def Acc.wordOnly (o : Acc) : Bool := o.size == 2 && !o.sx && o.hint == .none

def Rng.wf (o : Rng) : Bool := o.g.wf && Reg.pair o.s1 && Reg.plain o.s2
def Qry.wf (o : Qry) : Bool := o.g.wf && Reg.pair o.s1

/-- R355 for 32-bit D and b. -/
def Atom.wf (o : Atom) : Bool := o.g.wf && Reg.pair o.s1 && Reg.plain o.d && Reg.plain o.s2
def CopyOp.wf (o : CopyOp) : Bool :=
  o.g.wf && Reg.plain o.d && Reg.pair o.s1 && o.x.toNat % 2 == 0 && decide (o.x.toNat ≤ 234) && o.spray != 7
def CarOp.wf (o : CarOp) : Bool :=
  o.g.wf && Reg.isPort o.p && Reg.pair o.s1 && Reg.plain o.s3 && o.esz != 3 && !(o.sx && o.esz == 2)

/-- The control-register numbers of R404. -/
def crListed (n : Nat) : Bool :=
  decide (n ≤ 8) || (decide (0x10 ≤ n) && decide (n ≤ 0x15)) ||
  (decide (0x20 ≤ n) && decide (n ≤ 0x2F) && n % 4 != 3) || n == 0x30 || n == 0x31 ||
  (decide (0x38 ≤ n) && decide (n ≤ 0x3A)) || n == 0x40 || n == 0x41 ||
  (decide (0x100 ≤ n) && decide (n < 0x180) && decide (n % 16 < 8)) ||
  (decide (0x200 ≤ n) && decide (n < 0x300))

/-- A pair half names an eligible operation (R103). -/
def pidxEligible (p : Nat) : Bool :=
  (decide (1 ≤ p) && decide (p ≤ 5)) || (decide (0x0D ≤ p) && decide (p ≤ 0x14)) ||
  (decide (0x16 ≤ p) && decide (p ≤ 0x1A)) || (decide (0x1C ≤ p) && decide (p ≤ 0x1F)) ||
  (decide (0x25 ≤ p) && decide (p ≤ 0x28)) || p == 0x2D ||
  (decide (0x34 ≤ p) && decide (p ≤ 0x36)) || p == 0x3A || p == 0x3B ||
  (decide (0x3E ≤ p) && decide (p ≤ 0x41)) || (decide (0x43 ≤ p) && decide (p ≤ 0x46)) ||
  (decide (0x49 ≤ p) && decide (p ≤ 0x4C)) || p == 0x4E || p == 0x4F

/-- The conditions of R104 on one half. -/
def PHalf.wf (h : PHalf) : Bool :=
  pidxEligible h.pidx.toNat && Reg.plain h.d && (h.imm || Reg.plain h.s) &&
  !(h.imm && decide (0x34 ≤ h.pidx.toNat)) && !(h.g5 == 0 && h.gn)
/-- The register operands of a half that count towards the bank rule (R104). -/
def PHalf.banks (h : PHalf) : List Nat := if h.imm then [h.d.toNat % 4] else [h.d.toNat % 4, h.s.toNat % 4]
/-- The registers a half names, guard included. -/
def PHalf.regs (h : PHalf) : List Reg :=
  (BitVec.setWidth 8 h.g5) :: h.d :: (if h.imm then [] else [h.s])

/-- The 32 unassigned opcodes (R108). -/
def unassigned (opc : BitVec 8) : Bool :=
  let n := opc.toNat
  (decide (0x34 ≤ n) && decide (n ≤ 0x37)) || n == 0x66 || n == 0x67 || n == 0x76 || n == 0x77 ||
  (decide (0x88 ≤ n) && decide (n ≤ 0x8B)) || (decide (0xBA ≤ n) && decide (n ≤ 0xBF)) ||
  (decide (0xCC ≤ n) && decide (n ≤ 0xCF)) || (decide (0xDB ≤ n) && decide (n ≤ 0xDF)) ||
  (decide (0xEA ≤ n) && decide (n ≤ 0xEE))

/-- Field checks of an instruction (R95 to R100 and each instruction's own map); device events have none. -/
def Instr.wf : Instr → Bool
  | .nop g => g.wf
  | .iadd o | .isub o | .imul o | .imulh o | .imulhu o | .idivs o | .idivu o
  | .imin o | .imax o | .umin o | .umax o | .and o | .or o | .xor o | .andn o => o.wf
  | .irem o u | .iadds o u | .isubs o u => o.wf && immDefault o.b (!u)
  | .bfe o sx => o.wf && immDefault o.b (!sx)
  | .add64 o | .sub64 o | .mul64 o => o.wide
  | .iabs o _ | .ineg o _ => o.wf
  | .not o | .popc o | .clz o | .ctz o | .brev o => o.wf
  | .imad o | .bfi o | .sel o => o.wf
  | .isad o _ => o.wf
  | .lop3 o _ => o.wf
  | .shf o _ => o.wf
  | .idot4 o _ _ | .idot2 o _ _ => o.wf
  | .shl o | .shr o | .sar o | .rol o => o.wf && o.b.count 31
  | .shl64 o => o.wideCount && o.b.count 63
  | .shr64 o ar => o.wideCount && o.b.count 63 && immDefault o.b (!ar)
  | .prmt o _ _ => o.wf
  | .icmp o _ _ => o.wf
  | .icmp64 o _ _ => o.g.wf && Reg.pair o.s1 && Reg.pair o.s2
  | .mov g _ src => g.wf && src.wf
  | .lih g d _ => g.wf && Reg.plain d
  | .movri o _ => o.wf
  | .movwi g s1 k1 s2 k2 _ => g.wf && killOk s1 k1 && killOk s2 k2
  | .lea64 o sh sx => o.wideCount && immDefault o.b (sh == 0 && !sx)
  | .fadd o m | .fsub o m | .fmul o m | .fdiv o m | .fscale o m => o.wf && immDefault o.b m.isDefault
  | .ffma o _ | .ffms o _ | .fnma o _ => o.wf
  | .fmin o ftz | .fmax o ftz => o.wf && immDefault o.b (!ftz)
  | .fclamp o _ => o.wf
  | .fcmp o _ _ => o.wf
  | .fsgn o _ => o.wf
  | .frcp o _ | .frsq o _ | .fsqrt o _ | .frnd o _ => o.wf
  | .fexp2 o _ | .flog2 o _ | .fsin o _ | .fcos o _ => o.wf
  | .fclass o => o.wf
  | .fexd o => o.wf
  | .hadd2 o _ _ | .hmul2 o _ _ => o.wf
  | .hfma2 o _ _ | .hdot2 o _ _ => o.wf
  | .hmin2 o _ _ | .hmax2 o _ _ => o.wf
  | .hcmp2 o _ _ _ => o.wf
  | .dadd o _ | .dmul o _ => o.pairs
  | .dfma o _ => o.pairs
  | .f2i o t _ => o.wf && (!t.is64 || Reg.pair o.d)
  | .i2f o t _ => o.wf && (!t.is64 || Reg.pair o.s1)
  | .i2h2 o _ _ _ _ => o.wf
  | .dcvt o dir _ => o.wf && (dir == .f32f64 || Reg.pair o.d) && (dir == .f64f32 || Reg.pair o.s1)
  | .fpack o _ _ => o.wf
  | .funpk o _ _ _ => o.wf
  | .q8pack o _ _ => o.wf
  | .q8unpk o _ _ _ => o.wf
  | .dsenc o pos ss4 | .dsdec o pos ss4 => o.wf && (ss4 || decide (pos.toNat ≤ 3))
  | .scfit o => o.wf
  | .scmul o _ _ => o.wf
  | .atmrg o mx =>
    o.g.wf && Reg.plain o.d && Reg.plain o.s1 && Reg.plain o.s2 && Reg.pair o.s3 &&
    (!mx || (o.s1 == 0 && o.s2 == 0 && !o.k1 && !o.k2))
  | .pairWord a b => a.wf && b.wf && (a.banks ++ b.banks).Nodup
  | .shfl o => o.noPorts
  | .shfx o f _ | .shup o f _ | .shdn o f _ | .gbcast o f _ => o.noPorts && Reg.plain f
  | .vote o op => o.noPorts && (op != .bits || Reg.pair o.d)
  | .gsum o _ => o.noPorts
  | .gmax o _ | .gmin o _ => o.noPorts
  | .gbit o _ => o.noPorts
  | .gscan o _ _ => o.noPorts
  | .matchAny o i64 => o.noPorts && Reg.pair o.d && (!i64 || Reg.pair o.s1)
  | .amask g d => g.wf && Reg.pair d
  | .sval g _ code => g.wf && decide (code.toNat ≤ 0x18)
  | .bra g _ => g.wf
  | .brm g _ k2 es =>
    g.wf && decide (1 ≤ es.length) && decide (es.length ≤ 4) && es.all (fun e => Reg.plain e.1) &&
    (!k2 || decide (2 ≤ es.length))
  | .jmp g s1 _ | .ret g s1 _ => g.wf && Reg.pair s1
  | .jtab g x _ b _ _ _ => g.wf && Reg.plain x && Reg.pair b
  | .call g l _ => g.wf && linkOk l
  | .callr g l s1 _ => g.wf && linkOk l && Reg.pair s1
  | .loop g c _ => g.wf && Reg.plain c && c != 0
  | .exit g | .yield g | .bhint g _ => g.wf
  | .jset g _ src _ => g.wf && (match src with | none => true | some (m, _) => Reg.pair m)
  | .join g _ => g.wf
  | .jdrop g _ => g.wf
  | .jmask g d _ _ => g.wf && Reg.pair d
  | .nsleep g src => g.wf && (match src with | .reg r k => killOk r k | .imm v => !v.msb)
  | .wait g _ _ _ _ => g.wf
  | .ld o => o.wfLoad
  | .st o => o.wfStore
  | .ldro o => o.wfLoad && !o.scp
  | .ldv o => o.wfLoad && o.hint == .none
  | .stv o => o.wfStore && o.hint == .none
  | .ldvw o | .ldvt o => o.wfLoad && o.wordOnly
  | .stvp o | .stvf o => o.wfStore && o.wordOnly
  | .prf o => o.base && !o.scp && o.d == 0 && o.size == 0 && !o.sx && !o.k1
  | .femk o _ | .cprio o _ => o.wf
  | .cwb o | .cflush o | .cinval o => o.wf
  | .feqry o | .vcq o => o.wf
  | .ptoa o => o.wf && Reg.pair o.d
  | .sgacq g s1 _ | .sgrel g s1 _ => g.wf && Reg.pair s1
  | .aadd64 o => o.wf && Reg.pair o.d && Reg.pair o.s2
  | .acas o => o.wf && Reg.pair o.s2
  | .acas64 o => o.wf && Reg.pair o.d && o.s2.toNat % 4 == 0
  | .aadd o | .aaddf o | .aadd2h o | .aminf o | .amaxf o | .aand o | .aor o | .axor o | .axchg o | .ainc o | .adec o => o.wf
  | .amin o _ | .amax o _ => o.wf
  | .fence g _ _ _ => g.wf
  | .bar o => o.g.wf && o.d == 0 && o.s1 == 0 && Reg.plain o.s2
  | .bararr o => o.g.wf && Reg.plain o.d && o.s1 == 0 && Reg.plain o.s2
  | .barwt o => o.g.wf && o.d == 0 && Reg.plain o.s1 && o.s2 == 0
  | .gbar g _ _ => g.wf
  | .waitc o => o.wf && (o.ord == .rlx || o.ord == .acq)
  | .ctadd o _ => o.wf && (o.ord == .rlx || o.ord == .rel)
  | .ctrd o => o.wf && (o.ord == .rlx || o.ord == .acq) && o.s2 == 0 && !o.k2
  | .hsig g s1 k1 s2 k2 _ =>
    g.wf && Reg.pair s1 && Reg.plain s2 && (s1 != 0 || (s2 == 0 && !k1 && !k2))
  | .launch g d s1 => g.wf && Reg.plain d && Reg.pair s1
  | .gpost g d s1 | .gpostStart g d s1 => g.wf && Reg.plain d && Reg.plain s1
  | .dcopy o => o.wf && Reg.pair o.s2 && o.width == 0
  | .tcopy o => o.wf && Reg.pair o.s2 && o.width == 0
  | .dfill o => o.wf && Reg.plain o.s2 && o.width != 3
  | .dcancel o | .dstat o => o.noPorts
  | .mcst g grp s1 _ x => g.wf && Reg.plain grp && Reg.pair s1 && x.toNat % 2 == 0 && decide (x.toNat ≤ 232)
  | .mcput g grp s1 _ x => g.wf && Reg.plain grp && Reg.plain s1 && x.toNat % 2 == 0 && decide (x.toNat ≤ 232)
  | .coll o =>
    o.g.wf && Reg.plain o.d && Reg.pair o.s1 && (o.agent == .dev || o.agent == .pod || o.agent == .sys)
  | .cabort o => o.noPorts && Reg.pair o.s1
  | .cstat o => o.noPorts && Reg.pair o.s1 && Reg.pair o.d
  | .wqpush g s1 _ s2 _ => g.wf && Reg.plain s1 && Reg.plain s2
  | .wqpushClose g s1 _ | .wqpushReopen g s1 _ => g.wf && Reg.plain s1
  | .wqpop o => o.noPorts
  | .mload o => o.g.wf && Reg.pair o.s1 && Reg.plain o.s2 && o.tile == 0 && !o.q && !o.z
  | .mmul o | .mdrain o =>
    o.g.wf && Reg.plain o.s2 && (if o.q then Reg.isPort o.s1 && !o.k1 else Reg.pair o.s1)
  | .mtld g s1 _ s2 _ _ => g.wf && Reg.pair s1 && Reg.plain s2
  | .mswap g | .mfence g => g.wf
  | .mnew g _ | .mrel g _ => g.wf
  | .mzero g s2 _ _ => g.wf && Reg.plain s2
  | .mscA g s1 _ _ | .mscB g s1 _ _ => g.wf && Reg.pair s1
  | .mcfg g s1 _ _ => g.wf && Reg.plain s1
  | .qbind g p _ | .qbindUn g p => g.wf && Reg.isPort p
  | .qstat g d p => g.wf && Reg.plain d && Reg.isPort p
  | .qpeek g d p _ => g.wf && Reg.plain d && Reg.isPort p
  | .qdrop g d p n => g.wf && Reg.plain d && Reg.isPort p && decide (1 ≤ n.toNat) && decide (n.toNat ≤ 16)
  | .cspawn g d s1 _ s2 _ => g.wf && Reg.plain d && Reg.pair s1 && Reg.plain s2
  | .cstop g d _ => g.wf && Reg.plain d
  | .aload o => o.wf && Reg.plain o.s2 && o.scale == 0 && (o.str || o.s3 == 0)
  | .astore o => o.wf && Reg.plain o.s2 && o.scale == 0 && !o.sx && (o.str || o.s3 == 0)
  | .agath o => o.wf && Reg.pair o.s2
  | .ascat o => o.wf && Reg.pair o.s2 && !o.sx
  | .trap g _ | .brk g _ => g.wf
  | .eret g | .eretNx g => g.wf
  | .crd g d num => g.wf && Reg.plain d && crListed num.toNat
  | .cwr g s1 _ num => g.wf && Reg.plain s1 && crListed num.toNat
  | .pmrd g d n => g.wf && Reg.pair d && decide (n.toNat ≤ 8)
  | .tlbinv g s1 _ s2 _ s3 => g.wf && Reg.pair s1 && s1 != 0 && Reg.plain s2 && Reg.plain s3
  | .tlbinvAll g s3 => g.wf && Reg.plain s3
  | .tlbsync g d => g.wf && Reg.plain d
  | .tlbsyncZero g d s1 _ s2 _ => g.wf && Reg.plain d && Reg.pair s1 && Reg.plain s2
  | .ctxswSwap g d s2 _ => g.wf && Reg.plain d && Reg.plain s2
  | .ctxswSv o | .ctxswLd o => o.noPorts && Reg.pair o.s1 && o.s1 != 0
  | .ctxfl o | .halt o => o.noPorts
  | .fresume o _ | .fresumeFail o _ => o.noPorts && Reg.pair o.s1
  | .vcdef g d s1 _ => g.wf && Reg.plain d && Reg.pair s1 && s1 != 0
  | .vcdefRm g d _ => g.wf && Reg.plain d
  | .vcmig g d s1 s2 _ => g.wf && Reg.plain d && Reg.pair s1 && s1 != 0 && Reg.pair s2
  | .rgtok o => o.noPorts && Reg.pair o.s1 && o.s1 != 0
  | .rgtokRm g d s2 _ _ => g.wf && Reg.plain d && Reg.plain s2
  | .unassignedOpcode opc => unassigned opc
  | _ => true

/-- A register and the next one. -/
def two (r : Reg) : List Reg := [r, r.up 1]
/-- A block of `n` registers from `r`. -/
def block (r : Reg) (n : Nat) : List Reg := (List.range n).map r.up

def Guard.regs (g : Guard) : List Reg := if g.en then [g.reg] else []
def Opnd.regs : Opnd → List Reg
  | .reg r _ => [r]
  | .imm _ => []
def Opnd.regs2 : Opnd → List Reg
  | .reg r _ => two r
  | .imm _ => []
def Alu1.regs (o : Alu1) : List Reg := o.g.regs ++ [o.d, o.s1]
def Alu2.regs (o : Alu2) : List Reg := o.g.regs ++ [o.d, o.s1] ++ o.b.regs
def Alu3.regs (o : Alu3) : List Reg := o.g.regs ++ [o.d, o.s1, o.s2, o.s3]
def AluR.regs (o : AluR) : List Reg := o.g.regs ++ [o.d, o.s1, o.s2]
def AluR.regs2 (o : AluR) : List Reg := o.g.regs ++ two o.d ++ two o.s1 ++ two o.s2
def Acc.regs (o : Acc) : List Reg := o.g.regs ++ two o.s1 ++ (if o.size == 3 then two o.d else [o.d])
def Rng.regs (o : Rng) : List Reg := o.g.regs ++ two o.s1 ++ [o.s2]
def Atom.regs (o : Atom) : List Reg := o.g.regs ++ two o.s1 ++ [o.d, o.s2]
def MatOp.regs (o : MatOp) : List Reg := o.g.regs ++ (if o.q then [] else two o.s1) ++ [o.s2]

/-- Every register of v0 to v255 an instruction names, each register of a pair or block included (R96, R119). -/
def Instr.regs : Instr → List Reg
  | .nop g | .bra g _ | .exit g | .yield g | .bhint g _ | .join g _ | .jdrop g _ | .wait g _ _ _ _
  | .fence g _ _ _ | .gbar g _ _ | .mswap g | .mfence g | .mnew g _ | .mrel g _ | .trap g _ | .brk g _
  | .eret g | .eretNx g => g.regs
  | .iadd o | .isub o | .imul o | .imulh o | .imulhu o | .idivs o | .idivu o | .imin o | .imax o | .umin o | .umax o
  | .and o | .or o | .xor o | .andn o | .shl o | .shr o | .sar o | .rol o | .scfit o => o.regs
  | .irem o _ | .iadds o _ | .isubs o _ | .bfe o _ | .fmin o _ | .fmax o _ => o.regs
  | .fadd o _ | .fsub o _ | .fmul o _ | .fdiv o _ | .fscale o _ => o.regs
  | .add64 o | .sub64 o | .mul64 o => o.g.regs ++ two o.d ++ two o.s1 ++ o.b.regs2
  | .shl64 o => o.g.regs ++ two o.d ++ two o.s1 ++ o.b.regs
  | .shr64 o _ => o.g.regs ++ two o.d ++ two o.s1 ++ o.b.regs
  | .lea64 o _ _ => o.g.regs ++ two o.d ++ two o.s1 ++ o.b.regs
  | .iabs o _ | .ineg o _ | .fexp2 o _ | .flog2 o _ | .fsin o _ | .fcos o _ => o.regs
  | .not o | .popc o | .clz o | .ctz o | .brev o | .fclass o => o.regs
  | .movri o _ => o.regs
  | .frcp o _ | .frsq o _ | .fsqrt o _ | .frnd o _ => o.regs
  | .imad o | .bfi o | .sel o | .shfl o => o.regs
  | .isad o _ | .fclamp o _ => o.regs
  | .lop3 o _ => o.regs
  | .shf o _ => o.regs
  | .idot4 o _ _ | .idot2 o _ _ => o.regs
  | .ffma o _ | .ffms o _ | .fnma o _ => o.regs
  | .hfma2 o _ _ | .hdot2 o _ _ => o.regs
  | .q8pack o _ _ => o.regs
  | .prmt o _ _ => o.regs
  | .icmp o _ _ => o.regs
  | .icmp64 o _ _ => o.g.regs ++ [o.d] ++ two o.s1 ++ two o.s2
  | .fcmp o _ _ => o.regs
  | .fsgn o _ => o.regs
  | .fexd o => o.regs
  | .hadd2 o _ _ | .hmul2 o _ _ => o.regs
  | .hmin2 o _ _ | .hmax2 o _ _ => o.regs
  | .hcmp2 o _ _ _ => o.regs
  | .i2h2 o _ _ _ _ => o.regs
  | .fpack o _ _ => o.regs
  | .q8unpk o _ _ _ => o.regs
  | .scmul o _ _ => o.regs
  | .dadd o _ | .dmul o _ => o.regs2
  | .dfma o _ => o.g.regs ++ two o.d ++ two o.s1 ++ two o.s2 ++ two o.s3
  | .f2i o t _ => o.g.regs ++ (if t.is64 then two o.d else [o.d]) ++ [o.s1]
  | .i2f o t _ => o.g.regs ++ [o.d] ++ (if t.is64 then two o.s1 else [o.s1])
  | .dcvt o dir _ =>
    o.g.regs ++ (if dir == .f32f64 then [o.d] else two o.d) ++ (if dir == .f64f32 then [o.s1] else two o.s1)
  | .funpk o _ _ _ => o.regs
  | .dsenc o _ _ | .dsdec o _ _ => o.regs
  | .atmrg o _ => o.g.regs ++ [o.d, o.s1, o.s2] ++ two o.s3
  | .pairWord a b => a.regs ++ b.regs
  | .mov g d src => g.regs ++ [d] ++ src.regs
  | .lih g d _ => g.regs ++ [d]
  | .movwi g s1 _ s2 _ _ => g.regs ++ [s1, s2]
  | .shfx o f _ | .shup o f _ | .shdn o f _ | .gbcast o f _ => o.regs ++ [f]
  | .vote o op => o.g.regs ++ (if op == .bits then two o.d else [o.d]) ++ [o.s1]
  | .gsum o _ => o.regs
  | .gmax o _ | .gmin o _ => o.regs
  | .gbit o _ => o.regs
  | .gscan o _ _ => o.regs
  | .matchAny o i64 => o.g.regs ++ two o.d ++ (if i64 then two o.s1 else [o.s1])
  | .amask g d => g.regs ++ two d
  | .sval g d _ => g.regs ++ [d]
  | .brm g _ _ es => g.regs ++ es.map (·.1)
  | .jmp g s1 _ | .ret g s1 _ => g.regs ++ two s1
  | .jtab g x _ b _ _ _ => g.regs ++ [x] ++ two b
  | .call g l _ => g.regs ++ two l
  | .callr g l s1 _ => g.regs ++ two l ++ two s1
  | .loop g c _ => g.regs ++ [c]
  | .jset g _ src _ => g.regs ++ (match src with | none => [] | some (m, _) => two m)
  | .jmask g d _ _ => g.regs ++ two d
  | .nsleep g src => g.regs ++ src.regs
  | .ld o | .st o | .ldro o | .ldv o | .stv o | .ldvw o | .ldvt o | .stvp o | .stvf o | .prf o => o.regs
  | .femk o _ | .cprio o _ => o.regs
  | .cwb o | .cflush o | .cinval o => o.regs
  | .feqry o | .vcq o => o.g.regs ++ [o.d] ++ two o.s1
  | .ptoa o => o.g.regs ++ two o.d ++ two o.s1
  | .sgacq g s1 _ | .sgrel g s1 _ => g.regs ++ two s1
  | .aadd64 o => o.g.regs ++ two o.d ++ two o.s1 ++ two o.s2
  | .acas o => o.g.regs ++ [o.d] ++ two o.s1 ++ two o.s2
  | .acas64 o => o.g.regs ++ two o.d ++ two o.s1 ++ block o.s2 4
  | .aadd o | .aaddf o | .aadd2h o | .aminf o | .amaxf o | .aand o | .aor o | .axor o | .axchg o | .ainc o | .adec o
  | .waitc o | .ctrd o => o.regs
  | .amin o _ | .amax o _ | .ctadd o _ => o.regs
  | .bar o | .bararr o | .barwt o => o.g.regs ++ [o.d, o.s1, o.s2]
  | .hsig g s1 _ s2 _ _ => g.regs ++ two s1 ++ [s2]
  | .launch g d s1 => g.regs ++ [d] ++ two s1
  | .gpost g d s1 | .gpostStart g d s1 => g.regs ++ [d, s1]
  | .dcopy o | .tcopy o => o.g.regs ++ [o.d] ++ two o.s1 ++ two o.s2 ++ block o.x 6
  | .dfill o => o.g.regs ++ [o.d, o.s2] ++ two o.s1 ++ block o.x 6
  | .dcancel o | .dstat o | .wqpop o | .ctxfl o | .halt o => o.regs
  | .mcst g grp s1 _ x => g.regs ++ [grp] ++ two s1 ++ block x 8
  | .mcput g grp s1 _ x => g.regs ++ [grp, s1] ++ block x 8
  | .coll o => o.g.regs ++ [o.d] ++ two o.s1
  | .cabort o => o.g.regs ++ [o.d] ++ two o.s1
  | .cstat o => o.g.regs ++ two o.d ++ two o.s1
  | .wqpush g s1 _ s2 _ => g.regs ++ [s1, s2]
  | .wqpushClose g s1 _ | .wqpushReopen g s1 _ => g.regs ++ [s1]
  | .mload o | .mmul o | .mdrain o => o.regs
  | .mtld g s1 _ s2 _ _ => g.regs ++ two s1 ++ [s2]
  | .mzero g s2 _ _ => g.regs ++ [s2]
  | .mscA g s1 _ _ | .mscB g s1 _ _ => g.regs ++ two s1
  | .mcfg g s1 _ _ => g.regs ++ [s1]
  | .qbind g _ _ | .qbindUn g _ => g.regs
  | .qstat g d _ => g.regs ++ [d]
  | .qpeek g d _ _ => g.regs ++ [d]
  | .qdrop g d _ _ => g.regs ++ [d]
  | .cspawn g d s1 _ s2 _ => g.regs ++ [d, s2] ++ two s1
  | .cstop g d _ => g.regs ++ [d]
  | .aload o | .astore o => o.g.regs ++ two o.s1 ++ [o.s2, o.s3]
  | .agath o | .ascat o => o.g.regs ++ two o.s1 ++ two o.s2 ++ [o.s3]
  | .crd g d _ => g.regs ++ [d]
  | .cwr g s1 _ _ => g.regs ++ [s1]
  | .pmrd g d _ => g.regs ++ two d
  | .tlbinv g s1 _ s2 _ s3 => g.regs ++ two s1 ++ [s2, s3]
  | .tlbinvAll g s3 => g.regs ++ [s3]
  | .tlbsync g d => g.regs ++ [d]
  | .tlbsyncZero g d s1 _ s2 _ => g.regs ++ [d, s2] ++ two s1
  | .ctxswSwap g d s2 _ => g.regs ++ [d, s2]
  | .ctxswSv o | .ctxswLd o => o.g.regs ++ [o.d, o.s2] ++ two o.s1
  | .fresume o _ | .fresumeFail o _ => o.g.regs ++ [o.d, o.s2] ++ two o.s1
  | .vcdef g d s1 _ => g.regs ++ [d] ++ two s1
  | .vcdefRm g d _ => g.regs ++ [d]
  | .vcmig g d s1 s2 _ => g.regs ++ [d] ++ two s1 ++ two s2
  | .rgtok o => o.g.regs ++ [o.d, o.s2] ++ two o.s1
  | .rgtokRm g d s2 _ _ => g.regs ++ [d, s2]
  | _ => []

/-- R96 for a stream that owns v0 to v(`regs` − 1): no register of v(`regs`) to v239 is named. -/
def Instr.regsOk (i : Instr) (regs : Nat) : Bool :=
  i.regs.all fun r => decide (r.toNat < regs) || Reg.isPort r

/-- Step 6 of R106 that depends on the stream: REGS in a lane stream (R96), and the count a Carter or control stream
must give at `bararr` (R365). -/
def Instr.streamOk (i : Instr) (kind : Kind) (regs : Nat) : Bool :=
  match kind with
  | .lane => i.regsOk regs
  | _ => match i with
    | .bararr o => o.s2 != 0
    | _ => true

end Sys2Proof
end

