-- ==== Sys2Proof/Decode.lean ====
section
/-! DEFINITION. Sys2Proof/Decode.lean: the encodings (R93 to R108 and each instruction's map): fields of a full word,
the encoder of a well-formed instruction, and the decoder, total on all words. A field the instruction does not use
must be zero (R95), so a word is accepted exactly when the instruction read from it encodes to that word. -/
namespace Sys2Proof

/-- The fields of a full-format word (R94). -/
structure Fields where
  opc : BitVec 8
  d : BitVec 8
  s1 : BitVec 8
  s2 : BitVec 8
  g : BitVec 8
  ge : Bool
  gn : Bool
  i : Bool
  k1 : Bool
  k2 : Bool
  md : BitVec 18
deriving DecidableEq, Repr

/-- One bit. -/
def bit (b : Bool) : BitVec 1 := BitVec.ofBool b

/-- The full-format word of the fields, P = 0 (R94). -/
def Fields.word (f : Fields) : DWord :=
  bit false ++ f.opc ++ f.d ++ f.s1 ++ f.s2 ++ f.g ++ bit f.ge ++ bit f.gn ++ bit f.i ++ bit f.k1 ++ bit f.k2 ++ f.md

/-- The fields of a full-format word (R94). -/
def fieldsOf (w : DWord) : Fields where
  opc := w.extractLsb' 55 8
  d := w.extractLsb' 47 8
  s1 := w.extractLsb' 39 8
  s2 := w.extractLsb' 31 8
  g := w.extractLsb' 23 8
  ge := w.getLsbD 22
  gn := w.getLsbD 21
  i := w.getLsbD 20
  k1 := w.getLsbD 19
  k2 := w.getLsbD 18
  md := w.extractLsb' 0 18

/-- The guard of the fields (R98). -/
def Fields.guard (f : Fields) : Guard := ⟨f.ge, f.g, f.gn⟩
/-- A field of MOD. -/
def Fields.fld (f : Fields) (start len : Nat) : BitVec len := f.md.extractLsb' start len
/-- A bit of MOD. -/
def Fields.mbit (f : Fields) (n : Nat) : Bool := f.md.getLsbD n
/-- The 26-bit immediate {S2, MOD} (R97). -/
def Fields.imm26 (f : Fields) : BitVec 26 := f.s2 ++ f.md

/-! ### Codes of the modifiers -/

def ICond.code : ICond → BitVec 3
  | .eq => 0 | .ne => 1 | .lt => 2 | .le => 3 | .gt => 4 | .ge => 5
def ICond.ofCode (c : BitVec 3) : Option ICond := [ICond.eq, .ne, .lt, .le, .gt, .ge][c.toNat]?
def FCond.code : FCond → BitVec 3
  | .eq => 0 | .ne => 1 | .lt => 2 | .le => 3 | .gt => 4 | .ge => 5 | .ord => 6 | .uno => 7
def FCond.ofCode (c : BitVec 3) : Option FCond := [FCond.eq, .ne, .lt, .le, .gt, .ge, .ord, .uno][c.toNat]?
def Rnd.code : Rnd → BitVec 3
  | .rn => 0 | .rz => 1 | .ru => 2 | .rd => 3 | .rna => 4
def Rnd.ofCode (c : BitVec 3) : Option Rnd := [Rnd.rn, .rz, .ru, .rd, .rna][c.toNat]?
def Fill.code : Fill → BitVec 2
  | .rot => 0 | .z => 1 | .s => 2
def Fill.ofCode (c : BitVec 2) : Option Fill := [Fill.rot, .z, .s][c.toNat]?
def SgnOp.code : SgnOp → BitVec 2
  | .cpy => 0 | .neg => 1 | .xor => 2
def SgnOp.ofCode (c : BitVec 2) : Option SgnOp := [SgnOp.cpy, .neg, .xor][c.toNat]?
def IType.code : IType → BitVec 2
  | .i32 => 0 | .n32 => 1 | .i64 => 2 | .n64 => 3
def IType.ofCode (c : BitVec 2) : Option IType := [IType.i32, .n32, .i64, .n64][c.toNat]?
def CvtDir.code : CvtDir → BitVec 2
  | .f32f64 => 0 | .f64f32 => 1 | .i64f64 => 2 | .f64i64 => 3
def CvtDir.ofCode (c : BitVec 2) : Option CvtDir := [CvtDir.f32f64, .f64f32, .i64f64, .f64i64][c.toNat]?
def VoteOp.code : VoteOp → BitVec 3
  | .every => 0 | .some => 1 | .same => 2 | .bits => 3 | .count => 4
def VoteOp.ofCode (c : BitVec 3) : Option VoteOp := [VoteOp.every, .some, .same, .bits, .count][c.toNat]?
def MType.code : MType → BitVec 2
  | .i32 => 0 | .n32 => 1 | .f32 => 2
def MType.ofCode (c : BitVec 2) : Option MType := [MType.i32, .n32, .f32][c.toNat]?
def BitOp.code : BitOp → BitVec 2
  | .and => 0 | .or => 1 | .xor => 2
def BitOp.ofCode (c : BitVec 2) : Option BitOp := [BitOp.and, .or, .xor][c.toNat]?
def Policy.code : Policy → BitVec 2
  | .last => 0 | .all => 1 | .none => 2 | .off => 3
def Policy.ofCode (c : BitVec 2) : Option Policy := [Policy.last, .all, .none, .off][c.toNat]?
def Order.code : Order → BitVec 3
  | .rlx => 0 | .acq => 1 | .rel => 2 | .ar => 3 | .sc => 4
def Order.ofCode (c : BitVec 3) : Option Order := [Order.rlx, .acq, .rel, .ar, .sc][c.toNat]?
def Agent.code : Agent → BitVec 3
  | .thr => 0 | .grp => 1 | .team => 2 | .clu => 3 | .dev => 4 | .pod => 5 | .sys => 6
def Agent.ofCode (c : BitVec 3) : Option Agent := [Agent.thr, .grp, .team, .clu, .dev, .pod, .sys][c.toNat]?
def Hint.code : Hint → BitVec 2
  | .none => 0 | .ef => 1 | .el => 2
def Hint.ofCode (c : BitVec 2) : Option Hint := [Hint.none, .ef, .el][c.toNat]?
def Prio.code : Prio → BitVec 2
  | .first => 0 | .normal => 1 | .last => 2
def Prio.ofCode (c : BitVec 2) : Option Prio := [Prio.first, .normal, .last][c.toNat]?
def MField.code : MField → BitVec 3
  | .astride => 0 | .bstride => 1 | .dstride => 2 | .tstride => 3 | .sstride => 4
def MField.ofCode (c : BitVec 3) : Option MField := [MField.astride, .bstride, .dstride, .tstride, .sstride][c.toNat]?

/-! ### Encoding -/

/-- A word with opcode and guard, every other field zero. -/
def enc0 (opc : BitVec 8) (g : Guard) (md : BitVec 18) : Fields :=
  ⟨opc, 0, 0, 0, g.reg, g.en, g.neg, false, false, false, md⟩
def encA1 (opc : BitVec 8) (o : Alu1) (md : BitVec 18) : Fields :=
  { enc0 opc o.g md with d := o.d, s1 := o.s1, k1 := o.k1 }
def encR (opc : BitVec 8) (o : AluR) (md : BitVec 18) : Fields :=
  { enc0 opc o.g md with d := o.d, s1 := o.s1, k1 := o.k1, s2 := o.s2, k2 := o.k2 }
/-- Operand 2 of I = 1 takes S2 and MOD (R97). -/
def encB (f : Fields) : Opnd → Fields
  | .reg r k => { f with s2 := r, k2 := k }
  | .imm v => { f with i := true, s2 := v.extractLsb' 18 8, md := v.extractLsb' 0 18 }
def encA2 (opc : BitVec 8) (o : Alu2) (md : BitVec 18) : Fields :=
  encB { enc0 opc o.g md with d := o.d, s1 := o.s1, k1 := o.k1 } o.b
def encA3 (opc : BitVec 8) (o : Alu3) (lo : BitVec 10) : Fields :=
  { enc0 opc o.g (o.s3 ++ lo) with d := o.d, s1 := o.s1, k1 := o.k1, s2 := o.s2, k2 := o.k2 }
def FMod.bits (m : FMod) : BitVec 4 := bit m.ftz ++ m.rnd.code
/-- The MOD of one low bit. -/
def md1 (b : Bool) : BitVec 18 := (0 : BitVec 17) ++ bit b
def mdF (m : FMod) : BitVec 18 := (0 : BitVec 14) ++ m.bits
def loF (m : FMod) : BitVec 10 := (0 : BitVec 6) ++ m.bits
def mdH (h : Bool) (m : FMod) : BitVec 18 := (0 : BitVec 13) ++ bit h ++ m.bits
def loH (h : Bool) (m : FMod) : BitVec 10 := (0 : BitVec 5) ++ bit h ++ m.bits
/-- FTZ alone, with the low three bits given. -/
def mdZ (ftz : Bool) (lo : BitVec 3) : BitVec 18 := (0 : BitVec 14) ++ bit ftz ++ lo
def encOff (opc : BitVec 8) (g : Guard) (off : BitVec 26) : Fields :=
  { enc0 opc g (off.extractLsb' 0 18) with i := true, s2 := off.extractLsb' 18 8 }
def encAcc (opc : BitVec 8) (o : Acc) : Fields :=
  { enc0 opc o.g (o.size ++ bit o.sx ++ o.ord.code ++ bit o.scp ++ o.agent.code ++ o.stor ++ o.hint.code ++ bit false)
    with d := o.d, s1 := o.s1, k1 := o.k1, s2 := o.off }
def encRng (opc : BitVec 8) (o : Rng) (md : BitVec 18) : Fields :=
  { enc0 opc o.g md with s1 := o.s1, k1 := o.k1, s2 := o.s2, k2 := o.k2 }
def encQry (opc : BitVec 8) (o : Qry) : Fields := { enc0 opc o.g 0 with d := o.d, s1 := o.s1, k1 := o.k1 }
def encAtom (opc : BitVec 8) (o : Atom) (u : Bool) : Fields :=
  { enc0 opc o.g ((0 : BitVec 2) ++ bit u ++ o.ord.code ++ bit false ++ o.agent.code ++ o.stor ++ (0 : BitVec 3))
    with d := o.d, s1 := o.s1, k1 := o.k1, s2 := o.s2, k2 := o.k2 }
def encBar (opc : BitVec 8) (o : BarOp) : Fields :=
  { enc0 opc o.g (o.id ++ (0 : BitVec 2) ++ bit o.rlx ++ (0 : BitVec 3) ++ o.stor ++ (0 : BitVec 3))
    with d := o.d, s1 := o.s1, s2 := o.s2 }
def encCopy (opc : BitVec 8) (o : CopyOp) : Fields :=
  { enc0 opc o.g (o.x ++ (0 : BitVec 5) ++ o.width ++ o.spray)
    with d := o.d, s1 := o.s1, k1 := o.k1, s2 := o.s2, k2 := o.k2 }
def mdMat (slot tile : BitVec 3) (q z side : Bool) : BitVec 18 :=
  (0 : BitVec 8) ++ slot ++ tile ++ bit q ++ bit z ++ bit false ++ bit side
def encMat (opc : BitVec 8) (o : MatOp) : Fields :=
  { enc0 opc o.g (mdMat o.slot o.tile o.q o.z false) with s1 := o.s1, k1 := o.k1, s2 := o.s2, k2 := o.k2 }
def encCar (opc : BitVec 8) (o : CarOp) : Fields :=
  { enc0 opc o.g (o.s3 ++ bit o.bulk ++ bit o.str ++ o.scale ++ (0 : BitVec 2) ++ bit o.sx ++ o.esz)
    with d := o.p, s1 := o.s1, k1 := o.k1, s2 := o.s2, k2 := o.k2 }
def encShf (opc : BitVec 8) (o : Alu1) (f : Reg) (m : BitVec 6) : Fields := encA1 opc o (f ++ (0 : BitVec 4) ++ m)
def mdSP (slot pos : BitVec 3) (side : Bool) : BitVec 18 := (0 : BitVec 8) ++ slot ++ pos ++ (0 : BitVec 3) ++ bit side

/-- The full-format fields of an instruction; none for a pair word and for a device event. -/
def encFields : Instr → Option Fields
  | .nop g => some (enc0 0x00 g 0)
  | .iadd o => some (encA2 0x01 o 0)
  | .isub o => some (encA2 0x02 o 0)
  | .imul o => some (encA2 0x03 o 0)
  | .imulh o => some (encA2 0x04 o 0)
  | .imulhu o => some (encA2 0x05 o 0)
  | .imad o => some (encA3 0x06 o 0)
  | .idivs o => some (encA2 0x07 o 0)
  | .idivu o => some (encA2 0x08 o 0)
  | .irem o u => some (encA2 0x09 o (md1 u))
  | .add64 o => some (encA2 0x0A o 0)
  | .sub64 o => some (encA2 0x0B o 0)
  | .mul64 o => some (encA2 0x0C o 0)
  | .imin o => some (encA2 0x0D o 0)
  | .imax o => some (encA2 0x0E o 0)
  | .umin o => some (encA2 0x0F o 0)
  | .umax o => some (encA2 0x10 o 0)
  | .iabs o sat => some (encA1 0x11 o (md1 sat))
  | .ineg o sat => some (encA1 0x12 o (md1 sat))
  | .iadds o u => some (encA2 0x13 o (md1 u))
  | .isubs o u => some (encA2 0x14 o (md1 u))
  | .isad o u => some (encA3 0x15 o ((0 : BitVec 9) ++ bit u))
  | .and o => some (encA2 0x16 o 0)
  | .or o => some (encA2 0x17 o 0)
  | .xor o => some (encA2 0x18 o 0)
  | .andn o => some (encA2 0x19 o 0)
  | .not o => some (encA1 0x1A o 0)
  | .lop3 o tt => some (encA3 0x1B o ((0 : BitVec 2) ++ tt))
  | .shl o => some (encA2 0x1C o 0)
  | .shr o => some (encA2 0x1D o 0)
  | .sar o => some (encA2 0x1E o 0)
  | .rol o => some (encA2 0x1F o 0)
  | .shf o f => some (encA3 0x20 o ((0 : BitVec 8) ++ f.code))
  | .shl64 o => some (encA2 0x21 o 0)
  | .shr64 o ar => some (encA2 0x22 o (md1 ar))
  | .bfe o sx => some (encA2 0x23 o (md1 sx))
  | .bfi o => some (encA3 0x24 o 0)
  | .popc o => some (encA1 0x25 o 0)
  | .clz o => some (encA1 0x26 o 0)
  | .ctz o => some (encA1 0x27 o 0)
  | .brev o => some (encA1 0x28 o 0)
  | .prmt o s z => some (encR 0x29 o ((0 : BitVec 2) ++ z ++ s))
  | .sel o => some (encA3 0x2A o 0)
  | .icmp o c u => some (encR 0x2B o ((0 : BitVec 14) ++ bit u ++ c.code))
  | .icmp64 o c u => some (encR 0x2C o ((0 : BitVec 14) ++ bit u ++ c.code))
  | .mov g d src => some (match src with
    | .reg r k => { enc0 0x2D g 0 with d := d, s1 := r, k1 := k }
    | .imm v => encB { enc0 0x2D g 0 with d := d } (.imm v))
  | .lih g d v => some { enc0 0x2E g ((0 : BitVec 2) ++ v) with d := d, i := true }
  | .movri o base => some (encA1 0x2F o ((0 : BitVec 10) ++ base))
  | .movwi g s1 k1 s2 k2 base =>
    some { enc0 0x30 g ((0 : BitVec 10) ++ base) with s1 := s1, k1 := k1, s2 := s2, k2 := k2 }
  | .lea64 o sh sx => some (encA2 0x31 o ((0 : BitVec 14) ++ bit sx ++ sh))
  | .idot4 o au bu => some (encA3 0x32 o ((0 : BitVec 8) ++ bit bu ++ bit au))
  | .idot2 o au bu => some (encA3 0x33 o ((0 : BitVec 8) ++ bit bu ++ bit au))
  | .fadd o m => some (encA2 0x38 o (mdF m))
  | .fsub o m => some (encA2 0x39 o (mdF m))
  | .fmul o m => some (encA2 0x3A o (mdF m))
  | .ffma o m => some (encA3 0x3B o (loF m))
  | .ffms o m => some (encA3 0x3C o (loF m))
  | .fnma o m => some (encA3 0x3D o (loF m))
  | .fmin o z => some (encA2 0x3E o (mdZ z 0))
  | .fmax o z => some (encA2 0x3F o (mdZ z 0))
  | .fcmp o c z => some (encR 0x40 o (mdZ z c.code))
  | .fclamp o z => some (encA3 0x41 o (loF ⟨.rn, z⟩))
  | .fsgn o op => some (encR 0x42 o ((0 : BitVec 16) ++ op.code))
  | .frcp o m => some (encA1 0x43 o (mdF m))
  | .frsq o m => some (encA1 0x44 o (mdF m))
  | .fsqrt o m => some (encA1 0x45 o (mdF m))
  | .fdiv o m => some (encA2 0x46 o (mdF m))
  | .fexp2 o z => some (encA1 0x47 o (mdZ z 0))
  | .flog2 o z => some (encA1 0x48 o (mdZ z 0))
  | .fsin o z => some (encA1 0x49 o (mdZ z 0))
  | .fcos o z => some (encA1 0x4A o (mdZ z 0))
  | .frnd o m => some (encA1 0x4B o (mdF m))
  | .fclass o => some (encA1 0x4C o 0)
  | .fscale o m => some (encA2 0x4D o (mdF m))
  | .fexd o => some (encR 0x4E o 0)
  | .hadd2 o h m => some (encR 0x4F o (mdH h m))
  | .hmul2 o h m => some (encR 0x50 o (mdH h m))
  | .hfma2 o h m => some (encA3 0x51 o (loH h m))
  | .hmin2 o h z => some (encR 0x52 o (mdH h ⟨.rn, z⟩))
  | .hmax2 o h z => some (encR 0x53 o (mdH h ⟨.rn, z⟩))
  | .hcmp2 o h c z => some (encR 0x54 o ((0 : BitVec 13) ++ bit h ++ bit z ++ c.code))
  | .hdot2 o h m => some (encA3 0x55 o (loH h m))
  | .dadd o m => some (encR 0x56 o (mdF m))
  | .dmul o m => some (encR 0x57 o (mdF m))
  | .dfma o m => some (encA3 0x58 o (loF m))
  | .f2i o t r => some (encA1 0x59 o ((0 : BitVec 12) ++ t.code ++ bit false ++ r.code))
  | .i2f o t r => some (encA1 0x5A o ((0 : BitVec 12) ++ t.code ++ bit false ++ r.code))
  | .i2h2 o sat h u r => some (encR 0x5B o ((0 : BitVec 12) ++ bit sat ++ bit h ++ bit u ++ r.code))
  | .dcvt o dir m => some (encA1 0x5C o ((0 : BitVec 12) ++ dir.code ++ m.bits))
  | .fpack o slot pos => some (encR 0x5D o (mdSP slot pos false))
  | .funpk o slot pos side => some (encA1 0x5E o (mdSP slot pos side))
  | .q8pack o slot pos => some (encA3 0x5F o (slot ++ pos ++ (0 : BitVec 4)))
  | .q8unpk o slot pos side => some (encR 0x60 o (mdSP slot pos side))
  | .dsenc o pos ss4 => some (encA1 0x61 o (mdSP 0 pos ss4))
  | .dsdec o pos ss4 => some (encA1 0x62 o (mdSP 0 pos ss4))
  | .scfit o => some (encA2 0x63 o 0)
  | .scmul o inv m => some (encR 0x64 o (mdH inv m))
  | .atmrg o mx => some (encA3 0x65 o ((0 : BitVec 9) ++ bit mx))
  | .pairWord _ _ => none
  | .shfl o => some (encA3 0x68 o 0)
  | .shfx o f m => some (encShf 0x69 o f m)
  | .shup o f m => some (encShf 0x6A o f m)
  | .shdn o f m => some (encShf 0x6B o f m)
  | .vote o op => some (encA1 0x6C o ((0 : BitVec 15) ++ op.code))
  | .gsum o f32 => some (encA1 0x6D o (md1 f32))
  | .gmax o t => some (encA1 0x6E o ((0 : BitVec 16) ++ t.code))
  | .gmin o t => some (encA1 0x6F o ((0 : BitVec 16) ++ t.code))
  | .gbit o op => some (encA1 0x70 o ((0 : BitVec 16) ++ op.code))
  | .gscan o excl f32 => some (encA1 0x71 o ((0 : BitVec 16) ++ bit f32 ++ bit excl))
  | .gbcast o f m => some (encShf 0x72 o f m)
  | .matchAny o i64 => some (encA1 0x73 o (md1 i64))
  | .amask g d => some { enc0 0x74 g 0 with d := d }
  | .sval g d c => some { enc0 0x75 g ((0 : BitVec 13) ++ c) with d := d, i := true }
  | .bra g off => some (encOff 0x78 g off)
  | .brm g k1 k2 es => some
    { enc0 0x79 g (((es[2]?.map (·.1)).getD 0) ++ (0 : BitVec 4)
        ++ bit ((es[3]?.map (·.2.1)).getD false) ++ bit ((es[2]?.map (·.2.1)).getD false)
        ++ bit ((es[1]?.map (·.2.1)).getD false) ++ bit ((es[0]?.map (·.2.1)).getD false)
        ++ BitVec.ofNat 2 (es.length - 1)) with
      d := (es[3]?.map (·.1)).getD 0, s1 := (es[0]?.map (·.1)).getD 0, s2 := (es[1]?.map (·.1)).getD 0,
      k1 := k1, k2 := k2 }
  | .jmp g s1 k1 => some { enc0 0x7A g 0 with s1 := s1, k1 := k1 }
  | .jtab g x k1 b k2 len dflt =>
    some { enc0 0x7B g dflt with d := len, s1 := x, k1 := k1, s2 := b, k2 := k2 }
  | .call g l off => some { encOff 0x7C g off with d := l }
  | .callr g l s1 k1 => some { enc0 0x7D g 0 with d := l, s1 := s1, k1 := k1 }
  | .ret g s1 k1 => some { enc0 0x7E g 0 with s1 := s1, k1 := k1 }
  | .loop g c off => some { encOff 0x7F g off with d := c }
  | .jset g n src or => some (match src with
    | none => enc0 0x80 g ((0 : BitVec 12) ++ bit or ++ bit false ++ n)
    | some (m, k) => { enc0 0x80 g ((0 : BitVec 12) ++ bit or ++ bit true ++ n) with s1 := m, k1 := k })
  | .join g n => some (enc0 0x81 g ((0 : BitVec 14) ++ n))
  | .jdrop g mask => some (enc0 0x82 g ((0 : BitVec 2) ++ mask))
  | .jmask g d n arr => some { enc0 0x83 g ((0 : BitVec 13) ++ bit arr ++ n) with d := d }
  | .exit g => some (enc0 0x84 g 0)
  | .yield g => some (enc0 0x85 g 0)
  | .nsleep g src => some (match src with
    | .reg r k => { enc0 0x86 g 0 with s1 := r, k1 := k }
    | .imm v => encB (enc0 0x86 g 0) (.imm v))
  | .bhint g p => some (enc0 0x87 g ((0 : BitVec 16) ++ p.code))
  | .ld o => some (encAcc 0x8C o)
  | .st o => some (encAcc 0x8D o)
  | .ldro o => some (encAcc 0x8E o)
  | .ldv o => some (encAcc 0x8F o)
  | .stv o => some (encAcc 0x90 o)
  | .ldvw o => some (encAcc 0x91 o)
  | .ldvt o => some (encAcc 0x92 o)
  | .stvp o => some (encAcc 0x93 o)
  | .stvf o => some (encAcc 0x94 o)
  | .femk o full => some (encRng 0x95 o (md1 full))
  | .feqry o => some (encQry 0x96 o)
  | .prf o => some (encAcc 0x97 o)
  | .cwb o => some (encRng 0x98 o 0)
  | .cflush o => some (encRng 0x99 o 0)
  | .cinval o => some (encRng 0x9A o 0)
  | .cprio o p => some (encRng 0x9B o ((0 : BitVec 16) ++ p.code))
  | .vcq o => some (encQry 0x9C o)
  | .ptoa o => some (encQry 0x9D o)
  | .sgacq g s1 k1 => some { enc0 0x9E g 0 with s1 := s1, k1 := k1 }
  | .sgrel g s1 k1 => some { enc0 0x9F g 0 with s1 := s1, k1 := k1 }
  | .aadd o => some (encAtom 0xA0 o false)
  | .aadd64 o => some (encAtom 0xA1 o false)
  | .aaddf o => some (encAtom 0xA2 o false)
  | .aadd2h o => some (encAtom 0xA3 o false)
  | .amin o u => some (encAtom 0xA4 o u)
  | .amax o u => some (encAtom 0xA5 o u)
  | .aminf o => some (encAtom 0xA6 o false)
  | .amaxf o => some (encAtom 0xA7 o false)
  | .aand o => some (encAtom 0xA8 o false)
  | .aor o => some (encAtom 0xA9 o false)
  | .axor o => some (encAtom 0xAA o false)
  | .axchg o => some (encAtom 0xAB o false)
  | .acas o => some (encAtom 0xAC o false)
  | .acas64 o => some (encAtom 0xAD o false)
  | .ainc o => some (encAtom 0xAE o false)
  | .adec o => some (encAtom 0xAF o false)
  | .fence g ord agent stor =>
    some (enc0 0xB0 g ((0 : BitVec 3) ++ ord.code ++ bit false ++ agent.code ++ stor ++ (0 : BitVec 3)))
  | .bar o => some (encBar 0xB1 o)
  | .bararr o => some (encBar 0xB2 o)
  | .barwt o => some (encBar 0xB3 o)
  | .gbar g rlx stor =>
    some (enc0 0xB4 g ((0 : BitVec 6) ++ bit rlx ++ (0 : BitVec 3) ++ stor ++ (0 : BitVec 3)))
  | .wait g ldt stt cpt tlt => some { enc0 0xB5 g (tlt ++ (0 : BitVec 10)) with d := ldt, s1 := stt, s2 := cpt }
  | .waitc o => some (encAtom 0xB6 o false)
  | .ctadd o err => some (encAtom 0xB7 o err)
  | .ctrd o => some (encAtom 0xB8 o false)
  | .hsig g s1 k1 s2 k2 v =>
    some { enc0 0xB9 g ((0 : BitVec 7) ++ v) with s1 := s1, k1 := k1, s2 := s2, k2 := k2 }
  | .dcopy o => some (encCopy 0xC0 o)
  | .tcopy o => some (encCopy 0xC1 o)
  | .dfill o => some (encCopy 0xC2 o)
  | .dcancel o => some (encA1 0xC3 o 0)
  | .dstat o => some (encA1 0xC4 o 0)
  | .mcst g grp s1 k1 x => some { enc0 0xC5 g (x ++ (0 : BitVec 10)) with d := grp, s1 := s1, k1 := k1 }
  | .mcput g grp s1 k1 x => some { enc0 0xC6 g (x ++ (0 : BitVec 10)) with d := grp, s1 := s1, k1 := k1 }
  | .coll o => some
    { enc0 0xC7 o.g ((0 : BitVec 6) ++ bit o.rlx ++ o.agent.code ++ o.stor ++ (0 : BitVec 3)) with
      d := o.d, s1 := o.s1, k1 := o.k1 }
  | .cabort o => some (encA1 0xC8 o 0)
  | .cstat o => some (encA1 0xC9 o 0)
  | .wqpush g s1 k1 s2 k2 => some { enc0 0xCA g 0 with s1 := s1, k1 := k1, s2 := s2, k2 := k2 }
  | .wqpushClose g s1 k1 => some { enc0 0xCA g 1 with s1 := s1, k1 := k1 }
  | .wqpushReopen g s1 k1 => some { enc0 0xCA g 2 with s1 := s1, k1 := k1 }
  | .wqpop o => some (encA1 0xCB o 0)
  | .mload o => some (encMat 0xD0 o)
  | .mswap g => some (enc0 0xD1 g 0)
  | .mmul o => some (encMat 0xD2 o)
  | .mnew g t => some (enc0 0xD3 g (mdMat 0 t false false false))
  | .mrel g t => some (enc0 0xD4 g (mdMat 0 t false false false))
  | .mdrain o => some (encMat 0xD5 o)
  | .mzero g s2 k2 t => some { enc0 0xD6 g (mdMat 0 t false false false) with s2 := s2, k2 := k2 }
  | .mscA g s1 k1 slot => some { enc0 0xD7 g (mdMat slot 0 false false false) with s1 := s1, k1 := k1 }
  | .mscB g s1 k1 slot => some { enc0 0xD7 g (mdMat slot 0 false false true) with s1 := s1, k1 := k1 }
  | .mtld g s1 k1 s2 k2 t =>
    some { enc0 0xD8 g (mdMat 0 t false false false) with s1 := s1, k1 := k1, s2 := s2, k2 := k2 }
  | .mfence g => some (enc0 0xD9 g 0)
  | .mcfg g s1 k1 f => some { enc0 0xDA g ((0 : BitVec 15) ++ f.code) with s1 := s1, k1 := k1 }
  | .qbind g p k => some { enc0 0xE0 g ((0 : BitVec 14) ++ k) with d := p }
  | .qbindUn g p => some { enc0 0xE0 g 0x20 with d := p }
  | .qstat g d p => some { enc0 0xE1 g 0 with d := d, s1 := p }
  | .qpeek g d p pos => some { enc0 0xE2 g ((0 : BitVec 14) ++ pos) with d := d, s1 := p }
  | .qdrop g d p n => some { enc0 0xE3 g ((0 : BitVec 13) ++ n) with d := d, s1 := p }
  | .cspawn g d s1 k1 s2 k2 => some { enc0 0xE4 g 0 with d := d, s1 := s1, k1 := k1, s2 := s2, k2 := k2 }
  | .cstop g d slots => some { enc0 0xE5 g ((0 : BitVec 14) ++ slots) with d := d }
  | .aload o => some (encCar 0xE6 o)
  | .astore o => some (encCar 0xE7 o)
  | .agath o => some (encCar 0xE8 o)
  | .ascat o => some (encCar 0xE9 o)
  | .trap g imm => some (enc0 0xEF g ((0 : BitVec 2) ++ imm))
  | .brk g imm => some (enc0 0xF0 g ((0 : BitVec 2) ++ imm))
  | .eret g => some (enc0 0xF1 g 0)
  | .eretNx g => some (enc0 0xF1 g 1)
  | .crd g d num => some { enc0 0xF2 g ((0 : BitVec 6) ++ num) with d := d }
  | .cwr g s1 k1 num => some { enc0 0xF3 g ((0 : BitVec 6) ++ num) with s1 := s1, k1 := k1 }
  | .tlbinv g s1 k1 s2 k2 s3 =>
    some { enc0 0xF4 g (s3 ++ (0 : BitVec 10)) with s1 := s1, k1 := k1, s2 := s2, k2 := k2 }
  | .tlbinvAll g s3 => some (enc0 0xF4 g (s3 ++ (1 : BitVec 10)))
  | .tlbsync g d => some { enc0 0xF5 g 0 with d := d }
  | .tlbsyncZero g d s1 k1 s2 k2 =>
    some { enc0 0xF5 g 1 with d := d, s1 := s1, k1 := k1, s2 := s2, k2 := k2 }
  | .vcdef g d s1 vcid => some { enc0 0xF6 g ((0 : BitVec 10) ++ vcid) with d := d, s1 := s1 }
  | .vcdefRm g d vcid => some { enc0 0xF6 g ((0 : BitVec 9) ++ bit true ++ vcid) with d := d }
  | .vcmig g d s1 s2 vcid => some { enc0 0xF7 g ((0 : BitVec 10) ++ vcid) with d := d, s1 := s1, s2 := s2 }
  | .rgtok o => some (encR 0xF8 o 0)
  | .rgtokRm g d s2 k2 region =>
    some { enc0 0xF8 g ((0 : BitVec 12) ++ region ++ bit true) with d := d, s2 := s2, k2 := k2 }
  | .ctxswSwap g d s2 k2 => some { enc0 0xF9 g 0 with d := d, s2 := s2, k2 := k2 }
  | .ctxswSv o => some (encR 0xF9 o 1)
  | .ctxswLd o => some (encR 0xF9 o 2)
  | .ctxfl o => some (encA1 0xFA o 0)
  | .launch g d s1 => some { enc0 0xFB g 0 with d := d, s1 := s1 }
  | .gpost g d s1 => some { enc0 0xFC g 0 with d := d, s1 := s1 }
  | .gpostStart g d s1 => some { enc0 0xFC g 1 with d := d, s1 := s1 }
  | .fresume o die => some (encR 0xFD o ((0 : BitVec 16) ++ die))
  | .fresumeFail o die => some (encR 0xFD o ((0 : BitVec 15) ++ bit true ++ die))
  | .pmrd g d n => some { enc0 0xFE g ((0 : BitVec 14) ++ n) with d := d }
  | .halt o => some (encA1 0xFF o 0)
  | .unassignedOpcode opc => some (enc0 opc ⟨false, 0, false⟩ 0)
  | _ => none

/-- The literal words of `brm` (R105). -/
def encLits : Instr → List DWord
  | .brm _ _ _ es =>
    let o := fun n => ((es[n]?.map (·.2.2)).getD 0 : Word)
    if es.length ≤ 2 then [o 1 ++ o 0] else [o 1 ++ o 0, o 3 ++ o 2]
  | _ => []

/-- The 31 bits of a pair half (R101). -/
def PHalf.bits (h : PHalf) : BitVec 31 := h.pidx ++ h.d ++ h.s ++ h.g5 ++ bit h.gn ++ bit h.imm ++ bit false
/-- The pair word of two halves (R101). -/
def pairBits (a b : PHalf) : DWord := bit true ++ a.bits ++ b.bits ++ bit false

/-- The words of an instruction, the literal words of `brm` included; none for a device event. -/
def encode (i : Instr) : Option (List DWord) :=
  match i with
  | .pairWord a b => some [pairBits a b]
  | _ => (encFields i).map fun f => f.word :: encLits i

/-! ### Reading the fields of each mould -/

def Fields.alu1 (f : Fields) : Alu1 := ⟨f.guard, f.d, f.s1, f.k1⟩
def Fields.opnd (f : Fields) : Opnd := if f.i then .imm f.imm26 else .reg f.s2 f.k2
def Fields.alu2 (f : Fields) : Alu2 := ⟨f.guard, f.d, f.s1, f.k1, f.opnd⟩
def Fields.s3 (f : Fields) : Reg := f.fld 10 8
def Fields.alu3 (f : Fields) : Alu3 := ⟨f.guard, f.d, f.s1, f.k1, f.s2, f.k2, f.s3⟩
def Fields.aluR (f : Fields) : AluR := ⟨f.guard, f.d, f.s1, f.k1, f.s2, f.k2⟩
/-- A modifier bit, its default in an immediate form (R97). -/
def Fields.mb (f : Fields) (n : Nat) : Bool := !f.i && f.mbit n
def Fields.fmod (f : Fields) : Option FMod :=
  if f.i then some ⟨.rn, false⟩ else (Rnd.ofCode (f.fld 0 3)).map fun r => ⟨r, f.mbit 3⟩
def Fields.acc (f : Fields) : Option Acc := do
  let ord ← Order.ofCode (f.fld 12 3)
  let agent ← Agent.ofCode (f.fld 8 3)
  let hint ← Hint.ofCode (f.fld 1 2)
  some ⟨f.guard, f.d, f.s1, f.k1, f.s2, f.fld 16 2, f.mbit 15, ord, f.mbit 11, agent, f.fld 3 5, hint⟩
def Fields.rng (f : Fields) : Rng := ⟨f.guard, f.s1, f.k1, f.s2, f.k2⟩
def Fields.qry (f : Fields) : Qry := ⟨f.guard, f.d, f.s1, f.k1⟩
def Fields.atom (f : Fields) : Option Atom := do
  let ord ← Order.ofCode (f.fld 12 3)
  let agent ← Agent.ofCode (f.fld 8 3)
  some ⟨f.guard, f.d, f.s1, f.k1, f.s2, f.k2, ord, agent, f.fld 3 5⟩
def Fields.barOp (f : Fields) : BarOp := ⟨f.guard, f.d, f.s1, f.s2, f.fld 14 4, f.mbit 11, f.fld 3 5⟩
def Fields.copyOp (f : Fields) : CopyOp := ⟨f.guard, f.d, f.s1, f.k1, f.s2, f.k2, f.s3, f.fld 3 2, f.fld 0 3⟩
def Fields.matOp (f : Fields) : MatOp :=
  ⟨f.guard, f.s1, f.k1, f.s2, f.k2, f.fld 7 3, f.fld 4 3, f.mbit 3, f.mbit 2⟩
def Fields.carOp (f : Fields) : CarOp :=
  ⟨f.guard, f.d, f.s1, f.k1, f.s2, f.k2, f.s3, f.mbit 9, f.mbit 8, f.fld 5 3, f.mbit 2, f.fld 0 2⟩

/-- The reading of one opcode: its fields and literal words to the instruction. -/
abbrev Reading := Fields → List DWord → Option Instr

def rA1 (mk : Alu1 → Instr) : Reading := fun f _ => some (mk f.alu1)
def rA1b (mk : Alu1 → Bool → Instr) : Reading := fun f _ => some (mk f.alu1 (f.mbit 0))
def rA1m (mk : Alu1 → FMod → Instr) : Reading := fun f _ => f.fmod.map (mk f.alu1)
def rA1z (mk : Alu1 → Bool → Instr) : Reading := fun f _ => some (mk f.alu1 (f.mbit 3))
def rA2 (mk : Alu2 → Instr) : Reading := fun f _ => some (mk f.alu2)
def rA2b (mk : Alu2 → Bool → Instr) : Reading := fun f _ => some (mk f.alu2 (f.mb 0))
def rA2z (mk : Alu2 → Bool → Instr) : Reading := fun f _ => some (mk f.alu2 (f.mb 3))
def rA2m (mk : Alu2 → FMod → Instr) : Reading := fun f _ => f.fmod.map (mk f.alu2)
def rA3 (mk : Alu3 → Instr) : Reading := fun f _ => some (mk f.alu3)
def rA3b (mk : Alu3 → Bool → Instr) : Reading := fun f _ => some (mk f.alu3 (f.mbit 0))
def rA3m (mk : Alu3 → FMod → Instr) : Reading := fun f _ => f.fmod.map (mk f.alu3)
def rR (mk : AluR → Instr) : Reading := fun f _ => some (mk f.aluR)
def rRm (mk : AluR → FMod → Instr) : Reading := fun f _ => f.fmod.map (mk f.aluR)
def rRh (mk : AluR → Bool → FMod → Instr) : Reading := fun f _ => f.fmod.map (mk f.aluR (f.mbit 4))
def rG (mk : Guard → Instr) : Reading := fun f _ => some (mk f.guard)
def rShf (mk : Alu1 → Reg → BitVec 6 → Instr) : Reading := fun f _ => some (mk f.alu1 f.s3 (f.fld 0 6))
def rAcc (mk : Acc → Instr) : Reading := fun f _ => f.acc.map mk
def rRng (mk : Rng → Instr) : Reading := fun f _ => some (mk f.rng)
def rQry (mk : Qry → Instr) : Reading := fun f _ => some (mk f.qry)
def rAtom (mk : Atom → Instr) : Reading := fun f _ => f.atom.map mk
def rAtomU (mk : Atom → Bool → Instr) : Reading := fun f _ => f.atom.map fun a => mk a (f.mbit 15)
def rBar (mk : BarOp → Instr) : Reading := fun f _ => some (mk f.barOp)
def rCopy (mk : CopyOp → Instr) : Reading := fun f _ => some (mk f.copyOp)
def rMat (mk : MatOp → Instr) : Reading := fun f _ => some (mk f.matOp)
def rCar (mk : CarOp → Instr) : Reading := fun f _ => some (mk f.carOp)
def rPair1 (mk : Guard → Reg → Bool → Instr) : Reading := fun f _ => some (mk f.guard f.s1 f.k1)

/-- The entries of `brm` (R172, R105). -/
def Fields.brmEntries (f : Fields) (lits : List DWord) : List (Reg × Bool × Word) :=
  let o := fun n => ((lits[n / 2]?).getD 0).extractLsb' (32 * (n % 2)) 32
  [(f.s1, f.mbit 2, o 0), (f.s2, f.mbit 3, o 1), (f.s3, f.mbit 4, o 2), (f.d, f.mbit 5, o 3)].take ((f.fld 0 2).toNat + 1)

/-- The opcode map of R107, sixteen opcodes a row. -/
def readings : List (List Reading) :=
  let no : Reading := fun _ _ => none
  [ -- 0x00
    [rG .nop, rA2 .iadd, rA2 .isub, rA2 .imul, rA2 .imulh, rA2 .imulhu, rA3 .imad, rA2 .idivs,
     rA2 .idivu, rA2b .irem, rA2 .add64, rA2 .sub64, rA2 .mul64, rA2 .imin, rA2 .imax, rA2 .umin],
    -- 0x10
    [rA2 .umax, rA1b .iabs, rA1b .ineg, rA2b .iadds, rA2b .isubs, rA3b .isad, rA2 .and, rA2 .or,
     rA2 .xor, rA2 .andn, rA1 .not, (fun f _ => some (.lop3 f.alu3 (f.fld 0 8))), rA2 .shl, rA2 .shr, rA2 .sar, rA2 .rol],
    -- 0x20
    [(fun f _ => (Fill.ofCode (f.fld 0 2)).map (.shf f.alu3)), rA2 .shl64, rA2b .shr64, rA2b .bfe, rA3 .bfi,
     rA1 .popc, rA1 .clz, rA1 .ctz, rA1 .brev, (fun f _ => some (.prmt f.aluR (f.fld 0 12) (f.fld 12 4))),
     rA3 .sel, (fun f _ => (ICond.ofCode (f.fld 0 3)).map fun c => .icmp f.aluR c (f.mbit 3)),
     (fun f _ => (ICond.ofCode (f.fld 0 3)).map fun c => .icmp64 f.aluR c (f.mbit 3)),
     (fun f _ => some (.mov f.guard f.d (if f.i then .imm f.imm26 else .reg f.s1 f.k1))),
     (fun f _ => some (.lih f.guard f.d (f.fld 0 16))), (fun f _ => some (.movri f.alu1 (f.fld 0 8)))],
    -- 0x30
    [(fun f _ => some (.movwi f.guard f.s1 f.k1 f.s2 f.k2 (f.fld 0 8))),
     (fun f _ => some (.lea64 f.alu2 (if f.i then 0 else f.fld 0 3) (f.mb 3))),
     (fun f _ => some (.idot4 f.alu3 (f.mbit 0) (f.mbit 1))), (fun f _ => some (.idot2 f.alu3 (f.mbit 0) (f.mbit 1))),
     no, no, no, no, rA2m .fadd, rA2m .fsub, rA2m .fmul, rA3m .ffma, rA3m .ffms, rA3m .fnma, rA2z .fmin, rA2z .fmax],
    -- 0x40
    [(fun f _ => (FCond.ofCode (f.fld 0 3)).map fun c => .fcmp f.aluR c (f.mbit 3)),
     (fun f _ => some (.fclamp f.alu3 (f.mbit 3))), (fun f _ => (SgnOp.ofCode (f.fld 0 2)).map (.fsgn f.aluR)),
     rA1m .frcp, rA1m .frsq, rA1m .fsqrt, rA2m .fdiv, rA1z .fexp2, rA1z .flog2, rA1z .fsin, rA1z .fcos, rA1m .frnd,
     rA1 .fclass, rA2m .fscale, rR .fexd, rRh .hadd2],
    -- 0x50
    [rRh .hmul2, (fun f _ => f.fmod.map (.hfma2 f.alu3 (f.mbit 4))), (fun f _ => some (.hmin2 f.aluR (f.mbit 4) (f.mbit 3))),
     (fun f _ => some (.hmax2 f.aluR (f.mbit 4) (f.mbit 3))),
     (fun f _ => (FCond.ofCode (f.fld 0 3)).map fun c => .hcmp2 f.aluR (f.mbit 4) c (f.mbit 3)),
     (fun f _ => f.fmod.map (.hdot2 f.alu3 (f.mbit 4))), rRm .dadd, rRm .dmul, rA3m .dfma,
     (fun f _ => do let t ← IType.ofCode (f.fld 4 2); let r ← Rnd.ofCode (f.fld 0 3); some (.f2i f.alu1 t r)),
     (fun f _ => do let t ← IType.ofCode (f.fld 4 2); let r ← Rnd.ofCode (f.fld 0 3); some (.i2f f.alu1 t r)),
     (fun f _ => (Rnd.ofCode (f.fld 0 3)).map (.i2h2 f.aluR (f.mbit 5) (f.mbit 4) (f.mbit 3))),
     (fun f _ => do let t ← CvtDir.ofCode (f.fld 4 2); let m ← f.fmod; some (.dcvt f.alu1 t m)),
     (fun f _ => some (.fpack f.aluR (f.fld 7 3) (f.fld 4 3))),
     (fun f _ => some (.funpk f.alu1 (f.fld 7 3) (f.fld 4 3) (f.mbit 0))),
     (fun f _ => some (.q8pack f.alu3 (f.fld 7 3) (f.fld 4 3)))],
    -- 0x60
    [(fun f _ => some (.q8unpk f.aluR (f.fld 7 3) (f.fld 4 3) (f.mbit 0))),
     (fun f _ => some (.dsenc f.alu1 (f.fld 4 3) (f.mbit 0))), (fun f _ => some (.dsdec f.alu1 (f.fld 4 3) (f.mbit 0))),
     rA2 .scfit, rRh .scmul, rA3b .atmrg, no, no, rA3 .shfl, rShf .shfx, rShf .shup, rShf .shdn,
     (fun f _ => (VoteOp.ofCode (f.fld 0 3)).map (.vote f.alu1)), rA1b .gsum,
     (fun f _ => (MType.ofCode (f.fld 0 2)).map (.gmax f.alu1)), (fun f _ => (MType.ofCode (f.fld 0 2)).map (.gmin f.alu1))],
    -- 0x70
    [(fun f _ => (BitOp.ofCode (f.fld 0 2)).map (.gbit f.alu1)), (fun f _ => some (.gscan f.alu1 (f.mbit 0) (f.mbit 1))),
     rShf .gbcast, rA1b .matchAny, (fun f _ => some (.amask f.guard f.d)), (fun f _ => some (.sval f.guard f.d (f.fld 0 5))),
     no, no, (fun f _ => some (.bra f.guard f.imm26)), (fun f l => some (.brm f.guard f.k1 f.k2 (f.brmEntries l))),
     rPair1 .jmp, (fun f _ => some (.jtab f.guard f.s1 f.k1 f.s2 f.k2 f.d f.md)),
     (fun f _ => some (.call f.guard f.d f.imm26)), (fun f _ => some (.callr f.guard f.d f.s1 f.k1)), rPair1 .ret,
     (fun f _ => some (.loop f.guard f.d f.imm26))],
    -- 0x80
    [(fun f _ => some (.jset f.guard (f.fld 0 4) (if f.mbit 4 then some (f.s1, f.k1) else none) (f.mbit 5))),
     (fun f _ => some (.join f.guard (f.fld 0 4))), (fun f _ => some (.jdrop f.guard (f.fld 0 16))),
     (fun f _ => some (.jmask f.guard f.d (f.fld 0 4) (f.mbit 4))), rG .exit, rG .yield,
     (fun f _ => some (.nsleep f.guard (if f.i then .imm f.imm26 else .reg f.s1 f.k1))),
     (fun f _ => (Policy.ofCode (f.fld 0 2)).map (.bhint f.guard)), no, no, no, no,
     rAcc .ld, rAcc .st, rAcc .ldro, rAcc .ldv],
    -- 0x90
    [rAcc .stv, rAcc .ldvw, rAcc .ldvt, rAcc .stvp, rAcc .stvf, (fun f _ => some (.femk f.rng (f.mbit 0))), rQry .feqry,
     rAcc .prf, rRng .cwb, rRng .cflush, rRng .cinval, (fun f _ => (Prio.ofCode (f.fld 0 2)).map (.cprio f.rng)),
     rQry .vcq, rQry .ptoa, rPair1 .sgacq, rPair1 .sgrel],
    -- 0xA0
    [rAtom .aadd, rAtom .aadd64, rAtom .aaddf, rAtom .aadd2h, rAtomU .amin, rAtomU .amax, rAtom .aminf, rAtom .amaxf,
     rAtom .aand, rAtom .aor, rAtom .axor, rAtom .axchg, rAtom .acas, rAtom .acas64, rAtom .ainc, rAtom .adec],
    -- 0xB0
    [(fun f _ => do
        let ord ← Order.ofCode (f.fld 12 3); let agent ← Agent.ofCode (f.fld 8 3)
        some (.fence f.guard ord agent (f.fld 3 5))),
     rBar .bar, rBar .bararr, rBar .barwt, (fun f _ => some (.gbar f.guard (f.mbit 11) (f.fld 3 5))),
     (fun f _ => some (.wait f.guard f.d f.s1 f.s2 f.s3)), rAtom .waitc, rAtomU .ctadd, rAtom .ctrd,
     (fun f _ => some (.hsig f.guard f.s1 f.k1 f.s2 f.k2 (f.fld 0 11))), no, no, no, no, no, no],
    -- 0xC0
    [rCopy .dcopy, rCopy .tcopy, rCopy .dfill, rA1 .dcancel, rA1 .dstat,
     (fun f _ => some (.mcst f.guard f.d f.s1 f.k1 f.s3)), (fun f _ => some (.mcput f.guard f.d f.s1 f.k1 f.s3)),
     (fun f _ => (Agent.ofCode (f.fld 8 3)).map fun a => .coll ⟨f.guard, f.d, f.s1, f.k1, f.mbit 11, a, f.fld 3 5⟩),
     rA1 .cabort, rA1 .cstat,
     (fun f _ => if f.mbit 0 then some (.wqpushClose f.guard f.s1 f.k1)
        else if f.mbit 1 then some (.wqpushReopen f.guard f.s1 f.k1)
        else some (.wqpush f.guard f.s1 f.k1 f.s2 f.k2)),
     rA1 .wqpop, no, no, no, no],
    -- 0xD0
    [rMat .mload, rG .mswap, rMat .mmul, (fun f _ => some (.mnew f.guard (f.fld 4 3))),
     (fun f _ => some (.mrel f.guard (f.fld 4 3))), rMat .mdrain, (fun f _ => some (.mzero f.guard f.s2 f.k2 (f.fld 4 3))),
     (fun f _ => some (if f.mbit 0 then .mscB f.guard f.s1 f.k1 (f.fld 7 3) else .mscA f.guard f.s1 f.k1 (f.fld 7 3))),
     (fun f _ => some (.mtld f.guard f.s1 f.k1 f.s2 f.k2 (f.fld 4 3))), rG .mfence,
     (fun f _ => (MField.ofCode (f.fld 0 3)).map (.mcfg f.guard f.s1 f.k1)), no, no, no, no, no],
    -- 0xE0
    [(fun f _ => some (if f.mbit 5 then .qbindUn f.guard f.d else .qbind f.guard f.d (f.fld 0 4))),
     (fun f _ => some (.qstat f.guard f.d f.s1)), (fun f _ => some (.qpeek f.guard f.d f.s1 (f.fld 0 4))),
     (fun f _ => some (.qdrop f.guard f.d f.s1 (f.fld 0 5))),
     (fun f _ => some (.cspawn f.guard f.d f.s1 f.k1 f.s2 f.k2)), (fun f _ => some (.cstop f.guard f.d (f.fld 0 4))),
     rCar .aload, rCar .astore, rCar .agath, rCar .ascat, no, no, no, no, no,
     (fun f _ => some (.trap f.guard (f.fld 0 16)))],
    -- 0xF0
    [(fun f _ => some (.brk f.guard (f.fld 0 16))), (fun f _ => some (if f.mbit 0 then .eretNx f.guard else .eret f.guard)),
     (fun f _ => some (.crd f.guard f.d (f.fld 0 12))), (fun f _ => some (.cwr f.guard f.s1 f.k1 (f.fld 0 12))),
     (fun f _ => some (if f.mbit 0 then .tlbinvAll f.guard f.s3 else .tlbinv f.guard f.s1 f.k1 f.s2 f.k2 f.s3)),
     (fun f _ => some (if f.mbit 0 then .tlbsyncZero f.guard f.d f.s1 f.k1 f.s2 f.k2 else .tlbsync f.guard f.d)),
     (fun f _ => some (if f.mbit 8 then .vcdefRm f.guard f.d (f.fld 0 8) else .vcdef f.guard f.d f.s1 (f.fld 0 8))),
     (fun f _ => some (.vcmig f.guard f.d f.s1 f.s2 (f.fld 0 8))),
     (fun f _ => some (if f.mbit 0 then .rgtokRm f.guard f.d f.s2 f.k2 (f.fld 1 5) else .rgtok f.aluR)),
     (fun f _ => if f.mbit 0 then some (.ctxswSv f.aluR) else if f.mbit 1 then some (.ctxswLd f.aluR)
        else some (.ctxswSwap f.guard f.d f.s2 f.k2)),
     rA1 .ctxfl, (fun f _ => some (.launch f.guard f.d f.s1)),
     (fun f _ => some (if f.mbit 0 then .gpostStart f.guard f.d f.s1 else .gpost f.guard f.d f.s1)),
     (fun f _ => some (if f.mbit 2 then .fresumeFail f.aluR (f.fld 0 2) else .fresume f.aluR (f.fld 0 2))),
     (fun f _ => some (.pmrd f.guard f.d (f.fld 0 4))), rA1 .halt] ]

/-- The reading of an opcode. -/
def readingOf (opc : BitVec 8) : Reading := ((readings[opc.toNat / 16]?).bind (·[opc.toNat % 16]?)).getD fun _ _ => none

/-- The literal words that follow a word (R105, R172). -/
def litCount (w : DWord) : Nat :=
  let f := fieldsOf w
  if !w.msb && f.opc == 0x79 then (if f.mbit 1 then 2 else 1) else 0

/-- A half of a pair word (R101). -/
def halfOf (h : BitVec 31) : PHalf :=
  ⟨h.extractLsb' 24 7, h.extractLsb' 16 8, h.extractLsb' 8 8, h.extractLsb' 3 5, h.getLsbD 2, h.getLsbD 1⟩

/-- Why a word is refused by its own bits (R104, R106). -/
inductive Reject where
  | pair     -- ILLEGAL_PAIR
  | operand  -- ILLEGAL_OPERAND
deriving DecidableEq, Repr

/-- The pair word's instruction (R101 to R104). -/
def decodePair (w : DWord) : Except Reject Instr :=
  let a := halfOf (w.extractLsb' 32 31)
  let b := halfOf (w.extractLsb' 1 31)
  let i := Instr.pairWord a b
  if encode i = some [w] && i.wf then .ok i else .error .pair

/-- The instruction of a full-format word and its literal words; a word with an unassigned opcode is the instruction
that traps with ILLEGAL_OPCODE, whatever its other fields hold (R108). -/
def decodeFull (w : DWord) (lits : List DWord) : Except Reject Instr :=
  let f := fieldsOf w
  if unassigned f.opc then .ok (.unassignedOpcode f.opc)
  else match readingOf f.opc f lits with
    | none => .error .operand
    | some i => if encode i = some (w :: lits) && i.wf then .ok i else .error .operand

/-- The decoder: the instruction of a word and of the words that follow it (R93, R106). -/
def decode (w : DWord) (rest : List DWord) : Except Reject Instr :=
  if w.msb then decodePair w else decodeFull w (rest.take (litCount w))

/-- Eight bytes of a word, little-endian (R4, R93). -/
def wordOfBytes (bs : List Byte) : DWord :=
  bs.foldr (fun b acc => (acc <<< 8) ||| b.setWidth 64) 0

/-- The decoder on the bytes at the program counter: the longest instruction has 24 (R105). -/
def decodeBytes (bs : List Byte) : Except Reject Instr :=
  decode (wordOfBytes (bs.take 8)) [wordOfBytes ((bs.drop 8).take 8), wordOfBytes ((bs.drop 16).take 8)]

/-- The bytes of a number, little-endian (R4). -/
def bytesOfNat : Nat → Nat → List Byte
  | 0, _ => []
  | n + 1, v => BitVec.ofNat 8 v :: bytesOfNat n (v / 256)

/-- Host interface: the instruction the decoder reads from an instruction whose bits are `w`, the bits above `nbits`
being zero. -/
def decodeTableWord (nbits w : Nat) : Option Instr :=
  match decodeBytes (bytesOfNat 24 (w % 2 ^ nbits)) with
  | .ok i => some i
  | .error _ => none

/-! ### Legality by stream kind and privilege (R107) -/

def inR (n lo hi : Nat) : Bool := decide (lo ≤ n) && decide (n ≤ hi)

/-- The stream kinds that may issue an opcode (R107). -/
def kindLegal (opc : Nat) : Kind → Bool
  | .lane => !(inR opc 0xD0 0xDA) && !(inR opc 0xE6 0xE9)
  | .carter =>
    inR opc 0x00 0x33 || opc == 0x75 || inR opc 0x78 0x7F || inR opc 0x84 0x86 || inR opc 0x8C 0x9D || opc == 0xB0 ||
    opc == 0xB2 || opc == 0xB3 || inR opc 0xB5 0xB8 || inR opc 0xC0 0xC4 || inR opc 0xE1 0xE3 || inR opc 0xE6 0xE9 ||
    inR opc 0xEF 0xF3 || opc == 0xFE
  | .control =>
    inR opc 0x00 0x33 || inR opc 0x38 0x55 || inR opc 0x59 0x65 || opc == 0x75 || inR opc 0x78 0x7F ||
    inR opc 0x84 0x86 || inR opc 0x8C 0x8E || opc == 0x97 || opc == 0x9D || inR opc 0xA0 0xAF || opc == 0xB0 ||
    opc == 0xB2 || opc == 0xB3 || inR opc 0xB5 0xB9 || inR opc 0xC0 0xCB || inR opc 0xD0 0xDA || inR opc 0xEF 0xF3 ||
    opc == 0xFB || opc == 0xFC || opc == 0xFE

/-- The opcode a pair half denotes (R103). -/
def PHalf.opcode (h : PHalf) : Nat :=
  if h.pidx.toNat < 0x34 then h.pidx.toNat else 0x38 + (h.pidx.toNat - 0x34)

/-- Opcodes marked Priv in R107. -/
def opcPriv (opc : Nat) : Bool :=
  opc == 0xF1 || inR opc 0xF4 0xF7 || opc == 0xF9 || opc == 0xFA || opc == 0xFD || opc == 0xFF

/-- What a write of a control register needs (R404): nothing, privilege, or privilege of the physical function. -/
inductive CrNeed where
  | nothing | privilege | physical
deriving DecidableEq, Repr

def crNeed (num : Nat) : CrNeed :=
  if num ≤ 8 then .nothing
  else if inR num 0x10 0x13 || num == 0x15 || inR num 0x38 0x3A then .privilege
  else .physical

end Sys2Proof
end

