-- ==== Sys2Proof/Machine/Sparse.lean ====
section
/-! DEFINITION. Sys2Proof/Machine/Sparse.lean: sparse data by key, a sorted list of pairs with no entry equal to the
default, so that equal contents are equal lists. Registers, memory and every table of the device use it. -/
namespace Sys2Proof.Machine

/-- The value at a key; an unlisted key holds the default. -/
def sget (d : α) : List (Nat × α) → Nat → α
  | [], _ => d
  | (k, v) :: r, n => if k = n then v else sget d r n

/-- The list with `v` at `n`: what it reads as at every other key stays, and a list in the canonical form keeps it. -/
def sset [DecidableEq α] (d : α) : List (Nat × α) → Nat → α → List (Nat × α)
  | [], n, v => if v = d then [] else [(n, v)]
  | (k, w) :: r, n, v =>
    if k < n then (k, w) :: sset d r n v
    else if v = d then ((k, w) :: r).filter fun p => p.1 ≠ n
    else if k = n then (n, v) :: r
    else (n, v) :: (k, w) :: r

/-- The canonical form: keys strictly rising from `lo`, no entry equal to the default. -/
def swf [DecidableEq α] (d : α) : Nat → List (Nat × α) → Bool
  | _, [] => true
  | lo, (k, v) :: r => decide (lo ≤ k) && decide (v ≠ d) && swf d (k + 1) r

/-- A set of numbers as a sorted list without repeats: insertion. -/
def nins : List Nat → Nat → List Nat
  | [], n => [n]
  | k :: r, n => if k < n then k :: nins r n else if k = n then k :: r else n :: k :: r

/-- A set of numbers: removal. -/
def ndel (l : List Nat) (n : Nat) : List Nat := l.filter (· ≠ n)

/-- Replace the first entry that satisfies `p`. -/
def updFirst (p : α → Bool) (f : α → α) : List α → List α
  | [] => []
  | x :: r => if p x then f x :: r else x :: updFirst p f r

end Sys2Proof.Machine
end

