-- ==== Sys2Proof/Machine/Units.lean ====
section
/-! DEFINITION. Sys2Proof/Machine/Units.lean: the state of the device's units beside its streams, as plain data: Loom, the
matrix arrays, the Drays and the Porter, the collectives, multicast, work queues, the host side, power and firmware. -/
namespace Sys2Proof.Machine

/-- Spaces of the storage mask (R336), in the order of its bits. -/
inductive Space where
  | vault | dev | pod | remote | host
deriving DecidableEq, Repr

/-- Where a checked access goes: its space, the key of its first byte in memory, the virtual cache of its page (0 for
the uncached path and for the vault) and whether TARGET 10 names the CXL expander. -/
structure Loc where
  space : Space
  key : Nat
  vcid : Nat
  cxl : Bool
deriving DecidableEq, Repr

/-! ### Launch records, grids and Loom -/

/-- The copied launch record (R19, R22): the fields that teams and grids use. -/
structure Rec where
  kernelPc : DWord
  controlPc : DWord
  carterPc : DWord
  gridX : Nat
  gridY : Nat
  gridZ : Nat
  teamX : Nat
  teamY : Nat
  teamZ : Nat
  regs : Nat
  qports : Nat
  vaultKib : Nat
  groupW : Nat
  paired : Bool
  coteam : Bool
  feTrap : Bool
  asid : BitVec 16
  level : Nat
  args : DWord
  doneCtr : DWord
  fmt : List DWord
  workq : Option Nat
  affinity : DWord
  parent : Option Nat
  coll : DWord
  chunkX : Nat
  chunkY : Nat
  chunkBase : Nat
  addr : DWord
deriving DecidableEq, Repr

/-- Where a grid came from (R52): a port, the lanes of a `launch` that wait for it, a graph node. -/
inductive Origin where
  | port (fn port : Nat)
  | thread (sids : List SId) (d : Reg)
  | node (n : Nat)
deriving DecidableEq, Repr

/-- An accepted grid (R41 to R46, R63, R64, R430). -/
structure Grid where
  id : Nat
  origin : Origin
  fn : Nat
  recd : Rec
  level : Nat
  /-- Order of entry into its level. -/
  seq : Nat
  /-- The time, in quarters of a nanosecond, since which it has waited at its level without a team placed (R43). -/
  since : Nat
  /-- The time since which it has stood at the head of level 3 (R43). -/
  head : Option Nat
  reserved : Bool
  /-- Affinity score by cluster (R63). -/
  scores : List (Nat × Nat)
  /-- Linear index of the next team to place, and the round-robin position P (R64). -/
  next : Nat
  pos : Nat
  retired : Nat
  /-- The cause of the first of its teams that was ended, with the time of the end and the core: the order of R12 (R430). -/
  failed : Option (BitVec 8)
  failedAt : Nat × Nat
  /-- The collective instance it is bound to (R375), and the exited teams by chunk (R35, R378). -/
  inst : Option Nat
  exits : List (Nat × Nat)
deriving DecidableEq, Repr

/-- A launch port (R36, R38). -/
structure Port where
  fifo : List DWord
  lastReject : Word
  readCount : Nat
  badWrite : Bool
  overflow : Bool
  refused : Bool
  graphSrc : DWord
  busy : Bool
  op : Nat
  count : Nat
  first : Nat
  /-- The ASID of the removal in progress (R47). -/
  gAsid : BitVec 16
  gValid : Bool
  gCause : BitVec 8
  gReject : Word
  gNode : Nat
  irqEn : Bool
  vector : Nat
  enable : Bool
  asid : BitVec 16
deriving DecidableEq, Repr

/-- An installed graph node (R27, R28, R47 to R49) and the port that installed it. -/
structure Node where
  idx : Nat
  asid : BitVec 16
  fn : Nat
  port : Nat
  typ : Nat
  npred : Nat
  succ : List Nat
  payload : DWord
  aux : DWord
  arg : DWord
  affinity : DWord
  pending : Nat
  runs : Nat
  running : Bool
  removing : Bool
deriving DecidableEq, Repr

structure Loom where
  /-- Ports keyed 64 × function + port. -/
  ports : List (Nat × Port)
  /-- Ports served in the current round (R38). -/
  served : List Nat
  /-- Accepted grids held for want of an entry, in order (R41). -/
  held : List Grid
  grids : List Grid
  nodes : List Node
  /-- Completions not yet counted: successor nodes (R48). -/
  completions : List Nat
  nextGrid : Nat
  nextSeq : Nat
  /-- The core cycles of the last placement and of the last retirement of a team (R60). -/
  placed : Option Nat
  retired : Option Nat
deriving DecidableEq, Repr

/-! ### The matrix arrays (R279) -/

/-- A plane: elements keyed 128 × row + column, codes keyed 128 × block + column (0x80 where unlisted), KLEN, and the B_FMT,
B_BLK and B_SCALE of the last `mload`. -/
structure Plane where
  elems : List (Nat × BitVec 16)
  codes : List (Nat × BitVec 8)
  klen : Nat
  fmt : Nat
  blk : Nat
  scale : Nat
deriving DecidableEq, Repr

inductive TileKind where
  | load | swap | mul (ovw : Bool) | new | rel | drain (z : Bool) | zero | scA | scB | tld
deriving DecidableEq, Repr

/-- An issued tile operation with what it captured (R284, R286): its physical tile, the tile it releases, its slot, its rows,
the pieces of memory of each row, its queue, the rows it has done and the bytes popped or still to push (R289). -/
structure TileOp where
  num : Nat
  kind : TileKind
  sid : SId
  tile : Option Nat
  slot : DWord
  rows : Nat
  rowBase : Nat
  mem : List (List (DWord × Loc × Nat))
  queue : Option Nat
  /-- Queue entries popped or pushed. -/
  moved : Nat
  bytes : List Byte
  /-- Stopped on its queue, its context pre-empted (R301). -/
  stopped : Bool
deriving DecidableEq, Repr

/-- The matrix state of one control context. -/
structure Mat where
  active : Plane
  shadow : Plane
  /-- A-scale codes keyed 16 × row + block, 0x80 where unlisted, and A_BLK (0 for none). -/
  aCodes : List (Nat × BitVec 8)
  aBlk : Nat
  /-- Rename map: accumulator name to physical tile. -/
  map : List (Nat × Nat)
  /-- Physical tiles whose release is pending. -/
  releasing : List Nat
  /-- ASTRIDE, BSTRIDE, DSTRIDE, TSTRIDE, SSTRIDE. -/
  strides : List Word
deriving DecidableEq, Repr

/-- An operand-cache entry (R299). -/
structure OpLine where
  cluster : Nat
  asid : BitVec 16
  granule : Nat
  data : List Byte
  tcx : Nat
deriving DecidableEq, Repr

structure Arrays where
  /-- Matrix contexts by TCX. -/
  mats : List (Nat × Mat)
  /-- Physical tiles keyed 16 × cluster + tile: words keyed 128 × row + column. -/
  tiles : List (Nat × List (Nat × Word))
  ops : List TileOp
  cache : List OpLine
deriving DecidableEq, Repr

/-! ### Drays and the Porter -/

/-- A destination of a rank (R317). -/
inductive Dest where
  | fabric (addr : DWord)
  | pod (index : Nat)
deriving DecidableEq, Repr

/-- A checked tensor map (R30). -/
structure TMap where
  base : DWord
  elem : Nat
  skip : Bool
  half : Bool
  fill : Word
  box : List Nat
  size : List Nat
  stride : List DWord
deriving DecidableEq, Repr

/-- A rank descriptor as read (R317). -/
structure RankDesc where
  w0 : DWord
  ptr : DWord
  base : DWord
  step : DWord
deriving DecidableEq, Repr

/-- A job slot (R315): its registers, its on-die tables, the ingress keys by generation, the words of a key install in progress, and the Porter's cache of region entries (R326). -/
structure JobSlot where
  v : Bool
  asid : BitVec 16
  jid : Word
  rank : Nat
  /-- NRANKS − 1. -/
  last : Nat
  tblLo : Word
  tblHi : Word
  rgnLo : Word
  rgnHi : Word
  levelT : List RankDesc
  levelM : List RankDesc
  keys : List (Nat × List Word)
  pending : List Word
  regions : List (Nat × (DWord × DWord × DWord × DWord))
  /-- Its validations so far, which tell a request in flight whether the slot is still the one it was issued with (R315). -/
  gen : Nat
deriving DecidableEq, Repr

/-- What a copy moves (R311 to R313). -/
inductive CopyKind where
  | bytes (src : DWord)
  | fill (pattern : Word) (width : Nat)
  | tensor (dst src : TMap) (od os : List Int)
deriving DecidableEq, Repr

/-- A packet of a copy (R320, R322): the bytes it carries, its first and last sending, its path, its retries, and whether it has
been acknowledged. -/
structure Packet where
  index : Nat
  data : List (DWord × Byte)
  t0 : Nat
  last : Nat
  path : Nat
  tries : Nat
  acked : Bool
  /-- Of a read whose answer lies with the CXL expander, when it was sent there (R331, R435). -/
  cxl : Option Nat
deriving DecidableEq, Repr

/-- What every packet of a copy carries beside its bytes (R320, R324, R327): the copy's identifier, the packet's index, the job, the
source rank, the destination, the token and the path, or over UALink the port (R330). -/
structure PacketHead where
  copy : Nat
  index : Nat
  job : Word
  srcRank : Nat
  dest : Dest
  token : DWord
  path : Nat
  port : Option Nat
deriving DecidableEq, Repr

/-- A copy-tracker entry (R302 to R306). Entries of core 192 are the copies of graph nodes. -/
structure Copy where
  id : CopyId
  gen : Nat
  tcx : Nat
  sid : SId
  fn : Nat
  asid : BitVec 16
  kind : CopyKind
  dst : DWord
  len : Nat
  spray : Nat
  srcCtr : DWord
  notify : DWord
  /-- STATE of R303. -/
  state : Nat
  cause : BitVec 8
  /-- REASON, or the rejection word. -/
  reason : Word
  retx : Nat
  /-- Order of issue, and of the final status. -/
  seq : Nat
  dray : Option Nat
  /-- Where its packets go (R320); none for a copy within the device. -/
  dest : Option Dest
  token : DWord
  /-- The job and the rank of its device, and the number of paths, as it started (R315, R320). -/
  job : Word
  srcRank : Nat
  paths : Nat
  packets : List Packet
  /-- Moves done, or sent in packets. -/
  moved : Nat
  /-- A burst that waits for the CXL expander: its sending and its moves (R435). -/
  cxl : Option (Nat × Nat)
  /-- The first error that reached the Dray (R306). -/
  err : Option (BitVec 8 × BitVec 8)
  /-- A cancellation: the time of the close, and whether it is confirmed (R314). -/
  cancel : Option Nat
  confirmed : Bool
  /-- Vault destination words set empty at issue and not yet written (R228). -/
  empties : List Nat
deriving DecidableEq, Repr

/-- A target's record of an open copy (R321): packets placed, and whether the source has closed it. -/
structure Placed where
  job : Word
  srcRank : Nat
  copy : Nat
  indices : List Nat
  closed : Bool
deriving DecidableEq, Repr

/-- A cached reply of a remote atomic (R329). -/
structure CachedReply where
  srcRank : Nat
  seq : Nat
  reply : Reply
  time : Nat
deriving DecidableEq, Repr

structure Drays where
  copies : List Copy
  placed : List Placed
  replies : List CachedReply
  /-- Entropy values of the path sets; an unlisted set holds one value, 0 (R318). -/
  paths : List (Nat × List Nat)
  /-- The rank cache, oldest entry first (R316): job slot, top × 64 + middle, and the level-M entry. -/
  ranks : List (Nat × Nat × RankDesc)
deriving DecidableEq, Repr

/-! ### Collectives, multicast, work queues -/

/-- A checked collective descriptor (R33): `base` and `stride`, or the ranks of a bitmap. -/
structure CollDesc where
  op : Nat
  algo : Nat
  fmt : Nat
  root : Nat
  count : Nat
  base : Nat
  stride : Nat
  bitmap : Option (List Nat)
  chunk : Nat
  tripleD : Nat
  send : DWord
  recv : DWord
  total : Nat
  status : DWord
  timeout : Nat
  workq : Option Nat
  notify : DWord
deriving DecidableEq, Repr

/-- A forward sent and not yet acknowledged: chunk, member and time (R384). -/
structure Forward where
  chunk : Nat
  member : Nat
  time : Nat
deriving DecidableEq, Repr

/-- The progress of a chunk at this member (R379, R380): its fold so far with the next position in the fold order, data of
other members in staging, the time since which it waits for each missing input, and whether its result is written here. -/
structure Chunk where
  idx : Nat
  fired : Bool
  /-- This member's contribution, read when the chunk fires. -/
  mine : List Byte
  /-- Fold so far. -/
  acc : Option (List Byte)
  /-- Steps of this chunk that this member has done. -/
  step : Nat
  staged : List (Nat × List Byte)
  since : Nat
  written : Bool
  /-- The command-queue entry of its next step has been held since before the present time (R379, R384). -/
  entry : Bool
deriving DecidableEq, Repr

/-- A collective instance in one of the 256 slots (R375, R376, R382). -/
structure Inst where
  num : Nat
  slot : Nat
  asid : BitVec 16
  fn : Nat
  job : Nat
  addr : DWord
  desc : CollDesc
  /-- What its packets carry, its number among the instances of its key with it (R376). -/
  tag : CollTag
  /-- The stacks of its Millers, by chunk (R379). -/
  millers : List Nat
  me : Nat
  /-- The stream whose `coll` opened it, or the graph node. -/
  opener : Option SId
  node : Option Nat
  rlx : Bool
  chunks : List Chunk
  sent : List Forward
  /-- Chunk identifiers that wait for room in the bound queue (R386). -/
  pushes : List Nat
  /-- Aborted, with the cause and the named rank and member (R382, R384). -/
  aborted : Option (BitVec 8 × Nat × Nat)
  /-- Final: the status and the notify counter written; and what follows the pushes done (R382, R386). -/
  final : Bool
  ended : Bool
  seq : Nat
deriving DecidableEq, Repr

/-- A multicast in flight (R388 to R390): members by pod index with their answers (0 for OK). -/
structure Mcast where
  num : Nat
  sid : SId
  fn : Nat
  asid : BitVec 16
  rankBase : Nat
  members : List (Nat × Option (BitVec 8))
  ack : DWord
  srcCtr : DWord
  time : Nat
  portDown : Bool
  /-- Steps 1 and 2 of R390 are done. -/
  answered : Bool
deriving DecidableEq, Repr

/-- A work queue (R385): V, ASID, STATE (0 OPEN, 1 CLOSED, 2 ABORTED), entries, and a count of its changes. -/
structure WorkQ where
  v : Bool
  asid : BitVec 16
  state : Nat
  entries : List Word
  ver : Nat
deriving DecidableEq, Repr

/-- What matches instances of different members (R376): job ID, OP and member set. -/
structure CollKey where
  job : Word
  op : Nat
  ranks : List Nat
deriving DecidableEq, Repr

structure Colls where
  insts : List Inst
  nextNum : Nat
  /-- Instances opened so far by (job ID, OP, member set) (R376). -/
  opened : List (CollKey × Nat)
  mcasts : List Mcast
  wqs : List (Nat × WorkQ)
  mcgLo : Word
  mcgHi : Word
deriving DecidableEq, Repr

/-! ### The host side, power and firmware -/

/-- An event record (R442): time, event, source and detail. -/
structure EvRec where
  gts : Nat
  event : BitVec 8
  source : BitVec 16
  detail : DWord
deriving DecidableEq, Repr

/-- The registers of R433 that are not functions' or links'. -/
structure HostIf where
  lost : Bool
  pwrTol : DWord
  hbmIdle : Nat
  cxlTimeouts : Nat
  cxlTimeout : Nat
  evtBase : DWord
  evtCtl : DWord
  evtHead : Nat
  /-- Event records made since reset, modulo 2^32, those that were dropped among them (R442). -/
  evtSeq : Nat
  evtTail : Nat
  /-- Records of the current nanosecond, in the order of R12, not yet written (R442); records held on the die while the link is
  down (R434). -/
  fresh : List EvRec
  held : List EvRec
  /-- Vectors unmasked since reset and pending bits, keyed 2,048 × function + vector (R431). -/
  unmasked : List Nat
  pending : List Nat
deriving DecidableEq, Repr

/-- Power states (R438), the management port's limits (R445), and when each unit's entry condition last failed to hold, in
quarters of a nanosecond: clusters 0 to 47, dies 64 to 67, the device 100, pseudo-channel p of HBM4 128 + p. -/
structure Power where
  gated : List Nat
  retained : List Nat
  hbmSr : List Nat
  deep : Bool
  disabled : List Nat
  cap : Option Nat
  busy : List (Nat × Nat)
deriving DecidableEq, Repr

/-- Firmware (R443): stages run, measurement registers, recovery, the security version in fuses, and an image that waits for
the next reset (R444). -/
structure Firmware where
  stages : Nat
  measures : List (Nat × List Byte)
  recovery : Bool
  fuse : Nat
  update : Option (List Byte × Nat)
  /-- The image that the last reset made active, where an update was waiting for it (R437, R444). -/
  active : Option (List Byte × Nat)
  /-- Bytes of the active image that stages have loaded since reset; and the number of the identity key, which each reset derives
  anew (R443, R444). -/
  loaded : Nat
  ident : Nat
deriving DecidableEq, Repr

end Sys2Proof.Machine
end

