-- ==== Sys2Proof/Machine/State.lean ====
section
/-! DEFINITION. Sys2Proof/Machine/State.lean: the state of the device as plain data, its faults and refusals, and the
state after reset. -/
namespace Sys2Proof.Machine

/-! ### Streams -/

/-- A deferred error: its cause and its REASON (R132, R403). -/
structure Err where
  cause : BitVec 8
  code : BitVec 16
deriving DecidableEq, Repr

/-- The four outstanding-operation counters (R130). -/
structure Counters where
  ld : Nat
  st : Nat
  cp : Nat
  tl : Nat
deriving DecidableEq, Repr

/-- The four pending-error slots (R132). -/
structure Slots where
  ld : Option Err
  st : Option Err
  cp : Option Err
  tl : Option Err
deriving DecidableEq, Repr

/-- The trap registers of a stream (R403). -/
structure TrapRegs where
  cause : BitVec 8
  pc : DWord
  npc : DWord
  addr : DWord
  info : Word
  hmode : Bool
  vec : DWord
deriving DecidableEq, Repr

/-- Why a thread is parked (R139). -/
inductive Park where
  | none
  /-- `wait`: the thresholds (R133). -/
  | counters (ldt stt cpt tlt : BitVec 8)
  /-- The completion wait of `exit` (R174). -/
  | exitWait
  /-- `waitc`: the counter and the target (R369). -/
  | waitc (loc : Loc) (target : Nat)
  /-- A full/empty wait: its operation (R229). -/
  | fe (op : Nat)
  /-- Queues: the keys that the instruction names and the versions seen (R264). -/
  | queue (seen : List (Nat × Nat))
  /-- A full work queue, the version seen, and the lowest thread of the `wqpush` that waits for room as one (R264, R387). -/
  | wq (n ver : Nat) (low : SId)
  /-- `wqpop` of an empty queue: the queue and the operands (R387). -/
  | wqpop (n : Nat) (o : Alu1)
  /-- A team barrier and the generation of the arrival (R365); `wt` is `barwt`, and `rlx` a return that orders nothing (R366). -/
  | bar (id : Nat) (gen : Word) (wt rlx : Bool)
  /-- The grid barrier (R367). -/
  | gbar (gen : Word) (rlx : Bool)
  /-- A join slot (R177); `done` once the slot has completed or left the thread out (R176). -/
  | join (slot : Nat) (done : Bool)
  /-- `nsleep` until GTS reaches `wake` (R137). -/
  | sleep (wake : Nat)
  /-- `launch` of the record at an address, D, and the result once Loom has answered (R373). -/
  | launch (d : Reg) (res : Option Word)
  /-- A fence or scoped access that waits for the spaces of its mask (R338). -/
  | fence (mask : BitVec 5)
  /-- `tlbsync` until the accesses of earlier `tlbinv` have drained: operations, and packets of copies (R412). -/
  | tlbsync (ops : List Nat) (packets : List (CopyId × Nat))
  /-- A fault merge table entry: die and index (R90), the next PC of the faulting instruction, its failing address and
  FTID, whether the lane is one that a trap of the instruction would take (R402, R410), and whether the fetch failed (R93). -/
  | fault (die idx : Nat) (npc addr : DWord) (ftid : Nat) (act fetch : Bool)
  /-- Held at the walker of a die for want of an entry (R91), in arrival order. -/
  | walker (die arrival : Nat)
  /-- `mfence` (R300). -/
  | mfence
  /-- `vcdef.rm` until the cache has drained: the VCID and D (R238). A stall, and no park (R139). -/
  | vcrm (vcid : Nat) (d : Reg)
  /-- A Carter stream that `cstop` has stopped and whose operations complete (R274). -/
  | stop
deriving DecidableEq, Repr

/-- What a release carries (R335, R340, R342): the bytes written, who released and with which scope and mask, and the
operations that happen before the release and have not been performed. -/
structure Rel where
  key : Nat
  size : Nat
  sid : SId
  agent : Agent
  mask : BitVec 5
  ops : List Nat
deriving DecidableEq, Repr

/-- An open window (R122 to R125): the issue that opened it, the branch, the direction taken on prediction, the two next PCs, the
registers and the other state to restore, the instructions issued inside, and the first operation number inside. -/
structure Window where
  issue : Nat
  branch : DWord
  taken : Bool
  target : DWord
  fall : DWord
  guard : Guard
  /-- The link register of a `call`, and the counter of a `loop`. -/
  link : Option Reg
  loop : Option Reg
  regs : List (Nat × Word)
  gtsHi : Option Word
  policy : Policy
  path : List (DWord × DWord)
  count : Nat
  firstOp : Nat
  /-- A misplaced lane of the prediction has been counted (R424). -/
  missed : Bool
  /-- The paths that lanes of the group with a known predicate have left the branch behind, by their next PC (R155). -/
  known : List (DWord × List (DWord × DWord))
deriving DecidableEq, Repr

/-- A stream (R57): a lane thread, a Carter stream or a control stream. -/
structure Stream where
  id : SId
  pc : DWord
  regs : List (Nat × Word)
  cnt : Counters
  slots : Slots
  trap : TrapRegs
  park : Park
  exited : Bool
  policy : Policy
  gtsHi : Option Word
  /-- The core cycle since which the thread has been ready without issuing (R121). -/
  since : Nat
  /-- R121: ready for 2,048 cycles. -/
  aged : Bool
  /-- `yield`'s deferral: the cycle in which it ends and the issue number of the `yield`; and the streams that were ready then
  (R138). -/
  yield : Option (Nat × Nat)
  behind : List SId
  /-- The number of its last issue. -/
  issued : Nat
  /-- The cycle since which the thread has stalled, and the cycle since which a queue has been the reason (R118, R264). -/
  stall : Option Nat
  short : Option Nat
  /-- It has stalled at a branch without a prediction, and waits for the predicate (R122). -/
  firm : Bool
  /-- The work queue for whose room a `wqpush` of the thread waits, and whether its owner has lost it since (R385). -/
  room : Option (Nat × Bool)
  /-- Words of a `tcopy`'s origin block that another rank has answered, with the cause of a failure (R313). -/
  block : List (Nat × DWord × Option Err)
  /-- The path of R155: the divergent branches taken since the start or the release of a join, newest first; and the path
  outside the trap handler (log entry 105). -/
  path : List (DWord × DWord)
  outer : List (DWord × DWord)
  window : Option Window
  /-- The first acquire after a migration waits for the flush of this tag (R416). -/
  flush : Option Nat
  /-- Operations of earlier `tlbinv` instructions not yet drained, and packets of copies (R412). -/
  old : List Nat
  oldPackets : List (CopyId × Nat)
  /-- Operations of others that happen before what the stream does next, each with the number of the acquire that says so
  (R342); and releases read by accesses that were no acquires, which an acquire fence turns into such (R340). -/
  carried : List (Nat × Nat)
  got : List (Nat × Rel)
  /-- Release fences of the stream, and its release writes that have been performed, with operations that happen before them
  and have not been (R340 to R342). -/
  fenced : List (Nat × Rel)
  released : List Rel
  /-- What its arrivals at barriers release (R366, R367): the barrier, or none for the grid's, and the operations. -/
  arrived : List (Option Nat × List Nat)
  /-- Operations of its own that a scoped access has overtaken while nobody else was in the scope (R335, R337). -/
  overtaken : List (Agent × Nat)
deriving DecidableEq, Repr

/-! ### Teams -/

/-- A team barrier or a grid barrier (R364): `expected` is none before the first arrival of a generation, then ALL
(some none) or a count. -/
structure Barrier where
  gen : Word
  arrived : Nat
  expected : Option (Option Nat)
deriving DecidableEq, Repr

/-- A join slot of a group (R175). -/
structure JSlot where
  mask : DWord
  arr : DWord
deriving DecidableEq, Repr

/-- A placed team (R55 to R66, R413). -/
structure Team where
  tcx : Nat
  grid : Nat
  fn : Nat
  tx : Nat
  ty : Nat
  tz : Nat
  /-- The core, or the lower core of the pair. -/
  core : Nat
  shadow : Bool
  /-- Saved in a context image: its number (R414). -/
  image : Option Nat
  /-- The context tag of the core, and of the upper core of a pair (R413). -/
  ctag : Nat
  ctagUp : Nat
  recd : Rec
  vaultBase : Word
  /-- Hardware queues reserved on the lower and on the upper core (R261). -/
  queues : List Nat × List Nat
  /-- Port bindings of the lower and of the upper core: port to team queue index (R262). -/
  binds : List (Nat × Nat) × List (Nat × Nat)
  bars : List (Nat × Barrier)
  /-- Join slots, keyed 16 × group + slot. -/
  joins : List (Nat × JSlot)
  /-- For each group the last core cycle in which its slots were updated, and the lowest thread of the last updating issue group
  (R180). -/
  slotAt : List (Nat × (Nat × Nat))
  /-- Arrival orders of the groups at the last four `bar` completions (R134), newest first; and those of the generations in
  progress, by barrier. -/
  urgency : List (List Nat)
  arrivals : List (Nat × List Nat)
  /-- RANK and NRANKS of its streams (R66, R67). -/
  rank : Word
  nranks : Word
  /-- Ended with this cause, and when (R405). -/
  ended : Option (BitVec 8)
  endedAt : Nat
  /-- What follows its end has been done: TEAM_END has run (R405). -/
  cleaned : Bool
  /-- The GTS of its last issue (R420). -/
  lastIssue : Nat
deriving DecidableEq, Repr

/-! ### Memory operations -/

/-- A lane of an operation: its stream and operands. -/
structure OpLane where
  sid : SId
  b : DWord
  c : DWord
deriving DecidableEq, Repr

/-- Full/empty operations (R248, R252). -/
inductive FeOp where
  | ldvw | ldvt | stvp | stvf
deriving DecidableEq, Repr

/-- What a range instruction does (R253, R254). -/
inductive RangeOp where
  | wb | flush | inval | prio (p : Prio)
deriving DecidableEq, Repr

/-- Kinds of outstanding operations. -/
inductive OpKind where
  | load (sx : Bool)
  | store
  /-- A read-modify-write; `ret` when D ≠ v0 (R360). -/
  | rmw (op : RmwOp) (ret : Bool)
  | fe (op : FeOp)
  | femk (len : Nat) (full : Bool)
  | feqry
  | range (op : RangeOp) (lines : List (Loc × Nat))
  | vcq (asid : BitVec 16) (va : DWord)
  | sg (acq : Bool)
  | hsig (fn vector : Nat) (write : Bool)
  /-- A read of a Carter transfer: the transfer's number and the elements it serves (R276, R277). -/
  | elemLoad (xfer : Nat) (elems : List Nat) (sx : Bool)
  /-- An element store of a Carter transfer (R276, R278). -/
  | elemStore (xfer : Nat)
  /-- A fence marker: order and mask (R341). -/
  | fence (ord : Order)
  /-- The marker of a read that has returned bytes of stores not yet performed (R344, R351): those stores. -/
  | seen (ws : List Nat)
  /-- A load of a word of the origin block of a `tcopy` from another rank (R313): its index. -/
  | block (i : Nat)
deriving DecidableEq, Repr

/-- How far an operation has come. -/
inductive OpPhase where
  | issued
  /-- A store through a replica that has left for the home slice (R351). -/
  | left
  /-- Arrived at its vault bank as a waiter (R229). -/
  | waiting
  /-- A request sent: the GTS of the first sending, the sendings (R319, R361), and the UALink port that carries it (R330). -/
  | sent (t0 tries : Nat) (port : Option Nat)
  /-- A request to the device's own rank, served through its own Porter (R317): the request, its job slot, and the slot as it was
  at the issue (R315). -/
  | self (r : InReq) (n : Nat) (j : JobSlot)
  /-- A request that failed before it left the device: cause and REASON (R316, R324, R330). -/
  | failed (cause : BitVec 8) (reason : BitVec 16)
  /-- One half of an `aadd2h` has been performed, the upper one or the lower: the values that it returns (R359). -/
  | half (upper : Bool) (vals : List (BitVec 16))
deriving DecidableEq, Repr

/-- An outstanding memory operation. Numbers rise in issue order. -/
structure MemOp where
  num : Nat
  kind : OpKind
  lanes : List OpLane
  d : Reg
  /-- A queue entry that receives the value: core, queue and entry serial (R246, R263). -/
  entry : Option (Nat × Nat × Nat)
  va : DWord
  loc : Loc
  size : Nat
  ord : Order
  scp : Bool
  agent : Agent
  mask : BitVec 5
  hint : Hint
  core : Nat
  ctag : Nat
  /-- The counter that falls, as an index of R130. -/
  counter : Nat
  phase : OpPhase
  /-- The issue that made it (R243). -/
  inst : Nat
  /-- The address pair that is killed when a parked lane goes on (R100, R242). -/
  kill : Option Reg
deriving DecidableEq, Repr

/-! ### Translation -/

/-- A cached translation point (R88). -/
inductive TlbAt where
  | core (c : Nat) | dray (d : Nat) | die (d : Nat)
deriving DecidableEq, Repr

/-- A leaf as translation uses it (R80). -/
structure Leaf where
  vcid : Nat
  target : Nat
  /-- Physical address of the page's first byte. -/
  base : Nat
  /-- log2 of the page size. -/
  size : Nat
  u : Bool
  x : Bool
  w : Bool
  /-- A and D; in a merged entry those of all its pages (R83). -/
  a : Bool
  d : Bool
deriving DecidableEq, Repr

/-- An upper table entry cached by the walker of a die (R85): the table of a level for the addresses with a tag. -/
structure UpperEntry where
  die : Nat
  asid : BitVec 16
  level : Nat
  tag : Nat
  table : Nat
deriving DecidableEq, Repr

structure TlbEntry where
  at_ : TlbAt
  asid : BitVec 16
  /-- First virtual address of the page. -/
  va : Nat
  leaf : Leaf
deriving DecidableEq, Repr

/-- A valid ASID descriptor (R77). -/
structure Desc where
  root : Nat
  privBase : Nat
  privLog2 : Nat
deriving DecidableEq, Repr

/-- A fault merge table entry (R90, R408). -/
structure Merge where
  die : Nat
  idx : Nat
  asid : BitVec 16
  page : Nat
  waiters : List SId
  va : Nat
  core : Nat
  kind : Nat
  malformed : Bool
  level : Nat
  cause : BitVec 8
  gts : Nat
  seq : Nat
  pc : DWord
  /-- The record has been written; the announcement has been pushed. -/
  written : Bool
  pushed : Bool
deriving DecidableEq, Repr

/-- The fault-ring registers of a die (R407) and its record sequence (R408). -/
structure FaultRing where
  lo : Word
  hi : Word
  ctl : Word
  seq : Nat
deriving DecidableEq, Repr

structure Trans where
  asidTbl : Nat
  tlb : List TlbEntry
  upper : List UpperEntry
  descs : List (Nat × Option Desc)
  merges : List Merge
  rings : List FaultRing
  /-- Arrival counter of the accesses held at walkers (R91). -/
  arrivals : Nat
deriving DecidableEq, Repr

/-! ### Vaults and virtual caches -/

/-- Roles of a share (R224). -/
inductive Role where
  | free | vault | member | leaving | failed
deriving DecidableEq, Repr

structure Share where
  role : Role
  owner : BitVec 16
  vcid : Nat
  errors : Nat
deriving DecidableEq, Repr

inductive VcState where
  | defined | migrating (asid : BitVec 16) (counter : DWord) (error : Bool) | removing
deriving DecidableEq, Repr

/-- Write policies (R232). -/
inductive WPol where
  | back | through | around | readOnly
deriving DecidableEq, Repr

/-- A defined virtual cache (R230). `map` lists (cluster, local share numbers). -/
structure VCache where
  vcid : Nat
  fill : Prio
  repl : Bool
  wpol : WPol
  assoc : Nat
  line : Nat
  map : List (Nat × List Nat)
  state : VcState
deriving DecidableEq, Repr

/-- A resident line (R231, R236). `rep` is the cluster of its replica. -/
structure Line where
  vcid : Nat
  rep : Option Nat
  base : Nat
  data : List Byte
  dirty : Bool
  prio : Prio
  ctag : Option Nat
  share : Nat
  set : Nat
  way : Nat
  /-- Poisoned granules that the line holds (R240). -/
  bad : List Nat
deriving DecidableEq, Repr

/-- Directory states of a segment (R234): in Transit with the state that follows. -/
inductive Dir where
  | I
  | S (set : List Nat)
  | O (c : Nat)
  | T (sharers : List Nat) (owner : Option Nat)
deriving DecidableEq, Repr

structure Vaults where
  /-- Full/empty bits: the empty words' addresses, ascending (R228). -/
  empty : List Nat
  /-- Vault words with an uncorrectable error that nothing has written since (R240). -/
  broken : List Nat
  /-- Waiters of full/empty operations, in arrival order: operation numbers (R229). -/
  waiters : List Nat
  /-- Poisoned 32 B granules: keys, ascending (R240). -/
  poison : List Nat
  /-- Shares whose state differs from what the boot firmware leaves (R224, R229). -/
  shares : List (Nat × Option Share)
  caches : List VCache
  lines : List Line
  dirs : List (Nat × Dir)
  joinAsid : BitVec 16
  joinStat : Word
  migrateMode : Bool
  /-- Context tags whose flush has not been acknowledged (R416). -/
  flushing : List Nat
deriving DecidableEq, Repr

/-! ### Queues and Carters -/

inductive EState where
  | reserved | ready
deriving DecidableEq, Repr

/-- A queue entry (R259): elements by index, mask, state and data still to arrive. -/
structure QEntry where
  serial : Nat
  elems : List (Nat × Word)
  mask : DWord
  state : EState
  missing : Nat
deriving DecidableEq, Repr

/-- A hardware queue of a core; unlisted queues are empty (R259). -/
structure Queue where
  entries : List QEntry
  ver : Nat
deriving DecidableEq, Repr

/-- A Carter transfer in progress (R276 to R278). -/
structure Xfer where
  /-- Its number: the operation number at its issue. -/
  num : Nat
  sid : SId
  core : Nat
  hwq : Nat
  /-- Elements of one entry. -/
  w : Nat
  /-- A gather or scatter, which holds its elements in the gather buffer (R267). -/
  gather : Bool
  store : Bool
  /-- Elements: address and location, or none where the index word failed (R276). -/
  elems : List (Option (DWord × Loc))
  size : Nat
  sx : Bool
  bulk : Bool
  /-- Values read, by element. -/
  got : List (Nat × Word)
  /-- Serial numbers of the entries reserved, in order; for stores, entries popped. -/
  entries : List Nat
  /-- Operations not yet performed. -/
  pending : Nat
deriving DecidableEq, Repr

structure Queues where
  /-- Queues keyed 32 × core + number. -/
  qs : List (Nat × Queue)
  serial : Nat
  xfers : List Xfer
deriving DecidableEq, Repr

/-! ### Clock and issue -/

/-- GTS in quarters of a nanosecond and the core-cycle count (R12, R440). -/
structure Clock where
  cycles : Nat
  gtsQ : Nat
deriving DecidableEq, Repr

/-- Counts of a core context (R424), keyed by its tag. -/
structure PmCounts where
  /-- Cycles spent in the active set up to the last swap out; the cycle of the last swap in. -/
  cycles : Nat
  since : Option Nat
  words : Nat
  squashed : Nat
  predictions : Nat
  misplaced : Nat
  probes : Nat
  hits : Nat
  misses : Nat
  /-- Cycles lost to bank conflicts, as far as a `pmrd` has read them. -/
  bank : Nat
deriving DecidableEq, Repr

/-- The issue group whose instruction executes: its lanes in ascending thread index, its PC and the next PC. -/
structure Cur where
  lanes : List SId
  pc : DWord
  npc : DWord
deriving DecidableEq, Repr

/-- The schedule (log entry 3): which agent acts next. -/
inductive Turn where
  /-- A Carter or control stream issues. -/
  | issue (sid : SId)
  /-- A core issues one instruction of its lane streams; `k` breaks the ties that R121 leaves. -/
  | core (c k : Nat)
  /-- An event of the device. -/
  | event (i : Instr)
  /-- Core cycles pass. -/
  | tick (n : Nat)
  /-- The Dray of a running copy moves its next bytes, or sends its next packet (R304, R320). -/
  | burst (id : CopyId) (n : Nat)
  /-- System software writes a path set: its entropy values (R318). -/
  | pathset (n : Nat) (vals : List Nat)
  /-- The host masks a vector of a function in its MSI-X table (R431). -/
  | mask (fn vector : Nat)
  /-- A cached translation, or a cached upper table entry, is dropped (R88). -/
  | evictTlb (n : Nat)
  | evictUpper (n : Nat)
deriving DecidableEq, Repr

/-! ### The fabric -/

/-- A grant token held for a key (R324). -/
structure Token where
  asid : BitVec 16
  rank : Nat
  region : Nat
  tok : DWord
deriving DecidableEq, Repr

/-- A request that leaves for another device (R319): operation number, which is also its sequence number (R361), destination,
address, token, bytes read, data written or atomic operands, the atomic, the GTS of its first sending, its job and source rank,
and over UALink its port (R330). -/
structure OutReq where
  op : Nat
  dest : Dest
  addr : DWord
  token : DWord
  load : Nat
  data : List Byte
  atom : Option RmwOp
  t0 : Nat
  job : Word
  srcRank : Nat
  port : Option Nat
deriving DecidableEq, Repr

/-- What a crash dump streams out (R446): the contexts in their architectural form (R413) with their trap registers, queue contents,
matrix contexts and tiles; merge tables and fault rings; Loom's pool and node table; the event records held on the die; the
measurement registers. -/
structure Dump where
  teams : List Team
  streams : List Stream
  queues : Queues
  arrays : Arrays
  merges : List Merge
  rings : List FaultRing
  loom : Loom
  events : List EvRec
  measures : List (Nat × List Byte)
deriving DecidableEq, Repr

/-- The bytes that a crash dump streams out, which its signature covers (R446): the format is not stated. Free value, log entry 20. -/
opaque dumpBytes : Dump → List Byte

/-- What leaves the device at its boundary, oldest first. -/
inductive Msg where
  | msix (fn vector : Nat)
  /-- An answer of the management port, and one to a vendor-defined message of the host link (R444, R445). -/
  | mgmt (bytes : List Byte)
  | vdm (bytes : List Byte)
  | request (r : OutReq)
  /-- A copy packet (R320), a packet that asks for source bytes, and the close of a copy (R322): its job, source rank and
  identifier. -/
  | packet (h : PacketHead) (data : List (DWord × List Byte)) (notify : DWord)
  | fetch (h : PacketHead) (ranges : List (DWord × Nat))
  | close (copy : Nat) (job : Word) (srcRank : Nat) (dest : Dest)
  /-- Answers of this device's Porter (R321, R327, R361). -/
  | ack (job : Word) (srcRank copy index : Nat)
  | nack (job : Word) (srcRank copy index : Nat) (reason : BitVec 8)
  | reply (srcRank : Nat) (r : Reply)
  | atomReply (srcRank seq : Nat) (r : Reply)
  /-- Collective data to a member, an abort that names a member, and the Porter's answers: an acknowledgement and a NACK (R376,
  R384). -/
  | forward (tag : CollTag) (chunk member : Nat) (data : List Byte)
  | abort (tag : CollTag) (member : Nat) (rank named : Nat)
  | collAck (tag : CollTag) (chunk member : Nat)
  | collNack (tag : CollTag) (member : Nat) (reason : BitVec 8)
  /-- A packet of a multicast with the token of each member, by pod index, and the notify offset (R388, R389). -/
  | mcast (num index : Nat) (tokens : List (Nat × DWord)) (data : List (DWord × List Byte)) (notify : DWord)
  /-- A crash dump (R446), and its signature. -/
  | dump (d : Dump) (signature : List Byte)
deriving DecidableEq, Repr

/-- A function's registers (R403, R404, R433). -/
structure FnCfg where
  v : Bool
  atomic : Bool
  msix : Nat
  privV : Bool
  privAsid : BitVec 16
  last : BitVec 16
  first : BitVec 16
  defVec : DWord
  wdog : BitVec 16
deriving DecidableEq, Repr

/-- Links of the device: the host link and whether it has been up since reset, the CXL link, the UALink ports; what the device
has discarded, and the losses (R330, R434, R435). -/
structure Links where
  hostUp : Bool
  wasUp : Bool
  cxlUp : Bool
  ports : List Bool
  discarded : Nat
  losses : Nat
deriving DecidableEq, Repr

structure State where
  clock : Clock
  agenda : List Turn
  cur : Cur
  /-- Instructions issued (R138). -/
  issues : Nat
  /-- Counter of free values drawn (log entry 12). -/
  free : Nat
  nextOp : Nat
  streams : List Stream
  teams : List Team
  /-- Grid barriers by grid (R367). -/
  gbars : List (Nat × Barrier)
  ops : List MemOp
  mem : List Host.Cell
  tr : Trans
  vt : Vaults
  qu : Queues
  /-- Job slots 0 to 7 (R315) and the token store (R324). -/
  jobs : List JobSlot
  tokens : List Token
  /-- Functions 0 to 64; unlisted ones hold zeros. -/
  fns : List (Nat × FnCfg)
  pm : List (Nat × PmCounts)
  halted : List Nat
  links : Links
  loom : Loom
  mx : Arrays
  dr : Drays
  co : Colls
  hif : HostIf
  pwr : Power
  fw : Firmware
  /-- Context images written since reset: number and the CTAG they hold (R414). -/
  images : List (Nat × Nat)
  outbox : List Msg
deriving DecidableEq, Repr

/-- The reasons for which the machine would stop with a fault: none. Every fault of the manual is a state the device
goes on from (R400). -/
inductive Fault where
deriving DecidableEq, Repr

/-- The reasons for which a step has no meaning. -/
inductive Refusal where
  /-- An instruction without a meaning yet, by name: raised by exec's arm of that instruction; safe. -/
  | notModelled (mnemonic : String)
deriving DecidableEq, Repr

/-! ### Reset -/

/-- VCID 1 as the boot firmware defines it (before R230): interleaved, write-back, 128 B lines, 16 ways, normal fill, local
shares 0 to 127 of every cluster. -/
def bootCache : VCache :=
  { vcid := 1, fill := .normal, repl := false, wpol := .back, assoc := 16, line := 128
    map := (List.range Config.clusters).map fun c => (c, List.range 128), state := .defined }

/-- FR_d of a die at reset: WQ 252 + d, CORE 48 × d (R407). -/
def bootRing (d : Nat) : FaultRing := ⟨0, 0, BitVec.ofNat 32 ((252 + d) * 256 + 48 * d), 0⟩

/-- A job slot at reset (R315). -/
def blankJob : JobSlot := ⟨false, 0, 0, 0, 0, 0, 0, 0, 0, [], [], [], [], [], 0⟩

def State.resetTrans : Trans :=
  { asidTbl := 0, tlb := [], upper := [], descs := [], merges := [], rings := (List.range 4).map bootRing, arrivals := 0 }
def State.resetVaults : Vaults :=
  { empty := [], broken := [], waiters := [], poison := [], shares := [], caches := [bootCache], lines := [], dirs := [], joinAsid := 0
    joinStat := 0, migrateMode := false, flushing := [] }
def State.resetLoom : Loom :=
  { ports := [], served := [], held := [], grids := [], nodes := [], completions := [], nextGrid := 0, nextSeq := 0, placed := none
    retired := none }
def State.resetColls : Colls :=
  { insts := [], nextNum := 0, opened := [], mcasts := [], wqs := [], mcgLo := 0, mcgHi := 0 }
def State.resetHost : HostIf :=
  { lost := false, pwrTol := 0, hbmIdle := 1000, cxlTimeouts := 0, cxlTimeout := 3, evtBase := 0, evtCtl := 0, evtHead := 0
    evtSeq := 0, evtTail := 0, fresh := [], held := [], unmasked := [], pending := [] }

/-- The device after reset (R437): the reset values of every register, memory with nothing listed, no stream, team, grid or
operation, and what the boot firmware leaves in the shares (R224). Log entry 2 names the values the spec does not give. -/
def State.reset : State :=
  { clock := ⟨0, 0⟩, agenda := [], cur := ⟨[], 0, 0⟩, issues := 0, free := 0, nextOp := 0, streams := [], teams := [], gbars := []
    ops := [], mem := [], tr := State.resetTrans, vt := State.resetVaults, qu := ⟨[], 0, []⟩
    jobs := List.replicate 8 blankJob, tokens := [], fns := [], pm := [], halted := []
    links := { hostUp := false, wasUp := false, cxlUp := false, ports := List.replicate 16 true, discarded := 0, losses := 0 }
    loom := State.resetLoom, mx := ⟨[], [], [], []⟩, dr := ⟨[], [], [], [], []⟩, co := State.resetColls
    hif := State.resetHost, pwr := ⟨[], [], [], false, [], none, []⟩, fw := ⟨0, [], false, 0, none, none, 0, 0⟩, images := []
    outbox := [] }

end Sys2Proof.Machine
end

