-- ==== Sys2Proof/Machine/Ops.lean ====
section
/-! DEFINITION. Sys2Proof/Machine/Ops.lean: the named operations on streams, teams and registers: reading and writing a
register, guards, completing an instruction, taking a trap (R402), returning from one (R422) and ending a team (R405). -/
namespace Sys2Proof.Machine

/-- What a meaning answers. -/
abbrev Out := Host.Outcome State Fault Refusal

/-! ### Cause codes (R400) -/
abbrev Cause := BitVec 8
def cIllegalOpcode : Cause := 0x01
def cIllegalPair : Cause := 0x02
def cIllegalOperand : Cause := 0x03
def cStreamKind : Cause := 0x04
def cPrivilege : Cause := 0x05
def cPageNotPresent : Cause := 0x10
def cPagePermission : Cause := 0x11
def cAddressClass : Cause := 0x12
def cVaultRange : Cause := 0x13
def cVcUndefined : Cause := 0x14
def cAlignment : Cause := 0x15
def cFeTrap : Cause := 0x16
def cRemoteNack : Cause := 0x20
def cRemoteTimeout : Cause := 0x21
def cOutcomeUnknown : Cause := 0x22
def cLinkLost : Cause := 0x23
def cPodPortDown : Cause := 0x24
def cUncorrectable : Cause := 0x30
def cPoison : Cause := 0x31
def cMemberLost : Cause := 0x40
def cAborted : Cause := 0x41
def cBreakpoint : Cause := 0x50
def cTrapInsn : Cause := 0x51
def cWatchdog : Cause := 0x60

/-! ### Registers of a stream -/

/-- ReadReg of R110 for v0 to v239: v0 and a killed register read zero. -/
def Stream.rd (st : Stream) (r : Reg) : Word := if r = 0 then 0 else sget 0 st.regs r.toNat
/-- ReadReg(lane, reg, 64): {v(reg + 1), v(reg)} (R110). -/
def Stream.rd64 (st : Stream) (r : Reg) : DWord := st.rd (r.up 1) ++ st.rd r
/-- WriteReg of R110: a write to v0 is discarded. A queue port is pushed elsewhere. -/
def Stream.wr (st : Stream) (r : Reg) (v : Word) : Stream :=
  if r = 0 || Reg.isPort r then st else { st with regs := sset 0 st.regs r.toNat v }
/-- WriteReg(lane, reg, value, 64): the low half in the even register; a write that names v0 is discarded whole (R110, R246,
R355; log entry 22). -/
def Stream.wr64 (st : Stream) (r : Reg) (v : DWord) : Stream :=
  if r = 0 then st else (st.wr r (v.extractLsb' 0 32)).wr (r.up 1) (v.extractLsb' 32 32)
/-- A kill: the register reads as zero until it is written (R100). -/
def Stream.kill (st : Stream) (r : Reg) (k : Bool) : Stream := if k then st.wr r 0 else st
/-- A kill of both registers of a pair; that of v0 has no effect (R100, R242). -/
def Stream.kill64 (st : Stream) (r : Reg) (k : Bool) : Stream := (st.kill r k).kill (r.up 1) k

/-- The guard of R98 in one lane: bit 0 of G, inverted by GN. -/
def guardHolds (g : Guard) (st : Stream) : Bool := !g.en || ((st.rd g.reg).getLsbD 0 != g.neg)

/-! ### Counters and slots -/

def Counters.get (c : Counters) : Nat → Nat
  | 0 => c.ld | 1 => c.st | 2 => c.cp | _ => c.tl
def Counters.add (c : Counters) (k n : Nat) : Counters :=
  match k with
  | 0 => { c with ld := c.ld + n } | 1 => { c with st := c.st + n }
  | 2 => { c with cp := c.cp + n } | _ => { c with tl := c.tl + n }
def Counters.dec (c : Counters) (k : Nat) : Counters :=
  match k with
  | 0 => { c with ld := c.ld - 1 } | 1 => { c with st := c.st - 1 }
  | 2 => { c with cp := c.cp - 1 } | _ => { c with tl := c.tl - 1 }
def Slots.get (c : Slots) : Nat → Option Err
  | 0 => c.ld | 1 => c.st | 2 => c.cp | _ => c.tl
def Slots.set (c : Slots) (k : Nat) (e : Option Err) : Slots :=
  match k with
  | 0 => { c with ld := e } | 1 => { c with st := e } | 2 => { c with cp := e } | _ => { c with tl := e }
/-- Recording of a deferred error: into an empty slot, otherwise discarded (R132). -/
def Slots.record (c : Slots) (k : Nat) (e : Err) : Slots := if (c.get k).isNone then c.set k (some e) else c

/-! ### Streams and teams of the device -/

def blankTrap : TrapRegs := ⟨0, 0, 0, 0, 0, false, 0⟩
/-- A stream at its start (R65, R403): its registers and counters zero. -/
def newStream (id : SId) (pc : DWord) (vec : DWord) (now : Nat) : Stream :=
  ⟨id, pc, [], ⟨0, 0, 0, 0⟩, ⟨none, none, none, none⟩, { blankTrap with vec := vec }, .none, false, .last, none, now,
    false, none, [], 0, none, none, false, none, [], [], [], none, none, [], [], [], [], [], [], [], []⟩

def State.stream? (s : State) (id : SId) : Option Stream := s.streams.find? fun st => st.id = id
/-- The stream of an identity; a blank one where it does not exist. -/
def State.stream (s : State) (id : SId) : Stream := (s.stream? id).getD (newStream id 0 0 0)
/-- Change the streams of a list of identities. -/
def State.onLanes (s : State) (ids : List SId) (f : Stream → Stream) : State :=
  { s with streams := s.streams.map fun st => if st.id ∈ ids then f st else st }
def State.onLane (s : State) (id : SId) (f : Stream → Stream) : State := s.onLanes [id] f

def blankRec : Rec :=
  ⟨0, 0, 0, 1, 1, 1, 1, 1, 1, 240, 0, 0, 16, false, false, false, 0, 0, 0, 0, [], none, 0, none, 0, 0, 0, 0, 0⟩
def blankTeam (tcx : Nat) : Team :=
  ⟨tcx, 0, 0, 0, 0, 0, 0, false, none, 0, 0, blankRec, 0, ([], []), ([], []), [], [], [], [], [], 0xFFFFFFFF, 0, none, 0, false, 0⟩
def State.team? (s : State) (tcx : Nat) : Option Team := s.teams.find? fun t => t.tcx = tcx
def State.team (s : State) (tcx : Nat) : Team := (s.team? tcx).getD (blankTeam tcx)
def State.onTeam (s : State) (tcx : Nat) (f : Team → Team) : State :=
  { s with teams := s.teams.map fun t => if t.tcx = tcx then f t else t }

/-- Lane in group and group of a thread (R55). -/
def Team.group (t : Team) (sid : SId) : Nat := sid.unit / t.recd.groupW
def Team.lane (t : Team) (sid : SId) : Nat := if sid.kind = .lane then sid.unit % t.recd.groupW else 0
def Team.size (t : Team) : Nat := t.recd.teamX * t.recd.teamY * t.recd.teamZ
/-- 0 on the lower core of a pair, 1 on the upper (R58). -/
def Team.half (t : Team) (sid : SId) : Nat :=
  match sid.kind with
  | .lane => if t.recd.paired then t.group sid % 2 else 0
  | .carter => sid.unit / 4
  | .control => 0
/-- The core a stream runs on (R58, R66): a control stream counts as the lower core of the team. -/
def Team.coreOf (t : Team) (sid : SId) : Nat := t.core + t.half sid
/-- The context tag of the core a stream runs on (R413). -/
def Team.tag (t : Team) (sid : SId) : Nat := if t.half sid = 1 then t.ctagUp else t.ctag
def Team.cluster (t : Team) : Nat := t.core / 4
def Team.die (t : Team) : Nat := t.core / 48

def blankFn : FnCfg := ⟨false, false, 0, false, 0, 0, 0, 0, 0⟩
/-- The registers of a function; function 0 is always valid (R433). -/
def State.fn (s : State) (n : Nat) : FnCfg :=
  let c := sget blankFn s.fns n
  if n = 0 then { c with v := true } else c

/-- R401: in handler mode, or under the privileged ASID of the function. -/
def State.privileged (s : State) (st : Stream) : Bool :=
  let t := s.team st.id.tcx
  st.trap.hmode || ((s.fn t.fn).privV && (s.fn t.fn).privAsid == t.recd.asid)
/-- An ASID lies in the range of a function (R75). -/
def State.ownsAsid (s : State) (fn : Nat) (asid : Nat) : Bool :=
  decide ((s.fn fn).first.toNat ≤ asid) && decide (asid ≤ (s.fn fn).last.toNat)
/-- The function that owns an ASID (R75). -/
def State.fnOf (s : State) (asid : BitVec 16) : Nat :=
  ((List.range 65).find? fun f => (s.fn f).v && s.ownsAsid f asid.toNat).getD 0
/-- R401: privilege of the physical function: a privileged stream whose ASID lies in its range, as the range stands (R433). -/
def State.physical (s : State) (st : Stream) : Bool :=
  s.privileged st && s.ownsAsid 0 (s.team st.id.tcx).recd.asid.toNat

/-- GTS in nanoseconds, 64 bits (R12). -/
def State.gts (s : State) : Nat := s.clock.gtsQ / 4 % 2 ^ 64

/-! ### The executing issue group -/

/-- Active() of R112: the lanes of the issue group that pass the guard, in ascending thread index. -/
def State.active (s : State) (g : Guard) : List SId := s.cur.lanes.filter fun id => guardHolds g (s.stream id)
/-- The lowest active thread (R99). -/
def State.lowest (s : State) (g : Guard) : Option Stream := (s.active g).head?.map s.stream
/-- The team of the executing issue group. -/
def State.curTeam (s : State) : Team := s.team ((s.cur.lanes.head?.map SId.tcx).getD 0)

/-- The context tag of the executing issue group. -/
def State.curTag (s : State) : Nat := s.curTeam.tag ((s.cur.lanes.head?).getD ⟨0, .lane, 0⟩)

/-- A stream that waits for nothing at its instruction any more. -/
def Stream.free (st : Stream) : Stream := { st with park := .none, stall := none, short := none, firm := false }
/-- A stream parks at its instruction, and stalls at it no more (R139). -/
def Stream.parkAt (st : Stream) (p : Park) : Stream := { st with park := p, stall := none, short := none }
/-- A stream that has completed its instruction stands at `pc`, neither parked nor stalled. -/
def Stream.goto (st : Stream) (pc : DWord) : Stream := { st.free with pc := pc, room := none, block := [] }

/-- Complete the instruction: `f` in each lane of Active(), and every lane of the issue group at the next PC. -/
def State.retireLanes (s : State) (g : Guard) (f : Stream → Stream) : State :=
  s.onLanes s.cur.lanes fun st => (if guardHolds g st then f st else st).goto s.cur.npc

/-- A thread that does not issue: it stalls, has done so since the first attempt, and has not been ready until now (R118, R121). -/
def Stream.hold (st : Stream) (now : Nat) : Stream :=
  { st with park := .none, stall := if st.stall.isSome then st.stall else some now, since := now, aged := false }
/-- The instruction does not issue: its lanes stall at it. -/
def State.stalled (s : State) : State := s.onLanes s.cur.lanes fun st => st.hold s.clock.cycles

/-- Some lane of the issue group is inside an open window. -/
def State.windowed (s : State) : Bool := s.cur.lanes.any fun id => (s.stream id).window.isSome

/-! ### Ending a team and taking a trap -/

/-- Stop the streams of a team with a cause; TEAM_END does the rest (R405). -/
def State.endTeam (s : State) (tcx : Nat) (cause : Cause) : State :=
  s.onTeam tcx fun t => if t.ended.isNone then { t with ended := some cause, endedAt := s.gts } else t

/-- The checks of R165 on a branch target. -/
def targetTrap (t : DWord) : Option Cause :=
  if t.extractLsb' 57 7 ≠ 0 then some cAddressClass
  else if t.extractLsb' 32 32 = 0x01800000#32 then some cAddressClass
  else if t.extractLsb' 0 3 ≠ 0 then some cAlignment
  else none

/-- TRAP_INFO (R403). -/
def trapInfo (deferred : Bool) (slot ftid : Nat) (code : BitVec 16) : Word :=
  bit deferred ++ BitVec.ofNat 2 slot ++ bit false ++ BitVec.ofNat 12 ftid ++ code

/-- A thread that can take a trap in its own handler (R402). -/
def Stream.canTrap (st : Stream) : Bool := !st.trap.hmode && st.trap.vec != 0 && (targetTrap st.trap.vec).isNone

/-- Trap entry of one thread (R402). -/
def Stream.enterTrap (st : Stream) (cause : Cause) (pc npc addr : DWord) (info : Word) : Stream :=
  { st with
    trap := { st.trap with cause := cause, pc := pc, npc := npc, addr := addr, info := info, hmode := true }
    pc := st.trap.vec, park := .none, stall := none, short := none, firm := false, room := none, block := [], outer := st.path }

/-- Taking a trap (R402): each thread of `ids` enters its handler; one that cannot ends its team with the cause. -/
def State.takeTrap (s : State) (ids : List SId) (cause : Cause) (pc npc addr : DWord) (info : Word) : State :=
  let s1 := s.onLanes ids fun st => if st.canTrap then st.enterTrap cause pc npc addr info else st
  match ids.find? fun id => !(s.stream id).canTrap with
  | some id => s1.endTeam id.tcx cause
  | none => s1

/-- FTID of R403: the TID of a lane thread, zero for Carter and control streams. -/
def ftid (sid : SId) : Nat := if sid.kind = .lane then sid.unit else 0

/-- The lanes outside Active() have passed the instruction (R98). -/
def State.skipLanes (s : State) (g : Guard) : State :=
  s.onLanes s.cur.lanes fun st => if guardHolds g st then st else st.goto s.cur.npc

/-- A precise trap of step 7 of R106, taken by every thread of Active() (R402): `fail` is the lowest failing lane. Inside
an open window the trap waits until the window closes (R124). -/
def State.trap7 (s : State) (g : Guard) (cause : Cause) (fail : SId) (addr : DWord) (code : BitVec 16 := 0) : State :=
  if s.windowed then s.stalled
  else (s.skipLanes g).takeTrap (s.active g) cause s.cur.pc s.cur.npc addr (trapInfo false 0 (ftid fail) code)

/-- A precise trap whose failing lane is the lowest active one. -/
def State.trapLow (s : State) (g : Guard) (cause : Cause) (addr : DWord := 0) (code : BitVec 16 := 0) : State :=
  match (s.active g).head? with
  | some id => s.trap7 g cause id addr code
  | none => s.retireLanes g id

/-- A trap of steps 1 to 6 of R106, taken by every thread of the issue group (R402). -/
def State.trapEarly (s : State) (cause : Cause) (addr : DWord := 0) : State :=
  if s.windowed then s.stalled
  else s.takeTrap s.cur.lanes cause s.cur.pc s.cur.npc addr
    (trapInfo false 0 ((s.cur.lanes.head?.map ftid).getD 0) 0)

/-- Delivery of the error of slot `k` to one thread: the slot empties and the trap is taken at the instruction, with
FTID zero (R132, R402, R403). -/
def State.deliver (s : State) (id : SId) (k : Nat) (e : Err) : State :=
  let s1 := s.onLane id fun st => { st with slots := st.slots.set k none }
  s1.takeTrap [id] e.cause s.cur.pc s.cur.npc 0 (trapInfo true k 0 e.code)

/-- The return from handler mode of one thread to `target`, which R165 checks (R422); branches of the handler make no path
outside it (log entry 105). -/
def Stream.leaveTrap (st : Stream) (target : DWord) : Stream :=
  { st with trap := { st.trap with hmode := false }, path := st.outer }.goto target

/-- Record a deferred error in slot `k` of a stream (R132). -/
def State.recordErr (s : State) (id : SId) (k : Nat) (e : Err) : State :=
  s.onLane id fun st => { st with slots := st.slots.record k e }

/-- One counter of a stream falls (R130). -/
def State.decCounter (s : State) (id : SId) (k : Nat) : State :=
  s.onLane id fun st => { st with cnt := st.cnt.dec k }

/-- A marker that is no access of its own: a fence, or a read that has seen a store before it was performed. -/
def MemOp.isFence (o : MemOp) : Bool :=
  match o.kind with
  | .fence _ => true
  | .seen _ => true
  | _ => false

end Sys2Proof.Machine
end

