-- ==== Sys2Proof/Machine/Queue.lean ====
section
/-! DEFINITION. Sys2Proof/Machine/Queue.lean: hardware queues and ports as registers (R259 to R265). -/
namespace Sys2Proof.Machine

def emptyQueue : Queue := ⟨[], 0⟩
/-- The queue of a key 32 × core + number. -/
def State.queue (s : State) (key : Nat) : Queue := sget emptyQueue s.qu.qs key
/-- Replace a queue; every change is seen by the threads parked on it (R264). -/
def State.setQueue (s : State) (key : Nat) (es : List QEntry) : State :=
  { s with qu := { s.qu with qs := sset emptyQueue s.qu.qs key ⟨es, (s.queue key).ver + 1⟩ } }

/-- READY entries that follow one another from the head (R259). -/
def readyRun : List QEntry → Nat
  | [] => 0
  | e :: r => if e.state = .ready then readyRun r + 1 else 0
def Queue.ready (q : Queue) : Nat := readyRun q.entries
/-- FREE entries of 16 (R259). -/
def Queue.free (q : Queue) : Nat := 16 - q.entries.length

/-- The queue key a port names for a stream, by the binding of its core (R262). -/
def State.portKey (s : State) (sid : SId) (r : Reg) : Option Nat :=
  let t := s.team sid.tcx
  let up := t.half sid == 1
  let b := if up then t.binds.2 else t.binds.1
  let qs := if up then t.queues.2 else t.queues.1
  match b.find? fun e => e.1 = r.toNat - 240 with
  | none => none
  | some (_, k) => (qs[k]?).map fun h => 32 * (t.core + t.half sid) + h

/-- Bit mask of a list of lane indices. -/
def maskOf (ls : List Nat) : DWord := ls.foldl (fun m l => m ||| (1#64 <<< l)) 0

/-! ### Changes of a queue, and the Carter transfers that wait for them (R259, R277, R278) -/

/-- Reserve the tail entry, its data still to arrive; the entry's serial number (R276). -/
def State.reserveEntry (s : State) (key : Nat) (mask : DWord) (missing : Nat) : Nat × State :=
  let e : QEntry := ⟨s.qu.serial, [], mask, if missing = 0 then .ready else .reserved, missing⟩
  let s1 := s.setQueue key ((s.queue key).entries ++ [e])
  (s.qu.serial, { s1 with qu := { s1.qu with serial := s.qu.serial + 1 } })

def Xfer.key (x : Xfer) : Nat := 32 * x.core + x.hwq
/-- Entries of a transfer. -/
def Xfer.total (x : Xfer) : Nat := (x.elems.length + x.w - 1) / x.w
/-- A transfer with entries still to reserve or to pop. -/
def Xfer.unserved (x : Xfer) : Bool := decide (x.entries.length < x.total)
def State.onXfer (s : State) (num : Nat) (f : Xfer → Xfer) : State :=
  { s with qu := { s.qu with xfers := s.qu.xfers.map fun x => if x.num = num then f x else x } }

/-- An `mmul` between its first pop and its last holds the head of its queue, an `mdrain` between its first push and its
last the tail (R289). -/
def TileOp.holds (o : TileOp) (key : Nat) (head : Bool) : Bool :=
  o.queue == some key && decide (0 < o.moved) && (match o.kind with | .mul _ => head | .drain _ => !head | _ => false)
def State.held (s : State) (key : Nat) (head : Bool) : Bool := s.mx.ops.any fun o => o.holds key head

/-- FREE entries that a new reservation or push may use: none while a gather still reserves its own (R277), or a drain
pushes (R289). -/
def State.freeOf (s : State) (key : Nat) : Nat :=
  if s.held key false || s.qu.xfers.any fun x => x.key == key && !x.store && x.unserved then 0 else (s.queue key).free

/-- Elements of the n-th entry of a transfer, by index in the transfer. -/
def Xfer.elemsOf (x : Xfer) (n : Nat) : List Nat :=
  (List.range x.w).filterMap fun i => if n * x.w + i < x.elems.length then some (n * x.w + i) else none

/-- A load transfer reserves its next entry; elements already read, and those without an address, are in it (R276). -/
def State.reserveNext (s : State) (x : Xfer) : State :=
  let n := x.entries.length
  let es := x.elemsOf n
  let have_ := es.filterMap fun i =>
    match x.got.find? fun g => g.1 = i with
    | some (_, v) => some (i, v)
    | none => if (x.elems.getD i none).isNone then some (i, 0xFFFFFFFF) else none
  let (serial, s1) := s.reserveEntry x.key (maskOf (es.map (· % x.w))) (es.length - have_.length)
  let s2 := s1.setQueue x.key ((s1.queue x.key).entries.map fun e =>
    if e.serial = serial then { e with elems := have_.foldl (fun m p => sset 0 m (p.1 % x.w) p.2) e.elems } else e)
  s2.onXfer x.num fun x => { x with entries := x.entries ++ [serial] }

/-- A store operation of one element of a transfer; it waits for nothing of its own stream but what came before the
transfer (R348). -/
def elemOp (x : Xfer) (num : Nat) (kind : OpKind) (va : DWord) (loc : Loc) (v : Word) (ctag : Nat) : MemOp :=
  { num := num, kind := kind, lanes := [⟨x.sid, v.setWidth 64, 0⟩], d := 0, entry := none, va := va, loc := loc,
    size := x.size, ord := .rlx, scp := false, agent := .thr, mask := 0, hint := .none, core := x.core, ctag := ctag,
    counter := if x.store then 1 else 0, phase := .issued, inst := 0, kill := none }

/-- Store operations of the elements of a popped entry whose mask bit is set (R276, R278). -/
def State.storeElems (s : State) (x : Xfer) (n : Nat) (e : QEntry) : State :=
  (x.elemsOf n).foldl (fun s i =>
    match x.elems.getD i none with
    | none => s
    | some (va, loc) =>
      if e.mask.getLsbD (i % x.w) then
        let o := elemOp x s.nextOp (.elemStore x.num) va loc (sget 0 e.elems (i % x.w)) ((s.team x.sid.tcx).tag x.sid)
        -- a request to the CXL expander is timed from its sending, and times out at once while the link is down (R435)
        let ph : OpPhase := if !loc.cxl then .issued else if s.links.cxlUp then .sent s.gts 1 none else .failed cLinkLost 0
        { s.onXfer x.num (fun x => { x with pending := x.pending + 1 }) with
          ops := s.ops ++ [{ o with phase := ph }], nextOp := s.nextOp + 1 }
      else s) s

/-- A transfer with nothing left to do is done: its counter falls (R130). -/
def State.endXfers (s : State) : State :=
  let done := s.qu.xfers.filter fun x => !x.unserved && x.pending == 0
  let s1 := done.foldl (fun s x => s.decCounter x.sid (if x.store then 1 else 0)) s
  { s1 with qu := { s1.qu with xfers := s1.qu.xfers.filter fun x => x.unserved || x.pending != 0 } }

/-- The oldest store or scatter that waits for a queue pops its head, where that is READY (R278). -/
def State.serveStore (s : State) (key : Nat) : Option State :=
  match s.qu.xfers.find? (fun x => x.key == key && x.store && x.unserved), (s.queue key).entries with
  | some x, e :: r =>
    if e.state = .ready && !s.held key true then
      some (((s.setQueue key r).onXfer x.num fun x => { x with entries := x.entries ++ [e.serial] }).storeElems x x.entries.length e)
    else none
  | _, _ => none
/-- The oldest load or gather that waits for a queue reserves its next entry, where one is FREE (R276, R277). -/
def State.serveLoad (s : State) (key : Nat) : Option State :=
  match s.qu.xfers.find? fun x => x.key == key && !x.store && x.unserved with
  | some x => if 0 < (s.queue key).free && !s.held key false then some (s.reserveNext x) else none
  | none => none
/-- What waits for a queue goes on, one entry at a time; neither end of the queue waits for the other. -/
def State.serveQueue (s : State) (key : Nat) : Nat → State
  | 0 => s
  | n + 1 =>
    match (s.serveStore key).or (s.serveLoad key) with
    | some s1 => s1.serveQueue key n
    | none => s
/-- After a change of a queue. -/
def State.changed (s : State) (key : Nat) : State := (s.serveQueue key 64).endXfers

/-- Pop the head entry if it is READY (R263). -/
def State.popQueue (s : State) (key : Nat) : Option (QEntry × State) :=
  match (s.queue key).entries with
  | [] => none
  | e :: r => if e.state = .ready && !s.held key true then some (e, (s.setQueue key r).changed key) else none

/-- Push a complete entry (R263). -/
def State.pushEntry (s : State) (key : Nat) (elems : List (Nat × Word)) (mask : DWord) : State :=
  let e : QEntry := ⟨s.qu.serial, elems.foldl (fun m p => sset 0 m p.1 p.2) [], mask, .ready, 0⟩
  let s1 := s.setQueue key ((s.queue key).entries ++ [e])
  { s1 with qu := { s1.qu with serial := s.qu.serial + 1 } }.changed key

/-- Data of one element arrives: the entry is READY when the last has (R259). -/
def State.fillElem (s : State) (key serial elem : Nat) (v : Word) : State :=
  (s.setQueue key ((s.queue key).entries.map fun e =>
    if e.serial = serial then
      { e with elems := sset 0 e.elems elem v, missing := e.missing - 1,
               state := if e.missing ≤ 1 then .ready else e.state }
    else e)).changed key

/-- An entry by serial number. -/
def State.entryOf (s : State) (key serial : Nat) : Option QEntry :=
  (s.queue key).entries.find? fun e => e.serial = serial

/-- The groups of the issue group that have a lane among `ids`, in ascending GIDX; a Carter or control stream is one
group (R263). -/
def State.groupsOf (s : State) (ids : List SId) : List Nat :=
  let t := s.curTeam
  ids.foldl (fun gs id => nins gs (if id.kind = .lane then t.group id else 0)) []

/-- Pops of one port for each group, in ascending GIDX; none where the ready count does not cover them. -/
def State.popGroups (s : State) (key : Nat) : List Nat → Option (List (Nat × QEntry) × State)
  | [] => some ([], s)
  | g :: gs =>
    match s.popQueue key with
    | none => none
    | some (e, s1) =>
      match s1.popGroups key gs with
      | none => none
      | some (r, s2) => some ((g, e) :: r, s2)

/-- The element of a popped entry that a lane receives (R263). -/
def popped (t : Team) (ps : List (Nat × QEntry)) (id : SId) : Word :=
  let g := if id.kind = .lane then t.group id else 0
  match ps.find? fun p => p.1 = g with
  | some (_, e) => sget 0 e.elems (t.lane id)
  | none => 0

/-- Pushes of one port: for each group in ascending GIDX one entry of the lanes' values (R263). -/
def State.pushGroups (s : State) (key : Nat) (t : Team) (vals : List (SId × Word)) (gs : List Nat) : State :=
  gs.foldl (fun s g =>
    let mine := vals.filter fun p => p.1.kind ≠ .lane || t.group p.1 = g
    s.pushEntry key (mine.map fun p => (t.lane p.1, p.2)) (maskOf (mine.map fun p => t.lane p.1))) s

end Sys2Proof.Machine
end

