-- ==== Sys2Proof/Machine/Operands.lean ====
section
/-! DEFINITION. Sys2Proof/Machine/Operands.lean: operand forms (R97, R140, R263) and the frame that every register
instruction follows: reads and pops, kills, the result and the push, the next PC. -/
namespace Sys2Proof.Machine

/-- A source operand: a 32-bit register, a pair, or a constant. -/
inductive Src where
  | r32 (r : Reg) (kill : Bool)
  | r64 (r : Reg) (kill : Bool)
  | val (v : DWord)
deriving DecidableEq, Repr

/-- A destination operand. -/
inductive Dst where
  | none
  | r32 (r : Reg)
  | r64 (r : Reg)
deriving DecidableEq, Repr

/-- The immediate of a 32-bit operand: sign_extend({S2, MOD}, 32) (R97). -/
def imm32 (v : BitVec 26) : DWord := (v.signExtend 32).setWidth 64
/-- Operand 2 of a binary mould. -/
def srcB : Opnd → Src
  | .reg r k => .r32 r k
  | .imm v => .val (imm32 v)
/-- Operand 2 of a wide mould: a pair, or sign_extend({S2, MOD}, 64) (R140). -/
def srcB64 : Opnd → Src
  | .reg r k => .r64 r k
  | .imm v => .val (v.signExtend 64)

/-- The value of a source in one lane, for a source that names no queue port. -/
def Src.read (st : Stream) : Src → DWord
  | .r32 r _ => (st.rd r).setWidth 64
  | .r64 r _ => st.rd64 r
  | .val v => v
/-- The kill of a source (R100). -/
def Src.killIn (st : Stream) : Src → Stream
  | .r32 r k => st.kill r k
  | .r64 r k => st.kill64 r k
  | .val _ => st
/-- The queue port a source names. -/
def Src.port : Src → Option Reg
  | .r32 r _ => if Reg.isPort r then Option.some r else Option.none
  | _ => Option.none
def Dst.port : Dst → Option Reg
  | .r32 r => if Reg.isPort r then Option.some r else Option.none
  | _ => Option.none
/-- The write of a result. -/
def Dst.write (st : Stream) (v : DWord) : Dst → Stream
  | .none => st
  | .r32 r => st.wr r (v.setWidth 32)
  | .r64 r => st.wr64 r v

/-- A lane of an instruction whose operands name no port: reads, then kills, then the write. -/
def laneOp (d : Dst) (a b c : Src) (f : Stream → DWord → DWord → DWord → DWord) (st : Stream) : Stream :=
  d.write (c.killIn (b.killIn (a.killIn st))) (f st (a.read st) (b.read st) (c.read st))

/-- Pops of the source ports in the order S1, S2, S3 (R141): the popped entries of each, in that order. -/
def State.popSrcs (s : State) (ids : List SId) (gs : List Nat) :
    List Reg → Option (List (List (Nat × QEntry)) × State)
  | [] => some ([], s)
  | r :: rs =>
    match (ids.head?).bind fun id => s.portKey id r with
    | none => none
    | some key =>
      match s.popGroups key gs with
      | none => none
      | some (ps, s1) =>
        match s1.popSrcs ids gs rs with
        | none => none
        | some (pss, s2) => some (ps :: pss, s2)

/-- The value of a source in one lane: the next popped list where it names a port. -/
def Src.readP (t : Team) (st : Stream) (src : Src) (pss : List (List (Nat × QEntry))) :
    DWord × List (List (Nat × QEntry)) :=
  match src.port with
  | some _ => ((popped t (pss.headD []) st.id).setWidth 64, pss.tail)
  | none => (src.read st, pss)

/-- The instruction with queue ports among its operands (R263 to R265): an unbound port traps with ILLEGAL_OPERAND
before any operand is popped or pushed; a queue without the entries or the room stalls the instruction. -/
def State.portOp (s : State) (g : Guard) (d : Dst) (a b c : Src)
    (f : Stream → DWord → DWord → DWord → DWord) : State :=
  let ids := s.active g
  match ids.head? with
  | none => s.retireLanes g id
  | some low =>
    let ports := [a, b, c].filterMap Src.port
    let all := ports ++ d.port.toList
    if all.any fun r => (s.portKey low r).isNone then s.trapLow g cIllegalOperand
    else
      let gs := s.groupsOf ids
      let t := s.curTeam
      match s.popSrcs ids gs ports with
      | none => s.stalled
      | some (pss, s1) =>
        let val := fun (st : Stream) =>
          let (x, p1) := a.readP t st pss
          let (y, p2) := b.readP t st p1
          let (z, _) := c.readP t st p2
          f st x y z
        match d.port with
        | none =>
          s1.retireLanes g fun st => d.write (c.killIn (b.killIn (a.killIn st))) (val st)
        | some r =>
          match s1.portKey low r with
          | none => s.stalled
          | some key =>
            if s1.freeOf key < gs.length then s.stalled
            else
              let s2 := s1.pushGroups key t (ids.map fun id => (id, (val (s.stream id)).setWidth 32)) gs
              s2.retireLanes g fun st => c.killIn (b.killIn (a.killIn st))

/-- The frame of R140: per lane of Active(), the sources are read, killed where marked, and the result written; all
reads of the instruction precede all its writes (R10). -/
def State.alu (s : State) (g : Guard) (d : Dst) (a b c : Src)
    (f : Stream → DWord → DWord → DWord → DWord) : State :=
  if a.port.isNone && b.port.isNone && c.port.isNone && d.port.isNone then s.retireLanes g (laneOp d a b c f)
  else s.portOp g d a b c f

/-- A constant source where an instruction has none. -/
def noSrc : Src := .val 0

/-! ### The moulds of R140 -/

def State.unary (s : State) (o : Alu1) (f : Word → Word) : State :=
  s.alu o.g (.r32 o.d) (.r32 o.s1 o.k1) noSrc noSrc fun _ a _ _ => (f (a.setWidth 32)).setWidth 64
def State.binary (s : State) (o : Alu2) (f : Word → Word → Word) : State :=
  s.alu o.g (.r32 o.d) (.r32 o.s1 o.k1) (srcB o.b) noSrc fun _ a b _ => (f (a.setWidth 32) (b.setWidth 32)).setWidth 64
def State.binaryR (s : State) (o : AluR) (f : Word → Word → Word) : State :=
  s.alu o.g (.r32 o.d) (.r32 o.s1 o.k1) (.r32 o.s2 o.k2) noSrc
    fun _ a b _ => (f (a.setWidth 32) (b.setWidth 32)).setWidth 64
def State.ternary (s : State) (o : Alu3) (f : Word → Word → Word → Word) : State :=
  s.alu o.g (.r32 o.d) (.r32 o.s1 o.k1) (.r32 o.s2 o.k2) (.r32 o.s3 false)
    fun _ a b c => (f (a.setWidth 32) (b.setWidth 32) (c.setWidth 32)).setWidth 64
def State.wide (s : State) (o : Alu2) (f : DWord → DWord → DWord) : State :=
  s.alu o.g (.r64 o.d) (.r64 o.s1 o.k1) (srcB64 o.b) noSrc fun _ a b _ => f a b
/-- The wide mould with a 32-bit count (R145). -/
def State.wideCount (s : State) (o : Alu2) (f : DWord → Word → DWord) : State :=
  s.alu o.g (.r64 o.d) (.r64 o.s1 o.k1) (srcB o.b) noSrc fun _ a b _ => f a (b.setWidth 32)

end Sys2Proof.Machine
end

