-- ==== Sys2Proof/Machine/Memory.lean ====
section
/-! DEFINITION. Sys2Proof/Machine/Memory.lean: bytes of memory by key, virtual cache lines, shares, and the current value
of a location (R4, R71, R74, R223 to R236). -/
namespace Sys2Proof.Machine

/-! ### Bytes (log entry 1) -/

/-- What an unlisted byte reads as (log entry 1). -/
def freshByte : Byte := 0
/-- The first key of pod memory, of host and CXL memory, and of the vault; local HBM4 lies at 0 (R71, R74). -/
def podKey : Nat := 2 ^ 52
def hostKey : Nat := 2 ^ 53
def vaultKey : Nat := 2 ^ 54

/-- One byte of memory at its home. -/
def memRead (m : List Host.Cell) (k : Nat) : Byte := sget freshByte m k
/-- Memory with one byte written. -/
def memWrite (m : List Host.Cell) (k : Nat) (v : Byte) : List Host.Cell := sset freshByte m k v
/-- The canonical form of memory. -/
def Memory.wf (m : List Host.Cell) : Bool := swf freshByte 0 m

def memReadN (m : List Host.Cell) (k : Nat) : Nat → List Byte
  | 0 => []
  | n + 1 => memRead m k :: memReadN m (k + 1) n
def memWriteN (m : List Host.Cell) (k : Nat) : List Byte → List Host.Cell
  | [] => m
  | b :: r => memWriteN (memWrite m k b) (k + 1) r

/-- The number of bytes held little-endian (R4). -/
def natOfBytes : List Byte → Nat
  | [] => 0
  | b :: r => b.toNat + 256 * natOfBytes r

def State.readHome (s : State) (k n : Nat) : List Byte := memReadN s.mem k n
def State.writeHome (s : State) (k : Nat) (bs : List Byte) : State := { s with mem := memWriteN s.mem k bs }
/-- A physical read or write of 2^n bytes at a home slice (R79, R84). -/
def State.phys (s : State) (pa n : Nat) : Nat := natOfBytes (s.readHome pa n)
def State.physWrite (s : State) (pa n v : Nat) : State := s.writeHome pa (bytesOfNat n v)

/-! ### Shares (R223, R224) -/

/-- What the boot firmware leaves in a share (R224, R229): local shares 0 to 127 of every cluster belong to VCID 1. -/
def bootShare (n : Nat) : Share := if n % 512 < 128 then ⟨.member, 0, 1, 0⟩ else ⟨.free, 0, 0, 0⟩
def State.share (s : State) (n : Nat) : Share := (sget none s.vt.shares n).getD (bootShare n)
def State.setShare (s : State) (n : Nat) (x : Share) : State :=
  { s with vt := { s.vt with shares := sset none s.vt.shares n (if x = bootShare n then none else some x) } }

/-- Bytes of a range whose keys lie in [k, k + n) removed: the range reads as zeros (R225). -/
def zeroRange (m : List Host.Cell) (k n : Nat) : List Host.Cell := m.filter fun c => c.1 < k || k + n ≤ c.1
/-- Set the vault bytes from address a to zero and their words full (R225, R228). -/
def State.zeroVault (s : State) (a n : Nat) : State :=
  { s with mem := zeroRange s.mem (vaultKey + a) n
           vt := { s.vt with empty := s.vt.empty.filter fun w => w < a || a + n ≤ w } }
/-- First vault address of a device share (R71, R223). -/
def shareAddr (n : Nat) : Nat := (n / 512) * 2 ^ 25 + (n % 512) * 2 ^ 16
/-- R225: a share's bytes zero and full. -/
def State.zeroShare (s : State) (n : Nat) : State := s.zeroVault (shareAddr n) 65536
/-- The device share of a vault address (R223). -/
def shareOf (a : Nat) : Nat := (a / 2 ^ 25) * 512 + a / 2 ^ 16 % 512

/-- R72: every byte of [a, a + n) lies in a VAULT share of the ASID; failing, the lowest byte that does not. -/
def State.vaultBad (s : State) (asid : BitVec 16) (a n : Nat) : Option Nat :=
  -- shares are 64 KiB: the first byte of the range, then the first byte of each further share
  let starts := a :: (List.range ((a + n - 1) / 65536 - a / 65536)).map fun i => (a / 65536 + i + 1) * 65536
  starts.find? fun x =>
    !(decide (x / 2 ^ 25 < 48) && (s.share (shareOf x)).role == .vault && (s.share (shareOf x)).owner == asid)

/-! ### Virtual caches -/

def State.cache? (s : State) (v : Nat) : Option VCache := s.vt.caches.find? fun c => c.vcid = v
def State.onCache (s : State) (v : Nat) (f : VCache → VCache) : State :=
  { s with vt := { s.vt with caches := s.vt.caches.map fun c => if c.vcid = v then f c else c } }
/-- Device shares of a cache's map. -/
def VCache.shares (c : VCache) : List Nat := c.map.flatMap fun e => e.2.map fun n => e.1 * 512 + n
/-- R233: a lookup in the cache traps where it is undefined, being removed, or has only FAILED shares. -/
def State.vcUsable (s : State) (v : Nat) : Bool :=
  v == 0 || (match s.cache? v with
    | none => false
    | some c => c.state != .removing && c.shares.any fun n => (s.share n).role != .failed)

/-- The serving replica of R231 for a cluster. -/
def VCache.replica (c : VCache) (cluster : Nat) : Nat :=
  let named := c.map.map (·.1)
  if cluster ∈ named then cluster
  else match named.find? fun x => x / 12 = cluster / 12 with
    | some x => x
    | none => named.headD 0
/-- The replica a line of the cache carries for an access from a cluster: none in an interleaved cache. -/
def VCache.repOf (c : VCache) (cluster : Nat) : Option Nat := if c.repl then some (c.replica cluster) else none

/-- A line holds the byte of a key. -/
def Line.covers (l : Line) (k : Nat) : Bool := decide (l.base ≤ k) && decide (k < l.base + l.data.length)
def Line.byte (l : Line) (k : Nat) : Byte := l.data.getD (k - l.base) 0
/-- The line with bytes written from a key on. -/
def Line.put (l : Line) (k : Nat) (bs : List Byte) : Line :=
  { l with data := l.data.mapIdx fun i b =>
      if k ≤ l.base + i ∧ l.base + i < k + bs.length then bs.getD (l.base + i - k) 0 else b }

/-- The poisoned granules of a list that [k, k + n) touches (R240). -/
def granulesIn (gs : List Nat) (k n : Nat) : List Nat := gs.filter fun g => decide (g < k + n) && decide (k < g + 32)
/-- The granules of a list that [k, k + n) does not cover whole (R240: a write of the whole granule clears the mark). -/
def granulesLeft (gs : List Nat) (k n : Nat) : List Nat := gs.filter fun g => !(decide (k ≤ g) && decide (g + 32 ≤ k + n))

/-- The line of a cache and replica that holds a key. -/
def State.line? (s : State) (v : Nat) (rep : Option Nat) (k : Nat) : Option Line :=
  s.vt.lines.find? fun l => l.vcid = v && l.rep = rep && l.covers k
def State.onLines (s : State) (p : Line → Bool) (f : Line → Line) : State :=
  { s with vt := { s.vt with lines := s.vt.lines.map fun l => if p l then f l else l } }
def State.dropLines (s : State) (p : Line → Bool) : State :=
  { s with vt := { s.vt with lines := s.vt.lines.filter fun l => !p l } }
/-- The priority a line falls to when it is written back: FILL_PRIO (R236). -/
def State.fillPrio (s : State) (v : Nat) : Prio := ((s.cache? v).map (·.fill)).getD .normal
def Prio.rank : Prio → Nat
  | .first => 0 | .normal => 1 | .last => 2
def prioMax (a b : Prio) : Prio := if Prio.rank a < Prio.rank b then b else a
def prioMin (a b : Prio) : Prio := if Prio.rank b < Prio.rank a then b else a

/-- The poison marks after dirty lines are written back: each granule written is clean, but for those that the line holds
poisoned (R240). -/
def poisonAfter (lines : List Line) (p : Line → Bool) (marks : List Nat) : List Nat :=
  lines.foldl (fun ms l => if p l && l.dirty then l.bad.foldl nins (granulesLeft ms l.base l.data.length) else ms) marks
/-- ERROR of the migrations whose caches write back a poisoned line (R239). -/
def errorAfter (lines : List Line) (p : Line → Bool) (cs : List VCache) : List VCache :=
  cs.map fun c => match c.state with
    | .migrating a k e =>
      { c with state := .migrating a k (e || lines.any fun l => p l && l.dirty && l.vcid == c.vcid && !l.bad.isEmpty) }
    | _ => c

/-- A device-to-host write, message or update that is discarded is counted (R431, R434). -/
def State.discard (s : State) : State :=
  { s with links := { s.links with discarded := min (s.links.discarded + 1) (2 ^ 32 - 1) } }
/-- Insertion in the order of R12: by the source's number among records of one time. -/
def insertEvent (e : EvRec) : List EvRec → List EvRec
  | [] => [e]
  | x :: r => if x.gts = e.gts ∧ e.source.toNat < x.source.toNat then e :: x :: r else x :: insertEvent e r
/-- A record waits for the others of its nanosecond (R12, R442; log entry 110). -/
def State.noteEvent (s : State) (e : EvRec) : State := { s with hif := { s.hif with fresh := insertEvent e s.hif.fresh } }
def State.record (s : State) (event : Nat) (source : Nat) (detail : DWord) : State :=
  s.noteEvent ⟨s.gts, BitVec.ofNat 8 event, BitVec.ofNat 16 source, detail⟩
/-- A CXL request times out, or meets a link that is down: it is counted and recorded, by the CXL port (R435, R441, R442). -/
def State.cxlTimedOut (s : State) : State :=
  { s with hif := { s.hif with cxlTimeouts := min (s.hif.cxlTimeouts + 1) 65535 } }.record 6 0x501 0
/-- The first key of the CXL expander (R74). -/
def cxlKey : Nat := hostKey + 2 ^ 51
/-- The bytes of a key lie behind the link of the host, or of the expander, and it is down. -/
def State.keyDown (s : State) (k : Nat) : Bool :=
  decide (hostKey ≤ k) && decide (k < vaultKey) && (if cxlKey ≤ k then !s.links.cxlUp else !s.links.hostUp)
/-- A write that the device sends to the home of its bytes: over a link that is down it is discarded and counted (R434), or has
timed out (R435). -/
def State.putHome (s : State) (k : Nat) (bs : List Byte) : State :=
  if s.keyDown k then (if cxlKey ≤ k then s.cxlTimedOut else s.discard) else s.writeHome k bs

/-- Write a dirty line back to its home slice: it stays, clean, its priority no higher than FILL_PRIO (R232, R236, R253). -/
def State.writeBack (s : State) (p : Line → Bool) : State :=
  let s1 := (s.vt.lines.filter fun l => p l && l.dirty).foldl (fun s l => s.putHome l.base l.data) s
  let s2 := s1.onLines (fun l => p l && l.dirty) fun l =>
      { l with dirty := false, ctag := none, prio := prioMin l.prio (s.fillPrio l.vcid) }
  { s2 with vt := { s2.vt with
      poison := poisonAfter s.vt.lines (fun l => p l && !s.keyDown l.base) s.vt.poison
      caches := errorAfter s.vt.lines p s.vt.caches } }
/-- The priority a replacement request asks for (R236, R244). -/
def hintPrio : Hint → Option Prio
  | .none => none | .ef => some .first | .el => some .last
/-- A later access raises a line's priority (R236). -/
def raisePrio (p : Prio) (req : Option Prio) : Prio := match req with | none => p | some q => prioMax p q

/-- Shares of the cache that take new lines: MEMBER shares of the serving replica's cluster (R231, R239). -/
def State.fillShares (s : State) (c : VCache) (rep : Option Nat) : List Nat :=
  (c.map.filter fun e => match rep with | none => true | some r => e.1 = r).flatMap fun e =>
    (e.2.map fun n => e.1 * 512 + n).filter fun n => (s.share n).role == .member

/-- Sets of one share: its 64 KiB hold that many sets of the cache's ways (R231). -/
def VCache.setsPerShare (c : VCache) : Nat := 65536 / (c.line * c.assoc)
/-- The set of a line's base among the sets of `n` shares, so that the cache never holds more than its capacity (R231). -/
def VCache.setOf (c : VCache) (base n : Nat) : Nat := Config.lineSet c.vcid base % (n * c.setsPerShare)
/-- The share of a set: each share holds the next sets. -/
def VCache.shareAt (c : VCache) (shs : List Nat) (set : Nat) : Nat := shs.getD (set / c.setsPerShare) 0

/-- A share that the lines of a migration or a failure leave (R239, R240). -/
def Role.leaves (r : Role) : Bool := r == .leaving || r == .failed

/-- Lines of a set in the present placement of a cache: those in LEAVING shares do not count (R239). -/
def State.inSet (s : State) (c : VCache) (rep : Option Nat) (set : Nat) (l : Line) : Bool :=
  l.vcid == c.vcid && l.rep == rep && l.set == set && !(s.share l.share).role.leaves

/-- Room for a new line in its set: where every way is taken, a line of the lowest priority present is evicted, written
back if dirty (R236); which of several is a free choice (log entry 12). -/
def State.makeRoom (s : State) (c : VCache) (rep : Option Nat) (set : Nat) : State :=
  let ls := s.vt.lines.filter (s.inSet c rep set)
  if ls.length < c.assoc then s
  else
    let low := ls.foldl (fun m l => min m (Prio.rank l.prio)) 2
    let cands := ls.filter fun l => Prio.rank l.prio == low
    match cands[Config.pick s.free % cands.length]? with
    | none => s
    | some v =>
      let p := fun (l : Line) => s.inSet c rep set l && l.base == v.base
      { (s.writeBack p).dropLines p with free := s.free + 1 }
/-- The lowest free way of a set. -/
def State.freeWay (s : State) (c : VCache) (rep : Option Nat) (set : Nat) : Nat :=
  ((List.range 16).find? fun w => s.vt.lines.all fun l => !s.inSet c rep set l || l.way != w).getD 0

/-- A store through a replica that is on its way to the home slice (R351). -/
def MemOp.isLeft (o : MemOp) : Bool :=
  o.phase == .left && (match o.kind with | .store => true | .elemStore _ => true | _ => false)
/-- Bytes from a key on with those of a store laid over them. -/
def overlay (k : Nat) (bs : List Byte) (k' : Nat) (new : List Byte) : List Byte :=
  bs.mapIdx fun i b => if k' ≤ k + i ∧ k + i < k' + new.length then new.getD (k + i - k') 0 else b
/-- Bytes of memory as a replica reads them: with the stores of its own cluster that are on their way to the home slice
(R343, R351). -/
def State.arrived (s : State) (c : VCache) (rep : Option Nat) (k : Nat) (bs : List Byte) : List Byte :=
  match rep with
  | none => bs
  | some r => s.ops.foldl (fun bs o =>
      if o.isLeft && o.loc.vcid == c.vcid && c.replica (o.core / 4) == r && decide (o.loc.key < k + bs.length) &&
          decide (k < o.loc.key + o.size)
      then overlay k bs o.loc.key (bytesOfNat o.size ((o.lanes.head?.map OpLane.b).getD 0).toNat) else bs) bs

/-- Fill the line of a key into a cache (R231, R232, R236): in a free way of its set, from its home. A cache without a
share that takes new lines fills none. -/
def State.fillLine (s : State) (c : VCache) (rep : Option Nat) (k : Nat) (req : Option Prio) : State :=
  let base := k / c.line * c.line
  let shs := s.fillShares c rep
  let set := c.setOf base shs.length
  if shs.isEmpty then s
  else
    let s1 := s.makeRoom c rep set
    let l : Line := ⟨c.vcid, rep, base, s1.arrived c rep base (s1.readHome base c.line), false, raisePrio c.fill req, none,
      c.shareAt shs set, set, s1.freeWay c rep set, granulesIn s1.vt.poison base c.line⟩
    { s1 with vt := { s1.vt with lines := s1.vt.lines ++ [l] } }

/-- A hit in a LEAVING share moves the line to the present placement, with its data, dirty state and priority (R239). -/
def State.moveLine (s : State) (c : VCache) (rep : Option Nat) (k : Nat) : State :=
  match s.line? c.vcid rep k with
  | none => s
  | some l =>
    let shs := s.fillShares c rep
    if !(s.share l.share).role.leaves || shs.isEmpty then s
    else
      let set := c.setOf l.base shs.length
      let s1 := s.makeRoom c rep set
      let w := s1.freeWay c rep set
      s1.onLines (fun x => x.vcid == c.vcid && x.rep == rep && x.base == l.base) fun x =>
        { x with share := c.shareAt shs set, set := set, way := w }

/-- The place of a line among those of its replica that have taken theirs: none where its set is full. -/
def State.placeAmong (s : State) (c : VCache) (ls : List Line) (l : Line) : Option Line :=
  let shs := s.fillShares c l.rep
  let set := c.setOf l.base shs.length
  let way := (ls.filter fun x => x.rep == l.rep && x.set == set).length
  if shs.isEmpty || c.assoc ≤ way then none else some { l with share := c.shareAt shs set, set := set, way := way }
/-- Where the shares that take new lines change, the lines that stay take their places among them, so that the cache holds no more
than its share count × 64 KiB: where a set is full, lines of lower priority leave the cache, written back if dirty (R231, R236,
R239, R240). -/
def State.rehome (s : State) (v : Nat) : State :=
  match s.cache? v with
  | none => s
  | some c =>
    let stays := fun (l : Line) => l.vcid == v && !(s.share l.share).role.leaves
    let byPrio := [Prio.last, .normal, .first].flatMap fun p => s.vt.lines.filter fun l => stays l && l.prio == p
    let kept := byPrio.foldl (fun ls l => ls ++ (s.placeAmong c ls l).toList) []
    let out := fun (l : Line) => stays l && !(kept.any fun x => x.rep == l.rep && x.base == l.base)
    let s1 := (s.writeBack out).dropLines out
    { s1 with vt := { s1.vt with lines := (s1.vt.lines.filter fun l => !stays l) ++ kept } }

/-- The current value of a location for an access from a cluster: its line where one is resident, else its home. -/
def State.peek (s : State) (loc : Loc) (cluster n : Nat) : List Byte :=
  match s.cache? loc.vcid with
  | none => s.readHome loc.key n
  | some c => match s.line? loc.vcid (c.repOf cluster) loc.key with
    | some l => (List.range n).map fun i => l.byte (loc.key + i)
    | none => s.arrived c (c.repOf cluster) loc.key (s.readHome loc.key n)

/-- Counts of virtual-cache hits and misses (R424), for the core context with a tag. -/
def blankPm : PmCounts := ⟨0, none, 0, 0, 0, 0, 0, 0, 0, 0⟩
def State.onPm (s : State) (ctag : Nat) (f : PmCounts → PmCounts) : State :=
  { s with pm := sset blankPm s.pm ctag (f (sget blankPm s.pm ctag)) }

/-- What a load does to its cache: a hit raises the line's priority, a miss fills it (R232, R236). -/
def State.loadTouch (s : State) (loc : Loc) (cluster : Nat) (req : Option Prio) : State :=
  match s.cache? loc.vcid with
  | none => s
  | some c =>
    let rep := c.repOf cluster
    match s.line? loc.vcid rep loc.key with
    | some _ =>
      (s.moveLine c rep loc.key).onLines (fun l => l.vcid == loc.vcid && l.rep == rep && l.covers loc.key) fun l =>
        { l with prio := raisePrio l.prio req }
    | none => s.fillLine c rep loc.key req

/-- Count the lookup of a load as a hit or a miss of the core context with a tag (R424). -/
def State.countLookup (s : State) (loc : Loc) (cluster ctag : Nat) : State :=
  match s.cache? loc.vcid with
  | none => s
  | some c => s.onPm ctag fun p =>
    if (s.line? loc.vcid (c.repOf cluster) loc.key).isSome then { p with hits := p.hits + 1 }
    else { p with misses := p.misses + 1 }

/-- A write performed in an interleaved cache, in the uncached path or in the vault (R232). A replicated cache's stores
go through the directory (R234). -/
def State.storeAt (s : State) (loc : Loc) (bs : List Byte) (req : Option Prio) (ctag : Option Nat) : State :=
  match s.cache? loc.vcid with
  | none => s.putHome loc.key bs
  | some c =>
    let here := fun (l : Line) => l.vcid == loc.vcid && l.rep == none && l.covers loc.key
    let put := fun (l : Line) =>
      { l.put loc.key bs with prio := raisePrio l.prio req, bad := granulesLeft l.bad loc.key bs.length }
    match c.wpol with
    | .back =>
      let s1 := if (s.line? loc.vcid none loc.key).isSome then s.moveLine c none loc.key else s.fillLine c none loc.key req
      -- a page of another target is written at its memory as well, where its writes are performed (R336)
      let s2 := if (s1.line? loc.vcid none loc.key).isSome && loc.space == .dev then s1 else s1.putHome loc.key bs
      s2.onLines here fun l => { put l with dirty := true, ctag := ctag }
    | .through => ((s.moveLine c none loc.key).putHome loc.key bs).onLines here put
    | _ => (s.putHome loc.key bs).dropLines here

/-- Before an atomic, any cached copy of its bytes is written back and invalidated, in every replica and whatever the VCID (R232,
R357, R377). -/
def State.dropCopies (s : State) (loc : Loc) : State :=
  let here := fun (l : Line) => l.covers loc.key
  (s.writeBack here).dropLines here

/-- The poison marks that cover [k, k + n) (R240). -/
def State.poisoned (s : State) (k n : Nat) : Bool :=
  s.vt.poison.any fun g => decide (g < k + n) && decide (k < g + 32)
/-- Bytes that a read from a cluster finds poisoned: those of the line it hits, else those at the home slice (R240). -/
def State.spoiled (s : State) (loc : Loc) (cluster n : Nat) : Bool :=
  match s.cache? loc.vcid with
  | none => s.poisoned loc.key n
  | some c => match s.line? loc.vcid (c.repOf cluster) loc.key with
    | some l => !(granulesIn l.bad loc.key n).isEmpty
    | none => s.poisoned loc.key n

/-- Why the bytes of a read by an engine cannot be had: poison, or an uncorrectable error of a vault word (R240, R276, R287, R389). -/
def State.flawed (s : State) (loc : Loc) (cluster n : Nat) : Option Cause :=
  if s.spoiled loc cluster n then some cPoison
  else if loc.space = .vault && s.vt.broken.any fun w => decide (vaultKey + w < loc.key + n) && decide (loc.key < vaultKey + w + 4) then
    some cUncorrectable
  else none
/-- Words that a write covers hold no error any more. -/
def State.mend (s : State) (k n : Nat) : State :=
  { s with vt := { s.vt with broken := s.vt.broken.filter fun w => !(decide (k ≤ vaultKey + w) && decide (vaultKey + w + 4 ≤ k + n)) } }

end Sys2Proof.Machine
end

