-- ==== Sys2Proof/Machine/Translate.lean ====
section
/-! DEFINITION. Sys2Proof/Machine/Translate.lean: address classes, the private window, page tables, TLBs, the checks of
R70 and the fault merge table (R68 to R92, R406, R407). -/
namespace Sys2Proof.Machine

/-! ### Descriptors and page tables -/

/-- log2 of the span of the backing of an ASID (R87). -/
def spanLog2 (log2 : Nat) : Nat := 27 + log2
def windowBase : Nat := 0x0180000000000000

/-- An ASID descriptor read from the table: none where it is defective (R77, R78). -/
def State.readDesc (s : State) (asid : BitVec 16) : Option Desc :=
  let a := s.tr.asidTbl + 32 * asid.toNat
  let w0 := s.phys a 8
  let w1 := s.phys (a + 8) 8
  let w2 := s.phys (a + 16) 8
  let w3 := s.phys (a + 24) 8
  let root := w0 / 4096
  let lg := w2
  if w0 % 2 = 0 || w0 % 4096 / 2 ≠ 0 || decide (2 ^ 28 ≤ root) || w1 % 4096 ≠ 0 || decide (lg < 12) || decide (24 < lg) ||
      w3 ≠ 0 || decide (2 ^ 57 < w1 + 2 ^ spanLog2 lg) ||
      (decide (w1 < windowBase + 2 ^ 32) && decide (windowBase < w1 + 2 ^ spanLog2 lg))
  then none else some ⟨root, w1, lg⟩

/-- The descriptor in use: the cached one, else the table's (R76). -/
def State.desc (s : State) (asid : BitVec 16) : Option Desc :=
  match sget none s.tr.descs asid.toNat with
  | some d => some d
  | none => s.readDesc asid
/-- Only valid descriptors are cached (R76). -/
def State.cacheDesc (s : State) (asid : BitVec 16) : State :=
  { s with tr := { s.tr with descs := sset none s.tr.descs asid.toNat (s.desc asid) } }

/-- Why a translation fails: the level and whether the entry is malformed (R79, R408). -/
structure WalkFail where
  level : Nat
  malformed : Bool
deriving DecidableEq, Repr

/-- A successful walk: the leaf, the address of its entry and the entry read. -/
structure Walked where
  leaf : Leaf
  pte : Nat
  entry : DWord
  level : Nat
deriving DecidableEq, Repr

def pteFrame (e : DWord) : Nat := (e.extractLsb' 12 40).toNat
def pteTarget (e : DWord) : Nat := (e.extractLsb' 6 2).toNat
def pteLeaf (e : DWord) : Bool := e.getLsbD 9

/-- R74: the physical address of a leaf obeys the layout of its TARGET. Of a page of 2 MiB or 1 GiB of the expander the first byte
decides; that the rest of the page lies within the expander is not asked (log entry 121). -/
def paLegal (target frame : Nat) : Bool :=
  match target with
  | 0 => decide (frame < 2 ^ 28)
  | 1 => true
  | 2 => decide (frame < 2 ^ 39) || (decide (frame % 2 ^ 39 < 2 ^ 30) && decide (frame % 2 ^ 39 * 4096 < Config.cxlBytes))
  | _ => false

/-- R81: a valid entry that is malformed at a level. -/
def pteMalformed (e : DWord) (level : Nat) : Bool :=
  e.extractLsb' 60 4 ≠ 0 || e.extractLsb' 10 2 ≠ 0 ||
  (if pteLeaf e then
    decide (4 ≤ level) || (e.getLsbD 8 && level != 1) ||
    (level == 3 && pteFrame e % 2 ^ 18 != 0) || (level == 2 && pteFrame e % 2 ^ 9 != 0) ||
    !paLegal (pteTarget e) (pteFrame e)
  else
    level == 1 || e.extractLsb' 52 8 ≠ 0 || e.extractLsb' 1 8 ≠ 0 || decide (2 ^ 28 ≤ pteFrame e))

/-- The leaf of an entry at a level for a virtual address (R79, R80). -/
def leafOf (e : DWord) (level : Nat) : Leaf :=
  { vcid := (e.extractLsb' 52 8).toNat, target := pteTarget e, base := pteFrame e * 4096, size := 12 + 9 * (level - 1)
    u := e.getLsbD 3, x := e.getLsbD 2, w := e.getLsbD 1, a := e.getLsbD 4, d := e.getLsbD 5 }

/-- The walk of R79 from a table at a level. -/
def State.walk (s : State) (va : Nat) : Nat → Nat → Except WalkFail Walked
  | 0, _ => .error ⟨1, true⟩
  | level + 1, table =>
    let a := table * 4096 + 8 * (va / 2 ^ (12 + 9 * level) % 512)
    let e : DWord := BitVec.ofNat 64 (s.phys a 8)
    if !e.getLsbD 0 then .error ⟨level + 1, false⟩
    else if pteMalformed e (level + 1) then .error ⟨level + 1, true⟩
    else if pteLeaf e then .ok ⟨leafOf e (level + 1), a, e, level + 1⟩
    else s.walk va level (pteFrame e)

/-- The tables below the first that a walk passes, with their levels. -/
def State.tablesOf (s : State) (va : Nat) : Nat → Nat → List (Nat × Nat)
  | 0, _ => []
  | level + 1, table =>
    let e : DWord := BitVec.ofNat 64 (s.phys (table * 4096 + 8 * (va / 2 ^ (12 + 9 * level) % 512)) 8)
    if !e.getLsbD 0 || pteMalformed e (level + 1) || pteLeaf e then []
    else (level, pteFrame e) :: s.tablesOf va level (pteFrame e)

/-! ### TLBs (R85, R88, R89) -/

/-- log2 of the addresses that a cached upper entry serves. -/
def UpperEntry.span (e : UpperEntry) : Nat := 12 + 9 * e.level
def UpperEntry.hits (e : UpperEntry) (die : Nat) (asid : BitVec 16) (va : Nat) : Bool :=
  e.die == die && e.asid == asid && e.tag == va / 2 ^ e.span
/-- Where a walk starts: the lowest table that the walker of the die has cached, else the root. -/
def State.walkStart (s : State) (die : Nat) (asid : BitVec 16) (va root : Nat) : Nat × Nat :=
  ([1, 2, 3, 4].findSome? fun lv =>
    (s.tr.upper.find? fun e => e.level == lv && e.hits die asid va).map fun e => (lv, e.table)).getD (5, root)

def TlbEntry.hits (e : TlbEntry) (at_ : TlbAt) (asid : BitVec 16) (va : Nat) : Bool :=
  e.at_ == at_ && e.asid == asid && decide (e.va ≤ va) && decide (va < e.va + 2 ^ e.leaf.size)

/-- The entry used: the holder's own, else the die's (R88). -/
def State.tlbLookup (s : State) (at_ : TlbAt) (die : Nat) (asid : BitVec 16) (va : Nat) : Option TlbEntry :=
  match s.tr.tlb.find? fun e => e.hits at_ asid va with
  | some e => some e
  | none => s.tr.tlb.find? fun e => e.hits (.die die) asid va

/-- The merge-table entry of a key (R90). -/
def State.mergeOf (s : State) (die : Nat) (asid : BitVec 16) (page : Nat) : Option Merge :=
  s.tr.merges.find? fun m => m.die = die && m.asid = asid && m.page = page

/-- The outcome of a failed translation: join the entry that exists, or a fault of its own (R90). -/
inductive XFail where
  | join
  | fault (cause : Cause) (level : Nat) (malformed : Bool)
deriving DecidableEq, Repr

/-- Translation (R79 to R85, R90): a TLB entry, unless its A is 0 or a write meets D = 0; else the merge table; else the walk. -/
def State.xlate (s : State) (at_ : TlbAt) (die : Nat) (asid : BitVec 16) (va : Nat) (write : Bool) :
    Except XFail (Leaf × Nat × Option Walked) :=
  let doWalk : Except XFail (Leaf × Nat × Option Walked) :=
    match s.desc asid with
    | none => .error (.fault cPageNotPresent 6 false)
    | some d => match (fun p => s.walk va p.1 p.2) (s.walkStart die asid va d.root) with
      | .error f => .error (.fault cPageNotPresent f.level f.malformed)
      | .ok w => .ok (w.leaf, va / 2 ^ w.leaf.size * 2 ^ w.leaf.size, some w)
  match s.tlbLookup at_ die asid va with
  | some e => if !e.leaf.a || (write && !e.leaf.d) then doWalk else .ok (e.leaf, e.va, none)
  | none => if (s.mergeOf die asid (va / 4096)).isSome then .error .join else doWalk

/-- R83: the aligned group of 16 level-1 entries around an entry that the walker merges into one 64 KiB entry. -/
def State.contig (s : State) (w : Walked) (va : Nat) : Option (Leaf × Nat) :=
  if w.level ≠ 1 || !w.entry.getLsbD 8 then none
  else
    let a0 := w.pte / 128 * 128
    let es : List DWord := (List.range 16).map fun i => BitVec.ofNat 64 (s.phys (a0 + 8 * i) 8)
    let e0 := es.headD 0
    let f0 := pteFrame e0
    let same := fun (e : DWord) => e.getLsbD 0 && pteLeaf e && e.getLsbD 8 && !pteMalformed e 1 &&
      e.extractLsb' 52 8 == e0.extractLsb' 52 8 && pteTarget e == pteTarget e0 && e.extractLsb' 1 3 == e0.extractLsb' 1 3
    if es.all same && f0 % 16 == 0 && ((List.range 16).all fun i => pteFrame (es.getD i 0) == f0 + i) then
      some ({ w.leaf with base := f0 * 4096, size := 16, a := es.all fun e => e.getLsbD 4, d := es.all fun e => e.getLsbD 5 },
        va / 65536 * 65536)
    else none

/-- Entries of a cache of translations (R88). -/
def TlbAt.room : TlbAt → Nat
  | .core _ => 128 | .dray _ => 16 | .die _ => 8192
/-- An entry takes the place of the one it repeats, or where its cache is full that of the oldest (R88; log entry 9). -/
def tlbPut (tlb : List TlbEntry) (e : TlbEntry) : List TlbEntry :=
  let rest := tlb.filter fun x => !(x.at_ == e.at_ && x.asid == e.asid && x.va == e.va && x.leaf.size == e.leaf.size)
  let mine := fun (x : TlbEntry) => x.at_ == e.at_
  (if e.at_.room ≤ (rest.filter mine).length then rest.eraseP mine else rest) ++ [e]
/-- The upper entries of a walk come into the walker's cache. -/
def State.cacheUpper (s : State) (die : Nat) (asid : BitVec 16) (va : Nat) : List UpperEntry :=
  match s.desc asid with
  | none => s.tr.upper
  | some d =>
    let p := s.walkStart die asid va d.root
    s.tr.upper ++ (s.tablesOf va p.1 p.2).map fun x => ⟨die, asid, x.1, va / 2 ^ (12 + 9 * x.1), x.2⟩

/-- The result of a walk is installed in the die's TLB and the requester's cache, the descriptor and the upper entries too (R76,
R85, R88). -/
def State.install (s : State) (at_ : TlbAt) (die : Nat) (asid : BitVec 16) (va : Nat) (w : Walked) : State :=
  let (leaf, base) := (s.contig w va).getD (w.leaf, va / 2 ^ w.leaf.size * 2 ^ w.leaf.size)
  let tlb := tlbPut (tlbPut s.tr.tlb ⟨at_, asid, base, leaf⟩) ⟨.die die, asid, base, leaf⟩
  { s with tr := { s.tr with tlb := tlb, upper := s.cacheUpper die asid va } }.cacheDesc asid

/-- The effects of a completed walk: A is set on first use and D on the first write, at the home slice, and the result is
installed (R84, R88). -/
def State.touchWalk (s : State) (at_ : TlbAt) (die : Nat) (asid : BitVec 16) (va : Nat) (write : Bool) (w : Walked) : State :=
  let e := w.entry ||| 0x10 ||| (if write then 0x20 else 0)
  let s1 := if e = w.entry then s else s.physWrite w.pte 8 e.toNat
  s1.install at_ die asid va { w with entry := e, leaf := { w.leaf with a := true, d := e.getLsbD 5 } }

/-! ### The checks of R70 -/

/-- Kinds of access (R82, R408). -/
inductive AK where
  | load | store | atomic | fetch
deriving DecidableEq, Repr
def AK.writes : AK → Bool
  | .store => true | .atomic => true | _ => false
/-- KIND of a fault record (R408). -/
def AK.kind : AK → Nat
  | .load => 0 | .store => 1 | .atomic => 2 | .fetch => 3

/-- A failed check: a precise trap with its failing address, or a page fault (R70, R90, R400). -/
inductive Fail where
  | trap (cause : Cause) (addr : DWord)
  | page (va : Nat) (f : XFail)
deriving DecidableEq, Repr

/-- A checked access: where it goes, and the translation it used. -/
structure Checked where
  loc : Loc
  va : Nat
  walked : Option Walked
deriving DecidableEq, Repr

/-- The translation that an access used writes A or D. -/
def Checked.marks (c : Checked) (ak : AK) : Bool :=
  c.walked.any fun w => !w.entry.getLsbD 4 || (ak.writes && !w.entry.getLsbD 5)

/-- The space of a translated access and its key (R74, R336). -/
def leafLoc (l : Leaf) (pageVa va : Nat) : Loc :=
  let pa := l.base + (va - pageVa)
  match l.target with
  | 0 => ⟨.dev, pa, l.vcid, false⟩
  | 1 => ⟨.pod, podKey + pa, l.vcid, false⟩
  | _ => ⟨.host, hostKey + pa, l.vcid, decide (2 ^ 51 ≤ pa)⟩

/-- Who makes an access: the holder of its TLB, its die, its ASID and its privilege. -/
structure Who where
  at_ : TlbAt
  die : Nat
  asid : BitVec 16
  priv : Bool
deriving DecidableEq, Repr

/-- The TLB, die, ASID and privilege of a stream's accesses; a control stream uses the TLB of core 4 × cluster (R88). -/
def State.who (s : State) (st : Stream) : Who :=
  let t := s.team st.id.tcx
  let c := t.coreOf st.id
  ⟨.core (if st.id.kind = .control then 4 * (c / 4) else c), c / 48, t.recd.asid, s.privileged st⟩

/-- Steps 5 to 7 of R70 for a class-00 address: translation, permission, and the virtual cache of the page. -/
def State.checkPage (s : State) (w : Who) (ak : AK) (va : Nat) : Except Fail Checked :=
  match s.xlate w.at_ w.die w.asid va ak.writes with
  | .error f => .error (.page va f)
  | .ok (leaf, pageVa, walked) =>
    if (ak.writes && !leaf.w) || (ak == .fetch && !leaf.x) || (!w.priv && !leaf.u) then
      .error (.page va (.fault cPagePermission 0 false))
    else
      let ro := ak.writes && ((s.cache? leaf.vcid).map (·.wpol) == some .readOnly)
      if ro then .error (.trap cPagePermission (BitVec.ofNat 64 va))
      else if !s.vcUsable leaf.vcid then .error (.trap cVcUndefined (BitVec.ofNat 64 va))
      else .ok ⟨leafLoc leaf pageVa va, va, walked⟩

/-- What a refused access leaves behind: the descriptor, and where the walk has succeeded its result (R76, R88). The access does not
use the leaf, and sets no A. -/
def State.refused (s : State) (w : Who) (ak : AK) (f : Fail) : State :=
  let seen := fun (va : Nat) =>
    match s.xlate w.at_ w.die w.asid va ak.writes with
    | .ok (_, _, some wk) => s.install w.at_ w.die w.asid va wk
    | .ok (_, _, none) => s
    | .error .join => s
    | .error _ => s.cacheDesc w.asid
  match f with
  | .page va _ => seen va
  | .trap c a => if c = cVcUndefined ∨ c = cPagePermission then seen a.toNat else s

/-- TID of the private backing: Carter and control streams use TID 0 (R86). -/
def backTid (sid : SId) : Nat := if sid.kind = .lane then sid.unit else 0

/-- The private-window redirection of R86 (step 2 of R70): the backing address, or the failure. An operand that begins below the
window and runs into it is not redirected (log entry 121). -/
def State.redirect (s : State) (st : Stream) (a : DWord) (n : Nat) : Except Fail Nat :=
  let va := a.toNat
  if a.extractLsb' 32 32 = 0x01800000#32 then
    match s.desc (s.team st.id.tcx).recd.asid with
    | none => .error (.page va (.fault cPageNotPresent 6 false))
    | some d =>
      let p := va - windowBase
      if 2 ^ d.privLog2 < p + n then .error (.trap cAddressClass (BitVec.ofNat 64 (max va (windowBase + 2 ^ d.privLog2))))
      else .ok (d.privBase + (st.id.tcx * 2048 + backTid st.id) * 2 ^ d.privLog2 + p)
  else .ok va

/-- Classes an access accepts (R69). -/
structure Classes where
  c00 : Bool
  c01 : Bool
  c10 : Bool
deriving DecidableEq, Repr
def allClasses : Classes := ⟨true, true, true⟩
def vaultOnly : Classes := ⟨false, true, false⟩
def class00 : Classes := ⟨true, false, false⟩

/-- The class of an address is accepted and its zero bits are zero (R68, R69). -/
def classOk (cl : Classes) (a : DWord) : Bool :=
  match (a.extractLsb' 62 2).toNat with
  | 0 => cl.c00 && a.extractLsb' 57 5 == 0
  | 1 => cl.c01 && a.extractLsb' 32 30 == 0
  | 2 => cl.c10
  | _ => false

/-- The class-10 space of an address is decided by the rank descriptor (R317); see Machine/Dray.lean. -/
def remoteLoc (a : DWord) (pod : Bool) : Loc := ⟨if pod then .pod else .remote, a.toNat, 0, false⟩

/-- The checks of R70 on an instruction's own access of `n` bytes aligned to `align`; every byte keeps the zero bits (R68, R72). -/
def State.check (s : State) (st : Stream) (ak : AK) (cl : Classes) (a : DWord) (n align : Nat) : Except Fail Checked :=
  if !classOk cl a || !classOk cl (a + BitVec.ofNat 64 (n - 1)) then .error (.trap cAddressClass a)
  else match s.redirect st a n with
    | .error f => .error f
    | .ok va =>
      if a.toNat % align ≠ 0 then .error (.trap cAlignment a)
      else match (a.extractLsb' 62 2).toNat with
        | 0 => s.checkPage (s.who st) ak va
        | 1 => match s.vaultBad (s.team st.id.tcx).recd.asid (a.toNat % 2 ^ 32) n with
          | some bad => .error (.trap cVaultRange (0x4000000000000000 + BitVec.ofNat 64 bad))
          | none => .ok ⟨⟨.vault, vaultKey + a.toNat % 2 ^ 32, 0, false⟩, a.toNat, none⟩
        | _ => .ok ⟨remoteLoc a false, a.toNat, none⟩

/-- The effects of the translation a checked access used. -/
def State.touch (s : State) (w : Who) (ak : AK) (c : Checked) : State :=
  match c.walked with
  | none => s
  | some wk => s.touchWalk w.at_ w.die w.asid c.va ak.writes wk

/-- A read's translation by itself, with its effects. -/
def State.touchRead (s : State) (w : Who) (va : Nat) : State :=
  match s.xlate w.at_ w.die w.asid va false with
  | .ok (_, _, some wk) => s.touchWalk w.at_ w.die w.asid va false wk
  | _ => s

/-! ### Page faults of streams (R90, R91, R406, R407) -/

def State.ring (s : State) (die : Nat) : FaultRing := (s.tr.rings[die]?).getD ⟨0, 0, 0, 0⟩
def FaultRing.valid (r : FaultRing) : Bool := r.ctl.getLsbD 31

/-- The lowest free entry that a fault of its kind may use (R91). -/
def State.freeMerge (s : State) (die : Nat) (priv : Bool) : Option Nat :=
  (List.range (if priv then 1024 else 960)).find? fun i => s.tr.merges.all fun m => !(m.die == die && m.idx == i)

/-- The arrival number of a stream held at the walker of a die (R91). -/
def Park.heldAt (p : Park) (die : Nat) : Option Nat :=
  match p with
  | .walker d n => if d = die then Option.some n else Option.none
  | _ => Option.none
/-- An entry of the fault merge table is free for a stream's faults. -/
def State.mayMerge (s : State) (die : Nat) (st : Stream) : Bool := (s.freeMerge die (s.privileged st)).isSome
/-- A group held at the walker of a die comes first for a free entry: one that has arrived before `n`, and for a newcomer any
(R91); a group outside the active bank set, or on a halted core, is passed over (log entry 79). -/
def State.othersHeld (s : State) (die : Nat) (n : Option Nat) : Bool :=
  s.streams.any fun x =>
    let t := s.team x.id.tcx
    s.mayMerge die x && t.image.isNone && !t.shadow && !(s.halted.contains (t.coreOf x.id)) &&
      ((x.park.heldAt die).any fun m => match n with
        | some k => decide (m < k)
        | none => true)

/-- Allocate an entry and its record (R90, R408); the sequence number of the die is used up. -/
def State.allocMerge (s : State) (die idx : Nat) (asid : BitVec 16) (va core kind : Nat) (f : XFail) (pc : DWord)
    (ws : List SId) : State :=
  let (cause, level, mal) := match f with
    | .fault c l m => (c, l, m)
    | .join => (cPageNotPresent, 0, false)
  let r := s.ring die
  let m : Merge := ⟨die, idx, asid, va / 4096, ws, va, core, kind, mal, level, cause, s.gts, r.seq, pc, false, false⟩
  { s with tr := { s.tr with
    merges := s.tr.merges ++ [m]
    rings := s.tr.rings.set die { r with seq := (r.seq + 1) % 2 ^ 20 } } }

/-- Park the issue group on a merge-table entry; `act` are the lanes that a trap of the instruction would take. -/
def State.parkOn (s : State) (die idx : Nat) (low : Stream) (va : Nat) (act : List SId) (fetch : Bool) : State :=
  { s.onLanes s.cur.lanes (fun st =>
      st.parkAt (.fault die idx s.cur.npc (BitVec.ofNat 64 va) (ftid low.id) (decide (st.id ∈ act)) fetch)) with
    tr := { s.tr with merges := s.tr.merges.map fun m =>
      if m.die = die && m.idx = idx then { m with waiters := m.waiters ++ s.cur.lanes } else m } }

/-- A page fault of the executing issue group (R90, R91, R406): it joins or allocates an entry and parks; while no entry
is free it is held at the walker; while the die's ring is not valid it takes a precise trap (R407). -/
def State.pageFault (s0 : State) (lanes : State → Cause → DWord → State) (act : List SId) (low : Stream) (ak : AK) (va : Nat)
    (f : XFail) : State :=
  let w := s0.who low
  let s := s0.refused w ak (.page va f)
  let asid := w.asid
  match s.mergeOf w.die asid (va / 4096) with
  | some m => s.parkOn w.die m.idx low va act (ak == .fetch)
  | none =>
    match f with
    | .join => s.stalled
    | .fault cause _ _ =>
      if !(s.ring w.die).valid then lanes s cause (BitVec.ofNat 64 va)
      else
        -- a group that has been held keeps its place
        let mine := low.park.heldAt w.die
        match if s.othersHeld w.die mine then none else s.freeMerge w.die w.priv with
        | some i =>
          (s.allocMerge w.die i asid va ((s.team low.id.tcx).coreOf low.id) ak.kind f s.cur.pc []).parkOn w.die i low va act
            (ak == .fetch)
        | none =>
          { s.onLanes s.cur.lanes (fun st => st.parkAt (.walker w.die (mine.getD s.tr.arrivals))) with
            tr := { s.tr with arrivals := s.tr.arrivals + 1 } }

/-- A failed check of the lowest failing lane of the executing instruction: a trap of Active(), or a page fault. Inside an
open window it waits until the window closes (R124). -/
def State.failLane (s : State) (g : Guard) (ak : AK) (st : Stream) (f : Fail) : State :=
  if s.windowed then s.stalled
  else match f with
    | .trap cause addr => (s.refused (s.who st) ak f).trap7 g cause st.id addr
    | .page va f => s.pageFault (fun s c a => s.trap7 g c st.id a) (s.active g) st ak va f

end Sys2Proof.Machine
end

