-- ==== Sys2Proof/Machine/Rank.lean ====
section
/-! DEFINITION. Sys2Proof/Machine/Rank.lean: job slots, rank translation and the token store as the source of a request
uses them (R315 to R317, R324, R330). -/
namespace Sys2Proof.Machine

/-! ### Class-10 addresses (R68, R73) -/

def rankOf (a : DWord) : Nat := (a.extractLsb' 45 17).toNat
def regionOf (a : DWord) : Nat := (a.extractLsb' 40 5).toNat
def offsetOf (a : DWord) : Nat := (a.extractLsb' 0 40).toNat

/-! ### Job slots -/

def State.job (s : State) (n : Nat) : JobSlot := (s.jobs[n]?).getD blankJob
def State.onJob (s : State) (n : Nat) (f : JobSlot → JobSlot) : State :=
  { s with jobs := s.jobs.mapIdx fun i j => if i = n then f j else j }
/-- The valid slot of an ASID (R315). -/
def State.jobOf (s : State) (asid : BitVec 16) : Option Nat :=
  s.jobs.findIdx? fun j => j.v && j.asid == asid
/-- RANK and NRANKS of an ASID (R66). -/
def State.rankNow (s : State) (asid : BitVec 16) : Word :=
  match s.jobOf asid with
  | some n => BitVec.ofNat 32 (s.job n).rank
  | none => 0xFFFFFFFF
def State.nranksNow (s : State) (asid : BitVec 16) : Word :=
  match s.jobOf asid with
  | some n => BitVec.ofNat 32 ((s.job n).last + 1)
  | none => 0

/-- A descriptor read from local HBM4. -/
def State.readRankDesc (s : State) (a : Nat) : RankDesc :=
  let w := fun k => BitVec.ofNat 64 (s.phys (a + 8 * k) 8)
  ⟨w 0, w 1, w 2, w 3⟩
def RankDesc.kind (d : RankDesc) : Nat := (d.w0.extractLsb' 0 4).toNat
def RankDesc.pathset (d : RankDesc) : Nat := (d.w0.extractLsb' 4 8).toNat
def RankDesc.nexc (d : RankDesc) : Nat := (d.w0.extractLsb' 12 7).toNat
/-- R317: a descriptor that is not INVALID. -/
def RankDesc.ok (d : RankDesc) : Bool :=
  d.w0.extractLsb' 19 45 == 0 && decide (1 ≤ d.kind) && decide (d.kind ≤ 3) && decide (d.nexc ≤ 64)

/-- The destination of a child of a FORMULA or POD descriptor (R317). -/
def State.childDest (s : State) (d : RankDesc) (child : Nat) : Option Dest :=
  let exc := (List.range d.nexc).find? fun i => s.phys (d.ptr.toNat + 16 * i) 8 % 4096 == child
  let v : DWord := match exc with
    | some i => BitVec.ofNat 64 (s.phys (d.ptr.toNat + 16 * i + 8) 8)
    | none => d.base + BitVec.ofNat 64 child * d.step
  match d.kind with
  | 2 => some (.fabric v)
  | 3 => if v.toNat ≤ 511 then some (.pod v.toNat) else none
  | _ => none

/-- The level-M entry of a slot that the rank cache holds (R316). -/
def State.rankHeld (s : State) (n k : Nat) : Option RankDesc :=
  (s.dr.ranks.find? fun e => e.1 = n && e.2.1 = k).map (·.2.2)
/-- The level-M descriptor of a rank under a TABLE entry: on the die for the own top group, else through the rank cache,
else from HBM4 (R316). -/
def State.levelM (s : State) (n : Nat) (t : RankDesc) (top mid : Nat) : RankDesc :=
  if top = (s.job n).rank / 4096 then (s.job n).levelM.getD mid ⟨0, 0, 0, 0⟩
  else (s.rankHeld n (top * 64 + mid)).getD (s.readRankDesc (t.ptr.toNat + 32 * mid))

/-- The descriptor and the child number that decide the destination of a rank (R316). -/
def State.rankEntry (s : State) (n : Nat) (r : Nat) : Option (RankDesc × Nat) :=
  let j := s.job n
  if j.last < r then none
  else
    let top := r / 4096
    let mid := r / 64 % 64
    let t := j.levelT.getD top ⟨0, 0, 0, 0⟩
    if !t.ok then none
    else if t.kind = 1 then
      let m := s.levelM n t top mid
      if m.ok && m.kind != 1 then some (m, r % 64) else none
    else some (t, r % 4096)

/-- The destination of a rank of a slot (R316, R317). -/
def State.rankDest (s : State) (n : Nat) (r : Nat) : Option Dest :=
  match s.rankEntry n r with
  | some (d, c) => s.childDest d c
  | none => none

/-- Entries of the rank cache (R316), which all job slots share (log entry 32). -/
def rankRoom : Nat := 4096
/-- Fill the rank cache with the level-M entry that a translation of `r` read; in a full cache the oldest entry goes (R316). -/
def State.fillRank (s : State) (n r : Nat) : State :=
  let j := s.job n
  let top := r / 4096
  let mid := r / 64 % 64
  let t := j.levelT.getD top ⟨0, 0, 0, 0⟩
  if j.last < r || !t.ok || t.kind != 1 || top == j.rank / 4096 || (s.rankHeld n (top * 64 + mid)).isSome then s
  else
    let es := s.dr.ranks ++ [(n, top * 64 + mid, s.readRankDesc (t.ptr.toNat + 32 * mid))]
    { s with dr := { s.dr with ranks := es.drop (es.length - rankRoom) } }
/-- The rank cache of a slot is dropped (R315). -/
def State.dropRanks (s : State) (n : Nat) : State :=
  { s with dr := { s.dr with ranks := s.dr.ranks.filter fun e => e.1 ≠ n } }

/-- The token held for a key (R324). -/
def State.tokenOf (s : State) (asid : BitVec 16) (rank region : Nat) : Option DWord :=
  (s.tokens.find? fun t => t.asid = asid && t.rank = rank && t.region = region).map (·.tok)

/-- REASON codes of R327. -/
def rNoToken : BitVec 8 := 0x01
def rNoJob : BitVec 8 := 0x02
def rKeygen : BitVec 8 := 0x03
def rMac : BitVec 8 := 0x04
def rExpired : BitVec 8 := 0x05
def rRegion : BitVec 8 := 0x06
def rRights : BitVec 8 := 0x07
def rBounds : BitVec 8 := 0x08
def rTranslation : BitVec 8 := 0x09
def rRank : BitVec 8 := 0x0A

/-- A request towards a class-10 address as its source finds it: the slot, the destination, whether that is the device
itself, and the token; or the REASON of a failure before it leaves the device (R315, R316, R324). -/
structure Route where
  slot : Nat
  dest : Dest
  self : Bool
  token : DWord
deriving DecidableEq, Repr

def State.route (s : State) (asid : BitVec 16) (a : DWord) : Except (BitVec 8) Route :=
  match s.jobOf asid with
  | none => .error rNoJob
  | some n => match s.tokenOf asid (rankOf a) (regionOf a) with
    | none => .error rNoToken
    | some tok => match s.rankDest n (rankOf a) with
      | none => .error rRank
      | some d =>
        let own := (s.job n).rank
        .ok ⟨n, d, rankOf a == own || s.rankDest n own == some d, tok⟩

/-! ### Grant tokens (R323) -/

def tokRegion (t : DWord) : Nat := (t.extractLsb' 59 5).toNat
def tokRights (t : DWord) : BitVec 3 := t.extractLsb' 56 3
def tokSize (t : DWord) : Nat := (t.extractLsb' 50 6).toNat
def tokExpiry (t : DWord) : BitVec 16 := t.extractLsb' 34 16
def tokGen (t : DWord) : Nat := (t.extractLsb' 32 2).toNat
/-- The MAC of a token under the keys of a slot (R323). -/
def State.macOk (s : State) (job : Word) (t : DWord) : Bool :=
  match s.jobs.find? fun j => j.v && j.jid == job with
  | none => true
  | some j => match j.keys.find? fun e => e.1 = tokGen t with
    | none => true
    | some (_, key) => Config.kmac key (t.extractLsb' 32 32) j.rank job == t.extractLsb' 0 32

/-- The request that this device makes of its own Porter (R317). -/
def State.ownRequest (s : State) (slot : Nat) (token a : DWord) : InReq :=
  ⟨(s.job slot).jid, (s.job slot).rank, token, regionOf a, offsetOf a⟩

/-- A request in flight completes on the job slot with which it was issued (R315): where that slot is valid no longer, be it that it has
been validated anew, what serves the request finds the slot as it was. -/
def State.asIssued (s : State) (n : Nat) (j : JobSlot) (f : State → α × State) : α × State :=
  if (s.job n).v && (s.job n).gen == j.gen then f s
  else
    let (x, t) := f (s.onJob n fun _ => j)
    (x, t.onJob n fun _ => s.job n)

/-- The space of a class-10 address (R336): pod when its rank descriptor is POD and it is not the device itself. -/
def State.space10 (s : State) (asid : BitVec 16) (a : DWord) : Space :=
  match s.jobOf asid with
  | none => .remote
  | some n =>
    match s.rankDest n (rankOf a) with
    | some (.pod _) => if rankOf a = (s.job n).rank then .remote else .pod
    | _ => .remote

/-- Some UALink port is up (R330). -/
def Links.anyPort (l : Links) : Bool := l.ports.any id
/-- The port at a number, or the next in ascending order whose link is up (R330). -/
def Links.portFrom (l : Links) (p : Nat) : Option Nat :=
  ((List.range 16).map fun i => (p + i) % 16).find? fun k => (l.ports[k]?).getD false
/-- The port of a request to a rank at an offset of its region: a fixed function of the pod index and offset[39:12]; over the fabric
none (R330). -/
def State.portTo (s : State) (d : Dest) (a : DWord) : Option Nat :=
  match d with
  | .pod x => s.links.portFrom (Config.ualinkPort x (offsetOf a / 4096))
  | .fabric _ => none

end Sys2Proof.Machine
end

