-- ==== Sys2Proof/Machine/Vault.lean ====
section
/-! DEFINITION. Sys2Proof/Machine/Vault.lean: outstanding operations: issue, the order between those of one stream (R337 to
R341), completion of a lane, and full/empty bits with their waiters (R228, R229, R248). -/
namespace Sys2Proof.Machine

/-! ### Spaces and order -/

def Space.idx : Space → Nat
  | .vault => 0 | .dev => 1 | .pod => 2 | .remote => 3 | .host => 4
def inMask (m : BitVec 5) (sp : Space) : Bool := m.getLsbD sp.idx
def spaceBit (sp : Space) : BitVec 5 := 1#5 <<< sp.idx
def Space.local : Space → Bool
  | .vault => true | .dev => true | _ => false

/-- The orders that acquire and that release (R340). -/
def ordAcquires : Order → Bool
  | .acq => true | .ar => true | .sc => true | _ => false
def ordReleases : Order → Bool
  | .rel => true | .ar => true | .sc => true | _ => false

def MemOp.reads (o : MemOp) : Bool :=
  match o.kind with
  | .load _ | .rmw _ _ | .feqry | .elemLoad _ _ _ | .block _ => true
  | .fe .ldvw | .fe .ldvt => true
  | _ => false
def MemOp.writes (o : MemOp) : Bool :=
  match o.kind with
  | .store | .rmw _ _ | .elemStore _ => true
  | .fe .stvp | .fe .stvf | .fe .ldvt => true
  | .femk _ _ => true
  | .hsig _ _ _ => true
  | _ => false
/-- The byte ranges an operation touches. -/
def MemOp.spans (o : MemOp) : List (Nat × Nat) :=
  match o.kind with
  | .range _ ls => ls.map fun l => (l.1.key, l.2)
  | .femk len _ => [(o.loc.key, len)]
  | .feqry => [(o.loc.key, 128)]
  | _ => [(o.loc.key, o.size)]
def MemOp.overlaps (a b : MemOp) : Bool :=
  a.spans.any fun x => b.spans.any fun y => decide (x.1 < y.1 + y.2) && decide (y.1 < x.1 + x.2)
def MemOp.ofStream (o : MemOp) (sid : SId) : Bool := o.lanes.any fun l => l.sid = sid
/-- a is ordered before b by a fence f between them (R341); an sc fence orders every earlier access to a space of its mask
before every later one, as R346 asks (log entry 13). -/
def fenceOrders (f a b : MemOp) : Bool :=
  match f.kind with
  | .fence ord =>
    (ordAcquires ord && a.reads && inMask f.mask b.loc.space) ||
    (ordReleases ord && inMask f.mask a.loc.space && b.writes) ||
    (ord == .sc && inMask f.mask a.loc.space && inMask f.mask b.loc.space)
  | _ => false

/-- A link that the bytes lie across is down. -/
def State.linkDown (s : State) (l : Loc) : Bool :=
  match l.space with
  | .host => if l.cxl then !s.links.cxlUp else !s.links.hostUp
  | .pod => !s.links.anyPort
  | _ => false

/-- A function that is not configured sends no request to the host (R433). -/
def State.shutHost (s : State) (fn : Nat) (l : Loc) : Bool := l.space == .host && !l.cxl && !(s.fn fn).v
/-- The cause of an access over a link that is down (R330, R331). -/
def lostCause (l : Loc) : Cause := if l.space = .pod then cPodPortDown else cLinkLost
/-- A write that an engine sends over a link that is down is lost: one to the host is discarded and counted, one to the expander times
out (R419, R435). -/
def State.lostWrite (s : State) (l : Loc) : State :=
  if l.space = .host then if l.cxl then s.cxlTimedOut else s.discard else s
/-- A read that an engine sends over a link that is down (R435). -/
def State.lostRead (s : State) (l : Loc) : State := if l.cxl then s.cxlTimedOut else s

/-! ### Scopes (R335) -/

/-- The narrower and the wider of two agent scopes; their instances lie within one another. -/
def narrower (a b : Agent) : Agent := if a.code.toNat ≤ b.code.toNat then a else b
def wider (a b : Agent) : Agent := if a.code.toNat ≤ b.code.toNat then b else a

/-- A stream lies in the scope instance of another's access (R335). -/
def State.inInstance (s : State) (ag : Agent) (x y : SId) : Bool :=
  match ag with
  | .thr => x == y
  | .grp => x == y || (x.tcx == y.tcx && x.kind == .lane && y.kind == .lane && (s.team x.tcx).group x == (s.team y.tcx).group y)
  | .team => x.tcx == y.tcx
  | .clu => (s.team x.tcx).cluster == (s.team y.tcx).cluster
  | _ => true
/-- Two accesses share scope (R335). -/
def State.shareScope (s : State) (a : Agent) (x : SId) (b : Agent) (y : SId) : Bool := s.inInstance a x y && s.inInstance b y x

/-- An engine lies in the instance of a stream's access: an engine operation of a stream there, or, from device scope on, the engines
themselves (R335). -/
def State.engineIn (s : State) (ag : Agent) (x : SId) : Bool :=
  decide (4 ≤ ag.code.toNat) || (s.qu.xfers.any fun e => s.inInstance ag x e.sid) ||
    (s.mx.ops.any fun e => s.inInstance ag x e.sid) ||
    (s.dr.copies.any fun e => decide (e.state < 2) && s.inInstance ag x e.sid)
/-- Somebody besides the stream lies in the instance of its access: another stream or an engine (R335). -/
def State.inhabited (s : State) (ag : Agent) (x : SId) : Bool :=
  s.engineIn ag x || s.streams.any fun y => y.id != x && !y.exited && s.inInstance ag x y.id
/-- A store that has left through the replica of a stream's cluster is seen already by all who lie in the instance of its access, where
that is the cluster or less and no engine works there: what is promised to them is kept (R335, R351, R353). -/
def State.seenWithin (s : State) (ag : Agent) (id : SId) (a : MemOp) : Bool :=
  a.isLeft && decide (a.core / 4 = (s.team id.tcx).cluster) && !s.engineIn ag id

/-! ### The order of one stream's accesses -/

/-- A read that has seen a store early still counts as a read. -/
def MemOp.asRead (o : MemOp) : MemOp :=
  match o.kind with
  | .seen _ => { o with kind := .load false }
  | _ => o

/-- The scope to which it is promised that a, issued before b by one stream, is ordered before b (R337, R338); none where it
is not. -/
def orderScope (a b : MemOp) : Option Agent :=
  let rows : List (Bool × Agent) :=
    [ (a.overlaps b && a.loc.space != .remote, .sys),
      (a.scp && b.scp && a.reads && (b.reads || b.writes) && a.loc.space.local && b.loc.space.local, narrower a.agent b.agent),
      (a.reads && ordAcquires a.ord && inMask a.mask b.loc.space, a.agent),
      (b.writes && ordReleases b.ord && inMask b.mask a.loc.space, b.agent),
      (a.ord == .sc && b.ord == .sc, narrower a.agent b.agent) ]
  rows.foldl (fun r x => if x.1 then some (match r with | none => x.2 | some g => wider g x.2) else r) none
def orderedPair (a b : MemOp) : Bool := (orderScope a b).isSome

/-- The Carter transfer that an operation belongs to. -/
def MemOp.xfer (o : MemOp) : Option Nat :=
  match o.kind with
  | .elemLoad x _ _ => some x
  | .elemStore x => some x
  | _ => none

/-- A transfer's access may be performed once every access that its stream issued before the transfer has been (R348); the
stores of one transfer to the same bytes stay in order (R278). -/
def State.mayTransfer (s : State) (b : MemOp) (x : Nat) : Bool :=
  s.ops.all fun a =>
    (a.xfer.isSome || a.isFence || decide (x ≤ a.num) || !(b.lanes.any fun l => a.ofStream l.sid)) &&
    (a.xfer != some x || decide (b.num ≤ a.num) || !a.overlaps b)

/-- The scope to which it is promised that a stream's a comes before its b, by themselves or by a fence between them (R337 to
R341). -/
def State.pairScope (s : State) (id : SId) (a b : MemOp) : Option Agent :=
  (s.ops.filter fun f =>
    f.ofStream id && decide (a.num < f.num) && decide (f.num < b.num) && fenceOrders f a b).foldl
      (fun r f => some (match r with | none => f.agent | some g => wider g f.agent)) (orderScope a b)

/-- An access is outstanding. -/
def State.live (s : State) (n : Nat) : Bool := s.ops.any fun o => o.num == n && !o.isFence

/-- A marker of a read that has seen a store early holds b back (R344, R346): a write that is ordered after the read, and
what an sc order puts after it. -/
def State.seenHolds (s : State) (id : SId) (m b : MemOp) : Bool :=
  match m.kind with
  | .seen _ =>
    (b.writes && (s.pairScope id m.asRead b).isSome) || (m.ord == .sc && b.ord == .sc) ||
      s.ops.any fun f => f.kind == .fence .sc && f.ofStream id && decide (m.num < f.num) && decide (f.num < b.num) &&
        fenceOrders f m.asRead b
  | _ => false

/-- Operations that happen before a stream's write b, or before the release fence in front of it, and lie in a space of its
mask (R342). -/
def State.carriedFor (s : State) (st : Stream) (b : MemOp) : Bool :=
  let held := fun (ag : Agent) (m : BitVec 5) (n : Nat) =>
    s.ops.any fun o => o.num == n && !o.isFence && inMask m o.loc.space && !s.seenWithin ag st.id o
  b.writes && ((ordReleases b.ord && st.carried.any fun c => decide (c.1 < b.num) && held b.agent b.mask c.2) ||
    st.fenced.any fun f => decide (f.1 < b.num) && f.2.ops.any (held f.2.agent f.2.mask))

/-- An access of a stream waits for what another stream's scoped access has overtaken while nobody else was in its scope
(R335). -/
def State.overtakenFor (s : State) (id : SId) : Bool :=
  s.streams.any fun x => x.id != id && x.overtaken.any fun e => s.live e.2 && s.inInstance e.1 x.id id

/-- An operation may be performed: every earlier operation of each of its streams that is ordered before it has been, where
the order is promised to somebody (R335, R337 to R341); so have the earlier lanes of its own instruction that touch the same
bytes (R243), the stores that an ordered earlier read has seen early (R344), and what a release carries (R342). -/
def State.mayPerform (s : State) (b : MemOp) : Bool :=
  match b.xfer with
  | some x => s.mayTransfer b x
  | none =>
    (b.lanes.all fun l =>
      !s.overtakenFor l.sid && !s.carriedFor (s.stream l.sid) b &&
      s.ops.all fun a =>
        decide (b.num ≤ a.num) || !a.ofStream l.sid || a.xfer.isSome ||
        (if a.isFence then !s.seenHolds l.sid a b
         else match s.pairScope l.sid a b with
          | none => true
          | some ag => !s.inhabited ag l.sid || s.seenWithin ag l.sid a)) &&
    -- an earlier lane that waits for a full/empty bit has arrived, and keeps its place (R229)
    s.ops.all fun a => decide (b.num ≤ a.num) || a.inst != b.inst || a.isFence || a.phase == .waiting || !a.overlaps b

def State.op? (s : State) (n : Nat) : Option MemOp := s.ops.find? fun o => o.num = n
def State.onOp (s : State) (n : Nat) (f : MemOp → MemOp) : State :=
  { s with ops := s.ops.map fun o => if o.num = n then f o else o }

/-- Markers that hold nothing back are done: of reads whose stores have been performed, and of fences with no earlier
operation of their stream left. -/
def pruneFences (ops : List MemOp) : List MemOp :=
  let ops1 := ops.filter fun m => match m.kind with
    | .seen ws => ops.any fun a => !a.isFence && ws.contains a.num
    | _ => true
  ops1.filter fun f => match f.kind with
    | .fence _ => ops1.any fun a =>
      !(match a.kind with | .fence _ => true | _ => false) && decide (a.num < f.num) && f.lanes.any fun l => a.ofStream l.sid
    | _ => true
def State.removeOp (s : State) (n : Nat) : State :=
  { s with ops := pruneFences (s.ops.filter fun o => o.num ≠ n) }

/-- Issue of an operation: it takes the next number, and its counter rises once for each lane (R130). -/
def State.issueOp (s : State) (o : MemOp) : State :=
  let s1 := { s with ops := s.ops ++ [{ o with num := s.nextOp }], nextOp := s.nextOp + 1 }
  o.lanes.foldl (fun s l => s.onLane l.sid fun st => { st with cnt := st.cnt.add o.counter 1 }) s1

/-- A counter of some lane cannot rise by one (R131). -/
def State.counterFull (s : State) (ids : List SId) (k : Nat) : Bool :=
  ids.any fun id => decide (254 ≤ (s.stream id).cnt.get k)

/-! ### What an access leaves behind: releases, acquires and scopes (R335, R340, R342) -/

/-- Operations of a stream issued before its b that b has overtaken, each with the scope whose promise it concerns (R335). -/
def State.overtakes (s : State) (id : SId) (b : MemOp) : List (Agent × Nat) :=
  s.ops.filterMap fun a =>
    if a.num < b.num && a.ofStream id && !a.isFence && a.xfer.isNone then
      ((s.pairScope id a b).filter fun ag => !s.seenWithin ag id a).map fun ag => (ag, a.num)
    else none

/-- What happens before a stream's operation of a number and has not been performed: its own earlier operations, and those it
has acquired (R342). -/
def State.pendingBefore (s : State) (st : Stream) (n : Nat) : List Nat :=
  ((s.ops.filter fun a => a.ofStream st.id && decide (a.num < n) && !a.isFence && a.writes).map (·.num)) ++
    ((st.carried.filter fun c => decide (c.1 < n) && s.live c.2).map (·.2))

/-- What the write b of a stream releases (R340, R342): by its own order, or for a fence that stands before it. `self` is b
itself where others may see it before it is performed. -/
def State.releases (s : State) (st : Stream) (b : MemOp) (self : List Nat) : List Rel :=
  if !b.writes then []
  else
    let own := if ordReleases b.ord then [(b.agent, b.mask, s.pendingBefore st b.num ++ self)] else []
    let fs := (st.fenced.filter fun f => decide (f.1 < b.num)).map fun f => (f.2.agent, f.2.mask, (f.2.ops.filter s.live) ++ self)
    (own ++ fs).filterMap fun x =>
      if x.2.2.isEmpty then none else some ⟨b.loc.key, b.size, st.id, x.1, x.2.1, x.2.2⟩

/-- Releases of other streams that a read of bytes returns, with something left to carry. -/
def State.readReleases (s : State) (id : SId) (key n : Nat) : List Rel :=
  s.streams.flatMap fun x =>
    if x.id = id then [] else x.released.filter fun r => decide (r.key < key + n) && decide (key < r.key + r.size) && r.ops.any s.live

/-- A stream takes up releases that an access of it has read (R340): an acquire that shares scope and whose mask names the
space carries them on; another read keeps them for an acquire fence. -/
def State.takeUp (s : State) (st : Stream) (num : Nat) (acq : Bool) (ag : Agent) (m : BitVec 5) (sp : Space) (rs : List Rel) : Stream :=
  let syn := fun (r : Rel) => acq && s.shareScope ag st.id r.agent r.sid && inMask m sp && inMask r.mask sp
  { st with
    carried := st.carried.filter (fun c => s.live c.2) ++
      (rs.filter syn).flatMap fun r => (r.ops.filter s.live).map fun n => (num, n)
    got := st.got.filter (fun r => r.2.ops.any s.live) ++ (rs.filter fun r => !syn r).map fun r => (sp.idx, r) }

/-- What performing o leaves in its streams; `self` as for `releases`. -/
def State.noteDone (s : State) (o : MemOp) (self : List Nat) : State :=
  o.lanes.foldl (fun s l =>
    let st := s.stream l.sid
    let past := s.overtakes l.sid o
    let rel := s.releases st o self
    let rs := if o.reads then s.readReleases l.sid o.loc.key o.size else []
    let s1 := if past.isEmpty then s
      else s.onLane l.sid fun st => { st with overtaken := (st.overtaken.filter fun e => s.live e.2) ++ past }
    let s2 := if rel.isEmpty then s1
      else s1.onLane l.sid fun st => { st with released := (st.released.filter fun r => r.ops.any s.live) ++ rel }
    if rs.isEmpty then s2
    else s2.onLane l.sid fun st => s.takeUp st o.num (o.scp && ordAcquires o.ord) o.agent o.mask o.loc.space rs) s

/-- What a fence leaves in its stream (R340, R341): a release fence stands in for later writes, an acquire fence for earlier
reads. -/
def State.noteFence (s : State) (id : SId) (ord : Order) (ag : Agent) (m : BitVec 5) : State :=
  let st := s.stream id
  let ops := if ordReleases ord then s.pendingBefore st s.nextOp else []
  let s1 := if ops.isEmpty then s
    else s.onLane id fun st =>
      { st with fenced := (st.fenced.filter fun f => f.2.ops.any s.live) ++ [(s.nextOp, ⟨0, 0, id, ag, m, ops⟩)] }
  let syn := fun (r : Nat × Rel) => s.shareScope ag id r.2.agent r.2.sid && m.getLsbD r.1 && r.2.mask.getLsbD r.1
  let new := if ordAcquires ord then (st.got.filter syn).flatMap fun r => (r.2.ops.filter s.live).map fun n => (s.nextOp, n) else []
  if new.isEmpty then s1
  else s1.onLane id fun st => { st with carried := (st.carried.filter fun c => s.live c.2) ++ new }

/-- Operations that a stream has acquired lie in a space of the mask (R342). -/
def State.carriedIn (s : State) (ids : List SId) (m : BitVec 5) : Bool :=
  ids.any fun id => (s.stream id).carried.any fun c => s.ops.any fun o => o.num == c.2 && !o.isFence && inMask m o.loc.space

/-! ### Waits of R338 -/

def MemOp.far (o : MemOp) : Bool := !o.loc.space.local
/-- A stream has an outstanding access in a pod, remote or host space of the mask. -/
def State.farPending (s : State) (id : SId) (m : BitVec 5) : Bool :=
  s.ops.any fun o => o.ofStream id && o.far && !o.isFence && inMask m o.loc.space
/-- A later access waits until the stream's ordered access, or fence, whose mask names its space is performed (R338). -/
def State.farOrdered (s : State) (id : SId) (sp : Space) : Bool :=
  !sp.local && s.ops.any fun o => o.ofStream id && o.scp && o.ord != .rlx && inMask o.mask sp

/-! ### Values written by completed operations -/

/-- The write of a completed load to its register: inside an open window, a load issued before the branch also writes
the state to which a squash returns (R119, R125). -/
def Stream.loadWrite (st : Stream) (num : Nat) (d : Reg) (wide : Bool) (v : DWord) : Stream :=
  let put := fun (st : Stream) => if wide then st.wr64 d v else st.wr d (v.setWidth 32)
  let st1 := put st
  match st.window with
  | none => st1
  | some w =>
    if num < w.firstOp then { st1 with window := some { w with regs := (put { st with regs := w.regs }).regs } } else st1

/-- One lane of an operation completes: its value, if it has one, goes to its register or to its queue entry, and its
counter falls (R130). -/
def State.finishLane (s : State) (o : MemOp) (id : SId) (v : Option DWord) : State :=
  let wide := decide (o.size = 8)
  let s1 := match v with
    | none => s
    | some x => match o.entry with
      | some (core, q, serial) => s.fillElem (32 * core + q) serial ((s.team id.tcx).lane id) (x.setWidth 32)
      -- a value for v0 is discarded (R246, R355)
      | none => if o.d = 0 then s else s.onLane id fun st => st.loadWrite o.num o.d wide x
  s1.decCounter id o.counter

/-- Extension of a loaded value (R246). -/
def extendLoad (sx : Bool) (size v : Nat) : DWord :=
  match size with
  | 1 => if sx then (((BitVec.ofNat 8 v).signExtend 32).setWidth 64) else BitVec.ofNat 64 v
  | 2 => if sx then (((BitVec.ofNat 16 v).signExtend 32).setWidth 64) else BitVec.ofNat 64 v
  | _ => BitVec.ofNat 64 v

/-- All ones for a destination of `size` bytes. -/
def allOnes (size : Nat) : DWord := if size = 8 then -1 else 0xFFFFFFFF

/-! ### Full/empty bits -/

def State.wordEmpty (s : State) (a : Nat) : Bool := decide (a ∈ s.vt.empty)
def State.setEmptyBit (s : State) (a : Nat) (e : Bool) : State :=
  { s with vt := { s.vt with empty := if e then nins s.vt.empty a else ndel s.vt.empty a } }

/-- The vault address of an operation's word. -/
def MemOp.word (o : MemOp) : Nat := o.loc.key - vaultKey

/-- A full/empty operation can take effect now (R248). -/
def State.feReady (s : State) (o : MemOp) : Bool :=
  match o.kind with
  | .fe .ldvw | .fe .ldvt => !s.wordEmpty o.word
  | .fe .stvp => s.wordEmpty o.word
  | _ => true

/-- A release, a fence or an exit of a context under MIGRATE_MODE 1 writes back the lines with its tag (R352). -/
def State.releaseTag (s : State) (ctag : Nat) : State :=
  if s.vt.migrateMode then s.writeBack fun l => l.ctag == some ctag else s

/-- The effect of a full/empty operation on its word (R248): the value, the bit, and the lane goes on. -/
def State.feEffect (s0 : State) (o : MemOp) : State :=
  let s := o.lanes.foldl (fun s l => match o.kill with
    | some r => s.onLane l.sid fun st => st.kill64 r true
    | none => s) ((if ordReleases o.ord then s0.releaseTag o.ctag else s0).noteDone o [])
  let id := (o.lanes.head?.map (·.sid)).getD ⟨0, .lane, 0⟩
  let b := (o.lanes.head?.map (·.b)).getD 0
  let v := BitVec.ofNat 64 (natOfBytes (s.readHome o.loc.key 4))
  let s1 := match o.kind with
    | .fe .ldvw => s.finishLane o id (some v)
    | .fe .ldvt => (s.setEmptyBit o.word true).finishLane o id (some v)
    | _ => (((s.mend o.loc.key 4).writeHome o.loc.key (bytesOfNat 4 b.toNat)).setEmptyBit o.word false).finishLane o id none
  let s2 := s1.onLane id fun st => match st.park with
    | .fe n => if n = o.num then st.goto (st.pc + 8) else st
    | _ => st
  { s2.removeOp o.num with vt := { s2.vt with waiters := s2.vt.waiters.filter (· ≠ o.num) } }

/-- The oldest waiter on a word that can take effect: `ldvw` waiters on a change to full come first, then the oldest
`ldvt`; on a change to empty the oldest `stvp` (R229). -/
def State.nextWaiter (s : State) (a : Nat) : Option MemOp :=
  let ws := s.vt.waiters.filterMap fun n => s.op? n
  let here := ws.filter fun o => o.word == a && s.feReady o
  match here.find? fun o => o.kind == .fe .ldvw with
  | some o => some o
  | none => here.head?

/-- Serve the waiters of a word after a change of its bit (R229). -/
def State.serveWaiters (s : State) (a : Nat) : Nat → State
  | 0 => s
  | n + 1 => match s.nextWaiter a with
    | none => s
    | some o => (s.feEffect o).serveWaiters a n

/-- A word's bit is set, and the waiters served (R228, R229). -/
def State.setBit (s : State) (a : Nat) (empty : Bool) : State :=
  if s.wordEmpty a = empty then s
  else (s.setEmptyBit a empty).serveWaiters a (s.vt.waiters.length + 1)

/-- A full/empty operation arrives at its bank: it takes effect, or waits in its place (R229). -/
def State.feArrive (s : State) (o : MemOp) : State :=
  if s.feReady o then (s.feEffect o).serveWaiters o.word (s.vt.waiters.length + 1)
  else { s.onOp o.num (fun x => { x with phase := .waiting }) with
    vt := { s.vt with waiters := s.vt.waiters ++ [o.num] } }

/-! ### Ranges of the vault that the device zeroes (R61, R225, R228) -/

/-- Bytes set to zero and words full, in one piece of the bank's work: each word that was empty is full now and its waiters
are served, which may empty it again; so the work goes on until no word of the range is empty. -/
def State.clearVault (s : State) (a n : Nat) : Nat → State
  | 0 => (s.mend (vaultKey + a) n).zeroVault a n
  | fuel + 1 =>
    let ws := s.vt.empty.filter fun w => decide (a ≤ w) && decide (w < a + n)
    let s1 := (s.mend (vaultKey + a) n).zeroVault a n
    if ws.isEmpty then s1 else (ws.foldl (fun s w => s.serveWaiters w (s.vt.waiters.length + 1)) s1).clearVault a n fuel
/-- R228: every waiter on a word that has become full is served. -/
def State.fillVault (s : State) (a n : Nat) : State := s.clearVault a n (s.vt.waiters.length + 1)

/-- Accesses in a range of the vault that have not been performed and wait for nothing of the range itself: memory operations, tile
operations and Carter transfers (R225). -/
def State.vaultBusy (s : State) (a n : Nat) : Bool :=
  let within := fun (k size : Nat) => decide (k < vaultKey + a + n) && decide (vaultKey + a < k + size)
  (s.ops.any fun o => !o.isFence && o.loc.space == .vault && o.phase != .waiting && o.spans.any fun x => within x.1 x.2) ||
  (s.mx.ops.any fun o => o.mem.any fun r => r.any fun p => p.2.1.space == .vault && within p.2.1.key p.2.2) ||
  (s.qu.xfers.any fun x => x.elems.any fun e => e.any fun p => p.2.space == .vault && within p.2.key x.size)
/-- Waiters that a share leaves behind when it loses its role: their lanes execute their instructions again, and find the share
gone (R225, R233; log entry 104). -/
def State.turnAway (s : State) (a n : Nat) : State :=
  (s.ops.filter fun o => o.phase == .waiting && decide (a ≤ o.word) && decide (o.word < a + n)).foldl (fun s o =>
    let s1 := o.lanes.foldl (fun s l => (s.decCounter l.sid o.counter).onLane l.sid fun st => match st.park with
      | .fe k => if k = o.num then { st with park := .none } else st
      | _ => st) s
    { s1.removeOp o.num with vt := { s1.vt with waiters := s1.vt.waiters.filter (· ≠ o.num) } }) s

end Sys2Proof.Machine
end

