-- ==== Sys2Proof/Machine/Access.lean ====
section
/-! DEFINITION. Sys2Proof/Machine/Access.lean: the memory instructions, opcodes 0x8C to 0x9F (R242 to R258): their checks, and
the operations they issue, which later steps of the device perform. -/
namespace Sys2Proof.Machine

/-! ### Urgency (R134) -/

/-- The sum of a group's arrival positions over the recorded completions, and how many of them record it. -/
def Team.arrivalSum (t : Team) (g : Nat) : Nat × Nat :=
  t.urgency.foldl (fun acc order =>
    match order.findIdx? fun x => x = g with
    | some i => (acc.1 + i, acc.2 + 1)
    | none => acc) (0, 0)
/-- A group arrives later in the mean than another; ties go to the higher GIDX. -/
def Team.later (t : Team) (g h : Nat) : Bool :=
  let x := t.arrivalSum g
  let y := t.arrivalSum h
  decide (y.1 * x.2 < x.1 * y.2) || (y.1 * x.2 == x.1 * y.2 && decide (h < g))
/-- The urgent group of a team: none before its first completed `bar`. -/
def Team.urgent (t : Team) : Option Nat :=
  let gs := t.urgency.foldl (fun gs order => order.foldl nins gs) []
  gs.find? fun g => gs.all fun h => h == g || t.later g h
/-- A stream is a thread of the urgent group of its team. -/
def State.isUrgent (s : State) (id : SId) : Bool :=
  let t := s.team id.tcx
  id.kind == .lane && t.urgent == some (t.group id)

/-- The request for a line's priority: an access by an urgent group requests evict-last, on a hit as on a fill, another what its hint
asks for (R134, R236, R244). -/
def State.prioFor (s : State) (id : SId) (h : Hint) : Option Prio := if s.isUrgent id then some .last else hintPrio h
def State.fillRequest (s : State) (o : MemOp) : Option Prio :=
  match o.lanes.head? with
  | some l => s.prioFor l.sid o.hint
  | none => hintPrio o.hint

/-! ### The checks of an instruction's lanes -/

/-- The lanes' checks in ascending thread index; the first failing lane decides (R243). -/
def checkAll (f : SId → Except Fail α) : List SId → Except (SId × Fail) (List (SId × α))
  | [] => .ok []
  | id :: r => match f id with
    | .error e => .error (id, e)
    | .ok x => match checkAll f r with
      | .error e => .error e
      | .ok xs => .ok ((id, x) :: xs)

/-- A checked class-10 access goes to the space of its rank's descriptor (R336). -/
def State.place (s : State) (asid : BitVec 16) (c : Checked) : Checked :=
  if c.loc.space = .remote then { c with loc := { c.loc with space := s.space10 asid (BitVec.ofNat 64 c.va) } } else c

/-- A checked access of one lane: `n` bytes at `a`, aligned to `align`. -/
def State.checkAt (s : State) (id : SId) (ak : AK) (cl : Classes) (a : DWord) (n align : Nat) : Except Fail Checked :=
  let st := s.stream id
  match s.check st ak cl a n align with
  | .error e => .error e
  | .ok c => .ok (s.place (s.team id.tcx).recd.asid c)

/-! ### Waits before an access may issue -/

/-- An acquire of a stream loaded from an image waits for the flush of its context's tag (R352, R416). -/
def State.flushWait (s : State) (ids : List SId) : Bool :=
  ids.any fun id => match (s.stream id).flush with
    | some tag => decide (tag ∈ s.vt.flushing)
    | none => false

/-- The mask of an ordered access: STOR and its own space (R336). -/
def ordMask (scp : Bool) (stor : BitVec 5) (sp : Space) : BitVec 5 := if scp then stor ||| spaceBit sp else 0

/-- Pod, remote and host spaces. -/
def farMask : BitVec 5 := 0b11100

/-- What an access of the executing group has to wait for (R338): nothing; the accesses that an ordered access waits for;
or the ordered access that a later one waits for. -/
inductive FarWait where
  | go
  | park (mask : BitVec 5)
  | stall
deriving DecidableEq, Repr

def State.farWait (s : State) (scp : Bool) (ord : Order) (stor : BitVec 5) (cs : List (SId × Checked)) : FarWait :=
  let m := cs.foldl (fun m c => m ||| ordMask scp stor c.2.loc.space) 0 &&& farMask
  if scp && ord != .rlx && cs.any fun c => s.farPending c.1 (ordMask scp stor c.2.loc.space &&& farMask) then .park m
  else if cs.any fun c => s.farOrdered c.1 c.2.loc.space then .stall
  else .go

/-- The lanes of the executing group park at the instruction. -/
def State.parkLanes (s : State) (p : Park) : State :=
  s.onLanes s.cur.lanes fun st => st.parkAt p

/-- The reply buffers of a core (R330). -/
def replyBuffers : Nat := 256
/-- Requests of a core over UALink that are outstanding, up to an operation number: accesses, elements of transfers, and packets of
copies, a buffer for each (R330, log entry 116). -/
def State.repliesBefore (s : State) (core n : Nat) : Nat :=
  (s.ops.filter fun o => o.core == core && o.loc.space == .pod && decide (o.num < n)).length +
    ((s.dr.copies.filter fun c => c.id.core == core && decide (c.state < 2) && (match c.dest with | some (.pod _) => true | _ => false)).map fun c =>
      (c.packets.filter fun p => !p.acked).length).sum

/-- No reply buffer of the core is free for a request over UALink (R330). -/
def State.replyFull (s : State) (core : Nat) (cs : List (SId × Checked)) : Bool :=
  let need := (cs.filter fun c => c.2.loc.space == .pod).length
  decide (0 < need) && decide (replyBuffers < need + s.repliesBefore core s.nextOp)

/-! ### Issue of operations -/

/-- A class-10 access. -/
def Loc.ranked (l : Loc) : Bool := decide (2 ^ 63 ≤ l.key)

/-- The line that a load reads is resident in its virtual cache: it needs no memory node. -/
def State.cached (s : State) (o : MemOp) : Bool :=
  o.reads && !o.writes && (match s.cache? o.loc.vcid with
    | none => false
    | some c => (s.line? o.loc.vcid (c.repOf (o.core / 4)) o.loc.key).isSome)

/-- An operation that moves data to or from its bytes; a cache instruction or a query works on the device's own lines. -/
def MemOp.travels (o : MemOp) : Bool :=
  match o.kind with
  | .load _ | .store | .rmw _ _ | .hsig _ _ _ | .elemLoad _ _ _ | .elemStore _ | .block _ => true
  | _ => false
/-- The atomic that an operation asks for. -/
def MemOp.atom (o : MemOp) : Option RmwOp :=
  match o.kind with
  | .rmw op _ => some op
  | _ => none

/-- The request of a class-10 operation (R319, R361). -/
def State.outReq (s : State) (o : MemOp) (rt : Route) : OutReq :=
  ⟨o.num, rt.dest, BitVec.ofNat 64 o.loc.key, rt.token, if o.reads then o.size else 0,
    o.lanes.flatMap fun l => bytesOfNat 8 l.b.toNat ++ bytesOfNat 8 l.c.toNat, o.atom, s.gts, (s.job rt.slot).jid,
    (s.job rt.slot).rank, s.portTo rt.dest (BitVec.ofNat 64 o.loc.key)⟩

/-- The port that an access to a page of pod memory uses: the fixed one of its physical address, or the next in ascending order whose
link is up (R330, R331). -/
def State.podPort (s : State) (o : MemOp) : Option Nat :=
  s.links.portFrom (Config.ualinkPort (o.loc.key / 2 ^ 40) (o.loc.key / 4096))

/-- The phase in which an operation starts, and what it sends: a class-10 request leaves with its token, is served by the
device itself, or fails at its source (R316, R317, R319, R324); it does not leave before an earlier lane of its instruction that
touches the same bytes has been answered (R243). A pod access needs a port (R330); a request to the CXL expander is timed from its
sending, and times out at once while the link is down (R435). -/
def State.sendPhase (s : State) (asid : BitVec 16) (o : MemOp) : OpPhase × List Msg :=
  if !o.travels then (.issued, [])
  else if o.loc.ranked then
    match s.route asid (BitVec.ofNat 64 o.loc.key) with
    | .error r => (.failed cRemoteNack (r.setWidth 16), [])
    | .ok rt =>
      if rt.self then (.self (s.ownRequest rt.slot rt.token (BitVec.ofNat 64 o.loc.key)) rt.slot (s.job rt.slot), [])
      else if !s.mayPerform o then (.issued, [])
      else match rt.dest with
        | .pod _ =>
          if !s.links.anyPort then (.failed cPodPortDown 0, [])
          else (.sent s.gts 1 (s.outReq o rt).port, [.request (s.outReq o rt)])
        | .fabric _ => (.sent s.gts 1 none, [.request (s.outReq o rt)])
  else if o.loc.space = .pod then
    if s.links.anyPort || s.cached o then (.sent s.gts 1 (s.podPort o), []) else (.failed cPodPortDown 0, [])
  else if o.loc.cxl then
    if s.links.cxlUp || s.cached o then (.sent s.gts 1 none, []) else (.failed cLinkLost 0, [])
  else (.issued, [])

/-- Issue of one operation of the executing instruction, after the effects of its translation (R84, R130, R316). -/
def State.launchOp (s : State) (asid : BitVec 16) (o : MemOp) : State :=
  let (ph, ms) := s.sendPhase asid { o with num := s.nextOp }
  let s1 := s.issueOp { o with phase := ph }
  let s2 := { s1 with outbox := s1.outbox ++ ms }
  match s2.jobOf asid with
  | some n => if o.loc.ranked then s2.fillRank n (rankOf (BitVec.ofNat 64 o.loc.key)) else s2
  | none => s2

/-- The fields that the operations of one instruction share. -/
structure OpForm where
  kind : OpKind
  d : Reg
  size : Nat
  ord : Order
  scp : Bool
  agent : Agent
  stor : BitVec 5
  hint : Hint
  counter : Nat
deriving DecidableEq, Repr

/-- An operation of some lanes at a checked access. -/
def State.mkOp (s : State) (f : OpForm) (lanes : List OpLane) (entry : Option (Nat × Nat × Nat)) (c : Checked) : MemOp :=
  let id := (lanes.head?.map (·.sid)).getD ⟨0, .lane, 0⟩
  let t := s.team id.tcx
  { num := 0, kind := f.kind, lanes := lanes, d := f.d, entry := entry, va := BitVec.ofNat 64 c.va, loc := c.loc,
    size := f.size, ord := f.ord, scp := f.scp, agent := f.agent, mask := ordMask f.scp f.stor c.loc.space,
    hint := f.hint, core := t.coreOf id, ctag := t.tag id, counter := f.counter, phase := .issued, inst := s.issues + 1, kill := none }

/-- A class-10 request leaves when it issues: it may not issue while an earlier access that is ordered before it has not been
performed (R337, R340 to R342). -/
def State.remoteHeld (s : State) (f : OpForm) (cs : List (SId × Checked)) : Bool :=
  cs.any fun c => c.2.loc.ranked && !s.mayPerform { s.mkOp f [⟨c.1, 0, 0⟩] none c.2 with num := s.nextOp }

/-- Issue one operation per lane, in ascending thread index. -/
def State.issueAll (s : State) (f : OpForm) (ak : AK) (data : SId → DWord × DWord)
    (entry : SId → Option (Nat × Nat × Nat)) (cs : List (SId × Checked)) : State :=
  cs.foldl (fun s c =>
    let st := s.stream c.1
    let s1 := s.touch (s.who st) ak c.2
    s1.launchOp (s.team c.1.tcx).recd.asid
      (s1.mkOp f [⟨c.1, (data c.1).1, (data c.1).2⟩] (entry c.1) c.2)) s

/-- After an acquire has issued, the wait of R352 is over for its lanes. -/
def State.acquired (s : State) (ord : Order) (ids : List SId) : State :=
  if ordAcquires ord then s.onLanes ids fun st => { st with flush := none } else s

/-! ### The access mould (R242 to R248) -/

def Acc.bytes (o : Acc) : Nat := 2 ^ o.size.toNat
/-- The address of a lane (R242). -/
def accAddr (o : Acc) (st : Stream) : DWord := st.rd64 o.s1 + (o.off.signExtend 64 <<< o.size.toNat)
def accForm (o : Acc) (kind : OpKind) (ctr : Nat) : OpForm :=
  ⟨kind, o.d, 2 ^ o.size.toNat, o.ord, o.scp, o.agent, o.stor, o.hint, ctr⟩
/-- The data of a store in one lane (R246). -/
def accData (o : Acc) (st : Stream) : DWord := if o.size = 3 then st.rd64 o.d else (st.rd o.d).setWidth 64

/-- Reserve one entry of a queue for each group that loads into it (R246, R263): the entries by group. -/
def State.reserveLoads (s : State) (key : Nat) (t : Team) (ids : List SId) : List Nat → List (Nat × Nat) × State
  | [] => ([], s)
  | g :: gs =>
    let mine := ids.filter fun id => id.kind ≠ .lane || t.group id = g
    let (serial, s1) := s.reserveEntry key (maskOf (mine.map t.lane)) mine.length
    let (r, s2) := s1.reserveLoads key t ids gs
    ((g, serial) :: r, s2)

/-- The entry that receives the value of a lane, among those reserved for the groups of its issue group. -/
def entryFor (t : Team) (key : Nat) (es : List (Nat × Nat)) (id : SId) : Option (Nat × Nat × Nat) :=
  (es.find? fun e => id.kind ≠ .lane || e.1 = t.group id).map fun e => (key / 32, key % 32, e.2)

/-- The instruction once its checks have passed: the waits of R131, R263, R330 and R338, then its operations. -/
def State.accessGo (s : State) (o : Acc) (f : OpForm) (ak : AK) (ids : List SId) (cs : List (SId × Checked)) : State :=
  let t := s.curTeam
  let gs := s.groupsOf ids
  let key := ((ids.head?).bind fun id => s.portKey id o.d).getD 0
  let port := Reg.isPort o.d
  let done := fun (s : State) => (s.acquired o.ord ids).retireLanes o.g fun st => st.kill64 o.s1 o.k1
  if s.windowed && cs.any (fun c => !c.2.loc.space.local || c.2.marks ak) then s.stalled
  else if s.replyFull ((ids.head?.map t.coreOf).getD 0) cs || s.remoteHeld f cs then s.stalled
  else match s.farWait o.scp o.ord o.stor cs with
    | .park m => s.parkLanes (.fence m)
    | .stall => s.stalled
    | .go =>
      -- a release that leaves the device now has its writes behind it (R352)
      let s0 := if ordReleases o.ord && cs.any (fun c => c.2.loc.ranked) then s.releaseTag s.curTag else s
      if !port then done (s0.issueAll f ak (fun id => (accData o (s.stream id), 0)) (fun _ => none) cs)
      else if ak.writes then
        match s0.popSrcs ids gs [o.d] with
        | none => s.stalled
        | some (pss, s1) =>
          done (s1.issueAll f ak (fun id => ((popped t (pss.headD []) id).setWidth 64, 0)) (fun _ => none) cs)
      else if s.freeOf key < gs.length then s.stalled
      else
        let (es, s1) := s0.reserveLoads key t ids gs
        done (s1.issueAll f ak (fun _ => (0, 0)) (entryFor t key es) cs)

/-- An access instruction (R246): the port of D, the counter, then the checks of R70 in every lane (R243). -/
def State.access (s : State) (o : Acc) (kind : OpKind) (ak : AK) (cl : Classes) (ctr : Nat) : State :=
  let ids := s.active o.g
  match ids.head? with
  | none => s.retireLanes o.g id
  | some low =>
    if Reg.isPort o.d && (s.portKey low o.d).isNone then s.trapLow o.g cIllegalOperand
    else if s.counterFull ids ctr || (ordAcquires o.ord && s.flushWait ids) then s.stalled
    else
      match checkAll (fun id => s.checkAt id ak cl (accAddr o (s.stream id)) (2 ^ o.size.toNat) (2 ^ o.size.toNat)) ids with
      | .error (id, e) => s.failLane o.g ak (s.stream id) e
      | .ok cs => s.accessGo o (accForm o kind ctr) ak ids cs

/-- R246. -/
def execLd (o : Acc) (s : State) : Out := .next (s.access o (.load o.sx) .load allClasses 0)
def execSt (o : Acc) (s : State) : Out := .next (s.access o .store .store allClasses 1)
/-- R247: the model returns the value an `ld` would return, which R247 allows. -/
def execLdro (o : Acc) (s : State) : Out := .next (s.access o (.load o.sx) .load class00 0)
/-- R248. -/
def execLdv (o : Acc) (s : State) : Out := .next (s.access o (.load o.sx) .load vaultOnly 0)
def execStv (o : Acc) (s : State) : Out := .next (s.access o .store .store vaultOnly 1)

/-! ### Full/empty accesses (R248, R249) -/

/-- Some lane would park: the lanes in ascending thread index, each with the effects of the earlier ones (R249). -/
def feBlocks (op : FeOp) : List Nat → List (SId × Nat) → Option SId
  | _, [] => none
  | empties, (id, w) :: r =>
    let e := decide (w ∈ empties)
    match op with
    | .ldvw => if e then some id else feBlocks op empties r
    | .ldvt => if e then some id else feBlocks op (nins empties w) r
    | .stvp => if e then feBlocks op (ndel empties w) r else some id
    | .stvf => feBlocks op (ndel empties w) r

/-- One lane of a full/empty instruction has issued its operation `n` (R248). `stvf` waits for nothing, and its lane goes on. The
others act at their bank at once where no earlier access is ordered before them, and park where their word is not in the state
they wait for; the lane goes on when its own word has been served. -/
def State.feLane (s : State) (o : Acc) (op : FeOp) (id : SId) (n : Nat) : State :=
  match s.op? n with
  | none => s
  | some x =>
    if op = .stvf then s.onLane id fun st => (st.kill64 o.s1 o.k1).goto s.cur.npc
    else if !s.mayPerform x then
      (s.onOp n fun x => { x with kill := if o.k1 then some o.s1 else none }).onLane id fun st =>
        { st.parkAt (.fe n) with pc := s.cur.pc }
    else if s.feReady x then
      let s1 := s.onLane id fun st => (st.kill64 o.s1 o.k1).goto s.cur.npc
      (s1.feEffect x).serveWaiters x.word (s.vt.waiters.length + 1)
    else
      ((s.onOp n fun x => { x with kill := if o.k1 then some o.s1 else none }).onLane id fun st =>
        { st.parkAt (.fe n) with pc := s.cur.pc }).feArrive { x with kill := if o.k1 then some o.s1 else none }

/-- The lanes of a full/empty instruction issue their operations, one after another (R229, R248). -/
def State.feIssue (s : State) (o : Acc) (op : FeOp) (ctr : Nat) (port : Option Nat) (pss : List (List (Nat × QEntry)))
    (entry : SId → Option (Nat × Nat × Nat)) (cs : List (SId × Checked)) : State :=
  let t := s.curTeam
  let s1 := s.skipLanes o.g
  cs.foldl (fun s c =>
    let st := s.stream c.1
    let v : DWord := match port with
      | some _ => (popped t (pss.headD []) c.1).setWidth 64
      | none => (st.rd o.d).setWidth 64
    (s.launchOp t.recd.asid (s.mkOp { accForm o (.fe op) ctr with size := 4 } [⟨c.1, v, 0⟩] (entry c.1) c.2)).feLane o op c.1 s.nextOp) s1

/-- `ldvw`, `ldvt`, `stvp` and `stvf` (R248, R249). -/
def State.feAccess (s : State) (o : Acc) (op : FeOp) (ctr : Nat) : State :=
  let ids := s.active o.g
  let ak : AK := if ctr = 0 then .load else .store
  match ids.head? with
  | none => s.retireLanes o.g id
  | some low =>
    if Reg.isPort o.d && (s.portKey low o.d).isNone then s.trapLow o.g cIllegalOperand
    else if s.counterFull ids ctr || (ordAcquires o.ord && s.flushWait ids) then s.stalled
    else
      match checkAll (fun id => s.checkAt id ak vaultOnly (accAddr o (s.stream id)) 4 4) ids with
      | .error (id, e) => s.failLane o.g ak (s.stream id) e
      | .ok cs =>
        let t := s.curTeam
        let traps := t.recd.feTrap && op != .stvf
        -- the test and the effects are one step, after what is ordered before them: with FE_TRAP no lane may park afterwards (R249,
        -- R337)
        if traps && cs.any (fun c =>
            !s.mayPerform { s.mkOp { accForm o (.fe op) ctr with size := 4 } [⟨c.1, 0, 0⟩] none c.2 with num := s.nextOp }) then s.stalled
        else match (if traps then feBlocks op s.vt.empty (cs.map fun c => (c.1, c.2.loc.key - vaultKey)) else none) with
        | some id => s.trap7 o.g cFeTrap id (accAddr o (s.stream id))
        | none =>
          match s.farWait o.scp o.ord o.stor cs with
          | .park m => s.parkLanes (.fence m)
          | .stall => s.stalled
          | .go =>
            let gs := s.groupsOf ids
            let key := (s.portKey low o.d).getD 0
            let s0 := s.acquired o.ord ids
            if !Reg.isPort o.d then s0.feIssue o op ctr none [] (fun _ => none) cs
            else if ctr = 1 then
              match s0.popSrcs ids gs [o.d] with
              | none => s.stalled
              | some (pss, s1) => s1.feIssue o op ctr (some key) pss (fun _ => none) cs
            else if s.freeOf key < gs.length then s.stalled
            else
              let (es, s1) := s0.reserveLoads key t ids gs
              s1.feIssue o op ctr none [] (entryFor t key es) cs

def execLdvw (o : Acc) (s : State) : Out := .next (s.feAccess o .ldvw 0)
def execLdvt (o : Acc) (s : State) : Out := .next (s.feAccess o .ldvt 0)
def execStvp (o : Acc) (s : State) : Out := .next (s.feAccess o .stvp 1)
def execStvf (o : Acc) (s : State) : Out := .next (s.feAccess o .stvf 1)

/-! ### Prefetch (R250) -/

/-- The fill that one lane asks for: a resident line is raised, another is filled; a failed check, another class, VCID 0
and a replicated cache give nothing. -/
def State.prefetch (s : State) (o : Acc) (id : SId) : State :=
  let st := s.stream id
  match s.checkAt id .load class00 (accAddr o st) 1 1 with
  | .error _ => s
  | .ok c =>
    match s.cache? c.loc.vcid with
    | none => s
    -- a page that cannot be reached now is not fetched, so that a later access fails as it would without the request; nor, inside an
    -- open window, one of another device or one whose first use this would be (R126)
    | some v =>
      if v.repl || s.linkDown c.loc || s.poisoned (c.loc.key / v.line * v.line) v.line ||
          (st.window.isSome && (!c.loc.space.local || c.marks .load)) then s
      else (s.touch (s.who st) .load c).loadTouch c.loc ((s.team id.tcx).cluster) (s.prioFor id o.hint)
/-- R250: never traps. -/
def execPrf (o : Acc) (s : State) : Out :=
  .next (((s.active o.g).foldl (fun s id => s.prefetch o id) s).retireLanes o.g id)

/-! ### The range mould (R251 to R254) -/

/-- Bytes from `a` on, in pages: the first byte of the range in each 4 KiB page that it touches. -/
def pageStarts (a l : Nat) : List Nat :=
  if l = 0 then [] else a :: (List.range ((a + l - 1) / 4096 - a / 4096)).map fun i => (a / 4096 + i + 1) * 4096

/-- R251: a range that wraps, or leaves its class or the zero bits of it. -/
def rangeBad (cl : Classes) (a : DWord) (l : Nat) : Bool :=
  let last := a.toNat + (l - 1)
  !classOk cl a || decide (2 ^ 64 ≤ last) || !classOk cl (BitVec.ofNat 64 last) || decide (last / 2 ^ 62 ≠ a.toNat / 2 ^ 62)

/-- One page of a cache instruction's range (R253): skipped, or the lines' location and bytes; or a permission failure. -/
def State.rangePage (s : State) (w : Who) (va n : Nat) (needW : Bool) : Except Fail (Option (Loc × Nat)) :=
  match s.xlate w.at_ w.die w.asid va false with
  | .error _ => .ok none
  | .ok (leaf, pva, _) =>
    if leaf.vcid = 0 then .ok none
    else if (needW && !leaf.w) || (!w.priv && !leaf.u) then .error (.page va (.fault cPagePermission 0 false))
    else .ok (some (leafLoc leaf pva va, n))

/-- The pages of a lane's range in ascending address. -/
def State.rangePages (s : State) (w : Who) (needW : Bool) (top : Nat) : List Nat → Except Fail (List (Loc × Nat))
  | [] => .ok []
  | va :: r =>
    match s.rangePage w va (min top ((va / 4096 + 1) * 4096) - va) needW with
    | .error e => .error e
    | .ok x => match s.rangePages w needW top r with
      | .error e => .error e
      | .ok xs => .ok (x.toList ++ xs)

/-- The check of one lane of a cache instruction: the pieces it acts on. -/
def State.rangeCheck (s : State) (o : Rng) (needW : Bool) (id : SId) : Except Fail (List (Loc × Nat)) :=
  let st := s.stream id
  let a := st.rd64 o.s1
  let l := (st.rd o.s2).toNat
  if l = 0 then .ok []
  else if rangeBad allClasses a l then .error (.trap cAddressClass a)
  else if a.toNat / 2 ^ 62 ≠ 0 then .ok []
  else match s.redirect st a l with
    | .error e => .error e
    | .ok va => s.rangePages (s.who st) needW (va + l) (pageStarts va l)

/-- The effects of the walks that a lane's range has needed (R84, R88). -/
def State.touchRange (s : State) (o : Rng) (id : SId) : State :=
  let st := s.stream id
  let a := st.rd64 o.s1
  let l := (st.rd o.s2).toNat
  let w := s.who st
  if l = 0 || a.toNat / 2 ^ 62 != 0 then s
  else match s.redirect st a l with
    | .error _ => s
    | .ok va => (pageStarts va l).foldl (fun s va => s.touchRead w va) s

def rngForm (kind : OpKind) : OpForm := ⟨kind, 0, 0, .rlx, false, .thr, 0, .none, 1⟩
/-- Both operands of a range instruction are killed where marked (R242, R251). -/
def rngKill (o : Rng) (st : Stream) : Stream := (st.kill64 o.s1 o.k1).kill o.s2 o.k2

/-- `cwb`, `cflush`, `cinval` and `cprio` (R253, R254): each lane with bytes to act on counts once on STC. -/
def State.rangeOp (s : State) (o : Rng) (op : RangeOp) (needW : Bool) : State :=
  let ids := s.active o.g
  if s.counterFull ids 1 then s.stalled
  else match checkAll (s.rangeCheck o needW) ids with
    | .error (id, e) => s.failLane o.g .store (s.stream id) e
    | .ok cs =>
      let s0 := ids.foldl (fun s id => s.touchRange o id) s
      let s1 := cs.foldl (fun s c =>
        if (s.stream c.1).rd o.s2 = 0 then s
        else
          let l : Loc := (c.2.head?.map (·.1)).getD ⟨.dev, 0, 0, false⟩
          s.launchOp 0 (s.mkOp (rngForm (.range op c.2)) [⟨c.1, 0, 0⟩] none ⟨{ l with space := .dev, cxl := false }, 0, none⟩)) s0
      s1.retireLanes o.g (rngKill o)

def execCwb (o : Rng) (s : State) : Out := .next (s.rangeOp o .wb false)
def execCflush (o : Rng) (s : State) : Out := .next (s.rangeOp o .flush false)
def execCinval (o : Rng) (s : State) : Out := .next (s.rangeOp o .inval true)
def execCprio (o : Rng) (p : Prio) (s : State) : Out := .next (s.rangeOp o (.prio p) false)

/-- The checks of `femk` in one lane (R252): class and wrap, ALIGNMENT, the length, then every byte under R72. -/
def State.femkCheck (s : State) (o : Rng) (id : SId) : Except Fail Checked :=
  let st := s.stream id
  let a := st.rd64 o.s1
  let l := (st.rd o.s2).toNat
  if l = 0 then .ok ⟨⟨.vault, vaultKey, 0, false⟩, a.toNat, none⟩
  else if rangeBad vaultOnly a l then .error (.trap cAddressClass a)
  else if a.toNat % 4 ≠ 0 || l % 4 ≠ 0 then .error (.trap cAlignment a)
  else if 65536 < l then .error (.trap cIllegalOperand 0)
  else match s.vaultBad (s.team id.tcx).recd.asid (a.toNat % 2 ^ 32) l with
    | some b => .error (.trap cVaultRange (0x4000000000000000 + BitVec.ofNat 64 b))
    | none => .ok ⟨⟨.vault, vaultKey + a.toNat % 2 ^ 32, 0, false⟩, a.toNat, none⟩

def execFemk (o : Rng) (full : Bool) (s : State) : Out :=
  let ids := s.active o.g
  .next (
    if s.counterFull ids 1 then s.stalled
    else match checkAll (s.femkCheck o) ids with
      | .error (id, e) => s.failLane o.g .store (s.stream id) e
      | .ok cs =>
        let s1 := cs.foldl (fun s c =>
          let l := ((s.stream c.1).rd o.s2).toNat
          if l = 0 then s else s.launchOp 0 (s.mkOp (rngForm (.femk l full)) [⟨c.1, 0, 0⟩] none c.2)) s
        s1.retireLanes o.g (rngKill o))

/-! ### Queries and addresses (R255 to R258) -/

/-- A query (R255, R256): one operation per lane on LDC, its result a 32-bit value, which a queue port in D takes as a load's
(R110, R263, R265). -/
def State.query (s : State) (o : Qry) (kind : Checked → OpKind) (check : SId → Except Fail Checked) : State :=
  let ids := s.active o.g
  let unbound := Reg.isPort o.d && (ids.head?.any fun low => (s.portKey low o.d).isNone)
  if unbound then s.trapLow o.g cIllegalOperand
  else if s.counterFull ids 0 then s.stalled
  else match checkAll check ids with
    | .error (id, e) => s.failLane o.g .load (s.stream id) e
    | .ok cs =>
      let t := s.curTeam
      let gs := s.groupsOf ids
      let key := ((ids.head?).bind fun id => s.portKey id o.d).getD 0
      if Reg.isPort o.d && s.freeOf key < gs.length then s.stalled
      else
        let (es, s0) := if Reg.isPort o.d then s.reserveLoads key t ids gs else ([], s)
        let s2 := cs.foldl (fun s c =>
          let s1 := s.touch (s.who (s.stream c.1)) .load c.2
          s1.launchOp 0 (s1.mkOp ⟨kind c.2, o.d, 4, .rlx, false, .thr, 0, .none, 0⟩ [⟨c.1, 0, 0⟩] (entryFor t key es c.1) c.2)) s0
        s2.retireLanes o.g fun st => st.kill64 o.s1 o.k1

/-- R255. -/
def execFeqry (o : Qry) (s : State) : Out :=
  .next (s.query o (fun _ => .feqry) fun id => s.checkAt id .load vaultOnly ((s.stream id).rd64 o.s1) 128 4)

/-- The check of `vcq`: as a load, without VC_UNDEFINED (R256). -/
def State.vcqCheck (s : State) (id : SId) (a : DWord) : Except Fail Checked :=
  let st := s.stream id
  if !classOk class00 a then .error (.trap cAddressClass a)
  else match s.redirect st a 1 with
    | .error e => .error e
    | .ok va =>
      let w := s.who st
      match s.xlate w.at_ w.die w.asid va false with
      | .error f => .error (.page va f)
      | .ok (leaf, pva, wk) =>
        if !w.priv && !leaf.u then .error (.page va (.fault cPagePermission 0 false))
        else .ok ⟨leafLoc leaf pva va, va, wk⟩
/-- R256. -/
def execVcq (o : Qry) (s : State) : Out :=
  .next (s.query o (fun c => .vcq 0 (BitVec.ofNat 64 c.va)) fun id => s.vcqCheck id ((s.stream id).rd64 o.s1))

/-- R257: the backing address of a private address; another address unchanged. -/
def execPtoa (o : Qry) (s : State) : Out :=
  let f := fun id => s.redirect (s.stream id) ((s.stream id).rd64 o.s1) 1
  .next (
    match checkAll f (s.active o.g) with
    | .error (id, e) => s.failLane o.g .load (s.stream id) e
    | .ok _ =>
      s.retireLanes o.g fun st =>
        match s.redirect st (st.rd64 o.s1) 1 with
        | .ok va => (st.kill64 o.s1 o.k1).wr64 o.d (BitVec.ofNat 64 va)
        | .error _ => st)

/-- The check of `sgacq` and `sgrel` (R258): none where the instruction has no effect. -/
def State.sgCheck (s : State) (acq : Bool) (id : SId) (a : DWord) : Except Fail (Option Checked) :=
  let st := s.stream id
  if !classOk allClasses a then .error (.trap cAddressClass a)
  else if a.toNat / 2 ^ 62 ≠ 0 then .ok none
  else match s.redirect st a 1 with
    | .error e => .error e
    | .ok va =>
      let w := s.who st
      match s.xlate w.at_ w.die w.asid va false with
      | .error f => .error (.page va f)
      | .ok (leaf, pva, wk) =>
        if leaf.vcid = 0 || (match s.cache? leaf.vcid with | some c => !c.repl | none => false) then .ok none
        else if (acq && !leaf.w) || (!w.priv && !leaf.u) then .error (.page va (.fault cPagePermission 0 false))
        else if !s.vcUsable leaf.vcid then .error (.trap cVcUndefined (BitVec.ofNat 64 va))
        else .ok (some ⟨leafLoc leaf pva va, va, wk⟩)

/-- R258: lanes that name one segment of one cache act once; each lane counts once on STC. -/
def State.sgOp (s : State) (g : Guard) (s1 : Reg) (k1 acq : Bool) : State :=
  let ids := s.active g
  if s.counterFull ids 1 then s.stalled
  else match checkAll (fun id => s.sgCheck acq id ((s.stream id).rd64 s1)) ids with
    | .error (id, e) => s.failLane g .load (s.stream id) e
    | .ok cs =>
      let hits : List (SId × Checked) := cs.filterMap fun c => c.2.map fun x => (c.1, x)
      let segs := hits.foldl (fun ks c => nins ks (c.2.loc.key / 4096)) []
      let s2 := hits.foldl (fun s c => s.touch (s.who (s.stream c.1)) .load c.2) s
      let s3 := segs.foldl (fun s seg =>
        let mine := hits.filter fun c => c.2.loc.key / 4096 = seg
        match mine.head? with
        | none => s
        | some c => s.launchOp 0 (s.mkOp ⟨.sg acq, 0, 1, .rlx, false, .thr, 0, .none, 1⟩
            (mine.map fun c => ⟨c.1, 0, 0⟩) none c.2)) s2
      s3.retireLanes g fun st => st.kill64 s1 k1

def execSgacq (g : Guard) (s1 : Reg) (k1 : Bool) (s : State) : Out := .next (s.sgOp g s1 k1 true)
def execSgrel (g : Guard) (s1 : Reg) (k1 : Bool) (s : State) : Out := .next (s.sgOp g s1 k1 false)

end Sys2Proof.Machine
end

