-- ==== Sys2Proof/Machine/Directory.lean ====
section
/-! DEFINITION. Sys2Proof/Machine/Directory.lean: the segment directory of replicated caches (R234, R235, R239), and coherent
reads and writes of memory by the device's own agents. -/
namespace Sys2Proof.Machine

def State.dir (s : State) (seg : Nat) : Dir := sget .I s.vt.dirs seg
def State.setDir (s : State) (seg : Nat) (d : Dir) : State :=
  { s with vt := { s.vt with dirs := sset .I s.vt.dirs seg d } }

/-- The segment of a key. -/
def segOf (k : Nat) : Nat := k / 4096
/-- A line of a replica that lies in a segment. -/
def Line.inSeg (l : Line) (seg : Nat) : Bool := l.rep.isSome && l.base / 4096 == seg
/-- A segment held by a set of sharers: S, or I when there is none. -/
def dirOfSharers (set : List Nat) : Dir := if set = [] then .I else .S set
/-- The replica of a cluster holds a line of the segment. -/
def State.holds (s : State) (seg c : Nat) : Bool := s.vt.lines.any fun l => l.inSeg seg && l.rep == some c
/-- Every replica but c's is invalidated in the segment. -/
def State.invalidateOthers (s : State) (seg c : Nat) : State := s.dropLines fun l => l.inSeg seg && l.rep != some c
/-- The lines of replica o in the segment are written back. -/
def State.flushOwner (s : State) (seg o : Nat) : State := s.writeBack fun l => l.inSeg seg && l.rep == some o

/-- The directory has made the transition that an `sgacq` or `sgrel` asked for: its lanes' count falls (R258). -/
def State.finishSg (s : State) (o : MemOp) : State := (o.lanes.foldl (fun s l => s.finishLane o l.sid none) s).removeOp o.num
/-- Segment instructions whose transition is in transit in a segment. -/
def State.sgWaiting (s : State) (seg : Nat) : List MemOp :=
  s.ops.filter fun o => o.phase == .left && segOf o.loc.key == seg && (match o.kind with | .sg _ => true | _ => false)

/-- The end of a transit: the state that follows, and with it the segment instructions that asked for it (R234, R258). -/
def State.transitEnd (s : State) (seg : Nat) : State :=
  match s.dir seg with
  | .T set owner =>
    (s.sgWaiting seg).foldl State.finishSg (s.setDir seg (match owner with | some o => .O o | none => dirOfSharers set))
  | _ => s

/-- `d` held in transit: what a step that writes back or invalidates leaves until it ends. -/
def transit (d : Dir) : Dir :=
  match d with
  | .S set => .T set none
  | .O c => .T [] (some c)
  | _ => .T [] none

/-- A directory entry is evicted (R234). A store of its own cluster that is on its way stays visible there (R235, R351). -/
def State.dirDrop (s : State) (seg : Nat) : State :=
  match s.dir seg with
  | .S _ => (s.dropLines fun l => l.inSeg seg).setDir seg (transit .I)
  | .O o => ((s.flushOwner seg o).dropLines fun l => l.inSeg seg).setDir seg (transit .I)
  | _ => s

/-- The home slice of a segment is that of its first line, PA[11:8] = 0: slice 16 × stack for local memory (R74). -/
def segHome (seg : Nat) : Nat := seg * 4096 / 2 ^ 36
/-- Entries that a home slice holds; a new entry evicts one where all 8,192 are taken, and which one is a free choice (R235;
log entry 12). -/
def State.dirRoom (s : State) (seg : Nat) : State :=
  let mine := s.vt.dirs.filter fun e => segHome e.1 == segHome seg
  if mine.length < 8192 || mine.any (fun e => e.1 == seg) then s
  else
    -- an entry in transit goes only where every one is, and then once its transit has ended (R234)
    let calm := mine.filter fun e => match e.2 with | .T _ _ => false | _ => true
    let cands := if calm.isEmpty then mine else calm
    match cands[Config.pick s.free % cands.length]? with
    | some e => { ((s.transitEnd e.1).dirDrop e.1).transitEnd e.1 with free := s.free + 1 }
    | none => s

/-- A read miss from replica c in a segment that is not in transit (R234): the line is filled. -/
def State.dirRead (s0 : State) (v : VCache) (c key : Nat) (req : Option Prio) : State :=
  let seg := segOf key
  let s := s0.dirRoom seg
  let s1 := match s.dir seg with
    | .I => s.setDir seg (.S [c])
    | .S set => s.setDir seg (.S (nins set c))
    | .O o => if o = c then s else (s.flushOwner seg o).setDir seg (transit (.S (nins [o] c)))
    | .T _ _ => s
  s1.fillLine v (some c) key req

/-- A store of `bs` at `key` from replica c reaches the home slice (R234). -/
def State.dirWrite (s : State) (c key : Nat) (bs : List Byte) : State :=
  let seg := segOf key
  let after := fun (s : State) => if s.holds seg c then Dir.S [c] else Dir.I
  match s.dir seg with
  | .I => s.putHome key bs
  | .S set =>
    let s1 := (s.putHome key bs).invalidateOthers seg c
    s1.setDir seg (if set = [c] then after s1 else transit (after s1))
  | .O o =>
    if o = c then s.putHome key bs
    else
      let s1 := (((s.flushOwner seg o).dropLines fun l => l.inSeg seg && l.rep == some o).putHome key bs).invalidateOthers seg c
      s1.setDir seg (transit (after s1))
  | .T _ _ => s

/-- `sgacq` from replica c (R234). -/
def State.dirAcquire (s0 : State) (c seg : Nat) : State :=
  let s := s0.dirRoom seg
  match s.dir seg with
  | .I => s.setDir seg (.O c)
  | .S set => (s.invalidateOthers seg c).setDir seg (if set = [c] then .O c else transit (.O c))
  | .O o =>
    if o = c then s
    else ((s.flushOwner seg o).dropLines fun l => l.inSeg seg && l.rep == some o).setDir seg (transit (.O c))
  | .T _ _ => s

/-- `sgrel` from replica c (R234). -/
def State.dirRelease (s : State) (c seg : Nat) : State :=
  match s.dir seg with
  | .O o => if o = c then (s.flushOwner seg c).setDir seg (transit (.S [c])) else s
  | _ => s

/-- A store updates replica c's line where it is present (R234, R351); `dirty` under O. A write-around cache invalidates the
line instead (R232). -/
def State.replicaPut (s : State) (vcid c key : Nat) (bs : List Byte) (dirty : Bool) (ctag : Option Nat) (req : Option Prio) : State :=
  let here := fun (l : Line) => l.vcid == vcid && l.rep == some c && l.covers key
  match s.cache? vcid with
  | none => s
  | some v =>
    if v.wpol == .around then s.dropLines here
    else (s.moveLine v (some c) key).onLines here fun l =>
      { l.put key bs with dirty := l.dirty || dirty, prio := raisePrio l.prio req,
                          ctag := if dirty then ctag else l.ctag, bad := granulesLeft l.bad key bs.length }

/-- A store from replica c stays local: the cache writes back, c owns the segment and holds the line (R232, R234). -/
def State.staysLocal (s : State) (v : VCache) (c key : Nat) : Bool :=
  v.wpol == .back && s.dir (segOf key) == .O c && (s.line? v.vcid (some c) key).isSome

/-! ### Stores on their way to the home slice -/

/-- A store through a replica that has left for the home slice and touches these bytes (R351). -/
def MemOp.leftOver (o : MemOp) (key n : Nat) : Bool :=
  o.isLeft && decide (o.loc.key < key + n) && decide (key < o.loc.key + o.size)
/-- No other store is on its way to the home slice of these bytes. -/
def State.quiet (s : State) (num key n : Nat) : Bool := s.ops.all fun o => o.num == num || !o.leftOver key n

/-- The bytes a store writes. -/
def MemOp.bytes (o : MemOp) : List Byte :=
  bytesOfNat o.size ((o.lanes.head?.map OpLane.b).getD 0).toNat

/-- The cluster of an operation's core, and its serving replica. -/
def MemOp.cluster (o : MemOp) : Nat := o.core / 4
/-- A store that has left arrives at its home slice (R234). The replica that serves it then may be another than the one it has left
through, which a migration has withdrawn: its line takes the store too (R239). -/
def State.arriveLeft (s : State) (c : VCache) (o : MemOp) : State :=
  let r := c.replica o.cluster
  (s.replicaPut c.vcid r o.loc.key o.bytes false none none).dirWrite r o.loc.key o.bytes
/-- A store that has left is written at its home slice and is performed. -/
def State.finishLeft (s : State) (o : MemOp) : State :=
  match s.cache? o.loc.vcid with
  | none => s
  | some c =>
    let s1 := (s.transitEnd (segOf o.loc.key)).arriveLeft c o
    (o.lanes.foldl (fun s l => s.finishLane o l.sid none) (s1.noteDone o [])).removeOp o.num

/-- Before another agent writes bytes, the stores on their way there arrive (R351). -/
def State.settle (s : State) (key n : Nat) : State :=
  (s.ops.filter fun o => o.leftOver key n).foldl State.finishLeft s

/-! ### Loads -/

/-- A load's bytes through its virtual cache: a hit raises the line's priority, a miss fills it (R231, R232, R234, R236). -/
def State.loadBytes (s : State) (o : MemOp) : List Byte × State :=
  match s.cache? o.loc.vcid with
  | none => (s.readHome o.loc.key o.size, s)
  | some c =>
    let s1 := s.countLookup o.loc o.cluster o.ctag
    let there := s1.cached o
    let s2 := if there then s1.loadTouch o.loc o.cluster (s.fillRequest o)
      else if c.repl then s1.dirRead c (c.replica o.cluster) o.loc.key (s.fillRequest o)
      else s1.loadTouch o.loc o.cluster (s.fillRequest o)
    (s2.peek o.loc o.cluster o.size, s2)

/-- The function of an operation. -/
def State.opFn (s : State) (o : MemOp) : Nat := (s.team ((o.lanes.head?.map (·.sid.tcx)).getD 0)).fn
/-- A load of the device's own memory, a memory node's, the host's or the expander's: its bytes, or the cause of its failure
(R330, R418, R419, R433, R435). -/
def State.loadLocal (s : State) (o : MemOp) : Except Cause (List Byte) × State :=
  if s.linkDown o.loc && !(o.loc.space == .pod && s.cached o) then (.error (lostCause o.loc), s.lostRead o.loc)
  else if s.shutHost (s.opFn o) o.loc then (.error cLinkLost, s)
  else match (if o.xfer.isSome then s.flawed o.loc o.cluster o.size
      else if s.spoiled o.loc o.cluster o.size then some cPoison else none) with
    | some e => (.error e, s)
    | none =>
      let (bs, s1) := s.loadBytes o
      (.ok bs, s1)



/-- Stores of other streams that a load through its replica has seen before they are performed (R344, R351). -/
def State.earlyStores (s : State) (o : MemOp) : List Nat :=
  match s.cache? o.loc.vcid with
  | none => []
  | some c =>
    if !c.repl then []
    else (s.ops.filter fun w => w.isLeft && w.loc.vcid == o.loc.vcid && w.num != o.num && w.overlaps o &&
      c.replica w.cluster == c.replica o.cluster && !(o.lanes.any fun l => w.ofStream l.sid)).map (·.num)
/-- The marker that such a read leaves until they are. -/
def State.markSeen (s : State) (o : MemOp) (ws : List Nat) : State :=
  if ws.isEmpty then s
  else { s with ops := s.ops ++ [{ o with kind := .seen ws, d := 0, entry := none, phase := .issued }] }
/-- The same for a read that is made as it issues, which has no number of its own yet (R344). -/
def State.noteEarly (s : State) (o : MemOp) : State :=
  let ws := s.earlyStores o
  if ws.isEmpty then s else { s.markSeen o ws with nextOp := s.nextOp + 1 }

/-! ### Accesses of engines, Loom and the device itself -/

/-- A write of a whole poisoned granule clears its mark, and one of a whole vault word its error (R240). -/
def State.clearPoison (s : State) (k n : Nat) : State :=
  { s.mend k n with vt := { (s.mend k n).vt with poison := granulesLeft s.vt.poison k n } }

/-- The bytes of one read that lies within a line, coherent with every cache of the device, which asks for a priority of the line (R231,
R232, R234, R236). -/
def State.readNow (s : State) (loc : Loc) (cluster n : Nat) (req : Option Prio) : List Byte × State :=
  match s.cache? loc.vcid with
  | none => (s.readHome loc.key n, s)
  | some c =>
    if c.repl then
      match s.line? loc.vcid (c.repOf cluster) loc.key with
      | some l => ((List.range n).map fun i => l.byte (loc.key + i), s.loadTouch loc cluster req)
      | none =>
        let s1 := (s.transitEnd (segOf loc.key)).dirRead c (c.replica cluster) loc.key req
        (s1.peek loc cluster n, s1)
    else
      let s1 := s.loadTouch loc cluster req
      (s1.peek loc cluster n, s1)

/-- A write that lies within a line, by an agent that waits for nothing; a dirty line takes the context tag of a core's (R232, R234,
R413). -/
def State.writeNow (s : State) (loc : Loc) (cluster : Nat) (bs : List Byte) (ctag : Option Nat := none) : State :=
  let s0 := (s.settle loc.key bs.length).clearPoison loc.key bs.length
  match s0.cache? loc.vcid with
  | none => s0.putHome loc.key bs
  | some c =>
    if c.repl then
      let r := c.replica cluster
      let s1 := s0.transitEnd (segOf loc.key)
      let stays := s1.staysLocal c r loc.key
      let s2 := s1.replicaPut loc.vcid r loc.key bs stays ctag none
      if stays then s2 else s2.dirWrite r loc.key bs
    else s0.storeAt loc bs none ctag

/-- Bytes beyond one line, in pieces that each lie within 64 aligned bytes. -/
def pieces (k n : Nat) : List (Nat × Nat) :=
  if n = 0 then []
  else (List.range ((k + n - 1) / 64 - k / 64 + 1)).map fun i =>
    let lo := max k ((k / 64 + i) * 64)
    (lo, min (k + n) ((k / 64 + i + 1) * 64) - lo)

def State.readRange (s : State) (loc : Loc) (cluster n : Nat) : List Byte × State :=
  (pieces loc.key n).foldl (fun (acc : List Byte × State) p =>
    let (bs, s1) := acc.2.readNow { loc with key := p.1 } cluster p.2 none
    (acc.1 ++ bs, s1)) ([], s)

def State.writeRange (s : State) (loc : Loc) (cluster : Nat) (bs : List Byte) : State :=
  (pieces loc.key bs.length).foldl (fun s p =>
    s.writeNow { loc with key := p.1 } cluster ((bs.drop (p.1 - loc.key)).take p.2)) (s.clearPoison loc.key bs.length)

end Sys2Proof.Machine
end

