-- ==== Sys2Proof/Machine/Barrier.lean ====
section
/-! DEFINITION. Sys2Proof/Machine/Barrier.lean: join slots (R175 to R180), team and grid barriers (R364 to R367) and what the
exit of a stream does to them (R174). -/
namespace Sys2Proof.Machine

/-! ### Join slots -/

def blankSlot : JSlot := ⟨0, 0⟩
def Team.slot (t : Team) (grp n : Nat) : JSlot := sget blankSlot t.joins (16 * grp + n)
def State.setSlot (s : State) (tcx grp n : Nat) (j : JSlot) : State :=
  s.onTeam tcx fun t => { t with joins := sset blankSlot t.joins (16 * grp + n) j }
/-- The bit of a thread in its group's sets. -/
def Team.bit (t : Team) (id : SId) : DWord := 1#64 <<< t.lane id
/-- The bits of the lanes 0 to W − 1. -/
def Team.full (t : Team) : DWord := BitVec.ofNat 64 (2 ^ t.recd.groupW - 1)
/-- A stream is a thread of a group. -/
def Stream.inGroup (st : Stream) (t : Team) (grp : Nat) : Bool :=
  st.id.tcx == t.tcx && st.id.kind == .lane && t.group st.id == grp
/-- The threads of a group that have exited. -/
def State.exitedMask (s : State) (t : Team) (grp : Nat) : DWord :=
  maskOf ((s.streams.filter fun st => st.inGroup t grp && st.exited).map fun st => t.lane st.id)

/-- The path on which a release puts its threads (R155): a new one, which no branch has led to. Branches lie at multiples of
eight. -/
def joinPath (issue n : Nat) : List (DWord × DWord) := [(BitVec.ofNat 64 (8 * issue + 1), BitVec.ofNat 64 n)]
/-- Threads parked at `join` on slot n whose bit is set in `m` are free to go on, together on one path (R155, R176, R177). -/
def State.freeJoiners (s : State) (t : Team) (grp n : Nat) (m : DWord) : State :=
  { s with streams := s.streams.map fun st =>
      if st.inGroup t grp && st.park == .join n false && (m &&& t.bit st.id) != 0 then
        { st with park := .join n true, path := joinPath s.issues n }
      else st }

/-- The release test of R177 on a slot. -/
def State.releaseTest (s : State) (tcx grp n : Nat) : State :=
  let t := s.team tcx
  let j := t.slot grp n
  if j.mask != 0 && j.arr == j.mask then (s.freeJoiners t grp n j.arr).setSlot tcx grp n blankSlot else s

/-- `jset` on a slot: the new MASK, without exited threads; parked threads it leaves out go on (R176). -/
def State.armSlot (s : State) (tcx grp n : Nat) (set : DWord) (or : Bool) : State :=
  let t := s.team tcx
  let j := t.slot grp n
  let m := ((if or then j.mask ||| set else set) &&& t.full) &&& ~~~(s.exitedMask t grp)
  let s1 := s.freeJoiners t grp n (j.arr &&& ~~~m)
  (s1.setSlot tcx grp n ⟨m, j.arr &&& m⟩).releaseTest tcx grp n

/-- A thread leaves a slot (R178, R180). -/
def State.leaveSlot (s : State) (id : SId) (n : Nat) : State :=
  let t := s.team id.tcx
  let grp := t.group id
  let j := t.slot grp n
  let b := t.bit id
  if j.mask &&& b = 0 then s
  else (s.setSlot id.tcx grp n ⟨j.mask &&& ~~~b, j.arr &&& ~~~b⟩).releaseTest id.tcx grp n

/-- A thread arrives at a slot that holds it (R177). -/
def State.arriveSlot (s : State) (id : SId) (n : Nat) : State :=
  let t := s.team id.tcx
  let grp := t.group id
  let j := t.slot grp n
  ((s.onLane id fun st => st.parkAt (.join n false)).setSlot id.tcx grp n
    ⟨j.mask, j.arr ||| t.bit id⟩).releaseTest id.tcx grp n

/-! ### Barriers -/

def blankBar : Barrier := ⟨0, 0, none⟩
def Team.barrier (t : Team) (id : Nat) : Barrier := sget blankBar t.bars id
def State.setBar (s : State) (tcx id : Nat) (b : Barrier) : State :=
  s.onTeam tcx fun t => { t with bars := sset blankBar t.bars id b }
/-- Lane threads of a team that have not exited. -/
def State.liveLanes (s : State) (tcx : Nat) : Nat :=
  (s.streams.filter fun st => st.id.tcx == tcx && st.id.kind == .lane && !st.exited).length
/-- A barrier after its target has been evaluated again (R364). -/
def Barrier.eval (b : Barrier) (live : Nat) : Barrier :=
  match b.expected with
  | none => b
  | some e => if e.getD live ≤ b.arrived then ⟨b.gen + 1, 0, none⟩ else b
/-- One arrival (R364). -/
def Barrier.arrive (b : Barrier) (count : Option Nat) : Barrier :=
  { b with arrived := b.arrived + 1, expected := some (b.expected.getD count) }
/-- An arrival whose count disagrees with that of the generation (R364). -/
def Barrier.disagrees (b : Barrier) (count : Option Nat) : Bool :=
  match b.expected with
  | none => false
  | some e => e != count

/-- Groups arrive at a barrier, in that order (R134). -/
def Team.noteArrivals (t : Team) (id : Nat) (gs : List Nat) : Team :=
  let arr := sget [] t.arrivals id
  { t with arrivals := sset [] t.arrivals id (gs.foldl (fun l g => if l.contains g then l else l ++ [g]) arr) }
/-- A generation of a barrier is complete: where threads arrived at it by `bar`, the order in which their groups did is recorded
(R134, R366). -/
def Team.noteComplete (t : Team) (id : Nat) : Team :=
  match sget [] t.arrivals id with
  | [] => t
  | arr => { t with urgency := (arr :: t.urgency).take 4, arrivals := sset [] t.arrivals id [] }

/-- Streams have arrived at a barrier, each with the generation of its arrival, and the barrier stands at `now`: each generation takes the
groups that have arrived at it by `bar`, and is complete where the barrier has left it (R134, R364). -/
def Team.noteBar (t : Team) (id : Nat) (bar : Bool) (arrived : List (SId × Word)) (now : Word) : Team :=
  let gens := arrived.foldl (fun ks a => if ks.contains a.2 then ks else ks ++ [a.2]) []
  let mine := fun (k : Word) => (arrived.filter fun a => a.2 == k && a.1.kind == .lane).map fun a => t.group a.1
  gens.foldl (fun t k =>
    let t1 := if bar then t.noteArrivals id (mine k) else t
    if k = now then t1 else t1.noteComplete id) t

/-- Every barrier of a team that waits for ALL, and its grid's barrier, after an exit (R364, R367). -/
def State.reevaluate (s : State) (tcx : Nat) : State :=
  let live := s.liveLanes tcx
  let s1 := s.onTeam tcx fun t =>
    t.bars.foldl (fun t b => if (b.2.eval live).gen = b.2.gen then t else t.noteComplete b.1)
      { t with bars := t.bars.foldl (fun bs b => sset blankBar bs b.1 (b.2.eval live)) t.bars }
  let g := (s.team tcx).grid
  let all := ((s1.teams.filter fun t => t.grid == g).map fun t => s1.liveLanes t.tcx).sum
  { s1 with gbars := sset blankBar s1.gbars g ((sget blankBar s1.gbars g).eval all) }

/-! ### Exit (R174) -/

/-- The end of one stream: a lane thread leaves every join slot of its group, and the barriers are evaluated again. -/
def State.endStream (s : State) (id : SId) : State :=
  let s1 := (List.range 16).foldl (fun s n => if id.kind = .lane then s.leaveSlot id n else s) s
  (s1.onLane id fun st => { st.free with exited := true }).reevaluate id.tcx

end Sys2Proof.Machine
end

