-- ==== Sys2Proof/Machine/Control.lean ====
section
/-! DEFINITION. Sys2Proof/Machine/Control.lean: branches, join slots and exit (R164 to R180), and `wait`, `bhint`, `nsleep`,
`yield` (R133 to R138). -/
namespace Sys2Proof.Machine

/-! ### Branches -/

/-- PC + 8 × sign_extend(offset, 64) (R164). -/
def relTarget (pc : DWord) (off : BitVec n) : DWord := pc + (off.signExtend 64 <<< 3)

/-- Whether a branch makes paths part, and whether it is two-way (R155, R166). -/
inductive BrClass where
  | uniform | twoWay | multiWay
deriving DecidableEq, Repr

/-- A lane after a branch: a divergent branch is the newest step of its path, behind the path `past` (R155); a two-way branch
returns the policy to predict-last (R136). -/
def Stream.branched (st : Stream) (c : BrClass) (pc tgt : DWord) (past : List (DWord × DWord)) : Stream :=
  let st1 := st.goto tgt
  match c with
  | .uniform => st1
  | .twoWay => { st1 with path := (pc, tgt) :: past, policy := .last }
  | .multiWay => { st1 with path := (pc, tgt) :: past }

/-- The path that a lane of a list leaves a branch on: that of the first of its group that leaves in the same direction, so that they
form one path (R155; log entry 105). -/
def State.pathOf (s : State) (ids : List SId) (dir : Stream → DWord) (old : Stream → List (DWord × DWord)) (st : Stream) :
    List (DWord × DWord) :=
  let t := s.team st.id.tcx
  match ids.find? fun id => t.group id == t.group st.id && dir (s.stream id) == dir st with
  | some id => old (s.stream id)
  | none => old st

/-- A branch (R164 to R166): every target of every active lane that branches is checked first; then each active lane moves to its
target and every other lane to the next instruction. -/
def State.branchOf (s : State) (g : Guard) (c : BrClass) (takes : Stream → Bool) (tgt : Stream → DWord) (f : Stream → Stream) : State :=
  let bad := (s.active g).find? fun id => takes (s.stream id) && (targetTrap (tgt (s.stream id))).isSome
  match bad with
  | some id => s.trap7 g ((targetTrap (tgt (s.stream id))).getD cAddressClass) id (tgt (s.stream id))
  | none =>
    let dir := fun (st : Stream) => if guardHolds g st then tgt st else s.cur.npc
    s.onLanes s.cur.lanes fun st =>
      (if guardHolds g st then f st else st).branched c s.cur.pc (dir st) (s.pathOf s.cur.lanes dir Stream.path st)

/-- A branch whose every active lane has a target. -/
def State.branch (s : State) (g : Guard) (c : BrClass) (tgt : Stream → DWord) (f : Stream → Stream) : State :=
  s.branchOf g c (fun _ => true) tgt f

/-- The class of `bra`, `call` and `ret` by their guard (R166). -/
def brClass (g : Guard) : BrClass := if g.en then .twoWay else .uniform

/-- R169. -/
def execBra (g : Guard) (off : BitVec 26) (s : State) : Out :=
  .next (s.branch g (brClass g) (fun _ => relTarget s.cur.pc off) id)
def execCall (g : Guard) (l : Reg) (off : BitVec 26) (s : State) : Out :=
  .next (s.branch g (brClass g) (fun _ => relTarget s.cur.pc off) fun st => st.wr64 l (s.cur.pc + 8))
/-- R170: a lane on its last count falls through, and takes no trap on any value. -/
def execLoop (g : Guard) (c : Reg) (off : BitVec 26) (s : State) : Out :=
  .next (s.branchOf g .twoWay (fun st => decide (1 < (st.rd c).toNat))
    (fun st => if (st.rd c).toNat ≤ 1 then s.cur.npc else relTarget s.cur.pc off)
    fun st => st.wr c (if (st.rd c).toNat ≤ 1 then 0 else st.rd c - 1))
/-- R171. -/
def execJmp (g : Guard) (s1 : Reg) (k1 : Bool) (s : State) : Out :=
  .next (s.branch g .multiWay (fun st => st.rd64 s1) fun st => st.kill64 s1 k1)
def execCallr (g : Guard) (l s1 : Reg) (k1 : Bool) (s : State) : Out :=
  .next (s.branch g .multiWay (fun st => st.rd64 s1) fun st => (st.kill64 s1 k1).wr64 l (s.cur.pc + 8))
/-- R171; an unguarded `ret` is of the uniform class, but its lanes may part by their link values (R166, R167). -/
def execRet (g : Guard) (s1 : Reg) (k1 : Bool) (s : State) : Out :=
  .next (s.branch g .multiWay (fun st => st.rd64 s1) fun st => st.kill64 s1 k1)

/-- The target of `brm` in one lane: the first entry whose predicate holds (R172). -/
def brmTarget (pc npc : DWord) (st : Stream) : List (Reg × Bool × Word) → DWord
  | [] => npc
  | (p, neg, off) :: r => if (st.rd p).getLsbD 0 != neg then relTarget pc off else brmTarget pc npc st r
/-- R172: K1 kills P0 and K2 kills P1. -/
def execBrm (g : Guard) (k1 k2 : Bool) (es : List (Reg × Bool × Word)) (s : State) : Out :=
  .next (s.branch g .multiWay (fun st => brmTarget s.cur.pc s.cur.npc st es) fun st =>
    let st1 := st.kill ((es[0]?.map (·.1)).getD 0) k1
    st1.kill ((es[1]?.map (·.1)).getD 0) k2)

/-! ### The jump table (R173) -/

/-- A load made at issue, as an operation of the form given. -/
def State.loadAt (s : State) (f : OpForm) (id : SId) (c : Checked) : MemOp := { s.mkOp f [⟨id, 0, 0⟩] none c with num := s.nextOp }
/-- A plain relaxed load of 4 bytes (R173). -/
def plainLoad : OpForm := ⟨.load false, 0, 4, .rlx, false, .thr, 0, .none, 0⟩

/-- A load that an instruction makes while it stalls, like any other load: its bytes, or the cause of its failure (R173,
R240, R330, R344, R419). -/
def State.tryBytes (s : State) (id : SId) (c : Checked) (f : OpForm) : Except Cause (List Byte) × State :=
  let s1 := s.touch (s.who (s.stream id)) .load c
  let o := s1.loadAt f id c
  match (if s1.cached o then s1 else s1.transitEnd (segOf c.loc.key)).loadLocal o with
  | (.error e, s2) => (.error e, s2)
  | (.ok bs, s2) => (.ok bs, (if f.scp then s2 else s2.noteDone o []).noteEarly o)
/-- Its word. -/
def State.tryLoad (s : State) (id : SId) (c : Checked) (f : OpForm := plainLoad) : Except Cause Word × State :=
  match s.tryBytes id c f with
  | (.error e, s1) => (.error e, s1)
  | (.ok bs, s1) => (.ok (BitVec.ofNat 32 (natOfBytes bs)), s1)
/-- The same, a failure giving all ones and an error in slot 0. -/
def State.loadNow (s : State) (id : SId) (c : Checked) (f : OpForm) : Word × State :=
  match s.tryLoad id c f with
  | (.ok w, s1) => (w, s1)
  | (.error e, s1) => (0xFFFFFFFF, s1.recordErr id 0 ⟨e, 0⟩)
/-- It has to wait for earlier accesses of its stream (R337, R338). -/
def State.mustWaitAs (s : State) (f : OpForm) (id : SId) (c : Checked) : Bool :=
  !s.mayPerform (s.loadAt f id c) || s.farOrdered id c.loc.space
def State.mustWait (s : State) (id : SId) (c : Checked) : Bool := s.mustWaitAs plainLoad id c

/-- The offsets of the lanes whose index lies in the table, in ascending thread index; the first read that fails decides (R173). -/
def State.jtabReads (s : State) : List (SId × Option Checked) → Except (SId × Cause × DWord) (List (SId × Word)) × State
  | [] => (.ok [], s)
  | (id, none) :: r =>
    match s.jtabReads r with
    | (.ok ws, s1) => (.ok ((id, 0) :: ws), s1)
    | e => e
  | (id, some c) :: r =>
    match s.tryLoad id c with
    | (.error e, s1) => (.error (id, e, BitVec.ofNat 64 c.va), s1)
    | (.ok w, s1) => match s1.jtabReads r with
      | (.ok ws, s2) => (.ok ((id, w) :: ws), s2)
      | e => e

/-- The lanes before the first whose check fails, with what their checks gave, and that lane. -/
def checkUpTo (f : SId → Except Fail α) : List SId → List (SId × α) × Option (SId × Fail)
  | [] => ([], none)
  | id :: r => match f id with
    | .error e => ([], some (id, e))
    | .ok x =>
      let (xs, bad) := checkUpTo f r
      ((id, x) :: xs, bad)

/-- R173: `len` is LEN − 1. The lowest lane whose load fails decides, be it by a check or by its read. -/
def execJtab (g : Guard) (x : Reg) (k1 : Bool) (b : Reg) (k2 : Bool) (len : BitVec 8) (dflt : BitVec 18) (s : State) : Out :=
  let inside := fun (st : Stream) => decide ((st.rd x).toNat ≤ len.toNat)
  let ids := s.active g
  .next (
    let (cs, bad) := checkUpTo (fun id =>
        let st := s.stream id
        if inside st then
          match s.checkAt id .load ⟨true, true, false⟩ (st.rd64 b + (((st.rd x).setWidth 64) <<< 2)) 4 4 with
          | .error e => .error e
          | .ok c => .ok (some c)
        else .ok none) ids
    if cs.any fun c => match c.2 with | some k => s.mustWait c.1 k | none => false then s.stalled
    else match s.jtabReads cs, bad with
      | (.error (id, e, a), s1), _ => s1.trap7 g e id a
      | (.ok _, _), some (id, e) => s.failLane g .load (s.stream id) e
      | (.ok ws, s1), none =>
        let off := fun (st : Stream) =>
          if inside st then ((ws.find? fun w => w.1 = st.id).map (·.2)).getD 0 else dflt.signExtend 32
        s1.branch g .multiWay (fun st => relTarget s.cur.pc (off st)) fun st => (st.kill x k1).kill64 b k2)

/-! ### exit (R174) -/

/-- A stream has no operation counted against it. -/
def Stream.drained (st : Stream) : Bool := st.cnt == ⟨0, 0, 0, 0⟩
/-- The lowest nonempty slot among those of a mask of counters. -/
def Stream.firstErr (st : Stream) (covers : Nat → Bool) : Option (Nat × Err) :=
  (List.range 4).findSome? fun k => if covers k then (st.slots.get k).map fun e => (k, e) else none

/-- `exit` in one active lane: it waits for its counters, delivers an error, or ends. -/
def State.exitLane (s : State) (id : SId) : State :=
  let st := s.stream id
  if !st.drained then s.onLane id fun st => st.parkAt .exitWait
  else match st.firstErr fun _ => true with
    | some (k, e) => s.deliver id k e
    | none => s.endStream id
def execExit (g : Guard) (s : State) : Out :=
  let ids := s.active g
  let s1 := (s.releaseTag s.curTag).skipLanes g
  .next (ids.foldl State.exitLane s1)

/-! ### Join slots (R176 to R179) -/

/-- The lanes of the issue group by group, in ascending GIDX. -/
def State.byGroup (s : State) (ids : List SId) : List (Nat × List SId) :=
  (s.groupsOf ids).map fun g => (g, ids.filter fun id => s.curTeam.group id = g)

/-- R176. -/
def execJset (g : Guard) (n : BitVec 4) (src : Option (Reg × Bool)) (or : Bool) (s : State) : Out :=
  let t := s.curTeam
  let s1 := (s.byGroup (s.active g)).foldl (fun s' e =>
    let set := match src with
      | none => maskOf (e.2.map t.lane)
      | some (m, _) => ((e.2.head?.map fun id => (s.stream id).rd64 m).getD 0)
    s'.armSlot t.tcx e.1 n.toNat set or) s
  .next (s1.retireLanes g fun st => match src with | some (m, k) => st.kill64 m k | none => st)

/-- R177: a lane that the slot does not hold goes on; the others park, and the release test runs once per group. -/
def execJoin (g : Guard) (n : BitVec 4) (s : State) : Out :=
  let t := s.curTeam
  let holds := fun (id : SId) => ((t.slot (t.group id) n.toNat).mask &&& t.bit id) != 0
  let (ins, outs) := (s.active g).partition holds
  let s1 := (s.skipLanes g).onLanes outs fun st => st.goto s.cur.npc
  .next (ins.foldl (fun s id => s.arriveSlot id n.toNat) s1)

/-- R178. -/
def execJdrop (g : Guard) (mask : BitVec 16) (s : State) : Out :=
  let slots := (List.range 16).filter fun n => mask.getLsbD n
  let s1 := (s.active g).foldl (fun s id => slots.foldl (fun s n => s.leaveSlot id n) s) s
  .next (s1.retireLanes g id)

/-- R179. -/
def execJmask (g : Guard) (d : Reg) (n : BitVec 4) (arr : Bool) (s : State) : Out :=
  let t := s.curTeam
  .next (s.retireLanes g fun st =>
    let j := t.slot (t.group st.id) n.toNat
    st.wr64 d (if arr then j.arr else j.mask))

/-! ### Waiting (R133, R136 to R138) -/

/-- The thresholds of `wait` by counter. -/
def threshold (ldt stt cpt tlt : BitVec 8) : Nat → Nat
  | 0 => ldt.toNat | 1 => stt.toNat | 2 => cpt.toNat | _ => tlt.toNat
/-- Every covered counter is at or below its threshold (R133). -/
def Stream.under (st : Stream) (thr : Nat → Nat) : Bool :=
  (List.range 4).all fun k => decide (thr k = 255) || decide (st.cnt.get k ≤ thr k)

/-- `wait` in one active lane. -/
def State.waitLane (s : State) (ldt stt cpt tlt : BitVec 8) (id : SId) : State :=
  let thr := threshold ldt stt cpt tlt
  let st := s.stream id
  if !st.under thr then s.onLane id fun st => st.parkAt (.counters ldt stt cpt tlt)
  else match st.firstErr fun k => decide (thr k ≠ 255) with
    | some (k, e) => s.deliver id k e
    | none => s.onLane id fun st => st.goto s.cur.npc
/-- R133. -/
def execWait (g : Guard) (ldt stt cpt tlt : BitVec 8) (s : State) : Out :=
  .next ((s.active g).foldl (fun s id => s.waitLane ldt stt cpt tlt id) (s.skipLanes g))

/-- R136. -/
def execBhint (g : Guard) (p : Policy) (s : State) : Out := .next (s.retireLanes g fun st => { st with policy := p })

/-- R138: 512 core cycles. -/
def execYield (g : Guard) (s : State) : Out :=
  .next (s.retireLanes g fun st => { st with yield := some (s.clock.cycles + 512, s.issues) })

/-- The duration of `nsleep`, at most 1 ms. -/
def sleepFor (v : Word) : Nat := min v.toNat 1000000
/-- A lane sleeps at its instruction until its wake time; a duration of 0 parks for no time (R137). -/
def Stream.sleep (st : Stream) (now d : Nat) (pc npc : DWord) : Stream :=
  if d = 0 then st.goto npc else { st.parkAt (.sleep (now + d)) with pc := pc }
/-- R137; the register form may take its duration from a queue port. -/
def execNsleep (g : Guard) (src : Opnd) (s : State) : Out :=
  .next (
    match src with
    | .imm v =>
      s.onLanes s.cur.lanes fun st =>
        if guardHolds g st then st.sleep s.gts (sleepFor (v.setWidth 32)) s.cur.pc s.cur.npc else st.goto s.cur.npc
    | .reg r k =>
      let ids := s.active g
      if !Reg.isPort r then
        s.onLanes s.cur.lanes fun st =>
          if guardHolds g st then (st.kill r k).sleep s.gts (sleepFor (st.rd r)) s.cur.pc s.cur.npc else st.goto s.cur.npc
      else match ids.head? with
        | none => s.retireLanes g id
        | some low =>
          if (s.portKey low r).isNone then s.trapLow g cIllegalOperand
          else match s.popSrcs ids (s.groupsOf ids) [r] with
            | none => s.stalled
            | some (pss, s1) =>
              let t := s.curTeam
              s1.onLanes s.cur.lanes fun st =>
                if guardHolds g st then
                  st.sleep s.gts (sleepFor (popped t (pss.headD []) st.id)) s.cur.pc s.cur.npc
                else st.goto s.cur.npc)

end Sys2Proof.Machine
end

