-- ==== Sys2Proof/Machine/Flags.lean ====
section
/-! DEFINITION. Sys2Proof/Machine/Flags.lean: predicates and saturation. The device has no flag register: a comparison
writes a full 32-bit 0 or 1 (R8, R148). -/
namespace Sys2Proof.Machine

/-- A predicate value (R148). -/
def predicate (b : Bool) : Word := if b then 1 else 0

/-- The conditions of `icmp` and `icmp64` (R148): signed for U = 0, unsigned for U = 1. -/
def icmpHolds (c : ICond) (u : Bool) (a b : BitVec w) : Bool :=
  match c with
  | .eq => a == b
  | .ne => a != b
  | .lt => if u then BitVec.ult a b else BitVec.slt a b
  | .le => if u then BitVec.ule a b else BitVec.sle a b
  | .gt => if u then BitVec.ult b a else BitVec.slt b a
  | .ge => if u then BitVec.ule b a else BitVec.sle b a

/-- Sat(x, lo, hi) of R140. -/
def satInt (x lo hi : Int) : Int := if x < lo then lo else if hi < x then hi else x
/-- Saturation to signed or unsigned 32 bits (R142). -/
def sat32 (u : Bool) (x : Int) : Word :=
  if u then BitVec.ofInt 32 (satInt x 0 (2 ^ 32 - 1)) else BitVec.ofInt 32 (satInt x (-(2 ^ 31)) (2 ^ 31 - 1))
/-- The value of a 32-bit pattern under U. -/
def intOf (u : Bool) (a : BitVec w) : Int := if u then (a.toNat : Int) else a.toInt

end Sys2Proof.Machine
end

