-- ==== Sys2Proof/Machine/Float.lean ====
section
/-! DEFINITION. Sys2Proof/Machine/Float.lean: the number formats and their exact arithmetic (R109, R181 to R199): values,
rounding, conversion, block scales, the special functions, the matrix sum and the combining step of attention triples. -/
namespace Sys2Proof.Machine

/-! ### Values and formats (R184) -/

/-- The exact value of a floating-point encoding: m × 2^x, and a little more (less than 2^x) where `st` holds. -/
inductive FVal where
  | nan
  | inf (neg : Bool)
  | fin (neg : Bool) (m : Nat) (x : Int) (st : Bool)
deriving DecidableEq, Repr

/-- A floating-point format: widths of its exponent and fraction, bias, and whether it has infinities. -/
structure Fmt where
  e : Nat
  t : Nat
  bias : Nat
  infs : Bool
deriving DecidableEq, Repr

def fF64 : Fmt := ⟨11, 52, 1023, true⟩
def fF32 : Fmt := ⟨8, 23, 127, true⟩
def fBF16 : Fmt := ⟨8, 7, 127, true⟩
def fF16 : Fmt := ⟨5, 10, 15, true⟩
def fE4M3 : Fmt := ⟨4, 3, 7, false⟩
def fE5M2 : Fmt := ⟨5, 2, 15, true⟩

/-- Width in bits. -/
def Fmt.width (f : Fmt) : Nat := 1 + f.e + f.t
def Fmt.signBit (f : Fmt) : Nat := 2 ^ (f.e + f.t)
/-- The encoding of +∞, where the format has it. -/
def Fmt.infBits (f : Fmt) : Nat := (2 ^ f.e - 1) * 2 ^ f.t
/-- The largest finite encoding. -/
def Fmt.maxBits (f : Fmt) : Nat := if f.infs then f.infBits - 1 else f.signBit - 2
/-- The canonical NaN (R184). -/
def Fmt.nanBits (f : Fmt) : Nat := if f.infs then f.infBits + 2 ^ (f.t - 1) else f.signBit - 1
def Fmt.signed (f : Fmt) (neg : Bool) (mag : Nat) : Nat := if neg then f.signBit + mag else mag
/-- The exponent of the lowest bit of a subnormal. -/
def Fmt.low (f : Fmt) : Int := 1 - f.bias - f.t

/-- The value of an encoding (R184). -/
def Fmt.val (f : Fmt) (b : Nat) : FVal :=
  let neg := decide (f.signBit ≤ b % (2 * f.signBit))
  let mag := b % f.signBit
  let e := mag / 2 ^ f.t
  let t := mag % 2 ^ f.t
  if f.infs && e == 2 ^ f.e - 1 then (if t = 0 then .inf neg else .nan)
  else if !f.infs && mag == f.signBit - 1 then .nan
  else if e = 0 then .fin neg t f.low false
  else .fin neg (2 ^ f.t + t) (f.low + (e - 1 : Nat)) false

def Fmt.isNaN (f : Fmt) (b : Nat) : Bool := f.val b == .nan
/-- A subnormal encoding. -/
def Fmt.subnormal (f : Fmt) (b : Nat) : Bool := b % f.signBit != 0 && decide (b % f.signBit < 2 ^ f.t)
/-- Flushing of an input (R186). -/
def Fmt.flush (f : Fmt) (ftz : Bool) (b : Nat) : Nat := if ftz && f.subnormal b then b - b % f.signBit else b
/-- A NaN made canonical (R185). -/
def Fmt.canon (f : Fmt) (b : Nat) : Nat := if f.isNaN b then f.nanBits else b

/-! ### Rounding (R109, R193) -/

def bitLen (n : Nat) : Nat := if n = 0 then 0 else Nat.log2 n + 1

/-- Whether a magnitude is rounded up: `odd` its last kept bit, `rem` of `2 × half` the bits dropped, `st` more below. -/
def roundUp (m : Rnd) (neg odd : Bool) (rem half : Nat) (st : Bool) : Bool :=
  let inexact := rem != 0 || st
  let above := decide (half < rem) || (rem == half && st)
  let tie := rem == half && !st
  match m with
  | .rn => above || (tie && odd)
  | .rna => above || tie
  | .rz => false
  | .ru => inexact && !neg
  | .rd => inexact && neg

/-- m × 2^x rounded to a multiple of 2^q: the multiple. -/
def quantize (m : Rnd) (neg : Bool) (mant : Nat) (x q : Int) (st : Bool) : Nat :=
  if q ≤ x then mant * 2 ^ (x - q).toNat
  else
    let k := (q - x).toNat
    let d := mant / 2 ^ k
    if roundUp m neg (d % 2 == 1) (mant % 2 ^ k) (2 ^ (k - 1)) st then d + 1 else d

/-- What a magnitude beyond the largest finite value becomes (R109). -/
def Fmt.overflow (f : Fmt) (m : Rnd) (neg : Bool) : Nat :=
  let toInf := match m with
    | .rn => true | .rna => true | .rz => false | .ru => !neg | .rd => neg
  if toInf then (if f.infs then f.signed neg f.infBits else f.nanBits) else f.signed neg f.maxBits

/-- Round (R109), with the flushing of a result (R186). -/
def Fmt.round (f : Fmt) (m : Rnd) (ftz : Bool) : FVal → Nat
  | .nan => f.nanBits
  | .inf neg => if f.infs then f.signed neg f.infBits else f.nanBits
  | .fin neg mant x st =>
    if mant = 0 && !st then f.signed neg 0
    else
      let q := max (bitLen mant + x - 1 - f.t) f.low
      let n := quantize m neg mant x q st
      -- n = 2^t + T at exponent field q − low + 1; a subnormal has q = low and n < 2^t
      let mag := (q - f.low).toNat * 2 ^ f.t + n
      if f.maxBits < mag then f.overflow m neg
      else if ftz && mag < 2 ^ f.t then f.signed neg 0
      else f.signed neg mag

/-- A value rounded to an integer (R194, R214). -/
def roundInt (m : Rnd) : FVal → Int
  | .fin neg mant x st =>
    let n := quantize m neg mant x 0 st
    if neg then -(n : Int) else n
  | _ => 0

/-! ### Exact operations -/

def FVal.neg : FVal → FVal
  | .nan => .nan
  | .inf n => .inf !n
  | .fin n m x st => .fin (!n) m x st
def FVal.isZero : FVal → Bool
  | .fin _ m _ st => m == 0 && !st
  | _ => false
def FVal.isNeg : FVal → Bool
  | .nan => false
  | .inf n => n
  | .fin n _ _ _ => n
def FVal.abs : FVal → FVal
  | .nan => .nan
  | .inf _ => .inf false
  | .fin _ m x st => .fin false m x st
/-- An integer as a value. -/
def FVal.ofInt (n : Int) : FVal := .fin (decide (n < 0)) n.natAbs 0 false

/-- The exact product; zero times infinity is NaN (R203). -/
def FVal.mul : FVal → FVal → FVal
  | .nan, _ => .nan
  | _, .nan => .nan
  | .inf a, .inf b => .inf (a != b)
  | .inf a, .fin b m _ _ => if m = 0 then .nan else .inf (a != b)
  | .fin a m _ _, .inf b => if m = 0 then .nan else .inf (a != b)
  | .fin a m x _, .fin b n y _ => .fin (a != b) (m * n) (x + y) false

/-- A finite value as a signed multiple of 2^y, for y at most its exponent. -/
def FVal.scaled (y : Int) : FVal → Int
  | .fin neg m x _ => (if neg then -1 else 1) * ((m * 2 ^ (x - y).toNat : Nat) : Int)
  | _ => 0
def FVal.exp : FVal → Int
  | .fin _ _ x _ => x
  | _ => 0
/-- The exact sum of a list of values; the sign of an exact zero follows R186 under the rounding mode. -/
def FVal.sum (m : Rnd) (vs : List FVal) : FVal :=
  if vs.any fun v => v == .nan then .nan
  else
    let pos := vs.any fun v => v == .inf false
    let neg := vs.any fun v => v == .inf true
    if pos && neg then .nan
    else if pos then .inf false
    else if neg then .inf true
    else
      let y := vs.foldl (fun y v => min y v.exp) (vs.head?.map FVal.exp |>.getD 0)
      let total : Int := vs.foldl (fun a v => a + v.scaled y) 0
      if total = 0 then
        let allNeg := vs.all fun v => v.isZero && v.isNeg
        let allPos := vs.all fun v => v.isZero && !v.isNeg
        .fin (if allNeg then true else if allPos then false else m == .rd) 0 0 false
      else .fin (decide (total < 0)) total.natAbs y false

/-- The quotient to more than 100 bits, always with bits below the integers; special operands as R203. -/
def FVal.div : FVal → FVal → FVal
  | .nan, _ => .nan
  | _, .nan => .nan
  | .inf _, .inf _ => .nan
  | .inf a, .fin b _ _ _ => .inf (a != b)
  | .fin a _ _ _, .inf b => .fin (a != b) 0 0 false
  | .fin a m x _, .fin b n y _ =>
    if n = 0 then (if m = 0 then .nan else .inf (a != b))
    else
      let k := max (100 + bitLen n) (x - y + 8).toNat
      .fin (a != b) (m * 2 ^ k / n) (x - y - k) (m * 2 ^ k % n != 0)

/-- Integer square root, bit by bit from bit `n − 1`. -/
def isqrtAux (v : Nat) : Nat → Nat → Nat
  | 0, r => r
  | n + 1, r => if (r + 2 ^ n) * (r + 2 ^ n) ≤ v then isqrtAux v n (r + 2 ^ n) else isqrtAux v n r
def isqrt (v : Nat) : Nat := isqrtAux v (bitLen v / 2 + 1) 0

/-- √a (R208). -/
def FVal.sqrt : FVal → FVal
  | .nan => .nan
  | .inf neg => if neg then .nan else .inf false
  | .fin neg m x _ =>
    if m = 0 then .fin neg 0 0 false
    else if neg then .nan
    else
      let odd := x % 2 != 0
      let m1 := (if odd then m * 2 else m) * 2 ^ 200
      let r := isqrt m1
      .fin false r ((x - (if odd then 1 else 0)) / 2 - 100) (r * r != m1)
/-- 1 ÷ √a (R208). -/
def FVal.rsqrt : FVal → FVal
  | .nan => .nan
  | .inf neg => if neg then .nan else .fin false 0 0 false
  | .fin neg m x _ =>
    if m = 0 then .inf neg
    else if neg then .nan
    else
      let odd := x % 2 != 0
      let m1 := if odd then m * 2 else m
      let n := 200 + 2 * bitLen m1
      let q := 2 ^ n / m1
      let r := isqrt q
      .fin false r (-((x - (if odd then 1 else 0)) / 2) - (n / 2 : Nat)) (r * r * m1 != 2 ^ n)
def FVal.one : FVal := .fin false 1 0 false

/-! ### EXP2R (R109) -/

/-- ln 2 × 2^256. -/
def ln2c : Nat := 0xb17217f7d1cf79abc9e3b39803f2f6af40f343267298b62d8a0d175b8baafa2b
/-- Σ y^k ÷ k! × 2^256 from the term `t` of index k on. -/
def expSeries (y : Nat) : Nat → Nat → Nat → Nat
  | 0, _, _ => 0
  | n + 1, k, t => t + expSeries y n (k + 1) (t * y / 2 ^ 256 / (k + 1))
/-- 2^x of an F32 value x, correctly rounded (R109). -/
def exp2r (b : Nat) : Nat :=
  match fF32.val b with
  | .nan => fF32.nanBits
  | .inf neg => if neg then 0 else fF32.infBits
  | .fin neg m x _ =>
    if m = 0 then 0x3F800000
    else
      -- |x| ≥ 2^8: far outside; otherwise x as a multiple of 2^−149
      if 9 ≤ bitLen m + x then (if neg then 0 else fF32.infBits)
      else
        let v : Int := (if neg then -1 else 1) * ((m * 2 ^ (x + 149).toNat : Nat) : Int)
        let n := v / 2 ^ 149
        let f := (v % 2 ^ 149).toNat
        let r := if f = 0 then 2 ^ 256 else expSeries (f * ln2c / 2 ^ 149) 64 0 (2 ^ 256)
        if 128 ≤ n then fF32.infBits
        else if n < -150 then 0
        else fF32.round .rn false (.fin false r (n - 256) (f != 0))

/-! ### flog2, fsin and fcos (R209, log entry 8) -/

/-- π × 2^480. -/
def pic : Nat := 0x3243f6a8885a308d313198a2e03707344a4093822299f31d0082efa98ec4e6c89452821e638d01377be5466cf34e90c6cc0ac29b7c97c50dd3f84d5b5
/-- Alternating series Σ (−1)^k t_k × 2^340 with t_{k+1} = t_k × y² ÷ (d + 1) ÷ (d + 2). -/
def altSeries (y2 : Nat) : Nat → Nat → Nat → Int
  | 0, _, _ => 0
  | n + 1, d, t => (t : Int) - altSeries y2 n (d + 2) (t * y2 / 2 ^ 340 / (d + 1) / (d + 2))
def sinFix (y : Nat) : Int := altSeries (y * y / 2 ^ 340) 60 1 y
def cosFix (y : Nat) : Int := altSeries (y * y / 2 ^ 340) 60 0 (2 ^ 340)
/-- log2 of y × 2^−400 for 1 ≤ y × 2^−400 < 2, as a multiple of 2^−340: bit after bit by squaring. -/
def logBits : Nat → Nat → Nat → Nat
  | 0, _, r => r
  | n + 1, y, r =>
    let z := y * y / 2 ^ 400
    if 2 ^ 401 ≤ z then logBits n (z / 2) (2 * r + 1) else logBits n z (2 * r)

/-- The F32 values within 1.5 ulp of a × 2^−340: an ulp is measured in the binade of the exact result (R209). -/
def within (a : Int) (cap : Bool) : List Nat :=
  let near := fF32.round .rn false (.fin false a.natAbs (-340) true)
  let ulp := max ((bitLen a.natAbs : Int) - 341 - 23) (-149)
  let sign := fF32.signed (decide (a < 0)) 0
  (List.range 9).filterMap fun i =>
    if near + i < 4 then none
    else
      let c := near + i - 4
      match fF32.val c with
      | .fin _ m x _ =>
        let v : Int := m * 2 ^ (x + 340).toNat
        let d := (v - a.natAbs).natAbs
        if 2 * d ≤ 3 * 2 ^ (ulp + 340).toNat && !(cap && decide (0x3F800000 < c)) then some (sign + c) else none
      | _ => none
/-- One of the values allowed: a free choice. -/
def choose (vs : List Nat) (k : Nat) : Nat := vs.getD (k % vs.length) 0

def flog2R (b : Nat) : Nat :=
  match fF32.val b with
  | .nan => fF32.nanBits
  | .inf neg => if neg then fF32.nanBits else fF32.infBits
  | .fin neg m x _ =>
    if m = 0 then fF32.signed true fF32.infBits
    else if neg then fF32.nanBits
    else
      let l := bitLen m - 1
      if m = 2 ^ l then fF32.round .rn false (.ofInt (l + x))
      else
        let frac := logBits 340 (m * 2 ^ (400 - l)) 0
        choose (within ((l + x) * 2 ^ 340 + frac) false) (Config.flog2Pick (BitVec.ofNat 32 b))

/-- The quadrant of |a| and the rest below π ÷ 2, as a multiple of 2^−340. -/
def quadrant (m : Nat) (x : Int) : Nat × Nat :=
  let a := m * 2 ^ (x + 480).toNat
  (a / (pic / 2) % 4, a % (pic / 2) / 2 ^ 140)
def fsinR (b : Nat) : Nat :=
  match fF32.val b with
  | .nan => fF32.nanBits
  | .inf _ => fF32.nanBits
  | .fin neg m x _ =>
    if m = 0 then b
    else
      let (q, y) := quadrant m x
      let v := if q % 2 = 0 then sinFix y else cosFix y
      choose (within (if (q ≥ 2) != neg then -v else v) true) (Config.fsinPick (BitVec.ofNat 32 b))
def fcosR (b : Nat) : Nat :=
  match fF32.val b with
  | .nan => fF32.nanBits
  | .inf _ => fF32.nanBits
  | .fin _ m x _ =>
    if m = 0 then 0x3F800000
    else
      let (q, y) := quadrant m x
      let v := if q % 2 = 0 then cosFix y else sinFix y
      choose (within (if q = 1 || q = 2 then -v else v) true) (Config.fcosPick (BitVec.ofNat 32 b))

/-! ### Arithmetic on encodings -/

/-- The result of an exact value in a format, under RND and FTZ. -/
def Fmt.add (f : Fmt) (m : FMod) (a b : Nat) : Nat :=
  f.round m.rnd m.ftz (FVal.sum m.rnd [f.val (f.flush m.ftz a), f.val (f.flush m.ftz b)])
def Fmt.sub (f : Fmt) (m : FMod) (a b : Nat) : Nat :=
  f.round m.rnd m.ftz (FVal.sum m.rnd [f.val (f.flush m.ftz a), (f.val (f.flush m.ftz b)).neg])
def Fmt.mul (f : Fmt) (m : FMod) (a b : Nat) : Nat :=
  f.round m.rnd m.ftz ((f.val (f.flush m.ftz a)).mul (f.val (f.flush m.ftz b)))
def Fmt.div (f : Fmt) (m : FMod) (a b : Nat) : Nat :=
  f.round m.rnd m.ftz ((f.val (f.flush m.ftz a)).div (f.val (f.flush m.ftz b)))
/-- ±(a × b) ± c with one rounding (R204). -/
def Fmt.fma (f : Fmt) (m : FMod) (negP negC : Bool) (a b c : Nat) : Nat :=
  let p := (f.val (f.flush m.ftz a)).mul (f.val (f.flush m.ftz b))
  let z := f.val (f.flush m.ftz c)
  f.round m.rnd m.ftz (FVal.sum m.rnd [if negP then p.neg else p, if negC then z.neg else z])

/-- The order of encodings in which −0 is less than +0 (R205). -/
def Fmt.key (f : Fmt) (b : Nat) : Int :=
  let mag := b % f.signBit
  if f.signBit ≤ b then -(mag : Int) - 1 else mag
/-- Minimum and maximum (R205): a NaN operand is ignored. -/
def Fmt.pick (f : Fmt) (max ftz : Bool) (a b : Nat) : Nat :=
  let a := f.flush ftz a
  let b := f.flush ftz b
  if f.isNaN a then f.canon b
  else if f.isNaN b then a
  else if (f.key a ≤ f.key b) != max then a else b

/-- The value order with +0 = −0 (R206). -/
def Fmt.ord (f : Fmt) (b : Nat) : Int :=
  let mag : Int := (b % f.signBit : Nat)
  if f.signBit ≤ b then -mag else mag
/-- The conditions of R206. -/
def Fmt.cmp (f : Fmt) (c : FCond) (ftz : Bool) (a b : Nat) : Bool :=
  let a := f.flush ftz a
  let b := f.flush ftz b
  let un := f.isNaN a || f.isNaN b
  match c with
  | .eq => !un && f.ord a == f.ord b
  | .ne => un || f.ord a != f.ord b
  | .lt => !un && decide (f.ord a < f.ord b)
  | .le => !un && decide (f.ord a ≤ f.ord b)
  | .gt => !un && decide (f.ord b < f.ord a)
  | .ge => !un && decide (f.ord b ≤ f.ord a)
  | .ord => !un
  | .uno => un

def modRn : FMod := ⟨.rn, false⟩
/-- F32 operations with rn and no flushing, on words. -/
def f32add (a b : Word) : Word := BitVec.ofNat 32 (fF32.add modRn a.toNat b.toNat)
def f32mul (a b : Word) : Word := BitVec.ofNat 32 (fF32.mul modRn a.toNat b.toNat)
def f32fma (a b c : Word) : Word := BitVec.ofNat 32 (fF32.fma modRn false false a.toNat b.toNat c.toNat)
def f32sub (a b : Word) : Word := BitVec.ofNat 32 (fF32.sub modRn a.toNat b.toNat)
def f32min (a b : Word) : Word := BitVec.ofNat 32 (fF32.pick false false a.toNat b.toNat)
def f32max (a b : Word) : Word := BitVec.ofNat 32 (fF32.pick true false a.toNat b.toNat)
def bf16add (a b : BitVec 16) : BitVec 16 := BitVec.ofNat 16 (fBF16.add modRn a.toNat b.toNat)

/-! ### Element formats by code (R181 to R190) -/

/-- The floating format of a code. -/
def codeFmt : Nat → Option Fmt
  | 0 => some fF32 | 1 => some fBF16 | 2 => some fF16 | 3 => some fE4M3 | 4 => some fE5M2 | _ => none
/-- Bits per element (R181). -/
def codeBits : Nat → Nat
  | 0 => 32 | 1 => 16 | 2 => 16 | 7 => 4 | 9 => 4 | _ => 8
/-- term(s, c) of R188 in units of 2^−6. -/
def shiftTerm (s c : Nat) : Int := if c = 7 then 0 else (if s = 1 then -1 else 1) * ((2 ^ (6 - c) : Nat) : Int)
/-- A DS8 byte in units of 2^−6 (R188). -/
def ds8Val (b : Nat) : Int := shiftTerm (b / 128 % 2) (b / 16 % 8) + shiftTerm (b / 8 % 2) (b % 8)
/-- An SS4 nibble in units of 2^−6 (R189). -/
def ss4Val (b : Nat) : Int := shiftTerm (b / 8 % 2) (b % 8)
/-- A multiple of 2^−6 as a value. -/
def FVal.of64 (n : Int) : FVal := .fin (decide (n < 0)) n.natAbs (-6) false
/-- The value of an element in the format of a code (R184, R187 to R189). -/
def codeVal (code b : Nat) : FVal :=
  match codeFmt code with
  | some f => f.val b
  | none => match code with
    | 5 => .ofInt (BitVec.ofNat 8 b).toInt
    | 6 => .ofInt ((b % 256 : Nat) : Int)
    | 7 => .ofInt (BitVec.ofNat 4 b).toInt
    | 8 => .of64 (ds8Val b)
    | _ => .of64 (ss4Val b)
/-- FTZ_IN on an element (R23, R186). -/
def codeFlush (code : Nat) (ftz : Bool) (b : Nat) : Nat :=
  match codeFmt code with
  | some f => f.flush ftz b
  | none => b

/-- Conversion of R194 into the format of a code, with saturation. -/
def convert (code : Nat) (m : Rnd) (sat : Bool) (v : FVal) : Nat :=
  match codeFmt code with
  | some f =>
    if v == .nan then f.nanBits
    else
      let r := f.round m false v
      if !sat then r
      else if f.infs then (if r % f.signBit = f.infBits then f.signed (decide (f.signBit ≤ r)) f.maxBits else r)
      -- E4M3: what is beyond 448 is clamped
      else if f.isNaN r then f.signed v.isNeg f.maxBits else r
  | none =>
    let w := if code = 7 then 4 else 8
    let lo : Int := if code = 6 then 0 else -(2 ^ (w - 1) : Int)
    let hi : Int := if code = 6 then 255 else 2 ^ (w - 1) - 1
    match v with
    | .nan => 0
    | .inf neg => ((if neg then lo else hi) % 2 ^ w).toNat
    | _ =>
      let n := roundInt m v
      ((if sat then max lo (min hi n) else n) % 2 ^ w).toNat

/-! ### Block scales (R191, R192) -/

/-- The value of an SC8 code: 0x00 is zero and 0xFF NaN. -/
def scaleVal (c : Nat) : FVal :=
  if c % 256 = 0 then .fin false 0 0 false
  else if c % 256 = 255 then .nan
  else .fin false (8 + c % 8) ((c / 8 % 32 : Nat) - 19) false
/-- The scaled value of an element (R192). -/
def scaledVal (c : Nat) (v : FVal) : FVal :=
  if c % 256 = 255 then .nan
  else if c % 256 = 0 then .fin false 0 0 false
  else v.mul (scaleVal c)

/-- |a| ≤ b × c for finite values. -/
def FVal.leProd (a b c : FVal) : Bool :=
  match FVal.sum .rn [b.mul c, a.abs.neg] with
  | .fin neg m _ _ => !neg || m == 0
  | _ => false
/-- `scfit` (R220). -/
def scfitR (a b : Nat) : Nat :=
  let va := fF32.val a
  let vb := fF32.val b
  match va, vb with
  | .fin _ m _ _, .fin nb n _ _ =>
    if nb || n = 0 then 255
    else if m = 0 then 0
    else ((List.range 255).find? fun s => s != 0 && va.leProd (scaleVal s) vb).getD 254
  | _, _ => 255

/-! ### DS8 and SS4 encoders (R190, R219) -/

/-- The nearer of two candidates to v (in units of 2^y, y ≤ −6): distance, then magnitude, then encoding. -/
def nearest (val : Nat → Int) (n : Nat) (v : FVal) : Nat :=
  let y := min v.exp (-6)
  let target := v.scaled y
  let dist := fun (e : Nat) => (val e * 2 ^ (-6 - y).toNat - target).natAbs
  (List.range n).foldl (fun best e =>
    if dist e < dist best || (dist e == dist best && decide ((val e).natAbs < (val best).natAbs)) then e else best) 0
/-- `dsenc` (R219): beyond the range, and infinities, go to the ends; NaN encodes as zero. -/
def dsencR (ss4 : Bool) (a : Nat) : Nat :=
  match fF32.val a with
  | .nan => if ss4 then 0x7 else 0x08
  | .inf neg => if ss4 then (if neg then 0x8 else 0x0) else (if neg then 0x88 else 0x00)
  | .fin neg m x st =>
    -- far beyond the range, the ends; elsewhere the nearest value
    if 8 ≤ bitLen m + x then (if ss4 then (if neg then 0x8 else 0x0) else (if neg then 0x88 else 0x00))
    else if ss4 then nearest ss4Val 16 (.fin neg m x st) else nearest ds8Val 256 (.fin neg m x st)

/-! ### The matrix sum (R195, R196) -/

/-- One chunk of R195: an F32 accumulator and the exact products. -/
def chunkF32 (acc : Word) (ps : List FVal) : Word :=
  BitVec.ofNat 32 (fF32.round .rn false (FVal.sum .rn (fF32.val acc.toNat :: ps)))
/-- One chunk of R196. -/
def chunkI32 (acc : Word) (ps : List FVal) : Word :=
  BitVec.ofInt 32 (ps.foldl (fun s p => s + p.scaled 0) acc.toInt)
/-- A list cut into chunks of 64. -/
def chunks64 (ps : List α) : Nat → List (List α)
  | 0 => []
  | n + 1 => if ps.isEmpty then [] else ps.take 64 :: chunks64 (ps.drop 64) n

/-! ### Attention triples (R199) -/

/-- The factors of R199 for m1, m2; none when either is NaN; `big` −∞ gives none of the two. -/
structure Merge2 where
  big : Word
  f1 : Word
  f2 : Word
  empty : Bool
deriving DecidableEq, Repr

def side (big m : Word) : Word :=
  if m = big then 0x3F800000
  else if m = 0xFF800000 then 0
  else BitVec.ofNat 32 (exp2r (f32sub m big).toNat)
def mergeFactors (m1 m2 : Word) : Option Merge2 :=
  if fF32.isNaN m1.toNat || fF32.isNaN m2.toNat then none
  else
    let big := f32max m1 m2
    -- m = big is a comparison of values: −0 equals +0
    let z := fun (m : Word) => if m = 0x80000000 then (0 : Word) else m
    some ⟨big, side (z big) (z m1), side (z big) (z m2), big == 0xFF800000⟩
/-- One element of the combined triple (R199): x of l or of any o[k]. -/
def mergeElem (f : Option Merge2) (x1 x2 : Word) : Word :=
  match f with
  | none => 0x7FC00000
  | some f => if f.empty then 0 else f32fma x2 f.f2 (f32mul x1 f.f1)
/-- The maximum of the combined triple (R199). -/
def mergeMax (f : Option Merge2) : Word :=
  match f with
  | none => 0x7FC00000
  | some f => f.big

end Sys2Proof.Machine
end

