-- ==== Sys2Proof/Machine/Group.lean ====
section
/-! DEFINITION. Sys2Proof/Machine/Group.lean: group instructions and `sval`, opcodes 0x68 to 0x75 (R154 to R163, R66). -/
namespace Sys2Proof.Machine

/-- The participants of a lane's group, in ascending lane index (R154). -/
def State.parts (s : State) (g : Guard) (id : SId) : List Stream :=
  let t := s.curTeam
  ((s.active g).filter fun x => t.group x = t.group id).map s.stream

/-- A group instruction: each participant receives a value computed from the participants as they were before any write. -/
def State.groupOp (s : State) (g : Guard) (d : Dst) (kill : Stream → Stream) (f : List Stream → Stream → DWord) : State :=
  s.retireLanes g fun st => d.write (kill st) (f (s.parts g st.id) st)

def State.laneIx (s : State) (st : Stream) : Nat := s.curTeam.lane st.id

/-! ### Shuffles (R156, R157) -/

/-- The value of a shuffle with source index `src`: the participant's S1, else the fill. -/
def State.shuffled (s : State) (ps : List Stream) (s1 fill : Reg) (src : Int) (st : Stream) : DWord :=
  match ps.find? fun p => (s.laneIx p : Int) == src with
  | some p => (p.rd s1).setWidth 64
  | none => (st.rd fill).setWidth 64
def execShfl (o : Alu3) (s : State) : Out :=
  .next (s.groupOp o.g (.r32 o.d) (fun st => (st.kill o.s1 o.k1).kill o.s2 o.k2) fun ps st =>
    s.shuffled ps o.s1 o.s3 ((st.rd o.s2).toNat : Int) st)
def State.shuffle (s : State) (o : Alu1) (f : Reg) (src : Nat → Int) : State :=
  s.groupOp o.g (.r32 o.d) (fun st => st.kill o.s1 o.k1) fun ps st => s.shuffled ps o.s1 f (src (s.laneIx st)) st
def execShfx (o : Alu1) (f : Reg) (m : BitVec 6) (s : State) : Out :=
  .next (s.shuffle o f fun l => ((l ^^^ m.toNat : Nat) : Int))
def execShup (o : Alu1) (f : Reg) (m : BitVec 6) (s : State) : Out := .next (s.shuffle o f fun l => (l : Int) - m.toNat)
def execShdn (o : Alu1) (f : Reg) (m : BitVec 6) (s : State) : Out := .next (s.shuffle o f fun l => (l : Int) + m.toNat)
def execGbcast (o : Alu1) (f : Reg) (m : BitVec 6) (s : State) : Out := .next (s.shuffle o f fun _ => (m.toNat : Int))

/-! ### Votes, reductions and scans (R158 to R161) -/

/-- The mask of the participants that satisfy a test. -/
def State.partMask (s : State) (ps : List Stream) (p : Stream → Bool) : DWord := maskOf ((ps.filter p).map s.laneIx)
def voteR (op : VoteOp) (bs : List Bool) : DWord :=
  match op with
  | .every => (bit (bs.all id)).setWidth 64
  | .some => (bit (bs.any id)).setWidth 64
  | .same => (bit (bs.all id || !bs.any id)).setWidth 64
  | _ => BitVec.ofNat 64 (bs.filter id).length
def execVote (o : Alu1) (op : VoteOp) (s : State) : Out :=
  .next (s.groupOp o.g (if op = .bits then .r64 o.d else .r32 o.d) (fun st => st.kill o.s1 o.k1) fun ps _ =>
    let p := fun (st : Stream) => (st.rd o.s1).getLsbD 0
    if op = .bits then s.partMask ps p else voteR op (ps.map p))

/-- A fold in ascending lane index; `z` for no participant. -/
def fold1 (f : Word → Word → Word) (z : Word) : List Word → Word
  | [] => z
  | v :: r => r.foldl f v
/-- A NaN that a fold of F32 values leaves is made canonical, that of a single participant too (R185). -/
def mtypeFix (t : MType) (a : Word) : Word := if t = .f32 then BitVec.ofNat 32 (fF32.canon a.toNat) else a
def State.reduce (s : State) (o : Alu1) (t : MType) (f : Word → Word → Word) : State :=
  s.groupOp o.g (.r32 o.d) (fun st => st.kill o.s1 o.k1) fun ps _ =>
    (mtypeFix t (fold1 f 0 (ps.map fun p => p.rd o.s1))).setWidth 64
/-- The sums of R159 and R160: the step of the fold, and the type of its value. -/
def sumStep (f32 : Bool) : Word → Word → Word := if f32 then f32add else fun a b => a + b
def sumType (f32 : Bool) : MType := if f32 then .f32 else .i32
def execGsum (o : Alu1) (f32 : Bool) (s : State) : Out := .next (s.reduce o (sumType f32) (sumStep f32))
/-- F32 minimum and maximum of a list: NaN inputs ignored, all NaN gives the canonical NaN (R159). -/
def mtypeOp (max : Bool) (t : MType) (a b : Word) : Word :=
  match t with
  | .i32 => if BitVec.sle a b != max then a else b
  | .n32 => if BitVec.ule a b != max then a else b
  | .f32 => if max then f32max a b else f32min a b
def execGmax (o : Alu1) (t : MType) (s : State) : Out := .next (s.reduce o t (mtypeOp true t))
def execGmin (o : Alu1) (t : MType) (s : State) : Out := .next (s.reduce o t (mtypeOp false t))
def execGbit (o : Alu1) (op : BitOp) (s : State) : Out :=
  .next (s.reduce o .i32 (match op with
    | .and => fun a b => a &&& b
    | .or => fun a b => a ||| b
    | .xor => fun a b => a ^^^ b))
/-- R160: a fold of the participants at or below the lane, or below it. -/
def execGscan (o : Alu1) (excl f32 : Bool) (s : State) : Out :=
  .next (s.groupOp o.g (.r32 o.d) (fun st => st.kill o.s1 o.k1) fun ps st =>
    let upTo := ps.filter fun p => decide (s.laneIx p < s.laneIx st) || (!excl && s.laneIx p == s.laneIx st)
    (mtypeFix (sumType f32) (fold1 (sumStep f32) 0 (upTo.map fun p => p.rd o.s1))).setWidth 64)
/-- R161. -/
def execMatchAny (o : Alu1) (i64 : Bool) (s : State) : Out :=
  let v := fun (st : Stream) => if i64 then st.rd64 o.s1 else (st.rd o.s1).setWidth 64
  .next (s.groupOp o.g (.r64 o.d) (fun st => if i64 then st.kill64 o.s1 o.k1 else st.kill o.s1 o.k1) fun ps st =>
    s.partMask ps fun p => v p == v st)
def execAmask (g : Guard) (d : Reg) (s : State) : Out :=
  .next (s.groupOp g (.r64 d) id fun ps _ => s.partMask ps fun _ => true)

/-! ### Identity (R66, R163) -/

/-- The value of a code of R66 in a stream. -/
def State.identity (s : State) (st : Stream) (code : Nat) : Word :=
  let t := s.team st.id.tcx
  let lane := st.id.kind == .lane
  let tid := if lane then st.id.unit else 0
  let n := fun (x : Nat) => BitVec.ofNat 32 x
  let core := if st.id.kind = .control then 4 * t.cluster else t.coreOf st.id
  match code with
  | 0x00 => n tid
  | 0x01 => n (tid % t.recd.teamX)
  | 0x02 => n (tid / t.recd.teamX % t.recd.teamY)
  | 0x03 => n (tid / t.recd.teamX / t.recd.teamY)
  | 0x04 => n t.tx
  | 0x05 => n t.ty
  | 0x06 => n t.tz
  | 0x07 => if lane then n (t.group st.id) else 0
  | 0x08 => n t.recd.groupW
  | 0x09 => n t.size
  | 0x0A => n core
  | 0x0B => n t.cluster
  | 0x0C => n t.die
  | 0x0D => t.vaultBase
  | 0x0E => t.rank
  | 0x0F => t.nranks
  | 0x10 => n (s.gts % 2 ^ 32)
  | 0x11 => st.gtsHi.getD (n (s.gts / 2 ^ 32))
  | 0x12 => n (s.clock.cycles % 2 ^ 32)
  | 0x13 => t.recd.args.extractLsb' 0 32
  | 0x14 => t.recd.args.extractLsb' 32 32
  | 0x15 => t.recd.addr.extractLsb' 0 32
  | 0x16 => t.recd.addr.extractLsb' 32 32
  | 0x17 => (match st.id.kind with | .lane => 0 | .carter => 1 | .control => 2)
  | _ => if !t.recd.paired || st.id.kind == .control then 0xFFFFFFFF else n (t.half st.id)
/-- The latch of GTS[63:32] that a read of GTS_LO sets (R66). -/
def State.latched (s : State) (st : Stream) (code : Nat) : Stream :=
  if code = 0x10 then { st with gtsHi := some (BitVec.ofNat 32 (s.gts / 2 ^ 32)) } else st
def execSval (g : Guard) (d : Reg) (code : BitVec 5) (s : State) : Out :=
  let v := fun (st : Stream) => s.identity st code.toNat
  .next (
    if !Reg.isPort d then s.retireLanes g fun st => (s.latched st code.toNat).wr d (v st)
    else
      -- the value is pushed (R263)
      let s1 := s.alu g (.r32 d) noSrc noSrc noSrc fun st _ _ _ => (v st).setWidth 64
      s1.onLanes s.cur.lanes fun st => if guardHolds g st && st.pc == s.cur.npc then s.latched st code.toNat else st)

end Sys2Proof.Machine
end

