-- ==== Sys2Proof/Machine/Sync.lean ====
section
/-! DEFINITION. Sys2Proof/Machine/Sync.lean: issue of the atomics, `fence`, barriers, completion counters and `hsig` (R354 to
R372). -/
namespace Sys2Proof.Machine

/-! ### Atomics (R354 to R360) -/

/-- Bytes of an operation (R356). -/
def rmwSize : RmwOp → Nat
  | .add64 => 8 | .cas64 => 8 | _ => 4
/-- The operands of a lane (R355): b, and c for a compare-and-swap. -/
def atomArgs (op : RmwOp) (r : Reg) (st : Stream) : DWord × DWord :=
  match op with
  | .add64 => (st.rd64 r, 0)
  | .cas => ((st.rd r).setWidth 64, (st.rd (r.up 1)).setWidth 64)
  | .cas64 => (st.rd64 r, st.rd64 (r.up 2))
  | _ => ((st.rd r).setWidth 64, 0)
/-- Kill of every register of the operand (R355). -/
def atomKill (op : RmwOp) (r : Reg) (k : Bool) (st : Stream) : Stream :=
  match op with
  | .add64 | .cas => st.kill64 r k
  | .cas64 => (st.kill64 r k).kill64 (r.up 2) k
  | _ => st.kill r k

/-- The checks of an atomic in one lane (R357): those of R70, and no page of TARGET 10. -/
def State.atomCheck (s : State) (id : SId) (ak : AK) (a : DWord) (n : Nat) : Except Fail Checked :=
  match s.checkAt id ak allClasses a n n with
  | .error e => .error e
  | .ok c => if c.loc.space = .host then .error (.trap cPagePermission a) else .ok c

/-- The lanes that name one address, together (R358): the distinct keys in order of their first lane. -/
def requests (cs : List (SId × Checked)) : List (List (SId × Checked)) :=
  (cs.foldl (fun ks c => if c.2.loc.key ∈ ks then ks else ks ++ [c.2.loc.key]) []).map fun k =>
    cs.filter fun c => c.2.loc.key = k

def atomForm (o : Atom) (kind : OpKind) (size ctr : Nat) : OpForm :=
  ⟨kind, o.d, size, o.ord, true, o.agent, o.stor, .none, ctr⟩

/-- Issue of a scoped instruction whose checks have passed: the waits of R330 and R338, then one operation for each
request. -/
def State.atomGo (s : State) (o : Atom) (f : OpForm) (ak : AK) (args : Stream → DWord × DWord) (kill : Stream → Stream)
    (reqs : List (List (SId × Checked))) (cs : List (SId × Checked)) : State :=
  let ids := s.active o.g
  if s.replyFull ((ids.head?.map s.curTeam.coreOf).getD 0) cs || s.remoteHeld f cs then s.stalled
  else match s.farWait true o.ord o.stor cs with
    | .park m => s.parkLanes (.fence m)
    | .stall => s.stalled
    | .go =>
      let s0 := if ordReleases o.ord && cs.any (fun c => c.2.loc.ranked) then s.releaseTag s.curTag else s
      let s1 := reqs.foldl (fun s r =>
        match r.head? with
        | none => s
        | some c =>
          let s1 := r.foldl (fun s c => s.touch (s.who (s.stream c.1)) ak c.2) s
          s1.launchOp (s.team c.1.tcx).recd.asid
            (s1.mkOp f (r.map fun c => ⟨c.1, (args (s.stream c.1)).1, (args (s.stream c.1)).2⟩) none c.2)) s0
      (s1.acquired o.ord ids).retireLanes o.g fun st => kill (st.kill64 o.s1 o.k1)

/-- An atomic (R354 to R360). -/
def State.atomic (s : State) (o : Atom) (op : RmwOp) : State :=
  let ids := s.active o.g
  let ctr := if o.d = 0 then 1 else 0
  if s.counterFull ids ctr || (ordAcquires o.ord && s.flushWait ids) then s.stalled
  else match checkAll (fun id => s.atomCheck id .atomic ((s.stream id).rd64 o.s1) (rmwSize op)) ids with
    | .error (id, e) => s.failLane o.g .atomic (s.stream id) e
    | .ok cs =>
      s.atomGo o (atomForm o (.rmw op (o.d != 0)) (rmwSize op) ctr) .atomic (atomArgs op o.s2) (atomKill op o.s2 o.k2)
        (requests cs) cs

def execAadd (o : Atom) (s : State) : Out := .next (s.atomic o .add)
def execAadd64 (o : Atom) (s : State) : Out := .next (s.atomic o .add64)
def execAaddf (o : Atom) (s : State) : Out := .next (s.atomic o .addf)
def execAadd2h (o : Atom) (s : State) : Out := .next (s.atomic o .add2h)
def execAmin (o : Atom) (u : Bool) (s : State) : Out := .next (s.atomic o (if u then .umin else .min))
def execAmax (o : Atom) (u : Bool) (s : State) : Out := .next (s.atomic o (if u then .umax else .max))
def execAminf (o : Atom) (s : State) : Out := .next (s.atomic o .minf)
def execAmaxf (o : Atom) (s : State) : Out := .next (s.atomic o .maxf)
def execAand (o : Atom) (s : State) : Out := .next (s.atomic o .and)
def execAor (o : Atom) (s : State) : Out := .next (s.atomic o .or)
def execAxor (o : Atom) (s : State) : Out := .next (s.atomic o .xor)
def execAxchg (o : Atom) (s : State) : Out := .next (s.atomic o .xchg)
def execAcas (o : Atom) (s : State) : Out := .next (s.atomic o .cas)
def execAcas64 (o : Atom) (s : State) : Out := .next (s.atomic o .cas64)
def execAinc (o : Atom) (s : State) : Out := .next (s.atomic o .inc)
def execAdec (o : Atom) (s : State) : Out := .next (s.atomic o .dec)
/-- R370. -/
def execCtadd (o : Atom) (err : Bool) (s : State) : Out := .next (s.atomic o (.ctadd err))

/-- R371: a 4-byte load of the counter with its order and scope. -/
def execCtrd (o : Atom) (s : State) : Out :=
  let ids := s.active o.g
  .next (
    if s.counterFull ids 0 || (ordAcquires o.ord && s.flushWait ids) then s.stalled
    else match checkAll (fun id => s.checkAt id .load allClasses ((s.stream id).rd64 o.s1) 4 4) ids with
      | .error (id, e) => s.failLane o.g .load (s.stream id) e
      | .ok cs => s.atomGo o (atomForm o (.load false) 4 0) .load (fun _ => (0, 0)) id (cs.map fun c => [c]) cs)

/-! ### waitc (R369) -/

/-- The test of `waitc` (R369). -/
def waitcHolds (word : Word) (t : Nat) : Bool :=
  word.msb || decide ((word.toNat % 2 ^ 31 + (2 ^ 31 - t)) % 2 ^ 31 < 2 ^ 30)

/-- The check of `waitc` in one lane: classes 00 and 01, and no page of TARGET 01 or 10 (R368). -/
def State.waitcCheck (s : State) (id : SId) (a : DWord) : Except Fail Checked :=
  match s.checkAt id .load ⟨true, true, false⟩ a 4 4 with
  | .error e => .error e
  | .ok c => if c.loc.space = .host || c.loc.space = .pod then .error (.trap cPagePermission a) else .ok c

/-- The read that `waitc` makes of its counter, with its order, scope and mask. -/
def waitcForm (o : Atom) : OpForm := ⟨.load false, 0, 4, o.ord, true, o.agent, o.stor, .none, 0⟩

/-- `waitc` in one active lane: D takes the word before an error is delivered, and the operands stay for the next execution
then (R369). -/
def State.waitcLane (s : State) (o : Atom) (id : SId) (c : Checked) : State :=
  let t := ((s.stream id).rd o.s2).toNat % 2 ^ 31
  let (w, s1) := s.loadNow id c (waitcForm o)
  if !waitcHolds w t then
    s1.onLane id fun st => { st.parkAt (.waitc c.loc t) with pc := s.cur.pc }
  else
    let s2 := s1.noteDone (s1.loadAt (waitcForm o) id c) []
    let done := fun (st : Stream) => (((st.kill64 o.s1 o.k1).kill o.s2 o.k2).wr o.d w).goto s.cur.npc
    match (s2.stream id).slots.cp with
    | some e =>
      if w.msb then (s2.onLane id fun st => st.wr o.d w).deliver id 2 e
      else s2.onLane id done
    | none => s2.onLane id done
def execWaitc (o : Atom) (s : State) : Out :=
  let ids := s.active o.g
  .next (
    if ordAcquires o.ord && s.flushWait ids then s.stalled
    else match checkAll (fun id => s.waitcCheck id ((s.stream id).rd64 o.s1)) ids with
      | .error (id, e) => s.failLane o.g .load (s.stream id) e
      | .ok cs =>
        if cs.any fun c => s.mustWaitAs (waitcForm o) c.1 c.2 then s.stalled
        else match s.farWait true o.ord o.stor cs with
          | .park m => s.parkLanes (.fence m)
          | .stall => s.stalled
          | .go => cs.foldl (fun s c => s.waitcLane o c.1 c.2) ((s.acquired o.ord ids).skipLanes o.g))

/-! ### fence (R341, R363) -/

/-- Some lane has an operation not yet performed in a space of the mask. -/
def State.pendingIn (s : State) (ids : List SId) (m : BitVec 5) : Bool :=
  s.ops.any fun o => !o.isFence && inMask m o.loc.space && ids.any fun id => o.ofStream id

/-- The marker of a fence in one lane; it counts on no counter. -/
def State.markFence (s : State) (ord : Order) (agent : Agent) (m : BitVec 5) (id : SId) : State :=
  let o : MemOp := ⟨s.nextOp, .fence ord, [⟨id, 0, 0⟩], 0, none, 0, ⟨.vault, 0, 0, false⟩, 0, ord, true, agent, m, .none,
    0, 0, 0, .issued, 0, none⟩
  let s1 := s.noteFence id ord agent m
  { s1 with ops := pruneFences (s1.ops ++ [o]), nextOp := s1.nextOp + 1 }

def execFence (g : Guard) (ord : Order) (agent : Agent) (stor : BitVec 5) (s : State) : Out :=
  let ids := s.active g
  .next (
    if ord = .rlx then s.retireLanes g id
    else if ordAcquires ord && s.flushWait ids then s.stalled
    else if s.pendingIn ids (stor &&& farMask) then s.parkLanes (.fence (stor &&& farMask))
    -- the lines of the context are written back once the writes that the fence releases have been performed (R352)
    else if s.vt.migrateMode && stor != 0 && s.pendingIn ids stor then s.stalled
    else
      let s0 := if stor = 0 then s else s.releaseTag s.curTag
      ((ids.foldl (fun s id => s.markFence ord agent stor id) s0).acquired ord ids).retireLanes g id)

/-! ### Barriers (R364 to R367) -/

/-- Arrivals of lanes, one after another: each lane with the generation it belongs to, and the barrier afterwards. -/
def arrivals (live : Nat) (count : Option Nat) : List SId → Barrier → List (SId × Word) × Barrier
  | [], b => ([], b)
  | id :: r, b =>
    let b1 := b.arrive count
    let (gs, b2) := arrivals live count r (b1.eval live)
    ((id, b.gen) :: gs, b2)

/-- The count operand of a barrier (R364, R365): bits [11:0] of the register in the lowest active thread; ALL when zero. -/
def State.barCount (s : State) (o : BarOp) : Option Nat :=
  match s.lowest o.g with
  | none => none
  | some st =>
    let n := (st.rd o.s2).toNat % 4096
    if n = 0 then none else some n

/-- The waits before an arrival or a return with the order of R366: earlier accesses in the spaces of STOR are performed
first. -/
def State.barWait (s : State) (ids : List SId) (rlx arrive ret : Bool) (stor : BitVec 5) : Option State :=
  if !rlx && ret && s.flushWait ids then some s.stalled
  else if !rlx && arrive && (s.pendingIn ids stor || s.carriedIn ids stor) then some s.stalled
  else none

/-- What an arrival at a barrier releases beyond the spaces that it has waited for (R342, R366). -/
def State.arriveWith (s : State) (key : Option Nat) (ids : List SId) : State :=
  ids.foldl (fun s id =>
    let ops := s.pendingBefore (s.stream id) s.nextOp
    if ops.isEmpty then s
    else s.onLane id fun st => { st with arrived := (st.arrived.filter fun e => e.2.any s.live) ++ [(key, ops)] }) s



/-- What the arrivals at a barrier have released and has not been performed. -/
def State.barCarry (s : State) (id : SId) (key : Option Nat) : List Nat :=
  s.streams.flatMap fun x =>
    let mine := match key with
      | some _ => x.id.tcx == id.tcx
      | none => (s.team x.id.tcx).grid == (s.team id.tcx).grid
    if mine then (x.arrived.filter fun e => e.1 == key).flatMap fun e => e.2.filter s.live else []
/-- A thread returns from a barrier: an acquire (R342, R366). -/
def State.barReturn (s : State) (key : Option Nat) (st : Stream) : Stream :=
  match s.barCarry st.id key with
  | [] => st
  | ops => { st with carried := (st.carried.filter fun c => s.live c.2) ++ ops.map fun n => (s.nextOp, n) }

/-- The generation a lane's arrival belongs to. -/
def genOf (gs : List (SId × Word)) (id : SId) : Word := ((gs.find? fun g => g.1 = id).map (·.2)).getD 0

def State.barArrive (s : State) (o : BarOp) (wait : Bool) : State :=
  let ids := s.active o.g
  let t := s.curTeam
  let count := s.barCount o
  let b := t.barrier o.id.toNat
  match ids.head? with
  | none => s.retireLanes o.g id
  | some _ =>
    match s.barWait ids o.rlx true wait o.stor with
    | some s1 => s1
    | none =>
      if b.disagrees count then s.trapLow o.g cIllegalOperand
      else
        let (gs, b1) := arrivals (s.liveLanes t.tcx) count ids b
        let s0 := if o.rlx then s else s.releaseTag s.curTag
        let s1 := (if o.rlx then s0 else s0.arriveWith (some o.id.toNat) ids).setBar t.tcx o.id.toNat b1
        let s2 := s1.onTeam t.tcx fun x => x.noteBar o.id.toNat wait gs b1.gen
        if wait then
          let s3 := if o.rlx then s2 else s2.acquired .acq ids
          (s3.skipLanes o.g).onLanes ids fun st => st.parkAt (.bar o.id.toNat (genOf gs st.id) false o.rlx)
        else s2.retireLanes o.g fun st => st.wr o.d (genOf gs st.id)

/-- R365. -/
def execBar (o : BarOp) (s : State) : Out := .next (s.barArrive o true)
def execBararr (o : BarOp) (s : State) : Out := .next (s.barArrive o false)
/-- R365: parks while GEN is the generation that S1 names. -/
def execBarwt (o : BarOp) (s : State) : Out :=
  let ids := s.active o.g
  let gen := (s.curTeam.barrier o.id.toNat).gen
  .next (
    match s.barWait ids o.rlx false true o.stor with
    | some s1 => s1
    | none =>
      (if o.rlx then s else s.acquired .acq ids).onLanes s.cur.lanes fun st =>
        if guardHolds o.g st && st.rd o.s1 == gen then st.parkAt (.bar o.id.toNat gen true o.rlx)
        else (if o.rlx || !guardHolds o.g st then st else s.barReturn (some o.id.toNat) st).goto s.cur.npc)

/-- R367. -/
def execGbar (g : Guard) (rlx : Bool) (stor : BitVec 5) (s : State) : Out :=
  let ids := s.active g
  let t := s.curTeam
  let b := sget blankBar s.gbars t.grid
  .next (
    match ids.head? with
    | none => s.retireLanes g id
    | some _ =>
      if !t.recd.coteam then s.trapLow g cIllegalOperand
      else match s.barWait ids rlx true true stor with
        | some s1 => s1
        | none =>
          let all := ((s.teams.filter fun x => x.grid == t.grid).map fun x => s.liveLanes x.tcx).sum
          let (gs, b1) := arrivals all none ids b
          let s0 := if rlx then s else (s.releaseTag s.curTag).acquired .acq ids
          let s2 := if rlx then s0 else s0.arriveWith none ids
          let s1 := { s2 with gbars := sset blankBar s2.gbars t.grid b1 }
          (s1.skipLanes g).onLanes ids fun st => st.parkAt (.gbar (genOf gs st.id) rlx))

/-! ### hsig (R372) -/

def execHsig (g : Guard) (s1 : Reg) (k1 : Bool) (s2 : Reg) (k2 : Bool) (vector : BitVec 11) (s : State) : Out :=
  let t := s.curTeam
  .next (
    match s.lowest g with
    | none => s.retireLanes g id
    | some low =>
      let f : OpForm := ⟨.hsig t.fn vector.toNat (s1 != 0), 0, if s1 = 0 then 0 else 4, .rel, true, .sys, 0b11111, .none, 1⟩
      if (s.fn t.fn).msix + 1 ≤ vector.toNat then s.trapLow g cIllegalOperand
      else if s.counterFull [low.id] 1 then s.stalled
      else
        let go := fun (c : Checked) =>
          if s.pendingIn [low.id] 0b11111 || s.carriedIn [low.id] 0b11111 then s.stalled
          else if s.replyFull (t.coreOf low.id) [(low.id, c)] then s.stalled
          else (((s.releaseTag s.curTag).touch (s.who low) .store c).launchOp t.recd.asid
            (s.mkOp f [⟨low.id, (low.rd s2).setWidth 64, 0⟩] none c)).retireLanes g fun st => (st.kill64 s1 k1).kill s2 k2
        if s1 = 0 then go ⟨⟨.host, hostKey, 0, false⟩, 0, none⟩
        else match s.checkAt low.id .store allClasses (low.rd64 s1) 4 4 with
          | .error e => s.failLane g .store low e
          | .ok c => go c)

end Sys2Proof.Machine
end

