-- ==== Sys2Proof/Machine/Carter.lean ====
section
/-! DEFINITION. Sys2Proof/Machine/Carter.lean: queue instructions, Carter streams and Carter transfers, opcodes 0xE0 to 0xE9
(R269 to R278). -/
namespace Sys2Proof.Machine

/-! ### Queue instructions -/

/-- Port number 0 to 15 of a port register. -/
def portIdx (p : Reg) : Nat := p.toNat - 240
/-- Rebind a port of the issuing core (R262, R270). -/
def Team.rebind (t : Team) (up : Bool) (f : List (Nat × Nat) → List (Nat × Nat)) : Team :=
  if up then { t with binds := (t.binds.1, f t.binds.2) } else { t with binds := (f t.binds.1, t.binds.2) }

/-- R270. -/
def execQbind (g : Guard) (p : Reg) (k : BitVec 4) (s : State) : Out :=
  let t := s.curTeam
  .next (
    match s.lowest g with
    | none => s.retireLanes g id
    | some low =>
      if t.recd.qports ≤ k.toNat then s.trapLow g cIllegalOperand
      else (s.onTeam t.tcx fun t => t.rebind (t.half low.id == 1) fun b =>
        (portIdx p, k.toNat) :: b.filter fun e => e.1 ≠ portIdx p).retireLanes g id)
def execQbindUn (g : Guard) (p : Reg) (s : State) : Out :=
  let t := s.curTeam
  .next (
    match s.lowest g with
    | none => s.retireLanes g id
    | some low =>
      (s.onTeam t.tcx fun t => t.rebind (t.half low.id == 1) fun b => b.filter fun e => e.1 ≠ portIdx p).retireLanes g id)

/-- The word of R271. -/
def State.qstatWord (s : State) (key : Option Nat) : Word :=
  match key with
  | none => 0
  | some k => 0#16 ++ BitVec.ofNat 5 (k % 32) ++ 1#1 ++ BitVec.ofNat 5 (s.queue k).free ++ BitVec.ofNat 5 (s.queue k).ready
def execQstat (g : Guard) (d p : Reg) (s : State) : Out :=
  .next (s.retireLanes g fun st => st.wr d (s.qstatWord (s.portKey st.id p)))

/-- R272: every group of the issue group reads the same entry. -/
def execQpeek (g : Guard) (d p : Reg) (pos : BitVec 4) (s : State) : Out :=
  .next (
    match s.lowest g with
    | none => s.retireLanes g id
    | some low => match s.portKey low.id p with
      | none => s.trapLow g cIllegalOperand
      | some key =>
        if (s.queue key).ready ≤ pos.toNat then s.stalled
        else
          let es := (((s.queue key).entries[pos.toNat]?).map (·.elems)).getD []
          let t := s.curTeam
          s.retireLanes g fun st => st.wr d (sget 0 es (t.lane st.id)))

/-- R273: it never stalls, and takes its entries also while an `mmul` holds the head against pops (R289; log entry 107). -/
def execQdrop (g : Guard) (d p : Reg) (n : BitVec 5) (s : State) : Out :=
  .next (
    match s.lowest g with
    | none => s.retireLanes g id
    | some low => match s.portKey low.id p with
      | none => s.trapLow g cIllegalOperand
      | some key =>
        let q := s.queue key
        let m := min n.toNat q.ready
        ((s.setQueue key (q.entries.drop m)).changed key).retireLanes g fun st => st.wr d (BitVec.ofNat 32 m))

/-! ### Carter streams (R266, R274) -/

/-- A team whose context lies in the active bank set of its core. -/
def Team.resident (t : Team) : Bool := !t.shadow && t.image.isNone && t.ended.isNone
/-- The streams in the slots of a core's Carter. -/
def State.carterSlot (s : State) (core slot : Nat) : Option Stream :=
  s.streams.find? fun st =>
    st.id.kind == .carter && !st.exited && st.id.unit % 4 == slot && (s.team st.id.tcx).resident &&
      (s.team st.id.tcx).coreOf st.id == core

/-- R274. RANK and NRANKS of the new stream are those of its team, which were taken as the team started (R66; log entry 123). -/
def execCspawn (g : Guard) (d s1 : Reg) (k1 : Bool) (s2 : Reg) (k2 : Bool) (s : State) : Out :=
  let t := s.curTeam
  let fin := fun (s : State) (v : Word) => s.retireLanes g fun st => ((st.kill64 s1 k1).kill s2 k2).wr d v
  .next (
    match s.lowest g with
    | none => s.retireLanes g id
    | some low =>
      match targetTrap (low.rd64 s1) with
      | some c => s.trapLow g c (low.rd64 s1)
      | none =>
        let core := t.coreOf low.id
        match (List.range 4).find? fun k => (s.carterSlot core k).isNone with
        | none => fin s 0xFFFFFFFF
        | some k =>
          let id : SId := ⟨t.tcx, .carter, 4 * t.half low.id + k⟩
          let st := (newStream id (low.rd64 s1) (s.fn t.fn).defVec s.clock.cycles).wr 1 (low.rd s2)
          fin { s with streams := (s.streams.filter fun x => x.id ≠ id) ++ [st] } (BitVec.ofNat 32 k))

/-- A stream stops: it parks until its operations have completed, and its errors are discarded (R274). -/
def Stream.stop (st : Stream) : Stream := { st.parkAt .stop with slots := ⟨none, none, none, none⟩ }

def execCstop (g : Guard) (d : Reg) (slots : BitVec 4) (s : State) : Out :=
  .next (
    match s.lowest g with
    | none => s.retireLanes g id
    | some low =>
      let core := s.curTeam.coreOf low.id
      let hit := (List.range 4).filterMap fun k => if slots.getLsbD k then (s.carterSlot core k).map (·.id) else none
      let mask := hit.foldl (fun (m : Word) id => m ||| (1#32 <<< (id.unit % 4))) 0
      let s1 := s.onLanes hit Stream.stop
      let unlist := fun (m : Merge) => { m with waiters := m.waiters.filter fun w => !(hit.contains w) }
      let s2 := { s1 with tr := { s1.tr with merges := s1.tr.merges.map unlist } }
      s2.retireLanes g fun st => st.wr d mask)

/-! ### Carter transfers (R275 to R278) -/

def CarOp.bytes (o : CarOp) : Nat := 2 ^ o.esz.toNat
def c0001 : Classes := ⟨true, true, false⟩

/-- The check of one access of a transfer. -/
def State.xferCheck (s : State) (id : SId) (ak : AK) (a : DWord) (n : Nat) : Except Fail Checked := s.checkAt id ak c0001 a n n

/-- The checks of a list of addresses in element order; the first failing one decides (R276). -/
def State.xferChecks (s : State) (id : SId) (ak : AK) (n : Nat) : List (Option DWord) → Except Fail (List (Option Checked))
  | [] => .ok []
  | none :: r => match s.xferChecks id ak n r with
    | .error e => .error e
    | .ok cs => .ok (none :: cs)
  | some a :: r => match s.xferCheck id ak a n with
    | .error e => .error e
    | .ok c => match s.xferChecks id ak n r with
      | .error e => .error e
      | .ok cs => .ok (some c :: cs)

/-- Kills of a Carter data instruction. -/
def carKill (o : CarOp) (pair2 : Bool) (st : Stream) : Stream :=
  let st1 := st.kill64 o.s1 o.k1
  if pair2 then st1.kill64 o.s2 o.k2 else st1.kill o.s2 o.k2

/-- Issue of the transfer: it counts once, and its reads begin; equal addresses of a gather are read once (R277). -/
def State.startXfer (s : State) (o : CarOp) (st : Stream) (key : Nat) (gather store : Bool) (cs : List (Option Checked)) :
    State :=
  let t := s.team st.id.tcx
  let w := t.recd.groupW
  let ak : AK := if store then .store else .load
  let s1 := cs.foldl (fun s c => match c with | some c => s.touch (s.who st) ak c | none => s) s
  let x : Xfer := ⟨s1.nextOp, st.id, key / 32, key % 32, w, gather, store,
    cs.map fun c => c.map fun c => (BitVec.ofNat 64 c.va, c.loc), 2 ^ o.esz.toNat, o.sx, o.bulk, [], [], 0⟩
  let s2 := { s1 with nextOp := s1.nextOp + 1, qu := { s1.qu with xfers := s1.qu.xfers ++ [x] } }.onLane st.id fun st =>
    { st with cnt := st.cnt.add (if store then 1 else 0) 1 }
  let idx := (List.range cs.length).filterMap fun i => ((cs[i]?).bind id).map fun c => (i, c)
  -- for a gather, the first element of each distinct key reads for all of them
  let reads := if store then []
    else if gather then
      (idx.filter fun e => (idx.find? fun f => f.2.loc.key == e.2.loc.key).map (·.1) == some e.1).map fun e =>
        (e.2, (idx.filter fun f => f.2.loc.key == e.2.loc.key).map (·.1))
    else idx.map fun e => (e.2, [e.1])
  let s3 := reads.foldl (fun s r =>
    let op := elemOp x s.nextOp (.elemLoad x.num r.2 o.sx) (BitVec.ofNat 64 r.1.va) r.1.loc 0 (t.tag st.id)
    { s.onXfer x.num (fun x => { x with pending := x.pending + 1 }) with
      ops := s.ops ++ [{ op with phase := (s.sendPhase t.recd.asid op).1 }], nextOp := s.nextOp + 1 }) s2
  s3.changed key

/-- The wait for room of a new transfer (R263, R267, R276): a FREE entry for a load, a READY entry for `astore`, and room in
the gather buffer. -/
def State.xferRoom (s : State) (key n : Nat) (gather store : Bool) : Bool :=
  let used := ((s.qu.xfers.filter fun x => x.gather && x.core == key / 32).map fun x => x.elems.length).sum
  (if store then gather || (decide (0 < (s.queue key).ready) && !s.held key true) else decide (0 < s.freeOf key)) &&
  (!gather || decide (used + n ≤ 1024)) &&
  -- entries that a scatter still pops come first
  (!store || gather || !(s.qu.xfers.any fun x => x.key == key && x.store && x.unserved))

/-- `aload` and `astore` (R276). -/
def State.lineXfer (s : State) (o : CarOp) (store : Bool) : State :=
  match s.lowest o.g with
  | none => s.retireLanes o.g id
  | some st =>
    let t := s.team st.id.tcx
    let n := (st.rd o.s2).toNat
    match s.portKey st.id o.p with
    | none => s.trapLow o.g cIllegalOperand
    | some key =>
      if t.recd.groupW < n then s.trapLow o.g cIllegalOperand
      else if n = 0 then s.retireLanes o.g (carKill o false)
      else if s.counterFull [st.id] (if store then 1 else 0) then s.stalled
      else
        let stride : DWord := if o.str then (st.rd o.s3).signExtend 64 else BitVec.ofNat 64 (2 ^ o.esz.toNat)
        let addrs := (List.range n).map fun i => some (st.rd64 o.s1 + BitVec.ofNat 64 i * stride)
        match s.xferChecks st.id (if store then .store else .load) (2 ^ o.esz.toNat) addrs with
        | .error e => s.failLane o.g (if store then .store else .load) st e
        | .ok cs =>
          if !s.xferRoom key n false store then s.stalled
          else (s.startXfer o st key false store cs).retireLanes o.g (carKill o false)

def execAload (o : CarOp) (s : State) : Out := .next (s.lineXfer o false)
def execAstore (o : CarOp) (s : State) : Out := .next (s.lineXfer o true)

/-- The index array of a gather or scatter: each word, or none where it failed, with its cause in the slot (R276). -/
def State.readIndices (s : State) (id : SId) (slot : Nat) : List Checked → List (Option Word) × State
  | [] => ([], s)
  | c :: r =>
    let (w, s1) := s.tryLoad id c
    let (v, s2) := match w with
      | .ok w => (some w, s1)
      | .error e => (none, s1.recordErr id slot ⟨e, 0⟩)
    let (vs, s3) := s2.readIndices id slot r
    (v :: vs, s3)

/-- `agath` and `ascat` (R277, R278). -/
def State.indexXfer (s : State) (o : CarOp) (store : Bool) : State :=
  match s.lowest o.g with
  | none => s.retireLanes o.g id
  | some st =>
    let n := (st.rd o.s3).toNat
    let ak : AK := if store then .store else .load
    match s.portKey st.id o.p with
    | none => s.trapLow o.g cIllegalOperand
    | some key =>
      if 1024 < n then s.trapLow o.g cIllegalOperand
      else if n = 0 then s.retireLanes o.g (carKill o true)
      else if s.counterFull [st.id] (if store then 1 else 0) then s.stalled
      else
        let idxAddrs := (List.range n).map fun i => some (st.rd64 o.s2 + BitVec.ofNat 64 (4 * i))
        match s.xferChecks st.id .load 4 idxAddrs with
        | .error e => s.failLane o.g .load st e
        | .ok ics =>
          let ics := ics.filterMap id
          if ics.any fun c => s.mustWait st.id c then s.stalled
          else
            let (ws, s1) := s.readIndices st.id (if store then 1 else 0) ics
            let index := fun (w : Word) => if o.str then w.signExtend 64 else w.setWidth 64
            let addrs := ws.map fun w => w.map fun w => st.rd64 o.s1 + (index w <<< o.scale.toNat)
            match s1.xferChecks st.id ak (2 ^ o.esz.toNat) addrs with
            | .error e => s.failLane o.g ak st e
            | .ok cs =>
              -- every address is checked before any entry is reserved (R276)
              if !s.xferRoom key n true store then s.stalled
              else (s1.startXfer o st key true store cs).retireLanes o.g (carKill o true)

def execAgath (o : CarOp) (s : State) : Out := .next (s.indexXfer o false)
def execAscat (o : CarOp) (s : State) : Out := .next (s.indexXfer o true)

end Sys2Proof.Machine
end

