-- ==== Sys2Proof/Machine/Record.lean ====
section
/-! DEFINITION. Sys2Proof/Machine/Record.lean: the records of work: how a consumer reads and checks launch records, format
slots, affinity lists, tensor maps and collective descriptors, and the rejection word (R13 to R35). -/
namespace Sys2Proof.Machine

/-! ### Rejections -/

/-- A check of a record: it goes on, or ends with the rejection word (R16); what it read stays read. -/
abbrev Chk := ExceptT Word (StateM State)

/-- REASON codes (R18). -/
def rsvdField : Nat := 1
def rsvdValue : Nat := 2
def rRange : Nat := 3
def rAlign : Nat := 4
def rClass : Nat := 5
def rAsid : Nat := 6
def rUnread : Nat := 7
def rConflict : Nat := 8

/-- KIND codes (R17). -/
def kLaunch : Nat := 1
def kSlot : Nat := 2
def kAffinity : Nat := 3
def kNode : Nat := 4
def kMap : Nat := 5
def kColl : Nat := 6

/-- The rejection word (R17). -/
def rejectWord (kind reason off : Nat) : Word :=
  0#8 ++ BitVec.ofNat 8 off ++ 0#4 ++ BitVec.ofNat 4 kind ++ BitVec.ofNat 8 reason

/-- A check of a field. -/
def need (ok : Bool) (kind reason off : Nat) : Chk Unit :=
  if ok then pure () else throw (rejectWord kind reason off)

/-- An address of class 00 outside the private window (R15, R68, R86). -/
def plain00 (a : DWord) : Bool := a.extractLsb' 57 7 == 0 && a.extractLsb' 32 32 != 0x01800000#32

/-- A field of a record: `n` bytes at an offset. -/
def fld (bs : List Byte) (off n : Nat) : Nat := natOfBytes ((bs.drop off).take n)
def fld64 (bs : List Byte) (off : Nat) : DWord := BitVec.ofNat 64 (fld bs off 8)
/-- Bits of a field. -/
def bitsOf (v lo n : Nat) : Nat := v / 2 ^ lo % 2 ^ n

/-- A pointer field: zero, or class 00 and aligned (R19, R86). -/
def needPtr (a : DWord) (align kind off : Nat) : Chk Unit := do
  need (a == 0 || plain00 a) kind rClass off
  need (a.toNat % align == 0) kind rAlign off

/-! ### Reading (R13, R14) -/

/-- A consumer's accesses: the TLB of die 0, the submission's ASID, and the privilege that the ASID gives (R401). -/
def State.unit (s : State) (fn : Nat) (asid : BitVec 16) : Who :=
  ⟨.die 0, 0, asid, (s.fn fn).privV && (s.fn fn).privAsid == asid⟩

/-- A read by a unit of bytes that lie in one page: none where they cannot be read (R14). A read that misses the TLB while a fault-merge
entry of its page exists finds the page unreadable, whatever its PTE has become since (log entry 122). -/
def State.unitRead1 (s : State) (w : Who) (va n cluster : Nat) : Option (List Byte) × State :=
  match s.checkPage w .load va with
  | .error e => (none, s.refused w .load e)
  | .ok c =>
    let s1 := s.touch w .load c
    if s1.spoiled c.loc cluster n || s1.linkDown c.loc then (none, s1)
    else
      let (bs, s2) := s1.readNow c.loc cluster n none
      (some bs, s2)

def State.unitReads (s : State) (w : Who) (cluster : Nat) : List (Nat × Nat) → Option (List Byte) × State
  | [] => (some [], s)
  | p :: r => match s.unitRead1 w p.1 p.2 cluster with
    | (none, s1) => (none, s1)
    | (some bs, s1) => match s1.unitReads w cluster r with
      | (none, s2) => (none, s2)
      | (some cs, s2) => (some (bs ++ cs), s2)

/-- A read by a unit, in pieces within 64 aligned bytes. -/
def State.unitRead (s : State) (w : Who) (va n : Nat) : Option (List Byte) × State := s.unitReads w 0 (pieces va n)

/-- A write by a unit of bytes that lie in one page; it is dropped where it cannot be translated or written. -/
def State.unitWrite1 (s : State) (w : Who) (va cluster : Nat) (bs : List Byte) : State :=
  match s.checkPage w .store va with
  | .error e => s.refused w .store e
  | .ok c =>
    let s1 := s.touch w .store c
    if s1.linkDown c.loc then s1.lostWrite c.loc
    else if s1.shutHost (s1.fnOf w.asid) c.loc then s1
    else s1.writeNow c.loc cluster bs

/-- Read a record of `n` bytes after its class and alignment have been checked (R13 to R15). -/
def readRecord (fn : Nat) (asid : BitVec 16) (a : DWord) (n align kind : Nat) : Chk (List Byte) := do
  need (plain00 a) kind rClass 0
  need (a.toNat % align == 0) kind rAlign 0
  let s ← get
  match s.unitRead (s.unit fn asid) a.toNat n with
  | (none, s1) => do
    set s1
    throw (rejectWord kind rUnread 0)
  | (some bs, s1) => do
    set s1
    pure bs

/-! ### Format slots (R23, R24) -/

def checkSlot (d : DWord) : Chk Unit := do
  let v := d.toNat
  let a := bitsOf v 0 4
  let b := bitsOf v 4 4
  let int := fun (f : Nat) => f == 5 || f == 6 || f == 7
  need (decide (a < 10)) kSlot rsvdValue 0
  need (decide (b < 10)) kSlot rsvdValue 0
  need (decide (bitsOf v 8 3 < 6)) kSlot rsvdValue 0
  need (decide (bitsOf v 11 3 < 6)) kSlot rsvdValue 0
  need (decide (bitsOf v 14 2 < 2)) kSlot rsvdValue 0
  need ((bitsOf v 8 3 == 0) == (bitsOf v 14 2 == 0)) kSlot rConflict 0
  need (decide (bitsOf v 16 2 < 2)) kSlot rsvdValue 0
  need ((bitsOf v 11 3 == 0) == (bitsOf v 16 2 == 0)) kSlot rConflict 0
  need (decide (bitsOf v 18 2 < 2)) kSlot rsvdValue 0
  need (bitsOf v 18 2 == 0 || (int a && int b && bitsOf v 14 2 == 0 && bitsOf v 16 2 == 0)) kSlot rConflict 0
  need (decide (bitsOf v 20 4 < 8)) kSlot rsvdValue 0
  need (decide (bitsOf v 24 3 < 5)) kSlot rsvdValue 0
  need (v / 2 ^ 29 == 0) kSlot rsvdField 0

def checkSlots : List DWord → Chk Unit
  | [] => pure ()
  | d :: r => do
    checkSlot d
    checkSlots r

/-! ### Affinity lists (R25, R26, R63) -/

/-- A region: its start and length. -/
abbrev Region := DWord × Nat

def checkRegions (bs : List Byte) : Nat → Chk (List Region)
  | 0 => pure []
  | n + 1 => do
    let i := 3 - n
    let a := fld64 bs (16 * i)
    let l := fld bs (16 * i + 8) 4
    let ok := match (a.extractLsb' 62 2).toNat with
      | 0 => plain00 a
      | 1 => a.extractLsb' 32 30 == 0
      | _ => false
    need ok kAffinity rClass (16 * i)
    need (l != 0 || a == 0) kAffinity rsvdField (16 * i + 8)
    need (fld bs (16 * i + 12) 4 == 0) kAffinity rsvdField (16 * i + 12)
    let r ← checkRegions bs n
    pure ((a, l) :: r)

/-- The affinity list that a pointer names; the pointer's own failure is reported by the record that holds it. -/
def checkAffinity (fn : Nat) (asid : BitVec 16) (a : DWord) (kind off : Nat) : Chk (List Region) := do
  if a = 0 then pure []
  else do
    need (plain00 a) kind rClass off
    need (a.toNat % 64 == 0) kind rAlign off
    let bs ← readRecord fn asid a 64 64 kAffinity
    let r ← checkRegions bs 4
    pure (r.filter fun x => x.2 != 0)

/-- Bytes of [a, a + n) that lie in the vault of a cluster. -/
def vaultShare (a n c : Nat) : Nat := min (a + n) ((c + 1) * 2 ^ 25) - max a (c * 2 ^ 25)

/-- The affinity scores of a grid (R63): a cluster holds a share of a cache while one of its shares there is MEMBER; the LEAVING
shares of a migration do not count (log entry 123), nor do those withdrawn by a failure. -/
def State.affinity (s : State) (fn : Nat) (asid : BitVec 16) (rs : List Region) : List (Nat × Nat) :=
  rs.foldl (fun sc r =>
    let (a, l) := r
    if a.toNat / 2 ^ 62 = 1 then
      (List.range Config.clusters).foldl (fun sc c =>
        sset 0 sc c (sget 0 sc c + vaultShare (a.toNat % 2 ^ 32) l c)) sc
    else
      let w := s.unit fn asid
      match s.xlate w.at_ w.die w.asid a.toNat false with
      | .error _ => sc
      | .ok (leaf, _, _) => match s.cache? leaf.vcid with
        | none => sc
        | some c => (c.map.filter fun e => e.2.any fun n => (s.share (e.1 * 512 + n)).role == .member).foldl (fun sc e => sset 0 sc e.1 (sget 0 sc e.1 + l)) sc) []

/-- The effects of the walks that the scores have needed (R84). -/
def State.touchRegions (s : State) (fn : Nat) (asid : BitVec 16) (rs : List Region) : State :=
  rs.foldl (fun s r => if r.1.toNat / 2 ^ 62 = 1 then s else s.touchRead (s.unit fn asid) r.1.toNat) s

/-! ### Tensor maps (R30 to R32) -/

/-- The boxes; the byte count of the box, of elements of `e` bytes, is checked with the last of them (R16, R32). -/
def checkBoxes (bs : List Byte) (nd e : Nat) (half : Bool) (kind : Nat) : Nat → Chk Unit
  | 0 => pure ()
  | n + 1 => do
    let i := 15 - n
    let b := fld bs (0x10 + 2 * i) 2
    if i < nd then do
      need (decide (1 ≤ b)) kind rRange (0x10 + 2 * i)
      need (!(half && i == 0) || b % 2 == 0) kind rConflict 0x10
      let box := (List.range nd).map fun j => fld bs (0x10 + 2 * j) 2
      need (i + 1 != nd || decide (box.foldl (· * ·) 1 * e ≤ 2 ^ 40)) kind rRange (0x10 + 2 * i)
    else need (b == 0) kind rsvdField (0x10 + 2 * i)
    checkBoxes bs nd e half kind n

def checkDims (bs : List Byte) (nd : Nat) (half dst : Bool) (kind : Nat) : Nat → Chk Unit
  | 0 => pure ()
  | n + 1 => do
    let i := 15 - n
    let sz := fld bs (0x40 + 12 * i) 4
    let st := fld bs (0x44 + 12 * i) 8
    if i < nd then do
      need (decide (1 ≤ sz)) kind rRange (0x40 + 12 * i)
      need (!(half && i == 0) || sz % 2 == 0) kind rConflict 0x40
      need (!(dst && st == 0 && decide (1 < fld bs (0x10 + 2 * i) 2))) kind rConflict (0x44 + 12 * i)
    else do
      need (sz == 0) kind rsvdField (0x40 + 12 * i)
      need (st == 0) kind rsvdField (0x44 + 12 * i)
    checkDims bs nd half dst kind n

def TMap.elems (m : TMap) : Nat := m.box.foldl (· * ·) 1

/-- A tensor map, checked in the order of R16 (R30, R32). -/
def mapOf (bs : List Byte) (dst : Bool) : Chk TMap := do
  let base := fld64 bs 0
  let nd := fld bs 8 1
  let e := fld bs 9 1
  let fl := fld bs 10 2
  let half := bitsOf fl 1 1 == 1
  let ok := match (base.extractLsb' 62 2).toNat with
    | 0 => plain00 base
    | 1 => base.extractLsb' 32 30 == 0
    | 2 => true
    | _ => false
  need ok kMap rClass 0
  need (decide (1 ≤ nd) && decide (nd ≤ 16)) kMap rRange 8
  need (e == 1 || e == 2 || e == 4 || e == 8) kMap rRange 9
  need (base.toNat % e == 0) kMap rAlign 9
  need (!half || e == 1) kMap rConflict 10
  need (bitsOf fl 2 14 == 0) kMap rsvdField 10
  checkBoxes bs nd e half kMap 16
  let box := (List.range nd).map fun i => fld bs (0x10 + 2 * i) 2
  need (fld bs 0x30 16 == 0) kMap rsvdField 0x30
  checkDims bs nd half dst kMap 16
  pure { base := base, elem := e, skip := bitsOf fl 0 1 == 1, half := half, fill := BitVec.ofNat 32 (fld bs 12 4), box := box
         size := (List.range nd).map fun i => fld bs (0x40 + 12 * i) 4
         stride := (List.range nd).map fun i => fld64 bs (0x44 + 12 * i) }

/-- The bytes of a tensor map, read once (R13). -/
def readMap (fn : Nat) (asid : BitVec 16) (a : DWord) : Chk (List Byte) := readRecord fn asid a 256 64 kMap
def checkMap (fn : Nat) (asid : BitVec 16) (a : DWord) (dst : Bool) : Chk TMap := do
  let bs ← readMap fn asid a
  mapOf bs dst

/-! ### Collective descriptors (R33, R34, R375) -/

/-- The set bits of a bitmap, ascending. -/
def bitsSet (bs : List Byte) : List Nat :=
  (bs.mapIdx fun i b => (List.range 8).filterMap fun k => if b.getLsbD k then some (8 * i + k) else none).flatten

/-- Bits of an element (R181, R34). -/
def elemBits (fmt : Nat) : Nat :=
  match fmt with
  | 0 => 32 | 1 => 16 | 2 => 16 | 7 => 4 | 9 => 4 | _ => 8
/-- Bytes of `n` elements of a descriptor. -/
def collBytes (op fmt tripleD n : Nat) : Nat := if op = 4 then n * ((2 + tripleD) * 4) else n * elemBits fmt / 8

/-- ELEM_FMT is allowed for OP (R34). -/
def collFmtOk (op fmt : Nat) : Bool :=
  match op with
  | 0 => fmt == 0
  | 1 => fmt == 1
  | 2 => fmt == 0 || fmt == 1 || fmt == 2 || fmt == 5 || fmt == 6
  | 3 => fmt == 0 || fmt == 1 || fmt == 2 || fmt == 5 || fmt == 6
  | 4 => fmt == 0
  | 5 => fmt == 0
  | 7 => fmt == 0 || fmt == 1
  | _ => decide (fmt ≤ 9)

/-- Member i's rank (R33). -/
def CollDesc.rank (d : CollDesc) (i : Nat) : Nat :=
  match d.bitmap with
  | some rs => rs.getD i 0
  | none => d.base + i * d.stride
/-- The ranks of its members, ascending: the member set, however the descriptor writes it (R376). -/
def CollDesc.ranks (d : CollDesc) : List Nat := (List.range d.count).map d.rank
/-- The member index of a rank. -/
def CollDesc.member (d : CollDesc) (r : Nat) : Option Nat :=
  match d.bitmap with
  | some rs => rs.findIdx? (· = r)
  | none =>
    if d.base ≤ r ∧ (r - d.base) % d.stride = 0 ∧ (r - d.base) / d.stride < d.count then some ((r - d.base) / d.stride)
    else none
/-- The chunk count (R33); a barrier has one, without data. -/
def CollDesc.chunks (d : CollDesc) : Nat := if d.op = 5 then 1 else (d.total + d.chunk - 1) / d.chunk

/-- Open instances are those not final. -/
def State.openInsts (s : State) : List Inst := s.co.insts.filter fun i => !i.final
/-- Room for one more: an instance keeps its slot until every step of R382 is done (log entry 117). -/
def State.instRoom (s : State) : Bool := decide ((s.co.insts.filter fun i => !i.ended).length < 256)
def State.instOf (s : State) (asid : BitVec 16) (a : DWord) : Option Inst :=
  s.openInsts.find? fun i => i.asid = asid && i.addr = a

def State.wq (s : State) (n : Nat) : WorkQ := sget ⟨false, 0, 0, [], 0⟩ s.co.wqs n

/-- A collective descriptor, checked in the order of R16; with `opening`, the checks of R375 too. -/
def checkColl (fn : Nat) (asid : BitVec 16) (a : DWord) (opening : Bool) : Chk CollDesc := do
  let bs ← readRecord fn asid a 128 128 kColl
  let s ← get
  let op := fld bs 0 1
  let fmt := fld bs 2 1
  let bm := bitsOf (fld bs 3 1) 0 1 == 1
  let root := fld bs 4 4
  let base := bitsOf (fld bs 8 4) 0 17
  let count := fld bs 12 4
  let mem := fld64 bs 16
  let chunk := fld bs 0x18 4
  let td := fld bs 0x1C 2
  let send := fld64 bs 0x20
  let recv := fld64 bs 0x28
  let total := fld bs 0x30 8
  let wq := fld bs 0x44 1
  let wv := bitsOf (fld bs 0x45 1) 0 1 == 1
  let bar := op == 5
  need (decide (op ≤ 8)) kColl rsvdValue 0
  need (!opening || s.instRoom) kColl rRange 0
  need (decide (fld bs 1 1 ≤ 2)) kColl rsvdValue 1
  need (collFmtOk op fmt) kColl rsvdValue 2
  need (bitsOf (fld bs 3 1) 1 7 == 0) kColl rsvdField 3
  need (op == 8 || root == 0) kColl rsvdField 4
  need (!bm || base == 0) kColl rsvdField 8
  need (bitsOf (fld bs 8 4) 17 15 == 0) kColl rsvdField 8
  need (!opening || (s.jobOf asid).isSome) kColl rRange 8
  need (decide (1 ≤ count) && decide (count ≤ 131072)) kColl rRange 12
  need (op != 8 || decide (root < count)) kColl rRange 12
  let ranks ← (if bm then do
      need (plain00 mem) kColl rClass 16
      need (mem.toNat % 64 == 0) kColl rAlign 16
      match (s.unitRead (s.unit fn asid) mem.toNat 16384) with
      | (none, s1) => do
        set s1
        throw (rejectWord kColl rUnread 16)
      | (some m, s1) => do
        set s1
        let rs := bitsSet m
        need (rs.length == count) kColl rConflict 16
        pure (some rs)
    else do
      need (decide (1 ≤ mem.toNat % 2 ^ 17)) kColl rRange 16
      need (mem.toNat / 2 ^ 17 == 0) kColl rsvdField 16
      need (decide (base + (count - 1) * (mem.toNat % 2 ^ 17) ≤ 131071)) kColl rRange 16
      pure none : Chk (Option (List Nat)))
  let d : CollDesc :=
    { op := op, algo := fld bs 1 1, fmt := fmt, root := root, count := count, base := base, stride := mem.toNat % 2 ^ 17
      bitmap := ranks, chunk := chunk, tripleD := td, send := send, recv := recv, total := total, status := fld64 bs 0x38
      timeout := if fld bs 0x40 4 = 0 then 50000 else fld bs 0x40 4, workq := if wv then some wq else none
      notify := fld64 bs 0x48 }
  let job := s.job ((s.jobOf asid).getD 0)
  need (!opening || (d.member job.rank).isSome) kColl rConflict 12
  need (!opening || decide (d.rank (count - 1) ≤ job.last)) kColl rRange 12
  need (if bar then chunk == 0 else true) kColl rConflict 0x18
  need (bar || decide (1 ≤ chunk)) kColl rRange 0x18
  need (!(fmt == 7 || fmt == 9) || chunk % 2 == 0) kColl rConflict 0x18
  need (if op == 4 then decide (1 ≤ td) && decide (td ≤ 1024) else true) kColl rRange 0x1C
  need (op == 4 || td == 0) kColl rsvdField 0x1C
  need (fld bs 0x1E 2 == 0) kColl rsvdField 0x1E
  need (plain00 send) kColl rClass 0x20
  need (send.toNat % 64 == 0) kColl rAlign 0x20
  need (!bar || send == 0) kColl rConflict 0x20
  need (plain00 recv) kColl rClass 0x28
  need (recv.toNat % 64 == 0) kColl rAlign 0x28
  need (!bar || recv == 0) kColl rConflict 0x28
  need (if bar then total == 0 else true) kColl rConflict 0x30
  need (bar || decide (1 ≤ total)) kColl rRange 0x30
  need (!(fmt == 7 || fmt == 9) || total % 2 == 0) kColl rConflict 0x30
  let sl := collBytes op fmt td total
  let rl := if op = 6 then count * sl else sl
  need (bar || send == recv || decide (send.toNat + sl ≤ recv.toNat) || decide (recv.toNat + rl ≤ send.toNat))
    kColl rConflict 0x30
  need (plain00 d.status) kColl rClass 0x38
  need (d.status.toNat % 8 == 0) kColl rAlign 0x38
  need (decide (fld bs 0x40 4 ≤ 1000000)) kColl rRange 0x40
  need (wv || wq == 0) kColl rsvdField 0x44
  need (!(opening && wv) || ((s.wq wq).v && (s.wq wq).asid == asid)) kColl rRange 0x44
  need (bitsOf (fld bs 0x45 1) 1 7 == 0) kColl rsvdField 0x44
  need (fld bs 0x46 2 == 0) kColl rsvdField 0x46
  needPtr d.notify 4 kColl 0x48
  need (fld bs 0x50 48 == 0) kColl rsvdField 0x50
  pure d

/-! ### The launch record (R19, R20) -/

/-- What Loom keeps of a record: the record, its regions and its bound descriptor. -/
structure LaunchInfo where
  recd : Rec
  regions : List Region
  coll : Option CollDesc
deriving DecidableEq, Repr

/-- Chunk of R35 at team coordinates (x, y). -/
def Rec.chunkAt (r : Rec) (x y : Nat) : Nat :=
  r.chunkBase + (y / r.chunkY) * ((r.gridX + r.chunkX - 1) / r.chunkX) + x / r.chunkX

def State.node? (s : State) (n : Nat) : Option Node := s.loom.nodes.find? fun x => x.idx = n

/-- The bytes of a launch record, read once (R13). -/
def readLaunch (fn : Nat) (asid : BitVec 16) (a : DWord) : Chk (List Byte) := readRecord fn asid a 256 256 kLaunch
/-- The copy of a launch record, checked in the order of R16; with `opening`, its descriptor as R375 says, where it opens an
instance. At WORKQ.VALID the conflict with PERSISTENT is looked at before the reserved QUEUE (R20; log entry 122). -/
def launchOf (fn : Nat) (asid : BitVec 16) (a : DWord) (opening : Bool) (bs : List Byte) : Chk LaunchInfo := do
  let k := kLaunch
  let flags := fld bs 0x18 4
  let gw := bitsOf flags 0 2
  let paired := bitsOf flags 2 1 == 1
  let w := 16 * 2 ^ gw
  let threads := fld bs 0x14 2 * fld bs 0x16 1 * fld bs 0x17 1
  let regs := fld bs 0x1C 1
  let coll := fld64 bs 0x70
  let pn := fld bs 0x98 8
  let wq := fld bs 0xA0 8
  let pc := fld64 bs 0
  let r : Rec :=
    { kernelPc := pc, controlPc := fld64 bs 0x80, carterPc := fld64 bs 0x88, gridX := fld bs 8 4, gridY := fld bs 12 4
      gridZ := fld bs 16 4, teamX := fld bs 0x14 2, teamY := fld bs 0x16 1, teamZ := fld bs 0x17 1, regs := regs
      qports := fld bs 0x1D 1, vaultKib := fld bs 0x1E 2, groupW := w, paired := paired, coteam := bitsOf flags 6 1 == 1
      feTrap := bitsOf flags 7 1 == 1, asid := asid, level := bitsOf flags 3 3, args := fld64 bs 0x20, doneCtr := fld64 bs 0x28
      fmt := (List.range 8).map fun i => fld64 bs (0x30 + 8 * i)
      workq := if bitsOf wq 8 1 == 1 then some (bitsOf wq 0 8) else none, affinity := fld64 bs 0x90
      parent := if bitsOf pn 32 1 == 1 then some (bitsOf pn 0 16) else none, coll := coll, chunkX := fld bs 0x78 2
      chunkY := fld bs 0x7A 2, chunkBase := fld bs 0x7C 4, addr := a }
  need (fld bs 0xA8 2 == asid.toNat) k rAsid 0xA8
  need (pc != 0) k rRange 0
  need (plain00 pc) k rClass 0
  need (pc.toNat % 8 == 0) k rAlign 0
  need (decide (1 ≤ r.gridX)) k rRange 8
  need (decide (1 ≤ r.gridY)) k rRange 12
  need (decide (1 ≤ r.gridZ)) k rRange 16
  need (decide (r.gridX * r.gridY * r.gridZ ≤ 2 ^ 32 - 1)) k rRange 16
  need (decide (1 ≤ r.teamX)) k rRange 0x14
  need (decide (1 ≤ r.teamY)) k rRange 0x16
  need (decide (1 ≤ r.teamZ)) k rRange 0x17
  need (decide (gw < 3)) k rsvdValue 0x18
  need (threads % w == 0) k rConflict 0x18
  need (decide (threads ≤ if paired then 2048 else 1024)) k rRange 0x18
  need (decide (r.level < 4)) k rsvdValue 0x18
  need (flags / 512 == 0) k rsvdField 0x18
  need (decide (8 ≤ regs) && decide (regs ≤ 240) && regs % 8 == 0) k rRange 0x1C
  need (decide (threads * regs ≤ if paired then 262144 else 131072)) k rConflict 0x1C
  need (decide (r.qports ≤ 16)) k rRange 0x1D
  need (r.vaultKib % 4 == 0 && decide (r.vaultKib ≤ 32768)) k rRange 0x1E
  needPtr r.args 8 k 0x20
  needPtr r.doneCtr 4 k 0x28
  checkSlots r.fmt
  let d ← (if coll = 0 then pure none else do
    let s ← get
    let d ← checkColl fn asid coll (opening && (s.instOf asid coll).isNone)
    pure (some d) : Chk (Option CollDesc))
  need (coll == 0 || r.gridZ == 1) k rConflict 0x70
  need (coll != 0 || fld bs 0x78 8 == 0) k rsvdField 0x78
  need (coll == 0 || (r.chunkX != 0 && r.chunkY != 0)) k rRange 0x78
  need (match d with | some d => decide (r.chunkAt (r.gridX - 1) (r.gridY - 1) < d.chunks) | none => true) k rConflict 0x78
  needPtr r.controlPc 8 k 0x80
  needPtr r.carterPc 8 k 0x88
  let rg ← checkAffinity fn asid r.affinity k 0x90
  let s ← get
  need (bitsOf pn 16 16 == 0) k rsvdField 0x98
  need (match r.parent with
    | some n => (s.node? n).any fun x => x.asid == asid
    | none => true) k rRange 0x98
  need (r.parent.isSome || bitsOf pn 0 16 == 0) k rsvdField 0x98
  need (pn / 2 ^ 33 == 0) k rsvdField 0x98
  need (!(bitsOf flags 8 1 == 1) || r.workq.isSome) k rConflict 0xA0
  need (r.workq.isSome || bitsOf wq 0 8 == 0) k rsvdField 0xA0
  need (wq / 512 == 0) k rsvdField 0xA0
  need (fld bs 0xAA 86 == 0) k rsvdField 0xAA
  pure ⟨r, rg, d⟩
def checkLaunch (fn : Nat) (asid : BitVec 16) (a : DWord) (opening : Bool) : Chk LaunchInfo := do
  let bs ← readLaunch fn asid a
  launchOf fn asid a opening bs

/-- DONE_CTR of the copy of a record whose launch fails (R13, R40): none where the field is not usable. -/
def doneCtrOf (bs : List Byte) : Option DWord :=
  let c := fld64 bs 0x28
  if c ≠ 0 && c.extractLsb' 57 7 = 0 && c.toNat % 4 = 0 then some c else none

end Sys2Proof.Machine
end

