-- ==== Sys2Proof/Machine/Atomic.lean ====
section
/-! DEFINITION. Sys2Proof/Machine/Atomic.lean: the steps of atomics at the agent that performs them (R356 to R359, R370), and
the updates of completion counters (R305). -/
namespace Sys2Proof.Machine

/-- The new value of a 32-bit word (R356, R370), `b` and `c` the operand and the second word of a compare and swap. -/
def rmw32 (op : RmwOp) (old b c : Word) : Word :=
  match op with
  | .add => old + b
  | .addf => f32add old b
  | .min => if BitVec.slt b old then b else old
  | .max => if BitVec.slt old b then b else old
  | .umin => if b < old then b else old
  | .umax => if old < b then b else old
  | .minf => f32min old b
  | .maxf => f32max old b
  | .and => old &&& b
  | .or => old ||| b
  | .xor => old ^^^ b
  | .xchg => b
  | .cas => if old = b then c else old
  | .inc => if b ≤ old then 0 else old + 1
  | .dec => if old = 0 ∨ b < old then b else old - 1
  | .ctadd err => (bit (old.getLsbD 31 || err)) ++ (old.extractLsb' 0 31 + b.extractLsb' 0 31)
  | _ => old

/-- The new value of a location (R356). -/
def rmwNew (op : RmwOp) (old b c : DWord) : DWord :=
  match op with
  | .add64 => old + b
  | .cas64 => if old = b then c else old
  | _ => (rmw32 op (old.setWidth 32) (b.setWidth 32) (c.setWidth 32)).setWidth 64

/-- The lanes' steps in ascending thread index: the values returned and the last value (R358). -/
def rmwSteps (op : RmwOp) (v : DWord) : List (DWord × DWord) → List DWord × DWord
  | [] => ([], v)
  | (b, c) :: r =>
    let (rs, w) := rmwSteps op (rmwNew op v b c) r
    (v :: rs, w)

/-- One half of `aadd2h` (R359): the merged addend, with the prefixes of the later lanes. -/
def mergeHalf : BitVec 16 → List (BitVec 16) → BitVec 16 × List (BitVec 16)
  | d, [] => (d, [])
  | d, b :: r =>
    let (t, ps) := mergeHalf (bf16add d b) r
    (t, d :: ps)

def halfSteps (old : BitVec 16) : List (BitVec 16) → List (BitVec 16) × BitVec 16
  | [] => ([], old)
  | b :: r =>
    let (t, ps) := mergeHalf b r
    (old :: ps.map (bf16add old), bf16add old t)

/-- The result of one request (R358, R359). -/
def rmwRequest (op : RmwOp) (old : DWord) (lanes : List (DWord × DWord)) : List DWord × DWord :=
  match op with
  | .add2h =>
    let half := fun (k : Nat) => halfSteps (old.extractLsb' (16 * k) 16) (lanes.map fun l => l.1.extractLsb' (16 * k) 16)
    let (r0, v0) := half 0
    let (r1, v1) := half 1
    ((List.zipWith (fun (x y : BitVec 16) => (y ++ x).setWidth 64) r0 r1), (v1 ++ v0).setWidth 64)
  | _ => rmwSteps op old lanes

/-- One indivisible read-modify-write at the agent of its location, after every cached copy has been written back and
invalidated; none where the granule is poisoned (R240, R357). -/
def State.rmwAt (s : State) (loc : Loc) (op : RmwOp) (lanes : List (DWord × DWord)) : Option (List DWord) × State :=
  let n := rmwSize op
  let s1 := (s.settle loc.key n).dropCopies loc
  if s1.poisoned loc.key n then (none, s1)
  else
    let (rs, v) := rmwRequest op (BitVec.ofNat 64 (natOfBytes (s1.readHome loc.key n))) lanes
    (some rs, s1.writeHome loc.key (bytesOfNat n v.toNat))

/-- One half of an `aadd2h`: a read-modify-write of 2 bytes (R359). -/
def State.rmwHalf (s : State) (loc : Loc) (upper : Bool) (lanes : List (DWord × DWord)) : Option (List (BitVec 16)) × State :=
  let l : Loc := { loc with key := loc.key + (if upper then 2 else 0) }
  let s1 := (s.settle l.key 2).dropCopies l
  if s1.poisoned l.key 2 then (none, s1)
  else
    let (rs, v) := halfSteps (BitVec.ofNat 16 (natOfBytes (s1.readHome l.key 2)))
      (lanes.map fun x => x.1.extractLsb' (if upper then 16 else 0) 16)
    (some rs, s1.writeHome l.key (bytesOfNat 2 v.toNat))

/-- An update of a completion counter by an engine or by Loom (R40, R305, R430): `inc` to the count and `err` into ERROR. It
is dropped where it cannot be translated or written. -/
def State.bump (s : State) (fn : Nat) (asid : BitVec 16) (a : DWord) (inc : Nat) (err : Bool) : State :=
  let lanes : List (DWord × DWord) := [(BitVec.ofNat 64 inc, 0)]
  match (a.extractLsb' 62 2).toNat with
  | 0 =>
    let w := s.unit fn asid
    match s.checkPage w .atomic a.toNat with
    | .error e => s.refused w .atomic e
    | .ok c =>
      let s1 := s.touch w .atomic c
      if s1.linkDown c.loc then s1.lostWrite c.loc
      else if s1.shutHost fn c.loc then s1
      else if c.loc.space = .host && !c.loc.cxl && !(s1.fn fn).atomic then s1.discard
      else (s1.rmwAt c.loc (.ctadd err) lanes).2
  | 1 =>
    if a.extractLsb' 32 30 ≠ 0 || (s.vaultBad asid (a.toNat % 2 ^ 32) 4).isSome then s
    else (s.rmwAt ⟨.vault, vaultKey + a.toNat % 2 ^ 32, 0, false⟩ (.ctadd err) lanes).2
  | _ => s

/-- The same where the counter's address is not zero. -/
def State.bumpIf (s : State) (fn : Nat) (asid : BitVec 16) (a : DWord) (inc : Nat) (err : Bool) : State :=
  if a = 0 then s else s.bump fn asid a inc err

end Sys2Proof.Machine
end

