-- ==== Sys2Proof/Machine/Node.lean ====
section
/-! DEFINITION. Sys2Proof/Machine/Node.lean: messages and event records (R431, R442), launch ports (R36), and the graph nodes:
completion, readiness and faults (R47 to R50). -/
namespace Sys2Proof.Machine

/-! ### Messages and events -/

/-- An MSI-X message (R431, R433, R434). -/
def State.sendMsix (s : State) (fn vec : Nat) : State :=
  let f := s.fn fn
  if !f.v then s
  else if f.msix < vec then s.discard
  else if !s.links.hostUp then s.discard
  else if !(s.hif.unmasked.contains (2048 * fn + vec)) then
    { s with hif := { s.hif with pending := nins s.hif.pending (2048 * fn + vec) } }
  else { s with outbox := s.outbox ++ [.msix fn vec] }

/-- The bytes of an event record (R442). -/
def EvRec.bytes (e : EvRec) (seq : Nat) : List Byte :=
  bytesOfNat 8 e.gts ++ bytesOfNat 2 e.source.toNat ++ bytesOfNat 1 e.event.toNat ++ bytesOfNat 1 0 ++
    bytesOfNat 4 (seq % 2 ^ 32) ++ bytesOfNat 8 e.detail.toNat ++ bytesOfNat 8 0

/-- The key of a host address of 64 bits: those that a translation reaches lie below 2^53 (R74), the others beyond every key. -/
def hostByte (a : Nat) : Nat := if a < 2 ^ 53 then hostKey + a else 2 ^ 65 + a
/-- The next record takes another sequence number (R442). -/
def State.nextSeq (s : State) : State := { s with hif := { s.hif with evtSeq := (s.hif.evtSeq + 1) % 2 ^ 32 } }
/-- An event record goes to the ring, is held while the link is down, or is dropped (R434, R442). A record that is dropped uses up a
sequence number, so that the SEQ of the next reveals the gap, while EVT_HEAD counts the records written (log entry 120). -/
def State.putEvent (s : State) (e : EvRec) : State :=
  let size := 2 ^ ((s.hif.evtCtl.extractLsb' 0 4).toNat + 6)
  if !s.links.hostUp then
    let s1 := { s with hif := { s.hif with held := (s.hif.held ++ [e]).drop (s.hif.held.length + 1 - 256) } }
    if s.hif.held.length < 256 then s1 else s1.nextSeq
  else if !s.hif.evtCtl.getLsbD 31 || (s.hif.evtHead + 2 ^ 32 - s.hif.evtTail) % 2 ^ 32 == size then s.discard.nextSeq
  else
    let s1 := s.writeHome (hostByte ((s.hif.evtBase.toNat + 32 * (s.hif.evtHead % size)) % 2 ^ 64)) (e.bytes s.hif.evtSeq)
    { s1.nextSeq with hif := { s1.nextSeq.hif with evtHead := (s1.hif.evtHead + 1) % 2 ^ 32 } }.sendMsix 0
      (s.hif.evtCtl.extractLsb' 16 11).toNat
/-- The records of the nanosecond that ends, in the order of R12. -/
def State.writeEvents (s : State) : State :=
  s.hif.fresh.foldl State.putEvent { s with hif := { s.hif with fresh := [] } }
/-- The sources of event records: cores, Drays, Millers, home slices, the four units of the device and the four of its boundary
(R441). -/
def eventSource (n : Nat) : Bool :=
  decide (n < 0xC0) || (decide (0x100 ≤ n) && decide (n < 0x210)) || (decide (0x300 ≤ n) && decide (n < 0x404)) ||
    (decide (0x500 ≤ n) && decide (n < 0x504))
/-- One of them, where the spec does not say which records an event (log entry 12). -/
def pickSource (k : Nat) : Nat := ((List.range 0x504).filter eventSource).getD (k % 728) 0

/-! ### Ports -/

def blankPort : Port :=
  { fifo := [], lastReject := 0, readCount := 0, badWrite := false, overflow := false, refused := false, graphSrc := 0
    busy := false, op := 0, count := 0, first := 0, gAsid := 0, gValid := false, gCause := 0, gReject := 0, gNode := 0, irqEn := false
    vector := 0, enable := false, asid := 0 }
def State.port (s : State) (fn n : Nat) : Port := sget blankPort s.loom.ports (64 * fn + n)
def State.onPort (s : State) (fn n : Nat) (f : Port → Port) : State :=
  { s with loom := { s.loom with ports := sset blankPort s.loom.ports (64 * fn + n) (f (s.port fn n)) } }
/-- The interrupt of a port (R39). -/
def State.portIrq (s : State) (fn n : Nat) (on : Bool) : State :=
  let p := s.port fn n
  if on && p.irqEn then s.sendMsix fn p.vector else s

/-! ### Nodes -/

def State.onNode (s : State) (n : Nat) (f : Node → Node) : State :=
  { s with loom := { s.loom with nodes := s.loom.nodes.map fun x => if x.idx = n then f x else x } }

/-- A graph faults at a node: LP_GRAPH_FAULT of the installing port (R50). -/
def State.graphFault (s : State) (n : Node) (cause : BitVec 8) (reject : Word) : State :=
  let was := (s.port n.fn n.port).gValid
  (s.onPort n.fn n.port fun p => { p with gValid := true, gCause := cause, gReject := reject, gNode := n.idx }).portIrq
    n.fn n.port !was

/-- The running instance of a node has ended. -/
def State.endRun (s : State) (n : Nat) : State :=
  s.onNode n fun x => { x with running := false, runs := x.runs - 1 }

/-- A node becomes ready once (R48, R49). -/
def State.readyNode (s : State) (n : Node) : State :=
  if 255 ≤ n.runs then s.graphFault n 0 (rejectWord kNode rRange 1)
  else s.onNode n.idx fun x => { x with runs := x.runs + 1 }

/-- One completion of a predecessor (R48). A node being removed is not readied (R47). A WHILE node is readied also where its NPRED
is 0: of the bullets of R48 the one that names the type holds (log entry 109). -/
def State.completeNode (s : State) (n : Node) : State :=
  if n.removing then s
  else if n.typ = 5 then s.readyNode n
  else if n.npred = 0 then s
  else if n.pending ≤ 1 then (s.onNode n.idx fun x => { x with pending := x.npred }).readyNode n
  else s.onNode n.idx fun x => { x with pending := x.pending - 1 }

/-- The running instance completes: one completion to each of `succ` (R50). -/
def State.nodeDone (s : State) (n : Nat) (succ : List Nat) : State :=
  let s1 := s.endRun n
  { s1 with loom := { s1.loom with completions := s1.loom.completions ++ succ } }
/-- The running instance completes to every successor. -/
def State.nodeOk (s : State) (n : Nat) : State := s.nodeDone n (((s.node? n).map (·.succ)).getD [])
/-- The running instance fails (R50). -/
def State.nodeFail (s : State) (n : Nat) (cause : BitVec 8) (reject : Word) : State :=
  match s.node? n with
  | none => s
  | some x => (s.endRun n).graphFault x cause reject

/-- NODE_COMPLETION (R48): one completion that Loom has not counted yet. It counts on the node that the index names now, which may have
been installed after the completion was given (log entry 109). -/
def execNodeCompletion (node : Nat) (s : State) : Out :=
  .next (
    if node ∈ s.loom.completions then
      let s1 := { s with loom := { s.loom with completions := s.loom.completions.erase node } }
      match s1.node? node with
      | some n => s1.completeNode n
      | none => s1
    else s)

end Sys2Proof.Machine
end

