-- ==== Sys2Proof/Machine/WorkQueue.lean ====
section
/-! DEFINITION. Sys2Proof/Machine/WorkQueue.lean: the device's work queues (R385 to R387), and the faults of engines (R91). -/
namespace Sys2Proof.Machine

/-! ### Engine faults (R91, R308, R377, R407) -/

/-- A translation failure of an engine or of the Porter never parks: it allocates an entry where none with its key exists, one of its kind
is free and no group is held for one (R91), while the die's ring is valid. The record names the issuing core of a multicast, and of
another engine none (R408). -/
def State.engineFault (s : State) (die fn : Nat) (asid : BitVec 16) (va kind : Nat) (f : XFail) (core : Nat := 0xFF) : State :=
  match f with
  | .join => s
  | .fault _ _ _ =>
    if !(s.ring die).valid || (s.mergeOf die asid (va / 4096)).isSome || s.othersHeld die none then s
    else match s.freeMerge die ((s.fn fn).privV && (s.fn fn).privAsid == asid) with
      | none => s
      | some i => s.allocMerge die i asid va core kind f 0 []

/-- The cause that an engine reports for a failed check (R308, R377). A miss that joins an entry of the fault merge table, and walks no
table of its own, ends with PAGE_NOT_PRESENT whatever the entry's record says (log entry 121). -/
def failCause : Fail → Cause
  | .trap c _ => c
  | .page _ (.fault c _ _) => c
  | .page _ .join => cPageNotPresent
/-- The merge-table entry of a failed check. -/
def State.engineFail (s : State) (die fn : Nat) (asid : BitVec 16) (kind : Nat) (e : Fail) (core : Nat := 0xFF) : State :=
  match e with
  | .trap _ _ => s
  | .page va f => s.engineFault die fn asid va kind f core

/-! ### Work queues -/

def State.setWq (s : State) (n : Nat) (q : WorkQ) : State :=
  { s with co := { s.co with wqs := sset ⟨false, 0, 0, [], 0⟩ s.co.wqs n { q with ver := (s.wq n).ver + 1 } } }
/-- Entries of a work queue (R385). -/
def wqSize : Nat := 1024
def WorkQ.isOpen (q : WorkQ) : Bool := q.v && q.state == 0
def State.wqAppend (s : State) (n : Nat) (vs : List Word) : State :=
  s.setWq n { s.wq n with entries := (s.wq n).entries ++ vs }

/-- The end state that a final instance gives its queue: the first one decides (R386). -/
def State.wqEnd (s : State) (n : Nat) (asid : BitVec 16) (aborted : Bool) : State :=
  let q := s.wq n
  if q.isOpen && q.asid == asid then s.setWq n { q with state := if aborted then 2 else 1 } else s

/-- What WQ_n_CTL reads (R385). -/
def WorkQ.word (q : WorkQ) : Word :=
  bit q.v ++ BitVec.ofNat 2 q.state ++ BitVec.ofNat 11 q.entries.length ++ 0#2 ++ q.asid

/-- The threads that wait on a queue whose owner loses it: `wqpop` receives all ones and completes; a `wqpush` waiting for room
will push nothing and trap (R385). -/
def State.wqDrop (s : State) (n : Nat) : State :=
  let done := fun (st : Stream) => match st.park with
    | .wqpop m o => if m = n then ((st.kill o.s1 o.k1).wr o.d 0xFFFFFFFF).goto (st.pc + 8) else st
    | _ => if st.room.any fun r => r.1 = n then { st with room := some (n, true) } else st
  { s with streams := s.streams.map done }
/-- A `wqpush` of a thread has waited on a queue that its owner has lost (R385). -/
def Stream.roomLost (st : Stream) : Bool := st.room.any (·.2)
/-- The threads wait for room in a queue. -/
def State.awaitRoom (s : State) (ids : List SId) (n : Nat) : State :=
  (s.onLanes ids fun st => { st with room := some (n, false) }).stalled

/-- WQ_CTL_WRITE (R385). -/
def State.wqWrite (s : State) (n : Nat) (w : Word) : State :=
  let q := s.wq n
  let v := w.getLsbD 31
  let asid := w.extractLsb' 0 16
  let drop := fun (s : State) =>
    let s1 := s.setWq n { q with state := 1, entries := [] }
    let discard := fun (i : Inst) =>
      if i.desc.workq == some n then { i with pushes := [] } else i
    { s1 with co := { s1.co with insts := s1.co.insts.map discard } }.wqDrop n
  if q.v then
    if v && q.asid == asid then s
    else
      let s1 := drop s
      if v then s1.setWq n { (s1.wq n) with v := true, asid := asid, state := 0, entries := [] }
      else s1.setWq n { (s1.wq n) with v := false, asid := asid }
  else if v then s.setWq n { q with v := true, asid := asid, state := 0, entries := [] }
  else s.setWq n { q with asid := asid }

def execWqCtlWrite (n : Nat) (v : Word) (s : State) : Out := .next (if n < 256 then s.wqWrite n v else s)

/-- The queue number of the lowest active thread, or the trap (R385, R387). -/
def State.wqNumber (s : State) (low : Stream) (r : Reg) : Option Nat :=
  let w := low.rd r
  let n := (w.extractLsb' 0 8).toNat
  let q := s.wq n
  if w.extractLsb' 8 24 ≠ 0 || !q.v || q.asid ≠ (s.team low.id.tcx).recd.asid then none else some n

/-- What a release of streams waits for (R340, R342): accesses in the spaces of a mask that are not performed yet, theirs and those
they have acquired. -/
def State.nearPending (s : State) (ids : List SId) (m : BitVec 5) : Bool :=
  (s.ops.any fun o => !o.isFence && inMask m o.loc.space && ids.any fun id => o.ofStream id) || s.carriedIn ids m

/-- `wqpush` (R387): room for every active lane's value, or a stall. -/
def execWqpush (g : Guard) (s1 : Reg) (k1 : Bool) (s2 : Reg) (k2 : Bool) (s : State) : Out :=
  let ids := s.active g
  let vals := ids.map fun id => (s.stream id).rd s2
  .next (
    match s.lowest g with
    | none => s.retireLanes g id
    | some low => match s.wqNumber low s1 with
      | none => s.trapLow g cIllegalOperand
      | some n =>
        let q := s.wq n
        if q.state ≠ 0 || (vals.any fun v => decide (0xFFFFFFFE ≤ v.toNat)) || ids.any fun id => (s.stream id).roomLost then
          s.trapLow g cIllegalOperand
        else if s.nearPending ids 0b00011 then s.stalled
        else if wqSize < q.entries.length + vals.length then s.awaitRoom ids n
        else ((s.releaseTag s.curTag).wqAppend n vals).retireLanes g fun st => (st.kill s1 k1).kill s2 k2)

/-- `wqpush.close` and `wqpush.reopen` (R387). -/
def State.wqState (s : State) (g : Guard) (s1 : Reg) (k1 : Bool) (f : WorkQ → WorkQ) : State :=
  match s.lowest g with
  | none => s.retireLanes g id
  | some low => match s.wqNumber low s1 with
    | none => s.trapLow g cIllegalOperand
    | some n => (s.setWq n (f (s.wq n))).retireLanes g fun st => st.kill s1 k1
def execWqpushClose (g : Guard) (s1 : Reg) (k1 : Bool) (s : State) : Out :=
  .next (s.wqState g s1 k1 fun q => { q with state := if q.state = 0 then 1 else q.state })
def execWqpushReopen (g : Guard) (s1 : Reg) (k1 : Bool) (s : State) : Out :=
  .next (s.wqState g s1 k1 fun q => { q with state := 0, entries := [] })

/-- The result of an empty queue that is not OPEN (R387). -/
def emptyResult (state : Nat) : Word := if state = 1 then 0xFFFFFFFF else 0xFFFFFFFE

/-- `wqpop` in one lane: an entry, the end of the queue, or a park (R387). -/
def State.popLane (s : State) (n : Nat) (o : Alu1) (id : SId) : State :=
  let q := s.wq n
  let fin := fun (s : State) (v : Word) => s.onLane id fun st => ((st.kill o.s1 o.k1).wr o.d v).goto s.cur.npc
  match q.entries with
  | v :: r => fin (s.setWq n { q with entries := r }) v
  | [] =>
    if q.state = 0 then s.onLane id fun st => st.parkAt (.wqpop n o)
    else fin s (emptyResult q.state)
/-- The queue that a thread parked in `wqpop` waits on. -/
def Stream.popping (st : Stream) : Option Nat :=
  match st.park with
  | .wqpop n _ => some n
  | _ => none
/-- Lanes that have parked take their entries from the queue that their issue group named then (R387); lanes that come to the
instruction beside them execute it afterwards. -/
def execWqpop (o : Alu1) (s : State) : Out :=
  let ids := s.active o.g
  let back := ids.filterMap fun id => (s.stream id).popping.map fun n => (id, n)
  let go := fun (ls : List (SId × Nat)) =>
    if s.flushWait (ls.map (·.1)) then s.stalled
    else
      let rest := ids.filter fun id => !(ls.any fun l => l.1 = id)
      let s1 := ((s.acquired .acq (ls.map (·.1))).skipLanes o.g).onLanes rest fun st => st.hold s.clock.cycles
      ls.foldl (fun s l => s.popLane l.2 o l.1) s1
  .next (
    match s.lowest o.g with
    | none => s.retireLanes o.g id
    | some low =>
      if !back.isEmpty then go back
      else match s.wqNumber low o.s1 with
        | none => s.trapLow o.g cIllegalOperand
        | some n => go (ids.map fun id => (id, n)))

end Sys2Proof.Machine
end

