-- ==== Sys2Proof/Machine/Collective.lean ====
section
/-! DEFINITION. Sys2Proof/Machine/Collective.lean: collective instances: opening, chunks, the fold and delivery paths, abort and
completion, and the instructions `coll`, `cabort` and `cstat` (R375 to R384, R391, R447). -/
namespace Sys2Proof.Machine

/-! ### The paths (R447) -/

/-- A stage of a chunk at this member: its input (none for this member's own contribution), whether the input is folded or
replaces, whether the value is then written here, and the members it is sent to. -/
structure Stage where
  src : Option Nat
  fold : Bool
  write : Bool
  dests : List Nat
deriving DecidableEq, Repr

/-- The partners at the right of member m in a tree, in the order of the levels: m + 2^l. -/
def treeRights (m n : Nat) : List Nat :=
  let ls := (List.range 17).takeWhile fun l => m % 2 ^ (l + 1) == 0
  (ls.map fun l => m + 2 ^ l).filter (· < n)
/-- The holder to which member m ≠ 0 sends: m without its lowest set bit. -/
def treeParent (m : Nat) : Nat := ((List.range 17).find? fun l => m / 2 ^ l % 2 == 1).elim 0 fun l => m - 2 ^ l
/-- The fold path of a contribution of member o: o and the holders above it. -/
def treePath (o : Nat) : Nat → List Nat
  | 0 => [o]
  | k + 1 => if o = 0 then [0] else o :: treePath (treeParent o) k

/-- The stages of a fold: the inputs in order, what follows the last one. -/
def foldStages (ins : List (Option Nat)) (write : Bool) (dests : List Nat) : List Stage :=
  ins.mapIdx fun i x => ⟨x, true, write && i + 1 == ins.length, if i + 1 = ins.length then dests else []⟩

/-- The members other than one. -/
def others (n m : Nat) : List Nat := (List.range n).filter (· ≠ m)

/-- The stages of a reduced chunk c at member m of n (R380, R447); `rs` for REDUCE_SCATTER. -/
def reduceStages (algo n c m : Nat) (rs : Bool) : List Stage :=
  let owner := c % n
  let mine := !rs || m == owner
  match algo with
  | 0 =>
    let p := (m + 2 * n - c % n - 1) % n
    let succ := (m + 1) % n
    let pred := (m + n - 1) % n
    let ins : List (Option Nat) := if p = 0 then [none] else [some pred, none]
    if p + 1 = n then foldStages ins true (if rs || n == 1 then [] else [succ])
    else foldStages ins false [succ] ++ (if rs then [] else [⟨some pred, false, true, if p + 2 < n then [succ] else []⟩])
  | 1 =>
    let ins := none :: (treeRights m n).map some
    if m = 0 then foldStages ins mine (if rs then (if owner = 0 then [] else [owner]) else others n 0)
    else foldStages ins false [treeParent m] ++ (if mine then [⟨some 0, false, true, []⟩] else [])
  | _ =>
    if m = owner then
      foldStages ((List.range n).map fun i => if i = m then none else some i) true (if rs then [] else others n m)
    else ⟨none, true, false, [owner]⟩ :: (if rs then [] else [⟨some owner, false, true, []⟩])

/-- The stages at member m of a contribution of member o that every member receives (R447). -/
def shareStages (algo n o m : Nat) : List Stage :=
  match algo with
  | 0 =>
    let succ := (m + 1) % n
    [⟨if m = o then none else some ((m + n - 1) % n), false, true, if succ = o then [] else [succ]⟩]
  | 1 =>
    let path := treePath o 17
    let child := (path.zip path.tail).find? fun e => e.2 == m
    let up : Option (Option Nat) := if m = o then some none else child.map fun e => some e.1
    if m = 0 then (up.toList.map fun x => ⟨x, false, true, others n 0⟩)
    else (up.toList.map fun x => ⟨x, false, m == o, [treeParent m]⟩) ++ [⟨some 0, false, true, []⟩]
  | _ => [⟨if m = o then none else some o, false, true, if m = o then others n m else []⟩]

/-- Chunks are numbered c, and for ALLGATHER owner × chunks + c. -/
def CollDesc.virtuals (d : CollDesc) : Nat := if d.op = 6 then d.count * d.chunks else d.chunks
def CollDesc.owner (d : CollDesc) (v : Nat) : Nat := if d.op = 6 then v / d.chunks else d.root
def CollDesc.chunkOf (d : CollDesc) (v : Nat) : Nat := v % d.chunks
def CollDesc.stages (d : CollDesc) (m v : Nat) : List Stage :=
  if d.op = 6 || d.op = 8 then shareStages d.algo d.count (d.owner v) m
  else reduceStages d.algo d.count (d.chunkOf v) m (d.op == 7)

/-! ### combine (R381) -/

def words4 : List Byte → List Word
  | a :: b :: c :: d :: r => (d ++ c ++ b ++ a) :: words4 r
  | _ => []
def halfs2 : List Byte → List (BitVec 16)
  | a :: b :: r => (b ++ a) :: halfs2 r
  | _ => []
def bytes4 (ws : List Word) : List Byte := ws.flatMap fun w => bytesOfNat 4 w.toNat
def bytes2 (ws : List (BitVec 16)) : List Byte := ws.flatMap fun w => bytesOfNat 2 w.toNat

/-- One combined triple of 2 + D words (R199). -/
def mergeTriple (x y : List Word) : List Word :=
  match x, y with
  | m1 :: r1, m2 :: r2 =>
    let f := mergeFactors m1 m2
    mergeMax f :: List.zipWith (mergeElem f) r1 r2
  | _, _ => []
def triples (n : Nat) : List Word → Nat → List (List Word)
  | _, 0 => []
  | ws, k + 1 => if ws = [] then [] else ws.take n :: triples n (ws.drop n) k

def combine (d : CollDesc) (a b : List Byte) : List Byte :=
  let f16 := fun (f : Fmt) (max : Bool) =>
    bytes2 (List.zipWith (fun x y => BitVec.ofNat 16 (f.pick max false x.toNat y.toNat)) (halfs2 a) (halfs2 b))
  let ext := fun (max : Bool) =>
    match d.fmt with
    | 0 => bytes4 (List.zipWith (fun x y => if max then f32max x y else f32min x y) (words4 a) (words4 b))
    | 1 => f16 fBF16 max
    | 2 => f16 fF16 max
    | 5 => List.zipWith (fun (x y : Byte) => if BitVec.slt x y == max then y else x) a b
    | _ => List.zipWith (fun (x y : Byte) => if BitVec.ult x y == max then y else x) a b
  match d.op with
  | 2 => ext true
  | 3 => ext false
  | 4 =>
    let n := 2 + d.tripleD
    bytes4 (List.zipWith mergeTriple (triples n (words4 a) (a.length + 1)) (triples n (words4 b) (b.length + 1))).flatten
  | 5 => []
  | _ =>
    if d.fmt = 1 then bytes2 (List.zipWith bf16add (halfs2 a) (halfs2 b))
    else bytes4 (List.zipWith f32add (words4 a) (words4 b))

/-! ### The buffers (R377) -/

/-- The stack of a local HBM4 address (R74). -/
def stackOf (pa : Nat) : Nat := pa / 2 ^ 36 % 16
/-- The stack that holds a byte of an instance's buffers; where its page does not translate, the one that is given (log entry 51). -/
def State.stackAt (s : State) (fn : Nat) (asid : BitVec 16) (va stack : Nat) : Nat :=
  match s.checkPage (s.unit fn asid) .load va with
  | .ok c => if c.loc.space = .dev then stackOf c.loc.key else stack
  | .error _ => stack

/-- One access of a Miller within 64 aligned bytes: its place at the home slice, or the cause, on the die of its stack (R407). -/
def State.millerAt (s : State) (i : Inst) (stack : Nat) (ak : AK) (va : Nat) : Except Cause Loc × State :=
  let w := s.unit i.fn i.asid
  match s.checkPage w ak va with
  | .error e => (.error (failCause e), s.engineFail (s.stackAt i.fn i.asid va stack / 4) i.fn i.asid 8 e)
  | .ok c => if c.loc.space = .dev then (.ok c.loc, s.touch w ak c) else (.error cPagePermission, s)

def State.millerRead (s : State) (i : Inst) (stack : Nat) : List (Nat × Nat) → Except Cause (List Byte) × State
  | [] => (.ok [], s)
  | p :: r => match s.millerAt i stack .load p.1 with
    | (.error e, s1) => (.error e, s1)
    | (.ok l, s1) =>
      let s2 := (s1.settle l.key p.2).dropCopies l
      let bs := s2.readHome l.key p.2
      match s2.millerRead i stack r with
      | (.error e, s3) => (.error e, s3)
      | (.ok cs, s3) => (.ok (bs ++ cs), s3)

def State.millerWrite (s : State) (i : Inst) (stack : Nat) (bs : List Byte) : List (Nat × Nat) → Except Cause Unit × State
  | [] => (.ok (), s)
  | p :: r => match s.millerAt i stack .store p.1 with
    | (.error e, s1) => (.error e, s1)
    | (.ok l, s1) =>
      let s2 := ((s1.settle l.key p.2).dropCopies l).clearPoison l.key p.2
      (s2.writeHome l.key (bs.take p.2)).millerWrite i stack (bs.drop p.2) r

/-- First byte and bytes of chunk c within a contribution (R33). -/
def CollDesc.offset (d : CollDesc) (c : Nat) : Nat := collBytes d.op d.fmt d.tripleD (c * d.chunk)
def CollDesc.length (d : CollDesc) (c : Nat) : Nat :=
  if d.op = 5 then 0 else collBytes d.op d.fmt d.tripleD (min d.chunk (d.total - c * d.chunk))
def CollDesc.span (d : CollDesc) : Nat := collBytes d.op d.fmt d.tripleD d.total
/-- Where this member's contribution to chunk v lies (R381). -/
def Inst.mineAt (i : Inst) (v : Nat) : Nat :=
  (if i.desc.op = 6 && i.desc.send == i.desc.recv then i.desc.recv.toNat + i.me * i.desc.span else i.desc.send.toNat) +
    i.desc.offset (i.desc.chunkOf v)
/-- Where the result of chunk v is written. -/
def Inst.resultAt (i : Inst) (v : Nat) : Nat :=
  i.desc.recv.toNat + (if i.desc.op = 6 then i.desc.owner v * i.desc.span else 0) + i.desc.offset (i.desc.chunkOf v)
/-- A byte of every page of both buffers (R377); a barrier has none. -/
def CollDesc.pages (d : CollDesc) : List Nat :=
  let touched := fun (a n : Nat) =>
    if n = 0 then [] else (List.range ((a + n - 1) / 4096 + 1 - a / 4096)).map fun k => max a ((a / 4096 + k) * 4096)
  if d.op = 5 then []
  else touched d.send.toNat d.span ++ touched d.recv.toNat (if d.op = 6 then d.count * d.span else d.span)

/-! ### Instances -/

def State.inst? (s : State) (num : Nat) : Option Inst := s.co.insts.find? fun i => i.num = num
def State.onInst (s : State) (num : Nat) (f : Inst → Inst) : State :=
  { s with co := { s.co with insts := s.co.insts.map fun i => if i.num = num then f i else i } }
def Inst.chunk (i : Inst) (v : Nat) : Chunk :=
  (i.chunks.find? fun c => c.idx = v).getD ⟨v, false, [], none, 0, [], 0, false, false⟩
def Inst.setChunk (i : Inst) (c : Chunk) : Inst :=
  { i with chunks := (i.chunks.filter fun x => x.idx ≠ c.idx) ++ [c] }

/-- The status word (R382). -/
def Inst.status (i : Inst) : DWord :=
  match i.aborted with
  | some (c, rank, m) =>
    if c = cMemberLost || c = cAborted then 2#4 ++ c ++ 0#18 ++ BitVec.ofNat 17 rank ++ BitVec.ofNat 17 m
    else 2#4 ++ c ++ 0#52
  | none => if i.final then 1#4 ++ 0#60 else 0
/-- A write of the status word; one that faults is dropped. -/
def State.putStatus (s : State) (i : Inst) (w : DWord) : State :=
  s.unitWrite1 (s.unit i.fn i.asid) i.desc.status.toNat 0 (bytesOfNat 8 w.toNat)

/-- The members it exchanges data with (R447). -/
def Inst.partners (i : Inst) : List Nat :=
  ((List.range i.desc.virtuals).flatMap fun v =>
    (i.desc.stages i.me v).flatMap fun g => g.dests ++ g.src.toList).foldl nins []

/-- The instance aborts at this member and tells its partners (R384). -/
def State.abortInst (s : State) (num : Nat) (cause : Cause) (member : Nat) : State :=
  match s.inst? num with
  | none => s
  | some i =>
    if i.final || i.aborted.isSome then s
    else
      let s1 := s.onInst num fun i => { i with aborted := some (cause, i.desc.rank member, member) }
      { s1 with outbox := s1.outbox ++ i.partners.map fun p => Msg.abort i.tag p (i.desc.rank member) member }

/-- The first page of a buffer that a Miller may not use aborts the instance as it opens (R377). -/
def State.checkBuffers (s : State) (num : Nat) : State :=
  match s.inst? num with
  | none => s
  | some i =>
    let w := s.unit i.fn i.asid
    let bad := fun (va : Nat) => match s.checkPage w .load va with
      | .error e => some (va, failCause e, some e)
      | .ok c => if c.loc.space = .dev then none else some (va, cPagePermission, none)
    match i.desc.pages.findSome? bad with
    | none => s
    | some (va, c, e) => ((e.elim s (s.engineFail (s.stackAt i.fn i.asid va (i.millers.headD 0) / 4) i.fn i.asid 8)).abortInst num c i.me)

/-! ### The command queues of the Millers (R379) -/

/-- Entries of a queue (R1, R379). -/
def millerEntries : Nat := 512
/-- The steps still to run, in the order in which they are posted: the Miller, the chunk, and the stage. -/
def Inst.posted (i : Inst) : List (Nat × Nat × Nat) :=
  if i.final || i.aborted.isSome then []
  else (List.range i.desc.virtuals).flatMap fun v =>
    ((List.range (i.desc.stages i.me v).length).drop (i.chunk v).step).map fun k => (i.millers.getD v 0, v, k)
/-- The next step of chunk v holds an entry of its Miller's queue: steps posted earlier leave room. -/
def State.holdsEntry (s : State) (i : Inst) (v : Nat) : Bool :=
  let before := (s.co.insts.takeWhile fun x => x.num ≠ i.num).flatMap Inst.posted ++
    i.posted.takeWhile fun x => x.2 != (v, (i.chunk v).step)
  decide ((before.filter fun x => x.1 = i.millers.getD v 0).length < millerEntries)
/-- Time is about to pass: the fired chunks whose next step has just been given its entry count their waits from now (R384). -/
def State.grantEntries (s : State) : State :=
  let look := fun (i : Inst) (c : Chunk) =>
    if c.fired && !c.entry && s.holdsEntry i c.idx then { c with entry := true, since := s.gts } else c
  { s with co := { s.co with insts := s.co.insts.map fun i => { i with chunks := i.chunks.map (look i) } } }

/-- The stage of a chunk that waits for a member: it holds its entry, and its input has not arrived (R384). -/
def Inst.waitsFor (i : Inst) (c : Chunk) : Option Nat :=
  match (i.desc.stages i.me c.idx)[c.step]? with
  | some g => match g.src with
    | some m => if c.fired && c.entry && !(c.staged.any fun x => x.1 == m) then some m else none
    | none => none
  | none => none

/-- Every part of chunk c has been written here. -/
def Inst.wrote (i : Inst) (c : Nat) : Bool :=
  (List.range i.desc.virtuals).all fun v =>
    i.desc.chunkOf v != c || (i.chunk v).written || !((i.desc.stages i.me v).any fun g => g.write)

/-- One stage of chunk v, when its input is there: the fold, the write, the forwards (R379, R380). -/
def State.runStage (s : State) (num v : Nat) : Option State :=
  match s.inst? num with
  | none => none
  | some i =>
    let c := i.chunk v
    if !c.fired || i.aborted.isSome || !s.holdsEntry i v then none
    else match (i.desc.stages i.me v)[c.step]? with
      | none => none
      | some g =>
        let input := match g.src with
          | none => some c.mine
          | some m => (c.staged.find? fun (x : Nat × List Byte) => x.1 = m).map (·.2)
        match input with
        | none => none
        | some x =>
          let val := if g.fold then (match c.acc with | some a => combine i.desc a x | none => x) else x
          let rest := match g.src with
            | none => c.staged
            | some m => (match c.staged.findIdx? fun (x : Nat × List Byte) => x.1 == m with | some k => c.staged.eraseIdx k | none => c.staged)
          let at_ := i.resultAt v
          let (r, s1) := if g.write && i.desc.op != 5 then s.millerWrite i (i.millers.getD v 0) val (pieces at_ val.length) else (.ok (), s)
          match r with
          | .error e => some (s1.abortInst num e i.me)
          | .ok _ =>
            let c1 : Chunk := { c with acc := some val, step := c.step + 1, staged := rest, since := s.gts, entry := false,
                                       written := c.written || g.write }
            let s2 := s1.onInst num fun i =>
              let i1 := i.setChunk c1
              let i2 := { i1 with sent := i1.sent ++ g.dests.map fun m => Forward.mk v m s.gts }
              if g.write && i.desc.workq.isSome && !i.wrote (i.desc.chunkOf v) && i1.wrote (i.desc.chunkOf v) then
                { i2 with pushes := i2.pushes ++ [i.desc.chunkOf v] }
              else i2
            some { s2 with outbox := s2.outbox ++ g.dests.map fun m => Msg.forward i.tag v m val }
/-- The stages of chunk v, as far as their inputs have arrived. -/
def State.runChunk (s : State) (num v : Nat) : Nat → State
  | 0 => s
  | n + 1 => match s.runStage num v with
    | some s1 => s1.runChunk num v n
    | none => s

/-- This member contributes to chunk v. -/
def Inst.contributes (i : Inst) (v : Nat) : Bool :=
  if i.desc.op = 6 || i.desc.op = 8 then i.desc.owner v == i.me else true

/-- Chunk v fires: this member's contribution is read as it stands (R378). -/
def State.fireVirtual (s : State) (num v : Nat) : State :=
  match s.inst? num with
  | none => s
  | some i =>
    let c := i.chunk v
    if c.fired || i.aborted.isSome || i.final then s
    else
      let (r, s1) := if i.contributes v then s.millerRead i (i.millers.getD v 0) (pieces (i.mineAt v) (i.desc.length (i.desc.chunkOf v)))
        else (.ok [], s)
      match r with
      | .error e => s1.abortInst num e i.me
      | .ok bs =>
        (s1.onInst num fun i => i.setChunk { c with fired := true, mine := bs, since := s.gts }).runChunk num v
          (i.desc.count + 3)
/-- Chunk c fires at this member (R378). -/
def State.fireChunk (s : State) (num c : Nat) : State :=
  match s.inst? num with
  | none => s
  | some i => ((List.range i.desc.virtuals).filter fun v => i.desc.chunkOf v == c).foldl (fun s v => s.fireVirtual num v) s

/-- The slot of a new instance: one never used, or the one whose instance ended first (R375, R391). -/
def State.instSlot (s : State) : Nat :=
  match (List.range 256).find? fun k => !(s.co.insts.any fun i => i.slot == k) with
  | some k => k
  | none =>
    let fs := s.co.insts.filter fun i => i.ended
    ((fs.find? fun i => fs.all fun j => decide (i.seq ≤ j.seq)).map (·.slot)).getD 0

/-- An instance opens (R375, R376, R382): its number is `nextNum`. -/
def State.openInst (s : State) (fn : Nat) (asid : BitVec 16) (a : DWord) (d : CollDesc) (opener : Option SId)
    (node : Option Nat) (rlx : Bool) : State :=
  let job := (s.jobOf asid).getD 0
  let key : CollKey := ⟨(s.job job).jid, d.op, d.ranks⟩
  let k := ((s.co.opened.find? fun e => e.1 = key).map (·.2)).getD 0
  let slot := s.instSlot
  let i0 : Inst :=
    { num := s.co.nextNum, slot := slot, asid := asid, fn := fn, job := job, addr := a, desc := d
      tag := ⟨key.job, d.op, key.ranks, k, d.algo, d.fmt, d.tripleD, d.chunk, d.total⟩, millers := []
      me := (d.member (s.job job).rank).getD 0, opener := opener, node := node, rlx := rlx, chunks := [], sent := []
      pushes := [], aborted := none, final := false, ended := false, seq := s.co.nextNum }
  -- a step is posted to the Miller of the stack where its chunk's result begins
  let i := { i0 with millers := if d.op = 5 then [] else (List.range d.virtuals).map fun v => s.stackAt fn asid (i0.resultAt v) 0 }
  let insts := (s.co.insts.filter fun x => x.slot ≠ slot) ++ [i]
  let opened := (s.co.opened.filter fun e => e.1 ≠ key) ++ [(key, k + 1)]
  let s1 := { s with co := { s.co with insts := insts, nextNum := s.co.nextNum + 1, opened := opened } }
  (s1.putStatus i 0).checkBuffers i.num

/-- Every chunk of a `coll` fires as it opens (R378). -/
def State.fireAll (s : State) (num : Nat) : State :=
  match s.inst? num with
  | none => s
  | some i => (List.range i.desc.virtuals).foldl (fun s v => s.fireVirtual num v) s

/-! ### Events -/

/-- Checks 1 to 3 of R327 on a collective packet (R376). -/
def State.collCheck (s : State) (p : InColl) : Option (BitVec 8) :=
  match s.jobs.find? fun j => j.v && j.jid == p.tag.job with
  | none => some rNoJob
  | some j =>
    if !(j.keys.any fun e => e.1 == p.keygen) then some rKeygen
    else if !p.macOk then some rMac
    else none
/-- The instance of this member whose partner sent a packet (R376). -/
def State.partner (s : State) (t : CollTag) : Option Inst :=
  s.co.insts.find? fun i => i.tag.job == t.job && i.tag.op == t.op && i.tag.ranks == t.ranks && i.tag.k == t.k
/-- A collective packet at the Porter: its NACK, nothing for an instance that is not open, an abort where it does not fit its instance,
or what the Miller does with it (R376; log entry 118). -/
def State.collPacket (s : State) (p : InColl) (f : Inst → State) : State :=
  match s.collCheck p with
  | some r => { s with outbox := s.outbox ++ [.collNack p.tag p.src r] }
  | none => match s.partner p.tag with
    | none => s
    | some i => if i.final || i.aborted.isSome then s else if i.tag != p.tag then s.abortInst i.num cAborted i.me else f i

/-- MILLER_STEP (R379): the next steps of a chunk whose inputs are there; data of a chunk arrives from a member, is acknowledged, and
the steps it allows run; or a forward is acknowledged. -/
def execMillerStep (x : MillerIn) (v : Nat) (data : Option (List Byte)) (s : State) : Out :=
  .next (
    match x, data with
    | .own num, _ => match s.inst? num with
      | none => s
      | some i => s.runChunk num v (i.desc.count + 3)
    | .packet p, none => s.collPacket p fun i => s.onInst i.num fun i =>
      (match i.sent.findIdx? fun f => f.chunk == v && f.member == p.src with
      | some k => { i with sent := i.sent.eraseIdx k }
      | none => i)
    | .packet p, some bs => s.collPacket p fun i =>
      if i.desc.virtuals ≤ v then s
      else
        let s1 := s.onInst i.num fun i => i.setChunk { i.chunk v with staged := (i.chunk v).staged ++ [(p.src, bs)] }
        ({ s1 with outbox := s1.outbox ++ [Msg.collAck i.tag v p.src] }).runChunk i.num v (i.desc.count + 3))

/-- The members for which a step has waited more than STEP_TIMEOUT, each with the time from which it has (R384). -/
def State.lateMembers (s : State) (i : Inst) : List (Nat × Nat) :=
  let waits := (i.chunks.filterMap fun c => (i.waitsFor c).map fun m => (c.since, m)) ++ i.sent.map fun f => (f.time, f.member)
  waits.filter fun w => decide (w.1 + i.desc.timeout * 1000 < s.gts)
/-- STEP_TIMEOUT (R384): the first member detected lost, the lower index first. -/
def execStepTimeout (num member : Nat) (s : State) : Out :=
  .next (
    match s.inst? num with
    | none => s
    | some i =>
      let late := s.lateMembers i
      let first := fun (w : Nat × Nat) => late.all fun x => decide (w.1 < x.1) || (w.1 == x.1 && decide (w.2 ≤ x.2))
      if late.any fun w => w.2 == member && first w then s.abortInst num cMemberLost member else s)

/-- ABORT_RECEIVE (R384): the member that the message names. -/
def execAbortReceive (p : InColl) (member : Nat) (s : State) : Out :=
  .next (s.collPacket p fun i => s.abortInst i.num cAborted member)

/-- Every condition of R382 for the final state. -/
def Inst.complete (i : Inst) : Bool :=
  i.sent.isEmpty && (List.range i.desc.virtuals).all fun v =>
    (i.chunk v).fired && decide ((i.desc.stages i.me v).length ≤ (i.chunk v).step)

/-- Of the instances bound to its queue, this is the first final one whose end the queue has not taken: its end decides the state
(R386). -/
def State.decides (s : State) (i : Inst) : Bool :=
  s.co.insts.all fun x => x.desc.workq != i.desc.workq || x.asid != i.asid || !x.final || x.ended || decide (i.seq ≤ x.seq)

/-- Steps 3 and 4 of R382, once every push of the instance has been made (R386): the end of the queue, then CPC or the graph
node. -/
def State.endInst (s : State) (num : Nat) : State :=
  match s.inst? num with
  | none => s
  | some i =>
    if !i.final || i.ended || !i.pushes.isEmpty then s
    else
      let s1 := s.onInst num fun i => { i with ended := true }
      let s3 := match i.desc.workq with
        | some n => if s.decides i then s1.wqEnd n i.asid i.aborted.isSome else s1
        | none => s1
      let s4 := match i.opener, i.aborted with
        | some sid, some (c, _, _) => (s3.recordErr sid 2 ⟨c, 0⟩).decCounter sid 2
        | some sid, none => s3.decCounter sid 2
        | none, _ => s3
      match i.node, i.aborted with
      | some n, some (c, _, _) => s4.nodeFail n c 0
      | some n, none => s4.nodeOk n
      | none, _ => s4

/-- INSTANCE_FINAL (R382): the status and the notify counter, then what follows the pushes. -/
def execInstanceFinal (num : Nat) (s : State) : Out :=
  .next (
    match s.inst? num with
    | none => s
    | some i =>
      -- of a final instance whose last pushes have been discarded, the steps that are left (R385, R386)
      if i.final then s.endInst num
      else if !(i.aborted.isSome || i.complete) then s
      else
        let j := { i with final := true, seq := s.co.nextNum }
        let s1 := { (s.onInst num fun _ => j) with co := { (s.onInst num fun _ => j).co with nextNum := s.co.nextNum + 1 } }
        ((s1.putStatus j j.status).bumpIf i.fn i.asid i.desc.notify 1 i.aborted.isSome).endInst num)

/-- WQ_CHUNK_PUSH (R386). -/
def execWqChunkPush (num chunk : Nat) (s : State) : Out :=
  .next (
    match s.inst? num with
    | none => s
    | some i => match i.desc.workq with
      | none => s
      | some n =>
        if !(i.pushes.head? == some chunk) then s
        else
          let q := s.wq n
          let drop := s.onInst num fun i => { i with pushes := i.pushes.tail }
          if !(q.isOpen && q.asid == i.asid) then drop.endInst num
          else if q.entries.length < wqSize then (drop.wqAppend n [BitVec.ofNat 32 chunk]).endInst num
          else s)

/-! ### coll, cabort, cstat (R391) -/

/-- The descriptor address an operand names: a private-window operand resolves to the thread's backing; one beyond the bound
keeps its window address, which the checks reject (R15, R86). -/
def State.recordAddr (s : State) (st : Stream) (a : DWord) : DWord :=
  match s.redirect st a 1 with
  | .ok va => BitVec.ofNat 64 va
  | .error _ => a

def execColl (o : CollOp) (s : State) : Out :=
  let ids := s.active o.g
  let t := s.curTeam
  .next (
    match s.lowest o.g with
    | none => s.retireLanes o.g id
    | some low =>
      let m : BitVec 5 := if o.rlx then 0b00011 else o.stor ||| 0b00011
      if s.counterFull [low.id] 2 then s.stalled
      else if s.nearPending ids m then s.stalled
      else
        let fin := fun (s : State) (v : Word) => s.retireLanes o.g fun st => (st.kill64 o.s1 o.k1).wr o.d v
        let a := s.recordAddr low (low.rd64 o.s1)
        let bad : Err := ⟨cIllegalOperand, 0⟩
        let s0 := if o.rlx then s else s.releaseTag s.curTag
        if (s0.instOf t.recd.asid a).isSome then fin (s0.recordErr low.id 2 bad) 0xFFFFFFFF
        else match (checkColl t.fn t.recd.asid a true).run s0 with
          | (.error w, s1) => fin (s1.recordErr low.id 2 bad) w
          | (.ok d, s1) =>
            let num := s1.co.nextNum
            let s2 := s1.openInst t.fn t.recd.asid a d (some low.id) none o.rlx
            let s3 := s2.onLane low.id fun st => { st with cnt := st.cnt.add 2 1 }
            fin (s3.fireAll num) 0)

def execCabort (o : Alu1) (s : State) : Out :=
  let t := s.curTeam
  .next (
    match s.lowest o.g with
    | none => s.retireLanes o.g id
    | some low =>
      let a := s.recordAddr low (low.rd64 o.s1)
      match s.instOf t.recd.asid a with
      | some i => (s.abortInst i.num cAborted i.me).retireLanes o.g fun st => (st.kill64 o.s1 o.k1).wr o.d 0
      | none => s.retireLanes o.g fun st => (st.kill64 o.s1 o.k1).wr o.d 1)

/-- The status of the newest instance of a key (R391). -/
def State.statusOf (s : State) (asid : BitVec 16) (a : DWord) : DWord :=
  match s.co.insts.reverse.find? fun i => i.asid == asid && i.addr == a with
  | some i => if i.final then i.status else 0
  | none => -1

def execCstat (o : Alu1) (s : State) : Out :=
  let t := s.curTeam
  .next (
    match s.lowest o.g with
    | none => s.retireLanes o.g id
    | some low =>
      let w := s.statusOf t.recd.asid (s.recordAddr low (low.rd64 o.s1))
      s.retireLanes o.g fun st => (st.kill64 o.s1 o.k1).wr64 o.d w)

end Sys2Proof.Machine
end

