-- ==== Sys2Proof/Machine/Porter.lean ====
section
/-! DEFINITION. Sys2Proof/Machine/Porter.lean: the ingress checks of the Porter (R326, R327), the requests it serves (R319, R321,
R329, R361), grant tokens (R325), job slots and keys (R315, R328). -/
namespace Sys2Proof.Machine

/-! ### Grant tokens (R323) -/

/-- A token is current (R323). -/
def State.current (s : State) (t : DWord) : Bool :=
  decide ((tokExpiry t - BitVec.ofNat 16 (s.gts / 2 ^ 30)).toNat ≤ 32767)

/-! ### Region entries (R326) -/

/-- A region: rights, log2 of its size, base. -/
structure RegionEntry where
  rights : BitVec 3
  size : Nat
  base : DWord
deriving DecidableEq, Repr

/-- The words of a region entry that break no rule. -/
def regionOfWords (w : DWord × DWord × DWord × DWord) : Option RegionEntry :=
  let (w0, b, w2, w3) := w
  let sz := (w0.extractLsb' 4 6).toNat
  if w0.getLsbD 0 && w0.extractLsb' 10 54 == 0 && decide (12 ≤ sz) && decide (sz ≤ 40) && plain00 b &&
      b.toNat % 2 ^ sz == 0 && w2 == 0 && w3 == 0 then some ⟨w0.extractLsb' 1 3, sz, b⟩
  else none
/-- The base of the region table of a slot. -/
def JobSlot.regionBase (j : JobSlot) : Nat := (j.rgnHi ++ j.rgnLo).toNat % 2 ^ 40
/-- The entry of a region, through the Porter's cache, which it fills (R326). -/
def State.region (s : State) (n r : Nat) : Option RegionEntry × State :=
  let j := s.job n
  match j.regions.find? fun e => e.1 = r with
  | some (_, w) => (regionOfWords w, s)
  | none =>
    let at_ := fun k => BitVec.ofNat 64 (s.phys (j.regionBase + 32 * r + 8 * k) 8)
    let w := (at_ 0, at_ 1, at_ 2, at_ 3)
    (regionOfWords w, s.onJob n fun j => { j with regions := j.regions ++ [(r, w)] })

/-! ### The checks (R327) -/

/-- The Porter's translation of bytes within one page. -/
def State.portPage (s : State) (fn : Nat) (asid : BitVec 16) (ak : AK) (va : Nat) : Except Unit Loc × State :=
  let w := s.unit fn asid
  match s.checkPage w ak va with
  | .error e => (.error (), (s.refused w ak e).engineFail 0 fn asid 7 e)
  | .ok c => (.ok c.loc, s.touch w ak c)
def State.portPages (s : State) (fn : Nat) (asid : BitVec 16) (ak : AK) : List (Nat × Nat) → Except Unit (List Loc) × State
  | [] => (.ok [], s)
  | p :: r => match s.portPage fn asid ak p.1 with
    | (.error _, s1) => (.error (), s1)
    | (.ok l, s1) => match s1.portPages fn asid ak r with
      | (.error _, s2) => (.error (), s2)
      | (.ok ls, s2) => (.ok (l :: ls), s2)

/-- A request as the Porter checks it: the right and the bytes, and the region and offset of a notify word. The one token that a packet
carries grants the notify word of its own region alone (log entry 113). -/
def State.portCheck (s : State) (r : InReq) (right n : Nat) (notify : Option (Nat × Nat)) :
    Except (BitVec 8) (Nat × RegionEntry) × State :=
  match s.jobs.findIdx? fun j => j.v && j.jid == r.job with
  | none => (.error rNoJob, s)
  | some k =>
    let j := s.job k
    if !(j.keys.any fun e => e.1 == tokGen r.token) then (.error rKeygen, s)
    else if !s.macOk r.job r.token then (.error rMac, s)
    else if !s.current r.token then (.error rExpired, s)
    else
      let (e, s1) := s.region k (tokRegion r.token)
      match e with
      | none => (.error rRegion, s1)
      | some e =>
        let lim := min (2 ^ tokSize r.token) (2 ^ e.size)
        let ok := fun (b : Nat) => (tokRights r.token).getLsbD b && e.rights.getLsbD b
        if tokRegion r.token ≠ r.region || (notify.any fun o => o.1 != tokRegion r.token) then (.error rRegion, s1)
        else if !ok right || (notify.isSome && !ok 2) then (.error rRights, s1)
        else if lim < r.offset + n || (notify.any fun o => decide (lim < o.2 + 4)) then (.error rBounds, s1)
        else (.ok (k, e), s1)

/-- The places of a request's bytes after the translation of check 8. -/
def State.portLocs (s : State) (k : Nat) (e : RegionEntry) (ak : AK) (off n : Nat) :
    Except (BitVec 8) (List Loc) × State :=
  let asid := (s.job k).asid
  match s.portPages (s.fnOf asid) asid ak (pieces (e.base.toNat + off) n) with
  | (.error _, s1) => (.error rTranslation, s1)
  | (.ok ls, s1) => (.ok ls, s1)

/-! ### Serving -/

/-- Reads of the places in order. -/
def State.portRead (s : State) : List (Loc × Nat) → List Byte × State
  | [] => ([], s)
  | (l, n) :: r =>
    let (bs, s1) := if s.spoiled l 0 n || s.linkDown l then (List.replicate n 0xFF, if s.linkDown l then s.lostRead l else s)
      else s.readNow l 0 n none
    let (cs, s2) := s1.portRead r
    (bs ++ cs, s2)
def State.portWrite (s : State) (bs : List Byte) : List (Loc × Nat) → State
  | [] => s
  | (l, n) :: r =>
    (if s.linkDown l then s.lostWrite l else s.writeNow l 0 (bs.take n)).portWrite (bs.drop n) r

/-- A load or store of class 10 (R319). -/
def State.serve (s : State) (r : InReq) (load : Option Nat) (data : List Byte) : Reply × State :=
  let n := load.getD data.length
  let (c, s1) := s.portCheck r (if load.isSome then 0 else 1) n none
  match c with
  | .error e => (.nack e, s1)
  | .ok (k, e) =>
    match s1.portLocs k e (if load.isSome then .load else .store) r.offset n with
    | (.error x, s2) => (.nack x, s2)
    | (.ok ls, s2) =>
      let ps := ls.zip ((pieces (e.base.toNat + r.offset) n).map (·.2))
      if load.isSome then
        let (bs, s3) := s2.portRead ps
        (.data bs, s3)
      else (.data [], s2.portWrite data ps)

/-- The end of the highest byte of a packet. -/
def packetEnd (data : List (Nat × List Byte)) : Nat := data.foldl (fun m r => max m (r.1 + r.2.length)) 0

/-- The places of every run of a packet; the first failure refuses the packet. -/
def State.packetLocs (s : State) (k : Nat) (e : RegionEntry) :
    List (Nat × List Byte) → Except (BitVec 8) (List (List (Loc × Nat) × List Byte)) × State
  | [] => (.ok [], s)
  | (o, bs) :: r => match s.portLocs k e .store o bs.length with
    | (.error x, s1) => (.error x, s1)
    | (.ok ls, s1) => match s1.packetLocs k e r with
      | (.error x, s2) => (.error x, s2)
      | (.ok rs, s2) => (.ok ((ls.zip ((pieces (e.base.toNat + o) bs.length).map (·.2)), bs) :: rs), s2)

/-- A notify word in a page whose virtual cache is read-only refuses its packet (R232); one that cannot be translated or written is
dropped (R305). -/
def State.notifyRefused (s : State) (k : Nat) (e : RegionEntry) (notify : Option (Nat × Nat)) : Bool :=
  let asid := (s.job k).asid
  notify.any fun o => match s.checkPage (s.unit (s.fnOf asid) asid) .atomic (e.base.toNat + o.2) with
    | .error (.trap c _) => c == cPagePermission
    | _ => false

/-- A copy packet: its bytes, then its notify word (R305, R321). -/
def State.placePacket (s : State) (r : InReq) (data : List (Nat × List Byte)) (notify : Option (Nat × Nat)) :
    Except (BitVec 8) Unit × State :=
  let (c, s1) := s.portCheck { r with offset := 0 } 1 (packetEnd data) notify
  match c with
  | .error e => (.error e, s1)
  | .ok (k, e) =>
    match s1.packetLocs k e data with
    | (.error x, s2) => (.error x, s2)
    | (.ok rs, s2) =>
      if s2.notifyRefused k e notify then (.error rTranslation, s2)
      else
        let s3 := rs.foldl (fun s w => s.portWrite w.2 w.1) s2
        let asid := (s.job k).asid
        match notify with
        | none => (.ok (), s3)
        | some o => (.ok (), s3.bump (s.fnOf asid) asid (e.base + BitVec.ofNat 64 o.2) 1 false)

/-- An atomic (R361). -/
def State.serveAtomic (s : State) (r : InReq) (op : RmwOp) (lanes : List (DWord × DWord)) : Reply × State :=
  let n := rmwSize op
  let (c, s1) := s.portCheck r 2 n none
  match c with
  | .error e => (.nack e, s1)
  | .ok (k, e) =>
    match s1.portLocs k e .atomic r.offset n with
    | (.error x, s2) => (.nack x, s2)
    | (.ok ls, s2) =>
      match s2.rmwAt (ls.headD ⟨.dev, 0, 0, false⟩) op lanes with
      | (none, s3) => (.data (List.replicate (n * lanes.length) 0xFF), s3)
      | (some vs, s3) => (.data (vs.flatMap fun v => bytesOfNat n v.toNat), s3)

/-! ### Events of the Porter -/

def State.send (s : State) (m : Msg) : State := { s with outbox := s.outbox ++ [m] }
/-- The answer of the management port to a command (R445), or over the host link to a request there (R444): what the spec states of it,
and a free value for the rest (log entry 20). -/
def State.answerMctp (s : State) (host : Bool) (bytes : List Byte) : State :=
  let body := bytes ++ Config.monitor s.free
  { s with free := s.free + 1 }.send (if host then .vdm body else .mgmt body)

/-- The record of an open copy of a source: a rank of a job, and the copy's identifier. A source uses no identifier twice (log entry
114). -/
def State.placedOf (s : State) (j : Word) (r c : Nat) : Placed :=
  (s.dr.placed.find? fun p => p.job = j && p.srcRank = r && p.copy = c).getD ⟨j, r, c, [], false⟩
def State.setPlaced (s : State) (p : Placed) : State :=
  let same := fun (q : Placed) => q.job == p.job && q.srcRank == p.srcRank && q.copy == p.copy
  { s with dr := { s.dr with placed := (s.dr.placed.filter fun q => !same q) ++ [p] } }

/-- PACKET_PLACE (R321). -/
def execPacketPlace (p : InPacket) (s : State) : Out :=
  let src := p.req.srcRank
  let job := p.req.job
  let rec_ := s.placedOf job src p.copy
  .next (
    if rec_.closed then s
    else if p.index ∈ rec_.indices then s.send (.ack job src p.copy p.index)
    else match s.placePacket p.req p.data p.notify with
      | (.error e, s1) => s1.send (.nack job src p.copy p.index e)
      | (.ok _, s1) => (s1.setPlaced { rec_ with indices := nins rec_.indices p.index }).send (.ack job src p.copy p.index))

/-- COPY_CLOSE (R321): the record of placed packets is dropped, and no packet of the copy is placed from then on (R314). -/
def execCopyClose (src : Peer) (copy : Nat) (s : State) : Out := .next (s.setPlaced ⟨src.job, src.rank, copy, [], true⟩)

/-- REMOTE_REQUEST (R319). -/
def execRemoteRequest (r : InReq) (load : Option Nat) (data : List Byte) (s : State) : Out :=
  let (x, s1) := s.serve r load data
  .next (s1.send (.reply r.srcRank x))

/-- The time of 7 ms and of 8 ms in nanoseconds (R361). -/
def ms7 : Nat := 7000000
def ms8 : Nat := 8000000

/-- REMOTE_ATOMIC_EXECUTE (R361): a late request is discarded, a repeated one answered from the reply cache. -/
def execRemoteAtomicExecute (a : InAtomic) (s : State) : Out :=
  .next (
    if a.t0 + ms7 ≤ s.gts then s
    else match s.dr.replies.find? fun x => x.srcRank = a.req.srcRank && x.seq = a.seq with
      | some x => s.send (.atomReply x.srcRank x.seq x.reply)
      | none =>
        let (x, s1) := s.serveAtomic a.req a.op a.lanes
        let rs := s1.dr.replies ++ [CachedReply.mk a.req.srcRank a.seq x s1.gts]
        let s2 := match x with
          | .data _ => { s1 with dr := { s1.dr with replies := rs } }
          | _ => s1
        s2.send (.atomReply a.req.srcRank a.seq x))

/-- REPLY_CACHE_EXPIRE (R329). -/
def execReplyCacheExpire (srcRank seq : Nat) (s : State) : Out :=
  .next { s with dr := { s.dr with replies := s.dr.replies.filter fun x =>
    !(x.srcRank == srcRank && x.seq == seq && decide (x.time + ms8 ≤ s.gts)) } }

/-! ### rgtok (R325) -/

/-- Entries of the token table (R324). -/
def tokenRoom : Nat := 1048576

/-- One install: the result and the store (R325). -/
def State.installToken (s : State) (asid : BitVec 16) (t : DWord) (r : Word) : Word × State :=
  match s.jobOf asid with
  | none => (4, s)
  | some n =>
    let rank := (r.extractLsb' 0 17).toNat
    if (s.job n).last < rank || r.extractLsb' 17 15 ≠ 0 then (5, s)
    else if tokRights t = 0 || tokSize t < 12 || 40 < tokSize t then (3, s)
    else
      let same := fun (x : Token) => x.asid == asid && x.rank == rank && x.region == tokRegion t
      -- results 0 and 1 are written only where the table is not full
      if tokenRoom ≤ s.tokens.length then (2, s)
      else if s.tokens.any same then (1, { s with tokens := s.tokens.map fun x => if same x then { x with tok := t } else x })
      else (0, { s with tokens := s.tokens ++ [⟨asid, rank, tokRegion t, t⟩] })
/-- One removal (R325). -/
def State.removeToken (s : State) (asid : BitVec 16) (r : Word) (region : Nat) : Word × State :=
  match s.jobOf asid with
  | none => (4, s)
  | some n =>
    let rank := (r.extractLsb' 0 17).toNat
    if (s.job n).last < rank || r.extractLsb' 17 15 ≠ 0 then (5, s)
    else
      let same := fun (x : Token) => x.asid == asid && x.rank == rank && x.region == region
      if s.tokens.any same then (0, { s with tokens := s.tokens.filter fun x => !same x }) else (6, s)

/-- The lanes in ascending thread index: their results. -/
def State.eachLane (s : State) (f : State → Stream → Word × State) : List SId → List (SId × Word) × State
  | [] => ([], s)
  | id :: r =>
    let (w, s1) := f s (s.stream id)
    let (ws, s2) := s1.eachLane f r
    ((id, w) :: ws, s2)

def laneWord (ws : List (SId × Word)) (id : SId) : Word := ((ws.find? fun x => x.1 = id).map (·.2)).getD 0

def execRgtok (o : AluR) (s : State) : Out :=
  let asid := s.curTeam.recd.asid
  let (ws, s1) := s.eachLane (fun s st => s.installToken asid (st.rd64 o.s1) (st.rd o.s2)) (s.active o.g)
  .next (s1.retireLanes o.g fun st => ((st.kill64 o.s1 o.k1).kill o.s2 o.k2).wr o.d (laneWord ws st.id))
def execRgtokRm (g : Guard) (d s2 : Reg) (k2 : Bool) (region : BitVec 5) (s : State) : Out :=
  let asid := s.curTeam.recd.asid
  let (ws, s1) := s.eachLane (fun s st => s.removeToken asid (st.rd s2) region.toNat) (s.active g)
  .next (s1.retireLanes g fun st => (st.kill s2 k2).wr d (laneWord ws st.id))

/-! ### Job slots (R315, R328) -/

/-- PA of a level-T table. -/
def JobSlot.tableBase (j : JobSlot) : Nat := (j.tblHi ++ j.tblLo).toNat % 2 ^ 40

/-- V = 1 (R315): RANK below NRANKS, and the ASID in no other valid slot; the tables of the own top group come onto the die. -/
def State.validateJob (s : State) (n : Nat) (asid : BitVec 16) : State :=
  let j := { s.job n with asid := asid }
  let other := (s.jobs.mapIdx fun i x => i != n && x.v && x.asid == asid).any id
  if (s.job n).v then s
  else if j.last < j.rank || other then s.onJob n fun x => { x with asid := asid }
  else
    let t := (List.range 32).map fun i => s.readRankDesc (j.tableBase + 32 * i)
    let own := t.getD (j.rank / 4096) ⟨0, 0, 0, 0⟩
    let m := if own.ok && own.kind == 1 then (List.range 64).map fun i => s.readRankDesc (own.ptr.toNat + 32 * i) else []
    (s.dropRanks n).onJob n fun x => { x with v := true, asid := asid, levelT := t, levelM := m, regions := [], gen := x.gen + 1 }
/-- V = 0 (R315); the ASID is written where the slot was not valid. -/
def State.invalidateJob (s : State) (n : Nat) (asid : BitVec 16) : State :=
  if (s.job n).v then (s.dropRanks n).onJob n fun x => { x with v := false, levelT := [], levelM := [], regions := [] }
  else s.onJob n fun x => { x with asid := asid }

def execJobSlotValidate (n : Nat) (asid : BitVec 16) (s : State) : Out := .next (s.validateJob n asid)
def execJobSlotInvalidate (n : Nat) (asid : BitVec 16) (s : State) : Out := .next (s.invalidateJob n asid)

/-- JOB_n_SELF (R315): ignored while the slot is valid. -/
def State.jobSelf (s : State) (n : Nat) (v : Word) : State :=
  s.onJob n fun x =>
    if x.v then x
    else if v.getLsbD 17 then { x with last := (v.extractLsb' 0 17).toNat } else { x with rank := (v.extractLsb' 0 17).toNat }
def execJobSelfRank (n : Nat) (v : BitVec 17) (s : State) : Out := .next (s.jobSelf n (0#15 ++ v))
def execJobSelfNranks (n : Nat) (v : BitVec 17) (s : State) : Out := .next (s.jobSelf n (0#14 ++ 1#1 ++ v))

/-- REGION_BASE_WRITE (R326): the new low half of the base, and the region cache dropped. -/
def State.regionLo (s : State) (n : Nat) (v : Word) : State := s.onJob n fun x => { x with rgnLo := v, regions := [] }
def execRegionBaseWrite (n : Nat) (v : Word) (s : State) : Out := .next (s.regionLo n v)
/-- The high half, whose write drops the cache too (R315). -/
def State.regionHi (s : State) (n : Nat) (v : Word) : State := s.onJob n fun x => { x with rgnHi := v, regions := [] }

/-- One word written to JOB_n_KEY (R328): the words of an install, the word that begins one, a retire, or a word ignored. -/
def State.keyWord (s : State) (n : Nat) (w : Word) : State :=
  s.onJob n fun x =>
    if x.pending ≠ [] then
      let ws := x.pending ++ [w]
      if ws.length = 8 then
        let g := ((ws.headD 0).extractLsb' 0 2).toNat
        { x with pending := [], keys := (x.keys.filter fun e => e.1 ≠ g) ++ [(g, ws.tail)] }
      else { x with pending := ws }
    else if w.extractLsb' 2 28 ≠ 0 || w.getLsbD 31 == w.getLsbD 30 then x
    else if w.getLsbD 31 then { x with pending := [w] }
    else { x with keys := x.keys.filter fun e => e.1 ≠ (w.extractLsb' 0 2).toNat }

/-- The eight words of an install. -/
def installWords (gen : BitVec 2) (ws : List Word) : List Word := (1#1 ++ 0#29 ++ gen) :: (ws ++ List.replicate 7 0).take 7
/-- KEY_INSTALL and KEY_RETIRE (R328), and KEY_INSTALL of the management port (R445). -/
def execKeyInstall (n : Nat) (gen : BitVec 2) (ws : List Word) (s : State) : Out :=
  .next (if (s.job n).pending = [] then (installWords gen ws).foldl (fun s w => s.keyWord n w) s else s)
def execKeyRetire (n : Nat) (gen : BitVec 2) (s : State) : Out :=
  .next (if (s.job n).pending = [] then s.keyWord n (0#1 ++ 1#1 ++ 0#28 ++ gen) else s)
def execMgmtKeyInstall (n : Nat) (gen : BitVec 2) (ws : List Word) (s : State) : Out :=
  .next ((s.onJob n fun x => { x with keys := (x.keys.filter fun e => e.1 ≠ gen.toNat) ++ [(gen.toNat, (ws ++ List.replicate 7 0).take 7)] }).answerMctp
    false [])

end Sys2Proof.Machine
end

