-- ==== Sys2Proof/Machine/Dray.lean ====
section
/-! DEFINITION. Sys2Proof/Machine/Dray.lean: copies: the copy tracker, `dcopy`, `dfill`, `tcopy`, `dcancel` and `dstat`, and the
events by which Drays move their bytes (R302 to R314, R320 to R322, R331). -/
namespace Sys2Proof.Machine

/-! ### The copy tracker (R302, R303) -/

/-- The core number under which the copies of graph nodes are kept (log entry 37). -/
def nodeCore : Nat := 192

def Copy.handle (c : Copy) : Word := BitVec.ofNat 32 (c.id.core * 2 ^ 24 + c.gen * 1024 + c.id.entry)
def Copy.final (c : Copy) : Bool := decide (2 ≤ c.state)
/-- The status word (R303). -/
def Copy.status (c : Copy) : Word :=
  if c.state = 5 then 5#4 ++ 0#4 ++ c.reason.extractLsb' 0 24
  else BitVec.ofNat 4 c.state ++ 0#4 ++ c.cause ++ c.reason.extractLsb' 0 8 ++ BitVec.ofNat 8 (min c.retx 255)

def State.copy? (s : State) (c : CopyId) : Option Copy := s.dr.copies.find? fun x => x.id = c
def State.onCopy (s : State) (c : CopyId) (f : Copy → Copy) : State :=
  { s with dr := { s.dr with copies := s.dr.copies.map fun x => if x.id = c then f x else x } }

/-- The entry that a core's tracker gives: one never used, else the final one whose status became final earliest (R302). -/
def State.freeEntry (s : State) (core : Nat) : Option Nat :=
  let mine := s.dr.copies.filter fun c => c.id.core = core
  match (List.range 1024).find? fun e => !(mine.any fun c => c.id.entry == e) with
  | some e => some e
  | none =>
    let fs := mine.filter Copy.final
    (fs.find? fun c => fs.all fun d => decide (c.seq ≤ d.seq)).map fun c => c.id.entry
/-- Allocation: the entry's generation rises modulo 2^14 (R302). -/
def State.putCopy (s : State) (c : Copy) : State :=
  let gen := match s.copy? c.id with
    | some old => (old.gen + 1) % 16384
    | none => 1
  let cs := (s.dr.copies.filter fun x => x.id ≠ c.id) ++ [{ c with gen := gen, seq := s.nextOp }]
  { s with dr := { s.dr with copies := cs }, nextOp := s.nextOp + 1 }
def State.handleOf (s : State) (c : CopyId) : Word := ((s.copy? c).map Copy.handle).getD 0

/-! ### What a copy moves -/

/-- Where a destination byte comes from. -/
inductive Feed where
  | mem (a : DWord)
  | byte (b : Byte)
deriving DecidableEq, Repr

/-- The coordinates of box element k, dimension 0 fastest (R31). -/
def boxCoords : List Nat → Nat → List Nat
  | [], _ => []
  | b :: r, k => (k % b) :: boxCoords r (k / b)

/-- A half-byte map as a map of bytes: two elements a byte, the lower in bits [3:0] (R30, R31). -/
def TMap.asBytes (m : TMap) : TMap :=
  if m.half then
    { m with half := false, box := m.box.headD 0 / 2 :: m.box.tail, size := m.size.headD 0 / 2 :: m.size.tail
             stride := 1 :: m.stride.tail, fill := (m.fill &&& 15) * 17 }
  else m
/-- Origins of a half-byte map in bytes. -/
def halfOrigin (half : Bool) (o : List Int) : List Int := if half then o.headD 0 / 2 :: o.tail else o

/-- The address of box element k at an origin, none where it is out of bounds (R31). -/
def TMap.elemAt (m : TMap) (o : List Int) (k : Nat) : Option DWord :=
  let c := List.zipWith (fun (x : Int) (b : Nat) => x + (b : Int)) o (boxCoords m.box k)
  if (List.zip c m.size).all fun p => decide (0 ≤ p.1) && decide (p.1 < (p.2 : Int)) then
    some ((List.zip c m.stride).foldl (fun a p => a + BitVec.ofInt 64 p.1 * p.2) m.base)
  else none

/-- An element keeps the class, and of class 10 the rank and the region, of its map's BASE (R31, R313). -/
def keepsClass (base a : DWord) (n : Nat) : Bool :=
  let last := a.toNat + (n - 1)
  classOk allClasses a && decide (last / 2 ^ 62 = base.toNat / 2 ^ 62) && classOk allClasses (BitVec.ofNat 64 last) &&
    a.extractLsb' 62 2 == base.extractLsb' 62 2 &&
    (base.extractLsb' 62 2 != 2#2 || (a.extractLsb' 40 24 == base.extractLsb' 40 24 && decide (last / 2 ^ 40 = base.toNat / 2 ^ 40)))

/-- The moves of box element k: none where its address leaves its map's class. -/
def tensorMoves (d m : TMap) (od om : List Int) (k : Nat) : Option (List (DWord × Feed)) :=
  match d.elemAt od k, m.elemAt om k with
  | none, none => some []
  | none, some a => if keepsClass m.base a m.elem then some [] else none
  | some x, some a =>
    if keepsClass m.base a m.elem && keepsClass d.base x d.elem then
      some ((List.range d.elem).map fun j => (x + BitVec.ofNat 64 j, Feed.mem (a + BitVec.ofNat 64 j)))
    else none
  | some x, none =>
    if !keepsClass d.base x d.elem then none
    else if m.skip then some []
    else some ((List.range d.elem).map fun j =>
      (x + BitVec.ofNat 64 j, Feed.byte (((m.fill.setWidth 64) >>> (8 * j)).extractLsb' 0 8)))

/-- The moves of a tensor copy by element, none where an address leaves its map. -/
def tensorElems (d m : TMap) (od om : List Int) : List (Option (List (DWord × Feed))) :=
  (List.range d.asBytes.elems).map (tensorMoves d.asBytes m.asBytes (halfOrigin d.half od) (halfOrigin m.half om))
/-- Bytes from a class-00 address to the end of the class: of a COPY node, whose range no instruction has checked, those past it break
the class (R50, R68). -/
def classRoom (a : DWord) (n : Nat) : Nat := if a.extractLsb' 62 2 = 0#2 then min n (2 ^ 57 - a.toNat) else n
/-- The moves of a copy in order, up to one whose address leaves its class or its map; whether there is such a move. -/
def Copy.plan (c : Copy) : List (DWord × Feed) × Bool :=
  match c.kind with
  | .bytes src =>
    let n := classRoom c.dst (classRoom src c.len)
    ((List.range n).map fun k => (c.dst + BitVec.ofNat 64 k, Feed.mem (src + BitVec.ofNat 64 k)), decide (n < c.len))
  | .fill p w => ((List.range c.len).map fun k =>
      (c.dst + BitVec.ofNat 64 k, Feed.byte (p.extractLsb' (8 * (k % 2 ^ w)) 8)), false)
  | .tensor d m od om =>
    let es := tensorElems d m od om
    ((es.takeWhile Option.isSome).flatMap fun e => e.getD [], es.any Option.isNone)
/-- The destination addresses of a copy, those behind a bad element too (R228). -/
def Copy.dests (c : Copy) : List DWord :=
  match c.kind with
  | .tensor d m od om => ((tensorElems d m od om).flatMap fun e => e.getD []).map (·.1)
  | _ => c.plan.1.map (·.1)

/-- The source of a copy in memory: the address that decides its class. -/
def Copy.source (c : Copy) : Option DWord :=
  match c.kind with
  | .bytes src => some src
  | .fill _ _ => none
  | .tensor _ m _ _ => some m.base

def class10 (a : DWord) : Bool := a.extractLsb' 62 2 == 2#2
/-- The vault word of a class-01 address. -/
def vaultWordOf (a : DWord) : Option Nat := if a.extractLsb' 62 2 = 1#2 then some (a.toNat % 2 ^ 32 / 4 * 4) else none
def wordsOf (as : List DWord) : List Nat := (as.filterMap vaultWordOf).foldl nins []

/-! ### Bytes that a Dray reads and writes (R308) -/

/-- A Dray's accesses: its translation cache, its die, the copy's ASID and the privilege that the ASID gives. -/
def State.drayWho (s : State) (c : Copy) (d : Nat) : Who :=
  ⟨.dray d, d / 64, c.asid, (s.fn c.fn).privV && (s.fn c.fn).privAsid == c.asid⟩


/-- The place of `n` bytes within a page, with the effects of its translation. -/
def State.drayAt (s : State) (c : Copy) (d : Nat) (ak : AK) (a : DWord) (n : Nat) : Except Cause Loc × State :=
  if a.extractLsb' 62 2 = 1#2 then
    match s.vaultBad c.asid (a.toNat % 2 ^ 32) n with
    | some _ => (.error cVaultRange, s)
    | none => (.ok ⟨.vault, vaultKey + a.toNat % 2 ^ 32, 0, false⟩, s)
  else
    let w := s.drayWho c d
    match s.checkPage w ak a.toNat with
    | .error e => (.error (failCause e), (s.refused w ak e).engineFail (d / 64) c.fn c.asid (if ak.writes then 6 else 5) e)
    | .ok x => (.ok x.loc, s.touch w ak x)

def State.drayRead (s : State) (c : Copy) (d : Nat) (a : DWord) : Except Cause Byte × State :=
  match s.drayAt c d .load a 1 with
  | (.error e, s1) => (.error e, s1)
  | (.ok l, s1) =>
    if s1.linkDown l then (.error (lostCause l), s1.lostRead l)
    else if s1.shutHost c.fn l then (.error cLinkLost, s1)
    else if s1.spoiled l (48 * (d / 64) / 4) 1 then (.error cPoison, s1)
    else
      let (bs, s2) := s1.readNow l (48 * (d / 64) / 4) 1 none
      (.ok (bs.headD 0), s2)

/-- The bytes of a list of moves, in order, up to the first that cannot be read. -/
def State.drayGather (s : State) (c : Copy) (d : Nat) : List (DWord × Feed) → List (DWord × Byte) × Option Cause × State
  | [] => ([], none, s)
  | (x, .byte b) :: r =>
    let (bs, e, s1) := s.drayGather c d r
    ((x, b) :: bs, e, s1)
  | (x, .mem a) :: r =>
    match s.drayRead c d a with
    | (.error e, s1) => ([], some e, s1)
    | (.ok b, s1) =>
      let (bs, e, s2) := s1.drayGather c d r
      ((x, b) :: bs, e, s2)

/-- Bytes at consecutive addresses within 64 aligned bytes, together. -/
def byteRuns : List (DWord × Byte) → List (DWord × List Byte)
  | [] => []
  | (a, b) :: r =>
    match byteRuns r with
    | [] => [(a, [b])]
    | (x, bs) :: rs => if x = a + 1 && a.toNat % 64 != 63 then (a, b :: bs) :: rs else (a, [b]) :: (x, bs) :: rs

/-- Vault words that lie in shares of an ASID: only these have a full/empty bit that its copies change (R224, R228). -/
def State.ownWords (s : State) (asid : BitVec 16) (ws : List Nat) : List Nat := ws.filter fun w => (s.vaultBad asid w 4).isNone
/-- Words of the destination that the copy set empty are full again once no byte of the copy is still to come (R228). -/
def State.fillWords (s : State) (c : CopyId) (left : List Nat) : State :=
  match s.copy? c with
  | none => s
  | some x =>
    let done := s.ownWords x.asid (x.empties.filter fun w => !(left.contains w))
    done.foldl (fun s w => s.setBit w false) (s.onCopy c fun x => { x with empties := x.empties.filter left.contains })

/-- The writes of a copy in order, up to the first that fails. -/
def State.drayScatter (s : State) (c : Copy) (d : Nat) : List (DWord × List Byte) → Option Cause × State
  | [] => (none, s)
  | (a, bs) :: r =>
    match s.drayAt c d .store a bs.length with
    | (.error e, s1) => (some e, s1)
    | (.ok l, s1) =>
      if s1.linkDown l then (some (lostCause l), s1.lostWrite l)
      else if s1.shutHost c.fn l then (some cLinkLost, s1)
      else (s1.writeNow l (48 * (d / 64) / 4) bs).drayScatter c d r

/-- The first error that reaches the Dray (R306). -/
def State.copyErr (s : State) (c : CopyId) (cause : Cause) (reason : BitVec 8) : State :=
  s.onCopy c fun x => if x.err.isNone then { x with err := some (cause, reason) } else x

/-- Write bytes of a copy; of its vault words, those without a byte in `left` are full again. -/
def State.drayPut (s : State) (c : Copy) (d : Nat) (bs : List (DWord × Byte)) (left : List Nat) : State :=
  match s.drayScatter c d (byteRuns bs) with
  | (some e, s1) => s1.copyErr c.id e 0
  | (none, s1) => s1.fillWords c.id left

/-! ### Packets (R320 to R322) -/

def sprayBytes (n : Nat) : Nat := if n = 0 then 4096 else 32 * 2 ^ n
def Copy.cut (c : Copy) (l : List α) : List (List α) :=
  let n := sprayBytes c.spray
  (List.range ((l.length + n - 1) / n)).map fun i => (l.drop (i * n)).take n

/-- What the packets of a copy carry: its bytes for a class-10 destination, the bytes to read for a class-10 source. -/
def Copy.carried (c : Copy) : List (DWord × Feed) :=
  if class10 c.dst then c.plan.1
  else c.plan.1.filter fun m => match m.2 with | .mem _ => true | .byte _ => false

/-- The ranked side of a copy. -/
def Copy.far (c : Copy) : DWord := if class10 c.dst then c.dst else c.source.getD 0
def Copy.ranked (c : Copy) : Bool := class10 c.dst || c.source.any class10
/-- The moves that a Dray makes in order: of a copy within the device every move, of another one what its packets carry. -/
def Copy.todo (c : Copy) : List (DWord × Feed) := if c.ranked then c.carried else c.plan.1
/-- Every byte has been moved or sent. -/
def Copy.whole (c : Copy) : Bool := decide (c.todo.length ≤ c.moved)
/-- The Dray goes on with a copy. -/
def Copy.going (c : Copy) : Bool := c.state == 1 && c.err.isNone && c.cancel.isNone && c.cxl.isNone && !c.whole

/-- Number of paths to a rank (R318). -/
def State.npath (s : State) (slot : Nat) (r : Nat) : Nat :=
  match s.rankEntry slot r with
  | some (d, _) => (sget [0] s.dr.paths d.pathset).length
  | none => 1

/-- System software writes PATHSET_n: 1 to 16 entropy values (R318). -/
def State.setPaths (s : State) (n : Nat) (vals : List Nat) : State :=
  if n < 256 && decide (1 ≤ vals.length) && decide (vals.length ≤ 16) then
    { s with dr := { s.dr with paths := sset [0] s.dr.paths n vals } }
  else s

/-- Consecutive addresses as ranges. -/
def addrRuns : List DWord → List (DWord × Nat)
  | [] => []
  | a :: r =>
    match addrRuns r with
    | [] => [(a, 1)]
    | (x, n) :: rs => if x = a + 1 then (a, n + 1) :: rs else (a, 1) :: (x, n) :: rs
def Feed.addr : Feed → DWord
  | .mem a => a
  | .byte _ => 0
/-- The ranges a fetch packet asks for. -/
def fetchRanges (ms : List (DWord × Feed)) : List (DWord × Nat) := addrRuns (ms.map fun m => m.2.addr)

/-- The message of a packet of a copy. The identifier of a copy is the number of its issue, which the device uses once. -/
def State.message (s : State) (c : Copy) (dest : Dest) (p : Packet) : Msg :=
  let ms := (c.cut c.carried).getD p.index []
  let first := if class10 c.dst then (ms.map (·.1)).headD c.dst else (fetchRanges ms).head?.elim c.far (·.1)
  let h : PacketHead := ⟨c.seq, p.index, c.job, c.srcRank, dest, c.token, p.path, s.portTo dest first⟩
  if class10 c.dst then .packet h (byteRuns p.data) c.notify else .fetch h (fetchRanges ms)
def Copy.closing (c : Copy) (d : Dest) : Msg := .close c.seq c.job c.srcRank d

/-- A packet of a copy to the device's own rank. -/
def State.selfPacket (s : State) (c : Copy) (slot : Nat) (tok : DWord) (bs : List (DWord × Byte)) :
    Except (BitVec 8) Unit × State :=
  let r := s.ownRequest slot tok c.dst
  s.placePacket r ((byteRuns bs).map fun x => (offsetOf x.1, x.2))
    (if c.notify = 0 then none else some (regionOf c.notify, offsetOf c.notify))
def State.selfPackets (s : State) (c : Copy) (slot : Nat) (tok : DWord) : List (List (DWord × Byte)) → State
  | [] => s
  | p :: r => match s.selfPacket c slot tok p with
    | (.error e, s1) => s1.copyErr c.id cRemoteNack e
    | (.ok _, s1) => s1.selfPackets c slot tok r

/-- A read of the device's own rank, by ranges. -/
def State.selfFetch (s : State) (slot : Nat) (tok : DWord) : List (DWord × Nat) → Except (BitVec 8) (List Byte) × State
  | [] => (.ok [], s)
  | (a, n) :: r =>
    let q := s.ownRequest slot tok a
    match s.serve q (some n) [] with
    | (.nack e, s1) => (.error e, s1)
    | (.portDown, s1) => (.error 0, s1)
    | (.data bs, s1) => match s1.selfFetch slot tok r with
      | (.error e, s2) => (.error e, s2)
      | (.ok cs, s2) => (.ok (bs ++ cs), s2)
def State.selfFetches (s : State) (c : Copy) (d slot : Nat) (tok : DWord) : List (List (DWord × Feed)) → State
  | [] => s
  | p :: r => match s.selfFetch slot tok (fetchRanges p) with
    | (.error e, s1) => s1.copyErr c.id cRemoteNack e
    | (.ok bs, s1) =>
      let s2 := s1.drayPut c d ((p.map (·.1)).zip bs) (wordsOf (r.flatten.map (·.1)))
      if ((s2.copy? c.id).bind (·.err)).isSome then s2 else s2.selfFetches c d slot tok r

/-! ### Issue -/

def noCopy : Copy :=
  { id := ⟨0, 0⟩, gen := 0, tcx := 0, sid := ⟨0, .lane, 0⟩, fn := 0, asid := 0, kind := .fill 0 0, dst := 0, len := 0
    spray := 0, srcCtr := 0, notify := 0, state := 0, cause := 0, reason := 0, retx := 0, seq := 0, dray := none, dest := none
    token := 0, job := 0, srcRank := 0, paths := 1, packets := [], moved := 0, cxl := none, err := none, cancel := none
    confirmed := false, empties := [] }

/-- The end of a copy (R304 to R306, R309): its vault words are full, the counters of R305, slot 2, CPC, the close; or the
completion of its graph node. -/
def State.finishCopy (s : State) (id : CopyId) (state : Nat) (cause : Cause) (reason : Word) : State :=
  match (s.fillWords id []).copy? id with
  | none => s
  | some c =>
    let s1 := (s.fillWords id []).onCopy id fun c =>
      { c with state := state, cause := cause, reason := reason, dray := none, seq := s.nextOp }
    let s2 := { s1 with nextOp := s1.nextOp + 1 }
    let s3 := match c.dest with
      | some d => if c.cancel.isNone then s2.send (c.closing d) else s2
      | none => s2
    let s4 := if state = 2 && c.len != 0 && !class10 c.dst then s3.bumpIf c.fn c.asid c.notify 1 false else s3
    let s5 := s4.bumpIf c.fn c.asid c.srcCtr 1 (state != 2)
    let bad := state = 3 || state = 5
    if id.core = nodeCore then
      if state = 2 then s5.nodeOk id.entry
      else s5.nodeFail id.entry (if state = 5 then 0 else cause) (if state = 5 then reason else 0)
    else
      let s6 := if bad then s5.recordErr c.sid 2 ⟨if state = 5 then cIllegalOperand else cause, if state = 5 then 0 else reason.setWidth 16⟩
        else s5
      s6.decCounter c.sid 2

/-- Issue of a copy whose checks have passed: an entry, CPC, the destination words of its vault (R228, R311). -/
def State.issueCopy (s : State) (c : Copy) : State :=
  let ws := s.ownWords c.asid (wordsOf c.dests)
  let s1 := (s.putCopy { c with empties := if c.len = 0 then [] else ws }).onLane c.sid fun st => { st with cnt := st.cnt.add 2 1 }
  if c.len = 0 then s1.finishCopy c.id 2 0 0
  else ws.foldl (fun s w => s.setBit w true) s1

/-- Steps 1 and 2 of R70 on the first and the last byte of a range, rank and region kept, and R72 (R311): the resolved
address. -/
def State.copyRange (s : State) (st : Stream) (a : DWord) (len : Nat) : Except Fail DWord :=
  let n := max len 1
  let last := BitVec.ofNat 64 (a.toNat + (n - 1))
  if rangeBad allClasses a n || (class10 a && last.extractLsb' 40 24 != a.extractLsb' 40 24) then .error (.trap cAddressClass a)
  -- a range that starts in the window stays below its bound (R86)
  else match s.redirect st a n with
    | .error e => .error e
    | .ok va => match s.redirect st last 1 with
      | .error e => .error e
      | .ok _ =>
        if a.extractLsb' 62 2 = 1#2 then
          match s.vaultBad (s.team st.id.tcx).recd.asid (a.toNat % 2 ^ 32) n with
          | some b => .error (.trap cVaultRange (0x4000000000000000 + BitVec.ofNat 64 b))
          | none => .ok a
        else .ok (if class10 a then a else BitVec.ofNat 64 va)

/-- A counter address of R305, resolved (R86); 0 for none. -/
def State.copyCounter (s : State) (st : Stream) (a : DWord) (ranked : Bool) : Except Fail DWord :=
  if a = 0 then .ok 0
  else if ranked then
    if !class10 a then .error (.trap cAddressClass a)
    else if a.toNat % 4 ≠ 0 then .error (.trap cAlignment a)
    else .ok a
  else if !classOk ⟨true, true, false⟩ a then .error (.trap cAddressClass a)
  else match s.redirect st a 4 with
    | .error e => .error e
    | .ok va => if a.toNat % 4 ≠ 0 then .error (.trap cAlignment a) else .ok (BitVec.ofNat 64 va)

/-- The checks on the counters (R311): the resolved source and notify counters. -/
def State.copyCounters (s : State) (st : Stream) (x : Reg) (dst : DWord) (src : Option DWord) : Except Fail (DWord × DWord) :=
  match s.copyCounter st (st.rd64 (x.up 2)) false with
  | .error e => .error e
  | .ok sc => match s.copyCounter st (st.rd64 (x.up 4)) (class10 dst) with
    | .error e => .error e
    | .ok nc =>
      if (src.any class10) && nc != 0 then .error (.trap cIllegalOperand 0)
      else if nc != 0 && class10 dst && nc.extractLsb' 45 17 != dst.extractLsb' 45 17 then .error (.trap cIllegalOperand 0)
      else .ok (sc, nc)

/-- The handle in D of every active lane, and the kills (R310). -/
def State.copyDone (s : State) (o : CopyOp) (pair2 : Bool) (h : Word) : State :=
  s.retireLanes o.g fun st =>
    let st1 := st.kill64 o.s1 o.k1
    (if pair2 then st1.kill64 o.s2 o.k2 else st1.kill o.s2 o.k2).wr o.d h

/-- The fields that a copy takes from its issuing stream. -/
def State.copyBase (s : State) (o : CopyOp) (low : Stream) (entry : Nat) : Copy :=
  let t := s.team low.id.tcx
  { noCopy with id := ⟨t.coreOf low.id, entry⟩, tcx := t.tcx, sid := low.id, fn := t.fn, asid := t.recd.asid
                spray := o.spray.toNat }

/-- `dcopy` and `dfill` (R311, R312). -/
def State.rangeCopy (s : State) (o : CopyOp) (fill : Bool) : State :=
  match s.lowest o.g with
  | none => s.retireLanes o.g id
  | some low =>
    let len := (low.rd64 o.x).toNat
    let dst := low.rd64 o.s1
    let src := low.rd64 o.s2
    let w := 2 ^ o.width.toNat
    if s.counterFull [low.id] 2 then s.stalled
    else if 2 ^ 40 < len then s.trapLow o.g cIllegalOperand
    else match s.copyRange low dst len with
      | .error e => s.failLane o.g .store low e
      | .ok da =>
        match (if fill then .ok 0 else s.copyRange low src len : Except Fail DWord) with
        | .error e => s.failLane o.g .load low e
        | .ok sa =>
          if fill && (dst.toNat % w != 0 || len % w != 0) then
            s.trapLow o.g cAlignment (if dst.toNat % w ≠ 0 then dst else 0)
          else if !fill && class10 da && class10 sa then s.trapLow o.g cAddressClass src
          else match s.copyCounters low o.x da (if fill then none else some sa) with
            | .error e => s.failLane o.g .store low e
            | .ok (sc, nc) =>
              match s.freeEntry ((s.team low.id.tcx).coreOf low.id) with
              | none => s.stalled
              | some e =>
                let c := { s.copyBase o low e with
                  kind := if fill then .fill (low.rd o.s2) o.width.toNat else .bytes sa
                  dst := da, len := len, srcCtr := sc, notify := nc }
                let s1 := s.issueCopy c
                s1.copyDone o (!fill) (s1.handleOf c.id)

def execDcopy (o : CopyOp) (s : State) : Out := .next (s.rangeCopy o false)
def execDfill (o : CopyOp) (s : State) : Out := .next (s.rangeCopy o true)

/-- The 8-byte loads of the origin block, in ascending order (R313): its bytes, or the first failure. Words of another rank have been
answered before. -/
def State.originBlock (s : State) (low : Stream) (a : DWord) : List Nat → Except Fail (List Byte) × State
  | [] => (.ok [], s)
  | i :: r =>
    match s.checkAt low.id .load allClasses (a + BitVec.ofNat 64 (8 * i)) 8 8 with
    | .error e => (.error e, s)
    | .ok c =>
      let s1 := s.touch (s.who low) .load c
      let bad := fun (cause : Cause) => (Except.error (Fail.trap cause (a + BitVec.ofNat 64 (8 * i))), s1)
      if c.loc.ranked then
        match low.block.find? fun w => w.1 = i with
        | some (_, _, some e) => bad e.cause
        | some (_, w, none) =>
          (match s1.originBlock low a r with
          | (.error e, s3) => (.error e, s3)
          | (.ok cs, s3) => (.ok (bytesOfNat 8 w.toNat ++ cs), s3))
        | none => (.ok [], s1)
      else match s.tryBytes low.id c { plainLoad with size := 8 } with
        | (.error e, s2) => (.error (.trap e (a + BitVec.ofNat 64 (8 * i))), s2)
        | (.ok bs, s2) =>
          match s2.originBlock low a r with
          | (.error e, s3) => (.error e, s3)
          | (.ok cs, s3) => (.ok (bs ++ cs), s3)

/-- An origin block at another rank is asked for, word by word, once there are reply buffers for it (R330); the `tcopy` stalls until every
word has been answered (R69, R313). -/
def State.fetchBlock (s : State) (low : Stream) (a : DWord) : State :=
  let asid := (s.team low.id.tcx).recd.asid
  let cs := (List.range 16).filterMap fun i =>
    match s.checkAt low.id .load allClasses (a + BitVec.ofNat 64 (8 * i)) 8 8 with
    | .ok c => some (i, c)
    | .error _ => none
  if s.replyFull ((s.team low.id.tcx).coreOf low.id) (cs.map fun c => (low.id, c.2)) then s
  else cs.foldl (fun s c =>
    s.launchOp asid (s.mkOp ⟨.block c.1, 0, 8, .rlx, false, .thr, 0, .none, 0⟩ [⟨low.id, 0, 0⟩] none c.2)) s

/-- The origins of the block: 16 words from an offset. -/
def originsAt (bs : List Byte) (off : Nat) : List Int :=
  (List.range 16).map fun i => (BitVec.ofNat 32 (fld bs (off + 4 * i) 4)).toInt

/-- A map as it was read: its bytes, or the word with which its reading is rejected. -/
abbrev MapRead := Except Word (List Byte)
/-- Step 2 of R313 against the NDIMS and HALF_BYTE fields that a map holds: whether the origins break it. -/
def originBad (map : MapRead) (o : List Int) : Bool :=
  match map with
  | .error _ => false
  | .ok bs =>
    ((List.range 16).any fun i => decide (fld bs 8 1 ≤ i) && o.getD i 0 != 0) ||
      (bitsOf (fld bs 10 2) 1 1 == 1 && o.getD 0 0 % 2 != 0)

/-- The check of a map that has been read (R13). -/
def checkRead (map : MapRead) (dst : Bool) : Chk TMap :=
  match map with
  | .error w => throw w
  | .ok bs => mapOf bs dst
/-- Both maps as step 3 of R313 checks them. -/
def checkMaps (src dst : MapRead) : Chk (TMap × TMap) := do
  let m ← checkRead src false
  let d ← checkRead dst true
  need (m.elems == d.elems) kMap rConflict 9
  need (m.elem == d.elem) kMap rConflict 9
  need (m.half == d.half) kMap rConflict 9
  pure (d, m)

/-- A copy that its maps refuse: REJECTED at once (R313). -/
def State.rejectCopy (s : State) (c : Copy) (w : Word) : State :=
  ((s.putCopy c).onLane c.sid fun st => { st with cnt := st.cnt.add 2 1 }).finishCopy c.id 5 0 w

/-- `tcopy` (R313). -/
def State.tensorCopy (s : State) (o : CopyOp) : State :=
  match s.lowest o.g with
  | none => s.retireLanes o.g id
  | some low =>
    let t := s.team low.id.tcx
    if s.counterFull [low.id] 2 then s.stalled
    else if s.nearPending [low.id] 0b11111 then s.stalled
    else if class10 (low.rd64 o.x) && low.block.isEmpty && (low.rd64 o.x).toNat % 8 == 0 then (s.fetchBlock low (low.rd64 o.x)).stalled
    else match s.originBlock low (low.rd64 o.x) (List.range 16) with
      | (.error (.trap c a), s1) =>
        let code := ((List.range 16).findSome? fun i => (low.block.find? fun w => w.1 = i).bind (·.2.2)).map (·.code)
        if c = cRemoteNack then s1.trap7 o.g c low.id a (code.getD 0) else s1.failLane o.g .load low (.trap c a)
      | (.error e, s1) => s1.failLane o.g .load low e
      | (.ok bs, s1) =>
        let os := originsAt bs 0
        let od := originsAt bs 0x40
        -- both maps are read once, and what steps 2 and 3 check is that copy (R13)
        let (sm, s1) := (readMap t.fn t.recd.asid (s1.recordAddr low (low.rd64 o.s2))).run s1
        let (dm, s1) := (readMap t.fn t.recd.asid (s1.recordAddr low (low.rd64 o.s1))).run s1
        if originBad sm os || originBad dm od then s1.trapLow o.g cIllegalOperand
        else match s1.copyCounter low (low.rd64 (o.x.up 2)) false with
          | .error e => s1.failLane o.g .store low e
          | .ok sc =>
            match s1.freeEntry (t.coreOf low.id) with
            | none => s1.stalled
            | some e =>
              let c := { s1.copyBase o low e with srcCtr := sc, len := 1 }
              match (checkMaps sm dm).run s1 with
              | (.error w, s2) =>
                let s3 := s2.rejectCopy c w
                s3.copyDone o true (s3.handleOf c.id)
              | (.ok (d, m), s2) =>
                match s2.copyCounters low o.x d.base (some m.base) with
                | .error e => s2.failLane o.g .store low e
                | .ok (_, nc) =>
                  let c1 := { c with kind := .tensor d m (od.take d.box.length) (os.take m.box.length), dst := d.base
                                     len := d.elems * d.elem, notify := nc }
                  let s3 := s2.issueCopy c1
                  s3.copyDone o true (s3.handleOf c.id)
def execTcopy (o : CopyOp) (s : State) : Out := .next (s.tensorCopy o)

/-! ### dcancel and dstat (R314) -/

/-- The copy of a handle that a team may ask about. -/
def State.copyOf (s : State) (tcx : Nat) (h : Word) : Option Copy :=
  s.dr.copies.find? fun c => c.handle == h && c.tcx == tcx && c.id.core != nodeCore
/-- A request to end a copy. -/
def State.cancelCopy (s : State) (id : CopyId) : State :=
  match s.copy? id with
  | none => s
  | some c =>
    if c.final || c.cancel.isSome then s
    else
      let s1 := s.onCopy id fun c => { c with cancel := some s.gts }
      match c.dest with
      | some d => s1.send (c.closing d)
      | none => s1
/-- The status that a handle answers. -/
def State.statusAt (s : State) (tcx : Nat) (h : Word) : Word := ((s.copyOf tcx h).map Copy.status).getD 0x70000000

def execDstat (o : Alu1) (s : State) : Out :=
  .next (
    match s.lowest o.g with
    | none => s.retireLanes o.g id
    | some low => s.retireLanes o.g fun st => (st.kill o.s1 o.k1).wr o.d (s.statusAt low.id.tcx (low.rd o.s1)))
def execDcancel (o : Alu1) (s : State) : Out :=
  .next (
    match s.lowest o.g with
    | none => s.retireLanes o.g id
    | some low =>
      let h := low.rd o.s1
      let s1 := match s.copyOf low.id.tcx h with
        | some c => s.cancelCopy c.id
        | none => s
      s1.retireLanes o.g fun st => (st.kill o.s1 o.k1).wr o.d (s1.statusAt low.id.tcx h))

/-! ### Events -/

/-- Accesses of the issuing stream that come before the copy are performed, those that it has acquired too (R342, R348), and the stores
that it has read early (R343). -/
def State.forked (s : State) (sid : SId) (seq : Nat) : Bool :=
  (s.ops.all fun o =>
    (match o.kind with | .fence _ => true | _ => false) || o.xfer.isSome || decide (seq ≤ o.num) || !o.ofStream sid) &&
  (s.stream sid).carried.all fun c => decide (seq ≤ c.1) || !s.live c.2

/-- The die of a copy's tracker. -/
def copyDie (c : CopyId) : Nat := c.core / 48
/-- The oldest copy that waits for a Dray of its die, its fork edges met. -/
def State.mayStart (s : State) (c : Copy) (d : Nat) : Bool :=
  c.state == 0 && c.cancel.isNone && decide (d < 256) && (c.id.core == nodeCore || d / 64 == copyDie c.id) &&
    !(s.dr.copies.any fun x => x.dray == some d) && s.forked c.sid c.seq &&
    !(s.dr.copies.any fun x => x.state == 0 && x.cancel.isNone && copyDie x.id == copyDie c.id && decide (x.seq < c.seq) &&
      s.forked x.sid x.seq)

/-- A move that reads or writes a location with a property. -/
def State.moveMeets (s : State) (c : Copy) (d : Nat) (p : Loc → Bool) (m : DWord × Feed) : Bool :=
  let at_ := fun (ak : AK) (a : DWord) => a.extractLsb' 62 2 == 0#2 && (match s.checkPage (s.drayWho c d) ak a.toNat with
    | .ok x => p x.loc
    | .error _ => false)
  at_ .store m.1 || (match m.2 with | .mem a => at_ .load a | .byte _ => false)

/-- The moves of a burst: `n`, and those that complete the last word of the destination (R428). -/
def burstMoves (ms : List (DWord × Feed)) (n : Nat) : List (DWord × Feed) :=
  match (ms.take n).getLast? with
  | none => []
  | some l => ms.take n ++ (ms.drop n).takeWhile fun m => m.1.toNat / 4 == l.1.toNat / 4
/-- The next moves of a copy within the device. -/
def State.moveSome (s : State) (c : Copy) (d n : Nat) : State :=
  let ms := burstMoves (c.plan.1.drop c.moved) n
  let (bs, e, s1) := s.drayGather c d ms
  let now := c.moved + bs.length
  let s2 := (s1.drayPut c d bs (wordsOf ((c.plan.1.drop now).map (·.1)))).onCopy c.id fun x => { x with moved := now, cxl := none }
  match e with
  | some x => s2.copyErr c.id x 0
  | none => if c.plan.2 && decide (c.plan.1.length ≤ now) then s2.copyErr c.id cAddressClass 0 else s2

/-- What a copy does next with moves, behind a request to the CXL expander where they meet it (R331, R435). -/
def State.throughCxl (s : State) (c : Copy) (d n : Nat) (ms : List (DWord × Feed)) (k : State → State) : State :=
  if !ms.any (s.moveMeets c d Loc.cxl) then k s
  else if s.links.cxlUp then s.onCopy c.id fun x => { x with cxl := some (s.gts, n) }
  else s.cxlTimedOut.copyErr c.id cLinkLost 0
/-- The same, with the bytes of the CXL expander asked for first (R331, R435). -/
def State.moveOn (s : State) (c : Copy) (d n : Nat) : State :=
  s.throughCxl c d n (burstMoves (c.plan.1.drop c.moved) n) fun s => s.moveSome c d n

/-- The next packet of a copy to or from another device leaves on its path (R320): over UALink only through a port that is up, with a
reply buffer of the copy's core (R330). -/
def State.packetOut (s : State) (c : Copy) (d : Nat) (dest : Dest) : State :=
  let i := c.packets.length
  let ms := (c.cut c.carried).getD i []
  let pod := match dest with | .pod _ => true | .fabric _ => false
  if pod && !s.links.anyPort then s.copyErr c.id cPodPortDown 0
  else if pod && decide (replyBuffers ≤ s.repliesBefore c.id.core s.nextOp) then s
  else
    let (bs, e, s1) := if class10 c.dst then s.drayGather c d ms else ([], none, s)
    match e with
    | some x => s1.copyErr c.id x 0
    | none =>
      let p : Packet := ⟨i, bs, s.gts, s.gts, i % c.paths, 0, false, none⟩
      let now := c.moved + ms.length
      let s2 := (s1.onCopy c.id fun x => { x with packets := x.packets ++ [p], moved := now, cxl := none }).send (s1.message c dest p)
      if c.plan.2 && decide (c.carried.length ≤ now) then s2.copyErr c.id cAddressClass 0 else s2
/-- The same, with the bytes of the CXL expander that it carries asked for first. -/
def State.sendPacket (s : State) (c : Copy) (d : Nat) (dest : Dest) : State :=
  s.throughCxl c d 0 (if class10 c.dst then (c.cut c.carried).getD c.packets.length [] else []) fun s => s.packetOut c d dest

/-- The Dray of a running copy goes on (R304, R320). -/
def State.burst (s : State) (id : CopyId) (n : Nat) : State :=
  match s.copy? id with
  | none => s
  | some c =>
    if !c.going then s
    else match c.dest, c.dray with
      | some dest, some d => s.sendPacket c d dest
      | none, some d => s.moveOn c d n
      | _, none => s

/-- The bytes that a copy to or from a rank writes by itself as it starts, where its source is out of bounds (R31). -/
def Copy.fills (c : Copy) : List (DWord × Feed) :=
  if class10 c.dst then [] else c.plan.1.filter fun m => match m.2 with | .byte _ => true | .mem _ => false
/-- A copy to or from a class-10 address starts (R316, R317, R320, R324). -/
def State.startRanked (s : State) (c : Copy) (d : Nat) : State :=
  let put := class10 c.dst
  let s0 := match s.jobOf c.asid with
    | some n => s.fillRank n (rankOf c.far)
    | none => s
  match s.route c.asid c.far with
  | .error r => s0.copyErr c.id cRemoteNack r
  | .ok rt =>
    let fills := c.fills.filterMap fun m => match m.2 with | .byte b => some (m.1, b) | .mem _ => none
    let s1 := if put then s0 else s0.drayPut c d fills (wordsOf (c.carried.map (·.1)))
    if rt.self then
      let (bs, e, s2) := if put then s1.drayGather c d c.carried else ([], none, s1)
      let s3 := if put then s2.selfPackets c rt.slot rt.token (c.cut bs) else s2.selfFetches c d rt.slot rt.token (c.cut c.carried)
      let s4 := s3.onCopy c.id fun x => { x with moved := c.carried.length, cxl := none }
      match e with
      | some x => s4.copyErr c.id x 0
      | none => if c.plan.2 then s4.copyErr c.id cAddressClass 0 else s4
    else
      let j := s.job rt.slot
      let s2 := s1.onCopy c.id fun x => { x with
        cxl := none, dest := some rt.dest, token := rt.token, job := j.jid, srcRank := j.rank, paths := s.npath rt.slot (rankOf c.far) }
      if c.carried.isEmpty then (if c.plan.2 then s2.copyErr c.id cAddressClass 0 else s2) else s2.burst c.id 0
/-- The same, with the bytes of the CXL expander that it touches at once asked for first: those it fills, and of a copy to or from the
device's own rank every one (R317, R331). -/
def State.moveRanked (s : State) (c : Copy) (d : Nat) : State :=
  let self := match s.route c.asid c.far with | .ok rt => rt.self | .error _ => false
  s.throughCxl c d 0 (c.fills ++ if self then c.carried else []) fun s => s.startRanked c d

/-- COPY_START (R304): the first 64 bytes, or the first packet. -/
def execCopyStart (id : CopyId) (dray : Nat) (s : State) : Out :=
  .next (
    match s.copy? id with
    | none => s
    | some c =>
      if !s.mayStart c dray then s
      else
        let s1 := s.onCopy id fun c => { c with state := 1, dray := some dray }
        if class10 c.dst && c.source.any class10 then s1.copyErr id cAddressClass 0
        else if c.ranked then s1.moveRanked c dray
        else s1.moveOn c dray 64)

/-- The GTS at which a request to the CXL expander times out (R435); a completion of that moment is used. -/
def State.cxlDeadline (s : State) (t : Nat) : Nat := t + (s.hif.cxlTimeout + 1) * 1000000
/-- The oldest packet whose answer is on its way to the CXL expander (R331). -/
def Copy.onCxl (c : Copy) : Option Packet := c.packets.find? fun p => !p.acked && p.cxl.isSome
/-- A copy that waits for the CXL expander, by the number of its issue, and the sending (R435). -/
def State.copyOnCxl (s : State) (op : Nat) : Option (Copy × Nat) :=
  match s.dr.copies.find? fun c => c.seq = op && c.state == 1 && c.err.isNone with
  | some c => ((c.cxl.map (·.1)).or (c.onCxl.bind (·.cxl))).map fun t => (c, t)
  | none => none
/-- A loss of the host link reaches the running copies: those whose next bytes are the host's end with LINK_LOST (R331, R434). -/
def State.loseCopies (s : State) : State :=
  let hit := fun (c : Copy) => c.going && (c.dray.any fun d => (c.todo[c.moved]?).any (s.moveMeets c d fun l => l.space == .host && !l.cxl))
  ((s.dr.copies.filter hit).map (·.id)).foldl (fun s id => s.burst id 1) s

def Copy.packet? (c : Copy) (i : Nat) : Option Packet := c.packets.find? fun p => p.index = i
def Copy.settle (c : Copy) (i : Nat) : Copy :=
  { c with packets := c.packets.map fun p => if p.index = i then { p with acked := true } else p }
def Copy.settled (c : Copy) : Bool := c.packets.all fun p => p.acked
/-- A packet still in flight of a copy. -/
def Copy.inFlight (c : Copy) (i : Nat) : Option Packet :=
  if c.state = 1 && !c.confirmed then (c.packet? i).bind fun p => if p.acked || p.cxl.isSome then none else some p else none

/-- The data of an answered read is written (R322). -/
def State.writeAnswer (s : State) (c : Copy) (index : Nat) (data : List Byte) : State :=
  let parts := c.cut (c.carried.map (·.1))
  let left := (parts.mapIdx fun i (p : List DWord) =>
    if i != index && !((c.packet? i).any fun q => q.acked) then p else []).flatten
  (s.onCopy c.id fun c => c.settle index).drayPut c (c.dray.getD 0) ((parts.getD index []).zip data) (wordsOf left)
/-- The same, behind a request to the CXL expander where its bytes lie there: the packet is answered when the expander has (R331, R435). -/
def State.placeAnswer (s : State) (c : Copy) (index : Nat) (data : List Byte) : State :=
  let ms := (c.cut c.carried).getD index []
  if !ms.any (s.moveMeets c (c.dray.getD 0) Loc.cxl) then s.writeAnswer c index data
  else if s.links.cxlUp then
    s.onCopy c.id fun c => { c with packets := c.packets.map fun p =>
      if p.index = index then { p with data := (ms.map (·.1)).zip data, cxl := some s.gts } else p }
  else (s.cxlTimedOut.onCopy c.id fun c => c.settle index).copyErr c.id cLinkLost 0

/-- PACKET_ACK (R322): for a read, its data is written here. -/
def execPacketAck (id : CopyId) (index : Nat) (data : List Byte) (s : State) : Out :=
  .next (
    match s.copy? id with
    | none => s
    | some c => match c.inFlight index with
      | none => s
      | some _ =>
        if class10 c.dst then s.onCopy id fun c => c.settle index else s.placeAnswer c index data)

/-- The expander answers a copy (R435): the burst or the packet that has waited goes on, or an answer has been written. -/
def State.copyAnswered (s : State) (op : Nat) : State :=
  match s.copyOnCxl op with
  | none => s
  | some (c, t) =>
    if !s.links.cxlUp || s.cxlDeadline t < s.gts then s
    else match c.dray, c.cxl with
      | some d, some (_, n) =>
        match c.dest with
        | some dest => s.packetOut c d dest
        | none => if c.ranked then s.startRanked c d else s.moveSome c d n
      | _, _ => match c.onCxl with
        | some p => s.writeAnswer c p.index (p.data.map (·.2))
        | none => s

/-- PACKET_NACK (R322): the first reason that arrives decides. -/
def execPacketNack (id : CopyId) (index : Nat) (reason : BitVec 8) (s : State) : Out :=
  .next (
    match (s.copy? id).bind fun c => c.inFlight index with
    | none => s
    | some _ => (s.onCopy id fun c => c.settle index).copyErr id cRemoteNack reason)

/-- The retransmission timeout of a packet in nanoseconds (R322). -/
def Packet.timeout (p : Packet) : Nat := min (20000 * 2 ^ p.tries) 2000000
def ms100 : Nat := 100000000

/-- PACKET_RETRANSMIT (R322): not over UALink, whose link layer retransmits invisibly (R330). -/
def execPacketRetransmit (id : CopyId) (index : Nat) (s : State) : Out :=
  .next (
    match s.copy? id with
    | none => s
    | some c => match c.inFlight index, c.dest with
      | some p, some (.fabric a) =>
        if c.err.isSome || c.cancel.isSome || s.gts < p.last + p.timeout then s
        else
          let q := { p with last := s.gts, path := (p.path + 1) % c.paths, tries := p.tries + 1 }
          (s.onCopy id fun c => { c with packets := c.packets.map fun x => if x.index = index then q else x
                                         retx := min (c.retx + 1) 255 }).send (s.message c (.fabric a) q)
      | _, _ => s)

/-- COPY_TIMEOUT (R322). -/
def execCopyTimeout (id : CopyId) (index : Nat) (s : State) : Out :=
  .next (
    match (s.copy? id).bind fun c => c.inFlight index with
    | none => s
    | some p => if p.t0 + ms100 ≤ s.gts then (s.onCopy id fun c => c.settle index).copyErr id cRemoteTimeout 0 else s)

/-- What ends a copy now: its final state, cause and REASON (R304, R314, R322). -/
def Copy.ending (c : Copy) : Option (Nat × Cause × Word) :=
  let timed := (c.err.map (·.1)) == some cRemoteTimeout
  if c.final then none
  else if c.cancel.isSome && (c.state == 0 || c.settled || c.confirmed) && c.err.isNone then some (4, 0, 0)
  else if c.state = 1 then
    match c.err with
    | some (e, r) => if c.settled || timed || c.confirmed then some (3, e, r.setWidth 32) else none
    | none => if c.settled && c.whole && c.cancel.isNone then some (2, 0, 0) else none
  else none

/-- COPY_FINAL (R304): a copy within the device first moves the bytes that its Dray has not moved yet. -/
def execCopyFinal (id : CopyId) (s : State) : Out :=
  let s1 := match s.copy? id with
    | some c => if c.dest.isNone then s.burst id c.todo.length else s
    | none => s
  .next (
    match (s1.copy? id).bind Copy.ending with
    | some (st, cause, reason) => s1.finishCopy id st cause reason
    | none => s1)

/-- CANCEL_CONFIRM (R314). -/
def execCancelConfirm (id : CopyId) (s : State) : Out :=
  .next (s.onCopy id fun c => if c.cancel.isSome && !c.final then { c with confirmed := true } else c)

/-- CANCEL_TIMEOUT (R314). -/
def execCancelTimeout (id : CopyId) (s : State) : Out :=
  .next (
    match s.copy? id with
    | none => s
    | some c => match c.cancel with
      | some t =>
        -- an error that has reached the Dray before comes first (R306)
        let e := c.err.getD (cRemoteTimeout, 0)
        if !c.final && !c.confirmed && !c.settled && decide (t + ms100 ≤ s.gts) then s.finishCopy id 3 e.1 (e.2.setWidth 32) else s
      | none => s)

end Sys2Proof.Machine
end

