-- ==== Sys2Proof/Machine/Integer.lean ====
section
/-! DEFINITION. Sys2Proof/Machine/Integer.lean: the integer instructions, opcodes 0x00 to 0x33 (R140 to R153). -/
namespace Sys2Proof.Machine

/-! ### Results (R142 to R152) -/

def imulh (a b : Word) : Word := BitVec.ofInt 32 (a.toInt * b.toInt / 2 ^ 32)
def imulhu (a b : Word) : Word := BitVec.ofNat 32 (a.toNat * b.toNat / 2 ^ 32)
/-- R143: never traps; truncation towards zero. -/
def idivsR (a b : Word) : Word := if b = 0 then 0xFFFFFFFF else BitVec.ofInt 32 (Int.tdiv a.toInt b.toInt)
def idivuR (a b : Word) : Word := if b = 0 then 0xFFFFFFFF else BitVec.ofNat 32 (a.toNat / b.toNat)
def iremR (u : Bool) (a b : Word) : Word :=
  if b = 0 then a
  else if u then BitVec.ofNat 32 (a.toNat % b.toNat) else BitVec.ofInt 32 (Int.tmod a.toInt b.toInt)
def iminR (a b : Word) : Word := if BitVec.sle a b then a else b
def imaxR (a b : Word) : Word := if BitVec.sle a b then b else a
def uminR (a b : Word) : Word := if BitVec.ule a b then a else b
def umaxR (a b : Word) : Word := if BitVec.ule a b then b else a
def iabsR (sat : Bool) (a : Word) : Word :=
  if sat && a == 0x80000000 then 0x7FFFFFFF else if a.msb then -a else a
def inegR (sat : Bool) (a : Word) : Word := if sat && a == 0x80000000 then 0x7FFFFFFF else -a
def iaddsR (u : Bool) (a b : Word) : Word := sat32 u (intOf u a + intOf u b)
def isubsR (u : Bool) (a b : Word) : Word := sat32 u (intOf u a - intOf u b)
def isadR (u : Bool) (a b c : Word) : Word := BitVec.ofInt 32 ((intOf u a - intOf u b).natAbs + c.toNat)
/-- R144: bit i of the result is TT[a[i] + 2 × b[i] + 4 × c[i]]: for each row of the table that holds 1, the bits
where a, b and c match it. -/
def lop3R (tt : BitVec 8) (a b c : Word) : Word :=
  (List.range 8).foldl (fun r k =>
    if tt.getLsbD k then
      r ||| ((if k % 2 = 1 then a else ~~~a) &&& (if k / 2 % 2 = 1 then b else ~~~b) &&& (if k / 4 = 1 then c else ~~~c))
    else r) 0
def shlR (a b : Word) : Word := if b.toNat < 32 then a <<< b.toNat else 0
def shrR (a b : Word) : Word := if b.toNat < 32 then a >>> b.toNat else 0
def sarR (a b : Word) : Word := if b.toNat < 32 then a.sshiftRight b.toNat else if a.msb then 0xFFFFFFFF else 0
def rolR (a b : Word) : Word := a.rotateLeft (b.toNat % 32)
/-- R145: a 32-bit window of w = {b, a} that starts at bit n. -/
def shfR (f : Fill) (a b c : Word) : Word :=
  let w : DWord := b ++ a
  match f with
  | .rot => (w.rotateRight (c.toNat % 64)).setWidth 32
  | .z => (w >>> min c.toNat 64).setWidth 32
  | .s => (w.sshiftRight (min c.toNat 64)).setWidth 32
def shl64R (a : DWord) (n : Word) : DWord := if n.toNat < 64 then a <<< n.toNat else 0
def shr64R (ar : Bool) (a : DWord) (n : Word) : DWord :=
  if ar then (if n.toNat < 64 then a.sshiftRight n.toNat else if a.msb then -1 else 0)
  else if n.toNat < 64 then a >>> n.toNat else 0
/-- R146. -/
def fieldPos (b : Word) : Nat := (b.extractLsb' 0 8).toNat
def fieldLen (b : Word) : Nat := min (b.extractLsb' 8 8).toNat 32
def bfeR (sx : Bool) (a b : Word) : Word :=
  let pos := fieldPos b
  let len := fieldLen b
  if len = 0 then 0
  else
    -- the field, its bits beyond bit 31 reading as 0, or as a[31] with SX
    let ext : DWord := if sx then a.signExtend 64 else a.setWidth 64
    let shifted := if sx then ext.sshiftRight pos else ext >>> pos
    let field := shifted &&& BitVec.ofNat 64 (2 ^ len - 1)
    if sx && shifted.getLsbD (len - 1) then (field ||| ~~~(BitVec.ofNat 64 (2 ^ len - 1))).setWidth 32
    else field.setWidth 32
def bfiR (a b c : Word) : Word :=
  let m : Word := (BitVec.ofNat 32 (2 ^ fieldLen b - 1)) <<< fieldPos b
  (c &&& ~~~m) ||| ((a <<< fieldPos b) &&& m)
/-- R147. -/
def popcR (a : Word) : Word := BitVec.ofNat 32 (((List.range 32).filter fun i => a.getLsbD i).length)
def clzR (a : Word) : Word := BitVec.ofNat 32 (((List.range 32).takeWhile fun i => !a.getLsbD (31 - i)).length)
def ctzR (a : Word) : Word := BitVec.ofNat 32 (((List.range 32).takeWhile fun i => !a.getLsbD i).length)
def brevR (a : Word) : Word :=
  (List.range 32).foldl (fun r i => if a.getLsbD (31 - i) then r ||| (1#32 <<< i) else r) 0
def prmtR (s : BitVec 12) (z : BitVec 4) (a b : Word) : Word :=
  let w : DWord := b ++ a
  let byte := fun i => if z.getLsbD i then 0#8 else w.extractLsb' (8 * (s.extractLsb' (3 * i) 3).toNat) 8
  byte 3 ++ byte 2 ++ byte 1 ++ byte 0
/-- R152: the value of byte or half k of a, signed or unsigned. -/
def partOf (w k : Nat) (u : Bool) (a : Word) : Int := intOf u (a.extractLsb' (w * k) w)
def idotR (w n : Nat) (au bu : Bool) (a b c : Word) : Word :=
  BitVec.ofInt 32 ((List.range n).foldl (fun s k => s + partOf w k au a * partOf w k bu b) (c.toInt))
/-- R151. -/
def leaR (sh : BitVec 3) (sx : Bool) (a : DWord) (b : Word) : DWord :=
  a + ((if sx then b.signExtend 64 else b.setWidth 64) <<< sh.toNat)

/-! ### Meanings -/

/-- R153. -/
def execNop (g : Guard) (s : State) : Out := .next (s.retireLanes g id)
/-- R142. -/
def execIadd (o : Alu2) (s : State) : Out := .next (s.binary o fun a b => a + b)
def execIsub (o : Alu2) (s : State) : Out := .next (s.binary o fun a b => a - b)
def execImul (o : Alu2) (s : State) : Out := .next (s.binary o fun a b => a * b)
def execImulh (o : Alu2) (s : State) : Out := .next (s.binary o imulh)
def execImulhu (o : Alu2) (s : State) : Out := .next (s.binary o imulhu)
def execImad (o : Alu3) (s : State) : Out := .next (s.ternary o fun a b c => a * b + c)
/-- R143. -/
def execIdivs (o : Alu2) (s : State) : Out := .next (s.binary o idivsR)
def execIdivu (o : Alu2) (s : State) : Out := .next (s.binary o idivuR)
def execIrem (o : Alu2) (u : Bool) (s : State) : Out := .next (s.binary o (iremR u))
/-- R142. -/
def execAdd64 (o : Alu2) (s : State) : Out := .next (s.wide o fun a b => a + b)
def execSub64 (o : Alu2) (s : State) : Out := .next (s.wide o fun a b => a - b)
def execMul64 (o : Alu2) (s : State) : Out := .next (s.wide o fun a b => a * b)
def execImin (o : Alu2) (s : State) : Out := .next (s.binary o iminR)
def execImax (o : Alu2) (s : State) : Out := .next (s.binary o imaxR)
def execUmin (o : Alu2) (s : State) : Out := .next (s.binary o uminR)
def execUmax (o : Alu2) (s : State) : Out := .next (s.binary o umaxR)
def execIabs (o : Alu1) (sat : Bool) (s : State) : Out := .next (s.unary o (iabsR sat))
def execIneg (o : Alu1) (sat : Bool) (s : State) : Out := .next (s.unary o (inegR sat))
def execIadds (o : Alu2) (u : Bool) (s : State) : Out := .next (s.binary o (iaddsR u))
def execIsubs (o : Alu2) (u : Bool) (s : State) : Out := .next (s.binary o (isubsR u))
def execIsad (o : Alu3) (u : Bool) (s : State) : Out := .next (s.ternary o (isadR u))
/-- R144. -/
def execAnd (o : Alu2) (s : State) : Out := .next (s.binary o fun a b => a &&& b)
def execOr (o : Alu2) (s : State) : Out := .next (s.binary o fun a b => a ||| b)
def execXor (o : Alu2) (s : State) : Out := .next (s.binary o fun a b => a ^^^ b)
def execAndn (o : Alu2) (s : State) : Out := .next (s.binary o fun a b => a &&& ~~~b)
def execNot (o : Alu1) (s : State) : Out := .next (s.unary o fun a => ~~~a)
def execLop3 (o : Alu3) (tt : BitVec 8) (s : State) : Out := .next (s.ternary o (lop3R tt))
/-- R145. -/
def execShl (o : Alu2) (s : State) : Out := .next (s.binary o shlR)
def execShr (o : Alu2) (s : State) : Out := .next (s.binary o shrR)
def execSar (o : Alu2) (s : State) : Out := .next (s.binary o sarR)
def execRol (o : Alu2) (s : State) : Out := .next (s.binary o rolR)
def execShf (o : Alu3) (f : Fill) (s : State) : Out := .next (s.ternary o (shfR f))
def execShl64 (o : Alu2) (s : State) : Out := .next (s.wideCount o shl64R)
def execShr64 (o : Alu2) (ar : Bool) (s : State) : Out := .next (s.wideCount o (shr64R ar))
/-- R146. -/
def execBfe (o : Alu2) (sx : Bool) (s : State) : Out := .next (s.binary o (bfeR sx))
def execBfi (o : Alu3) (s : State) : Out := .next (s.ternary o bfiR)
/-- R147. -/
def execPopc (o : Alu1) (s : State) : Out := .next (s.unary o popcR)
def execClz (o : Alu1) (s : State) : Out := .next (s.unary o clzR)
def execCtz (o : Alu1) (s : State) : Out := .next (s.unary o ctzR)
def execBrev (o : Alu1) (s : State) : Out := .next (s.unary o brevR)
def execPrmt (o : AluR) (sl : BitVec 12) (z : BitVec 4) (s : State) : Out := .next (s.binaryR o (prmtR sl z))
/-- R148. -/
def execSel (o : Alu3) (s : State) : Out := .next (s.ternary o fun a b c => if c.getLsbD 0 then a else b)
def execIcmp (o : AluR) (c : ICond) (u : Bool) (s : State) : Out :=
  .next (s.binaryR o fun a b => predicate (icmpHolds c u a b))
def execIcmp64 (o : AluR) (c : ICond) (u : Bool) (s : State) : Out :=
  .next (s.alu o.g (.r32 o.d) (.r64 o.s1 o.k1) (.r64 o.s2 o.k2) noSrc
    fun _ a b _ => (predicate (icmpHolds c u a b)).setWidth 64)
/-- R149. -/
def execMov (g : Guard) (d : Reg) (src : Opnd) (s : State) : Out :=
  .next (s.alu g (.r32 d) (srcB src) noSrc noSrc fun _ a _ _ => a)
def execLih (g : Guard) (d : Reg) (imm : BitVec 16) (s : State) : Out :=
  .next (s.alu g (.r32 d) (.r32 d false) noSrc noSrc fun _ a _ _ =>
    (imm ++ a.extractLsb' 0 16 : Word).setWidth 64)

/-- The registers a lane's stream owns: v0 to v(n − 1) (R96). -/
def State.ownRegs (s : State) (id : SId) : Nat :=
  if id.kind = .lane then min (s.team id.tcx).recd.regs 240 else 240

/-- The run-time register number of R150, or none where it is beyond the stream's registers. -/
def State.runIndex (s : State) (base : BitVec 8) (id : SId) (x : Word) : Option Reg :=
  let n := x.toNat + base.toNat
  if n < s.ownRegs id then some (BitVec.ofNat 8 n) else none

/-- Registers a stream's outstanding operations will write (R119). -/
def State.awaited (s : State) (id : SId) : List Reg :=
  (s.ops.filter fun o => o.counter == 0 && !o.isFence && o.lanes.any fun l => l.sid = id).flatMap fun o =>
    if o.size = 8 then two o.d else [o.d]

/-- Lane check of R150 once the index values are known: the first lane whose index is out of range. -/
def State.badIndex (s : State) (base : BitVec 8) (vals : List (SId × Word)) : Option SId :=
  (vals.find? fun p => (s.runIndex base p.1 p.2).isNone).map (·.1)

/-- A computed register stalls a lane as a fixed one does: a load of its will write it, or it is the counter of the `loop` of an open
window (R119, R126, R150). -/
def State.indexHeld (s : State) (base : BitVec 8) (vals : List (SId × Word)) : Bool :=
  vals.any fun p => match s.runIndex base p.1 p.2 with
    | some r => (s.awaited p.1).contains r || (s.stream p.1).window.any fun w => w.loop == some r
    | none => false

/-- R150: the index of every active lane is checked before any lane is written. A computed register is interlocked as a
fixed one is (R119). The index is peeked: where it comes from a port, the pop takes place with the instruction. -/
def State.runTime (s : State) (g : Guard) (base : BitVec 8) (s1 : Reg) (go : Unit → State) : State :=
  let ids := s.active g
  let vals := fun (s' : State) => ids.map fun id => (id, (s'.stream id).rd s1)
  if Reg.isPort s1 then
    match ids.head? with
    | none => s.retireLanes g id
    | some low => match s.portKey low s1 with
      | none => s.trapLow g cIllegalOperand
      | some key => match s.popGroups key (s.groupsOf ids) with
        | none => s.stalled
        | some (ps, _) =>
          let pops := ids.map fun id => (id, popped s.curTeam ps id)
          match s.badIndex base pops with
          | some id => s.trap7 g cIllegalOperand id 0
          | none => if s.indexHeld base pops then s.stalled else go ()
  else match s.badIndex base (vals s) with
    | some id => s.trap7 g cIllegalOperand id 0
    | none => if s.indexHeld base (vals s) then s.stalled else go ()

/-- R150 `movri`. -/
def execMovri (o : Alu1) (base : BitVec 8) (s : State) : Out :=
  .next (s.runTime o.g base o.s1 fun _ =>
    s.alu o.g (.r32 o.d) (.r32 o.s1 o.k1) noSrc noSrc fun st a _ _ =>
      (st.rd (BitVec.ofNat 8 (a.toNat + base.toNat))).setWidth 64)
/-- R150 `movwi`: index 0 discards the write. -/
def execMovwi (g : Guard) (s1 : Reg) (k1 : Bool) (s2 : Reg) (k2 : Bool) (base : BitVec 8) (s : State) : Out :=
  .next (s.runTime g base s1 fun _ =>
    if Reg.isPort s1 || Reg.isPort s2 then
      -- reads and pops in the order S1, S2, then kills, then the write
      let ids := s.active g
      let gs := s.groupsOf ids
      let ports := [s1, s2].filter Reg.isPort
      if (ids.head?.map fun low => ports.any fun r => (s.portKey low r).isNone).getD false then s.trapLow g cIllegalOperand
      else match s.popSrcs ids gs ports with
        | none => s.stalled
        | some (pss, s') =>
          s'.retireLanes g fun st =>
            let (x, p1) := (Src.r32 s1 k1).readP s.curTeam st pss
            let (y, _) := (Src.r32 s2 k2).readP s.curTeam st p1
            ((st.kill s1 k1).kill s2 k2).wr (BitVec.ofNat 8 (x.toNat + base.toNat)) (y.setWidth 32)
    else s.retireLanes g fun st =>
      ((st.kill s1 k1).kill s2 k2).wr (BitVec.ofNat 8 ((st.rd s1).toNat + base.toNat)) (st.rd s2))
/-- R151. -/
def execLea64 (o : Alu2) (sh : BitVec 3) (sx : Bool) (s : State) : Out :=
  .next (match o.b with
    | .reg _ _ => s.wideCount o (leaR sh sx)
    | .imm v => s.alu o.g (.r64 o.d) (.r64 o.s1 o.k1) (.val (v.signExtend 64)) noSrc fun _ a b _ => a + b)
/-- R152. -/
def execIdot4 (o : Alu3) (au bu : Bool) (s : State) : Out := .next (s.ternary o (idotR 8 4 au bu))
def execIdot2 (o : Alu3) (au bu : Bool) (s : State) : Out := .next (s.ternary o (idotR 16 2 au bu))

end Sys2Proof.Machine
end

