-- ==== Sys2Proof/Machine/FloatInstr.lean ====
section
/-! DEFINITION. Sys2Proof/Machine/FloatInstr.lean: the floating-point and conversion instructions, opcodes 0x38 to 0x65, and
pair words (R201 to R222, R101 to R104). -/
namespace Sys2Proof.Machine

/-- Operand b of an F32 immediate form: {imm[25:0], 0b00_0000} (R202). -/
def srcF : Opnd → Src
  | .reg r k => .r32 r k
  | .imm v => .val (((v ++ 0#6 : BitVec 32)).setWidth 64)
def State.binaryF (s : State) (o : Alu2) (f : Word → Word → Word) : State :=
  s.alu o.g (.r32 o.d) (.r32 o.s1 o.k1) (srcF o.b) noSrc fun _ a b _ => (f (a.setWidth 32) (b.setWidth 32)).setWidth 64

/-- A function of F32 encodings on words. -/
def onWord (f : Nat → Nat) (a : Word) : Word := BitVec.ofNat 32 (f a.toNat)
def onWord2 (f : Nat → Nat → Nat) (a b : Word) : Word := BitVec.ofNat 32 (f a.toNat b.toNat)
def onWord3 (f : Nat → Nat → Nat → Nat) (a b c : Word) : Word := BitVec.ofNat 32 (f a.toNat b.toNat c.toNat)

/-! ### F32 (R203 to R210) -/

def execFadd (o : Alu2) (m : FMod) (s : State) : Out := .next (s.binaryF o (onWord2 (fF32.add m)))
def execFsub (o : Alu2) (m : FMod) (s : State) : Out := .next (s.binaryF o (onWord2 (fF32.sub m)))
def execFmul (o : Alu2) (m : FMod) (s : State) : Out := .next (s.binaryF o (onWord2 (fF32.mul m)))
def execFdiv (o : Alu2) (m : FMod) (s : State) : Out := .next (s.binaryF o (onWord2 (fF32.div m)))
def execFfma (o : Alu3) (m : FMod) (s : State) : Out := .next (s.ternary o (onWord3 (fF32.fma m false false)))
def execFfms (o : Alu3) (m : FMod) (s : State) : Out := .next (s.ternary o (onWord3 (fF32.fma m false true)))
def execFnma (o : Alu3) (m : FMod) (s : State) : Out := .next (s.ternary o (onWord3 (fF32.fma m true false)))
def execFmin (o : Alu2) (ftz : Bool) (s : State) : Out := .next (s.binaryF o (onWord2 (fF32.pick false ftz)))
def execFmax (o : Alu2) (ftz : Bool) (s : State) : Out := .next (s.binaryF o (onWord2 (fF32.pick true ftz)))
def fclampR (ftz : Bool) (a b c : Nat) : Nat := fF32.pick false ftz (fF32.pick true ftz a b) c
def execFclamp (o : Alu3) (ftz : Bool) (s : State) : Out := .next (s.ternary o (onWord3 (fclampR ftz)))
def execFcmp (o : AluR) (c : FCond) (ftz : Bool) (s : State) : Out :=
  .next (s.binaryR o fun a b => (bit (fF32.cmp c ftz a.toNat b.toNat)).setWidth 32)

/-- R207. -/
def fsgnR (op : SgnOp) (a b : Word) : Word :=
  if fF32.isNaN a.toNat then 0x7FC00000
  else
    let sign := match op with
      | .cpy => b.msb
      | .neg => !b.msb
      | .xor => a.msb != b.msb
    bit sign ++ a.extractLsb' 0 31
def execFsgn (o : AluR) (op : SgnOp) (s : State) : Out := .next (s.binaryR o (fsgnR op))

/-- R208. -/
def frcpR (m : FMod) (a : Nat) : Nat := fF32.round m.rnd m.ftz (FVal.one.div (fF32.val (fF32.flush m.ftz a)))
def frsqR (m : FMod) (a : Nat) : Nat :=
  let v := fF32.val (fF32.flush m.ftz a)
  fF32.round m.rnd m.ftz v.rsqrt
def fsqrtR (m : FMod) (a : Nat) : Nat := fF32.round m.rnd m.ftz (fF32.val (fF32.flush m.ftz a)).sqrt
def execFrcp (o : Alu1) (m : FMod) (s : State) : Out := .next (s.unary o (onWord (frcpR m)))
def execFrsq (o : Alu1) (m : FMod) (s : State) : Out := .next (s.unary o (onWord (frsqR m)))
def execFsqrt (o : Alu1) (m : FMod) (s : State) : Out := .next (s.unary o (onWord (fsqrtR m)))

/-- A special function with flushing of its input and its result (R186, R209). -/
def flushed (f : Nat → Nat) (ftz : Bool) (a : Nat) : Nat := fF32.flush ftz (f (fF32.flush ftz a))
def execFexp2 (o : Alu1) (ftz : Bool) (s : State) : Out := .next (s.unary o (onWord (flushed exp2r ftz)))
def execFlog2 (o : Alu1) (ftz : Bool) (s : State) : Out := .next (s.unary o (onWord (flushed flog2R ftz)))
def execFsin (o : Alu1) (ftz : Bool) (s : State) : Out := .next (s.unary o (onWord (flushed fsinR ftz)))
def execFcos (o : Alu1) (ftz : Bool) (s : State) : Out := .next (s.unary o (onWord (flushed fcosR ftz)))

/-- R210: the integral value keeps the sign of a. -/
def frndR (m : FMod) (a : Nat) : Nat :=
  let b := fF32.flush m.ftz a
  match fF32.val b with
  | .nan => fF32.nanBits
  | .inf _ => b
  | .fin neg mant x st =>
    if 0 ≤ x then b else fF32.round .rn false (.fin neg (quantize m.rnd neg mant x 0 st) 0 false)
def execFrnd (o : Alu1) (m : FMod) (s : State) : Out := .next (s.unary o (onWord (frndR m)))
def fclassR (a : Nat) : Nat :=
  match fF32.val a with
  | .nan => 1
  | .inf neg => if neg then 2 else 256
  | .fin neg m _ _ =>
    let k := if m = 0 then 2 else if fF32.subnormal a then 1 else 0
    if neg then 2 ^ (2 + k) else 2 ^ (7 - k)
def execFclass (o : Alu1) (s : State) : Out := .next (s.unary o (onWord fclassR))
/-- a × 2^n (R210); an exponent beyond ±1,000 gives what ±1,000 gives. -/
def fscaleR (m : FMod) (a : Nat) (n : Int) : Nat :=
  match fF32.val (fF32.flush m.ftz a) with
  | .fin neg mant x st => fF32.round m.rnd m.ftz (.fin neg mant (x + max (-1000) (min 1000 n)) st)
  | v => fF32.round m.rnd m.ftz v
def execFscale (o : Alu2) (m : FMod) (s : State) : Out :=
  .next (s.binary o fun a b => BitVec.ofNat 32 (fscaleR m a.toNat b.toInt))
def fexdR (a b : Word) : Word := BitVec.ofNat 32 (exp2r (f32sub a b).toNat)
def execFexd (o : AluR) (s : State) : Out := .next (s.binaryR o fexdR)

/-! ### Packed halves (R211, R212) -/

def halfFmt (h : Bool) : Fmt := if h then fF16 else fBF16
/-- Element k of a word. -/
def elem16 (k : Nat) (a : Word) : Nat := (a.extractLsb' (16 * k) 16).toNat
def pack16 (e0 e1 : Nat) : Word := BitVec.ofNat 16 e1 ++ BitVec.ofNat 16 e0
def halves2 (f : Nat → Nat → Nat) (a b : Word) : Word := pack16 (f (elem16 0 a) (elem16 0 b)) (f (elem16 1 a) (elem16 1 b))
def halves3 (f : Nat → Nat → Nat → Nat) (a b c : Word) : Word :=
  pack16 (f (elem16 0 a) (elem16 0 b) (elem16 0 c)) (f (elem16 1 a) (elem16 1 b) (elem16 1 c))
def execHadd2 (o : AluR) (h : Bool) (m : FMod) (s : State) : Out := .next (s.binaryR o (halves2 ((halfFmt h).add m)))
def execHmul2 (o : AluR) (h : Bool) (m : FMod) (s : State) : Out := .next (s.binaryR o (halves2 ((halfFmt h).mul m)))
def execHfma2 (o : Alu3) (h : Bool) (m : FMod) (s : State) : Out :=
  .next (s.ternary o (halves3 ((halfFmt h).fma m false false)))
def execHmin2 (o : AluR) (h ftz : Bool) (s : State) : Out := .next (s.binaryR o (halves2 ((halfFmt h).pick false ftz)))
def execHmax2 (o : AluR) (h ftz : Bool) (s : State) : Out := .next (s.binaryR o (halves2 ((halfFmt h).pick true ftz)))
def execHcmp2 (o : AluR) (h : Bool) (c : FCond) (ftz : Bool) (s : State) : Out :=
  .next (s.binaryR o (halves2 fun a b => if (halfFmt h).cmp c ftz a b then 1 else 0))
def hdot2R (h : Bool) (m : FMod) (a b c : Word) : Word :=
  let f := halfFmt h
  let e := fun k (w : Word) => f.val (f.flush m.ftz (elem16 k w))
  BitVec.ofNat 32 (fF32.round m.rnd m.ftz (FVal.sum m.rnd
    [(e 0 a).mul (e 0 b), (e 1 a).mul (e 1 b), fF32.val (fF32.flush m.ftz c.toNat)]))
def execHdot2 (o : Alu3) (h : Bool) (m : FMod) (s : State) : Out := .next (s.ternary o (hdot2R h m))

/-! ### F64 (R213) -/

def State.pair2 (s : State) (o : AluR) (f : Nat → Nat → Nat) : State :=
  s.alu o.g (.r64 o.d) (.r64 o.s1 o.k1) (.r64 o.s2 o.k2) noSrc fun _ a b _ => BitVec.ofNat 64 (f a.toNat b.toNat)
def execDadd (o : AluR) (m : FMod) (s : State) : Out := .next (s.pair2 o (fF64.add m))
def execDmul (o : AluR) (m : FMod) (s : State) : Out := .next (s.pair2 o (fF64.mul m))
def execDfma (o : Alu3) (m : FMod) (s : State) : Out :=
  .next (s.alu o.g (.r64 o.d) (.r64 o.s1 o.k1) (.r64 o.s2 o.k2) (.r64 o.s3 false)
    fun _ a b c => BitVec.ofNat 64 (fF64.fma m false false a.toNat b.toNat c.toNat))

/-! ### Conversions (R214, R215) -/

def typeMin : IType → Int
  | .i32 => -(2 ^ 31) | .n32 => 0 | .i64 => -(2 ^ 63) | .n64 => 0
def typeMax : IType → Int
  | .i32 => 2 ^ 31 - 1 | .n32 => 2 ^ 32 - 1 | .i64 => 2 ^ 63 - 1 | .n64 => 2 ^ 64 - 1
def typeWide : IType → Bool
  | .i64 => true | .n64 => true | _ => false
/-- A value rounded and clamped to an integer type (R214). -/
def toIType (t : IType) (m : Rnd) (v : FVal) : DWord :=
  BitVec.ofInt 64 (match v with
    | .nan => 0
    | .inf neg => if neg then typeMin t else typeMax t
    | _ => max (typeMin t) (min (typeMax t) (roundInt m v)))
/-- The integer of a type in a register or pair. -/
def ofIType (t : IType) (a : DWord) : Int :=
  match t with
  | .i32 => (a.setWidth 32).toInt | .n32 => ((a.setWidth 32).toNat : Int) | .i64 => a.toInt | .n64 => (a.toNat : Int)
def execF2i (o : Alu1) (t : IType) (m : Rnd) (s : State) : Out :=
  .next (s.alu o.g (if typeWide t then .r64 o.d else .r32 o.d) (.r32 o.s1 o.k1) noSrc noSrc
    fun _ a _ _ => toIType t m (fF32.val (a.setWidth 32).toNat))
def execI2f (o : Alu1) (t : IType) (m : Rnd) (s : State) : Out :=
  .next (s.alu o.g (.r32 o.d) (if typeWide t then .r64 o.s1 o.k1 else .r32 o.s1 o.k1) noSrc noSrc
    fun _ a _ _ => BitVec.ofNat 64 (fF32.round m false (.ofInt (ofIType t a))))
def execI2h2 (o : AluR) (sat h u : Bool) (m : Rnd) (s : State) : Out :=
  .next (s.binaryR o fun a b =>
    let c := fun (w : Word) => convert (if h then 2 else 1) m sat (.ofInt (intOf u w))
    pack16 (c a) (c b))
/-- R215. -/
def dcvtR (dir : CvtDir) (m : FMod) (a : DWord) : DWord :=
  match dir with
  | .f32f64 => BitVec.ofNat 64 (fF32.round m.rnd m.ftz (fF64.val (fF64.flush m.ftz a.toNat)))
  | .f64f32 => BitVec.ofNat 64 (fF64.round m.rnd false (fF32.val (fF32.flush m.ftz (a.setWidth 32).toNat)))
  | .i64f64 => toIType .i64 m.rnd (fF64.val (fF64.flush m.ftz a.toNat))
  | .f64i64 => BitVec.ofNat 64 (fF64.round m.rnd m.ftz (.ofInt a.toInt))
def execDcvt (o : Alu1) (dir : CvtDir) (m : FMod) (s : State) : Out :=
  .next (s.alu o.g (if dir = .f32f64 then .r32 o.d else .r64 o.d)
    (if dir = .f64f32 then .r32 o.s1 o.k1 else .r64 o.s1 o.k1) noSrc noSrc fun _ a _ _ => dcvtR dir m a)

/-! ### Format slots (R22, R23, R216 to R218) -/

def State.slotWord (s : State) (slot : BitVec 3) : DWord := (s.curTeam.recd.fmt[slot.toNat]?).getD 0
def slotAFmt (w : DWord) : Nat := (w.extractLsb' 0 4).toNat
def slotBFmt (w : DWord) : Nat := (w.extractLsb' 4 4).toNat
def slotDrainFmt (w : DWord) : Nat := (w.extractLsb' 20 4).toNat
def rndOf (n : Nat) : Rnd :=
  match n with
  | 1 => .rz | 2 => .ru | 3 => .rd | 4 => .rna | _ => .rn
def slotRnd (w : DWord) : Rnd := rndOf (w.extractLsb' 24 3).toNat
def slotSat (w : DWord) : Bool := w.getLsbD 27
def slotFtz (w : DWord) : Bool := w.getLsbD 28

/-- Element `pos` of width w of a register (R183). -/
def elemAt (w pos : Nat) (a : Word) : Nat := a.toNat / 2 ^ (w * pos) % 2 ^ w
/-- A register with element `pos` replaced. -/
def putElem (w pos : Nat) (v : Nat) (d : Word) : Word :=
  BitVec.ofNat 32 (d.toNat - elemAt w pos d * 2 ^ (w * pos) + v % 2 ^ w * 2 ^ (w * pos))

/-- The execution check of a packing instruction (R216). -/
def packBad (code pos : Nat) : Bool := pos % 2 == 1 || decide (32 < (pos + 2) * codeBits code)
/-- The execution check of an unpacking instruction (R216). -/
def unpackBad (code pos : Nat) : Bool := decide (32 < (pos + 1) * codeBits code)

/-- Operands of `fpack` and the conversion of one F32 value, flushed under FTZ_IN (R217). -/
def packOne (w : DWord) (a : Nat) : Nat :=
  convert (slotDrainFmt w) (slotRnd w) (slotSat w) (fF32.val (fF32.flush (slotFtz w) a))
def execFpack (o : AluR) (slot pos : BitVec 3) (s : State) : Out :=
  let w := s.slotWord slot
  let c := slotDrainFmt w
  let n := codeBits c
  .next (if packBad c pos.toNat then s.trapLow o.g cIllegalOperand
    else s.alu o.g (.r32 o.d) (.r32 o.s1 o.k1) (.r32 o.s2 o.k2) noSrc fun st a b _ =>
      (putElem n (pos.toNat + 1) (packOne w (b.setWidth 32).toNat)
        (putElem n pos.toNat (packOne w (a.setWidth 32).toNat) (st.rd o.d))).setWidth 64)
/-- The value that `funpk` reads (R217). -/
def unpackVal (w : DWord) (code pos : Nat) (a : Word) : FVal :=
  codeVal code (codeFlush code (slotFtz w) (elemAt (codeBits code) pos a))
def sideFmt (w : DWord) (b : Bool) : Nat := if b then slotBFmt w else slotAFmt w
def execFunpk (o : Alu1) (slot pos : BitVec 3) (side : Bool) (s : State) : Out :=
  let w := s.slotWord slot
  let c := sideFmt w side
  .next (if unpackBad c pos.toNat then s.trapLow o.g cIllegalOperand
    else s.unary o fun a => BitVec.ofNat 32 (fF32.round .rn false (unpackVal w c pos.toNat a)))
/-- a ÷ scale, converted (R218). -/
def q8One (w : DWord) (sc a : Nat) : Nat :=
  let v := fF32.val (fF32.flush (slotFtz w) a)
  convert (slotDrainFmt w) (slotRnd w) (slotSat w)
    (if sc % 256 = 0 then .fin false 0 0 false else if sc % 256 = 255 then .nan else v.div (scaleVal sc))
def execQ8pack (o : Alu3) (slot pos : BitVec 3) (s : State) : Out :=
  let w := s.slotWord slot
  let c := slotDrainFmt w
  let n := codeBits c
  .next (if packBad c pos.toNat || decide (c < 3) || decide (7 < c) then s.trapLow o.g cIllegalOperand
    else s.alu o.g (.r32 o.d) (.r32 o.s1 o.k1) (.r32 o.s2 o.k2) (.r32 o.s3 false) fun st a b sc =>
      (putElem n (pos.toNat + 1) (q8One w sc.toNat (b.setWidth 32).toNat)
        (putElem n pos.toNat (q8One w sc.toNat (a.setWidth 32).toNat) (st.rd o.d))).setWidth 64)
def execQ8unpk (o : AluR) (slot pos : BitVec 3) (side : Bool) (s : State) : Out :=
  let w := s.slotWord slot
  let c := sideFmt w side
  .next (if unpackBad c pos.toNat then s.trapLow o.g cIllegalOperand
    else s.binaryR o fun a b =>
      BitVec.ofNat 32 (fF32.round .rn false (scaledVal (b.toNat % 256) (unpackVal w c pos.toNat a))))

/-! ### Weights and scales (R219, R220) -/

def execDsenc (o : Alu1) (pos : BitVec 3) (ss4 : Bool) (s : State) : Out :=
  .next (s.alu o.g (.r32 o.d) (.r32 o.s1 o.k1) noSrc noSrc fun st a _ _ =>
    (putElem (if ss4 then 4 else 8) pos.toNat (dsencR ss4 (a.setWidth 32).toNat) (st.rd o.d)).setWidth 64)
def execDsdec (o : Alu1) (pos : BitVec 3) (ss4 : Bool) (s : State) : Out :=
  .next (s.unary o fun a =>
    BitVec.ofNat 32 (fF32.round .rn false (codeVal (if ss4 then 9 else 8) (elemAt (if ss4 then 4 else 8) pos.toNat a))))
def execScfit (o : Alu2) (s : State) : Out := .next (s.binaryF o (onWord2 scfitR))
/-- R220. -/
def scmulR (inv : Bool) (m : FMod) (a b : Nat) : Nat :=
  let v := fF32.val (fF32.flush m.ftz a)
  if b % 256 = 0 then 0
  else if b % 256 = 255 then fF32.nanBits
  else fF32.round m.rnd m.ftz (if inv then v.div (scaleVal b) else v.mul (scaleVal b))
def execScmul (o : AluR) (inv : Bool) (m : FMod) (s : State) : Out := .next (s.binaryR o (onWord2 (scmulR inv m)))

/-- R221: the pair M in S3; `mx` is the `.m` form. -/
def execAtmrg (o : Alu3) (mx : Bool) (s : State) : Out :=
  .next (s.alu o.g (.r32 o.d) (.r32 o.s1 o.k1) (.r32 o.s2 o.k2) (.r64 o.s3 false) fun _ a b m =>
    let f := mergeFactors (m.extractLsb' 0 32) (m.extractLsb' 32 32)
    (if mx then mergeMax f else mergeElem f (a.setWidth 32) (b.setWidth 32)).setWidth 64)

/-! ### Pair words (R102, R103, R222) -/

/-- The result of a pair-eligible opcode: op(D, S), or op(S) for a unary one. -/
def halfResult (opc : Nat) (d s : Word) : Word :=
  match opc with
  | 0x01 => d + s
  | 0x02 => d - s
  | 0x03 => d * s
  | 0x04 => imulh d s
  | 0x05 => imulhu d s
  | 0x0D => iminR d s
  | 0x0E => imaxR d s
  | 0x0F => uminR d s
  | 0x10 => umaxR d s
  | 0x11 => iabsR false s
  | 0x12 => inegR false s
  | 0x13 => iaddsR false d s
  | 0x14 => isubsR false d s
  | 0x16 => d &&& s
  | 0x17 => d ||| s
  | 0x18 => d ^^^ s
  | 0x19 => d &&& ~~~s
  | 0x1A => ~~~s
  | 0x1C => shlR d s
  | 0x1D => shrR d s
  | 0x1E => sarR d s
  | 0x1F => rolR d s
  | 0x25 => popcR s
  | 0x26 => clzR s
  | 0x27 => ctzR s
  | 0x28 => brevR s
  | 0x2D => s
  | 0x38 => onWord2 (fF32.add modRn) d s
  | 0x39 => onWord2 (fF32.sub modRn) d s
  | 0x3A => onWord2 (fF32.mul modRn) d s
  | 0x3E => onWord2 (fF32.pick false false) d s
  | 0x3F => onWord2 (fF32.pick true false) d s
  | 0x42 => fsgnR .cpy d s
  | 0x43 => onWord (frcpR modRn) s
  | 0x44 => onWord (frsqR modRn) s
  | 0x45 => onWord (fsqrtR modRn) s
  | 0x47 => onWord exp2r s
  | 0x48 => onWord flog2R s
  | 0x49 => onWord fsinR s
  | 0x4A => onWord fcosR s
  | 0x4D => BitVec.ofNat 32 (fscaleR modRn d.toNat s.toInt)
  | 0x4E => fexdR d s
  | 0x4F => halves2 (fBF16.add modRn) d s
  | 0x50 => halves2 (fBF16.mul modRn) d s
  | 0x52 => halves2 (fBF16.pick false false) d s
  | _ => halves2 (fBF16.pick true false) d s

/-- The guard of a half (R101): 0 names none. -/
def halfHolds (h : PHalf) (st : Stream) : Bool := h.g5 == 0 || ((st.rd (h.g5.setWidth 8)).getLsbD 0 != h.gn)
/-- The value a half writes, from the registers before the word. -/
def halfValue (h : PHalf) (st : Stream) : Word :=
  halfResult h.opcode (st.rd h.d) (if h.imm then h.s.setWidth 32 else st.rd h.s)
/-- A pair word in one lane: both halves read before either writes (R102). -/
def pairLane (a b : PHalf) (st : Stream) : Stream :=
  let st1 := if halfHolds a st then st.wr a.d (halfValue a st) else st
  if halfHolds b st then st1.wr b.d (halfValue b st) else st1
def execPairWord (a b : PHalf) (s : State) : Out :=
  .next (s.onLanes s.cur.lanes fun st => (pairLane a b st).goto s.cur.npc)

end Sys2Proof.Machine
end

