-- ==== Sys2Proof/Machine/Matrix.lean ====
section
/-! DEFINITION. Sys2Proof/Machine/Matrix.lean: the matrix engine: planes, tiles, scales, the operand cache, the issue of tile
operations and their execution, opcodes 0xD0 to 0xDA (R279 to R301). -/
namespace Sys2Proof.Machine

/-! ### State of a context (R279) -/

def blankPlane : Plane := ⟨[], [], 0, 0, 0, 0⟩
def blankMat : Mat := ⟨blankPlane, blankPlane, [], 0, [], [], [0, 0, 0, 0, 0]⟩
def State.mat (s : State) (tcx : Nat) : Mat := sget blankMat s.mx.mats tcx
def State.onMat (s : State) (tcx : Nat) (f : Mat → Mat) : State :=
  { s with mx := { s.mx with mats := sset blankMat s.mx.mats tcx (f (s.mat tcx)) } }
/-- The physical tile of a name. -/
def Mat.tileOf (m : Mat) (name : Nat) : Option Nat := (m.map.find? fun e => e.1 = name).map (·.2)

/-- The words of a physical tile. -/
def State.tile (s : State) (cluster t : Nat) : List (Nat × Word) := sget [] s.mx.tiles (16 * cluster + t)
def State.setTile (s : State) (cluster t : Nat) (ws : List (Nat × Word)) : State :=
  { s with mx := { s.mx with tiles := sset [] s.mx.tiles (16 * cluster + t) ws } }
/-- Rows of a tile replaced, from row `r0` on. -/
def putRows (ws : List (Nat × Word)) (r0 : Nat) (rows : List (List Word)) : List (Nat × Word) :=
  let new := (rows.mapIdx fun i (r : List Word) => r.mapIdx fun j (w : Word) => (128 * (r0 + i) + j, w)).flatten
  (ws.filter fun e => decide (e.1 < 128 * r0)) ++ (new.filter fun e => e.2 != 0) ++
    ws.filter fun e => decide (128 * (r0 + rows.length) ≤ e.1)

/-- The clusters' contexts: whose tiles lie in a cluster. -/
def State.usedTiles (s : State) (cluster : Nat) : List Nat :=
  (s.teams.filter fun t => t.cluster == cluster && t.image.isNone).flatMap fun t =>
    (s.mat t.tcx).map.map (·.2) ++ (s.mat t.tcx).releasing
/-- A free physical tile (R295). -/
def State.freeTile (s : State) (cluster : Nat) : Option Nat :=
  (List.range 16).find? fun t => !((s.usedTiles cluster).contains t)

/-! ### Formats of a slot (R23, R280) -/

def slotABlk (w : DWord) : Nat := (w.extractLsb' 8 3).toNat
def slotBBlk (w : DWord) : Nat := (w.extractLsb' 11 3).toNat
def slotAScale (w : DWord) : Nat := (w.extractLsb' 14 2).toNat
def slotBScale (w : DWord) : Nat := (w.extractLsb' 16 2).toNat
def slotAcc (w : DWord) : Nat := (w.extractLsb' 18 2).toNat
/-- The block length of a block code (R23). -/
def blkLen (code : Nat) : Nat := 4 * 2 ^ code
/-- The A and the B column of R280, and its pairs. -/
def aFmtOk (a : Nat) : Bool := decide (1 ≤ a) && decide (a ≤ 7)
def bFmtOk (b : Nat) : Bool := decide (1 ≤ b) && decide (b ≤ 9)
def fmtPair (a b : Nat) : Bool :=
  if a = 1 then b == 1 || (decide (3 ≤ b) && decide (b ≤ 9))
  else if a = 2 then b == 2 || (decide (3 ≤ b) && decide (b ≤ 9))
  else decide (3 ≤ a) && decide (a ≤ 7) && decide (3 ≤ b) && decide (b ≤ 9)
/-- Bytes of `n` elements of a format. -/
def fmtBytes (code n : Nat) : Nat := n * codeBits code / 8
/-- Element j of packed bytes (R183). -/
def byteElem (code : Nat) (bs : List Byte) (j : Nat) : Nat :=
  match codeBits code with
  | 32 => fld bs (4 * j) 4
  | 16 => fld bs (2 * j) 2
  | 4 => fld bs (j / 2) 1 / 16 ^ (j % 2) % 16
  | _ => fld bs j 1
/-- Elements packed into bytes (R183). -/
def packBytes (code : Nat) (es : List Nat) : List Byte :=
  if codeBits code = 4 then
    (List.range ((es.length + 1) / 2)).map fun i => BitVec.ofNat 8 (es.getD (2 * i) 0 + 16 * es.getD (2 * i + 1) 0)
  else es.flatMap fun e => bytesOfNat (codeBits code / 8) e

/-! ### Row specifiers and rows (R281, R282) -/

/-- ROWS and ROWBASE, none where they are out of range. -/
def rowSpec (w : Word) : Option (Nat × Nat) :=
  let r := (w.extractLsb' 0 8).toNat
  let base := (w.extractLsb' 8 8).toNat
  let rows := if r = 0 then 128 else r
  if 128 < rows || 128 < base + rows then none else some (rows, base)

/-- A row's checks (R70, R282, R286), the alignment of the base and of the stride at step 3: its pieces. -/
def State.rowPieces (s : State) (st : Stream) (ak : AK) (align : Nat) (stride a : DWord) (n : Nat) :
    Except Fail (List (DWord × Loc × Nat)) :=
  if rangeBad ⟨true, true, false⟩ a n then .error (.trap cAddressClass a)
  else match s.redirect st a n with
    | .error e => .error e
    | .ok va =>
      if a.toNat % align ≠ 0 || stride.toNat % align ≠ 0 then .error (.trap cAlignment a)
      else if a.extractLsb' 62 2 = 1#2 then
        match s.vaultBad (s.team st.id.tcx).recd.asid (a.toNat % 2 ^ 32) n with
        | some b => .error (.trap cVaultRange (0x4000000000000000 + BitVec.ofNat 64 b))
        | none => .ok ((pieces a.toNat n).map fun p =>
            (BitVec.ofNat 64 p.1, ⟨.vault, vaultKey + p.1 % 2 ^ 32, 0, false⟩, p.2))
      else
        (pieces va n).foldr (fun p r =>
          match s.checkPage (s.who st) ak p.1 with
          | .error e => .error e
          | .ok c => match r with
            | .error e => .error e
            | .ok ps => .ok ((BitVec.ofNat 64 p.1, c.loc, p.2) :: ps)) (.ok [])

/-- The rows of a memory operand, in ascending order. -/
def State.rowsOf (s : State) (st : Stream) (ak : AK) (align n : Nat) (stride : DWord) :
    DWord → Nat → Except Fail (List (List (DWord × Loc × Nat)))
  | _, 0 => .ok []
  | a, k + 1 =>
    match s.rowPieces st ak align stride a n with
    | .error e => .error e
    | .ok r => match s.rowsOf st ak align n stride (a + stride) k with
      | .error e => .error e
      | .ok rs => .ok (r :: rs)

/-- The stride in bytes (R282): 0 means packed. -/
def strideOf (w : Word) (rowBytes align : Nat) : DWord :=
  if w = 0 then BitVec.ofNat 64 ((rowBytes + align - 1) / align * align) else w.signExtend 64

/-- The rows of an operand at a base (R282). -/
def State.operandRows (s : State) (st : Stream) (ak : AK) (align n : Nat) (stride : Word) (a : DWord) (rows : Nat) :
    Except Fail (List (List (DWord × Loc × Nat))) :=
  s.rowsOf st ak align n (strideOf stride n align) a rows

/-- The effects of the translations of an operand's pages (R84). -/
def State.touchRows (s : State) (st : Stream) (ak : AK) (rs : List (List (DWord × Loc × Nat))) : State :=
  rs.flatten.foldl (fun s p =>
    if p.1.extractLsb' 62 2 = 1#2 then s
    else match s.checkPage (s.who st) ak p.1.toNat with
      | .ok c => s.touch (s.who st) ak c
      | .error _ => s) s

/-! ### What the issue checks see: the planes' records after the operations still in the buffer (R284) -/

/-- A slot's B fields recorded by an `mload`. -/
def Plane.meta (slot : DWord) (klen : Nat) : Plane := ⟨[], [], klen, slotBFmt slot, slotBBlk slot, slotBScale slot⟩
def Mat.after (m : Mat) (o : TileOp) : Mat :=
  match o.kind with
  | .load => { m with shadow := Plane.meta o.slot o.rows }
  | .swap => { m with active := m.shadow, shadow := m.active }
  | .scA => { m with aBlk := slotABlk o.slot }
  | _ => m
/-- The context as the next operation of a stream will find its records. -/
def State.matNext (s : State) (sid : SId) : Mat :=
  (s.mx.ops.filter fun o => o.sid == sid).foldl Mat.after (s.mat sid.tcx)

/-! ### Issue (R285, R286, R290) -/

/-- Tile operations in the buffer of a cluster; those that have been stopped are saved with their context (R285, R301). -/
def State.bufferFull (s : State) (cluster : Nat) : Bool :=
  let here := fun (t : Team) => t.cluster == cluster && t.image.isNone
  decide (32 ≤ (s.mx.ops.filter fun o => here (s.team o.sid.tcx) && !o.stopped).length)

def blankTileOp : TileOp := ⟨0, .swap, ⟨0, .control, 0⟩, none, 0, 0, 0, [], none, 0, [], false⟩

/-- An operation enters the buffer, and TLC rises. -/
def State.enterTileOp (s : State) (o : TileOp) : State :=
  { s with mx := { s.mx with ops := s.mx.ops ++ [{ o with num := s.nextOp }] }, nextOp := s.nextOp + 1 }.onLane o.sid fun st =>
    { st with cnt := st.cnt.add 3 1 }

/-- The frame of a tile operation: the control stream, if the guard holds; room in the buffer and on TLC; then `f`. -/
def State.tileIssue (s : State) (g : Guard) (f : Stream → Mat → State) : State :=
  match s.lowest g with
  | none => s.retireLanes g id
  | some low =>
    if s.bufferFull (s.team low.id.tcx).cluster || s.counterFull [low.id] 3 then s.stalled else f low (s.matNext low.id)

/-- The kills of a matrix instruction with two register operands. -/
def matKill (o : MatOp) (st : Stream) : Stream := (st.kill64 o.s1 o.k1).kill o.s2 o.k2

def Mat.stride (m : Mat) (k : Nat) : Word := m.strides.getD k 0

def execMload (o : MatOp) (s : State) : Out :=
  .next (s.tileIssue o.g fun low m =>
    let slot := s.slotWord o.slot
    let b := slotBFmt slot
    let k := ((low.rd o.s2).extractLsb' 0 8).toNat
    let klen := if k = 0 then 128 else k
    if 128 < klen || !bFmtOk b || (codeBits b == 4 && klen % 2 == 1) then s.trapLow o.g cIllegalOperand
    else match s.operandRows low .load 64 (fmtBytes b 128) (m.stride 1) (low.rd64 o.s1) klen with
      | .error e => s.failLane o.g .load low e
      | .ok rs =>
        ((s.touchRows low .load rs).enterTileOp { blankTileOp with kind := .load, sid := low.id, slot := slot, rows := klen, mem := rs }).retireLanes
          o.g (matKill o))

def execMswap (g : Guard) (s : State) : Out :=
  .next (s.tileIssue g fun low _ => (s.enterTileOp { blankTileOp with kind := .swap, sid := low.id }).retireLanes g id)

/-- The queue operand of a port, or the trap of R265. -/
def State.matQueue (s : State) (low : Stream) (o : MatOp) : Option (Option Nat) :=
  if o.q then (s.portKey low.id o.s1).map some else some none

def execMmul (o : MatOp) (s : State) : Out :=
  .next (s.tileIssue o.g fun low m =>
    let slot := s.slotWord o.slot
    let a := slotAFmt slot
    let b := slotBFmt slot
    let p := m.active
    let bad := s.trapLow o.g cIllegalOperand
    match s.matQueue low o, m.tileOf o.tile.toNat, rowSpec (low.rd o.s2) with
    | some q, some t, some (rows, base) =>
      if p.klen = 0 || !fmtPair a b || b != p.fmt || slotBBlk slot != p.blk || slotBScale slot != p.scale ||
          (slotAScale slot != 0 && slotABlk slot != m.aBlk) ||
          ((codeBits a == 4 || codeBits b == 4) && p.klen % 2 == 1) then bad
      else
        let op : TileOp := { blankTileOp with kind := .mul o.z, sid := low.id, tile := some t, slot := slot, rows := rows
                                              rowBase := base, queue := q }
        if o.q then (s.enterTileOp op).retireLanes o.g fun st => st.kill o.s2 o.k2
        else match s.operandRows low .load 64 (fmtBytes a p.klen) (m.stride 0) (low.rd64 o.s1) rows with
          | .error e => s.failLane o.g .load low e
          | .ok rs => ((s.touchRows low .load rs).enterTileOp { op with mem := rs }).retireLanes o.g (matKill o)
    | _, _, _ => bad)

/-- `mnew` and `mrel`: the name's old tile waits for its release; `new` is the tile that takes its place (R295). -/
def Mat.rename (m : Mat) (name : Nat) (new : Option Nat) : Mat :=
  { m with map := (m.map.filter fun e => e.1 ≠ name) ++ (new.map fun t => (name, t)).toList
           releasing := m.releasing ++ (m.tileOf name).toList }

def execMnew (g : Guard) (tile : BitVec 3) (s : State) : Out :=
  .next (s.tileIssue g fun low _ =>
    let t := s.team low.id.tcx
    let m := s.mat t.tcx
    if 8 ≤ m.map.length + m.releasing.length then s.stalled
    else match s.freeTile t.cluster with
      | none => s.stalled
      | some k =>
        (((s.setTile t.cluster k []).onMat t.tcx fun m => m.rename tile.toNat (some k)).enterTileOp
          { blankTileOp with kind := .new, sid := low.id, tile := m.tileOf tile.toNat }).retireLanes g id)
def execMrel (g : Guard) (tile : BitVec 3) (s : State) : Out :=
  .next (s.tileIssue g fun low _ =>
    let m := s.mat low.id.tcx
    ((s.onMat low.id.tcx fun m => m.rename tile.toNat none).enterTileOp
      { blankTileOp with kind := .rel, sid := low.id, tile := m.tileOf tile.toNat }).retireLanes g id)

def execMdrain (o : MatOp) (s : State) : Out :=
  .next (s.tileIssue o.g fun low m =>
    let slot := s.slotWord o.slot
    match s.matQueue low o, m.tileOf o.tile.toNat, rowSpec (low.rd o.s2) with
    | some q, some t, some (rows, base) =>
      let op : TileOp := { blankTileOp with kind := .drain o.z, sid := low.id, tile := some t, slot := slot, rows := rows
                                            rowBase := base, queue := q }
      if o.q then (s.enterTileOp op).retireLanes o.g fun st => st.kill o.s2 o.k2
      else match s.operandRows low .store 64 (fmtBytes (slotDrainFmt slot) 128) (m.stride 2) (low.rd64 o.s1) rows with
        | .error e => s.failLane o.g .store low e
        | .ok rs => ((s.touchRows low .store rs).enterTileOp { op with mem := rs }).retireLanes o.g (matKill o)
    | _, _, _ => s.trapLow o.g cIllegalOperand)

def execMzero (g : Guard) (s2 : Reg) (k2 : Bool) (tile : BitVec 3) (s : State) : Out :=
  .next (s.tileIssue g fun low m =>
    match m.tileOf tile.toNat, rowSpec (low.rd s2) with
    | some t, some (rows, base) =>
      (s.enterTileOp { blankTileOp with kind := .zero, sid := low.id, tile := some t, rows := rows, rowBase := base }).retireLanes g
        fun st => st.kill s2 k2
    | _, _ => s.trapLow g cIllegalOperand)

/-- `msc.a` and `msc.b` (R294). -/
def State.loadScales (s : State) (g : Guard) (s1 : Reg) (k1 : Bool) (slot : BitVec 3) (b : Bool) : State :=
  s.tileIssue g fun low m =>
    let w := s.slotWord slot
    let bad := if b then slotBScale w != 1 || !bFmtOk (slotBFmt w) || m.shadow.klen == 0 || slotBBlk w != m.shadow.blk
      else slotAScale w != 1 || !aFmtOk (slotAFmt w)
    if bad then s.trapLow g cIllegalOperand
    else
      let n := blkLen (if b then slotBBlk w else slotABlk w)
      let rows := if b then (m.shadow.klen + n - 1) / n else 128
      match s.operandRows low .load 1 (if b then 128 else 128 / n) (m.stride 4) (low.rd64 s1) rows with
      | .error e => s.failLane g .load low e
      | .ok rs =>
        ((s.touchRows low .load rs).enterTileOp { blankTileOp with kind := if b then .scB else .scA, sid := low.id, slot := w, rows := rows
                                                                   mem := rs }).retireLanes g fun st => st.kill64 s1 k1
def execMscA (g : Guard) (s1 : Reg) (k1 : Bool) (slot : BitVec 3) (s : State) : Out := .next (s.loadScales g s1 k1 slot false)
def execMscB (g : Guard) (s1 : Reg) (k1 : Bool) (slot : BitVec 3) (s : State) : Out := .next (s.loadScales g s1 k1 slot true)

def execMtld (g : Guard) (s1 : Reg) (k1 : Bool) (s2 : Reg) (k2 : Bool) (tile : BitVec 3) (s : State) : Out :=
  .next (s.tileIssue g fun low m =>
    match m.tileOf tile.toNat, rowSpec (low.rd s2) with
    | some t, some (rows, base) =>
      match s.operandRows low .load 64 512 (m.stride 3) (low.rd64 s1) rows with
      | .error e => s.failLane g .load low e
      | .ok rs =>
        ((s.touchRows low .load rs).enterTileOp { blankTileOp with kind := .tld, sid := low.id, tile := some t, rows := rows
                                                                   rowBase := base, mem := rs }).retireLanes g
          fun st => (st.kill64 s1 k1).kill s2 k2
    | _, _ => s.trapLow g cIllegalOperand)

/-- Entries of the operand cache dropped. -/
def State.dropOperands (s : State) (p : OpLine → Bool) : State :=
  { s with mx := { s.mx with cache := s.mx.cache.filter fun l => !p l } }

/-- R300: it parks while tile operations are outstanding; then slot 3, then the drop. -/
def execMfence (g : Guard) (s : State) : Out :=
  .next (
    match s.lowest g with
    | none => s.retireLanes g id
    | some low =>
      let t := s.team low.id.tcx
      if low.cnt.tl ≠ 0 then s.parkLanes .mfence
      else match low.slots.tl with
        | some e => s.deliver low.id 3 e
        | none => (s.dropOperands fun l => l.cluster == t.cluster && l.asid == t.recd.asid).retireLanes g id)

def strideIdx : MField → Nat
  | .astride => 0 | .bstride => 1 | .dstride => 2 | .tstride => 3 | .sstride => 4
/-- R291. -/
def execMcfg (g : Guard) (s1 : Reg) (k1 : Bool) (f : MField) (s : State) : Out :=
  .next (
    match s.lowest g with
    | none => s.retireLanes g id
    | some low =>
      (s.onMat low.id.tcx fun m => { m with strides := m.strides.set (strideIdx f) (low.rd s1) }).retireLanes g
        fun st => st.kill s1 k1)

/-! ### Memory of an operation in execution (R287, R299) -/

/-- Why the bytes of a piece cannot be read by a stream's operation. -/
def State.pieceErr (s : State) (sid : SId) (cluster : Nat) (l : Loc) (n : Nat) : Option Cause :=
  if s.linkDown l || s.shutHost (s.team sid.tcx).fn l then some (lostCause l) else s.flawed l cluster n
/-- The bytes of a piece: 0xFF where they cannot be read, with the cause in slot 3. -/
def State.readPiece (s : State) (sid : SId) (cluster : Nat) (l : Loc) (n : Nat) : List Byte × State :=
  match s.pieceErr sid cluster l n with
  | none => s.readNow l cluster n none
  | some e =>
    let s1 := s.recordErr sid 3 ⟨e, 0⟩
    let (bs, s2) := if s.linkDown l then (List.replicate n 0xFF, s1.lostRead l)
      else if s.shutHost (s.team sid.tcx).fn l then (List.replicate n 0xFF, s1)
      else s1.readNow l cluster n none
    let mark := fun (i : Nat) (b : Byte) => if (s.pieceErr sid cluster { l with key := l.key + i } 1).isSome then 0xFF else b
    (bs.mapIdx mark, s2)

/-- Entries of the operand cache of a cluster: 256 KiB of 64 B (R279). -/
def cacheRoom : Nat := 4096
/-- A granule enters the operand cache; of a full cache, one entry leaves (log entry 12). -/
def State.cacheOperand (s : State) (l : OpLine) : State :=
  let mine := s.mx.cache.filter fun x => x.cluster == l.cluster
  let cs := if mine.length < cacheRoom then s.mx.cache
    else match mine[Config.pick s.free % mine.length]? with
      | some v => s.mx.cache.filter (· ≠ v)
      | none => s.mx.cache
  { s with mx := { s.mx with cache := cs ++ [l] }, free := if mine.length < cacheRoom then s.free else s.free + 1 }

/-- A piece read through the operand cache (R299); a granule of which some byte cannot be read does not enter it. -/
def State.readCached (s : State) (sid : SId) (cluster : Nat) (a : DWord) (l : Loc) (n : Nat) : List Byte × State :=
  let asid := (s.team sid.tcx).recd.asid
  let gr := a.toNat / 64
  let off := a.toNat % 64
  match s.mx.cache.find? fun x => x.cluster == cluster && x.asid == asid && x.granule == gr with
  | some x => ((x.data.drop off).take n, s)
  | none =>
    let whole : Loc := { l with key := l.key - off }
    if (s.pieceErr sid cluster whole 64).isSome then s.readPiece sid cluster l n
    else
      let (bs, s1) := s.readNow whole cluster 64 none
      ((bs.drop off).take n, s1.cacheOperand ⟨cluster, asid, gr, bs, sid.tcx⟩)

/-- The bytes of the rows of an operand. -/
def State.readRow (s : State) (sid : SId) (cluster : Nat) (cached : Bool) : List (DWord × Loc × Nat) → List Byte × State
  | [] => ([], s)
  | (a, l, n) :: r =>
    let (bs, s1) := if cached then s.readCached sid cluster a l n else s.readPiece sid cluster l n
    let (cs, s2) := s1.readRow sid cluster cached r
    (bs ++ cs, s2)
def State.readRows (s : State) (sid : SId) (cluster : Nat) (cached : Bool) :
    List (List (DWord × Loc × Nat)) → List (List Byte) × State
  | [] => ([], s)
  | p :: r =>
    let (bs, s1) := s.readRow sid cluster cached p
    let (cs, s2) := s1.readRows sid cluster cached r
    (bs :: cs, s2)

/-- The writes of a drain, under the tag of its context (R413): one that cannot be performed is discarded, its cause in slot 3 (R287). -/
def State.writePieces (s : State) (sid : SId) (cluster : Nat) (bs : List Byte) : List (DWord × Loc × Nat) → State
  | [] => s
  | (_, l, n) :: r =>
    let t := s.team sid.tcx
    let s1 := if s.linkDown l then (s.lostWrite l).recordErr sid 3 ⟨lostCause l, 0⟩
      else if s.shutHost t.fn l then s.recordErr sid 3 ⟨cLinkLost, 0⟩
      else s.writeNow l cluster (bs.take n) (some (t.tag sid))
    s1.writePieces sid cluster (bs.drop n) r
def State.writeRows (s : State) (sid : SId) (cluster : Nat) : List (List Byte) → List (List (DWord × Loc × Nat)) → State
  | b :: bs, p :: ps => (s.writePieces sid cluster b p).writeRows sid cluster bs ps
  | _, _ => s

/-! ### Execution (R292 to R298) -/

/-- A plane from the rows of an `mload` (R292). -/
def planeOf (slot : DWord) (klen : Nat) (rows : List (List Byte)) : Plane :=
  let es := (rows.mapIdx fun k (r : List Byte) => (List.range 128).map fun n => (128 * k + n, byteElem (slotBFmt slot) r n)).flatten
  { Plane.meta slot klen with elems := (es.filter fun e => e.2 != 0).map fun e => (e.1, BitVec.ofNat 16 e.2) }

/-- Codes from rows of bytes, keyed `w` × row + column; 0x80 is the code of an unlisted key. -/
def codesOf (w : Nat) (rows : List (List Byte)) : List (Nat × BitVec 8) :=
  (rows.mapIdx fun k (r : List Byte) => r.mapIdx fun n (b : Byte) => (w * k + n, b)).flatten.filter fun e => e.2 != 0x80

/-- The scaled value of A at (row m, k) and of B at (k, column n) (R192, R297). -/
def scaledA (m : Mat) (slot : DWord) (row : Nat) (bs : List Byte) (k : Nat) : FVal :=
  let a := slotAFmt slot
  let v := codeVal a (codeFlush a (slotFtz slot) (byteElem a bs k))
  if slotAScale slot = 0 then v else scaledVal (sget 0x80#8 m.aCodes (16 * row + k / blkLen (slotABlk slot))).toNat v
def scaledB (p : Plane) (slot : DWord) (k n : Nat) : FVal :=
  let b := slotBFmt slot
  let v := codeVal b (codeFlush b (slotFtz slot) (sget 0 p.elems (128 * k + n)).toNat)
  if slotBScale slot = 0 then v else scaledVal (sget 0x80#8 p.codes (128 * (k / blkLen (slotBBlk slot)) + n)).toNat v

/-- One output element (R195 to R197). -/
def mmulElem (m : Mat) (slot : DWord) (row : Nat) (bs : List Byte) (acc : Word) (n : Nat) : Word :=
  let ps := (List.range m.active.klen).map fun k => (scaledA m slot row bs k).mul (scaledB m.active slot k n)
  (chunks64 ps 2).foldl (if slotAcc slot = 1 then chunkI32 else chunkF32) acc

/-- The rows of a tile after an `mmul`. -/
def mmulRows (m : Mat) (o : TileOp) (ovw : Bool) (ws : List (Nat × Word)) (rows : List (List Byte)) : List (List Word) :=
  rows.mapIdx fun i bs => (List.range 128).map fun n =>
    mmulElem m o.slot i bs (if ovw then 0 else sget 0 ws (128 * (o.rowBase + i) + n)) n

/-- One drained row (R197, R298). -/
def drainRow (o : TileOp) (ws : List (Nat × Word)) (i : Nat) : List Byte :=
  packBytes (slotDrainFmt o.slot) ((List.range 128).map fun n =>
    let w := sget 0 ws (128 * (o.rowBase + i) + n)
    convert (slotDrainFmt o.slot) (slotRnd o.slot) (slotSat o.slot)
      (if slotAcc o.slot = 1 then .ofInt w.toInt else fF32.val w.toNat))

/-- Bytes cut into rows of n. -/
def cutRows (bs : List Byte) (n rows : Nat) : List (List Byte) := (List.range rows).map fun i => (bs.drop (i * n)).take n
/-- Words of a 512 B row. -/
def rowWords (bs : List Byte) : List Word := (List.range 128).map fun j => BitVec.ofNat 32 (fld bs (4 * j) 4)

/-- The operation is done: it leaves the buffer and TLC falls (R285). -/
def State.tileDone (s : State) (o : TileOp) : State :=
  { s with mx := { s.mx with ops := s.mx.ops.filter fun x => x.num ≠ o.num } }.decCounter o.sid 3
def State.onTileOp (s : State) (num : Nat) (f : TileOp → TileOp) : State :=
  { s with mx := { s.mx with ops := s.mx.ops.map fun x => if x.num = num then f x else x } }

/-- The bytes of a queue entry (R283). -/
def entryBytes (e : QEntry) (w : Nat) : List Byte := (List.range w).flatMap fun i => bytesOfNat 4 (sget 0 e.elems i).toNat

/-- Pops of a queue-source `mmul`, as far as entries are READY (R289). -/
def State.popTile (s : State) (num key w total : Nat) : Nat → State
  | 0 => s
  | n + 1 =>
    match s.mx.ops.find? fun x => x.num = num with
    | none => s
    | some o =>
      if total ≤ o.moved then s
      else match (s.queue key).entries with
        | [] => s
        | e :: r =>
          if e.state = .ready then
            let s1 := s.onTileOp num fun o => { o with moved := o.moved + 1, bytes := o.bytes ++ entryBytes e w }
            ((s1.setQueue key r).changed key).popTile num key w total n
          else s

/-- Pushes of an `mdrain` to a queue, as far as entries are FREE (R283, R289). -/
def State.pushTile (s : State) (num key w : Nat) : Nat → State
  | 0 => s
  | n + 1 =>
    match s.mx.ops.find? fun x => x.num = num with
    | none => s
    | some o =>
      if o.bytes.isEmpty || (s.queue key).free = 0 then s
      else
        let bs := o.bytes.take (4 * w)
        let k := (bs.length + 3) / 4
        let elems := (List.range k).map fun i => (i, BitVec.ofNat 32 (fld bs (4 * i) 4))
        let s1 := s.onTileOp num fun o => { o with moved := o.moved + 1, bytes := o.bytes.drop (4 * w) }
        (s1.pushEntry key elems (BitVec.ofNat 64 (2 ^ k - 1))).pushTile num key w n

/-- The tile after an `mmul` whose rows have come. -/
def State.mulTile (s : State) (o : TileOp) (cluster t : Nat) (ovw : Bool) (rows : List (List Byte)) : State :=
  let ws := s.tile cluster t
  (s.setTile cluster t (putRows ws o.rowBase (mmulRows (s.mat o.sid.tcx) o ovw ws rows))).tileDone o

/-- Zero rows. -/
def zeroRows (n : Nat) : List (List Word) := List.replicate n (List.replicate 128 0)

/-- A context that is not in the active set completes its operations, up to an `mmul` or `mdrain` that its queue stops; one in an
image or ended does nothing (R301). -/
def State.tileRuns (s : State) (o : TileOp) : Bool :=
  let t := s.team o.sid.tcx
  t.image.isNone && t.ended.isNone && !o.stopped
/-- A context outside the active set stops at an operation that its queue lets make no progress, and with it what the context has issued
behind it (R284, R301): `o` before it ran. -/
def State.stopTile (s : State) (o : TileOp) : State :=
  let stuck := s.mx.ops.any fun x => x.num == o.num && x.moved == o.moved
  if (s.team o.sid.tcx).shadow && o.queue.isSome && stuck then
    { s with mx := { s.mx with ops := s.mx.ops.map fun x => if x.sid.tcx = o.sid.tcx then { x with stopped := true } else x } }
  else s
/-- The operations of a context that a swap has taken out of the active set go on in a cluster: the incoming control stream has not
started (R301, R415). -/
def State.arrayHeld (s : State) (cluster : Nat) : Bool :=
  s.mx.ops.any fun o => (s.team o.sid.tcx).shadow && (s.team o.sid.tcx).cluster == cluster && s.tileRuns o
/-- The oldest operation of a context in a cluster that may run (R284, R301, R348); those of a context that is leaving come first. -/
def State.nextTileOp (s : State) (cluster : Nat) : Option TileOp :=
  s.mx.ops.find? fun o => (s.team o.sid.tcx).cluster == cluster && s.tileRuns o && s.forked o.sid o.num &&
    ((s.team o.sid.tcx).shadow || !s.arrayHeld cluster) &&
    s.mx.ops.all fun x => x.sid.tcx != o.sid.tcx || decide (o.num ≤ x.num)

/-- One tile operation in execution. -/
def State.runTile (s : State) (cluster : Nat) (o : TileOp) : State :=
  let tcx := o.sid.tcx
  let m := s.mat tcx
  let w := (s.team tcx).recd.groupW
  let t := o.tile.getD 0
  match o.kind with
  | .load =>
    let (rows, s1) := s.readRows o.sid cluster true o.mem
    (s1.onMat tcx fun m => { m with shadow := planeOf o.slot o.rows rows }).tileDone o
  | .swap => (s.onMat tcx fun m => { m with active := m.shadow, shadow := m.active }).tileDone o
  | .mul ovw =>
    match o.queue with
    | none =>
      let (rows, s1) := s.readRows o.sid cluster false o.mem
      s1.mulTile o cluster t ovw rows
    | some key =>
      let n := fmtBytes (slotAFmt o.slot) m.active.klen
      let total := (o.rows * n + 4 * w - 1) / (4 * w)
      let s1 := s.popTile o.num key w total 16
      match s1.mx.ops.find? fun x => x.num = o.num with
      | some o1 => if total ≤ o1.moved then (s1.mulTile o1 cluster t ovw (cutRows o1.bytes n o.rows)).changed key else s1
      | none => s1
  | .new | .rel =>
    match o.tile with
    | none => s.tileDone o
    | some t => ((s.setTile cluster t []).onMat tcx fun m => { m with releasing := m.releasing.erase t }).tileDone o
  | .drain z =>
    let ws := s.tile cluster t
    let zero := fun (s : State) =>
      if z then s.setTile cluster t (putRows (s.tile cluster t) o.rowBase (zeroRows o.rows)) else s
    let rows := (List.range o.rows).map (drainRow o ws)
    match o.queue with
    | none => (zero (s.writeRows o.sid cluster rows o.mem)).tileDone o
    | some key =>
      let s1 := if o.moved = 0 then s.onTileOp o.num fun x => { x with bytes := rows.flatten } else s
      let s2 := s1.pushTile o.num key w 16
      if s2.mx.ops.any fun x => x.num == o.num && x.bytes.isEmpty then ((zero s2).tileDone o).changed key else s2
  | .zero => (s.setTile cluster t (putRows (s.tile cluster t) o.rowBase (zeroRows o.rows))).tileDone o
  | .scA =>
    let (rows, s1) := s.readRows o.sid cluster false o.mem
    (s1.onMat tcx fun m => { m with aCodes := codesOf 16 rows, aBlk := slotABlk o.slot }).tileDone o
  | .scB =>
    let (rows, s1) := s.readRows o.sid cluster true o.mem
    let keep := fun (p : Plane) => p.codes.filter fun e => decide (128 * o.rows ≤ e.1)
    (s1.onMat tcx fun m => { m with shadow := { m.shadow with codes := codesOf 128 rows ++ keep m.shadow } }).tileDone o
  | .tld =>
    let (rows, s1) := s.readRows o.sid cluster false o.mem
    (s1.setTile cluster t (putRows (s1.tile cluster t) o.rowBase (rows.map rowWords))).tileDone o

/-- TILE_OP_EXECUTE (R284). -/
def execTileOpExecute (cluster : Nat) (s : State) : Out :=
  .next (
    match s.nextTileOp cluster with
    | none => s
    | some o => (s.runTile cluster o).stopTile o)

end Sys2Proof.Machine
end

