-- ==== Sys2Proof/Machine/Loom.lean ====
section
/-! DEFINITION. Sys2Proof/Machine/Loom.lean: launch ports, acceptance of launch records, the ready pool, graph nodes, placement,
and the retirement of teams and grids (R36 to R66, R373, R374, R405, R429, R430). -/
namespace Sys2Proof.Machine

/-! ### Placement resources (R58, R59) -/

def Rec.threads (r : Rec) : Nat := r.teamX * r.teamY * r.teamZ
def Rec.teams (r : Rec) : Nat := r.gridX * r.gridY * r.gridZ
/-- Threads of a team on its lower core (0) and its upper core (1) (R58). -/
def Rec.threadsOn (r : Rec) (half : Nat) : Nat :=
  let g := r.threads / r.groupW
  if !r.paired then (if half = 0 then r.threads else 0)
  else (if half = 0 then (g + 1) / 2 else g / 2) * r.groupW

/-- A team holds storage of a core's active bank set. -/
def Team.active (t : Team) : Bool := !t.shadow && t.image.isNone
/-- The half of a team that lies on a core. -/
def Team.halfOn (t : Team) (core : Nat) : Option Nat :=
  if t.core = core then some 0 else if t.recd.paired && t.core + 1 == core then some 1 else none
/-- Teams in the active set of a core, with their halves. -/
def State.teamsOn (s : State) (core : Nat) : List (Team × Nat) :=
  s.teams.filterMap fun t => if t.active then (t.halfOn core).map fun h => (t, h) else none
def Team.queuesOn (t : Team) (h : Nat) : List Nat := if h = 0 then t.queues.1 else t.queues.2
/-- Queues reserved on a core, by teams of the active and of the shadow set (R261). -/
def State.usedQueues (s : State) (core : Nat) : List Nat :=
  s.teams.flatMap fun t => if t.image.isNone then ((t.halfOn core).map t.queuesOn).getD [] else []
def State.freeQueues (s : State) (core : Nat) : List Nat :=
  (List.range 32).filter fun q => !((s.usedQueues core).contains q)
/-- A team whose streams have not started: a gang that is being gathered (R46). -/
def State.unstarted (s : State) (t : Team) : Bool := !(s.streams.any fun st => st.id.tcx == t.tcx)
/-- The Carter of a core, or the control core of a cluster, runs a stream of a team. -/
def State.carterBusy (s : State) (core : Nat) : Bool :=
  (s.teamsOn core).any fun p =>
    (s.unstarted p.1 && p.1.recd.carterPc != 0) ||
      s.streams.any fun st => st.id.tcx == p.1.tcx && st.id.kind == .carter && st.id.unit / 4 == p.2 && !st.exited
def State.controlBusy (s : State) (cluster : Nat) : Bool :=
  s.teams.any fun t => t.active && t.cluster == cluster &&
    ((s.unstarted t && t.recd.controlPc != 0) ||
      s.streams.any fun st => st.id.tcx == t.tcx && st.id.kind == .control && !st.exited)

/-- One core passes the conditions of R59 for its share of a team. -/
def State.coreFits (s : State) (r : Rec) (core half : Nat) : Bool :=
  let ts := s.teamsOn core
  let threads := (ts.map fun p => p.1.recd.threadsOn p.2).sum
  let regs := (ts.map fun p => p.1.recd.threadsOn p.2 * p.1.recd.regs).sum
  decide (threads + r.threadsOn half ≤ Config.slots) && decide (regs + r.threadsOn half * r.regs ≤ Config.coreRegs) &&
    decide (r.qports ≤ (s.freeQueues core).length) && (r.carterPc == 0 || !s.carterBusy core) && !(s.halted.contains core)

/-- A 4 KiB segment of a cluster may go to a team of an ASID (R59, R61). -/
def State.segFree (s : State) (asid : BitVec 16) (cluster seg : Nat) : Bool :=
  let a := cluster * 2 ^ 25 + seg * 4096
  (s.vaultBad asid a 1).isNone &&
    !(s.teams.any fun t => t.recd.vaultKib != 0 && decide (t.vaultBase.toNat ≤ a) &&
      decide (a < t.vaultBase.toNat + t.recd.vaultKib * 1024))
/-- The lowest run of `n` free segments: its first segment. -/
def freeRun (free : Nat → Bool) (n : Nat) : List Nat → Nat → Option Nat
  | [], _ => none
  | x :: r, run =>
    if free x then (if n ≤ run + 1 then some (x + 1 - n) else freeRun free n r (run + 1)) else freeRun free n r 0
/-- The vault address that a team would receive in a cluster: all ones where it asks for none. -/
def State.vaultFor (s : State) (r : Rec) (cluster : Nat) : Option Word :=
  if r.vaultKib = 0 then some 0xFFFFFFFF
  else (freeRun (s.segFree r.asid cluster) (r.vaultKib / 4) (List.range 8192) 0).map fun x =>
    BitVec.ofNat 32 (cluster * 2 ^ 25 + x * 4096)

/-- The lowest TCX that no live team holds (R87). -/
def State.freeTcx (s : State) : Option Nat := (List.range 65536).find? fun n => (s.team? n).isNone

/-- The one core that may run a grid of page-fault handlers (R407). -/
def State.handlerCore (s : State) (r : Rec) : Option Nat :=
  match r.workq with
  | none => none
  | some q => (s.tr.rings.find? fun x => x.valid && (x.ctl.extractLsb' 8 8).toNat == q).map fun x => (x.ctl.extractLsb' 0 8).toNat

/-- Cores, or lower cores of pairs, that pass the resource check for the next team of a grid (R59, R64). -/
def State.candidates (s : State) (r : Rec) : List Nat :=
  if s.freeTcx.isNone then []
  else
    let cs := match s.handlerCore r with
      | some c => [c]
      | none => List.range Config.cores
    cs.filter fun c =>
      (!r.paired || c % 2 == 0) && s.coreFits r c 0 && (!r.paired || s.coreFits r (c + 1) 1) &&
        (r.controlPc == 0 || !s.controlBusy (c / 4)) && (s.vaultFor r (c / 4)).isSome

/-- The choice of R64. -/
def State.choose (s : State) (g : Grid) : Option Nat :=
  let cs := s.candidates g.recd
  let score := fun (c : Nat) => sget 0 g.scores (c / 4)
  let best := cs.foldl (fun m c => max m (score c)) 0
  let cs1 := if best = 0 then cs else cs.filter fun c => score c == best
  match cs1.find? fun c => decide (g.pos ≤ c) with
  | some c => some c
  | none => cs1.head?

/-! ### COTEAM admission (R45) -/

/-- Teams of a record that an empty core holds, for a half of a team. -/
def Rec.perCore (r : Rec) (half : Nat) : Nat :=
  let n := r.threadsOn half
  let byQueues := if r.qports = 0 then 2048 else 32 / r.qports
  let byCarter := if r.carterPc = 0 then 2048 else 1
  let byThreads := if n = 0 then 2048 else min (Config.slots / n) (Config.coreRegs / (n * r.regs))
  min byThreads (min byQueues byCarter)
/-- Runs of segments that the shares of a cluster give an ASID, when no team holds any. -/
def runsOf (free : Nat → Bool) (n : Nat) : List Nat → Nat → Nat
  | [], run => run / n
  | x :: r, run => if free x then runsOf free n r (run + 1) else run / n + runsOf free n r 0
/-- Teams of a record that a cluster holds when it holds no other work; a halted core holds none (R45; log entry 109). -/
def State.clusterTeams (s : State) (r : Rec) (c : Nat) : Nat :=
  let only := s.handlerCore r
  let ok := fun (k : Nat) => !(s.halted.contains k) && (match only with | some x => x == k | none => true)
  let cores := if r.paired then
      ((List.range 2).map fun i =>
        if ok (4 * c + 2 * i) && !(s.halted.contains (4 * c + 2 * i + 1)) then min (r.perCore 0) (r.perCore 1) else 0).sum
    else ((List.range 4).map fun i => if ok (4 * c + i) then r.perCore 0 else 0).sum
  let vault := if r.vaultKib = 0 then cores
    else runsOf (fun x => (s.vaultBad r.asid (c * 2 ^ 25 + x * 4096) 1).isNone) (r.vaultKib / 4) (List.range 8192) 0
  min cores (min vault (if r.controlPc = 0 then cores else 1))
/-- Every team of the grid can be resident at once when the device holds no other work. -/
def State.admits (s : State) (r : Rec) : Bool :=
  decide (r.teams ≤ 65536) && decide (r.teams ≤ ((List.range Config.clusters).map (s.clusterTeams r)).sum)

/-! ### The ready pool (R41 to R43) -/

/-- Grids that still hold an entry. -/
def Grid.waiting (g : Grid) : Bool := decide (g.next < g.recd.teams)
/-- Room at a level: an entry free, and no record held for it (R41). -/
def State.levelRoom (s : State) (l : Nat) : Bool :=
  decide ((s.loom.grids.filter fun g => g.level == l && g.waiting).length < 1024)
def State.onGrid (s : State) (id : Nat) (f : Grid → Grid) : State :=
  { s with loom := { s.loom with grids := s.loom.grids.map fun g => if g.id = id then f g else g } }
def State.grid? (s : State) (id : Nat) : Option Grid := s.loom.grids.find? fun g => g.id = id

/-- The head of level 3: since when it has stood there; no other grid has (R43). -/
def State.noteHead (s : State) : State :=
  let hs := s.loom.grids.filter fun g => g.level == 3 && g.waiting
  let head := (hs.find? fun g => hs.all fun h => decide (g.seq ≤ h.seq)).map (·.id)
  let now := s.clock.gtsQ
  let f := fun (g : Grid) =>
    if some g.id = head then (if g.head.isSome then g else { g with head := some now }) else { g with head := none }
  { s with loom := { s.loom with grids := s.loom.grids.map f } }

/-- The answer of a `launch` to its lanes: D, and the next instruction (R373). -/
def State.answerLaunch (s : State) (ids : List SId) (d : Reg) (w : Word) : State :=
  s.onLanes ids fun st => match st.park with
    | .launch _ none => (st.wr d w).goto (st.pc + 8)
    | _ => st

/-- The report of a checked record to the port it came from (R39). -/
def State.portReport (s : State) (fn n : Nat) (w : Word) : State :=
  (s.onPort fn n fun p => { p with lastReject := w, readCount := (p.readCount + 1) % 65536 }).portIrq fn n
    (w.extractLsb' 0 8 != 0)

/-- A grid enters the pool, at the tail of its level. -/
def State.enterGrid (s : State) (g : Grid) : State :=
  let g1 := { g with seq := s.loom.nextSeq, since := s.clock.gtsQ }
  let s1 := { s with loom := { s.loom with grids := s.loom.grids ++ [g1], nextSeq := s.loom.nextSeq + 1 } }.noteHead
  match g.origin with
  | .port fn n => s1.portReport fn n 0
  | .thread ids d => s1.answerLaunch ids d 0
  | .node _ => s1

/-- ERROR into the usable DONE_CTR of a record that does not run (R40). -/
def State.failDone (s : State) (fn : Nat) (asid : BitVec 16) (done : Option DWord) : State :=
  match done with
  | some c => s.bump fn asid c 0 true
  | none => s

/-- A rejected record, with the DONE_CTR of its copy (R39, R40, R50). -/
def State.rejectLaunch (s : State) (fn : Nat) (asid : BitVec 16) (done : Option DWord) (o : Origin) (w : Word) : State :=
  let s1 := s.failDone fn asid done
  match o with
  | .port fn n => s1.portReport fn n w
  | .thread ids d => s1.answerLaunch ids d w
  | .node n => s1.nodeFail n 0 w

/-- A grid refused at admission (R45). -/
def State.refuseLaunch (s : State) (fn : Nat) (asid : BitVec 16) (done : Option DWord) (o : Origin) : State :=
  let s1 := s.failDone fn asid done
  let w := rejectWord kLaunch rRange 8
  match o with
  | .port fn n =>
    let was := (s1.port fn n).refused
    ((s1.portReport fn n 0).onPort fn n fun p => { p with refused := true }).portIrq fn n !was
  | .thread ids d => s1.answerLaunch ids d w
  | .node n => s1.nodeFail n 0 w

/-- The collective of an accepted record: joined, or opened (R375). -/
def State.bindColl (s : State) (fn : Nat) (asid : BitVec 16) (r : Rec) (d : Option CollDesc) : Option Nat × State :=
  match d with
  | none => (none, s)
  | some d => match s.instOf asid r.coll with
    | some i => (some i.num, s)
    | none => (some s.co.nextNum, s.openInst fn asid r.coll d none none false)

/-- A record that has passed its checks: admission, the collective, then the pool, or held for want of an entry. `name` is what
LAUNCH_LO and LAUNCH_HI read: the address as the launch gave it (R66). -/
def State.acceptLaunch (s : State) (fn : Nat) (asid : BitVec 16) (name : DWord) (o : Origin) (info : LaunchInfo)
    (regions : List Region) : State :=
  let r := { info.recd with addr := name }
  if r.coteam && !s.admits r then s.refuseLaunch fn asid (if r.doneCtr = 0 then none else some r.doneCtr) o
  else
    let (inst, s1) := s.bindColl fn asid r info.coll
    let g : Grid :=
      { id := s1.loom.nextGrid, origin := o, fn := fn, recd := r, level := r.level, seq := 0, since := 0, head := none
        reserved := false, scores := s1.affinity fn asid regions, next := 0, pos := 0, retired := 0, failed := none, failedAt := (0, 0)
        inst := inst, exits := [] }
    let s2 := { s1.touchRegions fn asid regions with loom := { s1.loom with nextGrid := s1.loom.nextGrid + 1 } }
    if s2.levelRoom r.level && !(s2.loom.held.any fun h => h.level == r.level) then s2.enterGrid g
    else { s2 with loom := { s2.loom with held := s2.loom.held ++ [g] } }

/-- Loom reads, checks and accepts or rejects a record (R39, R52). -/
def State.submit (s : State) (fn : Nat) (asid : BitVec 16) (a name : DWord) (o : Origin) : State :=
  match (readLaunch fn asid a).run s with
  | (.error w, s1) => s1.rejectLaunch fn asid none o w
  | (.ok bs, s1) => match (launchOf fn asid a true bs).run s1 with
    | (.error w, s2) => s2.rejectLaunch fn asid (doneCtrOf bs) o w
    | (.ok info, s2) => s2.acceptLaunch fn asid name o info info.regions

/-- HELD_RECORD_ENTER (R41): the first record held for a level enters when an entry is free. -/
def execHeldRecordEnter (level : Nat) (s : State) : Out :=
  .next (
    match s.loom.held.find? fun g => g.level = level with
    | none => s
    | some g =>
      if s.levelRoom level then
        { s with loom := { s.loom with held := s.loom.held.filter fun h => h.id ≠ g.id } }.enterGrid g
      else s)

/-- GRID_PROMOTE (R43): after 10 ms at one level without a team placed; it stays while the next level is full (log entry 109). -/
def execGridPromote (grid : Nat) (s : State) : Out :=
  .next (
    match s.grid? grid with
    | none => s
    | some g =>
      if g.waiting && decide (g.level < 3) && decide (g.since + 40000000 ≤ s.clock.gtsQ) && s.levelRoom (g.level + 1) then
        let s1 := s.onGrid grid fun g => { g with level := g.level + 1, seq := s.loom.nextSeq, since := s.clock.gtsQ }
        { s1 with loom := { s1.loom with nextSeq := s1.loom.nextSeq + 1 } }.noteHead
      else s)

/-- GRID_RESERVE (R43): after 1 ms at the head of level 3. -/
def execGridReserve (grid : Nat) (s : State) : Out :=
  .next (
    match s.grid? grid with
    | none => s
    | some g => match g.head with
      | some t =>
        if g.level == 3 && g.waiting && decide (t + 4000000 ≤ s.clock.gtsQ) then s.onGrid grid fun g => { g with reserved := true }
        else s
      | none => s)

/-! ### Placement (R42, R46, R60 to R66) -/

/-- A COTEAM grid whose gang is being gathered (R46). -/
def Grid.gathering (g : Grid) : Bool := g.recd.coteam && decide (0 < g.next) && g.waiting
/-- Placement is open to a grid: no other has reserved it, and no gang of its level or a higher one is being gathered. A gang that
is being gathered goes on against a reservation, since the grid that has made it may wait for the gang (R43; log entry 109). -/
def State.placeable (s : State) (g : Grid) : Bool :=
  g.waiting && !(s.loom.grids.any fun h => h.id != g.id &&
    ((h.reserved && h.waiting && !g.gathering) || (h.gathering && decide (g.level ≤ h.level))))
/-- A grid is offered placement before another (R42). -/
def Grid.before (g h : Grid) : Bool := decide (h.level < g.level) || (g.level == h.level && decide (g.seq < h.seq))
/-- Its turn: every grid offered before it fits no core. -/
def State.itsTurn (s : State) (g : Grid) : Bool :=
  s.placeable g && s.loom.grids.all fun h => !(h.before g && s.placeable h && (s.choose h).isSome)

/-- The streams of a team at their start (R57, R65, R403). -/
def State.teamStreams (s : State) (t : Team) : List Stream :=
  let vec := (s.fn t.fn).defVec
  let mk := fun (k : Kind) (u : Nat) (pc : DWord) => newStream ⟨t.tcx, k, u⟩ pc vec s.clock.cycles
  (List.range t.size).map (fun i => mk .lane i t.recd.kernelPc) ++
    (if t.recd.carterPc = 0 then [] else (List.range (if t.recd.paired then 2 else 1)).map fun c => mk .carter (4 * c) t.recd.carterPc) ++
    (if t.recd.controlPc = 0 then [] else [mk .control 0 t.recd.controlPc])
/-- The streams of a team start; RANK and NRANKS are those of the job then (R67). A team of a gang that has been ended starts none
(R405). -/
def State.startTeam (s : State) (t : Team) : State :=
  if t.ended.isSome then s
  else { (s.onTeam t.tcx fun x => { x with rank := s.rankNow t.recd.asid, nranks := s.nranksNow t.recd.asid }) with
    streams := s.streams ++ s.teamStreams t }

/-- The context tag of a core's active set; a new one where it is empty (R413). -/
def State.ctagFor (s : State) (core : Nat) (avoid : List Nat) : Nat × Bool :=
  match (s.teamsOn core).head? with
  | some (t, h) => (if h = 1 then t.ctagUp else t.ctag, false)
  | none =>
    let used := avoid ++ (s.teams.flatMap fun t => if t.recd.paired then [t.ctag, t.ctagUp] else [t.ctag]) ++
      s.images.map (·.2) ++ s.vt.flushing
    (((List.range 65536).find? fun n => !(used.contains n)).getD 0, true)

/-- Placement of the next team of a grid on a core (R60 to R65). It takes the lowest-numbered free hardware queues (log entry 123). -/
def State.placeTeam (s : State) (g : Grid) (core : Nat) : State :=
  let r := g.recd
  let tcx := s.freeTcx.getD 0
  let (tag, fresh) := s.ctagFor core []
  let (tag1, fresh1) := if r.paired then s.ctagFor (core + 1) [tag] else (0, false)
  let base := (s.vaultFor r (core / 4)).getD 0
  let q0 := (s.freeQueues core).take r.qports
  let q1 := if r.paired then (s.freeQueues (core + 1)).take r.qports else []
  let bind := (List.range r.qports).map fun i => (i, i)
  let n := g.next
  let t : Team := { blankTeam tcx with
    grid := g.id, fn := g.fn, tx := n % r.gridX, ty := n / r.gridX % r.gridY, tz := n / (r.gridX * r.gridY), core := core
    ctag := tag, ctagUp := tag1, recd := r, vaultBase := base, queues := (q0, q1), binds := (bind, if r.paired then bind else [])
    lastIssue := s.gts }
  let s1 := if r.vaultKib = 0 then s else s.fillVault base.toNat (r.vaultKib * 1024)
  let form := fun (s : State) (tag : Nat) => { s with pm := sset blankPm s.pm tag { blankPm with since := some s.clock.cycles } }
  let s2 := (if fresh then [tag] else []).foldl form ((if fresh1 then [tag1] else []).foldl form s1)
  let clear := (q0.map fun q => 32 * core + q) ++ q1.map fun q => 32 * (core + 1) + q
  let s3 := clear.foldl (fun s k => s.setQueue k []) { s2 with teams := s2.teams ++ [t] }
  let step := if r.paired then 2 else 1
  let s4 := (s3.onGrid g.id fun g =>
    { g with next := n + 1, pos := (core + step) % 192, since := s.clock.gtsQ, head := none, reserved := false }).noteHead
  if !r.coteam then s4.startTeam t
  else if n + 1 = r.teams then (s4.teams.filter fun x => x.grid == g.id).foldl State.startTeam s4
  else s4

/-- PLACE_TEAM (R60, R64): one placement in a core cycle, and none after a retirement, whose resources count from the next cycle
on. -/
def execPlaceTeam (grid : Nat) (s : State) : Out :=
  let now := some s.clock.cycles
  .next (
    match s.grid? grid with
    | none => s
    | some g =>
      if s.fw.recovery || !s.itsTurn g || s.loom.placed == now || s.loom.retired == now then s
      else match s.choose g with
        | some core => { s.placeTeam g core with loom := { (s.placeTeam g core).loom with placed := now } }
        | none => s)

/-! ### Launch ports (R36 to R39) -/

def State.badWrite (s : State) (fn n : Nat) : State := s.onPort fn n fun p => { p with badWrite := true }
def portExists (fn n : Nat) : Bool := decide (fn ≤ 64) && decide (n < 64)
/-- The BARs of a function accept writes: it is configured (R433), and the device is not in recovery (R443). -/
def State.barsOpen (s : State) (fn : Nat) : Bool := (s.fn fn).v && !s.fw.recovery

/-- A write to LP_SUBMIT. -/
def State.submitWrite (s : State) (fn n size : Nat) (v : DWord) : State :=
  let p := s.port fn n
  if size ≠ 8 || !p.enable || v.toNat % 256 ≠ 0 then s.badWrite fn n
  else if 16 ≤ p.fifo.length then (s.onPort fn n fun p => { p with overflow := true }).portIrq fn n !p.overflow
  else s.onPort fn n fun p => { p with fifo := p.fifo ++ [v] }
/-- LP_SUBMIT (R38). -/
def execLpSubmit (fn port size : Nat) (value : DWord) (s : State) : Out :=
  .next (if portExists fn port && s.barsOpen fn then s.submitWrite fn port size value else s)

/-- A write to LP_CONFIG through the BAR 2 of function `via` (R37). -/
def State.configWrite (s : State) (via fn n size : Nat) (v : DWord) : State :=
  if size ≠ 8 || via ≠ 0 || !s.ownsAsid fn (v.extractLsb' 0 16).toNat then s.badWrite fn n
  else s.onPort fn n fun p =>
    { p with irqEn := v.getLsbD 28, vector := (v.extractLsb' 17 11).toNat, enable := v.getLsbD 16, asid := v.extractLsb' 0 16 }
def execLpConfig (via fn port size : Nat) (value : DWord) (s : State) : Out :=
  .next (if portExists fn port && (via == 0 || via == fn) && s.barsOpen via then s.configWrite via fn port size value else s)

/-- A port whose head submission Loom may take: nothing of it is held (R41). -/
def State.portReady (s : State) (k : Nat) : Bool :=
  !(sget blankPort s.loom.ports k).fifo.isEmpty &&
    !(s.loom.held.any fun g => match g.origin with | .port fn n => 64 * fn + n == k | _ => false)
/-- LOOM_TAKE_SUBMISSION (R38, R39): one per port and round, under the port's ASID of that moment, and whether the port is still
enabled or not; a head that is held has left the FIFO (log entry 109). -/
def execLoomTakeSubmission (fn port : Nat) (s : State) : Out :=
  .next (
    let k := 64 * fn + port
    if s.fw.recovery || !portExists fn port || !s.portReady k then s
    else
      let ready := (s.loom.ports.map (·.1)).filter s.portReady
      let served := if ready.all s.loom.served.contains then [] else s.loom.served
      if served.contains k then s
      else
        let p := s.port fn port
        let s1 := { s with loom := { s.loom with served := nins served k } }.onPort fn port fun p => { p with fifo := p.fifo.tail }
        s1.submit fn p.asid (p.fifo.headD 0) (p.fifo.headD 0) (.port fn port))

/-! ### Graph nodes (R27, R28, R47) -/

def classPlain (cl : Classes) (a : DWord) : Bool := classOk cl a && a.extractLsb' 32 32 != 0x01800000#32

/-- The checks of a node's PAYLOAD by type (R28), with the source map of a COPY node: MAP is looked at here, although it lies in the
later ARG (log entry 109). An install opens no collective. The word of a HOSTSIG node may be of any class a store takes, and is
aligned as a store's (log entry 70). -/
def checkPayload (fn : Nat) (asid : BitVec 16) (typ : Nat) (p : DWord) (map : Bool) : Chk (Option TMap) := do
  match typ with
  | 1 => do
    let _ ← checkLaunch fn asid p false
    pure none
  | 2 =>
    if map then do
      let m ← checkMap fn asid p false
      pure (some m)
    else do
      need (classPlain allClasses p) kNode rClass 8
      pure none
  | 3 => do
    let _ ← checkColl fn asid p false
    pure none
  | 7 => do
    need (classPlain allClasses p) kNode rClass 8
    need (p.toNat % 4 == 0) kNode rAlign 8
    pure none
  | _ => do
    need (p == 0) kNode rsvdField 8
    pure none

def checkAux (fn : Nat) (asid : BitVec 16) (typ : Nat) (aux : DWord) (map : Bool) : Chk (Option TMap) := do
  match typ with
  | 2 =>
    if map then do
      let d ← checkMap fn asid aux true
      pure (some d)
    else do
      need (classPlain allClasses aux) kNode rClass 0x18
      pure none
  | 4 | 5 | 6 => do
    need (plain00 aux) kNode rClass 0x18
    need (aux.toNat % 4 == 0) kNode rAlign 0x18
    pure none
  | 7 => do
    need (aux.toNat / 2048 == 0) kNode rsvdField 0x18
    pure none
  | _ => do
    need (aux == 0) kNode rsvdField 0x18
    pure none

/-- The checks of ARG, and of the two maps of a COPY node against each other: MAP is the latest field they involve (R16, R29). -/
def checkArg (typ : Nat) (arg : DWord) (src dst : Option TMap) : Chk Unit := do
  match typ with
  | 2 => do
    need (arg.extractLsb' 40 23 == 0) kNode rsvdField 0x20
    need (!arg.getLsbD 63 || arg.extractLsb' 0 40 == 0) kNode rsvdField 0x20
    need (match src, dst with
      | some m, some d => d.elems == m.elems && d.elem == m.elem
      | _, _ => true) kNode rConflict 0x20
  | 6 => need (arg.toNat / 2 ^ 31 == 0) kNode rsvdField 0x20
  | 7 => need (arg.toNat / 2 ^ 32 == 0) kNode rsvdField 0x20
  | _ => need (arg == 0) kNode rsvdField 0x20

/-- The successors: a free entry or another owner is refused, and so is a value other than 0xFFFF beyond NSUCC (R27, R47). -/
def checkSuccs (bs : List Byte) (n : Nat) (owned : Nat → Bool) : List Nat → Chk Unit
  | [] => pure ()
  | i :: r => do
    let v := fld bs (0x10 + 2 * i) 2
    need (if i < n then owned v else v == 0xFFFF) kNode rRange (0x10 + 2 * i)
    checkSuccs bs n owned r

/-- NSUCC as the type allows (R28). -/
def succOk (typ n : Nat) : Bool :=
  if typ = 4 || typ = 5 then n == 2 else if typ = 8 then n == 0 else decide (n ≤ 4)

/-- A graph node read and checked (R27, R28, R47): entry `idx` of an install. At offset 0 the entry is looked at before the word's own
fields, and AFFINITY_PTR is used by KERNEL alone: elsewhere its form is checked and its list not read (log entry 109). -/
def checkNode (fn port : Nat) (asid : BitVec 16) (a : DWord) (idx : Nat) (owned : Nat → Bool) : Chk Node := do
  let bs ← readRecord fn asid a 64 64 kNode
  let s ← get
  let w0 := fld bs 0 8
  let typ := bitsOf w0 0 4
  let ns := bitsOf w0 16 3
  let p := fld64 bs 8
  let aux := fld64 bs 0x18
  let arg := fld64 bs 0x20
  let aff := fld64 bs 0x28
  let map := arg.getLsbD 63
  need (fld bs 0x30 2 == asid.toNat) kNode rAsid 0x30
  need ((s.node? idx).isNone) kNode rConflict 0
  need (decide (1 ≤ typ) && decide (typ ≤ 8)) kNode rsvdValue 0
  need (bitsOf w0 4 4 == 0) kNode rsvdField 0
  need (decide (ns ≤ 4)) kNode rsvdValue 0
  need (succOk typ ns) kNode rConflict 0
  need (w0 / 2 ^ 19 == 0) kNode rsvdField 0
  let src ← checkPayload fn asid typ p map
  checkSuccs bs ns owned [0, 1, 2, 3]
  let dst ← checkAux fn asid typ aux map
  checkArg typ arg src dst
  if typ = 1 then do
    let _ ← checkAffinity fn asid aff kNode 0x28
    pure ()
  else do
    need (plain00 aff) kNode rClass 0x28
    need (aff.toNat % 64 == 0) kNode rAlign 0x28
  need (fld bs 0x32 6 == 0) kNode rsvdField 0x30
  need (fld bs 0x38 8 == 0) kNode rsvdField 0x38
  let succ := (List.range ns).map fun i => fld bs (0x10 + 2 * i) 2
  pure { idx := idx, asid := asid, fn := fn, port := port, typ := typ, npred := bitsOf w0 8 8, succ := succ, payload := p, aux := aux
         arg := arg, affinity := aff, pending := bitsOf w0 8 8, runs := 0, running := false, removing := false }

/-- The nodes of an install in ascending index: all of them, or the first rejection with its index. -/
def State.readNodes (s : State) (fn port : Nat) (asid : BitVec 16) (src : DWord) (first : Nat) (owned : Nat → Bool) :
    List Nat → Except (Nat × Word) (List Node) × State
  | [] => (.ok [], s)
  | i :: r =>
    match (checkNode fn port asid (src + BitVec.ofNat 64 (64 * i)) (first + i) owned).run s with
    | (.error w, s1) => (.error (first + i, w), s1)
    | (.ok n, s1) => match s1.readNodes fn port asid src first owned r with
      | (.error e, s2) => (.error e, s2)
      | (.ok ns, s2) => (.ok (n :: ns), s2)

/-- The node is installed under an ASID. -/
def State.ownsNode (s : State) (asid : BitVec 16) (i : Nat) : Bool := (s.node? i).any fun n => n.asid == asid

/-- A write of LP_GRAPH_CTL that starts no operation. -/
def graphRange (o : GraphOp) (i : Nat) : Bool := decide (o.first.toNat ≤ i) && decide (i < o.first.toNat + o.count.toNat)
def State.graphBad (s : State) (o : GraphOp) : Bool :=
  let p := s.port o.fn o.port
  o.size != 8 || !p.enable || p.busy || decide (65536 < o.first.toNat + o.count.toNat)
/-- FIRST and COUNT as the register holds them. -/
def State.graphRegs (s : State) (o : GraphOp) (op : Nat) (busy : Bool) : State :=
  s.onPort o.fn o.port fun p => { p with op := op, busy := busy, count := o.count.toNat, first := o.first.toNat }

/-- OP 1 (R47); COUNT 0 installs nothing (log entry 109). A rejection raises the port's vector once, although it writes a REASON and
sets LP_GRAPH_FAULT.VALID at once, and also where VALID was 1 (R39; log entry 122). -/
def State.graphInstall (s : State) (o : GraphOp) : State :=
  if s.graphBad o then s.badWrite o.fn o.port
  else
    let p := s.port o.fn o.port
    let owned := fun (i : Nat) => graphRange o i || s.ownsNode p.asid i
    match (s.graphRegs o 0 false).readNodes o.fn o.port p.asid p.graphSrc o.first.toNat owned (List.range o.count.toNat) with
    | (.error (i, w), s1) =>
      (s1.onPort o.fn o.port fun p =>
        { p with lastReject := w, gValid := true, gCause := 0, gReject := w, gNode := i }).portIrq o.fn o.port true
    | (.ok ns, s1) => { s1 with loom := { s1.loom with nodes := s1.loom.nodes ++ ns } }
def execLpGraphInstall (o : GraphOp) (s : State) : Out :=
  .next (if portExists o.fn o.port && s.barsOpen o.fn then s.graphInstall o else s)

/-- OP 2 (R47). -/
def State.graphRemove (s : State) (o : GraphOp) : State :=
  if s.graphBad o then s.badWrite o.fn o.port
  else
    let p := s.port o.fn o.port
    let f := fun (n : Node) => if graphRange o n.idx && n.asid == p.asid then { n with removing := true } else n
    let s1 := (s.graphRegs o 2 true).onPort o.fn o.port fun q => { q with gAsid := p.asid }
    { s1 with loom := { s1.loom with nodes := s.loom.nodes.map f } }
def execLpGraphRemove (o : GraphOp) (s : State) : Out :=
  .next (if portExists o.fn o.port && s.barsOpen o.fn then s.graphRemove o else s)

/-- OP 3 (R47). -/
def State.graphStart (s : State) (o : GraphOp) : State :=
  let p := s.port o.fn o.port
  if s.graphBad o || o.count != 0 then s.badWrite o.fn o.port
  else match s.node? o.first.toNat with
    | some n =>
      if n.asid ≠ p.asid then s.badWrite o.fn o.port
      else if n.removing then s.graphRegs o 0 false
      else (s.graphRegs o 0 false).readyNode n
    | none => s.badWrite o.fn o.port
def execLpGraphStart (o : GraphOp) (s : State) : Out :=
  .next (if portExists o.fn o.port && s.barsOpen o.fn then s.graphStart o else s)

/-- GRAPH_REMOVE_COMPLETE (R47): entries without a running instance are free; BUSY clears when all are. -/
def execGraphRemoveComplete (fn port : Nat) (s : State) : Out :=
  let p := s.port fn port
  .next (
    if !p.busy || p.op ≠ 2 then s
    else
      let mine := fun (n : Node) => n.removing && n.asid == p.gAsid && decide (p.first ≤ n.idx) && decide (n.idx < p.first + p.count)
      let left := s.loom.nodes.filter fun n => !mine n || n.running
      let s1 := { s with loom := { s.loom with nodes := left } }
      if left.any mine then s1 else s1.onPort fn port fun p => { p with busy := false, op := 0 })

/-! ### Node instances (R49, R50) -/

/-- A word that Loom reads for a node (R29, R50): its value, or the cause of its failure. -/
def State.nodeWord (s : State) (fn : Nat) (asid : BitVec 16) (a : DWord) : Except Cause Word × State :=
  let w := s.unit fn asid
  match s.checkPage w .load a.toNat with
  | .error e => (.error (failCause e), s.refused w .load e)
  | .ok c =>
    let s1 := s.touch w .load c
    if s1.linkDown c.loc then (.error (lostCause c.loc), s1)
    else if s1.spoiled c.loc 0 4 then (.error cPoison, s1)
    else
      let (bs, s2) := s1.readNow c.loc 0 4 none
      (.ok (BitVec.ofNat 32 (natOfBytes bs)), s2)

/-- A KERNEL node reads and checks its launch record again. -/
def State.runKernel (s : State) (n : Node) : State :=
  match (readLaunch n.fn n.asid n.payload).run s with
  | (.error w, s1) => s1.rejectLaunch n.fn n.asid none (.node n.idx) w
  | (.ok bs, s1) =>
    let chk : Chk (LaunchInfo × List Region) := do
      let info ← launchOf n.fn n.asid n.payload true bs
      let rs ← (if n.affinity = 0 then pure info.regions else checkAffinity n.fn n.asid n.affinity kNode 0x28)
      pure (info, rs)
    match chk.run s1 with
    | (.error w, s2) => s2.rejectLaunch n.fn n.asid (doneCtrOf bs) (.node n.idx) w
    | (.ok (info, rs), s2) => s2.acceptLaunch n.fn n.asid n.payload (.node n.idx) info rs

/-- A COPY node: one copy, or tensor copy with both origins zero. Maps that do not match when they are read again fault the instance
with the word of the install's check, and so do maps that differ in HALF_BYTE, of which an install says nothing (R29, R313; log entry
122). -/
def State.runCopy (s : State) (n : Node) : State :=
  let id : CopyId := ⟨nodeCore, n.idx⟩
  let c : Copy := { noCopy with id := id, tcx := 65536, sid := ⟨65536, .control, n.idx⟩, fn := n.fn, asid := n.asid }
  if n.arg.getLsbD 63 then
    let (sm, s1) := (readMap n.fn n.asid n.payload).run s
    let (dm, s2) := (readMap n.fn n.asid n.aux).run s1
    match (checkMaps sm dm).run s2 with
    | (.error w, s3) => s3.nodeFail n.idx 0 w
    | (.ok (d, m), s3) =>
      s3.issueCopy { c with kind := .tensor d m (d.box.map fun _ => 0) (m.box.map fun _ => 0), dst := d.base, len := d.elems * d.elem }
  else s.issueCopy { c with kind := .bytes n.payload, dst := n.aux, len := (n.arg.extractLsb' 0 40).toNat }

/-- A COLLECTIVE node: `coll` with its descriptor. -/
def State.runColl (s : State) (n : Node) : State :=
  if (s.instOf n.asid n.payload).isSome then s.nodeFail n.idx cIllegalOperand 0
  else match (checkColl n.fn n.asid n.payload true).run s with
    | (.error w, s1) => s1.nodeFail n.idx 0 w
    | (.ok d, s1) =>
      let num := s1.co.nextNum
      (s1.openInst n.fn n.asid n.payload d none (some n.idx) false).fireAll num

/-- A word written by Loom, of any class that a store takes (R50, R69; log entry 70): in memory, in a vault, or at a rank; it is dropped
where it cannot be written. -/
def State.unitWord (s : State) (fn : Nat) (asid : BitVec 16) (a : DWord) (bs : List Byte) : State :=
  match (a.extractLsb' 62 2).toNat with
  | 0 => s.unitWrite1 (s.unit fn asid) a.toNat 0 bs
  | 1 =>
    if a.extractLsb' 32 30 ≠ 0 || (s.vaultBad asid (a.toNat % 2 ^ 32) bs.length).isSome then s
    else s.writeNow ⟨.vault, vaultKey + a.toNat % 2 ^ 32, 0, false⟩ 0 bs
  | 2 => match s.route asid a with
    | .error _ => s
    | .ok rt =>
      let q := s.ownRequest rt.slot rt.token a
      if rt.self then (s.serve q none bs).2
      else { s with nextOp := s.nextOp + 1
                    outbox := s.outbox ++ [.request ⟨s.nextOp, rt.dest, a, rt.token, 0, bs, none, s.gts, (s.job rt.slot).jid,
                      (s.job rt.slot).rank, s.portTo rt.dest a⟩] }
  | _ => s

/-- A HOSTSIG node: the optional word, then the message. A word of class 10 is on its way when the message is sent, and is queued where
no UALink port is up too (log entry 122). -/
def State.runHostsig (s : State) (n : Node) : State :=
  let s1 := if n.payload = 0 then s else s.unitWord n.fn n.asid n.payload (bytesOfNat 4 (n.arg.toNat % 2 ^ 32))
  (s1.sendMsix n.fn (n.aux.toNat % 2048)).nodeOk n.idx

/-- The instance that runs, by type (R50). -/
def State.runNode (s : State) (n : Node) : State :=
  match n.typ with
  | 1 => s.runKernel n
  | 2 => s.runCopy n
  | 3 => s.runColl n
  | 4 | 5 =>
    match s.nodeWord n.fn n.asid n.aux with
    | (.error e, s1) => s1.nodeFail n.idx e 0
    | (.ok w, s1) => s1.nodeDone n.idx [n.succ.getD (if w = 0 then 1 else 0) 0]
  | 6 => s
  | 7 => s.runHostsig n
  | _ => s.nodeOk n.idx

/-- NODE_INSTANCE_RUN (R49, R50): the next instance of a ready node; types other than KERNEL enter at level 1 (R41). -/
def execNodeInstanceRun (node : Nat) (s : State) : Out :=
  .next (
    match s.node? node with
    | none => s
    | some n =>
      if s.fw.recovery || n.runs = 0 || n.running || n.removing || (n.typ != 1 && !s.levelRoom 1) then s
      else (s.onNode node fun x => { x with running := true }).runNode n)

/-- WAITCTR_SATISFIED (R29, R50): the cause that a counter's ERROR gives the graph fault is not stated: a free value. While the
counter cannot be read the node goes on watching it (log entry 109). -/
def execWaitctrSatisfied (node : Nat) (s : State) : Out :=
  .next (
    match s.node? node with
    | none => s
    | some n =>
      if n.typ ≠ 6 || !n.running then s
      else match s.nodeWord n.fn n.asid n.aux with
        | (.error _, _) => s
        | (.ok w, s1) =>
          if w.getLsbD 31 then { s1.nodeFail node (BitVec.ofNat 8 (Config.pick s1.free)) 0 with free := s1.free + 1 }
          else if n.arg.toNat % 2 ^ 31 ≤ w.toNat % 2 ^ 31 then s1.nodeOk node
          else s1)

/-! ### launch and gpost (R373, R374) -/

/-- Vault, device and host space. -/
def mLaunch : BitVec 5 := 0b10011

/-- `launch` (R373): earlier writes are released, the threads park, and Loom answers, at once or when an entry frees. -/
def execLaunch (g : Guard) (d s1 : Reg) (s : State) : Out :=
  let ids := s.active g
  let t := s.curTeam
  .next (
    match s.lowest g with
    | none => s.retireLanes g id
    | some low =>
      if s.nearPending ids mLaunch then s.stalled
      else
        let a := s.recordAddr low (low.rd64 s1)
        let s2 := ((s.releaseTag s.curTag).skipLanes g).onLanes ids fun st =>
          { st.parkAt (.launch d none) with pc := s.cur.pc }
        s2.submit t.fn t.recd.asid a (low.rd64 s1) (.thread ids d))

/-- `gpost` and `gpost.start` (R374). -/
def State.post (s : State) (g : Guard) (d s1 : Reg) (start : Bool) : State :=
  let ids := s.active g
  let t := s.curTeam
  match s.lowest g with
  | none => s.retireLanes g id
  | some low =>
    if s.nearPending ids 0b11111 then s.stalled
    else
      let s2 := s.releaseTag s.curTag
      let fin := fun (s : State) (v : Word) => s.retireLanes g fun st => st.wr d v
      match s2.node? (low.rd s1).toNat with
      | none => fin s2 1
      | some n =>
        if n.asid ≠ t.recd.asid then fin s2 1
        else if n.removing then fin s2 2
        else fin (if start then s2.readyNode n else s2.completeNode n) 0
def execGpost (g : Guard) (d s1 : Reg) (s : State) : Out := .next (s.post g d s1 false)
def execGpostStart (g : Guard) (d s1 : Reg) (s : State) : Out := .next (s.post g d s1 true)

/-! ### The end of a team (R405, R418) -/

/-- Queues and tiles of a saved team are held under numbers of their own: the key of a queue, and the cluster of its tiles (R414). -/
def savedQueue (tcx half q : Nat) : Nat := 32 * (192 + 2 * tcx + half) + q
def savedCluster (tcx : Nat) : Nat := 4096 + tcx

/-- Keys of a team's hardware queues, or of its queues in an image. -/
def Team.queueKeys (t : Team) : List Nat :=
  if t.image.isSome then t.queues.1.map (savedQueue t.tcx 0) ++ t.queues.2.map (savedQueue t.tcx 1)
  else (t.queues.1.map fun q => 32 * t.core + q) ++ t.queues.2.map fun q => 32 * (t.core + 1) + q
/-- The cluster under which a team's tiles are held. -/
def Team.tileCluster (t : Team) : Nat := if t.image.isSome then savedCluster t.tcx else t.cluster

/-- The matrix state of a team is released and zeroed (R301). -/
def State.dropMat (s : State) (t : Team) : State :=
  let m := s.mat t.tcx
  let s1 := (m.map.map (·.2) ++ m.releasing).foldl (fun s k => s.setTile t.tileCluster k []) s
  { s1 with mx := { s1.mx with
      mats := sset blankMat s1.mx.mats t.tcx blankMat
      ops := s1.mx.ops.filter fun o => o.sid.tcx ≠ t.tcx
      cache := s1.mx.cache.filter fun l => l.tcx ≠ t.tcx } }

/-- The streams of a team leave every list; the operations on which threads wait at vault banks go with them (R92, R405). -/
def State.dropStreams (s : State) (tcx : Nat) : State :=
  let gone := fun (o : MemOp) => o.lanes.any fun l => l.sid.tcx == tcx
  let fe := (s.ops.filter fun o => gone o && (match o.kind with | .fe _ => true | _ => false)).map (·.num)
  let keep := fun (o : MemOp) => !(fe.contains o.num)
  let unlist := fun (m : Merge) => { m with waiters := m.waiters.filter fun w => w.tcx ≠ tcx }
  { s with streams := s.streams.filter fun st => st.id.tcx ≠ tcx
           ops := pruneFences (s.ops.filter keep)
           vt := { s.vt with waiters := s.vt.waiters.filter fun n => !(fe.contains n) }
           qu := { s.qu with xfers := s.qu.xfers.filter fun x => x.sid.tcx ≠ tcx }
           tr := { s.tr with merges := s.tr.merges.map unlist } }

/-- DETAIL of TEAM_FAILED (R442). -/
def Team.detail (t : Team) (cause : Cause) : DWord :=
  BitVec.ofNat 32 (t.tx + t.recd.gridX * (t.ty + t.recd.gridY * t.tz)) ++ t.recd.asid ++ BitVec.ofNat 8 t.core ++ cause

/-- What follows the end of a team for its outstanding work (R378, R405). -/
def State.cleanTeam (s : State) (t : Team) (cause : Cause) : State :=
  let s1 := (s.onTeam t.tcx fun x => { x with cleaned := true }).dropStreams t.tcx
  let s2 := ((s1.dr.copies.filter fun c => c.tcx == t.tcx && !c.final).map (·.id)).foldl State.cancelCopy s1
  let s3 := t.queueKeys.foldl (fun s k => s.setQueue k []) (s2.dropMat t)
  let s4 := if t.recd.vaultKib = 0 then s3 else s3.fillVault t.vaultBase.toNat (t.recd.vaultKib * 1024)
  let first := fun (g : Grid) => g.failed.isNone || decide (t.endedAt < g.failedAt.1) ||
    (t.endedAt == g.failedAt.1 && decide (t.core < g.failedAt.2))
  let fail := fun (g : Grid) => if first g then { g with failed := some cause, failedAt := (t.endedAt, t.core) } else g
  let s5 := (s4.onGrid t.grid fail).reevaluate t.tcx
  let s6 := match (s5.grid? t.grid).bind (·.inst) with
    | some n => match s5.inst? n with
      | some i => s5.abortInst n cAborted i.me
      | none => s5
    | none => s5
  s6.record 1 t.core (t.detail cause)

/-- TEAM_END (R405). -/
def execTeamEnd (tcx : Nat) (cause : BitVec 8) (s : State) : Out :=
  .next (
    match s.team? tcx with
    | none => s
    | some t => if t.ended = some cause && !t.cleaned then s.cleanTeam t cause else s)

/-- CORE_UNCORRECTABLE (R418): an uncorrectable error in core state ends the team that owns it. -/
def execCoreUncorrectable (tcx : Nat) (s : State) : Out := .next (s.endTeam tcx cUncorrectable)

/-! ### Retirement (R429, R430) -/

/-- Every operation of a team's streams is done. -/
def State.teamIdle (s : State) (tcx : Nat) : Bool :=
  !(s.ops.any fun o => !o.isFence && o.lanes.any fun l => l.sid.tcx == tcx) && !(s.mx.ops.any fun o => o.sid.tcx == tcx) &&
    !(s.dr.copies.any fun c => c.tcx == tcx && !c.final)
/-- A team may retire: its last stream has exited, or it has been ended. -/
def State.mayRetire (s : State) (t : Team) : Bool :=
  s.teamIdle t.tcx &&
    (if t.ended.isSome then t.cleaned
     else !s.unstarted t && s.streams.all fun st => st.id.tcx != t.tcx || st.exited)

/-- Teams of a grid that R35 maps to a chunk. -/
def Rec.teamsOf (r : Rec) (c : Nat) : Nat :=
  ((List.range r.gridY).map fun y => ((List.range r.gridX).filter fun x => r.chunkAt x y == c).length).sum

/-- The exit of a team of a bound grid: its chunk fires with the last of them (R35, R378). -/
def State.chunkExit (s : State) (t : Team) : State :=
  match s.grid? t.grid with
  | none => s
  | some g => match g.inst with
    | none => s
    | some n =>
      let c := t.recd.chunkAt t.tx t.ty
      let k := sget 0 g.exits c + 1
      let s1 := s.onGrid g.id fun g => { g with exits := sset 0 g.exits c k }
      if k = t.recd.teamsOf c then s1.fireChunk n c else s1

/-- A team's resources are zeroed and returned (R429); the vault segment of an ended team too, now that its stores are done (R405). -/
def State.freeTeam (s : State) (t : Team) : State :=
  let s0 := if t.ended.isSome && t.recd.vaultKib != 0 then s.fillVault t.vaultBase.toNat (t.recd.vaultKib * 1024) else s
  let s1 := t.queueKeys.foldl (fun s k => s.setQueue k []) ((s0.dropStreams t.tcx).dropMat t)
  let orphan := fun (c : Copy) => if c.tcx = t.tcx then { c with tcx := 65536 } else c
  { s1 with teams := s1.teams.filter fun x => x.tcx ≠ t.tcx, dr := { s1.dr with copies := s1.dr.copies.map orphan } }

/-- TEAM_RETIRE (R429): the release of its writes, its chunk unless it was ended, its resources. -/
def execTeamRetire (tcx : Nat) (s : State) : Out :=
  .next (
    match s.team? tcx with
    | none => s
    | some t =>
      if !s.mayRetire t then s
      else
        let s1 := (s.releaseTag t.ctag).releaseTag (if t.recd.paired then t.ctagUp else t.ctag)
        let s2 := ((if t.ended.isSome then s1 else s1.chunkExit t).freeTeam t).onGrid t.grid fun g => { g with retired := g.retired + 1 }
        { s2 with loom := { s2.loom with retired := some s.clock.cycles } })

/-- GRID_RETIRE (R430): DONE_CTR, the parent node, the node whose instance the grid is. The parent is the node that holds the index
PARENT_NODE now, of whatever ASID (log entry 122). -/
def execGridRetire (grid : Nat) (s : State) : Out :=
  .next (
    match s.grid? grid with
    | none => s
    | some g =>
      if g.waiting || g.retired < g.recd.teams then s
      else
        let s1 := s.bumpIf g.fn g.recd.asid g.recd.doneCtr 1 g.failed.isSome
        let s2 := match g.recd.parent.bind s1.node? with
          | none => s1
          | some p => match g.failed with
            | some c => s1.graphFault p c 0
            | none => { s1 with loom := { s1.loom with completions := s1.loom.completions ++ [p.idx] } }
        let s3 := match g.origin, g.failed with
          | .node n, some c => s2.nodeFail n c 0
          | .node n, none => s2.nodeOk n
          | _, _ => s2
        { s3 with loom := { s3.loom with grids := s3.loom.grids.filter fun h => h.id ≠ grid }
                  gbars := sset blankBar s3.gbars grid blankBar })

end Sys2Proof.Machine
end

