-- ==== Sys2Proof/Machine/Joiner.lean ====
section
/-! DEFINITION. Sys2Proof/Machine/Joiner.lean: the Joiner's commands (R224 to R227), definition, removal and migration of
virtual caches (R230, R237 to R239), soft errors and the Sweeper (R240, R241). -/
namespace Sys2Proof.Machine

/-! ### Commands (R226, R227) -/

/-- Role codes (R224). -/
def Role.code : Role → Nat
  | .free => 0 | .vault => 1 | .member => 2 | .leaving => 3 | .failed => 4

/-- A team holds a segment in a share. -/
def State.shareHeld (s : State) (n : Nat) : Bool :=
  s.teams.any fun t => t.recd.vaultKib != 0 && decide (t.vaultBase.toNat < shareAddr n + 65536) &&
    decide (shareAddr n < t.vaultBase.toNat + t.recd.vaultKib * 1024)

/-- RESULT of a command: `arg` is bits [29:0] of JOIN_CMD; the causes in the order 1, 4, 2, 3 (R227). -/
def State.joinResult (s : State) (op arg fn : Nat) : Nat :=
  let r := (s.share arg).role
  if Config.shares ≤ arg || op = 3 then 1
  else if op = 1 && !s.ownsAsid fn s.vt.joinAsid.toNat then 4
  else if (op = 1 && r != .free) || (op = 2 && r != .vault) then 2
  else if op = 2 && s.shareHeld arg then 3
  else 0

/-- A share without a use: FREE, or FAILED after two uncorrectable errors (R224, R240). -/
def Share.idle (x : Share) : Share := { x with role := if 2 ≤ x.errors then .failed else .free, owner := 0, vcid := 0 }
/-- A share leaves its role: zeroed and full, its waiters served or turned away, then FREE or FAILED (R225, R229). -/
def State.freeShare (s : State) (n : Nat) : State :=
  ((s.fillVault (shareAddr n) 65536).turnAway (shareAddr n) 65536).setShare n (s.share n).idle
/-- A release that would succeed waits for the accesses that are still in its share (R225, R226; log entry 104). -/
def State.joinBusy (s : State) (op arg fn : Nat) : Bool :=
  op = 2 && s.joinResult op arg fn = 0 && s.vaultBusy (shareAddr arg) 65536

/-- The effect of a command that succeeds. -/
def State.joinDo (s : State) (op n : Nat) : State :=
  match op with
  | 1 => s.setShare n { s.share n with role := .vault, owner := s.vt.joinAsid, vcid := 0 }
  | 2 => s.freeShare n
  | _ => s

/-- JOIN_STAT after a command; the ROLE of a share that does not exist is not stated: a free value. -/
def State.joinStatus (s : State) (arg res : Nat) : Word :=
  let n := arg % 32768
  if Config.shares ≤ n then BitVec.ofNat 4 (Config.pick s.free % 5) ++ 0#8 ++ BitVec.ofNat 4 res ++ 0#16
  else
    let x := s.share n
    let inCache := x.role == .member || x.role == .leaving
    BitVec.ofNat 4 x.role.code ++ BitVec.ofNat 8 (if inCache then x.vcid else 0) ++ BitVec.ofNat 4 res ++
      (if x.role = .vault then x.owner else 0)

/-- One command of the Joiner, issued by a stream of a function. -/
def State.joinCommand (s : State) (op arg fn : Nat) : State :=
  let res := s.joinResult op arg fn
  let s1 := if res = 0 then s.joinDo op arg else s
  { s1 with vt := { s1.vt with joinStat := s1.joinStatus arg res }
            free := if Config.shares ≤ arg % 32768 then s1.free + 1 else s1.free }

/-- JOIN_QUERY, JOIN_GRANT and JOIN_RELEASE (R227). -/
def execJoinQuery (share : Nat) (s : State) : Out := .next (s.joinCommand 0 share 0)
def execJoinGrant (share fn : Nat) (s : State) : Out := .next (s.joinCommand 1 share fn)
def execJoinRelease (share : Nat) (s : State) : Out := .next (if s.joinBusy 2 share 0 then s else s.joinCommand 2 share 0)

/-! ### Cache definition records (R230, R237) -/

/-- The status word (R237). -/
def vcStatus (detail status : Nat) : Word := 0#8 ++ BitVec.ofNat 16 detail ++ BitVec.ofNat 8 status
def vcBadVcid : Nat := 1
def vcBusy : Nat := 2
def vcUnread : Nat := 3
def vcAlign : Nat := 4
def vcRsvd : Nat := 5
def vcShare : Nat := 6
def vcShape : Nat := 7
def vcChange : Nat := 8
def vcClass : Nat := 9

/-- The address of a record or of the counter: CLASS, then ALIGN. -/
def vcAddr (a : DWord) (align detail : Nat) : Option Word :=
  if !plain00 a then some (vcStatus detail vcClass)
  else if a.toNat % align ≠ 0 then some (vcStatus detail vcAlign)
  else none

/-- The first failure of a CDR below its map, in the order of R16. -/
def cdrHead (bs : List Byte) : Option Word :=
  let w := fld bs 0 8
  if 4 < bitsOf w 2 3 || bitsOf w 8 2 = 3 || w / 1024 ≠ 0 then some (vcStatus 0 vcRsvd)
  else if fld bs 8 6 = 0 then some (vcStatus 8 vcShape)
  else if fld bs 14 2 ≠ 0 then some (vcStatus 8 vcRsvd)
  else vcAddr (fld64 bs 0x10) 64 0x10

/-- The entries of a placement map; the lowest that cannot be read. -/
def State.readMap (s : State) (w : Who) (ptr : Nat) : List Nat → Except Word (List (List Nat)) × State
  | [] => (.ok [], s)
  | c :: r =>
    match s.unitRead w (ptr + 64 * c) 64 with
    | (none, s1) => (.error (vcStatus (0x8000 + c) vcUnread), s1)
    | (some bs, s1) => match s1.readMap w ptr r with
      | (.error e, s2) => (.error e, s2)
      | (.ok es, s2) => (.ok (bitsSet bs :: es), s2)

/-- The lowest entry that is not consistent: nonzero exactly where the mask names its cluster, and in replicated mode with
as many shares as the first named cluster (R230). -/
def mapFault (mask : Nat) (repl : Bool) (es : List (List Nat)) : Option Nat :=
  let size := ((es.find? fun e => !e.isEmpty).map List.length).getD 0
  (List.range 48).find? fun c =>
    let e := es.getD c []
    (e.isEmpty == (bitsOf mask c 1 == 1)) || (repl && !e.isEmpty && e.length != size)

def prioOf (n : Nat) : Prio := if n = 0 then .first else if n = 1 then .normal else .last
def wpolOf (n : Nat) : WPol := if n = 0 then .back else if n = 1 then .through else if n = 2 then .around else .readOnly

/-- A CDR and its map, read once and checked (R13 to R16, R230). -/
def State.readCdr (s : State) (fn : Nat) (asid : BitVec 16) (a : DWord) (vcid : Nat) : Except Word VCache × State :=
  let w := s.unit fn asid
  match s.unitRead w a.toNat 64 with
  | (none, s1) => (.error (vcStatus 0 vcUnread), s1)
  | (some bs, s1) =>
    match cdrHead bs with
    | some e => (.error e, s1)
    | none =>
      match s1.readMap w (fld64 bs 0x10).toNat (List.range 48) with
      | (.error e, s2) => (.error e, s2)
      | (.ok es, s2) =>
        let h := fld bs 0 8
        let repl := bitsOf h 7 1 == 1
        match mapFault (fld bs 8 6) repl es with
        | some c => (.error (vcStatus (0x8000 + c) vcShape), s2)
        | none =>
          if fld bs 0x18 40 ≠ 0 then (.error (vcStatus 0x18 vcRsvd), s2)
          else
            let map := (List.range 48).filterMap fun c =>
              if (es.getD c []).isEmpty then none else some (c, es.getD c [])
            (.ok { vcid := vcid, fill := prioOf (bitsOf h 8 2), repl := repl, wpol := wpolOf (bitsOf h 5 2)
                   assoc := 2 ^ bitsOf h 2 3, line := 64 * 2 ^ bitsOf h 0 2, map := map, state := .defined }, s2)

/-- BAD_VCID or BUSY (R237); during a migration or a removal every instruction on the VCID finds BUSY (R239). -/
def State.vcidFault (s : State) (vcid : Nat) (define remove : Bool) : Option Word :=
  if vcid = 0 then some (vcStatus 0 vcBadVcid)
  else match s.cache? vcid with
    | none => if define then none else some (vcStatus 0 vcBadVcid)
    | some c =>
      if c.state != .defined then some (vcStatus 0 vcBusy)
      else if define || (remove && vcid == 1) then some (vcStatus 0 vcBadVcid)
      else none

/-- A share becomes MEMBER of a cache. -/
def State.joinCache (s : State) (vcid n : Nat) : State := s.setShare n { s.share n with role := .member, owner := 0, vcid := vcid }

/-- The definition of a cache: the status and the state (R238). -/
def State.define (s : State) (fn : Nat) (asid : BitVec 16) (a : DWord) (vcid : Nat) : Word × State :=
  match s.vcidFault vcid true false with
  | some e => (e, s)
  | none =>
    match vcAddr a 64 0 with
    | some e => (e, s)
    | none =>
      match s.readCdr fn asid a vcid with
      | (.error e, s1) => (e, s1)
      | (.ok c, s1) =>
        match c.shares.find? fun n => (s1.share n).role != .free with
        | some n => (vcStatus n vcShare, s1)
        | none =>
          let s2 := c.shares.foldl (fun s n => s.joinCache vcid n) s1
          (vcStatus 0 0, { s2 with vt := { s2.vt with caches := s2.vt.caches ++ [c] } })

/-- R238. -/
def execVcdef (g : Guard) (d s1 : Reg) (vcid : BitVec 8) (s : State) : Out :=
  let t := s.curTeam
  .next (
    match s.lowest g with
    | none => s.retireLanes g id
    | some low =>
      let (w, s2) := s.define t.fn t.recd.asid (s.recordAddr low (low.rd64 s1)) vcid.toNat
      s2.retireLanes g fun st => st.wr d w)

/-- R238: the VCID is undefined for new lookups from here on; the issuing threads stall until the cache has drained. -/
def execVcdefRm (g : Guard) (d : Reg) (vcid : BitVec 8) (s : State) : Out :=
  let ids := s.active g
  .next (
    match s.lowest g with
    | none => s.retireLanes g id
    | some _ => match s.vcidFault vcid.toNat false true with
      | some e => s.retireLanes g fun st => st.wr d e
      | none =>
        ((s.onCache vcid.toNat fun c => { c with state := .removing }).skipLanes g).onLanes ids fun st =>
          { st.parkAt (.vcrm vcid.toNat d) with pc := s.cur.pc })

/-- Accesses that are in the shares of a cache. -/
def State.vcInUse (s : State) (vcid : Nat) : Bool := s.ops.any fun o => !o.isFence && o.loc.vcid == vcid && vcid != 0

/-- VC_REMOVE_DRAIN (R238): dirty lines written back, every share zeroed and FREE, the status written. -/
def execVcRemoveDrain (vcid : Nat) (s : State) : Out :=
  .next (
    match s.cache? vcid with
    | none => s
    | some c =>
      if c.state != .removing || s.vcInUse vcid then s
      else
        let mine := fun (l : Line) => l.vcid == vcid
        let s1 := c.shares.foldl State.freeShare ((s.writeBack mine).dropLines mine)
        let s2 := { s1 with vt := { s1.vt with caches := s1.vt.caches.filter fun x => x.vcid ≠ vcid } }
        let done := fun (st : Stream) => match st.park with
          | .vcrm v d => if v = vcid then (st.wr d (vcStatus 0 0)).goto (st.pc + 8) else st
          | _ => st
        { s2 with streams := s2.streams.map done })

/-! ### Migration (R239) -/

/-- A cluster leaves a replicated cache: its dirty lines are written back, its sharer bit is cleared, and the segment is in
transit until the step ends (R234, R239). -/
def State.leaveReplica (s : State) (vcid c : Nat) : State :=
  let mine := fun (l : Line) => l.vcid == vcid && l.rep == some c
  let other := fun (seg : Nat) => s.vt.lines.any fun l => l.vcid != vcid && l.inSeg seg && l.rep == some c
  let leave := fun (d : Dir) => match d with
    | .S set => if c ∈ set then transit (dirOfSharers (ndel set c)) else d
    | .O o => if o = c then transit .I else d
    | .T set o => .T (ndel set c) (if o = some c then none else o)
    | .I => .I
  let s1 := (s.writeBack mine).dropLines mine
  s1.vt.dirs.foldl (fun s e => if other e.1 then s else s.setDir e.1 (leave e.2)) s1

/-- The Joiner step of `vcmig`: `c` is the cache as it was, `n` as its new CDR gives it; the lines that stay take their places under the
new map and associativity (log entry 10). ERROR rises where a line that is written
back is poisoned, as in all that follows of the migration. -/
def State.migrate (s : State) (c n : VCache) (asid : BitVec 16) (counter : DWord) : State :=
  let added := n.shares.filter fun x => (s.share x).role == .free
  let gone := c.shares.filter fun x => !(n.shares.contains x) && (s.share x).role == .member
  let s1 := added.foldl (fun s x => s.joinCache c.vcid x) s
  let s2 := gone.foldl (fun s x => s.setShare x { s.share x with role := .leaving }) s1
  let lost := (c.map.map (·.1)).filter fun k => !((n.map.map (·.1)).contains k)
  let new := { c with fill := n.fill, assoc := n.assoc, map := n.map, state := .migrating asid counter false }
  let s3 := s2.onCache c.vcid fun _ => new
  let s4 := if c.repl then lost.foldl (fun s k => s.leaveReplica c.vcid k) s3 else s3
  s4.rehome c.vcid

/-- `vcmig`: the status and the state; the checks of the counter's address come after those of the CDR's. -/
def State.startMigration (s : State) (fn : Nat) (asid : BitVec 16) (a counter : DWord) (vcid : Nat) : Word × State :=
  match s.vcidFault vcid false false with
  | some e => (e, s)
  | none =>
    match (vcAddr a 64 0).orElse fun _ => if counter = 0 then none else vcAddr counter 4 0 with
    | some e => (e, s)
    | none =>
      match s.readCdr fn asid a vcid with
      | (.error e, s1) => (e, s1)
      | (.ok n, s1) => match s1.cache? vcid with
        | none => (vcStatus 0 vcBadVcid, s1)
        | some c =>
          if n.line ≠ c.line || n.repl != c.repl || n.wpol != c.wpol then (vcStatus 0 vcChange, s1)
          else
            let ok := fun (x : Nat) => (s1.share x).role == .free || ((s1.share x).role == .member && (s1.share x).vcid == vcid)
            match n.shares.find? fun x => !ok x with
            | some x => (vcStatus x vcShare, s1)
            | none => (vcStatus 0 0, s1.migrate c n asid counter)

/-- R239. -/
def execVcmig (g : Guard) (d s1 s2 : Reg) (vcid : BitVec 8) (s : State) : Out :=
  let t := s.curTeam
  .next (
    match s.lowest g with
    | none => s.retireLanes g id
    | some low =>
      let ctr := if s2 = 0 then 0 else s.recordAddr low (low.rd64 s2)
      let (w, s3) := s.startMigration t.fn t.recd.asid (s.recordAddr low (low.rd64 s1)) ctr vcid.toNat
      s3.retireLanes g fun st => st.wr d w)

/-- The line in a LEAVING share may move: a way of its new set holds no dirty line of higher priority (R239). -/
def State.mayMove (s : State) (c : VCache) (l : Line) : Bool :=
  let ls := s.vt.lines.filter (s.inSet c l.rep (c.setOf l.base (s.fillShares c l.rep).length))
  decide (ls.length < c.assoc) || ls.any fun x => !(x.dirty && decide (Prio.rank l.prio < Prio.rank x.prio))

/-- VCMIG_SWEEP (R239): one line in a LEAVING share moves, or is written back and dropped. -/
def execVcmigSweep (vcid base : Nat) (s : State) : Out :=
  .next (
    match s.cache? vcid with
    | none => s
    | some c =>
      match s.vt.lines.find? fun l => l.vcid = vcid && l.base = base && (s.share l.share).role == .leaving with
      | none => s
      | some l =>
        let p := fun (x : Line) => x.vcid == vcid && x.base == base && x.rep == l.rep
        if s.mayMove c l && !(s.fillShares c l.rep).isEmpty then s.moveLine c l.rep base
        else (s.writeBack p).dropLines p)

/-- LEAVING shares of a cache. -/
def State.leavingShares (s : State) (vcid : Nat) : List Nat :=
  (s.vt.shares.filterMap fun e => match e.2 with
    | some x => if x.role = .leaving ∧ x.vcid = vcid then some e.1 else none
    | none => none)

/-- MIGRATION_END (R239). -/
def execMigrationEnd (vcid : Nat) (s : State) : Out :=
  .next (
    match s.cache? vcid with
    | none => s
    | some c => match c.state with
      | .migrating asid k e =>
        let ls := s.leavingShares vcid
        if s.vt.lines.any fun l => l.vcid == vcid && ls.contains l.share then s
        else
          let s1 := (ls.foldl State.freeShare s).onCache vcid fun x => { x with state := .defined }
          s1.bumpIf (s1.fnOf asid) asid k 1 e
      | _ => s)

/-! ### Soft errors (R240) -/

/-- SHARE_FAILED is recorded at the second error (R240, R442). -/
def State.countError (s : State) (n : Nat) : State :=
  let x := { s.share n with errors := (s.share n).errors + 1 }
  let s1 := s.setShare n x
  if x.errors = 2 then s1.record 3 0x401 (BitVec.ofNat 64 (shareAddr n)) else s1

/-- A line of a withdrawn share moves to the present placement as in a migration, or is written back and dropped (R239,
R240). -/
def State.withdrawLine (s : State) (l : Line) : State :=
  let p := fun (x : Line) => x.vcid == l.vcid && x.base == l.base && x.rep == l.rep
  match s.cache? l.vcid with
  | none => (s.writeBack p).dropLines p
  | some c =>
    if s.mayMove c l && !(s.fillShares c l.rep).isEmpty then s.moveLine c l.rep l.base else (s.writeBack p).dropLines p
/-- A share in no use or in a cache is FAILED at its second error; a MEMBER or LEAVING share is withdrawn at once, and where a MEMBER
share is lost the lines of the remaining ones take their places among them first (R231, R240). -/
def State.failShare (s : State) (n : Nat) : State :=
  let x := s.share n
  if x.errors < 2 then s
  else match x.role with
    | .free => s.setShare n x.idle
    | .member | .leaving =>
      let s1 := s.setShare n { x with role := .failed, owner := 0, vcid := 0 }
      let s2 := if x.role = .member then s1.rehome x.vcid else s1
      (s2.vt.lines.filter fun l => l.share == n).foldl State.withdrawLine s2
    | _ => s

/-- An uncorrectable error in a vault word: every team of the owner that holds the line ends; else only a record is made,
whose source is not stated: a free value (R240). The word keeps its error until it is written (log entry 112). -/
def State.vaultError (s : State) (a : Nat) : State :=
  let x := s.share (shareOf a)
  let lo := a / 128 * 128
  let holds := fun (t : Team) => t.recd.asid == x.owner && t.recd.vaultKib != 0 && decide (t.vaultBase.toNat < lo + 128) &&
    decide (lo < t.vaultBase.toNat + t.recd.vaultKib * 1024)
  let ts := if x.role = .vault then (s.teams.filter holds).map (·.tcx) else []
  let s0 := { s with vt := { s.vt with broken := nins s.vt.broken (a / 4 * 4) } }
  let s1 := if ts.isEmpty then
      { s0.record 2 (pickSource (Config.pick s.free)) (BitVec.ofNat 64 a) with free := s.free + 1 }
    else ts.foldl (fun s t => s.endTeam t cUncorrectable) s0
  (s1.countError (shareOf a)).failShare (shareOf a)

/-- A granule is poisoned at the home slice. -/
def State.poison (s : State) (k : Nat) : State :=
  { s with vt := { s.vt with poison := nins s.vt.poison (k / 32 * 32) } }

/-- An uncorrectable error in a line of a replica: a clean line is dropped; of a dirty one the granule goes back poisoned with the rest
(R239, R240). -/
def State.lineError (s : State) (vcid : Nat) (rep : Option Nat) (k : Nat) : State :=
  match s.line? vcid rep k with
  | none => s
  | some l =>
    let p := fun (x : Line) => x.vcid == vcid && x.rep == rep && x.base == l.base
    let s1 := s.onLines p fun x => { x with bad := if x.dirty then nins x.bad (k / 32 * 32) else x.bad }
    let s2 := (s1.writeBack p).dropLines p
    (s2.countError l.share).failShare l.share

/-- UNCORRECTABLE_ERROR (R240). -/
def execUncorrectableError (site : ErrSite) (s : State) : Out :=
  .next (
    match site with
    | .vault a => if shareOf a < Config.shares then s.vaultError a else s
    | .cacheLine v rep k => s.lineError v rep k
    | .hbm pa => s.poison pa)

/-- SWEEPER_PASS (R241): it never changes a value, a bit, a priority or a state, and wakes no waiter. -/
def execSweeperPass (_share : Nat) (s : State) : Out := .next s

end Sys2Proof.Machine
end

