-- ==== Sys2Proof/Machine/Mmu.lean ====
section
/-! DEFINITION. Sys2Proof/Machine/Mmu.lean: page walks, fault records and runahead (R79, R406 to R409), `fresume`, `tlbinv` and
`tlbsync` (R410 to R412). -/
namespace Sys2Proof.Machine

/-! ### Page walks (R79, R84, R88) -/

/-- The TLB of a holder, its die, and the privilege that the ASID gives. -/
def State.holderWho (s : State) (h : Holder) (asid : BitVec 16) : Who :=
  let fn := s.fnOf asid
  let priv := (s.fn fn).privV && (s.fn fn).privAsid == asid
  match h with
  | .core c => ⟨.core c, c / 48, asid, priv⟩
  | .dray d => ⟨.dray d, d / 64, asid, priv⟩

/-- An access that its agent is about to make: the fetch of a stream that is not parked, or the next byte of a copy (R84). -/
def State.aboutTo (s : State) (who : Holder) (asid : BitVec 16) (va : DWord) (write : Bool) : Bool :=
  match who with
  | .core c => !write && s.streams.any fun st =>
      let t := s.team st.id.tcx
      !st.exited && st.park == .none && st.pc == va && t.recd.asid == asid && t.active && t.coreOf st.id == c
  | .dray d => s.dr.copies.any fun c => c.going && c.dray == some d && c.asid == asid &&
      (match c.todo[c.moved]? with
        | some (x, f) => if write then x == va else f == .mem va
        | none => false)

/-- PAGE_WALK (R79): the walk of an access that its agent is about to make, before the step of the access; its result goes to the
last-level TLB and to the holder's cache, with A set, and D for a write (R84; log entry 77). A walk whose access the translation or its
permission refuses leaves everything to that step. -/
def execPageWalk (who : Holder) (asid : BitVec 16) (va : DWord) (write : Bool) (s : State) : Out :=
  let w := s.holderWho who asid
  let ak : AK := match who with
    | .core _ => .fetch
    | .dray _ => if write then .store else .load
  .next (
    if va.extractLsb' 57 7 ≠ 0 || !s.aboutTo who asid va write then s
    else match s.checkPage w ak va.toNat with
      | .ok c => s.touch w ak c
      | .error _ => s)

/-! ### Fault records (R407 to R409) -/

/-- Physical address of a die's ring. -/
def FaultRing.base (r : FaultRing) : Nat := (r.hi.toNat % 256) * 2 ^ 32 + r.lo.toNat / 65536 * 65536
/-- The second word of a record. -/
def Merge.word8 (m : Merge) : DWord :=
  0#12 ++ BitVec.ofNat 10 m.idx ++ BitVec.ofNat 2 m.die ++ BitVec.ofNat 8 m.core ++ BitVec.ofNat 4 m.kind ++
    bit m.malformed ++ BitVec.ofNat 3 m.level ++ m.cause ++ m.asid
/-- The 64 bytes of a record (R408). -/
def Merge.bytes (m : Merge) (now : Nat) : List Byte :=
  bytesOfNat 8 m.va ++ bytesOfNat 8 m.word8.toNat ++ bytesOfNat 8 now ++ bytesOfNat 8 m.seq ++
    bytesOfNat 8 (if m.kind < 4 then m.pc.toNat else 0) ++ bytesOfNat 24 0
/-- The announced value (R409). -/
def Merge.announce (m : Merge) : Word := 0#2 ++ BitVec.ofNat 20 m.seq ++ BitVec.ofNat 10 m.idx

def State.onMerge (s : State) (die idx : Nat) (f : Merge → Merge) : State :=
  { s with tr := { s.tr with merges := s.tr.merges.map fun m => if m.die = die && m.idx = idx then f m else m } }

/-- FAULT_RECORD_EMIT (R409): the record is written, then its value pushed; a push waits while the queue has no room or is not
open. -/
def execFaultRecordEmit (die entry : Nat) (s : State) : Out :=
  .next (
    match s.tr.merges.find? fun m => m.die = die && m.idx = entry with
    | none => s
    | some m =>
      let r := s.ring die
      let s1 := if m.written then s
        else (s.writeHome (r.base + 64 * entry) (m.bytes s.gts)).onMerge die entry fun m => { m with written := true }
      let n := (r.ctl.extractLsb' 8 8).toNat
      let q := s1.wq n
      if m.pushed || !q.isOpen || wqSize ≤ q.entries.length then s1
      else (s1.wqAppend n [m.announce]).onMerge die entry fun m => { m with pushed := true })

/-! ### Runahead (R406) -/

/-- The page on which an access of the run-ahead fails, and how: a load's or a store's. -/
def State.aheadFails (s : State) (st : Stream) (p : DWord × Bool) : Option (Nat × XFail) :=
  match s.check st (if p.2 then .store else .load) class00 p.1 1 1 with
  | .error (.page va f) => some (va, f)
  | _ => none
/-- One probe: a failing page without an entry takes a free entry of its kind, with KIND 4, unless a group is held for one (R91). -/
def State.probe (s : State) (st : Stream) (p : DWord × Bool) : State :=
  let w := s.who st
  match s.aheadFails st p with
  | some (va, .fault c l m) =>
    if (s.mergeOf w.die w.asid (va / 4096)).isSome || !(s.ring w.die).valid || s.othersHeld w.die none then s
    else match s.freeMerge w.die w.priv with
      | none => s
      | some i => s.allocMerge w.die i w.asid va ((s.team st.id.tcx).coreOf st.id) 4 (.fault c l m) 0 []
  | _ => s
/-- The accesses of a run-ahead whose translation fails, one for each page. -/
def State.probesOf (s : State) (st : Stream) (ps : List (DWord × Bool)) : List (DWord × Bool) :=
  (ps.foldl (fun (acc : List Nat × List (DWord × Bool)) p =>
    match s.aheadFails st p with
    | some (va, _) => if acc.1.contains (va / 4096) then acc else (va / 4096 :: acc.1, acc.2 ++ [p])
    | none => acc) ([], [])).2

/-- RUNAHEAD (R406): a lane stream that has parked on a page, and not for a fetch (R93), probes at most 15 further pages; everything
else it computes is discarded. -/
def execRunahead (sid : SId) (probes : List (DWord × Bool)) (s : State) : Out :=
  .next (
    match s.stream? sid with
    | none => s
    | some st => match st.park with
      | .fault _ _ _ _ _ _ fetch =>
        if sid.kind ≠ .lane || fetch then s
        else
          let ps := (s.probesOf st probes).take 15
          let s1 := ps.foldl (fun s a => s.probe st a) s
          s1.onPm ((s.team sid.tcx).tag sid) fun p => { p with probes := p.probes + ps.length }
      | _ => s)

/-! ### Release of an entry (R92, R410, R411) -/

/-- A stream parked on an entry. -/
def Stream.parkedOn (st : Stream) (die idx : Nat) : Bool :=
  match st.park with
  | .fault d i _ _ _ _ _ => d == die && i == idx
  | _ => false
/-- A released stream: it replays from translation. -/
def Stream.replay (st : Stream) : Stream := st.parkAt .none

/-- Free an entry; its waiters replay (R92). -/
def State.freeEntryOf (s : State) (die idx : Nat) : State :=
  { s with streams := s.streams.map fun st => if st.parkedOn die idx then st.replay else st
           tr := { s.tr with merges := s.tr.merges.filter fun m => !(m.die == die && m.idx == idx) } }

/-- Free an entry; each waiter takes a precise trap at its faulting instruction with the record's CAUSE and LEVEL (R410); a lane
that the instruction's guard leaves out goes on. -/
def State.failEntryOf (s : State) (m : Merge) : State :=
  let ws := (s.streams.filter fun st => st.parkedOn m.die m.idx).map (·.id)
  let s1 := { s with tr := { s.tr with merges := s.tr.merges.filter fun x => !(x.die == m.die && x.idx == m.idx) } }
  ws.foldl (fun s id =>
    let st := s.stream id
    match st.park with
    | .fault _ _ npc addr f act _ =>
      if act then s.takeTrap [id] m.cause st.pc npc addr (trapInfo false 0 f (BitVec.ofNat 16 m.level))
      else s.onLane id fun st => st.goto npc
    | _ => s) s1

/-- The ASID operand of `fresume` and `tlbinv`: reserved bits, then the function's range (R401). -/
def State.asidTrap (s : State) (fn : Nat) (w : Word) : Option Cause :=
  if w.extractLsb' 16 16 ≠ 0 then some cIllegalOperand
  else if !s.ownsAsid fn (w.extractLsb' 0 16).toNat then some cPrivilege
  else none

def State.resume (s : State) (o : AluR) (die : Nat) (fail : Bool) : State :=
  match s.lowest o.g with
  | none => s.retireLanes o.g id
  | some low =>
    let w := low.rd o.s2
    match s.asidTrap s.curTeam.fn w with
    | some c => s.trapLow o.g c
    | none =>
      let done := fun (s : State) (v : Word) =>
        s.retireLanes o.g fun st => ((st.kill64 o.s1 o.k1).kill o.s2 o.k2).wr o.d v
      match s.mergeOf die (w.extractLsb' 0 16) ((low.rd64 o.s1).extractLsb' 12 45).toNat with
      | none => done s 0
      | some m => done (if fail then s.failEntryOf m else s.freeEntryOf m.die m.idx) 1
/-- R410. -/
def execFresume (o : AluR) (die : BitVec 2) (s : State) : Out := .next (s.resume o die.toNat false)
def execFresumeFail (o : AluR) (die : BitVec 2) (s : State) : Out := .next (s.resume o die.toNat true)

/-! ### tlbinv (R411) -/

/-- A page and a range overlap; no range is the whole of the address space. -/
def overlaps (va n : Nat) (range : Option (Nat × Nat)) : Bool :=
  match range with
  | none => true
  | some (a, l) => decide (va < a + l) && decide (a < va + n)

/-- A merge-table entry that `tlbinv` frees: its record's SEQ is rewritten with the next number of the die. -/
def State.invalidateEntry (s : State) (m : Merge) : State :=
  let r := s.ring m.die
  let s1 := if m.written then s.writeHome (r.base + 64 * m.idx + 0x18) (bytesOfNat 8 r.seq) else s
  { s1 with tr := { s1.tr with rings := s1.tr.rings.set m.die { r with seq := (r.seq + 1) % 2 ^ 20 } } }.freeEntryOf m.die m.idx

/-- The numbers of the outstanding accesses of an ASID in a range: what is old (R411, R412). -/
def State.oldOps (s : State) (asid : BitVec 16) (range : Option (Nat × Nat)) : List Nat :=
  let of := fun (sid : SId) => (s.team sid.tcx).recd.asid == asid
  let ops := s.ops.filter fun o => !o.isFence && o.loc.space != .vault && !o.loc.ranked && o.lanes.any (fun l => of l.sid) &&
    overlaps o.va.toNat (max o.size 1) range
  let xfers := s.qu.xfers.filter fun x => of x.sid && x.elems.any fun e => match e with
    | some (va, _) => overlaps va.toNat x.size range
    | none => false
  let tiles := s.mx.ops.filter fun o => of o.sid && o.mem.any fun row => row.any fun p => overlaps p.1.toNat p.2.2 range
  ops.map (·.num) ++ xfers.map (·.num) ++ tiles.map (·.num)

/-- The number of a packet of a copy among all of its copy-tracker entry. -/
def Copy.packetNo (c : Copy) (i : Nat) : Nat := c.gen * 2 ^ 40 + i
/-- The old accesses of a copy in a range (R412): the packets that it has read there and that are not acknowledged, and the burst that
waits for the CXL expander, under a number of its own. -/
def Copy.oldPackets (c : Copy) (range : Option (Nat × Nat)) : List (CopyId × Nat) :=
  let hit := fun (a : DWord) => a.extractLsb' 57 7 == 0 && overlaps a.toNat 1 range
  let reads := fun (m : DWord × Feed) => match m.2 with | .mem a => hit a | .byte _ => false
  let sent := if !class10 c.dst then [] else
    (c.packets.filter fun p => !p.acked && ((c.cut c.carried).getD p.index []).any reads).map (·.index)
  let burst := match c.cxl with
    | some (_, n) => if ((c.todo.drop c.moved).take n).any fun m => hit m.1 || reads m then [2 ^ 40 - 1] else []
    | none => []
  if c.final then [] else (sent ++ burst).map fun i => (c.id, c.packetNo i)
def State.oldPackets (s : State) (asid : BitVec 16) (range : Option (Nat × Nat)) : List (CopyId × Nat) :=
  (s.dr.copies.filter fun c => c.asid == asid).flatMap (Copy.oldPackets · range)

/-- What `tlbinv` drops for an ASID. -/
def State.invalidate (s : State) (asid : BitVec 16) (range : Option (Nat × Nat)) : State :=
  let ms := s.tr.merges.filter fun m => m.asid == asid && overlaps (m.page * 4096) 4096 range
  let s1 := ms.foldl State.invalidateEntry s
  { s1 with
    tr := { s1.tr with
      tlb := s1.tr.tlb.filter fun e => !(e.asid == asid && overlaps e.va (2 ^ e.leaf.size) range)
      upper := s1.tr.upper.filter fun e => !(e.asid == asid && overlaps (e.tag * 2 ^ e.span) (2 ^ e.span) range)
      descs := if range.isNone then sset none s1.tr.descs asid.toNat none else s1.tr.descs }
    mx := { s1.mx with cache := s1.mx.cache.filter fun l => !(l.asid == asid && overlaps (l.granule * 64) 64 range) } }

def State.tlbDrop (s : State) (g : Guard) (w : Word) (range : Option (Nat × Nat)) (kill : Stream → Stream) : State :=
  match s.asidTrap s.curTeam.fn w with
  | some c => s.trapLow g c
  | none =>
    let asid := w.extractLsb' 0 16
    let old := s.oldOps asid range
    let packets := s.oldPackets asid range
    (s.invalidate asid range).retireLanes g fun st =>
      kill { st with old := st.old ++ old.filter fun n => !(st.old.contains n)
                     oldPackets := st.oldPackets ++ packets.filter fun p => !(st.oldPackets.contains p) }

/-- R411. -/
def execTlbinv (g : Guard) (s1 : Reg) (k1 : Bool) (s2 : Reg) (k2 : Bool) (s3 : Reg) (s : State) : Out :=
  .next (
    match s.lowest g with
    | none => s.retireLanes g id
    | some low =>
      if low.rd s2 = 0 then s.trapLow g cIllegalOperand
      else s.tlbDrop g (low.rd s3) (some ((low.rd64 s1).toNat, (low.rd s2).toNat)) fun st => (st.kill64 s1 k1).kill s2 k2)
def execTlbinvAll (g : Guard) (s3 : Reg) (s : State) : Out :=
  .next (
    match s.lowest g with
    | none => s.retireLanes g id
    | some low => s.tlbDrop g (low.rd s3) none id)

/-! ### tlbsync (R412) -/

/-- The old accesses of a list that are still outstanding. -/
def State.undrained (s : State) (ns : List Nat) : List Nat :=
  ns.filter fun n => s.ops.any (fun o => o.num == n) || s.qu.xfers.any (fun x => x.num == n) || s.mx.ops.any fun o => o.num == n

/-- The old packets of a list that are not performed yet. -/
def State.unplaced (s : State) (ps : List (CopyId × Nat)) : List (CopyId × Nat) :=
  ps.filter fun x => s.dr.copies.any fun c => c.id == x.1 && !c.final &&
    ((c.packets.any fun p => !p.acked && c.packetNo p.index == x.2) || (c.cxl.isSome && c.packetNo (2 ^ 40 - 1) == x.2))
/-- A stream after its `tlbsync`: nothing is old. -/
def Stream.synced (st : Stream) : Stream := { st with old := [], oldPackets := [] }

/-- The wait of `tlbsync`, for the active lanes together; what follows it otherwise. -/
def State.syncWait (s : State) (g : Guard) (k : State → State) : State :=
  let ids := s.active g
  let left := s.undrained (ids.flatMap fun id => (s.stream id).old)
  let packets := s.unplaced (ids.flatMap fun id => (s.stream id).oldPackets)
  if left.isEmpty && packets.isEmpty then k s else s.parkLanes (.tlbsync left packets)

def execTlbsync (g : Guard) (d : Reg) (s : State) : Out :=
  .next (s.syncWait g fun s => s.retireLanes g fun st => st.synced.wr d 0)

/-- Zero a range of local HBM4: at the home slices, in every cache, and every poison mark (R412). -/
def State.zeroHbm (s : State) (p l : Nat) : State :=
  let hit := fun (x : Line) => decide (x.base < p + l) && decide (p < x.base + x.data.length)
  let s1 := { s.dropLines hit with mem := zeroRange s.mem p l }
  { s1 with vt := { s1.vt with poison := s1.vt.poison.filter fun g => g + 32 ≤ p || p + l ≤ g } }

def execTlbsyncZero (g : Guard) (d s1 : Reg) (k1 : Bool) (s2 : Reg) (k2 : Bool) (s : State) : Out :=
  .next (
    match s.lowest g with
    | none => s.retireLanes g id
    | some low =>
      let p := (low.rd64 s1).toNat
      let l := (low.rd s2).toNat
      if !s.physical low then s.trapLow g cPrivilege
      else if 2 ^ 40 ≤ p || p % 4096 ≠ 0 || l % 4096 ≠ 0 || l = 0 then s.trapLow g cIllegalOperand
      else s.syncWait g fun s =>
        (s.zeroHbm p l).retireLanes g fun st => ((st.synced.kill64 s1 k1).kill s2 k2).wr d 0)

end Sys2Proof.Machine
end

