-- ==== Sys2Proof/Machine/Window.lean ====
section
/-! DEFINITION. Sys2Proof/Machine/Window.lean: open windows of mask prediction: the registers that a stream awaits (R119),
squashing and confirming a lane (R122 to R127). -/
namespace Sys2Proof.Machine

/-- Registers that an outstanding operation will write in its lanes (R119). -/
def MemOp.writesReg (o : MemOp) (r : Reg) : Bool :=
  let pair := decide (o.size = 8)
  (match o.kind with
    | .load _ | .feqry | .vcq _ _ => true
    | .rmw _ ret => ret
    | .fe .ldvw | .fe .ldvt => true
    | _ => false) &&
    o.entry.isNone && o.d != 0 && (o.d == r || (pair && o.d.up 1 == r))
/-- A stream awaits a register from an operation numbered below `before`. -/
def State.awaits (s : State) (id : SId) (r : Reg) (before : Nat) : Bool :=
  s.ops.any fun o => decide (o.num < before) && o.ofStream id && o.writesReg r

/-- The stream of before the branch: what a squash returns to. -/
def Stream.rollback (st : Stream) : Stream :=
  match st.window with
  | none => st
  | some w => { st with regs := w.regs, gtsHi := w.gtsHi, policy := w.policy, path := w.path, window := none, park := .none, stall := none, short := none, firm := false }

/-- The operations that a stream has issued inside its window go, and its counters fall by them (R125). -/
def State.dropWindowOps (s : State) (id : SId) (first : Nat) : State :=
  let mine := s.ops.filter fun o => decide (first ≤ o.num) && o.ofStream id && !o.isFence
  let s1 := { s with ops := s.ops.filter fun o => !(decide (first ≤ o.num) && o.ofStream id) }
  mine.foldl (fun s o => s.decCounter id o.counter) s1

/-- A stream inside a window is squashed and stands at the branch again (R127). -/
def State.squash (s : State) (id : SId) : State :=
  match (s.stream id).window with
  | none => s
  | some w => (s.dropWindowOps id w.firstOp).onLane id fun st => { st.rollback with pc := w.branch }

/-- The state of before the branch. -/
def Window.entry (w : Window) (st : Stream) : Stream := { st with regs := w.regs }
/-- The actual direction of a lane whose predicate is known: the guard in the state of before the branch, and for a `loop` the test
of R170. -/
def Window.actual (w : Window) (st : Stream) : Bool :=
  guardHolds w.guard (w.entry st) && match w.loop with
    | some c => decide (1 < ((w.entry st).rd c).toNat)
    | none => true
/-- The write that the branch makes in a lane on its actual path: the link of a `call` that is taken, the counter of a `loop`
that its guard lets act (R169, R170). -/
def Window.write (w : Window) (dir : Bool) (st : Stream) : Stream :=
  match w.link, w.loop with
  | some l, _ => if dir then st.wr64 l (w.branch + 8) else st
  | _, some c =>
    if guardHolds w.guard (w.entry st) then
      let n := (w.entry st).rd c
      st.wr c (if n.toNat ≤ 1 then 0 else n - 1)
    else st
  | _, _ => st
/-- The next PC of a lane's actual direction. -/
def Window.next (w : Window) (st : Stream) : DWord := if w.actual st then w.target else w.fall

/-- The end of a window in one lane (R125), which leaves its branch behind the path `past` (R155): confirmed, or replayed from its
actual path. The counter of a `loop` is written now; what else the branch writes was written on prediction. -/
def State.resolve (s : State) (past : List (DWord × DWord)) (id : SId) : State :=
  let st := s.stream id
  match st.window with
  | none => s
  | some w =>
    let dir := w.actual st
    if dir = w.taken then s.onLane id fun st =>
      let st1 := if w.loop.isSome then w.write dir st else st
      { st1 with window := none, path := st.path.take (st.path.length - w.path.length - 1) ++ (w.branch, w.next st) :: past }
    else
      let s1 := (s.dropWindowOps id w.firstOp).onLane id fun st =>
        { w.write dir st.rollback with pc := w.next st, path := (w.branch, w.next st) :: past, policy := .last }
      let t := s.team id.tcx
      let same := fun (x : Stream) => x.inGroup t (t.group id) && x.window.any fun v => v.issue == w.issue
      let flag := fun (x : Stream) => if same x then { x with window := x.window.map fun v => { v with missed := true } } else x
      let s2 := { s1 with streams := s1.streams.map flag }
      s2.onPm (t.tag id) fun p =>
        { p with squashed := p.squashed + 1, misplaced := if w.missed then p.misplaced else p.misplaced + 1 }

/-- The streams whose windows one issue of a branch has opened, in ascending thread index. -/
def State.windowMates (s : State) (sid : SId) (w : Window) : List SId :=
  ((s.streams.filter fun x => x.id.tcx == sid.tcx && x.window.any fun v => v.issue == w.issue).map (·.id)).foldl
    (fun l id => (l.filter fun y => y.unit < id.unit) ++ id :: l.filter fun y => id.unit ≤ y.unit) []
/-- The predicate of a lane is known. -/
def State.predKnown (s : State) (id : SId) (w : Window) : Bool :=
  !s.awaits id w.guard.reg w.firstOp && match w.loop with
    | some c => !s.awaits id c w.firstOp
    | none => true

/-- PREDICATE_RESOLVE (R125): the predicates of all the lanes of an open window are known: each lane is confirmed or squashed. -/
def execPredicateResolve (sid : SId) (s : State) : Out :=
  .next (
    match s.stream? sid with
    | none => s
    | some st => match st.window with
      | none => s
      | some w =>
        let ids := s.windowMates sid w
        if !(ids.all fun id => s.predKnown id w) then s
        else
          let dir := fun (x : Stream) => (x.window.map fun v => v.next x).getD 0
          let old := fun (x : Stream) => (x.window.map (·.path)).getD []
          -- the path of the lanes that have left the branch in the same direction with a known predicate, where there are any
          let past := fun (x : Stream) => match (x.window.bind fun v => v.known.find? fun p => p.1 == v.next x) with
            | some p => p.2
            | none => s.pathOf ids dir old x
          ids.foldl (fun t id => t.resolve (past (s.stream id)) id) s)

end Sys2Proof.Machine
end

