-- ==== Sys2Proof/Machine/Context.lean ====
section
/-! DEFINITION. Sys2Proof/Machine/Context.lean: core contexts: the bank sets, `ctxsw`, `ctxfl` and `halt` (R413 to R417, R425). -/
namespace Sys2Proof.Machine

/-! ### Bank sets (R413) -/

/-- A team lies on one of some cores, in a bank set. -/
def Team.onCores (t : Team) (cs : List Nat) : Bool := t.image.isNone && cs.any fun c => (t.halfOn c).isSome
/-- The cores that move together: both of a pair where a set of the core holds a paired team (R414). -/
def State.swapCores (s : State) (core : Nat) : List Nat :=
  if s.teams.any fun t => t.onCores [core] && t.recd.paired then [core / 2 * 2, core / 2 * 2 + 1] else [core]
def State.activeOn (s : State) (cs : List Nat) : List Team := s.teams.filter fun t => t.onCores cs && !t.shadow
def State.shadowOn (s : State) (cs : List Nat) : List Team := s.teams.filter fun t => t.onCores cs && t.shadow
/-- The teams that `ctxsw.sv` of a core saves: its shadow context, with that of the other core of the pair where a team of the
shadow set lies on both (R414). -/
def State.savedSet (s : State) (core : Nat) : List Team :=
  let own := s.shadowOn [core]
  if own.any fun t => t.recd.paired then s.shadowOn [core / 2 * 2, core / 2 * 2 + 1] else own
/-- The tags of a list of teams. -/
def tagsOf (ts : List Team) : List Nat := ts.flatMap fun t => if t.recd.paired then [t.ctag, t.ctagUp] else [t.ctag]
def State.streamsOf (s : State) (ts : List Team) : List SId :=
  (s.streams.filter fun st => ts.any fun t => t.tcx == st.id.tcx).map (·.id)

/-- The cycle count of a context that leaves the active set, and of one that enters it (R424). -/
def PmCounts.out (p : PmCounts) (now : Nat) : PmCounts :=
  match p.since with
  | some c => { p with cycles := p.cycles + (now - c), since := none }
  | none => p
def PmCounts.enter (p : PmCounts) (now : Nat) : PmCounts := { p with since := some (p.since.getD now) }

/-- A swap (R415): the outgoing streams stop, their windows squashed; the time a team spends outside the active set does not
count for its watchdog (R420). -/
def State.swap (s : State) (cs : List Nat) : State :=
  let outT := s.activeOn cs
  let inT := s.shadowOn cs
  let s1 := (s.streamsOf outT).foldl State.squash s
  let turn := fun (t : Team) => if t.onCores cs then { t with shadow := !t.shadow, lastIssue := s.gts - t.lastIssue } else t
  let s2 := { s1 with teams := s1.teams.map turn }
  let mine := fun (o : TileOp) => inT.any fun t => t.tcx == o.sid.tcx
  let go := fun (o : TileOp) => if mine o then { o with stopped := false } else o
  let s3 := { s2.onLanes (s2.streamsOf inT) (fun st => { st with since := s.clock.cycles, aged := false }) with
    mx := { s2.mx with ops := s2.mx.ops.map go } }
  let s4 := (tagsOf outT).foldl (fun s k => s.onPm k fun p => p.out s.clock.cycles) s3
  (tagsOf inT).foldl (fun s k => s.onPm k fun p => p.enter s.clock.cycles) s4

/-! ### Images (R414) -/

def imageBytes : Nat := 2 ^ 21
/-- The contents of an image: its tag, then the sealed bytes. -/
def imageOf (n tag : Nat) : List Byte := bytesOfNat 2 tag ++ (List.range (imageBytes - 2)).map (Config.imageByte n)

/-- The address of an image: class 00 and 4 KiB aligned, in the window's backing where it lies there. -/
def State.imageAddr (s : State) (low : Stream) (r : Reg) : Option Nat :=
  let a := s.recordAddr low (low.rd64 r)
  if plain00 a && a.toNat % 4096 = 0 then some a.toNat else none

/-- Every page of an image can be written. -/
def State.imageWritable (s : State) (w : Who) (va : Nat) : Bool :=
  (List.range (imageBytes / 4096)).all fun i => match s.checkPage w .store (va + 4096 * i) with
    | .ok c => !s.linkDown c.loc && !s.shutHost (s.fnOf w.asid) c.loc
    | .error _ => false
/-- The pages of an image written. -/
def State.writeImage (s : State) (w : Who) (va cluster : Nat) (bs : List Byte) : State :=
  (List.range (imageBytes / 4096)).foldl (fun s i => match s.checkPage w .store (va + 4096 * i) with
    | .ok c => (s.touch w .store c).writeRange c.loc cluster ((bs.drop (4096 * i)).take 4096)
    | .error _ => s) s



/-- The contents of a queue, with the transfers and tile operations that use it, move to another key. -/
def State.moveQueue (s : State) (from_ key : Nat) : State :=
  let q := s.queue from_
  let s1 := { s with qu := { s.qu with qs := sset emptyQueue (sset emptyQueue s.qu.qs from_ emptyQueue) key q } }
  { s1 with
    qu := { s1.qu with xfers := s1.qu.xfers.map fun x => if x.key = from_ then { x with core := key / 32, hwq := key % 32 } else x }
    mx := { s1.mx with ops := s1.mx.ops.map fun o => if o.queue = some from_ then { o with queue := some key } else o } }
/-- The words of a physical tile move. -/
def State.moveTile (s : State) (c p c' p' : Nat) : State := (s.setTile c' p' (s.tile c p)).setTile c p []

/-- Physical tiles of a context. -/
def State.tilesOf (s : State) (tcx : Nat) : List Nat := (s.mat tcx).map.map (·.2) ++ (s.mat tcx).releasing

/-- A saved stream: a merge-table wait becomes a replay, and a queue wait is examined again. -/
def Stream.saved (st : Stream) : Stream :=
  match st.park with
  | .fault _ _ _ _ _ _ _ | .walker _ _ | .queue _ => st.parkAt .none
  | _ => st

/-- Step 1 of a save (R415): merge-table waits become replays. -/
def State.unlistTeams (s : State) (ts : List Team) : State :=
  let ids := s.streamsOf ts
  let s1 := s.onLanes ids Stream.saved
  { s1 with tr := { s1.tr with merges := s1.tr.merges.map fun m =>
      { m with waiters := m.waiters.filter fun w => !(ids.contains w) } } }

/-- Step 2: nothing of the context is outstanding but operations stopped at a boundary: an `mmul`, an `mdrain`, or a transfer
that waits for room or entries. Nor has a read of it seen a store that is not performed: its later reads, made elsewhere, would miss
that store (R343, R352). -/
def State.savable (s : State) (ts : List Team) : Bool :=
  let mine := fun (id : SId) => ts.any fun t => t.tcx == id.tcx
  s.ops.all (fun o => (match o.kind with | .fence _ => true | _ => false) || !o.lanes.any fun l => mine l.sid) &&
    s.streams.all (fun st => !mine st.id || st.cnt.cp == 0) &&
    s.mx.ops.all (fun o => !mine o.sid || o.stopped) &&
    s.qu.xfers.all fun x => !mine x.sid || (x.unserved && x.pending == 0)

/-- One team leaves its core for an image. -/
def State.saveTeam (s : State) (n : Nat) (t : Team) : State :=
  let s1 := t.queues.1.foldl (fun s q => s.moveQueue (32 * t.core + q) (savedQueue t.tcx 0 q)) s
  let s2 := t.queues.2.foldl (fun s q => s.moveQueue (32 * (t.core + 1) + q) (savedQueue t.tcx 1 q)) s1
  let s3 := (s2.tilesOf t.tcx).foldl (fun s p => s.moveTile t.cluster p (savedCluster t.tcx) p) s2
  s3.onTeam t.tcx fun t => { t with image := some n, shadow := false }

/-- The status of a `ctxsw` reaches its lanes. -/
def State.ctxDone (s : State) (g : Guard) (d : Reg) (kill : Stream → Stream) (v : Nat) : State :=
  s.retireLanes g fun st => (kill st).wr d (BitVec.ofNat 32 v)

/-- The core operand of `ctxsw`: physical privilege, then the core (R414). -/
def State.ctxTrap (s : State) (low : Stream) (r : Reg) : Option Cause :=
  let c := (low.rd r).toNat
  if !s.physical low then some cPrivilege
  else if 191 < c || c = s.curTeam.coreOf low.id then some cIllegalOperand
  else none

/-- R414, R415. -/
def execCtxswSwap (g : Guard) (d s2 : Reg) (k2 : Bool) (s : State) : Out :=
  .next (
    match s.lowest g with
    | none => s.retireLanes g id
    | some low => match s.ctxTrap low s2 with
      | some c => s.trapLow g c
      | none =>
        let cs := s.swapCores (low.rd s2).toNat
        let kill := fun (st : Stream) => st.kill s2 k2
        if (s.activeOn cs).isEmpty && (s.shadowOn cs).isEmpty then s.ctxDone g d kill 1
        else (s.swap cs).ctxDone g d kill 0)

/-- The kills of `ctxsw.sv` and `ctxsw.ld`. -/
def ctxKill (o : AluR) (st : Stream) : Stream := (st.kill64 o.s1 o.k1).kill o.s2 o.k2

/-- `ctxsw.sv` (R414 to R416). -/
def execCtxswSv (o : AluR) (s : State) : Out :=
  .next (
    match s.lowest o.g with
    | none => s.retireLanes o.g id
    | some low => match s.ctxTrap low o.s2 with
      | some c => s.trapLow o.g c
      | none =>
        let ts := s.savedSet (low.rd o.s2).toNat
        let w := s.who low
        match ts.head?, s.imageAddr low o.s1 with
        | none, _ => s.ctxDone o.g o.d (ctxKill o) 1
        | some _, none => s.ctxDone o.g o.d (ctxKill o) 4
        | some t0, some va =>
          if !s.imageWritable w va then s.ctxDone o.g o.d (ctxKill o) 4
          else
            let s1 := s.unlistTeams ts
            if !s1.savable ts then s1.stalled
            else
              let n := s1.nextOp
              let s2 := s1.writeImage w va s.curTeam.cluster (imageOf n t0.ctag)
              let s3 := ts.foldl (fun s t => s.saveTeam n t) { s2 with nextOp := n + 1, images := s2.images ++ [(n, t0.ctag)] }
              let s4 := if s.vt.migrateMode then s3
                else { s3 with vt := { s3.vt with flushing := (tagsOf ts).foldl nins s3.vt.flushing } }
              s4.ctxDone o.g o.d (ctxKill o) 0)

/-- One team of an image comes onto a core, given its new lower core. -/
def State.loadTeam (s : State) (core : Nat) (t : Team) : State :=
  let q0 := (s.freeQueues core).take t.queues.1.length
  let q1 := (s.freeQueues (core + 1)).take t.queues.2.length
  let s1 := (t.queues.1.zip q0).foldl (fun s p => s.moveQueue (savedQueue t.tcx 0 p.1) (32 * core + p.2)) s
  let s2 := (t.queues.2.zip q1).foldl (fun s p => s.moveQueue (savedQueue t.tcx 1 p.1) (32 * (core + 1) + p.2)) s1
  let old := s2.tilesOf t.tcx
  let new := ((List.range 16).filter fun p => !((s2.usedTiles (core / 4)).contains p)).take old.length
  let at_ := fun (p : Nat) => (((old.zip new).find? fun e => e.1 = p).map (·.2)).getD p
  let s3 := (old.zip new).foldl (fun s e => s.moveTile (savedCluster t.tcx) e.1 (core / 4) e.2) s2
  let s4 := s3.onMat t.tcx fun m => { m with map := m.map.map fun e => (e.1, at_ e.2), releasing := m.releasing.map at_ }
  let retile := fun (o : TileOp) => if o.sid.tcx = t.tcx then { o with tile := o.tile.map at_ } else o
  let s5 := { s4 with mx := { s4.mx with ops := s4.mx.ops.map retile } }
  (s5.onTeam t.tcx fun t => { t with image := none, shadow := true, core := core, queues := (q0, q1) }).onLanes (s5.streamsOf [t])
    fun st => { st with flush := some (t.tag st.id) }

/-- The cores that an image of some teams needs: a pair for a paired team. -/
def loadCores (ts : List Team) (core : Nat) : List Nat :=
  if ts.any fun t => t.recd.paired then [core / 2 * 2, core / 2 * 2 + 1] else [core]
/-- The lower core that a team of an image comes to: it keeps its place in a pair. -/
def loadCore (ts : List Team) (core : Nat) (t : Team) : Nat :=
  if ts.any fun t => t.recd.paired then core / 2 * 2 + t.core % 2 else core
/-- The queues of a core and the tiles of its cluster suffice for an image (R414). -/
def State.loadFits (s : State) (ts : List Team) (core : Nat) : Bool :=
  let need := fun (c : Nat) => (ts.map fun t =>
    (if loadCore ts core t = c then t.queues.1.length else 0) + (if loadCore ts core t + 1 = c then t.queues.2.length else 0)).sum
  (loadCores ts core).all (fun c => decide (need c ≤ (s.freeQueues c).length)) &&
    decide ((ts.map fun t => (s.tilesOf t.tcx).length).sum + (s.usedTiles (core / 4)).length ≤ 16)

/-- The image that some bytes are. -/
def State.imageNamed (s : State) (bs : List Byte) : Option Nat :=
  (s.images.find? fun e => imageOf e.1 e.2 == bs).map (·.1)

/-- `ctxsw.ld` (R414 to R416). -/
def execCtxswLd (o : AluR) (s : State) : Out :=
  .next (
    match s.lowest o.g with
    | none => s.retireLanes o.g id
    | some low => match s.ctxTrap low o.s2 with
      | some c => s.trapLow o.g c
      | none =>
        let core := (low.rd o.s2).toNat
        if !(s.shadowOn [core]).isEmpty then s.ctxDone o.g o.d (ctxKill o) 1
        else match s.imageAddr low o.s1 with
          | none => s.ctxDone o.g o.d (ctxKill o) 4
          | some va => match s.unitRead (s.who low) va imageBytes with
            | (none, s1) => s1.ctxDone o.g o.d (ctxKill o) 4
            | (some bs, s1) => match s1.imageNamed bs with
              | none => s1.ctxDone o.g o.d (ctxKill o) 3
              | some n =>
                let ts := s1.teams.filter fun t => t.image == some n
                if !(s1.shadowOn (loadCores ts core)).isEmpty then s1.ctxDone o.g o.d (ctxKill o) 1
                else if !s1.loadFits ts core then s1.ctxDone o.g o.d (ctxKill o) 2
                else
                  let s2 := ts.foldl (fun s t => s.loadTeam (loadCore ts core t) t) s1
                  ({ s2 with images := s2.images.filter fun e => e.1 ≠ n }).ctxDone o.g o.d (ctxKill o) 0)

/-! ### ctxfl and the flush of a save (R416, R417) -/

/-- Write back every dirty line and every store on its way that carries a tag. -/
def State.flushTag (s : State) (tag : Nat) : State :=
  let mine := s.ops.filter fun o => o.isLeft && o.ctag == tag
  (mine.foldl State.finishLeft s).writeBack fun l => l.ctag == some tag
def State.tagHeld (s : State) (tag : Nat) : Bool :=
  s.vt.lines.any (fun l => l.ctag == some tag) || s.ops.any fun o => o.isLeft && o.ctag == tag

/-- R417. -/
def execCtxfl (o : Alu1) (s : State) : Out :=
  .next (
    match s.lowest o.g with
    | none => s.retireLanes o.g id
    | some low =>
      let w := low.rd o.s1
      if !s.physical low then s.trapLow o.g cPrivilege
      else if w.extractLsb' 16 16 ≠ 0 then s.trapLow o.g cIllegalOperand
      else (s.flushTag w.toNat).retireLanes o.g fun st => (st.kill o.s1 o.k1).wr o.d (if s.tagHeld w.toNat then 1 else 0))

/-- CTAG_FLUSH_ACK (R416): the flush that a save started is acknowledged. -/
def execCtagFlushAck (ctag : Nat) (s : State) : Out :=
  .next (
    if ctag ∈ s.vt.flushing then
      let s1 := s.flushTag ctag
      { s1 with vt := { s1.vt with flushing := ndel s1.vt.flushing ctag } }
    else s)

/-! ### halt (R425) -/

/-- Cores stop at instruction boundaries, their windows squashed. -/
def State.haltCores (s : State) (cs : List Nat) : State :=
  let s1 := (s.streamsOf (s.activeOn cs)).foldl State.squash s
  { s1 with halted := cs.foldl nins s1.halted }

/-- R425. -/
def execHalt (o : Alu1) (s : State) : Out :=
  .next (
    match s.lowest o.g with
    | none => s.retireLanes o.g id
    | some low =>
      let c := (low.rd o.s1).toNat
      let own := s.curTeam.coreOf low.id
      let fin := fun (s : State) => s.retireLanes o.g fun st => (st.kill o.s1 o.k1).wr o.d 0
      if !s.physical low then s.trapLow o.g cPrivilege
      else if c = 0xFFFFFFFF then fin (s.haltCores ((List.range Config.cores).filter fun k => k != own))
      else if 191 < c || c = own then s.trapLow o.g cIllegalOperand
      else fin (s.haltCores [c]))

end Sys2Proof.Machine
end

