-- ==== Sys2Proof/Machine/System.lean ====
section
/-! DEFINITION. Sys2Proof/Machine/System.lean: `trap`, `brk`, `eret`, the control registers and `pmrd` (R403, R404, R421 to R424). -/
namespace Sys2Proof.Machine

/-! ### Traps and the return from one (R421, R422) -/

/-- R421. -/
def execTrap (g : Guard) (imm : BitVec 16) (s : State) : Out := .next (s.trapLow g cTrapInsn 0 imm)
def execBrk (g : Guard) (imm : BitVec 16) (s : State) : Out := .next (s.trapLow g cBreakpoint 0 imm)

/-- `eret` (R422): the target of a stream is the trapped instruction or the one after it. -/
def eretTarget (nx : Bool) (st : Stream) : DWord := if nx then st.trap.npc else st.trap.pc
def State.leave (s : State) (g : Guard) (nx : Bool) : State :=
  let ids := s.active g
  match ids.find? fun id => !(s.stream id).trap.hmode with
  | some id => s.trap7 g cIllegalOperand id 0
  | none =>
    match ids.find? fun id => (targetTrap (eretTarget nx (s.stream id))).isSome with
    | some id => (s.skipLanes g).endTeam id.tcx ((targetTrap (eretTarget nx (s.stream id))).getD cAddressClass)
    | none => s.onLanes s.cur.lanes fun st =>
        if guardHolds g st then st.leaveTrap (eretTarget nx st) else st.goto s.cur.npc
def execEret (g : Guard) (s : State) : Out := .next (s.leave g false)
def execEretNx (g : Guard) (s : State) : Out := .next (s.leave g true)

/-! ### Control registers (R404) -/

def loHalf (v : DWord) : Word := v.extractLsb' 0 32
def hiHalf (v : DWord) : Word := v.extractLsb' 32 32
/-- A 64-bit register with one half written. -/
def setHalf (v : DWord) (hi : Bool) (w : Word) : DWord := if hi then w ++ loHalf v else hiHalf v ++ w

def State.onFn (s : State) (n : Nat) (f : FnCfg → FnCfg) : State :=
  { s with fns := sset blankFn s.fns n (f (sget blankFn s.fns n)) }

/-- A register of a stream (R403): numbers 0x000 to 0x011. -/
def Stream.creg (st : Stream) (num : Nat) : Word :=
  match num with
  | 0x00 => st.trap.cause.setWidth 32
  | 0x01 => loHalf st.trap.pc
  | 0x02 => hiHalf st.trap.pc
  | 0x03 => loHalf st.trap.npc
  | 0x04 => hiHalf st.trap.npc
  | 0x05 => loHalf st.trap.addr
  | 0x06 => hiHalf st.trap.addr
  | 0x07 => st.trap.info
  | 0x08 => if st.trap.hmode then 1 else 0
  | 0x10 => loHalf st.trap.vec
  | _ => hiHalf st.trap.vec
/-- Numbers of the registers of a stream. -/
def streamReg (num : Nat) : Bool := decide (num ≤ 8) || num == 0x10 || num == 0x11

/-- A register of a job slot (R315). -/
def JobSlot.reg (j : JobSlot) (k : Nat) : Word :=
  match k with
  | 0 => bit j.v ++ 0#15 ++ j.asid
  | 1 => j.jid
  | 2 => BitVec.ofNat 32 j.rank
  | 3 => j.tblLo
  | 4 => j.tblHi
  | 5 => j.rgnLo
  | 6 => j.rgnHi
  | _ => 0

/-- A register of a die (R407). -/
def FaultRing.reg (r : FaultRing) (k : Nat) : Word := if k = 0 then r.lo else if k = 1 then r.hi else r.ctl

/-- A register of the function or of the device. -/
def State.creg (s : State) (fn num : Nat) : Word :=
  if num = 0x12 then loHalf (s.fn fn).defVec
  else if num = 0x13 then hiHalf (s.fn fn).defVec
  else if num = 0x14 then (if s.vt.migrateMode then 1 else 0)
  else if num = 0x15 then (s.fn fn).wdog.setWidth 32
  else if num < 0x30 then (s.ring ((num - 0x20) / 4)).reg (num % 4)
  else if num = 0x30 then BitVec.ofNat 32 s.tr.asidTbl
  else if num = 0x31 then BitVec.ofNat 32 (s.tr.asidTbl / 2 ^ 32)
  else if num = 0x38 then s.vt.joinAsid.setWidth 32
  else if num = 0x39 then 0
  else if num = 0x3A then s.vt.joinStat
  else if num = 0x40 then s.co.mcgLo
  else if num = 0x41 then s.co.mcgHi
  else if num < 0x200 then (s.job ((num - 0x100) / 16)).reg (num % 16)
  else (s.wq (num - 0x200)).word

/-- A write to FR_d_LO, FR_d_HI or FR_d_CTL (R407): a CORE outside the die makes the write of CTL ignored. -/
def State.ringWrite (s : State) (die k : Nat) (w : Word) : State :=
  let r := s.ring die
  let put := fun (r : FaultRing) => { s with tr := { s.tr with rings := s.tr.rings.set die r } }
  if k = 0 then put { r with lo := w &&& 0xFFFF0000 }
  else if k = 1 then put { r with hi := w &&& 0xFF }
  else if (w.extractLsb' 0 8).toNat / 48 ≠ die then s
  else put { r with ctl := w &&& 0x8000FFFF }

/-- A write to a register of a job slot (R315, R326, R328). -/
def State.jobWrite (s : State) (n k : Nat) (w : Word) : State :=
  let still := fun (f : JobSlot → JobSlot) => s.onJob n fun j => if j.v then j else f j
  match k with
  | 0 => if w.getLsbD 31 then s.validateJob n (w.extractLsb' 0 16) else s.invalidateJob n (w.extractLsb' 0 16)
  | 1 => still fun j => { j with jid := w }
  | 2 => s.jobSelf n w
  | 3 => still fun j => { j with tblLo := w }
  | 4 => still fun j => { j with tblHi := w }
  | 5 => s.regionLo n w
  | 6 => s.regionHi n w
  | _ => s.keyWord n w

/-- A write to a register of the function or of the device. -/
def State.cregWrite (s : State) (fn num : Nat) (w : Word) : State :=
  if num = 0x12 then s.onFn fn fun f => { f with defVec := setHalf f.defVec false w }
  else if num = 0x13 then s.onFn fn fun f => { f with defVec := setHalf f.defVec true w }
  else if num = 0x14 then { s with vt := { s.vt with migrateMode := w.getLsbD 0 } }
  else if num = 0x15 then s.onFn fn fun f => { f with wdog := w.extractLsb' 0 16 }
  else if num < 0x30 then s.ringWrite ((num - 0x20) / 4) (num % 4) w
  else if num = 0x30 then
    { s with tr := { s.tr with asidTbl := s.tr.asidTbl / 2 ^ 32 * 2 ^ 32 + w.toNat / 4096 * 4096 } }
  else if num = 0x31 then { s with tr := { s.tr with asidTbl := w.toNat % 256 * 2 ^ 32 + s.tr.asidTbl % 2 ^ 32 } }
  else if num = 0x38 then { s with vt := { s.vt with joinAsid := w.extractLsb' 0 16 } }
  else if num = 0x39 then s.joinCommand (w.extractLsb' 30 2).toNat (w.extractLsb' 0 30).toNat fn
  else if num = 0x3A then s
  else if num = 0x40 then { s with co := { s.co with mcgLo := w &&& 0xFFFFFF80 } }
  else if num = 0x41 then { s with co := { s.co with mcgHi := w &&& 0xFF } }
  else if num < 0x200 then s.jobWrite ((num - 0x100) / 16) (num % 16) w
  else s.wqWrite (num - 0x200) w

/-- R423. -/
def execCrd (g : Guard) (d : Reg) (num : BitVec 12) (s : State) : Out :=
  let n := num.toNat
  let fn := s.curTeam.fn
  .next (s.retireLanes g fun st => st.wr d (if streamReg n then st.creg n else s.creg fn n))

/-- A write to TRAP_VEC in one stream; the other registers of a stream are read only (R403, R404). -/
def Stream.cregWrite (st : Stream) (num : Nat) (w : Word) : Stream :=
  if num = 0x10 then { st with trap := { st.trap with vec := setHalf st.trap.vec false w } }
  else if num = 0x11 then { st with trap := { st.trap with vec := setHalf st.trap.vec true w } }
  else st

/-- R423. -/
def execCwr (g : Guard) (s1 : Reg) (k1 : Bool) (num : BitVec 12) (s : State) : Out :=
  let n := num.toNat
  .next (
    if streamReg n then s.retireLanes g fun st => (st.cregWrite n (st.rd s1)).kill s1 k1
    else match s.lowest g with
      | none => s.retireLanes g id
      | some low =>
        let w := low.rd s1
        if n = 0x39 && s.joinBusy (w.extractLsb' 30 2).toNat (w.extractLsb' 0 30).toNat s.curTeam.fn then s.stalled
        else (s.cregWrite s.curTeam.fn n w).retireLanes g fun st => st.kill s1 k1)

/-! ### pmrd (R424) -/

/-- The counts of a context. No rule gives the banks' timing: the cycles lost to bank conflicts since the last read of their count are a
free value. -/
def State.pmCount (s : State) (tag sel : Nat) : Nat :=
  let p := sget blankPm s.pm tag
  match sel with
  | 0 => (p.out s.clock.cycles).cycles
  | 1 => p.words
  | 2 => p.squashed
  | 3 => p.predictions
  | 4 => p.misplaced
  | 5 => p.probes
  | 6 => p.hits
  | 7 => p.misses
  | _ => p.bank + Config.pick s.free
def execPmrd (g : Guard) (d : Reg) (sel : BitVec 4) (s : State) : Out :=
  let v := s.pmCount s.curTag sel.toNat
  let s1 := if sel = 8 then { s.onPm s.curTag fun p => { p with bank := v } with free := s.free + 1 } else s
  .next (s1.retireLanes g fun st => st.wr64 d (BitVec.ofNat 64 v))

end Sys2Proof.Machine
end

