-- ==== Sys2Proof/Machine/Perform.lean ====
section
/-! DEFINITION. Sys2Proof/Machine/Perform.lean: the steps in which outstanding operations take effect: loads, stores, atomics,
vault banks, the segment directory, and the answers of other devices (R130, R132, R229, R234, R240, R319, R336, R358, R361,
R372, R435). -/
namespace Sys2Proof.Machine

/-! ### The end of an operation (R130, R132) -/

/-- A read whose result goes to a register. -/
def MemOp.returns (o : MemOp) : Bool :=
  match o.kind with
  | .load _ | .feqry | .vcq _ _ => true
  | .rmw _ ret => ret
  | _ => false

/-- The value of an element read by a transfer reaches its queue entries; those not yet reserved take it when they are
(R259, R276, R277). -/
def State.elemArrive (s : State) (num : Nat) (v : Word) (i : Nat) : State :=
  match s.qu.xfers.find? fun x => x.num = num with
  | none => s
  | some x => match x.entries[i / x.w]? with
    | some serial => s.fillElem x.key serial (i % x.w) v
    | none => s.onXfer num fun x => { x with got := x.got ++ [(i, v)] }

/-- One operation of a transfer is done. -/
def State.xferDone (s : State) (num : Nat) : State :=
  match s.qu.xfers.find? fun x => x.num = num with
  | none => s
  | some x => (s.onXfer num fun x => { x with pending := x.pending - 1 }).changed x.key

/-- A word of an origin block has been answered, or has failed (R313). -/
def State.blockWord (s : State) (o : MemOp) (i : Nat) (w : DWord × Option Err) : State :=
  s.onLanes (o.lanes.map (·.sid)) fun st => { st with cnt := st.cnt.dec o.counter, block := st.block ++ [(i, w)] }

/-- An operation ends with the values of its lanes (R130). -/
def State.endOp (s : State) (o : MemOp) (vals : List DWord) : State :=
  let s0 := (s.noteDone o []).removeOp o.num
  match o.kind with
  | .elemLoad x es _ => (es.foldl (fun s i => s.elemArrive x ((vals.headD 0).setWidth 32) i) s0).xferDone x
  | .elemStore x => s0.xferDone x
  | .block i => s0.blockWord o i ((vals.headD 0), none)
  | _ => (o.lanes.zip vals).foldl (fun s p => s.finishLane o p.1.sid (if o.returns then some p.2 else none)) s0

/-- An operation ends with an error: all ones in each destination, and the cause in the slot of its counter (R132, R276, R319,
R360, R418, R419). -/
def State.failOp (s : State) (o : MemOp) (cause : Cause) (reason : BitVec 16) : State :=
  match o.kind with
  -- the `tcopy` takes it as its own trap (R313)
  | .block i => ((s.noteDone o []).removeOp o.num).blockWord o i (0, some ⟨cause, reason⟩)
  | _ =>
    let s1 := o.lanes.foldl (fun s l => s.recordErr l.sid o.counter ⟨cause, reason⟩) s
    s1.endOp o (o.lanes.map fun _ => allOnes o.size)
/-- The end of an operation that has failed as it was sent; a request to the expander has timed out then (R435). -/
def State.failSent (s : State) (o : MemOp) (cause : Cause) (reason : BitVec 16) : State :=
  (if o.loc.cxl then s.cxlTimedOut else s).failOp o cause reason

/-- The values of an operation that gives none. -/
def MemOp.blanks (o : MemOp) : List DWord := o.lanes.map fun _ => 0

/-- The elements of a transfer wait for their reply buffers in order (R330). -/
def State.buffered (s : State) (o : MemOp) : Bool :=
  o.xfer.isNone || o.loc.space != .pod || decide (s.repliesBefore o.core o.num < replyBuffers)

/-- An operation that may take its effect now: it is outstanding, in a phase of its own device, and its turn has come. -/
def State.performable (s : State) (o : MemOp) : Bool :=
  s.mayPerform o && s.buffered o && (match o.phase with
    | .issued | .self _ _ _ | .failed _ _ | .half _ _ => true
    | .sent _ _ _ => o.loc.space == .pod && !o.loc.ranked
    | _ => false)

/-- A class-10 request that has not left yet: an earlier lane of its instruction that touches the same bytes had to be answered first
(R243). -/
def MemOp.unsent (o : MemOp) : Bool := o.phase == .issued && o.loc.ranked && o.travels
/-- It leaves now. -/
def State.sendNow (s : State) (o : MemOp) : State :=
  let (ph, ms) := s.sendPhase (s.team ((o.lanes.head?.map (·.sid.tcx)).getD 0)).recd.asid o
  let s1 := s.onOp o.num fun x => { x with phase := ph }
  { s1 with outbox := s1.outbox ++ ms }

/-! ### Loads -/

/-- A read miss of a replicated cache waits while its segment is in transit (R234). -/
def State.inTransit (s : State) (o : MemOp) : Bool :=
  ((s.cache? o.loc.vcid).map (·.repl)).getD false && (match s.dir (segOf o.loc.key) with | .T _ _ => true | _ => false)

/-- The end of a request that the device's own Porter has answered: its failure, or what follows its data (R317). -/
def State.selfEnd (s : State) (o : MemOp) (x : Reply) (k : List Byte → State → State) : State :=
  match x with
  | .data bs => k bs s
  | .nack r => s.failOp o cRemoteNack (r.setWidth 16)
  | .portDown => s.failOp o cPodPortDown 0

def MemOp.sx (o : MemOp) : Bool :=
  match o.kind with
  | .load sx => sx
  | .elemLoad _ _ sx => sx
  | _ => false
/-- The extended value of the bytes a load has read. -/
def MemOp.value (o : MemOp) (bs : List Byte) : DWord := extendLoad o.sx o.size (natOfBytes (bs.take o.size))

/-- An operation that a stream has issued inside its open window. -/
def State.speculative (s : State) (o : MemOp) : Bool :=
  o.lanes.any fun l => (s.stream l.sid).window.any fun w => decide (w.firstOp ≤ o.num)

/-- Performing a load (R130, R336). -/
def State.doLoad (s : State) (o : MemOp) : State :=
  match o.phase with
  | .failed c r => s.failSent o c r
  | .self q n j =>
    let (x, s1) := s.asIssued n j fun s => s.serve q (some o.size) []
    s1.selfEnd o x fun bs s => s.endOp o [o.value bs]
  | _ =>
    if s.inTransit o && !s.cached o then s
    else match s.loadLocal o with
      -- an error of an access inside an open window waits until the window closes (R124)
      | (.error c, s1) => if s.speculative o then s else s1.failOp o c 0
      | (.ok bs, s1) => (s1.endOp o [o.value bs]).markSeen o (s1.earlyStores o)

/-- The mask of `feqry` (R255). -/
def State.feMask (s : State) (a : Nat) : Word :=
  (List.range 32).foldl (fun m i => if s.wordEmpty (a + 4 * i) then m else m ||| (1#32 <<< i)) 0

def Prio.code : Prio → Nat
  | .first => 0 | .normal => 1 | .last => 2
/-- The word of `vcq` (R256). -/
def State.vcqWord (s : State) (o : MemOp) : Word :=
  let vcid := BitVec.ofNat 8 o.loc.vcid
  let line := (s.cache? o.loc.vcid).bind fun c => s.line? o.loc.vcid (c.repOf o.cluster) o.loc.key
  match line with
  | none => 0#4 ++ vcid ++ 0#20
  | some l => 1#1 ++ bit l.dirty ++ BitVec.ofNat 2 (Prio.code l.prio) ++ vcid ++ BitVec.ofNat 5 l.way ++ BitVec.ofNat 15 l.share

/-- LOAD_COMPLETE (R130): a load or a query; one of the CXL expander completes by CXL_COMPLETION. -/
def execLoadComplete (op : Nat) (s : State) : Out :=
  .next (
    match s.op? op with
    | none => s
    | some o =>
      if !s.performable o then s
      else if o.unsent then s.sendNow o
      else match o.kind with
        | .load _ | .block _ => s.doLoad o
        | .feqry => s.endOp o [(s.feMask o.word).setWidth 64]
        | .vcq _ _ => s.endOp o [(s.vcqWord o).setWidth 64]
        | _ => s)

/-- ENTRY_READY (R259): one element of a Carter transfer is read, and its entry is READY with the last. -/
def execEntryReady (op : Nat) (s : State) : Out :=
  .next (
    match s.op? op with
    | none => s
    | some o =>
      if !s.performable o then s
      else if o.unsent then s.sendNow o
      else match o.kind with
        | .elemLoad _ _ _ => s.doLoad o
        | _ => s)

/-! ### Stores -/

/-- A store that another path than the directory performs: its write, or the cause of its failure (R232, R336). One to the host over
the lost link, or of a function that is not configured, is discarded, and its streams have LINK_LOST in slot 0 (R419, R433). -/
def State.storeLocal (s : State) (o : MemOp) : Option Cause × State :=
  let down := s.linkDown o.loc
  if (down && o.loc.space == .host && !o.loc.cxl) || s.shutHost (s.opFn o) o.loc then
    (none, o.lanes.foldl (fun s l => s.recordErr l.sid 0 ⟨cLinkLost, 0⟩) (if down then s.discard else s))
  else if down then (some (lostCause o.loc), s.lostWrite o.loc)
  else
    let s0 := (s.settle o.loc.key o.size).clearPoison o.loc.key o.size
    let s1 := if ordReleases o.ord then s0.releaseTag o.ctag else s0
    if ((s1.cache? o.loc.vcid).map (·.repl)).getD false then (none, s1.writeNow o.loc o.cluster o.bytes)
    else (none, s1.storeAt o.loc o.bytes (s.fillRequest o) (some o.ctag))

/-- Performing a store, or the word of an `hsig`; `k` follows its success. -/
def State.doStore (s : State) (o : MemOp) (k : State → State) : State :=
  match o.phase with
  | .failed c r => s.failSent o c r
  | .self q n j =>
    let (x, s1) := s.asIssued n j fun s => s.serve q none o.bytes
    s1.selfEnd o x fun _ s => k s
  | _ => match s.storeLocal o with
    | (some c, s1) => s1.failOp o c 0
    | (none, s1) => k s1

/-- The message of `hsig`, and its end: without a host link it is discarded, with LINK_LOST (R372, R434). -/
def State.hsigMessage (s : State) (o : MemOp) (fn vector : Nat) : State :=
  if s.links.hostUp then (s.sendMsix fn vector).endOp o o.blanks
  else s.discard.failOp o cLinkLost 0

/-- Performing `hsig` (R372): a word that the lost host link discards takes the message with it. -/
def State.doHsig (s : State) (o : MemOp) (fn vector : Nat) (write : Bool) : State :=
  if !write then s.hsigMessage o fn vector
  else if o.loc.space = .host && !o.loc.cxl && !s.links.hostUp then s.discard.hsigMessage o fn vector
  else s.doStore o fun s => s.hsigMessage o fn vector

/-- Bytes of a line that a range touches. -/
def Line.inRange (l : Line) (vcid key n : Nat) : Bool :=
  l.vcid == vcid && decide (l.base < key + n) && decide (key < l.base + l.data.length)

/-- A segment after lines of it have been invalidated: clusters without a line leave the sharers, an owner without one leaves
the segment in I (R253). -/
def State.pruneSeg (s : State) (seg : Nat) : State :=
  match s.dir seg with
  | .S set => s.setDir seg (dirOfSharers (set.filter fun c => s.holds seg c))
  | .O c => if s.holds seg c then s else s.setDir seg .I
  -- in transit the clusters leave the state that follows; a transition that has been asked for stays
  | .T set o => if (s.sgWaiting seg).isEmpty then
      s.setDir seg (.T (set.filter fun c => s.holds seg c) (o.bind fun c => if s.holds seg c then some c else none)) else s
  | .I => s

/-- One piece of a range: the lines that overlap it (R253, R254). -/
def State.rangePiece (s : State) (op : RangeOp) (vcid key n : Nat) : State :=
  let hit := fun (l : Line) => l.inRange vcid key n
  let segs := ((s.vt.lines.filter hit).filter fun l => l.rep.isSome).foldl (fun ks l => nins ks (segOf l.base)) []
  match op with
  | .wb => s.writeBack hit
  | .flush => segs.foldl State.pruneSeg ((s.writeBack hit).dropLines hit)
  | .inval => segs.foldl State.pruneSeg (s.dropLines hit)
  | .prio p => s.onLines hit fun l => { l with prio := p }

/-- STORE_PERFORMED (R336): a store, an element store, `hsig`, or a range instruction; a store through a replicated cache is
performed by the directory (R234), one to the CXL expander by CXL_COMPLETION. -/
def execStorePerformed (op : Nat) (s : State) : Out :=
  .next (
    match s.op? op with
    | none => s
    | some o =>
      if !s.performable o then s
      else if o.unsent then s.sendNow o
      else match o.kind with
        | .store | .elemStore _ =>
          if ((s.cache? o.loc.vcid).map (·.repl)).getD false && !(match o.phase with | .failed _ _ => true | _ => false) then s
          else s.doStore o fun s => s.endOp o o.blanks
        | .hsig fn v w => s.doHsig o fn v w
        | .range r ps => (ps.foldl (fun s p => s.rangePiece r p.1.vcid p.1.key p.2) s).endOp o o.blanks
        | _ => s)

/-! ### The segment directory (R234) -/

/-- DIR_STORE: a store through a replicated cache leaves for the home slice, entering its replica as it does (R351), and is
done at once where its replica owns the line; then it arrives there. A store waits while the segment is in transit. -/
def execDirStore (op : Nat) (s : State) : Out :=
  .next (
    match s.op? op with
    | none => s
    | some o => match s.cache? o.loc.vcid with
      | none => s
      | some c =>
        let isStore := match o.kind with | .store => true | .elemStore _ => true | _ => false
        let r := c.replica o.cluster
        if !c.repl || !isStore then s
        else if o.phase = .left then
          if s.inTransit o then s
          else (s.arriveLeft c o).endOp o o.blanks
        else if !s.performable o || !s.quiet o.num o.loc.key o.size then s
        else if s.linkDown o.loc || s.shutHost (s.opFn o) o.loc then s.doStore o fun s => s.endOp o o.blanks
        else
          let stays := s.staysLocal c r o.loc.key
          let s0 := if ordReleases o.ord then s.releaseTag o.ctag else s
          let s1 := s0.replicaPut o.loc.vcid r o.loc.key o.bytes stays (some o.ctag) (s.fillRequest o)
          if stays then s1.endOp o o.blanks else (s1.noteDone o [o.num]).onOp o.num fun o => { o with phase := .left })

/-- DIR_READ_MISS: a load that waits for a line of a replica has it filled. -/
def execDirReadMiss (vcid cluster addr : Nat) (s : State) : Out :=
  .next (
    match s.cache? vcid with
    | none => s
    | some c =>
      let base := addr / c.line * c.line
      let wants := s.ops.filter fun o =>
        o.loc.vcid == vcid && o.reads && !o.writes && c.replica o.cluster == cluster && o.loc.key / c.line * c.line == base
      let free := match s.dir (segOf addr) with | .T _ _ => false | _ => true
      if c.repl && !wants.isEmpty && free && (s.line? vcid (some cluster) addr).isNone then
        -- at the highest priority that a waiting load requests (R134, R236)
        s.dirRead c cluster addr (wants.foldl (fun r o => some (raisePrio (r.getD .first) (s.fillRequest o))) none)
      else s)

/-- The end of `sgacq` or `sgrel`: the transition of R234, once for all its lanes. -/
def State.doSg (s : State) (o : MemOp) (acq : Bool) : State :=
  match s.cache? o.loc.vcid with
  | none => s.endOp o o.blanks
  | some c =>
    let seg := segOf o.loc.key
    let r := c.replica o.cluster
    if s.inTransit o || o.phase = .left then s
    else
      let s1 := if acq then s.dirAcquire r seg else s.dirRelease r seg
      -- the count falls when the directory has made the transition: at once, or with the end of the transit (R258)
      if s1.inTransit o then s1.onOp o.num fun o => { o with phase := .left } else s1.endOp o o.blanks
def execDirSgacq (op : Nat) (s : State) : Out :=
  .next (
    match s.op? op with
    | none => s
    | some o => if o.kind = .sg true && s.performable o then s.doSg o true else s)
def execDirSgrel (op : Nat) (s : State) : Out :=
  .next (
    match s.op? op with
    | none => s
    | some o => if o.kind = .sg false && s.performable o then s.doSg o false else s)

/-- DIR_EVICT: the directory drops an entry that it needs for another. -/
def execDirEvict (seg : Nat) (s : State) : Out := .next (s.dirDrop seg)
def execDirTransitEnd (seg : Nat) (s : State) : Out := .next (s.transitEnd seg)

/-! ### Atomics and vault banks -/

/-- The operands of an atomic's lanes. -/
def MemOp.args (o : MemOp) : List (DWord × DWord) := o.lanes.map fun l => (l.b, l.c)

/-- The old values in the reply of an atomic. -/
def replyVals (n k : Nat) (bs : List Byte) : List DWord :=
  (List.range k).map fun i => BitVec.ofNat 64 (natOfBytes ((bs.drop (n * i)).take n))

/-- One half of an `aadd2h` at the agent of its word: the halves are performed at moments of their own, and which comes first is a
free choice (R359; log entry 12). -/
def State.doHalf (s : State) (o : MemOp) : State :=
  match o.phase with
  | .half upper vals =>
    match s.rmwHalf o.loc (!upper) o.args with
    | (none, s1) => s1.failOp o cPoison 0
    | (some vs, s1) =>
      let (lo, hi) := if upper then (vs, vals) else (vals, vs)
      s1.endOp o (List.zipWith (fun (x y : BitVec 16) => (y ++ x).setWidth 64) lo hi)
  | _ =>
    let upper := Config.pick s.free % 2 == 1
    match s.rmwHalf o.loc upper o.args with
    | (none, s1) => s1.failOp o cPoison 0
    | (some vs, s1) => { s1.onOp o.num (fun o => { o with phase := .half upper vs }) with free := s.free + 1 }

/-- ATOMIC_PERFORM (R358): one request at the agent of its location; a poisoned granule is not written (R240). -/
def execAtomicPerform (op : Nat) (s : State) : Out :=
  .next (
    match s.op? op with
    | none => s
    | some o =>
      if !s.performable o then s
      else if o.unsent then s.sendNow o
      else match o.kind with
        | .rmw r _ => match o.phase with
          | .failed c x => s.failSent o c x
          | .self q n j =>
            let (x, s1) := s.asIssued n j fun s => s.serveAtomic q r o.args
            s1.selfEnd o x fun bs s => s.endOp o (replyVals (rmwSize r) o.lanes.length bs)
          | _ =>
            let s0 := if ordReleases o.ord then s.releaseTag o.ctag else s
            if r = .add2h then s0.doHalf o
            else match s0.rmwAt o.loc r o.args with
              | (none, s1) => s1.failOp o cPoison 0
              | (some vs, s1) => s1.endOp o vs
        | _ => s)

/-- VAULT_BANK_OP (R229): a full/empty operation arrives at its bank; `femk` sets the bits of its words in turn. -/
def execVaultBankOp (op : Nat) (s : State) : Out :=
  .next (
    match s.op? op with
    | none => s
    | some o =>
      if !s.mayPerform o || o.phase != .issued then s
      else match o.kind with
        | .fe _ => s.feArrive o
        | .femk len full => ((List.range (len / 4)).foldl (fun s i => s.setBit (o.word + 4 * i) (!full)) s).endOp o o.blanks
        | _ => s)

/-! ### Answers of other devices (R319, R322, R361, R435) -/

/-- The end of a class-10 operation whose answer has arrived. -/
def State.answered (s : State) (o : MemOp) (bs : List Byte) : State :=
  match o.kind with
  | .load _ | .block _ => s.endOp o [o.value bs]
  | .rmw r _ => s.endOp o (replyVals (rmwSize r) o.lanes.length bs)
  | .hsig fn v _ => s.hsigMessage o fn v
  | _ => s.endOp o o.blanks

/-- The first sending of an operation to another device. -/
def MemOp.sentAt (o : MemOp) : Option Nat :=
  match o.phase with
  | .sent t _ _ => if o.loc.ranked then some t else none
  | _ => none

def MemOp.isRmw (o : MemOp) : Bool :=
  match o.kind with
  | .rmw _ _ => true
  | _ => false
/-- The GTS from which an answer to a request comes too late (R316, R361). -/
def MemOp.deadline (o : MemOp) (t : Nat) : Nat := t + (if o.isRmw then ms8 else ms100)

/-- REMOTE_REPLY (R319); one that arrives too late is discarded (R316, R361). -/
def execRemoteReply (op : Nat) (r : Reply) (s : State) : Out :=
  .next (
    match s.op? op with
    | none => s
    | some o =>
      match o.sentAt with
      | none => s
      | some t =>
        if o.deadline t ≤ s.gts then s
        else match r with
        | .data bs => s.answered o bs
        | .nack e => s.failOp o cRemoteNack (e.setWidth 16)
        | .portDown => s.failOp o cPodPortDown 0)

/-- REMOTE_ACCESS_TIMEOUT (R316, R322): a load or store not answered within 100 ms of its sending. -/
def execRemoteAccessTimeout (op : Nat) (s : State) : Out :=
  .next (
    match s.op? op with
    | none => s
    | some o => match o.sentAt with
      | none => s
      | some t => if !o.isRmw && decide (o.deadline t ≤ s.gts) then s.failOp o cRemoteTimeout 0 else s)

/-- The time of an unanswered request's next sending, in nanoseconds after the first (R322). -/
def resendAfter (tries : Nat) : Nat := ((List.range tries).map fun i => min (20000 * 2 ^ i) 2000000).sum
/-- The request as it was first sent. -/
def State.requestOf (s : State) (op : Nat) : List Msg :=
  s.outbox.filter fun m => match m with
    | .request r => r.op == op
    | _ => false

/-- REMOTE_ATOMIC_RESEND (R361): while GTS is below T0 + 6 ms; not over UALink, whose link layer resends (R330). -/
def execRemoteAtomicResend (op : Nat) (s : State) : Out :=
  .next (
    match s.op? op with
    | none => s
    | some o => match o.phase with
      | .sent t n p =>
        if o.isRmw && o.loc.space == .remote && decide (t + resendAfter n ≤ s.gts) && decide (s.gts < t + 6000000) then
          let s1 := s.onOp op fun o => { o with phase := .sent t (n + 1) p }
          { s1 with outbox := s1.outbox ++ (s.requestOf op).take 1 }
        else s
      | _ => s)

/-- ATOMIC_OUTCOME_UNKNOWN (R361): no reply by T0 + 8 ms. -/
def execAtomicOutcomeUnknown (op : Nat) (s : State) : Out :=
  .next (
    match s.op? op with
    | none => s
    | some o => match o.sentAt with
      | none => s
      | some t => if o.isRmw && decide (o.deadline t ≤ s.gts) then s.failOp o cOutcomeUnknown 0 else s)

/-- An operation on the CXL link: the time of its sending. -/
def MemOp.cxlSent (o : MemOp) : Option Nat :=
  match o.phase with
  | .sent t _ _ => if o.loc.cxl then some t else none
  | _ => none

/-- CXL_COMPLETION (R435): the expander answers a load, a store, or a burst of a copy (R331), by the number of the operation, at the
latest at the moment of its timeout. -/
def execCxlCompletion (op : Nat) (s : State) : Out :=
  .next (
    match s.op? op with
    | none => s.copyAnswered op
    | some o =>
      if !(o.cxlSent.any fun t => decide (s.gts ≤ s.cxlDeadline t)) || !s.mayPerform o || !s.links.cxlUp then s
      else match o.kind with
        | .load _ | .elemLoad _ _ _ => s.doLoad o
        | .store | .elemStore _ => s.doStore o fun s => s.endOp o o.blanks
        | .hsig fn v w => s.doHsig o fn v w
        | _ => s)

/-- CXL_TIMEOUT (R435): TIMEOUT + 1 ms after the sending; a request that is sent while the link is down fails as it is sent. -/
def execCxlTimeout (op : Nat) (s : State) : Out :=
  let late := fun (t : Nat) => decide (s.cxlDeadline t ≤ s.gts)
  .next (
    match s.op? op with
    | none => match s.copyOnCxl op with
      | some (c, t) => if late t then s.cxlTimedOut.copyErr c.id cLinkLost 0 else s
      | none => s
    | some o => match o.cxlSent with
      | none => s
      | some t => if late t then s.cxlTimedOut.failOp o cLinkLost 0 else s)

/-! ### Waiters of a stream (R121, R137, R138, R177, R264, R364, R420) -/

/-- A parked stream goes on after its instruction. -/
def Stream.passed (st : Stream) : Stream := st.goto (st.pc + 8)

/-- JOIN_SLOT_RELEASE (R128, R177). -/
def execJoinSlotRelease (tcx group slot : Nat) (s : State) : Out :=
  let t := s.team tcx
  let free := fun (st : Stream) => st.inGroup t group && st.park == .join slot true
  .next { s with streams := s.streams.map fun st => if free st then st.passed else st }

/-- A stream waits at a barrier whose generation has passed. -/
def State.barPassed (s : State) (st : Stream) : Option Nat → Bool
  | some id => (match st.park with
    | .bar n gen _ _ => n == id && (((s.team st.id.tcx).barrier id).gen != gen)
    | _ => false)
  | none => (match st.park with
    | .gbar gen _ => (sget blankBar s.gbars (s.team st.id.tcx).grid).gen != gen
    | _ => false)
/-- A wait that orders nothing as it returns (R366, R367). -/
def Park.relaxed (p : Park) : Bool :=
  match p with
  | .bar _ _ _ rlx | .gbar _ rlx => rlx
  | _ => false
/-- BARRIER_RELEASE (R364, R366, R367): the threads of a team; the return of a wait without RLX is an acquire. -/
def execBarrierRelease (tcx : Nat) (id : Option Nat) (s : State) : Out :=
  .next { s with streams := s.streams.map fun st =>
    if st.id.tcx = tcx && s.barPassed st id then (if st.park.relaxed then st else s.barReturn id st).passed else st }

/-- NSLEEP_WAKE (R137). -/
def execNsleepWake (sid : SId) (s : State) : Out :=
  .next (s.onLane sid fun st => match st.park with
    | .sleep w => if w ≤ s.gts then st.passed else st
    | _ => st)

/-- YIELD_EXPIRE (R138): the deferral ends after 512 cycles. -/
def execYieldExpire (sid : SId) (s : State) : Out :=
  .next (s.onLane sid fun st => match st.yield with
    | some y => if y.1 ≤ s.clock.cycles then { st with yield := none } else st
    | none => st)

/-- ISSUE_AGING (R121): ready for 2,048 cycles without issuing. -/
def execIssueAging (sid : SId) (s : State) : Out :=
  .next (s.onLane sid fun st =>
    if st.park = .none && !st.exited && st.stall.isNone && decide (st.since + 2048 ≤ s.clock.cycles) then { st with aged := true }
    else st)

/-- WATCHDOG_EXPIRE (R420): no stream of a resident team has issued for WDOG_MS, and one of them is parked or stalled. -/
def execWatchdogExpire (tcx : Nat) (s : State) : Out :=
  .next (
    match s.team? tcx with
    | none => s
    | some t =>
      let ms := (s.fn t.fn).wdog.toNat
      let waits := s.streams.any fun st => st.id.tcx == tcx && !st.exited && (st.park != .none || st.stall.isSome)
      if ms ≠ 0 && t.active && waits && decide (t.lastIssue + ms * 1000000 ≤ s.gts) then s.endTeam tcx cWatchdog else s)

end Sys2Proof.Machine
end

