-- ==== Sys2Proof/Machine/Host.lean ====
section
/-! DEFINITION. Sys2Proof/Machine/Host.lean: the registers of the host's BARs (R36, R433), links (R330, R434, R435), messages and
events (R431, R442), time (R440), power (R438, R439), resets (R436, R437), firmware and the management port (R443 to R446). -/
namespace Sys2Proof.Machine

/-! ### Functions (R433) -/

/-- A write to FN_CFG_n, discarded as a whole where it breaks a rule of R433. -/
def State.fnCfgWrite (s : State) (n : Nat) (v : DWord) : State :=
  let first := v.extractLsb' 0 16
  let last := v.extractLsb' 16 16
  let asid := v.extractLsb' 32 16
  let msix := (v.extractLsb' 49 11).toNat
  let valid := n == 0 || v.getLsbD 63
  let others := (List.range 65).filter fun m => m != n && (s.fn m).v
  let sum := (others.map fun m => (s.fn m).msix + 1).sum + (if valid then msix + 1 else 0)
  let overlap := others.any fun m => decide (first ≤ (s.fn m).last) && decide ((s.fn m).first ≤ last)
  if 64 < n || last < first || overlap || 2048 < sum then s
  else s.onFn n fun f =>
    { f with v := valid, atomic := v.getLsbD 62, msix := msix, first := first, last := last, privAsid := asid
             privV := v.getLsbD 48 && decide (first ≤ asid) && decide (asid ≤ last) }

/-- FN_CFG_WRITE: in recovery no function shows its BARs (R443). -/
def execFnCfgWrite (n : Nat) (v : DWord) (s : State) : Out := .next (if s.fw.recovery then s else s.fnCfgWrite n v)

/-- What FN_CFG_n reads. -/
def FnCfg.word (f : FnCfg) : DWord :=
  bit f.v ++ bit f.atomic ++ 0#2 ++ BitVec.ofNat 11 f.msix ++ bit f.privV ++ f.privAsid ++ f.last ++ f.first

/-! ### Power states that the host and the management port allow (R433, R438, R445) -/

/-- STATE of PWR_CTL (R433). -/
def Power.state (p : Power) : Nat :=
  if p.deep then 4 else if 4 ≤ p.retained.length then 2 else if 48 ≤ p.gated.length then 1 else 0
/-- A change of power states; a new device-wide state is recorded (R442). -/
def State.setPower (s : State) (p : Power) : State :=
  let s1 := { s with pwr := p }
  if p.state = s.pwr.state then s1 else s1.record 8 0x502 (BitVec.ofNat 64 p.state)
/-- The host's tolerance in nanoseconds; none where it gives none (R433). -/
def State.tolerance (s : State) : Option Nat :=
  let w := s.hif.pwrTol
  let scale := (w.extractLsb' 10 3).toNat
  if !w.getLsbD 15 then none else some (if scale ≤ 5 then (w.extractLsb' 0 10).toNat * 32 ^ scale else 0)
/-- A state that the tolerance and the management port allow: its code and its exit latency in nanoseconds. -/
def State.allows (s : State) (code latency : Nat) : Bool :=
  (s.tolerance.any fun t => decide (latency ≤ t)) && !(s.pwr.disabled.contains code)
/-- Units leave the states that are allowed no more (R438). -/
def State.leaveStates (s : State) : State :=
  let p := s.pwr
  s.setPower { p with
    gated := if s.allows 1 2000 then p.gated else [], retained := if s.allows 2 40000 then p.retained else []
    hbmSr := if s.allows 3 300000 && s.hif.hbmIdle != 0 then p.hbmSr else [], deep := p.deep && s.allows 4 5000000 }

/-! ### Register writes (R36, R37, R47, R433) -/

/-- A write to BAR 0 of the physical function. -/
def State.bar0Write (s : State) (off : Nat) (v : DWord) : State :=
  let hif := fun (h : HostIf) => { s with hif := h }
  if off = 0x000 then hif { s.hif with lost := s.hif.lost && !v.getLsbD 1 }
  else if off = 0x008 then (hif { s.hif with pwrTol := v &&& 0x9FFF }).leaveStates
  else if off = 0x010 then (hif { s.hif with hbmIdle := (v.extractLsb' 32 16).toNat }).leaveStates
  else if off = 0x018 then hif { s.hif with cxlTimeout := (v.extractLsb' 0 6).toNat }
  else if off = 0x020 then hif { s.hif with evtBase := v &&& 0xFFFFFFFFFFFFF000 }
  else if off = 0x028 then hif { s.hif with evtCtl := v &&& 0x87FF000F }
  else if off = 0x038 then hif { s.hif with evtTail := v.toNat % 2 ^ 32 }
  else if 0x100 ≤ off && off ≤ 0x300 then s.fnCfgWrite ((off - 0x100) / 8) v
  else s

/-- A write to LP_GRAPH_CTL (R47): the operation that OP names; OP 0 writes the fields. -/
def State.graphCtlWrite (s : State) (fn n size : Nat) (v : DWord) : State :=
  let o : GraphOp := ⟨fn, n, size, v.extractLsb' 0 16, v.extractLsb' 16 16⟩
  let p := s.port fn n
  match (v.extractLsb' 32 2).toNat with
  | 1 => s.graphInstall o
  | 2 => s.graphRemove o
  | 3 => s.graphStart o
  | _ =>
    if !p.enable || size != 8 || decide (65536 < o.first.toNat + o.count.toNat) then s.badWrite fn n
    else if p.busy then s else s.graphRegs o 0 false

/-- A write to a register of a port through the function's own BAR 2. -/
def State.portRegWrite (s : State) (fn n off size : Nat) (v : DWord) : State :=
  if 0x30 ≤ off then s
  else if size ≠ 8 || off % 8 ≠ 0 then s.badWrite fn n
  else match off / 8 with
    | 0 => s.submitWrite fn n size v
    | 1 => s.onPort fn n fun p =>
        { p with refused := p.refused && !v.getLsbD 59, overflow := p.overflow && !v.getLsbD 58
                 badWrite := p.badWrite && !v.getLsbD 57 }
    | 2 => s.onPort fn n fun p => { p with graphSrc := v }
    | 3 => s.graphCtlWrite fn n size v
    | 4 => s.onPort fn n fun p => { p with gValid := p.gValid && !v.getLsbD 63 }
    | _ => s.configWrite fn fn n size v

/-- A write to BAR 2: the function's ports, or in the physical function the windows of R36, which take LP_CONFIG alone. -/
def State.bar2Write (s : State) (fn off size : Nat) (v : DWord) : State :=
  if off < 0x1000 then s.portRegWrite fn (off / 64) (off % 64) size v
  else if fn = 0 && off < 0x41000 && off % 64 / 8 == 5 then s.configWrite 0 (off / 0x1000) (off % 0x1000 / 64) (if off % 8 = 0 then size else 0) v
  else s

/-- REGISTER_WRITE (R36, R423, R433). -/
def execRegisterWrite (w : BarWrite) (s : State) : Out :=
  .next (
    if 64 < w.fn || !s.barsOpen w.fn then s
    else if w.bar = 0 then (if w.fn = 0 && w.size = 8 && w.offset % 8 = 0 then s.bar0Write w.offset w.value else s)
    else if w.bar = 2 then s.bar2Write w.fn w.offset w.size w.value
    else s)

/-- What LP_STATUS reads (R36). -/
def Port.status (p : Port) : DWord :=
  0#4 ++ bit p.refused ++ bit p.overflow ++ bit p.badWrite ++ bit p.enable ++ 0#3 ++ BitVec.ofNat 5 p.fifo.length ++
    BitVec.ofNat 16 p.readCount ++ p.lastReject
/-- What LP_GRAPH_CTL and LP_GRAPH_FAULT read (R36). -/
def Port.graphCtl (p : Port) : DWord :=
  0#29 ++ bit p.busy ++ BitVec.ofNat 2 p.op ++ BitVec.ofNat 16 p.count ++ BitVec.ofNat 16 p.first
def Port.graphFault (p : Port) : DWord :=
  bit p.gValid ++ 0#7 ++ p.gCause ++ p.gReject ++ BitVec.ofNat 16 p.gNode
/-- What LP_CONFIG reads (R36). -/
def Port.config (p : Port) : DWord := 0#35 ++ bit p.irqEn ++ BitVec.ofNat 11 p.vector ++ bit p.enable ++ p.asid
/-- What a register of a port reads (R36): LP_SUBMIT is written only, and reads as zero. -/
def Port.read (p : Port) (off : Nat) : DWord :=
  match off / 8 with
  | 1 => p.status | 2 => p.graphSrc | 3 => p.graphCtl | 4 => p.graphFault | 5 => p.config | _ => 0
/-- The bytes of a read that starts at an offset of a map of 8-byte registers (R433). -/
def regBytes (word : Nat → DWord) (off n : Nat) : List Byte :=
  (List.range n).map fun i => (word ((off + i) / 8 * 8)).extractLsb' (8 * ((off + i) % 8)) 8
/-- The register of BAR 2 of a function at an offset: of its ports, and in the physical function of the others' through their windows
(R36). A function that is not configured (R433), or any in recovery (R443), reads as zero; through its window LP_CONFIG alone is seen
then, which the physical function writes there. -/
def State.bar2Word (s : State) (fn off : Nat) : DWord :=
  let at_ := fun (f : Nat) => (s.port f (off % 0x1000 / 64)).read (off % 64)
  if !s.barsOpen fn then 0
  else if off < 0x1000 then at_ fn
  else if fn = 0 && off < 0x41000 && (s.barsOpen (off / 0x1000) || off % 64 == 0x28) then at_ (off / 0x1000)
  else 0
/-- What BAR 2 of a function reads. -/
def State.bar2Read (s : State) (fn off n : Nat) : List Byte := regBytes (s.bar2Word fn) off n
/-- What HL_STAT reads (R433). -/
def State.hlStat (s : State) : DWord :=
  BitVec.ofNat 32 s.links.discarded ++ BitVec.ofNat 16 s.links.losses ++ 0#14 ++ bit s.hif.lost ++ bit s.links.hostUp
/-- What CXL_CTL reads (R433). -/
def State.cxlCtl (s : State) : DWord :=
  0#32 ++ BitVec.ofNat 16 s.hif.cxlTimeouts ++ 0#7 ++ bit s.links.cxlUp ++ 0#2 ++ BitVec.ofNat 6 s.hif.cxlTimeout

/-- The registers of BAR 0 by offset, as the physical function reads them (R433). -/
def State.bar0Word (s : State) (off : Nat) : DWord :=
  if off = 0x000 then s.hlStat
  else if off = 0x008 then s.hif.pwrTol
  else if off = 0x010 then BitVec.ofNat 64 (s.hif.hbmIdle % 65536 * 2 ^ 32 + s.pwr.state)
  else if off = 0x018 then s.cxlCtl
  else if off = 0x020 then s.hif.evtBase
  else if off = 0x028 then s.hif.evtCtl
  else if off = 0x030 then BitVec.ofNat 64 s.hif.evtHead
  else if off = 0x038 then BitVec.ofNat 64 s.hif.evtTail
  else if 0x100 ≤ off && off ≤ 0x300 then (s.fn ((off - 0x100) / 8)).word
  else 0
/-- What BAR 0 of a function reads (R433): a function that is not configured reads as zero, and a virtual function sees HL_STAT and its
own FN_CFG. -/
def State.bar0Read (s : State) (fn off n : Nat) : List Byte :=
  regBytes (fun a =>
    if !s.barsOpen fn then 0
    else if fn = 0 then s.bar0Word a
    else if a = 0x000 then s.hlStat
    else if a = 0x100 then (s.fn fn).word
    else 0) off n

/-! ### The host link (R431, R434, R442) -/

/-- HOST_LINK_LOSS (R419, R434). -/
def execHostLinkLoss (s : State) : Out :=
  .next (
    if !s.links.hostUp then s
    else
      let s1 := { s with links := { s.links with hostUp := false, losses := (s.links.losses + 1) % 65536 }
                         hif := { s.hif with lost := true } }
      let reads := s1.ops.filter fun o => o.loc.space == .host && !o.loc.cxl && o.reads
      ((reads.foldl (fun s o => s.failOp o cLinkLost 0) s1).loseCopies).record 4 0x500 0)

/-- HOST_LINK_UP (R434): the held records first, then LINK_UP; the first training after a reset ends no loss. -/
def execHostLinkUp (s : State) : Out :=
  .next (
    if s.links.hostUp then s
    else
      let s1 := { s with links := { s.links with hostUp := true, wasUp := true }, hif := { s.hif with held := [] } }
      let s2 := s.hif.held.foldl State.putEvent s1
      if s.links.wasUp then s2.record 5 0x500 0 else s2)

/-- MSIX_UNMASK (R431): a pending message is sent. -/
def execMsixUnmask (fn vector : Nat) (s : State) : Out :=
  let k := 2048 * fn + vector
  .next (
    if 64 < fn || !(s.fn fn).v || (s.fn fn).msix < vector then s
    else
      let s1 := { s with hif := { s.hif with unmasked := nins s.hif.unmasked k, pending := ndel s.hif.pending k } }
      if s.hif.pending.contains k then s1.sendMsix fn vector else s1)

/-- The host masks a vector (R431). -/
def State.maskMsix (s : State) (fn vector : Nat) : State :=
  { s with hif := { s.hif with unmasked := ndel s.hif.unmasked (2048 * fn + vector) } }

/-- EVENT_RECORD (R442): by one of the sources that R441 lists. -/
def execEventRecord (event : BitVec 8) (source : BitVec 16) (detail : DWord) (s : State) : Out :=
  .next (if eventSource source.toNat then s.noteEvent ⟨s.gts, event, source, detail⟩ else s)

/-! ### The other links (R330, R362, R435) -/

/-- A pod access whose port goes down: an atomic of a memory node has an unknown outcome, another access goes to the next port,
and ends where none is left (R330, R362). -/
def State.podDown (s : State) (port : Nat) (o : MemOp) : State :=
  match o.phase with
  | .sent t n (some p) =>
    if o.loc.space != .pod || p != port then s
    else if o.isRmw then s.failOp o cOutcomeUnknown 0
    else if s.links.anyPort || s.cached o then s.onOp o.num fun x => { x with phase := .sent t n (s.podPort o) }
    else s.failOp o cPodPortDown 0
  | _ => s

/-- UALINK_PORT_DOWN (R330). -/
def execUalinkPortDown (port : Nat) (s : State) : Out :=
  let s1 := { s with links := { s.links with ports := s.links.ports.set port false } }
  let s2 := s.ops.foldl (fun x o => x.podDown port o) s1
  let flying := s2.dr.copies.filter fun c => !c.final && c.packets.any (fun p => !p.acked) && (match c.dest with
    | some (.pod _) => true
    | _ => false)
  .next (if s2.links.anyPort then s2 else (flying.map (·.id)).foldl (fun s c => s.copyErr c cPodPortDown 0) s2)
/-- UALINK_PORT_UP (R330). -/
def execUalinkPortUp (port : Nat) (s : State) : Out :=
  .next { s with links := { s.links with ports := s.links.ports.set port true } }

/-- CXL_LINK_DOWN and CXL_LINK_UP (R435). -/
def execCxlLinkDown (s : State) : Out := .next { s with links := { s.links with cxlUp := false } }
def execCxlLinkUp (s : State) : Out := .next { s with links := { s.links with cxlUp := true } }

/-! ### Power (R438, R439) -/

/-- A stream that may issue, by its own state. -/
def State.runs (s : State) (st : Stream) : Bool :=
  let t := s.team st.id.tcx
  st.park == .none && !st.exited && st.stall.isNone && t.active && t.ended.isNone && !(s.halted.contains (t.coreOf st.id))

/-- The entry condition of a cluster. -/
def State.clusterIdle (s : State) (c : Nat) : Bool :=
  let mine := fun (tcx : Nat) => (s.team? tcx).any fun t => t.active && t.cluster == c
  !(s.streams.any fun st => mine st.id.tcx && s.runs st) && !(s.qu.xfers.any fun x => x.core / 4 == c) &&
    !(s.mx.ops.any fun o => mine o.sid.tcx) && !(s.dr.copies.any fun x => mine x.tcx && !x.final)
/-- The entry condition of a die; Miller and Porter work counts for every die. -/
def State.dieIdle (s : State) (d : Nat) : Bool :=
  ((List.range 12).all fun i => s.pwr.gated.contains (12 * d + i)) && s.openInsts.isEmpty &&
    !(s.dr.copies.any fun x => !x.final && (x.dray.map (· / 64)) == some d)
/-- The entry condition of the device. -/
def State.deviceIdle (s : State) : Bool :=
  !(s.teams.any fun t => t.image.isNone) && s.ops.isEmpty && s.qu.xfers.isEmpty && s.mx.ops.isEmpty && s.openInsts.isEmpty &&
    s.dr.copies.all Copy.final && s.co.mcasts.isEmpty && s.loom.held.isEmpty && s.loom.grids.isEmpty &&
    (s.loom.ports.all fun p => p.2.fifo.isEmpty) && !(s.jobs.any (·.v))

/-- The locations in the device's memory of the requests that are outstanding or about to be made: of operations, tile operations, the next
move of a running copy, and the fetches of streams that run (R439). -/
def State.requested (s : State) : List Loc :=
  let page := fun (w : Who) (ak : AK) (a : DWord) => match s.checkPage w ak a.toNat with
    | .ok c => if a.extractLsb' 57 7 = 0 then [c.loc] else []
    | .error _ => []
  let copies := (s.dr.copies.filter Copy.going).flatMap fun c => match c.dray, c.todo[c.moved]? with
    | some d, some (x, f) => page (s.drayWho c d) .store x ++ (match f with | .mem a => page (s.drayWho c d) .load a | .byte _ => [])
    | _, _ => []
  let fetches := (s.streams.filter s.runs).flatMap fun st => page (s.who st) .fetch st.pc
  ((s.ops.filter fun o => !s.cached o).map MemOp.loc ++ (s.mx.ops.flatMap fun o => o.mem.flatMap fun r => r.map fun p => p.2.1) ++
    copies ++ fetches).filter fun l => l.space == .dev
/-- The pseudo-channels of the requests. The spec does not say which holds an address: a free value (R439). -/
def State.channelsUsed (s : State) : List Nat := s.requested.map fun l => Config.channelOf l.key
/-- The idle timers of pseudo-channels restart (R439). -/
def State.restartTimers (s : State) (ks : List Nat) : State :=
  if ks.isEmpty then s else { s with pwr := { s.pwr with busy := ks.foldl (fun b k => sset 0 b (128 + k) s.clock.gtsQ) s.pwr.busy } }

/-! ### Streams that may issue (R118, R139) -/



/-- A parked stream whose event has come: it is re-examined by executing its instruction again. Streams at a barrier, a join slot,
`nsleep`, `launch`, a full/empty wait, `vcdef.rm` or a fault are released by steps of their own. -/
def State.wakes (s : State) (st : Stream) : Bool :=
  match st.park with
  | .counters l t c m => st.under (threshold l t c m)
  | .exitWait | .stop => st.drained
  | .waitc loc target =>
    waitcHolds (BitVec.ofNat 32 (natOfBytes (s.peek loc (s.team st.id.tcx).cluster 4))) target
  | .queue seen => seen.any fun k => (s.queue k.1).ver != k.2
  | .wq n ver _ => (s.wq n).ver != ver
  | .wqpop n _ => !(s.wq n).entries.isEmpty || (s.wq n).state != 0 || !(s.wq n).v
  | .fence m => !s.pendingIn [st.id] m
  | .mfence => st.cnt.tl == 0
  | .tlbsync ops packets => (s.undrained ops).isEmpty && (s.unplaced packets).isEmpty
  | .walker die n => s.mayMerge die st && !s.othersHeld die (some n)
  | _ => false

/-- A stream that may issue: of a resident team, on a core that is not halted, neither exited nor parked; a control stream starts
after the one that a swap has taken out (R415). In recovery none issues (R443). -/
def State.canIssue (s : State) (st : Stream) : Bool :=
  !st.exited && !s.fw.recovery && (s.team? st.id.tcx).any (fun t => t.resident && !(s.halted.contains (t.coreOf st.id)) &&
      !(st.id.kind == .control && s.arrayHeld t.cluster)) &&
    (st.park == .none || s.wakes st)

/-- Time passes: units whose entry condition fails have failed it until now, and streams that could not issue have not been
ready until now (R121). The records of a nanosecond are written at its end (R442). -/
def State.advance (s0 : State) (cycles quarters : Nat) : State :=
  let now := s0.clock.gtsQ + quarters
  let s := if now / 4 = s0.clock.gtsQ / 4 then s0 else s0.grantEntries.writeEvents
  let units := (List.range 48).map (fun c => (c, s.clusterIdle c)) ++ (List.range 4).map (fun d => (64 + d, s.dieIdle d)) ++
    [(100, s.deviceIdle)]
  let failed := (units.filter fun u => !u.2).map (·.1) ++ s.channelsUsed.map (128 + ·)
  let busy := failed.foldl (fun b u => sset 0 b u now) s.pwr.busy
  let cyc := s.clock.cycles + cycles
  { s with clock := ⟨cyc, now⟩, pwr := { s.pwr with busy := busy }
           streams := s.streams.map fun st => if s.canIssue st && st.stall.isNone then st else { st with since := cyc, aged := false } }
/-- A unit's condition has held for some nanoseconds. -/
def State.dwelt (s : State) (unit ns : Nat) : Bool := decide (sget 0 s.pwr.busy unit + 4 * ns ≤ s.clock.gtsQ)

/-- CLK_GATE_ENTER. -/
def execClkGateEnter (cluster : Nat) (s : State) : Out :=
  .next (if decide (cluster < 48) && s.clusterIdle cluster && s.dwelt cluster 1000 && s.allows 1 2000 then
    s.setPower { s.pwr with gated := nins s.pwr.gated cluster } else s)
/-- RETAIN_ENTER. -/
def execRetainEnter (die : Nat) (s : State) : Out :=
  .next (if decide (die < 4) && s.dieIdle die && s.dwelt (64 + die) 100000 && s.allows 2 40000 then
    s.setPower { s.pwr with retained := nins s.pwr.retained die } else s)
/-- HBM_SR_ENTER (R439): the idle timer of a pseudo-channel has expired without a request; one that is outstanding in the same cycle
wins. -/
def execHbmSrEnter (channel : Nat) (s : State) : Out :=
  .next (if s.hif.hbmIdle ≠ 0 && !(s.channelsUsed.contains channel) && s.dwelt (128 + channel) (s.hif.hbmIdle * 1000) && s.allows 3 300000 then
    s.setPower { s.pwr with hbmSr := nins s.pwr.hbmSr channel } else s)
/-- DEEP_ENTER. -/
def execDeepEnter (s : State) : Out :=
  .next (if s.deviceIdle && s.dwelt 100 10000000 && s.allows 4 5000000 then s.setPower { s.pwr with deep := true } else s)

/-- POWER_WAKE: a request meets a unit in a low-power state. -/
def State.wake (s : State) (u : PowerUnit) : State :=
  let p := s.pwr
  s.setPower (match u with
    | .cluster c => { p with gated := ndel p.gated c, retained := ndel p.retained (c / 12), deep := false
                             busy := sset 0 p.busy c s.clock.gtsQ }
    | .die d => { p with retained := ndel p.retained d, deep := false, busy := sset 0 p.busy (64 + d) s.clock.gtsQ }
    | .channel k => { p with hbmSr := ndel p.hbmSr k, busy := sset 0 p.busy (128 + k) s.clock.gtsQ }
    | .device => { p with deep := false, busy := sset 0 p.busy 100 s.clock.gtsQ })
def execPowerWake (u : PowerUnit) (s : State) : Out := .next (s.wake u)

/-- POWER_LIMIT (R445): a disabled state is left. -/
def execPowerLimit (disable : List Nat) (cap : Option Nat) (s : State) : Out :=
  .next (({ s with pwr := { s.pwr with disabled := disable, cap := cap } }.leaveStates).answerMctp false [])

/-- The units that an event wakes (R438): a host write, a submission or a management command the device, a packet the dies, since the
Porter's and the Millers' work counts for every die, an `nsleep` wake time and a Sweeper period the cluster, and HALT_ALL every one. -/
def State.wakesUnits (s : State) : Instr → List PowerUnit
  | .registerWrite _ | .lpSubmit _ _ _ _ | .lpConfig _ _ _ _ _ | .lpGraphInstall _ | .lpGraphRemove _ | .lpGraphStart _
  | .fnCfgWrite _ _ | .spdmRequest _ | .pldmFwUpdate _ _ | .pldmMonitor | .mgmtFlr _ | .mgmtKeyInstall _ _ _ | .powerLimit _ _ => [.device]
  | .packetPlace _ | .packetAck _ _ _ | .packetNack _ _ _ | .remoteRequest _ _ _ | .remoteReply _ _ | .remoteAtomicExecute _
  | .millerStep _ _ _ | .abortReceive _ _ | .mcastAck _ => (List.range 4).map PowerUnit.die
  | .nsleepWake sid => [.cluster ((s.team sid.tcx).coreOf sid / 4)]
  | .sweeperPass n => [.cluster (n / 512)]
  | .haltAll | .crashDump => (List.range 48).map PowerUnit.cluster
  | _ => []
/-- A unit in a low-power state. -/
def Power.low (p : Power) : PowerUnit → Bool
  | .cluster c => p.gated.contains c || p.retained.contains (c / 12) || p.deep
  | .die d => p.retained.contains d || p.deep
  | .channel k => p.hbmSr.contains k
  | .device => p.deep
/-- An event wakes the units that it addresses. -/
def State.rouse (s : State) (i : Instr) : State := (s.wakesUnits i).foldl (fun s u => if s.pwr.low u then s.wake u else s) s

/-! ### Time (R440) -/

/-- PTP_SYNC: `nanos` pass while GTS is slewed by `slew` quarters of a nanosecond, at most 100 ppm; an offset above 50 µs is
recorded, by a source that the spec does not name. -/
def execPtpSync (nanos : Nat) (slew : Int) (offset : Nat) (s : State) : Out :=
  .next (
    if 4 * nanos < slew.natAbs * 10000 then s
    else
      let s1 := s.advance (4 * nanos) ((4 * (nanos : Int) + slew).toNat)
      if offset ≤ 50000 then s1 else { s1 with free := s1.free + 1 }.record 9 (pickSource (Config.pick s1.free)) 0)

/-! ### Function-level reset (R436, R437) -/

/-- The ASIDs that a table lists and a function owns. -/
def State.asidsOf (s : State) (n : Nat) : List Nat :=
  let seen := (s.tr.tlb.map (·.asid.toNat)) ++ s.tr.descs.map (·.1) ++ s.tr.merges.map (·.asid.toNat) ++ s.mx.cache.map (·.asid.toNat)
  (seen.foldl nins []).filter fun a => (s.fn n).v && s.ownsAsid n a

/-- The end of a team by a reset: its work and its place, without an update of its grid's counter. -/
def State.resetTeam (s : State) (t : Team) : State :=
  let cs := (s.dr.copies.filter fun c => c.tcx == t.tcx && !c.final).map (·.id)
  let left := s.ops.filter fun o => o.isLeft && o.lanes.any fun l => l.sid.tcx == t.tcx
  let s1 := (left.foldl State.finishLeft (cs.foldl State.cancelCopy s)).dropStreams t.tcx
  let gone := fun (o : MemOp) => o.lanes.any fun l => l.sid.tcx == t.tcx
  let s2 := { s1 with ops := pruneFences (s1.ops.filter fun o => !gone o)
                      images := match t.image with
                        | some n => s1.images.filter fun e => e.1 ≠ n
                        | none => s1.images }
  let s3 := t.queueKeys.foldl (fun s k => s.setQueue k []) (s2.dropMat t)
  let s4 := if t.recd.vaultKib = 0 then s3 else s3.fillVault t.vaultBase.toNat (t.recd.vaultKib * 1024)
  s4.freeTeam t

/-- Step 2 of R436: grids, records and nodes of a function. -/
def Loom.reset (l : Loom) (n : Nat) : Loom :=
  let nodes := (l.nodes.filter fun x => x.fn == n).map (·.idx)
  { l with ports := l.ports.filter fun p => p.1 / 64 != n, served := l.served.filter fun p => p / 64 != n
           held := l.held.filter fun g => g.fn != n, grids := l.grids.filter fun g => g.fn != n
           nodes := l.nodes.filter fun x => x.fn != n, completions := l.completions.filter fun x => !(nodes.contains x) }

/-- An FLR of a function (R436): ports and Loom, teams, engines, translations, then what its ASIDs hold. -/
def State.flrOne (s : State) (n : Nat) : State :=
  let mine := fun (asid : BitVec 16) => (s.fn n).v && s.ownsAsid n asid.toNat
  let gs := (s.loom.grids.filter fun g => g.fn == n).map (·.id)
  let s1 := { s with loom := s.loom.reset n, gbars := s.gbars.filter fun b => !(gs.contains b.1) }.noteHead
  let ts := s1.teams.filter fun t => t.fn == n
  let s2 := ts.foldl State.resetTeam s1
  let s3 := ((s2.dr.copies.filter fun c => c.fn == n && !c.final).map (·.id)).foldl State.cancelCopy s2
  -- what is cancelled or aborted is final now, without an update of any counter or status
  let s4 := { s3 with co := { s3.co with mcasts := s3.co.mcasts.filter fun m => m.fn != n }
                      dr := { s3.dr with copies := s3.dr.copies.filter fun c => c.fn != n }
                      loom := { s3.loom with retired := if ts.isEmpty then s3.loom.retired else some s3.clock.cycles } }
  let done := fun (i : Inst) => if i.fn = n then { i with final := true, ended := true, pushes := [] } else i
  let aborted := (s4.openInsts.filter fun i => i.fn == n).foldl (fun s i => s.abortInst i.num cAborted i.me) s4
  let s5 := { aborted with co := { aborted.co with insts := aborted.co.insts.map done } }
  let s6 := (s5.asidsOf n).foldl (fun s a => s.invalidate (BitVec.ofNat 16 a) none) s5
  let shares := s6.vt.shares.filterMap fun e => match e.2 with
    | some x => if x.role == .vault && mine x.owner then some e.1 else none
    | none => none
  let s7 := shares.foldl State.freeShare s6
  let s8 := (List.range 8).foldl (fun s k => if mine (s.job k).asid then s.invalidateJob k (s.job k).asid else s) s7
  let wqs := (s8.co.wqs.filter fun q => q.2.v && mine q.2.asid).map (·.1)
  let s9 := wqs.foldl (fun s k => s.wqWrite k ((s.wq k).asid.setWidth 32)) s8
  let here := fun (k : Nat) => k / 2048 == n
  let s10 := { s9.onFn n (fun f => { f with defVec := 0 }) with
                       tokens := s9.tokens.filter fun t => !mine t.asid
                       hif := { s9.hif with unmasked := s9.hif.unmasked.filter fun k => !here k
                                            pending := s9.hif.pending.filter fun k => !here k } }
  -- the source of the record is not stated: a free value
  { s10 with free := s10.free + 1 }.record 7 (pickSource (Config.pick s10.free)) (BitVec.ofNat 64 n)

/-- Every virtual cache is removed, its dirty lines written back, and VCID 1 stands as at boot (R437). -/
def State.resetCaches (s : State) : State :=
  let s1 := (s.writeBack fun _ => true).dropLines fun _ => true
  let s2 := (s1.vt.caches.flatMap VCache.shares).foldl State.freeShare s1
  let kept := s2.vt.shares.filter fun e => (e.2.any fun x => x.role == .failed || x.errors != 0)
  let boot := kept.map fun e => match e.2 with
    | some x => (e.1, if x.role = .failed then some x else some { bootShare e.1 with errors := x.errors })
    | none => e
  { s2 with vt := { s2.vt with caches := [bootCache], dirs := [], shares := boot, migrateMode := false } }

/-- An FLR of the physical function (R437). -/
def State.flrAll (s : State) : State :=
  let s1 := ((List.range 65).foldl State.flrOne s).resetCaches
  let rings := s1.tr.rings.mapIdx fun d r => { bootRing d with seq := r.seq }
  { s1 with jobs := List.replicate 8 blankJob, halted := []
            co := { s1.co with wqs := [], mcgLo := 0, mcgHi := 0 }
            tr := { s1.tr with asidTbl := 0, descs := [], tlb := [], upper := [], rings := rings } }

/-- FLR and PF_FLR. -/
def execFlr (fn : Nat) (s : State) : Out :=
  .next (if 64 < fn then s else if fn = 0 then s.flrAll else s.flrOne fn)
def execPfFlr (s : State) : Out := .next s.flrAll
/-- MGMT_FLR (R445). -/
def execMgmtFlr (fn : Nat) (s : State) : Out :=
  .next ((if 64 < fn then s else if fn = 0 then s.flrAll else s.flrOne fn).answerMctp false [])

/-- DEVICE_RESET (R437): all state but the management island's, with time, which never steps back (R440), and the model's own
schedule and free values. A firmware update that waits for the reset becomes active, and the identity key is derived anew (R444). -/
def execDeviceReset (s : State) : Out :=
  .next ({ State.reset with
    clock := s.clock, agenda := s.agenda, free := s.free, outbox := s.outbox
    fw := { State.reset.fw with
      fuse := s.fw.fuse, active := s.fw.update.orElse fun _ => s.fw.active, ident := s.fw.ident + 1 }
    pwr := { State.reset.pwr with disabled := s.pwr.disabled, cap := s.pwr.cap } }.answerMctp false [])

/-! ### Firmware and the management port (R443 to R446) -/

/-- A signature and a security version that R443 accepts. -/
def Firmware.accepts (f : Firmware) (image : List Byte) (version : Nat) : Bool := Config.mldsaOk image && decide (f.fuse ≤ version)
/-- What a stage loads: the next bytes of the image that the last reset made active, in its last stage all that are left; the firmware that
the device was made with is not stated (R443, R444; log entry 20). -/
def Firmware.loads (f : Firmware) (image : List Byte) (version : Nat) : Bool :=
  match f.active with
  | none => true
  | some (bs, v) => version == v && image == (if f.stages = 7 then bs.drop f.loaded else (bs.drop f.loaded).take image.length)

/-- FIRMWARE_STAGE (R443): the next of eight stages is measured and run, or the device goes into recovery. -/
def execFirmwareStage (stage : Nat) (image : List Byte) (version : Nat) (s : State) : Out :=
  .next (
    if s.fw.recovery || stage ≠ s.fw.stages || 8 ≤ stage || !s.fw.loads image version then s
    else
      let m := sset [] s.fw.measures stage ((Config.shake256 image).take 64)
      if s.fw.accepts image version then
        { s with fw := { s.fw with measures := m, stages := stage + 1, loaded := s.fw.loaded + image.length } }
      else { s with fw := { s.fw with measures := m, recovery := true } })

/-- The eight measurements. -/
def Firmware.report (f : Firmware) : List Byte := (List.range 8).flatMap fun i => (sget [] f.measures i ++ List.replicate 64 0).take 64
/-- A request over the host link reaches the device: the link is up, and it is not in recovery, where only the management port runs (R443,
R444). -/
def State.mctpOpen (s : State) (r : MctpReq) : Bool := !r.host || (s.links.hostUp && !s.fw.recovery)
/-- SPDM_REQUEST (R444): certificates, measurements and a signature over the nonce and the measurements, on the path of the request. -/
def execSpdmRequest (nonce : MctpReq) (s : State) : Out :=
  .next (if s.mctpOpen nonce then
    s.answerMctp nonce.host (Config.certificates ++ s.fw.report ++ Config.mldsaSign s.fw.ident (nonce.bytes ++ s.fw.report)) else s)
/-- PLDM_FW_UPDATE (R444, R445): a verified image becomes active at the next reset. -/
def execPldmFwUpdate (image : MctpReq) (version : Nat) (s : State) : Out :=
  let s1 := if s.fw.accepts image.bytes version then { s with fw := { s.fw with update := some (image.bytes, version) } } else s
  .next (if s.mctpOpen image then s1.answerMctp image.host [] else s)
/-- Event records that lie on the die: held, and of the current nanosecond. -/
def State.eventsHere (s : State) : List EvRec := s.hif.held ++ s.hif.fresh
/-- PLDM_MONITOR (R445): the uncorrectable errors counted and the event records; the sensors' values and the corrected errors, which the
spec gives no state, are free. -/
def execPldmMonitor (s : State) : Out :=
  let errors := (s.vt.shares.map fun e => (e.2.map (·.errors)).getD 0).sum
  .next (s.answerMctp false (bytesOfNat 8 errors ++ (s.eventsHere.mapIdx fun i e => e.bytes (s.hif.evtSeq + i)).flatten))
/-- HALT_ALL (R445). -/
def execHaltAll (s : State) : Out := .next ((s.haltCores (List.range Config.cores)).answerMctp false [])
/-- What a crash dump streams out. -/
def State.dumped (s : State) : Dump :=
  ⟨s.teams, s.streams, s.qu, s.mx, s.tr.merges, s.tr.rings, s.loom, s.eventsHere, s.fw.measures⟩
/-- CRASH_DUMP (R446), signed with the identity key. -/
def execCrashDump (s : State) : Out :=
  let s1 := if (List.range Config.cores).all s.halted.contains then s else s.haltCores (List.range Config.cores)
  .next (s1.send (.dump s1.dumped (Config.mldsaSign s1.fw.ident (dumpBytes s1.dumped))))

end Sys2Proof.Machine
end

