-- ==== Sys2Proof/Machine/Ready.lean ====
section
/-! DEFINITION. Sys2Proof/Machine/Ready.lean: what a stream that may issue has before it: the fetch of its instruction (R93), the
checks of steps 1 to 6 of R106, parked streams that are re-examined (R139), the order among lane streams (R121), and the park of a
thread that has stalled on a queue (R264). -/
namespace Sys2Proof.Machine

/-! ### Fetch (R93) -/

/-- A failed fetch of an instruction of `words` words. -/
structure FetchFail where
  words : Nat
  fail : Fail
deriving DecidableEq, Repr

/-- The word of a fetch cannot be had: over a link that is down, except from a resident line of a memory node, or from the host by a
function that is not configured (R330, R419, R433). -/
def State.fetchLost (s : State) (st : Stream) (l : Loc) : Bool :=
  let t := s.team st.id.tcx
  let resident := (s.cache? l.vcid).any fun c => (s.line? l.vcid (c.repOf t.cluster) l.key).isSome
  (s.linkDown l && !(l.space == .pod && resident)) || s.shutHost t.fn l

/-- One instruction word at an address: the checks of R165 and R70, then its bytes; all ones where they cannot be had (R400; log entry
124). -/
def State.fetchWord (s : State) (st : Stream) (a : DWord) : Except Fail (DWord × Checked) :=
  match targetTrap a with
  | some c => .error (.trap c a)
  | none => match s.checkPage (s.who st) .fetch a.toNat with
    | .error f => .error f
    | .ok c =>
      if s.fetchLost st c.loc then .ok (BitVec.allOnes 64, c)
      else if s.spoiled c.loc (s.team st.id.tcx).cluster 8 then .error (.trap cPoison a)
      else .ok (wordOfBytes (s.readNow c.loc (s.team st.id.tcx).cluster 8 none).1, c)

/-- The literal words of a `brm` (R105). -/
def State.fetchLits (s : State) (st : Stream) (a : DWord) : Nat → Except Fail (List (DWord × Checked))
  | 0 => .ok []
  | n + 1 => match s.fetchWord st a with
    | .error f => .error f
    | .ok w => match s.fetchLits st (a + 8) n with
      | .error f => .error f
      | .ok ws => .ok (w :: ws)

/-- All the words of the instruction at the stream's PC. -/
def State.fetch (s : State) (st : Stream) : Except FetchFail (List (DWord × Checked)) :=
  match s.fetchWord st st.pc with
  | .error f => .error ⟨1, f⟩
  | .ok w =>
    let n := litCount w.1
    match s.fetchLits st (st.pc + 8) n with
    | .error f => .error ⟨1 + n, f⟩
    | .ok ws => .ok (w :: ws)

/-- The effects of a fetch: those of the translations it used and of its reads; for a word that cannot be had an error in slot 0 of every
thread of the issue group (R132, R239, R400, R419). -/
def State.fetched (s : State) (st : Stream) (ids : List SId) (ws : List (DWord × Checked)) : State :=
  ws.foldl (fun s w =>
    let l := w.2.loc
    let s1 := s.touch (s.who st) .fetch w.2
    if s1.fetchLost st l then
      ids.foldl (fun s id => s.recordErr id 0 ⟨if s1.linkDown l then lostCause l else cLinkLost, 0⟩) (s1.lostRead l)
    else (s1.readNow l (s.team st.id.tcx).cluster 8 none).2) s

/-! ### Steps 2 to 6 of R106 -/

/-- Stream kinds of a pair's halves (R107). -/
def pairKinds (w : DWord) (k : Kind) : Bool :=
  kindLegal (halfOf (w.extractLsb' 32 31)).opcode k && kindLegal (halfOf (w.extractLsb' 1 31)).opcode k

/-- The privilege that an opcode, or a control register that `cwr` names, needs (R107, R404). -/
def privOk (f : Fields) (priv phys : Bool) : Bool :=
  if opcPriv f.opc.toNat then priv
  else if f.opc = 0xF3 && crListed (f.fld 0 12).toNat then
    match crNeed (f.fld 0 12).toNat with
    | .nothing => true
    | .privilege => priv
    | .physical => phys
  else true

/-- The instruction of fetched words, or the cause of the first failing check. -/
def examine (w : DWord) (lits : List DWord) (k : Kind) (regs : Nat) (priv phys : Bool) : Except Cause Instr :=
  let read : Option Instr := match decode w lits with
    | .ok i => if i.streamOk k regs then some i else none
    | .error _ => none
  if w.msb then
    match read with
    | none => .error cIllegalPair
    | some i => if pairKinds w k then .ok i else .error cStreamKind
  else
    let f := fieldsOf w
    if unassigned f.opc then .ok (.unassignedOpcode f.opc)
    else if !kindLegal f.opc.toNat k then .error cStreamKind
    else if !privOk f priv phys then .error cPrivilege
    else match read with
      | none => .error cIllegalOperand
      | some i => .ok i

/-- A word with an unassigned opcode traps at step 3 (R106, R108). -/
def execUnassignedOpcode (_opc : BitVec 8) (s : State) : Out := .next (s.trapEarly cIllegalOpcode)

/-- `examine` for a stream. -/
def State.examineFor (s : State) (st : Stream) (ws : List DWord) : Except Cause Instr :=
  examine (ws.headD 0) ws.tail st.id.kind (s.team st.id.tcx).recd.regs (s.privileged st) (s.physical st)

/-! ### Power (R439) -/

/-- The low-power units that an instruction of a core meets (R439). -/
def State.asleep (s : State) (core : Nat) : Bool :=
  s.pwr.gated.contains (core / 4) || s.pwr.retained.contains (core / 48) || s.pwr.deep

/-! ### The choice of R121 -/

/-- `yield` still defers a stream (R138): its 512 cycles have not passed, and a stream that was ready at the `yield` has not
issued since. -/
def State.deferred (s : State) (pool : List Stream) (st : Stream) : Bool :=
  match st.yield with
  | none => false
  | some (till, num) =>
    decide (s.clock.cycles < till) && pool.any fun x => x.id != st.id && st.behind.contains x.id && decide (x.issued ≤ num)

/-- The class of R121 of a stream, the first class first. -/
def State.rankOfIssue (s : State) (pool : List Stream) (st : Stream) : Nat :=
  if st.aged then 0 else if s.deferred pool st then 3 else if s.isUrgent st.id then 1 else 2

/-- One stream comes before another. -/
def State.before (s : State) (pool : List Stream) (x y : Stream) : Bool :=
  let a := s.rankOfIssue pool x
  let b := s.rankOfIssue pool y
  decide (a < b) || (a == b && decide (x.since < y.since))

/-- Insertion behind those that do not come after. -/
def insertBy (lt : Stream → Stream → Bool) (x : Stream) : List Stream → List Stream
  | [] => [x]
  | y :: r => if lt x y then x :: y :: r else y :: insertBy lt x r

/-- The lane streams of a core that may issue, in the order of R121; equals in the order of the list turned by `k`. -/
def State.leads (s : State) (c k : Nat) : List SId :=
  let pool := s.streams.filter fun st => st.id.kind == .lane && (s.team st.id.tcx).coreOf st.id == c && s.canIssue st
  let n := k % (pool.length + 1)
  ((pool.drop n ++ pool.take n).foldl (fun r st => insertBy (s.before pool) st r) []).map (·.id)

/-! ### Issue groups (R120) -/

/-- Two threads have the same speculation state (R120, R122). -/
def sameWindow (x y : Option Window) : Bool :=
  match x, y with
  | none, none => true
  | some v, some w => v.issue == w.issue && v.taken == w.taken
  | _, _ => false

/-- The checks of steps 1 to 6 of R106 come out alike for two threads of a team at one PC. -/
def State.alike (s : State) (x y : Stream) : Bool :=
  s.privileged x == s.privileged y ||
    match s.fetch x, s.fetch y with
    | .ok a, .ok b => (match s.examineFor x (a.map (·.1)), s.examineFor y (b.map (·.1)) with
      | .ok _, .ok _ => true
      | .error c, .error d => c == d
      | _, _ => false)
    | .error _, .error _ => true
    | _, _ => false

/-- The threads of a `wqpush` that has waited for room as one issue group go on as one (R387). -/
def samePush (p q : Park) : Bool :=
  match p, q with
  | .wq .., _ | _, .wq .. => p == q
  | _, _ => true

/-- A thread that may share an issue group with another, as far as their states say (R120); where only one of the two has the
privilege for the instruction, each is checked by itself (log entry 106). -/
def State.fellow (s : State) (lead st : Stream) : Bool :=
  let t := s.team lead.id.tcx
  st.id.kind == .lane && st.id.tcx == lead.id.tcx && t.half st.id == t.half lead.id && st.pc == lead.pc &&
    sameWindow st.window lead.window && samePush st.park lead.park && s.canIssue st && s.alike lead st

/-- Insertion by thread index. -/
def insertUnit (x : Stream) : List Stream → List Stream
  | [] => [x]
  | y :: r => if x.id.unit < y.id.unit then x :: y :: r else y :: insertUnit x r
/-- The fellows of a lead in ascending thread index; a Carter or control stream stands alone. -/
def State.fellows (s : State) (lead : Stream) : List Stream :=
  if lead.id.kind = .lane then (s.streams.filter fun st => s.fellow lead st).foldl (fun r st => insertUnit st r) [] else [lead]

/-- Groups of threads in issue groups of at most 64: whole groups in the order of the list until the next does not fit, which begins
another. -/
def fillGroups : List (List SId) → List SId → List (List SId)
  | [], acc => [acc]
  | g :: gs, acc => if 64 < (acc ++ g).length then acc :: fillGroups gs g else fillGroups gs (acc ++ g)
/-- The issue group of a lead among the threads that qualify: groups in ascending GIDX (R120). -/
def State.packed (s : State) (lead : Stream) (all : List Stream) : List SId :=
  let t := s.team lead.id.tcx
  let gs := all.foldl (fun gs st => nins gs (t.group st.id)) []
  let chunks := fillGroups (gs.map fun g => (all.filter fun st => t.group st.id = g).map (·.id)) []
  if lead.id.kind ≠ .lane || all.length ≤ 64 then all.map (·.id)
  else (chunks.find? fun c => c.contains lead.id).getD [lead.id]

/-! ### Stalls (R118) -/

/-- The counter that an instruction raises in each active lane (R130, R131). -/
def perLaneCounter : Instr → Option (Guard × Nat)
  | .ld o | .ldro o | .ldv o | .ldvw o | .ldvt o => some (o.g, 0)
  | .st o | .stv o | .stvp o | .stvf o => some (o.g, 1)
  | .feqry o | .vcq o => some (o.g, 0)
  | .femk o _ | .cprio o _ => some (o.g, 1)
  | .cwb o | .cflush o | .cinval o => some (o.g, 1)
  | .sgacq g _ _ | .sgrel g _ _ => some (g, 1)
  | .aadd64 o | .acas o | .acas64 o | .aadd o | .aaddf o | .aadd2h o | .aminf o | .amaxf o | .aand o | .aor o | .axor o
  | .axchg o | .ainc o | .adec o => some (o.g, if o.d = 0 then 1 else 0)
  | .amin o _ | .amax o _ | .ctadd o _ => some (o.g, if o.d = 0 then 1 else 0)
  | .ctrd o => some (o.g, 0)
  | _ => none

/-- A register or a counter stalls a thread at an instruction (R119, R131). -/
def State.interlocked (s : State) (i : Instr) (st : Stream) : Bool :=
  i.regs.any (fun r => s.awaits st.id r s.nextOp || st.window.any fun w => w.loop == some r) ||
    (match perLaneCounter i with
      | some (g, k) => guardHolds g st && decide (254 ≤ st.cnt.get k)
      | none => false)

/-- Opcodes 0x68 to 0x74. -/
def crossLane : Instr → Bool
  | .shfl _ | .shfx _ _ _ | .shup _ _ _ | .shdn _ _ _ | .vote _ _ | .gsum _ _ | .gmax _ _ | .gmin _ _ | .gbit _ _ | .gscan _ _ _
  | .gbcast _ _ _ | .matchAny _ _ | .amask _ _ => true
  | _ => false

/-- A thread is parked (R139). -/
def Park.parked (p : Park) : Bool :=
  match p with
  | .none => false
  | .vcrm _ _ => false
  | _ => true
/-- A thread on path `a` is on path `b`, or has yet to reach the last branches of it (R155; log entry 105): `b` goes on from `a`. The
release of a join begins a path of its own. -/
def leadsTo (a b : List (DWord × DWord)) : Bool :=
  a.isSuffixOf b && (!a.isEmpty || b.all fun x => x.1.toNat % 8 == 0)
/-- The paths on which a thread may stand at a group instruction: inside an open window its direction is not known yet, and a handler
stands aside from the path it has interrupted. -/
def Stream.paths (st : Stream) : List (List (DWord × DWord)) :=
  (match st.window with | some w => w.path | none => st.path) :: if st.trap.hmode then [st.outer] else []
/-- R155: a path of a group with a thread that neither stands in the issue group, nor is parked or exited, is held; a park whose event has
come is over. -/
def State.pathHeld (s : State) (ids : List SId) (st : Stream) : Bool :=
  let t := s.team st.id.tcx
  s.streams.any fun x =>
    x.inGroup t (t.group st.id) && (x.paths.any fun p => leadsTo p st.path) && !x.exited && !(x.park.parked && !s.wakes x) && !(ids.contains x.id)

/-- Branches whose lanes may diverge (R166). -/
def mayDiverge : Instr → Bool
  | .bra g _ | .call g _ _ | .ret g _ _ => g.en
  | .brm _ _ _ _ | .jmp _ _ _ | .jtab _ _ _ _ _ _ _ | .callr _ _ _ _ | .loop _ _ _ => true
  | _ => false

/-- Opcodes that go on inside a window: arithmetic, register moves, `sval`, branches, `yield`, `bhint`, and the loads of local
memory, which wait by themselves where they leave the device. -/
def plainOpcode (opc : Nat) : Bool :=
  inR opc 0x00 0x67 || opc == 0x75 || inR opc 0x78 0x7F || opc == 0x85 || opc == 0x87 || opc == 0x8C || inR opc 0x8E 0x8F ||
    inR opc 0x96 0x97 || opc == 0x9D
/-- An instruction may not take effect inside an open window (R123, R124, R167). -/
def heldInWindow (w : DWord) (i : Instr) : Bool :=
  (!w.msb && !plainOpcode (fieldsOf w).opc.toNat) || mayDiverge i || i.regs.any Reg.isPort

/-! ### Queues that stall a thread (R264) -/

/-- Ports an instruction pops and ports it pushes or reserves an entry of, as registers. -/
def portUses (w : DWord) (i : Instr) : List Reg × List Reg :=
  let f := fieldsOf w
  let ps := fun (l : List Reg) => l.filter Reg.isPort
  match i with
  | .ld o | .ldro o | .ldv o | .ldvw o | .ldvt o => ([], ps [o.d])
  | .st o | .stv o | .stvp o | .stvf o => (ps [o.d], [])
  | .feqry o | .vcq o => ([], ps [o.d])
  | .aload o | .agath o => ([], [o.p])
  | .astore o => ([o.p], [])
  | .qpeek _ _ p _ => ([p], [])
  -- these wait for no entry at issue (R273, R278, R285)
  | .ascat _ | .qdrop _ _ _ _ | .mmul _ | .mdrain _ => ([], [])
  | _ => (ps (i.regs.erase f.d), if !w.msb && i.regs.contains f.d then ps [f.d] else [])

/-- The threads that execute the instruction at a stream's PC together with it. -/
def State.sharing (s : State) (st : Stream) (w : DWord) : List SId :=
  ((s.fellows st).filter fun x => w.msb || guardHolds (fieldsOf w).guard x).map (·.id)

/-- The queues that an instruction finds short: without READY entries for its pops, or without room for its pushes. -/
def State.shortQueues (s : State) (st : Stream) (w : DWord) (i : Instr) : List (Nat × Nat) :=
  let (pops, pushes) := portUses w i
  let t := s.team st.id.tcx
  let gs := (s.sharing st w).foldl (fun gs id => nins gs (t.group id)) []
  let n := if st.id.kind = .lane then gs.length else 1
  let keys := pops.filterMap (s.portKey st.id)
  -- an instruction that names a queue in several sources pops it as often (R263)
  let need := fun (k : Nat) => match i with
    | .qpeek _ _ _ pos => pos.toNat + 1
    | _ => n * (keys.filter (· == k)).length
  let taken := fun (k : Nat) => match i with
    | .qpeek _ _ _ _ => false
    | _ => s.held k true || s.qu.xfers.any fun x => x.key == k && x.store && x.unserved
  let short := keys.filter fun k => decide ((s.queue k).ready < need k) || taken k
  let full := (pushes.filterMap (s.portKey st.id)).filter fun k => decide (s.freeOf k < n)
  (short ++ full).map fun k => (k, (s.queue k).ver)

/-- The work queue that a `wqpush` of a stream finds without room (R387). -/
def State.fullWorkQueue (s : State) (st : Stream) (w : DWord) : Instr → Option (Nat × Nat)
  | .wqpush _ s1 _ _ _ =>
    -- the queue that the lowest active thread names
    match s.wqNumber (((s.sharing st w).head?.map s.stream).getD st) s1 with
    | some n => if wqSize < (s.wq n).entries.length + (s.sharing st w).length then some (n, (s.wq n).ver) else none
    | none => none
  | _ => none

/-- The instruction waits for the window to close, or for room in it in every lane (R123, R124). -/
def windowHolds (all : List Stream) (i : Instr) (ws : List (DWord × Checked)) : Bool :=
  all.any fun st => match st.window with
    | none => false
    | some w => decide (8 ≤ w.count) || heldInWindow ((ws.map (·.1)).headD 0) i || ws.any fun c => c.2.marks .fetch

/-- The park of a thread whose instruction waits for nothing but a queue (R264). -/
def State.queuePark (s : State) (st : Stream) : Option Park :=
  match s.fetch st with
  | .error _ => none
  | .ok ws => match s.examineFor st (ws.map (·.1)) with
    | .error _ => none
    | .ok i =>
      let w := (ws.map (·.1)).headD 0
      let all := s.fellows st
      if s.interlocked i st || windowHolds all i ws || (crossLane i && s.pathHeld (all.map (·.id)) st) then none
      else match s.fullWorkQueue st w i with
        | some (n, ver) => some (.wq n ver ((s.sharing st w).headD st.id))
        | none =>
          let seen := s.shortQueues st w i
          if seen.isEmpty then none else some (.queue seen)
/-- A thread that has stalled on a queue for 256 core cycles. -/
def State.overdue (s : State) (st : Stream) : Bool := st.park == .none && st.short.any fun t => decide (t + 256 ≤ s.clock.cycles)

/-- QUEUE_STALL_PARK (R264): a thread that has stalled on a queue for 256 core cycles parks, together with those of its issue group that
have. -/
def execQueueStallPark (sid : SId) (s : State) : Out :=
  .next (
    match s.stream? sid with
    | none => s
    | some st =>
      if st.exited || !s.overdue st then s
      else match s.queuePark st with
        | none => s
        | some p => s.onLanes (((s.fellows st).filter s.overdue).map (·.id)) fun x => x.parkAt p)

end Sys2Proof.Machine
end

