-- ==== Sys2Proof/Machine/Issue.lean ====
section
/-! DEFINITION. Sys2Proof/Machine/Issue.lean: the issue of one instruction (R106, R118 to R125) and the turns of the schedule.
The meaning of an instruction is a parameter, `run`. -/
namespace Sys2Proof.Machine

/-! ### Prediction (R122) -/

/-- A two-way branch (R166). -/
structure TwoWay where
  guard : Guard
  /-- The link register of a `call`, the counter of a `loop`. -/
  link : Option Reg
  loop : Option Reg
  off : BitVec 26
deriving DecidableEq, Repr

def twoWay : Instr → Option TwoWay
  | .bra g off => if g.en then some ⟨g, none, none, off⟩ else none
  | .call g l off => if g.en then some ⟨g, some l, none, off⟩ else none
  | .loop g c off => some ⟨g, none, some c, off⟩
  | _ => none
/-- The predicate of a lane is not yet known (R167): its guard, or the counter of a `loop` that the guard lets act. -/
def State.unknown (s : State) (b : TwoWay) (st : Stream) : Bool :=
  (b.guard.en && s.awaits st.id b.guard.reg s.nextOp) ||
    (guardHolds b.guard st && b.loop.any fun c => s.awaits st.id c s.nextOp)

/-- The direction predicted for a lane; none where it goes on without one. -/
def State.forecast (s : State) (st : Stream) : Option Bool :=
  match st.policy with
  | .all => some true
  | .none => some false
  | .off => none
  | .last =>
    -- one that has gone on without a prediction waits for its predicate
    if st.firm then none
    else if (Config.predict s.issues (4096 + (s.team st.id.tcx).group st.id)).1 then some (Config.predict s.issues st.id.unit).2 else none

/-- A lane whose predicate is not yet known, and is predicted. -/
def State.guesses (s : State) (i : Instr) (npc : DWord) (st : Stream) : Option Bool :=
  match twoWay i with
  | none => none
  | some b =>
    let waits := fun (r : Reg) => s.awaits st.id r s.nextOp
    let link := match b.link with
      | some l => waits l || waits (l.up 1)
      | none => false
    if st.id.kind ≠ .lane || st.window.isSome || !s.unknown b st || link || (targetTrap (relTarget st.pc b.off)).isSome ||
        (targetTrap npc).isSome then none
    else s.forecast st

/-- A predicted lane opens its window and goes on in the direction predicted (R122). -/
def Stream.speculate (st : Stream) (b : TwoWay) (npc : DWord) (dir : Bool) (issue first : Nat)
    (known : List (DWord × List (DWord × DWord))) : Stream :=
  let tgt := relTarget st.pc b.off
  let w : Window := ⟨issue, st.pc, dir, tgt, npc, b.guard, b.link, b.loop, st.regs, st.gtsHi, st.policy, st.path, 0, first, false, known⟩
  let st1 := match b.link with
    | some l => if dir then st.wr64 l (st.pc + 8) else st
    | none => st
  { (st1.branched .twoWay st.pc (if dir then tgt else npc) st.path) with window := some w }

/-- The next PC of a lane whose predicate is known. -/
def TwoWay.next (b : TwoWay) (npc : DWord) (st : Stream) : DWord :=
  if guardHolds b.guard st && b.loop.all (fun c => decide (1 < (st.rd c).toNat)) then relTarget st.pc b.off else npc
/-- Windows open in the predicted lanes, a prediction for each of their groups; `ids` are the lanes of the issue whose predicate is
known. -/
def State.openWindows (s : State) (i : Instr) (npc : DWord) (ids : List SId) (ps : List (SId × Bool)) : State :=
  match twoWay i with
  | none => s
  | some b =>
    let known := fun (id : SId) =>
      let t := s.team id.tcx
      (ids.filter fun x => t.group x == t.group id).map fun x => (b.next npc (s.stream x), (s.stream x).path)
    let s1 := ps.foldl (fun s p => s.onLane p.1 fun st => st.speculate b npc p.2 s.issues s.nextOp (known p.1)) s
    match ps.head? with
    | none => s1
    | some p =>
      let t := s.team p.1.tcx
      let gs := ps.foldl (fun gs p => nins gs (t.group p.1)) []
      s1.onPm (t.tag p.1) fun c => { c with predictions := c.predictions + gs.length }

/-! ### The order of slot updates in one core cycle (R180) -/

/-- Instructions that update join slots. -/
def slotUser : Instr → Bool
  | .jset _ _ _ _ | .join _ _ | .jdrop _ _ | .exit _ => true
  | _ => false
/-- The groups of an issue group. -/
def State.slotGroups (s : State) (ids : List SId) : List Nat :=
  ids.foldl (fun gs id => if id.kind = .lane then nins gs ((s.team id.tcx).group id) else gs) []
/-- An issue group with a higher lowest thread has updated slots of a group in this core cycle: the update waits for the next. -/
def State.slotsLate (s : State) (ids : List SId) : Bool :=
  match ids.head? with
  | none => false
  | some low => (s.slotGroups ids).any fun g =>
      let at_ := sget (0, 0) (s.team low.tcx).slotAt g
      at_.1 == s.clock.cycles + 1 && decide (low.unit < at_.2)
/-- The slots of the groups have been updated in this core cycle. -/
def State.noteSlots (s : State) (ids : List SId) : State :=
  match ids.head? with
  | none => s
  | some low => s.onTeam low.tcx fun t =>
      { t with slotAt := (s.slotGroups ids).foldl (fun l g => sset (0, 0) l g (s.clock.cycles + 1, low.unit)) t.slotAt }

/-! ### One instruction -/

/-- The issue group that stands at an instruction. -/
def State.atGroup (s : State) (ids : List SId) (pc : DWord) (words : Nat) : State :=
  { s with cur := ⟨ids, pc, pc + BitVec.ofNat 64 (8 * words)⟩ }

/-- Lanes that an awaited register, a full counter or an unknown predicate stalls; `firm` are those that wait for their predicate
(R122). -/
def State.holdLanes (s : State) (ids : List SId) (firm : Stream → Bool) : State :=
  s.onLanes ids fun st => { st with firm := st.firm || firm st }.hold s.clock.cycles

/-- The streams that a stream yields to, of those that were ready: of its kind, on its core, or for a control stream of its
cluster (R138). -/
def State.rivals (s : State) (st : Stream) : List Stream :=
  let at_ := fun (id : SId) => if st.id.kind = .control then (s.team id.tcx).cluster else (s.team id.tcx).coreOf id
  s.streams.filter fun x => x.id.kind == st.id.kind && at_ x.id == at_ st.id && s.canIssue x

/-- What issue leaves in the lanes that have not stalled: they have issued (R121), an open window counts the instruction (R123), and the
counts of R420 and R424 go on. `old` is the state before, `lead` the stream that led. -/
def State.noted (s old : State) (lead : Stream) (ids : List SId) (words : Nat) : State :=
  let out := fun (st : Stream) => decide (st.id ∈ ids) && st.stall.isNone
  let note := fun (st : Stream) =>
    { st with
      since := s.clock.cycles, aged := false, issued := old.issues + 1
      window := if (old.stream st.id).window.isNone then st.window else st.window.map fun w => { w with count := w.count + 1 } }
  if s.streams.any out then
    let s1 := { s with streams := s.streams.map fun st => if out st then note st else st, issues := old.issues + 1 }
    let s2 := s1.onTeam lead.id.tcx fun t => { t with lastIssue := s.gts }
    if lead.park = .none then s2.onPm ((old.team lead.id.tcx).tag lead.id) fun p => { p with words := p.words + words } else s2
  else s

/-- A fetch that fails is a fault of the instruction (R93), of which the lowest thread of the issue group is the failing one (R403). -/
def State.fetchFault (s : State) (f : Fail) : State :=
  if s.windowed then s.stalled
  else match f with
    | .trap c a => s.trapEarly c a
    | .page va x => s.pageFault (fun s c a => s.trapEarly c a) s.cur.lanes (s.stream (s.cur.lanes.headD ⟨0, .lane, 0⟩)) .fetch va x

/-- The lanes that issue together: those that nothing stalls, for a cross-lane instruction those whose path stands there (R155),
and at a two-way branch those without a prediction only together, once the predicates of all of them are known (R122). -/
def State.goers (s : State) (i : Instr) (all : List Stream) : List Stream :=
  let free := all.filter fun st => !s.interlocked i st
  if crossLane i then free.filter fun st => !s.pathHeld (free.map (·.id)) st
  else match twoWay i with
    | none => free
    | some b =>
      let off := fun (st : Stream) => (s.forecast st).isNone
      if all.any fun st => off st && s.unknown b st then free.filter fun st => !off st else free

/-- An instruction that has passed steps 1 to 6 of R106. -/
def State.issueInstr (run : Instr → State → Out) (s : State) (lead : Stream) (all : List Stream) (ws : List (DWord × Checked))
    (i : Instr) : Out :=
  let n := ws.length
  if windowHolds all i ws then .next (s.atGroup (s.packed lead all) lead.pc n).stalled
  else
    let go := s.goers i all
    let goes := fun (id : SId) => go.any fun x => x.id = id
    let npc := lead.pc + BitVec.ofNat 64 (8 * n)
    let ps := all.filterMap fun st => (s.guesses i npc st).map fun dir => (st.id, dir)
    let ready := all.filter fun st => goes st.id || ps.any fun p => p.1 = st.id
    let held := (all.filter fun st => !(ready.any fun x => x.id = st.id)).map (·.id)
    -- the lanes that issue together: some execute the instruction, others are predicted
    let chunk := s.packed (if ready.any fun x => x.id = lead.id then lead else ready.headD lead) ready
    let ids := chunk.filter goes
    let ps1 := ps.filter fun p => chunk.contains p.1
    let firm := fun (st : Stream) => (twoWay i).any fun b => (s.forecast st).isNone && s.unknown b st
    let s1 := ((s.fetched lead (all.map (·.id)) ws).holdLanes held firm).openWindows i npc ids ps1
    if ids.isEmpty || ready.isEmpty then
      -- no lane executes it: its lanes are predicted, or stall
      .next ((s1.atGroup (if ps1.isEmpty then held else ps1.map (·.1)) lead.pc n).noted s lead (ps1.map (·.1)) n)
    else if slotUser i && s.slotsLate ids then .next (s1.atGroup ids lead.pc n).stalled
    else
      match run i (s1.atGroup ids lead.pc n) with
      | .next t => .next ((if slotUser i then t.noteSlots ids else t).noted s lead (ids ++ ps1.map (·.1)) n)
      | o => o

/-- A stream leads the issue of the instruction at its PC. -/
def State.attempt (run : Instr → State → Out) (s : State) (id : SId) : Out :=
  let st := s.stream id
  let core := (s.team id.tcx).coreOf id
  let alone := s.atGroup [id] st.pc 1
  if st.park = .stop then .next (alone.endStream id)
  else if s.asleep core then .next (alone.wake (.cluster (core / 4)))
  else
    let all := s.fellows st
    match s.fetch st with
    | .error e =>
      let ids := s.packed st all
      .next (((s.atGroup ids st.pc e.words).fetchFault e.fail).noted s st ids e.words)
    | .ok ws => match s.examineFor st (ws.map (·.1)) with
      | .error c =>
        let ids := s.packed st all
        .next ((((s.fetched st ids ws).atGroup ids st.pc ws.length).trapEarly c).noted s st ids ws.length)
      | .ok i => s.issueInstr run st all ws i

/-- Nothing has issued: every lane of the attempt has stalled. -/
def State.stuck (s : State) : Bool := s.cur.lanes.all fun id => (s.stream id).stall.isSome

/-- What stands between a stream that may issue and its issue at this moment (R118): whether its instruction stalls, and since when a
queue has been all that it stalls on (R264). -/
def State.examined (run : Instr → State → Out) (s : State) (st : Stream) : Stream :=
  let ready := { st with stall := none, short := none }
  if !s.canIssue st then st
  else match s.attempt run st.id with
    | .next t =>
      let x := t.stream st.id
      if x.stall.isNone then ready
      else { st with stall := x.stall, firm := x.firm
                     short := if (s.queuePark st).isSome then some (st.short.getD s.clock.cycles) else none }
    | _ => ready
/-- The same for every stream, before time passes (R121). -/
def State.examinedAll (run : Instr → State → Out) (s : State) : State := { s with streams := s.streams.map (s.examined run) }

/-- A `yield` takes down who was ready in its cycle (R138). -/
def State.noteYield (run : Instr → State → Out) (s old : State) : State :=
  let yields := fun (st : Stream) => st.yield.isSome && st.yield != (old.stream st.id).yield
  match s.streams.find? yields with
  | none => s
  | some y =>
    let ready := ((old.rivals y).filter fun x => (old.examined run x).stall.isNone).map (·.id)
    { s with streams := s.streams.map fun st => if yields st then { st with behind := ready } else st }

/-- The first of some leads whose instruction does not stall issues. -/
def State.issueFirst (run : Instr → State → Out) : List SId → State → Out
  | [], s => .next s
  | id :: r, s =>
    match s.attempt run id with
    | .next t => if t.stuck then t.issueFirst run r else .next (t.noteYield run s)
    | o => o

/-! ### Turns -/

/-- A step of the device that is no instruction of a stream. -/
def deviceEvent (i : Instr) : Bool :=
  match i with
  | .unassignedOpcode _ => false
  | _ => (encode i).isNone

/-- One turn of the schedule. -/
def State.turn (run : Instr → State → Out) (s : State) : Turn → Out
  | .issue id =>
    if id.kind ≠ .lane && s.canIssue (s.stream id) then
      -- a stream that has yielded lets the others of its unit go first (R138)
      let pool := s.rivals (s.stream id)
      let others := (pool.filter fun st => st.id ≠ id && !s.deferred pool st).map (·.id)
      s.issueFirst run (if s.deferred pool (s.stream id) then others ++ [id] else [id])
    else .next s
  | .core c k => s.issueFirst run (s.leads c k)
  | .event i => if deviceEvent i then run i (s.rouse i) else .next s
  | .tick n => .next ((s.examinedAll run).advance n n)
  | .burst id n => .next (s.burst id n)
  | .pathset n vals => .next (s.setPaths n vals)
  | .mask fn v => .next (s.maskMsix fn v)
  | .evictTlb n => .next { s with tr := { s.tr with tlb := s.tr.tlb.eraseIdx n } }
  | .evictUpper n => .next { s with tr := { s.tr with upper := s.tr.upper.eraseIdx n } }

/-- The requests of a turn restart the idle timers of their pseudo-channels (R439). -/
def State.noteUse (s old : State) : State := s.restartTimers (old.channelsUsed ++ s.channelsUsed)

/-- The next turn of the agenda; an empty agenda lets one core cycle pass. -/
def State.nextTurn (run : Instr → State → Out) (s : State) : Out :=
  match s.agenda with
  | [] => .next ((s.examinedAll run).advance 1 1)
  | t :: r =>
    let s0 := { s with agenda := r }
    match s0.turn run t with
    | .next x => .next (x.noteUse s0)
    | o => o

end Sys2Proof.Machine
end

