-- ==== Sys2Proof/Machine/Multicast.lean ====
section
/-! DEFINITION. Sys2Proof/Machine/Multicast.lean: multicast groups, `mcst`, `mcput` and their acknowledgement (R388 to R390). -/
namespace Sys2Proof.Machine

/-- A group entry: its members, RANK_BASE and owner (R388). -/
structure McGroup where
  members : List Nat
  rankBase : Nat
  asid : BitVec 16
deriving DecidableEq, Repr

/-- The entry of a group, none where it is not valid or a zero field is not zero (R388). -/
def State.mcGroup (s : State) (g : Nat) : Option McGroup :=
  let base := (s.co.mcgHi.extractLsb' 0 8).toNat * 2 ^ 32 + s.co.mcgLo.toNat / 128 * 128 + 128 * g
  let rd := fun (o n : Nat) => s.phys (base + o) n
  let w0 := rd 0x40 4
  let w1 := rd 0x44 4
  if w0 / 2 ^ 17 ≠ 0 || w1 / 2 ^ 16 ≠ 0x8000 || rd 0x48 56 ≠ 0 then none
  else some ⟨bitsSet (bytesOfNat 64 (rd 0 64)), w0 % 2 ^ 17, BitVec.ofNat 16 w1⟩

/-- The operands of a multicast in the order of the argument block (R389), the addresses resolved (R86). -/
structure McArgs where
  group : McGroup
  job : Nat
  own : Nat
  template : DWord
  len : Nat
  notify : Word
  srcCtr : DWord
  ack : DWord
deriving DecidableEq, Repr

/-- The acknowledgement address: class 00, 8-byte aligned. -/
def State.ackAddr (s : State) (st : Stream) (a : DWord) : Except Fail DWord :=
  if a = 0 then .ok 0
  else if !classOk class00 a then .error (.trap cAddressClass a)
  else match s.redirect st a 8 with
    | .error e => .error e
    | .ok va => if a.toNat % 8 ≠ 0 then .error (.trap cAlignment a) else .ok (BitVec.ofNat 64 va)

/-- The checks of step 7 (R388, R389). -/
def State.mcArgs (s : State) (st : Stream) (g x : Reg) (put : Bool) (oneGroup : Bool) : Except Fail McArgs :=
  let asid := (s.team st.id.tcx).recd.asid
  let ill : Except Fail McArgs := .error (.trap cIllegalOperand 0)
  let gw := st.rd g
  let tm := st.rd64 x
  let len := (st.rd (x.up 2)).toNat
  let no := st.rd (x.up 3)
  if gw.extractLsb' 12 20 ≠ 0 then ill
  else match s.mcGroup gw.toNat, s.jobOf asid with
    | some e, some n =>
      match s.rankDest n (s.job n).rank with
      | some (.pod own) =>
        if e.asid ≠ asid || !class10 tm || tm.extractLsb' 45 17 != 0 then ill
        else if (if put then len != 0 || !oneGroup else len == 0 || decide (65536 < len)) then ill
        else if put && tm.toNat % 4 ≠ 0 then .error (.trap cAlignment tm)
        else if no ≠ 0xFFFFFFFF && no.toNat % 4 ≠ 0 then .error (.trap cAlignment (no.setWidth 64))
        else match s.copyCounter st (st.rd64 (x.up 4)) false with
          | .error f => .error f
          | .ok sc => match s.ackAddr st (st.rd64 (x.up 6)) with
            | .error f => .error f
            | .ok ack => .ok ⟨e, n, own, tm, len, no, sc, ack⟩
      | _ => ill
    | _, _ => ill

/-- A member of the group as the source sees it: its token, or the reason for which nothing is sent to it. -/
def State.mcMember (s : State) (asid : BitVec 16) (a : McArgs) (p : Nat) : Except (BitVec 8) DWord :=
  let r := a.group.rankBase + p
  if s.rankDest a.job r ≠ some (.pod p) then .error rRank
  else match s.tokenOf asid r (regionOf a.template) with
    | none => .error rNoToken
    | some t => .ok t

/-- 0x0C: nothing was sent because no port was up (R390). -/
def rNoPort : BitVec 8 := 0x0C
/-- 0x0B: silence. -/
def rSilent : BitVec 8 := 0x0B

/-- The request leaves: a packet of at most 256 B after another, with the token of each member to which it is sent (R389). -/
def State.sendMcast (s : State) (st : Stream) (a : McArgs) (bytes : List (DWord × Byte)) : State :=
  let t := s.team st.id.tcx
  let ps := a.group.members.filter (· ≠ a.own)
  let down := !s.links.anyPort
  let view := ps.map fun p => (p, s.mcMember t.recd.asid a p)
  let answer := fun (v : Except (BitVec 8) DWord) => if down then some rNoPort else match v with
    | .error r => some r
    | .ok _ => none
  let m : Mcast :=
    { num := s.nextOp, sid := st.id, fn := t.fn, asid := t.recd.asid, rankBase := a.group.rankBase
      members := view.map fun v => (v.1, answer v.2), ack := a.ack, srcCtr := a.srcCtr, time := s.gts, portDown := down, answered := false }
  let toks := view.filterMap fun v => match v.2 with
    | .ok t => some (v.1, t)
    | .error _ => none
  let parts := (List.range ((bytes.length + 255) / 256)).map fun i => (bytes.drop (256 * i)).take 256
  let msgs := if down || toks.isEmpty then [] else
    parts.mapIdx fun i (p : List (DWord × Byte)) => Msg.mcast s.nextOp i toks (byteRuns p) (a.notify.setWidth 64)
  { s with co := { s.co with mcasts := s.co.mcasts ++ [m] }, nextOp := s.nextOp + 1, outbox := s.outbox ++ msgs }

/-- The source read of `mcst`, on the die of the issuing core, which a fault record names (R389, R407, R408). -/
def State.mcastRead (s : State) (fn core : Nat) (asid : BitVec 16) : List (Nat × Nat) → Except Cause (List Byte) × State
  | [] => (.ok [], s)
  | (a, n) :: r =>
    let die := core / 48
    let w : Who := ⟨.die die, die, asid, (s.fn fn).privV && (s.fn fn).privAsid == asid⟩
    let place : Except Cause Loc × State :=
      if a / 2 ^ 62 = 1 then (.ok ⟨.vault, vaultKey + a % 2 ^ 32, 0, false⟩, s)
      else match s.checkPage w .load a with
        | .error e => (.error (failCause e), (s.refused w .load e).engineFail die fn asid 5 e core)
        | .ok c => (.ok c.loc, s.touch w .load c)
    match place with
    | (.error e, s1) => (.error e, s1)
    | (.ok l, s1) =>
      if s1.linkDown l then (.error (lostCause l), s1.lostRead l)
      else if s1.shutHost fn l then (.error cLinkLost, s1)
      else match s1.flawed l (12 * die) n with
      | some e => (.error e, s1)
      | none =>
        let (bs, s2) := s1.readNow l (12 * die) n none
        match s2.mcastRead fn core asid r with
        | (.error e, s3) => (.error e, s3)
        | (.ok cs, s3) => (.ok (bs ++ cs), s3)

/-- What both instructions do before their own part: the operands of the lowest active lane, its waits and its checks. -/
def State.mcastFrame (s : State) (g : Guard) (grp x : Reg) (put : Bool) (f : Stream → McArgs → State) : State :=
  let ids := s.active g
  match s.lowest g with
  | none => s.retireLanes g id
  | some low =>
    if s.counterFull [low.id] 2 then s.stalled
    else if s.nearPending ids 0b11111 then s.stalled
    else match s.mcArgs low grp x put (decide ((s.groupsOf ids).length ≤ 1)) with
      | .error e => s.failLane g .load low e
      | .ok a => f low a

/-- CPC rises at issue. -/
def State.countCopy (s : State) (id : SId) : State := s.onLane id fun st => { st with cnt := st.cnt.add 2 1 }

def execMcst (g : Guard) (grp s1 : Reg) (k1 : Bool) (x : Reg) (s : State) : Out :=
  .next (s.mcastFrame g grp x false fun low a =>
    let t := s.team low.id.tcx
    let src := low.rd64 s1
    match s.copyRange low src a.len with
    | .error e => s.failLane g .load low e
    | .ok sa =>
      if class10 sa then s.trapLow g cAddressClass src
      else
        let done := fun (s : State) => s.retireLanes g fun st => st.kill64 s1 k1
        match (s.countCopy low.id).mcastRead t.fn (t.coreOf low.id) t.recd.asid (pieces sa.toNat a.len) with
        | (.error e, s2) =>
          done (((s2.bumpIf t.fn t.recd.asid a.srcCtr 1 true).recordErr low.id 2 ⟨e, 0⟩).decCounter low.id 2)
        | (.ok bs, s2) =>
          done (s2.sendMcast low a (bs.mapIdx fun i b => (a.template + BitVec.ofNat 64 i, b))))

def execMcput (g : Guard) (grp s1 : Reg) (k1 : Bool) (x : Reg) (s : State) : Out :=
  .next (s.mcastFrame g grp x true fun low a =>
    let t := s.team low.id.tcx
    let bytes := (s.active g).flatMap fun id =>
      (bytesOfNat 4 ((s.stream id).rd s1).toNat).mapIdx fun i b => (a.template + BitVec.ofNat 64 (4 * t.lane id + i), b)
    ((s.countCopy low.id).sendMcast low a bytes).retireLanes g fun st => st.kill s1 k1)

/-! ### Answers (R390) -/

/-- MCAST_REPLICATE (R388): the answer of a member to its packets, 0 for OK. -/
def execMcastReplicate (m member : Nat) (reason : BitVec 8) (s : State) : Out :=
  let put := fun (x : Nat × Option (BitVec 8)) => if x.1 = member && x.2.isNone then (x.1, some reason) else x
  let one := fun (c : Mcast) => if c.num = m then { c with members := c.members.map put } else c
  .next { s with co := { s.co with mcasts := s.co.mcasts.map one } }

/-- The answers once silence counts (R390). -/
def Mcast.answers (m : Mcast) : List (Nat × BitVec 8) := m.members.map fun x => (x.1, x.2.getD rSilent)
/-- The acknowledgement word (R390). -/
def Mcast.word (m : Mcast) : DWord :=
  let nacks := m.answers.filter fun x => x.2 != 0
  let first := match nacks.head? with
    | some x => BitVec.ofNat 17 (m.rankBase + x.1)
    | none => 0#17
  let reason := match nacks.head? with
    | some x => x.2
    | none => 0#8
  1#1 ++ 0#14 ++ first ++ 0#4 ++ reason ++ BitVec.ofNat 10 nacks.length ++ BitVec.ofNat 10 (m.answers.length - nacks.length)
/-- What a multicast with NACKs records in slot 2 (R390). -/
def Mcast.err (m : Mcast) : Option Err :=
  let nacks := m.answers.filter fun x => x.2 != 0
  match nacks.head? with
  | none => none
  | some x =>
    if m.portDown then some ⟨cPodPortDown, 0⟩
    else if nacks.all fun x => x.2 == rSilent then some ⟨cRemoteTimeout, 0⟩
    else some ⟨cRemoteNack, x.2.setWidth 16⟩

/-- Steps 1 and 2 of R390: the acknowledgement word, then the source counter. -/
def State.answerMcast (s : State) (c : Mcast) : State :=
  -- silence counts from here on
  let d := { c with members := c.answers.map fun (x : Nat × BitVec 8) => (x.1, some x.2), answered := true }
  let s1 := { s with co := { s.co with mcasts := s.co.mcasts.map fun (x : Mcast) => if x.num = c.num then d else x } }
  let s2 := if c.ack = 0 then s1 else s1.unitWrite1 (s1.unit c.fn c.asid) c.ack.toNat 0 (bytesOfNat 8 c.word.toNat)
  s2.bumpIf c.fn c.asid c.srcCtr 1 c.err.isSome
/-- Steps 3 and 4: CPC falls, then slot 2. -/
def State.endMcast (s : State) (c : Mcast) : State :=
  let s1 := { s with co := { s.co with mcasts := s.co.mcasts.filter fun x => x.num ≠ c.num } }.decCounter c.sid 2
  match c.err with
  | some e => s1.recordErr c.sid 2 e
  | none => s1
/-- MCAST_ACK (R390): the first time the word and the counter, the second time what follows, between which other agents may act (log
entry 119). -/
def execMcastAck (m : Nat) (s : State) : Out :=
  .next (
    match s.co.mcasts.find? fun c => c.num = m with
    | none => s
    | some c =>
      if c.answered then s.endMcast c
      else if !(c.members.all fun x => x.2.isSome) && decide (s.gts < c.time + ms100) then s
      else s.answerMcast c)

end Sys2Proof.Machine
end

