-- ==== Sys2Proof/Machine/Dispatch.lean ====
section
/-! DEFINITION. Sys2Proof/Machine/Dispatch.lean: one arm per instruction and device step. -/
namespace Sys2Proof.Machine

def exec (i : Instr) (s : State) : Host.Outcome State Fault Refusal :=
  match i with
  | .nop g => Sys2Proof.Machine.execNop g s
  | .iadd o => Sys2Proof.Machine.execIadd o s
  | .isub o => Sys2Proof.Machine.execIsub o s
  | .imul o => Sys2Proof.Machine.execImul o s
  | .imulh o => Sys2Proof.Machine.execImulh o s
  | .imulhu o => Sys2Proof.Machine.execImulhu o s
  | .imad o => Sys2Proof.Machine.execImad o s
  | .idivs o => Sys2Proof.Machine.execIdivs o s
  | .idivu o => Sys2Proof.Machine.execIdivu o s
  | .irem o u => Sys2Proof.Machine.execIrem o u s
  | .add64 o => Sys2Proof.Machine.execAdd64 o s
  | .sub64 o => Sys2Proof.Machine.execSub64 o s
  | .mul64 o => Sys2Proof.Machine.execMul64 o s
  | .imin o => Sys2Proof.Machine.execImin o s
  | .imax o => Sys2Proof.Machine.execImax o s
  | .umin o => Sys2Proof.Machine.execUmin o s
  | .umax o => Sys2Proof.Machine.execUmax o s
  | .iabs o sat => Sys2Proof.Machine.execIabs o sat s
  | .ineg o sat => Sys2Proof.Machine.execIneg o sat s
  | .iadds o u => Sys2Proof.Machine.execIadds o u s
  | .isubs o u => Sys2Proof.Machine.execIsubs o u s
  | .isad o u => Sys2Proof.Machine.execIsad o u s
  | .and o => Sys2Proof.Machine.execAnd o s
  | .or o => Sys2Proof.Machine.execOr o s
  | .xor o => Sys2Proof.Machine.execXor o s
  | .andn o => Sys2Proof.Machine.execAndn o s
  | .not o => Sys2Proof.Machine.execNot o s
  | .lop3 o tt => Sys2Proof.Machine.execLop3 o tt s
  | .shl o => Sys2Proof.Machine.execShl o s
  | .shr o => Sys2Proof.Machine.execShr o s
  | .sar o => Sys2Proof.Machine.execSar o s
  | .rol o => Sys2Proof.Machine.execRol o s
  | .shf o fill => Sys2Proof.Machine.execShf o fill s
  | .shl64 o => Sys2Proof.Machine.execShl64 o s
  | .shr64 o arith => Sys2Proof.Machine.execShr64 o arith s
  | .bfe o sx => Sys2Proof.Machine.execBfe o sx s
  | .bfi o => Sys2Proof.Machine.execBfi o s
  | .popc o => Sys2Proof.Machine.execPopc o s
  | .clz o => Sys2Proof.Machine.execClz o s
  | .ctz o => Sys2Proof.Machine.execCtz o s
  | .brev o => Sys2Proof.Machine.execBrev o s
  | .prmt o sel zero => Sys2Proof.Machine.execPrmt o sel zero s
  | .sel o => Sys2Proof.Machine.execSel o s
  | .icmp o cond u => Sys2Proof.Machine.execIcmp o cond u s
  | .icmp64 o cond u => Sys2Proof.Machine.execIcmp64 o cond u s
  | .mov g d src => Sys2Proof.Machine.execMov g d src s
  | .lih g d imm => Sys2Proof.Machine.execLih g d imm s
  | .movri o base => Sys2Proof.Machine.execMovri o base s
  | .movwi g s1 k1 s2 k2 base => Sys2Proof.Machine.execMovwi g s1 k1 s2 k2 base s
  | .lea64 o sh sx => Sys2Proof.Machine.execLea64 o sh sx s
  | .idot4 o au bu => Sys2Proof.Machine.execIdot4 o au bu s
  | .idot2 o au bu => Sys2Proof.Machine.execIdot2 o au bu s
  | .fadd o m => Sys2Proof.Machine.execFadd o m s
  | .fsub o m => Sys2Proof.Machine.execFsub o m s
  | .fmul o m => Sys2Proof.Machine.execFmul o m s
  | .fdiv o m => Sys2Proof.Machine.execFdiv o m s
  | .ffma o m => Sys2Proof.Machine.execFfma o m s
  | .ffms o m => Sys2Proof.Machine.execFfms o m s
  | .fnma o m => Sys2Proof.Machine.execFnma o m s
  | .fmin o ftz => Sys2Proof.Machine.execFmin o ftz s
  | .fmax o ftz => Sys2Proof.Machine.execFmax o ftz s
  | .fclamp o ftz => Sys2Proof.Machine.execFclamp o ftz s
  | .fcmp o cond ftz => Sys2Proof.Machine.execFcmp o cond ftz s
  | .fsgn o op => Sys2Proof.Machine.execFsgn o op s
  | .frcp o m => Sys2Proof.Machine.execFrcp o m s
  | .frsq o m => Sys2Proof.Machine.execFrsq o m s
  | .fsqrt o m => Sys2Proof.Machine.execFsqrt o m s
  | .fexp2 o ftz => Sys2Proof.Machine.execFexp2 o ftz s
  | .flog2 o ftz => Sys2Proof.Machine.execFlog2 o ftz s
  | .fsin o ftz => Sys2Proof.Machine.execFsin o ftz s
  | .fcos o ftz => Sys2Proof.Machine.execFcos o ftz s
  | .frnd o m => Sys2Proof.Machine.execFrnd o m s
  | .fclass o => Sys2Proof.Machine.execFclass o s
  | .fscale o m => Sys2Proof.Machine.execFscale o m s
  | .fexd o => Sys2Proof.Machine.execFexd o s
  | .hadd2 o h m => Sys2Proof.Machine.execHadd2 o h m s
  | .hmul2 o h m => Sys2Proof.Machine.execHmul2 o h m s
  | .hfma2 o h m => Sys2Proof.Machine.execHfma2 o h m s
  | .hmin2 o h ftz => Sys2Proof.Machine.execHmin2 o h ftz s
  | .hmax2 o h ftz => Sys2Proof.Machine.execHmax2 o h ftz s
  | .hcmp2 o h cond ftz => Sys2Proof.Machine.execHcmp2 o h cond ftz s
  | .hdot2 o h m => Sys2Proof.Machine.execHdot2 o h m s
  | .dadd o m => Sys2Proof.Machine.execDadd o m s
  | .dmul o m => Sys2Proof.Machine.execDmul o m s
  | .dfma o m => Sys2Proof.Machine.execDfma o m s
  | .f2i o t rnd => Sys2Proof.Machine.execF2i o t rnd s
  | .i2f o t rnd => Sys2Proof.Machine.execI2f o t rnd s
  | .i2h2 o sat h u rnd => Sys2Proof.Machine.execI2h2 o sat h u rnd s
  | .dcvt o dir m => Sys2Proof.Machine.execDcvt o dir m s
  | .fpack o slot pos => Sys2Proof.Machine.execFpack o slot pos s
  | .funpk o slot pos side => Sys2Proof.Machine.execFunpk o slot pos side s
  | .q8pack o slot pos => Sys2Proof.Machine.execQ8pack o slot pos s
  | .q8unpk o slot pos side => Sys2Proof.Machine.execQ8unpk o slot pos side s
  | .dsenc o pos ss4 => Sys2Proof.Machine.execDsenc o pos ss4 s
  | .dsdec o pos ss4 => Sys2Proof.Machine.execDsdec o pos ss4 s
  | .scfit o => Sys2Proof.Machine.execScfit o s
  | .scmul o inv m => Sys2Proof.Machine.execScmul o inv m s
  | .atmrg o mx => Sys2Proof.Machine.execAtmrg o mx s
  | .pairWord a b => Sys2Proof.Machine.execPairWord a b s
  | .shfl o => Sys2Proof.Machine.execShfl o s
  | .shfx o f m => Sys2Proof.Machine.execShfx o f m s
  | .shup o f m => Sys2Proof.Machine.execShup o f m s
  | .shdn o f m => Sys2Proof.Machine.execShdn o f m s
  | .vote o op => Sys2Proof.Machine.execVote o op s
  | .gsum o f32 => Sys2Proof.Machine.execGsum o f32 s
  | .gmax o t => Sys2Proof.Machine.execGmax o t s
  | .gmin o t => Sys2Proof.Machine.execGmin o t s
  | .gbit o op => Sys2Proof.Machine.execGbit o op s
  | .gscan o excl f32 => Sys2Proof.Machine.execGscan o excl f32 s
  | .gbcast o f m => Sys2Proof.Machine.execGbcast o f m s
  | .matchAny o i64 => Sys2Proof.Machine.execMatchAny o i64 s
  | .amask g d => Sys2Proof.Machine.execAmask g d s
  | .sval g d code => Sys2Proof.Machine.execSval g d code s
  | .bra g off => Sys2Proof.Machine.execBra g off s
  | .brm g k1 k2 entries => Sys2Proof.Machine.execBrm g k1 k2 entries s
  | .jmp g s1 k1 => Sys2Proof.Machine.execJmp g s1 k1 s
  | .jtab g x k1 b k2 len dflt => Sys2Proof.Machine.execJtab g x k1 b k2 len dflt s
  | .call g l off => Sys2Proof.Machine.execCall g l off s
  | .callr g l s1 k1 => Sys2Proof.Machine.execCallr g l s1 k1 s
  | .ret g s1 k1 => Sys2Proof.Machine.execRet g s1 k1 s
  | .loop g c off => Sys2Proof.Machine.execLoop g c off s
  | .exit g => Sys2Proof.Machine.execExit g s
  | .jset g n src or => Sys2Proof.Machine.execJset g n src or s
  | .join g n => Sys2Proof.Machine.execJoin g n s
  | .jdrop g mask => Sys2Proof.Machine.execJdrop g mask s
  | .jmask g d n arr => Sys2Proof.Machine.execJmask g d n arr s
  | .yield g => Sys2Proof.Machine.execYield g s
  | .nsleep g src => Sys2Proof.Machine.execNsleep g src s
  | .bhint g p => Sys2Proof.Machine.execBhint g p s
  | .wait g ldt stt cpt tlt => Sys2Proof.Machine.execWait g ldt stt cpt tlt s
  | .ld o => Sys2Proof.Machine.execLd o s
  | .st o => Sys2Proof.Machine.execSt o s
  | .ldro o => Sys2Proof.Machine.execLdro o s
  | .ldv o => Sys2Proof.Machine.execLdv o s
  | .stv o => Sys2Proof.Machine.execStv o s
  | .ldvw o => Sys2Proof.Machine.execLdvw o s
  | .ldvt o => Sys2Proof.Machine.execLdvt o s
  | .stvp o => Sys2Proof.Machine.execStvp o s
  | .stvf o => Sys2Proof.Machine.execStvf o s
  | .femk o full => Sys2Proof.Machine.execFemk o full s
  | .feqry o => Sys2Proof.Machine.execFeqry o s
  | .prf o => Sys2Proof.Machine.execPrf o s
  | .cwb o => Sys2Proof.Machine.execCwb o s
  | .cflush o => Sys2Proof.Machine.execCflush o s
  | .cinval o => Sys2Proof.Machine.execCinval o s
  | .cprio o p => Sys2Proof.Machine.execCprio o p s
  | .vcq o => Sys2Proof.Machine.execVcq o s
  | .ptoa o => Sys2Proof.Machine.execPtoa o s
  | .sgacq g s1 k1 => Sys2Proof.Machine.execSgacq g s1 k1 s
  | .sgrel g s1 k1 => Sys2Proof.Machine.execSgrel g s1 k1 s
  | .aadd o => Sys2Proof.Machine.execAadd o s
  | .aadd64 o => Sys2Proof.Machine.execAadd64 o s
  | .aaddf o => Sys2Proof.Machine.execAaddf o s
  | .aadd2h o => Sys2Proof.Machine.execAadd2h o s
  | .amin o u => Sys2Proof.Machine.execAmin o u s
  | .amax o u => Sys2Proof.Machine.execAmax o u s
  | .aminf o => Sys2Proof.Machine.execAminf o s
  | .amaxf o => Sys2Proof.Machine.execAmaxf o s
  | .aand o => Sys2Proof.Machine.execAand o s
  | .aor o => Sys2Proof.Machine.execAor o s
  | .axor o => Sys2Proof.Machine.execAxor o s
  | .axchg o => Sys2Proof.Machine.execAxchg o s
  | .acas o => Sys2Proof.Machine.execAcas o s
  | .acas64 o => Sys2Proof.Machine.execAcas64 o s
  | .ainc o => Sys2Proof.Machine.execAinc o s
  | .adec o => Sys2Proof.Machine.execAdec o s
  | .fence g ord agent stor => Sys2Proof.Machine.execFence g ord agent stor s
  | .bar o => Sys2Proof.Machine.execBar o s
  | .bararr o => Sys2Proof.Machine.execBararr o s
  | .barwt o => Sys2Proof.Machine.execBarwt o s
  | .gbar g rlx stor => Sys2Proof.Machine.execGbar g rlx stor s
  | .waitc o => Sys2Proof.Machine.execWaitc o s
  | .ctadd o err => Sys2Proof.Machine.execCtadd o err s
  | .ctrd o => Sys2Proof.Machine.execCtrd o s
  | .hsig g s1 k1 s2 k2 vector => Sys2Proof.Machine.execHsig g s1 k1 s2 k2 vector s
  | .launch g d s1 => Sys2Proof.Machine.execLaunch g d s1 s
  | .gpost g d s1 => Sys2Proof.Machine.execGpost g d s1 s
  | .gpostStart g d s1 => Sys2Proof.Machine.execGpostStart g d s1 s
  | .dcopy o => Sys2Proof.Machine.execDcopy o s
  | .tcopy o => Sys2Proof.Machine.execTcopy o s
  | .dfill o => Sys2Proof.Machine.execDfill o s
  | .dcancel o => Sys2Proof.Machine.execDcancel o s
  | .dstat o => Sys2Proof.Machine.execDstat o s
  | .mcst g grp s1 k1 x => Sys2Proof.Machine.execMcst g grp s1 k1 x s
  | .mcput g grp s1 k1 x => Sys2Proof.Machine.execMcput g grp s1 k1 x s
  | .coll o => Sys2Proof.Machine.execColl o s
  | .cabort o => Sys2Proof.Machine.execCabort o s
  | .cstat o => Sys2Proof.Machine.execCstat o s
  | .wqpush g s1 k1 s2 k2 => Sys2Proof.Machine.execWqpush g s1 k1 s2 k2 s
  | .wqpushClose g s1 k1 => Sys2Proof.Machine.execWqpushClose g s1 k1 s
  | .wqpushReopen g s1 k1 => Sys2Proof.Machine.execWqpushReopen g s1 k1 s
  | .wqpop o => Sys2Proof.Machine.execWqpop o s
  | .mload o => Sys2Proof.Machine.execMload o s
  | .mswap g => Sys2Proof.Machine.execMswap g s
  | .mmul o => Sys2Proof.Machine.execMmul o s
  | .mnew g tile => Sys2Proof.Machine.execMnew g tile s
  | .mrel g tile => Sys2Proof.Machine.execMrel g tile s
  | .mdrain o => Sys2Proof.Machine.execMdrain o s
  | .mzero g s2 k2 tile => Sys2Proof.Machine.execMzero g s2 k2 tile s
  | .mscA g s1 k1 slot => Sys2Proof.Machine.execMscA g s1 k1 slot s
  | .mscB g s1 k1 slot => Sys2Proof.Machine.execMscB g s1 k1 slot s
  | .mtld g s1 k1 s2 k2 tile => Sys2Proof.Machine.execMtld g s1 k1 s2 k2 tile s
  | .mfence g => Sys2Proof.Machine.execMfence g s
  | .mcfg g s1 k1 f => Sys2Proof.Machine.execMcfg g s1 k1 f s
  | .qbind g p k => Sys2Proof.Machine.execQbind g p k s
  | .qbindUn g p => Sys2Proof.Machine.execQbindUn g p s
  | .qstat g d p => Sys2Proof.Machine.execQstat g d p s
  | .qpeek g d p pos => Sys2Proof.Machine.execQpeek g d p pos s
  | .qdrop g d p n => Sys2Proof.Machine.execQdrop g d p n s
  | .cspawn g d s1 k1 s2 k2 => Sys2Proof.Machine.execCspawn g d s1 k1 s2 k2 s
  | .cstop g d slots => Sys2Proof.Machine.execCstop g d slots s
  | .aload o => Sys2Proof.Machine.execAload o s
  | .astore o => Sys2Proof.Machine.execAstore o s
  | .agath o => Sys2Proof.Machine.execAgath o s
  | .ascat o => Sys2Proof.Machine.execAscat o s
  | .trap g imm => Sys2Proof.Machine.execTrap g imm s
  | .brk g imm => Sys2Proof.Machine.execBrk g imm s
  | .eret g => Sys2Proof.Machine.execEret g s
  | .eretNx g => Sys2Proof.Machine.execEretNx g s
  | .crd g d num => Sys2Proof.Machine.execCrd g d num s
  | .cwr g s1 k1 num => Sys2Proof.Machine.execCwr g s1 k1 num s
  | .pmrd g d sel => Sys2Proof.Machine.execPmrd g d sel s
  | .tlbinv g s1 k1 s2 k2 s3 => Sys2Proof.Machine.execTlbinv g s1 k1 s2 k2 s3 s
  | .tlbinvAll g s3 => Sys2Proof.Machine.execTlbinvAll g s3 s
  | .tlbsync g d => Sys2Proof.Machine.execTlbsync g d s
  | .tlbsyncZero g d s1 k1 s2 k2 => Sys2Proof.Machine.execTlbsyncZero g d s1 k1 s2 k2 s
  | .ctxswSwap g d s2 k2 => Sys2Proof.Machine.execCtxswSwap g d s2 k2 s
  | .ctxswSv o => Sys2Proof.Machine.execCtxswSv o s
  | .ctxswLd o => Sys2Proof.Machine.execCtxswLd o s
  | .ctxfl o => Sys2Proof.Machine.execCtxfl o s
  | .fresume o die => Sys2Proof.Machine.execFresume o die s
  | .fresumeFail o die => Sys2Proof.Machine.execFresumeFail o die s
  | .halt o => Sys2Proof.Machine.execHalt o s
  | .vcdef g d s1 vcid => Sys2Proof.Machine.execVcdef g d s1 vcid s
  | .vcdefRm g d vcid => Sys2Proof.Machine.execVcdefRm g d vcid s
  | .vcmig g d s1 s2 vcid => Sys2Proof.Machine.execVcmig g d s1 s2 vcid s
  | .rgtok o => Sys2Proof.Machine.execRgtok o s
  | .rgtokRm g d s2 k2 region => Sys2Proof.Machine.execRgtokRm g d s2 k2 region s
  | .unassignedOpcode opc => Sys2Proof.Machine.execUnassignedOpcode opc s
  | .teamEnd tcx cause => Sys2Proof.Machine.execTeamEnd tcx cause s
  | .lpSubmit fn port size value => Sys2Proof.Machine.execLpSubmit fn port size value s
  | .lpConfig via fn port size value => Sys2Proof.Machine.execLpConfig via fn port size value s
  | .lpGraphInstall o => Sys2Proof.Machine.execLpGraphInstall o s
  | .lpGraphRemove o => Sys2Proof.Machine.execLpGraphRemove o s
  | .lpGraphStart o => Sys2Proof.Machine.execLpGraphStart o s
  | .graphRemoveComplete fn port => Sys2Proof.Machine.execGraphRemoveComplete fn port s
  | .registerWrite w => Sys2Proof.Machine.execRegisterWrite w s
  | .loomTakeSubmission fn port => Sys2Proof.Machine.execLoomTakeSubmission fn port s
  | .heldRecordEnter level => Sys2Proof.Machine.execHeldRecordEnter level s
  | .gridPromote grid => Sys2Proof.Machine.execGridPromote grid s
  | .gridReserve grid => Sys2Proof.Machine.execGridReserve grid s
  | .placeTeam grid => Sys2Proof.Machine.execPlaceTeam grid s
  | .nodeCompletion node => Sys2Proof.Machine.execNodeCompletion node s
  | .nodeInstanceRun node => Sys2Proof.Machine.execNodeInstanceRun node s
  | .waitctrSatisfied node => Sys2Proof.Machine.execWaitctrSatisfied node s
  | .teamRetire tcx => Sys2Proof.Machine.execTeamRetire tcx s
  | .gridRetire grid => Sys2Proof.Machine.execGridRetire grid s
  | .issueAging sid => Sys2Proof.Machine.execIssueAging sid s
  | .predicateResolve sid => Sys2Proof.Machine.execPredicateResolve sid s
  | .joinSlotRelease tcx group slot => Sys2Proof.Machine.execJoinSlotRelease tcx group slot s
  | .barrierRelease tcx id => Sys2Proof.Machine.execBarrierRelease tcx id s
  | .nsleepWake sid => Sys2Proof.Machine.execNsleepWake sid s
  | .yieldExpire sid => Sys2Proof.Machine.execYieldExpire sid s
  | .queueStallPark sid => Sys2Proof.Machine.execQueueStallPark sid s
  | .watchdogExpire tcx => Sys2Proof.Machine.execWatchdogExpire tcx s
  | .loadComplete op => Sys2Proof.Machine.execLoadComplete op s
  | .storePerformed op => Sys2Proof.Machine.execStorePerformed op s
  | .atomicPerform op => Sys2Proof.Machine.execAtomicPerform op s
  | .vaultBankOp op => Sys2Proof.Machine.execVaultBankOp op s
  | .pageWalk who asid va write => Sys2Proof.Machine.execPageWalk who asid va write s
  | .faultRecordEmit die entry => Sys2Proof.Machine.execFaultRecordEmit die entry s
  | .runahead sid probes => Sys2Proof.Machine.execRunahead sid probes s
  | .dirReadMiss vcid cluster addr => Sys2Proof.Machine.execDirReadMiss vcid cluster addr s
  | .dirStore op => Sys2Proof.Machine.execDirStore op s
  | .dirSgacq op => Sys2Proof.Machine.execDirSgacq op s
  | .dirSgrel op => Sys2Proof.Machine.execDirSgrel op s
  | .dirEvict seg => Sys2Proof.Machine.execDirEvict seg s
  | .dirTransitEnd seg => Sys2Proof.Machine.execDirTransitEnd seg s
  | .joinQuery share => Sys2Proof.Machine.execJoinQuery share s
  | .joinGrant share fn => Sys2Proof.Machine.execJoinGrant share fn s
  | .joinRelease share => Sys2Proof.Machine.execJoinRelease share s
  | .vcRemoveDrain vcid => Sys2Proof.Machine.execVcRemoveDrain vcid s
  | .vcmigSweep vcid base => Sys2Proof.Machine.execVcmigSweep vcid base s
  | .migrationEnd vcid => Sys2Proof.Machine.execMigrationEnd vcid s
  | .uncorrectableError site => Sys2Proof.Machine.execUncorrectableError site s
  | .sweeperPass share => Sys2Proof.Machine.execSweeperPass share s
  | .coreUncorrectable tcx => Sys2Proof.Machine.execCoreUncorrectable tcx s
  | .entryReady op => Sys2Proof.Machine.execEntryReady op s
  | .tileOpExecute cluster => Sys2Proof.Machine.execTileOpExecute cluster s
  | .copyStart c dray => Sys2Proof.Machine.execCopyStart c dray s
  | .packetPlace p => Sys2Proof.Machine.execPacketPlace p s
  | .packetAck c index data => Sys2Proof.Machine.execPacketAck c index data s
  | .packetNack c index reason => Sys2Proof.Machine.execPacketNack c index reason s
  | .packetRetransmit c index => Sys2Proof.Machine.execPacketRetransmit c index s
  | .copyTimeout c index => Sys2Proof.Machine.execCopyTimeout c index s
  | .copyFinal c => Sys2Proof.Machine.execCopyFinal c s
  | .copyClose src copy => Sys2Proof.Machine.execCopyClose src copy s
  | .cancelConfirm c => Sys2Proof.Machine.execCancelConfirm c s
  | .cancelTimeout c => Sys2Proof.Machine.execCancelTimeout c s
  | .remoteRequest r load data => Sys2Proof.Machine.execRemoteRequest r load data s
  | .remoteReply op r => Sys2Proof.Machine.execRemoteReply op r s
  | .remoteAccessTimeout op => Sys2Proof.Machine.execRemoteAccessTimeout op s
  | .remoteAtomicExecute a => Sys2Proof.Machine.execRemoteAtomicExecute a s
  | .remoteAtomicResend op => Sys2Proof.Machine.execRemoteAtomicResend op s
  | .atomicOutcomeUnknown op => Sys2Proof.Machine.execAtomicOutcomeUnknown op s
  | .replyCacheExpire srcRank seq => Sys2Proof.Machine.execReplyCacheExpire srcRank seq s
  | .jobSlotValidate n asid => Sys2Proof.Machine.execJobSlotValidate n asid s
  | .jobSlotInvalidate n asid => Sys2Proof.Machine.execJobSlotInvalidate n asid s
  | .jobSelfRank n v => Sys2Proof.Machine.execJobSelfRank n v s
  | .jobSelfNranks n v => Sys2Proof.Machine.execJobSelfNranks n v s
  | .regionBaseWrite n v => Sys2Proof.Machine.execRegionBaseWrite n v s
  | .keyInstall n gen words => Sys2Proof.Machine.execKeyInstall n gen words s
  | .keyRetire n gen => Sys2Proof.Machine.execKeyRetire n gen s
  | .wqCtlWrite n v => Sys2Proof.Machine.execWqCtlWrite n v s
  | .fnCfgWrite n v => Sys2Proof.Machine.execFnCfgWrite n v s
  | .millerStep x chunk data => Sys2Proof.Machine.execMillerStep x chunk data s
  | .stepTimeout inst member => Sys2Proof.Machine.execStepTimeout inst member s
  | .abortReceive p member => Sys2Proof.Machine.execAbortReceive p member s
  | .instanceFinal inst => Sys2Proof.Machine.execInstanceFinal inst s
  | .wqChunkPush inst chunk => Sys2Proof.Machine.execWqChunkPush inst chunk s
  | .mcastReplicate m member reason => Sys2Proof.Machine.execMcastReplicate m member reason s
  | .mcastAck m => Sys2Proof.Machine.execMcastAck m s
  | .ualinkPortDown port => Sys2Proof.Machine.execUalinkPortDown port s
  | .hostLinkLoss => Sys2Proof.Machine.execHostLinkLoss s
  | .hostLinkUp => Sys2Proof.Machine.execHostLinkUp s
  | .cxlCompletion op => Sys2Proof.Machine.execCxlCompletion op s
  | .cxlTimeout op => Sys2Proof.Machine.execCxlTimeout op s
  | .msixUnmask fn vector => Sys2Proof.Machine.execMsixUnmask fn vector s
  | .eventRecord event source detail => Sys2Proof.Machine.execEventRecord event source detail s
  | .ptpSync nanos slew offset => Sys2Proof.Machine.execPtpSync nanos slew offset s
  | .clkGateEnter cluster => Sys2Proof.Machine.execClkGateEnter cluster s
  | .retainEnter die => Sys2Proof.Machine.execRetainEnter die s
  | .hbmSrEnter channel => Sys2Proof.Machine.execHbmSrEnter channel s
  | .deepEnter => Sys2Proof.Machine.execDeepEnter s
  | .powerWake u => Sys2Proof.Machine.execPowerWake u s
  | .flr fn => Sys2Proof.Machine.execFlr fn s
  | .pfFlr => Sys2Proof.Machine.execPfFlr s
  | .deviceReset => Sys2Proof.Machine.execDeviceReset s
  | .firmwareStage stage image version => Sys2Proof.Machine.execFirmwareStage stage image version s
  | .spdmRequest nonce => Sys2Proof.Machine.execSpdmRequest nonce s
  | .pldmFwUpdate image version => Sys2Proof.Machine.execPldmFwUpdate image version s
  | .pldmMonitor => Sys2Proof.Machine.execPldmMonitor s
  | .mgmtFlr fn => Sys2Proof.Machine.execMgmtFlr fn s
  | .haltAll => Sys2Proof.Machine.execHaltAll s
  | .crashDump => Sys2Proof.Machine.execCrashDump s
  | .mgmtKeyInstall n gen words => Sys2Proof.Machine.execMgmtKeyInstall n gen words s
  | .powerLimit disable cap => Sys2Proof.Machine.execPowerLimit disable cap s
  | .ualinkPortUp port => Sys2Proof.Machine.execUalinkPortUp port s
  | .cxlLinkDown => Sys2Proof.Machine.execCxlLinkDown s
  | .cxlLinkUp => Sys2Proof.Machine.execCxlLinkUp s
  | .ctagFlushAck ctag => Sys2Proof.Machine.execCtagFlushAck ctag s

end Sys2Proof.Machine
end

