-- ==== Sys2Proof/Machine/Step.lean ====
section
/-! DEFINITION. Sys2Proof/Machine/Step.lean: one step of the device, and the placing of one instruction where the next step
fetches. -/
namespace Sys2Proof.Machine

/-- One step: the next turn of the schedule. -/
def step (s : State) : Host.Outcome State Fault Refusal := s.nextTurn exec

/-- The address at which `withFetchWord` places the instruction. -/
def placedAt : Nat := 0x1000
/-- The kind of stream that runs the placed instruction: the first that may (R107). -/
def placedKind (opc : Nat) : Kind := if kindLegal opc .lane then .lane else if kindLegal opc .control then .control else .carter
/-- The stream of the placed instruction. -/
def placedStream (opc : Nat) : Stream := newStream ⟨0, placedKind opc, 0⟩ (BitVec.ofNat 64 placedAt) 0 0
/-- Its team: one thread on core 0 under ASID 1. -/
def placedTeam : Team := { blankTeam 0 with recd := { blankRec with asid := 1 } }

/-- The instruction whose bits are `w` in HBM4 at 0x1000, under one translation of the first GiB to itself, and the turn of a
stream of a privileged team that stands at it (log entry 5). -/
def State.withFetchWord (s : State) (nbits w : Nat) : State :=
  let opc := w % 2 ^ nbits / 2 ^ 55 % 512
  let sid : SId := ⟨0, placedKind opc, 0⟩
  let leaf : Leaf := ⟨0, 0, 0, 30, true, true, true, true, true⟩
  { s with
    agenda := [if placedKind opc = .lane then .core 0 0 else .issue sid]
    streams := [placedStream opc], teams := [placedTeam], ops := [], halted := []
    mem := memWriteN s.mem placedAt (bytesOfNat 24 (w % 2 ^ nbits))
    tr := { s.tr with tlb := [⟨.core 0, 1, 0, leaf⟩], upper := [], descs := sset none s.tr.descs 1 (some ⟨0, 0x10000000, 12⟩) }
    vt := { s.vt with poison := [] }
    pwr := { s.pwr with gated := [], retained := [], deep := false }
    fns := sset blankFn s.fns 0 { blankFn with privV := true, privAsid := 1, last := 0xFFFF } }

end Sys2Proof.Machine
end

