-- ==== Sys2Proof/Safety.lean ====
section
/-! DEFINITION. Sys2Proof/Safety.lean: what counts as a safe run, and the notions that statements are written in: what an instruction
leaves of the device, and the operand forms. -/
namespace Sys2Proof.Machine

/-- A run of `n` steps that neither stops with a fault nor meets an instruction without a meaning. -/
def RunsOn (n : Nat) (s : State) : Prop := ∃ t, Sys2Proof.core.run n s = .next t

/-- Memory is in its canonical form. -/
def State.MemOk (s : State) : Prop := Memory.wf s.mem = true

/-- The global timestamp does not step back (R440). -/
def State.TimeLe (s t : State) : Prop := s.clock.gtsQ ≤ t.clock.gtsQ

/-- v0 holds no value of its own (R8): no register list names it. -/
def Stream.ZeroOk (st : Stream) : Prop := ∀ p ∈ st.regs, p.1 ≠ 0

/-- An instruction that completes in its issue group: `f` in every lane whose guard holds (R98), every lane of the group at the
next instruction, every other stream and all else of the device as before. -/
def State.completed (s : State) (g : Guard) (f : Stream → Stream) : State :=
  { s with streams := s.streams.map fun st =>
      if st.id ∈ s.cur.lanes then
        { (if guardHolds g st then f st else st) with
          pc := s.cur.npc, park := .none, stall := none, short := none, firm := false, room := none, block := [] }
      else st }

/-- No register of a list is a queue port (R263). -/
def plainRegs (rs : List Reg) : Bool := rs.all fun r => !Reg.isPort r
/-- The register of an operand 2. -/
def opndRegs : Opnd → List Reg
  | .reg r _ => [r]
  | .imm _ => []
/-- Operand 2 in a lane: a register, or the 26-bit immediate sign-extended (R97). -/
def opnd32 (st : Stream) : Opnd → Word
  | .reg r _ => st.rd r
  | .imm v => v.signExtend 32
def opnd64 (st : Stream) : Opnd → DWord
  | .reg r _ => st.rd64 r
  | .imm v => v.signExtend 64
/-- Operand 2 of an F32 instruction: an immediate is its upper 26 bits (R202). -/
def opndF32 (st : Stream) : Opnd → Word
  | .reg r _ => st.rd r
  | .imm v => v ++ 0#6
/-- The kill of an operand 2 (R100). -/
def killOpnd (st : Stream) : Opnd → Stream
  | .reg r k => st.kill r k
  | .imm _ => st
def killOpnd64 (st : Stream) : Opnd → Stream
  | .reg r k => st.kill64 r k
  | .imm _ => st

/-- No instruction outstanding of a stream writes a register, and it is not the counter of the `loop` of an open window (R119, R126). -/
def State.Known (s : State) (id : SId) (r : Reg) : Prop :=
  r ∉ s.awaited id ∧ ((s.stream id).window.any fun w => w.loop == some r) = false

/-! ### The moulds of R140: in each lane the operands are read, killed where marked, and the result is written -/

def UnaryIs (i : Alu1 → Instr) (f : Word → Word) : Prop :=
  ∀ (o : Alu1) (s : State), plainRegs [o.d, o.s1] →
    exec (i o) s = .next (s.completed o.g fun st => (st.kill o.s1 o.k1).wr o.d (f (st.rd o.s1)))
def BinaryIs (i : Alu2 → Instr) (f : Word → Word → Word) : Prop :=
  ∀ (o : Alu2) (s : State), plainRegs (o.d :: o.s1 :: opndRegs o.b) →
    exec (i o) s = .next (s.completed o.g fun st =>
      (killOpnd (st.kill o.s1 o.k1) o.b).wr o.d (f (st.rd o.s1) (opnd32 st o.b)))
def BinaryFIs (i : Alu2 → Instr) (f : Word → Word → Word) : Prop :=
  ∀ (o : Alu2) (s : State), plainRegs (o.d :: o.s1 :: opndRegs o.b) →
    exec (i o) s = .next (s.completed o.g fun st =>
      (killOpnd (st.kill o.s1 o.k1) o.b).wr o.d (f (st.rd o.s1) (opndF32 st o.b)))
def BinaryRIs (i : AluR → Instr) (f : Word → Word → Word) : Prop :=
  ∀ (o : AluR) (s : State), plainRegs [o.d, o.s1, o.s2] →
    exec (i o) s = .next (s.completed o.g fun st =>
      ((st.kill o.s1 o.k1).kill o.s2 o.k2).wr o.d (f (st.rd o.s1) (st.rd o.s2)))
def TernaryIs (i : Alu3 → Instr) (f : Word → Word → Word → Word) : Prop :=
  ∀ (o : Alu3) (s : State), plainRegs [o.d, o.s1, o.s2, o.s3] →
    exec (i o) s = .next (s.completed o.g fun st =>
      ((st.kill o.s1 o.k1).kill o.s2 o.k2).wr o.d (f (st.rd o.s1) (st.rd o.s2) (st.rd o.s3)))
/-- The wide mould; no operand of it may name a port (R141). -/
def WideIs (i : Alu2 → Instr) (f : DWord → DWord → DWord) : Prop :=
  ∀ (o : Alu2) (s : State),
    exec (i o) s = .next (s.completed o.g fun st =>
      (killOpnd64 (st.kill64 o.s1 o.k1) o.b).wr64 o.d (f (st.rd64 o.s1) (opnd64 st o.b)))
/-- The wide mould with a 32-bit count. -/
def WideCountIs (i : Alu2 → Instr) (f : DWord → Word → DWord) : Prop :=
  ∀ (o : Alu2) (s : State), plainRegs (opndRegs o.b) →
    exec (i o) s = .next (s.completed o.g fun st =>
      (killOpnd (st.kill64 o.s1 o.k1) o.b).wr64 o.d (f (st.rd64 o.s1) (opnd32 st o.b)))

/-- A comparison of R148 on integers. -/
def comparesAs (c : ICond) (x y : Int) : Bool :=
  match c with
  | .eq => x = y
  | .ne => x ≠ y
  | .lt => x < y
  | .le => x ≤ y
  | .gt => y < x
  | .ge => y ≤ x

/-! ### Frames -/

/-- Registers of an operand that its kill clears (R100). -/
def killed32 (r : Reg) (k : Bool) : List Reg := if k then [r] else []
def killed64 (r : Reg) (k : Bool) : List Reg := if k then two r else []
def killedOpnd : Opnd → List Reg
  | .reg r k => killed32 r k
  | .imm _ => []
def killedOpnd64 : Opnd → List Reg
  | .reg r k => killed64 r k
  | .imm _ => []
def unaryRegs (o : Alu1) : List Reg := o.d :: killed32 o.s1 o.k1
def binaryRegs (o : Alu2) : List Reg := o.d :: (killed32 o.s1 o.k1 ++ killedOpnd o.b)
def pairRegs (o : AluR) : List Reg := o.d :: (killed32 o.s1 o.k1 ++ killed32 o.s2 o.k2)
def ternaryRegs (o : Alu3) : List Reg := o.d :: (killed32 o.s1 o.k1 ++ killed32 o.s2 o.k2)
def wideRegs (o : Alu2) : List Reg := two o.d ++ killed64 o.s1 o.k1 ++ killedOpnd64 o.b
def wideCountRegs (o : Alu2) : List Reg := two o.d ++ killed64 o.s1 o.k1 ++ killedOpnd o.b

/-- The register instructions, with their guard, the registers they may change, and the registers that must be no port for
nothing to be popped or pushed. -/
def registerForm : Instr → Option (Guard × List Reg × List Reg)
  | .nop g => some (g, [], [])
  | .iadd o | .isub o | .imul o | .imulh o | .imulhu o | .idivs o | .idivu o | .irem o _ | .imin o | .imax o | .umin o | .umax o
  | .iadds o _ | .isubs o _ | .and o | .or o | .xor o | .andn o | .shl o | .shr o | .sar o | .rol o | .bfe o _ | .fadd o _
  | .fsub o _ | .fmul o _ | .fdiv o _ | .fmin o _ | .fmax o _ | .fscale o _ | .scfit o =>
    some (o.g, binaryRegs o, o.d :: o.s1 :: opndRegs o.b)
  | .imad o | .isad o _ | .lop3 o _ | .shf o _ | .bfi o | .sel o | .idot4 o _ _ | .idot2 o _ _ | .ffma o _ | .ffms o _ | .fnma o _
  | .fclamp o _ | .hfma2 o _ _ | .hdot2 o _ _ => some (o.g, ternaryRegs o, [o.d, o.s1, o.s2, o.s3])
  | .add64 o | .sub64 o | .mul64 o => some (o.g, wideRegs o, [])
  | .shl64 o | .shr64 o _ => some (o.g, wideCountRegs o, opndRegs o.b)
  | .iabs o _ | .ineg o _ | .not o | .popc o | .clz o | .ctz o | .brev o | .frcp o _ | .frsq o _ | .fsqrt o _ | .fexp2 o _
  | .flog2 o _ | .fsin o _ | .fcos o _ | .frnd o _ | .fclass o | .dsdec o _ _ | .dsenc o _ _ => some (o.g, unaryRegs o, [o.d, o.s1])
  | .prmt o _ _ | .icmp o _ _ | .fcmp o _ _ | .fsgn o _ | .fexd o | .hadd2 o _ _ | .hmul2 o _ _ | .hmin2 o _ _ | .hmax2 o _ _
  | .hcmp2 o _ _ _ | .i2h2 o _ _ _ _ | .scmul o _ _ => some (o.g, pairRegs o, [o.d, o.s1, o.s2])
  | .icmp64 o _ _ => some (o.g, o.d :: (killed64 o.s1 o.k1 ++ killed64 o.s2 o.k2), [o.d])
  | .dadd o _ | .dmul o _ => some (o.g, two o.d ++ killed64 o.s1 o.k1 ++ killed64 o.s2 o.k2, [])
  | .dfma o _ => some (o.g, two o.d ++ killed64 o.s1 o.k1 ++ killed64 o.s2 o.k2, [])
  | .f2i o t _ => some (o.g, (if typeWide t then two o.d else [o.d]) ++ killed32 o.s1 o.k1, [o.d, o.s1])
  | .i2f o t _ => some (o.g, o.d :: (if typeWide t then killed64 o.s1 o.k1 else killed32 o.s1 o.k1), [o.d, o.s1])
  | .dcvt o dir _ =>
    some (o.g, (if dir = .f32f64 then [o.d] else two o.d) ++ (if dir = .f64f32 then killed32 o.s1 o.k1 else killed64 o.s1 o.k1),
      [o.d, o.s1])
  | .atmrg o _ => some (o.g, ternaryRegs o, [o.d, o.s1, o.s2])
  | .lea64 o _ _ => some (o.g, wideCountRegs o, opndRegs o.b)
  | .pairWord a b => some (⟨false, 0, false⟩, [a.d, b.d], [])
  | .mov g d b => some (g, d :: killedOpnd b, d :: opndRegs b)
  | .lih g d _ => some (g, [d], [d])
  | .shfl o => some (o.g, ternaryRegs o, [])
  | .shfx o _ _ | .shup o _ _ | .shdn o _ _ | .gbcast o _ _ | .gsum o _ | .gmax o _ | .gmin o _ | .gbit o _ | .gscan o _ _ =>
    some (o.g, unaryRegs o, [])
  | .vote o _ => some (o.g, two o.d ++ killed32 o.s1 o.k1, [])
  | .matchAny o _ => some (o.g, two o.d ++ killed64 o.s1 o.k1, [])
  | .amask g d => some (g, two d, [])
  | .jmask g d _ _ => some (g, two d, [])
  | _ => none

/-- The lanes of the issue group complete; only the registers of a list change, in lanes whose guard holds, and nothing else of a
stream but its PC and what it noted while it waited. -/
def WritesOnly (s t : State) (g : Guard) (rs : List Reg) : Prop :=
  ∃ f : Stream → Stream, t = s.completed g f ∧
    ∀ st, (∀ r, r ∉ rs → (f st).rd r = st.rd r) ∧ f st = { st with regs := (f st).regs }

/-- The participants of a lane in a group instruction: the lanes of its group that pass the guard (R154). -/
def State.peers (s : State) (g : Guard) (st : Stream) : List Stream :=
  ((s.cur.lanes.map s.stream).filter fun p => guardHolds g p).filter fun p => s.curTeam.group p.id = s.curTeam.group st.id
/-- The value of the participant with a lane index, or the receiver's fill (R156). -/
def State.fromLane (s : State) (g : Guard) (st : Stream) (n : Int) (v fill : Reg) : Word :=
  match (s.peers g st).find? fun p => (s.curTeam.lane p.id : Int) = n with
  | some p => p.rd v
  | none => st.rd fill
/-- The mask of lane indices of some participants. -/
def State.lanesMask (s : State) (ps : List Stream) : DWord :=
  BitVec.ofFnLE fun i => ps.any fun p => s.curTeam.lane p.id = i
/-- A combination of values in ascending lane index; 0 of none. -/
def foldUp (f : Word → Word → Word) : List Word → Word
  | [] => 0
  | v :: r => r.foldl f v

/-! ### Branches -/

/-- A branch that is taken: each lane whose guard holds goes to its target after `f`, each other lane of the group to the next
instruction; the class decides what the lane's path and policy record, and lanes that leave in the same direction are on one path
afterwards (R136, R155, R166). -/
def State.jumped (s : State) (g : Guard) (c : BrClass) (tgt : Stream → DWord) (f : Stream → Stream) : State :=
  let dir := fun (st : Stream) => if guardHolds g st then tgt st else s.cur.npc
  { s with streams := s.streams.map fun st =>
      if st.id ∈ s.cur.lanes then
        (if guardHolds g st then f st else st).branched c s.cur.pc (dir st) (s.pathOf s.cur.lanes dir Stream.path st)
      else st }

/-- Streams of the issue group that exist. -/
def State.Present (s : State) (ids : List SId) : Prop := ∀ id ∈ ids, (s.stream? id).isSome = true
/-- Nothing but streams differs, and no stream outside a list of identities. -/
def State.OnlyStreams (s t : State) (ids : List SId) : Prop :=
  t = { s with streams := t.streams } ∧ ∀ id, id ∉ ids → t.stream? id = s.stream? id

/-! ### Memory operations -/

/-- A checked access of the device's own memory: HBM4 or the vault, by a cached translation or none. -/
def Checked.Local (c : Checked) : Prop :=
  c.loc.space.local = true ∧ c.loc.cxl = false ∧ c.loc.key < 2 ^ 63 ∧ c.walked = none

/-- The operations that one instruction leaves outstanding for its checked lanes, in ascending thread index. -/
def State.opsOf (s : State) (f : OpForm) (data : SId → DWord × DWord) (cs : List (SId × Checked)) : List MemOp :=
  cs.zipIdx.map fun c =>
    { s.mkOp f [⟨c.1.1, (data c.1.1).1, (data c.1.1).2⟩] none c.1.2 with num := s.nextOp + c.2 }

/-- Memory is the same but for the bytes [k, k + bs.length), which hold `bs`. -/
def Stored (m m' : List Host.Cell) (k : Nat) (bs : List Byte) : Prop :=
  (∀ a, a < k ∨ k + bs.length ≤ a → memRead m' a = memRead m a) ∧
    ∀ i, i < bs.length → memRead m' (k + i) = bs.getD i 0

/-- An operation of the device's own memory that may take its effect now and goes through no virtual cache. -/
def State.Uncached (s : State) (o : MemOp) : Prop :=
  s.mayPerform o = true ∧ o.phase = .issued ∧ o.loc.space.local = true ∧ o.loc.cxl = false ∧ o.loc.key < 2 ^ 63 ∧
    s.keyDown o.loc.key = false ∧ s.cache? o.loc.vcid = none ∧ (∀ a ∈ s.ops, a.phase ≠ .left)

/-- The home slice of a segment has an entry for it, or room for one (R235). -/
def State.DirRoom (s : State) (seg : Nat) : Prop :=
  (s.vt.dirs.any fun e => e.1 == seg) = true ∨ (s.vt.dirs.filter fun e => segHome e.1 == segHome seg).length < 8192

/-! ### The lanes of an issue group -/

/-- The streams after the executing instruction: each active lane as `f` makes it, each other lane of the group at the next
instruction, every other stream as it was. -/
def State.Lanes (s t : State) (g : Guard) (f : Stream → Stream) : Prop :=
  (∀ id ∈ s.active g, t.stream id = f (s.stream id)) ∧
    (∀ id ∈ s.cur.lanes, id ∉ s.active g → t.stream id = (s.stream id).goto s.cur.npc) ∧
    ∀ id, id ∉ s.cur.lanes → t.stream? id = s.stream? id
/-- A stream without its notes of what happens before what (R335, R340 to R342, R366). -/
def Stream.bare (st : Stream) : Stream :=
  { st with carried := [], got := [], fenced := [], released := [], arrived := [], overtaken := [] }
/-- The same, an active lane as `f` makes it but for its notes. -/
def State.LanesBare (s t : State) (g : Guard) (f : Stream → Stream) : Prop :=
  (∀ id ∈ s.active g, (t.stream id).bare = (f (s.stream id)).bare) ∧
    (∀ id ∈ s.cur.lanes, id ∉ s.active g → t.stream id = (s.stream id).goto s.cur.npc) ∧
    ∀ id, id ∉ s.cur.lanes → t.stream? id = s.stream? id
/-- One lane executes an instruction whose guard it passes. -/
def State.Alone (s : State) (g : Guard) (id : SId) : Prop :=
  s.cur.lanes = [id] ∧ guardHolds g (s.stream id) = true ∧ s.Present [id]
/-- Nothing that an instruction with an order waits for: no flush of its lanes, no operation of theirs in the spaces of a mask, and
no lines that a release writes back. -/
def State.Settled (s : State) (ids : List SId) (m : BitVec 5) : Prop :=
  s.vt.migrateMode = false ∧ (∀ id ∈ ids, (s.stream id).flush = none) ∧ s.pendingIn ids m = false
/-- The outcome of one instruction of one lane that leaves one operation outstanding. -/
def State.IssuesOne (s t : State) (id : SId) (x : MemOp) (st : Stream) : Prop :=
  t = { s with streams := t.streams, ops := s.ops ++ [x], nextOp := s.nextOp + 1 } ∧ x.num = s.nextOp ∧
    t.stream id = { st with cnt := st.cnt.add x.counter 1 }.goto s.cur.npc ∧
    ∀ id', id' ≠ id → t.stream? id' = s.stream? id'

/-! ### Loom -/

/-- Only a port's registers change, to `p`. -/
def State.OnePort (s t : State) (fn n : Nat) (p : Port) : Prop :=
  t = { s with loom := { s.loom with ports := t.loom.ports } } ∧ t.port fn n = p ∧
    ∀ k, k ≠ 64 * fn + n → sget blankPort t.loom.ports k = sget blankPort s.loom.ports k
/-- Only an installed node changes, to `x`. -/
def State.OneNode (s t : State) (x : Node) : Prop :=
  t = { s with loom := { s.loom with nodes := t.loom.nodes } } ∧ t.node? x.idx = some x ∧
    ∀ k, k ≠ x.idx → t.node? k = s.node? k
/-- One completion counted by a node (R48): the node afterwards, where it does not become ready more than 255 times. -/
def Node.counted (n : Node) : Node :=
  if n.typ = 5 then { n with runs := n.runs + 1 }
  else if n.npred = 0 then n
  else if n.pending ≤ 1 then { n with pending := n.npred, runs := n.runs + 1 }
  else { n with pending := n.pending - 1 }

end Sys2Proof.Machine
end

