-- ==== Sys2Proof/Certificates/Slice0/Obligations.lean ====
section
/-! DEFINITION. Sys2Proof/Certificates/Slice0/Obligations.lean: the statements for the provers, whole-machine statements first, then
by family. A docstring names the rules a statement follows, and the log entries where a clause is the model's own. -/
open Sys2Proof Sys2Proof.Machine

/-- R93 to R108: the words that a well-formed instruction encodes to decode to that instruction, with every operand as it was. -/
def Obligations.DecodingInvertsEncoding : Prop :=
  ∀ (i : Instr) (w : DWord) (lits : List DWord), i.wf = true → encode i = some (w :: lits) → decode w lits = .ok i

/-- Memory keeps its canonical form in every step, from every state. -/
def Obligations.EveryStepKeepsMemoryCanonical : Prop :=
  ∀ s t : State, s.MemOk → step s = .next t → t.MemOk

/-- R440: no step of the device takes the global timestamp back. -/
def Obligations.TimeNeverStepsBack : Prop :=
  ∀ s t : State, step s = .next t → s.TimeLe t

/-- R224, R230, R315, R385, R404, R407, R433, R436, R437: what the manual states of reset: nothing runs, every queue, slot, token
and table is empty, the registers hold their reset values, VCID 1 is as the boot firmware defines it, and memory is canonical. -/
def Obligations.ResetLeavesTheGivenValues : Prop :=
  State.reset.MemOk ∧ State.reset.streams = [] ∧ State.reset.teams = [] ∧ State.reset.ops = [] ∧ State.reset.halted = [] ∧
  State.reset.loom.grids = [] ∧ State.reset.loom.nodes = [] ∧ State.reset.tokens = [] ∧ State.reset.co.insts = [] ∧
  (∀ fn n, fn < 65 → n < 64 → State.reset.port fn n = blankPort) ∧
  (∀ j ∈ State.reset.jobs, j.v = false) ∧ State.reset.jobs.length = 8 ∧
  (∀ n, (State.reset.wq n).v = false) ∧
  State.reset.tr.asidTbl = 0 ∧
  State.reset.tr.rings = [⟨0, 0, 0x0000FC00, 0⟩, ⟨0, 0, 0x0000FD30, 0⟩, ⟨0, 0, 0x0000FE60, 0⟩, ⟨0, 0, 0x0000FF90, 0⟩] ∧
  State.reset.vt.migrateMode = false ∧ State.reset.vt.joinAsid = 0 ∧ State.reset.vt.joinStat = 0 ∧
  State.reset.vt.caches.map (·.vcid) = [1] ∧
  (∀ c ∈ State.reset.vt.caches, c.repl = false ∧ c.wpol = .back ∧ c.line = 128 ∧ c.assoc = 16 ∧ c.fill = .normal ∧
    c.map = (List.range 48).map fun k => (k, List.range 128)) ∧
  State.reset.hif.hbmIdle = 1000 ∧ State.reset.hif.cxlTimeout = 3 ∧ State.reset.hif.evtCtl = 0 ∧ State.reset.hif.pwrTol = 0

/-- R106, R118, R120, R155: a turn of a stream runs the instruction that the words at its PC decode to: in the lanes of its issue
group that nothing stalls, over the state after the fetch, followed only by what issue records in those lanes (`State.noted`), for
an update of join slots its core cycle (R180, `State.noteSlots`), for a `yield` the streams that it lets go first (R138,
`State.noteYield`), and the idle timers of the memory it used (R439, `State.noteUse`). For a Carter or control stream that no `yield`
defers the turn names the stream; for a core the first of its leads issues, where its instruction does not leave every lane
stalled. -/
def Obligations.StepRunsTheDecodedInstruction : Prop :=
  ∀ (s : State) (turn : Turn) (r : List Turn) (id : SId) (ws : List (DWord × Checked)) (i : Instr) (t : State),
    s.agenda = turn :: r →
    let s0 : State := { s with agenda := r }
    let st := s0.stream id
    let all := s0.fellows st
    let go := s0.goers i all
    let goes := fun (x : SId) => go.any fun y => y.id = x
    let ready := all.filter fun x => goes x.id
    let held := (all.filter fun x => !(ready.any fun y => y.id = x.id)).map (·.id)
    let ids := (s0.packed st ready).filter goes
    let firm := fun (x : Stream) => (twoWay i).any fun b => (s0.forecast x).isNone && s0.unknown b x
    let s1 := (s0.fetched st (all.map (·.id)) ws).holdLanes held firm
    let after := (if slotUser i then t.noteSlots ids else t).noted s0 st ids ws.length
    st.park ≠ .stop → s0.asleep ((s0.team id.tcx).coreOf id) = false → st.window = none →
    s0.fetch st = .ok ws → s0.examineFor st (ws.map (·.1)) = .ok i →
    (∀ x ∈ all, s0.guesses i (st.pc + BitVec.ofNat 64 (8 * ws.length)) x = none) →
    goes st.id = true →
    (slotUser i = true → s1.slotsLate ids = false) → exec i (s1.atGroup ids st.pc ws.length) = .next t →
    decode ((ws.map (·.1)).headD 0) (ws.map (·.1)).tail = .ok i ∧
    (turn = .issue id → id.kind ≠ .lane → s0.canIssue st = true → s0.deferred (s0.rivals st) st = false →
      step s = .next ((if after.stuck then after else after.noteYield exec s0).noteUse s0)) ∧
    (∀ c k, turn = .core c k → (s0.leads c k).head? = some id → after.stuck = false →
      step s = .next ((after.noteYield exec s0).noteUse s0))

/-- R93 to R108: words written out from the manual's encodings decode to the instructions they stand for: an integer instruction
with guard and immediate, a table of `lop3`, a load and a store with offset and pair address, an atomic, a copy, a tile drain, a
control register's write, and a pair word. -/
def Obligations.WrittenWordsDecode : Prop :=
  let always : Guard := ⟨false, 0, false⟩
  decode 0x0081827F83F3FFFB [] = .ok (.iadd ⟨⟨true, 7, true⟩, 3, 4, false, .imm 0x3FFFFFB⟩) ∧
  decode 0x0D828303800020E8 [] = .ok (.lop3 ⟨always, 5, 6, false, 7, false, 8⟩ 0xE8) ∧
  decode 0x4603010100020000 [] =
    .ok (.ld { g := always, d := 6, s1 := 2, k1 := false, off := 2, size := 2, sx := false, ord := .rlx, scp := false
               agent := .thr, stor := 0, hint := .none }) ∧
  decode 0x6001040500004001 [] =
    .ok (.dcopy { g := always, d := 2, s1 := 8, k1 := false, s2 := 10, k2 := false, x := 16, width := 0, spray := 1 }) ∧
  decode 0x6A807906000000BC [] = .ok (.mdrain ⟨always, 0xF2, false, 12, false, 1, 3, true, true⟩) ∧
  decode 0x7980030000000010 [] = .ok (.cwr always 6 false 0x10) ∧
  decode 0x810409006C0C1650 [] = .ok (.pairWord ⟨1, 4, 9, 0, false, false⟩ ⟨0x36, 6, 11, 5, false, false⟩) ∧
  decode 0x5AFF807F8003FC00 [] = .ok (.wait always 255 0 255 255)

/-- R153: `nop` in any lanes leaves everything but the PC; a word of its opcode with a nonzero D, S1, S2, I, K1, K2 or MOD traps
with ILLEGAL_OPERAND, and so does one whose guard R98 refuses; a half of a pair word that names it traps with ILLEGAL_PAIR. -/
def Obligations.NopHasNoEffect : Prop :=
  (∀ g s, exec (.nop g) s = .next (s.completed g id)) ∧
  (∀ (s : State) (st : Stream) (w : DWord), w.msb = false → (fieldsOf w).opc = 0 →
    let f := fieldsOf w
    s.examineFor st [w] =
      if f.d = 0 ∧ f.s1 = 0 ∧ f.s2 = 0 ∧ f.i = false ∧ f.k1 = false ∧ f.k2 = false ∧ f.md = 0 ∧ f.guard.wf = true ∧
          (Instr.nop f.guard).streamOk st.id.kind (s.team st.id.tcx).recd.regs = true then
        .ok (.nop f.guard)
      else .error cIllegalOperand) ∧
  (∀ (s : State) (st : Stream) (w : DWord), w.msb = true →
    ((halfOf (w.extractLsb' 32 31)).pidx = 0 ∨ (halfOf (w.extractLsb' 1 31)).pidx = 0) →
    s.examineFor st [w] = .error cIllegalPair)

/-- R142: the results of `iadd` to `isad` in exact arithmetic, reduced to the width of D; a minimum, a maximum and a saturated sum
by their integer values. -/
def Obligations.IntegerArithmetic : Prop :=
  BinaryIs .iadd (fun a b => BitVec.ofNat 32 (a.toNat + b.toNat)) ∧
  BinaryIs .isub (fun a b => BitVec.ofInt 32 (a.toNat - b.toNat)) ∧
  BinaryIs .imul (fun a b => BitVec.ofNat 32 (a.toNat * b.toNat)) ∧
  BinaryIs .imulh (fun a b => (BitVec.ofInt 64 (a.toInt * b.toInt)).extractLsb' 32 32) ∧
  BinaryIs .imulhu (fun a b => (BitVec.ofNat 64 (a.toNat * b.toNat)).extractLsb' 32 32) ∧
  TernaryIs .imad (fun a b c => BitVec.ofNat 32 (a.toNat * b.toNat + c.toNat)) ∧
  WideIs .add64 (fun a b => BitVec.ofNat 64 (a.toNat + b.toNat)) ∧
  WideIs .sub64 (fun a b => BitVec.ofInt 64 (a.toNat - b.toNat)) ∧
  WideIs .mul64 (fun a b => BitVec.ofNat 64 (a.toNat * b.toNat)) ∧
  BinaryIs .imin (fun a b => BitVec.ofInt 32 (min a.toInt b.toInt)) ∧
  BinaryIs .imax (fun a b => BitVec.ofInt 32 (max a.toInt b.toInt)) ∧
  BinaryIs .umin (fun a b => BitVec.ofNat 32 (min a.toNat b.toNat)) ∧
  BinaryIs .umax (fun a b => BitVec.ofNat 32 (max a.toNat b.toNat)) ∧
  (∀ sat, UnaryIs (fun o => .iabs o sat) fun a =>
    if sat && a == 0x80000000 then 0x7FFFFFFF else BitVec.ofNat 32 a.toInt.natAbs) ∧
  (∀ sat, UnaryIs (fun o => .ineg o sat) fun a =>
    if sat && a == 0x80000000 then 0x7FFFFFFF else BitVec.ofInt 32 (-a.toInt)) ∧
  BinaryIs (fun o => .iadds o false) (fun a b =>
    BitVec.ofInt 32 (max (-2147483648) (min 2147483647 (a.toInt + b.toInt)))) ∧
  BinaryIs (fun o => .iadds o true) (fun a b => BitVec.ofNat 32 (min 4294967295 (a.toNat + b.toNat))) ∧
  BinaryIs (fun o => .isubs o false) (fun a b =>
    BitVec.ofInt 32 (max (-2147483648) (min 2147483647 (a.toInt - b.toInt)))) ∧
  BinaryIs (fun o => .isubs o true) (fun a b => BitVec.ofNat 32 (a.toNat - b.toNat)) ∧
  TernaryIs (fun o => .isad o false) (fun a b c => BitVec.ofInt 32 ((a.toInt - b.toInt).natAbs + c.toNat)) ∧
  TernaryIs (fun o => .isad o true) (fun a b c => BitVec.ofInt 32 (((a.toNat : Int) - b.toNat).natAbs + c.toNat))

/-- R143: division answers a next state for all operands, with the table's results: the signed quotient by its magnitude and sign,
the signed remainder with the sign of a. -/
def Obligations.DivisionNeverTraps : Prop :=
  BinaryIs .idivs (fun a b =>
    if b = 0 then 0xFFFFFFFF
    else if a = 0x80000000 ∧ b = 0xFFFFFFFF then 0x80000000
    else BitVec.ofInt 32 (a.toInt.sign * b.toInt.sign * (a.toInt.natAbs / b.toInt.natAbs : Nat))) ∧
  BinaryIs .idivu (fun a b => if b = 0 then 0xFFFFFFFF else BitVec.ofNat 32 (a.toNat / b.toNat)) ∧
  BinaryIs (fun o => .irem o false) (fun a b =>
    if b = 0 then a
    else if a = 0x80000000 ∧ b = 0xFFFFFFFF then 0
    else BitVec.ofInt 32 (a.toInt.sign * (a.toInt.natAbs % b.toInt.natAbs : Nat))) ∧
  BinaryIs (fun o => .irem o true) (fun a b => if b = 0 then a else BitVec.ofNat 32 (a.toNat % b.toNat))

/-- R144, R145: the logic instructions, `lop3` bit by bit, and the shifts in exact arithmetic. R146, R147, R152: bit fields,
counts, the permutes and the dot products. POS is b[7:0] and LEN is min(b[15:8], 32). -/
def Obligations.LogicShiftsFieldsAndDots : Prop :=
  (
    BinaryIs .and (fun a b => BitVec.ofFnLE fun i => a.getLsbD i && b.getLsbD i) ∧
    BinaryIs .or (fun a b => BitVec.ofFnLE fun i => a.getLsbD i || b.getLsbD i) ∧
    BinaryIs .xor (fun a b => BitVec.ofFnLE fun i => a.getLsbD i != b.getLsbD i) ∧
    BinaryIs .andn (fun a b => BitVec.ofFnLE fun i => a.getLsbD i && !b.getLsbD i) ∧
    UnaryIs .not (fun a => BitVec.ofFnLE fun i => !a.getLsbD i) ∧
    (∀ tt, TernaryIs (fun o => .lop3 o tt) fun a b c => BitVec.ofFnLE fun i =>
      tt.getLsbD ((a.getLsbD i).toNat + 2 * (b.getLsbD i).toNat + 4 * (c.getLsbD i).toNat)) ∧
    BinaryIs .shl (fun a b => if b.toNat < 32 then BitVec.ofNat 32 (a.toNat * 2 ^ b.toNat) else 0) ∧
    BinaryIs .shr (fun a b => if b.toNat < 32 then BitVec.ofNat 32 (a.toNat / 2 ^ b.toNat) else 0) ∧
    BinaryIs .sar (fun a b =>
      if b.toNat < 32 then BitVec.ofInt 32 (a.toInt / 2 ^ b.toNat) else if a.msb then 0xFFFFFFFF else 0) ∧
    BinaryIs .rol (fun a b =>
      BitVec.ofNat 32 (a.toNat * 2 ^ (b.toNat % 32) + a.toNat / 2 ^ (32 - b.toNat % 32))) ∧
    TernaryIs (fun o => .shf o .rot) (fun a b c =>
      BitVec.ofFnLE fun i => (b ++ a : DWord).getLsbD ((i + c.toNat) % 64)) ∧
    TernaryIs (fun o => .shf o .z) (fun a b c => BitVec.ofNat 32 ((b ++ a : DWord).toNat / 2 ^ min c.toNat 64)) ∧
    TernaryIs (fun o => .shf o .s) (fun a b c => BitVec.ofInt 32 ((b ++ a : DWord).toInt / 2 ^ min c.toNat 64)) ∧
    WideCountIs .shl64 (fun a n => if n.toNat < 64 then BitVec.ofNat 64 (a.toNat * 2 ^ n.toNat) else 0) ∧
    WideCountIs (fun o => .shr64 o false) (fun a n => if n.toNat < 64 then BitVec.ofNat 64 (a.toNat / 2 ^ n.toNat) else 0) ∧
    WideCountIs (fun o => .shr64 o true) (fun a n =>
      if n.toNat < 64 then BitVec.ofInt 64 (a.toInt / 2 ^ n.toNat) else if a.msb then 0xFFFFFFFFFFFFFFFF else 0)) ∧
  (
    (∀ sx, BinaryIs (fun o => .bfe o sx) fun a b =>
      let pos := b.toNat % 256
      let len := min (b.toNat / 256 % 256) 32
      let field := fun k => if pos + k ≤ 31 then a.getLsbD (pos + k) else sx && a.getLsbD 31
      BitVec.ofFnLE fun i => if i < len then field i else sx && len != 0 && field (len - 1)) ∧
    TernaryIs .bfi (fun a b c =>
      let pos := b.toNat % 256
      let len := min (b.toNat / 256 % 256) 32
      BitVec.ofFnLE fun i => if pos ≤ i ∧ i < pos + len then a.getLsbD (i - pos) else c.getLsbD i) ∧
    UnaryIs .popc (fun a => BitVec.ofNat 32 ((List.range 32).countP fun i => a.getLsbD i)) ∧
    UnaryIs .clz (fun a => if a = 0 then 32 else BitVec.ofNat 32 (31 - a.toNat.log2)) ∧
    UnaryIs .ctz (fun a => if a = 0 then 32 else BitVec.ofNat 32 (a &&& -a).toNat.log2) ∧
    UnaryIs .brev (fun a => BitVec.ofFnLE fun i => a.getLsbD (31 - i)) ∧
    (∀ sel zero, BinaryRIs (fun o => .prmt o sel zero) fun a b => BitVec.ofFnLE fun i =>
      !zero.getLsbD (i / 8) && (b ++ a : DWord).getLsbD (8 * (sel.toNat / 8 ^ (i.val / 8) % 8) + i % 8)) ∧
    (∀ au bu, TernaryIs (fun o => .idot4 o au bu) fun a b c =>
      let x := fun k => let e := a.extractLsb' (8 * k) 8; if au then (e.toNat : Int) else e.toInt
      let y := fun k => let e := b.extractLsb' (8 * k) 8; if bu then (e.toNat : Int) else e.toInt
      BitVec.ofInt 32 (x 0 * y 0 + x 1 * y 1 + x 2 * y 2 + x 3 * y 3 + c.toInt)) ∧
    (∀ au bu, TernaryIs (fun o => .idot2 o au bu) fun a b c =>
      let x := fun k => let e := a.extractLsb' (16 * k) 16; if au then (e.toNat : Int) else e.toInt
      let y := fun k => let e := b.extractLsb' (16 * k) 16; if bu then (e.toNat : Int) else e.toInt
      BitVec.ofInt 32 (x 0 * y 0 + x 1 * y 1 + c.toInt)))

/-- R148, R149, R151, R153: selection, comparison (signed for U = 0, unsigned for U = 1, a full 32-bit 0 or 1), moves, address
formation and `nop`. R150: `movri` and `movwi` where the run-time number of every active lane is one of its registers and none is
awaited or counts the loop of an open window (R119, R126); and the trap of the first lane whose number is not, before any lane is
written. Completion: under the premises of its clause on the
state and the operands alone, each of `movri`, `movwi` answers a next state of its own effect. -/
def Obligations.SelectionComparisonAndMoves : Prop :=
  (
    TernaryIs .sel (fun a b c => if c.toNat % 2 = 1 then a else b) ∧
    (∀ c u, BinaryRIs (fun o => .icmp o c u) fun a b =>
      if comparesAs c (if u then (a.toNat : Int) else a.toInt) (if u then (b.toNat : Int) else b.toInt) then 1 else 0) ∧
    (∀ (o : AluR) c u s, plainRegs [o.d] →
      exec (.icmp64 o c u) s = .next (s.completed o.g fun st =>
        ((st.kill64 o.s1 o.k1).kill64 o.s2 o.k2).wr o.d
          (if comparesAs c (if u then ((st.rd64 o.s1).toNat : Int) else (st.rd64 o.s1).toInt)
              (if u then ((st.rd64 o.s2).toNat : Int) else (st.rd64 o.s2).toInt) then 1 else 0))) ∧
    (∀ g d src s, plainRegs (d :: opndRegs src) →
      exec (.mov g d src) s = .next (s.completed g fun st => (killOpnd st src).wr d (opnd32 st src))) ∧
    (∀ g d imm s, plainRegs [d] →
      exec (.lih g d imm) s = .next (s.completed g fun st =>
        st.wr d (BitVec.ofNat 32 (65536 * imm.toNat + (st.rd d).toNat % 65536)))) ∧
    (∀ (o : Alu2) r k sh sx s, o.b = .reg r k → plainRegs [r] →
      exec (.lea64 o sh sx) s = .next (s.completed o.g fun st =>
        ((st.kill64 o.s1 o.k1).kill r k).wr64 o.d
          (st.rd64 o.s1 + BitVec.ofInt 64 ((if sx then (st.rd r).toInt else (st.rd r).toNat) * 2 ^ sh.toNat)))) ∧
    (∀ (o : Alu2) v sh sx s, o.b = .imm v →
      exec (.lea64 o sh sx) s = .next (s.completed o.g fun st =>
        (st.kill64 o.s1 o.k1).wr64 o.d (st.rd64 o.s1 + v.signExtend 64))) ∧
    (∀ g s, exec (.nop g) s = .next (s.completed g id))) ∧
  (
    (∀ (o : Alu1) (base : BitVec 8) (s : State), plainRegs [o.d, o.s1] →
      (∀ id ∈ s.active o.g,
        ((s.stream id).rd o.s1).toNat + base.toNat < s.ownRegs id ∧
        s.Known id (BitVec.ofNat 8 (((s.stream id).rd o.s1).toNat + base.toNat))) →
      exec (.movri o base) s = .next (s.completed o.g fun st =>
        (st.kill o.s1 o.k1).wr o.d (st.rd (BitVec.ofNat 8 ((st.rd o.s1).toNat + base.toNat))))) ∧
    (∀ g s1 k1 s2 k2 (base : BitVec 8) (s : State), plainRegs [s1, s2] →
      (∀ id ∈ s.active g,
        ((s.stream id).rd s1).toNat + base.toNat < s.ownRegs id ∧
        s.Known id (BitVec.ofNat 8 (((s.stream id).rd s1).toNat + base.toNat))) →
      exec (.movwi g s1 k1 s2 k2 base) s = .next (s.completed g fun st =>
        ((st.kill s1 k1).kill s2 k2).wr (BitVec.ofNat 8 ((st.rd s1).toNat + base.toNat)) (st.rd s2))) ∧
    (∀ (o : Alu1) g s1 k1 s2 k2 (base : BitVec 8) (s : State) (fail : SId), plainRegs [o.s1, s1, s2] →
      ((s.active o.g).find? (fun id => s.ownRegs id ≤ ((s.stream id).rd o.s1).toNat + base.toNat) = some fail →
        exec (.movri o base) s = .next (s.trap7 o.g cIllegalOperand fail 0)) ∧
      ((s.active g).find? (fun id => s.ownRegs id ≤ ((s.stream id).rd s1).toNat + base.toNat) = some fail →
        exec (.movwi g s1 k1 s2 k2 base) s = .next (s.trap7 g cIllegalOperand fail 0))))

/-- R203 to R210: the F32 instructions: the exact result of the flushed operands, rounded once; selections, comparisons and the
functions by their operations on encodings. Of those functions: EXP2R has the special values of R109 and is exact at integers; `fexd`
gives NaN for NaN and ∞ − ∞, +0 for −∞ less a number, and 1.0 for equal numbers; `flog2`, `fsin` and `fcos` have the special values of
R209, `flog2` is exact at powers of two, and `fsin` and `fcos` lie in [−1, 1] (which value within the bound of 1.5 ulp they return is
free: log entry 8); `frnd` keeps the sign and gives the integer that RND rounds to, infinities and values of 2^23 on as they are;
`fclass` sets the one bit of the operand's class; `fscale` rounds a × 2^b once, for every b. -/
def Obligations.SinglePrecision : Prop :=
  let V := fun (m : FMod) (a : Word) => fF32.val (fF32.flush m.ftz a.toNat)
  let R := fun (m : FMod) (v : FVal) => BitVec.ofNat 32 (fF32.round m.rnd m.ftz v)
  (∀ m, BinaryFIs (fun o => .fadd o m) fun a b => R m (FVal.sum m.rnd [V m a, V m b])) ∧
  (∀ m, BinaryFIs (fun o => .fsub o m) fun a b => R m (FVal.sum m.rnd [V m a, (V m b).neg])) ∧
  (∀ m, BinaryFIs (fun o => .fmul o m) fun a b => R m ((V m a).mul (V m b))) ∧
  (∀ m, BinaryFIs (fun o => .fdiv o m) fun a b => R m ((V m a).div (V m b))) ∧
  (∀ m, TernaryIs (fun o => .ffma o m) fun a b c => R m (FVal.sum m.rnd [(V m a).mul (V m b), V m c])) ∧
  (∀ m, TernaryIs (fun o => .ffms o m) fun a b c => R m (FVal.sum m.rnd [(V m a).mul (V m b), (V m c).neg])) ∧
  (∀ m, TernaryIs (fun o => .fnma o m) fun a b c => R m (FVal.sum m.rnd [((V m a).mul (V m b)).neg, V m c])) ∧
  (∀ z, BinaryFIs (fun o => .fmin o z) fun a b => BitVec.ofNat 32 (fF32.pick false z a.toNat b.toNat)) ∧
  (∀ z, BinaryFIs (fun o => .fmax o z) fun a b => BitVec.ofNat 32 (fF32.pick true z a.toNat b.toNat)) ∧
  (∀ z, TernaryIs (fun o => .fclamp o z) fun a b c =>
    BitVec.ofNat 32 (fF32.pick false z (fF32.pick true z a.toNat b.toNat) c.toNat)) ∧
  (∀ c z, BinaryRIs (fun o => .fcmp o c z) fun a b => if fF32.cmp c z a.toNat b.toNat then 1 else 0) ∧
  (∀ op, BinaryRIs (fun o => .fsgn o op) fun a b =>
    if fF32.isNaN a.toNat then 0x7FC00000
    else BitVec.ofNat 32 (a.toNat % 2 ^ 31 + (if (match op with
      | .cpy => b.msb | .neg => !b.msb | .xor => a.msb != b.msb) then 2 ^ 31 else 0))) ∧
  (∀ m, UnaryIs (fun o => .frcp o m) fun a => R m (FVal.one.div (V m a))) ∧
  (∀ m, UnaryIs (fun o => .frsq o m) fun a => R m (V m a).rsqrt) ∧
  (∀ m, UnaryIs (fun o => .fsqrt o m) fun a => R m (V m a).sqrt) ∧
  (∀ z, UnaryIs (fun o => .fexp2 o z) fun a => BitVec.ofNat 32 (fF32.flush z (exp2r (fF32.flush z a.toNat)))) ∧
  (∀ z, UnaryIs (fun o => .flog2 o z) fun a => BitVec.ofNat 32 (fF32.flush z (flog2R (fF32.flush z a.toNat)))) ∧
  (∀ z, UnaryIs (fun o => .fsin o z) fun a => BitVec.ofNat 32 (fF32.flush z (fsinR (fF32.flush z a.toNat)))) ∧
  (∀ z, UnaryIs (fun o => .fcos o z) fun a => BitVec.ofNat 32 (fF32.flush z (fcosR (fF32.flush z a.toNat)))) ∧
  (∀ m, UnaryIs (fun o => .frnd o m) fun a => BitVec.ofNat 32 (frndR m a.toNat)) ∧
  UnaryIs .fclass (fun a => BitVec.ofNat 32 (fclassR a.toNat)) ∧
  (∀ m, BinaryIs (fun o => .fscale o m) fun a b => BitVec.ofNat 32 (fscaleR m a.toNat b.toInt)) ∧
  BinaryRIs .fexd (fun a b => BitVec.ofNat 32 (exp2r (f32sub a b).toNat)) ∧
  (
    (∀ b, fF32.isNaN b = true → exp2r b = 0x7FC00000) ∧ exp2r 0xFF800000 = 0 ∧ exp2r 0x7F800000 = 0x7F800000 ∧
    exp2r 0 = 0x3F800000 ∧ exp2r 0x80000000 = 0x3F800000 ∧
    (∀ (b mant : Nat) (x : Int), fF32.val b = .fin false mant x false → (128 : ℚ) ≤ mant * 2 ^ x → exp2r b = 0x7F800000) ∧
    (∀ (b mant : Nat) (x : Int), fF32.val b = .fin true mant x false → (150 : ℚ) < mant * 2 ^ x → exp2r b = 0) ∧
    (∀ (b mant : Nat) (neg : Bool) (x n : Int), fF32.val b = .fin neg mant x false → -149 ≤ n → n ≤ 127 →
      ((if neg then -1 else 1) * mant * 2 ^ x : ℚ) = n → exp2r b = fF32.round .rn false (.fin false 1 n false))) ∧
  (
    let E := fun (a b : Nat) => exp2r (f32sub (BitVec.ofNat 32 a) (BitVec.ofNat 32 b)).toNat
    (∀ a b, a < 2 ^ 32 → b < 2 ^ 32 → (fF32.isNaN a || fF32.isNaN b) = true → E a b = 0x7FC00000) ∧
    E 0x7F800000 0x7F800000 = 0x7FC00000 ∧ E 0xFF800000 0xFF800000 = 0x7FC00000 ∧
    (∀ (b mant : Nat) (neg : Bool) (x : Int), b < 2 ^ 32 → fF32.val b = .fin neg mant x false → E 0xFF800000 b = 0 ∧ E b b = 0x3F800000)) ∧
  (
    (∀ b, fF32.isNaN b = true → flog2R b = 0x7FC00000 ∧ fsinR b = 0x7FC00000 ∧ fcosR b = 0x7FC00000) ∧
    flog2R 0 = 0xFF800000 ∧ flog2R 0x80000000 = 0xFF800000 ∧ flog2R 0x3F800000 = 0 ∧ flog2R 0x7F800000 = 0x7F800000 ∧
    flog2R 0xFF800000 = 0x7FC00000 ∧
    (∀ (b mant : Nat) (x : Int), fF32.val b = .fin true mant x false → mant ≠ 0 → flog2R b = 0x7FC00000) ∧
    (∀ (b l : Nat) (x : Int), fF32.val b = .fin false (2 ^ l) x false → flog2R b = fF32.round .rn false (.ofInt (l + x))) ∧
    fsinR 0 = 0 ∧ fsinR 0x80000000 = 0x80000000 ∧ fcosR 0 = 0x3F800000 ∧ fcosR 0x80000000 = 0x3F800000 ∧
    fsinR 0x7F800000 = 0x7FC00000 ∧ fsinR 0xFF800000 = 0x7FC00000 ∧ fcosR 0x7F800000 = 0x7FC00000 ∧ fcosR 0xFF800000 = 0x7FC00000 ∧
    (∀ (b mant : Nat) (neg : Bool) (x : Int), fF32.val b = .fin neg mant x false →
      fsinR b % 2 ^ 31 ≤ 0x3F800000 ∧ fcosR b % 2 ^ 31 ≤ 0x3F800000)) ∧
  (
    ∀ (m : FMod) (a : Nat), a < 2 ^ 32 →
      let b := fF32.flush m.ftz a
      (fF32.isNaN a = true → frndR m a = 0x7FC00000) ∧
      ((a = 0x7F800000 ∨ a = 0xFF800000) → frndR m a = a) ∧
      (∀ (neg : Bool) (mant : Nat) (x : Int), fF32.val b = .fin neg mant x false →
        (∃ (n : Nat) (y : Int), fF32.val (frndR m a) = .fin neg n y false ∧ (n * 2 ^ y : ℚ) = quantize m.rnd neg mant x 0 false) ∧
        ((2 ^ 23 : ℚ) ≤ mant * 2 ^ x → frndR m a = a)) ∧
      (fF32.isNaN a = true → ∀ n, fscaleR m a n = 0x7FC00000) ∧
      ((a = 0x7F800000 ∨ a = 0xFF800000) → ∀ n, fscaleR m a n = a) ∧
      (∀ (neg : Bool) (mant : Nat) (x n : Int), fF32.val b = .fin neg mant x false →
        fscaleR m a n = fF32.round m.rnd m.ftz (.fin neg mant (x + n) false))) ∧
  (
    ∀ a, a < 2 ^ 32 →
      let e := a / 2 ^ 23 % 256
      let t := a % 2 ^ 23
      let neg := decide (2 ^ 31 ≤ a)
      fclassR a =
        if e = 255 then (if t ≠ 0 then 2 ^ 0 else if neg then 2 ^ 1 else 2 ^ 8)
        else if e ≠ 0 then (if neg then 2 ^ 2 else 2 ^ 7)
        else if t ≠ 0 then (if neg then 2 ^ 3 else 2 ^ 6)
        else (if neg then 2 ^ 4 else 2 ^ 5))

/-- R211 to R213: the packed instructions work on each half alone, and the F64 instructions on pairs. -/
def Obligations.PackedAndDouble : Prop :=
  let F := fun (h : Bool) => if h then fF16 else fBF16
  let lo := fun (a : Word) => a.toNat % 65536
  let hi := fun (a : Word) => a.toNat / 65536
  let both := fun (x y : Nat) => (BitVec.ofNat 16 y ++ BitVec.ofNat 16 x : Word)
  (∀ h m, BinaryRIs (fun o => .hadd2 o h m) fun a b => both ((F h).add m (lo a) (lo b)) ((F h).add m (hi a) (hi b))) ∧
  (∀ h m, BinaryRIs (fun o => .hmul2 o h m) fun a b => both ((F h).mul m (lo a) (lo b)) ((F h).mul m (hi a) (hi b))) ∧
  (∀ h m, TernaryIs (fun o => .hfma2 o h m) fun a b c =>
    both ((F h).fma m false false (lo a) (lo b) (lo c)) ((F h).fma m false false (hi a) (hi b) (hi c))) ∧
  (∀ h z, BinaryRIs (fun o => .hmin2 o h z) fun a b =>
    both ((F h).pick false z (lo a) (lo b)) ((F h).pick false z (hi a) (hi b))) ∧
  (∀ h z, BinaryRIs (fun o => .hmax2 o h z) fun a b =>
    both ((F h).pick true z (lo a) (lo b)) ((F h).pick true z (hi a) (hi b))) ∧
  (∀ h c z, BinaryRIs (fun o => .hcmp2 o h c z) fun a b =>
    both ((F h).cmp c z (lo a) (lo b)).toNat ((F h).cmp c z (hi a) (hi b)).toNat) ∧
  (∀ h m, TernaryIs (fun o => .hdot2 o h m) fun a b c =>
    let v := fun (x : Nat) => (F h).val ((F h).flush m.ftz x)
    BitVec.ofNat 32 (fF32.round m.rnd m.ftz (FVal.sum m.rnd
      [(v (lo a)).mul (v (lo b)), (v (hi a)).mul (v (hi b)), fF32.val (fF32.flush m.ftz c.toNat)]))) ∧
  (∀ (o : AluR) m s, exec (.dadd o m) s = .next (s.completed o.g fun st =>
    ((st.kill64 o.s1 o.k1).kill64 o.s2 o.k2).wr64 o.d
      (BitVec.ofNat 64 (fF64.add m (st.rd64 o.s1).toNat (st.rd64 o.s2).toNat)))) ∧
  (∀ (o : AluR) m s, exec (.dmul o m) s = .next (s.completed o.g fun st =>
    ((st.kill64 o.s1 o.k1).kill64 o.s2 o.k2).wr64 o.d
      (BitVec.ofNat 64 (fF64.mul m (st.rd64 o.s1).toNat (st.rd64 o.s2).toNat)))) ∧
  (∀ (o : Alu3) m s, exec (.dfma o m) s = .next (s.completed o.g fun st =>
    ((st.kill64 o.s1 o.k1).kill64 o.s2 o.k2).wr64 o.d
      (BitVec.ofNat 64 (fF64.fma m false false (st.rd64 o.s1).toNat (st.rd64 o.s2).toNat (st.rd64 o.s3).toNat))))

/-- R214, R215, R219 to R221: conversions between integers and formats, the weight codes, block scales and the merge of attention
triples. An operand or a result is a pair where its type has 64 bits. R190, R219: the code that `dsenc` writes has the nearest value,
of two as near the smaller, and of several encodings of it the smallest; R220: the code of `scfit` is the smallest scale that fits, 0xFE
where none does. R216 to R218: the instructions of a format slot: the trap
where the position does not fit the format (or, for `q8pack`, the format is none of E4M3, E5M2, I8, N8 and I4), and the result
otherwise. Completion: under the premises of its clause on the state and the operands alone, each of `fpack`, `funpk`, `q8pack`,
`q8unpk` answers a next state of its own effect. -/
def Obligations.ConversionsAndFormats : Prop :=
  (
    (∀ (o : Alu1) t m s, plainRegs [o.d, o.s1] →
      exec (.f2i o t m) s = .next (s.completed o.g fun st =>
        let v := toIType t m (fF32.val (st.rd o.s1).toNat)
        if typeWide t then (st.kill o.s1 o.k1).wr64 o.d v else (st.kill o.s1 o.k1).wr o.d (v.setWidth 32))) ∧
    (∀ (o : Alu1) t m s, plainRegs [o.d, o.s1] →
      exec (.i2f o t m) s = .next (s.completed o.g fun st =>
        let n := match t with
          | .i32 => (st.rd o.s1).toInt | .n32 => ((st.rd o.s1).toNat : Int)
          | .i64 => (st.rd64 o.s1).toInt | .n64 => ((st.rd64 o.s1).toNat : Int)
        (if typeWide t then st.kill64 o.s1 o.k1 else st.kill o.s1 o.k1).wr o.d
          (BitVec.ofNat 32 (fF32.round m false (.ofInt n))))) ∧
    (∀ sat h u m, BinaryRIs (fun o => .i2h2 o sat h u m) fun a b =>
      let c := fun (w : Word) =>
        BitVec.ofNat 16 (convert (if h then 2 else 1) m sat (.ofInt (if u then (w.toNat : Int) else w.toInt)))
      c b ++ c a) ∧
    (∀ (o : Alu1) dir m s, plainRegs [o.d, o.s1] →
      exec (.dcvt o dir m) s = .next (s.completed o.g fun st =>
        match dir with
        | .f32f64 => (st.kill64 o.s1 o.k1).wr o.d
            (BitVec.ofNat 32 (fF32.round m.rnd m.ftz (fF64.val (fF64.flush m.ftz (st.rd64 o.s1).toNat))))
        | .f64f32 => (st.kill o.s1 o.k1).wr64 o.d
            (BitVec.ofNat 64 (fF64.round m.rnd false (fF32.val (fF32.flush m.ftz (st.rd o.s1).toNat))))
        | .i64f64 => (st.kill64 o.s1 o.k1).wr64 o.d (toIType .i64 m.rnd (fF64.val (fF64.flush m.ftz (st.rd64 o.s1).toNat)))
        | .f64i64 => (st.kill64 o.s1 o.k1).wr64 o.d
            (BitVec.ofNat 64 (fF64.round m.rnd m.ftz (.ofInt (st.rd64 o.s1).toInt))))) ∧
    (∀ (o : Alu1) pos ss4 s, plainRegs [o.d, o.s1] →
      exec (.dsenc o pos ss4) s = .next (s.completed o.g fun st =>
        (st.kill o.s1 o.k1).wr o.d
          (putElem (if ss4 then 4 else 8) pos.toNat (dsencR ss4 (st.rd o.s1).toNat) (st.rd o.d)))) ∧
    (∀ pos ss4, UnaryIs (fun o => .dsdec o pos ss4) fun a =>
      BitVec.ofNat 32 (fF32.round .rn false
        (codeVal (if ss4 then 9 else 8) (elemAt (if ss4 then 4 else 8) pos.toNat a)))) ∧
    BinaryFIs .scfit (fun a b => BitVec.ofNat 32 (scfitR a.toNat b.toNat)) ∧
    (∀ (inv : Bool) (m : FMod), BinaryRIs (fun o => .scmul o inv m) fun a b =>
      let c := b.toNat % 256
      let scale : FVal := .fin false (8 + c % 8) (c / 8 - 19) false
      let v := fF32.val (fF32.flush m.ftz a.toNat)
      if c = 0 then 0 else if c = 255 then 0x7FC00000
      else BitVec.ofNat 32 (fF32.round m.rnd m.ftz (if inv then v.div scale else v.mul scale))) ∧
    (∀ (o : Alu3) mx s, plainRegs [o.d, o.s1, o.s2] →
      exec (.atmrg o mx) s = .next (s.completed o.g fun st =>
        let m1 := st.rd o.s3
        let m2 := st.rd (o.s3.up 1)
        let big := f32max m1 m2
        let f := fun (m : Word) =>
          if fF32.cmp .eq false m.toNat big.toNat then 0x3F800000
          else if m = 0xFF800000 then 0 else BitVec.ofNat 32 (exp2r (f32sub m big).toNat)
        ((st.kill o.s1 o.k1).kill o.s2 o.k2).wr o.d
          (if fF32.isNaN m1.toNat || fF32.isNaN m2.toNat then 0x7FC00000
          else if mx then big
          else if big = 0xFF800000 then 0
          else f32fma (st.rd o.s2) (f m2) (f32mul (st.rd o.s1) (f m1)))))) ∧
  (
    (∀ (ss4 : Bool) (a : Nat),
      let val := fun (e : Nat) => ((if ss4 then ss4Val e else ds8Val e : Int) : ℚ) / 64
      let n := if ss4 then 16 else 256
      let c := dsencR ss4 a
      (fF32.isNaN a = true → c = if ss4 then 0x7 else 0x08) ∧
      (fF32.val a = .inf false → c = 0x00) ∧ (fF32.val a = .inf true → c = if ss4 then 0x8 else 0x88) ∧
      (∀ (neg : Bool) (mant : Nat) (x : Int), fF32.val a = .fin neg mant x false →
        let v : ℚ := (if neg then -1 else 1) * mant * 2 ^ x
        c < n ∧ ∀ e, e < n →
          |val c - v| ≤ |val e - v| ∧ (|val e - v| = |val c - v| → |val c| ≤ |val e|) ∧ (val e = val c → c ≤ e))) ∧
    (∀ a b,
      let c := scfitR a b
      let scale := fun (s : Nat) => ((8 + s % 8 : Nat) : ℚ) * 2 ^ ((s / 8 : Nat) - 19 : Int)
      (∀ (na nb : Bool) (ma mb : Nat) (xa xb : Int), fF32.val a = .fin na ma xa false → fF32.val b = .fin nb mb xb false →
        ((nb = true ∨ mb = 0) → c = 0xFF) ∧
        (nb = false → mb ≠ 0 → ma = 0 → c = 0) ∧
        (nb = false → mb ≠ 0 → ma ≠ 0 →
          let va : ℚ := ma * 2 ^ xa
          let vb : ℚ := mb * 2 ^ xb
          1 ≤ c ∧ c ≤ 0xFE ∧ (∀ s, 1 ≤ s → s < c → scale s * vb < va) ∧ (c < 0xFE → va ≤ scale c * vb))) ∧
      ((fF32.isNaN a = true ∨ fF32.isNaN b = true ∨ (∃ neg, fF32.val a = .inf neg) ∨ (∃ neg, fF32.val b = .inf neg)) → c = 0xFF))) ∧
  (
    (∀ (o : AluR) slot pos s, plainRegs [o.d, o.s1, o.s2] →
      let w := s.slotWord slot
      let c := slotDrainFmt w
      let n := codeBits c
      (packBad c pos.toNat = true → exec (.fpack o slot pos) s = .next (s.trapLow o.g cIllegalOperand)) ∧
      (packBad c pos.toNat = false → exec (.fpack o slot pos) s = .next (s.completed o.g fun st =>
        ((st.kill o.s1 o.k1).kill o.s2 o.k2).wr o.d
          (putElem n (pos.toNat + 1) (packOne w (st.rd o.s2).toNat)
            (putElem n pos.toNat (packOne w (st.rd o.s1).toNat) (st.rd o.d)))))) ∧
    (∀ (o : Alu1) slot pos side s, plainRegs [o.d, o.s1] →
      let w := s.slotWord slot
      let c := sideFmt w side
      (unpackBad c pos.toNat = true → exec (.funpk o slot pos side) s = .next (s.trapLow o.g cIllegalOperand)) ∧
      (unpackBad c pos.toNat = false → exec (.funpk o slot pos side) s = .next (s.completed o.g fun st =>
        (st.kill o.s1 o.k1).wr o.d (BitVec.ofNat 32 (fF32.round .rn false (unpackVal w c pos.toNat (st.rd o.s1))))))) ∧
    (∀ (o : Alu3) slot pos s, plainRegs [o.d, o.s1, o.s2, o.s3] →
      let w := s.slotWord slot
      let c := slotDrainFmt w
      let n := codeBits c
      let bad := packBad c pos.toNat || decide (c < 3) || decide (7 < c)
      (bad = true → exec (.q8pack o slot pos) s = .next (s.trapLow o.g cIllegalOperand)) ∧
      (bad = false → exec (.q8pack o slot pos) s = .next (s.completed o.g fun st =>
        ((st.kill o.s1 o.k1).kill o.s2 o.k2).wr o.d
          (putElem n (pos.toNat + 1) (q8One w (st.rd o.s3).toNat (st.rd o.s2).toNat)
            (putElem n pos.toNat (q8One w (st.rd o.s3).toNat (st.rd o.s1).toNat) (st.rd o.d)))))) ∧
    (∀ (o : AluR) slot pos side s, plainRegs [o.d, o.s1, o.s2] →
      let w := s.slotWord slot
      let c := sideFmt w side
      (unpackBad c pos.toNat = true → exec (.q8unpk o slot pos side) s = .next (s.trapLow o.g cIllegalOperand)) ∧
      (unpackBad c pos.toNat = false → exec (.q8unpk o slot pos side) s = .next (s.completed o.g fun st =>
        ((st.kill o.s1 o.k1).kill o.s2 o.k2).wr o.d
          (BitVec.ofNat 32 (fF32.round .rn false
            (scaledVal ((st.rd o.s2).toNat % 256) (unpackVal w c pos.toNat (st.rd o.s1)))))))))

/-- R109, R184: the value of every encoding that is no NaN, rounded into its own format under any mode, is that encoding. R109,
R193: a magnitude mant × 2^x rounded to a multiple of 2^q lies within half a unit under rn and rna, a tie going to the even
multiple or away from zero, and within one unit on the side that rz, ru and rd name. R185, R205, R206: a rounded NaN is the
canonical one; a minimum or maximum ignores one NaN, orders −0 below +0 and is canonical for two NaNs; every comparison but `ne`
and `uno` is false beside a NaN, and of numbers it is by value. -/
def Obligations.RoundingAndNan : Prop :=
  (
    ∀ f ∈ [fF64, fF32, fBF16, fF16, fE4M3, fE5M2], ∀ (m : Rnd) (b : Nat), b < 2 ^ f.width → f.isNaN b = false →
      f.round m false (f.val b) = b) ∧
  (
    ∀ (neg : Bool) (mant : Nat) (x q : Int),
      let v : ℚ := mant * 2 ^ x
      let r := fun (m : Rnd) => (quantize m neg mant x q false : ℚ) * 2 ^ q
      let u : ℚ := 2 ^ q
      |r .rn - v| ≤ u / 2 ∧ (|r .rn - v| = u / 2 → Even (quantize .rn neg mant x q false)) ∧
      |r .rna - v| ≤ u / 2 ∧ (|r .rna - v| = u / 2 → v < r .rna) ∧
      r .rz ≤ v ∧ v < r .rz + u ∧
      (neg = false → v ≤ r .ru ∧ r .ru < v + u ∧ r .rd ≤ v ∧ v < r .rd + u) ∧
      (neg = true → r .ru ≤ v ∧ v < r .ru + u ∧ v ≤ r .rd ∧ r .rd < v + u)) ∧
  (
    (∀ f ∈ [fF64, fF32, fBF16, fF16, fE4M3, fE5M2], ∀ m z v, f.isNaN (f.round m z v) = true → f.round m z v = f.nanBits) ∧
    (∀ f ∈ [fF32, fBF16, fF16], ∀ (mx : Bool) (a b : Nat), a < 2 ^ f.width → b < 2 ^ f.width →
      (f.isNaN a = true → f.isNaN b = true → f.pick mx false a b = f.nanBits) ∧
      (f.isNaN a = true → f.isNaN b = false → f.pick mx false a b = b) ∧
      (f.isNaN a = false → f.isNaN b = true → f.pick mx false a b = a) ∧
      f.pick false false f.signBit 0 = f.signBit ∧ f.pick false false 0 f.signBit = f.signBit ∧
      f.pick true false f.signBit 0 = 0 ∧ f.pick true false 0 f.signBit = 0) ∧
    (∀ f ∈ [fF32, fBF16, fF16], ∀ (a b : Nat) (c : FCond), (f.isNaN a || f.isNaN b) = true →
      f.cmp c false a b = decide (c = .ne ∨ c = .uno)) ∧
    (∀ f ∈ [fF32, fBF16, fF16], ∀ (a b : Nat) (na nb : Bool) (ma mb : Nat) (xa xb : Int),
      a < 2 ^ f.width → b < 2 ^ f.width → f.val a = .fin na ma xa false → f.val b = .fin nb mb xb false →
      let va : ℚ := (if na then -1 else 1) * ma * 2 ^ xa
      let vb : ℚ := (if nb then -1 else 1) * mb * 2 ^ xb
      f.cmp .eq false a b = decide (va = vb) ∧ f.cmp .ne false a b = decide (va ≠ vb) ∧
      f.cmp .lt false a b = decide (va < vb) ∧ f.cmp .le false a b = decide (va ≤ vb) ∧
      f.cmp .gt false a b = decide (vb < va) ∧ f.cmp .ge false a b = decide (vb ≤ va) ∧
      f.cmp .ord false a b = true ∧ f.cmp .uno false a b = false))

/-- R98: an instruction of the register families (each that `registerForm` lists, the integer, group, floating-point and conversion
instructions, `atmrg`, `lea64` and the pair word among them) completes for every operand that names no port, whatever the values; it
changes only its destination and the registers it kills, only in lanes whose guard holds; every other register, every other stream
and all else of the device stay as they were. R216 to R218: so do `fpack` and `funpk`, `q8pack` and `q8unpk` where the position fits
the format of the slot, and for `q8pack` that format is one of codes 3 to 7. R150: so do `movri` and `movwi` where each active lane's
number is one of its registers that nothing outstanding writes; `movwi` changes, beyond its kills, the numbered register alone. -/
def Obligations.RegisterInstructionFrame : Prop :=
  (∀ (i : Instr) (s : State) (g : Guard) (rs ports : List Reg), registerForm i = some (g, rs, ports) → plainRegs ports = true →
    ∃ t, exec i s = .next t ∧ WritesOnly s t g rs) ∧
  (∀ (o : AluR) slot pos (s : State), plainRegs [o.d, o.s1, o.s2] = true → packBad (slotDrainFmt (s.slotWord slot)) pos.toNat = false →
    ∃ t, exec (.fpack o slot pos) s = .next t ∧ WritesOnly s t o.g (pairRegs o)) ∧
  (∀ (o : Alu1) slot pos side (s : State), plainRegs [o.d, o.s1] = true →
    unpackBad (sideFmt (s.slotWord slot) side) pos.toNat = false →
    ∃ t, exec (.funpk o slot pos side) s = .next t ∧ WritesOnly s t o.g (unaryRegs o)) ∧
  (∀ (o : Alu3) slot pos (s : State), plainRegs [o.d, o.s1, o.s2, o.s3] = true →
    packBad (slotDrainFmt (s.slotWord slot)) pos.toNat = false →
    3 ≤ slotDrainFmt (s.slotWord slot) → slotDrainFmt (s.slotWord slot) ≤ 7 →
    ∃ t, exec (.q8pack o slot pos) s = .next t ∧ WritesOnly s t o.g (ternaryRegs o)) ∧
  (∀ (o : AluR) slot pos side (s : State), plainRegs [o.d, o.s1, o.s2] = true →
    unpackBad (sideFmt (s.slotWord slot) side) pos.toNat = false →
    ∃ t, exec (.q8unpk o slot pos side) s = .next t ∧ WritesOnly s t o.g (pairRegs o)) ∧
  (∀ (o : Alu1) (base : BitVec 8) (s : State), plainRegs [o.d, o.s1] = true →
    (∀ id ∈ s.active o.g,
      ((s.stream id).rd o.s1).toNat + base.toNat < s.ownRegs id ∧
      s.Known id (BitVec.ofNat 8 (((s.stream id).rd o.s1).toNat + base.toNat))) →
    ∃ t, exec (.movri o base) s = .next t ∧ WritesOnly s t o.g (unaryRegs o)) ∧
  (∀ g s1 k1 s2 k2 (base : BitVec 8) (s : State), plainRegs [s1, s2] = true →
    (∀ id ∈ s.active g,
      ((s.stream id).rd s1).toNat + base.toNat < s.ownRegs id ∧
      s.Known id (BitVec.ofNat 8 (((s.stream id).rd s1).toNat + base.toNat))) →
    ∃ f : Stream → Stream, exec (.movwi g s1 k1 s2 k2 base) s = .next (s.completed g f) ∧
      ∀ st, f st = { st with regs := (f st).regs } ∧
        ∀ r, r ≠ BitVec.ofNat 8 ((st.rd s1).toNat + base.toNat) → r ∉ killed32 s1 k1 ++ killed32 s2 k2 → (f st).rd r = st.rd r)

/-- R8, R96, R100, R110: v0 reads as zero and a write to it is discarded; a write of another register that is no port is read back
and changes no other register; a killed register reads as zero; a pair is its two registers. That a 64-bit write that names v0 is
discarded whole is the model's reading (log entry 22). R101, R102: both halves of a pair word read the registers from before the
word, each under its own guard; nothing but the destinations changes. So a pair of moves exchanges two registers. R263, R264:
queue operands of the binary mould. A port that is not bound traps with ILLEGAL_OPERAND before anything is popped; a queue without
the entries stalls the instruction; a source port gives each lane its element of the entry popped for its group; a destination
port pushes one entry for each group where there is room, and stalls the instruction where there is none. -/
def Obligations.RegistersPairsAndQueues : Prop :=
  (
    ∀ (st : Stream) (r q : Reg) (v : Word) (w : DWord),
      st.rd 0 = 0 ∧ st.wr 0 v = st ∧ st.wr64 0 w = st ∧
      (r ≠ 0 → Reg.isPort r = false → (st.wr r v).rd r = v) ∧
      (q ≠ r → (st.wr r v).rd q = st.rd q) ∧
      (Reg.isPort r = false → (st.kill r true).rd r = 0) ∧ st.kill r false = st ∧
      (r ≠ 0 → r.toNat % 2 = 0 → Reg.isPort r = false → (st.wr64 r w).rd64 r = w) ∧
      (r.toNat % 2 = 0 → Reg.isPort r = false → r ≠ 0 → (st.kill64 r true).rd64 r = 0) ∧
      (q ≠ r → q ≠ r.up 1 → (st.wr64 r w).rd q = st.rd q)) ∧
  (
    (∀ (a b : PHalf) (s : State),
      exec (.pairWord a b) s = .next (s.completed ⟨false, 0, false⟩ fun st =>
        let x := if halfHolds a st then st.wr a.d (halfValue a st) else st
        if halfHolds b st then x.wr b.d (halfValue b st) else x)) ∧
    (∀ (x y : Reg) (s t : State) (id : SId), x ≠ y → x ≠ 0 → y ≠ 0 → plainRegs [x, y] → s.cur.lanes = [id] →
      exec (.pairWord ⟨0x2D, x, y, 0, false, false⟩ ⟨0x2D, y, x, 0, false, false⟩) s = .next t →
      (s.stream? id).isSome →
      (t.stream id).rd x = (s.stream id).rd y ∧ (t.stream id).rd y = (s.stream id).rd x ∧
        ∀ r, r ≠ x → r ≠ y → (t.stream id).rd r = (s.stream id).rd r)) ∧
  (
    ∀ i f, (i, f) ∈ [(Instr.iadd, fun a b : Word => a + b), (.isub, fun a b => a - b), (.imul, fun a b => a * b),
        (.and, fun a b => a &&& b), (.or, fun a b => a ||| b), (.xor, fun a b => a ^^^ b)] →
      ∀ (o : Alu2) (s : State) (low : SId) (rest : List SId), s.active o.g = low :: rest →
        let gs := s.groupsOf (low :: rest)
        ((Reg.isPort o.s1 = true ∧ s.portKey low o.s1 = none) ∨ (Reg.isPort o.d = true ∧ s.portKey low o.d = none) →
          exec (i o) s = .next (s.trapLow o.g cIllegalOperand)) ∧
        (∀ key, Reg.isPort o.s1 = true → s.portKey low o.s1 = some key → plainRegs (o.d :: opndRegs o.b) →
          (s.popGroups key gs = none → exec (i o) s = .next s.stalled) ∧
          (∀ ps s1, s.popGroups key gs = some (ps, s1) →
            exec (i o) s = .next (s1.completed o.g fun st =>
              (killOpnd (st.kill o.s1 o.k1) o.b).wr o.d (f (popped s.curTeam ps st.id) (opnd32 st o.b))))) ∧
        (∀ key, Reg.isPort o.d = true → s.portKey low o.d = some key → plainRegs (o.s1 :: opndRegs o.b) →
          (s.freeOf key < gs.length → exec (i o) s = .next s.stalled) ∧
          (gs.length ≤ s.freeOf key →
            exec (i o) s = .next ((s.pushGroups key s.curTeam
                ((low :: rest).map fun id => (id, f ((s.stream id).rd o.s1) (opnd32 (s.stream id) o.b))) gs).completed o.g
              fun st => killOpnd (st.kill o.s1 o.k1) o.b))))

/-- R156, R157: a shuffle gives each receiving lane the S1 value, from before the instruction, of the participant at its source
index, and its own fill register where there is none. R158 to R161: votes over bit 0 of S1, reductions and prefix sums in ascending
lane index, and masks of lane indices. R66, R163: `sval` writes the identity value of its code; a read of GTS_LO latches the upper
half. The values of the codes of a lane thread follow from its stream, its team and the clock. Completion: under the premises of its
clause on the state and the operands alone, `sval` answers a next state of its own effect. -/
def Obligations.GroupInstructions : Prop :=
  (
    (∀ (o : Alu3) s, exec (.shfl o) s = .next (s.completed o.g fun st =>
      ((st.kill o.s1 o.k1).kill o.s2 o.k2).wr o.d (s.fromLane o.g st (st.rd o.s2).toNat o.s1 o.s3))) ∧
    (∀ (o : Alu1) f m s, exec (.shfx o f m) s = .next (s.completed o.g fun st =>
      (st.kill o.s1 o.k1).wr o.d (s.fromLane o.g st ((s.curTeam.lane st.id ^^^ m.toNat : Nat) : Int) o.s1 f))) ∧
    (∀ (o : Alu1) f m s, exec (.shup o f m) s = .next (s.completed o.g fun st =>
      (st.kill o.s1 o.k1).wr o.d (s.fromLane o.g st (s.curTeam.lane st.id - m.toNat : Int) o.s1 f))) ∧
    (∀ (o : Alu1) f m s, exec (.shdn o f m) s = .next (s.completed o.g fun st =>
      (st.kill o.s1 o.k1).wr o.d (s.fromLane o.g st (s.curTeam.lane st.id + m.toNat : Int) o.s1 f))) ∧
    (∀ (o : Alu1) f m s, exec (.gbcast o f m) s = .next (s.completed o.g fun st =>
      (st.kill o.s1 o.k1).wr o.d (s.fromLane o.g st m.toNat o.s1 f)))) ∧
  (
    (∀ (o : Alu1) op s, op ≠ .bits → exec (.vote o op) s = .next (s.completed o.g fun st =>
      let bs := (s.peers o.g st).map fun p => (p.rd o.s1).getLsbD 0
      (st.kill o.s1 o.k1).wr o.d (match op with
        | .every => if bs.all id then 1 else 0
        | .some => if bs.any id then 1 else 0
        | .same => if bs.all id || bs.all not then 1 else 0
        | _ => BitVec.ofNat 32 (bs.countP id)))) ∧
    (∀ (o : Alu1) s, exec (.vote o .bits) s = .next (s.completed o.g fun st =>
      (st.kill o.s1 o.k1).wr64 o.d (s.lanesMask ((s.peers o.g st).filter fun p => (p.rd o.s1).getLsbD 0)))) ∧
    (∀ (o : Alu1) f32 s, exec (.gsum o f32) s = .next (s.completed o.g fun st =>
      (st.kill o.s1 o.k1).wr o.d (mtypeFix (if f32 then .f32 else .i32)
        (foldUp (if f32 then f32add else fun a b => a + b) ((s.peers o.g st).map fun p => p.rd o.s1))))) ∧
    (∀ (o : Alu1) t s, exec (.gmax o t) s = .next (s.completed o.g fun st =>
      (st.kill o.s1 o.k1).wr o.d (mtypeFix t (foldUp (mtypeOp true t) ((s.peers o.g st).map fun p => p.rd o.s1))))) ∧
    (∀ (o : Alu1) t s, exec (.gmin o t) s = .next (s.completed o.g fun st =>
      (st.kill o.s1 o.k1).wr o.d (mtypeFix t (foldUp (mtypeOp false t) ((s.peers o.g st).map fun p => p.rd o.s1))))) ∧
    (∀ (o : Alu1) op s, exec (.gbit o op) s = .next (s.completed o.g fun st =>
      (st.kill o.s1 o.k1).wr o.d (foldUp (match op with
        | .and => fun a b => a &&& b | .or => fun a b => a ||| b | .xor => fun a b => a ^^^ b)
        ((s.peers o.g st).map fun p => p.rd o.s1)))) ∧
    (∀ (o : Alu1) excl f32 s, exec (.gscan o excl f32) s = .next (s.completed o.g fun st =>
      let l := s.curTeam.lane st.id
      let below := (s.peers o.g st).filter fun p =>
        if excl then s.curTeam.lane p.id < l else s.curTeam.lane p.id ≤ l
      (st.kill o.s1 o.k1).wr o.d (mtypeFix (if f32 then .f32 else .i32)
        (foldUp (if f32 then f32add else fun a b => a + b) (below.map fun p => p.rd o.s1))))) ∧
    (∀ (o : Alu1) s, exec (.matchAny o false) s = .next (s.completed o.g fun st =>
      (st.kill o.s1 o.k1).wr64 o.d (s.lanesMask ((s.peers o.g st).filter fun p => p.rd o.s1 == st.rd o.s1)))) ∧
    (∀ (o : Alu1) s, exec (.matchAny o true) s = .next (s.completed o.g fun st =>
      (st.kill64 o.s1 o.k1).wr64 o.d (s.lanesMask ((s.peers o.g st).filter fun p => p.rd64 o.s1 == st.rd64 o.s1)))) ∧
    (∀ g d s, exec (.amask g d) s = .next (s.completed g fun st => st.wr64 d (s.lanesMask (s.peers g st))))) ∧
  (
    (∀ g d code s, Reg.isPort d = false →
      exec (.sval g d code) s = .next (s.completed g fun st => (s.latched st code.toNat).wr d (s.identity st code.toNat))) ∧
    (∀ (s : State) (st : Stream), st.id.kind = .lane →
      let t := s.team st.id.tcx
      let n := fun (x : Nat) => BitVec.ofNat 32 x
      s.identity st 0x00 = n st.id.unit ∧
      s.identity st 0x01 = n (st.id.unit % t.recd.teamX) ∧
      s.identity st 0x02 = n (st.id.unit / t.recd.teamX % t.recd.teamY) ∧
      s.identity st 0x03 = n (st.id.unit / (t.recd.teamX * t.recd.teamY)) ∧
      s.identity st 0x04 = n t.tx ∧ s.identity st 0x05 = n t.ty ∧ s.identity st 0x06 = n t.tz ∧
      s.identity st 0x07 = n (st.id.unit / t.recd.groupW) ∧ s.identity st 0x08 = n t.recd.groupW ∧
      s.identity st 0x0A = n (t.core + t.half st.id) ∧
      s.identity st 0x0B = n (t.core / 4) ∧ s.identity st 0x0C = n (t.core / 48) ∧
      s.identity st 0x0D = t.vaultBase ∧
      (s.identity st 0x14 ++ s.identity st 0x13 : DWord) = t.recd.args ∧
      s.identity st 0x17 = 0 ∧
      (st.gtsHi = none → (s.identity st 0x11 ++ s.identity st 0x10 : DWord) = BitVec.ofNat 64 s.gts)))

/-- R402, R403, R421: `trap` and `brk` outside a window, in lanes that all have a handler: every active lane saves the PC, the next
PC, its cause and the immediate as CODE under the TID of the lowest lane, enters handler mode and stands at its handler; nothing else
of a stream or of the device changes. That a lane the guard leaves out goes on at the next instruction meanwhile is the model's reading
(log entry 30). R402, R405: where the lowest active lane is in handler mode, or has no handler, or its handler's address fails R165,
the trap of a `trap` or `brk` ends its team with the cause. R422: the return from handler
mode to TRAP_PC, or to TRAP_NPC with `.nx`; a lane that is not in handler mode traps with ILLEGAL_OPERAND, and a target that fails
R165 ends the team with that trap's cause. Completion: under the premises of its clause on the state and the operands alone, each of
`trap`, `brk`, `eret`, `eretNx` answers a next state of its own effect. -/
def Obligations.TrapsEnterAndLeaveTheHandler : Prop :=
  (
    ∀ (i : Instr) (cause : Cause) (g : Guard) (imm : BitVec 16) (s : State) (low : SId) (rest : List SId),
      (i = .trap g imm ∧ cause = 0x51 ∨ i = .brk g imm ∧ cause = 0x50) →
      s.active g = low :: rest → s.windowed = false → s.Present s.cur.lanes →
      (∀ id ∈ s.active g, (s.stream id).trap.hmode = false ∧ (s.stream id).trap.vec ≠ 0 ∧
        targetTrap (s.stream id).trap.vec = none) →
      ∃ t, exec i s = .next t ∧ s.OnlyStreams t s.cur.lanes ∧
        (∀ id ∈ s.active g, t.stream id =
          { s.stream id with
            pc := (s.stream id).trap.vec, park := .none, stall := none, short := none, firm := false, room := none, block := [], outer := (s.stream id).path
            trap := ⟨cause, s.cur.pc, s.cur.npc, 0,
              BitVec.ofNat 32 (2 ^ 16 * ((if low.kind = .lane then low.unit else 0) % 4096) + imm.toNat), true,
              (s.stream id).trap.vec⟩ }) ∧
        (∀ id ∈ s.cur.lanes, id ∉ s.active g → t.stream id = (s.stream id).goto s.cur.npc)) ∧
  (
    ∀ (i : Instr) (cause : Cause) (g : Guard) (imm : BitVec 16) (s : State) (low : SId) (rest : List SId),
      (i = .trap g imm ∧ cause = 0x51 ∨ i = .brk g imm ∧ cause = 0x50) →
      s.active g = low :: rest → s.windowed = false →
      ((s.stream low).trap.hmode = true ∨ (s.stream low).trap.vec = 0 ∨ (targetTrap (s.stream low).trap.vec).isSome = true) →
      ∃ t, exec i s = .next t ∧
        (∀ tm, s.team? low.tcx = some tm → tm.ended = none → (t.team low.tcx).ended = some cause) ∧
        (∀ tm, s.team? low.tcx = some tm → tm.ended ≠ none → (t.team low.tcx).ended = tm.ended)) ∧
  (
    ∀ (i : Instr) (nx : Bool) (g : Guard) (s : State), (i = .eret g ∧ nx = false ∨ i = .eretNx g ∧ nx = true) →
      let target := fun (st : Stream) => if nx then st.trap.npc else st.trap.pc
      (s.Present s.cur.lanes →
        (∀ id ∈ s.active g, (s.stream id).trap.hmode = true ∧ targetTrap (target (s.stream id)) = none) →
        ∃ t, exec i s = .next t ∧ s.OnlyStreams t s.cur.lanes ∧
          (∀ id ∈ s.active g, t.stream id =
            { s.stream id with
              pc := target (s.stream id), park := .none, stall := none, short := none, firm := false, room := none, block := [], path := (s.stream id).outer
              trap := { (s.stream id).trap with hmode := false } }) ∧
          (∀ id ∈ s.cur.lanes, id ∉ s.active g → t.stream id = (s.stream id).goto s.cur.npc)) ∧
      (∀ low rest, s.active g = low :: rest → (s.stream low).trap.hmode = false →
        exec i s = .next (s.trap7 g cIllegalOperand low 0)) ∧
      (∀ low rest c tm, s.active g = low :: rest → (∀ id ∈ s.active g, (s.stream id).trap.hmode = true) →
        targetTrap (target (s.stream low)) = some c → s.team? low.tcx = some tm → tm.ended = none →
        ∃ t, exec i s = .next t ∧ (t.team low.tcx).ended = some c))

/-- R106, R107, R401, R404: the checks before execution, in their order: an unassigned opcode, the stream kind, the privilege of the
opcode or of the register that `cwr` names, the operands. R165: the checks of a target: bits [63:57], the private window, the
alignment, in that order. R106, R108, R402: the effect of a word with an unassigned opcode is the trap ILLEGAL_OPCODE of every
thread of its issue group. Completion: under the premises of its clause on the state and the operands alone, `unassignedOpcode`
answers a next state of its own effect. -/
def Obligations.ChecksBeforeExecution : Prop :=
  (
    ∀ (w : DWord) (lits : List DWord) (k : Kind) (regs : Nat) (priv phys : Bool), w.msb = false →
      let f := fieldsOf w
      (unassigned f.opc = true → examine w lits k regs priv phys = .ok (.unassignedOpcode f.opc)) ∧
      (unassigned f.opc = false → kindLegal f.opc.toNat k = false → examine w lits k regs priv phys = .error cStreamKind) ∧
      (unassigned f.opc = false → kindLegal f.opc.toNat k = true → opcPriv f.opc.toNat = true → priv = false →
        examine w lits k regs priv phys = .error cPrivilege) ∧
      (unassigned f.opc = false → kindLegal f.opc.toNat k = true → f.opc = 0xF3 →
        crListed (f.fld 0 12).toNat = true → crNeed (f.fld 0 12).toNat = .physical → phys = false →
        examine w lits k regs priv phys = .error cPrivilege) ∧
      (unassigned f.opc = false → kindLegal f.opc.toNat k = true → privOk f priv phys = true →
        (∀ i, decode w lits = .ok i → i.streamOk k regs = true → examine w lits k regs priv phys = .ok i) ∧
        (∀ e, decode w lits = .error e → examine w lits k regs priv phys = .error cIllegalOperand))) ∧
  (
    ∀ t : DWord,
      (2 ^ 57 ≤ t.toNat → targetTrap t = some cAddressClass) ∧
      (0x0180000000000000 ≤ t.toNat → t.toNat < 0x0180000000000000 + 2 ^ 32 → targetTrap t = some cAddressClass) ∧
      (t.toNat < 2 ^ 57 → (t.toNat < 0x0180000000000000 ∨ 0x0180000000000000 + 2 ^ 32 ≤ t.toNat) →
        targetTrap t = if t.toNat % 8 = 0 then none else some cAlignment)) ∧
  (
    ∀ (opc : BitVec 8) (s : State) (low : SId) (rest : List SId), s.cur.lanes = low :: rest → s.Present s.cur.lanes → s.windowed = false →
      (∀ id ∈ s.cur.lanes, (s.stream id).trap.hmode = false ∧ (s.stream id).trap.vec ≠ 0 ∧ targetTrap (s.stream id).trap.vec = none) →
      ∃ t, exec (.unassignedOpcode opc) s = .next t ∧ s.OnlyStreams t s.cur.lanes ∧
        ∀ id ∈ s.cur.lanes, t.stream id =
          { s.stream id with
            pc := (s.stream id).trap.vec, park := .none, stall := none, short := none, firm := false, room := none, block := [], outer := (s.stream id).path
            trap := ⟨0x01, s.cur.pc, s.cur.npc, 0, BitVec.ofNat 32 (2 ^ 16 * ((if low.kind = .lane then low.unit else 0) % 4096)), true,
              (s.stream id).trap.vec⟩ })

/-- R403, R404, R423: `crd` gives each lane the register of its stream or of its function; `cwr` writes the half of TRAP_VEC that it
names in each active lane, and a register of the function or of the device once, from the lowest active lane. R6, R403, R404, R407,
R76, R388: a register of the function or of the device reads back the bits that it keeps of what was written, and its reserved bits
read zero. R424: `pmrd` writes the count it selects of the issuing context to the pair D, and changes no other; the cycles lost to
bank conflicts have grown since they were last read by a free value (log entry 12). Completion: under the premises of its clause on
the state and the operands alone, each of `crd`, `cwr`, `pmrd` answers a next state of its own effect. -/
def Obligations.ControlRegisters : Prop :=
  (
    (∀ g d (num : BitVec 12) (s : State),
      exec (.crd g d num) s = .next (s.completed g fun st =>
        st.wr d (if num.toNat ≤ 8 ∨ num = 0x10 ∨ num = 0x11 then st.creg num.toNat else s.creg s.curTeam.fn num.toNat))) ∧
    (∀ (st : Stream), (st.creg 0x02 ++ st.creg 0x01 : DWord) = st.trap.pc ∧ (st.creg 0x04 ++ st.creg 0x03 : DWord) = st.trap.npc ∧
      (st.creg 0x06 ++ st.creg 0x05 : DWord) = st.trap.addr ∧ st.creg 0x00 = st.trap.cause.setWidth 32 ∧
      st.creg 0x07 = st.trap.info ∧ st.creg 0x08 = (if st.trap.hmode then 1 else 0) ∧
      (st.creg 0x11 ++ st.creg 0x10 : DWord) = st.trap.vec) ∧
    (∀ g s1 k1 (s : State),
      exec (.cwr g s1 k1 0x10) s = .next (s.completed g fun st =>
        { st with trap := { st.trap with vec := st.creg 0x11 ++ st.rd s1 } }.kill s1 k1) ∧
      exec (.cwr g s1 k1 0x11) s = .next (s.completed g fun st =>
        { st with trap := { st.trap with vec := st.rd s1 ++ st.creg 0x10 } }.kill s1 k1)) ∧
    (∀ g s1 k1 (num : BitVec 12) (s : State) (low : SId) (rest : List SId), s.active g = low :: rest →
      0x12 ≤ num.toNat →
      exec (.cwr g s1 k1 num) s =
        .next ((s.cregWrite s.curTeam.fn num.toNat ((s.stream low).rd s1)).completed g fun st => st.kill s1 k1))) ∧
  (
    ∀ (s : State) (fn : Nat) (w : Word),
      (s.cregWrite fn 0x12 w).creg fn 0x12 = w ∧ (s.cregWrite fn 0x12 w).creg fn 0x13 = s.creg fn 0x13 ∧
      (s.cregWrite fn 0x13 w).creg fn 0x13 = w ∧ (s.cregWrite fn 0x13 w).creg fn 0x12 = s.creg fn 0x12 ∧
      (s.cregWrite fn 0x14 w).creg fn 0x14 = w &&& 1 ∧
      (s.cregWrite fn 0x15 w).creg fn 0x15 = w &&& 0xFFFF ∧
      (s.tr.asidTbl < 2 ^ 40 →
        (s.cregWrite fn 0x30 w).creg fn 0x30 = w &&& 0xFFFFF000 ∧ (s.cregWrite fn 0x30 w).creg fn 0x31 = s.creg fn 0x31 ∧
        (s.cregWrite fn 0x31 w).creg fn 0x31 = w &&& 0xFF ∧ (s.cregWrite fn 0x31 w).creg fn 0x30 = s.creg fn 0x30) ∧
      (s.cregWrite fn 0x38 w).creg fn 0x38 = w &&& 0xFFFF ∧ s.creg fn 0x39 = 0 ∧ s.cregWrite fn 0x3A w = s ∧
      (s.cregWrite fn 0x40 w).creg fn 0x40 = w &&& 0xFFFFFF80 ∧ (s.cregWrite fn 0x41 w).creg fn 0x41 = w &&& 0xFF ∧
      (s.tr.rings.length = 4 → ∀ d, d < 4 →
        (s.cregWrite fn (0x20 + 4 * d) w).creg fn (0x20 + 4 * d) = w &&& 0xFFFF0000 ∧
        (s.cregWrite fn (0x21 + 4 * d) w).creg fn (0x21 + 4 * d) = w &&& 0xFF ∧
        (w.toNat % 256 / 48 = d → (s.cregWrite fn (0x22 + 4 * d) w).creg fn (0x22 + 4 * d) = w &&& 0x8000FFFF) ∧
        (w.toNat % 256 / 48 ≠ d → s.cregWrite fn (0x22 + 4 * d) w = s))) ∧
  (
    ∀ g d (sel : BitVec 4) (s : State),
      let p := sget blankPm s.pm s.curTag
      (∃ v, p.bank ≤ v ∧ exec (.pmrd g d 8) s =
        .next (State.completed { s.onPm s.curTag (fun p => { p with bank := v }) with free := s.free + 1 } g fun st =>
          st.wr64 d (BitVec.ofNat 64 v))) ∧
      (sel.toNat < 8 → exec (.pmrd g d sel) s = .next (s.completed g fun st => st.wr64 d (BitVec.ofNat 64 (match sel.toNat with
        | 0 => (p.out s.clock.cycles).cycles
        | 1 => p.words | 2 => p.squashed | 3 => p.predictions | 4 => p.misplaced | 5 => p.probes | 6 => p.hits | _ => p.misses)))))

/-- R164 to R166, R169, R170: `bra`, `call` and `loop`: PC + 8 × the offset, the link, the count; where the target fails R165 the
instruction traps at its lowest active lane that would branch, and no lane moves. R165, R166, R171, R172: branches to a register
pair, and `brm` to the first entry whose predicate holds; the first failing target in ascending thread index traps. R173: `jtab` of
lanes whose index lies beyond the table takes the default offset and reads nothing; of one lane inside the table it takes the offset
it reads at base + 4 × index; the first lane inside the table whose check or read fails makes it trap there without a branch.
Completion: under the premises of its clause on the state and the operands alone, each of `bra`, `brm`, `jmp`, `jtab`, `call`,
`callr`, `ret`, `loop` answers a next state of its own effect. -/
def Obligations.BranchesAndLinks : Prop :=
  (
    ∀ (g : Guard) (off : BitVec 26) (s : State),
      let tgt : DWord := BitVec.ofInt 64 (s.cur.pc.toNat + 8 * off.toInt)
      let cls : BrClass := if g.en then .twoWay else .uniform
      (targetTrap tgt = none →
        exec (.bra g off) s = .next (s.jumped g cls (fun _ => tgt) id) ∧
        (∀ l, exec (.call g l off) s = .next (s.jumped g cls (fun _ => tgt) fun st => st.wr64 l (s.cur.pc + 8))) ∧
        (∀ c, exec (.loop g c off) s = .next (s.jumped g .twoWay
          (fun st => if (st.rd c).toNat ≤ 1 then s.cur.npc else tgt)
          fun st => st.wr c (if (st.rd c).toNat ≤ 1 then 0 else st.rd c - 1)))) ∧
      (∀ c, (∀ id ∈ s.active g, ((s.stream id).rd c).toNat ≤ 1) →
        (∀ st ∈ s.streams, st.id ∈ s.cur.lanes → guardHolds g st = true → (st.rd c).toNat ≤ 1) →
        exec (.loop g c off) s = .next (s.jumped g .twoWay (fun _ => s.cur.npc) fun st => st.wr c 0)) ∧
      (∀ c k fail, targetTrap tgt = some k → (s.active g).find? (fun id => 1 < ((s.stream id).rd c).toNat) = some fail →
        exec (.loop g c off) s = .next (s.trap7 g k fail tgt)) ∧
      (∀ c low rest, targetTrap tgt = some c → s.active g = low :: rest →
        exec (.bra g off) s = .next (s.trap7 g c low tgt) ∧ (∀ l, exec (.call g l off) s = .next (s.trap7 g c low tgt)))) ∧
  (
    ∀ (g : Guard) (s1 : Reg) (k1 : Bool) (s : State),
      ((∀ id ∈ s.active g, targetTrap ((s.stream id).rd64 s1) = none) →
        exec (.jmp g s1 k1) s = .next (s.jumped g .multiWay (fun st => st.rd64 s1) fun st => st.kill64 s1 k1) ∧
        exec (.ret g s1 k1) s = .next (s.jumped g .multiWay (fun st => st.rd64 s1) fun st => st.kill64 s1 k1) ∧
        (∀ l, exec (.callr g l s1 k1) s =
          .next (s.jumped g .multiWay (fun st => st.rd64 s1) fun st => (st.kill64 s1 k1).wr64 l (s.cur.pc + 8)))) ∧
      (∀ c fail, (s.active g).find? (fun id => (targetTrap ((s.stream id).rd64 s1)).isSome) = some fail →
        targetTrap ((s.stream fail).rd64 s1) = some c →
        exec (.jmp g s1 k1) s = .next (s.trap7 g c fail ((s.stream fail).rd64 s1)) ∧
        exec (.ret g s1 k1) s = .next (s.trap7 g c fail ((s.stream fail).rd64 s1)) ∧
        (∀ l, exec (.callr g l s1 k1) s = .next (s.trap7 g c fail ((s.stream fail).rd64 s1)))) ∧
      (∀ (k2 : Bool) (es : List (Reg × Bool × Word)) c fail,
        let target := fun (id : SId) => brmTarget s.cur.pc s.cur.npc (s.stream id) es
        (s.active g).find? (fun id => (targetTrap (target id)).isSome) = some fail → targetTrap (target fail) = some c →
        exec (.brm g k1 k2 es) s = .next (s.trap7 g c fail (target fail))) ∧
      (∀ (k2 : Bool) (es : List (Reg × Bool × Word)),
        (∀ id ∈ s.active g, targetTrap (brmTarget s.cur.pc s.cur.npc (s.stream id) es) = none) →
        exec (.brm g k1 k2 es) s = .next (s.jumped g .multiWay (fun st => brmTarget s.cur.pc s.cur.npc st es) fun st =>
          match es with
          | [] => st
          | [(p0, _)] => st.kill p0 k1
          | (p0, _) :: (p1, _) :: _ => (st.kill p0 k1).kill p1 k2)) ∧
      (∀ (pc npc : DWord) (st : Stream) (p : Reg) (neg : Bool) (off : Word) (r : List (Reg × Bool × Word)),
        brmTarget pc npc st [] = npc ∧
        brmTarget pc npc st ((p, neg, off) :: r) =
          if (st.rd p).getLsbD 0 = neg then brmTarget pc npc st r else BitVec.ofInt 64 (pc.toNat + 8 * off.toInt))) ∧
  (
    ∀ (g : Guard) (x : Reg) (k1 : Bool) (b : Reg) (k2 : Bool) (len : BitVec 8) (dflt : BitVec 18) (s : State),
      ((∀ st ∈ s.streams, st.id ∈ s.cur.lanes → guardHolds g st = true → len.toNat < (st.rd x).toNat) →
        (∀ id ∈ s.active g, len.toNat < ((s.stream id).rd x).toNat) →
        targetTrap (BitVec.ofInt 64 (s.cur.pc.toNat + 8 * dflt.toInt)) = none →
        exec (.jtab g x k1 b k2 len dflt) s = .next (s.jumped g .multiWay
          (fun st => if guardHolds g st then BitVec.ofInt 64 (s.cur.pc.toNat + 8 * dflt.toInt) else s.cur.npc)
          fun st => (st.kill x k1).kill64 b k2)) ∧
      (∀ id c w s1, s.cur.lanes = [id] → guardHolds g (s.stream id) = true → ((s.stream id).rd x).toNat ≤ len.toNat →
        s.checkAt id .load ⟨true, true, false⟩ ((s.stream id).rd64 b + 4 * ((s.stream id).rd x).setWidth 64) 4 4 = .ok c →
        s.mustWait id c = false → s.tryLoad id c = (.ok w, s1) → s1.cur = s.cur → s1.stream id = s.stream id →
        targetTrap (BitVec.ofInt 64 (s.cur.pc.toNat + 8 * w.toInt)) = none →
        exec (.jtab g x k1 b k2 len dflt) s = .next (s1.jumped g .multiWay (fun st =>
            BitVec.ofInt 64 (s.cur.pc.toNat + 8 * (if (st.rd x).toNat ≤ len.toNat then w.toInt else dflt.toInt)))
          fun st => (st.kill x k1).kill64 b k2)) ∧
      (∀ (pre post : List SId) (id : SId), s.active g = pre ++ id :: post →
        (∀ p ∈ pre, len.toNat < ((s.stream p).rd x).toNat) → ((s.stream id).rd x).toNat ≤ len.toNat →
        let check := s.checkAt id .load ⟨true, true, false⟩ ((s.stream id).rd64 b + 4 * ((s.stream id).rd x).setWidth 64) 4 4
        (∀ e, check = .error e → exec (.jtab g x k1 b k2 len dflt) s = .next (s.failLane g .load (s.stream id) e)) ∧
        ((∀ p ∈ post, len.toNat < ((s.stream p).rd x).toNat) → ∀ c e s1, check = .ok c →
          s.mustWait id c = false → s.tryLoad id c = (.error e, s1) →
          exec (.jtab g x k1 b k2 len dflt) s = .next (s1.trap7 g e id (BitVec.ofNat 64 c.va)))))

/-- R133: `wait` in lanes whose covered counters are all at or below their thresholds and whose covered slots are empty goes on; a
lane with a covered counter above its threshold parks; a lane with an error in a covered slot takes the trap of the lowest such
slot, which empties, with DEFERRED and SLOT in TRAP_INFO (R132, R402, R403). R136 to R138: `bhint` sets the policy; `yield` defers
its lanes for 512 core cycles; `nsleep` parks its lanes until GTS has risen by the duration, at most 1 ms, and goes on for a
duration of 0. Completion: under the premises of its clause on the state and the operands alone, each of `yield`, `nsleep`, `bhint`,
`wait`, `issueAging`, `nsleepWake`, `yieldExpire` answers a next state of its own effect. -/
def Obligations.WaitHintYieldAndSleep : Prop :=
  (
    ∀ (g : Guard) (ldt stt cpt tlt : BitVec 8) (s : State), s.cur.lanes.Nodup → s.Present s.cur.lanes →
      let thr := fun (k : Nat) => (match k with | 0 => ldt | 1 => stt | 2 => cpt | _ => tlt).toNat
      let low := fun (st : Stream) => ∀ k, k < 4 → thr k = 255 ∨ st.cnt.get k ≤ thr k
      ((∀ id ∈ s.active g, low (s.stream id) ∧ ∀ k, k < 4 → thr k = 255 ∨ (s.stream id).slots.get k = none) →
        ∃ t, exec (.wait g ldt stt cpt tlt) s = .next t ∧ s.OnlyStreams t s.cur.lanes ∧
          ∀ id ∈ s.cur.lanes, t.stream id = (s.stream id).goto s.cur.npc) ∧
      (∀ id, s.cur.lanes = [id] → guardHolds g (s.stream id) = true → ¬low (s.stream id) →
        ∃ t, exec (.wait g ldt stt cpt tlt) s = .next t ∧ s.OnlyStreams t [id] ∧
          t.stream id = (s.stream id).parkAt (.counters ldt stt cpt tlt)) ∧
      (∀ id k e, s.cur.lanes = [id] → guardHolds g (s.stream id) = true → low (s.stream id) →
        k < 4 → thr k ≠ 255 → (s.stream id).slots.get k = some e → (∀ j, j < k → thr j = 255 ∨ (s.stream id).slots.get j = none) →
        (s.stream id).canTrap = true →
        ∃ t, exec (.wait g ldt stt cpt tlt) s = .next t ∧ s.OnlyStreams t [id] ∧
          t.stream id = { s.stream id with
            slots := (s.stream id).slots.set k none
            pc := (s.stream id).trap.vec, park := .none, stall := none, short := none, firm := false, room := none, block := [], outer := (s.stream id).path
            trap := ⟨e.cause, s.cur.pc, s.cur.npc, 0, BitVec.ofNat 32 (2 ^ 31 + 2 ^ 29 * k + e.code.toNat), true,
              (s.stream id).trap.vec⟩ })) ∧
  (
    (∀ g p s, exec (.bhint g p) s = .next (s.completed g fun st => { st with policy := p })) ∧
    (∀ g s, exec (.yield g) s = .next (s.completed g fun st => { st with yield := some (s.clock.cycles + 512, s.issues) })) ∧
    (∀ g src s, plainRegs (opndRegs src) →
      let wake := fun (st : Stream) => min (match src with | .imm v => v.toNat | .reg r _ => (st.rd r).toNat) 1000000
      let lane := fun (st : Stream) =>
        if wake st = 0 then (killOpnd st src).goto s.cur.npc
        else { (killOpnd st src).parkAt (.sleep (s.gts + wake st)) with pc := s.cur.pc }
      exec (.nsleep g src) s = .next { s with streams := s.streams.map fun st =>
        if st.id ∈ s.cur.lanes then (if guardHolds g st then lane st else st.goto s.cur.npc) else st }) ∧
    (∀ sid w s, s.Present [sid] → (s.stream sid).park = .sleep w →
      ∃ t, exec (.nsleepWake sid) s = .next t ∧ s.OnlyStreams t [sid] ∧
        t.stream sid = if w ≤ s.gts then (s.stream sid).goto ((s.stream sid).pc + 8) else s.stream sid) ∧
    (∀ sid till num s, s.Present [sid] → (s.stream sid).yield = some (till, num) →
      ∃ t, exec (.yieldExpire sid) s = .next t ∧ s.OnlyStreams t [sid] ∧
        t.stream sid = { s.stream sid with yield := if till ≤ s.clock.cycles then none else some (till, num) }) ∧
    (∀ sid s, s.Present [sid] → (s.stream sid).park = .none → (s.stream sid).exited = false → (s.stream sid).stall = none →
      (s.stream sid).since + 2048 ≤ s.clock.cycles →
      ∃ t, exec (.issueAging sid) s = .next t ∧ s.OnlyStreams t [sid] ∧ t.stream sid = { s.stream sid with aged := true }))

/-- R174, R139: `exit` of lanes whose counters are zero and whose slots are empty ends them; a lane with an operation outstanding
parks; one with an error in a slot takes the trap of its lowest slot, which empties. R175 to R180: join slots. `jset` gives a slot the
active lanes of the group, or the mask in the register pair of its lowest active lane, less those that have exited, keeping the
arrivals it still holds; an arrival that it no longer holds is released, and so are all where the slot is complete. A thread that a slot
holds parks at `join`, one that it does not hold goes on; `jdrop` takes a thread out
of slots; `jmask` reads a set. A slot whose arrivals are all of its threads is released and empty. Completion: under the premises of
its clause on the state and the operands alone, each of `exit`, `jset`, `join`, `jdrop`, `joinSlotRelease` answers a next state of
its own effect. -/
def Obligations.ExitAndJoinSlots : Prop :=
  (
    (∀ (g : Guard) (s : State), s.vt.migrateMode = false → s.cur.lanes.Nodup → s.Present s.cur.lanes →
      (∀ id ∈ s.active g, (s.stream id).cnt = ⟨0, 0, 0, 0⟩ ∧ (s.stream id).slots = ⟨none, none, none, none⟩) →
      ∃ t, exec (.exit g) s = .next t ∧ t = { s with streams := t.streams, teams := t.teams, gbars := t.gbars } ∧
        (∀ id ∈ s.active g, (t.stream id).exited = true ∧ (t.stream id).park = .none) ∧
        (∀ id ∈ s.cur.lanes, id ∉ s.active g → (t.stream id).exited = (s.stream id).exited ∧ (t.stream id).pc = s.cur.npc)) ∧
    (∀ (g : Guard) (s : State) (id : SId), s.vt.migrateMode = false → s.cur.lanes = [id] → s.Present [id] →
      guardHolds g (s.stream id) = true → (s.stream id).cnt ≠ ⟨0, 0, 0, 0⟩ →
      ∃ t, exec (.exit g) s = .next t ∧ s.OnlyStreams t [id] ∧ t.stream id = (s.stream id).parkAt .exitWait) ∧
    (∀ (g : Guard) (s : State) (id : SId) (k : Nat) (e : Err), s.vt.migrateMode = false → s.cur.lanes = [id] → s.Present [id] →
      guardHolds g (s.stream id) = true → (s.stream id).cnt = ⟨0, 0, 0, 0⟩ → k < 4 → (s.stream id).slots.get k = some e →
      (∀ j, j < k → (s.stream id).slots.get j = none) → (s.stream id).canTrap = true →
      ∃ t, exec (.exit g) s = .next t ∧ s.OnlyStreams t [id] ∧
        t.stream id = { s.stream id with
          slots := (s.stream id).slots.set k none
          pc := (s.stream id).trap.vec, park := .none, stall := none, short := none, firm := false, room := none, block := []
          outer := (s.stream id).path
          trap := ⟨e.cause, s.cur.pc, s.cur.npc, 0, BitVec.ofNat 32 (2 ^ 31 + 2 ^ 29 * k + e.code.toNat), true,
            (s.stream id).trap.vec⟩ })) ∧
  (
    let after := fun (m arr : DWord) => if m ≠ 0 ∧ arr = m then (⟨0, 0⟩ : JSlot) else ⟨m, arr⟩
    (∀ (g : Guard) (n : BitVec 4) (src : Option (Reg × Bool)) (add : Bool) (s : State) (tm : Team) (low : SId) (rest : List SId)
      (grp : Nat), s.active g = low :: rest → s.team? low.tcx = some tm → s.cur.lanes.head?.map SId.tcx = some low.tcx →
      (∀ id ∈ s.active g, id.kind = .lane ∧ tm.group id = grp) →
      let j := tm.slot grp n.toNat
      let set := match src with
        | none => maskOf ((s.active g).map tm.lane)
        | some (r, _) => (s.stream low).rd64 r
      let m := ((if add then j.mask ||| set else set) &&& tm.full) &&& ~~~(s.exitedMask tm grp)
      let kill := fun (st : Stream) => match src with
        | none => st
        | some (r, k) => st.kill64 r k
      ∃ t, exec (.jset g n src add) s = .next t ∧ t = { s with streams := t.streams, teams := t.teams } ∧
        (t.team low.tcx).slot grp n.toNat = after m (j.arr &&& m) ∧
        (∀ id ∈ s.cur.lanes, s.Present [id] → (s.stream id).park ≠ .join n.toNat false →
          t.stream id = (if guardHolds g (s.stream id) then kill (s.stream id) else s.stream id).goto s.cur.npc) ∧
        (∀ id, id ∉ s.cur.lanes → s.Present [id] → (s.stream id).inGroup tm grp = true → (s.stream id).park = .join n.toNat false →
          j.arr &&& tm.bit id ≠ 0 →
          (t.stream id).park = .join n.toNat (decide (m &&& tm.bit id = 0 ∨ (m ≠ 0 ∧ j.arr &&& m = m))))) ∧
    (∀ (g : Guard) (n : BitVec 4) (s : State) (tm : Team) (id : SId),
      s.cur.lanes = [id] → guardHolds g (s.stream id) = true → s.Present [id] → s.team? id.tcx = some tm → id.kind = .lane →
      let j := tm.slot (tm.group id) n.toNat
      (j.mask &&& tm.bit id = 0 →
        ∃ t, exec (.join g n) s = .next t ∧ s.OnlyStreams t [id] ∧ t.stream id = (s.stream id).goto s.cur.npc) ∧
      (j.mask &&& tm.bit id ≠ 0 →
        ∃ t, exec (.join g n) s = .next t ∧ t = { s with streams := t.streams, teams := t.teams } ∧
          (t.team id.tcx).slot (tm.group id) n.toNat = after j.mask (j.arr ||| tm.bit id) ∧
          (t.stream id).park = .join n.toNat (decide (j.arr ||| tm.bit id = j.mask)))) ∧
    (∀ (g : Guard) (mask : BitVec 16) (s : State) (tm : Team) (id : SId) (n : Nat),
      s.cur.lanes = [id] → guardHolds g (s.stream id) = true → s.team? id.tcx = some tm → id.kind = .lane → n < 16 →
      let j := tm.slot (tm.group id) n
      ∃ t, exec (.jdrop g mask) s = .next t ∧ t = { s with streams := t.streams, teams := t.teams } ∧
        (t.team id.tcx).slot (tm.group id) n =
          if mask.getLsbD n && j.mask &&& tm.bit id != 0 then after (j.mask &&& ~~~tm.bit id) (j.arr &&& ~~~tm.bit id) else j) ∧
    (∀ (g : Guard) (d : Reg) (n : BitVec 4) (arr : Bool) (s : State),
      exec (.jmask g d n arr) s = .next (s.completed g fun st =>
        let j := s.curTeam.slot (s.curTeam.group st.id) n.toNat
        st.wr64 d (if arr then j.arr else j.mask))) ∧
    (∀ (tcx grp n : Nat) (s : State), ∃ t, exec (.joinSlotRelease tcx grp n) s = .next t ∧
      t = { s with streams := s.streams.map fun st =>
        if st.id.tcx = (s.team tcx).tcx ∧ st.id.kind = .lane ∧ (s.team tcx).group st.id = grp ∧ st.park = .join n true
        then st.goto (st.pc + 8) else st }))

/-- R68 to R70, R72, R86: the checks of an access in their order: the class of its first and its last byte, the private window and
its bound, the alignment, the vault share; and that a class-01 address that passes names its own vault byte. R72: a vault range is
refused at its lowest byte that lies in no VAULT share of the ASID. R79, R82, R88: a class-00 access that a cached translation of
its core covers, with the rights it needs, goes to the page's memory; without one of the rights it is a page fault with
PAGE_PERMISSION. -/
def Obligations.AccessChecksAndTranslation : Prop :=
  (
    ∀ (s : State) (st : Stream) (ak : AK) (cl : Classes) (a : DWord) (n align : Nat), 0 < n →
      let cls := a.toNat / 2 ^ 62
      let asid := (s.team st.id.tcx).recd.asid
      (cls = 3 → s.check st ak cl a n align = .error (.trap cAddressClass a)) ∧
      (cls = 0 → (cl.c00 = false ∨ 2 ^ 57 ≤ a.toNat) → s.check st ak cl a n align = .error (.trap cAddressClass a)) ∧
      (cls = 1 → (cl.c01 = false ∨ 2 ^ 62 + 2 ^ 32 ≤ a.toNat) → s.check st ak cl a n align = .error (.trap cAddressClass a)) ∧
      (cls = 2 → cl.c10 = false → s.check st ak cl a n align = .error (.trap cAddressClass a)) ∧
      (classOk cl (a + BitVec.ofNat 64 (n - 1)) = false → s.check st ak cl a n align = .error (.trap cAddressClass a)) ∧
      (∀ d p, a.toNat = windowBase + p → p < 2 ^ 32 → n ≤ 2 ^ 32 → cl.c00 = true → s.desc asid = some d → 2 ^ d.privLog2 < p + n →
        s.check st ak cl a n align =
          .error (.trap cAddressClass (BitVec.ofNat 64 (max (windowBase + p) (windowBase + 2 ^ d.privLog2))))) ∧
      (classOk cl a = true → classOk cl (a + BitVec.ofNat 64 (n - 1)) = true →
        (a.toNat < windowBase ∨ windowBase + 2 ^ 32 ≤ a.toNat) → a.toNat % align ≠ 0 →
        s.check st ak cl a n align = .error (.trap cAlignment a)) ∧
      (cls = 1 → classOk cl a = true → classOk cl (a + BitVec.ofNat 64 (n - 1)) = true → a.toNat % align = 0 →
        (∀ b, s.vaultBad asid (a.toNat % 2 ^ 32) n = some b →
          s.check st ak cl a n align = .error (.trap cVaultRange (BitVec.ofNat 64 (2 ^ 62 + b)))) ∧
        (s.vaultBad asid (a.toNat % 2 ^ 32) n = none →
          s.check st ak cl a n align = .ok ⟨⟨.vault, vaultKey + a.toNat % 2 ^ 32, 0, false⟩, a.toNat, none⟩))) ∧
  (
    ∀ (s : State) (asid : BitVec 16) (a n : Nat), 0 < n →
      let good := fun (x : Nat) =>
        x / 2 ^ 25 < 48 ∧ (s.share (shareOf x)).role = .vault ∧ (s.share (shareOf x)).owner = asid
      (s.vaultBad asid a n = none ↔ ∀ x, a ≤ x → x < a + n → good x) ∧
      (∀ b, s.vaultBad asid a n = some b → a ≤ b ∧ b < a + n ∧ ¬good b ∧ ∀ x, a ≤ x → x < b → good x)) ∧
  (
    ∀ (s : State) (w : Who) (ak : AK) (va : Nat) (e : TlbEntry),
      s.tlbLookup w.at_ w.die w.asid va = some e → e.leaf.a = true → (ak.writes = true → e.leaf.d = true) →
      let denied := (ak.writes = true ∧ e.leaf.w = false) ∨ (ak = .fetch ∧ e.leaf.x = false) ∨ (w.priv = false ∧ e.leaf.u = false)
      (denied → s.checkPage w ak va = .error (.page va (.fault cPagePermission 0 false))) ∧
      (¬denied → e.leaf.vcid = 0 → s.cache? 0 = none → s.checkPage w ak va = .ok ⟨leafLoc e.leaf e.va va, va, none⟩) ∧
      (¬denied → e.leaf.vcid ≠ 0 → s.cache? e.leaf.vcid = none →
        s.checkPage w ak va = .error (.trap cVcUndefined (BitVec.ofNat 64 va))))

/-- R130, R242 to R248: an access of the device's own memory whose checks pass leaves one operation outstanding for each active
lane, in ascending thread index, at the address S1 + OFF × 2^SIZE; its counter rises by one; S1 is killed where marked; the lanes go
on; memory and all else stay as they were. R330, R331, R435: an access of one lane to the host's memory, to another device's over its
port or to the CXL expander leaves such an operation, sent where the link it needs is up or a cached line answers it, and failed with
the link's cause where not. R243, R400: where the check of a lane fails with a trap and those of all lower lanes pass, the
instruction traps at that lane with its failing address, and no operation is issued; a walk that has succeeded before the check
failed leaves its translation and sets no A, which is the model's reading of R88 (log entry 111). Completion: under the premises of
its clause on the state and the operands alone, each of `ld`, `st`, `ldro`, `ldv`, `stv` answers a next state of its own effect. -/
def Obligations.AccessesIssueOrTrap : Prop :=
  (
    ∀ (i : Instr) (kind : OpKind) (ak : AK) (cl : Classes) (ctr : Nat) (o : Acc) (s : State) (cs : List (SId × Checked)),
      (i, kind, ak, cl, ctr) ∈ [(Instr.ld o, OpKind.load o.sx, AK.load, allClasses, 0), (.st o, .store, .store, allClasses, 1),
        (.ldro o, .load o.sx, .load, class00, 0), (.ldv o, .load o.sx, .load, vaultOnly, 0), (.stv o, .store, .store, vaultOnly, 1)] →
      s.cur.lanes.Nodup → s.Present s.cur.lanes → s.active o.g ≠ [] → Reg.isPort o.d = false → s.windowed = false →
      s.vt.migrateMode = false → (∀ id ∈ s.active o.g, (s.stream id).cnt.get ctr < 254 ∧ (s.stream id).flush = none ∧
        s.farPending id o.stor = false) →
      checkAll (fun id => s.checkAt id ak cl ((s.stream id).rd64 o.s1 + (o.off.signExtend 64 <<< o.size.toNat))
        (2 ^ o.size.toNat) (2 ^ o.size.toNat)) (s.active o.g) = .ok cs →
      (∀ c ∈ cs, c.2.Local) →
      let data := fun (id : SId) => (if o.size = 3 then (s.stream id).rd64 o.d else ((s.stream id).rd o.d).setWidth 64, (0 : DWord))
      ∃ t, exec i s = .next t ∧
        t = { s with
          streams := t.streams, nextOp := s.nextOp + cs.length
          ops := s.ops ++ s.opsOf ⟨kind, o.d, 2 ^ o.size.toNat, o.ord, o.scp, o.agent, o.stor, o.hint, ctr⟩ data cs } ∧
        (∀ id, id ∉ s.cur.lanes → t.stream? id = s.stream? id) ∧
        (∀ id ∈ s.active o.g, t.stream id =
          { ((s.stream id).kill64 o.s1 o.k1) with cnt := (s.stream id).cnt.add ctr 1 }.goto s.cur.npc) ∧
        (∀ id ∈ s.cur.lanes, id ∉ s.active o.g → t.stream id = (s.stream id).goto s.cur.npc)) ∧
  (
    ∀ (i : Instr) (kind : OpKind) (ak : AK) (cl : Classes) (ctr : Nat) (o : Acc) (s : State) (id : SId) (c : Checked),
      (i, kind, ak, cl, ctr) ∈ [(Instr.ld o, OpKind.load o.sx, AK.load, allClasses, 0), (.st o, .store, .store, allClasses, 1),
        (.ldro o, .load o.sx, .load, class00, 0)] →
      s.Alone o.g id → Reg.isPort o.d = false → s.windowed = false → s.vt.migrateMode = false →
      (s.stream id).cnt.get ctr < 254 → (s.stream id).flush = none →
      s.checkAt id ak cl ((s.stream id).rd64 o.s1 + (o.off.signExtend 64 <<< o.size.toNat))
        (2 ^ o.size.toNat) (2 ^ o.size.toNat) = .ok c →
      c.walked = none → c.loc.key < 2 ^ 63 → s.farWait o.scp o.ord o.stor [(id, c)] = .go →
      s.replyFull (s.curTeam.coreOf id) [(id, c)] = false →
      let data := if o.size = 3 then (s.stream id).rd64 o.d else ((s.stream id).rd o.d).setWidth 64
      let x : MemOp :=
        { s.mkOp ⟨kind, o.d, 2 ^ o.size.toNat, o.ord, o.scp, o.agent, o.stor, o.hint, ctr⟩ [⟨id, data, 0⟩] none c with num := s.nextOp }
      let ph : OpPhase :=
        if c.loc.space = .pod then
          if s.links.anyPort = true ∨ s.cached x = true then .sent s.gts 1 (s.podPort x) else .failed cPodPortDown 0
        else if c.loc.cxl = true then
          if s.links.cxlUp = true ∨ s.cached x = true then .sent s.gts 1 none else .failed cLinkLost 0
        else .issued
      ∃ t, exec i s = .next t ∧ s.IssuesOne t id { x with phase := ph } ((s.stream id).kill64 o.s1 o.k1)) ∧
  (
    ∀ (i : Instr) (ak : AK) (cl : Classes) (ctr : Nat) (o : Acc) (s : State) (fail : SId) (cause : Cause) (a : DWord),
      (i, ak, cl, ctr) ∈ [(Instr.ld o, AK.load, allClasses, 0), (.st o, .store, allClasses, 1), (.ldro o, .load, class00, 0),
        (.ldv o, .load, vaultOnly, 0), (.stv o, .store, vaultOnly, 1)] →
      Reg.isPort o.d = false → s.windowed = false →
      (∀ id ∈ s.active o.g, (s.stream id).cnt.get ctr < 254 ∧ (s.stream id).flush = none) →
      let check := fun (id : SId) => s.checkAt id ak cl ((s.stream id).rd64 o.s1 + (o.off.signExtend 64 <<< o.size.toNat))
        (2 ^ o.size.toNat) (2 ^ o.size.toNat)
      (s.active o.g).find? (fun id => match check id with | .error _ => true | .ok _ => false) = some fail →
      check fail = .error (.trap cause a) →
      exec i s = .next ((s.refused (s.who (s.stream fail)) ak (.trap cause a)).trap7 o.g cause fail a) ∧
      (cause ∉ [cVcUndefined, cPagePermission] → exec i s = .next (s.trap7 o.g cause fail a)))

/-- R130, R246: LOAD_COMPLETE of an uncached load writes the little-endian value of its bytes, extended as SX says, to D of its
lane, lowers LDC, and changes no byte of memory. A load into v0 is performed and its value discarded. R4, R232, R246:
STORE_PERFORMED of an uncached store writes exactly its bytes, least significant first, lowers STC, and changes no other byte of
memory. Completion: under the premises of its clause on the state and the operands alone, each of `loadComplete`, `storePerformed`
answers a next state of its own effect. -/
def Obligations.LoadsAndStoresPerform : Prop :=
  (
    ∀ (s : State) (n : Nat) (o : MemOp) (sx : Bool) (l : OpLane),
      s.op? n = some o → s.Uncached o → o.kind = .load sx → o.lanes = [l] → o.entry = none → s.poisoned o.loc.key o.size = false →
      o.size ∈ [1, 2, 4, 8] → s.Present [l.sid] → (s.stream l.sid).window = none →
      let v := natOfBytes (memReadN s.mem o.loc.key o.size)
      let x : DWord := if sx && decide (o.size < 4) then
          ((if o.size = 1 then (BitVec.ofNat 8 v).signExtend 32 else (BitVec.ofNat 16 v).signExtend 32).setWidth 64)
        else BitVec.ofNat 64 v
      ∃ t, exec (.loadComplete n) s = .next t ∧ t = { s with streams := t.streams, ops := t.ops } ∧
        t.op? n = none ∧ (∀ id, id ≠ l.sid → t.stream? id = s.stream? id) ∧
        (t.stream l.sid).bare =
          { (if o.size = 8 then (s.stream l.sid).wr64 o.d x else (s.stream l.sid).wr o.d (x.setWidth 32)) with
            cnt := (s.stream l.sid).cnt.dec o.counter }.bare) ∧
  (
    ∀ (s : State) (n : Nat) (o : MemOp) (l : OpLane),
      s.op? n = some o → s.Uncached o → o.kind = .store → o.lanes = [l] → s.Present [l.sid] → s.vt.migrateMode = false →
      ∃ t, exec (.storePerformed n) s = .next t ∧
        t = { s with streams := t.streams, ops := t.ops, mem := t.mem
                     vt := { s.vt with poison := t.vt.poison, broken := t.vt.broken } } ∧
        Stored s.mem t.mem o.loc.key ((List.range o.size).map fun i => BitVec.ofNat 8 (l.b.toNat / 256 ^ i)) ∧
        (o.size < 32 → t.vt.poison = s.vt.poison) ∧ (∀ w ∈ t.vt.broken, w ∈ s.vt.broken) ∧
        t.op? n = none ∧ (∀ id, id ≠ l.sid → t.stream? id = s.stream? id) ∧
        (t.stream l.sid).bare = { s.stream l.sid with cnt := (s.stream l.sid).cnt.dec o.counter }.bare)

/-- R354, R355, R357, R360: an atomic whose lanes all name different local words leaves one operation outstanding for each, with its
operand values, on LDC where D is not v0 and on STC where it is; its operands are killed where marked. R356 to R358: ATOMIC_PERFORM
of an uncached 32-bit request of one lane reads the old word and writes the new one, indivisibly; D takes the old word where it is
not v0; no other byte of memory changes. R356, R370: the new word of each integer read-modify-write, by the integer values of the
words. Completion: under the premises of its clause on the state and the operands alone, each of `aadd`, `aadd64`, `aaddf`,
`aadd2h`, `amin`, `amax`, `aminf`, `amaxf`, `aand`, `aor`, `axor`, `axchg`, `acas`, `acas64`, `ainc`, `adec`, `ctadd`,
`atomicPerform` answers a next state of its own effect. -/
def Obligations.AtomicInstructions : Prop :=
  (
    ∀ (i : Instr) (op : RmwOp) (o : Atom) (s : State) (cs : List (SId × Checked)),
      (i, op) ∈ [(Instr.aadd o, RmwOp.add), (.aadd64 o, .add64), (.aaddf o, .addf), (.aadd2h o, .add2h), (.amin o false, .min),
        (.amin o true, .umin), (.amax o false, .max), (.amax o true, .umax), (.aminf o, .minf), (.amaxf o, .maxf), (.aand o, .and),
        (.aor o, .or), (.axor o, .xor), (.axchg o, .xchg), (.acas o, .cas), (.acas64 o, .cas64), (.ainc o, .inc), (.adec o, .dec),
        (.ctadd o false, .ctadd false), (.ctadd o true, .ctadd true)] →
      s.cur.lanes.Nodup → s.Present s.cur.lanes → s.active o.g ≠ [] → s.vt.migrateMode = false →
      (∀ id ∈ s.active o.g, (s.stream id).cnt.get (if o.d = 0 then 1 else 0) < 254 ∧ (s.stream id).flush = none ∧
        s.farPending id o.stor = false) →
      checkAll (fun id => s.atomCheck id .atomic ((s.stream id).rd64 o.s1) (rmwSize op)) (s.active o.g) = .ok cs →
      (∀ c ∈ cs, c.2.Local) → (cs.map fun c => c.2.loc.key).Nodup →
      ∃ t, exec i s = .next t ∧
        t = { s with
          streams := t.streams, nextOp := s.nextOp + cs.length
          ops := s.ops ++ s.opsOf ⟨.rmw op (o.d != 0), o.d, rmwSize op, o.ord, true, o.agent, o.stor, .none, if o.d = 0 then 1 else 0⟩
            (fun id => atomArgs op o.s2 (s.stream id)) cs } ∧
        (∀ id ∈ s.active o.g, t.stream id =
          { (atomKill op o.s2 o.k2 ((s.stream id).kill64 o.s1 o.k1)) with
            cnt := (s.stream id).cnt.add (if o.d = 0 then 1 else 0) 1 }.goto s.cur.npc)) ∧
  (
    ∀ (s : State) (n : Nat) (o : MemOp) (op : RmwOp) (ret : Bool) (l : OpLane),
      s.op? n = some o → s.Uncached o → s.vt.lines = [] → o.kind = .rmw op ret → op ∉ [.add64, .cas64, .add2h] → o.size = 4 →
      o.lanes = [l] → o.entry = none → s.poisoned o.loc.key 4 = false → s.Present [l.sid] → (s.stream l.sid).window = none →
      let old := BitVec.ofNat 32 (natOfBytes (memReadN s.mem o.loc.key 4))
      let new := rmw32 op old (l.b.setWidth 32) (l.c.setWidth 32)
      ∃ t, exec (.atomicPerform n) s = .next t ∧ t = { s with streams := t.streams, ops := t.ops, mem := t.mem, vt := t.vt } ∧
        Stored s.mem t.mem o.loc.key ((List.range 4).map fun i => BitVec.ofNat 8 (new.toNat / 256 ^ i)) ∧ t.op? n = none ∧
        (t.stream l.sid).bare =
          { (if ret then (s.stream l.sid).wr o.d old else s.stream l.sid) with
            cnt := (s.stream l.sid).cnt.dec o.counter }.bare) ∧
  (
    ∀ a b c : Word,
      rmw32 .add a b c = BitVec.ofNat 32 (a.toNat + b.toNat) ∧
      rmw32 .min a b c = BitVec.ofInt 32 (min a.toInt b.toInt) ∧ rmw32 .max a b c = BitVec.ofInt 32 (max a.toInt b.toInt) ∧
      rmw32 .umin a b c = BitVec.ofNat 32 (min a.toNat b.toNat) ∧ rmw32 .umax a b c = BitVec.ofNat 32 (max a.toNat b.toNat) ∧
      rmw32 .and a b c = a &&& b ∧ rmw32 .or a b c = a ||| b ∧ rmw32 .xor a b c = a ^^^ b ∧ rmw32 .xchg a b c = b ∧
      rmw32 .cas a b c = (if a = b then c else a) ∧
      rmw32 .inc a b c = (if b.toNat ≤ a.toNat then 0 else BitVec.ofNat 32 (a.toNat + 1)) ∧
      rmw32 .dec a b c = (if a = 0 ∨ b.toNat < a.toNat then b else BitVec.ofNat 32 (a.toNat - 1)) ∧
      (∀ err, (rmw32 (.ctadd err) a b c).toNat =
        (a.toNat + b.toNat) % 2 ^ 31 + (if 2 ^ 31 ≤ a.toNat ∨ err = true then 2 ^ 31 else 0)) ∧
      (∀ x y z : DWord, rmwNew .add64 x y z = BitVec.ofNat 64 (x.toNat + y.toNat) ∧
        rmwNew .cas64 x y z = if x = y then z else x))

/-- R228, R229, R248: a full/empty operation that arrives at its bank while no other waits on its word: `ldvw` and `ldvt` of a full
word return it, `ldvt` leaving it empty; `stvp` of an empty word and `stvf` of any write it and leave it full; the lane goes on; one
that has to wait becomes the youngest waiter and changes nothing else. R248, R249: a full/empty instruction of one lane with a plain
D, at a word with no waiter: `stvf` leaves its operation outstanding and its lane goes on; `ldvw`, `ldvt` and `stvp` take effect at
once and the lane goes on where their word is in the state they wait for and no earlier access is ordered before them, and park
their lane on their operation otherwise; under FE_TRAP they issue once no earlier access is ordered before them, and those of a lane
that would wait trap with FE_TRAP and issue nothing.
Completion: under the premises of its clause on the state and the operands alone, each of `ldvw`, `ldvt`, `stvp`, `stvf`,
`vaultBankOp` answers a next state of its own effect. -/
def Obligations.FullEmptyWords : Prop :=
  (
    ∀ (s : State) (n : Nat) (o : MemOp) (op : FeOp) (l : OpLane),
      s.op? n = some o → s.mayPerform o = true → o.phase = .issued → o.kind = .fe op → o.lanes = [l] → o.entry = none → o.size = 4 →
      s.vt.waiters = [] → s.Present [l.sid] → (s.stream l.sid).window = none → (s.stream l.sid).park = .fe n →
      s.vt.migrateMode = false →
      let st := match o.kill with
        | some r => (s.stream l.sid).kill64 r true
        | none => s.stream l.sid
      let w := o.loc.key - vaultKey
      let empty := decide (w ∈ s.vt.empty)
      let loads := decide (op = .ldvw ∨ op = .ldvt)
      let waits := if loads then empty else decide (op = .stvp) && !empty
      (waits = true → ∃ t, exec (.vaultBankOp n) s = .next t ∧ t.mem = s.mem ∧ t.streams = s.streams ∧
        t.vt = { s.vt with waiters := [n] }) ∧
      (waits = false → ∃ t, exec (.vaultBankOp n) s = .next t ∧ t.op? n = none ∧ t.vt.waiters = [] ∧
        (∀ x, x ∈ t.vt.empty ↔ (if x = w then op = .ldvt ∨ (op = .ldvw ∧ empty = true) else x ∈ s.vt.empty)) ∧
        (if loads then t.mem = s.mem
         else Stored s.mem t.mem o.loc.key ((List.range 4).map fun i => BitVec.ofNat 8 (l.b.toNat / 256 ^ i))) ∧
        (t.stream l.sid).bare =
          ({ (if loads then st.wr o.d (BitVec.ofNat 32 (natOfBytes (memReadN s.mem o.loc.key 4))) else st) with
            cnt := (s.stream l.sid).cnt.dec o.counter }.goto ((s.stream l.sid).pc + 8)).bare)) ∧
  (
    ∀ (i : Instr) (op : FeOp) (ak : AK) (ctr : Nat) (o : Acc) (s : State) (id : SId) (c : Checked),
      (i, op, ak, ctr) ∈ [(Instr.ldvw o, FeOp.ldvw, AK.load, 0), (.ldvt o, .ldvt, .load, 0), (.stvp o, .stvp, .store, 1),
        (.stvf o, .stvf, .store, 1)] →
      s.cur.lanes = [id] → guardHolds o.g (s.stream id) = true → s.Present [id] → Reg.isPort o.d = false → s.vt.migrateMode = false →
      s.windowed = false → (s.stream id).cnt.get ctr < 254 → (s.stream id).flush = none → s.farPending id o.stor = false →
      s.checkAt id ak vaultOnly (accAddr o (s.stream id)) 4 4 = .ok c → c.Local → s.op? s.nextOp = none → s.vt.waiters = [] →
      let w := c.loc.key - vaultKey
      let empty := decide (w ∈ s.vt.empty)
      let loads := decide (op = .ldvw ∨ op = .ldvt)
      let waits := match op with | .ldvw | .ldvt => empty | .stvp => !empty | .stvf => false
      let v := (s.stream id).rd o.d
      let x : MemOp := { s.mkOp ⟨.fe op, o.d, 4, o.ord, o.scp, o.agent, o.stor, o.hint, ctr⟩ [⟨id, v.setWidth 64, 0⟩] none c with
        num := s.nextOp }
      let y : MemOp := { s.mkOp ⟨.fe op, o.d, 4, o.ord, o.scp, o.agent, o.stor, o.hint, ctr⟩ [⟨id, 0, 0⟩] none c with num := s.nextOp }
      let killed := (s.stream id).kill64 o.s1 o.k1
      let counted := { s.stream id with cnt := (s.stream id).cnt.add ctr 1 }
      (s.curTeam.recd.feTrap = true → waits = true → s.mayPerform y = true →
        exec i s = .next (s.trap7 o.g cFeTrap id (accAddr o (s.stream id)))) ∧
      (s.curTeam.recd.feTrap = true → op ≠ .stvf → s.mayPerform y = false → exec i s = .next s.stalled) ∧
      (op = .stvf → ∃ t, exec i s = .next t ∧ t = { s with streams := t.streams, nextOp := s.nextOp + 1, ops := s.ops ++ [x] } ∧
        t.stream id = { killed with cnt := counted.cnt }.goto s.cur.npc) ∧
      (op ≠ .stvf → s.curTeam.recd.feTrap = false → (s.issueOp x).mayPerform x = false ∨ waits = true →
        ∃ t, exec i s = .next t ∧
          t = { s with
            streams := t.streams, nextOp := s.nextOp + 1
            ops := s.ops ++ [{ x with kill := if o.k1 then some o.s1 else none, phase := if (s.issueOp x).mayPerform x then .waiting else .issued }]
            vt := { s.vt with waiters := if (s.issueOp x).mayPerform x then [s.nextOp] else [] } } ∧
          t.stream id = { counted.parkAt (.fe s.nextOp) with pc := s.cur.pc }) ∧
      (op ≠ .stvf → (s.issueOp x).mayPerform x = true → (s.curTeam.recd.feTrap = true → s.mayPerform y = true) → waits = false →
        ∃ t, exec i s = .next t ∧
          t = { s with streams := t.streams, nextOp := s.nextOp + 1, ops := t.ops, mem := t.mem
                       vt := { s.vt with empty := t.vt.empty, broken := t.vt.broken } } ∧
          t.op? s.nextOp = none ∧ (∀ a, a ∈ t.vt.empty ↔ if a = w then op = .ldvt else a ∈ s.vt.empty) ∧
          (if loads then t.mem = s.mem
           else Stored s.mem t.mem c.loc.key ((List.range 4).map fun k => BitVec.ofNat 8 (v.toNat / 256 ^ k))) ∧
          (t.stream id).bare =
            ((if loads then killed.wr o.d (BitVec.ofNat 32 (natOfBytes (memReadN s.mem c.loc.key 4))) else killed).goto s.cur.npc).bare))

/-- R251 to R254: a range instruction of one lane: with L = 0 it does nothing; otherwise it leaves one operation outstanding on STC
with the pieces of its range, or the range of `femk`; the operands are killed where marked. R250, R255 to R257: `feqry` and `vcq` of
one lane leave one operation outstanding on LDC that writes D, or, where D is a queue port, an entry reserved at the tail of its
queue (R110, R263, R265); `ptoa` writes the backing address of a private address, and another address unchanged; `prf` completes in
every state, changes no register, counter or operation, and of lanes whose checks fail only goes on. Completion: under the premises
of its clause on the state and the operands alone, each of `femk`, `feqry`, `prf`, `cwb`, `cflush`, `cinval`, `cprio`, `vcq`, `ptoa`
answers a next state of its own effect. -/
def Obligations.RangesAndQueries : Prop :=
  (
    ∀ (o : Rng) (s : State) (id : SId), s.cur.lanes = [id] → guardHolds o.g (s.stream id) = true → s.Present [id] →
      (s.stream id).cnt.st < 254 →
      let kill := fun (st : Stream) => (st.kill64 o.s1 o.k1).kill o.s2 o.k2
      (∀ i needW, (i, needW) ∈ [(Instr.cwb o, false), (.cflush o, false), (.cinval o, true), (.cprio o .first, false),
          (.cprio o .normal, false), (.cprio o .last, false), (.femk o true, false), (.femk o false, false)] →
        (s.stream id).rd o.s2 = 0 → exec i s = .next (s.completed o.g kill)) ∧
      (∀ i op needW ps, (i, op, needW) ∈ [(Instr.cwb o, RangeOp.wb, false), (.cflush o, .flush, false), (.cinval o, .inval, true),
          (.cprio o .first, .prio .first, false), (.cprio o .normal, .prio .normal, false), (.cprio o .last, .prio .last, false)] →
        (s.stream id).rd o.s2 ≠ 0 → s.rangeCheck o needW id = .ok ps → (∀ p ∈ ps, p.1.key < 2 ^ 63) →
        let s0 := s.touchRange o id
        s0 = { s with mem := s0.mem, tr := s0.tr } ∧
        ∃ t x, exec i s = .next t ∧ t = { s0 with streams := t.streams, ops := s.ops ++ [x], nextOp := s.nextOp + 1 } ∧
          x.kind = .range op ps ∧ x.num = s.nextOp ∧ x.counter = 1 ∧ x.phase = .issued ∧
          t.stream id = { kill (s.stream id) with cnt := (s.stream id).cnt.add 1 1 }.goto s.cur.npc) ∧
      (∀ full, (s.stream id).rd o.s2 ≠ 0 →
        let a := ((s.stream id).rd64 o.s1).toNat
        let l := ((s.stream id).rd o.s2).toNat
        2 ^ 62 ≤ a → a + l ≤ 2 ^ 62 + 2 ^ 32 → a % 4 = 0 → l % 4 = 0 → l ≤ 65536 →
        s.vaultBad (s.team id.tcx).recd.asid (a % 2 ^ 32) l = none →
        ∃ t x, exec (.femk o full) s = .next t ∧ t = { s with streams := t.streams, ops := s.ops ++ [x], nextOp := s.nextOp + 1 } ∧
          x.kind = .femk l full ∧ x.num = s.nextOp ∧ x.loc.key = vaultKey + a % 2 ^ 32 ∧ x.counter = 1 ∧
          t.stream id = { kill (s.stream id) with cnt := (s.stream id).cnt.add 1 1 }.goto s.cur.npc)) ∧
  (
    (∀ (i : Instr) (o : Qry) (s : State) (id : SId) (c : Checked),
      (i = .feqry o ∧ s.checkAt id .load vaultOnly ((s.stream id).rd64 o.s1) 128 4 = .ok c ∨
        i = .vcq o ∧ s.vcqCheck id ((s.stream id).rd64 o.s1) = .ok c) →
      s.Alone o.g id → (s.stream id).cnt.ld < 254 → c.Local →
      (Reg.isPort o.d = true → s.portKey id o.d = none → exec i s = .next (s.trap7 o.g cIllegalOperand id 0)) ∧
      (∀ q e, (Reg.isPort o.d = false ∧ q = s ∧ e = none ∨
          ∃ key, Reg.isPort o.d = true ∧ s.portKey id o.d = some key ∧ 0 < s.freeOf key ∧
            q = (s.reserveEntry key (maskOf [s.curTeam.lane id]) 1).2 ∧ e = some (key / 32, key % 32, s.qu.serial)) →
        ∃ t x, exec i s = .next t ∧ t = { q with streams := t.streams, ops := s.ops ++ [x], nextOp := s.nextOp + 1 } ∧
          x.kind = (if i = .feqry o then .feqry else .vcq 0 (BitVec.ofNat 64 c.va)) ∧
          x.num = s.nextOp ∧ x.d = o.d ∧ x.entry = e ∧ x.loc = c.loc ∧ x.counter = 0 ∧
          t.stream id = { ((s.stream id).kill64 o.s1 o.k1) with cnt := (s.stream id).cnt.add 0 1 }.goto s.cur.npc)) ∧
    (∀ (o : Qry) (s : State) (id : SId) (va : Nat),
      s.cur.lanes = [id] → guardHolds o.g (s.stream id) = true → s.Present [id] →
      s.redirect (s.stream id) ((s.stream id).rd64 o.s1) 1 = .ok va →
      ∃ t, exec (.ptoa o) s = .next t ∧ s.OnlyStreams t [id] ∧
        t.stream id = (((s.stream id).kill64 o.s1 o.k1).wr64 o.d (BitVec.ofNat 64 va)).goto s.cur.npc) ∧
    (∀ (s : State) (st : Stream) (a : DWord) (n : Nat), (a.toNat < windowBase ∨ windowBase + 2 ^ 32 ≤ a.toNat) →
      s.redirect st a n = .ok a.toNat) ∧
    (∀ (s : State) (st : Stream) (p : Nat) (d : Desc), p < 2 ^ d.privLog2 → p < 2 ^ 32 →
      s.desc (s.team st.id.tcx).recd.asid = some d →
      s.redirect st (BitVec.ofNat 64 (windowBase + p)) 1 = .ok (d.privBase +
        (st.id.tcx * 2048 + (if st.id.kind = .lane then st.id.unit else 0)) * 2 ^ d.privLog2 + p)) ∧
    (∀ (o : Acc) (s : State), ∃ t, exec (.prf o) s = .next t ∧
      t = { s.completed o.g id with mem := t.mem, tr := t.tr, vt := t.vt, free := t.free, links := t.links, hif := t.hif }) ∧
    (∀ (o : Acc) (s : State), (∀ id ∈ s.active o.g, ∃ f, s.checkAt id .load class00 (accAddr o (s.stream id)) 1 1 = .error f) →
      exec (.prf o) s = .next (s.completed o.g id)))

/-- R341, R363: `fence` whose lanes wait for nothing leaves every operation as it was, adds its markers and goes on. R258: `sgacq`
and `sgrel` of one lane: nothing where the page has no replicated cache; otherwise one operation on STC. R368, R369: `waitc` of one
lane on an uncached word: where the error bit is set or the count has reached the target modulo 2^31, D takes the word; otherwise
the lane parks on the counter; an error bit beside an error in the copy slot delivers that error after D has been written, with no
operand killed, which is the model's reading (log entry 40). R371: `ctrd` leaves one load of four bytes outstanding for each lane.
R372: `hsig` leaves one signal outstanding, of its lowest lane. Completion: under the premises of its clause on the state and the
operands alone, each of `sgacq`, `sgrel`, `fence`, `waitc`, `ctrd`, `hsig` answers a next state of its own effect. -/
def Obligations.FencesAndCounters : Prop :=
  (
    (∀ (g : Guard) (ord : Order) (agent : Agent) (stor : BitVec 5) (s : State), s.Present s.cur.lanes →
      s.Settled (s.active g) (stor &&& farMask) →
      ∃ t, exec (.fence g ord agent stor) s = .next t ∧ t = { s with streams := t.streams, ops := t.ops, nextOp := t.nextOp } ∧
        (t.ops.filter fun o => !o.isFence) = (s.ops.filter fun o => !o.isFence) ∧ s.LanesBare t g fun st => st.goto s.cur.npc) ∧
    (∀ (i : Instr) (acq : Bool) (g : Guard) (s1 : Reg) (k1 : Bool) (s : State) (id : SId),
      (i, acq) ∈ [(Instr.sgacq g s1 k1, true), (.sgrel g s1 k1, false)] → s.Alone g id → (s.stream id).cnt.st < 254 →
      (s.sgCheck acq id ((s.stream id).rd64 s1) = .ok none →
        ∃ t, exec i s = .next t ∧ s.OnlyStreams t [id] ∧ t.stream id = ((s.stream id).kill64 s1 k1).goto s.cur.npc) ∧
      (∀ c, s.sgCheck acq id ((s.stream id).rd64 s1) = .ok (some c) → c.Local →
        ∃ t x, exec i s = .next t ∧ x.kind = .sg acq ∧ x.loc = c.loc ∧ x.counter = 1 ∧
          s.IssuesOne t id x ((s.stream id).kill64 s1 k1)))) ∧
  (
    (∀ (o : Atom) (s : State) (id : SId) (c : Checked), s.Alone o.g id → (s.stream id).flush = none →
      s.waitcCheck id ((s.stream id).rd64 o.s1) = .ok c → c.Local → s.cache? c.loc.vcid = none → s.poisoned c.loc.key 4 = false →
      s.mustWaitAs (waitcForm o) id c = false → s.farWait true o.ord o.stor [(id, c)] = .go →
      (∀ set owner, s.dir (segOf c.loc.key) ≠ .T set owner) →
      let w := BitVec.ofNat 32 (natOfBytes (memReadN s.mem c.loc.key 4))
      let target := ((s.stream id).rd o.s2).toNat % 2 ^ 31
      let reached := ((w.toNat % 2 ^ 31 : Nat) - (target : Nat) : Int) % 2 ^ 31 < 2 ^ 30
      (w.msb = false ∨ (s.stream id).slots.cp = none ∨ (s.stream id).canTrap = true) →
      ∃ t, exec (.waitc o) s = .next t ∧ s.OnlyStreams t [id] ∧
        (w.msb = false ∧ ¬reached →
          t.stream id = { (s.stream id).parkAt (.waitc c.loc target) with pc := s.cur.pc }) ∧
        (w.msb = true ∨ reached → (w.msb = false ∨ (s.stream id).slots.cp = none) →
          (t.stream id).bare = (((((s.stream id).kill64 o.s1 o.k1).kill o.s2 o.k2).wr o.d w).goto s.cur.npc).bare) ∧
        (∀ e, w.msb = true → (s.stream id).slots.cp = some e → (s.stream id).canTrap = true →
          (t.stream id).bare = { ((s.stream id).wr o.d w) with
            slots := { (s.stream id).slots with cp := none }, pc := (s.stream id).trap.vec, park := .none, stall := none
            short := none, firm := false, room := none, block := [], outer := (s.stream id).path
            trap := ⟨e.cause, s.cur.pc, s.cur.npc, 0, BitVec.ofNat 32 (2 ^ 31 + 2 ^ 29 * 2 + e.code.toNat), true,
              (s.stream id).trap.vec⟩ }.bare)) ∧
    (∀ (o : Atom) (s : State) (cs : List (SId × Checked)), s.cur.lanes.Nodup → s.Present s.cur.lanes → s.active o.g ≠ [] →
      s.vt.migrateMode = false →
      (∀ id ∈ s.active o.g, (s.stream id).cnt.ld < 254 ∧ (s.stream id).flush = none ∧ s.farPending id o.stor = false) →
      checkAll (fun id => s.checkAt id .load allClasses ((s.stream id).rd64 o.s1) 4 4) (s.active o.g) = .ok cs →
      (∀ c ∈ cs, c.2.Local) →
      ∃ t, exec (.ctrd o) s = .next t ∧
        t = { s with
          streams := t.streams, nextOp := s.nextOp + cs.length
          ops := s.ops ++ s.opsOf ⟨.load false, o.d, 4, o.ord, true, o.agent, o.stor, .none, 0⟩ (fun _ => (0, 0)) cs } ∧
        s.Lanes t o.g fun st => { (st.kill64 o.s1 o.k1) with cnt := st.cnt.add 0 1 }.goto s.cur.npc) ∧
    (∀ (g : Guard) (s1 : Reg) (k1 : Bool) (s2 : Reg) (k2 : Bool) (vector : BitVec 11) (s : State) (id : SId),
      s.Alone g id → vector.toNat ≤ (s.fn s.curTeam.fn).msix → (s.stream id).cnt.st < 254 → s.Settled [id] 0b11111 →
      s.carriedIn [id] 0b11111 = false →
      ∀ c, (s1 = 0 ∧ c = ⟨⟨.host, hostKey, 0, false⟩, 0, none⟩ ∨
          s1 ≠ 0 ∧ s.checkAt id .store allClasses ((s.stream id).rd64 s1) 4 4 = .ok c ∧ c.Local) →
        ∃ t x, exec (.hsig g s1 k1 s2 k2 vector) s = .next t ∧ x.kind = .hsig s.curTeam.fn vector.toNat (s1 != 0) ∧
          x.lanes = [⟨id, ((s.stream id).rd s2).setWidth 64, 0⟩] ∧ x.loc = c.loc ∧ x.counter = 1 ∧
          s.IssuesOne t id x (((s.stream id).kill64 s1 k1).kill s2 k2)) ∧
    (∀ (s : State) (n fn vector : Nat) (o : MemOp) (l : OpLane), s.op? n = some o → s.mayPerform o = true → o.phase = .issued →
      o.kind = .hsig fn vector false → o.lanes = [l] → s.Present [l.sid] → s.links.hostUp = true →
      ∃ t, exec (.storePerformed n) s = .next t ∧ t = { (s.sendMsix fn vector) with streams := t.streams, ops := t.ops } ∧
        t.op? n = none ∧ (t.stream l.sid).bare = { s.stream l.sid with cnt := (s.stream l.sid).cnt.dec o.counter }.bare))

/-- R364 to R367: an arrival of some lanes at a barrier, all with one count: the generation ends exactly with the arrival that
reaches the target, ALL being the threads that have not exited; each lane of `bar` and `gbar` parks on the generation of its
arrival, `bararr` gives it in D and goes on, and `barwt` parks where the generation named is still the present one. R364, R366,
R367: BARRIER_RELEASE lets the threads of a team go on whose generation at the barrier has passed, and no other; the return of a
relaxed wait takes up nothing that other arrivals have released. Completion: under
the premises of its clause on the state and the operands alone, each of `bar`, `bararr`, `barwt`, `gbar`, `barrierRelease` answers a
next state of its own effect. -/
def Obligations.Barriers : Prop :=
  (
    ∀ (s : State), s.Present s.cur.lanes → s.team? s.curTeam.tcx = some s.curTeam →
      let tm := s.curTeam
      let next := fun (b : Barrier) (n want : Nat) (count : Option Nat) =>
        if b.arrived + n = want then (⟨b.gen + 1, 0, none⟩ : Barrier) else ⟨b.gen, b.arrived + n, some count⟩
      (∀ (o : BarOp), s.active o.g ≠ [] →
        (o.rlx = true ∨ s.Settled (s.active o.g) o.stor ∧ s.carriedIn (s.active o.g) o.stor = false) →
        let b := tm.barrier o.id.toNat
        let count := s.barCount o
        let want := count.getD (s.liveLanes tm.tcx)
        (∃ t, exec (.barwt o) s = .next t ∧ s.OnlyStreams t s.cur.lanes ∧ s.LanesBare t o.g fun st =>
          if st.rd o.s1 = b.gen then st.parkAt (.bar o.id.toNat b.gen true o.rlx) else st.goto s.cur.npc) ∧
        ((b.expected = none ∨ b.expected = some count) → b.arrived + (s.active o.g).length ≤ want →
          ∀ i f, (i, f) ∈ [(Instr.bar o, fun (st : Stream) => st.parkAt (.bar o.id.toNat b.gen false o.rlx)),
              (.bararr o, fun st => (st.wr o.d b.gen).goto s.cur.npc)] →
            ∃ t, exec i s = .next t ∧ t = { s with streams := t.streams, teams := t.teams } ∧
              (t.team tm.tcx).barrier o.id.toNat = next b (s.active o.g).length want count ∧
              (∀ k, k ≠ o.id.toNat → (t.team tm.tcx).barrier k = tm.barrier k) ∧
              (∀ x, x ≠ tm.tcx → t.team? x = s.team? x) ∧ s.LanesBare t o.g f)) ∧
      (∀ (g : Guard) (rlx : Bool) (stor : BitVec 5), s.active g ≠ [] →
        (rlx = true ∨ s.Settled (s.active g) stor ∧ s.carriedIn (s.active g) stor = false) → tm.recd.coteam = true →
        let b := sget blankBar s.gbars tm.grid
        let want := ((s.teams.filter fun x => x.grid == tm.grid).map fun x => s.liveLanes x.tcx).sum
        (b.expected = none ∨ b.expected = some none) → b.arrived + (s.active g).length ≤ want →
        ∃ t, exec (.gbar g rlx stor) s = .next t ∧ t = { s with streams := t.streams, gbars := t.gbars } ∧
          sget blankBar t.gbars tm.grid = next b (s.active g).length want none ∧
          (∀ k, k ≠ tm.grid → sget blankBar t.gbars k = sget blankBar s.gbars k) ∧
          s.LanesBare t g fun st => st.parkAt (.gbar b.gen rlx))) ∧
  (
    ∀ (tcx : Nat) (s : State) (id : SId), (s.stream? id).isSome = true →
      (∀ k, ∃ t, exec (.barrierRelease tcx (some k)) s = .next t ∧ t = { s with streams := t.streams } ∧
        (id.tcx ≠ tcx → t.stream id = s.stream id) ∧
        (∀ gen wt rlx, id.tcx = tcx → (s.stream id).park = .bar k gen wt rlx →
          (gen = ((s.team tcx).barrier k).gen → t.stream id = s.stream id) ∧
          (gen ≠ ((s.team tcx).barrier k).gen →
            (t.stream id).bare = ((s.stream id).goto ((s.stream id).pc + 8)).bare ∧
            (rlx = true → t.stream id = (s.stream id).goto ((s.stream id).pc + 8)))) ∧
        ((∀ gen wt rlx, (s.stream id).park ≠ .bar k gen wt rlx) → t.stream id = s.stream id)) ∧
      (∃ t, exec (.barrierRelease tcx none) s = .next t ∧ t = { s with streams := t.streams } ∧
        (id.tcx ≠ tcx → t.stream id = s.stream id) ∧
        (∀ gen rlx, id.tcx = tcx → (s.stream id).park = .gbar gen rlx →
          (gen = (sget blankBar s.gbars (s.team tcx).grid).gen → t.stream id = s.stream id) ∧
          (gen ≠ (sget blankBar s.gbars (s.team tcx).grid).gen →
            (t.stream id).bare = ((s.stream id).goto ((s.stream id).pc + 8)).bare ∧
            (rlx = true → t.stream id = (s.stream id).goto ((s.stream id).pc + 8)))) ∧
        ((∀ gen rlx, (s.stream id).park ≠ .gbar gen rlx) → t.stream id = s.stream id)))

/-- R36 to R38: a write to LP_SUBMIT of an enabled port enters its FIFO of 16, a write that does not fit sets OVERFLOW, one that is
malformed BAD_WRITE; LP_CONFIG is written through the physical function only; LP_STATUS clears what is written 1. R38, R39, R41,
R373: Loom takes the head of a port that the round has not served; `launch` parks its lanes and submits the record at the address of
the lowest lane; a rejected record's word goes to the port or to D of the lanes, after ERROR in its DONE_CTR where the copy of the
record names a legal one (R40), an accepted one enters the tail of its level with 0 there. LP_GRAPH_SRC is stored as written
whatever its class and alignment, which are tested when an install reads it: the model's choice (log entry 89). Completion: under
the premises of its clause on the state and the operands alone, each of `launch`, `lpSubmit`, `lpConfig`, `registerWrite`,
`loomTakeSubmission` answers a next state of its own effect. -/
def Obligations.PortsAndSubmissions : Prop :=
  (
    ∀ (s : State) (fn n : Nat) (v : DWord), fn ≤ 64 → n < 64 → (s.fn fn).v = true → s.fw.recovery = false →
      let p := s.port fn n
      (p.enable = true → v.toNat % 256 = 0 →
        (p.fifo.length < 16 → ∃ t, exec (.lpSubmit fn n 8 v) s = .next t ∧ s.OnePort t fn n { p with fifo := p.fifo ++ [v] }) ∧
        (16 ≤ p.fifo.length → p.irqEn = false →
          ∃ t, exec (.lpSubmit fn n 8 v) s = .next t ∧ s.OnePort t fn n { p with overflow := true })) ∧
      (∀ size, size ≠ 8 ∨ p.enable = false ∨ v.toNat % 256 ≠ 0 →
        ∃ t, exec (.lpSubmit fn n size v) s = .next t ∧ s.OnePort t fn n { p with badWrite := true }) ∧
      (s.ownsAsid fn (v.toNat % 2 ^ 16) = true → ∃ t, exec (.lpConfig 0 fn n 8 v) s = .next t ∧
        s.OnePort t fn n { p with
          asid := v.extractLsb' 0 16, enable := v.getLsbD 16, vector := v.toNat / 2 ^ 17 % 2048, irqEn := v.getLsbD 28 }) ∧
      (fn ≠ 0 → ∃ t, exec (.lpConfig fn fn n 8 v) s = .next t ∧ s.OnePort t fn n { p with badWrite := true }) ∧
      (∃ t, exec (.registerWrite ⟨fn, 2, 64 * n + 8, 8, v⟩) s = .next t ∧
        s.OnePort t fn n { p with
          refused := p.refused && !v.getLsbD 59, overflow := p.overflow && !v.getLsbD 58, badWrite := p.badWrite && !v.getLsbD 57 }) ∧
      (∃ t, exec (.registerWrite ⟨fn, 2, 64 * n + 16, 8, v⟩) s = .next t ∧ s.OnePort t fn n { p with graphSrc := v })) ∧
  (
    (∀ (s : State) (fn n : Nat), fn ≤ 64 → n < 64 → s.fw.recovery = false → s.portReady (64 * fn + n) = true →
      64 * fn + n ∉ s.loom.served →
      ∃ t : State, exec (.loomTakeSubmission fn n) s =
          .next (t.submit fn (s.port fn n).asid ((s.port fn n).fifo.headD 0) ((s.port fn n).fifo.headD 0) (.port fn n)) ∧
        t = { s with loom := { s.loom with ports := t.loom.ports, served := nins s.loom.served (64 * fn + n) } } ∧
        t.port fn n = { s.port fn n with fifo := (s.port fn n).fifo.tail }) ∧
    (∀ (g : Guard) (d s1 : Reg) (s : State) (low : SId) (rest : List SId), s.active g = low :: rest → s.Present s.cur.lanes →
      s.nearPending (s.active g) 0b10011 = false → s.vt.migrateMode = false →
      ∃ t : State, exec (.launch g d s1) s =
          .next (t.submit s.curTeam.fn s.curTeam.recd.asid (s.recordAddr (s.stream low) ((s.stream low).rd64 s1))
            ((s.stream low).rd64 s1) (.thread (low :: rest) d)) ∧
        s.OnlyStreams t s.cur.lanes ∧ s.Lanes t g fun st => { st.parkAt (.launch d none) with pc := s.cur.pc }) ∧
    (∀ (s s1 : State) (fn : Nat) (asid : BitVec 16) (a name : DWord) (w : Word),
      ((readLaunch fn asid a).run s = (.error w, s1) ∨
        ∃ bs s2 s3, (readLaunch fn asid a).run s = (.ok bs, s2) ∧ (launchOf fn asid a true bs).run s2 = (.error w, s3) ∧
          s1 = match doneCtrOf bs with
            | none => s3
            | some c => s3.bump fn asid c 0 true) →
      (∀ n, (s1.port fn n).irqEn = false → s1.OnePort (s.submit fn asid a name (.port fn n)) fn n
        { s1.port fn n with lastReject := w, readCount := ((s1.port fn n).readCount + 1) % 65536 }) ∧
      (∀ n, s.submit fn asid a name (.node n) = s1.nodeFail n 0 w) ∧
      (∀ id d, s1.Present [id] → (s1.stream id).park = .launch d none →
        s1.OnlyStreams (s.submit fn asid a name (.thread [id] d)) [id] ∧
        (s.submit fn asid a name (.thread [id] d)).stream id = ((s1.stream id).wr d w).goto ((s1.stream id).pc + 8))) ∧
    (∀ (s s0 s1 : State) (fn : Nat) (asid : BitVec 16) (a name : DWord) (bs : List Byte) (info : LaunchInfo),
      (readLaunch fn asid a).run s = (.ok bs, s0) → (launchOf fn asid a true bs).run s0 = (.ok info, s1) →
      info.coll = none → info.recd.coteam = false → s1.levelRoom info.recd.level = true →
      (∀ h ∈ s1.loom.held, h.level ≠ info.recd.level) →
      let enters := fun (t : State) (o : Origin) => t.loom.nextGrid = s1.loom.nextGrid + 1 ∧ t.loom.nextSeq = s1.loom.nextSeq + 1 ∧
        t.loom.grids.length = s1.loom.grids.length + 1 ∧
        ∃ g ∈ t.loom.grids, g.id = s1.loom.nextGrid ∧ g.origin = o ∧ g.fn = fn ∧ g.recd = { info.recd with addr := name } ∧
          g.level = info.recd.level ∧ g.seq = s1.loom.nextSeq ∧ g.next = 0 ∧ g.retired = 0 ∧ g.failed = none ∧ g.inst = none
      (∀ n, enters (s.submit fn asid a name (.port fn n)) (.port fn n) ∧
        ((s.submit fn asid a name (.port fn n)).port fn n).lastReject = 0) ∧
      (∀ n, enters (s.submit fn asid a name (.node n)) (.node n)) ∧
      (∀ id d, s1.Present [id] → (s1.stream id).park = .launch d none →
        enters (s.submit fn asid a name (.thread [id] d)) (.thread [id] d) ∧
        (s.submit fn asid a name (.thread [id] d)).stream id = ((s1.stream id).wr d 0).goto ((s1.stream id).pc + 8))))

/-- R41, R43, R64: a held record enters when its level has an entry; a grid rises a level after 10 ms without a team placed, and
reserves placement after 1 ms at the head of level 3; a grid whose turn it is has its next team placed on the chosen core, under the
lowest free TCX, and the position of the round robin moves on, where no team has been placed or has retired in this core cycle (R60,
log entry 26). That the 10 ms of a promotion start again with each team placed and each level reached is the model's choice (log
entry 71). Completion: under the premises of its clause on the state and the operands alone, each of `heldRecordEnter`, `gridPromote`,
`gridReserve`, `placeTeam` answers a next state of its own effect. -/
def Obligations.ReadyPoolAndPlacement : Prop :=
  (∀ (s : State) (l : Nat) (g : Grid), s.loom.held.find? (fun h => decide (h.level = l)) = some g → s.levelRoom l = true →
    ∃ t, exec (.heldRecordEnter l) s = .next t ∧ t.loom.held = (s.loom.held.filter fun h => h.id ≠ g.id) ∧
      t.loom.nextSeq = s.loom.nextSeq + 1 ∧ t.loom.grids.length = s.loom.grids.length + 1 ∧
      ∃ h ∈ t.loom.grids, h = { g with seq := s.loom.nextSeq, since := s.clock.gtsQ, head := h.head }) ∧
  (∀ (s : State) (k : Nat) (g : Grid), s.grid? k = some g →
    (g.next < g.recd.teams → g.level < 3 → g.since + 4 * 10000000 ≤ s.clock.gtsQ → s.levelRoom (g.level + 1) = true →
      ∃ t, exec (.gridPromote k) s = .next t ∧
        t = { s with loom := { s.loom with grids := t.loom.grids, nextSeq := s.loom.nextSeq + 1 } } ∧
        ∃ h, t.grid? k = some { g with level := g.level + 1, seq := s.loom.nextSeq, since := s.clock.gtsQ, head := h }) ∧
    (s.clock.gtsQ < g.since + 4 * 10000000 → exec (.gridPromote k) s = .next s) ∧
    (∀ since, g.head = some since → g.level = 3 → g.next < g.recd.teams → since + 4 * 1000000 ≤ s.clock.gtsQ →
      ∃ t, exec (.gridReserve k) s = .next t ∧ t = { s with loom := { s.loom with grids := t.loom.grids } } ∧
        t.grid? k = some { g with reserved := true }) ∧
    (∀ since, g.head = some since → s.clock.gtsQ < since + 4 * 1000000 → exec (.gridReserve k) s = .next s) ∧
    (∀ core, s.fw.recovery = false → s.itsTurn g = true → s.choose g = some core → s.loom.placed ≠ some s.clock.cycles →
      s.loom.retired ≠ some s.clock.cycles →
      ∃ t tm, exec (.placeTeam k) s = .next t ∧ t.teams = s.teams ++ [tm] ∧
        tm.grid = g.id ∧ tm.fn = g.fn ∧ tm.recd = g.recd ∧ tm.core = core ∧ tm.ended = none ∧
        tm.tx = g.next % g.recd.gridX ∧ tm.ty = g.next / g.recd.gridX % g.recd.gridY ∧
        tm.tz = g.next / (g.recd.gridX * g.recd.gridY) ∧
        s.team? tm.tcx = none ∧ (∀ n, n < tm.tcx → (s.team? n).isSome = true) ∧
        (∃ h, t.grid? k = some { g with
          next := g.next + 1, pos := (core + (if g.recd.paired then 2 else 1)) % 192, since := s.clock.gtsQ, head := h
          reserved := false }) ∧
        (∀ a, a < g.recd.vaultKib * 1024 → memRead t.mem (vaultKey + tm.vaultBase.toNat + a) = 0) ∧
        (g.recd.coteam = false → ∀ i, i < g.recd.teamX * g.recd.teamY * g.recd.teamZ →
          ∃ st ∈ t.streams, st = newStream ⟨tm.tcx, .lane, i⟩ g.recd.kernelPc (s.fn g.fn).defVec s.clock.cycles)))

/-- R405, R418, R420, R429, R430: what ends a team, what its end leaves, its retirement and that of its grid: DONE_CTR takes the
completion, with ERROR where a team has been ended, then the parent node and the node that the grid is an instance of take theirs.
Completion: under the premises of its clause on the state and the operands alone, each of `teamEnd`, `teamRetire`, `gridRetire`,
`watchdogExpire`, `coreUncorrectable` answers a next state of its own effect. -/
def Obligations.TeamsAndGridsRetire : Prop :=
  (∀ (s : State) (x : Nat) (tm : Team), s.team? x = some tm → tm.ended = none →
    (∃ t, exec (.coreUncorrectable x) s = .next t ∧ t = { s with teams := t.teams } ∧
      t.team? x = some { tm with ended := some 0x30, endedAt := s.gts }) ∧
    (∀ st ∈ s.streams, (s.fn tm.fn).wdog ≠ 0 → tm.shadow = false → tm.image = none → st.id.tcx = x → st.exited = false →
      (st.park ≠ .none ∨ st.stall ≠ none) → tm.lastIssue + (s.fn tm.fn).wdog.toNat * 1000000 ≤ s.gts →
      ∃ t, exec (.watchdogExpire x) s = .next t ∧ t = { s with teams := t.teams } ∧
        t.team? x = some { tm with ended := some 0x60, endedAt := s.gts }) ∧
    (s.gts < tm.lastIssue + (s.fn tm.fn).wdog.toNat * 1000000 ∨ (s.fn tm.fn).wdog = 0 → exec (.watchdogExpire x) s = .next s)) ∧
  (∀ (s : State) (x : Nat) (tm : Team) (cause : BitVec 8), s.team? x = some tm → tm.ended = some cause →
    tm.cleaned = false → (∀ c ∈ s.dr.copies, c.tcx = x → c.final = true) →
    (∀ g, s.grid? tm.grid = some g → g.inst = none) →
    ∃ t, exec (.teamEnd x cause) s = .next t ∧ (∃ tm', t.team? x = some tm' ∧ tm'.cleaned = true) ∧
      t.streams.map (·.id) = (s.streams.filter fun st => st.id.tcx ≠ x).map (·.id) ∧
      (tm.recd.vaultKib = 0 ∨ s.vt.waiters = [] → t.streams = s.streams.filter fun st => st.id.tcx ≠ x) ∧
      (∀ g, s.grid? tm.grid = some g →
        let first := g.failed = none ∨ tm.endedAt < g.failedAt.1 ∨ tm.endedAt = g.failedAt.1 ∧ tm.core < g.failedAt.2
        (first → t.grid? tm.grid = some { g with failed := some cause, failedAt := (tm.endedAt, tm.core) }) ∧
        (¬first → t.grid? tm.grid = some g)) ∧
      (tm.recd.vaultKib = 0 ∨ s.vt.waiters = [] → ∀ k ∈ tm.queueKeys, (t.queue k).entries = []) ∧
      (∀ a, a < tm.recd.vaultKib * 1024 → memRead t.mem (vaultKey + tm.vaultBase.toNat + a) = 0)) ∧
  (∀ (s : State) (x : Nat) (tm : Team), s.team? x = some tm → s.mayRetire tm = true → s.vt.migrateMode = false →
    (∀ g, s.grid? tm.grid = some g → g.inst = none) →
    ∃ t, exec (.teamRetire x) s = .next t ∧ t.teams = (s.teams.filter fun y => y.tcx ≠ x) ∧
      (tm.ended = none ∨ tm.recd.vaultKib = 0 → t.mem = s.mem) ∧
      (tm.ended = none ∨ tm.recd.vaultKib = 0 ∨ s.vt.waiters = [] → t.streams = s.streams.filter fun st => st.id.tcx ≠ x) ∧
      (tm.ended.isSome = true → ∀ a, a < tm.recd.vaultKib * 1024 → memRead t.mem (vaultKey + tm.vaultBase.toNat + a) = 0) ∧
      ∀ g, s.grid? tm.grid = some g → t.grid? tm.grid = some { g with retired := g.retired + 1 }) ∧
  (∀ (s : State) (k : Nat) (g : Grid), s.grid? k = some g → g.recd.teams ≤ g.next → g.recd.teams ≤ g.retired →
    let q := if g.recd.doneCtr = 0 then s else s.bump g.fn g.recd.asid g.recd.doneCtr 1 g.failed.isSome
    let ends := fun (r t : State) => t.loom.grids = (r.loom.grids.filter fun h => h.id ≠ k) ∧ sget blankBar t.gbars k = blankBar ∧
      t = { r with loom := { r.loom with grids := t.loom.grids }, gbars := t.gbars }
    ((∀ n, g.origin ≠ .node n) → ∃ r t, exec (.gridRetire k) s = .next t ∧ ends r t ∧
      (g.recd.parent.bind q.node? = none → r = q) ∧
      (∀ p, g.recd.parent.bind q.node? = some p → g.failed = none →
        r = { q with loom := { q.loom with completions := q.loom.completions ++ [p.idx] } }) ∧
      (∀ p c, g.recd.parent.bind q.node? = some p → g.failed = some c → r = q.graphFault p c 0)) ∧
    (∀ n x, g.origin = .node n → g.recd.parent = none → q.node? n = some x → ∃ r t, exec (.gridRetire k) s = .next t ∧ ends r t ∧
      r.node? n = some { x with running := false, runs := x.runs - 1 } ∧
      (g.failed = none → r.loom.completions = q.loom.completions ++ x.succ ∧
        r = { q with loom := { q.loom with nodes := r.loom.nodes, completions := r.loom.completions } }) ∧
      (∀ c, g.failed = some c → r.loom.completions = q.loom.completions ∧
        ((r.port x.fn x.port).gValid = true ∧ (r.port x.fn x.port).gCause = c ∧ (r.port x.fn x.port).gReject = 0 ∧
          (r.port x.fn x.port).gNode = x.idx))))

/-- R47, R48, R374: the operations of LP_GRAPH_CTL on an installing port, the end of a removal, and the completions and starts that
`gpost`, `gpost.start` and Loom count. R49, R50: an instance of a ready node: a node of types 4 and 5 completes to the first
successor where its word is not zero and to the second where it is, a type 6 waits for its counter to reach ARG or to show ERROR, a
type 7 sends its message, a type 8 ends; a KERNEL node (type 1) enters the grid of its launch record, a COPY node (type 2) is a copy
with its operands, a COLLECTIVE node (type 3) opens an instance of its descriptor; where the record, a map or the descriptor is
rejected, the instance fails with that word. How a completion counts at a node with no predecessors (`Node.counted`) is the model's
choice (log entry 109), and so is that the cause of a type 6 failed by ERROR is a free value (log entry 12). Completion: under the
premises of its clause on the state and the operands alone, each of `gpost`, `gpostStart`, `lpGraphInstall`, `lpGraphRemove`,
`lpGraphStart`, `graphRemoveComplete`, `nodeCompletion`, `nodeInstanceRun`, `waitctrSatisfied` answers a next state of its own
effect. -/
def Obligations.GraphNodes : Prop :=
  (
    (∀ (s : State) (o : GraphOp), o.fn ≤ 64 → o.port < 64 → (s.fn o.fn).v = true → s.fw.recovery = false → o.size = 8 →
      (s.port o.fn o.port).enable = true → (s.port o.fn o.port).busy = false → o.first.toNat + o.count.toNat ≤ 65536 →
      let p := s.port o.fn o.port
      let regs := fun (op : Nat) (busy : Bool) => { p with op := op, busy := busy, count := o.count.toNat, first := o.first.toNat }
      (∀ ns s1, (s.graphRegs o 0 false).readNodes o.fn o.port p.asid p.graphSrc o.first.toNat
          (fun i => graphRange o i || s.ownsNode p.asid i) (List.range o.count.toNat) = (.ok ns, s1) →
        exec (.lpGraphInstall o) s = .next { s1 with loom := { s1.loom with nodes := s1.loom.nodes ++ ns } }) ∧
      (∃ t, exec (.lpGraphRemove o) s = .next t ∧ t = { s with loom := { s.loom with ports := t.loom.ports, nodes := t.loom.nodes } } ∧
        t.port o.fn o.port = { regs 2 true with gAsid := p.asid } ∧ t.loom.nodes = s.loom.nodes.map fun n =>
          if o.first.toNat ≤ n.idx ∧ n.idx < o.first.toNat + o.count.toNat ∧ n.asid = p.asid then { n with removing := true } else n) ∧
      (∀ n, o.count = 0 → s.node? o.first.toNat = some n → n.asid = p.asid → n.removing = false → n.runs < 255 →
        ∃ t, exec (.lpGraphStart o) s = .next t ∧
          t = { s with loom := { s.loom with ports := t.loom.ports, nodes := t.loom.nodes } } ∧
          t.port o.fn o.port = regs 0 false ∧ t.node? n.idx = some { n with runs := n.runs + 1 })) ∧
    (∀ (s : State) (fn port : Nat), (s.port fn port).busy = true → (s.port fn port).op = 2 →
      let p := s.port fn port
      let mine := fun (n : Node) => n.removing = true ∧ n.asid = p.gAsid ∧ p.first ≤ n.idx ∧ n.idx < p.first + p.count
      (∀ n ∈ s.loom.nodes, mine n → n.running = false) →
      ∃ t, exec (.graphRemoveComplete fn port) s = .next t ∧
        t = { s with loom := { s.loom with ports := t.loom.ports, nodes := t.loom.nodes } } ∧
        (∀ n, n ∈ t.loom.nodes ↔ n ∈ s.loom.nodes ∧ ¬mine n) ∧ t.port fn port = { p with busy := false, op := 0 }) ∧
    (∀ (s : State) (k : Nat) (n : Node), k ∈ s.loom.completions → s.node? k = some n → n.removing = false → n.runs < 255 →
      ∃ t, exec (.nodeCompletion k) s = .next t ∧
        { s with loom := { s.loom with completions := s.loom.completions.erase k } }.OneNode t n.counted) ∧
    (∀ (i : Instr) (start : Bool) (g : Guard) (d s1 : Reg) (s : State) (low : SId) (rest : List SId),
      (i, start) ∈ [(Instr.gpost g d s1, false), (.gpostStart g d s1, true)] → s.active g = low :: rest →
      s.nearPending (s.active g) 0b11111 = false → s.vt.migrateMode = false →
      let k := ((s.stream low).rd s1).toNat
      (s.node? k = none ∨ (∃ n, s.node? k = some n ∧ n.asid ≠ s.curTeam.recd.asid) →
        exec i s = .next (s.completed g fun st => st.wr d 1)) ∧
      (∀ n, s.node? k = some n → n.asid = s.curTeam.recd.asid →
        (n.removing = true → exec i s = .next (s.completed g fun st => st.wr d 2)) ∧
        (n.removing = false → n.runs < 255 →
          ∃ t, s.OneNode t (if start then { n with runs := n.runs + 1 } else n.counted) ∧
            exec i s = .next (t.completed g fun st => st.wr d 0))))) ∧
  (
    ∀ (s : State) (k : Nat) (n : Node), s.node? k = some n →
      (0 < n.runs → n.running = false → n.removing = false → s.fw.recovery = false → (n.typ ≠ 1 → s.levelRoom 1 = true) →
        let s1 := s.onNode k fun x => { x with running := true }
        let ended := { n with running := false, runs := n.runs - 1 }
        let id : CopyId := ⟨nodeCore, k⟩
        (∀ w s2, n.typ = 1 → (readLaunch n.fn n.asid n.payload).run s1 = (.error w, s2) →
          exec (.nodeInstanceRun k) s = .next (s2.nodeFail k 0 w)) ∧
        (∀ bs info rs s2 s3 s4, n.typ = 1 → (readLaunch n.fn n.asid n.payload).run s1 = (.ok bs, s2) →
          (launchOf n.fn n.asid n.payload true bs).run s2 = (.ok info, s3) →
          (n.affinity = 0 ∧ rs = info.regions ∧ s4 = s3 ∨
            n.affinity ≠ 0 ∧ (checkAffinity n.fn n.asid n.affinity kNode 0x28).run s3 = (.ok rs, s4)) →
          info.coll = none → info.recd.coteam = false → s4.levelRoom info.recd.level = true →
          (∀ h ∈ s4.loom.held, h.level ≠ info.recd.level) →
          ∃ t, exec (.nodeInstanceRun k) s = .next t ∧ t.node? k = s4.node? k ∧ t.loom.grids.length = s4.loom.grids.length + 1 ∧
            ∃ g ∈ t.loom.grids, g.id = s4.loom.nextGrid ∧ g.origin = .node k ∧ g.fn = n.fn ∧
              g.recd = { info.recd with addr := n.payload } ∧ g.scores = s4.affinity n.fn n.asid rs ∧ g.level = info.recd.level ∧
              g.next = 0 ∧ g.retired = 0 ∧ g.failed = none) ∧
        (n.typ = 2 → n.arg.getLsbD 63 = false → (n.arg.extractLsb' 0 40).toNat ≠ 0 → n.aux.toNat < 2 ^ 57 →
          s.stream? ⟨65536, .control, k⟩ = none →
          ∃ t c, exec (.nodeInstanceRun k) s = .next t ∧ t = { s1 with dr := t.dr, nextOp := s.nextOp + 1 } ∧
            t.copy? id = some c ∧ c.kind = .bytes n.payload ∧ c.dst = n.aux ∧ c.len = (n.arg.extractLsb' 0 40).toNat ∧
            c.fn = n.fn ∧ c.asid = n.asid ∧ c.state = 0 ∧ c.moved = 0 ∧ ∀ x, x ≠ id → t.copy? x = s.copy? x) ∧
        (∀ sm dm s2 s3, n.typ = 2 → n.arg.getLsbD 63 = true → (readMap n.fn n.asid n.payload).run s1 = (sm, s2) →
          (readMap n.fn n.asid n.aux).run s2 = (dm, s3) →
          (∀ w s4, (checkMaps sm dm).run s3 = (.error w, s4) → exec (.nodeInstanceRun k) s = .next (s4.nodeFail k 0 w)) ∧
          (∀ d m s4, (checkMaps sm dm).run s3 = (.ok (d, m), s4) → d.elems * d.elem ≠ 0 →
            ∃ t c, exec (.nodeInstanceRun k) s = .next t ∧ t.copy? id = some c ∧ t.mem = s4.mem ∧ t.loom = s4.loom ∧
              c.kind = .tensor d m (d.box.map fun _ => 0) (m.box.map fun _ => 0) ∧ c.dst = d.base ∧ c.len = d.elems * d.elem ∧
              c.fn = n.fn ∧ c.asid = n.asid ∧ c.state = 0 ∧ c.moved = 0)) ∧
        (n.typ = 3 → (s1.instOf n.asid n.payload).isSome = true →
          exec (.nodeInstanceRun k) s = .next (s1.nodeFail k cIllegalOperand 0)) ∧
        (n.typ = 3 → s1.instOf n.asid n.payload = none →
          (∀ w s2, (checkColl n.fn n.asid n.payload true).run s1 = (.error w, s2) →
            exec (.nodeInstanceRun k) s = .next (s2.nodeFail k 0 w)) ∧
          (∀ d s2, (checkColl n.fn n.asid n.payload true).run s1 = (.ok d, s2) →
            exec (.nodeInstanceRun k) s =
              .next ((s2.openInst n.fn n.asid n.payload d none (some k) false).fireAll s2.co.nextNum))) ∧
        (∀ (t : State) (cause : BitVec 8) (w : Word), t.node? k = some n →
          let u := t.nodeFail k cause w
          u.node? k = some ended ∧ u.loom.completions = t.loom.completions ∧ (u.port n.fn n.port).gValid = true ∧
            (u.port n.fn n.port).gCause = cause ∧ (u.port n.fn n.port).gReject = w ∧ (u.port n.fn n.port).gNode = k) ∧
        (n.typ = 8 → ∃ t, exec (.nodeInstanceRun k) s = .next t ∧
          t = { s with loom := { s.loom with nodes := t.loom.nodes, completions := s.loom.completions ++ n.succ } } ∧ t.node? k = some ended) ∧
        (∀ w s2, (n.typ = 4 ∨ n.typ = 5) → s1.nodeWord n.fn n.asid n.aux = (.ok w, s2) →
          exec (.nodeInstanceRun k) s = .next (s2.nodeDone k [n.succ.getD (if w = 0 then 1 else 0) 0])) ∧
        (n.typ = 6 → ∃ t, exec (.nodeInstanceRun k) s = .next t ∧ s.OneNode t { n with running := true }) ∧
        (n.typ = 7 → n.payload = 0 → ∃ t, exec (.nodeInstanceRun k) s = .next t ∧ t.node? k = some ended ∧
          t.loom.completions = s.loom.completions ++ n.succ ∧ t.outbox = (s.sendMsix n.fn (n.aux.toNat % 2048)).outbox)) ∧
      (∀ w s1, n.typ = 6 → n.running = true → s.nodeWord n.fn n.asid n.aux = (.ok w, s1) →
        (w.msb = false → n.arg.toNat % 2 ^ 31 ≤ w.toNat → exec (.waitctrSatisfied k) s = .next (s1.nodeOk k)) ∧
        (w.msb = false → w.toNat < n.arg.toNat % 2 ^ 31 → exec (.waitctrSatisfied k) s = .next s1) ∧
        (w.msb = true → ∃ t v, exec (.waitctrSatisfied k) s = .next t ∧ t = { (s1.nodeFail k v 0) with free := s1.free + 1 })) ∧
      (∀ (t : State), t.node? k = some n → ∀ succ, (t.nodeDone k succ).node? k = some { n with running := false, runs := n.runs - 1 } ∧
        (t.nodeDone k succ).loom.completions = t.loom.completions ++ succ))

/-- R433, R431, R442: FN_CFG_n takes a write that keeps every rule of R433 and discards every other whole; unmasking a vector sends
its pending message; an event record waits for the others of its nanosecond, which go out at its end in the order of their sources
(R12, log entry 110): to their places in the ring, held while the link is down, or discarded and counted; a record that is discarded
uses up a SEQ and leaves EVT_HEAD as it was (log entry 120). R330, R362, R419, R434, R435: the links: the loss of the host link fails
every host read that is outstanding, and is counted and shown; its return sends what was held, then notes LINK_UP, except at the first
rise after reset, which is the model's reading (log entry 85); a port of UALink and the CXL link go down and up; a CXL access is
answered, or times out with LINK_LOST. Completion: under the premises of its clause on the state and the operands alone, each of
`fnCfgWrite`, `ualinkPortDown`, `hostLinkLoss`, `hostLinkUp`, `cxlCompletion`, `cxlTimeout`, `msixUnmask`, `eventRecord`,
`ualinkPortUp`, `cxlLinkDown`, `cxlLinkUp` answers a next state of its own effect. -/
def Obligations.FunctionsEventsAndLinks : Prop :=
  (
    (∀ (s : State) (n : Nat) (v : DWord), n ≤ 64 → n ≠ 0 → s.fw.recovery = false →
      let first := v.toNat % 2 ^ 16
      let last := v.toNat / 2 ^ 16 % 2 ^ 16
      let others := (List.range 65).filter fun m => m != n && (s.fn m).v
      let apart := ∀ m ∈ others, (s.fn m).last.toNat < first ∨ last < (s.fn m).first.toNat
      let vectors := (others.map fun m => (s.fn m).msix + 1).sum + (if v.msb then v.toNat / 2 ^ 49 % 2048 + 1 else 0)
      (first ≤ last → apart → vectors ≤ 2048 → ∃ t, exec (.fnCfgWrite n v) s = .next t ∧ t = { s with fns := t.fns } ∧
        (∀ m, m ≠ n → t.fn m = s.fn m) ∧
        t.fn n = { s.fn n with
          v := v.msb, atomic := v.getLsbD 62, msix := v.toNat / 2 ^ 49 % 2048, first := BitVec.ofNat 16 first
          last := BitVec.ofNat 16 last, privAsid := v.extractLsb' 32 16
          privV := v.getLsbD 48 && decide (first ≤ (v.extractLsb' 32 16).toNat) && decide ((v.extractLsb' 32 16).toNat ≤ last) }) ∧
      (last < first ∨ ¬apart ∨ 2048 < vectors → exec (.fnCfgWrite n v) s = .next s)) ∧
    (∀ (s : State) (fn vector : Nat), fn ≤ 64 → (s.fn fn).v = true → vector ≤ (s.fn fn).msix →
      let k := 2048 * fn + vector
      ∃ t, exec (.msixUnmask fn vector) s = .next t ∧
        t.outbox = (if k ∈ s.hif.pending ∧ s.links.hostUp = true then s.outbox ++ [.msix fn vector] else s.outbox) ∧
        k ∉ t.hif.pending ∧ k ∈ t.hif.unmasked) ∧
    (∀ (s : State) (event : BitVec 8) (source : BitVec 16) (detail : DWord),
      let e : EvRec := ⟨s.gts, event, source, detail⟩
      let size := 2 ^ (s.hif.evtCtl.toNat % 16 + 6)
      let nextSeq := (s.hif.evtSeq + 1) % 2 ^ 32
      (eventSource source.toNat = true →
        exec (.eventRecord event source detail) s = .next { s with hif := { s.hif with fresh := insertEvent e s.hif.fresh } }) ∧
      (eventSource source.toNat = false → exec (.eventRecord event source detail) s = .next s) ∧
      (∀ x, x.gts = e.gts → insertEvent e [x] = if source.toNat < x.source.toNat then [e, x] else [x, e]) ∧
      (s.agenda = [] → s.clock.gtsQ % 4 ≠ 3 → ∃ t, step s = .next t ∧ t.hif = s.hif ∧ t.mem = s.mem) ∧
      (s.agenda = [] → s.clock.gtsQ % 4 = 3 → s.hif.fresh = [e] →
        let s0 : State := { s with hif := { s.hif with fresh := [] } }
        ∃ t, step s = .next t ∧ t.hif = (s0.putEvent e).hif ∧ t.mem = (s0.putEvent e).mem ∧ t.links = (s0.putEvent e).links) ∧
      (s.links.hostUp = false → s.hif.held.length < 256 → s.putEvent e = { s with hif := { s.hif with held := s.hif.held ++ [e] } }) ∧
      (s.links.hostUp = false → s.hif.held.length = 256 →
        s.putEvent e = { s with hif := { s.hif with held := s.hif.held.tail ++ [e], evtSeq := nextSeq } }) ∧
      (s.links.hostUp = true →
        (s.hif.evtCtl.getLsbD 31 = false ∨ (s.hif.evtHead + 2 ^ 32 - s.hif.evtTail) % 2 ^ 32 = size) →
        s.putEvent e = { s with
          links := { s.links with discarded := min (s.links.discarded + 1) (2 ^ 32 - 1) }, hif := { s.hif with evtSeq := nextSeq } }) ∧
      (s.links.hostUp = true → s.hif.evtCtl.getLsbD 31 = true → (s.hif.evtHead + 2 ^ 32 - s.hif.evtTail) % 2 ^ 32 ≠ size →
        (s.putEvent e).hif.evtHead = (s.hif.evtHead + 1) % 2 ^ 32 ∧ (s.putEvent e).hif.evtSeq = nextSeq ∧
          Stored s.mem (s.putEvent e).mem (hostByte ((s.hif.evtBase.toNat + 32 * (s.hif.evtHead % size)) % 2 ^ 64))
            (bytesOfNat 8 s.gts ++ bytesOfNat 2 source.toNat ++ bytesOfNat 1 event.toNat ++ bytesOfNat 1 0 ++
              bytesOfNat 4 (s.hif.evtSeq % 2 ^ 32) ++ bytesOfNat 8 detail.toNat ++ bytesOfNat 8 0)))) ∧
  (
    (∀ s : State, s.links.hostUp = true → (∀ c ∈ s.dr.copies, c.going = false) →
      let lost := fun (o : MemOp) => o.loc.space == .host && !o.loc.cxl && o.reads
      (∀ o ∈ s.ops, lost o = true → ((∃ sx, o.kind = .load sx) ∨ ∃ op ret, o.kind = .rmw op ret) ∧ o.entry = none) →
      ∃ t, exec .hostLinkLoss s = .next t ∧ t = { s with
          streams := t.streams, ops := t.ops
          links := { s.links with hostUp := false, losses := (s.links.losses + 1) % 65536 }
          hif := { s.hif with lost := true, fresh := insertEvent ⟨s.gts, 4, 0x500, 0⟩ s.hif.fresh } } ∧
        (∀ o ∈ s.ops, lost o = true → t.op? o.num = none) ∧ (∀ o ∈ t.ops, o ∈ s.ops) ∧
        (∀ o ∈ s.ops, o.isFence = false → (∀ x ∈ s.ops, lost x = true → x.num ≠ o.num) → o ∈ t.ops) ∧
        ((∀ o ∈ s.ops, lost o = false) → t.streams = s.streams ∧ t.ops = s.ops) ∧
        (∀ o l, s.ops.filter lost = [o] → o.lanes = [l] → o.kind = .load false → o.size = 4 → o.d ≠ 0 →
          s.Present [l.sid] → (s.stream l.sid).window = none →
          (∀ id, id ≠ l.sid → t.stream? id = s.stream? id) ∧
          (t.stream l.sid).bare = { ((s.stream l.sid).wr o.d 0xFFFFFFFF) with
            slots := (s.stream l.sid).slots.record o.counter ⟨0x23, 0⟩, cnt := (s.stream l.sid).cnt.dec o.counter }.bare)) ∧
    (∀ s : State, s.links.hostUp = false →
      let s1 : State := { s with links := { s.links with hostUp := true, wasUp := true }, hif := { s.hif with held := [] } }
      let s2 := s.hif.held.foldl State.putEvent s1
      let used := (s.hif.evtHead + 2 ^ 32 - s.hif.evtTail) % 2 ^ 32
      ∃ t, exec .hostLinkUp s = .next t ∧ t = { s2 with hif := { s2.hif with fresh := t.hif.fresh } } ∧ t.hif.held = [] ∧
        t.hif.fresh = (if s.links.wasUp then insertEvent ⟨s.gts, 5, 0x500, 0⟩ s.hif.fresh else s.hif.fresh) ∧
        (s.hif.evtCtl.getLsbD 31 = true → s.hif.evtHead < 2 ^ 32 → s.hif.evtTail < 2 ^ 32 →
          used + s.hif.held.length ≤ 2 ^ (s.hif.evtCtl.toNat % 16 + 6) →
          t.hif.evtHead = (s.hif.evtHead + s.hif.held.length) % 2 ^ 32)) ∧
    (∀ (s : State) (p : Nat), exec (.ualinkPortUp p) s = .next { s with links := { s.links with ports := s.links.ports.set p true } }) ∧
    (∀ (s : State) (p k : Nat), k ≠ p → s.links.ports[k]? = some true → (∀ o ∈ s.ops, o.loc.space ≠ .pod) →
      exec (.ualinkPortDown p) s = .next { s with links := { s.links with ports := s.links.ports.set p false } }) ∧
    (∀ (s : State) (p q n : Nat) (o : MemOp) (sx : Bool) (t0 tries : Nat), s.ops = [o] → o.num = n → o.kind = .load sx →
      o.loc.space = .pod → o.phase = .sent t0 tries (some p) →
      let s1 : State := { s with links := { s.links with ports := s.links.ports.set p false } }
      s1.podPort o = some q → s1.links.anyPort = true →
      exec (.ualinkPortDown p) s = .next { s1 with ops := [{ o with phase := .sent t0 tries (some q) }] }) ∧
    (∀ (s : State) (p r n : Nat) (o : MemOp) (t0 tries : Nat), s.ops = [o] → o.num = n → o.phase = .sent t0 tries (some r) → r ≠ p →
      (s.links.ports.set p false).any id = true →
      exec (.ualinkPortDown p) s = .next { s with links := { s.links with ports := s.links.ports.set p false } }) ∧
    (∀ (s : State) (p n : Nat) (o : MemOp) (l : OpLane) (t0 tries : Nat), s.ops = [o] → o.num = n → o.kind = .rmw .add false →
      o.loc.space = .pod → o.phase = .sent t0 tries (some p) → o.lanes = [l] → s.Present [l.sid] →
      (s.links.ports.set p false).any id = true →
      ∃ t, exec (.ualinkPortDown p) s = .next t ∧ t.ops = [] ∧
        (t.stream l.sid).bare = { s.stream l.sid with
          slots := (s.stream l.sid).slots.record o.counter ⟨0x22, 0⟩, cnt := (s.stream l.sid).cnt.dec o.counter }.bare) ∧
    (∀ s : State, exec .cxlLinkDown s = .next { s with links := { s.links with cxlUp := false } } ∧
      exec .cxlLinkUp s = .next { s with links := { s.links with cxlUp := true } }) ∧
    (∀ (s : State) (n : Nat) (o : MemOp) (l : OpLane) (t0 tries : Nat) (port : Option Nat), s.op? n = some o → o.kind = .load false →
      o.phase = .sent t0 tries port → o.loc.cxl = true → o.lanes = [l] → o.entry = none → s.Present [l.sid] → o.size = 4 → o.d ≠ 0 →
      (s.stream l.sid).window = none →
      (s.links.cxlUp = true → o.loc.space = .host → s.mayPerform o = true → s.cache? o.loc.vcid = none → s.poisoned o.loc.key 4 = false →
        s.gts ≤ t0 + (s.hif.cxlTimeout + 1) * 1000000 →
        ∃ t, exec (.cxlCompletion n) s = .next t ∧ t = { s with streams := t.streams, ops := t.ops } ∧ t.op? n = none ∧
          (t.stream l.sid).bare = { ((s.stream l.sid).wr o.d (BitVec.ofNat 32 (natOfBytes (memReadN s.mem o.loc.key 4)))) with
            cnt := (s.stream l.sid).cnt.dec o.counter }.bare) ∧
      (t0 + (s.hif.cxlTimeout + 1) * 1000000 ≤ s.gts →
        ∃ t, exec (.cxlTimeout n) s = .next t ∧ t.op? n = none ∧ t.hif.cxlTimeouts = min (s.hif.cxlTimeouts + 1) 65535 ∧
          (t.stream l.sid).bare = { ((s.stream l.sid).wr o.d 0xFFFFFFFF) with
            slots := (s.stream l.sid).slots.record o.counter ⟨0x23, 0⟩, cnt := (s.stream l.sid).cnt.dec o.counter }.bare) ∧
      (t0 + (s.hif.cxlTimeout + 1) * 1000000 < s.gts → exec (.cxlCompletion n) s = .next s) ∧
      (s.gts < t0 + (s.hif.cxlTimeout + 1) * 1000000 → exec (.cxlTimeout n) s = .next s)))

/-- R438, R439, R440, R445: a unit enters a low-power state when its condition has held for the time of the state and the host's
tolerance and the management port allow it, and not otherwise; a request wakes it; GTS runs on, slewed by at most 100 ppm. R436,
R437, R445: a function-level reset leaves the function no team, grid, node or waiting record and no default handler; that of the
physical function leaves no team and no grid of any function, resumes the cores, and returns the device-level settings and the
caches to what they are at reset; after a device reset the device is as after power-on but for time, the fuse, the firmware image
that a waiting update makes active, the new identity key and the limits of the management port; that the model's own schedule, its
message log and its counter of free values go on is the model's choice (log entry 90). Completion: under the premises of its clause
on the state and the operands alone, each of `ptpSync`, `clkGateEnter`, `retainEnter`, `hbmSrEnter`, `deepEnter`, `powerWake`,
`flr`, `pfFlr`, `deviceReset`, `mgmtFlr`, `powerLimit` answers a next state of its own effect. -/
def Obligations.PowerTimeAndResets : Prop :=
  (
    (∀ (s : State) (c : Nat), c < 48 →
      let may := fun (code latency : Nat) => (∃ tol, s.tolerance = some tol ∧ latency ≤ tol) ∧ code ∉ s.pwr.disabled
      let long := fun (unit ns : Nat) => sget 0 s.pwr.busy unit + 4 * ns ≤ s.clock.gtsQ
      (s.clusterIdle c = true → long c 1000 → may 1 2000 →
        ∃ t, exec (.clkGateEnter c) s = .next t ∧ t.pwr = { s.pwr with gated := nins s.pwr.gated c } ∧ t.streams = s.streams ∧
          t.ops = s.ops) ∧
      (s.clusterIdle c = false ∨ ¬long c 1000 ∨ ¬may 1 2000 → exec (.clkGateEnter c) s = .next s) ∧
      (∀ d, d < 4 → s.dieIdle d = true → long (64 + d) 100000 → may 2 40000 →
        ∃ t, exec (.retainEnter d) s = .next t ∧ t.pwr = { s.pwr with retained := nins s.pwr.retained d } ∧ t.streams = s.streams) ∧
      (∀ k, s.hif.hbmIdle ≠ 0 → k ∉ s.channelsUsed → long (128 + k) (s.hif.hbmIdle * 1000) → may 3 300000 →
        ∃ t, exec (.hbmSrEnter k) s = .next t ∧ t.pwr = { s.pwr with hbmSr := nins s.pwr.hbmSr k } ∧ t.streams = s.streams) ∧
      (s.deviceIdle = true → long 100 10000000 → may 4 5000000 →
        ∃ t, exec .deepEnter s = .next t ∧ t.pwr = { s.pwr with deep := true } ∧ t.streams = s.streams) ∧
      (∃ t, exec (.powerWake (.cluster c)) s = .next t ∧ c ∉ t.pwr.gated ∧ c / 12 ∉ t.pwr.retained ∧ t.pwr.deep = false) ∧
      (∃ t, exec (.powerWake .device) s = .next t ∧ t.pwr.deep = false ∧ t.pwr.gated = s.pwr.gated)) ∧
    (∀ (s : State) (disable : List Nat) (cap : Option Nat), ∃ t, exec (.powerLimit disable cap) s = .next t ∧
      t.pwr.disabled = disable ∧ t.pwr.cap = cap ∧ (4 ∈ disable → t.pwr.deep = false) ∧ (1 ∈ disable → t.pwr.gated = []) ∧
      (∃ bs, t.outbox = s.outbox ++ [.mgmt bs]) ∧
      (∀ tol, s.tolerance = some tol → (4 ∉ disable → 5000000 ≤ tol → t.pwr.deep = s.pwr.deep) ∧
        (1 ∉ disable → 2000 ≤ tol → t.pwr.gated = s.pwr.gated))) ∧
    (∀ (s : State) (nanos offset : Nat) (slew : Int),
      (slew.natAbs * 10000 ≤ 4 * nanos → ∃ t, exec (.ptpSync nanos slew offset) s = .next t ∧
        (t.clock.gtsQ : Int) = s.clock.gtsQ + 4 * nanos + slew ∧ t.pwr.gated = s.pwr.gated ∧
        (offset ≤ 50000 → s.hif.fresh = [] → t.mem = s.mem ∧ t.hif = s.hif)) ∧
      (4 * nanos < slew.natAbs * 10000 → exec (.ptpSync nanos slew offset) s = .next s))) ∧
  (
    (∀ (i : Instr) (s : State) (n : Nat), i = .flr n ∨ i = .mgmtFlr n → n ≠ 0 → n ≤ 64 →
      ∃ t, exec i s = .next t ∧ (∀ tm ∈ t.teams, tm.fn ≠ n) ∧ (∀ g ∈ t.loom.grids, g.fn ≠ n) ∧ (∀ g ∈ t.loom.held, g.fn ≠ n) ∧
        (∀ x ∈ t.loom.nodes, x.fn ≠ n) ∧ (∀ c ∈ t.dr.copies, c.fn ≠ n) ∧ (t.fn n).defVec = 0 ∧ (∀ m, m ≠ n → t.fn m = s.fn m) ∧
        (∀ k ∈ t.hif.unmasked, k / 2048 ≠ n)) ∧
    (∀ (i : Instr) (s : State), i = .pfFlr ∨ i = .flr 0 ∨ i = .mgmtFlr 0 →
      ∃ t, exec i s = .next t ∧ (∀ tm ∈ t.teams, 64 < tm.fn) ∧ (∀ g ∈ t.loom.grids, 64 < g.fn) ∧ t.halted = [] ∧
        t.jobs = List.replicate 8 blankJob ∧ t.tr.asidTbl = 0 ∧ t.tr.tlb = [] ∧ t.tr.descs = [] ∧ t.co.wqs = [] ∧ t.co.mcgLo = 0 ∧
        t.co.mcgHi = 0 ∧ t.vt.caches = [bootCache] ∧ t.vt.lines = [] ∧ t.vt.dirs = [] ∧ t.vt.migrateMode = false) ∧
    (∀ s : State, ∃ bs, exec .deviceReset s = .next { State.reset with
      clock := s.clock, agenda := s.agenda, free := s.free + 1, outbox := s.outbox ++ [.mgmt bs]
      fw := ⟨0, [], false, s.fw.fuse, none, if s.fw.update.isSome then s.fw.update else s.fw.active, 0, s.fw.ident + 1⟩
      pwr := { State.reset.pwr with disabled := s.pwr.disabled, cap := s.pwr.cap } }))

/-- R425, R443 to R446: the boot stages run in order, each measured before it runs, and an image that is not accepted leaves the
device in recovery; after an update the stages take their images from it; requests are answered on the path they came by, the
management port or the host link; `halt`, HALT_ALL and CRASH_DUMP stop cores, and the dump is signed with the identity key. The
signature check, the hash, the layout of a dump and the values of sensors are those of Config (log entry 20). That `halt` tests the
privilege before the number of the core is the model's reading (log entry 83). Completion: under the premises of its clause on the
state and the operands alone, each of `halt`, `firmwareStage`, `spdmRequest`, `pldmFwUpdate`, `pldmMonitor`, `haltAll`, `crashDump`
answers a next state of its own effect. -/
def Obligations.FirmwareManagementAndHalt : Prop :=
  (∀ (s : State) (image : List Byte) (version : Nat), s.fw.recovery = false → s.fw.stages < 8 →
    (s.fw.active = none ∨ ∃ bs, s.fw.active = some (bs, version) ∧
      image = if s.fw.stages = 7 then bs.drop s.fw.loaded else (bs.drop s.fw.loaded).take image.length) →
    let m := sset [] s.fw.measures s.fw.stages ((Config.shake256 image).take 64)
    let ok := Config.mldsaOk image = true ∧ s.fw.fuse ≤ version
    (ok → exec (.firmwareStage s.fw.stages image version) s =
      .next { s with fw := { s.fw with measures := m, stages := s.fw.stages + 1, loaded := s.fw.loaded + image.length } }) ∧
    (¬ok → exec (.firmwareStage s.fw.stages image version) s = .next { s with fw := { s.fw with measures := m, recovery := true } })) ∧
  (∀ (s : State) (bs image : List Byte) (v version : Nat), s.fw.active = some (bs, v) → version ≠ v →
    exec (.firmwareStage s.fw.stages image version) s = .next s) ∧
  (∀ (s : State) (r : MctpReq) (version : Nat),
    let answered := fun (t : State) (body : List Byte) =>
      ({ t with free := s.free + 1, outbox := s.outbox ++ [if r.host then .vdm body else .mgmt body] } : State)
    let open_ := r.host = false ∨ s.links.hostUp = true ∧ s.fw.recovery = false
    let ok := Config.mldsaOk r.bytes = true ∧ s.fw.fuse ≤ version
    (open_ → ok → ∃ body, exec (.pldmFwUpdate r version) s =
      .next (answered { s with fw := { s.fw with update := some (r.bytes, version) } } body)) ∧
    (open_ → ¬ok → ∃ body, exec (.pldmFwUpdate r version) s = .next (answered s body)) ∧
    (open_ → ∃ rest, exec (.spdmRequest r) s = .next (answered s
      (Config.certificates ++ s.fw.report ++ Config.mldsaSign s.fw.ident (r.bytes ++ s.fw.report) ++ rest))) ∧
    (¬open_ → exec (.pldmFwUpdate r version) s = .next s ∧ exec (.spdmRequest r) s = .next s)) ∧
  (∀ s : State, ∃ rest, exec .pldmMonitor s = .next { s with
    free := s.free + 1
    outbox := s.outbox ++ [.mgmt (bytesOfNat 8 ((s.vt.shares.map fun e => (e.2.map (·.errors)).getD 0).sum) ++
      ((s.hif.held ++ s.hif.fresh).mapIdx fun i e => e.bytes (s.hif.evtSeq + i)).flatten ++ rest)] }) ∧
  (∀ s : State, (∀ st ∈ s.streams, st.window = none) →
    (∃ t bs, exec .haltAll s = .next t ∧ t = { s with halted := t.halted, free := s.free + 1, outbox := s.outbox ++ [.mgmt bs] } ∧
      ∀ c, c ∈ t.halted ↔ c < 192 ∨ c ∈ s.halted) ∧
    (∃ t, exec .crashDump s = .next t ∧
      t = { s with halted := t.halted, outbox := s.outbox ++ [.dump s.dumped (Config.mldsaSign s.fw.ident (dumpBytes s.dumped))] } ∧
      ∀ c, c < 192 → c ∈ t.halted) ∧
    (∀ (o : Alu1) (low : SId) (rest : List SId), s.active o.g = low :: rest →
      let c := ((s.stream low).rd o.s1).toNat
      let own := s.curTeam.coreOf (s.stream low).id
      (s.physical (s.stream low) = false → exec (.halt o) s = .next (s.trapLow o.g 0x05)) ∧
      (s.physical (s.stream low) = true → 191 < c → c ≠ 0xFFFFFFFF → exec (.halt o) s = .next (s.trapLow o.g 0x03)) ∧
      (s.physical (s.stream low) = true → c = 0xFFFFFFFF → ∃ t, exec (.halt o) s = .next t ∧
        t = { (s.completed o.g fun st => (st.kill o.s1 o.k1).wr o.d 0) with halted := t.halted } ∧
        ∀ k, k ∈ t.halted ↔ (k < 192 ∧ k ≠ own) ∨ k ∈ s.halted) ∧
      (s.physical (s.stream low) = true → c ≤ 191 → c ≠ own → ∃ t, exec (.halt o) s = .next t ∧
        t = { (s.completed o.g fun st => (st.kill o.s1 o.k1).wr o.d 0) with halted := t.halted } ∧
        ∀ k, k ∈ t.halted ↔ k = c ∨ k ∈ s.halted)))

/-- R411, R412: `tlbinv` drops every translation and merge-table entry of the ASID in its range and notes the accesses that are then
old; `tlbsync` completes where none of these is undrained, and `.zero` zeroes the range of HBM4 that it names and no other byte. That
the address of `tlbinv` is not redirected, and that `.zero` acts once with the operands of the lowest lane, is the model's reading
(log entry 80). R79, R84, R88: a walk for a fetch or a move that is about to be made and that passes its checks sets A, and D for a
write, in the entry it used, and caches its result; it is no turn of its own otherwise, which is the model's reading (log entry 77).
Completion: under the premises of its clause on the state and the operands alone, each of `tlbinv`, `tlbinvAll`, `tlbsync`,
`tlbsyncZero`, `pageWalk` answers a next state of its own effect. -/
def Obligations.TranslationMaintenance : Prop :=
  (∀ (s : State) (g : Guard) (low : SId) (rest : List SId) (i : Instr) (w : Word) (range : Option (Nat × Nat)) (kill : Stream → Stream),
    s.active g = low :: rest → s.Present s.cur.lanes →
    ((∃ s1 k1 s2 k2 s3, i = .tlbinv g s1 k1 s2 k2 s3 ∧ (s.stream low).rd s2 ≠ 0 ∧ w = (s.stream low).rd s3 ∧
        range = some (((s.stream low).rd64 s1).toNat, ((s.stream low).rd s2).toNat) ∧ kill = fun st => (st.kill64 s1 k1).kill s2 k2) ∨
      (∃ s3, i = .tlbinvAll g s3 ∧ w = (s.stream low).rd s3 ∧ range = none ∧ kill = id)) →
    (w.toNat < 2 ^ 16 → s.ownsAsid s.curTeam.fn w.toNat = true →
      let asid := w.extractLsb' 0 16
      ∃ t, exec i s = .next t ∧
        (∀ e ∈ t.tr.tlb, e ∈ s.tr.tlb ∧ ¬(e.asid = asid ∧ overlaps e.va (2 ^ e.leaf.size) range = true)) ∧
        (∀ e ∈ s.tr.tlb, ¬(e.asid = asid ∧ overlaps e.va (2 ^ e.leaf.size) range = true) → e ∈ t.tr.tlb) ∧
        (∀ m ∈ t.tr.merges, ¬(m.asid = asid ∧ overlaps (m.page * 4096) 4096 range = true)) ∧
        ((∀ m ∈ s.tr.merges, m.asid ≠ asid) → t = { s with streams := t.streams, tr := t.tr, mx := t.mx } ∧
          s.Lanes t g fun st =>
            (kill { st with
              old := st.old ++ (s.oldOps asid range).filter fun n => !(st.old.contains n)
              oldPackets := st.oldPackets ++ (s.oldPackets asid range).filter fun p => !(st.oldPackets.contains p) }).goto s.cur.npc)) ∧
    (2 ^ 16 ≤ w.toNat → exec i s = .next (s.trapLow g 0x03)) ∧
    (w.toNat < 2 ^ 16 → s.ownsAsid s.curTeam.fn w.toNat = false → exec i s = .next (s.trapLow g 0x05))) ∧
  (∀ (s : State) (g : Guard) (d : Reg), s.undrained ((s.active g).flatMap fun id => (s.stream id).old) = [] →
    s.unplaced ((s.active g).flatMap fun id => (s.stream id).oldPackets) = [] →
    exec (.tlbsync g d) s = .next (s.completed g fun st => { st with old := [], oldPackets := [] }.wr d 0)) ∧
  (∀ (s : State) (g : Guard) (d s1 : Reg) (k1 : Bool) (s2 : Reg) (k2 : Bool) (low : SId) (rest : List SId),
    s.active g = low :: rest → s.Present s.cur.lanes →
    let p := ((s.stream low).rd64 s1).toNat
    let l := ((s.stream low).rd s2).toNat
    (s.physical (s.stream low) = false → exec (.tlbsyncZero g d s1 k1 s2 k2) s = .next (s.trapLow g 0x05)) ∧
    (s.physical (s.stream low) = true → p < 2 ^ 40 → p % 4096 = 0 → l % 4096 = 0 → l ≠ 0 →
      s.undrained ((s.active g).flatMap fun id => (s.stream id).old) = [] →
      s.unplaced ((s.active g).flatMap fun id => (s.stream id).oldPackets) = [] →
      ∃ t, exec (.tlbsyncZero g d s1 k1 s2 k2) s = .next t ∧ t = { s with streams := t.streams, mem := t.mem, vt := t.vt } ∧
        (∀ a, memRead t.mem a = if p ≤ a ∧ a < p + l then 0 else memRead s.mem a) ∧ s.Lanes t g fun st =>
          ((({ st with old := [], oldPackets := [] }.kill64 s1 k1).kill s2 k2).wr d 0).goto s.cur.npc)) ∧
  (∀ (s : State) (h : Holder) (asid : BitVec 16) (va : DWord) (write : Bool), va.toNat < 2 ^ 57 →
    let w := s.holderWho h asid
    let ak : AK := match h with
      | .core _ => .fetch
      | .dray _ => if write then .store else .load
    (s.aboutTo h asid va write = false → exec (.pageWalk h asid va write) s = .next s) ∧
    (∀ f, s.checkPage w ak va.toNat = .error f → exec (.pageWalk h asid va write) s = .next s) ∧
    (∀ c wk, s.aboutTo h asid va write = true → s.checkPage w ak va.toNat = .ok c → c.walked = some wk →
      ∃ t, exec (.pageWalk h asid va write) s = .next t ∧ t = { s with mem := t.mem, tr := t.tr } ∧
        (wk.entry.getLsbD 4 = false ∨ write = true ∧ wk.entry.getLsbD 5 = false →
          Stored s.mem t.mem wk.pte (bytesOfNat 8 (wk.entry ||| 0x10 ||| (if write then 0x20 else 0)).toNat)) ∧
        (∃ e ∈ t.tr.tlb, e.hits w.at_ asid va.toNat = true) ∧ (∃ e ∈ t.tr.tlb, e.hits (.die w.die) asid va.toNat = true)))

/-- R92, R406 to R410: a fault record is written at its place, and its value pushed once the queue is open and has room; that the push
waits for that, and that a record has its SEQ from the time its entry was taken, is the model's reading (log entries 78 and 120);
runahead changes nothing but the merge tables and the count of probes, one for each page on which an access of it fails, and none
follows a fetch fault (R93); `fresume` frees the entry of the page and its waiters replay, with `.fail` they take the trap of the
record; D tells whether there was an entry. Completion: under
the premises of its clause on the state and the operands alone, each of `fresume`, `fresumeFail`, `faultRecordEmit`, `runahead`
answers a next state of its own effect. -/
def Obligations.PageFaultRecordsAndReplays : Prop :=
  (∀ (s : State) (die idx : Nat) (m : Merge), s.tr.merges.find? (fun m => m.die = die && m.idx = idx) = some m → m.pushed = false →
    let r := s.ring die
    (m.written = false → (s.wq (r.ctl.toNat / 256 % 256)).isOpen = false →
      ∃ t, exec (.faultRecordEmit die idx) s = .next t ∧ t = { s with mem := t.mem, tr := t.tr } ∧
        Stored s.mem t.mem (r.base + 64 * idx)
          (bytesOfNat 8 m.va ++ bytesOfNat 8 m.word8.toNat ++ bytesOfNat 8 s.gts ++ bytesOfNat 8 m.seq ++
            bytesOfNat 8 (if m.kind < 4 then m.pc.toNat else 0) ++ bytesOfNat 24 0) ∧
        t.tr.merges.find? (fun m => m.die = die && m.idx = idx) = some { m with written := true }) ∧
    (m.written = true → (s.wq (r.ctl.toNat / 256 % 256)).isOpen = true →
      (s.wq (r.ctl.toNat / 256 % 256)).entries.length < wqSize →
      ∃ t, exec (.faultRecordEmit die idx) s = .next t ∧ t.mem = s.mem ∧
        t.co = (s.wqAppend (r.ctl.toNat / 256 % 256) [BitVec.ofNat 32 (m.seq % 2 ^ 20 * 1024 + m.idx % 1024)]).co ∧
        t.tr.merges.find? (fun m => m.die = die && m.idx = idx) = some { m with pushed := true })) ∧
  (∀ (s : State) (id : SId) (st : Stream) (probes : List (DWord × Bool)) (d i : Nat) (npc addr : DWord) (f : Nat) (act : Bool),
    s.stream? id = some st → st.park = .fault d i npc addr f act true → exec (.runahead id probes) s = .next s) ∧
  (∀ (s : State) (id : SId) (st : Stream) (probes : List (DWord × Bool)) (d i : Nat) (npc addr : DWord) (f : Nat) (act : Bool),
    s.stream? id = some st → st.park = .fault d i npc addr f act false → id.kind = .lane →
    ∃ t, exec (.runahead id probes) s = .next t ∧ t = { s with tr := t.tr, pm := t.pm } ∧ t.tr.tlb = s.tr.tlb ∧
      (∃ ms, t.tr.merges = s.tr.merges ++ ms ∧ ms.length ≤ 15 ∧ ∀ m ∈ ms, m.kind = 4 ∧ m.waiters = []) ∧
      (sget blankPm t.pm ((s.team id.tcx).tag id)).probes =
        (sget blankPm s.pm ((s.team id.tcx).tag id)).probes + min 15 (s.probesOf st probes).length) ∧
  (∀ (s : State) (o : AluR) (die : BitVec 2) (low : SId) (rest : List SId) (fail : Bool) (i : Instr),
    (i, fail) ∈ [(Instr.fresume o die, false), (.fresumeFail o die, true)] → s.active o.g = low :: rest → s.Present s.cur.lanes →
    let w := (s.stream low).rd o.s2
    w.toNat < 2 ^ 16 → s.ownsAsid s.curTeam.fn w.toNat = true →
    let e := s.mergeOf die.toNat (w.extractLsb' 0 16) (((s.stream low).rd64 o.s1).toNat / 4096 % 2 ^ 45)
    let done := fun (v : Word) (st : Stream) => (((st.kill64 o.s1 o.k1).kill o.s2 o.k2).wr o.d v).goto s.cur.npc
    (e = none → ∃ t, exec i s = .next t ∧ s.OnlyStreams t s.cur.lanes ∧ s.Lanes t o.g (done 0)) ∧
    (∀ m, e = some m → (∀ id ∈ s.cur.lanes, (s.stream id).parkedOn m.die m.idx = false) →
      ∃ t, exec i s = .next t ∧ (∀ x ∈ t.tr.merges, x ∈ s.tr.merges ∧ ¬(x.die = m.die ∧ x.idx = m.idx)) ∧
        (∀ id ∈ s.active o.g, t.stream id = done 1 (s.stream id)) ∧
        ∀ id npc addr f act fetch, id ∉ s.cur.lanes → (s.stream id).park = .fault m.die m.idx npc addr f act fetch →
          (fail = false → t.stream id = (s.stream id).parkAt .none) ∧
          (fail = true → act = false → t.stream id = (s.stream id).goto npc) ∧
          (fail = true → act = true → (s.stream id).canTrap = true → t.stream id = { s.stream id with
            pc := (s.stream id).trap.vec, park := .none, stall := none, short := none, firm := false, room := none, block := [], outer := (s.stream id).path
            trap := ⟨m.cause, (s.stream id).pc, npc, addr, BitVec.ofNat 32 (2 ^ 16 * (f % 4096) + m.level % 2 ^ 16), true,
              (s.stream id).trap.vec⟩ })))

/-- R122, R125 to R127: once the predicates of the lanes of a window are known (here of its only lane), it is closed where the
prediction held, and otherwise the lane stands at the other path with the registers of the branch; a `call` on its actual path
writes its link and a `loop` its counter (R169, R170); the lane is on one path with those that have left the branch in the same
direction with a known predicate (R155). While a predicate is awaited nothing happens. Completion: under the premises
of its clause on the state and the operands alone, `predicateResolve` answers a next state of its own effect. -/
def Obligations.WindowsResolve : Prop :=
  ∀ (s : State) (id : SId) (w : Window), (s.stream id).window = some w → s.Present [id] → s.windowMates id w = [id] →
    let known := s.awaits id w.guard.reg w.firstOp = false ∧ ∀ c, w.loop = some c → s.awaits id c w.firstOp = false
    let st := s.stream id
    let entry : Stream := { st with regs := w.regs }
    let dir := guardHolds w.guard entry && (match w.loop with | some c => decide (1 < (entry.rd c).toNat) | none => true)
    let next := if dir then w.target else w.fall
    let past := match w.known.find? fun p => p.1 == next with
      | some p => p.2
      | none => w.path
    let write := fun (x : Stream) => match w.link, w.loop with
      | some l, _ => if dir then x.wr64 l (w.branch + 8) else x
      | none, some c => if guardHolds w.guard entry then x.wr c (if (entry.rd c).toNat ≤ 1 then 0 else entry.rd c - 1) else x
      | none, none => x
    (¬known → exec (.predicateResolve id) s = .next s) ∧
    (known → dir = w.taken → ∃ t, exec (.predicateResolve id) s = .next t ∧ s.OnlyStreams t [id] ∧
      t.stream id = { (if w.loop.isSome then write st else st) with
        window := none, path := st.path.take (st.path.length - w.path.length - 1) ++ (w.branch, next) :: past }) ∧
    (known → dir ≠ w.taken → (∀ o ∈ s.ops, w.firstOp ≤ o.num → o.ofStream id = false) →
      ∃ t, exec (.predicateResolve id) s = .next t ∧ t = { s with streams := t.streams, pm := t.pm } ∧
        t.stream id = { write { st with regs := w.regs, gtsHi := w.gtsHi } with
          policy := .last, path := (w.branch, next) :: past, window := none, park := .none, stall := none, short := none, firm := false
          pc := next })

/-- R413 to R417: a swap exchanges the sets of the cores and tells whether there was one; a save moves the teams of the shadow set
to an image, a load brings those of the image to an empty shadow set; `ctxfl` leaves no dirty line with the tag; the flush that a
save starts ends with its acknowledgement. That of several statuses that apply the first of R414's list is answered, and that the
mode is tested before the number of a core or tag, is the model's reading (log entries 81 and 83). Completion: under the premises of
its clause on the state and the operands alone, each of `ctxswSwap`, `ctxswSv`, `ctxswLd`, `ctxfl`, `ctagFlushAck` answers a next
state of its own effect. -/
def Obligations.ContextsMove : Prop :=
  (∀ (s : State) (g : Guard) (d s2 : Reg) (k2 : Bool) (low : SId) (rest : List SId), s.active g = low :: rest →
    s.Present s.cur.lanes → s.windowed = false →
    (s.physical (s.stream low) = false → exec (.ctxswSwap g d s2 k2) s = .next (s.trapLow g 0x05)) ∧
    (s.ctxTrap (s.stream low) s2 = none →
      let cs := s.swapCores ((s.stream low).rd s2).toNat
      ((∀ tm ∈ s.teams, tm.onCores cs = false) → exec (.ctxswSwap g d s2 k2) s = .next (s.completed g fun st => (st.kill s2 k2).wr d 1)) ∧
      (∀ tm ∈ s.teams, tm.onCores cs = true → ∃ t, exec (.ctxswSwap g d s2 k2) s = .next t ∧
        t.teams = (s.teams.map fun tm => if tm.onCores cs then { tm with shadow := !tm.shadow, lastIssue := s.gts - tm.lastIssue } else tm) ∧
        t.mem = s.mem ∧ ∀ id ∈ s.active g, (t.stream id).pc = s.cur.npc ∧ (t.stream id).regs = (((s.stream id).kill s2 k2).wr d 0).regs))) ∧
  (∀ (s : State) (o : AluR) (low : SId) (rest : List SId), s.active o.g = low :: rest → s.Present s.cur.lanes →
    s.ctxTrap (s.stream low) o.s2 = none →
    let core := ((s.stream low).rd o.s2).toNat
    let answers := fun (v : Word) => s.completed o.g fun st => (((st.kill64 o.s1 o.k1).kill o.s2 o.k2).wr o.d v)
    (s.savedSet core = [] → exec (.ctxswSv o) s = .next (answers 1)) ∧
    (s.savedSet core ≠ [] → s.imageAddr (s.stream low) o.s1 = none → exec (.ctxswSv o) s = .next (answers 4)) ∧
    (∀ tm va, s.savedSet core = [tm] → s.imageAddr (s.stream low) o.s1 = some va →
      s.imageWritable (s.who (s.stream low)) va = true → (s.unlistTeams [tm]).savable [tm] = true →
      ∃ t, exec (.ctxswSv o) s = .next t ∧ t.images = s.images ++ [(s.nextOp, tm.ctag)] ∧
        (∀ x, t.team? tm.tcx = some x → x.image = some s.nextOp ∧ x.shadow = false) ∧
        (s.vt.migrateMode = false → tm.ctag ∈ t.vt.flushing)) ∧
    (s.shadowOn [core] ≠ [] → exec (.ctxswLd o) s = .next (answers 1)) ∧
    (s.shadowOn [core] = [] → s.imageAddr (s.stream low) o.s1 = none → exec (.ctxswLd o) s = .next (answers 4)) ∧
    (∀ va bs s1 n tm, s.shadowOn [core] = [] → s.imageAddr (s.stream low) o.s1 = some va →
      s.unitRead (s.who (s.stream low)) va imageBytes = (some bs, s1) → s1.imageNamed bs = some n →
      (s1.teams.filter fun t => t.image == some n) = [tm] → s1.shadowOn (loadCores [tm] core) = [] → s1.loadFits [tm] core = true →
      ∃ t, exec (.ctxswLd o) s = .next t ∧ t.images = (s1.images.filter fun e => e.1 ≠ n) ∧
        ∀ x, t.team? tm.tcx = some x → x.image = none ∧ x.shadow = true ∧ x.core = loadCore [tm] core tm)) ∧
  (∀ (s : State) (o : Alu1) (low : SId) (rest : List SId), s.active o.g = low :: rest →
    let w := (s.stream low).rd o.s1
    (s.physical (s.stream low) = false → exec (.ctxfl o) s = .next (s.trapLow o.g 0x05)) ∧
    (s.physical (s.stream low) = true → w.toNat < 2 ^ 16 → (∀ x ∈ s.ops, x.phase ≠ .left) →
      ∃ t, exec (.ctxfl o) s = .next t ∧ (∀ l ∈ t.vt.lines, l.ctag = some w.toNat → l.dirty = false) ∧
        t = { (s.completed o.g fun st => (st.kill o.s1 o.k1).wr o.d (if ∃ l ∈ s.vt.lines, l.ctag = some w.toNat then 1 else 0)) with
          mem := t.mem, vt := t.vt, links := t.links, hif := t.hif })) ∧
  (∀ (s : State) (tag : Nat), tag ∈ s.vt.flushing → ∃ t, exec (.ctagFlushAck tag) s = .next t ∧
    t.vt.flushing = (s.vt.flushing.filter fun x => x ≠ tag) ∧ ∀ l ∈ t.vt.lines, l.ctag = some tag → l.dirty = false)

/-- R262, R270 to R273: `qbind` and `qbind.un` change one binding of the issuing core, `qstat` and `qpeek` read a queue without a
change of it, `qdrop` removes the READY entries it names from the head, also while an `mmul` holds it (log entry 107, the model's
reading), and tells how many.
Completion: under the premises of its clause on the state and the operands alone, each of `qbind`, `qbindUn`, `qstat`, `qpeek`,
`qdrop` answers a next state of its own effect. -/
def Obligations.QueueInstructions : Prop :=
  ∀ (g : Guard) (s : State) (id : SId), s.Alone g id → s.team? id.tcx = some s.curTeam →
    let tm := s.curTeam
    let half := tm.half id
    let queues := if half = 1 then tm.queues.2 else tm.queues.1
    (∀ (p : Reg) (k : BitVec 4), k.toNat < tm.recd.qports → Reg.isPort p = true →
      ∃ t, exec (.qbind g p k) s = .next t ∧ t = { s with streams := t.streams, teams := t.teams } ∧
        t.portKey id p = queues[k.toNat]?.map (fun h => 32 * (tm.core + half) + h) ∧
        (∀ q, Reg.isPort q = true → q ≠ p → t.portKey id q = s.portKey id q) ∧ t.stream id = (s.stream id).goto s.cur.npc) ∧
    (∀ (p : Reg) (k : BitVec 4), tm.recd.qports ≤ k.toNat → exec (.qbind g p k) s = .next (s.trap7 g 0x03 id 0)) ∧
    (∀ (p : Reg), Reg.isPort p = true →
      ∃ t, exec (.qbindUn g p) s = .next t ∧ t = { s with streams := t.streams, teams := t.teams } ∧ t.portKey id p = none ∧
        (∀ q, Reg.isPort q = true → q ≠ p → t.portKey id q = s.portKey id q) ∧ t.stream id = (s.stream id).goto s.cur.npc) ∧
    (∀ (d p : Reg), ∃ t, exec (.qstat g d p) s = .next t ∧ s.OnlyStreams t [id] ∧
      t.stream id = ((s.stream id).wr d (match s.portKey id p with
        | none => 0
        | some k => BitVec.ofNat 32 (k % 32 * 2 ^ 11 + 2 ^ 10 + (s.queue k).free % 32 * 2 ^ 5 + (s.queue k).ready % 32))).goto s.cur.npc) ∧
    (∀ (d p : Reg) (key : Nat), s.portKey id p = some key →
      (∀ (pos : BitVec 4) (e : QEntry), pos.toNat < (s.queue key).ready → (s.queue key).entries[pos.toNat]? = some e →
        ∃ t, exec (.qpeek g d p pos) s = .next t ∧ s.OnlyStreams t [id] ∧
          t.stream id = ((s.stream id).wr d (sget 0 e.elems (tm.lane id))).goto s.cur.npc) ∧
      (∀ n : BitVec 5, s.qu.xfers = [] →
        let m := min n.toNat (s.queue key).ready
        ∃ t, exec (.qdrop g d p n) s = .next t ∧ t = { s with streams := t.streams, qu := t.qu } ∧
          (t.queue key).entries = (s.queue key).entries.drop m ∧ (∀ k, k ≠ key → t.queue k = s.queue k) ∧
          t.stream id = ((s.stream id).wr d (BitVec.ofNat 32 m)).goto s.cur.npc))

/-- R264, R387: a thread that has stalled on short queues alone for 256 core cycles parks on what it has seen of them, with the threads
of its issue group that have waited as long. R266, R274: `cspawn`
starts a stream in the lowest free slot, with its argument in v1, and gives the slot, or all ones where none is free; `cstop` stops
the streams in the slots it names and gives those that held one. R276: `aload` of n elements reserves one entry at the tail and
leaves n reads outstanding; `astore` pops the READY head and stores its elements; both count once. R277, R278: `agath` and `ascat`
read their indices first and then do the same over as many entries as they need. R259: ENTRY_READY of a transfer's last element
fills the entry, which is READY, and ends the transfer. Completion: under the premises of its clause on the state and the operands
alone, each of `cspawn`, `cstop`, `aload`, `astore`, `agath`, `ascat`, `queueStallPark`, `entryReady` answers a next state of its
own effect. -/
def Obligations.CarterStreamsAndTransfers : Prop :=
  (
    (∀ (s : State) (id : SId) (st : Stream), s.stream? id = some st → st.exited = false → st.park = .none →
      (st.short = none → exec (.queueStallPark id) s = .next s) ∧
      (∀ t0, st.short = some t0 → s.clock.cycles < t0 + 256 → exec (.queueStallPark id) s = .next s) ∧
      (∀ t0 ws i, st.short = some t0 → t0 + 256 ≤ s.clock.cycles → s.fetch st = .ok ws → s.examineFor st (ws.map (·.1)) = .ok i →
        s.interlocked i st = false → windowHolds (s.fellows st) i ws = false →
        (crossLane i = true → s.pathHeld ((s.fellows st).map (·.id)) st = false) →
        let w := (ws.map (·.1)).headD 0
        let mates := ((s.fellows st).filter s.overdue).map (·.id)
        let parks := fun (p : Park) => ∃ t, exec (.queueStallPark id) s = .next t ∧ s.OnlyStreams t mates ∧
          ∀ x ∈ mates, t.stream x = (s.stream x).parkAt p
        (∀ n ver, s.fullWorkQueue st w i = some (n, ver) → parks (.wq n ver ((s.sharing st w).headD id))) ∧
        (s.fullWorkQueue st w i = none → s.shortQueues st w i ≠ [] → parks (.queue (s.shortQueues st w i))) ∧
        (s.fullWorkQueue st w i = none → s.shortQueues st w i = [] → exec (.queueStallPark id) s = .next s))) ∧
    (∀ (g : Guard) (d s1 : Reg) (k1 : Bool) (s2 : Reg) (k2 : Bool) (s : State) (id : SId), s.Alone g id →
      targetTrap ((s.stream id).rd64 s1) = none →
      let core := s.curTeam.coreOf id
      let kills := fun (st : Stream) => (st.kill64 s1 k1).kill s2 k2
      ((∀ k, k < 4 → (s.carterSlot core k).isSome = true) →
        ∃ t, exec (.cspawn g d s1 k1 s2 k2) s = .next t ∧ s.OnlyStreams t [id] ∧
          t.stream id = ((kills (s.stream id)).wr d 0xFFFFFFFF).goto s.cur.npc) ∧
      (∀ k, k < 4 → s.carterSlot core k = none → (∀ j, j < k → (s.carterSlot core j).isSome = true) →
        let new : SId := ⟨s.curTeam.tcx, .carter, 4 * s.curTeam.half id + k⟩
        new ≠ id → ∃ t, exec (.cspawn g d s1 k1 s2 k2) s = .next t ∧ t = { s with streams := t.streams } ∧
          t.stream id = ((kills (s.stream id)).wr d (BitVec.ofNat 32 k)).goto s.cur.npc ∧
          t.stream new = (newStream new ((s.stream id).rd64 s1) (s.fn s.curTeam.fn).defVec s.clock.cycles).wr 1 ((s.stream id).rd s2) ∧
          ∀ x, x ≠ id → x ≠ new → t.stream? x = s.stream? x)) ∧
    (∀ (g : Guard) (d : Reg) (slots : BitVec 4) (s : State) (id : SId), s.Alone g id →
      let core := s.curTeam.coreOf id
      let hit := fun (k : Nat) => slots.getLsbD k && (s.carterSlot core k).isSome
      (∀ k x, k < 4 → s.carterSlot core k = some x → x.id ≠ id) →
      ∃ t mask, exec (.cstop g d slots) s = .next t ∧ t = { s with streams := t.streams, tr := t.tr } ∧
        (∀ k, k < 32 → mask.getLsbD k = (decide (k < 4) && hit k)) ∧
        t.stream id = ((s.stream id).wr d mask).goto s.cur.npc ∧
        ∀ k x, k < 4 → hit k = true → s.carterSlot core k = some x → s.stream? x.id = some x →
          t.stream x.id = { x.parkAt .stop with slots := ⟨none, none, none, none⟩ })) ∧
  (
    (∀ (o : CarOp) (s : State) (id : SId) (key : Nat) (cs : List (Option Checked)) (store : Bool), s.Alone o.g id → s.qu.xfers = [] →
      s.portKey id o.p = some key →
      let st := s.stream id
      let n := (st.rd o.s2).toNat
      n ≠ 0 → n ≤ s.curTeam.recd.groupW → s.team? id.tcx = some s.curTeam → (if store then st.cnt.st else st.cnt.ld) < 254 →
      s.xferChecks id (if store then .store else .load) (2 ^ o.esz.toNat) ((List.range n).map fun i => some (st.rd64 o.s1 +
        BitVec.ofNat 64 i * (if o.str then (st.rd o.s3).signExtend 64 else BitVec.ofNat 64 (2 ^ o.esz.toNat)))) = .ok cs →
      (∀ c ∈ cs, ∀ k, c = some k → k.Local) → s.xferRoom key n false store = true →
      (store = false → ∃ t e, exec (.aload o) s = .next t ∧ t.mem = s.mem ∧ (t.queue key).entries = (s.queue key).entries ++ [e] ∧
        e.state = .reserved ∧ e.missing = n ∧ (∀ i, i < 64 → e.mask.getLsbD i = decide (i < n)) ∧ t.ops.length = s.ops.length + n ∧
        t.stream id = { carKill o false st with cnt := st.cnt.add 0 1 }.goto s.cur.npc) ∧
      (store = true → ∀ e r, (s.queue key).entries = e :: r → (∀ i, i < n → e.mask.getLsbD i = true) →
        ∃ t, exec (.astore o) s = .next t ∧ t.mem = s.mem ∧ (t.queue key).entries = r ∧ t.ops.length = s.ops.length + n ∧
          (∀ x ∈ t.ops.drop s.ops.length, x.kind = .elemStore s.nextOp ∧ x.size = 2 ^ o.esz.toNat) ∧
          t.stream id = { carKill o false st with cnt := st.cnt.add 1 1 }.goto s.cur.npc)) ∧
    (∀ (o : CarOp) (s : State) (id : SId) (i : Instr), i = .aload o ∨ i = .astore o → s.Alone o.g id → (s.stream id).rd o.s2 = 0 →
      (s.portKey id o.p).isSome = true → exec i s = .next (s.completed o.g (carKill o false))) ∧
    (∀ (o : CarOp) (s s1 : State) (id : SId) (key : Nat) (ics cs : List Checked) (ws : List Word) (store : Bool), s.Alone o.g id →
      s.portKey id o.p = some key → s.team? id.tcx = some s.curTeam →
      let st := s.stream id
      let n := (st.rd o.s3).toNat
      n ≠ 0 → n ≤ 1024 → 0 < s.curTeam.recd.groupW → (if store then st.cnt.st else st.cnt.ld) < 254 → s.xferRoom key n true store = true →
      s.xferChecks id .load 4 ((List.range n).map fun i => some (st.rd64 o.s2 + BitVec.ofNat 64 (4 * i))) = .ok (ics.map some) →
      (∀ c ∈ ics, s.mustWait id c = false) → s.readIndices id (if store then 1 else 0) ics = (ws.map some, s1) →
      s1.xferChecks id (if store then .store else .load) (2 ^ o.esz.toNat) (ws.map fun w => some (st.rd64 o.s1 +
        ((if o.str then w.signExtend 64 else w.setWidth 64 : DWord) <<< o.scale.toNat))) = .ok (cs.map some) →
      (∀ c ∈ cs, c.Local) → s1.cur = s.cur → s1.teams = s.teams → s1.stream id = st → s1.Present [id] → s1.qu.xfers = [] →
      (store = false → ∃ t x, exec (.agath o) s = .next t ∧ t.mem = s1.mem ∧ t.qu.xfers = [x] ∧ x.num = s1.nextOp ∧ x.gather = true ∧
        x.elems.length = ws.length ∧ x.store = false ∧
        t.stream id = { carKill o true st with cnt := st.cnt.add 0 1 }.goto s.cur.npc) ∧
      (store = true → (s1.queue key).entries = [] → ∃ t x, exec (.ascat o) s = .next t ∧ t.mem = s1.mem ∧ t.ops = s1.ops ∧
        t.qu.xfers = [x] ∧ x.num = s1.nextOp ∧ x.gather = true ∧ x.elems.length = ws.length ∧ x.store = true ∧ x.entries = [] ∧
        t.stream id = { carKill o true st with cnt := st.cnt.add 1 1 }.goto s.cur.npc)) ∧
    (∀ (s : State) (n : Nat) (o : MemOp) (x : Xfer) (i serial : Nat), s.op? n = some o → s.Uncached o → o.kind = .elemLoad x.num [i] false →
      s.flawed o.loc o.cluster 4 = none → o.size = 4 → s.qu.xfers = [x] → x.pending = 1 → x.unserved = false → x.store = false →
      x.entries[i / x.w]? = some serial → s.Present [x.sid] →
      let v := BitVec.ofNat 32 (natOfBytes (memReadN s.mem o.loc.key 4))
      ∃ t, exec (.entryReady n) s = .next t ∧ t = { s with streams := t.streams, ops := t.ops, qu := t.qu } ∧ t.op? n = none ∧
        t.qu.xfers = [] ∧ (t.stream x.sid).bare = { s.stream x.sid with cnt := (s.stream x.sid).cnt.dec 0 }.bare ∧
        (t.queue x.key).entries = (s.queue x.key).entries.map fun e => if e.serial = serial then
          { e with
            elems := sset 0 e.elems (i % x.w) v, missing := e.missing - 1, state := if e.missing ≤ 1 then .ready else e.state }
        else e))

/-- R285, R286, R290 to R300: a matrix instruction of a control stream whose checks pass, with room in the buffer and on TLC, enters
one tile operation and raises TLC; `mnew` and `mrel` also change the names of the tiles; `mcfg` sets a stride; `mfence` waits for
TLC, and then drops the operands of its ASID that its cluster holds. Completion: under the premises of its clause on the state and
the operands alone, each of `mload`, `mswap`, `mmul`, `mnew`, `mrel`, `mdrain`, `mzero`, `mscA`, `mscB`, `mtld`, `mfence`, `mcfg`
answers a next state of its own effect. -/
def Obligations.MatrixInstructionsEnterTheBuffer : Prop :=
  ∀ (g : Guard) (s : State) (id : SId), s.Alone g id → s.bufferFull (s.team id.tcx).cluster = false → (s.stream id).cnt.tl < 254 →
    let st := s.stream id
    let m := s.matNext id
    let enters := fun (t : State) (x : TileOp) (f : Stream → Stream) (mats : List (Nat × Mat)) (tiles : List (Nat × List (Nat × Word))) =>
      t = { s with
        streams := t.streams, nextOp := s.nextOp + 1
        mx := { s.mx with ops := s.mx.ops ++ [{ x with num := s.nextOp }], mats := mats, tiles := tiles } } ∧
      t.stream id = { f st with cnt := st.cnt.add 3 1 }.goto s.cur.npc ∧
      ∀ id', id' ≠ id → t.stream? id' = s.stream? id'
    let plain := fun (i : Instr) (x : TileOp) (f : Stream → Stream) => ∃ t, exec i s = .next t ∧ enters t x f s.mx.mats s.mx.tiles
    let base : TileOp := { blankTileOp with sid := id }
    (plain (.mswap g) { base with kind := .swap } fun st => st) ∧
    (∀ (o : MatOp) rs, o.g = g →
      let slot := s.slotWord o.slot
      let k := (st.rd o.s2).toNat % 256
      let klen := if k = 0 then 128 else k
      klen ≤ 128 → bFmtOk (slotBFmt slot) = true → ¬(codeBits (slotBFmt slot) = 4 ∧ klen % 2 = 1) →
      s.operandRows st .load 64 (fmtBytes (slotBFmt slot) 128) (m.stride 1) (st.rd64 o.s1) klen = .ok rs → s.touchRows st .load rs = s →
      plain (.mload o) { base with kind := .load, slot := slot, rows := klen, mem := rs } (matKill o)) ∧
    (∀ (o : MatOp) t rows r0, o.g = g → m.tileOf o.tile.toNat = some t → rowSpec (st.rd o.s2) = some (rows, r0) →
      let slot := s.slotWord o.slot
      let p := m.active
      let a := slotAFmt slot
      (p.klen ≠ 0 → fmtPair a (slotBFmt slot) = true → slotBFmt slot = p.fmt → slotBBlk slot = p.blk → slotBScale slot = p.scale →
        (slotAScale slot = 0 ∨ slotABlk slot = m.aBlk) → ¬((codeBits a = 4 ∨ codeBits (slotBFmt slot) = 4) ∧ p.klen % 2 = 1) →
        let x := { base with kind := .mul o.z, tile := some t, slot := slot, rows := rows, rowBase := r0 };
        (∀ rs, o.q = false → s.operandRows st .load 64 (fmtBytes a p.klen) (m.stride 0) (st.rd64 o.s1) rows = .ok rs →
          s.touchRows st .load rs = s → plain (.mmul o) { x with mem := rs } (matKill o)) ∧
        (∀ key, o.q = true → s.portKey id o.s1 = some key →
          plain (.mmul o) { x with queue := some key } fun st => st.kill o.s2 o.k2)) ∧
      (let x := { base with kind := .drain o.z, tile := some t, slot := slot, rows := rows, rowBase := r0 };
        (∀ rs, o.q = false → s.operandRows st .store 64 (fmtBytes (slotDrainFmt slot) 128) (m.stride 2) (st.rd64 o.s1) rows = .ok rs →
          s.touchRows st .store rs = s → plain (.mdrain o) { x with mem := rs } (matKill o)) ∧
        (∀ key, o.q = true → s.portKey id o.s1 = some key →
          plain (.mdrain o) { x with queue := some key } fun st => st.kill o.s2 o.k2))) ∧
    (∀ (s1 : Reg) (k1 : Bool) (s2 : Reg) (k2 : Bool) (tile : BitVec 3) t rows r0, m.tileOf tile.toNat = some t →
      rowSpec (st.rd s2) = some (rows, r0) →
      plain (.mzero g s2 k2 tile) { base with kind := .zero, tile := some t, rows := rows, rowBase := r0 } (fun st => st.kill s2 k2) ∧
      ∀ rs, s.operandRows st .load 64 512 (m.stride 3) (st.rd64 s1) rows = .ok rs → s.touchRows st .load rs = s →
        plain (.mtld g s1 k1 s2 k2 tile) { base with kind := .tld, tile := some t, rows := rows, rowBase := r0, mem := rs }
          fun st => (st.kill64 s1 k1).kill s2 k2) ∧
    (∀ (s1 : Reg) (k1 : Bool) (slot : BitVec 3) rs,
      let w := s.slotWord slot
      (slotAScale w = 1 → aFmtOk (slotAFmt w) = true → s.operandRows st .load 1 (128 / blkLen (slotABlk w)) (m.stride 4) (st.rd64 s1) 128 = .ok rs →
        s.touchRows st .load rs = s →
        plain (.mscA g s1 k1 slot) { base with kind := .scA, slot := w, rows := 128, mem := rs } fun st => st.kill64 s1 k1) ∧
      (let rows := (m.shadow.klen + blkLen (slotBBlk w) - 1) / blkLen (slotBBlk w);
        slotBScale w = 1 → bFmtOk (slotBFmt w) = true → m.shadow.klen ≠ 0 → slotBBlk w = m.shadow.blk →
        s.operandRows st .load 1 128 (m.stride 4) (st.rd64 s1) rows = .ok rs → s.touchRows st .load rs = s →
        plain (.mscB g s1 k1 slot) { base with kind := .scB, slot := w, rows := rows, mem := rs } fun st => st.kill64 s1 k1)) ∧
    (∀ (tile : BitVec 3),
      let old := (s.mat id.tcx).tileOf tile.toNat
      (∀ k, (s.mat id.tcx).map.length + (s.mat id.tcx).releasing.length < 8 → s.freeTile (s.team id.tcx).cluster = some k →
        (s.team id.tcx).tcx = id.tcx →
        ∃ t, exec (.mnew g tile) s = .next t ∧ enters t { base with kind := .new, tile := old } (fun st => st) t.mx.mats t.mx.tiles ∧
          (t.mat id.tcx).tileOf tile.toNat = some k ∧ t.tile (s.team id.tcx).cluster k = [] ∧
          (t.mat id.tcx).releasing = (s.mat id.tcx).releasing ++ old.toList) ∧
      (∃ t, exec (.mrel g tile) s = .next t ∧ enters t { base with kind := .rel, tile := old } (fun st => st) t.mx.mats s.mx.tiles ∧
        (t.mat id.tcx).tileOf tile.toNat = none ∧ (t.mat id.tcx).releasing = (s.mat id.tcx).releasing ++ old.toList)) ∧
    (∀ (s1 : Reg) (k1 : Bool) (f : MField), ∃ t, exec (.mcfg g s1 k1 f) s = .next t ∧ t = { s with streams := t.streams, mx := t.mx } ∧
      (t.mat id.tcx) = { s.mat id.tcx with strides := (s.mat id.tcx).strides.set (strideIdx f) (st.rd s1) } ∧
      (∀ x, x ≠ id.tcx → t.mat x = s.mat x) ∧ t.stream id = (st.kill s1 k1).goto s.cur.npc) ∧
    (st.cnt.tl ≠ 0 → ∃ t, exec (.mfence g) s = .next t ∧ s.OnlyStreams t [id] ∧ t.stream id = st.parkAt .mfence) ∧
    (st.cnt.tl = 0 → st.slots.tl = none → ∃ t, exec (.mfence g) s = .next t ∧ t = { s with streams := t.streams, mx := t.mx } ∧
      (∀ l, l ∈ t.mx.cache ↔ l ∈ s.mx.cache ∧ ¬(l.cluster = (s.team id.tcx).cluster ∧ l.asid = (s.team id.tcx).recd.asid)) ∧
      t.stream id = st.goto s.cur.npc)

/-- R283 to R285, R289, R292 to R298: TILE_OP_EXECUTE of the oldest operation of a context: the planes, the scales and the words of the
tile afterwards; the operation leaves the buffer and TLC falls. An `mmul` from a queue pops the READY entries that its rows need, and
waits where there is none; an `mdrain` writes its rows to memory, or pushes them as entries of its queue as far as it has room.
Completion: under the premises of its clause on the state and the
operands alone, `tileOpExecute` answers a next state of its own effect. -/
def Obligations.TileOperationsExecute : Prop :=
  ∀ (s : State) (cluster : Nat) (o : TileOp), s.nextTileOp cluster = some o → s.Present [o.sid] →
    let tcx := o.sid.tcx
    let word := fun (s : State) (k r c : Nat) => sget 0 (s.tile cluster k) (128 * r + c)
    let done := fun (t : State) => (∀ x ∈ t.mx.ops, x.num ≠ o.num) ∧ (t.stream o.sid).cnt = (s.stream o.sid).cnt.dec 3
    (o.kind = .swap → ∃ t, exec (.tileOpExecute cluster) s = .next t ∧ done t ∧ (t.mat tcx).active = (s.mat tcx).shadow ∧
      (t.mat tcx).shadow = (s.mat tcx).active) ∧
    (∀ k, o.kind = .zero → o.tile = some k → ∃ t, exec (.tileOpExecute cluster) s = .next t ∧ done t ∧
      ∀ r c, c < 128 → word t k r c = if o.rowBase ≤ r ∧ r < o.rowBase + o.rows then 0 else word s k r c) ∧
    (∀ k, (o.kind = .new ∨ o.kind = .rel) → o.tile = some k → ∃ t, exec (.tileOpExecute cluster) s = .next t ∧ done t ∧
      t.tile cluster k = [] ∧ (t.mat tcx).releasing = (s.mat tcx).releasing.erase k) ∧
    (∀ rows s1, o.kind = .load → s.readRows o.sid cluster true o.mem = (rows, s1) → (s1.stream o.sid).cnt = (s.stream o.sid).cnt →
      s1.Present [o.sid] → ∃ t, exec (.tileOpExecute cluster) s = .next t ∧ done t ∧ (t.mat tcx).shadow = planeOf o.slot o.rows rows ∧
        (t.mat tcx).active = (s1.mat tcx).active) ∧
    (∀ k rows s1, o.kind = .tld → o.tile = some k → s.readRows o.sid cluster false o.mem = (rows, s1) →
      (s1.stream o.sid).cnt = (s.stream o.sid).cnt → s1.Present [o.sid] → rows.length = o.rows →
      ∃ t, exec (.tileOpExecute cluster) s = .next t ∧ done t ∧ ∀ r c, c < 128 → word t k r c =
        if o.rowBase ≤ r ∧ r < o.rowBase + o.rows then BitVec.ofNat 32 (fld (rows.getD (r - o.rowBase) []) (4 * c) 4)
        else word s1 k r c) ∧
    (∀ k z rows s1, o.kind = .mul z → o.queue = none → o.tile = some k → s.readRows o.sid cluster false o.mem = (rows, s1) →
      (s1.stream o.sid).cnt = (s.stream o.sid).cnt → s1.Present [o.sid] → rows.length = o.rows →
      ∃ t, exec (.tileOpExecute cluster) s = .next t ∧ done t ∧ ∀ r c, c < 128 → word t k r c =
        if o.rowBase ≤ r ∧ r < o.rowBase + o.rows then
          mmulElem (s1.mat tcx) o.slot (r - o.rowBase) (rows.getD (r - o.rowBase) []) (if z then 0 else word s1 k r c) c
        else word s1 k r c) ∧
    (∀ k z, o.kind = .drain z → o.queue = none → o.tile = some k → o.mem = [] → ∃ t, exec (.tileOpExecute cluster) s = .next t ∧ done t ∧
      t.mem = s.mem ∧ ∀ r c, c < 128 → word t k r c =
        if z = true ∧ o.rowBase ≤ r ∧ r < o.rowBase + o.rows then 0 else word s k r c) ∧
    (∀ k z, o.kind = .drain z → o.tile = some k →
      let rows := (List.range o.rows).map (drainRow o (s.tile cluster k))
      let w := (s.team tcx).recd.groupW
      let total := (rows.flatten.length + 4 * w - 1) / (4 * w)
      let zeroed := fun (t : State) => ∀ r c, c < 128 → word t k r c =
        if z = true ∧ o.rowBase ≤ r ∧ r < o.rowBase + o.rows then 0 else word s k r c
      (∀ s1, o.queue = none → s.writeRows o.sid cluster rows o.mem = s1 → s1.mx = s.mx → s1.Present [o.sid] →
        (s1.stream o.sid).cnt = (s.stream o.sid).cnt →
        ∃ t, exec (.tileOpExecute cluster) s = .next t ∧ done t ∧ t.mem = s1.mem ∧ zeroed t) ∧
      (∀ a l n, o.queue = none → o.rows = 1 → o.mem = [[(a, l, n)]] → l.space.local = true → s.keyDown l.key = false →
        s.cache? l.vcid = none → (∀ x ∈ s.ops, x.phase ≠ .left) →
        ∃ t, exec (.tileOpExecute cluster) s = .next t ∧ done t ∧
          Stored s.mem t.mem l.key ((drainRow o (s.tile cluster k) 0).take n) ∧ zeroed t) ∧
      (∀ key, o.queue = some key → s.mx.ops.find? (fun x => decide (x.num = o.num)) = some o → o.moved = 0 → s.qu.xfers = [] →
        (0 < w → total ≤ 16 → total ≤ (s.queue key).free → ∃ t es, exec (.tileOpExecute cluster) s = .next t ∧ done t ∧
          (t.queue key).entries = (s.queue key).entries ++ es ∧ es.length = total ∧ (∀ e ∈ es, e.state = .ready) ∧
          (es.flatMap fun e => entryBytes e w).take rows.flatten.length = rows.flatten ∧ zeroed t) ∧
        ((s.queue key).free = 0 → rows.flatten ≠ [] → ∃ t, exec (.tileOpExecute cluster) s = .next t ∧ t.queue key = s.queue key ∧
          t.mx.tiles = s.mx.tiles ∧ ∃ x ∈ t.mx.ops, x.num = o.num ∧ x.bytes = rows.flatten))) ∧
    (∀ k z key, o.kind = .mul z → o.queue = some key → o.tile = some k → s.mx.ops.find? (fun x => decide (x.num = o.num)) = some o →
      o.moved = 0 → o.bytes = [] → s.qu.xfers = [] →
      let n := fmtBytes (slotAFmt o.slot) (s.mat tcx).active.klen
      let w := (s.team tcx).recd.groupW
      let total := (o.rows * n + 4 * w - 1) / (4 * w)
      (∀ es rest, total ≤ 16 → (s.queue key).entries = es ++ rest → es.length = total → (∀ e ∈ es, e.state = .ready) →
        let rows := cutRows (es.flatMap fun e => entryBytes e w) n o.rows
        ∃ t, exec (.tileOpExecute cluster) s = .next t ∧ done t ∧ (t.queue key).entries = rest ∧ ∀ r c, c < 128 → word t k r c =
          if o.rowBase ≤ r ∧ r < o.rowBase + o.rows then
            mmulElem (s.mat tcx) o.slot (r - o.rowBase) (rows.getD (r - o.rowBase) []) (if z then 0 else word s k r c) c
          else word s k r c) ∧
      (0 < total → (s.queue key).ready = 0 → (s.team tcx).shadow = false → exec (.tileOpExecute cluster) s = .next s)) ∧
    (∀ rows s1, o.kind = .scA → s.readRows o.sid cluster false o.mem = (rows, s1) → (s1.stream o.sid).cnt = (s.stream o.sid).cnt →
      s1.Present [o.sid] → ∃ t, exec (.tileOpExecute cluster) s = .next t ∧ done t ∧ (t.mat tcx).aBlk = slotABlk o.slot ∧
        (t.mat tcx).aCodes = codesOf 16 rows ∧ (t.mat tcx).active = (s1.mat tcx).active) ∧
    (∀ rows s1, o.kind = .scB → s.readRows o.sid cluster true o.mem = (rows, s1) → (s1.stream o.sid).cnt = (s.stream o.sid).cnt →
      s1.Present [o.sid] → ∃ t, exec (.tileOpExecute cluster) s = .next t ∧ done t ∧ (t.mat tcx).active = (s1.mat tcx).active ∧
        (t.mat tcx).shadow.elems = (s1.mat tcx).shadow.elems)

/-- R302, R305, R310 to R312: a `dcopy` or `dfill` of one thread whose checks pass takes the tracker entry that the core gives,
raises CPC, answers the handle in D and sets the vault words of its destination empty; one of no bytes is final at once; a length
beyond 2^40 traps. R313: a `tcopy` whose maps are refused is REJECTED at once, with the word of the first failure and
ILLEGAL_OPERAND in slot 2; one whose checks pass waits for a Dray; an origin block at another rank is asked for first. R303, R314:
`dstat` answers the status word of the copy of a handle, `dcancel` also asks for its end where it is not final, and both 0x70000000
for a handle of no copy of the team. Whose traps the failures of the origin block are and the order in which the counters' addresses
and the maps are checked is the model's choice (log 60). Completion: under the premises of its clause on the state and the operands
alone, each of `dcopy`, `tcopy`, `dfill`, `dcancel`, `dstat` answers a next state of its own effect. -/
def Obligations.CopiesIssueAndReport : Prop :=
  (
    ∀ (o : CopyOp) (fill : Bool) (s : State) (id : SId) (sa da sc nc : DWord) (e : Nat), s.Alone o.g id →
      let st := s.stream id
      let t := s.team id.tcx
      let len := (st.rd64 o.x).toNat
      let w := 2 ^ o.width.toNat
      let i := if fill then Instr.dfill o else Instr.dcopy o
      let k : CopyId := ⟨t.coreOf id, e⟩
      let answered := fun (t' : State) (h : Word) =>
        let st1 := st.kill64 o.s1 o.k1
        t'.stream id = { (if fill then st1.kill o.s2 o.k2 else st1.kill64 o.s2 o.k2).wr o.d h with
          cnt := if len = 0 then st.cnt else st.cnt.add 2 1 }.goto s.cur.npc
      st.cnt.cp < 254 → t.coreOf id < 192 →
      (2 ^ 40 < len → exec i s = .next (s.trapLow o.g 0x03)) ∧
      (len ≤ 2 ^ 40 → s.copyRange st (st.rd64 o.s1) len = .ok da →
        (fill = false → s.copyRange st (st.rd64 o.s2) len = .ok sa ∧ ¬(class10 da = true ∧ class10 sa = true)) →
        (fill = true → (st.rd64 o.s1).toNat % w = 0 ∧ len % w = 0) →
        s.copyCounters st o.x da (if fill then none else some sa) = .ok (sc, nc) → s.freeEntry (t.coreOf id) = some e →
        s.vt.waiters = [] → (len = 0 → sc = 0) →
        ∃ t' c, exec i s = .next t' ∧ t'.copy? k = some c ∧ answered t' c.handle ∧
          c.gen = ((s.copy? k).map fun old => (old.gen + 1) % 16384).getD 1 ∧ c.state = (if len = 0 then 2 else 0) ∧
          c.tcx = id.tcx ∧ c.sid = id ∧ c.fn = t.fn ∧ c.asid = t.recd.asid ∧ c.dst = da ∧ c.len = len ∧
          c.kind = (if fill then .fill (st.rd o.s2) o.width.toNat else .bytes sa) ∧ c.spray = o.spray.toNat ∧ c.srcCtr = sc ∧
          c.notify = nc ∧ (∀ j, j ≠ k → (t'.copy? j).map Copy.handle = (s.copy? j).map Copy.handle) ∧
          (len ≠ 0 → t'.mem = s.mem ∧ t'.ops = s.ops ∧
            ∀ a, a ∈ t'.vt.empty ↔ a ∈ s.vt.empty ∨ ∃ j, j < len ∧ vaultWordOf (da + BitVec.ofNat 64 j) = some a))) ∧
  (
    ∀ (o : CopyOp) (s s1 sA sB : State) (id : SId) (bs : List Byte) (smR dmR : MapRead) (sc : DWord) (e : Nat), s.Alone o.g id →
      let st := s.stream id
      let t := s.team id.tcx
      let reads := fun (p : DWord) => readMap t.fn t.recd.asid (s1.recordAddr st p)
      let od := originsAt bs 0x40
      let os := originsAt bs 0
      let out := fun (x : Stream) (h : Word) => ((x.kill64 o.s1 o.k1).kill64 o.s2 o.k2).wr o.d h
      st.cnt.cp < 254 → t.coreOf id < 192 → s.nearPending [id] 0b11111 = false →
      (class10 (st.rd64 o.x) = true → st.block = [] → (st.rd64 o.x).toNat % 8 = 0 →
        exec (.tcopy o) s = .next (s.fetchBlock st (st.rd64 o.x)).stalled) ∧
      ((class10 (st.rd64 o.x) = true → st.block ≠ []) → s1.team id.tcx = t →
      s.originBlock st (st.rd64 o.x) (List.range 16) = (.ok bs, s1) →
      (reads (st.rd64 o.s2)).run s1 = (smR, sA) → (reads (st.rd64 o.s1)).run sA = (dmR, sB) →
      originBad smR os = false → originBad dmR od = false →
      sB.copyCounter st (st.rd64 (o.x.up 2)) false = .ok sc → sB.freeEntry (t.coreOf id) = some e →
      (∀ w s2, (checkMaps smR dmR).run sB = (.error w, s2) → sc = 0 → s2.Alone o.g id →
        ∃ t' c, exec (.tcopy o) s = .next t' ∧ t'.copy? ⟨t.coreOf id, e⟩ = some c ∧ c.state = 5 ∧ c.reason = w ∧ c.sid = id ∧
          c.status = 5#4 ++ 0#4 ++ w.extractLsb' 0 24 ∧
          t'.stream id = { out (s2.stream id) c.handle with
            slots := (s2.stream id).slots.record 2 ⟨0x03, 0⟩ }.goto s2.cur.npc) ∧
      (∀ d m nc s2, (checkMaps smR dmR).run sB = (.ok (d, m), s2) → s2.Alone o.g id →
        s2.copyCounters st o.x d.base (some m.base) = .ok (sc, nc) → d.elems * d.elem ≠ 0 → s2.vt.waiters = [] →
        ∃ t' c, exec (.tcopy o) s = .next t' ∧ t'.copy? ⟨t.coreOf id, e⟩ = some c ∧ c.state = 0 ∧ c.sid = id ∧ c.dst = d.base ∧
          c.kind = .tensor d m (od.take d.box.length) (os.take m.box.length) ∧ c.len = d.elems * d.elem ∧ c.srcCtr = sc ∧
          c.notify = nc ∧ c.spray = o.spray.toNat ∧ t'.mem = s2.mem ∧
          (∀ a, a ∈ t'.vt.empty ↔ a ∈ s2.vt.empty ∨ a ∈ s2.ownWords t.recd.asid (wordsOf c.dests)) ∧
          t'.stream id = { out (s2.stream id) c.handle with cnt := (s2.stream id).cnt.add 2 1 }.goto s2.cur.npc))) ∧
  (
    ∀ (o : Alu1) (s : State) (low : SId) (rest : List SId), s.active o.g = low :: rest →
      let h := (s.stream low).rd o.s1
      let out := fun (v : Word) (st : Stream) => (st.kill o.s1 o.k1).wr o.d v
      (s.copyOf low.tcx h = none → exec (.dstat o) s = .next (s.completed o.g (out 0x70000000)) ∧
        exec (.dcancel o) s = .next (s.completed o.g (out 0x70000000))) ∧
      ∀ c, s.copyOf low.tcx h = some c → s.copy? c.id = some c →
        let w := if c.state = 5 then 5#4 ++ 0#4 ++ c.reason.extractLsb' 0 24
          else BitVec.ofNat 4 c.state ++ 0#4 ++ c.cause ++ c.reason.extractLsb' 0 8 ++ BitVec.ofNat 8 (min c.retx 255)
        exec (.dstat o) s = .next (s.completed o.g (out w)) ∧
        (2 ≤ c.state ∨ c.cancel.isSome → exec (.dcancel o) s = .next (s.completed o.g (out w))) ∧
        (c.state < 2 → c.cancel = none → ∃ t : State, exec (.dcancel o) s = .next (t.completed o.g (out w)) ∧
          t = { s with dr := { s.dr with copies := t.dr.copies }, outbox := t.outbox } ∧ t.copy? c.id = some { c with cancel := some s.gts } ∧
          (∀ k, k ≠ c.id → t.copy? k = s.copy? k) ∧
          t.outbox = s.outbox ++ (c.dest.map fun d => Msg.close c.seq c.job c.srcRank d).toList))

/-- R228, R304 to R308, R314, R331: a free Dray starts the copy that has waited longest; a fill of a vault within 64 B is written at
once and its words are full; a copy ends SUCCESS when its bytes are moved and its packets answered, ERROR after an error with the
cause in slot 2, CANCELLED after a cancellation; each end lowers CPC. That an error decides although `dcancel` was executed, and what
close is sent then, is the model's choice (log 63). Completion: under the premises of its clause on the state and the operands alone,
each of `copyStart`, `copyFinal`, `cancelConfirm`, `cancelTimeout` answers a next state of its own effect. -/
def Obligations.CopiesMoveAndEnd : Prop :=
  (∀ (s : State) (k : CopyId) (d : Nat) (c : Copy), s.copy? k = some c →
    (s.mayStart c d = false → exec (.copyStart k d) s = .next s) ∧
    (∀ src, s.mayStart c d = true → c.kind = .bytes src → class10 c.dst = true → class10 src = true → c.err = none →
      ∃ t, exec (.copyStart k d) s = .next t ∧ t = { s with dr := { s.dr with copies := t.dr.copies } } ∧
        t.copy? k = some { c with state := 1, dray := some d, err := some (0x12, 0) }) ∧
    (∀ p w, s.mayStart c d = true → c.kind = .fill p w → c.moved = 0 → c.dst.extractLsb' 62 2 = 1#2 → 0 < c.len →
      c.dst.toNat % 64 + c.len ≤ 64 → s.vaultBad c.asid (c.dst.toNat % 2 ^ 32) c.len = none → s.cache? 0 = none → s.vt.waiters = [] →
      (∀ o ∈ s.ops, o.phase ≠ .left) →
      ∃ t, exec (.copyStart k d) s = .next t ∧
        t.copy? k = some { c with state := 1, dray := some d, empties := [], moved := c.len, cxl := none } ∧
        Stored s.mem t.mem (vaultKey + c.dst.toNat % 2 ^ 32)
          ((List.range c.len).map fun j => p.extractLsb' (8 * (j % 2 ^ w)) 8) ∧
        (∀ a, a ∈ t.vt.empty ↔ a ∈ s.vt.empty ∧ a ∉ s.ownWords c.asid c.empties) ∧ t.streams = s.streams ∧ t.ops = s.ops)) ∧
  (∀ (s : State) (k : CopyId) (c : Copy), s.copy? k = some c → c.id.core ≠ 192 → c.empties = [] → c.srcCtr = 0 → c.notify = 0 →
    s.Present [c.sid] →
    let st := s.stream c.sid
    let ends := fun (t : State) (state : Nat) (cause : BitVec 8) (reason : Word) (slots : Slots) (out : List Msg) =>
      t.copy? k = some { c with state := state, cause := cause, reason := reason, dray := none, seq := s.nextOp } ∧
        (∀ j, j ≠ k → t.copy? j = s.copy? j) ∧ t.stream c.sid = { st with slots := slots, cnt := st.cnt.dec 2 } ∧
        (∀ id, id ≠ c.sid → t.stream? id = s.stream? id) ∧ t.mem = s.mem ∧ t.outbox = s.outbox ++ out
    let close := (c.dest.map fun d => Msg.close c.seq c.job c.srcRank d).toList
    (c.ending = none → c.going = false ∨ c.dest.isSome = true → exec (.copyFinal k) s = .next s) ∧
    (c.state = 1 → c.settled = true → c.todo.length ≤ c.moved → c.err = none → c.cancel = none →
      ∃ t, exec (.copyFinal k) s = .next t ∧ ends t 2 0 0 st.slots close) ∧
    (∀ e r, c.state = 1 → c.settled = true → c.err = some (e, r) → c.cancel = none →
      ∃ t, exec (.copyFinal k) s = .next t ∧ ends t 3 e (r.setWidth 32) (st.slots.record 2 ⟨e, r.setWidth 16⟩) close) ∧
    (c.state < 2 → c.state = 0 ∨ c.settled = true ∨ c.confirmed = true → c.err = none → c.cancel.isSome = true →
      ∃ t, exec (.copyFinal k) s = .next t ∧ ends t 4 0 0 st.slots []) ∧
    (c.state < 2 → c.cancel.isSome = true → ∃ t, exec (.cancelConfirm k) s = .next t ∧
      t = { s with dr := { s.dr with copies := t.dr.copies } } ∧ t.copy? k = some { c with confirmed := true }) ∧
    (∀ at_, c.state < 2 → c.cancel = some at_ → c.confirmed = false → c.settled = false →
      (at_ + 100000000 ≤ s.gts → ∃ t, exec (.cancelTimeout k) s = .next t ∧
        let e := c.err.getD (0x21, 0)
        ends t 3 e.1 (e.2.setWidth 32) (st.slots.record 2 ⟨e.1, e.2.setWidth 16⟩) []) ∧
      (s.gts < at_ + 100000000 → exec (.cancelTimeout k) s = .next s)))

/-- R320 to R322: at the source an acknowledgement settles its packet, a NACK settles it with REMOTE_NACK and its reason, silence
for 100 ms with REMOTE_TIMEOUT, the first error deciding; an unanswered packet is sent again on the next path after its timeout; at
the target a packet is placed once, a repeated one is acknowledged only, and none is placed after the close. That a packet sent again
carries the bytes that its first sending read is the model's choice (log 115). Completion: under the premises of its clause on the
state and the operands alone, each of `packetPlace`, `packetAck`, `packetNack`, `packetRetransmit`, `copyTimeout`, `copyClose` answers
a next state of its own effect. -/
def Obligations.PacketsAreAnswered : Prop :=
  (∀ (s : State) (k : CopyId) (c : Copy) (n : Nat) (p : Packet), s.copy? k = some c → c.inFlight n = some p →
    let settled := fun (t : State) (err : Option (BitVec 8 × BitVec 8)) =>
      t = { s with dr := { s.dr with copies := t.dr.copies } } ∧ (∀ j, j ≠ k → t.copy? j = s.copy? j) ∧
        t.copy? k = some { c with
          err := err, packets := c.packets.map fun q => if q.index = n then { q with acked := true } else q }
    (∀ data, class10 c.dst = true → ∃ t, exec (.packetAck k n data) s = .next t ∧ settled t c.err) ∧
    (∀ r, c.err = none → ∃ t, exec (.packetNack k n r) s = .next t ∧ settled t (some (0x20, r))) ∧
    (∀ r x, c.err = some x → ∃ t, exec (.packetNack k n r) s = .next t ∧ settled t (some x)) ∧
    (c.err = none → p.t0 + 100000000 ≤ s.gts → ∃ t, exec (.copyTimeout k n) s = .next t ∧ settled t (some (0x21, 0))) ∧
    (s.gts < p.t0 + 100000000 → exec (.copyTimeout k n) s = .next s) ∧
    (∀ x, c.dest = some (.pod x) → exec (.packetRetransmit k n) s = .next s) ∧
    (c.err.isSome = true ∨ c.cancel.isSome = true → exec (.packetRetransmit k n) s = .next s) ∧
    (∀ a, c.dest = some (.fabric a) → s.gts < p.last + min (20000 * 2 ^ p.tries) 2000000 → exec (.packetRetransmit k n) s = .next s) ∧
    (∀ a, c.dest = some (.fabric a) → p.last + min (20000 * 2 ^ p.tries) 2000000 ≤ s.gts → c.err = none → c.cancel = none →
      let path := (p.path + 1) % c.paths
      let head : PacketHead := ⟨c.seq, n, c.job, c.srcRank, .fabric a, c.token, path, none⟩
      ∃ t, exec (.packetRetransmit k n) s = .next t ∧
        t.outbox = s.outbox ++ [if class10 c.dst then .packet head (byteRuns p.data) c.notify
          else .fetch head (fetchRanges ((c.cut c.carried).getD n []))] ∧
        t = { s with dr := { s.dr with copies := t.dr.copies }, outbox := t.outbox } ∧
        t.copy? k = some { c with
          retx := min (c.retx + 1) 255
          packets := c.packets.map fun q =>
            if q.index = n then { p with last := s.gts, path := path, tries := p.tries + 1 } else q })) ∧
  (∀ (s : State) (p : InPacket),
    let old := s.placedOf p.req.job p.req.srcRank p.copy
    let ack := Msg.ack p.req.job p.req.srcRank p.copy p.index
    (old.closed = true → exec (.packetPlace p) s = .next s) ∧
    (old.closed = false → p.index ∈ old.indices → exec (.packetPlace p) s = .next { s with outbox := s.outbox ++ [ack] }) ∧
    (∀ r s1, old.closed = false → p.index ∉ old.indices → s.placePacket p.req p.data p.notify = (.error r, s1) →
      exec (.packetPlace p) s = .next { s1 with outbox := s1.outbox ++ [.nack p.req.job p.req.srcRank p.copy p.index r] }) ∧
    (∀ s1, old.closed = false → p.index ∉ old.indices → s.placePacket p.req p.data p.notify = (.ok (), s1) →
      ∃ t, exec (.packetPlace p) s = .next t ∧ t = { s1 with dr := { s1.dr with placed := t.dr.placed }, outbox := s1.outbox ++ [ack] } ∧
        (t.placedOf p.req.job p.req.srcRank p.copy).closed = false ∧
        ∀ j, j ∈ (t.placedOf p.req.job p.req.srcRank p.copy).indices ↔ j = p.index ∨ j ∈ old.indices)) ∧
  (∀ (s : State) (job : Word) (src copy : Nat), ∃ t, exec (.copyClose ⟨job, src⟩ copy) s = .next t ∧
    t = { s with dr := { s.dr with placed := t.dr.placed } } ∧ t.placedOf job src copy = ⟨job, src, copy, [], true⟩ ∧
    ∀ j a b, (j, a, b) ≠ (job, src, copy) → t.placedOf j a b = s.placedOf j a b)

/-- R319, R326, R327, R329, R361: the Porter checks a request in the order of R327 and answers the first failure; a request that
passes is served and answered; an atomic that arrives 7 ms late is discarded, a repeated one is answered from the reply cache, and a
cached reply goes 8 ms after it. R316, R319, R322, R330, R361: an answer of another device that comes in time ends the access; a
NACK, a port that is down or 100 ms of silence end it with all ones and the cause in its slot; an atomic is sent again until 6 ms
after its first sending, and at 8 ms its outcome is unknown. Completion: under the premises of its clause on the state and the
operands alone, each of `remoteRequest`, `remoteReply`, `remoteAccessTimeout`, `remoteAtomicExecute`, `remoteAtomicResend`,
`atomicOutcomeUnknown`, `replyCacheExpire` answers a next state of its own effect. -/
def Obligations.PorterAndRemoteAccesses : Prop :=
  (
    (∀ (s : State) (r : InReq) (load : Option Nat) (data : List Byte),
      let n := load.getD data.length
      let right := if load.isSome then 0 else 1
      let answer := fun (t : State) (x : Reply) =>
        exec (.remoteRequest r load data) s = .next { t with outbox := t.outbox ++ [.reply r.srcRank x] }
      ((∀ j ∈ s.jobs, ¬(j.v = true ∧ j.jid = r.job)) → answer s (.nack 2)) ∧
      ∀ k, s.jobs.findIdx? (fun j => j.v && j.jid == r.job) = some k →
        ((∀ e ∈ (s.job k).keys, e.1 ≠ tokGen r.token) → answer s (.nack 3)) ∧
        (∀ e, (s.job k).keys.find? (fun e => e.1 = tokGen r.token) = some e →
          let mac := Config.kmac e.2 (r.token.extractLsb' 32 32) (s.job k).rank r.job = r.token.extractLsb' 0 32
          (¬mac → answer s (.nack 4)) ∧
          (mac → s.current r.token = false → answer s (.nack 5)) ∧
          (mac → s.current r.token = true →
            (∀ s1, s.region k (tokRegion r.token) = (none, s1) → answer s1 (.nack 6)) ∧
            (∀ s1 e, s.region k (tokRegion r.token) = (some e, s1) →
              let rights := (tokRights r.token &&& e.rights).getLsbD right
              let limit := min (2 ^ tokSize r.token) (2 ^ e.size)
              (tokRegion r.token ≠ r.region → answer s1 (.nack 6)) ∧
              (tokRegion r.token = r.region → rights = false → answer s1 (.nack 7)) ∧
              (tokRegion r.token = r.region → rights = true → limit < r.offset + n → answer s1 (.nack 8)) ∧
              (tokRegion r.token = r.region → rights = true → r.offset + n ≤ limit →
                let places := s1.portLocs k e (if load.isSome then .load else .store) r.offset n
                let lens := (pieces (e.base.toNat + r.offset) n).map (·.2)
                (∀ x s2, places = (.error x, s2) → x = 9 ∧ answer s2 (.nack 9)) ∧
                (∀ ls s2, places = (.ok ls, s2) →
                  (load.isSome = true → answer (s2.portRead (ls.zip lens)).2 (.data (s2.portRead (ls.zip lens)).1)) ∧
                  (load = none → answer (s2.portWrite data (ls.zip lens)) (.data [])))))))) ∧
    (∀ (s : State) (a : InAtomic),
      (a.t0 + 7000000 ≤ s.gts → exec (.remoteAtomicExecute a) s = .next s) ∧
      (s.gts < a.t0 + 7000000 →
        (∀ x, s.dr.replies.find? (fun x => x.srcRank = a.req.srcRank && x.seq = a.seq) = some x →
          exec (.remoteAtomicExecute a) s = .next { s with outbox := s.outbox ++ [.atomReply a.req.srcRank a.seq x.reply] }) ∧
        (∀ x s1, (∀ y ∈ s.dr.replies, ¬(y.srcRank = a.req.srcRank ∧ y.seq = a.seq)) →
          s.serveAtomic a.req a.op a.lanes = (x, s1) →
          ∃ t, exec (.remoteAtomicExecute a) s = .next t ∧ t.outbox = s1.outbox ++ [.atomReply a.req.srcRank a.seq x] ∧
            t.mem = s1.mem ∧ t.dr.replies = s1.dr.replies ++ (match x with
              | .data _ => [CachedReply.mk a.req.srcRank a.seq x s1.gts]
              | _ => [])))) ∧
    (∀ (s : State) (src seq : Nat), ∃ t, exec (.replyCacheExpire src seq) s = .next t ∧
      t = { s with dr := { s.dr with replies := t.dr.replies } } ∧
      ∀ x, x ∈ t.dr.replies ↔ x ∈ s.dr.replies ∧ ¬(x.srcRank = src ∧ x.seq = seq ∧ x.time + 8000000 ≤ s.gts))) ∧
  (
    ∀ (s : State) (n : Nat) (o : MemOp) (l : OpLane) (t0 tries : Nat) (port : Option Nat), s.op? n = some o →
      o.phase = .sent t0 tries port → 2 ^ 63 ≤ o.loc.key → o.lanes = [l] → s.Present [l.sid] → o.entry = none →
      let st := s.stream l.sid
      let ends := fun (t : State) (f : Stream → Stream) => t = { s with streams := t.streams, ops := t.ops } ∧ t.op? n = none ∧
        (t.stream l.sid).bare = { f st with cnt := st.cnt.dec o.counter }.bare ∧ ∀ id, id ≠ l.sid → t.stream? id = s.stream? id
      (o.kind = .load false → o.size = 4 → o.d ≠ 0 → st.window = none →
        let inTime := s.gts < t0 + 100000000
        let fails := fun (e : Err) (st : Stream) => { st.wr o.d 0xFFFFFFFF with slots := st.slots.record o.counter e }
        (∀ bs, inTime → ∃ t, exec (.remoteReply n (.data bs)) s = .next t ∧
          ends t fun st => st.wr o.d (BitVec.ofNat 32 (natOfBytes (bs.take 4)))) ∧
        (∀ r, inTime → ∃ t, exec (.remoteReply n (.nack r)) s = .next t ∧ ends t (fails ⟨0x20, r.setWidth 16⟩)) ∧
        (inTime → ∃ t, exec (.remoteReply n .portDown) s = .next t ∧ ends t (fails ⟨0x24, 0⟩)) ∧
        (t0 + 100000000 ≤ s.gts → (∃ t, exec (.remoteAccessTimeout n) s = .next t ∧ ends t (fails ⟨0x21, 0⟩)) ∧
          ∀ r, exec (.remoteReply n r) s = .next s) ∧
        (s.gts < t0 + 100000000 → exec (.remoteAccessTimeout n) s = .next s)) ∧
      (o.kind = .rmw .add false →
        (∀ bs, s.gts < t0 + 8000000 → ∃ t, exec (.remoteReply n (.data bs)) s = .next t ∧ ends t id) ∧
        (∀ r, t0 + 8000000 ≤ s.gts → exec (.remoteReply n r) s = .next s) ∧
        (o.loc.space = .remote → t0 + resendAfter tries ≤ s.gts → s.gts < t0 + 6000000 →
          ∃ t, exec (.remoteAtomicResend n) s = .next t ∧ t = { s with ops := t.ops, outbox := t.outbox } ∧
            t.op? n = some { o with phase := .sent t0 (tries + 1) port } ∧ t.outbox = s.outbox ++ (s.requestOf n).take 1) ∧
        (t0 + 6000000 ≤ s.gts ∨ s.gts < t0 + resendAfter tries → exec (.remoteAtomicResend n) s = .next s) ∧
        (t0 + 8000000 ≤ s.gts → ∃ t, exec (.atomicOutcomeUnknown n) s = .next t ∧
          ends t fun st => { st with slots := st.slots.record o.counter ⟨0x22, 0⟩ }) ∧
        (s.gts < t0 + 8000000 → exec (.atomicOutcomeUnknown n) s = .next s)))

/-- R315, R326, R328, R445: a job slot becomes valid unless RANK is not below NRANKS or another valid slot holds the ASID, and
brings its level-T table onto the die; either change of its V drops its entries of the rank cache; its registers are written while
it is not valid; keys are installed and retired by generation, and an installation through the management port is answered, with
bytes that are the model's choice (log 20). Completion: under the premises of its clause on the state and the operands alone, each of
`jobSlotValidate`, `jobSlotInvalidate`, `jobSelfRank`, `jobSelfNranks`, `regionBaseWrite`, `keyInstall`, `keyRetire`, `mgmtKeyInstall`
answers a next state of its own effect. -/
def Obligations.JobSlotsAndKeys : Prop :=
  ∀ (s : State) (n : Nat), n < s.jobs.length →
    let j := s.job n
    let sets := fun (i : Instr) (j' : JobSlot) => ∃ t, exec i s = .next t ∧ t = { s with jobs := t.jobs } ∧ t.job n = j' ∧
      ∀ m, m ≠ n → t.job m = s.job m
    -- the rank cache keeps no entry of the slot
    let drops := fun (t : State) => t = { s with jobs := t.jobs, dr := { s.dr with ranks := t.dr.ranks } } ∧
      ∀ e, e ∈ t.dr.ranks ↔ e ∈ s.dr.ranks ∧ e.1 ≠ n
    (∀ asid,
      let other := ∃ m, m ≠ n ∧ (s.job m).v = true ∧ (s.job m).asid = asid
      (j.v = true → exec (.jobSlotValidate n asid) s = .next s) ∧
      (j.v = false → (j.last < j.rank ∨ other) → sets (.jobSlotValidate n asid) { j with asid := asid }) ∧
      (j.v = false → j.rank ≤ j.last → ¬other →
        ∃ t ts, exec (.jobSlotValidate n asid) s = .next t ∧ drops t ∧
          t.job n = { j with v := true, asid := asid, levelT := ts, levelM := (t.job n).levelM, regions := [], gen := j.gen + 1 } ∧
          ts.length = 32 ∧ (∀ i, i < 32 → ts[i]? = some (s.readRankDesc (j.tableBase + 32 * i))) ∧ ∀ m, m ≠ n → t.job m = s.job m) ∧
      (j.v = true → ∃ t, exec (.jobSlotInvalidate n asid) s = .next t ∧ drops t ∧
        t.job n = { j with v := false, levelT := [], levelM := [], regions := [] } ∧ ∀ m, m ≠ n → t.job m = s.job m) ∧
      (j.v = false → sets (.jobSlotInvalidate n asid) { j with asid := asid })) ∧
    (∀ v, (j.v = true → exec (.jobSelfRank n v) s = .next s ∧ exec (.jobSelfNranks n v) s = .next s) ∧
      (j.v = false → sets (.jobSelfRank n v) { j with rank := v.toNat } ∧ sets (.jobSelfNranks n v) { j with last := v.toNat })) ∧
    (∀ v, sets (.regionBaseWrite n v) { j with rgnLo := v, regions := [] }) ∧
    (∀ (g : BitVec 2) (ws : List Word), ws.length = 7 →
      let installed := { j with keys := (j.keys.filter fun e => e.1 ≠ g.toNat) ++ [(g.toNat, ws)] }
      (j.pending = [] → sets (.keyInstall n g ws) installed ∧
        sets (.keyRetire n g) { j with keys := j.keys.filter fun e => e.1 ≠ g.toNat }) ∧
      (j.pending ≠ [] → exec (.keyInstall n g ws) s = .next s ∧ exec (.keyRetire n g) s = .next s) ∧
      ∃ t bs, exec (.mgmtKeyInstall n g ws) s = .next t ∧
        t = { s with jobs := t.jobs, free := s.free + 1, outbox := s.outbox ++ [.mgmt bs] } ∧ t.job n = installed ∧
        ∀ m, m ≠ n → t.job m = s.job m)

/-- R324, R325: the results of `rgtok` and `rgtok.rm`, and what they leave in the token store. Completion: under the premises of its
clause on the state and the operands alone, each of `rgtok`, `rgtokRm` answers a next state of its own effect. -/
def Obligations.GrantTokensAreStored : Prop :=
  ∀ (s : State) (id : SId),
    let st := s.stream id
    let asid := s.curTeam.recd.asid
    let bad := fun (n : Nat) (r : Word) => (s.job n).last < r.toNat % 2 ^ 17 ∨ r.toNat / 2 ^ 17 ≠ 0
    let others := fun (t : State) (rank region : Nat) =>
      ∀ a r g, (a, r, g) ≠ (asid, rank, region) → t.tokenOf a r g = s.tokenOf a r g
    (∀ o : AluR, s.Alone o.g id →
      let tok := st.rd64 o.s1
      let r := st.rd o.s2
      let rank := r.toNat % 2 ^ 17
      let answers := fun (t : State) (v : Word) =>
        exec (.rgtok o) s = .next (t.completed o.g fun st => ((st.kill64 o.s1 o.k1).kill o.s2 o.k2).wr o.d v)
      let stores := fun (v : Word) => ∃ t, answers t v ∧ t = { s with tokens := t.tokens } ∧
        t.tokenOf asid rank (tokRegion tok) = some tok ∧ others t rank (tokRegion tok)
      (s.jobOf asid = none → answers s 4) ∧
      ∀ n, s.jobOf asid = some n →
        (bad n r → answers s 5) ∧
        (¬bad n r → (tokRights tok = 0 ∨ tokSize tok < 12 ∨ 40 < tokSize tok → answers s 3) ∧
          (tokRights tok ≠ 0 → 12 ≤ tokSize tok → tokSize tok ≤ 40 →
            (1048576 ≤ s.tokens.length → answers s 2) ∧
            (s.tokens.length < 1048576 → s.tokenOf asid rank (tokRegion tok) ≠ none → stores 1) ∧
            (s.tokens.length < 1048576 → s.tokenOf asid rank (tokRegion tok) = none → stores 0)))) ∧
    (∀ (g : Guard) (d s2 : Reg) (k2 : Bool) (region : BitVec 5), s.Alone g id →
      let r := st.rd s2
      let rank := r.toNat % 2 ^ 17
      let answers := fun (t : State) (v : Word) =>
        exec (.rgtokRm g d s2 k2 region) s = .next (t.completed g fun st => (st.kill s2 k2).wr d v)
      (s.jobOf asid = none → answers s 4) ∧
      ∀ n, s.jobOf asid = some n →
        (bad n r → answers s 5) ∧
        (¬bad n r → s.tokenOf asid rank region.toNat = none → answers s 6) ∧
        (¬bad n r → s.tokenOf asid rank region.toNat ≠ none → ∃ t, answers t 0 ∧ t = { s with tokens := t.tokens } ∧
          t.tokenOf asid rank region.toNat = none ∧ others t rank region.toNat))

/-- R385 to R387: WQ_n_CTL gives a queue its owner or takes it away, with the threads parked on it receiving all ones; `wqpush`
appends the values of its lanes in ascending thread index where all fit, waits for room where they do not, and traps on a queue that
is not the ASID's or not OPEN, on a reserved value, or where its queue lost its owner while it waited; `wqpop` takes the oldest
entry, parks on an empty open queue, and answers the end of a closed or aborted one. R386: WQ_CHUNK_PUSH pushes the next identifier
of an instance while its queue is open and has room, and after the last one of the first final instance the queue ends. Completion: under
the premises of its clause on the state and the operands alone, each of `wqpush`, `wqpushClose`, `wqpushReopen`, `wqpop`,
`wqCtlWrite`, `wqChunkPush` answers a next state of its own effect. -/
def Obligations.WorkQueuesHoldTheirEntries : Prop :=
  (∀ (s : State) (n : Nat) (v : Word), n < 256 →
    let q := s.wq n
    let asid := v.extractLsb' 0 16
    let holds := fun (t : State) (own : Bool) => exec (.wqCtlWrite n v) s = .next t ∧ (t.wq n).v = own ∧ (t.wq n).asid = asid ∧
      (∀ k, k ≠ n → t.wq k = s.wq k) ∧ t.mem = s.mem ∧ t.ops = s.ops
    (q.v = true → v.msb = true → q.asid = asid → exec (.wqCtlWrite n v) s = .next s) ∧
    (q.v = false → ∃ t, holds t v.msb ∧ t.streams = s.streams ∧
      (v.msb = true → (t.wq n).state = 0 ∧ (t.wq n).entries = [])) ∧
    (q.v = true → v.msb = false ∨ q.asid ≠ asid → ∃ t, holds t v.msb ∧ (t.wq n).entries = [] ∧
      (t.wq n).state = (if v.msb then 0 else 1) ∧
      (∀ id o, s.Present [id] → (s.stream id).park = .wqpop n o →
        t.stream id = (((s.stream id).kill o.s1 o.k1).wr o.d 0xFFFFFFFF).goto ((s.stream id).pc + 8)) ∧
      ∀ id b, s.Present [id] → (s.stream id).popping = none → (s.stream id).room = some (n, b) →
        t.stream id = { s.stream id with room := some (n, true) })) ∧
  (∀ (g : Guard) (s1 s2 : Reg) (k1 k2 : Bool) (s : State) (low : SId) (rest : List SId), s.active g = low :: rest →
    let ids := low :: rest
    let vals := ids.map fun id => (s.stream id).rd s2
    let now := fun (t : State) (n : Nat) (q : WorkQ) => t = { s with co := { s.co with wqs := t.co.wqs } } ∧
      t.wq n = { q with ver := (s.wq n).ver + 1 } ∧ ∀ k, k ≠ n → t.wq k = s.wq k
    (s.wqNumber (s.stream low) s1 = none → exec (.wqpush g s1 k1 s2 k2) s = .next (s.trapLow g 0x03) ∧
      exec (.wqpushClose g s1 k1) s = .next (s.trapLow g 0x03) ∧ exec (.wqpushReopen g s1 k1) s = .next (s.trapLow g 0x03)) ∧
    ∀ n, s.wqNumber (s.stream low) s1 = some n →
      let q := s.wq n
      let fits := ∀ v ∈ vals, v.toNat < 0xFFFFFFFE
      let lost := ∃ id ∈ ids, ∃ m, (s.stream id).room = some (m, true)
      (q.state ≠ 0 ∨ ¬fits ∨ lost → exec (.wqpush g s1 k1 s2 k2) s = .next (s.trapLow g 0x03)) ∧
      (q.state = 0 → fits → ¬lost → s.nearPending ids 0b00011 = false → s.vt.migrateMode = false →
        (q.entries.length + vals.length ≤ 1024 → ∃ t, now t n { q with entries := q.entries ++ vals } ∧
          exec (.wqpush g s1 k1 s2 k2) s = .next (t.completed g fun st => (st.kill s1 k1).kill s2 k2)) ∧
        (1024 < q.entries.length + vals.length → ∃ t, exec (.wqpush g s1 k1 s2 k2) s = .next t ∧ s.OnlyStreams t s.cur.lanes ∧
          ∀ id ∈ ids, s.Present [id] → t.stream id = { s.stream id with room := some (n, false) }.hold s.clock.cycles)) ∧
      (∃ t, now t n { q with state := if q.state = 0 then 1 else q.state } ∧
        exec (.wqpushClose g s1 k1) s = .next (t.completed g fun st => st.kill s1 k1)) ∧
      (∃ t, now t n { q with state := 0, entries := [] } ∧
        exec (.wqpushReopen g s1 k1) s = .next (t.completed g fun st => st.kill s1 k1))) ∧
  (∀ (o : Alu1) (s : State) (id : SId), s.Alone o.g id → (s.stream id).flush = none →
    let names := (s.wqNumber (s.stream id) o.s1)
    let ends := fun (t : State) (v : Word) => exec (.wqpop o) s = .next t ∧
      t = { s with streams := t.streams, co := { s.co with wqs := t.co.wqs } } ∧
      t.stream id = (((s.stream id).kill o.s1 o.k1).wr o.d v).goto s.cur.npc ∧ ∀ k, k ≠ id → t.stream? k = s.stream? k
    ((s.stream id).popping = none → names = none → exec (.wqpop o) s = .next (s.trapLow o.g 0x03)) ∧
    -- a thread that has parked takes its entry from the queue that was named then
    ∀ n, (s.stream id).popping = some n ∨ (s.stream id).popping = none ∧ names = some n →
      let q := s.wq n
      (∀ v r, q.entries = v :: r → ∃ t, ends t v ∧ t.wq n = { q with entries := r, ver := q.ver + 1 } ∧
        ∀ k, k ≠ n → t.wq k = s.wq k) ∧
      (q.entries = [] → q.state = 1 → ∃ t, ends t 0xFFFFFFFF ∧ t.co = s.co) ∧
      (q.entries = [] → q.state = 2 → ∃ t, ends t 0xFFFFFFFE ∧ t.co = s.co) ∧
      (q.entries = [] → q.state = 0 → ∃ t, exec (.wqpop o) s = .next t ∧ s.OnlyStreams t [id] ∧
        t.stream id = (s.stream id).parkAt (.wqpop n o))) ∧
  (∀ (s : State) (num c : Nat) (i : Inst) (n : Nat), s.inst? num = some i → i.desc.workq = some n →
    (i.pushes.head? ≠ some c → exec (.wqChunkPush num c) s = .next s) ∧
    (∀ r, i.pushes = c :: r →
      let opens := (s.wq n).isOpen = true ∧ (s.wq n).asid = i.asid
      (opens → 1024 ≤ (s.wq n).entries.length → exec (.wqChunkPush num c) s = .next s) ∧
      (i.final = false ∨ i.ended = true ∨ r ≠ [] →
        (opens → (s.wq n).entries.length < 1024 → ∃ t, exec (.wqChunkPush num c) s = .next t ∧
          t.inst? num = some { i with pushes := r } ∧ (t.wq n).entries = (s.wq n).entries ++ [BitVec.ofNat 32 c]) ∧
        (¬opens → ∃ t, exec (.wqChunkPush num c) s = .next t ∧ t = { s with co := { s.co with insts := t.co.insts } } ∧
          t.inst? num = some { i with pushes := r })) ∧
      (i.final = true → i.ended = false → r = [] → opens → (s.wq n).entries.length < 1024 → i.node = none → i.opener = none →
        ∃ t, exec (.wqChunkPush num c) s = .next t ∧ t.inst? num = some { i with pushes := [], ended := true } ∧
          (t.wq n).entries = (s.wq n).entries ++ [BitVec.ofNat 32 c] ∧
          -- the first final instance of the queue decides how it ends
          ((∀ x ∈ s.co.insts, x.desc.workq = some n → x.asid = i.asid → x.final = true → x.ended = false → i.seq ≤ x.seq) →
            (t.wq n).state = if i.aborted.isSome then 2 else 1) ∧
          (∀ x ∈ s.co.insts, x.desc.workq = some n → x.asid = i.asid → x.final = true → x.ended = false → x.seq < i.seq → x.num ≠ num →
            (t.wq n).state = 0))))

/-- R375 to R378, R391: `coll` of one thread opens an instance, fires its chunks, raises CPC and answers 0; an instance one of whose
buffer pages is no TARGET 00 page that translates is aborted as it opens; a descriptor with an open instance answers all ones, one
that its checks reject the word of the first failure, both with ILLEGAL_OPERAND in slot 2; `cabort` answers whether an instance is
open and aborts it; `cstat` answers the status of the newest instance. Completion: under the premises of its clause on the state and
the operands alone, each of `coll`, `cabort`, `cstat` answers a next state of its own effect. -/
def Obligations.CollectivesOpenAndReport : Prop :=
  (∀ (o : CollOp) (s : State) (id : SId), s.Alone o.g id → (s.stream id).cnt.cp < 254 →
    s.nearPending [id] (if o.rlx then 0b00011 else o.stor ||| 0b00011) = false → (o.rlx = false → s.vt.migrateMode = false) →
    let t := s.curTeam
    let a := s.recordAddr (s.stream id) ((s.stream id).rd64 o.s1)
    let out := fun (v : Word) (st : Stream) => (st.kill64 o.s1 o.k1).wr o.d v
    let refuses := fun (s1 : State) (v : Word) =>
      exec (.coll o) s = .next ((s1.recordErr id 2 ⟨0x03, 0⟩).completed o.g (out v))
    ((s.instOf t.recd.asid a).isSome = true → refuses s 0xFFFFFFFF) ∧
    (∀ w s1, s.instOf t.recd.asid a = none → (checkColl t.fn t.recd.asid a true).run s = (.error w, s1) → refuses s1 w) ∧
    (∀ d s1, s.instOf t.recd.asid a = none → (checkColl t.fn t.recd.asid a true).run s = (.ok d, s1) →
      exec (.coll o) s = .next
        ((((s1.openInst t.fn t.recd.asid a d (some id) none o.rlx).onLane id fun st => { st with cnt := st.cnt.add 2 1 }).fireAll
          s1.co.nextNum).completed o.g (out 0)))) ∧
  (∀ (s : State) (fn : Nat) (asid : BitVec 16) (a : DWord) (d : CollDesc) (op : Option SId) (node : Option Nat) (rlx : Bool) (n : Nat),
    s.jobOf asid = some n →
    (∀ j ∈ s.co.insts, j.num < s.co.nextNum) →
    let key : CollKey := ⟨(s.job n).jid, d.op, d.ranks⟩
    let t := s.openInst fn asid a d op node rlx
    t.co.nextNum = s.co.nextNum + 1 ∧
      ∃ i ∈ t.co.insts, i.num = s.co.nextNum ∧ i.slot = s.instSlot ∧ i.asid = asid ∧ i.fn = fn ∧ i.addr = a ∧ i.desc = d ∧ i.opener = op ∧
        i.node = node ∧ i.me = (d.member (s.job n).rank).getD 0 ∧ i.final = false ∧ i.chunks = [] ∧
        i.tag = ⟨key.job, d.op, d.ranks, ((s.co.opened.find? fun e => e.1 = key).map (·.2)).getD 0, d.algo, d.fmt, d.tripleD, d.chunk,
          d.total⟩ ∧
        (i.aborted = none ∨ d.op ≠ 5 ∧ ∃ c, i.aborted = some (c, d.rank i.me, i.me)) ∧
        (∀ j ∈ t.co.insts, j.slot = s.instSlot → j = i) ∧ (t.co.opened.find? fun e => e.1 = key) = some (key, i.tag.k + 1)) ∧
  (∀ (s : State) (num : Nat) (i : Inst), s.inst? num = some i → i.final = false → i.aborted = none →
    let fits := fun (va : Nat) => ∃ c, s.checkPage (s.unit i.fn i.asid) .load va = .ok c ∧ c.loc.space = .dev
    ((∀ va ∈ i.desc.pages, fits va) → s.checkBuffers num = s) ∧
    ∀ va ∈ i.desc.pages, ¬fits va → ∃ j c, (s.checkBuffers num).inst? num = some j ∧ j.aborted = some (c, i.desc.rank i.me, i.me)) ∧
  (∀ (o : Alu1) (s : State) (low : SId) (rest : List SId), s.active o.g = low :: rest →
    let asid := s.curTeam.recd.asid
    let a := s.recordAddr (s.stream low) ((s.stream low).rd64 o.s1)
    let out := fun (v : Word) (st : Stream) => (st.kill64 o.s1 o.k1).wr o.d v
    (s.instOf asid a = none → exec (.cabort o) s = .next (s.completed o.g (out 1))) ∧
    (∀ i, s.instOf asid a = some i → s.inst? i.num = some i → i.aborted = none →
      ∃ t : State, exec (.cabort o) s = .next (t.completed o.g (out 0)) ∧
        t = { s with co := { s.co with insts := t.co.insts }, outbox := t.outbox } ∧
        t.inst? i.num = some { i with aborted := some (0x41, i.desc.rank i.me, i.me) } ∧
        t.outbox = s.outbox ++ i.partners.map fun p => Msg.abort i.tag p (i.desc.rank i.me) i.me) ∧
    let stat := fun (w : DWord) => exec (.cstat o) s = .next (s.completed o.g fun st => (st.kill64 o.s1 o.k1).wr64 o.d w)
    ((∀ i ∈ s.co.insts, ¬(i.asid = asid ∧ i.addr = a)) → stat (-1)) ∧
    ∀ is i js, s.co.insts = is ++ i :: js → i.asid = asid → i.addr = a → (∀ j ∈ js, ¬(j.asid = asid ∧ j.addr = a)) →
      (i.final = false → stat 0) ∧ (i.final = true → i.aborted = none → stat (1#64 <<< 60)) ∧
      (∀ c r m, i.final = true → i.aborted = some (c, r, m) →
        stat (if c = 0x40 ∨ c = 0x41 then 2#4 ++ c ++ 0#18 ++ BitVec.ofNat 17 r ++ BitVec.ofNat 17 m else 2#4 ++ c ++ 0#52)))

/-- R379, R380, R382, R384: a stage of a chunk runs when its input is there: its value is folded or taken over, and sent to the
members of its path; an acknowledgement settles its forward; a member's silence beyond the timeout, an abort message and a packet
that does not fit its instance (log entry 118) abort the instance here and tell its partners; an instance is final when all its
stages are done or it has aborted, and ends once its pushes are made. R376: a collective packet that fails checks 1 to 3 of R327 is
answered with a NACK. Completion: under the premises of its clause on the state and the operands alone, each of `millerStep`,
`stepTimeout`, `abortReceive`, `instanceFinal` answers a next state of its own effect. -/
def Obligations.CollectiveInstancesProceed : Prop :=
  ∀ (s : State) (num : Nat) (i : Inst), s.inst? num = some i →
    (∀ p r v x m, s.collCheck p = some r →
      let nack := { s with outbox := s.outbox ++ [.collNack p.tag p.src r] }
      exec (.millerStep (.packet p) v x) s = .next nack ∧ exec (.abortReceive p m) s = .next nack) ∧
    (∀ p v x m, s.collCheck p = none → s.partner p.tag = none ∨ s.partner p.tag = some i ∧ (i.final = true ∨ i.aborted ≠ none) →
      exec (.millerStep (.packet p) v x) s = .next s ∧ exec (.abortReceive p m) s = .next s) ∧
    (∀ v x, i.aborted ≠ none → exec (.millerStep (.own num) v x) s = .next s) ∧
    (∀ v x, exec (.millerStep (.own num) v x) s = .next (s.runChunk num v (i.desc.count + 3))) ∧
    (i.final = false → i.aborted = none →
      let from_ := fun (p : InColl) => s.collCheck p = none ∧ s.partner p.tag = some i ∧ i.tag = p.tag
      (∀ p v k, from_ p → (i.sent.findIdx? fun f => f.chunk == v && f.member == p.src) = some k →
        ∃ t, exec (.millerStep (.packet p) v none) s = .next t ∧ t = { s with co := { s.co with insts := t.co.insts } } ∧
          t.inst? num = some { i with sent := i.sent.eraseIdx k }) ∧
      (∀ p v bs, from_ p → v < i.desc.virtuals → ∃ s1 : State,
        exec (.millerStep (.packet p) v (some bs)) s = .next (s1.runChunk num v (i.desc.count + 3)) ∧
        s1 = { s with co := { s.co with insts := s1.co.insts }, outbox := s.outbox ++ [.collAck i.tag v p.src] } ∧
        s1.inst? num = some (i.setChunk { i.chunk v with staged := (i.chunk v).staged ++ [(p.src, bs)] })) ∧
      (∀ v g x, (i.chunk v).fired = true → s.holdsEntry i v = true → (i.desc.stages i.me v)[(i.chunk v).step]? = some g →
        g.write = false → i.desc.workq = none →
        (match g.src with
          | none => some (i.chunk v).mine
          | some m => ((i.chunk v).staged.find? fun y => y.1 = m).map (·.2)) = some x →
        let val := if g.fold then ((i.chunk v).acc.map fun a => combine i.desc a x).getD x else x
        ∃ t j, s.runStage num v = some t ∧ t = { s with co := { s.co with insts := t.co.insts }, outbox := t.outbox } ∧
          t.outbox = s.outbox ++ g.dests.map (fun m => Msg.forward i.tag v m val) ∧ t.inst? num = some j ∧
          j.sent = i.sent ++ g.dests.map (fun m => Forward.mk v m s.gts) ∧ (j.chunk v).acc = some val ∧
          (j.chunk v).step = (i.chunk v).step + 1 ∧ ∀ w, w ≠ v → j.chunk w = i.chunk w) ∧
      (let aborts := fun (e : Instr) (cause : BitVec 8) (m : Nat) => ∃ t, exec e s = .next t ∧
          t = { s with co := { s.co with insts := t.co.insts }, outbox := t.outbox } ∧
          t.inst? num = some { i with aborted := some (cause, i.desc.rank m, m) } ∧
          t.outbox = s.outbox ++ i.partners.map fun p => Msg.abort i.tag p (i.desc.rank m) m
        let late := fun (m at_ : Nat) => at_ + i.desc.timeout * 1000 < s.gts ∧
          ((∃ c ∈ i.chunks, i.waitsFor c = some m ∧ c.since = at_) ∨ ∃ f ∈ i.sent, f.member = m ∧ f.time = at_)
        -- the member detected lost first, the lower index first
        let lost := fun (m : Nat) => ∃ at_, late m at_ ∧ ∀ m' at', late m' at' → at_ < at' ∨ at_ = at' ∧ m ≤ m'
        (∀ p m, from_ p → aborts (.abortReceive p m) 0x41 m) ∧
        (∀ p v x m, s.collCheck p = none → s.partner p.tag = some i → i.tag ≠ p.tag →
          aborts (.millerStep (.packet p) v x) 0x41 i.me ∧ aborts (.abortReceive p m) 0x41 i.me) ∧
        ∀ m, (lost m → aborts (.stepTimeout num m) 0x40 m) ∧ (¬lost m → exec (.stepTimeout num m) s = .next s)) ∧
      (i.complete = false → exec (.instanceFinal num) s = .next s)) ∧
    (i.aborted ≠ none ∨ i.complete = true → i.desc.notify = 0 → (∀ o ∈ s.ops, o.phase ≠ .left) →
      (i.final = false → i.pushes ≠ [] → ∃ t, exec (.instanceFinal num) s = .next t ∧
        t.inst? num = some { i with final := true, seq := s.co.nextNum } ∧ t.streams = s.streams ∧ t.co.wqs = s.co.wqs) ∧
      (i.ended = false → i.pushes = [] → i.desc.workq = none → i.node = none → ∀ sid, i.opener = some sid → s.Present [sid] →
        ∃ t, exec (.instanceFinal num) s = .next t ∧
          t.inst? num = some { i with final := true, ended := true, seq := if i.final then i.seq else s.co.nextNum } ∧
          t.stream sid = { s.stream sid with
            cnt := (s.stream sid).cnt.dec 2
            slots := match i.aborted with
              | some (c, _, _) => (s.stream sid).slots.record 2 ⟨c, 0⟩
              | none => (s.stream sid).slots }))

/-- R388 to R390: `mcst` and `mcput` send their bytes, in packets of at most 256 B with the token of each member, to every member of
the group but the device itself, raise CPC and leave a multicast whose answers are counted; a source that cannot be read counts ERROR
on the source counter and gives its cause in slot 2; a member answers once; when all have answered, or after 100 ms, the
acknowledgement word, which names the counts and the first NACK, is written and the source counter counts, and then CPC falls and slot
2 takes an error. That REMOTE_NACK records the reason of the lowest member is the model's choice (log 65), and so is that other agents
may act between the two halves of the answer (log 119). Completion: under the premises of its clause on the state and the operands
alone, each of `mcst`, `mcput`, `mcastReplicate`, `mcastAck` answers a next state of its own effect. -/
def Obligations.MulticastsAreSentAndAnswered : Prop :=
  (∀ (s : State) (st : Stream) (a : McArgs) (bytes : List (DWord × Byte)),
    let t := s.sendMcast st a bytes
    let asid := (s.team st.id.tcx).recd.asid
    let ps := a.group.members.filter (· ≠ a.own)
    t = { s with co := { s.co with mcasts := t.co.mcasts }, nextOp := s.nextOp + 1, outbox := t.outbox } ∧
      (s.links.anyPort = false → t.outbox = s.outbox) ∧
      (s.links.anyPort = true → ∃ toks msgs, t.outbox = s.outbox ++ msgs ∧
        (∀ p tok, (p, tok) ∈ toks ↔ p ∈ ps ∧ s.mcMember asid a p = .ok tok) ∧
        (toks = [] → msgs = []) ∧
        (toks ≠ [] → msgs.length = (bytes.length + 255) / 256 ∧ ∀ i, i < msgs.length → ∃ data,
          msgs[i]? = some (Msg.mcast s.nextOp i toks data (a.notify.setWidth 64)) ∧
          data.flatMap (fun r => r.2.mapIdx fun j b => (r.1 + BitVec.ofNat 64 j, b)) = (bytes.drop (256 * i)).take 256)) ∧
      ∃ m, t.co.mcasts = s.co.mcasts ++ [m] ∧ m.num = s.nextOp ∧ m.sid = st.id ∧ m.ack = a.ack ∧ m.srcCtr = a.srcCtr ∧ m.time = s.gts ∧
        m.portDown = !s.links.anyPort ∧ m.members = ps.map fun p => (p, if s.links.anyPort then
          match s.mcMember asid a p with
            | .error r => some r
            | .ok _ => none
          else some 0x0C)) ∧
  (∀ (g : Guard) (grp s1 : Reg) (k1 : Bool) (x : Reg) (s : State) (id : SId) (a : McArgs), s.Alone g id → (s.stream id).cnt.cp < 254 →
    s.nearPending [id] 0b11111 = false →
    let st := s.stream id
    let s0 := s.onLane id fun st => { st with cnt := st.cnt.add 2 1 }
    let one := decide ((s.groupsOf [id]).length ≤ 1)
    (∀ sa bs s2, s.mcArgs st grp x false one = .ok a → s.copyRange st (st.rd64 s1) a.len = .ok sa → class10 sa = false →
      s0.mcastRead (s.team id.tcx).fn ((s.team id.tcx).coreOf id) (s.team id.tcx).recd.asid (pieces sa.toNat a.len) = (.ok bs, s2) →
      exec (.mcst g grp s1 k1 x) s = .next ((s2.sendMcast st a (bs.mapIdx fun i b => (a.template + BitVec.ofNat 64 i, b))).completed g
        fun st => st.kill64 s1 k1)) ∧
    (∀ sa e s2, s.mcArgs st grp x false one = .ok a → s.copyRange st (st.rd64 s1) a.len = .ok sa → class10 sa = false →
      s0.mcastRead (s.team id.tcx).fn ((s.team id.tcx).coreOf id) (s.team id.tcx).recd.asid (pieces sa.toNat a.len) = (.error e, s2) →
      let s3 := if a.srcCtr = 0 then s2 else s2.bump (s.team id.tcx).fn (s.team id.tcx).recd.asid a.srcCtr 1 true
      exec (.mcst g grp s1 k1 x) s = .next (((s3.recordErr id 2 ⟨e, 0⟩).decCounter id 2).completed g fun st => st.kill64 s1 k1))) ∧
  (∀ (g : Guard) (grp s1 : Reg) (k1 : Bool) (x : Reg) (s : State) (low : SId) (rest : List SId) (a : McArgs), s.active g = low :: rest →
    (s.stream low).cnt.cp < 254 → s.nearPending (low :: rest) 0b11111 = false →
    s.mcArgs (s.stream low) grp x true (decide ((s.groupsOf (low :: rest)).length ≤ 1)) = .ok a →
    let s0 := s.onLane low fun st => { st with cnt := st.cnt.add 2 1 }
    let words := (low :: rest).flatMap fun id => (bytesOfNat 4 ((s.stream id).rd s1).toNat).mapIdx fun i b =>
      (a.template + BitVec.ofNat 64 (4 * (s.team low.tcx).lane id + i), b)
    exec (.mcput g grp s1 k1 x) s = .next ((s0.sendMcast (s.stream low) a words).completed g fun st => st.kill s1 k1)) ∧
  (∀ (s : State) (n p : Nat) (r : BitVec 8) (c : Mcast), (s.co.mcasts.find? fun c => c.num = n) = some c →
    (∃ t c', exec (.mcastReplicate n p r) s = .next t ∧ t = { s with co := { s.co with mcasts := t.co.mcasts } } ∧
      (t.co.mcasts.find? fun c => c.num = n) = some c' ∧
      c' = { c with members := c.members.map fun x => if x.1 = p then (x.1, some (x.2.getD r)) else x }) ∧
    (c.answered = false → (∃ x ∈ c.members, x.2 = none) → s.gts < c.time + 100000000 → exec (.mcastAck n) s = .next s) ∧
    -- the word and the source counter first
    (c.answered = false → (∀ x ∈ c.members, x.2 ≠ none) ∨ c.time + 100000000 ≤ s.gts →
      let d := { c with answered := true, members := c.members.map fun x => (x.1, some (x.2.getD 0x0B)) }
      let s1 := { s with co := { s.co with mcasts := s.co.mcasts.map fun (x : Mcast) => if x.num = n then d else x } }
      let counted := fun (r : State) => if c.srcCtr = 0 then r else r.bump c.fn c.asid c.srcCtr 1 c.err.isSome
      (s1.co.mcasts.find? fun c => c.num = n) = some d ∧
      (c.ack = 0 → exec (.mcastAck n) s = .next (counted s1)) ∧
      (∀ x, c.ack ≠ 0 → s1.checkPage (s1.unit c.fn c.asid) .store c.ack.toNat = .ok x → x.loc.space = .dev →
        s.keyDown x.loc.key = false → s.cache? x.loc.vcid = none → (∀ o ∈ s.ops, o.phase ≠ .left) →
        ∃ r, exec (.mcastAck n) s = .next (counted r) ∧ r.co = s1.co ∧ r.streams = s.streams ∧ r.outbox = s.outbox ∧
          Stored (s1.touch (s1.unit c.fn c.asid) .store x).mem r.mem x.loc.key (bytesOfNat 8 c.word.toNat))) ∧
    (c.answered = true → s.Present [c.sid] →
      ∃ t, exec (.mcastAck n) s = .next t ∧ t = { s with streams := t.streams, co := { s.co with mcasts := t.co.mcasts } } ∧
        (t.co.mcasts.find? fun c => c.num = n) = none ∧
        t.stream c.sid = { s.stream c.sid with
          cnt := (s.stream c.sid).cnt.dec 2
          slots := match c.err with
            | some e => (s.stream c.sid).slots.record 2 e
            | none => (s.stream c.sid).slots }) ∧
    let heard := c.members.map fun x => x.2.getD 0x0B
    let nacks := heard.filter fun r => r != 0
    (c.word.msb = true ∧ c.word.extractLsb' 0 10 = BitVec.ofNat 10 (heard.length - nacks.length) ∧
      c.word.extractLsb' 10 10 = BitVec.ofNat 10 nacks.length ∧ c.word.extractLsb' 20 8 = nacks.headD 0) ∧
    (∀ x r, c.members.find? (fun x => x.2.getD 0x0B != 0) = some (x, r) →
      c.word.extractLsb' 32 17 = BitVec.ofNat 17 (c.rankBase + x)) ∧
    (nacks = [] → c.err = none) ∧
    (∀ r, nacks.head? = some r → c.err = some (if c.portDown then ⟨0x24, 0⟩
      else if ∀ r ∈ nacks, r = 0x0B then ⟨0x21, 0⟩ else ⟨0x20, r.setWidth 16⟩)))

/-- R224 to R227, R240, R241: the Joiner's commands and their RESULT; a release that would succeed waits for the accesses that are
still in its share (log entry 104); an uncorrectable error poisons its granule of HBM4, or ends the teams whose vault holds it and
counts against the share; the Sweeper changes nothing that an instruction sees. Which teams the error ends, and that engines find the
word broken afterwards, is the model's choice (logs 75, 112). Completion: under the premises of its clause on the state and the
operands alone, each of `joinQuery`, `joinGrant`, `joinRelease`, `uncorrectableError`, `sweeperPass` answers a next state of its own
effect. -/
def Obligations.SharesAndSoftErrors : Prop :=
  (∀ (s : State) (n fn : Nat),
    let x := s.share n
    let word := fun (y : Share) (res : Nat) => BitVec.ofNat 4 y.role.code ++
      BitVec.ofNat 8 (if y.role = .member ∨ y.role = .leaving then y.vcid else 0) ++ BitVec.ofNat 4 res ++
      (if y.role = .vault then y.owner else 0#16)
    let answers := fun (i : Instr) (res : Nat) => exec i s = .next { s with vt := { s.vt with joinStat := word x res } }
    let owns := s.ownsAsid fn s.vt.joinAsid.toNat
    (Config.shares ≤ n → n < 32768 → ∀ i ∈ [Instr.joinQuery n, .joinGrant n fn, .joinRelease n], ∃ t w, exec i s = .next t ∧
      t = { s with vt := { s.vt with joinStat := w }, free := s.free + 1 } ∧ w.extractLsb' 16 4 = 1#4) ∧
    (n < Config.shares → answers (.joinQuery n) 0 ∧ (owns = false → answers (.joinGrant n fn) 4) ∧
      (owns = true → x.role ≠ .free → answers (.joinGrant n fn) 2) ∧
      (owns = true → x.role = .free →
        let y : Share := { x with role := .vault, owner := s.vt.joinAsid, vcid := 0 }
        ∃ t, exec (.joinGrant n fn) s = .next t ∧ t = { s with vt := { s.vt with shares := t.vt.shares, joinStat := word y 0 } } ∧
          t.share n = y ∧ ∀ m, m ≠ n → t.share m = s.share m) ∧
      (x.role ≠ .vault → answers (.joinRelease n) 2) ∧ (x.role = .vault → s.shareHeld n = true → answers (.joinRelease n) 3) ∧
      (x.role = .vault → s.shareHeld n = false → s.vaultBusy (shareAddr n) 65536 = true → exec (.joinRelease n) s = .next s) ∧
      (x.role = .vault → s.shareHeld n = false → s.vaultBusy (shareAddr n) 65536 = false →
        let y : Share := { x with role := if 2 ≤ x.errors then .failed else .free, owner := 0, vcid := 0 }
        ∃ t, exec (.joinRelease n) s = .next t ∧ t.share n = y ∧ t.vt.joinStat = word y 0 ∧
          (∀ m, m ≠ n → t.share m = s.share m) ∧
          (∀ a, shareAddr n ≤ a → a < shareAddr n + 65536 → memRead t.mem (vaultKey + a) = 0 ∧ t.wordEmpty a = false) ∧
          (s.vt.waiters = [] →
            ∀ k, k < vaultKey + shareAddr n ∨ vaultKey + shareAddr n + 65536 ≤ k → memRead t.mem k = memRead s.mem k)))) ∧
  (∀ s n, exec (.sweeperPass n) s = .next s) ∧
  (∀ (s : State) (pa : Nat), ∃ t, exec (.uncorrectableError (.hbm pa)) s = .next t ∧
    t = { s with vt := { s.vt with poison := t.vt.poison } } ∧ t.poisoned pa 1 = true) ∧
  (∀ (s : State) (a : Nat), shareOf a < Config.shares → (s.share (shareOf a)).role = .vault → (s.share (shareOf a)).errors = 0 →
    let x := s.share (shareOf a)
    let holds := fun (t : Team) => t.recd.asid = x.owner ∧ t.recd.vaultKib ≠ 0 ∧ t.vaultBase.toNat < a / 128 * 128 + 128 ∧
      a / 128 * 128 < t.vaultBase.toNat + t.recd.vaultKib * 1024
    (∃ t ∈ s.teams, holds t) → (s.teams.map Team.tcx).Nodup →
    ∃ t, exec (.uncorrectableError (.vault a)) s = .next t ∧
      t = { s with teams := t.teams, vt := { s.vt with shares := t.vt.shares, broken := t.vt.broken } } ∧
      t.share (shareOf a) = { x with errors := 1 } ∧ (∀ w, w ∈ t.vt.broken ↔ w ∈ s.vt.broken ∨ w = a / 4 * 4) ∧
      ∀ tm ∈ s.teams, t.team? tm.tcx = some (if holds tm ∧ tm.ended = none then { tm with ended := some 0x30, endedAt := s.gts } else tm))

/-- R230, R237, R238: the status words of `vcdef` and `vcdef.rm`; a definition whose checks pass makes each share of its map a
MEMBER; a removal parks its lanes until the cache has drained, and its shares are FREE again. R239: the status words of `vcmig`; a
migration that begins joins the new shares, leaves those that the new map lacks and gives the cache its new placement; a sweep moves
a line of a LEAVING share to its place, where a line of the lowest priority makes room for it, or writes it back where only dirty
lines of a higher priority stand there; the migration ends once no line is left in a LEAVING share, which is then FREE, and its
counter counts. The order of the checks of `vcmig`, and that a `vcdef.rm` of a cache that migrates is BUSY before VCID 1 is looked
at, is the model's choice (log 76). Completion: under the premises of its clause on the state and the operands alone, each of
`vcdef`, `vcdefRm`, `vcmig`, `vcRemoveDrain`, `vcmigSweep`, `migrationEnd` answers a next state of its own effect. -/
def Obligations.CachesAreDefinedAndMigrate : Prop :=
  (
    (∀ (g : Guard) (d s1 : Reg) (vcid : BitVec 8) (s : State) (low : SId) (rest : List SId), s.active g = low :: rest →
      let a := s.recordAddr (s.stream low) ((s.stream low).rd64 s1)
      let answers := fun (t : State) (w : Word) => exec (.vcdef g d s1 vcid) s = .next (t.completed g fun st => st.wr d w)
      let unused := vcid ≠ 0 ∧ s.cache? vcid.toNat = none
      (vcid = 0 ∨ (∃ c, s.cache? vcid.toNat = some c ∧ c.state = .defined) → answers s 1) ∧
      (∀ c, vcid ≠ 0 → s.cache? vcid.toNat = some c → c.state ≠ .defined → answers s 2) ∧
      (unused → plain00 a = false → answers s 9) ∧ (unused → plain00 a = true → a.toNat % 64 ≠ 0 → answers s 4) ∧
      (unused → plain00 a = true → a.toNat % 64 = 0 →
        (∀ e t, s.readCdr s.curTeam.fn s.curTeam.recd.asid a vcid.toNat = (.error e, t) → answers t e) ∧
        ∀ c t, s.readCdr s.curTeam.fn s.curTeam.recd.asid a vcid.toNat = (.ok c, t) →
          (∀ n, (c.shares.find? fun n => (t.share n).role != .free) = some n →
            answers t (0#8 ++ BitVec.ofNat 16 n ++ 6#8)) ∧
          ((∀ n ∈ c.shares, (t.share n).role = .free) → ∃ u, answers u 0 ∧
            u = { t with vt := { t.vt with shares := u.vt.shares, caches := t.vt.caches ++ [c] } } ∧
            (∀ n ∈ c.shares, (u.share n).role = .member ∧ (u.share n).vcid = vcid.toNat) ∧
            ∀ n, n ∉ c.shares → u.share n = t.share n))) ∧
    (∀ (g : Guard) (d : Reg) (vcid : BitVec 8) (s : State) (low : SId) (rest : List SId), s.active g = low :: rest →
      let answers := fun (w : Word) => exec (.vcdefRm g d vcid) s = .next (s.completed g fun st => st.wr d w)
      (vcid = 0 ∨ s.cache? vcid.toNat = none → answers 1) ∧
      ∀ c, vcid ≠ 0 → s.cache? vcid.toNat = some c → (c.state ≠ .defined → answers 2) ∧ (c.state = .defined → vcid = 1 → answers 1) ∧
        (c.state = .defined → vcid ≠ 1 → s.Present s.cur.lanes → ∃ t, exec (.vcdefRm g d vcid) s = .next t ∧
          t = { s with streams := t.streams, vt := { s.vt with caches := t.vt.caches } } ∧
          t.cache? vcid.toNat = some { c with state := .removing } ∧
          s.Lanes t g fun st => { st.parkAt (.vcrm vcid.toNat d) with pc := s.cur.pc })) ∧
    (∀ (s : State) (v : Nat) (c : VCache), s.cache? v = some c →
      (c.state ≠ .removing ∨ s.vcInUse v = true → exec (.vcRemoveDrain v) s = .next s) ∧
      (c.state = .removing → s.vcInUse v = false → s.vt.waiters = [] → (∀ o ∈ s.ops, o.phase ≠ .waiting) →
        ∃ t, exec (.vcRemoveDrain v) s = .next t ∧ t.cache? v = none ∧
        (∀ l ∈ t.vt.lines, l.vcid ≠ v) ∧ (∀ n ∈ c.shares, (t.share n).role = .free ∨ (t.share n).role = .failed) ∧
        ∀ id d, s.Present [id] → (s.stream id).park = .vcrm v d →
          t.stream id = ((s.stream id).wr d 0).goto ((s.stream id).pc + 8)))) ∧
  (
    (∀ (g : Guard) (d s1 s2 : Reg) (vcid : BitVec 8) (s : State) (low : SId) (rest : List SId), s.active g = low :: rest →
      let st := s.stream low
      let a := s.recordAddr st (st.rd64 s1)
      let ctr := if s2 = 0 then 0 else s.recordAddr st (st.rd64 s2)
      let answers := fun (t : State) (w : Word) => exec (.vcmig g d s1 s2 vcid) s = .next (t.completed g fun st => st.wr d w)
      (vcid = 0 ∨ s.cache? vcid.toNat = none → answers s 1) ∧
      ∀ c, vcid ≠ 0 → s.cache? vcid.toNat = some c → (c.state ≠ .defined → answers s 2) ∧
        (c.state = .defined → plain00 a = false → answers s 9) ∧
        (c.state = .defined → plain00 a = true → a.toNat % 64 ≠ 0 → answers s 4) ∧
        (c.state = .defined → plain00 a = true → a.toNat % 64 = 0 → ctr = 0 ∨ (plain00 ctr = true ∧ ctr.toNat % 4 = 0) →
          (∀ e t, s.readCdr s.curTeam.fn s.curTeam.recd.asid a vcid.toNat = (.error e, t) → answers t e) ∧
          ∀ n t, s.readCdr s.curTeam.fn s.curTeam.recd.asid a vcid.toNat = (.ok n, t) → t.cache? vcid.toNat = some c →
            let ok := fun (x : Nat) => (t.share x).role = .free ∨ ((t.share x).role = .member ∧ (t.share x).vcid = vcid.toNat)
            (n.line ≠ c.line ∨ n.repl ≠ c.repl ∨ n.wpol ≠ c.wpol → answers t 8) ∧
            (n.line = c.line → n.repl = c.repl → n.wpol = c.wpol → c.vcid = vcid.toNat → (∀ x ∈ n.shares, ok x) →
              ∃ u bad, answers u 0 ∧ u.cache? vcid.toNat = some { c with
                  fill := n.fill, assoc := n.assoc, map := n.map, state := .migrating s.curTeam.recd.asid ctr bad } ∧
                (∀ x ∈ n.shares, (u.share x).role = .member ∧ (u.share x).vcid = vcid.toNat) ∧
                (∀ x ∈ c.shares, x ∉ n.shares → (t.share x).role = .member → (u.share x).role = .leaving) ∧
                (∀ x, x ∉ n.shares → x ∉ c.shares → u.share x = t.share x) ∧
                ∀ l ∈ u.vt.lines, l.vcid = vcid.toNat → (u.share l.share).role.leaves = false → l.way < n.assoc))) ∧
    (∀ (s : State) (v base : Nat) (c : VCache) (l : Line), s.cache? v = some c → c.vcid = v →
      (s.vt.lines.find? fun l => l.vcid = v && l.base = base && (s.share l.share).role == .leaving) = some l →
      let shs := s.fillShares c l.rep
      let set := c.setOf base shs.length
      let ls := s.vt.lines.filter (s.inSet c l.rep set)
      -- its place is taken by dirty lines of a higher priority
      let full := c.assoc ≤ ls.length ∧ ∀ x ∈ ls, x.dirty = true ∧ Prio.rank l.prio < Prio.rank x.prio
      (full ∨ shs = [] → ∃ t, exec (.vcmigSweep v base) s = .next t ∧ t.streams = s.streams ∧
        (∀ x, x ∈ t.vt.lines ↔ x ∈ s.vt.lines ∧ ¬(x.vcid = v ∧ x.base = base ∧ x.rep = l.rep)) ∧
        ((∀ x ∈ s.vt.lines, x.vcid = v → x.base = base → x.rep = l.rep → x.dirty = false) → t.mem = s.mem) ∧
        (s.vt.lines.filter (fun x => decide (x.vcid = v ∧ x.base = base ∧ x.rep = l.rep)) = [l] → l.dirty = true →
          s.keyDown base = false → Stored s.mem t.mem base l.data)) ∧
      (¬full → shs ≠ [] → s.line? v l.rep base = some l →
        let s1 := s.makeRoom c l.rep set
        let moved := { l with share := c.shareAt shs set, set := set, way := s1.freeWay c l.rep set }
        (∃ t, exec (.vcmigSweep v base) s = .next t ∧ t.streams = s.streams ∧ t.mem = s1.mem ∧
          ((∀ x ∈ s.vt.lines, x.vcid = v → x.base = base → x.rep = l.rep → x = l) →
            ∀ x, x ∈ t.vt.lines ↔ (x ∈ s1.vt.lines ∧ x ≠ l) ∨ x = moved)) ∧
        (0 < c.setsPerShare → (s.share moved.share).role = .member) ∧
        (ls.length < c.assoc → s1 = s) ∧
        (c.assoc ≤ ls.length → ls ≠ [] → ∃ out ∈ ls, (∀ x ∈ ls, Prio.rank out.prio ≤ Prio.rank x.prio) ∧
          (∀ x, x ∈ s1.vt.lines ↔ x ∈ s.vt.lines ∧ ¬(s.inSet c l.rep set x = true ∧ x.base = out.base)) ∧
          (ls.filter (fun x => x.base == out.base) = [out] → out.dirty = true → s.keyDown out.base = false →
            Stored s.mem s1.mem out.base out.data)))) ∧
    (∀ (s : State) (v base : Nat), s.cache? v = none ∨ (∀ l ∈ s.vt.lines, ¬(l.vcid = v ∧ l.base = base ∧ (s.share l.share).role = .leaving)) →
      exec (.vcmigSweep v base) s = .next s) ∧
    (∀ (s : State) (v : Nat) (c : VCache) (asid : BitVec 16) (k : DWord) (bad : Bool), s.cache? v = some c →
      c.state = .migrating asid k bad →
      let left := ∃ l ∈ s.vt.lines, l.vcid = v ∧ l.share ∈ s.leavingShares v
      let counted := fun (r : State) => if k = 0 then r else r.bump (r.fnOf asid) asid k 1 bad
      (left → exec (.migrationEnd v) s = .next s) ∧
      (¬left → s.vt.waiters = [] → (∀ o ∈ s.ops, o.phase ≠ .waiting) →
        ∃ r, exec (.migrationEnd v) s = .next (counted r) ∧ r.cache? v = some { c with state := .defined } ∧ r.streams = s.streams ∧
        (∀ n ∈ s.leavingShares v, (r.share n).role = .free ∨ (r.share n).role = .failed) ∧
        ∀ n, n ∉ s.leavingShares v → r.share n = s.share n)))

/-- R234, R235: the segment directory. What a read miss, a store at its home, `sgacq`, `sgrel`, an eviction and the end of a transit
make of an entry; R258: the count of `sgacq` and `sgrel` falls when the directory has made the transition; a store that does not own
its line, or in a cache that does not write back, leaves for its home. Completion: under the premises of its clause on the state and
the operands alone, each of `dirReadMiss`, `dirStore`, `dirSgacq`, `dirSgrel`, `dirEvict`, `dirTransitEnd` answers a next state of
its own effect. -/
def Obligations.SegmentDirectoryTransitions : Prop :=
  (∀ (s : State) (seg : Nat),
    (∃ t, exec (.dirEvict seg) s = .next t ∧ t.streams = s.streams ∧ t.ops = s.ops ∧ (∀ k, k ≠ seg → t.dir k = s.dir k) ∧
      match s.dir seg with
        | .S _ => t.dir seg = .T [] none ∧ t.mem = s.mem ∧ ∀ l, l ∈ t.vt.lines ↔ l ∈ s.vt.lines ∧ l.inSeg seg = false
        | .O _ => t.dir seg = .T [] none ∧ ∀ l ∈ t.vt.lines, l.inSeg seg = false
        | .I => t = s
        | .T _ _ => t = s) ∧
    (∃ t, exec (.dirTransitEnd seg) s = .next t ∧ (s.sgWaiting seg = [] → t = { s with vt := { s.vt with dirs := t.vt.dirs } }) ∧
      (∀ k, k ≠ seg → t.dir k = s.dir k) ∧ (∀ a b, s.dir seg = .T a b → ∀ o ∈ s.sgWaiting seg, t.op? o.num = none) ∧
      t.dir seg = match s.dir seg with
        | .T _ (some o) => .O o
        | .T [] none => .I
        | .T set none => .S set
        | x => x)) ∧
  (∀ (s : State) (n : Nat) (o : MemOp) (l : OpLane) (c : VCache), s.op? n = some o → o.lanes = [l] → s.Present [l.sid] →
    s.cache? o.loc.vcid = some c → c.repl = true →
    let seg := segOf o.loc.key
    let r := c.replica o.cluster
    let ended := fun (t : State) => t.op? n = none ∧
      (t.stream l.sid).bare = { s.stream l.sid with cnt := (s.stream l.sid).cnt.dec o.counter }.bare ∧ ∀ k, k ≠ seg → t.dir k = s.dir k
    (∀ acq, o.kind = .sg acq → s.performable o = true → (∀ a b, s.dir seg ≠ .T a b) → s.DirRoom seg →
      let after : Dir := match s.dir seg with
        | .I => if acq then .O r else .I
        | .S set => if acq then (if set = [r] then .O r else .T [] (some r)) else .S set
        | .O x => if acq then (if x = r then .O r else .T [] (some r)) else if x = r then .T [r] none else .O x
        | x => x
      ∃ t, exec (if acq then .dirSgacq n else .dirSgrel n) s = .next t ∧ t.dir seg = after ∧ (∀ k, k ≠ seg → t.dir k = s.dir k) ∧
        -- the count falls at once, or with the end of the transit
        ((∀ a b, after ≠ .T a b) → ended t) ∧
        (∀ a b, after = .T a b → t.streams = s.streams ∧ t.op? n = some { o with phase := .left }) ∧
        (acq = true → ∀ y ∈ t.vt.lines, y.inSeg seg = true → (∀ x, s.dir seg ≠ .O x) → s.dir seg ≠ .I → y.rep = some r)) ∧
    (o.kind = .store → o.phase = .issued → s.performable o = true → s.quiet n o.loc.key o.size = true →
      s.linkDown o.loc = false → s.shutHost (s.opFn o) o.loc = false →
      (s.dir seg ≠ .O r ∨ c.wpol ≠ .back → ∃ t, exec (.dirStore n) s = .next t ∧ t.op? n = some { o with phase := .left } ∧
        ∀ id, (t.stream id).bare = (s.stream id).bare) ∧
      (s.dir seg = .O r → c.wpol = .back → (s.line? o.loc.vcid (some r) o.loc.key).isSome = true → ∃ t, exec (.dirStore n) s = .next t ∧ ended t)) ∧
    (o.kind = .store → o.phase = .left → (∀ a b, s.dir seg = .T a b → exec (.dirStore n) s = .next s) ∧
      -- the line of its replica takes the bytes, then they reach their home
      let s1 := s.replicaPut o.loc.vcid r o.loc.key o.bytes false none none
      let down := s.keyDown o.loc.key
      (s.dir seg = .I → ∃ t, exec (.dirStore n) s = .next t ∧ ended t ∧ t.dir seg = .I ∧
        (down = false → Stored s1.mem t.mem o.loc.key o.bytes) ∧ (down = true → t.mem = s1.mem)) ∧
      (∀ set, s.dir seg = .S set → ∃ t, exec (.dirStore n) s = .next t ∧ ended t ∧
        (down = false → Stored s1.mem t.mem o.loc.key o.bytes) ∧ (down = true → t.mem = s1.mem) ∧
        t.dir seg = (match s1.holds seg r, decide (set = [r]) with
          | true, true => .S [r]
          | true, false => .T [r] none
          | false, true => .I
          | false, false => .T [] none) ∧
        ∀ y ∈ t.vt.lines, y.inSeg seg = true → y.rep = some r))) ∧
  (∀ (s : State) (v k addr : Nat) (c : VCache) (o : MemOp), s.cache? v = some c → c.vcid = v → c.repl = true → 0 < c.line → o ∈ s.ops →
    o.loc.vcid = v → o.reads = true → o.writes = false → c.replica o.cluster = k → o.loc.key = addr →
    s.line? v (some k) addr = none → s.fillShares c (some k) ≠ [] →
    let seg := segOf addr
    (∀ a b, s.dir seg = .T a b → exec (.dirReadMiss v k addr) s = .next s) ∧
    ((∀ a b, s.dir seg ≠ .T a b) → s.DirRoom seg → ∃ t, exec (.dirReadMiss v k addr) s = .next t ∧ t.streams = s.streams ∧ t.ops = s.ops ∧
      (t.line? v (some k) addr).isSome = true ∧
      t.dir seg = match s.dir seg with
        | .I => .S [k]
        | .S set => .S (nins set k)
        | .O x => if x = k then .O x else .T (nins [x] k) none
        | x => x))
end

