-- ==== Sys2Proof/Laws/Decode.lean ====
section
/-! SUPPORT. Sys2Proof/Laws/Decode.lean: the fields of a word that was put together from fields, and the modifiers' codes. -/
namespace Sys2Proof

theorem append_toNat {a b : Nat} (x : BitVec a) (y : BitVec b) : (x ++ y).toNat = x.toNat * 2 ^ b + y.toNat := by
  rw [BitVec.toNat_append, ← Nat.shiftLeft_add_eq_or_of_lt y.isLt, Nat.shiftLeft_eq]

/-- The word of fields as a number (R94). -/
theorem word_toNat (f : Fields) :
    f.word.toNat = f.opc.toNat * 2 ^ 55 + f.d.toNat * 2 ^ 47 + f.s1.toNat * 2 ^ 39 + f.s2.toNat * 2 ^ 31 + f.g.toNat * 2 ^ 23 +
      f.ge.toNat * 2 ^ 22 + f.gn.toNat * 2 ^ 21 + f.i.toNat * 2 ^ 20 + f.k1.toNat * 2 ^ 19 + f.k2.toNat * 2 ^ 18 + f.md.toNat := by
  simp only [Fields.word, bit, append_toNat, BitVec.toNat_ofBool, Bool.toNat_false]
  omega

/-- The fields of a full-format word are the fields it was put together from (R94). -/
theorem fieldsOf_word (f : Fields) : fieldsOf f.word = f := by
  have h := word_toNat f
  have b1 := f.opc.isLt
  have b2 := f.d.isLt
  have b3 := f.s1.isLt
  have b4 := f.s2.isLt
  have b5 := f.g.isLt
  have b6 := f.md.isLt
  have c1 := f.ge.toNat_lt
  have c2 := f.gn.toNat_lt
  have c3 := f.i.toNat_lt
  have c4 := f.k1.toNat_lt
  have c5 := f.k2.toNat_lt
  have bits : ∀ (n : Nat) (c : Bool), f.word.toNat / 2 ^ n % 2 = c.toNat → f.word.getLsbD n = c := by
    intro n c hc
    rw [BitVec.getLsbD, Nat.testBit_eq_decide_div_mod_eq, hc]
    cases c <;> rfl
  obtain ⟨opc, d, s1, s2, g, ge, gn, i, k1, k2, md⟩ := f
  simp only at h b1 b2 b3 b4 b5 b6 c1 c2 c3 c4 c5
  simp only [fieldsOf, Fields.mk.injEq]
  refine ⟨?_, ?_, ?_, ?_, ?_, ?_, ?_, ?_, ?_, ?_, ?_⟩
  case refine_6 | refine_7 | refine_8 | refine_9 | refine_10 => exact bits _ _ (by omega)
  all_goals
    apply BitVec.eq_of_toNat_eq
    rw [BitVec.extractLsb'_toNat, Nat.shiftRight_eq_div_pow]
    omega

/-- The word of fields has P = 0. -/
theorem word_msb (f : Fields) : f.word.msb = false := by
  have h := word_toNat f
  have b1 := f.opc.isLt
  have b2 := f.d.isLt
  have b3 := f.s1.isLt
  have b4 := f.s2.isLt
  have b5 := f.g.isLt
  have b6 := f.md.isLt
  have c1 := f.ge.toNat_lt
  have c2 := f.gn.toNat_lt
  have c3 := f.i.toNat_lt
  have c4 := f.k1.toNat_lt
  have c5 := f.k2.toNat_lt
  rw [BitVec.msb_eq_false_iff_two_mul_lt]
  omega

@[simp] theorem ICond.ofCode_code (c : ICond) : ICond.ofCode c.code = some c := by cases c <;> rfl
@[simp] theorem FCond.ofCode_code (c : FCond) : FCond.ofCode c.code = some c := by cases c <;> rfl
@[simp] theorem Rnd.ofCode_code (c : Rnd) : Rnd.ofCode c.code = some c := by cases c <;> rfl
@[simp] theorem Fill.ofCode_code (c : Fill) : Fill.ofCode c.code = some c := by cases c <;> rfl
@[simp] theorem SgnOp.ofCode_code (c : SgnOp) : SgnOp.ofCode c.code = some c := by cases c <;> rfl
@[simp] theorem IType.ofCode_code (c : IType) : IType.ofCode c.code = some c := by cases c <;> rfl
@[simp] theorem CvtDir.ofCode_code (c : CvtDir) : CvtDir.ofCode c.code = some c := by cases c <;> rfl
@[simp] theorem VoteOp.ofCode_code (c : VoteOp) : VoteOp.ofCode c.code = Option.some c := by cases c <;> rfl
@[simp] theorem MType.ofCode_code (c : MType) : MType.ofCode c.code = some c := by cases c <;> rfl
@[simp] theorem BitOp.ofCode_code (c : BitOp) : BitOp.ofCode c.code = some c := by cases c <;> rfl
@[simp] theorem Policy.ofCode_code (c : Policy) : Policy.ofCode c.code = some c := by cases c <;> rfl
@[simp] theorem Order.ofCode_code (c : Order) : Order.ofCode c.code = some c := by cases c <;> rfl
@[simp] theorem Agent.ofCode_code (c : Agent) : Agent.ofCode c.code = some c := by cases c <;> rfl
@[simp] theorem Hint.ofCode_code (c : Hint) : Hint.ofCode c.code = some c := by cases c <;> rfl
@[simp] theorem Prio.ofCode_code (c : Prio) : Prio.ofCode c.code = some c := by cases c <;> rfl
@[simp] theorem MField.ofCode_code (c : MField) : MField.ofCode c.code = some c := by cases c <;> rfl

end Sys2Proof
end

