-- ==== Sys2Proof/Laws/Sparse.lean ====
section
/-! SUPPORT. Sys2Proof/Laws/Sparse.lean: reading after writing in sparse data, and its canonical form. -/
namespace Sys2Proof.Machine

@[simp] theorem sget_nil {α : Type} (d : α) (n : Nat) : sget d [] n = d := rfl

theorem sget_filter_same {α : Type} (d : α) (l : List (Nat × α)) (n : Nat) : sget d (l.filter fun p => p.1 ≠ n) n = d := by
  induction l with
  | nil => rfl
  | cons p r ih =>
    by_cases h : p.1 = n
    · simpa [List.filter_cons, h] using ih
    · simpa [List.filter_cons, h, sget] using ih

theorem sget_filter_other {α : Type} (d : α) (l : List (Nat × α)) {n m : Nat} (h : m ≠ n) :
    sget d (l.filter fun p => p.1 ≠ n) m = sget d l m := by
  induction l with
  | nil => rfl
  | cons p r ih =>
    obtain ⟨k, w⟩ := p
    by_cases hk : k = n
    · have : k ≠ m := by omega
      simpa [List.filter_cons, hk, sget, h.symm] using ih
    · by_cases hm : k = m
      · simp [sget, hm, h]
      · simpa [List.filter_cons, hk, sget, hm] using ih

/-- A value written is read back. -/
@[simp] theorem sget_sset_same {α : Type} [DecidableEq α] (d : α) (l : List (Nat × α)) (n : Nat) (v : α) : sget d (sset d l n v) n = v := by
  induction l with
  | nil => unfold sset; split <;> simp_all [sget]
  | cons p r ih =>
    obtain ⟨k, w⟩ := p
    unfold sset
    split_ifs with h1 h2 h3
    · have : k ≠ n := by omega
      simpa [sget, this] using ih
    · rw [sget_filter_same, h2]
    · simp [sget]
    · simp [sget]

/-- A write leaves every other key as it was. -/
theorem sget_sset_other {α : Type} [DecidableEq α] (d : α) (l : List (Nat × α)) {n m : Nat} (v : α) (h : m ≠ n) : sget d (sset d l n v) m = sget d l m := by
  induction l with
  | nil => unfold sset; split <;> simp [sget, h.symm]
  | cons p r ih =>
    obtain ⟨k, w⟩ := p
    unfold sset
    split_ifs with h1 h2 h3
    · by_cases hk : k = m <;> simp [sget, hk, ih]
    · exact sget_filter_other d _ h
    · subst h3
      simp [sget, h.symm]
    · simp [sget, h.symm]

theorem swf_mono {α : Type} [DecidableEq α] (d : α) {a b : Nat} (h : b ≤ a) (l : List (Nat × α)) (hl : swf d a l = true) : swf d b l = true := by
  cases l with
  | nil => rfl
  | cons p r => simp only [swf, Bool.and_eq_true, decide_eq_true_eq] at hl ⊢; exact ⟨⟨by omega, hl.1.2⟩, hl.2⟩

theorem swf_filter {α : Type} [DecidableEq α] (d : α) (f : Nat × α → Bool) (l : List (Nat × α)) (a : Nat) (h : swf d a l = true) :
    swf d a (l.filter f) = true := by
  induction l generalizing a with
  | nil => rfl
  | cons p r ih =>
    simp only [swf, Bool.and_eq_true, decide_eq_true_eq] at h
    rw [List.filter_cons]
    split
    · simp only [swf, Bool.and_eq_true, decide_eq_true_eq]
      exact ⟨h.1, ih _ h.2⟩
    · exact swf_mono d (by omega) _ (ih _ h.2)

/-- A write keeps the canonical form. -/
theorem swf_sset {α : Type} [DecidableEq α] (d : α) (l : List (Nat × α)) (n a : Nat) (v : α) (ha : a ≤ n) (h : swf d a l = true) :
    swf d a (sset d l n v) = true := by
  induction l generalizing a with
  | nil => unfold sset; split <;> simp_all [swf]
  | cons p r ih =>
    obtain ⟨k, w⟩ := p
    have h' := h
    simp only [swf, Bool.and_eq_true, decide_eq_true_eq] at h'
    unfold sset
    split_ifs with h1 h2 h3
    · simp only [swf, Bool.and_eq_true, decide_eq_true_eq]
      exact ⟨h'.1, ih (k + 1) (by omega) h'.2⟩
    · exact swf_filter d _ _ _ h
    · subst h3
      simp only [swf, Bool.and_eq_true, decide_eq_true_eq]
      exact ⟨⟨ha, h2⟩, h'.2⟩
    · have : n + 1 ≤ k := by omega
      simp only [swf, Bool.and_eq_true, decide_eq_true_eq]
      exact ⟨⟨ha, h2⟩, ⟨this, h'.1.2⟩, h'.2⟩

end Sys2Proof.Machine
end

