-- ==== Sys2Proof/Laws/Memory.lean ====
section
/-! SUPPORT. Sys2Proof/Laws/Memory.lean: reading after writing in memory, and its canonical form under every operation that writes
it. -/
namespace Sys2Proof.Machine

@[simp] theorem memRead_memWrite_same (m : List Host.Cell) (k : Nat) (v : Byte) : memRead (memWrite m k v) k = v :=
  sget_sset_same _ _ _ _

theorem memRead_memWrite_other (m : List Host.Cell) {k a : Nat} (v : Byte) (h : a ≠ k) : memRead (memWrite m k v) a = memRead m a :=
  sget_sset_other _ _ _ h

/-- Bytes outside a run of written bytes stay. -/
theorem memRead_memWriteN_other (bs : List Byte) (m : List Host.Cell) (k : Nat) {a : Nat} (h : a < k ∨ k + bs.length ≤ a) :
    memRead (memWriteN m k bs) a = memRead m a := by
  induction bs generalizing m k with
  | nil => rfl
  | cons b r ih =>
    simp only [List.length_cons] at h
    rw [memWriteN, ih _ _ (by omega), memRead_memWrite_other _ _ (by omega)]

/-- Bytes within a run of written bytes are the written ones. -/
theorem memRead_memWriteN_in (bs : List Byte) (m : List Host.Cell) (k : Nat) {i : Nat} (h : i < bs.length) :
    memRead (memWriteN m k bs) (k + i) = bs.getD i 0 := by
  induction bs generalizing m k i with
  | nil => simp at h
  | cons b r ih =>
    cases i with
    | zero => rw [memWriteN, memRead_memWriteN_other _ _ _ (by omega)]; simp
    | succ i =>
      rw [memWriteN, show k + (i + 1) = k + 1 + i by omega, ih _ _ (by simpa using h)]
      simp

/-- What a run of written bytes leaves. -/
theorem stored_memWriteN (m : List Host.Cell) (k : Nat) (bs : List Byte) : Stored m (memWriteN m k bs) k bs :=
  ⟨fun _ h => memRead_memWriteN_other bs m k h, fun _ h => memRead_memWriteN_in bs m k h⟩

@[simp] theorem memReadN_length (m : List Host.Cell) (k n : Nat) : (memReadN m k n).length = n := by
  induction n generalizing k with
  | zero => rfl
  | succ n ih => simp [memReadN, ih]

theorem memReadN_getD (m : List Host.Cell) (k n : Nat) {i : Nat} (h : i < n) : (memReadN m k n).getD i 0 = memRead m (k + i) := by
  induction n generalizing k i with
  | zero => omega
  | succ n ih =>
    cases i with
    | zero => simp [memReadN]
    | succ i =>
      rw [memReadN, List.getD_cons_succ, ih (k + 1) (by omega)]
      congr 1
      omega

/-- A run read back after it was written. -/
theorem memReadN_memWriteN (m : List Host.Cell) (k : Nat) (bs : List Byte) : memReadN (memWriteN m k bs) k bs.length = bs := by
  refine List.ext_getElem (by simp) fun i h _ => ?_
  have hi : i < bs.length := by simpa using h
  have := memReadN_getD (memWriteN m k bs) k bs.length hi
  rw [memRead_memWriteN_in bs m k hi] at this
  simpa [List.getD_eq_getElem?_getD, hi] using this

/-- A range set to zero reads as zeros; the rest stays. -/
theorem memRead_zeroRange (m : List Host.Cell) (k n a : Nat) :
    memRead (zeroRange m k n) a = if k ≤ a ∧ a < k + n then 0 else memRead m a := by
  unfold memRead zeroRange
  induction m with
  | nil => simp [freshByte]
  | cons c r ih =>
    obtain ⟨x, v⟩ := c
    rw [List.filter_cons]
    by_cases hx : x < k ∨ k + n ≤ x
    · have : (decide (x < k) || decide (k + n ≤ x)) = true := by simpa using hx
      simp only [this, if_true, sget]
      by_cases ha : x = a
      · simp only [ha, if_true]
        rw [if_neg]
        omega
      · simp only [ha, if_false, ih]
    · have : (decide (x < k) || decide (k + n ≤ x)) = false := by simpa using hx
      simp only [this, Bool.false_eq_true, if_false, sget, ih]
      by_cases ha : x = a
      · subst ha
        rw [if_pos (by omega), if_pos (by omega)]
      · simp [ha]

/-! ### The canonical form -/

theorem memWrite_wf {m : List Host.Cell} (k : Nat) (v : Byte) (h : Memory.wf m = true) : Memory.wf (memWrite m k v) = true :=
  swf_sset _ _ _ _ _ (Nat.zero_le _) h

theorem memWriteN_wf (bs : List Byte) {m : List Host.Cell} (k : Nat) (h : Memory.wf m = true) : Memory.wf (memWriteN m k bs) = true := by
  induction bs generalizing m k with
  | nil => exact h
  | cons b r ih => exact ih _ (memWrite_wf _ _ h)

theorem zeroRange_wf {m : List Host.Cell} (k n : Nat) (h : Memory.wf m = true) : Memory.wf (zeroRange m k n) = true :=
  swf_filter _ _ _ _ h

theorem reset_memOk : State.reset.MemOk := rfl

theorem State.MemOk.writeHome {s : State} (h : s.MemOk) (k : Nat) (bs : List Byte) : (s.writeHome k bs).MemOk := memWriteN_wf _ _ h
theorem State.MemOk.physWrite {s : State} (h : s.MemOk) (pa n v : Nat) : (s.physWrite pa n v).MemOk := memWriteN_wf _ _ h
theorem State.MemOk.zeroVault {s : State} (h : s.MemOk) (a n : Nat) : (s.zeroVault a n).MemOk := zeroRange_wf _ _ h
theorem State.MemOk.zeroShare {s : State} (h : s.MemOk) (n : Nat) : (s.zeroShare n).MemOk := h.zeroVault _ _
theorem State.MemOk.zeroHbm {s : State} (h : s.MemOk) (p l : Nat) : (s.zeroHbm p l).MemOk := zeroRange_wf _ _ h

/-- A change of memory that every step of a fold keeps in form. -/
theorem foldl_memOk {α : Type} (f : State → α → State) (hf : ∀ s a, s.MemOk → (f s a).MemOk) :
    ∀ (l : List α) (s : State), s.MemOk → (l.foldl f s).MemOk
  | [], _, h => h
  | a :: r, s, h => foldl_memOk f hf r (f s a) (hf s a h)
theorem State.MemOk.putHome {s : State} (h : s.MemOk) (k : Nat) (bs : List Byte) : (s.putHome k bs).MemOk := by
  unfold State.putHome
  split
  · split <;> exact h
  · exact h.writeHome _ _
/-- Over a link that is up, a write reaches the home of its bytes. -/
theorem State.putHome_up {s : State} {k : Nat} (h : s.keyDown k = false) (bs : List Byte) : s.putHome k bs = s.writeHome k bs := by
  simp [State.putHome, h]
theorem State.MemOk.writeBack {s : State} (h : s.MemOk) (p : Line → Bool) : (s.writeBack p).MemOk := by
  have key := foldl_memOk (fun (s : State) (l : Line) => s.putHome l.base l.data) (fun t l ht => ht.putHome _ _)
    (s.vt.lines.filter fun l => p l && l.dirty) s h
  exact key

/-! ### What waits for queues and operations changes no memory -/

/-- A fold of changes that keep memory keeps it. -/
theorem foldl_mem {α : Type} (f : State → α → State) (hf : ∀ s a, (f s a).mem = s.mem) :
    ∀ (l : List α) (s : State), (l.foldl f s).mem = s.mem
  | [], _ => rfl
  | a :: r, s => (foldl_mem f hf r (f s a)).trans (hf s a)
theorem State.storeElems_mem (s : State) (x : Xfer) (n : Nat) (e : QEntry) : (s.storeElems x n e).mem = s.mem := by
  unfold State.storeElems
  refine foldl_mem _ (fun t i => ?_) _ _
  split
  · rfl
  · split <;> rfl
theorem State.endXfers_mem (s : State) : s.endXfers.mem = s.mem := by
  show (List.foldl (fun s (x : Xfer) => s.decCounter x.sid (if x.store then 1 else 0)) s _).mem = s.mem
  exact foldl_mem _ (by intro _ _; rfl) _ s
theorem State.reserveNext_mem (s : State) (x : Xfer) : (s.reserveNext x).mem = s.mem := by
  unfold State.reserveNext
  rfl
theorem State.serveStore_mem {s t : State} {key : Nat} (h : s.serveStore key = some t) : t.mem = s.mem := by
  unfold State.serveStore at h
  split at h
  · split at h
    · injection h with h
      exact h ▸ State.storeElems_mem _ _ _ _
    · cases h
  · cases h
theorem State.serveLoad_mem {s t : State} {key : Nat} (h : s.serveLoad key = some t) : t.mem = s.mem := by
  unfold State.serveLoad at h
  split at h
  · split at h
    · injection h with h
      exact h ▸ State.reserveNext_mem _ _
    · cases h
  · cases h
/-- What waits for a queue changes the queue and the operations, no memory. -/
theorem State.serveQueue_mem (key n : Nat) : ∀ s : State, (s.serveQueue key n).mem = s.mem := by
  induction n with
  | zero => exact fun _ => rfl
  | succ n ih =>
    intro s
    unfold State.serveQueue
    cases h1 : s.serveStore key with
    | some t => exact (ih t).trans (State.serveStore_mem h1)
    | none =>
      cases h2 : s.serveLoad key with
      | some t => exact (ih t).trans (State.serveLoad_mem h2)
      | none => rfl
theorem State.changed_mem (s : State) (key : Nat) : (s.changed key).mem = s.mem :=
  (State.endXfers_mem _).trans (State.serveQueue_mem _ _ _)
/-- The lane of a finished operation changes no memory. -/
theorem State.finishLane_mem (s : State) (o : MemOp) (id : SId) (v : Option DWord) : (s.finishLane o id v).mem = s.mem := by
  unfold State.finishLane
  cases v with
  | none => rfl
  | some x =>
    cases he : o.entry with
    | none => simp only; split <;> rfl
    | some e =>
      obtain ⟨c, q, n⟩ := e
      exact State.changed_mem _ _

/-! ### Lines and the segment directory -/

theorem State.MemOk.dropLines {s : State} (h : s.MemOk) (p : Line → Bool) : (s.dropLines p).MemOk := h
theorem State.MemOk.onLines {s : State} (h : s.MemOk) (p : Line → Bool) (f : Line → Line) : (s.onLines p f).MemOk := h
theorem State.MemOk.setDir {s : State} (h : s.MemOk) (n : Nat) (d : Dir) : (s.setDir n d).MemOk := h

theorem State.MemOk.makeRoom {s : State} (h : s.MemOk) (c : VCache) (r : Option Nat) (n : Nat) : (s.makeRoom c r n).MemOk := by
  unfold State.makeRoom
  dsimp only
  split
  · exact h
  · split
    · exact h
    · exact h.writeBack _
theorem State.MemOk.fillLine {s : State} (h : s.MemOk) (c : VCache) (r : Option Nat) (k : Nat) (q : Option Prio) :
    (s.fillLine c r k q).MemOk := by
  unfold State.fillLine
  dsimp only
  split
  · exact h
  · exact h.makeRoom c r _
theorem State.MemOk.moveLine {s : State} (h : s.MemOk) (c : VCache) (r : Option Nat) (k : Nat) : (s.moveLine c r k).MemOk := by
  unfold State.moveLine
  split
  · exact h
  · dsimp only
    split
    · exact h
    · exact h.makeRoom c r _
theorem State.MemOk.flushOwner {s : State} (h : s.MemOk) (n o : Nat) : (s.flushOwner n o).MemOk := h.writeBack _
theorem State.MemOk.invalidateOthers {s : State} (h : s.MemOk) (n o : Nat) : (s.invalidateOthers n o).MemOk := h
theorem State.finishSg_mem (s : State) (o : MemOp) : (s.finishSg o).mem = s.mem :=
  foldl_mem _ (fun _ _ => State.finishLane_mem _ _ _ _) o.lanes s
theorem State.transitEnd_mem (s : State) (n : Nat) : (s.transitEnd n).mem = s.mem := by
  unfold State.transitEnd
  split
  · exact foldl_mem _ State.finishSg_mem _ _
  · rfl
theorem State.MemOk.transitEnd {s : State} (h : s.MemOk) (n : Nat) : (s.transitEnd n).MemOk := by
  unfold State.MemOk
  rw [s.transitEnd_mem n]
  exact h
theorem State.MemOk.dirDrop {s : State} (h : s.MemOk) (n : Nat) : (s.dirDrop n).MemOk := by
  unfold State.dirDrop
  split
  · exact h
  · exact h.flushOwner _ _
  · exact h
theorem State.MemOk.dirRoom {s : State} (h : s.MemOk) (n : Nat) : (s.dirRoom n).MemOk := by
  unfold State.dirRoom
  dsimp only
  split
  · exact h
  · split
    · exact ((h.transitEnd _).dirDrop _).transitEnd _
    · exact h
theorem State.MemOk.dirRead {s : State} (h : s.MemOk) (v : VCache) (c k : Nat) (q : Option Prio) : (s.dirRead v c k q).MemOk := by
  unfold State.dirRead
  dsimp only
  apply State.MemOk.fillLine
  have h := h.dirRoom (segOf k)
  generalize s.dirRoom (segOf k) = t at h ⊢
  split
  · exact h
  · exact h
  · split
    · exact h
    · exact h.flushOwner _ _
  · exact h
theorem State.MemOk.dirWrite {s : State} (h : s.MemOk) (c k : Nat) (bs : List Byte) : (s.dirWrite c k bs).MemOk := by
  unfold State.dirWrite
  dsimp only
  split
  · exact h.putHome _ _
  · exact ((h.putHome _ _).invalidateOthers _ _).setDir _ _
  · split
    · exact h.putHome _ _
    · exact ((((h.flushOwner _ _).dropLines _).putHome _ _).invalidateOthers _ _).setDir _ _
  · exact h
theorem State.MemOk.dirAcquire {s : State} (h : s.MemOk) (c n : Nat) : (s.dirAcquire c n).MemOk := by
  unfold State.dirAcquire
  have h := h.dirRoom n
  dsimp only
  generalize s.dirRoom n = t at h ⊢
  split
  · exact h
  · exact h
  · split
    · exact h
    · exact h.flushOwner _ _
  · exact h
theorem State.MemOk.dirRelease {s : State} (h : s.MemOk) (c n : Nat) : (s.dirRelease c n).MemOk := by
  unfold State.dirRelease
  split
  · split
    · exact h.flushOwner _ _
    · exact h
  · exact h

/-! ### Reads and writes by the device's agents -/

theorem State.MemOk.loadTouch {s : State} (h : s.MemOk) (l : Loc) (c : Nat) (q : Option Prio) : (s.loadTouch l c q).MemOk := by
  unfold State.loadTouch
  split
  · exact h
  · dsimp only
    split
    · exact (h.moveLine _ _ _).onLines _ _
    · exact h.fillLine _ _ _ _
theorem State.MemOk.storeAt {s : State} (h : s.MemOk) (l : Loc) (bs : List Byte) (q : Option Prio) (c : Option Nat) :
    (s.storeAt l bs q c).MemOk := by
  unfold State.storeAt
  cases s.cache? l.vcid with
  | none => exact h.putHome _ _
  | some v =>
    dsimp only
    have h1 : (if (s.line? l.vcid none l.key).isSome then s.moveLine v none l.key else s.fillLine v none l.key q).MemOk := by
      split
      · exact h.moveLine _ _ _
      · exact h.fillLine _ _ _ _
    generalize (if (s.line? l.vcid none l.key).isSome then s.moveLine v none l.key else s.fillLine v none l.key q) = t at h1 ⊢
    cases v.wpol with
    | back =>
      refine State.MemOk.onLines ?_ _ _
      split
      · exact h1
      · exact h1.putHome _ _
    | through => exact ((h.moveLine _ _ _).putHome _ _).onLines _ _
    | around | readOnly => exact (h.putHome _ _).dropLines _
theorem State.MemOk.dropCopies {s : State} (h : s.MemOk) (l : Loc) : (s.dropCopies l).MemOk := (h.writeBack _).dropLines _
theorem State.MemOk.replicaPut {s : State} (h : s.MemOk) (v c k : Nat) (bs : List Byte) (d : Bool) (t : Option Nat) (q : Option Prio) :
    (s.replicaPut v c k bs d t q).MemOk := by
  unfold State.replicaPut
  dsimp only
  split
  · exact h
  · split
    · exact h.dropLines _
    · exact (h.moveLine _ _ _).onLines _ _
theorem State.MemOk.mend {s : State} (h : s.MemOk) (k n : Nat) : (s.mend k n).MemOk := h
theorem State.MemOk.clearPoison {s : State} (h : s.MemOk) (k n : Nat) : (s.clearPoison k n).MemOk := h

theorem State.MemOk.arriveLeft {s : State} (h : s.MemOk) (c : VCache) (o : MemOp) : (s.arriveLeft c o).MemOk :=
  (h.replicaPut _ _ _ _ _ _ _).dirWrite _ _ _

/-- What an operation leaves in its streams changes no memory. -/
theorem State.noteDone_mem (s : State) (o : MemOp) (self : List Nat) : (s.noteDone o self).mem = s.mem := by
  unfold State.noteDone
  refine foldl_mem _ (fun t l => ?_) _ _
  dsimp only
  repeat' split
  all_goals rfl

theorem State.MemOk.finishLeft {s : State} (h : s.MemOk) (o : MemOp) : (s.finishLeft o).MemOk := by
  unfold State.finishLeft
  split
  · exact h
  · show Memory.wf (List.foldl _ _ _ : State).mem = true
    rw [foldl_mem _ (fun t (l : OpLane) => t.finishLane_mem o l.sid none), State.noteDone_mem]
    exact (h.transitEnd _).arriveLeft _ _
theorem State.MemOk.settle {s : State} (h : s.MemOk) (k n : Nat) : (s.settle k n).MemOk := by
  unfold State.settle
  generalize s.ops.filter (fun o => o.leftOver k n) = os
  induction os generalizing s with
  | nil => exact h
  | cons o r ih => exact ih (h.finishLeft o)
theorem State.MemOk.readNow {s : State} (h : s.MemOk) (l : Loc) (c n : Nat) (q : Option Prio) : (s.readNow l c n q).2.MemOk := by
  unfold State.readNow
  split
  · exact h
  · split
    · split
      · exact h.loadTouch _ _ _
      · exact (h.transitEnd _).dirRead _ _ _ _
    · exact h.loadTouch _ _ _
theorem State.MemOk.writeNow {s : State} (h : s.MemOk) (l : Loc) (c : Nat) (bs : List Byte) (t : Option Nat) : (s.writeNow l c bs t).MemOk := by
  have h0 := (h.settle l.key bs.length).clearPoison l.key bs.length
  unfold State.writeNow
  dsimp only
  split
  · exact h0.putHome _ _
  · split
    · split
      · exact (h0.transitEnd _).replicaPut _ _ _ _ _ _ _
      · exact ((h0.transitEnd _).replicaPut _ _ _ _ _ _ _).dirWrite _ _ _
    · exact h0.storeAt _ _ _ _
theorem State.MemOk.rmwAt {s : State} (h : s.MemOk) (l : Loc) (op : RmwOp) (ls : List (DWord × DWord)) : (s.rmwAt l op ls).2.MemOk := by
  unfold State.rmwAt
  dsimp only
  split
  · exact (h.settle _ _).dropCopies _
  · exact ((h.settle _ _).dropCopies _).writeHome _ _
theorem State.MemOk.rmwHalf {s : State} (h : s.MemOk) (l : Loc) (u : Bool) (ls : List (DWord × DWord)) : (s.rmwHalf l u ls).2.MemOk := by
  unfold State.rmwHalf
  dsimp only
  generalize (if u = true then 2 else 0) = d
  split
  · exact (h.settle _ _).dropCopies _
  · exact ((h.settle _ _).dropCopies _).writeHome _ _
theorem State.cacheDesc_mem (s : State) (asid : BitVec 16) : (s.cacheDesc asid).mem = s.mem := rfl
theorem State.install_mem (s : State) (a : TlbAt) (d : Nat) (asid : BitVec 16) (va : Nat) (x : Walked) :
    (s.install a d asid va x).mem = s.mem := by
  unfold State.install
  dsimp only
  rw [State.cacheDesc_mem]
theorem State.MemOk.touchWalk {s : State} (h : s.MemOk) (a : TlbAt) (d : Nat) (asid : BitVec 16) (va : Nat) (w : Bool) (x : Walked) :
    (s.touchWalk a d asid va w x).MemOk := by
  unfold State.touchWalk State.MemOk
  dsimp only
  rw [State.install_mem]
  generalize (if w = true then (0x20 : BitVec 64) else 0) = e
  split
  · exact h
  · exact h.physWrite _ _ _
theorem State.MemOk.touch {s : State} (h : s.MemOk) (w : Who) (k : AK) (c : Checked) : (s.touch w k c).MemOk := by
  unfold State.touch
  split
  · exact h
  · exact h.touchWalk _ _ _ _ _ _

/-! ### Full/empty words and ranges of the vault -/

theorem State.MemOk.releaseTag {s : State} (h : s.MemOk) (n : Nat) : (s.releaseTag n).MemOk := by
  unfold State.releaseTag
  split
  · exact h.writeBack _
  · exact h
theorem State.MemOk.finishLane {s : State} (h : s.MemOk) (o : MemOp) (id : SId) (v : Option DWord) : (s.finishLane o id v).MemOk := by
  unfold State.MemOk
  rw [State.finishLane_mem]
  exact h
theorem State.MemOk.setEmptyBit {s : State} (h : s.MemOk) (a : Nat) (e : Bool) : (s.setEmptyBit a e).MemOk := h
theorem State.MemOk.feEffect {s : State} (h : s.MemOk) (o : MemOp) : (s.feEffect o).MemOk := by
  have h0 : ((if ordReleases o.ord then s.releaseTag o.ctag else s).noteDone o []).MemOk := by
    unfold State.MemOk
    rw [State.noteDone_mem]
    split
    · exact h.releaseTag _
    · exact h
  have h1 := foldl_memOk (fun (s : State) (l : OpLane) => match o.kill with
    | some r => s.onLane l.sid fun st => st.kill64 r true
    | none => s) (fun t l ht => by cases o.kill <;> exact ht) o.lanes _ h0
  unfold State.feEffect
  generalize List.foldl _ _ o.lanes = t at h1 ⊢
  show Memory.wf (State.mem (match o.kind with | .fe .ldvw => _ | .fe .ldvt => _ | _ => _)) = true
  split
  · exact h1.finishLane _ _ _
  · exact (h1.setEmptyBit _ _).finishLane _ _ _
  · exact (((h1.mend _ _).writeHome _ _).setEmptyBit _ _).finishLane _ _ _
theorem State.MemOk.serveWaiters {s : State} (h : s.MemOk) (a n : Nat) : (s.serveWaiters a n).MemOk := by
  induction n generalizing s with
  | zero => exact h
  | succ n ih =>
    unfold State.serveWaiters
    split
    · exact h
    · exact ih (h.feEffect _)
theorem State.MemOk.clearVault {s : State} (h : s.MemOk) (a n k : Nat) : (s.clearVault a n k).MemOk := by
  induction k generalizing s with
  | zero => exact (h.mend _ _).zeroVault a n
  | succ k ih =>
    unfold State.clearVault
    dsimp only
    split
    · exact (h.mend _ _).zeroVault a n
    · exact ih (foldl_memOk _ (fun t w ht => ht.serveWaiters _ _) _ _ ((h.mend _ _).zeroVault a n))
theorem State.MemOk.fillVault {s : State} (h : s.MemOk) (a n : Nat) : (s.fillVault a n).MemOk := h.clearVault _ _ _

end Sys2Proof.Machine
end

