-- ==== Sys2Proof/Laws/Operands.lean ====
section
/-! SUPPORT. Sys2Proof/Laws/Operands.lean: what the frame of register instructions does where no operand names a queue port. -/
namespace Sys2Proof.Machine

theorem State.retireLanes_eq (s : State) (g : Guard) (f : Stream → Stream) : s.retireLanes g f = s.completed g f := rfl

@[simp] theorem Src.port_r64 (r : Reg) (k : Bool) : (Src.r64 r k).port = Option.none := rfl
@[simp] theorem Src.port_val (v : DWord) : (Src.val v).port = Option.none := rfl
@[simp] theorem Dst.port_none : Dst.none.port = Option.none := rfl
@[simp] theorem Dst.port_r64 (r : Reg) : (Dst.r64 r).port = Option.none := rfl
theorem Src.port_r32 {r : Reg} (k : Bool) (h : Reg.isPort r = false) : (Src.r32 r k).port = Option.none := by
  simp [Src.port, h]
theorem Dst.port_r32 {r : Reg} (h : Reg.isPort r = false) : (Dst.r32 r).port = Option.none := by
  simp [Dst.port, h]

/-- Without a port the instruction completes in its lanes. -/
theorem State.alu_plain (s : State) (g : Guard) {d : Dst} {a b c : Src} (f : Stream → DWord → DWord → DWord → DWord)
    (ha : a.port = none) (hb : b.port = none) (hc : c.port = none) (hd : d.port = none) :
    s.alu g d a b c f = s.completed g (laneOp d a b c f) := by
  simp [State.alu, ha, hb, hc, hd, State.retireLanes_eq]

@[simp] theorem plainRegs_nil : plainRegs [] = true := rfl
@[simp] theorem plainRegs_cons (r : Reg) (rs : List Reg) :
    plainRegs (r :: rs) = (!Reg.isPort r && plainRegs rs) := by simp [plainRegs]

theorem srcB_port {b : Opnd} (h : plainRegs (opndRegs b)) : (srcB b).port = none := by
  cases b with
  | reg r k => simp [opndRegs] at h; exact Src.port_r32 k h
  | imm v => rfl
theorem srcF_port {b : Opnd} (h : plainRegs (opndRegs b)) : (srcF b).port = none := by
  cases b with
  | reg r k => simp [opndRegs] at h; exact Src.port_r32 k h
  | imm v => rfl
@[simp] theorem srcB64_port (b : Opnd) : (srcB64 b).port = none := by cases b <;> rfl

@[simp] theorem Src.killIn_srcB (st : Stream) (b : Opnd) : (srcB b).killIn st = killOpnd st b := by cases b <;> rfl
@[simp] theorem Src.killIn_srcF (st : Stream) (b : Opnd) : (srcF b).killIn st = killOpnd st b := by cases b <;> rfl
@[simp] theorem Src.killIn_srcB64 (st : Stream) (b : Opnd) : (srcB64 b).killIn st = killOpnd64 st b := by cases b <;> rfl
@[simp] theorem Src.read_srcB (st : Stream) (b : Opnd) : ((srcB b).read st).setWidth 32 = opnd32 st b := by
  cases b <;> simp [srcB, Src.read, opnd32, imm32]
@[simp] theorem Src.read_srcF (st : Stream) (b : Opnd) : ((srcF b).read st).setWidth 32 = opndF32 st b := by
  cases b <;> simp [srcF, Src.read, opndF32]
@[simp] theorem Src.read_srcB64 (st : Stream) (b : Opnd) : (srcB64 b).read st = opnd64 st b := by cases b <;> rfl

/-! ### The moulds -/

theorem State.unary_plain (s : State) (o : Alu1) (f : Word → Word) (h : plainRegs [o.d, o.s1]) :
    s.unary o f = s.completed o.g fun st => (st.kill o.s1 o.k1).wr o.d (f (st.rd o.s1)) := by
  simp at h
  rw [State.unary, State.alu_plain _ _ _ (Src.port_r32 _ h.2) rfl rfl (Dst.port_r32 h.1)]
  refine congrArg (s.completed o.g) (funext fun st => ?_)
  simp [laneOp, Src.read, Src.killIn, Dst.write, noSrc]

theorem State.binary_plain (s : State) (o : Alu2) (f : Word → Word → Word) (h : plainRegs (o.d :: o.s1 :: opndRegs o.b)) :
    s.binary o f = s.completed o.g fun st =>
      (killOpnd (st.kill o.s1 o.k1) o.b).wr o.d (f (st.rd o.s1) (opnd32 st o.b)) := by
  simp at h
  rw [State.binary, State.alu_plain _ _ _ (Src.port_r32 _ h.2.1) (srcB_port h.2.2) rfl (Dst.port_r32 h.1)]
  refine congrArg (s.completed o.g) (funext fun st => ?_)
  simp only [laneOp, noSrc, Dst.write, Src.killIn_srcB, Src.read_srcB]
  simp [Src.read, Src.killIn]

theorem State.binaryF_plain (s : State) (o : Alu2) (f : Word → Word → Word) (h : plainRegs (o.d :: o.s1 :: opndRegs o.b)) :
    s.binaryF o f = s.completed o.g fun st =>
      (killOpnd (st.kill o.s1 o.k1) o.b).wr o.d (f (st.rd o.s1) (opndF32 st o.b)) := by
  simp at h
  rw [State.binaryF, State.alu_plain _ _ _ (Src.port_r32 _ h.2.1) (srcF_port h.2.2) rfl (Dst.port_r32 h.1)]
  refine congrArg (s.completed o.g) (funext fun st => ?_)
  simp only [laneOp, noSrc, Dst.write, Src.killIn_srcF, Src.read_srcF]
  simp [Src.read, Src.killIn]

theorem State.binaryR_plain (s : State) (o : AluR) (f : Word → Word → Word) (h : plainRegs [o.d, o.s1, o.s2]) :
    s.binaryR o f = s.completed o.g fun st =>
      ((st.kill o.s1 o.k1).kill o.s2 o.k2).wr o.d (f (st.rd o.s1) (st.rd o.s2)) := by
  simp at h
  rw [State.binaryR, State.alu_plain _ _ _ (Src.port_r32 _ h.2.1) (Src.port_r32 _ h.2.2) rfl (Dst.port_r32 h.1)]
  refine congrArg (s.completed o.g) (funext fun st => ?_)
  simp [laneOp, Src.read, Src.killIn, Dst.write, noSrc]

theorem State.ternary_plain (s : State) (o : Alu3) (f : Word → Word → Word → Word)
    (h : plainRegs [o.d, o.s1, o.s2, o.s3]) :
    s.ternary o f = s.completed o.g fun st =>
      ((st.kill o.s1 o.k1).kill o.s2 o.k2).wr o.d (f (st.rd o.s1) (st.rd o.s2) (st.rd o.s3)) := by
  simp at h
  rw [State.ternary, State.alu_plain _ _ _ (Src.port_r32 _ h.2.1) (Src.port_r32 _ h.2.2.1) (Src.port_r32 _ h.2.2.2)
    (Dst.port_r32 h.1)]
  refine congrArg (s.completed o.g) (funext fun st => ?_)
  simp [laneOp, Src.read, Src.killIn, Dst.write, Stream.kill]

theorem State.wide_plain (s : State) (o : Alu2) (f : DWord → DWord → DWord) :
    s.wide o f = s.completed o.g fun st =>
      (killOpnd64 (st.kill64 o.s1 o.k1) o.b).wr64 o.d (f (st.rd64 o.s1) (opnd64 st o.b)) := by
  rw [State.wide, State.alu_plain _ _ _ rfl (by simp) rfl rfl]
  refine congrArg (s.completed o.g) (funext fun st => ?_)
  simp only [laneOp, noSrc, Dst.write, Src.killIn_srcB64, Src.read_srcB64]
  simp [Src.read, Src.killIn]

theorem State.wideCount_plain (s : State) (o : Alu2) (f : DWord → Word → DWord) (h : plainRegs (opndRegs o.b)) :
    s.wideCount o f = s.completed o.g fun st =>
      (killOpnd (st.kill64 o.s1 o.k1) o.b).wr64 o.d (f (st.rd64 o.s1) (opnd32 st o.b)) := by
  rw [State.wideCount, State.alu_plain _ _ _ rfl (srcB_port h) rfl rfl]
  refine congrArg (s.completed o.g) (funext fun st => ?_)
  simp only [laneOp, noSrc, Dst.write, Src.killIn_srcB, Src.read_srcB]
  simp [Src.read, Src.killIn]

end Sys2Proof.Machine
end

