-- ==== Sys2Proof/Laws/Ops.lean ====
section
/-! SUPPORT. Sys2Proof/Laws/Ops.lean: all that stalling, parking, ending a team and taking a trap can change: streams and teams. -/
namespace Sys2Proof.Machine

/-- Nothing differs but streams and teams. -/
def State.OnlyThreads (s t : State) : Prop := t = { s with streams := t.streams, teams := t.teams }

theorem State.OnlyThreads.refl (s : State) : s.OnlyThreads s := rfl
theorem State.OnlyThreads.trans {s t u : State} (h : s.OnlyThreads t) (h' : t.OnlyThreads u) : s.OnlyThreads u := by
  unfold State.OnlyThreads at *
  rw [h', h]

theorem State.onLanes_threads (s : State) (ids : List SId) (f : Stream → Stream) : s.OnlyThreads (s.onLanes ids f) := rfl
theorem State.onTeam_threads (s : State) (tcx : Nat) (f : Team → Team) : s.OnlyThreads (s.onTeam tcx f) := rfl
theorem State.completed_threads (s : State) (g : Guard) (f : Stream → Stream) : s.OnlyThreads (s.completed g f) := rfl
theorem State.stalled_threads (s : State) : s.OnlyThreads s.stalled := rfl
theorem State.parkLanes_threads (s : State) (p : Park) : s.OnlyThreads (s.parkLanes p) := rfl
theorem State.skipLanes_threads (s : State) (g : Guard) : s.OnlyThreads (s.skipLanes g) := rfl
theorem State.recordErr_threads (s : State) (id : SId) (k : Nat) (e : Err) : s.OnlyThreads (s.recordErr id k e) := rfl
theorem State.decCounter_threads (s : State) (id : SId) (k : Nat) : s.OnlyThreads (s.decCounter id k) := rfl

theorem State.takeTrap_threads (s : State) (ids : List SId) (c : Cause) (pc npc a : DWord) (i : Word) :
    s.OnlyThreads (s.takeTrap ids c pc npc a i) := by
  unfold State.takeTrap
  dsimp only
  split <;> rfl
theorem State.trap7_threads (s : State) (g : Guard) (c : Cause) (id : SId) (a : DWord) (code : BitVec 16) :
    s.OnlyThreads (s.trap7 g c id a code) := by
  unfold State.trap7
  split
  · rfl
  · exact (s.skipLanes_threads g).trans (State.takeTrap_threads _ _ _ _ _ _ _)
theorem State.trapLow_threads (s : State) (g : Guard) (c : Cause) (a : DWord) (code : BitVec 16) :
    s.OnlyThreads (s.trapLow g c a code) := by
  unfold State.trapLow
  split
  · exact s.trap7_threads _ _ _ _ _
  · rfl
theorem State.trapEarly_threads (s : State) (c : Cause) (a : DWord) : s.OnlyThreads (s.trapEarly c a) := by
  unfold State.trapEarly
  split
  · rfl
  · exact s.takeTrap_threads _ _ _ _ _ _
theorem State.deliver_threads (s : State) (id : SId) (k : Nat) (e : Err) : s.OnlyThreads (s.deliver id k e) :=
  (s.onLanes_threads [id] _).trans (State.takeTrap_threads _ _ _ _ _ _ _)

/-- A trap taken by threads that can take it (R402): each enters its handler, no team ends. -/
theorem State.takeTrap_enters (s : State) (ids : List SId) (c : Cause) (pc npc a : DWord) (i : Word)
    (h : ∀ id ∈ ids, (s.stream id).canTrap = true) :
    s.takeTrap ids c pc npc a i = s.onLanes ids fun st => if st.canTrap then st.enterTrap c pc npc a i else st := by
  have : (ids.find? fun id => !(s.stream id).canTrap) = none := by
    rw [List.find?_eq_none]
    intro id hid
    simp [h id hid]
  simp [State.takeTrap, this]

end Sys2Proof.Machine
end

