-- ==== Sys2Proof/Laws/State.lean ====
section
/-! SUPPORT. Sys2Proof/Laws/State.lean: what each named update of the device leaves as it was, field by field. -/
namespace Sys2Proof.Machine

section
variable (s : State) (ids : List SId) (f : Stream → Stream)
@[simp] theorem State.onLanes_clock : (s.onLanes ids f).clock = s.clock := rfl
@[simp] theorem State.onLanes_agenda : (s.onLanes ids f).agenda = s.agenda := rfl
@[simp] theorem State.onLanes_cur : (s.onLanes ids f).cur = s.cur := rfl
@[simp] theorem State.onLanes_issues : (s.onLanes ids f).issues = s.issues := rfl
@[simp] theorem State.onLanes_free : (s.onLanes ids f).free = s.free := rfl
@[simp] theorem State.onLanes_nextOp : (s.onLanes ids f).nextOp = s.nextOp := rfl
@[simp] theorem State.onLanes_streams : (s.onLanes ids f).streams = s.streams.map fun st => if st.id ∈ ids then f st else st := rfl
@[simp] theorem State.onLanes_teams : (s.onLanes ids f).teams = s.teams := rfl
@[simp] theorem State.onLanes_gbars : (s.onLanes ids f).gbars = s.gbars := rfl
@[simp] theorem State.onLanes_ops : (s.onLanes ids f).ops = s.ops := rfl
@[simp] theorem State.onLanes_mem : (s.onLanes ids f).mem = s.mem := rfl
@[simp] theorem State.onLanes_tr : (s.onLanes ids f).tr = s.tr := rfl
@[simp] theorem State.onLanes_vt : (s.onLanes ids f).vt = s.vt := rfl
@[simp] theorem State.onLanes_qu : (s.onLanes ids f).qu = s.qu := rfl
@[simp] theorem State.onLanes_jobs : (s.onLanes ids f).jobs = s.jobs := rfl
@[simp] theorem State.onLanes_tokens : (s.onLanes ids f).tokens = s.tokens := rfl
@[simp] theorem State.onLanes_fns : (s.onLanes ids f).fns = s.fns := rfl
@[simp] theorem State.onLanes_pm : (s.onLanes ids f).pm = s.pm := rfl
@[simp] theorem State.onLanes_halted : (s.onLanes ids f).halted = s.halted := rfl
@[simp] theorem State.onLanes_links : (s.onLanes ids f).links = s.links := rfl
@[simp] theorem State.onLanes_loom : (s.onLanes ids f).loom = s.loom := rfl
@[simp] theorem State.onLanes_mx : (s.onLanes ids f).mx = s.mx := rfl
@[simp] theorem State.onLanes_dr : (s.onLanes ids f).dr = s.dr := rfl
@[simp] theorem State.onLanes_co : (s.onLanes ids f).co = s.co := rfl
@[simp] theorem State.onLanes_hif : (s.onLanes ids f).hif = s.hif := rfl
@[simp] theorem State.onLanes_pwr : (s.onLanes ids f).pwr = s.pwr := rfl
@[simp] theorem State.onLanes_fw : (s.onLanes ids f).fw = s.fw := rfl
@[simp] theorem State.onLanes_images : (s.onLanes ids f).images = s.images := rfl
@[simp] theorem State.onLanes_outbox : (s.onLanes ids f).outbox = s.outbox := rfl
end

section
variable (s : State) (g : Guard) (f : Stream → Stream)
@[simp] theorem State.completed_clock : (s.completed g f).clock = s.clock := rfl
@[simp] theorem State.completed_agenda : (s.completed g f).agenda = s.agenda := rfl
@[simp] theorem State.completed_cur : (s.completed g f).cur = s.cur := rfl
@[simp] theorem State.completed_issues : (s.completed g f).issues = s.issues := rfl
@[simp] theorem State.completed_free : (s.completed g f).free = s.free := rfl
@[simp] theorem State.completed_nextOp : (s.completed g f).nextOp = s.nextOp := rfl
@[simp] theorem State.completed_teams : (s.completed g f).teams = s.teams := rfl
@[simp] theorem State.completed_gbars : (s.completed g f).gbars = s.gbars := rfl
@[simp] theorem State.completed_ops : (s.completed g f).ops = s.ops := rfl
@[simp] theorem State.completed_mem : (s.completed g f).mem = s.mem := rfl
@[simp] theorem State.completed_tr : (s.completed g f).tr = s.tr := rfl
@[simp] theorem State.completed_vt : (s.completed g f).vt = s.vt := rfl
@[simp] theorem State.completed_qu : (s.completed g f).qu = s.qu := rfl
@[simp] theorem State.completed_jobs : (s.completed g f).jobs = s.jobs := rfl
@[simp] theorem State.completed_tokens : (s.completed g f).tokens = s.tokens := rfl
@[simp] theorem State.completed_fns : (s.completed g f).fns = s.fns := rfl
@[simp] theorem State.completed_pm : (s.completed g f).pm = s.pm := rfl
@[simp] theorem State.completed_halted : (s.completed g f).halted = s.halted := rfl
@[simp] theorem State.completed_links : (s.completed g f).links = s.links := rfl
@[simp] theorem State.completed_loom : (s.completed g f).loom = s.loom := rfl
@[simp] theorem State.completed_mx : (s.completed g f).mx = s.mx := rfl
@[simp] theorem State.completed_dr : (s.completed g f).dr = s.dr := rfl
@[simp] theorem State.completed_co : (s.completed g f).co = s.co := rfl
@[simp] theorem State.completed_hif : (s.completed g f).hif = s.hif := rfl
@[simp] theorem State.completed_pwr : (s.completed g f).pwr = s.pwr := rfl
@[simp] theorem State.completed_fw : (s.completed g f).fw = s.fw := rfl
@[simp] theorem State.completed_images : (s.completed g f).images = s.images := rfl
@[simp] theorem State.completed_outbox : (s.completed g f).outbox = s.outbox := rfl
end

section
variable (s : State) (tcx : Nat) (f : Team → Team)
@[simp] theorem State.onTeam_clock : (s.onTeam tcx f).clock = s.clock := rfl
@[simp] theorem State.onTeam_agenda : (s.onTeam tcx f).agenda = s.agenda := rfl
@[simp] theorem State.onTeam_cur : (s.onTeam tcx f).cur = s.cur := rfl
@[simp] theorem State.onTeam_issues : (s.onTeam tcx f).issues = s.issues := rfl
@[simp] theorem State.onTeam_free : (s.onTeam tcx f).free = s.free := rfl
@[simp] theorem State.onTeam_nextOp : (s.onTeam tcx f).nextOp = s.nextOp := rfl
@[simp] theorem State.onTeam_streams : (s.onTeam tcx f).streams = s.streams := rfl
@[simp] theorem State.onTeam_gbars : (s.onTeam tcx f).gbars = s.gbars := rfl
@[simp] theorem State.onTeam_ops : (s.onTeam tcx f).ops = s.ops := rfl
@[simp] theorem State.onTeam_mem : (s.onTeam tcx f).mem = s.mem := rfl
@[simp] theorem State.onTeam_tr : (s.onTeam tcx f).tr = s.tr := rfl
@[simp] theorem State.onTeam_vt : (s.onTeam tcx f).vt = s.vt := rfl
@[simp] theorem State.onTeam_qu : (s.onTeam tcx f).qu = s.qu := rfl
@[simp] theorem State.onTeam_jobs : (s.onTeam tcx f).jobs = s.jobs := rfl
@[simp] theorem State.onTeam_tokens : (s.onTeam tcx f).tokens = s.tokens := rfl
@[simp] theorem State.onTeam_fns : (s.onTeam tcx f).fns = s.fns := rfl
@[simp] theorem State.onTeam_pm : (s.onTeam tcx f).pm = s.pm := rfl
@[simp] theorem State.onTeam_halted : (s.onTeam tcx f).halted = s.halted := rfl
@[simp] theorem State.onTeam_links : (s.onTeam tcx f).links = s.links := rfl
@[simp] theorem State.onTeam_loom : (s.onTeam tcx f).loom = s.loom := rfl
@[simp] theorem State.onTeam_mx : (s.onTeam tcx f).mx = s.mx := rfl
@[simp] theorem State.onTeam_dr : (s.onTeam tcx f).dr = s.dr := rfl
@[simp] theorem State.onTeam_co : (s.onTeam tcx f).co = s.co := rfl
@[simp] theorem State.onTeam_hif : (s.onTeam tcx f).hif = s.hif := rfl
@[simp] theorem State.onTeam_pwr : (s.onTeam tcx f).pwr = s.pwr := rfl
@[simp] theorem State.onTeam_fw : (s.onTeam tcx f).fw = s.fw := rfl
@[simp] theorem State.onTeam_images : (s.onTeam tcx f).images = s.images := rfl
@[simp] theorem State.onTeam_outbox : (s.onTeam tcx f).outbox = s.outbox := rfl
end

section
variable (s : State) (k : Nat) (bs : List Byte)
@[simp] theorem State.writeHome_clock : (s.writeHome k bs).clock = s.clock := rfl
@[simp] theorem State.writeHome_agenda : (s.writeHome k bs).agenda = s.agenda := rfl
@[simp] theorem State.writeHome_cur : (s.writeHome k bs).cur = s.cur := rfl
@[simp] theorem State.writeHome_issues : (s.writeHome k bs).issues = s.issues := rfl
@[simp] theorem State.writeHome_free : (s.writeHome k bs).free = s.free := rfl
@[simp] theorem State.writeHome_nextOp : (s.writeHome k bs).nextOp = s.nextOp := rfl
@[simp] theorem State.writeHome_streams : (s.writeHome k bs).streams = s.streams := rfl
@[simp] theorem State.writeHome_teams : (s.writeHome k bs).teams = s.teams := rfl
@[simp] theorem State.writeHome_gbars : (s.writeHome k bs).gbars = s.gbars := rfl
@[simp] theorem State.writeHome_ops : (s.writeHome k bs).ops = s.ops := rfl
@[simp] theorem State.writeHome_mem : (s.writeHome k bs).mem = memWriteN s.mem k bs := rfl
@[simp] theorem State.writeHome_tr : (s.writeHome k bs).tr = s.tr := rfl
@[simp] theorem State.writeHome_vt : (s.writeHome k bs).vt = s.vt := rfl
@[simp] theorem State.writeHome_qu : (s.writeHome k bs).qu = s.qu := rfl
@[simp] theorem State.writeHome_jobs : (s.writeHome k bs).jobs = s.jobs := rfl
@[simp] theorem State.writeHome_tokens : (s.writeHome k bs).tokens = s.tokens := rfl
@[simp] theorem State.writeHome_fns : (s.writeHome k bs).fns = s.fns := rfl
@[simp] theorem State.writeHome_pm : (s.writeHome k bs).pm = s.pm := rfl
@[simp] theorem State.writeHome_halted : (s.writeHome k bs).halted = s.halted := rfl
@[simp] theorem State.writeHome_links : (s.writeHome k bs).links = s.links := rfl
@[simp] theorem State.writeHome_loom : (s.writeHome k bs).loom = s.loom := rfl
@[simp] theorem State.writeHome_mx : (s.writeHome k bs).mx = s.mx := rfl
@[simp] theorem State.writeHome_dr : (s.writeHome k bs).dr = s.dr := rfl
@[simp] theorem State.writeHome_co : (s.writeHome k bs).co = s.co := rfl
@[simp] theorem State.writeHome_hif : (s.writeHome k bs).hif = s.hif := rfl
@[simp] theorem State.writeHome_pwr : (s.writeHome k bs).pwr = s.pwr := rfl
@[simp] theorem State.writeHome_fw : (s.writeHome k bs).fw = s.fw := rfl
@[simp] theorem State.writeHome_images : (s.writeHome k bs).images = s.images := rfl
@[simp] theorem State.writeHome_outbox : (s.writeHome k bs).outbox = s.outbox := rfl
end

section
variable (s : State) (n : Nat) (x : Share)
@[simp] theorem State.setShare_clock : (s.setShare n x).clock = s.clock := rfl
@[simp] theorem State.setShare_agenda : (s.setShare n x).agenda = s.agenda := rfl
@[simp] theorem State.setShare_cur : (s.setShare n x).cur = s.cur := rfl
@[simp] theorem State.setShare_issues : (s.setShare n x).issues = s.issues := rfl
@[simp] theorem State.setShare_free : (s.setShare n x).free = s.free := rfl
@[simp] theorem State.setShare_nextOp : (s.setShare n x).nextOp = s.nextOp := rfl
@[simp] theorem State.setShare_streams : (s.setShare n x).streams = s.streams := rfl
@[simp] theorem State.setShare_teams : (s.setShare n x).teams = s.teams := rfl
@[simp] theorem State.setShare_gbars : (s.setShare n x).gbars = s.gbars := rfl
@[simp] theorem State.setShare_ops : (s.setShare n x).ops = s.ops := rfl
@[simp] theorem State.setShare_mem : (s.setShare n x).mem = s.mem := rfl
@[simp] theorem State.setShare_tr : (s.setShare n x).tr = s.tr := rfl
@[simp] theorem State.setShare_qu : (s.setShare n x).qu = s.qu := rfl
@[simp] theorem State.setShare_jobs : (s.setShare n x).jobs = s.jobs := rfl
@[simp] theorem State.setShare_tokens : (s.setShare n x).tokens = s.tokens := rfl
@[simp] theorem State.setShare_fns : (s.setShare n x).fns = s.fns := rfl
@[simp] theorem State.setShare_pm : (s.setShare n x).pm = s.pm := rfl
@[simp] theorem State.setShare_halted : (s.setShare n x).halted = s.halted := rfl
@[simp] theorem State.setShare_links : (s.setShare n x).links = s.links := rfl
@[simp] theorem State.setShare_loom : (s.setShare n x).loom = s.loom := rfl
@[simp] theorem State.setShare_mx : (s.setShare n x).mx = s.mx := rfl
@[simp] theorem State.setShare_dr : (s.setShare n x).dr = s.dr := rfl
@[simp] theorem State.setShare_co : (s.setShare n x).co = s.co := rfl
@[simp] theorem State.setShare_hif : (s.setShare n x).hif = s.hif := rfl
@[simp] theorem State.setShare_pwr : (s.setShare n x).pwr = s.pwr := rfl
@[simp] theorem State.setShare_fw : (s.setShare n x).fw = s.fw := rfl
@[simp] theorem State.setShare_images : (s.setShare n x).images = s.images := rfl
@[simp] theorem State.setShare_outbox : (s.setShare n x).outbox = s.outbox := rfl
end

section
variable (s : State) (p : Line → Bool) (f : Line → Line)
@[simp] theorem State.onLines_clock : (s.onLines p f).clock = s.clock := rfl
@[simp] theorem State.onLines_agenda : (s.onLines p f).agenda = s.agenda := rfl
@[simp] theorem State.onLines_cur : (s.onLines p f).cur = s.cur := rfl
@[simp] theorem State.onLines_issues : (s.onLines p f).issues = s.issues := rfl
@[simp] theorem State.onLines_free : (s.onLines p f).free = s.free := rfl
@[simp] theorem State.onLines_nextOp : (s.onLines p f).nextOp = s.nextOp := rfl
@[simp] theorem State.onLines_streams : (s.onLines p f).streams = s.streams := rfl
@[simp] theorem State.onLines_teams : (s.onLines p f).teams = s.teams := rfl
@[simp] theorem State.onLines_gbars : (s.onLines p f).gbars = s.gbars := rfl
@[simp] theorem State.onLines_ops : (s.onLines p f).ops = s.ops := rfl
@[simp] theorem State.onLines_mem : (s.onLines p f).mem = s.mem := rfl
@[simp] theorem State.onLines_tr : (s.onLines p f).tr = s.tr := rfl
@[simp] theorem State.onLines_qu : (s.onLines p f).qu = s.qu := rfl
@[simp] theorem State.onLines_jobs : (s.onLines p f).jobs = s.jobs := rfl
@[simp] theorem State.onLines_tokens : (s.onLines p f).tokens = s.tokens := rfl
@[simp] theorem State.onLines_fns : (s.onLines p f).fns = s.fns := rfl
@[simp] theorem State.onLines_pm : (s.onLines p f).pm = s.pm := rfl
@[simp] theorem State.onLines_halted : (s.onLines p f).halted = s.halted := rfl
@[simp] theorem State.onLines_links : (s.onLines p f).links = s.links := rfl
@[simp] theorem State.onLines_loom : (s.onLines p f).loom = s.loom := rfl
@[simp] theorem State.onLines_mx : (s.onLines p f).mx = s.mx := rfl
@[simp] theorem State.onLines_dr : (s.onLines p f).dr = s.dr := rfl
@[simp] theorem State.onLines_co : (s.onLines p f).co = s.co := rfl
@[simp] theorem State.onLines_hif : (s.onLines p f).hif = s.hif := rfl
@[simp] theorem State.onLines_pwr : (s.onLines p f).pwr = s.pwr := rfl
@[simp] theorem State.onLines_fw : (s.onLines p f).fw = s.fw := rfl
@[simp] theorem State.onLines_images : (s.onLines p f).images = s.images := rfl
@[simp] theorem State.onLines_outbox : (s.onLines p f).outbox = s.outbox := rfl
end

section
variable (s : State) (p : Line → Bool)
@[simp] theorem State.dropLines_clock : (s.dropLines p).clock = s.clock := rfl
@[simp] theorem State.dropLines_agenda : (s.dropLines p).agenda = s.agenda := rfl
@[simp] theorem State.dropLines_cur : (s.dropLines p).cur = s.cur := rfl
@[simp] theorem State.dropLines_issues : (s.dropLines p).issues = s.issues := rfl
@[simp] theorem State.dropLines_free : (s.dropLines p).free = s.free := rfl
@[simp] theorem State.dropLines_nextOp : (s.dropLines p).nextOp = s.nextOp := rfl
@[simp] theorem State.dropLines_streams : (s.dropLines p).streams = s.streams := rfl
@[simp] theorem State.dropLines_teams : (s.dropLines p).teams = s.teams := rfl
@[simp] theorem State.dropLines_gbars : (s.dropLines p).gbars = s.gbars := rfl
@[simp] theorem State.dropLines_ops : (s.dropLines p).ops = s.ops := rfl
@[simp] theorem State.dropLines_mem : (s.dropLines p).mem = s.mem := rfl
@[simp] theorem State.dropLines_tr : (s.dropLines p).tr = s.tr := rfl
@[simp] theorem State.dropLines_qu : (s.dropLines p).qu = s.qu := rfl
@[simp] theorem State.dropLines_jobs : (s.dropLines p).jobs = s.jobs := rfl
@[simp] theorem State.dropLines_tokens : (s.dropLines p).tokens = s.tokens := rfl
@[simp] theorem State.dropLines_fns : (s.dropLines p).fns = s.fns := rfl
@[simp] theorem State.dropLines_pm : (s.dropLines p).pm = s.pm := rfl
@[simp] theorem State.dropLines_halted : (s.dropLines p).halted = s.halted := rfl
@[simp] theorem State.dropLines_links : (s.dropLines p).links = s.links := rfl
@[simp] theorem State.dropLines_loom : (s.dropLines p).loom = s.loom := rfl
@[simp] theorem State.dropLines_mx : (s.dropLines p).mx = s.mx := rfl
@[simp] theorem State.dropLines_dr : (s.dropLines p).dr = s.dr := rfl
@[simp] theorem State.dropLines_co : (s.dropLines p).co = s.co := rfl
@[simp] theorem State.dropLines_hif : (s.dropLines p).hif = s.hif := rfl
@[simp] theorem State.dropLines_pwr : (s.dropLines p).pwr = s.pwr := rfl
@[simp] theorem State.dropLines_fw : (s.dropLines p).fw = s.fw := rfl
@[simp] theorem State.dropLines_images : (s.dropLines p).images = s.images := rfl
@[simp] theorem State.dropLines_outbox : (s.dropLines p).outbox = s.outbox := rfl
end

section
variable (s : State) (seg : Nat) (d : Dir)
@[simp] theorem State.setDir_clock : (s.setDir seg d).clock = s.clock := rfl
@[simp] theorem State.setDir_agenda : (s.setDir seg d).agenda = s.agenda := rfl
@[simp] theorem State.setDir_cur : (s.setDir seg d).cur = s.cur := rfl
@[simp] theorem State.setDir_issues : (s.setDir seg d).issues = s.issues := rfl
@[simp] theorem State.setDir_free : (s.setDir seg d).free = s.free := rfl
@[simp] theorem State.setDir_nextOp : (s.setDir seg d).nextOp = s.nextOp := rfl
@[simp] theorem State.setDir_streams : (s.setDir seg d).streams = s.streams := rfl
@[simp] theorem State.setDir_teams : (s.setDir seg d).teams = s.teams := rfl
@[simp] theorem State.setDir_gbars : (s.setDir seg d).gbars = s.gbars := rfl
@[simp] theorem State.setDir_ops : (s.setDir seg d).ops = s.ops := rfl
@[simp] theorem State.setDir_mem : (s.setDir seg d).mem = s.mem := rfl
@[simp] theorem State.setDir_tr : (s.setDir seg d).tr = s.tr := rfl
@[simp] theorem State.setDir_qu : (s.setDir seg d).qu = s.qu := rfl
@[simp] theorem State.setDir_jobs : (s.setDir seg d).jobs = s.jobs := rfl
@[simp] theorem State.setDir_tokens : (s.setDir seg d).tokens = s.tokens := rfl
@[simp] theorem State.setDir_fns : (s.setDir seg d).fns = s.fns := rfl
@[simp] theorem State.setDir_pm : (s.setDir seg d).pm = s.pm := rfl
@[simp] theorem State.setDir_halted : (s.setDir seg d).halted = s.halted := rfl
@[simp] theorem State.setDir_links : (s.setDir seg d).links = s.links := rfl
@[simp] theorem State.setDir_loom : (s.setDir seg d).loom = s.loom := rfl
@[simp] theorem State.setDir_mx : (s.setDir seg d).mx = s.mx := rfl
@[simp] theorem State.setDir_dr : (s.setDir seg d).dr = s.dr := rfl
@[simp] theorem State.setDir_co : (s.setDir seg d).co = s.co := rfl
@[simp] theorem State.setDir_hif : (s.setDir seg d).hif = s.hif := rfl
@[simp] theorem State.setDir_pwr : (s.setDir seg d).pwr = s.pwr := rfl
@[simp] theorem State.setDir_fw : (s.setDir seg d).fw = s.fw := rfl
@[simp] theorem State.setDir_images : (s.setDir seg d).images = s.images := rfl
@[simp] theorem State.setDir_outbox : (s.setDir seg d).outbox = s.outbox := rfl
end

section
variable (s : State) (n : Nat) (f : MemOp → MemOp)
@[simp] theorem State.onOp_clock : (s.onOp n f).clock = s.clock := rfl
@[simp] theorem State.onOp_agenda : (s.onOp n f).agenda = s.agenda := rfl
@[simp] theorem State.onOp_cur : (s.onOp n f).cur = s.cur := rfl
@[simp] theorem State.onOp_issues : (s.onOp n f).issues = s.issues := rfl
@[simp] theorem State.onOp_free : (s.onOp n f).free = s.free := rfl
@[simp] theorem State.onOp_nextOp : (s.onOp n f).nextOp = s.nextOp := rfl
@[simp] theorem State.onOp_streams : (s.onOp n f).streams = s.streams := rfl
@[simp] theorem State.onOp_teams : (s.onOp n f).teams = s.teams := rfl
@[simp] theorem State.onOp_gbars : (s.onOp n f).gbars = s.gbars := rfl
@[simp] theorem State.onOp_mem : (s.onOp n f).mem = s.mem := rfl
@[simp] theorem State.onOp_tr : (s.onOp n f).tr = s.tr := rfl
@[simp] theorem State.onOp_vt : (s.onOp n f).vt = s.vt := rfl
@[simp] theorem State.onOp_qu : (s.onOp n f).qu = s.qu := rfl
@[simp] theorem State.onOp_jobs : (s.onOp n f).jobs = s.jobs := rfl
@[simp] theorem State.onOp_tokens : (s.onOp n f).tokens = s.tokens := rfl
@[simp] theorem State.onOp_fns : (s.onOp n f).fns = s.fns := rfl
@[simp] theorem State.onOp_pm : (s.onOp n f).pm = s.pm := rfl
@[simp] theorem State.onOp_halted : (s.onOp n f).halted = s.halted := rfl
@[simp] theorem State.onOp_links : (s.onOp n f).links = s.links := rfl
@[simp] theorem State.onOp_loom : (s.onOp n f).loom = s.loom := rfl
@[simp] theorem State.onOp_mx : (s.onOp n f).mx = s.mx := rfl
@[simp] theorem State.onOp_dr : (s.onOp n f).dr = s.dr := rfl
@[simp] theorem State.onOp_co : (s.onOp n f).co = s.co := rfl
@[simp] theorem State.onOp_hif : (s.onOp n f).hif = s.hif := rfl
@[simp] theorem State.onOp_pwr : (s.onOp n f).pwr = s.pwr := rfl
@[simp] theorem State.onOp_fw : (s.onOp n f).fw = s.fw := rfl
@[simp] theorem State.onOp_images : (s.onOp n f).images = s.images := rfl
@[simp] theorem State.onOp_outbox : (s.onOp n f).outbox = s.outbox := rfl
end

section
variable (s : State) (n : Nat)
@[simp] theorem State.removeOp_clock : (s.removeOp n).clock = s.clock := rfl
@[simp] theorem State.removeOp_agenda : (s.removeOp n).agenda = s.agenda := rfl
@[simp] theorem State.removeOp_cur : (s.removeOp n).cur = s.cur := rfl
@[simp] theorem State.removeOp_issues : (s.removeOp n).issues = s.issues := rfl
@[simp] theorem State.removeOp_free : (s.removeOp n).free = s.free := rfl
@[simp] theorem State.removeOp_nextOp : (s.removeOp n).nextOp = s.nextOp := rfl
@[simp] theorem State.removeOp_streams : (s.removeOp n).streams = s.streams := rfl
@[simp] theorem State.removeOp_teams : (s.removeOp n).teams = s.teams := rfl
@[simp] theorem State.removeOp_gbars : (s.removeOp n).gbars = s.gbars := rfl
@[simp] theorem State.removeOp_mem : (s.removeOp n).mem = s.mem := rfl
@[simp] theorem State.removeOp_tr : (s.removeOp n).tr = s.tr := rfl
@[simp] theorem State.removeOp_vt : (s.removeOp n).vt = s.vt := rfl
@[simp] theorem State.removeOp_qu : (s.removeOp n).qu = s.qu := rfl
@[simp] theorem State.removeOp_jobs : (s.removeOp n).jobs = s.jobs := rfl
@[simp] theorem State.removeOp_tokens : (s.removeOp n).tokens = s.tokens := rfl
@[simp] theorem State.removeOp_fns : (s.removeOp n).fns = s.fns := rfl
@[simp] theorem State.removeOp_pm : (s.removeOp n).pm = s.pm := rfl
@[simp] theorem State.removeOp_halted : (s.removeOp n).halted = s.halted := rfl
@[simp] theorem State.removeOp_links : (s.removeOp n).links = s.links := rfl
@[simp] theorem State.removeOp_loom : (s.removeOp n).loom = s.loom := rfl
@[simp] theorem State.removeOp_mx : (s.removeOp n).mx = s.mx := rfl
@[simp] theorem State.removeOp_dr : (s.removeOp n).dr = s.dr := rfl
@[simp] theorem State.removeOp_co : (s.removeOp n).co = s.co := rfl
@[simp] theorem State.removeOp_hif : (s.removeOp n).hif = s.hif := rfl
@[simp] theorem State.removeOp_pwr : (s.removeOp n).pwr = s.pwr := rfl
@[simp] theorem State.removeOp_fw : (s.removeOp n).fw = s.fw := rfl
@[simp] theorem State.removeOp_images : (s.removeOp n).images = s.images := rfl
@[simp] theorem State.removeOp_outbox : (s.removeOp n).outbox = s.outbox := rfl
end

section
variable (s : State) (n : Nat) (f : JobSlot → JobSlot)
@[simp] theorem State.onJob_clock : (s.onJob n f).clock = s.clock := rfl
@[simp] theorem State.onJob_agenda : (s.onJob n f).agenda = s.agenda := rfl
@[simp] theorem State.onJob_cur : (s.onJob n f).cur = s.cur := rfl
@[simp] theorem State.onJob_issues : (s.onJob n f).issues = s.issues := rfl
@[simp] theorem State.onJob_free : (s.onJob n f).free = s.free := rfl
@[simp] theorem State.onJob_nextOp : (s.onJob n f).nextOp = s.nextOp := rfl
@[simp] theorem State.onJob_streams : (s.onJob n f).streams = s.streams := rfl
@[simp] theorem State.onJob_teams : (s.onJob n f).teams = s.teams := rfl
@[simp] theorem State.onJob_gbars : (s.onJob n f).gbars = s.gbars := rfl
@[simp] theorem State.onJob_ops : (s.onJob n f).ops = s.ops := rfl
@[simp] theorem State.onJob_mem : (s.onJob n f).mem = s.mem := rfl
@[simp] theorem State.onJob_tr : (s.onJob n f).tr = s.tr := rfl
@[simp] theorem State.onJob_vt : (s.onJob n f).vt = s.vt := rfl
@[simp] theorem State.onJob_qu : (s.onJob n f).qu = s.qu := rfl
@[simp] theorem State.onJob_tokens : (s.onJob n f).tokens = s.tokens := rfl
@[simp] theorem State.onJob_fns : (s.onJob n f).fns = s.fns := rfl
@[simp] theorem State.onJob_pm : (s.onJob n f).pm = s.pm := rfl
@[simp] theorem State.onJob_halted : (s.onJob n f).halted = s.halted := rfl
@[simp] theorem State.onJob_links : (s.onJob n f).links = s.links := rfl
@[simp] theorem State.onJob_loom : (s.onJob n f).loom = s.loom := rfl
@[simp] theorem State.onJob_mx : (s.onJob n f).mx = s.mx := rfl
@[simp] theorem State.onJob_dr : (s.onJob n f).dr = s.dr := rfl
@[simp] theorem State.onJob_co : (s.onJob n f).co = s.co := rfl
@[simp] theorem State.onJob_hif : (s.onJob n f).hif = s.hif := rfl
@[simp] theorem State.onJob_pwr : (s.onJob n f).pwr = s.pwr := rfl
@[simp] theorem State.onJob_fw : (s.onJob n f).fw = s.fw := rfl
@[simp] theorem State.onJob_images : (s.onJob n f).images = s.images := rfl
@[simp] theorem State.onJob_outbox : (s.onJob n f).outbox = s.outbox := rfl
end

section
variable (s : State) (fn n : Nat) (f : Port → Port)
@[simp] theorem State.onPort_clock : (s.onPort fn n f).clock = s.clock := rfl
@[simp] theorem State.onPort_agenda : (s.onPort fn n f).agenda = s.agenda := rfl
@[simp] theorem State.onPort_cur : (s.onPort fn n f).cur = s.cur := rfl
@[simp] theorem State.onPort_issues : (s.onPort fn n f).issues = s.issues := rfl
@[simp] theorem State.onPort_free : (s.onPort fn n f).free = s.free := rfl
@[simp] theorem State.onPort_nextOp : (s.onPort fn n f).nextOp = s.nextOp := rfl
@[simp] theorem State.onPort_streams : (s.onPort fn n f).streams = s.streams := rfl
@[simp] theorem State.onPort_teams : (s.onPort fn n f).teams = s.teams := rfl
@[simp] theorem State.onPort_gbars : (s.onPort fn n f).gbars = s.gbars := rfl
@[simp] theorem State.onPort_ops : (s.onPort fn n f).ops = s.ops := rfl
@[simp] theorem State.onPort_mem : (s.onPort fn n f).mem = s.mem := rfl
@[simp] theorem State.onPort_tr : (s.onPort fn n f).tr = s.tr := rfl
@[simp] theorem State.onPort_vt : (s.onPort fn n f).vt = s.vt := rfl
@[simp] theorem State.onPort_qu : (s.onPort fn n f).qu = s.qu := rfl
@[simp] theorem State.onPort_jobs : (s.onPort fn n f).jobs = s.jobs := rfl
@[simp] theorem State.onPort_tokens : (s.onPort fn n f).tokens = s.tokens := rfl
@[simp] theorem State.onPort_fns : (s.onPort fn n f).fns = s.fns := rfl
@[simp] theorem State.onPort_pm : (s.onPort fn n f).pm = s.pm := rfl
@[simp] theorem State.onPort_halted : (s.onPort fn n f).halted = s.halted := rfl
@[simp] theorem State.onPort_links : (s.onPort fn n f).links = s.links := rfl
@[simp] theorem State.onPort_mx : (s.onPort fn n f).mx = s.mx := rfl
@[simp] theorem State.onPort_dr : (s.onPort fn n f).dr = s.dr := rfl
@[simp] theorem State.onPort_co : (s.onPort fn n f).co = s.co := rfl
@[simp] theorem State.onPort_hif : (s.onPort fn n f).hif = s.hif := rfl
@[simp] theorem State.onPort_pwr : (s.onPort fn n f).pwr = s.pwr := rfl
@[simp] theorem State.onPort_fw : (s.onPort fn n f).fw = s.fw := rfl
@[simp] theorem State.onPort_images : (s.onPort fn n f).images = s.images := rfl
@[simp] theorem State.onPort_outbox : (s.onPort fn n f).outbox = s.outbox := rfl
end

section
variable (s : State) (c : CopyId) (f : Copy → Copy)
@[simp] theorem State.onCopy_clock : (s.onCopy c f).clock = s.clock := rfl
@[simp] theorem State.onCopy_agenda : (s.onCopy c f).agenda = s.agenda := rfl
@[simp] theorem State.onCopy_cur : (s.onCopy c f).cur = s.cur := rfl
@[simp] theorem State.onCopy_issues : (s.onCopy c f).issues = s.issues := rfl
@[simp] theorem State.onCopy_free : (s.onCopy c f).free = s.free := rfl
@[simp] theorem State.onCopy_nextOp : (s.onCopy c f).nextOp = s.nextOp := rfl
@[simp] theorem State.onCopy_streams : (s.onCopy c f).streams = s.streams := rfl
@[simp] theorem State.onCopy_teams : (s.onCopy c f).teams = s.teams := rfl
@[simp] theorem State.onCopy_gbars : (s.onCopy c f).gbars = s.gbars := rfl
@[simp] theorem State.onCopy_ops : (s.onCopy c f).ops = s.ops := rfl
@[simp] theorem State.onCopy_mem : (s.onCopy c f).mem = s.mem := rfl
@[simp] theorem State.onCopy_tr : (s.onCopy c f).tr = s.tr := rfl
@[simp] theorem State.onCopy_vt : (s.onCopy c f).vt = s.vt := rfl
@[simp] theorem State.onCopy_qu : (s.onCopy c f).qu = s.qu := rfl
@[simp] theorem State.onCopy_jobs : (s.onCopy c f).jobs = s.jobs := rfl
@[simp] theorem State.onCopy_tokens : (s.onCopy c f).tokens = s.tokens := rfl
@[simp] theorem State.onCopy_fns : (s.onCopy c f).fns = s.fns := rfl
@[simp] theorem State.onCopy_pm : (s.onCopy c f).pm = s.pm := rfl
@[simp] theorem State.onCopy_halted : (s.onCopy c f).halted = s.halted := rfl
@[simp] theorem State.onCopy_links : (s.onCopy c f).links = s.links := rfl
@[simp] theorem State.onCopy_loom : (s.onCopy c f).loom = s.loom := rfl
@[simp] theorem State.onCopy_mx : (s.onCopy c f).mx = s.mx := rfl
@[simp] theorem State.onCopy_co : (s.onCopy c f).co = s.co := rfl
@[simp] theorem State.onCopy_hif : (s.onCopy c f).hif = s.hif := rfl
@[simp] theorem State.onCopy_pwr : (s.onCopy c f).pwr = s.pwr := rfl
@[simp] theorem State.onCopy_fw : (s.onCopy c f).fw = s.fw := rfl
@[simp] theorem State.onCopy_images : (s.onCopy c f).images = s.images := rfl
@[simp] theorem State.onCopy_outbox : (s.onCopy c f).outbox = s.outbox := rfl
end

section
variable (s : State) (n : Nat) (f : Inst → Inst)
@[simp] theorem State.onInst_clock : (s.onInst n f).clock = s.clock := rfl
@[simp] theorem State.onInst_agenda : (s.onInst n f).agenda = s.agenda := rfl
@[simp] theorem State.onInst_cur : (s.onInst n f).cur = s.cur := rfl
@[simp] theorem State.onInst_issues : (s.onInst n f).issues = s.issues := rfl
@[simp] theorem State.onInst_free : (s.onInst n f).free = s.free := rfl
@[simp] theorem State.onInst_nextOp : (s.onInst n f).nextOp = s.nextOp := rfl
@[simp] theorem State.onInst_streams : (s.onInst n f).streams = s.streams := rfl
@[simp] theorem State.onInst_teams : (s.onInst n f).teams = s.teams := rfl
@[simp] theorem State.onInst_gbars : (s.onInst n f).gbars = s.gbars := rfl
@[simp] theorem State.onInst_ops : (s.onInst n f).ops = s.ops := rfl
@[simp] theorem State.onInst_mem : (s.onInst n f).mem = s.mem := rfl
@[simp] theorem State.onInst_tr : (s.onInst n f).tr = s.tr := rfl
@[simp] theorem State.onInst_vt : (s.onInst n f).vt = s.vt := rfl
@[simp] theorem State.onInst_qu : (s.onInst n f).qu = s.qu := rfl
@[simp] theorem State.onInst_jobs : (s.onInst n f).jobs = s.jobs := rfl
@[simp] theorem State.onInst_tokens : (s.onInst n f).tokens = s.tokens := rfl
@[simp] theorem State.onInst_fns : (s.onInst n f).fns = s.fns := rfl
@[simp] theorem State.onInst_pm : (s.onInst n f).pm = s.pm := rfl
@[simp] theorem State.onInst_halted : (s.onInst n f).halted = s.halted := rfl
@[simp] theorem State.onInst_links : (s.onInst n f).links = s.links := rfl
@[simp] theorem State.onInst_loom : (s.onInst n f).loom = s.loom := rfl
@[simp] theorem State.onInst_mx : (s.onInst n f).mx = s.mx := rfl
@[simp] theorem State.onInst_dr : (s.onInst n f).dr = s.dr := rfl
@[simp] theorem State.onInst_hif : (s.onInst n f).hif = s.hif := rfl
@[simp] theorem State.onInst_pwr : (s.onInst n f).pwr = s.pwr := rfl
@[simp] theorem State.onInst_fw : (s.onInst n f).fw = s.fw := rfl
@[simp] theorem State.onInst_images : (s.onInst n f).images = s.images := rfl
@[simp] theorem State.onInst_outbox : (s.onInst n f).outbox = s.outbox := rfl
end

section
variable (s : State) (n : Nat) (q : WorkQ)
@[simp] theorem State.setWq_clock : (s.setWq n q).clock = s.clock := rfl
@[simp] theorem State.setWq_agenda : (s.setWq n q).agenda = s.agenda := rfl
@[simp] theorem State.setWq_cur : (s.setWq n q).cur = s.cur := rfl
@[simp] theorem State.setWq_issues : (s.setWq n q).issues = s.issues := rfl
@[simp] theorem State.setWq_free : (s.setWq n q).free = s.free := rfl
@[simp] theorem State.setWq_nextOp : (s.setWq n q).nextOp = s.nextOp := rfl
@[simp] theorem State.setWq_streams : (s.setWq n q).streams = s.streams := rfl
@[simp] theorem State.setWq_teams : (s.setWq n q).teams = s.teams := rfl
@[simp] theorem State.setWq_gbars : (s.setWq n q).gbars = s.gbars := rfl
@[simp] theorem State.setWq_ops : (s.setWq n q).ops = s.ops := rfl
@[simp] theorem State.setWq_mem : (s.setWq n q).mem = s.mem := rfl
@[simp] theorem State.setWq_tr : (s.setWq n q).tr = s.tr := rfl
@[simp] theorem State.setWq_vt : (s.setWq n q).vt = s.vt := rfl
@[simp] theorem State.setWq_qu : (s.setWq n q).qu = s.qu := rfl
@[simp] theorem State.setWq_jobs : (s.setWq n q).jobs = s.jobs := rfl
@[simp] theorem State.setWq_tokens : (s.setWq n q).tokens = s.tokens := rfl
@[simp] theorem State.setWq_fns : (s.setWq n q).fns = s.fns := rfl
@[simp] theorem State.setWq_pm : (s.setWq n q).pm = s.pm := rfl
@[simp] theorem State.setWq_halted : (s.setWq n q).halted = s.halted := rfl
@[simp] theorem State.setWq_links : (s.setWq n q).links = s.links := rfl
@[simp] theorem State.setWq_loom : (s.setWq n q).loom = s.loom := rfl
@[simp] theorem State.setWq_mx : (s.setWq n q).mx = s.mx := rfl
@[simp] theorem State.setWq_dr : (s.setWq n q).dr = s.dr := rfl
@[simp] theorem State.setWq_hif : (s.setWq n q).hif = s.hif := rfl
@[simp] theorem State.setWq_pwr : (s.setWq n q).pwr = s.pwr := rfl
@[simp] theorem State.setWq_fw : (s.setWq n q).fw = s.fw := rfl
@[simp] theorem State.setWq_images : (s.setWq n q).images = s.images := rfl
@[simp] theorem State.setWq_outbox : (s.setWq n q).outbox = s.outbox := rfl
end

section
variable (s : State) (m : Msg)
@[simp] theorem State.send_clock : (s.send m).clock = s.clock := rfl
@[simp] theorem State.send_agenda : (s.send m).agenda = s.agenda := rfl
@[simp] theorem State.send_cur : (s.send m).cur = s.cur := rfl
@[simp] theorem State.send_issues : (s.send m).issues = s.issues := rfl
@[simp] theorem State.send_free : (s.send m).free = s.free := rfl
@[simp] theorem State.send_nextOp : (s.send m).nextOp = s.nextOp := rfl
@[simp] theorem State.send_streams : (s.send m).streams = s.streams := rfl
@[simp] theorem State.send_teams : (s.send m).teams = s.teams := rfl
@[simp] theorem State.send_gbars : (s.send m).gbars = s.gbars := rfl
@[simp] theorem State.send_ops : (s.send m).ops = s.ops := rfl
@[simp] theorem State.send_mem : (s.send m).mem = s.mem := rfl
@[simp] theorem State.send_tr : (s.send m).tr = s.tr := rfl
@[simp] theorem State.send_vt : (s.send m).vt = s.vt := rfl
@[simp] theorem State.send_qu : (s.send m).qu = s.qu := rfl
@[simp] theorem State.send_jobs : (s.send m).jobs = s.jobs := rfl
@[simp] theorem State.send_tokens : (s.send m).tokens = s.tokens := rfl
@[simp] theorem State.send_fns : (s.send m).fns = s.fns := rfl
@[simp] theorem State.send_pm : (s.send m).pm = s.pm := rfl
@[simp] theorem State.send_halted : (s.send m).halted = s.halted := rfl
@[simp] theorem State.send_links : (s.send m).links = s.links := rfl
@[simp] theorem State.send_loom : (s.send m).loom = s.loom := rfl
@[simp] theorem State.send_mx : (s.send m).mx = s.mx := rfl
@[simp] theorem State.send_dr : (s.send m).dr = s.dr := rfl
@[simp] theorem State.send_co : (s.send m).co = s.co := rfl
@[simp] theorem State.send_hif : (s.send m).hif = s.hif := rfl
@[simp] theorem State.send_pwr : (s.send m).pwr = s.pwr := rfl
@[simp] theorem State.send_fw : (s.send m).fw = s.fw := rfl
@[simp] theorem State.send_images : (s.send m).images = s.images := rfl
@[simp] theorem State.send_outbox : (s.send m).outbox = s.outbox ++ [m] := rfl
end

end Sys2Proof.Machine
end

