-- ==== Sys2Proof/Laws/Streams.lean ====
section
/-! SUPPORT. Sys2Proof/Laws/Streams.lean: looking a stream up after its lanes have changed. -/
namespace Sys2Proof.Machine

/-- A change of streams that keeps their identities changes the stream found. -/
theorem State.stream?_map (s : State) (f : Stream → Stream) (hf : ∀ st, (f st).id = st.id) (id : SId) :
    State.stream? { s with streams := s.streams.map f } id = (s.stream? id).map f := by
  simp only [State.stream?, List.find?_map]
  congr 2
  funext st
  simp [hf]

/-- The stream of an identity bears it. -/
theorem State.stream_id (s : State) (id : SId) : (s.stream id).id = id := by
  unfold State.stream State.stream?
  cases h : s.streams.find? fun st => st.id = id with
  | none => rfl
  | some st => simpa using List.find?_some h

theorem State.onLanes_stream? (s : State) (ids : List SId) (f : Stream → Stream) (hf : ∀ st, (f st).id = st.id) (id : SId) :
    (s.onLanes ids f).stream? id = (s.stream? id).map fun st => if st.id ∈ ids then f st else st :=
  s.stream?_map _ (fun st => by split <;> simp [hf]) id

/-- The stream of a listed identity that exists. -/
theorem State.onLanes_stream (s : State) {ids : List SId} (f : Stream → Stream) (hf : ∀ st, (f st).id = st.id) {id : SId}
    (h : (s.stream? id).isSome = true) : (s.onLanes ids f).stream id = if id ∈ ids then f (s.stream id) else s.stream id := by
  have hid := s.stream_id id
  obtain ⟨st, hst⟩ := Option.isSome_iff_exists.mp h
  simp only [State.stream, s.onLanes_stream? ids f hf id, hst, Option.map_some, Option.getD_some] at hid ⊢
  simp [hid]

/-- A stream that is not listed stays as it was. -/
theorem State.onLanes_other (s : State) {ids : List SId} (f : Stream → Stream) (hf : ∀ st, (f st).id = st.id) {id : SId}
    (h : id ∉ ids) : (s.onLanes ids f).stream? id = s.stream? id := by
  rw [s.onLanes_stream? ids f hf id]
  cases hs : s.stream? id with
  | none => rfl
  | some st =>
    have hi : st.id = id := by simpa using List.find?_some hs
    simp [hi, h]

@[simp] theorem Stream.goto_id (st : Stream) (pc : DWord) : (st.goto pc).id = st.id := rfl
@[simp] theorem Stream.wr_id (st : Stream) (r : Reg) (v : Word) : (st.wr r v).id = st.id := by unfold Stream.wr; split <;> rfl
@[simp] theorem Stream.kill_id (st : Stream) (r : Reg) (k : Bool) : (st.kill r k).id = st.id := by unfold Stream.kill; split <;> simp
@[simp] theorem Stream.wr64_id (st : Stream) (r : Reg) (v : DWord) : (st.wr64 r v).id = st.id := by
  unfold Stream.wr64; split <;> simp
@[simp] theorem Stream.kill64_id (st : Stream) (r : Reg) (k : Bool) : (st.kill64 r k).id = st.id := by
  simp [Stream.kill64]
@[simp] theorem Stream.enterTrap_id (st : Stream) (c : Cause) (pc npc a : DWord) (i : Word) :
    (st.enterTrap c pc npc a i).id = st.id := rfl
@[simp] theorem Stream.leaveTrap_id (st : Stream) (t : DWord) : (st.leaveTrap t).id = st.id := rfl

end Sys2Proof.Machine
end

