-- ==== Sys2Proof/Tests/Slice0.lean ====
section
/-! SUPPORT. Sys2Proof/Tests/Slice0.lean: the model's own tests: words written out from the manual, ill-formed terms that the checks
refuse, worked examples of the manual, and for each statement concrete states and operands that meet its hypotheses. -/
set_option Elab.async false
namespace Sys2Proof.Tests
open Sys2Proof.Machine

def always : Guard := ⟨false, 0, false⟩
def lane (n : Nat) : SId := ⟨0, .lane, n⟩
/-- A lane thread with some registers. -/
def thread (n : Nat) (regs : List (Nat × Word)) : Stream := { newStream (lane n) 0x1000 0x4000 0 with regs := regs }
/-- A state in which the instruction at 0x1000 executes in some lane threads of one team. -/
def among (ts : List Stream) : State :=
  { State.reset with streams := ts, teams := [placedTeam], cur := ⟨ts.map (·.id), 0x1000, 0x1008⟩ }
/-- One lane thread. -/
def one (regs : List (Nat × Word)) : State := among [thread 0 regs]
/-- The state after an instruction. -/
def after (i : Instr) (s : State) : State :=
  match exec i s with
  | .next t => t
  | _ => s
/-- A register of lane 0 after an instruction. -/
def reads (i : Instr) (s : State) (r : Reg) : Word := ((after i s).stream (lane 0)).rd r

/-- The translation of the first GiB to itself under ASID 1, cached by core 0, die 0 and the first Dray. -/
def pages : Trans :=
  { (State.reset.withFetchWord 64 0).tr with
    tlb := [TlbAt.core 0, .die 0, .dray 0].map fun h => ⟨h, 1, 0, ⟨0, 0, 0, 30, true, true, true, true, true⟩⟩ }
/-- Vault bytes 0 to 65535 belong to ASID 1. -/
def vaults : Vaults := { State.reset.vt with shares := [(0, some ⟨.vault, 1, 0, 0⟩)] }
/-- Lane 0 with memory: pages, a vault share and one outstanding operation, if any. -/
def mem (regs : List (Nat × Word)) (ops : List MemOp := []) : State :=
  { one regs with tr := pages, vt := vaults, ops := ops, nextOp := 1 }
def dev (a : Nat) : Loc := ⟨.dev, a, 0, false⟩
def bank (a : Nat) : Loc := ⟨.vault, vaultKey + a, 0, false⟩
def checked (l : Loc) (va : Nat) : Checked := ⟨l, va, none⟩
/-- The outstanding operation 0 of lane 0. -/
def pending (k : OpKind) (l : Loc) (b : DWord) (ctr : Nat) : MemOp :=
  ⟨0, k, [⟨lane 0, b, 0⟩], 3, none, 0, l, 4, .rlx, false, .thr, 0, .none, 0, 0, ctr, .issued, 0, none⟩
def blankAcc : Acc := ⟨always, 3, 4, false, 0, 2, false, .rlx, false, .thr, 0, .none⟩
def blankAtom : Atom := ⟨always, 3, 4, false, 6, false, .rlx, .thr, 0⟩

/-! ### Words of the manual -/

theorem test_decode_yield : decodeTableWord 64 0x4280000000000000 = some (.yield always) := by decide
theorem test_decode_exit : decode 0x4200000000000000 [] = .ok (.exit always) := by decide
theorem test_decode_bra : decode 0x3C00007F83D3FFFD [] = .ok (.bra ⟨true, 7, false⟩ 0x3FFFFFD) := by decide
theorem test_decode_jdrop : decode 0x4100000000000003 [] = .ok (.jdrop always 3) := by decide
theorem test_decode_store : decode 0x4687060000020000 [] = .ok (.st ⟨always, 14, 12, false, 0, 2, false, .rlx, false, .thr, 0, .none⟩) := by
  decide
theorem test_decode_aadd2h : decode 0x5180020300000400 [] = .ok (.aadd2h ⟨always, 0, 4, false, 6, false, .rlx, .dev, 0⟩) := by decide
theorem test_decode_acas : decode 0x5604020500003600 [] = .ok (.acas ⟨always, 8, 4, false, 10, false, .ar, .sys, 0⟩) := by decide
theorem test_decode_trap : decode 0x7780000000000007 [] = .ok (.trap always 7) := by decide
theorem test_decode_brk : decode 0x7800000000000000 [] = .ok (.brk always 0) := by decide
theorem test_decode_eret : decode 0x7880000000000001 [] = .ok (.eretNx always) := by decide
theorem test_decode_crd : decode 0x7902800000000007 [] = .ok (.crd always 5 7) := by decide
theorem test_decode_pmrd : decode 0x7F04000000000003 [] = .ok (.pmrd always 8 3) := by decide
theorem test_decode_tlbsync : decode 0x7A81800000000000 [] = .ok (.tlbsync always 3) := by decide
theorem test_decode_mfence : decode 0x6C80000000000000 [] = .ok (.mfence always) := by decide
theorem test_decode_dstat : decode 0x6201810000000000 [] = .ok (.dstat ⟨always, 3, 2, false⟩) := by decide
theorem test_decode_wqpop : decode 0x6583038000000000 [] = .ok (.wqpop ⟨always, 6, 7, false⟩) := by decide
theorem test_decode_vcdef : decode 0x7B02840000000007 [] = .ok (.vcdef always 5 8 7) := by decide
theorem test_decode_fresume : decode 0x7E81820380000000 [] = .ok (.fresume ⟨always, 3, 4, false, 7, false⟩ 0) := by decide
theorem test_decode_mcfg : decode 0x6D00050000000000 [] = .ok (.mcfg always 10 false .astride) := by decide
theorem test_decode_unassigned : decode 0x1A00000000000000 [] = .ok (.unassignedOpcode 0x34) := by decide

/-! ### Ill-formed terms -/

theorem test_wf_guard : (Instr.nop ⟨false, 3, false⟩).wf = false ∧ (Instr.nop ⟨true, 240, false⟩).wf = false := by decide
theorem test_wf_kill_of_port : (Instr.not ⟨always, 3, 0xF1, true⟩).wf = false := by decide
theorem test_wf_immediate_modifier : (Instr.irem ⟨always, 3, 4, false, .imm 5⟩ true).wf = false := by decide
theorem test_wf_odd_pair : (Instr.add64 ⟨always, 3, 4, false, .reg 6 false⟩).wf = false := by decide
theorem test_wf_shift_count : (Instr.shl ⟨always, 3, 4, false, .imm 32⟩).wf = false := by decide
theorem test_wf_same_bank_pair : (Instr.pairWord ⟨1, 4, 8, 0, false, false⟩ ⟨2, 6, 11, 0, false, false⟩).wf = false := by decide
theorem test_wf_ineligible_half : (Instr.pairWord ⟨0, 4, 9, 0, false, false⟩ ⟨0x36, 6, 11, 5, false, false⟩).wf = false := by decide
theorem test_refuses_reserved_bit : decode 0x4280000000000001 [] = .error .operand := by decide
theorem test_refuses_bad_pair : decode 0x8004090000000001 [] = .error .pair := by decide

/-! ### Integer instructions: the manual's worked examples and edge values (R142 to R153) -/

theorem test_iadd_guarded : reads (.iadd ⟨⟨true, 7, true⟩, 3, 4, false, .imm 0x3FFFFFB⟩) (one [(4, 2)]) 3 = 0xFFFFFFFD := by decide
theorem test_idivs_overflow : reads (.idivs ⟨always, 3, 1, false, .reg 2 false⟩) (one [(1, 0x80000000), (2, 0xFFFFFFFF)]) 3 = 0x80000000 := by
  decide
theorem test_irem_zero : reads (.irem ⟨always, 3, 1, false, .reg 2 false⟩ false) (one [(1, 0x80000000)]) 3 = 0x80000000 := by decide
theorem test_iabs : reads (.iabs ⟨always, 3, 1, false⟩ false) (one [(1, 0x80000000)]) 3 = 0x80000000 ∧
    reads (.iabs ⟨always, 3, 1, false⟩ true) (one [(1, 0x80000000)]) 3 = 0x7FFFFFFF := by decide
theorem test_lop3 : reads (.lop3 ⟨always, 5, 6, false, 7, false, 8⟩ 0xE8) (one [(6, 0x0000FFFF), (7, 0x00FF00FF), (8, 0x0F0F0F0F)]) 5 =
    0x000F0FFF := by decide
theorem test_sar_beyond : reads (.sar ⟨always, 3, 1, false, .reg 2 false⟩) (one [(1, 0x80000000), (2, 40)]) 3 = 0xFFFFFFFF := by decide
theorem test_bfe : reads (.bfe ⟨always, 3, 1, false, .imm 0x81C⟩ false) (one [(1, 0x80000000)]) 3 = 8 ∧
    reads (.bfe ⟨always, 3, 1, false, .reg 2 false⟩ true) (one [(1, 0x80000000), (2, 0x81C)]) 3 = 0xFFFFFFF8 := by decide
theorem test_prmt : reads (.prmt ⟨always, 3, 1, false, 2, false⟩ 0x053 0) (one [(1, 0x11223344)]) 3 = 0x44332211 ∧
    reads (.prmt ⟨always, 3, 1, false, 2, false⟩ 0x0D1 8) (one [(1, 0x11223344)]) 3 = 0x00112233 := by decide
theorem test_lih : reads (.lih always 3 0xABCD) (one [(3, 0x1234)]) 3 = 0xABCD1234 := by decide
theorem test_clz : reads (.clz ⟨always, 3, 1, false⟩) (one [(1, 0x80000000)]) 3 = 0 ∧ reads (.clz ⟨always, 3, 1, false⟩) (one []) 3 = 32 := by
  decide
theorem test_kill : reads (.not ⟨always, 3, 1, true⟩) (one [(1, 5)]) 1 = 0 ∧ reads (.not ⟨always, 1, 1, true⟩) (one [(1, 5)]) 1 = 0xFFFFFFFA := by
  decide
theorem test_movri : reads (.movri ⟨always, 3, 1, false⟩ 4) (one [(1, 2), (6, 9)]) 3 = 9 := by decide
theorem test_add64_carry : reads (.add64 ⟨always, 2, 4, false, .imm 1⟩) (one [(4, 0xFFFFFFFF)]) 3 = 1 := by decide
theorem test_fadd : reads (.fadd ⟨always, 3, 1, false, .reg 2 false⟩ ⟨.rn, false⟩) (one [(1, 0x3F800000), (2, 0x3F800000)]) 3 =
    0x40000000 := by decide
theorem test_f2i_saturates : reads (.f2i ⟨always, 3, 1, false⟩ .i32 .rz) (one [(1, 0x7F800000)]) 3 = 0x7FFFFFFF := by decide

/-! ### Witnesses: states and operands that meet the hypotheses of the statements -/

/-- DecodingInvertsEncoding. -/
theorem test_meets_encoding : (Instr.brm always true false [(4, true, 0xFFFFFFFF), (6, false, 2)]).wf = true ∧
    (encode (.brm always true false [(4, true, 0xFFFFFFFF), (6, false, 2)])).isSome = true ∧
    (encode (.wait always 255 0 255 255)).isSome = true := by decide
/-- EveryStepKeepsMemoryCanonical, TimeNeverStepsBack: a step with an agenda and one without. -/
theorem test_meets_step : (match step State.reset with | .next t => decide (t.clock.gtsQ = 1) && Memory.wf t.mem | _ => false) = true ∧
    (match step (State.reset.withFetchWord 64 0x4200000000000000) with | .next t => (t.stream (lane 0)).exited | _ => false) = true := by
  decide +kernel
/-- StepRunsTheDecodedInstruction: the hypotheses on the leading stream at a state. -/
def runs (s0 : State) (id : SId) : Bool :=
  let st := s0.stream id
  st.park != .stop && !s0.asleep ((s0.team id.tcx).coreOf id) && st.window.isNone &&
    (match s0.fetch st with
    | .error _ => false
    | .ok ws => match s0.examineFor st (ws.map (·.1)) with
      | .error _ => false
      | .ok i =>
        let all := s0.fellows st
        let go := s0.goers i all
        let goes := fun (x : SId) => go.any fun y => y.id = x
        let ready := all.filter fun x => goes x.id
        let held := (all.filter fun x => !(ready.any fun y => y.id = x.id)).map (·.id)
        let ids := (s0.packed st ready).filter goes
        let firm := fun (x : Stream) => (twoWay i).any fun b => (s0.forecast x).isNone && s0.unknown b x
        let s1 := (s0.fetched st (all.map (·.id)) ws).holdLanes held firm
        all.all (fun x => s0.guesses i (st.pc + BitVec.ofNat 64 (8 * ws.length)) x == none) && goes st.id &&
          !(slotUser i && s1.slotsLate ids) &&
          (match exec i (s1.atGroup ids st.pc ws.length) with
          | .next t => !((if slotUser i then t.noteSlots ids else t).noted s0 st ids ws.length).stuck
          | _ => false))
theorem test_meets_step_of_lane : runs { State.reset.withFetchWord 64 0x0081820380000000 with agenda := [] } (lane 0) = true ∧
    ((State.reset.withFetchWord 64 0x0081820380000000).leads 0 0).head? = some (lane 0) := by decide
theorem test_meets_step_of_control : runs { State.reset.withFetchWord 64 0x6C80000000000000 with agenda := [] } ⟨0, .control, 0⟩ = true ∧
    (State.reset.withFetchWord 64 0x6C80000000000000).canIssue
      ((State.reset.withFetchWord 64 0x6C80000000000000).stream ⟨0, .control, 0⟩) = true ∧
    (let s := { State.reset.withFetchWord 64 0x6C80000000000000 with agenda := [] }
     s.deferred (s.rivals (s.stream ⟨0, .control, 0⟩)) (s.stream ⟨0, .control, 0⟩)) = false := by decide
/-- NopHasNoEffect. -/
theorem test_meets_nop : (0x0000000000000001 : DWord).msb = false ∧ (fieldsOf 0x0000000000000001).opc = 0 ∧
    (halfOf ((0x8000090000000000 : DWord).extractLsb' 32 31)).pidx = 0 := by decide
/-- The moulds: operands that name no port; SelectionComparisonAndMoves, ConversionsAndFormats, GroupInstructions. -/
theorem test_meets_plain : plainRegs [3, 239] = true ∧ plainRegs (opndRegs (.imm 5)) = true ∧ Reg.isPort 239 = false := by decide
theorem test_meets_movri : ∀ id ∈ (one [(1, 1)]).active always,
    (((one [(1, 1)]).stream id).rd 1).toNat + 238 < (one [(1, 1)]).ownRegs id ∧
      BitVec.ofNat 8 ((((one [(1, 1)]).stream id).rd 1).toNat + 238) ∉ (one [(1, 1)]).awaited id := by decide
theorem test_meets_movri_trap : (one [(1, 2)]).active always = [lane 0] ∧
    (one [(1, 2)]).ownRegs (lane 0) ≤ (((one [(1, 2)]).stream (lane 0)).rd 1).toNat + 238 := by decide
theorem test_meets_format_slot : packBad 0 0 = true ∧ packBad 3 0 = false ∧ unpackBad 10 7 = true ∧ unpackBad 3 3 = false := by decide
/-- RegisterInstructionFrame, the format slots: slot 1 with BF16 for A and E4M3 for the drain. -/
def slotted : State := { one [] with teams := [{ placedTeam with recd := { placedTeam.recd with fmt := [0, 0x300011] } }] }
theorem test_meets_slot_forms : packBad (slotDrainFmt (slotted.slotWord 1)) 2 = false ∧ 3 ≤ slotDrainFmt (slotted.slotWord 1) ∧
    slotDrainFmt (slotted.slotWord 1) ≤ 7 ∧ unpackBad (sideFmt (slotted.slotWord 1) false) 1 = false ∧
    plainRegs [3, 4, 5, 6] = true := by decide +kernel
/-- RoundingAndNan. -/
theorem test_meets_nan : fF32.isNaN 0x7FC00000 = true ∧ fF32.isNaN 0 = false ∧ (0x7FC00000 : Nat) < 2 ^ fF32.width ∧
    fF32.isNaN (fF32.round .rn false (fF32.val 0x7F800001)) = true ∧ fF32.val 0x3F800000 = .fin false 0x800000 (-23) false := by decide
/-- RegisterInstructionFrame. -/
theorem test_meets_frame : (registerForm (.shl64 ⟨always, 2, 4, true, .reg 6 true⟩)).any (fun p => plainRegs p.2.2) = true ∧
    registerForm (.f2i ⟨always, 2, 5, true⟩ .i64 .rz) = some (always, [2, 3, 5], [2, 5]) ∧
    registerForm (.nop always) = some (always, [], []) := by decide
/-- RegistersPairsAndQueues. -/
theorem test_meets_pair_registers : (238 : Reg) ≠ 0 ∧ (238 : Reg).toNat % 2 = 0 ∧ Reg.isPort 238 = false ∧ Reg.isPort 240 = true := by decide
theorem test_meets_exchange : (match exec (.pairWord ⟨0x2D, 4, 9, 0, false, false⟩ ⟨0x2D, 9, 4, 0, false, false⟩) (one [(4, 1), (9, 2)]) with
    | .next t => decide ((t.stream (lane 0)).rd 4 = 2 ∧ (t.stream (lane 0)).rd 9 = 1) | _ => false) = true := by decide
/-- A team whose port q0 is bound to hardware queue 0, which holds some entries. -/
def queued (es : List QEntry) : State :=
  { one [(4, 7)] with
    teams := [{ placedTeam with queues := ([0], []), binds := ([(0, 0)], []) }], qu := ⟨[(0, ⟨es, 0⟩)], 1, []⟩ }
def full (es : List (Nat × Word)) : QEntry := ⟨0, es, 0xFFFF, .ready, 0⟩
theorem test_meets_queue_source : (queued []).active always = [lane 0] ∧ (queued []).portKey (lane 0) 0xF0 = some 0 ∧
    (queued []).portKey (lane 0) 0xF1 = none ∧ ((queued []).popGroups 0 ((queued []).groupsOf [lane 0])).isNone = true ∧
    ((queued [full []]).popGroups 0 ((queued [full []]).groupsOf [lane 0])).isSome = true := by decide +kernel
theorem test_meets_queue_destination :
    (queued (List.replicate 16 (full []))).freeOf 0 < ((queued []).groupsOf [lane 0]).length ∧
    ((queued []).groupsOf [lane 0]).length ≤ (queued (List.replicate 15 (full []))).freeOf 0 := by decide +kernel
theorem test_queue_pop : reads (.iadd ⟨always, 3, 0xF0, false, .imm 1⟩) (queued [full [(0, 41)]]) 3 = 42 := by decide +kernel

/-- TrapsEnterAndLeaveTheHandler: with a handler, without one, in the handler, and with a return target that R165 refuses. -/
def inHandler (pc : DWord) : State := among [{ thread 0 [] with trap := ⟨0x51, pc, 0x1008, 0, 0, true, 0x4000⟩ }]
def bare : State := among [{ thread 0 [] with trap := { blankTrap with vec := 0 } }]
theorem test_meets_traps : ((one []).active always = [lane 0] ∧ (one []).windowed = false ∧
    (∀ id ∈ (one []).cur.lanes, ((one []).stream? id).isSome = true) ∧ ((one []).stream (lane 0)).trap.hmode = false ∧
    ((one []).stream (lane 0)).trap.vec ≠ 0 ∧ targetTrap ((one []).stream (lane 0)).trap.vec = none) ∧
    (bare.stream (lane 0)).trap.vec = 0 ∧ (bare.team? 0).any (fun t => t.ended.isNone) = true ∧
    (bare.endTeam 0 1).team? 0 ≠ none ∧ ((bare.endTeam 0 1).team 0).ended ≠ none := by decide +kernel
theorem test_meets_eret : ((inHandler 0x1000).stream (lane 0)).trap.hmode = true ∧ targetTrap 0x1000 = none ∧
    targetTrap (((inHandler 4).stream (lane 0)).trap.pc) = some cAlignment ∧ ((one []).stream (lane 0)).trap.hmode = false := by decide +kernel
theorem test_trap_saves : let t := (after (.trap always 7) (one [])).stream (lane 0)
    t.pc = 0x4000 ∧ t.trap.cause = 0x51 ∧ t.trap.pc = 0x1000 ∧ t.trap.npc = 0x1008 ∧ t.trap.info = 7 ∧ t.trap.hmode = true := by
  decide +kernel
theorem test_eret_nx : ((after (.eretNx always) (inHandler 0x1000)).stream (lane 0)).pc = 0x1008 := by decide +kernel

/-- ChecksBeforeExecution: unassigned, wrong kind, no privilege, a physical control register, a refused and an accepted word. -/
theorem test_meets_checks : unassigned 0x34 = true ∧ unassigned 0xD0 = false ∧ kindLegal 0xD0 .lane = false ∧
    kindLegal 0xF4 .lane = true ∧ opcPriv 0xF4 = true ∧ kindLegal 0xF3 .lane = true ∧ crListed 0x30 = true ∧
    crNeed 0x30 = .physical ∧ privOk (fieldsOf 0x7980030000000010) true false = true ∧
    (match decode 0x7980030000000010 [] with | .ok i => i.streamOk .lane 240 | _ => false) = true ∧
    (match decode 0x4280000000000001 [] with | .ok _ => false | _ => true) = true := by decide +kernel
theorem test_meets_targets : targetTrap 0x0200000000000000 = some cAddressClass ∧ targetTrap 0x0180000000000000 = some cAddressClass ∧
    targetTrap 0x01800000FFFFFFFF = some cAddressClass ∧ targetTrap 0x0180000100000000 = none ∧ targetTrap 4 = some cAlignment := by
  decide +kernel
/-- ControlRegisters. -/
theorem test_meets_control : (one []).active always = [lane 0] ∧ (one []).tr.asidTbl < 2 ^ 40 ∧ (one []).tr.rings.length = 4 ∧
    (0x90 : Nat) % 256 / 48 = 3 ∧ (0x30 : Nat) % 256 / 48 ≠ 0 := by decide +kernel
theorem test_cwr_vector : ((after (.cwr always 6 false 0x10) (one [(6, 0x8000)])).stream (lane 0)).trap.vec = 0x8000 := by decide +kernel
theorem test_crd_pc : reads (.crd always 5 0x01) (inHandler 0x1000) 5 = 0x1000 := by decide +kernel
/-- BranchesAndLinks. -/
theorem test_meets_branches : targetTrap (0x1000 - 8) = none ∧ targetTrap (0x1000 - 0x1000000000000000) = some cAddressClass ∧
    (one []).active always = [lane 0] ∧ targetTrap (((one [(2, 0x2000)]).stream (lane 0)).rd64 2) = none ∧
    targetTrap (((one [(2, 0x2004)]).stream (lane 0)).rd64 2) = some cAlignment := by decide +kernel
theorem test_bra_back : ((after (.bra always 0x3FFFFFD) (one [])).stream (lane 0)).pc = 0xFE8 := by decide +kernel
theorem test_loop_ends : ((after (.loop always 4 0x3FFFFFD) (one [(4, 1)])).stream (lane 0)).pc = 0x1008 ∧
    ((after (.loop always 4 0x3FFFFFD) (one [(4, 2)])).stream (lane 0)).pc = 0xFE8 := by decide +kernel
theorem test_meets_jtab : (mem [(2, 4), (4, 0x2000)]).active always = [lane 0] ∧ (3 : Nat) < (((mem [(2, 4)]).stream (lane 0)).rd 2).toNat ∧
    (mem [(2, 0), (4, 0x2000)]).checkAt (lane 0) .load ⟨true, true, false⟩ 0x2000 4 4 = .ok (checked (dev 0x2000) 0x2000) ∧
    (mem []).mustWait (lane 0) (checked (dev 0x2000) 0x2000) = false ∧
    (match (mem []).tryLoad (lane 0) (checked (dev 0x2000) 0x2000) with | (.ok w, _) => decide (w = 0) | _ => false) = true := by
  decide +kernel
theorem test_meets_jtab_failure : (match ({ mem [] with vt := { vaults with poison := [0x2000] } } : State).tryLoad (lane 0) (checked (dev 0x2000) 0x2000) with
    | (.error _, _) => true | _ => false) = true ∧ (mem [(4, 1)]).active always = [lane 0] ∧
    (((mem [(4, 1)]).stream (lane 0)).rd 4).toNat ≤ 1 ∧ 1 < (((mem [(4, 2)]).stream (lane 0)).rd 4).toNat := by decide +kernel
theorem test_jtab_default : ((after (.jtab always 2 false 4 false 3 5) (mem [(2, 4)])).stream (lane 0)).pc = 0x1028 := by decide +kernel
/-- WaitHintYieldAndSleep: below the thresholds, above one, and with an error. -/
def counting (c : Counters) (e : Option Err) : State := among [{ thread 0 [] with cnt := c, slots := ⟨none, e, none, none⟩ }]
theorem test_meets_wait : (one []).cur.lanes.Nodup ∧ (∀ id ∈ (one []).cur.lanes, ((one []).stream? id).isSome = true) ∧
    ((counting ⟨0, 1, 0, 0⟩ none).stream (lane 0)).cnt.get 1 > 0 ∧
    ((counting ⟨0, 0, 0, 0⟩ (some ⟨cLinkLost, 0⟩)).stream (lane 0)).slots.get 1 = some ⟨cLinkLost, 0⟩ ∧
    ((counting ⟨0, 0, 0, 0⟩ (some ⟨cLinkLost, 0⟩)).stream (lane 0)).canTrap = true := by decide +kernel
theorem test_wait_parks : ((after (.wait always 255 0 255 255) (counting ⟨0, 1, 0, 0⟩ none)).stream (lane 0)).park = .counters 255 0 255 255 ∧
    ((after (.wait always 255 1 255 255) (counting ⟨0, 1, 0, 0⟩ none)).stream (lane 0)).pc = 0x1008 := by decide +kernel
theorem test_wait_delivers : let t := (after (.wait always 255 0 255 255) (counting ⟨0, 0, 0, 0⟩ (some ⟨cLinkLost, 0⟩))).stream (lane 0)
    t.trap.cause = cLinkLost ∧ t.trap.info = 0xA0000000 ∧ t.slots.st = none := by decide +kernel
def waiting (p : Park) (y : Option (Nat × Nat)) (cyc : Nat) : State :=
  { among [{ thread 0 [] with park := p, yield := y }] with clock := ⟨cyc, 4 * cyc⟩ }
theorem test_meets_wakes : ((waiting (.sleep 9) none 9).stream (lane 0)).park = .sleep 9 ∧ (waiting (.sleep 9) none 9).gts = 9 ∧
    ((waiting .none (some (512, 3)) 512).stream (lane 0)).yield = some (512, 3) ∧
    ((waiting .none none 2048).stream (lane 0)).since + 2048 ≤ (waiting .none none 2048).clock.cycles ∧
    ((waiting .none none 2048).stream (lane 0)).stall = none ∧ ((waiting .none none 2048).stream (lane 0)).exited = false ∧
    ((waiting .none none 0).stream? (lane 0)).isSome = true := by decide +kernel
theorem test_nsleep_clamps : ((after (.nsleep always (.imm 2000000)) (one [])).stream (lane 0)).park = .sleep 1000000 := by decide +kernel
/-- ExitAndJoinSlots. -/
theorem test_meets_exit : (one []).vt.migrateMode = false ∧ ((one []).stream (lane 0)).cnt = ⟨0, 0, 0, 0⟩ ∧
    ((one []).stream (lane 0)).slots = ⟨none, none, none, none⟩ ∧
    ((counting ⟨0, 1, 0, 0⟩ none).stream (lane 0)).cnt ≠ ⟨0, 0, 0, 0⟩ := by decide +kernel
/-- Two lanes of a group of 16, lane 1 outside the issue group. -/
def joined (m : DWord) : State :=
  { among [thread 0 [], thread 1 []] with
    teams := [{ placedTeam with recd := { placedTeam.recd with teamX := 16 }, joins := [(5, ⟨m, 0⟩)] }], cur := ⟨[lane 0], 0x1000, 0x1008⟩ }
theorem test_meets_join : (joined 3).active always = [lane 0] ∧ (joined 3).team? 0 ≠ none ∧ ((joined 3).team 0).group (lane 0) = 0 ∧
    (((joined 3).team 0).slot 0 5).mask &&& ((joined 3).team 0).bit (lane 0) ≠ 0 ∧
    (((joined 2).team 0).slot 0 5).mask &&& ((joined 2).team 0).bit (lane 0) = 0 := by decide +kernel
theorem test_join : ((after (.join always 5) (joined 3)).stream (lane 0)).park = .join 5 false ∧
    ((after (.join always 5) (joined 1)).stream (lane 0)).park = .join 5 true ∧
    ((after (.join always 5) (joined 2)).stream (lane 0)).pc = 0x1008 := by decide +kernel

/-- AccessChecksAndTranslation. -/
theorem test_meets_checks_of_access : (mem []).desc 1 = some ⟨0, 0x10000000, 12⟩ ∧ (windowBase + 4095 : Nat) < 2 ^ 57 ∧ 2 ^ 12 < 4095 + 4 ∧
    classOk allClasses 0x2001 = true ∧ (0x2001 : Nat) % 4 ≠ 0 ∧ classOk vaultOnly 0x4000000000000000 = true ∧
    (mem []).vaultBad 1 0xFFFE 4 = some 0x10000 ∧ (mem []).vaultBad 1 0xFFFC 4 = none ∧
    ((mem []).tlbLookup (.core 0) 0 1 0x2000).isSome = true ∧ (mem []).cache? 0 = none := by decide +kernel
theorem test_meets_last_byte : classOk allClasses 0x40000000FFFFFFFE = true ∧ classOk allClasses (0x40000000FFFFFFFE + BitVec.ofNat 64 3) = false ∧
    ((mem []).tlbLookup (.core 0) 0 1 0x2000).any (fun e => e.leaf.a && e.leaf.d && e.leaf.vcid == 0) = true := by decide +kernel
theorem test_vault_range : (mem []).check (thread 0 []) .load allClasses 0x4000000000010000 4 4 = .error (.trap cVaultRange 0x4000000000010000) ∧
    (mem []).check (thread 0 []) .load allClasses 0x400000000000FFFC 4 4 = .ok (checked (bank 0xFFFC) 0x400000000000FFFC) := by decide +kernel
theorem test_class_traps : (mem []).check (thread 0 []) .load allClasses 0xC000000000000000 4 4 = .error (.trap cAddressClass 0xC000000000000000) ∧
    (mem []).check (thread 0 []) .load allClasses 0x2002 4 4 = .error (.trap cAlignment 0x2002) := by decide +kernel
/-- A page that may not be written, or whose virtual cache is undefined. -/
def readOnly (vcid : Nat) : State := { mem [] with tr := { pages with tlb := [⟨.core 0, 1, 0, ⟨vcid, 0, 0, 30, true, true, false, true, true⟩⟩] } }
theorem test_meets_page : ((readOnly 0).tlbLookup (.core 0) 0 1 0x2000).any (fun e => !e.leaf.w) = true ∧
    (readOnly 2).cache? 2 = none ∧ (readOnly 2).checkPage ⟨.core 0, 0, 1, true⟩ .load 0x2000 = .error (.trap cVcUndefined 0x2000) := by
  decide +kernel
/-- AccessesIssueOrTrap. -/
theorem test_meets_access : (mem [(4, 0x2000)]).active always ≠ [] ∧ (mem []).windowed = false ∧
    ((mem []).stream (lane 0)).flush = none ∧ (mem []).farPending (lane 0) 0 = false ∧
    checkAll (fun id => (mem [(4, 0x2000)]).checkAt id .load allClasses (((mem [(4, 0x2000)]).stream id).rd64 4) 4 4) [lane 0] =
      .ok [(lane 0, checked (dev 0x2000) 0x2000)] ∧
    (dev 0x2000).space.local = true ∧ (dev 0x2000).cxl = false ∧ (dev 0x2000).key < 2 ^ 63 ∧
    (match (mem [(4, 0x2002)]).checkAt (lane 0) .load allClasses (((mem [(4, 0x2002)]).stream (lane 0)).rd64 4) 4 4 with
      | .error (.trap c a) => decide (c = cAlignment ∧ a = 0x2002) | _ => false) = true := by decide +kernel
theorem test_load_issues : let t := after (.ld blankAcc) (mem [(4, 0x2000)])
    t.ops.length = 1 ∧ (t.stream (lane 0)).cnt.ld = 1 ∧ (t.stream (lane 0)).pc = 0x1008 := by decide +kernel
/-- LoadsAndStoresPerform, AtomicInstructions: an operation that may be performed. -/
theorem test_meets_performs : let s := mem [] [pending (.load false) (dev 0x2000) 0 0]
    s.op? 0 = some (pending (.load false) (dev 0x2000) 0 0) ∧ s.mayPerform (pending (.load false) (dev 0x2000) 0 0) = true ∧
    (∀ a ∈ s.ops, a.phase ≠ .left) ∧ s.poisoned 0x2000 4 = false ∧ (s.stream (lane 0)).window = none ∧ s.vt.lines = [] ∧
    s.cache? 0 = none := by decide +kernel
theorem test_store_performs : let t := after (.storePerformed 0) (mem [] [pending .store (dev 0x2000) 0x11223344 1])
    memReadN t.mem 0x2000 4 = [0x44, 0x33, 0x22, 0x11] ∧ t.ops = [] := by decide +kernel
theorem test_load_performs : reads (.loadComplete 0)
    { mem [] [pending (.load false) (dev 0x2000) 0 0] with mem := [(0x2000, 0x44), (0x2003, 0x11)] } 3 = 0x11000044 := by decide +kernel
theorem test_atomic_performs : let t := after (.atomicPerform 0) { mem [] [pending (.rmw .add true) (dev 0x2000) 2 0] with mem := [(0x2000, 255)] }
    (t.stream (lane 0)).rd 3 = 255 ∧ memReadN t.mem 0x2000 4 = [1, 1, 0, 0] := by decide +kernel
theorem test_meets_atomic : checkAll (fun id => (mem [(4, 0x2000)]).atomCheck id .atomic (((mem [(4, 0x2000)]).stream id).rd64 4) 4) [lane 0] =
      .ok [(lane 0, checked (dev 0x2000) 0x2000)] ∧
    ([(lane 0, checked (dev 0x2000) 0x2000)].map fun c => c.2.loc.key).Nodup := by decide +kernel
/-- FullEmptyWords. -/
def fe (op : FeOp) (empty : List Nat) : State :=
  { among [{ thread 0 [] with park := .fe 0 }] with
    tr := pages, vt := { vaults with empty := empty }, ops := [pending (.fe op) (bank 8) 5 0], nextOp := 1 }
theorem test_meets_full_empty : (fe .ldvt []).mayPerform (pending (.fe .ldvt) (bank 8) 5 0) = true ∧ (fe .ldvt []).vt.waiters = [] ∧
    ((fe .ldvt []).stream (lane 0)).park = .fe 0 ∧ (8 : Nat) ∈ (fe .ldvw [8]).vt.empty ∧
    (mem [(4, 8), (5, 0x40000000)]).checkAt (lane 0) .load vaultOnly 0x4000000000000008 4 4 =
      .ok (checked (bank 8) 0x4000000000000008) ∧ (bank 8).space.local = true ∧ (bank 8).key < 2 ^ 63 := by decide +kernel
theorem test_take_empties : (after (.vaultBankOp 0) (fe .ldvt [])).vt.empty = [8] ∧ (after (.vaultBankOp 0) (fe .ldvt [8])).vt.waiters = [0] ∧
    (after (.vaultBankOp 0) (fe .stvf [8])).vt.empty = [] := by decide +kernel
def trapping : State :=
  { mem [(4, 8), (5, 0x40000000)] with
    vt := { vaults with empty := [8] }, teams := [{ placedTeam with recd := { placedTeam.recd with feTrap := true } }] }
theorem test_fe_trap : ((after (.ldvw blankAcc) trapping).stream (lane 0)).trap.cause = cFeTrap ∧
    ((after (.ldvw blankAcc) { trapping with teams := [placedTeam] }).stream (lane 0)).park = .fe 1 ∧
    ((after (.ldvw blankAcc) (mem [(4, 8), (5, 0x40000000)])).stream (lane 0)).pc = 0x1008 := by decide +kernel
/-- FullEmptyWords, an operation that is ordered before: `checkAt`, the operation's own state, and the four ways. -/
theorem test_meets_fe_issue : let s := mem [(4, 8), (5, 0x40000000)]
    let x : MemOp := { s.mkOp ⟨.fe .ldvw, 3, 4, .rlx, false, .thr, 0, .none, 0⟩ [⟨lane 0, 0, 0⟩] none (checked (bank 8) 0x4000000000000008) with
      num := s.nextOp }
    let y := { pending (.fe .stvf) (bank 8) 5 1 with num := 0 }
    s.op? s.nextOp = none ∧ s.vt.waiters = [] ∧ s.windowed = false ∧ (s.issueOp x).mayPerform x = true ∧ s.mayPerform x = true ∧
    (({ s with ops := [y] } : State).issueOp x).mayPerform x = false ∧ accAddr blankAcc (s.stream (lane 0)) = 0x4000000000000008 := by
  decide +kernel
/-- RangesAndQueries. -/
def blankRng : Rng := ⟨always, 4, false, 6, false⟩
theorem test_meets_ranges : ((mem [(4, 0x2000)]).stream (lane 0)).rd 6 = 0 ∧ ((mem [(4, 0x2000), (6, 64)]).stream (lane 0)).rd 6 ≠ 0 ∧
    (match (mem [(4, 0x2000), (6, 64)]).rangeCheck blankRng true (lane 0) with
      | .ok ps => ps.all fun p => decide (p.1.key < 2 ^ 63) && !p.1.cxl | _ => false) = true ∧
    (mem []).vaultBad ((mem []).team 0).recd.asid 0 65536 = none ∧
    (mem [(4, 0), (5, 0x40000000)]).checkAt (lane 0) .load vaultOnly 0x4000000000000000 128 4 =
      .ok (checked (bank 0) 0x4000000000000000) ∧
    (match (mem [(4, 0x2000)]).vcqCheck (lane 0) 0x2000 with | .ok c => c.loc.space.local | _ => false) = true ∧
    (mem []).redirect (thread 0 []) (BitVec.ofNat 64 (windowBase + 4095)) 1 = .ok (0x10000000 + 4095) ∧
    (match (mem []).checkAt (lane 0) .load class00 0x4000000000000000 1 1 with | .ok _ => false | _ => true) = true := by decide +kernel
theorem test_ptoa : reads (.ptoa ⟨always, 2, 4, false⟩) (mem [(4, 8), (5, 0x01800000)]) 2 = 0x10000008 := by decide +kernel
/-- FencesAndCounters. -/
theorem test_meets_fences : (one []).pendingIn [lane 0] farMask = false ∧
    (match (mem [(4, 0x2000)]).sgCheck true (lane 0) 0x2000 with | .ok none => true | _ => false) = true ∧
    (mem [(4, 0x2000)]).waitcCheck (lane 0) 0x2000 = .ok (checked (dev 0x2000) 0x2000) ∧
    ((mem []).fn 0).msix = 0 ∧ (mem []).mustWait (lane 0) (checked (dev 0x2000) 0x2000) = false := by decide +kernel
theorem test_meets_waitc : let s := mem [(4, 0x2000)]
    s.cur.lanes = [lane 0] ∧ guardHolds always (s.stream (lane 0)) = true ∧ (s.stream? (lane 0)).isSome = true ∧
    s.mustWaitAs (waitcForm blankAtom) (lane 0) (checked (dev 0x2000) 0x2000) = false ∧ s.poisoned 0x2000 4 = false ∧
    (s.stream (lane 0)).slots.cp = none ∧ (s.stream (lane 0)).canTrap = true ∧ s.vt.migrateMode = false ∧
    s.pendingIn [lane 0] 0b11111 = false ∧ s.carriedIn [lane 0] 0b11111 = false := by decide +kernel
theorem test_waitc : ((after (.waitc { blankAtom with ord := .acq }) (mem [(4, 0x2000), (6, 1)])).stream (lane 0)).park = .waitc (dev 0x2000) 1 ∧
    ((after (.waitc { blankAtom with ord := .acq }) (mem [(4, 0x2000)])).stream (lane 0)).pc = 0x1008 := by decide +kernel
theorem test_meets_signal : let s := { mem [] [pending (.hsig 0 0 false) ⟨.host, hostKey, 0, false⟩ 5 1] with links := { State.reset.links with hostUp := true } }
    s.mayPerform (pending (.hsig 0 0 false) ⟨.host, hostKey, 0, false⟩ 5 1) = true ∧ s.links.hostUp = true := by decide +kernel

/-- Barriers: an arrival, the last of a generation, and a release. -/
def barred (b : Barrier) : State :=
  { among [{ thread 0 [(4, 7)] with park := .none }] with teams := [{ placedTeam with bars := [(2, b)], recd := { placedTeam.recd with coteam := true } }] }
def blankBarOp : BarOp := ⟨always, 3, 4, 6, 2, false, 0⟩
theorem test_meets_barriers : let s := barred ⟨7, 0, none⟩
    (∀ id ∈ s.cur.lanes, (s.stream? id).isSome = true) ∧ s.team? s.curTeam.tcx = some s.curTeam ∧ s.active always ≠ [] ∧
    s.pendingIn (s.active always) 0 = false ∧ (∀ id ∈ s.active always, (s.stream id).flush = none) ∧
    s.carriedIn (s.active always) 0 = false ∧ s.vt.migrateMode = false ∧
    (s.curTeam.barrier 2).expected = none ∧ (s.curTeam.barrier 2).arrived + 1 ≤ (s.barCount blankBarOp).getD (s.liveLanes 0) ∧
    s.curTeam.recd.coteam = true ∧ (sget blankBar s.gbars s.curTeam.grid).expected = none := by decide +kernel
theorem test_barrier_ends : ((after (.bar blankBarOp) (barred ⟨7, 0, none⟩)).team 0).barrier 2 = ⟨8, 0, none⟩ ∧
    ((after (.bar blankBarOp) (barred ⟨7, 0, none⟩)).stream (lane 0)).park = .bar 2 7 false false := by decide +kernel
theorem test_meets_release : ((waiting (.bar 2 7 true false) none 0).stream (lane 0)).park = .bar 2 7 true false ∧
    ((after (.barrierRelease 0 (some 2)) (waiting (.bar 2 7 true true) none 0)).stream (lane 0)).pc = 0x1008 ∧
    ((after (.barrierRelease 0 none) (waiting (.gbar 7 false) none 0)).stream (lane 0)).pc = 0x1008 := by decide +kernel

/-- PortsAndSubmissions: a port of function 0 with submissions. -/
def ported (fifo : List DWord) : State :=
  { mem [] with loom := { State.resetLoom with ports := [(0, { blankPort with enable := true, fifo := fifo, asid := 1 })] } }
theorem test_meets_ports : ((ported []).fn 0).v = true ∧ (ported []).fw.recovery = false ∧ ((ported []).port 0 0).enable = true ∧
    ((ported (List.replicate 15 0x100)).port 0 0).fifo.length < 16 ∧ 16 ≤ ((ported (List.replicate 16 0x100)).port 0 0).fifo.length ∧
    ((ported []).port 0 0).irqEn = false ∧ (ported []).ownsAsid 0 0 = true ∧ (ported [0x100]).portReady 0 = true ∧
    (0 : Nat) ∉ (ported [0x100]).loom.served := by decide +kernel
theorem test_submit_overflows : ((after (.lpSubmit 0 0 8 0x200) (ported (List.replicate 16 0x100))).port 0 0).overflow = true ∧
    ((after (.lpSubmit 0 0 4 0x200) (ported [])).port 0 0).badWrite = true ∧
    ((after (.lpSubmit 0 0 8 0x200) (ported [])).port 0 0).fifo = [0x200] := by decide +kernel
/-- A record of zeros is rejected. -/
theorem test_meets_rejection : (match (checkLaunch 0 1 0x3000 true).run (ported []) with
      | (.error _, s1) => doneCtrOf (List.replicate 256 0) == none && !(s1.port 0 0).irqEn | _ => false) = true ∧
    (one []).nearPending [lane 0] 0b10011 = false := by decide +kernel
/-- A launch record of one thread. -/
def record : List (Nat × Byte) := [(0x3001, 0x10), (0x3008, 1), (0x300C, 1), (0x3010, 1), (0x3014, 16), (0x3016, 1), (0x3017, 1), (0x301C, 8), (0x30A8, 1)]
theorem test_meets_acceptance : (match (checkLaunch 0 1 0x3000 true).run { ported [] with mem := record } with
      | (.ok info, s1) => info.coll == none && !info.recd.coteam && s1.levelRoom info.recd.level | _ => false) = true := by decide +kernel

/-- ReadyPoolAndPlacement: a grid of one team of one thread. -/
def grid (level next : Nat) (head : Option Nat) : Grid :=
  ⟨0, .port 0 0, 0, { blankRec with asid := 1, kernelPc := 0x1000, teamX := 16, regs := 8 }, level, 0, 0, head, false, [], next, 0, 0, none, (0, 0), none, []⟩
def pool (gs hs : List Grid) (ms : Nat) : State :=
  { State.reset with loom := { State.resetLoom with grids := gs, held := hs }, clock := ⟨0, 4000000 * ms⟩ }
theorem test_meets_pool : ((pool [] [grid 0 0 none] 0).loom.held.find? fun h => decide (h.level = 0)).isSome = true ∧
    (pool [] [] 0).levelRoom 0 = true ∧ ((pool [grid 0 0 none] [] 10).grid? 0).isSome = true ∧ (grid 0 0 none).next < (grid 0 0 none).recd.teams ∧
    (pool [grid 3 0 (some 0)] [] 1).clock.gtsQ = 4 * 1000000 ∧ (pool [grid 0 0 none] [] 10).clock.gtsQ = 4 * 10000000 ∧
    (pool [grid 0 0 none] [] 0).itsTurn (grid 0 0 none) = true ∧ ((pool [grid 0 0 none] [] 0).choose (grid 0 0 none)).isSome = true ∧
    (pool [grid 0 0 none] [] 0).loom.placed = none ∧ (pool [grid 0 0 none] [] 0).loom.retired = none := by
  decide +kernel
theorem test_placement : let t := after (.placeTeam 0) (pool [grid 0 0 none] [] 0)
    t.streams.length = 16 ∧ (t.team 0).core = 0 ∧ (t.stream (lane 15)).pc = 0x1000 := by decide +kernel
/-- TeamsAndGridsRetire. -/
def retiring (e : Option (BitVec 8)) (exited : Bool) : State :=
  { among [{ thread 0 [] with exited := exited, stall := some 0 }] with
    teams := [{ placedTeam with ended := e }], clock := ⟨0, 4000000⟩, fns := [(0, { blankFn with wdog := 1 })] }
theorem test_meets_retirement : ((retiring none false).team? 0).any (fun t => t.ended.isNone && !t.shadow && t.image.isNone) = true ∧
    ((retiring none false).fn 0).wdog ≠ 0 ∧ ((retiring none false).team 0).lastIssue + 1 * 1000000 ≤ (retiring none false).gts ∧
    ((retiring (some 0x30) false).team 0).ended = some 0x30 ∧ (∃ st ∈ (retiring (some 0x30) false).streams, st.id.tcx = 0) ∧
    (retiring none true).mayRetire ((retiring none true).team 0) = true ∧ (retiring none true).grid? 0 = none ∧
    (grid 0 1 none).recd.teams ≤ (grid 0 1 none).next ∧ (grid 0 1 none).recd.doneCtr = 0 := by decide +kernel
theorem test_watchdog : ((after (.watchdogExpire 0) (retiring none false)).team 0).ended = some 0x60 := by decide +kernel
/-- GraphNodes. -/
def node (typ runs : Nat) (running removing : Bool) : Node :=
  ⟨5, 1, 0, 0, typ, 1, [6, 7], 0, 0x2000, 1, 0, 1, runs, running, removing⟩
def graph (n : Node) (busy : Bool) : State :=
  { mem [(4, 5)] with
    loom := { State.resetLoom with ports := [(0, { blankPort with enable := true, asid := 1, busy := busy, op := 2, first := 5, count := 1 })]
                                   nodes := [n], completions := [5] } }
theorem test_meets_graph : let s := graph (node 8 1 false false) false
    (s.port 0 0).busy = false ∧ (s.port 0 0).enable = true ∧ s.node? 5 = some (node 8 1 false false) ∧ (5 : Nat) ∈ s.loom.completions ∧
    s.nearPending (s.active always) 0b11111 = false ∧ ((s.stream (lane 0)).rd 4).toNat = 5 ∧ s.node? 6 = none ∧ s.curTeam.recd.asid = 1 ∧
    s.levelRoom 1 = true ∧ ((graph (node 8 0 false true) true).port 0 0).busy = true ∧ ((graph (node 8 0 false true) true).port 0 0).op = 2 ∧
    (match (s.graphRegs ⟨0, 0, 8, 5, 0⟩ 0 false).readNodes 0 0 1 0 5 (fun _ => true) (List.range 0) with
      | (.ok ns, _) => decide (ns = []) | _ => false) = true ∧
    (match (graph (node 6 1 true false) false).nodeWord 0 1 0x2000 with | (.ok w, _) => !w.msb | _ => false) = true := by decide +kernel
theorem test_gpost : ((after (.gpost always 3 4) (graph (node 8 0 false false) false)).node? 5).any (fun n => n.runs == 1 && n.pending == 1) = true ∧
    reads (.gpost always 3 4) (graph (node 8 0 false true) false) 3 = 2 := by decide +kernel
/-- FunctionsEventsAndLinks. -/
def linked (up : Bool) (ops : List MemOp) : State :=
  { mem [] ops with links := { State.reset.links with hostUp := up, cxlUp := true }, hif := { State.resetHost with evtCtl := 0x80000000, pending := [3] } }
def far (k : OpKind) (l : Loc) : MemOp := { pending k l 1 1 with phase := .sent 0 1 none }
theorem test_meets_functions : (5 : Nat) ≤ 9 ∧ ((List.range 65).filter fun m => m != 1 && ((one []).fn m).v) = [0] ∧
    (State.reset.fn 0).last.toNat < 5 ∧ ((State.reset.fn 0).msix + 1) + (2047) ≤ 2048 ∧ (State.reset.fn 0).v = true ∧
    (linked false []).hif.held.length < 256 ∧ (linked true []).hif.evtCtl.getLsbD 31 = true ∧
    ((linked true []).hif.evtHead + 2 ^ 32 - (linked true []).hif.evtTail) % 2 ^ 32 ≠ 64 ∧ State.reset.hif.evtCtl.getLsbD 31 = false := by
  decide +kernel
theorem test_meets_events : let s := { linked true [] with clock := ⟨1, 7⟩ }
    s.agenda = [] ∧ s.clock.gtsQ % 4 = 3 ∧ (linked true []).clock.gtsQ % 4 ≠ 3 ∧
    { s with hif := { s.hif with fresh := [⟨1, 4, 5, 0⟩] } }.hif.fresh = [⟨s.gts, 4, 5, 0⟩] := by decide +kernel
theorem test_event_order : (after (.eventRecord 1 7 0) (after (.eventRecord 2 9 0) (after (.eventRecord 3 7 0) (linked true [])))).hif.fresh.map
    (fun e => (e.event, e.source)) = [(3, 7), (1, 7), (2, 9)] := by decide +kernel
theorem test_meets_port_loss : let o := far (.rmw .add false) ⟨.pod, podKey + 64, 0, false⟩
    (linked true [o]).ops = [o] ∧ o.num = 0 ∧ o.loc.key < 2 ^ 63 ∧ (∃ p, (linked true [o]).podPort o = some p) ∧
    (linked true [o]).dr.copies = [] := by
  refine ⟨rfl, rfl, by decide, Option.isSome_iff_exists.mp ?_, rfl⟩
  have h : ∀ k, k < 16 → (linked true []).links.ports[k]? = some true := by decide
  have hl : ∀ o, (linked true [o]).links = (linked true []).links := fun _ => rfl
  simp only [State.podPort, Links.portFrom, hl, List.find?_isSome, List.mem_map, List.mem_range]
  exact ⟨_, ⟨0, by decide, rfl⟩, by rw [h _ (Nat.mod_lt _ (by decide))]; rfl⟩
theorem test_meets_links : (linked true []).links.hostUp = true ∧ State.reset.links.wasUp = false ∧ State.reset.hif.held = [] ∧
    (linked true []).links.ports[1]? = some true ∧ ((linked true []).links.ports.set 0 false).any id = true ∧
    (linked true [far (.rmw .add false) ⟨.pod, podKey + 64, 0, false⟩]).op? 0 = some (far (.rmw .add false) ⟨.pod, podKey + 64, 0, false⟩) ∧
    (linked true []).mayPerform (far (.load false) ⟨.host, hostKey + 2 ^ 51, 0, true⟩) = true ∧ (linked true []).cache? 0 = none ∧
    (linked true []).poisoned (hostKey + 2 ^ 51) 4 = false := by decide +kernel
theorem test_cxl_timeout : let t := (after (.cxlTimeout 0) { linked true [{ far (.load false) ⟨.host, hostKey + 2 ^ 51, 0, true⟩ with counter := 0 }] with clock := ⟨0, 16000000⟩ }).stream (lane 0)
    t.rd 3 = 0xFFFFFFFF ∧ t.slots.ld = some ⟨0x23, 0⟩ := by decide +kernel
/-- PowerTimeAndResets. -/
def idle : State := { State.reset with hif := { State.resetHost with pwrTol := 0x8C1F }, clock := ⟨0, 4 * 400000000⟩ }
theorem test_meets_power : idle.clusterIdle 47 = true ∧ idle.tolerance = some 1015808 ∧ { idle with pwr := { idle.pwr with gated := List.range 48 } }.dieIdle 3 = true ∧ idle.deviceIdle = true ∧
    idle.hif.hbmIdle ≠ 0 ∧ sget 0 idle.pwr.busy 100 + 4 * 10000000 ≤ idle.clock.gtsQ ∧ (1 : Int).natAbs * 10000 ≤ 4 * 2500 := by decide +kernel
theorem test_clk_gate : (after (.clkGateEnter 47) idle).pwr.gated = [47] ∧ (after (.clkGateEnter 47) State.reset).pwr.gated = [] := by decide +kernel
theorem test_meets_resets : (5 : Nat) ≠ 0 ∧ (5 : Nat) ≤ 64 ∧ (after .deviceReset idle).clock = idle.clock := by decide +kernel
/-- FirmwareManagementAndHalt. -/
theorem test_meets_firmware : State.reset.fw.recovery = false ∧ State.reset.fw.stages < 8 ∧ (∀ st ∈ (one []).streams, st.window = none) ∧
    (one []).physical ((one []).stream (lane 0)) = false ∧
    { one [] with fns := [(0, { blankFn with privV := true, privAsid := 1, last := 1 })] }.physical ((one []).stream (lane 0)) = true ∧
    (one []).curTeam.coreOf (lane 0) = 0 := by decide +kernel

/-- TranslationMaintenance, under the physical function. -/
def master (regs : List (Nat × Word)) : State :=
  { mem regs with fns := [(0, { blankFn with privV := true, privAsid := 1, last := 0xFFFF })] }
theorem test_meets_maintenance : let s := master [(4, 0x3000), (6, 0x1000), (7, 1)]
    (s.stream (lane 0)).rd 6 ≠ 0 ∧ ((s.stream (lane 0)).rd 7).toNat < 2 ^ 16 ∧ s.ownsAsid s.curTeam.fn 1 = true ∧
    (∀ m ∈ s.tr.merges, m.asid ≠ 1) ∧ s.undrained ((s.active always).flatMap fun id => (s.stream id).old) = [] ∧
    s.physical (s.stream (lane 0)) = true ∧ (mem []).physical ((mem []).stream (lane 0)) = false ∧ ((mem []).ownsAsid 0 1) = false := by
  decide +kernel
theorem test_tlbinv : (after (.tlbinv always 4 false 6 false 7) (master [(4, 0x3000), (6, 0x1000), (7, 1)])).tr.tlb = [] ∧
    (after (.tlbinvAll always 7) (master [(7, 2)])).tr.tlb.length = 3 := by decide +kernel
theorem test_tlbsync_zero : (after (.tlbsyncZero always 3 4 false 6 false)
    { master [(4, 0x3000), (6, 0x1000)] with mem := [(0x2FFF, 1), (0x3000, 2), (0x4000, 3)] }).mem = [(0x2FFF, 1), (0x4000, 3)] := by decide +kernel
/-- A level-1 entry of ASID 1 under a root at 0x8000. -/
def walked : State :=
  { State.reset with
    mem := [(0x8000, 0x01), (0x8001, 0x90), (0x9000, 0x01), (0x9001, 0xA0), (0xA000, 0x01), (0xA001, 0xB0), (0xB000, 0x01), (0xB001, 0xC0),
      (0xC008, 0x0F), (0xC009, 0x32)]
    tr := { pages with tlb := [], descs := [(1, some ⟨8, 0x10000000, 12⟩)] } }
theorem test_meets_walk : (match walked.xlate (walked.holderWho (.core 0) 1).at_ 0 1 0x1000 true with
    | .ok (_, _, some _) => true | _ => false) = true := by decide +kernel
/-- A thread of it fetches at the page. -/
def fetching : State := { walked with teams := [placedTeam], streams := [{ thread 0 [] with pc := 0x1000 }] }
theorem test_page_walk : memReadN (after (.pageWalk (.core 0) 1 0x1000 false) fetching).mem 0xC008 2 = [0x1F, 0x32] ∧
    fetching.aboutTo (.core 0) 1 0x1000 false = true ∧ fetching.aboutTo (.core 1) 1 0x1000 false = false := by decide +kernel
/-- PageFaultRecordsAndReplays: a fault of lane 0 at page 5. -/
def faulted (written : Bool) (st : Stream) : State :=
  { master [(4, 0x5000), (7, 1)] with
    streams := [thread 0 [(4, 0x5000), (7, 1)], st], cur := ⟨[lane 0], 0x1000, 0x1008⟩
    tr := { pages with merges := [⟨0, 3, 1, 5, [lane 1], 0x5000, 0, 0, false, 1, cPageNotPresent, 0, 0, 0x1000, written, false⟩] } }
def atFault : Stream := { thread 1 [] with park := .fault 0 3 0x1008 0x5000 1 true false }
theorem test_meets_faults : ((faulted false atFault).tr.merges.find? fun m => m.die = 0 && m.idx = 3).any (fun m => !m.pushed && !m.written) = true ∧
    ((faulted false atFault).wq 252).isOpen = false ∧ ((faulted false atFault).ring 0).ctl.toNat / 256 % 256 = 252 ∧
    { faulted true atFault with co := { State.resetColls with wqs := [(252, ⟨true, 1, 0, [], 0⟩)] } }.wq 252 = ⟨true, 1, 0, [], 0⟩ ∧
    ((faulted false atFault).stream (lane 1)).park = .fault 0 3 0x1008 0x5000 1 true false ∧
    ((faulted false atFault).mergeOf 0 1 5).isSome = true ∧ (faulted false atFault).mergeOf 0 1 6 = none ∧
    ((faulted false atFault).stream (lane 0)).parkedOn 0 3 = false ∧ ((faulted false atFault).stream (lane 1)).canTrap = true := by decide +kernel
theorem test_fresume : let t := after (.fresume ⟨always, 3, 4, false, 7, false⟩ 0) (faulted true atFault)
    (t.stream (lane 0)).rd 3 = 1 ∧ t.tr.merges = [] ∧ (t.stream (lane 1)).park = .none ∧ (t.stream (lane 1)).pc = 0x1000 := by decide +kernel
theorem test_fresume_fail : ((after (.fresumeFail ⟨always, 3, 4, false, 7, false⟩ 0) (faulted true atFault)).stream (lane 1)).trap.cause =
    cPageNotPresent := by decide +kernel
/-- WindowsResolve. -/
def predicted (taken : Bool) : State :=
  among [{ thread 0 [(3, 9)] with
    window := some ⟨0, 0x1000, taken, 0x2000, 0x1008, ⟨true, 5, false⟩, none, none, [], none, .last, [], 0, 0, false, []⟩ }]
theorem test_meets_window : ((predicted true).stream (lane 0)).window.isSome = true ∧ (predicted true).awaits (lane 0) 5 0 = false ∧
    guardHolds ⟨true, 5, false⟩ ((predicted true).stream (lane 0)) = false := by decide +kernel
/-- A window of a `loop` whose counter is known. -/
def looped : State :=
  among [{ thread 0 [(4, 1)] with
    window := some ⟨0, 0x1000, true, 0x2000, 0x1008, ⟨false, 0, false⟩, none, some 4, [(4, 1)], none, .last, [], 0, 0, false, []⟩ }]
theorem test_meets_loop_window : looped.awaits (lane 0) 0 0 = false ∧ looped.awaits (lane 0) 4 0 = false ∧
    (∀ w, (looped.stream (lane 0)).window = some w → looped.windowMates (lane 0) w = [lane 0]) ∧
    (∀ o ∈ looped.ops, o.ofStream (lane 0) = false) := by
  refine ⟨by decide +kernel, by decide +kernel, ?_, by decide +kernel⟩
  rintro w h
  obtain rfl := (Option.some.inj h).symm
  decide +kernel
theorem test_loop_restores : let t := (after (.predicateResolve (lane 0)) looped).stream (lane 0)
    t.pc = 0x1008 ∧ t.rd 4 = 0 ∧ t.window = none := by decide +kernel
theorem test_window_restores : let t := (after (.predicateResolve (lane 0)) (predicted true)).stream (lane 0)
    t.pc = 0x1008 ∧ t.rd 3 = 0 ∧ ((after (.predicateResolve (lane 0)) (predicted false)).stream (lane 0)).rd 3 = 9 := by decide +kernel
/-- ContextsMove: the teams of core 5 in the active or the shadow set. -/
def swapping (shadow : Bool) : State :=
  { master [(4, 0x5000), (6, 5)] with teams := [placedTeam, { placedTeam with tcx := 1, core := 5, ctag := 7, shadow := shadow }] }
theorem test_meets_contexts : (swapping false).ctxTrap ((swapping false).stream (lane 0)) 6 = none ∧
    (∃ tm ∈ (swapping false).teams, tm.onCores ((swapping false).swapCores 5) = true) ∧
    (∀ tm ∈ (swapping false).teams, tm.onCores ((swapping false).swapCores 9) = false) ∧
    (swapping false).shadowOn ((swapping false).swapCores 5) = [] ∧ ((swapping true).shadowOn ((swapping true).swapCores 5)).length = 1 ∧
    (swapping true).imageAddr ((swapping true).stream (lane 0)) 4 = some 0x5000 ∧
    (swapping true).imageAddr ((swapping true).stream (lane 0)) 6 = none ∧
    (swapping true).imageWritable ((swapping true).who ((swapping true).stream (lane 0))) 0x5000 = true ∧
    ((swapping true).unlistTeams ((swapping true).teams.drop 1)).savable ((swapping true).teams.drop 1) = true := by decide +kernel
theorem test_swap : ((after (.ctxswSwap always 3 6 false) (swapping false)).team 1).shadow = true ∧
    reads (.ctxswSwap always 3 6 false) (swapping false) 3 = 0 := by decide +kernel
theorem test_meets_flush : let s := { State.reset with vt := { State.reset.vt with flushing := [7] } }
    (7 : Nat) ∈ s.vt.flushing ∧ (after (.ctagFlushAck 7) s).vt.flushing = [] := by decide +kernel
/-- QueueInstructions. -/
def bound (es : List QEntry) : State :=
  { queued es with teams := [{ placedTeam with recd := { placedTeam.recd with qports := 1 }, queues := ([9], []), binds := ([(0, 0)], []) }]
                   qu := ⟨[(9, ⟨es, 0⟩)], 1, []⟩ }
theorem test_meets_queues : (bound []).team? 0 = some (bound []).curTeam ∧ (bound []).curTeam.recd.qports = 1 ∧
    (bound []).portKey (lane 0) 0xF0 = some 9 ∧ ((bound [full [(0, 5)]]).queue 9).ready = 1 ∧ (bound []).held 9 true = false := by decide +kernel
theorem test_qstat : reads (.qstat always 3 0xF0) (bound [full [(0, 5)]]) 3 = 9 * 2048 + 1024 + 15 * 32 + 1 ∧
    reads (.qpeek always 3 0xF0 0) (bound [full [(0, 5)]]) 3 = 5 ∧ reads (.qdrop always 3 0xF0 4) (bound [full [(0, 5)]]) 3 = 1 := by decide +kernel
/-- CarterStreamsAndTransfers: a Carter stream with a port. -/
def carter : SId := ⟨0, .carter, 0⟩
def carting (regs : List (Nat × Word)) (es : List QEntry) : State :=
  { mem [] with
    streams := [{ newStream carter 0x1000 0x4000 0 with regs := regs }], cur := ⟨[carter], 0x1000, 0x1008⟩
    teams := [{ placedTeam with recd := { placedTeam.recd with qports := 1 }, queues := ([9], []), binds := ([(0, 0)], []) }]
    qu := ⟨[(9, ⟨es, 0⟩)], 1, []⟩ }
def blankCar : CarOp := ⟨always, 0xF0, 4, false, 6, false, 8, false, false, 0, false, 2⟩
theorem test_meets_spawn : targetTrap (((one [(2, 0x2000)]).stream (lane 0)).rd64 2) = none ∧ (one []).carterSlot 0 0 = none ∧
    (carting [] []).carterSlot 0 0 ≠ none ∧ (carting [] []).carterSlot 0 1 = none := by decide +kernel
theorem test_cspawn : let t := after (.cspawn always 3 2 false 4 false) (one [(2, 0x2000), (4, 77)])
    (t.stream (lane 0)).rd 3 = 0 ∧ (t.stream carter).pc = 0x2000 ∧ (t.stream carter).rd 1 = 77 := by decide +kernel
theorem test_meets_transfers : let s := carting [(4, 0x2000), (6, 2)] []
    s.portKey carter 0xF0 = some 9 ∧ ((s.stream carter).rd 6).toNat ≤ s.curTeam.recd.groupW ∧ s.xferRoom 9 2 false false = true ∧
    (match s.xferChecks carter .load 4 [some 0x2000, some 0x2004] with | .ok cs => cs.length == 2 | _ => false) = true ∧
    (carting [] [full []]).xferRoom 9 2 false true = true ∧ (full []).mask.getLsbD 1 = true ∧ s.xferRoom 9 2 true false = true ∧
    (s.readIndices carter 0 [checked (dev 0x2000) 0x2000]).1 = [some 0] ∧ ((carting [] []).stream carter).rd 6 = 0 := by decide +kernel
theorem test_aload : let t := after (.aload blankCar) (carting [(4, 0x2000), (6, 2)] [])
    (t.queue 9).entries.length = 1 ∧ t.ops.length = 2 ∧ (t.stream carter).cnt.ld = 1 := by decide +kernel
/-- A thread that has stalled on a queue for 256 cycles. -/
def stuck : State :=
  { mem [] with
    streams := [{ thread 0 [] with stall := some 0 }], clock := ⟨256, 256⟩, mem := memWriteN [] 0x1000 (bytesOfNat 8 0x81f80000100005)
    teams := [{ placedTeam with recd := { placedTeam.recd with qports := 1 }, queues := ([9], []), binds := ([(0, 0)], []) }] }
theorem test_meets_stall : (stuck.stream? (lane 0)).any (fun st => !st.exited && st.park == .none && st.stall == some 0) = true ∧
    (match stuck.fetch (stuck.stream (lane 0)) with
      | .ok ws => (match stuck.examineFor (stuck.stream (lane 0)) (ws.map (·.1)) with
        | .ok i => !stuck.interlocked i (stuck.stream (lane 0)) && (stuck.fullWorkQueue (stuck.stream (lane 0)) ((ws.map (·.1)).headD 0) i).isNone &&
          stuck.shortQueues (stuck.stream (lane 0)) ((ws.map (·.1)).headD 0) i != []
        | _ => false)
      | _ => false) = true := by decide +kernel
/-- The same at a `wqpush` to a full queue. -/
def stuckPush : State :=
  { stuck with
    mem := memWriteN [] 0x1000 (bytesOfNat 8 (((encode (.wqpush always 4 false 6 false)).getD []).headD 0).toNat)
    streams := [{ thread 0 [(4, 5)] with stall := some 0 }]
    co := { State.resetColls with wqs := [(5, ⟨true, 1, 0, List.replicate 1024 7, 3⟩)] } }
theorem test_meets_push_stall : (match stuckPush.fetch (stuckPush.stream (lane 0)) with
      | .ok ws => (match stuckPush.examineFor (stuckPush.stream (lane 0)) (ws.map (·.1)) with
        | .ok i => !stuckPush.interlocked i (stuckPush.stream (lane 0)) &&
          stuckPush.fullWorkQueue (stuckPush.stream (lane 0)) ((ws.map (·.1)).headD 0) i == some (5, 3)
        | _ => false)
      | _ => false) = true := by decide +kernel
/-- A load transfer of one element. -/
def loading : State :=
  { carting [] [⟨0, [], 1, .reserved, 1⟩] with
    ops := [{ pending (.elemLoad 0 [0] false) (dev 0x2000) 0 0 with lanes := [⟨carter, 0, 0⟩] }]
    qu := ⟨[(9, ⟨[⟨0, [], 1, .reserved, 1⟩], 0⟩)], 1, [⟨0, carter, 0, 9, 16, false, false, [some (0x2000, dev 0x2000)], 4, false, false, [], [0], 1⟩]⟩ }
theorem test_meets_entry : loading.qu.xfers.all (fun x => x.pending == 1 && !x.unserved && x.entries[0 / x.w]? == some 0) = true ∧
    loading.mayPerform { pending (.elemLoad 0 [0] false) (dev 0x2000) 0 0 with lanes := [⟨carter, 0, 0⟩] } = true := by decide +kernel
theorem test_meets_read : loading.flawed (dev 0x2000) (pending (.elemLoad 0 [0] false) (dev 0x2000) 0 0).cluster 4 = none := by decide +kernel
theorem test_entry_ready : ((after (.entryReady 0) loading).queue 9).ready = 1 ∧ (after (.entryReady 0) loading).qu.xfers = [] := by decide +kernel

/-- MatrixInstructionsEnterTheBuffer: a control stream with two format slots, BF16 and BF16 scaled by blocks of 32. -/
def control : SId := ⟨0, .control, 0⟩
def matrix (regs : List (Nat × Word)) (m : Mat) (ops : List TileOp) : State :=
  { mem [] with
    streams := [{ newStream control 0x1000 0x4000 0 with regs := regs }], cur := ⟨[control], 0x1000, 0x1008⟩
    teams := [{ placedTeam with
                recd := { placedTeam.recd with fmt := [0x11, 0x15B11], qports := 1 }
                queues := ([9], []), binds := ([(0, 0)], []) }]
    mx := ⟨[(0, m)], [(3, [(0, 0x3F800000)])], ops, []⟩ }
def plane (blk scale : Nat) : Plane := ⟨[], [], 128, 1, blk, scale⟩
def named (p : Plane) : Mat := { blankMat with active := p, shadow := p, map := [(2, 3)] }
set_option maxRecDepth 100000 in
theorem test_meets_matrix : let s := matrix [(4, 0x2000), (6, 128)] (named (plane 0 0)) []
    s.bufferFull 0 = false ∧ (s.stream control).cnt.tl < 254 ∧ bFmtOk (slotBFmt (s.slotWord 0)) = true ∧ codeBits (slotBFmt (s.slotWord 0)) = 16 ∧
    (match s.operandRows (s.stream control) .load 64 (fmtBytes 1 128) ((s.matNext control).stride 1) 0x2000 128 with
      | .ok rs => decide (s.touchRows (s.stream control) .load rs = s) | _ => false) = true ∧
    (s.matNext control).tileOf 2 = some 3 ∧ rowSpec 128 = some (128, 0) ∧ (s.matNext control).active.klen ≠ 0 ∧ fmtPair 1 1 = true ∧
    slotBBlk (s.slotWord 0) = 0 ∧ slotBScale (s.slotWord 0) = 0 ∧ slotAScale (s.slotWord 0) = 0 ∧ s.portKey control 0xF0 = some 9 := by
  decide +kernel
theorem test_meets_scales : let s := matrix [(4, 0x2000)] (named (plane 3 1)) []
    slotAScale (s.slotWord 1) = 1 ∧ aFmtOk (slotAFmt (s.slotWord 1)) = true ∧ slotBScale (s.slotWord 1) = 1 ∧ slotBBlk (s.slotWord 1) = 3 ∧
    (match s.operandRows (s.stream control) .load 1 4 ((s.matNext control).stride 4) 0x2000 128 with | .ok _ => true | _ => false) = true ∧
    (match s.operandRows (s.stream control) .load 1 128 ((s.matNext control).stride 4) 0x2000 4 with | .ok _ => true | _ => false) = true ∧
    (s.mat 0).map.length + (s.mat 0).releasing.length < 8 ∧ (s.freeTile 0).isSome = true ∧ (s.stream control).slots.tl = none := by decide +kernel
theorem test_mdrain_enters : let t := after (.mdrain ⟨always, 0xF0, false, 6, false, 0, 2, true, false⟩) (matrix [(6, 4)] (named (plane 0 0)) [])
    t.mx.ops.length = 1 ∧ (t.stream control).cnt.tl = 1 := by decide +kernel
theorem test_mcfg : (after (.mcfg always 4 false .dstride) (matrix [(4, 512)] blankMat [])).mat 0 = { blankMat with strides := [0, 0, 512, 0, 0] } := by
  decide +kernel
/-- TileOperationsExecute. -/
def tileOp (k : TileKind) (t : Option Nat) (rows : Nat) : TileOp := { blankTileOp with num := 0, kind := k, tile := t, rows := rows }
theorem test_meets_tile_ops : (matrix [] blankMat [tileOp (.mul true) (some 3) 0]).nextTileOp 0 = some (tileOp (.mul true) (some 3) 0) ∧
    ((matrix [] blankMat [tileOp .load none 0]).readRows control 0 true []).1 = [] ∧
    (((matrix [] blankMat [tileOp .load none 0]).readRows control 0 true []).2.stream control).cnt = ⟨0, 0, 0, 0⟩ := by decide +kernel
theorem test_zero_tile : let t := after (.tileOpExecute 0) (matrix [] blankMat [tileOp .zero (some 3) 1])
    t.tile 0 3 = [] ∧ t.mx.ops = [] := by decide +kernel

/-- CopiesIssueAndReport, CopiesMoveAndEnd, PacketsAreAnswered. -/
def block : List (Nat × Word) := [(8, 0x2000), (10, 0x3000), (12, 64)]
def blankCopyOp : CopyOp := ⟨always, 3, 8, false, 10, false, 12, 0, 0⟩
def copy (k : CopyKind) (dst : DWord) (len state : Nat) : Copy :=
  ⟨⟨0, 0⟩, 1, 0, lane 0, 0, 1, k, dst, len, 0, 0, 0, state, 0, 0, 0, 0, none, none, 0, 0, 1, 1, [], 0, none, none, none, false, []⟩
def copying (c : Copy) : State := { mem [(4, c.handle)] with dr := ⟨[c], [], [], [], []⟩, clock := ⟨0, 400000000⟩ }
theorem test_meets_copies : let s := mem block
    (s.stream (lane 0)).cnt.cp < 254 ∧ s.curTeam.coreOf (lane 0) < 192 ∧ ((s.stream (lane 0)).rd64 12).toNat = 64 ∧
    s.copyRange (s.stream (lane 0)) 0x2000 64 = .ok 0x2000 ∧ class10 0x2000 = false ∧ s.copyCounters (s.stream (lane 0)) 12 0x2000 (some 0x3000) =
      .ok (0, 0) ∧ s.freeEntry 0 = some 0 ∧ s.vt.waiters = [] ∧ 2 ^ 40 < ((thread 0 [(13, 0x101)]).rd64 12).toNat ∧
    s.copyRange (s.stream (lane 0)) 0x2000 0 = .ok 0x2000 := by decide +kernel
theorem test_meets_fetch_block : class10 (((mem [(13, 0x80000000)]).stream (lane 0)).rd64 12) = true ∧
    (((mem [(13, 0x80000000)]).stream (lane 0)).rd64 12).toNat % 8 = 0 ∧ ((mem []).stream (lane 0)).block = [] ∧
    { thread 0 [] with block := [(0, 5, none)] }.block ≠ [] := by decide +kernel
theorem test_dcopy : let t := after (.dcopy blankCopyOp) (mem block)
    (t.stream (lane 0)).cnt.cp = 1 ∧ (t.dr.copies.map fun c => (c.state, c.len, c.dst)) = [(0, 64, 0x2000)] := by decide +kernel
theorem test_meets_status : let c := copy (.bytes 0x3000) 0x2000 64 0
    (copying c).copyOf 0 c.handle = some c ∧ (copying c).copyOf 0 0 = none ∧ (copying c).copy? ⟨0, 0⟩ = some c ∧
    (copying { c with state := 5 }).copyOf 0 c.handle = some { c with state := 5 } ∧ c.cancel = none := by decide +kernel
theorem test_dstat : reads (.dstat ⟨always, 3, 4, false⟩) (mem []) 3 = 0x70000000 ∧
    reads (.dstat ⟨always, 3, 4, false⟩) (copying { copy (.bytes 0) 0x2000 64 3 with cause := 0x21 }) 3 = 0x30210000 := by decide +kernel
theorem test_meets_starts : let f := copy (.fill 0x11223344 2) 0x4000000000000040 64 0
    (copying f).mayStart f 5 = true ∧ (copying f).mayStart f 256 = false ∧ f.dst.extractLsb' 62 2 = 1#2 ∧ f.dst.toNat % 64 + f.len ≤ 64 ∧
    (copying f).vaultBad 1 0x40 64 = none ∧ (copying f).cache? 0 = none ∧ (∀ o ∈ (copying f).ops, o.phase ≠ .left) ∧
    class10 0x8000000000000000 = true := by decide +kernel
theorem test_fill : memReadN (after (.copyStart ⟨0, 0⟩ 5) (copying (copy (.fill 0x11223344 2) 0x4000000000000040 8 0))).mem (vaultKey + 0x40) 8 =
    [0x44, 0x33, 0x22, 0x11, 0x44, 0x33, 0x22, 0x11] := by decide +kernel
def aPacket : Packet := ⟨0, [], 0, 0, 0, 0, false, none⟩
theorem test_meets_ends : let c := { copy (.bytes 0) 0x2000 64 1 with moved := 64 }
    c.settled = true ∧ c.todo.length ≤ c.moved ∧ (copy (.bytes 0) 0x2000 64 1).ending = none ∧ { c with state := 0 }.going = false ∧ c.err = none ∧ c.empties = [] ∧ c.srcCtr = 0 ∧ c.notify = 0 ∧ c.id.core ≠ 192 ∧ c.ending ≠ none ∧
    { c with packets := [aPacket] }.settled = false ∧ { c with packets := [aPacket] }.ending = none ∧
    (0 : Nat) + 100000000 ≤ (copying c).gts := by decide +kernel
theorem test_copy_final : let t := after (.copyFinal ⟨0, 0⟩) (copying { copy (.bytes 0) 0x2000 64 1 with err := some (0x12, 0) })
    (t.stream (lane 0)).slots.cp = some ⟨0x12, 0⟩ ∧ (t.dr.copies.map fun c => c.state) = [3] := by decide +kernel
def flying (dest : Option Dest) : Copy := { copy (.bytes 0x8000000000003000) 0x2000 64 1 with dest := dest, packets := [aPacket] }
theorem test_meets_packets : (flying none).inFlight 0 = some aPacket ∧ class10 0x8000000000003000 = true ∧
    (flying (some (.fabric 7))).dest = some (.fabric 7) ∧ 0 + min (20000 * 2 ^ 0) 2000000 ≤ (copying (flying none)).gts ∧
    ({ copying (flying none) with jobs := [{ blankJob with v := true, asid := 1 }] }).jobOf 1 = some 0 ∧
    (0 : Nat) < 0 + min (20000 * 2 ^ 0) 2000000 := by decide +kernel
theorem test_packet_timeout : (after (.copyTimeout ⟨0, 0⟩ 0) (copying (flying none))).dr.copies.map (fun c => c.err) = [some (0x21, 0)] := by decide +kernel
def packet : InPacket := ⟨⟨7, 1, 0, 0, 0⟩, 5, 2, [], none⟩
theorem test_meets_placement : (mem []).placedOf 7 1 5 = ⟨7, 1, 5, [], false⟩ ∧ (2 : Nat) ∉ ((mem []).placedOf 7 1 5).indices ∧
    (match (mem []).placePacket packet.req [] none with | (.error _, _) => true | _ => false) = true ∧
    { mem [] with dr := ⟨[], [⟨7, 1, 5, [2], false⟩], [], [], []⟩ }.placedOf 7 1 5 = ⟨7, 1, 5, [2], false⟩ ∧
    { mem [] with dr := ⟨[], [⟨7, 1, 5, [2], true⟩], [], [], []⟩ }.placedOf 7 1 5 = ⟨7, 1, 5, [2], true⟩ := by decide +kernel

/-- PorterAndRemoteAccesses: a job of two ranks in the pod, region 3 of 4 KiB at 0x2000, key generation 2. -/
def aJob : JobSlot :=
  { blankJob with v := true, asid := 1, jid := 9, last := 1, levelT := [⟨3, 0, 0, 1⟩], keys := [(2, [1, 2, 3, 4, 5, 6, 7])]
                  regions := [(3, (0xCF, 0x2000, 0, 0))] }
def grant : DWord := 0x1F30000200000000
theorem test_meets_mac : ∃ tok : DWord, Config.kmac [1, 2, 3, 4, 5, 6, 7] (tok.extractLsb' 32 32) 0 9 = tok.extractLsb' 0 32 ∧
    tok.extractLsb' 32 32 = grant.extractLsb' 32 32 := by
  let f := fun w : Word => Config.kmac [1, 2, 3, 4, 5, 6, 7] w 0 9
  have h : ∀ a m : Word, (a ++ m).extractLsb' 0 32 = m ∧ (a ++ m).extractLsb' 32 32 = a := by
    intro a m
    constructor <;> refine BitVec.eq_of_getLsbD_eq fun i h => ?_ <;> rw [BitVec.getLsbD_extractLsb', BitVec.getLsbD_append] <;> simp [h]
  have h := h 0x1F300002 (f 0x1F300002)
  exact ⟨0x1F300002#32 ++ f 0x1F300002, (congrArg f h.2).trans h.1.symm, h.2.trans (by decide)⟩
def inJob (s : State) : State := { s with jobs := [aJob], tokens := [⟨1, 1, 3, grant⟩] }
def req (offset : Nat) : InReq := ⟨9, 1, grant, 3, offset⟩
theorem test_meets_porter : let s := inJob (mem [])
    (s.jobs.findIdx? fun j => j.v && j.jid == 9) = some 0 ∧ tokGen grant = 2 ∧ s.current grant = true ∧ tokRegion grant = 3 ∧
    s.region 0 3 = (some ⟨7, 12, 0x2000⟩, s) ∧ (tokRights grant &&& 7).getLsbD 0 = true ∧ min (2 ^ tokSize grant) (2 ^ 12) = 4096 ∧
    (match s.portLocs 0 ⟨7, 12, 0x2000⟩ .load 0x10 4 with | (.ok _, _) => true | _ => false) = true ∧
    (match s.portLocs 0 ⟨7, 12, 0x80000000⟩ .load 0x10 4 with | (.error _, _) => true | _ => false) = true ∧
    (mem []).jobs.all (fun j => !j.v) = true := by decide +kernel
theorem test_remote_store : (match (inJob (mem [])).portLocs 0 ⟨7, 12, 0x2000⟩ .store 0x10 2 with
    | (.ok ls, s) => memReadN (s.portWrite [1, 2] (ls.map fun l => (l, 2))).mem 0x2010 2 == [1, 2]
    | _ => false) = true ∧
    (after (.remoteRequest ⟨9, 1, 0x1F30000300000000, 3, 0x10⟩ (some 4) []) (inJob (mem []))).outbox = [.reply 1 (.nack 3)] ∧
    (after (.remoteRequest ⟨8, 1, grant, 3, 0x10⟩ (some 4) []) (inJob (mem []))).outbox = [.reply 1 (.nack 2)] := by decide +kernel
theorem test_meets_late_atomic : ((0 : Nat) + 7000000 ≤ (copying (flying none)).gts) ∧ (inJob (mem [])).gts < 0 + 7000000 ∧
    (after (.remoteAtomicExecute ⟨⟨8, 1, grant, 3, 0x10⟩, 4, 0, .add, [(5, 0)]⟩) (inJob (mem []))).outbox = [.atomReply 1 4 (.nack 2)] ∧
    ∃ x s1, (inJob (mem [])).serveAtomic (req 0x10) .add [(5, 0)] = (x, s1) := by
  refine ⟨?_, ?_, ?_, _, _, rfl⟩ <;> decide +kernel
/-- Lane 0 has waited for another device. -/
def away (k : OpKind) (ms : Nat) : State :=
  { inJob (mem [] [{ pending k ⟨.remote, 2 ^ 63, 0, false⟩ 0 0 with phase := .sent 0 1 none }]) with clock := ⟨0, 4 * 1000000 * ms⟩ }
theorem test_meets_remote : (∃ o, (away (.load false) 200).op? 0 = some o ∧ o.phase = .sent 0 1 none ∧ 2 ^ 63 ≤ o.loc.key ∧ o.entry = none ∧ o.d ≠ 0) ∧
    ((away (.load false) 200).stream? (lane 0)).isSome = true ∧ ((away (.load false) 200).stream (lane 0)).window = none ∧
    (∃ o, (away (.rmw .add false) 3).op? 0 = some o ∧ o.kind = .rmw .add false ∧ o.loc.space = .remote) ∧
    (0 : Nat) + resendAfter 1 ≤ (away (.rmw .add false) 3).gts ∧ (away (.rmw .add false) 3).gts < 0 + 6000000 ∧
    0 + 8000000 ≤ (away (.rmw .add false) 8).gts ∧ (0 : Nat) + 100000000 ≤ (away (.load false) 200).gts ∧
    (away (.load false) 3).gts < 0 + 100000000 := by
  refine ⟨⟨_, rfl, ?_⟩, ?_, ?_, ⟨_, rfl, ?_⟩, ?_⟩ <;> decide +kernel
theorem test_remote_nack : ((after (.remoteReply 0 (.nack 5)) (away (.load false) 3)).stream (lane 0)).rd 3 = 0xFFFFFFFF ∧
    ((after (.remoteReply 0 (.data [1, 2, 0, 0])) (away (.load false) 3)).stream (lane 0)).rd 3 = 0x201 ∧
    ((after (.remoteReply 0 (.data [1, 2, 0, 0])) (away (.load false) 200)).stream (lane 0)).rd 3 = 0 := by decide +kernel

/-- JobSlotsAndKeys. -/
theorem test_meets_jobs : (State.reset.job 0).v = false ∧ (State.reset.job 0).rank ≤ (State.reset.job 0).last ∧
    (∀ m : Nat, m < 8 → (State.reset.job m).v = false) ∧ ((inJob (mem [])).job 0).v = true ∧ (State.reset.job 0).pending = [] ∧
    ({ blankJob with rank := 1 }).last < ({ blankJob with rank := 1 }).rank := by decide +kernel
theorem test_job_validate : ((after (.jobSlotValidate 2 7) State.reset).job 2).asid = 7 ∧ ((after (.jobSlotValidate 2 7) State.reset).job 2).v = true ∧
    (after (.jobSlotInvalidate 0 1) (inJob (mem []))).jobs.all (fun j => !j.v) = true := by decide +kernel
/-- GrantTokensAreStored. -/
theorem test_meets_tokens : let s := inJob (mem [(4, 0x00000000), (5, 0x1F300002), (6, 1), (7, 2)])
    s.jobOf 1 = some 0 ∧ ¬((s.job 0).last < 1) ∧ tokRights grant ≠ 0 ∧ 12 ≤ tokSize grant ∧ tokSize grant ≤ 40 ∧
    s.tokenOf 1 1 3 = some grant ∧ s.tokenOf 1 0 3 = none ∧ s.tokens.length < 1048576 ∧ (s.job 0).last < 2 ∧ (mem []).jobOf 1 = none := by
  decide +kernel
theorem test_meets_full_store : 1048576 ≤ ({ mem [] with tokens := List.replicate 1048576 ⟨1, 1, 3, grant⟩ } : State).tokens.length := by
  show 1048576 ≤ (List.replicate 1048576 _).length
  rw [List.length_replicate]
theorem test_rgtok : let s := inJob (mem [(4, 0x00000000), (5, 0x1F300002), (6, 1), (7, 2)])
    reads (.rgtok ⟨always, 3, 4, false, 6, false⟩) s 3 = 1 ∧ reads (.rgtok ⟨always, 3, 4, false, 0, false⟩) s 3 = 0 ∧
    reads (.rgtok ⟨always, 3, 4, false, 7, false⟩) s 3 = 5 ∧ (after (.rgtokRm always 3 6 false 3) s).tokens = [] ∧
    reads (.rgtokRm always 3 6 false 4) s 3 = 6 := by decide +kernel

/-- WorkQueuesHoldTheirEntries. -/
def withQueue (q : WorkQ) (s : State) : State := { s with co := { s.co with wqs := [(5, q)] } }
def popped : Alu1 := ⟨always, 3, 4, false⟩
theorem test_meets_work_queues : let s := withQueue ⟨true, 1, 0, [7], 0⟩ (mem [(4, 5), (6, 9)])
    s.wqNumber (s.stream (lane 0)) 4 = some 5 ∧ s.wqNumber (s.stream (lane 0)) 6 = none ∧ (s.wq 5).entries = [7] ∧ (s.wq 6).v = false ∧
    ((s.stream (lane 0)).rd 6).toNat < 0xFFFFFFFE ∧ s.nearPending [lane 0] 0b00011 = false ∧ s.vt.migrateMode = false ∧
    (s.wq 5).entries.length + 1 ≤ 1024 ∧ (s.stream (lane 0)).flush = none ∧ s.active always = [lane 0] ∧
    (withQueue ⟨true, 1, 1, [], 0⟩ s).wqNumber (s.stream (lane 0)) 4 = some 5 ∧ (s.stream? (lane 0)).isSome = true ∧
    ({ thread 0 [] with park := .wqpop 5 popped }).park = .wqpop 5 popped := by decide +kernel
theorem test_meets_wqpush_waits : let s := withQueue ⟨true, 1, 0, List.replicate 1024 7, 0⟩ (mem [(4, 5), (6, 9)])
    1024 < (s.wq 5).entries.length + 1 ∧ (s.stream (lane 0)).room = none ∧ (s.stream (lane 0)).popping = none ∧
    ({ thread 0 [] with room := some (5, true) }).room = some (5, true) ∧
    ({ thread 0 [] with park := .none, stall := some 0, room := some (5, false) }).popping = none ∧
    (∃ st : Stream, st.popping = some 5) :=
  ⟨by decide +kernel, by decide +kernel, by decide +kernel, rfl, by decide +kernel, { thread 0 [] with park := .wqpop 5 popped }, by decide +kernel⟩
theorem test_wqpush_lost : ((after (.wqpush always 4 false 6 false) (withQueue ⟨true, 1, 0, [], 0⟩
    { mem [(4, 5)] with streams := [{ thread 0 [(4, 5)] with room := some (5, true) }] })).stream (lane 0)).trap.cause = 0x03 := by decide +kernel
theorem test_wqpop : let s := withQueue ⟨true, 1, 0, [7, 8], 0⟩ (mem [(4, 5), (6, 9)])
    reads (.wqpop popped) s 3 = 7 ∧ ((after (.wqpop popped) s).wq 5).entries = [8] ∧
    ((after (.wqpush always 4 false 6 false) s).wq 5).entries = [7, 8, 9] ∧
    reads (.wqpop popped) (withQueue ⟨true, 1, 1, [], 0⟩ s) 3 = 0xFFFFFFFF ∧
    reads (.wqpop popped) (withQueue ⟨true, 1, 2, [], 0⟩ s) 3 = 0xFFFFFFFE := by decide +kernel
theorem test_wq_drop : (after (.wqCtlWrite 5 0) (withQueue ⟨true, 1, 0, [], 0⟩
    { mem [] with streams := [{ thread 0 [] with park := .wqpop 5 popped }] })).streams.map (fun st => st.rd 3) = [0xFFFFFFFF] := by decide +kernel

/-- CollectivesOpenAndReport: a barrier of one member at 0x2000. -/
def barrierAt : State :=
  { inJob (mem [(4, 0x2000)]) with mem := [(0x2000, 5), (0x200C, 1), (0x2010, 1)] }
def collective : CollOp := ⟨always, 3, 4, false, false, .thr, 0⟩
theorem test_meets_coll : let s := barrierAt
    (s.stream (lane 0)).cnt.cp < 254 ∧ s.nearPending [lane 0] 0b00011 = false ∧ s.vt.migrateMode = false ∧ s.jobOf 1 = some 0 ∧
    s.recordAddr (s.stream (lane 0)) 0x2000 = 0x2000 ∧ s.instOf 1 0x2000 = none ∧
    (match (checkColl 0 1 0x2000 true).run s with | (.ok _, _) => true | _ => false) = true ∧
    (match (checkColl 0 1 0x3000 true).run s with | (.error _, _) => true | _ => false) = true ∧
    ((after (.coll collective) s).instOf 1 0x2000).isSome = true := by decide +kernel
theorem test_coll : reads (.coll collective) barrierAt 3 = 0 ∧ ((after (.coll collective) barrierAt).stream (lane 0)).cnt.cp = 1 ∧
    reads (.coll collective) (after (.coll collective) barrierAt) 3 = 0xFFFFFFFF ∧ reads (.cabort popped) barrierAt 3 = 1 ∧
    ((after (.cstat popped) barrierAt).stream (lane 0)).rd64 3 = 0xFFFFFFFFFFFFFFFF := by decide +kernel
/-- CollectiveInstancesProceed: member 0 of a sum of two members, whose chunk 0 waits for member 1. -/
def sum2 : CollDesc := ⟨0, 0, 0, 0, 2, 0, 1, none, 1, 0, 0x4000, 0x5000, 1, 0, 50000, none, 0⟩
def tag2 : CollTag := ⟨9, 0, [0, 1], 0, 0, 0, 0, 1, 1⟩
def folding (staged : List (Nat × List Byte)) : Inst :=
  ⟨0, 0, 1, 0, 0, 0x2000, sum2, tag2, [0], 0, some (lane 0), none, false,
    [⟨0, true, [0, 0, 0x80, 0x3F], none, 0, staged, 0, false, true⟩], [], [], none, false, false, 0⟩
def summing (i : Inst) : State := { inJob (mem []) with co := { State.resetColls with insts := [i] }, clock := ⟨0, 4 * 200000000⟩ }
theorem test_meets_instances : let i := folding [(1, [0, 0, 0, 0x40])]
    (summing i).inst? 0 = some i ∧ (sum2.stages 0 0)[0]? = some ⟨some 1, true, false, []⟩ ∧ sum2.virtuals = 1 ∧
    ((i.chunk 0).staged.find? fun y => y.1 = 1).map (·.2) = some [0, 0, 0, 0x40] ∧ i.complete = false ∧
    (folding []).waitsFor ((folding []).chunk 0) = some 1 ∧ 0 + sum2.timeout * 1000 < (summing i).gts ∧
    (summing i).holdsEntry i 0 = true ∧ (i.chunk 0).fired = true ∧ sum2.workq = none ∧
    (summing i).collCheck ⟨tag2, 1, 2, true⟩ = none ∧ (summing i).collCheck ⟨tag2, 1, 1, true⟩ = some 3 ∧
    (summing i).partner tag2 = some i ∧ (summing i).partner { tag2 with k := 1 } = none ∧
    (summing i).partner { tag2 with total := 2 } = some i ∧ i.tag ≠ { tag2 with total := 2 } ∧
    ([Forward.mk 0 1 5].findIdx? fun f => f.chunk == 1 - sum2.virtuals && f.member == 1) = some 0 ∧
    ((summing i).stream? (lane 0)).isSome = true ∧ (∀ o ∈ (summing i).ops, o.phase ≠ .left) ∧ { i with aborted := some (0x41, 1, 1) }.aborted ≠ none := by
  decide +kernel
theorem test_meets_buffers : (∀ va ∈ sum2.pages, ∃ c, (summing (folding [])).checkPage ((summing (folding [])).unit 0 1) .load va = .ok c ∧ c.loc.space = .dev) ∧
    (∃ va ∈ sum2.pages, ∀ c, (readOnly 2).checkPage ((readOnly 2).unit 0 1) .load va ≠ .ok c) := by
  refine ⟨?_, 0x4000, by decide, fun c h => ?_⟩
  · intro va h
    rw [show sum2.pages = [0x4000, 0x5000] by decide, List.mem_cons, List.mem_singleton] at h
    rcases h with rfl | rfl
    · exact ⟨checked (dev 0x4000) 0x4000, by decide +kernel, by decide⟩
    · exact ⟨checked (dev 0x5000) 0x5000, by decide +kernel, by decide⟩
  · have : (match (readOnly 2).checkPage ((readOnly 2).unit 0 1) .load 0x4000 with | .ok _ => false | _ => true) = true := by decide +kernel
    rw [h] at this
    exact Bool.false_ne_true this
theorem test_mismatch : (after (.millerStep (.packet ⟨{ tag2 with total := 2 }, 1, 2, true⟩) 0 none) (summing (folding []))).co.insts.map
    (fun i => i.aborted) = [some (0x41, 0, 0)] ∧
    (after (.millerStep (.packet ⟨tag2, 1, 2, false⟩) 0 none) (summing (folding []))).outbox = [.collNack tag2 1 4] := by decide +kernel
theorem test_step_timeout : (after (.stepTimeout 0 1) (summing (folding []))).co.insts.map (fun i => i.aborted) = [some (0x40, 1, 1)] := by
  decide +kernel
theorem test_instance_final : ((after (.instanceFinal 0) (summing { folding [] with aborted := some (0x41, 1, 1) })).stream (lane 0)).slots.cp =
    some ⟨0x41, 0⟩ := by decide +kernel

/-- MulticastsAreSentAndAnswered: group 0 of pod indices 0 and 1. -/
def grouped : State :=
  { inJob (mem [(4, 0x2000), (6, 0), (8, 0x4000), (9, 0x80000000), (10, 64), (11, 0xFFFFFFFF), (16, 0x4000), (17, 0x80000000), (19, 0xFFFFFFFF)]) with
    mem := [(0x8000, 3), (0x8044, 1), (0x8047, 0x80)], co := { State.resetColls with mcgLo := 0x8000 }
    tokens := [⟨1, 1, 0, grant⟩] }
theorem test_meets_multicast : let s := grouped
    (s.stream (lane 0)).cnt.cp < 254 ∧ s.nearPending [lane 0] 0b11111 = false ∧ (s.groupsOf [lane 0]).length ≤ 1 ∧ s.links.anyPort = true ∧
    (match s.mcArgs (s.stream (lane 0)) 6 8 false true with | .ok a => a.len == 64 && a.own == 0 && a.group.members == [0, 1] | _ => false) = true ∧
    (match s.mcArgs (s.stream (lane 0)) 6 16 true true with | .ok _ => true | _ => false) = true ∧
    s.copyRange (s.stream (lane 0)) 0x2000 64 = .ok 0x2000 ∧
    (match s.mcastRead 0 0 1 (pieces 0x2000 64) with | (.ok _, _) => true | _ => false) = true ∧
    (match ({ s with vt := { s.vt with poison := [0x2000] } } : State).mcastRead 0 0 1 (pieces 0x2000 64) with
      | (.error _, _) => true | _ => false) = true := by decide +kernel
theorem test_mcst : (after (.mcst always 6 4 false 8) grouped).co.mcasts.map (fun m => m.members) = [[(1, none)]] ∧
    (after (.mcput always 6 4 false 16) grouped).outbox = [.mcast 1 0 [(1, grant)] [(0x8000000000004000, [0, 0x20, 0, 0])] 0xFFFFFFFF] := by
  decide +kernel
def cast (answer : Option (BitVec 8)) : Mcast := ⟨7, lane 0, 0, 1, 0, [(1, answer)], 0, 0, 0, false, false⟩
def casting (m : Mcast) : State := { grouped with co := { State.resetColls with mcasts := [m] } }
theorem test_meets_answers : ((casting (cast none)).co.mcasts.find? fun c => c.num = 7) = some (cast none) ∧
    { cast (some 0) with answered := true }.answered = true ∧ (casting (cast none)).gts < 0 + 100000000 ∧ (∀ x ∈ (cast (some 0)).members, x.2 ≠ none) ∧ (cast (some 5)).err = some ⟨0x20, 5⟩ ∧
    ((casting (cast none)).stream? (lane 0)).isSome = true := by decide +kernel

/-- SharesAndSoftErrors. -/
theorem test_meets_shares : let s := { mem [] with teams := [{ placedTeam with recd := { placedTeam.recd with vaultKib := 1 } }] }
    (mem []).ownsAsid 0 1 = false ∧ (master []).ownsAsid 0 0 = true ∧ ((mem []).share 200).role = .free ∧ ((mem []).share 0).role = .vault ∧
    (mem []).shareHeld 0 = false ∧ s.shareHeld 0 = true ∧ ((mem []).share 5).role = .member ∧ shareOf 0x100 = 0 ∧
    ((mem []).share 0).errors = 0 ∧ s.curTeam.vaultBase.toNat < 0x100 / 128 * 128 + 128 ∧
    0x100 / 128 * 128 < s.curTeam.vaultBase.toNat + s.curTeam.recd.vaultKib * 1024 := by decide +kernel
theorem test_meets_busy_share : (mem [] [pending .store (bank 8) 5 1]).vaultBusy (shareAddr 0) 65536 = true ∧
    (mem []).vaultBusy (shareAddr 0) 65536 = false ∧ (mem []).vt.waiters = [] ∧ ((mem []).teams.map Team.tcx).Nodup := by decide +kernel
theorem test_joiner : ((after (.joinGrant 200 0) (master [])).share 200).role = .vault ∧
    (after (.joinQuery 0) (mem [])).vt.joinStat = 0x10000001 ∧ (after (.joinRelease 5) (mem [])).vt.joinStat = 0x20120000 ∧
    (after (.uncorrectableError (.hbm 0x123)) (mem [])).vt.poison = [0x120] := by decide +kernel

/-- CachesAreDefinedAndMigrate: a replicated cache of share 201 of cluster 0, and a record at 0x2000 for share 200. -/
def small (state : VcState) : VCache := ⟨5, .normal, true, .back, 1, 64, [(0, [201])], state⟩
def caching (state : VcState) (regs : List (Nat × Word)) (lines : List Line) : State :=
  { mem regs with
    mem := [(0x2000, 0x80), (0x2001, 1), (0x2008, 1), (0x2011, 0x30), (0x3019, 1)]
    vt := { vaults with shares := vaults.shares ++ [(201, some ⟨.member, 0, 5, 0⟩)], caches := [small state], lines := lines } }
def moving (lines : List Line) : State :=
  let s := caching (.migrating 1 0 false) [] lines
  { s with vt := { s.vt with shares := [(201, some ⟨.leaving, 0, 5, 0⟩)] } }
def held (share : Nat) (dirty : Bool) (prio : Prio) : Line := ⟨5, some 0, 0x1000, List.replicate 64 7, dirty, prio, none, share, 0, 0, []⟩
theorem test_meets_caches : let s := caching .defined [(4, 0x2000)] []
    s.recordAddr (s.stream (lane 0)) 0x2000 = 0x2000 ∧ plain00 0x2000 = true ∧ s.cache? 6 = none ∧
    (match s.readCdr 0 1 0x2000 6 with | (.ok c, t) => c.shares == [200] && (t.share 200).role == .free | _ => false) = true ∧
    (match s.readCdr 0 1 0x3000 6 with | (.error _, _) => true | _ => false) = true ∧
    s.cache? 5 = some (small .defined) ∧ (match s.readCdr 0 1 0x2000 5 with
      | (.ok n, t) => n.line == 64 && n.repl && n.wpol == .back && t.cache? 5 == some (small .defined) | _ => false) = true ∧
    (caching .removing [] []).cache? 5 = some (small .removing) ∧ s.vcInUse 5 = false ∧ s.cur.lanes = [lane 0] := by decide +kernel
theorem test_vcdef : let s := caching .defined [(4, 0x2000)] []
    reads (.vcdef always 3 4 6) s 3 = 0 ∧ ((after (.vcdef always 3 4 6) s).share 200).role = .member ∧ reads (.vcdef always 3 4 5) s 3 = 1 ∧
    reads (.vcmig always 3 4 0 5) s 3 = 0 ∧ ((after (.vcmig always 3 4 0 5) s).share 201).role = .leaving := by decide +kernel
theorem test_meets_migration : let c := small (.migrating 1 0 false)
    (moving [held 201 false .first]).cache? 5 = some c ∧ ((moving [held 201 false .first]).share 201).role = .leaving ∧
    (moving []).leavingShares 5 = [201] ∧ (∀ o ∈ (moving []).ops, o.phase ≠ .waiting) ∧ (moving []).vt.waiters = [] := by decide +kernel
/-- A dirty line of higher priority in the set that a line of a LEAVING share would move to, whichever set that is. -/
def crowded (set : Nat) : State := moving [held 201 false .first, { held 200 true .last with base := 0x2000, set := set }]
theorem test_meets_no_move : let c := small (.migrating 1 0 false)
    (crowded (c.setOf 0x1000 0)).mayMove c (held 201 false .first) = false := by
  intro c
  have h : ∀ n, (crowded n).fillShares c (some 0) = [] := fun n => rfl
  have hl : ∀ n, (crowded n).vt.lines.filter ((crowded n).inSet c (some 0) n) = [{ held 200 true .last with base := 0x2000, set := n }] := by
    intro n
    have h1 : (crowded n).inSet c (some 0) n (held 201 false .first) = false := by
      have : (((crowded n).share 201).role.leaves) = true := rfl
      simp [State.inSet, held, this]
    have h2 : (crowded n).inSet c (some 0) n { held 200 true .last with base := 0x2000, set := n } = true := by
      have : (((crowded n).share 200).role.leaves) = false := rfl
      simp [State.inSet, held, this, c, small]
    show List.filter _ [_, _] = _
    simp [h1, h2]
  simp only [State.mayMove, show (held 201 false .first).rep = some 0 from rfl, show (held 201 false .first).base = 0x1000 from rfl, h,
    List.length_nil, hl]
  rfl
theorem test_migration_end : ((after (.migrationEnd 5) (moving [])).share 201).role = .free := by decide +kernel

/-- SegmentDirectoryTransitions. -/
def ofSegment (d : Dir) (lines : List Line) (k : OpKind) (phase : OpPhase) : State :=
  let s := caching .defined [] lines
  { s with vt := { s.vt with dirs := [(1, d)] }, ops := [{ pending k ⟨.dev, 0x1000, 5, false⟩ 0x99 1 with phase := phase }] }
theorem test_meets_directory : let s := ofSegment (.O 0) [held 201 true .normal] .store .issued
    s.cache? 5 = some (small .defined) ∧ (s.stream? (lane 0)).isSome = true ∧ (∀ o ∈ s.ops, s.performable o = true ∧ (small .defined).replica o.cluster = 0) ∧
    s.quiet 0 0x1000 4 = true ∧ s.dir (segOf 0x1000) = .O 0 ∧ (s.line? 5 (some 0) 0x1000).isSome = true ∧
    (ofSegment (.S [0]) [held 201 true .normal] .store .left).holds 1 0 = true ∧ (ofSegment .I [] (.load false) .issued).line? 5 (some 0) 0x1000 = none ∧
    (∀ o ∈ (ofSegment .I [] (.load false) .issued).ops, o.reads = true ∧ o.writes = false) ∧
    (ofSegment .I [] (.load false) .issued).fillShares (small .defined) (some 0) = [201] ∧
    (∀ o ∈ (ofSegment (.S [0, 3]) [] (.sg true) .issued).ops, (ofSegment (.S [0, 3]) [] (.sg true) .issued).performable o = true) := by decide +kernel
theorem test_meets_transit : let s := ofSegment (.T [] (some 0)) [] (.sg true) .left
    s.sgWaiting 1 = [{ pending (.sg true) ⟨.dev, 0x1000, 5, false⟩ 0x99 1 with phase := .left }] ∧ s.op? 0 ≠ none ∧
    s.DirRoom 1 ∧ (ofSegment .I [] .store .issued).DirRoom 1 := by
  refine ⟨by decide +kernel, by decide +kernel, Or.inl (by decide +kernel), Or.inl (by decide +kernel)⟩
theorem test_transit_ends : (after (.dirTransitEnd 1) (ofSegment (.T [] (some 0)) [] (.sg true) .left)).ops = [] := by decide +kernel
theorem test_dir_store : (after (.dirStore 0) (ofSegment (.O 0) [held 201 false .normal] .store .issued)).vt.lines.map (fun l => (l.dirty, l.byte 0x1000)) =
    [(true, 0x99)] ∧ (after (.dirReadMiss 5 0 0x1000) (ofSegment .I [] (.load false) .issued)).dir 1 = .S [0] ∧
    memRead (after (.dirStore 0) (ofSegment .I [] .store .left)).mem 0x1000 = 0x99 := by decide +kernel
theorem test_dir_acquire : (after (.dirSgacq 0) (ofSegment (.S [0, 3]) [] (.sg true) .issued)).dir 1 = .T [] (some 0) := by decide +kernel
/-- FencesAndCounters: a page under a replicated cache. -/
theorem test_meets_segment : let s := caching .defined [(4, 0x1000)] []
    let t := { s with tr := { s.tr with tlb := [⟨.core 0, 1, 0, ⟨5, 0, 0, 30, true, true, true, true, true⟩⟩] } }
    (match t.sgCheck true (lane 0) 0x1000 with | .ok (some _) => true | _ => false) = true := by decide +kernel

/-! ### Witnesses: the first failing lane is not the lowest -/

def pairOf (regs regs1 : List (Nat × Word)) : State := { mem [] with
  streams := [thread 0 regs, thread 1 regs1], cur := ⟨[lane 0, lane 1], 0x1000, 0x1008⟩
  teams := [{ placedTeam with recd := { placedTeam.recd with teamX := 16 } }] }
/-- SelectionComparisonAndMoves, BranchesAndLinks, AccessesIssueOrTrap. -/
theorem test_meets_later_lane : let s := pairOf [(2, 0x2000), (4, 1)] [(2, 0x2004), (4, 2), (6, 0x2002)]
    s.active always = [lane 0, lane 1] ∧
    s.active always = [] ++ lane 0 :: [lane 1] ∧
    (s.active always).find? (fun id => (targetTrap ((s.stream id).rd64 2)).isSome) = some (lane 1) ∧
    targetTrap ((s.stream (lane 1)).rd64 2) = some cAlignment ∧
    (s.active always).find? (fun id => 1 < ((s.stream id).rd 4).toNat) = some (lane 1) ∧
    (s.active always).find? (fun id => s.ownRegs id ≤ ((s.stream id).rd 4).toNat + 238) = some (lane 1) ∧
    (s.active always).find? (fun id => (targetTrap (brmTarget 0x200000000000000 0x1008 (s.stream id) [(4, true, 1)])).isSome) = some (lane 1) ∧
    (s.active always).find? (fun id => match s.checkAt id .load allClasses ((s.stream id).rd64 6) 4 4 with
      | .error _ => true | .ok _ => false) = some (lane 1) ∧
    s.checkAt (lane 1) .load allClasses ((s.stream (lane 1)).rd64 6) 4 4 = .error (.trap cAlignment 0x2002) := by decide +kernel
theorem test_later_lane : ((after (.ld { blankAcc with s1 := 6 }) (pairOf [] [(6, 0x2002)])).stream (lane 1)).trap.pc = 0x1000 ∧
    ((after (.ld { blankAcc with s1 := 6 }) (pairOf [] [(6, 0x2002)])).stream (lane 1)).trap.cause = cAlignment := by decide +kernel
/-- BranchesAndLinks: `jtab` fails at lane 1, whose index is in the table, where lane 0 takes the default. -/
theorem test_meets_jtab_lane : let s := pairOf [(2, 9)] [(2, 0), (4, 0x2002)]
    s.active always = [lane 0] ++ lane 1 :: [] ∧ 3 < ((s.stream (lane 0)).rd 2).toNat ∧ ((s.stream (lane 1)).rd 2).toNat ≤ 3 ∧
    (match s.checkAt (lane 1) .load ⟨true, true, false⟩ ((s.stream (lane 1)).rd64 4 + 4 * ((s.stream (lane 1)).rd 2).setWidth 64) 4 4 with
      | .error _ => true | _ => false) = true := by decide +kernel

/-! ### ExitAndJoinSlots, AccessesIssueOrTrap, FullEmptyWords, RangesAndQueries, FencesAndCounters -/

theorem test_exit_delivers : let s := counting ⟨0, 0, 0, 0⟩ (some ⟨cLinkLost, 0⟩)
    (s.stream (lane 0)).slots.get 0 = none ∧ ((after (.exit always) s).stream (lane 0)).trap.cause = cLinkLost ∧
    ((after (.exit always) s).stream (lane 0)).slots.st = none ∧ ((after (.exit always) s).stream (lane 0)).exited = false := by decide +kernel
theorem test_meets_jset : let s := { joined 3 with streams := [thread 0 [(4, 2)], { thread 1 [] with park := .join 5 false }] }
    s.cur.lanes.head?.map SId.tcx = some 0 ∧ ((s.stream (lane 1)).inGroup (s.team 0) 0) = true ∧
    ((after (.jset always 5 (some (4, false)) false) s).team 0).slot 0 5 = ⟨2, 0⟩ := by decide +kernel
/-- A page of another device of the pod, or of the host's CXL expander. -/
def farPage (target base : Nat) (up : Bool) : State :=
  { mem [(4, 0x2000)] with
    tr := { pages with tlb := [⟨.core 0, 1, 0, ⟨0, target, base, 30, true, true, true, true, true⟩⟩] }
    links := { State.reset.links with cxlUp := up } }
theorem test_meets_far : (match (farPage 1 0 true).checkAt (lane 0) .load allClasses 0x2000 4 4 with
      | .ok c => c.walked.isNone && c.loc.space == .pod && decide (c.loc.key < 2 ^ 63) &&
        (farPage 1 0 true).farWait false .rlx 0 [(lane 0, c)] == .go && !(farPage 1 0 true).replyFull 0 [(lane 0, c)] | _ => false) = true ∧
    (match (farPage 2 (2 ^ 51) true).checkAt (lane 0) .load allClasses 0x2000 4 4 with
      | .ok c => c.loc.cxl && c.walked.isNone | _ => false) = true ∧
    (after (.ld blankAcc) (farPage 2 (2 ^ 51) true)).ops.map (fun o => o.phase) = [.sent 0 1 none] ∧
    (after (.ld blankAcc) (farPage 2 (2 ^ 51) false)).ops.map (fun o => o.phase) = [.failed cLinkLost 0] := by decide +kernel
theorem test_meets_fe_order : let x := fun (s : State) => { s.mkOp ⟨.fe .ldvw, 3, 4, .rlx, false, .thr, 0, .none, 0⟩ [⟨lane 0, 0, 0⟩] none
      (checked (bank 8) 0x4000000000000008) with num := 1 }
    trapping.mayPerform (x trapping) = true ∧
    { trapping with ops := [pending (.fe .stvf) (bank 8) 5 1] }.mayPerform (x { trapping with ops := [pending (.fe .stvf) (bank 8) 5 1] }) = false ∧
    ((after (.ldvw blankAcc) { trapping with ops := [pending (.fe .stvf) (bank 8) 5 1] }).stream (lane 0)).pc = 0x1000 := by decide +kernel
theorem test_meets_query_port : (mem []).portKey (lane 0) 0xF0 = none ∧
    (let s := { mem [(4, 0x2000)] with teams := (bound []).teams, qu := (bound []).qu }
     s.portKey (lane 0) 0xF0 = some 9 ∧ 0 < s.freeOf 9 ∧
      ((after (.vcq ⟨always, 0xF0, 4, false⟩) s).queue 9).entries.length = 1 ∧
      (after (.vcq ⟨always, 0xF0, 4, false⟩) s).ops.map (fun o => o.entry.isSome) = [true]) ∧
    ((after (.vcq ⟨always, 0xF0, 4, false⟩) (mem [(4, 0x2000)])).stream (lane 0)).trap.cause = cIllegalOperand := by decide +kernel
theorem test_meets_waitc_far : (mem [(4, 0x2000)]).farWait true .acq 0 [(lane 0, checked (dev 0x2000) 0x2000)] = .go ∧
    (mem []).dir (segOf 0x2000) = .I := by decide +kernel

/-! ### PortsAndSubmissions, TeamsAndGridsRetire, GraphNodes -/

theorem test_meets_node_launch : (match (readLaunch 0 1 0x3001).run (ported []) with | (.error _, _) => true | _ => false) = true ∧
    (match (readLaunch 0 1 0x3000).run (ported []) with
      | (.ok bs, s2) => doneCtrOf bs == none && (match (launchOf 0 1 0x3000 true bs).run s2 with | (.error _, _) => true | _ => false)
      | _ => false) = true ∧
    (match (readLaunch 0 1 0x3000).run { ported [] with mem := record } with
      | (.ok bs, s2) => (match (launchOf 0 1 0x3000 true bs).run s2 with | (.ok info, _) => info.coll == none | _ => false)
      | _ => false) = true := by decide +kernel
/-- A grid whose teams have all retired, an instance of node 5. -/
def ending (failed : Option (BitVec 8)) (origin : Origin) (parent : Option Nat) : State :=
  let g := grid 0 1 none
  let s := graph (node 1 2 true false) false
  { s with loom := { s.loom with
      grids := [{ g with retired := 1, failed := failed, origin := origin, recd := { g.recd with doneCtr := 0x4000, parent := parent } }] } }
theorem test_meets_grid_end : ((ending none (.node 5) none).grid? 0).any (fun g => decide (g.recd.teams ≤ g.next) && decide (g.recd.teams ≤ g.retired)) = true ∧
    ((ending none (.node 5) none).node? 5).isSome = true ∧ (some 5).bind (ending none (.port 0 0) (some 5)).node? ≠ none := by decide +kernel
theorem test_grid_end : let t := after (.gridRetire 0) (ending none (.node 5) none)
    t.loom.completions = [5, 6, 7] ∧ (t.node? 5).any (fun n => !n.running && n.runs == 1) = true ∧ memRead t.mem 0x4000 = 1 ∧
    (after (.gridRetire 0) (ending none (.port 0 0) (some 5))).loom.completions = [5, 5] ∧
    ((after (.gridRetire 0) (ending (some 0x30) (.node 5) none)).port 0 0).gCause = 0x30 := by decide +kernel

/-- GraphNodes: the copy of 64 bytes, the kernel of `record`, whose bytes stand at 0x3000, and a collective. -/
def instanceOf (typ : Nat) (payload arg aux : DWord) : State :=
  let s := graph { node typ 1 false false with payload := payload, arg := arg, aux := aux } false
  { s with mem := record }
theorem test_meets_node_instances : let k := instanceOf 1 0x3000 0 0
    (match (readLaunch 0 1 0x3000).run k with
      | (.ok bs, s2) => (match (launchOf 0 1 0x3000 true bs).run s2 with
        | (.ok info, s3) => info.coll == none && !info.recd.coteam && s3.levelRoom info.recd.level && s3.loom.held.isEmpty
        | _ => false)
      | _ => false) = true ∧
    (match (readLaunch 0 1 0x3001).run k with | (.error _, _) => true | _ => false) = true ∧
    (64 : DWord).getLsbD 63 = false ∧ ((64 : DWord).extractLsb' 0 40).toNat ≠ 0 ∧ k.stream? ⟨65536, .control, 5⟩ = none ∧
    k.levelRoom 1 = true ∧
    (match (readMap 0 1 0x3000).run k with
      | (sm, s2) => (match (checkMaps sm sm).run s2 with | (.error _, _) => true | _ => false)) = true ∧
    k.instOf 1 0x2000 = none ∧ (match (checkColl 0 1 0x3000 true).run k with | (.error _, _) => true | _ => false) = true := by decide +kernel
theorem test_node_instances : ((after (.nodeInstanceRun 5) (instanceOf 1 0x3000 0 0)).loom.grids.map fun g => (g.origin, g.recd.addr)) = [(.node 5, 0x3000)] ∧
    ((after (.nodeInstanceRun 5) (instanceOf 2 0x3000 64 0x4000)).dr.copies.map fun c => (c.id, c.dst, c.len)) = [(⟨192, 5⟩, 0x4000, 64)] ∧
    ((after (.nodeInstanceRun 5) (instanceOf 3 0x3000 0 0)).port 0 0).gReject ≠ 0 := by decide +kernel

/-! ### FunctionsEventsAndLinks -/

def hostRead : MemOp := { far (.load false) ⟨.host, hostKey, 0, false⟩ with counter := 0 }
theorem test_meets_host_loss : (linked true [hostRead]).ops.filter (fun o => o.loc.space == .host && !o.loc.cxl && o.reads) = [hostRead] ∧
    hostRead.lanes = [⟨lane 0, 1, 0⟩] ∧ hostRead.entry = none ∧ hostRead.d ≠ 0 ∧ ((linked true [hostRead]).stream (lane 0)).window = none ∧
    (linked true [hostRead]).dr.copies = [] := by decide +kernel
theorem test_host_loss : let t := after .hostLinkLoss (linked true [hostRead])
    (t.stream (lane 0)).rd 3 = 0xFFFFFFFF ∧ (t.stream (lane 0)).slots.ld = some ⟨0x23, 0⟩ ∧ t.ops = [] := by decide +kernel
theorem test_host_returns : let e : EvRec := ⟨1, 4, 5, 0⟩
    let s := { linked false [] with hif := { (linked false []).hif with held := [e, e] } }
    (s.hif.evtHead + 2 ^ 32 - s.hif.evtTail) % 2 ^ 32 + 2 ≤ 2 ^ (s.hif.evtCtl.toNat % 16 + 6) ∧ s.hif.evtCtl.getLsbD 31 = true ∧
    (after .hostLinkUp s).hif.evtHead = (s.hif.evtHead + 2) % 2 ^ 32 ∧ (after .hostLinkUp s).hif.held = [] := by decide +kernel
theorem test_meets_sources : eventSource 0x500 = true ∧ eventSource 0xFFFF = false := by decide +kernel
/-- A load of the pod, which port 3 carries. -/
def carried : State := linked true [{ far (.load false) ⟨.pod, podKey + 64, 0, false⟩ with phase := .sent 0 1 (some 3) }]
theorem test_port_moves : ({ carried with links := { carried.links with ports := carried.links.ports.set 3 false } } : State).links.anyPort = true ∧
    (after (.ualinkPortDown 3) carried).ops.length = 1 ∧ (after (.ualinkPortDown 4) carried).ops = carried.ops := by decide +kernel
theorem test_meets_deadline : let s := fun (q : Nat) => { linked true [{ hostRead with loc := ⟨.host, hostKey + 2 ^ 51, 0, true⟩ }] with clock := ⟨0, q⟩ }
    (s 0).gts ≤ 0 + ((s 0).hif.cxlTimeout + 1) * 1000000 ∧ 0 + ((s 0).hif.cxlTimeout + 1) * 1000000 < (s 4000000000).gts ∧
    after (.cxlCompletion 0) (s 4000000000) = s 4000000000 := by decide +kernel

/-! ### PowerTimeAndResets, TranslationMaintenance, WindowsResolve, CarterStreamsAndTransfers -/

theorem test_meets_limits : idle.tolerance = some 1015808 ∧ 2000 ≤ 1015808 ∧ (1 : Nat) ∉ [4] ∧ (after (.powerLimit [1] none) idle).pwr.gated = [] := by
  decide +kernel
theorem test_meets_unplaced : (one []).unplaced (((one []).active always).flatMap fun id => ((one []).stream id).oldPackets) = [] := by decide +kernel
def knownPath : State :=
  among [{ thread 0 [(3, 9)] with
    window := some ⟨0, 0x1000, true, 0x2000, 0x1008, ⟨true, 5, false⟩, none, none, [], none, .last, [(4, 4)], 0, 0, false, [(0x1008, [(8, 8)])]⟩ }]
theorem test_known_path : ((after (.predicateResolve (lane 0)) knownPath).stream (lane 0)).path = [(0x1000, 0x1008), (8, 8)] := by decide +kernel
theorem test_stall_parks : let s := { stuck with streams := [{ thread 0 [] with stall := some 0, short := some 0 }] }
    (s.queuePark (s.stream (lane 0))).isSome = true ∧ ((after (.queueStallPark (lane 0)) s).stream (lane 0)).park ≠ .none ∧
    (after (.queueStallPark (lane 0)) stuck).streams = stuck.streams := by decide +kernel

/-- TileOperationsExecute: a drain of one row to memory, and to a queue, and a multiply whose rows come from a queue. -/
def draining (queue : Option Nat) (mem : List (List (DWord × Loc × Nat))) (es : List QEntry) : State :=
  let o := { tileOp (.drain false) (some 3) 1 with num := 0, queue := queue, mem := mem }
  { matrix [] (named (plane 0 0)) [o] with qu := ⟨[(9, ⟨es, 0⟩)], 1, []⟩ }
theorem test_meets_drains : let o := { tileOp (.drain false) (some 3) 1 with queue := some 9 }
    (draining (some 9) [] []).mx.ops = [o] ∧ o.moved = 0 ∧ (draining (some 9) [] []).qu.xfers = [] ∧ 0 < ((draining (some 9) [] []).team 0).recd.groupW ∧
    ((draining (some 9) [] []).queue 9).free = 16 ∧ ((draining (some 9) [] (List.replicate 16 (full []))).queue 9).free = 0 ∧
    ((List.range 1).map (drainRow o ((draining (some 9) [] []).tile 0 3))).flatten.length = 512 ∧
    (draining none [[(0x2000, dev 0x2000, 512)]] []).nextTileOp 0 = some { o with queue := none, mem := [[(0x2000, dev 0x2000, 512)]] } ∧
    (draining none [] []).keyDown 0x2000 = false ∧ (∀ x ∈ (draining none [] []).ops, x.phase ≠ .left) := by decide +kernel
theorem test_drains : ((after (.tileOpExecute 0) (draining (some 9) [] [])).queue 9).ready = 8 ∧
    ((after (.tileOpExecute 0) (draining (some 9) [] [])).mx.ops = []) ∧
    memReadN (after (.tileOpExecute 0) (draining none [[(0x2000, dev 0x2000, 4)]] [])).mem 0x2000 4 = [0, 0, 0x80, 0x3F] := by decide +kernel

/-- WorkQueuesHoldTheirEntries: the push of the last chunk of a final instance, alone and behind another that became final before it. -/
def pushing (num seq : Nat) (pushes : List Nat) : Inst :=
  { folding [] with num := num, desc := { sum2 with workq := some 5 }, pushes := pushes, final := true, seq := seq, opener := none }
theorem test_chunk_push : let one := withQueue ⟨true, 1, 0, [], 0⟩ (summing (pushing 0 4 [7]))
    let s := { one with co := { one.co with insts := [pushing 0 4 [7]] } }
    let two := { one with co := { one.co with insts := [pushing 0 4 [7], pushing 1 3 [8]] } }
    (s.wq 5).isOpen = true ∧ ((after (.wqChunkPush 0 7) s).wq 5).entries = [7] ∧ ((after (.wqChunkPush 0 7) s).wq 5).state = 1 ∧
    ((after (.wqChunkPush 0 7) two).wq 5).state = 0 ∧
    ((after (.wqChunkPush 1 8) (after (.wqChunkPush 0 7) two)).wq 5).entries = [7, 8] ∧
    ((after (.wqChunkPush 1 8) (after (.wqChunkPush 0 7) two)).wq 5).state = 1 := by decide +kernel

/-- MulticastsAreSentAndAnswered: the word of one OK answer at 0x4000, and the source counter at 0x4010. -/
def acked : Mcast := { cast (some 0) with ack := 0x4000, srcCtr := 0x4010 }
theorem test_meets_ack : let s := casting acked
    (match s.checkPage (s.unit 0 1) .store 0x4000 with | .ok x => x.loc.space == .dev && !s.keyDown x.loc.key && (s.cache? x.loc.vcid).isNone | _ => false) = true ∧
    (∀ o ∈ s.ops, o.phase ≠ .left) := by decide +kernel
theorem test_ack : let t := after (.mcastAck 7) (casting acked)
    memReadN t.mem 0x4000 8 = [1, 0, 0, 0, 0, 0, 0, 0x80] ∧ memRead t.mem 0x4010 = 1 ∧ t.co.mcasts.map (fun c => c.answered) = [true] := by
  decide +kernel

/-- CachesAreDefinedAndMigrate: a sweep of a dirty line that moves to share 202, and one that writes it back. -/
def sweeping (map : List Nat) : State :=
  let s := moving [held 201 true .first]
  { s with vt := { s.vt with
      caches := [{ small (.migrating 1 0 false) with map := [(0, map)] }]
      shares := [(201, some ⟨.leaving, 0, 5, 0⟩), (202, some ⟨.member, 0, 5, 0⟩)] } }
theorem test_meets_sweep : let c := { small (.migrating 1 0 false) with map := [(0, [202])] }
    (sweeping [202]).cache? 5 = some c ∧ (sweeping [202]).fillShares c (some 0) = [202] ∧
    (sweeping [202]).line? 5 (some 0) 0x1000 = some (held 201 true .first) ∧ 0 < c.setsPerShare ∧
    (∀ n, (sweeping [202]).vt.lines.filter ((sweeping [202]).inSet c (some 0) n) = []) ∧
    (sweeping [202]).keyDown 0x1000 = false := by
  refine ⟨by decide +kernel, by decide +kernel, by decide +kernel, by decide +kernel, fun n => ?_, by decide +kernel⟩
  have h : ((sweeping [202]).share 201).role.leaves = true := by decide +kernel
  show List.filter _ [held 201 true .first] = _
  simp [State.inSet, held, h]
/-- CopiesIssueAndReport: maps of zeros at 0x2000 and 0x3000, and a block of origins at 0x4000. -/
theorem test_meets_maps : let s := mem [(8, 0x2000), (10, 0x3000), (12, 0x4000)]
    (match s.originBlock (s.stream (lane 0)) 0x4000 (List.range 16) with
      | (.ok bs, s1) => bs.length == 128 && (match (readMap 0 1 (s1.recordAddr (s.stream (lane 0)) 0x3000)).run s1 with
        | (sm, sA) => (match (readMap 0 1 (s1.recordAddr (s.stream (lane 0)) 0x2000)).run sA with
          | (dm, sB) => !originBad sm (originsAt bs 0) && !originBad dm (originsAt bs 0x40) && (sB.freeEntry 0).isSome &&
            (match (checkMaps sm dm).run sB with | (.error _, _) => true | _ => false)))
      | _ => false) = true := by decide +kernel

/-! ContextsMove: an image of 2 MiB at 0x200000, whose bytes beyond the tag are free values. -/
theorem memReadN_add (m : List Host.Cell) (k a b : Nat) : memReadN m k (a + b) = memReadN m k a ++ memReadN m (k + a) b := by
  induction a generalizing k with
  | zero => simp [memReadN]
  | succ a ih =>
    rw [show a + 1 + b = a + b + 1 by omega, memReadN, ih, show k + 1 + a = k + (a + 1) by omega]
    rfl
theorem pieces_aligned (j m : Nat) (hm : 0 < m) : pieces (64 * j) (64 * m) = (List.range m).map fun i => (64 * j + 64 * i, 64) := by
  unfold pieces
  have h : (64 * j + 64 * m - 1) / 64 - 64 * j / 64 + 1 = m := by omega
  rw [if_neg (by omega), h]
  refine List.map_congr_left fun i hi => ?_
  have := List.mem_range.mp hi
  simp only [Prod.mk.injEq]
  omega
theorem pieces_read (mem : List Host.Cell) (k m : Nat) :
    ((List.range m).map fun i => (k + 64 * i, 64)).flatMap (fun p => memReadN mem p.1 p.2) = memReadN mem k (64 * m) := by
  induction m with
  | zero => simp [memReadN]
  | succ m ih => rw [List.range_succ, List.map_append, List.flatMap_append, ih, Nat.mul_succ, memReadN_add]; simp
theorem unitReads_plain (s : State) (w : Who) (hp : s.vt.poison = []) (h0 : s.cache? 0 = none)
    (h : ∀ a, a < 2 ^ 30 → s.checkPage w .load a = .ok ⟨⟨.dev, a, 0, false⟩, a, none⟩) (ps : List (Nat × Nat))
    (hps : ∀ p ∈ ps, p.1 < 2 ^ 30) : s.unitReads w 0 ps = (some (ps.flatMap fun p => memReadN s.mem p.1 p.2), s) := by
  induction ps with
  | nil => rfl
  | cons p r ih =>
    have h1 : s.unitRead1 w p.1 p.2 0 = (some (memReadN s.mem p.1 p.2), s) := by
      simp [State.unitRead1, h p.1 (hps p (by simp)), State.touch, State.spoiled, State.poisoned, hp, State.linkDown, State.readNow, h0,
        State.readHome]
    simp only [State.unitReads, h1, ih fun q hq => hps q (by simp [hq]), List.flatMap_cons]
def storedTeam : Team := { placedTeam with tcx := 1, core := 9, image := some 0 }
def imaged (m : List Host.Cell) : State :=
  { master [(4, 0x200000), (6, 5)] with mem := m, images := [(0, 7)], teams := [placedTeam, storedTeam] }
theorem imageOf_length (n tag : Nat) : (imageOf n tag).length = 64 * 32768 := by
  rw [imageOf, List.length_append, List.length_map, List.length_range]
  show 2 + (imageBytes - 2) = _
  decide
theorem imaged_page (m : List Host.Cell) (a : Nat) (h : a < 2 ^ 30) :
    (imaged m).checkPage ((imaged m).who ((imaged m).stream (lane 0))) .load a = .ok ⟨⟨.dev, a, 0, false⟩, a, none⟩ := by
  have hw : (imaged m).who ((imaged m).stream (lane 0)) = ⟨.core 0, 0, 1, true⟩ := by
    have : (imaged []).who ((imaged []).stream (lane 0)) = ⟨.core 0, 0, 1, true⟩ := by decide +kernel
    exact this
  have ht : (imaged m).tr = pages := rfl
  have hv : (imaged m).vcUsable 0 = true := rfl
  have hx : (imaged m).tlbLookup (.core 0) 0 1 a = some ⟨.core 0, 1, 0, ⟨0, 0, 0, 30, true, true, true, true, true⟩⟩ := by
    have hl : pages.tlb = ⟨.core 0, 1, 0, ⟨0, 0, 0, 30, true, true, true, true, true⟩⟩ :: pages.tlb.drop 1 := rfl
    rw [State.tlbLookup, ht, hl, List.find?_cons_of_pos (by simpa [TlbEntry.hits] using h)]
  have hy : (imaged m).xlate (.core 0) 0 1 a false = .ok (⟨0, 0, 0, 30, true, true, true, true, true⟩, 0, none) := by
    rw [State.xlate, hx]
    rfl
  rw [hw, State.checkPage]
  simp only [show AK.load.writes = false from rfl, hy]
  simp [hv, leafLoc]
theorem imaged_read (m : List Host.Cell) : (imaged m).unitRead ((imaged m).who ((imaged m).stream (lane 0))) 0x200000 imageBytes =
    (some (memReadN m 0x200000 (64 * 32768)), imaged m) := by
  have hp := pieces_aligned 0x8000 32768 (by decide)
  have e : (imaged m).unitRead ((imaged m).who ((imaged m).stream (lane 0))) 0x200000 imageBytes =
      (imaged m).unitReads ((imaged m).who ((imaged m).stream (lane 0))) 0 (pieces (64 * 0x8000) (64 * 32768)) := by
    rw [State.unitRead, show (64 * 0x8000 : Nat) = 0x200000 by decide, show imageBytes = 0x200000 by decide]
  rw [e, hp, unitReads_plain (imaged m) _ rfl rfl (imaged_page m), pieces_read]
  · rfl
  · intro p h
    obtain ⟨i, hi, rfl⟩ := List.mem_map.mp h
    have := List.mem_range.mp hi
    show 64 * 0x8000 + 64 * i < 2 ^ 30
    omega
theorem imaged_addr (m : List Host.Cell) : (imaged m).imageAddr ((imaged m).stream (lane 0)) 4 = some 0x200000 := by
  have h : (imaged []).redirect ((imaged []).stream (lane 0)) 0x200000 1 = .ok 0x200000 := by decide +kernel
  have h' : (imaged m).redirect ((imaged m).stream (lane 0)) 0x200000 1 = .ok 0x200000 := h
  have hr0 : ((imaged []).stream (lane 0)).rd64 4 = 0x200000 := by decide +kernel
  have hr : ((imaged m).stream (lane 0)).rd64 4 = 0x200000 := hr0
  simp only [State.imageAddr, State.recordAddr, hr, h']
  decide
theorem imaged_checks (m : List Host.Cell) : (imaged m).imageAddr ((imaged m).stream (lane 0)) 4 = some 0x200000 ∧
    ((imaged m).teams.filter fun t => t.image == some 0) = [storedTeam] ∧ (imaged m).shadowOn (loadCores [storedTeam] 5) = [] ∧
    (imaged m).loadFits [storedTeam] 5 = true ∧ (imaged m).shadowOn [5] = [] ∧
    (imaged m).ctxTrap ((imaged m).stream (lane 0)) 6 = none ∧ (imaged m).active always = [lane 0] :=
  ⟨imaged_addr m, of_decide_eq_true rfl, of_decide_eq_true rfl, of_decide_eq_true rfl, of_decide_eq_true rfl, of_decide_eq_true rfl,
    of_decide_eq_true rfl⟩
theorem imaged_load (img : List Byte) (hi : imageOf 0 7 = img) (m : List Host.Cell)
    (hm : memReadN m 0x200000 (64 * 32768) = img) :
    ∃ (s : State) (va : Nat) (bs : List Byte) (s1 : State) (n : Nat) (tm : Team), s.imageAddr (s.stream (lane 0)) 4 = some va ∧
      s.unitRead (s.who (s.stream (lane 0))) va imageBytes = (some bs, s1) ∧ s1.imageNamed bs = some n ∧
      (s1.teams.filter fun t => t.image == some n) = [tm] ∧ s1.shadowOn (loadCores [tm] 5) = [] ∧ s1.loadFits [tm] 5 = true ∧
      s.shadowOn [5] = [] ∧ s.ctxTrap (s.stream (lane 0)) 6 = none ∧ s.active always = [lane 0] := by
  have hr := imaged_read m
  rw [hm] at hr
  refine ⟨imaged m, 0x200000, img, imaged m, 0, storedTeam, (imaged_checks m).1, hr, ?_, (imaged_checks m).2⟩
  have : (imaged m).images = [(0, 7)] := rfl
  rw [State.imageNamed, this, List.find?_cons_of_pos (by simpa using hi)]
  rfl
theorem test_meets_load : ∃ (s : State) (va : Nat) (bs : List Byte) (s1 : State) (n : Nat) (tm : Team),
    s.imageAddr (s.stream (lane 0)) 4 = some va ∧ s.unitRead (s.who (s.stream (lane 0))) va imageBytes = (some bs, s1) ∧
    s1.imageNamed bs = some n ∧ (s1.teams.filter fun t => t.image == some n) = [tm] ∧ s1.shadowOn (loadCores [tm] 5) = [] ∧
    s1.loadFits [tm] 5 = true ∧ s.shadowOn [5] = [] ∧ s.ctxTrap (s.stream (lane 0)) 6 = none ∧ s.active always = [lane 0] := by
  have h := memReadN_memWriteN [] 0x200000 (imageOf 0 7)
  rw [imageOf_length] at h
  exact imaged_load _ rfl _ h
end Sys2Proof.Tests
end

section
/-! PROOFS. The words of `nop` (R153) and the results of division (R143). -/
namespace Sys2Proof

/-- A bit of a word as the field of length one at its place. -/
theorem bit_getLsbD (w : DWord) (n : Nat) : bit (w.getLsbD n) = w.extractLsb' n 1 := by
  apply BitVec.eq_of_getLsbD_eq
  intro i hi
  obtain rfl : i = 0 := by omega
  simp [bit]

/-- A full-format word is put together from its own fields (R94): each field follows the one above it, and P = 0 is the topmost bit. -/
theorem word_fieldsOf {w : DWord} (h : w.msb = false) : (fieldsOf w).word = w := by
  have hP : bit false = w.extractLsb' 63 1 := by rw [← bit_getLsbD, ← h]; rfl
  simp (disch := rfl) only [Fields.word, fieldsOf, hP, bit_getLsbD, BitVec.extractLsb'_append_extractLsb'_eq_extractLsb']
  exact BitVec.extractLsb'_eq_self

/-- Fields make up a full-format word exactly when they are that word's fields. -/
theorem word_eq_iff {w : DWord} (h : w.msb = false) (f : Fields) : f.word = w ↔ f = fieldsOf w :=
  ⟨fun hf => by rw [← hf, fieldsOf_word], fun hf => by rw [hf, word_fieldsOf h]⟩

theorem wf_nop (g : Guard) : (Instr.nop g).wf = g.wf := rfl
theorem wf_pairWord (a b : PHalf) : (Instr.pairWord a b).wf = (a.wf && b.wf && (a.banks ++ b.banks).Nodup) := rfl
theorem encode_nop (g : Guard) : encode (.nop g) = some [(enc0 0 g 0).word] := rfl

/-- A word of opcode 0 is the encoding of `nop` under its guard exactly when the fields that `nop` does not use are zero (R153). -/
theorem encode_nop_eq_iff {w : DWord} (h : w.msb = false) (hopc : (fieldsOf w).opc = 0) :
    encode (.nop (fieldsOf w).guard) = some [w] ↔
      (fieldsOf w).d = 0 ∧ (fieldsOf w).s1 = 0 ∧ (fieldsOf w).s2 = 0 ∧ (fieldsOf w).i = false ∧ (fieldsOf w).k1 = false ∧
        (fieldsOf w).k2 = false ∧ (fieldsOf w).md = 0 := by
  set f := fieldsOf w
  have hword : encode (.nop f.guard) = some [w] ↔ enc0 0 f.guard 0 = f := by
    simp only [encode_nop, Option.some.injEq, List.cons.injEq, and_true, word_eq_iff h, f]
  rw [hword]
  change f.opc = 0 at hopc
  obtain ⟨opc, d, s1, s2, g, ge, gn, i, k1, k2, md⟩ := f
  simp only at hopc
  simp only [enc0, Fields.guard, Fields.mk.injEq, hopc, true_and, eq_comm (a := (0 : BitVec _)), eq_comm (a := false)]

theorem unassigned_zero : unassigned 0#8 = false := by decide
theorem readingOf_zero (f : Fields) (lits : List DWord) : readingOf 0#8 f lits = some (.nop f.guard) := rfl

/-- A word of opcode 0 decodes to `nop` under its guard, where it encodes that and R98 accepts the guard, and to nothing else. -/
theorem decode_opc_zero {w : DWord} (h : w.msb = false) (hopc : (fieldsOf w).opc = 0) :
    decode w [] =
      if encode (.nop (fieldsOf w).guard) = some [w] ∧ (fieldsOf w).guard.wf = true then .ok (.nop (fieldsOf w).guard)
      else .error .operand := by
  simp [decode, h, decodeFull, hopc, unassigned_zero, readingOf_zero, wf_nop]

/-- A pair half with operation 0, which R103 does not list, fails the checks of R104. -/
theorem pHalf_wf_of_pidx_zero {p : PHalf} (h : p.pidx = 0) : p.wf = false := by
  have he : pidxEligible 0 = false := by decide
  simp [PHalf.wf, h, he]

/-- A pair word with a half that names operation 0 is refused (R103, R104). -/
theorem decode_pair_pidx_zero {w : DWord} (hw : w.msb = true)
    (h : (halfOf (w.extractLsb' 32 31)).pidx = 0 ∨ (halfOf (w.extractLsb' 1 31)).pidx = 0) (rest : List DWord) :
    decode w rest = .error .pair := by
  have hwf : (Instr.pairWord (halfOf (w.extractLsb' 32 31)) (halfOf (w.extractLsb' 1 31))).wf = false := by
    rcases h with h | h <;> simp [wf_pairWord, pHalf_wf_of_pidx_zero h]
  simp [decode, hw, decodePair, hwf]

end Sys2Proof

namespace Sys2Proof.Machine

/-! ### nop (R153) -/

theorem exec_nop (g : Guard) (s : State) : exec (.nop g) s = .next (s.completed g id) :=
  congrArg Host.Outcome.next (s.retireLanes_eq g id)

theorem kindLegal_zero (k : Kind) : kindLegal 0 k = true := by cases k <;> decide

/-- Steps 3 to 6 of R106 for a word of opcode 0: every kind of stream may issue it and it needs no privilege, so the decoder and
the check of the stream's registers decide. -/
theorem examine_opc_zero {w : DWord} (h : w.msb = false) (hopc : (fieldsOf w).opc = 0) (k : Kind) (regs : Nat)
    (priv phys : Bool) :
    examine w [] k regs priv phys =
      if encode (.nop (fieldsOf w).guard) = some [w] ∧ (fieldsOf w).guard.wf = true ∧
          (Instr.nop (fieldsOf w).guard).streamOk k regs = true then .ok (.nop (fieldsOf w).guard)
      else .error cIllegalOperand := by
  have hpriv : privOk (fieldsOf w) priv phys = true := by simp [privOk, hopc, opcPriv, inR]
  simp only [examine, h, decode_opc_zero h hopc, hopc, unassigned_zero, hpriv, BitVec.ofNat_eq_ofNat, BitVec.toNat_zero,
    kindLegal_zero]
  by_cases hd : encode (.nop (fieldsOf w).guard) = some [w] ∧ (fieldsOf w).guard.wf = true
  · by_cases hs : (Instr.nop (fieldsOf w).guard).streamOk k regs = true <;> simp [hd, hs]
  · simp [hd, ← and_assoc]

/-- A pair word that the decoder refuses traps with ILLEGAL_PAIR (R104). -/
theorem examine_of_pair_refused {w : DWord} {lits : List DWord} {e : Reject} (hw : w.msb = true)
    (hd : decode w lits = .error e) (k : Kind) (regs : Nat) (priv phys : Bool) :
    examine w lits k regs priv phys = .error cIllegalPair := by
  simp [examine, hd, hw]

theorem State.examineFor_singleton (s : State) (st : Stream) (w : DWord) :
    s.examineFor st [w] =
      examine w [] st.id.kind (s.team st.id.tcx).recd.regs (s.privileged st) (s.physical st) := rfl

/-- Settles O7: a word of opcode 0 is accepted exactly when it encodes `nop` under its guard, and no pair half has operation 0. -/
theorem nopHasNoEffect : Obligations.NopHasNoEffect := by
  unfold Obligations.NopHasNoEffect
  refine ⟨exec_nop, fun s st w hw hopc => ?_, fun s st w hw hp => ?_⟩
  · simp only [s.examineFor_singleton, examine_opc_zero hw hopc, encode_nop_eq_iff hw hopc, and_assoc]
  · exact examine_of_pair_refused hw (decode_pair_pidx_zero hw hp _) _ _ _ _

/-! ### Division (R143) -/

/-- A quotient truncated towards zero, by its sign and its magnitude. -/
theorem tdiv_eq_sign_mul_natAbs_div (a b : Int) : a.tdiv b = a.sign * b.sign * (a.natAbs / b.natAbs : Nat) := by
  rw [← Int.sign_mul_natAbs (a.tdiv b), Int.sign_tdiv, Int.natAbs_tdiv]
  split
  · next hlt => simp [Nat.div_eq_of_lt hlt]
  · rfl

/-- The remainder of a truncated quotient, by the sign of the dividend and its magnitude. -/
theorem tmod_eq_sign_mul_natAbs_mod (a b : Int) : a.tmod b = a.sign * (a.natAbs % b.natAbs : Nat) := by
  rw [← Int.sign_mul_natAbs (a.tmod b), Int.sign_tmod, Int.natAbs_tmod]
  split
  · next hdvd => simp [Nat.mod_eq_zero_of_dvd (Int.natAbs_dvd_natAbs.mpr hdvd)]
  · rfl

/-- The signed quotient in every case of R143; that of −2 ^ 31 and −1 is 2 ^ 31, which the word holds as 0x80000000. -/
theorem idivsR_eq (a b : Word) : idivsR a b =
    if b = 0 then 0xFFFFFFFF
    else if a = 0x80000000 ∧ b = 0xFFFFFFFF then 0x80000000
    else BitVec.ofInt 32 (a.toInt.sign * b.toInt.sign * (a.toInt.natAbs / b.toInt.natAbs : Nat)) := by
  rw [idivsR, tdiv_eq_sign_mul_natAbs_div]
  split
  · rfl
  · split
    · next hab => obtain ⟨rfl, rfl⟩ := hab; decide
    · rfl

/-- The signed remainder in every case of R143. -/
theorem iremR_false_eq (a b : Word) : iremR false a b =
    if b = 0 then a
    else if a = 0x80000000 ∧ b = 0xFFFFFFFF then 0
    else BitVec.ofInt 32 (a.toInt.sign * (a.toInt.natAbs % b.toInt.natAbs : Nat)) := by
  rw [iremR, if_neg Bool.false_ne_true, tmod_eq_sign_mul_natAbs_mod]
  split
  · rfl
  · split
    · next hab => obtain ⟨rfl, rfl⟩ := hab; decide
    · rfl

/-- An instruction whose meaning is the binary mould with `f` has `f`'s results where no operand names a port. -/
theorem binaryIs_of_exec {i : Alu2 → Instr} {f : Word → Word → Word} (h : ∀ o s, exec (i o) s = .next (s.binary o f)) :
    BinaryIs i f := fun o s hp => by rw [h, s.binary_plain o f hp]

/-- Settles O9: each division is the binary mould (R140) with a total function on words. -/
theorem divisionNeverTraps : Obligations.DivisionNeverTraps := by
  unfold Obligations.DivisionNeverTraps
  simp only [← idivsR_eq, ← iremR_false_eq]
  exact ⟨binaryIs_of_exec fun _ _ => rfl, binaryIs_of_exec fun _ _ => rfl, binaryIs_of_exec fun _ _ => rfl,
    binaryIs_of_exec fun _ _ => rfl⟩

end Sys2Proof.Machine
end

section
/-! PROOFS. Decoding inverts encoding (R93 to R108): what each mould's reading gives back of the fields its encoder put together. -/
namespace Sys2Proof

theorem wf_brm {g : Guard} {k1 k2 : Bool} {es : List (Reg × Bool × Word)} (h : (Instr.brm g k1 k2 es).wf = true) :
    1 ≤ es.length ∧ es.length ≤ 4 := by
  have e : (Instr.brm g k1 k2 es).wf = (g.wf && decide (1 ≤ es.length) && decide (es.length ≤ 4) &&
    es.all (fun e => Reg.plain e.1) && (!k2 || decide (2 ≤ es.length))) := rfl
  simp only [e, Bool.and_eq_true, decide_eq_true_eq] at h
  exact ⟨h.1.1.1.2, h.1.1.2⟩
theorem wf_lea64_imm {g : Guard} {d s1 : Reg} {k1 : Bool} {v : BitVec 26} {sh : BitVec 3} {sx : Bool}
    (h : (Instr.lea64 ⟨g, d, s1, k1, .imm v⟩ sh sx).wf = true) : sh = 0 ∧ sx = false := by
  have e : (Instr.lea64 ⟨g, d, s1, k1, .imm v⟩ sh sx).wf = (Alu2.wideCount ⟨g, d, s1, k1, .imm v⟩ && (sh == 0 && !sx)) := rfl
  rw [e, Bool.and_eq_true, Bool.and_eq_true, beq_iff_eq, Bool.not_eq_true'] at h
  exact h.2

/-! ### Fields of MOD -/

theorem getLsbD_append_high {n m i : Nat} {x : BitVec n} {y : BitVec m} (h : m ≤ i) :
    (x ++ y).getLsbD i = x.getLsbD (i - m) := by rw [BitVec.getLsbD_append, if_neg (by omega)]
theorem getLsbD_append_low {n m i : Nat} {x : BitVec n} {y : BitVec m} (h : i < m) :
    (x ++ y).getLsbD i = y.getLsbD i := by rw [BitVec.getLsbD_append, if_pos h]
@[simp] theorem bit_getLsbD_zero (b : Bool) : (bit b).getLsbD 0 = b := by cases b <;> rfl

@[simp] theorem enc0_guard (opc : BitVec 8) (g : Guard) (md : BitVec 18) : (enc0 opc g md).guard = g := rfl
@[simp] theorem encB_opc (f : Fields) (b : Opnd) : (encB f b).opc = f.opc := by cases b <;> rfl
@[simp] theorem encA2_opc (opc : BitVec 8) (o : Alu2) (md : BitVec 18) : (encA2 opc o md).opc = opc := encB_opc _ _

/-- An immediate is put together again from S2 and MOD (R97). -/
theorem imm26_halves (v : BitVec 26) : v.extractLsb' 18 8 ++ v.extractLsb' 0 18 = v :=
  (BitVec.extractLsb'_append_extractLsb'_eq_extractLsb' rfl).trans BitVec.extractLsb'_eq_self

/-! ### The moulds with a MOD -/

@[simp] theorem encA2_alu2 (opc : BitVec 8) (o : Alu2) (md : BitVec 18) : (encA2 opc o md).alu2 = o := by
  obtain ⟨g, d, s1, k1, b⟩ := o
  cases b with
  | reg r k => rfl
  | imm v => exact congrArg (fun w => (⟨g, d, s1, k1, .imm w⟩ : Alu2)) (imm26_halves v)
/-- A modifier bit of an immediate form is its default; of a register form, the bit of MOD. -/
theorem encA2_mb (opc : BitVec 8) (o : Alu2) (md : BitVec 18) (n : Nat) : (encA2 opc o md).mb n = (o.b.isReg && md.getLsbD n) := by
  obtain ⟨g, d, s1, k1, b⟩ := o
  cases b <;> rfl
/-- A modifier bit of a well-formed binary instruction, which R97 keeps at its default beside an immediate. -/
theorem mb_of_immDefault {opc : BitVec 8} {o : Alu2} {md : BitVec 18} {n : Nat} {v : Bool} (h : immDefault o.b (!v) = true)
    (hv : md.getLsbD n = v) : (encA2 opc o md).mb n = v := by
  rw [encA2_mb, hv]
  cases v
  · exact Bool.and_false _
  · simpa [immDefault] using h
@[simp] theorem encA3_alu3 (opc : BitVec 8) (o : Alu3) (lo : BitVec 10) : (encA3 opc o lo).alu3 = o := by
  simp (disch := decide) only [Fields.alu3, Fields.s3, Fields.fld, encA3, enc0, BitVec.extractLsb'_append_eq_of_le, Nat.reduceSub,
    BitVec.extractLsb'_eq_self]
  rfl
@[simp] theorem encA1_opc (opc : BitVec 8) (o : Alu1) (md : BitVec 18) : (encA1 opc o md).opc = opc := rfl
@[simp] theorem encA3_opc (opc : BitVec 8) (o : Alu3) (lo : BitVec 10) : (encA3 opc o lo).opc = opc := rfl
/-- The bits of MOD beside S3. -/
theorem encA3_mbit (opc : BitVec 8) (o : Alu3) (lo : BitVec 10) {n : Nat} (h : n < 10) : (encA3 opc o lo).mbit n = lo.getLsbD n :=
  getLsbD_append_low h
theorem encA3_fld (opc : BitVec 8) (o : Alu3) (lo : BitVec 10) {n m : Nat} (h : n + m ≤ 10) :
    (encA3 opc o lo).fld n m = lo.extractLsb' n m := BitVec.extractLsb'_append_eq_of_add_le h

@[simp] theorem md1_getLsbD (b : Bool) : (md1 b).getLsbD 0 = b := by cases b <;> rfl
@[simp] theorem mdZ_getLsbD (b : Bool) (lo : BitVec 3) : (mdZ b lo).getLsbD 3 = b := by
  simp (disch := decide) only [mdZ, getLsbD_append_high, getLsbD_append_low, Nat.reduceSub, bit_getLsbD_zero]
@[simp] theorem mdZ_rnd (b : Bool) (lo : BitVec 3) : (mdZ b lo).extractLsb' 0 3 = lo := by
  simp (disch := decide) only [mdZ, BitVec.extractLsb'_append_eq_of_add_le, BitVec.extractLsb'_eq_self]

@[simp] theorem FMod.bits_rnd (m : FMod) : m.bits.extractLsb' 0 3 = m.rnd.code := by
  simp (disch := decide) only [FMod.bits, BitVec.extractLsb'_append_eq_of_add_le, BitVec.extractLsb'_eq_self]
@[simp] theorem FMod.bits_ftz (m : FMod) : m.bits.getLsbD 3 = m.ftz := by
  simp (disch := decide) only [FMod.bits, getLsbD_append_high, Nat.reduceSub, bit_getLsbD_zero]

/-- RND and FTZ of a register form are the four lowest bits of MOD (R201). -/
theorem fmod_of_low {f : Fields} {m : FMod} (hi : f.i = false) (hl : f.md.extractLsb' 0 3 = m.rnd.code) (hz : f.md.getLsbD 3 = m.ftz) :
    f.fmod = some m := by
  simp only [Fields.fmod, hi, Fields.fld, hl, Rnd.ofCode_code, Fields.mbit, hz]
  rfl
theorem append_bits_rnd {n : Nat} (x : BitVec n) (m : FMod) : (x ++ m.bits).extractLsb' 0 3 = m.rnd.code :=
  (BitVec.extractLsb'_append_eq_of_add_le (by decide)).trans m.bits_rnd
theorem append_bits_ftz {n : Nat} (x : BitVec n) (m : FMod) : (x ++ m.bits).getLsbD 3 = m.ftz :=
  (getLsbD_append_low (by decide)).trans m.bits_ftz
theorem mdF_rnd (m : FMod) : (mdF m).extractLsb' 0 3 = m.rnd.code := append_bits_rnd (0 : BitVec 14) m
theorem mdF_ftz (m : FMod) : (mdF m).getLsbD 3 = m.ftz := append_bits_ftz (0 : BitVec 14) m
theorem mdH_rnd (h : Bool) (m : FMod) : (mdH h m).extractLsb' 0 3 = m.rnd.code := append_bits_rnd ((0 : BitVec 13) ++ bit h) m
theorem mdH_ftz (h : Bool) (m : FMod) : (mdH h m).getLsbD 3 = m.ftz := append_bits_ftz ((0 : BitVec 13) ++ bit h) m
/-- The bit above RND and FTZ. -/
theorem mdH_half (h : Bool) (m : FMod) : (mdH h m).getLsbD 4 = h := by
  simp (disch := decide) only [mdH, getLsbD_append_high, getLsbD_append_low, Nat.reduceSub, bit_getLsbD_zero]
theorem encA1_fmod (opc : BitVec 8) (o : Alu1) (m : FMod) : (encA1 opc o (mdF m)).fmod = some m :=
  fmod_of_low (f := encA1 opc o (mdF m)) rfl (mdF_rnd m) (mdF_ftz m)
theorem encR_fmod (opc : BitVec 8) (o : AluR) (m : FMod) : (encR opc o (mdF m)).fmod = some m :=
  fmod_of_low (f := encR opc o (mdF m)) rfl (mdF_rnd m) (mdF_ftz m)
theorem encR_fmod_half (opc : BitVec 8) (o : AluR) (h : Bool) (m : FMod) : (encR opc o (mdH h m)).fmod = some m :=
  fmod_of_low (f := encR opc o (mdH h m)) rfl (mdH_rnd h m) (mdH_ftz h m)
theorem encA2_fmod (opc : BitVec 8) (o : Alu2) {m : FMod} (h : immDefault o.b m.isDefault = true) :
    (encA2 opc o (mdF m)).fmod = some m := by
  obtain ⟨g, d, s1, k1, b⟩ := o
  cases b with
  | reg r k => exact fmod_of_low rfl (mdF_rnd m) (mdF_ftz m)
  | imm v =>
    obtain ⟨r, z⟩ := m
    cases r <;> cases z <;> first | rfl | cases h
@[simp] theorem encAcc_acc (opc : BitVec 8) (o : Acc) : (encAcc opc o).acc = some o := by
  simp (disch := decide) only [Fields.acc, Fields.fld, Fields.mbit, encAcc, enc0, BitVec.extractLsb'_append_eq_of_le,
    BitVec.extractLsb'_append_eq_of_add_le, BitVec.extractLsb'_eq_self, getLsbD_append_high, getLsbD_append_low, Nat.reduceSub,
    bit_getLsbD_zero]
  simp [Fields.guard]
@[simp] theorem encAtom_atom (opc : BitVec 8) (o : Atom) (u : Bool) : (encAtom opc o u).atom = some o := by
  simp (disch := decide) only [Fields.atom, Fields.fld, encAtom, enc0, BitVec.extractLsb'_append_eq_of_le,
    BitVec.extractLsb'_append_eq_of_add_le, BitVec.extractLsb'_eq_self, Nat.reduceSub]
  simp [Fields.guard]
@[simp] theorem encAtom_u (opc : BitVec 8) (o : Atom) (u : Bool) : (encAtom opc o u).mbit 15 = u := by
  simp (disch := decide) only [Fields.mbit, encAtom, enc0, getLsbD_append_high, getLsbD_append_low, Nat.reduceSub,
    bit_getLsbD_zero]
@[simp] theorem encBar_barOp (opc : BitVec 8) (o : BarOp) : (encBar opc o).barOp = o := by
  simp (disch := decide) only [Fields.barOp, Fields.fld, Fields.mbit, encBar, enc0, BitVec.extractLsb'_append_eq_of_le,
    BitVec.extractLsb'_append_eq_of_add_le, BitVec.extractLsb'_eq_self, getLsbD_append_high, getLsbD_append_low, Nat.reduceSub,
    bit_getLsbD_zero]
  rfl
@[simp] theorem encCopy_copyOp (opc : BitVec 8) (o : CopyOp) : (encCopy opc o).copyOp = o := by
  simp (disch := decide) only [Fields.copyOp, Fields.s3, Fields.fld, encCopy, enc0, BitVec.extractLsb'_append_eq_of_le,
    BitVec.extractLsb'_append_eq_of_add_le, BitVec.extractLsb'_eq_self, Nat.reduceSub]
  rfl
@[simp] theorem encMat_matOp (opc : BitVec 8) (o : MatOp) : (encMat opc o).matOp = o := by
  simp (disch := decide) only [Fields.matOp, Fields.fld, Fields.mbit, encMat, enc0, mdMat, BitVec.extractLsb'_append_eq_of_le,
    BitVec.extractLsb'_append_eq_of_add_le, BitVec.extractLsb'_eq_self, getLsbD_append_high, getLsbD_append_low, Nat.reduceSub,
    bit_getLsbD_zero]
  rfl
@[simp] theorem encCar_carOp (opc : BitVec 8) (o : CarOp) : (encCar opc o).carOp = o := by
  simp (disch := decide) only [Fields.carOp, Fields.s3, Fields.fld, Fields.mbit, encCar, enc0, BitVec.extractLsb'_append_eq_of_le,
    BitVec.extractLsb'_append_eq_of_add_le, BitVec.extractLsb'_eq_self, getLsbD_append_high, getLsbD_append_low, Nat.reduceSub,
    bit_getLsbD_zero]
  rfl

/-! ### The readings of the moulds -/

/-- These fields and literal words are read as this instruction. -/
def ReadsAs (f : Fields) (lits : List DWord) (i : Instr) : Prop := readingOf f.opc f lits = some i
theorem ReadsAs.of {f : Fields} {lits : List DWord} {i : Instr} {r : Reading} (hr : readingOf f.opc = r) (h : r f lits = some i) :
    ReadsAs f lits i := by rw [ReadsAs, hr, h]


section
variable {opc : BitVec 8}
theorem reads_alu1 {mk : Alu1 → Instr} (hr : readingOf opc = rA1 mk) (o : Alu1) : ReadsAs (encA1 opc o 0) [] (mk o) := by
  exact .of hr rfl
theorem reads_alu1_bit {mk : Alu1 → Bool → Instr} (hr : readingOf opc = rA1b mk) (o : Alu1) (b : Bool) :
    ReadsAs (encA1 opc o (md1 b)) [] (mk o b) := by
  exact .of hr (congrArg (fun b => some (mk o b)) (md1_getLsbD b))
theorem reads_alu1_ftz {mk : Alu1 → Bool → Instr} (hr : readingOf opc = rA1z mk) (o : Alu1) (b : Bool) :
    ReadsAs (encA1 opc o (mdZ b 0)) [] (mk o b) := by
  exact .of hr (congrArg (fun b => some (mk o b)) (mdZ_getLsbD b 0))
theorem reads_alu1_fmod {mk : Alu1 → FMod → Instr} (hr : readingOf opc = rA1m mk) (o : Alu1) (m : FMod) :
    ReadsAs (encA1 opc o (mdF m)) [] (mk o m) := by
  refine .of hr ?_
  rw [rA1m, encA1_fmod]; rfl
theorem reads_alu2 {mk : Alu2 → Instr} (hr : readingOf opc = rA2 mk) (o : Alu2) :
    ReadsAs (encA2 opc o 0) [] (mk o) := by
  refine .of (by rw [encA2_opc, hr]) ?_
  rw [rA2, encA2_alu2]
theorem reads_alu2_bit {mk : Alu2 → Bool → Instr} (hr : readingOf opc = rA2b mk) (o : Alu2) (b : Bool)
    (h : immDefault o.b (!b) = true) : ReadsAs (encA2 opc o (md1 b)) [] (mk o b) := by
  refine .of (by rw [encA2_opc, hr]) ?_
  rw [rA2b, encA2_alu2, mb_of_immDefault h (md1_getLsbD b)]
theorem reads_alu2_ftz {mk : Alu2 → Bool → Instr} (hr : readingOf opc = rA2z mk) (o : Alu2) (b : Bool)
    (h : immDefault o.b (!b) = true) : ReadsAs (encA2 opc o (mdZ b 0)) [] (mk o b) := by
  refine .of (by rw [encA2_opc, hr]) ?_
  rw [rA2z, encA2_alu2, mb_of_immDefault h (mdZ_getLsbD b 0)]
theorem reads_alu2_fmod {mk : Alu2 → FMod → Instr} (hr : readingOf opc = rA2m mk) (o : Alu2) (m : FMod)
    (h : immDefault o.b m.isDefault = true) : ReadsAs (encA2 opc o (mdF m)) [] (mk o m) := by
  refine .of (by rw [encA2_opc, hr]) ?_
  rw [rA2m, encA2_alu2, encA2_fmod opc o h]; rfl
theorem reads_alu3 {mk : Alu3 → Instr} (hr : readingOf opc = rA3 mk) (o : Alu3) : ReadsAs (encA3 opc o 0) [] (mk o) := by
  refine .of hr ?_
  rw [rA3, encA3_alu3]
theorem reads_alu3_bit {mk : Alu3 → Bool → Instr} (hr : readingOf opc = rA3b mk) (o : Alu3) (b : Bool) :
    ReadsAs (encA3 opc o ((0 : BitVec 9) ++ bit b)) [] (mk o b) := by
  refine .of hr ?_
  rw [rA3b, encA3_alu3, encA3_mbit _ _ _ (by decide), getLsbD_append_low (by decide), bit_getLsbD_zero]
theorem encA3_fmod (o : Alu3) {n : Nat} (x : BitVec n) (e : n + 4 = 10) (m : FMod) : (encA3 opc o (e ▸ (x ++ m.bits))).fmod = some m := by
  obtain rfl : n = 6 := by omega
  exact fmod_of_low rfl ((encA3_fld _ _ _ (by decide)).trans (append_bits_rnd x m)) ((encA3_mbit _ _ _ (by decide)).trans (append_bits_ftz x m))
theorem reads_alu3_fmod {mk : Alu3 → FMod → Instr} (hr : readingOf opc = rA3m mk) (o : Alu3) (m : FMod) :
    ReadsAs (encA3 opc o (loF m)) [] (mk o m) := by
  refine .of hr ?_
  rw [rA3m, encA3_alu3, loF, encA3_fmod o (0 : BitVec 6) rfl m]; rfl
theorem reads_aluR {mk : AluR → Instr} (hr : readingOf opc = rR mk) (o : AluR) : ReadsAs (encR opc o 0) [] (mk o) := by
  exact .of hr rfl
theorem reads_aluR_fmod {mk : AluR → FMod → Instr} (hr : readingOf opc = rRm mk) (o : AluR) (m : FMod) :
    ReadsAs (encR opc o (mdF m)) [] (mk o m) := by
  refine .of hr ?_
  rw [rRm, encR_fmod]; rfl
theorem reads_aluR_half {mk : AluR → Bool → FMod → Instr} (hr : readingOf opc = rRh mk) (o : AluR) (h : Bool) (m : FMod) :
    ReadsAs (encR opc o (mdH h m)) [] (mk o h m) := by
  refine .of hr ?_
  rw [rRh, encR_fmod_half]
  exact congrArg (fun b => some (mk o b m)) (mdH_half h m)
theorem reads_guard {mk : Guard → Instr} (hr : readingOf opc = rG mk) (g : Guard) : ReadsAs (enc0 opc g 0) [] (mk g) := by
  exact .of hr rfl
theorem reads_shuffle {mk : Alu1 → Reg → BitVec 6 → Instr} (hr : readingOf opc = rShf mk) (o : Alu1) (r : Reg) (m : BitVec 6) :
    ReadsAs (encShf opc o r m) [] (mk o r m) := by
  refine .of hr ?_
  simp (disch := decide) only [rShf, Fields.s3, encShf, encA1, enc0, Fields.fld, BitVec.extractLsb'_append_eq_of_le,
    BitVec.extractLsb'_append_eq_of_add_le,
    BitVec.extractLsb'_eq_self, Nat.reduceSub]
  rfl
theorem reads_acc {mk : Acc → Instr} (hr : readingOf opc = rAcc mk) (o : Acc) : ReadsAs (encAcc opc o) [] (mk o) := by
  refine .of hr ?_
  rw [rAcc, encAcc_acc]; rfl
theorem reads_rng {mk : Rng → Instr} (hr : readingOf opc = rRng mk) (o : Rng) : ReadsAs (encRng opc o 0) [] (mk o) := by
  exact .of hr rfl
theorem reads_qry {mk : Qry → Instr} (hr : readingOf opc = rQry mk) (o : Qry) : ReadsAs (encQry opc o) [] (mk o) := by
  exact .of hr rfl
theorem reads_atom {mk : Atom → Instr} (hr : readingOf opc = rAtom mk) (o : Atom) :
    ReadsAs (encAtom opc o false) [] (mk o) := by
  refine .of hr ?_
  rw [rAtom, encAtom_atom]; rfl
theorem reads_atom_bit {mk : Atom → Bool → Instr} (hr : readingOf opc = rAtomU mk) (o : Atom) (u : Bool) :
    ReadsAs (encAtom opc o u) [] (mk o u) := by
  refine .of hr ?_
  rw [rAtomU, encAtom_atom, encAtom_u]; rfl
theorem reads_bar {mk : BarOp → Instr} (hr : readingOf opc = rBar mk) (o : BarOp) : ReadsAs (encBar opc o) [] (mk o) := by
  refine .of hr ?_
  rw [rBar, encBar_barOp]
theorem reads_copy {mk : CopyOp → Instr} (hr : readingOf opc = rCopy mk) (o : CopyOp) :
    ReadsAs (encCopy opc o) [] (mk o) := by
  refine .of hr ?_
  rw [rCopy, encCopy_copyOp]
theorem reads_mat {mk : MatOp → Instr} (hr : readingOf opc = rMat mk) (o : MatOp) : ReadsAs (encMat opc o) [] (mk o) := by
  refine .of hr ?_
  rw [rMat, encMat_matOp]
theorem reads_car {mk : CarOp → Instr} (hr : readingOf opc = rCar mk) (o : CarOp) : ReadsAs (encCar opc o) [] (mk o) := by
  refine .of hr ?_
  rw [rCar, encCar_carOp]
theorem reads_pair1 {mk : Guard → Reg → Bool → Instr} (hr : readingOf opc = rPair1 mk) (g : Guard) (s1 : Reg) (k1 : Bool) :
    ReadsAs { enc0 opc g 0 with s1 := s1, k1 := k1 } [] (mk g s1 k1) := by
  exact .of hr rfl
end

/-- The offset of entry `n` of `brm` in its literal words (R105). -/
def brmOffset (lits : List DWord) (n : Nat) : Word := ((lits[n / 2]?).getD 0).extractLsb' (32 * (n % 2)) 32

theorem brmEntries_eq {f : Fields} {r2 : Reg} {n0 n1 n2 n3 : Bool} {c : BitVec 2}
    (h : f.md = r2 ++ (0 : BitVec 4) ++ bit n3 ++ bit n2 ++ bit n1 ++ bit n0 ++ c) (lits : List DWord) :
    f.brmEntries lits = [(f.s1, n0, brmOffset lits 0), (f.s2, n1, brmOffset lits 1), (r2, n2, brmOffset lits 2),
      (f.d, n3, brmOffset lits 3)].take (c.toNat + 1) := by
  simp (disch := decide) only [Fields.brmEntries, brmOffset, h, Fields.s3, Fields.fld, Fields.mbit,
    BitVec.extractLsb'_append_eq_of_le,
    BitVec.extractLsb'_append_eq_of_add_le, BitVec.extractLsb'_eq_self, getLsbD_append_high, getLsbD_append_low, Nat.reduceSub,
    bit_getLsbD_zero]

@[simp] theorem brmOffset_zero (a b : Word) (r : List DWord) : brmOffset ((a ++ b) :: r) 0 = b :=
  (BitVec.extractLsb'_append_eq_of_add_le (by decide)).trans BitVec.extractLsb'_eq_self
@[simp] theorem brmOffset_one (a b : Word) (r : List DWord) : brmOffset ((a ++ b) :: r) 1 = a :=
  (BitVec.extractLsb'_append_eq_of_le (by decide)).trans BitVec.extractLsb'_eq_self
@[simp] theorem brmOffset_two (w : DWord) (a b : Word) (r : List DWord) : brmOffset (w :: (a ++ b) :: r) 2 = b :=
  brmOffset_zero a b r
@[simp] theorem brmOffset_three (w : DWord) (a b : Word) (r : List DWord) : brmOffset (w :: (a ++ b) :: r) 3 = a :=
  brmOffset_one a b r

/-- The entries of `brm` are read back from its word and its literal words (R105, R172). -/
theorem brmEntries_encode {f : Fields} {g : Guard} {k1 k2 : Bool} {es : List (Reg × Bool × Word)} (h1 : 1 ≤ es.length)
    (h4 : es.length ≤ 4) (hf : encFields (.brm g k1 k2 es) = some f) : f.brmEntries (encLits (.brm g k1 k2 es)) = es := by
  obtain rfl := Option.some.inj hf
  rcases es with _ | ⟨⟨r0, n0, o0⟩, _ | ⟨⟨r1, n1, o1⟩, _ | ⟨⟨r2, n2, o2⟩, _ | ⟨⟨r3, n3, o3⟩, _ | ⟨e, es⟩⟩⟩⟩⟩
  case nil => simp at h1
  case cons.nil => exact (brmEntries_eq (c := 0) rfl _).trans (by simp [encLits])
  case cons.cons.nil => exact (brmEntries_eq (c := 1) rfl _).trans (by simp [encLits])
  case cons.cons.cons.nil => exact (brmEntries_eq (c := 2) rfl _).trans (by simp [encLits])
  case cons.cons.cons.cons.nil => exact (brmEntries_eq (c := 3) rfl _).trans (by simp [encLits])
  case cons.cons.cons.cons.cons => simp at h4; omega

theorem readsAs_brm {f : Fields} {g : Guard} {k1 k2 : Bool} {es : List (Reg × Bool × Word)}
    (hf : encFields (.brm g k1 k2 es) = some f) (hes : f.brmEntries (encLits (.brm g k1 k2 es)) = es) :
    ReadsAs f (encLits (.brm g k1 k2 es)) (.brm g k1 k2 es) := by
  have hopc : f.opc = 0x79 := by cases hf; rfl
  have hg : f.guard = g ∧ f.k1 = k1 ∧ f.k2 = k2 := by cases hf; exact ⟨rfl, rfl, rfl⟩
  obtain ⟨rfl, rfl, rfl⟩ := hg
  refine .of (r := fun f l => some (.brm f.guard f.k1 f.k2 (f.brmEntries l))) (by rw [hopc]; rfl) ?_
  exact congrArg (fun es => some (Instr.brm _ _ _ es)) hes

/-- The instruction read from the fields that a well-formed instruction encodes to is that instruction. -/
theorem readsAs_encFields {i : Instr} {f : Fields} (hwf : i.wf = true) (hi : encFields i = some f)
    (hu : ∀ opc, i ≠ .unassignedOpcode opc) : ReadsAs f (encLits i) i := by
  cases i
  all_goals cases hi
  case nop g | mswap g | mfence g | exit g | yield g => exact reads_guard rfl g
  case not o | popc o | clz o | ctz o | brev o | fclass o | dcancel o | dstat o | cabort o | cstat o | wqpop o | ctxfl o | halt o =>
    exact reads_alu1 rfl o
  case iabs o b | ineg o b | gsum o b | matchAny o b => exact reads_alu1_bit rfl o b
  case fexp2 o z | flog2 o z | fsin o z | fcos o z => exact reads_alu1_ftz rfl o z
  case frcp o m | frsq o m | fsqrt o m | frnd o m => exact reads_alu1_fmod rfl o m
  case iadd o | isub o | imul o | imulh o | imulhu o | idivs o | idivu o | imin o | imax o | umin o | umax o | and o | or o | xor o
      | andn o | shl o | shr o | sar o | rol o | add64 o | sub64 o | mul64 o | shl64 o | scfit o => exact reads_alu2 rfl o
  case irem o b | iadds o b | isubs o b | bfe o b | shr64 o b => exact reads_alu2_bit rfl o b (Bool.and_eq_true_iff.mp hwf).2
  case fmin o z | fmax o z => exact reads_alu2_ftz rfl o z (Bool.and_eq_true_iff.mp hwf).2
  case fadd o m | fsub o m | fmul o m | fdiv o m | fscale o m => exact reads_alu2_fmod rfl o m (Bool.and_eq_true_iff.mp hwf).2
  case imad o | bfi o | sel o | shfl o => exact reads_alu3 rfl o
  case isad o b | atmrg o b => exact reads_alu3_bit rfl o b
  case ffma o m | ffms o m | fnma o m | dfma o m => exact reads_alu3_fmod rfl o m
  case fexd o => exact reads_aluR rfl o
  case dadd o m | dmul o m => exact reads_aluR_fmod rfl o m
  case hadd2 o h m | hmul2 o h m | scmul o h m => exact reads_aluR_half rfl o h m
  case shfx o r m | shup o r m | shdn o r m | gbcast o r m => exact reads_shuffle rfl o r m
  case ld o | st o | ldro o | ldv o | stv o | ldvw o | ldvt o | stvp o | stvf o | prf o => exact reads_acc rfl o
  case cwb o | cflush o | cinval o => exact reads_rng rfl o
  case feqry o | vcq o | ptoa o => exact reads_qry rfl o
  case aadd o | aadd64 o | aaddf o | aadd2h o | aminf o | amaxf o | aand o | aor o | axor o | axchg o | acas o | acas64 o | ainc o
      | adec o | waitc o | ctrd o => exact reads_atom rfl o
  case amin o u | amax o u | ctadd o u => exact reads_atom_bit rfl o u
  case bar o | bararr o | barwt o => exact reads_bar rfl o
  case dcopy o | tcopy o | dfill o => exact reads_copy rfl o
  case mload o | mmul o | mdrain o => exact reads_mat rfl o
  case aload o | astore o | agath o | ascat o => exact reads_car rfl o
  case jmp g s k | ret g s k | sgacq g s k | sgrel g s k => exact reads_pair1 rfl g s k
  -- A ternary mould leaves the ten lowest bits of MOD to the instruction's own fields.
  case lop3 o tt | shf o fill | idot4 o au bu | idot2 o au bu | fclamp o z | q8pack o slot pos =>
    simp (disch := decide) only [ReadsAs, encA3_opc, readingOf, readings, BitVec.reduceToNat, Nat.reduceDiv, Nat.reduceMod,
      List.getElem?_cons_succ,
      List.getElem?_cons_zero, Option.bind_some, Option.getD_some, encA3_alu3, encA3_mbit, encA3_fld]
    simp (disch := decide) only [loF, FMod.bits_ftz, BitVec.extractLsb'_append_eq_of_le,
      BitVec.extractLsb'_append_eq_of_add_le, BitVec.extractLsb'_eq_self, getLsbD_append_high, getLsbD_append_low, Nat.reduceSub,
      bit_getLsbD_zero, Fill.ofCode_code]
    try rfl
  case hfma2 o h m | hdot2 o h m =>
    have hm (opc) : (encA3 opc o (loH h m)).fmod = some m := encA3_fmod o ((0 : BitVec 5) ++ bit h) rfl m
    simp (disch := decide) only [ReadsAs, encA3_opc, hm, encA3_alu3, encA3_mbit, readingOf, readings, BitVec.reduceToNat,
      Nat.reduceDiv, Nat.reduceMod, List.getElem?_cons_succ,
      List.getElem?_cons_zero, Option.bind_some, Option.getD_some]
    simp (disch := decide) only [loH, getLsbD_append_high, getLsbD_append_low, Nat.reduceSub, bit_getLsbD_zero]
    rfl
  case mov g d src | nsleep g src =>
    cases src with
    | reg r k =>
      simp only [ReadsAs, enc0, readingOf, readings, BitVec.reduceToNat, Nat.reduceDiv, Nat.reduceMod, List.getElem?_cons_succ,
      List.getElem?_cons_zero, Option.bind_some, Option.getD_some]
      rfl
    | imm v =>
      simp only [ReadsAs, enc0, encB, readingOf, readings, BitVec.reduceToNat, Nat.reduceDiv, Nat.reduceMod,
        List.getElem?_cons_succ,
      List.getElem?_cons_zero, Option.bind_some, Option.getD_some, Fields.imm26, imm26_halves, if_true]
      rfl
  case jset g n src or =>
    rcases src with _ | ⟨m, k⟩
    all_goals
      simp only [ReadsAs, encLits, enc0, readingOf, readings, BitVec.reduceToNat, Nat.reduceDiv, Nat.reduceMod,
        List.getElem?_cons_succ,
      List.getElem?_cons_zero, Option.bind_some, Option.getD_some]
      simp (disch := decide) only [Fields.fld, Fields.mbit, 
      BitVec.extractLsb'_append_eq_of_add_le, BitVec.extractLsb'_eq_self, getLsbD_append_high, getLsbD_append_low, Nat.reduceSub,
      bit_getLsbD_zero, Bool.false_eq_true, if_true, if_false]
      rfl
  case lea64 o sh sx =>
    obtain ⟨g, d, s1, k1, b⟩ := o
    cases b with
    | reg r k =>
      simp only [ReadsAs, encA2_opc, encA2_alu2, readingOf, readings, BitVec.reduceToNat, Nat.reduceDiv, Nat.reduceMod,
        List.getElem?_cons_succ,
      List.getElem?_cons_zero, Option.bind_some, Option.getD_some, encA2_mb, Opnd.isReg, Bool.true_and]
      simp (disch := decide) only [encA2, encB, enc0, Fields.fld, 
      BitVec.extractLsb'_append_eq_of_add_le, BitVec.extractLsb'_eq_self, getLsbD_append_high, getLsbD_append_low, Nat.reduceSub,
      bit_getLsbD_zero, Bool.false_eq_true, if_false]
    | imm v =>
      obtain ⟨rfl, rfl⟩ := wf_lea64_imm hwf
      simp only [ReadsAs, encA2_opc, encA2_alu2, readingOf, readings, BitVec.reduceToNat, Nat.reduceDiv, Nat.reduceMod,
        List.getElem?_cons_succ,
      List.getElem?_cons_zero, Option.bind_some, Option.getD_some, encA2_mb, Opnd.isReg, Bool.false_and]
      rfl
  case brm g k1 k2 es =>
    obtain ⟨h1, h4⟩ := wf_brm hwf
    exact readsAs_brm rfl (brmEntries_encode h1 h4 rfl)
  case unassignedOpcode opc => exact absurd rfl (hu opc)
  case hmin2 o h z | hmax2 o h z =>
    simp only [ReadsAs, encR, enc0, readingOf, readings, BitVec.reduceToNat, Nat.reduceDiv, Nat.reduceMod,
      List.getElem?_cons_succ,
      List.getElem?_cons_zero, Option.bind_some, Option.getD_some, Fields.mbit, mdH_half, mdH_ftz]
    rfl
  case amask g d | callr g l s1 k1 | jtab g x k1 b k2 len dflt | qstat g d p | cspawn g d s1 k1 s2 k2 | launch g d s1 =>
    simp only [ReadsAs, encLits, enc0, readingOf, readings, BitVec.reduceToNat, Nat.reduceDiv, Nat.reduceMod,
      List.getElem?_cons_succ,
      List.getElem?_cons_zero, Option.bind_some, Option.getD_some]
    rfl
  case qbindUn g p | gpost g d s1 | gpostStart g d s1 | wqpush g s1 k1 s2 k2 | wqpushClose g s1 k1 | wqpushReopen g s1 k1 | eret g | eretNx g
      | tlbsync g d | tlbsyncZero g d s1 k1 s2 k2 | rgtok o | ctxswSwap g d s2 k2 | ctxswSv o | ctxswLd o =>
    simp [ReadsAs, encLits, encR, enc0, readingOf, readings, Fields.mbit, Fields.guard, Fields.aluR]
  case dcvt o dir m =>
    have hm (opc) : (encA1 opc o ((0 : BitVec 12) ++ dir.code ++ m.bits)).fmod = some m :=
      fmod_of_low (f := encA1 opc o ((0 : BitVec 12) ++ dir.code ++ m.bits)) rfl (append_bits_rnd ((0 : BitVec 12) ++ dir.code) m)
        (append_bits_ftz ((0 : BitVec 12) ++ dir.code) m)
    simp only [ReadsAs, encA1_opc, hm, readingOf, readings, BitVec.reduceToNat, Nat.reduceDiv, Nat.reduceMod,
      List.getElem?_cons_succ,
      List.getElem?_cons_zero, Option.bind_some, Option.getD_some]
    simp (disch := decide) only [encA1, enc0, Fields.fld, BitVec.extractLsb'_append_eq_of_le,
      BitVec.extractLsb'_append_eq_of_add_le, BitVec.extractLsb'_eq_self, Nat.reduceSub,
      CvtDir.ofCode_code]
    rfl
  all_goals
    simp only [ReadsAs, encLits, encOff, encRng, encA1, encR, enc0, readingOf, readings, BitVec.reduceToNat, Nat.reduceDiv,
      Nat.reduceMod, List.getElem?_cons_succ,
      List.getElem?_cons_zero, Option.bind_some, Option.getD_some]
    simp (disch := decide) only [mdZ_rnd, mdZ_getLsbD, md1_getLsbD, mdMat, mdSP, Fields.imm26, imm26_halves, Fields.s3,
      Fields.fld, Fields.mbit, BitVec.extractLsb'_append_eq_of_le,
      BitVec.extractLsb'_append_eq_of_add_le, BitVec.extractLsb'_eq_self, getLsbD_append_high, getLsbD_append_low, Nat.reduceSub,
      bit_getLsbD_zero,
      ICond.ofCode_code, FCond.ofCode_code, Rnd.ofCode_code, SgnOp.ofCode_code, IType.ofCode_code, VoteOp.ofCode_code,
      MType.ofCode_code, BitOp.ofCode_code, Policy.ofCode_code, Order.ofCode_code, Agent.ofCode_code, Prio.ofCode_code,
      MField.ofCode_code]
    rfl


/-! ### The decoder -/

theorem unassigned_mem : ∀ opc : BitVec 8, unassigned opc = true → opc ∈ ([0x34, 0x35, 0x36, 0x37, 0x66, 0x67, 0x76, 0x77, 0x88,
  0x89,
    0x8A, 0x8B, 0xBA, 0xBB, 0xBC, 0xBD, 0xBE, 0xBF, 0xCC, 0xCD, 0xCE, 0xCF, 0xDB, 0xDC, 0xDD, 0xDE, 0xDF, 0xEA, 0xEB, 0xEC, 0xED,
    0xEE] : List (BitVec 8)) := by decide
/-- The map of R107 has no reading for the opcodes that R108 leaves unassigned. -/
theorem readingOf_unassigned {opc : BitVec 8} (h : unassigned opc = true) (f : Fields) (lits : List DWord) :
    readingOf opc f lits = none := by
  have hm := unassigned_mem opc h
  fin_cases hm <;> rfl

theorem halfOf_bits (h : PHalf) : halfOf h.bits = h := by
  simp (disch := decide) only [halfOf, PHalf.bits, BitVec.extractLsb'_append_eq_of_le, BitVec.extractLsb'_append_eq_of_add_le,
    BitVec.extractLsb'_eq_self, getLsbD_append_high, getLsbD_append_low, Nat.reduceSub, bit_getLsbD_zero]
theorem pairBits_halves (a b : PHalf) :
    (pairBits a b).extractLsb' 32 31 = a.bits ∧ (pairBits a b).extractLsb' 1 31 = b.bits ∧ (pairBits a b).msb = true := by
  refine ⟨?_, ?_, ?_⟩
  · simp (disch := decide) only [pairBits, BitVec.extractLsb'_append_eq_of_le, BitVec.extractLsb'_append_eq_of_add_le,
      BitVec.extractLsb'_eq_self, Nat.reduceSub]
  · simp (disch := decide) only [pairBits, BitVec.extractLsb'_append_eq_of_le, BitVec.extractLsb'_append_eq_of_add_le,
      BitVec.extractLsb'_eq_self, Nat.reduceSub]
  · simp (disch := decide) only [BitVec.msb_eq_getLsbD_last, pairBits, getLsbD_append_high, Nat.reduceSub, bit_getLsbD_zero]

/-- A well-formed pair word is read back from its two halves (R101). -/
theorem decode_pairBits {a b : PHalf} (hwf : (Instr.pairWord a b).wf = true) (lits : List DWord) :
    decode (pairBits a b) lits = .ok (.pairWord a b) := by
  obtain ⟨ha, hb, hm⟩ := pairBits_halves a b
  have he : encode (.pairWord a b) = some [pairBits a b] := rfl
  simp [decode, hm, decodePair, ha, hb, halfOf_bits, he, hwf]

/-- The literal words of an instruction are as many as its first word names (R105, R172). -/
theorem length_encLits {i : Instr} {f : Fields} (hwf : i.wf = true) (hi : encFields i = some f) :
    (encLits i).length ≤ litCount f.word := by
  cases i
  case brm g k1 k2 es =>
    obtain ⟨h1, h4⟩ := wf_brm hwf
    have hopc : f.opc = 0x79 := by cases hi; rfl
    have hm : f.mbit 1 = (BitVec.ofNat 2 (es.length - 1)).getLsbD 1 := by cases hi; exact getLsbD_append_low (by decide)
    simp only [litCount, word_msb, fieldsOf_word, hopc, hm, encLits]
    generalize es.length = n at h1 h4
    interval_cases n <;> exact Nat.le_refl _
  all_goals exact Nat.zero_le _

/-- A well-formed instruction with fields is read back from its word and its literal words. -/
theorem decode_word {i : Instr} {f : Fields} (hwf : i.wf = true) (hi : encFields i = some f) (hp : encode i = some (f.word :: encLits i)) :
    decode f.word (encLits i) = .ok i := by
  have hl := List.take_of_length_le (length_encLits hwf hi)
  simp only [decode, word_msb, Bool.false_eq_true, if_false, hl, decodeFull, fieldsOf_word]
  by_cases hu : ∃ opc, i = .unassignedOpcode opc
  · obtain ⟨opc, rfl⟩ := hu
    obtain rfl := Option.some.inj hi
    exact if_pos hwf
  · have hr : readingOf f.opc f (encLits i) = some i := readsAs_encFields hwf hi fun opc h => hu ⟨opc, h⟩
    have ha : unassigned f.opc = false := by
      by_contra h
      simp [readingOf_unassigned (by simpa using h)] at hr
    simp [ha, hr, hp, hwf]

/-- Settles O1: the words of a well-formed instruction are read back mould by mould, those of a pair word half by half. -/
theorem decodingInvertsEncoding : Obligations.DecodingInvertsEncoding := by
  unfold Obligations.DecodingInvertsEncoding
  intro i w lits hwf he
  by_cases hp : ∃ a b, i = .pairWord a b
  · obtain ⟨a, b, rfl⟩ := hp
    obtain ⟨rfl, rfl⟩ := List.cons.inj (Option.some.inj he)
    exact decode_pairBits hwf []
  · have hf : encode i = (encFields i).map fun f => f.word :: encLits i := by
      cases i <;> first | rfl | exact absurd ⟨_, _, rfl⟩ hp
    rw [hf] at he
    obtain ⟨f, hi, hw⟩ := Option.map_eq_some_iff.mp he
    obtain ⟨rfl, rfl⟩ := List.cons.inj hw
    exact decode_word hwf hi (by rw [hf, hi]; rfl)

end Sys2Proof
end
section
/-! PROOFS. Results of the integer instructions (R142 to R149, R151 to R153): each is its mould (R140) with a function on words. -/
namespace Sys2Proof.Machine

/-! ### An instruction whose meaning is a mould with `f` has the results `f` gives -/

theorem unaryIs_of_exec {i : Alu1 → Instr} {f g : Word → Word} (h : ∀ o s, exec (i o) s = .next (s.unary o f))
    (e : ∀ a, f a = g a) : UnaryIs i g := fun o s hp => by rw [h, s.unary_plain o f hp, funext e]
theorem binaryIs_of_eq {i : Alu2 → Instr} {f g : Word → Word → Word} (h : ∀ o s, exec (i o) s = .next (s.binary o f))
    (e : ∀ a b, f a b = g a b) : BinaryIs i g := by
  rw [← funext₂ e]
  exact binaryIs_of_exec h
theorem binaryRIs_of_exec {i : AluR → Instr} {f g : Word → Word → Word} (h : ∀ o s, exec (i o) s = .next (s.binaryR o f))
    (e : ∀ a b, f a b = g a b) : BinaryRIs i g := fun o s hp => by rw [h, s.binaryR_plain o f hp, funext₂ e]
theorem ternaryIs_of_exec {i : Alu3 → Instr} {f g : Word → Word → Word → Word}
    (h : ∀ o s, exec (i o) s = .next (s.ternary o f)) (e : ∀ a b c, f a b c = g a b c) : TernaryIs i g :=
  fun o s hp => by rw [h, s.ternary_plain o f hp, funext₃ e]
theorem wideIs_of_exec {i : Alu2 → Instr} {f g : DWord → DWord → DWord} (h : ∀ o s, exec (i o) s = .next (s.wide o f))
    (e : ∀ a b, f a b = g a b) : WideIs i g := fun o s => by rw [h, s.wide_plain o f, funext₂ e]
theorem wideCountIs_of_exec {i : Alu2 → Instr} {f g : DWord → Word → DWord}
    (h : ∀ o s, exec (i o) s = .next (s.wideCount o f)) (e : ∀ a b, f a b = g a b) : WideCountIs i g :=
  fun o s hp => by rw [h, s.wideCount_plain o f hp, funext₂ e]

/-! ### Integer arithmetic (R142) -/

theorem ofInt_toNat_sub {n : Nat} (a b : BitVec n) : BitVec.ofInt n (a.toNat - b.toNat) = a - b := by
  simp [Int.sub_eq_add_neg, BitVec.ofInt_add, BitVec.ofInt_neg, BitVec.sub_eq_add_neg]

theorem imulh_eq (a b : Word) : imulh a b = (BitVec.ofInt 64 (a.toInt * b.toInt)).extractLsb' 32 32 := by
  apply BitVec.eq_of_toNat_eq
  simp only [imulh, BitVec.extractLsb'_toNat, BitVec.toNat_ofInt, Nat.shiftRight_eq_div_pow]
  omega
theorem imulhu_eq (a b : Word) : imulhu a b = (BitVec.ofNat 64 (a.toNat * b.toNat)).extractLsb' 32 32 := by
  have hlt : a.toNat * b.toNat < 2 ^ 64 := Nat.mul_lt_mul'' (c := 2 ^ 32) (d := 2 ^ 32) a.isLt b.isLt
  apply BitVec.eq_of_toNat_eq
  simp only [imulhu, BitVec.extractLsb'_toNat, BitVec.toNat_ofNat, Nat.shiftRight_eq_div_pow, Nat.mod_eq_of_lt hlt]
theorem iminR_eq (a b : Word) : iminR a b = BitVec.ofInt 32 (min a.toInt b.toInt) := by
  simp only [iminR, BitVec.sle_iff_toInt_le]
  split
  · next h => rw [min_eq_left h, BitVec.ofInt_toInt]
  · next h => rw [min_eq_right (by omega), BitVec.ofInt_toInt]
theorem imaxR_eq (a b : Word) : imaxR a b = BitVec.ofInt 32 (max a.toInt b.toInt) := by
  simp only [imaxR, BitVec.sle_iff_toInt_le]
  split
  · next h => rw [max_eq_right h, BitVec.ofInt_toInt]
  · next h => rw [max_eq_left (by omega), BitVec.ofInt_toInt]
theorem uminR_eq (a b : Word) : uminR a b = BitVec.ofNat 32 (min a.toNat b.toNat) := by
  simp only [uminR, BitVec.ule_iff_toNat_le]
  split
  · next h => rw [min_eq_left h, BitVec.ofNat_toNat, BitVec.setWidth_eq]
  · next h => rw [min_eq_right (by omega), BitVec.ofNat_toNat, BitVec.setWidth_eq]
theorem umaxR_eq (a b : Word) : umaxR a b = BitVec.ofNat 32 (max a.toNat b.toNat) := by
  simp only [umaxR, BitVec.ule_iff_toNat_le]
  split
  · next h => rw [max_eq_right h, BitVec.ofNat_toNat, BitVec.setWidth_eq]
  · next h => rw [max_eq_left (by omega), BitVec.ofNat_toNat, BitVec.setWidth_eq]
theorem iabsR_eq (sat : Bool) (a : Word) : iabsR sat a =
    if sat && a == 0x80000000 then 0x7FFFFFFF else BitVec.ofNat 32 a.toInt.natAbs := by
  have h : (if a.msb then -a else a) = BitVec.ofNat 32 a.toInt.natAbs := by
    apply BitVec.eq_of_toNat_eq
    have := a.isLt
    rw [BitVec.toNat_ofNat, BitVec.toInt_eq_msb_cond]
    split
    · rw [BitVec.toNat_neg]
      omega
    · rw [Int.natAbs_natCast, Nat.mod_eq_of_lt a.isLt]
  rw [iabsR, h]
theorem inegR_eq (sat : Bool) (a : Word) : inegR sat a =
    if sat && a == 0x80000000 then 0x7FFFFFFF else BitVec.ofInt 32 (-a.toInt) := by
  rw [inegR, BitVec.ofInt_neg, BitVec.ofInt_toInt]
/-- A saturated sum is the sum moved to the nearest end of its type's range. -/
theorem sat32_false (x : Int) : sat32 false x = BitVec.ofInt 32 (max (-2147483648) (min 2147483647 x)) := by
  simp only [sat32, satInt, Bool.false_eq_true, if_false]
  congr 1
  omega
theorem sat32_true (x : Int) : sat32 true x = BitVec.ofInt 32 (max 0 (min 4294967295 x)) := by
  simp only [sat32, satInt, if_true]
  congr 1
  omega
theorem iaddsR_true_eq (a b : Word) : iaddsR true a b = BitVec.ofNat 32 (min 4294967295 (a.toNat + b.toNat)) := by
  rw [iaddsR, sat32_true, ← BitVec.ofInt_natCast]
  simp only [intOf, if_true]
  congr 1
  omega
theorem isubsR_true_eq (a b : Word) : isubsR true a b = BitVec.ofNat 32 (a.toNat - b.toNat) := by
  rw [isubsR, sat32_true, ← BitVec.ofInt_natCast]
  simp only [intOf, if_true]
  congr 1
  have := a.isLt
  omega

/-- Settles O8: each instruction is its mould with a function that is exact arithmetic reduced to the width of D. -/
theorem integerArithmetic : Obligations.IntegerArithmetic := by
  unfold Obligations.IntegerArithmetic
  exact ⟨binaryIs_of_eq (fun _ _ => rfl) fun a b => by simp [BitVec.ofNat_add],
    binaryIs_of_eq (fun _ _ => rfl) fun a b => (ofInt_toNat_sub a b).symm,
    binaryIs_of_eq (fun _ _ => rfl) fun a b => by simp [BitVec.ofNat_mul],
    binaryIs_of_eq (fun _ _ => rfl) imulh_eq, binaryIs_of_eq (fun _ _ => rfl) imulhu_eq,
    ternaryIs_of_exec (fun _ _ => rfl) fun a b c => by simp [BitVec.ofNat_mul, BitVec.ofNat_add],
    wideIs_of_exec (fun _ _ => rfl) fun a b => by simp [BitVec.ofNat_add],
    wideIs_of_exec (fun _ _ => rfl) fun a b => (ofInt_toNat_sub a b).symm,
    wideIs_of_exec (fun _ _ => rfl) fun a b => by simp [BitVec.ofNat_mul],
    binaryIs_of_eq (fun _ _ => rfl) iminR_eq, binaryIs_of_eq (fun _ _ => rfl) imaxR_eq,
    binaryIs_of_eq (fun _ _ => rfl) uminR_eq, binaryIs_of_eq (fun _ _ => rfl) umaxR_eq,
    fun sat => unaryIs_of_exec (fun _ _ => rfl) (iabsR_eq sat), fun sat => unaryIs_of_exec (fun _ _ => rfl) (inegR_eq sat),
    binaryIs_of_eq (fun _ _ => rfl) fun a b => sat32_false _, binaryIs_of_eq (fun _ _ => rfl) iaddsR_true_eq,
    binaryIs_of_eq (fun _ _ => rfl) fun a b => sat32_false _, binaryIs_of_eq (fun _ _ => rfl) isubsR_true_eq,
    ternaryIs_of_exec (fun _ _ => rfl) fun _ _ _ => rfl, ternaryIs_of_exec (fun _ _ => rfl) fun _ _ _ => rfl⟩

end Sys2Proof.Machine
end
section
/-! PROOFS. Results of the logic, shift, field, count, permute and dot-product instructions (R144 to R147, R152). -/
namespace Sys2Proof.Machine

/-- A word is the one whose bits a function gives. -/
theorem eq_ofFnLE {n : Nat} {a : BitVec n} {f : Fin n → Bool} (h : ∀ i : Fin n, a.getLsbD i = f i) : a = BitVec.ofFnLE f :=
  BitVec.eq_of_getLsbD_eq fun i hi => by rw [h ⟨i, hi⟩, BitVec.getLsbD_ofFnLE]; simp [hi]

/-- The bits of a word gathered by a fold. -/
theorem getLsbD_foldl_or {n : Nat} (l : List Nat) (p : Nat → Bool) (m : Nat → BitVec n) (x : BitVec n) (i : Nat) :
    (l.foldl (fun r k => if p k then r ||| m k else r) x).getLsbD i =
      (x.getLsbD i || l.any fun k => p k && (m k).getLsbD i) := by
  induction l generalizing x with
  | nil => simp
  | cons k l ih => rw [List.foldl_cons, ih]; by_cases h : p k <;> simp [h, Bool.or_assoc]

theorem lop3R_eq (tt : BitVec 8) (a b c : Word) : lop3R tt a b c = BitVec.ofFnLE fun i =>
    tt.getLsbD ((a.getLsbD i).toNat + 2 * (b.getLsbD i).toNat + 4 * (c.getLsbD i).toNat) := by
  refine eq_ofFnLE fun i => ?_
  have hi := i.isLt
  rw [lop3R, getLsbD_foldl_or]
  cases ha : a.getLsbD i <;> cases hb : b.getLsbD i <;> cases hc : c.getLsbD i <;>
    simp [List.range_succ, ha, hb, hc, hi, -BitVec.getLsbD_eq_getElem]

/-! ### Shifts in exact arithmetic (R145) -/

theorem shiftLeft_eq_ofNat {n : Nat} (a : BitVec n) (k : Nat) : a <<< k = BitVec.ofNat n (a.toNat * 2 ^ k) := by
  apply BitVec.eq_of_toNat_eq
  rw [BitVec.toNat_shiftLeft, BitVec.toNat_ofNat, Nat.shiftLeft_eq]
theorem ushiftRight_eq_ofNat {n : Nat} (a : BitVec n) (k : Nat) : a >>> k = BitVec.ofNat n (a.toNat / 2 ^ k) := by
  apply BitVec.eq_of_toNat_eq
  rw [BitVec.toNat_ushiftRight, BitVec.toNat_ofNat, Nat.shiftRight_eq_div_pow,
    Nat.mod_eq_of_lt (Nat.lt_of_le_of_lt (Nat.div_le_self _ _) a.isLt)]
theorem sshiftRight_eq_ofInt {n : Nat} (a : BitVec n) (k : Nat) : a.sshiftRight k = BitVec.ofInt n (a.toInt / 2 ^ k) := by
  rw [← BitVec.ofInt_toInt (x := a.sshiftRight k), BitVec.toInt_sshiftRight, Int.shiftRight_eq_div_pow]
  rfl
/-- The lower half of a double word, by its value. -/
theorem setWidth_eq_ofInt {n m : Nat} (h : n ≤ m) (a : BitVec m) : a.setWidth n = BitVec.ofInt n a.toInt :=
  (BitVec.signExtend_eq_setWidth_of_le a h).symm

theorem rolR_eq (a b : Word) : rolR a b =
    BitVec.ofNat 32 (a.toNat * 2 ^ (b.toNat % 32) + a.toNat / 2 ^ (32 - b.toNat % 32)) := by
  have hdisj : a <<< (b.toNat % 32) &&& a >>> (32 - b.toNat % 32) = 0#32 := by
    refine BitVec.eq_of_getLsbD_eq fun i hi => ?_
    rw [BitVec.getLsbD_and, BitVec.getLsbD_shiftLeft, BitVec.getLsbD_ushiftRight, BitVec.getLsbD_zero]
    by_cases hlt : i < b.toNat % 32
    · simp [hlt]
    · rw [BitVec.getLsbD_of_ge a (32 - b.toNat % 32 + i) (by omega), Bool.and_false]
  rw [rolR, BitVec.rotateLeft_def, Nat.mod_mod, ← BitVec.add_eq_or_of_and_eq_zero _ _ hdisj, shiftLeft_eq_ofNat,
    ushiftRight_eq_ofNat, ← BitVec.ofNat_add]
theorem shfR_rot_eq (a b c : Word) : shfR .rot a b c =
    BitVec.ofFnLE fun i => (b ++ a : DWord).getLsbD ((i + c.toNat) % 64) := by
  refine eq_ofFnLE fun i => ?_
  have hi := i.isLt
  rw [shfR, BitVec.getLsbD_setWidth, BitVec.getLsbD_rotateRight, Nat.mod_mod]
  by_cases hlt : i < 64 - c.toNat % 64
  · rw [decide_eq_true hlt, cond_true, decide_eq_true hi, Bool.true_and, show c.toNat % 64 + i = (i + c.toNat) % 64 by omega]
  · rw [decide_eq_false hlt, cond_false, decide_eq_true hi, decide_eq_true (show (i : Nat) < 64 by omega), Bool.true_and,
      Bool.true_and, show (i : Nat) - (64 - c.toNat % 64) = (i + c.toNat) % 64 by omega]
theorem shfR_z_eq (a b c : Word) : shfR .z a b c = BitVec.ofNat 32 ((b ++ a : DWord).toNat / 2 ^ min c.toNat 64) := by
  rw [shfR, ushiftRight_eq_ofNat, BitVec.setWidth_ofNat_of_le (by decide)]
theorem shfR_s_eq (a b c : Word) : shfR .s a b c = BitVec.ofInt 32 ((b ++ a : DWord).toInt / 2 ^ min c.toNat 64) := by
  rw [shfR, setWidth_eq_ofInt (by decide), BitVec.toInt_sshiftRight, Int.shiftRight_eq_div_pow]
  rfl

/-! ### Bit fields, permutes and dot products (R146, R147, R152) -/

theorem fieldPos_eq (b : Word) : fieldPos b = b.toNat % 256 := by
  simp [fieldPos]
theorem fieldLen_eq (b : Word) : fieldLen b = min (b.toNat / 256 % 256) 32 := by
  simp [fieldLen, Nat.shiftRight_eq_div_pow]

/-- What `bfe` shifts down to bit 0: its bits beyond bit 31 of a are 0, or a[31] with SX (R146). -/
def bfeShifted (sx : Bool) (a : Word) (pos : Nat) : DWord :=
  let ext : DWord := if sx then a.signExtend 64 else a.setWidth 64
  if sx then ext.sshiftRight pos else ext >>> pos
theorem getLsbD_bfeShifted (sx : Bool) (a : Word) (pos k : Nat) (hk : k < 64) : (bfeShifted sx a pos).getLsbD k =
    if pos + k ≤ 31 then a.getLsbD (pos + k) else sx && a.getLsbD 31 := by
  have hmsb : a.msb = a.getLsbD 31 := BitVec.msb_eq_getLsbD_last a
  cases sx with
  | false =>
    simp only [bfeShifted, Bool.false_eq_true, if_false, BitVec.getLsbD_ushiftRight, BitVec.getLsbD_setWidth, Bool.false_and]
    split
    · rw [decide_eq_true (by omega), Bool.true_and]
    · rw [BitVec.getLsbD_of_ge a (pos + k) (by omega), Bool.and_false]
  | true =>
    simp only [bfeShifted, if_true, BitVec.getLsbD_sshiftRight, BitVec.getLsbD_signExtend, Bool.true_and]
    grind
/-- A mask of `len` low bits. -/
theorem getLsbD_mask {n : Nat} (len i : Nat) (h : i < n) : (BitVec.ofNat n (2 ^ len - 1)).getLsbD i = decide (i < len) := by
  rw [BitVec.getLsbD_ofNat, Nat.testBit_two_pow_sub_one, decide_eq_true h, Bool.true_and]
/-- `bfe` of a field that is not empty: the field, then its last bit with SX. -/
theorem getLsbD_bfeR (sx : Bool) (a b : Word) (h : fieldLen b ≠ 0) (i : Nat) (hi : i < 32) : (bfeR sx a b).getLsbD i =
    if i < fieldLen b then (bfeShifted sx a (fieldPos b)).getLsbD i
    else sx && (bfeShifted sx a (fieldPos b)).getLsbD (fieldLen b - 1) := by
  have hmask := getLsbD_mask (n := 64) (fieldLen b) i (by omega)
  rw [bfeR, if_neg h]
  change (if sx && (bfeShifted sx a (fieldPos b)).getLsbD (fieldLen b - 1) then
      ((bfeShifted sx a (fieldPos b) &&& BitVec.ofNat 64 (2 ^ fieldLen b - 1)) |||
        ~~~(BitVec.ofNat 64 (2 ^ fieldLen b - 1))).setWidth 32
    else (bfeShifted sx a (fieldPos b) &&& BitVec.ofNat 64 (2 ^ fieldLen b - 1)).setWidth 32).getLsbD i = _
  split <;> simp only [BitVec.getLsbD_setWidth, BitVec.getLsbD_or, BitVec.getLsbD_and, BitVec.getLsbD_not, hmask] <;> grind
theorem bfeR_eq (sx : Bool) (a b : Word) : bfeR sx a b =
    let pos := b.toNat % 256
    let len := min (b.toNat / 256 % 256) 32
    let field := fun k => if pos + k ≤ 31 then a.getLsbD (pos + k) else sx && a.getLsbD 31
    BitVec.ofFnLE fun i => if i < len then field i else sx && len != 0 && field (len - 1) := by
  have hle : fieldLen b ≤ 32 := Nat.min_le_right _ _
  simp only [← fieldPos_eq, ← fieldLen_eq]
  refine eq_ofFnLE fun i => ?_
  have hi := i.isLt
  have hbit := getLsbD_bfeShifted sx a (fieldPos b)
  by_cases h0 : fieldLen b = 0
  · simp [bfeR, h0]
  · rw [getLsbD_bfeR sx a b h0 i hi, hbit i (by omega), hbit (fieldLen b - 1) (by omega), bne_iff_ne.mpr h0, Bool.and_true]

theorem bfiR_eq (a b c : Word) : bfiR a b c = BitVec.ofFnLE fun i =>
    if b.toNat % 256 ≤ i ∧ i < b.toNat % 256 + min (b.toNat / 256 % 256) 32 then a.getLsbD (i - b.toNat % 256)
    else c.getLsbD i := by
  rw [bfiR, fieldPos_eq, fieldLen_eq]
  refine eq_ofFnLE fun i => ?_
  have hi := i.isLt
  simp only [BitVec.getLsbD_or, BitVec.getLsbD_and, BitVec.getLsbD_not, BitVec.getLsbD_shiftLeft, hi, decide_true, Bool.true_and,
    getLsbD_mask _ _ (show (i : Nat) - b.toNat % 256 < 32 by omega)]
  by_cases hlo : (i : Nat) < b.toNat % 256
  · simp [hlo, show ¬ b.toNat % 256 ≤ i by omega]
  · by_cases hup : (i : Nat) < b.toNat % 256 + min (b.toNat / 256 % 256) 32
    · have : (i : Nat) - b.toNat % 256 < min (b.toNat / 256 % 256) 32 := by omega
      rw [if_pos ⟨by omega, hup⟩, decide_eq_true this, decide_eq_false hlo]
      simp
    · have : ¬ (i : Nat) - b.toNat % 256 < min (b.toNat / 256 % 256) 32 := by omega
      rw [if_neg (fun h => hup h.2), decide_eq_false this]
      simp
theorem popcR_eq (a : Word) : popcR a = BitVec.ofNat 32 ((List.range 32).countP fun i => a.getLsbD i) := by
  rw [popcR, List.countP_eq_length_filter]
theorem brevR_eq (a : Word) : brevR a = BitVec.ofFnLE fun i => a.getLsbD (31 - i) := by
  refine eq_ofFnLE fun i => ?_
  have hi := i.isLt
  have hone (k : Nat) : (1#32 <<< k).getLsbD i = decide (k = (i : Nat)) := by
    rw [BitVec.getLsbD_shiftLeft, BitVec.getLsbD_one]
    grind
  rw [brevR, getLsbD_foldl_or]
  rw [show (0 : Word).getLsbD i = false from BitVec.getLsbD_zero, Bool.false_or, Bool.eq_iff_iff]
  simp only [hone, List.any_eq_true, List.mem_range, Bool.and_eq_true, decide_eq_true_eq]
  exact ⟨fun ⟨k, _, h, hk⟩ => hk ▸ h, fun h => ⟨i, hi, h, rfl⟩⟩
/-- A bit of a word that is put together from its bytes. -/
theorem getLsbD_bytes (f : Nat → Byte) (i : Nat) (hi : i < 32) :
    (f 3 ++ f 2 ++ f 1 ++ f 0 : Word).getLsbD i = (f (i / 8)).getLsbD (i % 8) := by
  have hq : i / 8 = 0 ∨ i / 8 = 1 ∨ i / 8 = 2 ∨ i / 8 = 3 := by omega
  rcases hq with hq | hq | hq | hq <;> rw [hq] <;> simp only [BitVec.getLsbD_append] <;> grind
theorem prmtR_eq (sel : BitVec 12) (zero : BitVec 4) (a b : Word) : prmtR sel zero a b = BitVec.ofFnLE fun i =>
    !zero.getLsbD (i / 8) && (b ++ a : DWord).getLsbD (8 * (sel.toNat / 8 ^ (i.val / 8) % 8) + i % 8) := by
  refine eq_ofFnLE fun i => ?_
  have hi := i.isLt
  have hsel (k : Nat) : (sel.extractLsb' (3 * k) 3).toNat = sel.toNat / 8 ^ k % 8 := by
    rw [BitVec.extractLsb'_toNat, Nat.shiftRight_eq_div_pow, Nat.pow_mul]
  refine (getLsbD_bytes (fun k => if zero.getLsbD k then 0#8 else
    (b ++ a : DWord).extractLsb' (8 * (sel.extractLsb' (3 * k) 3).toNat) 8) i hi).trans ?_
  rw [hsel]
  split
  · next h => simp [h]
  · next h => simp [h, BitVec.getLsbD_extractLsb', show (i : Nat) % 8 < 8 by omega]
theorem idot4R_eq (au bu : Bool) (a b c : Word) : idotR 8 4 au bu a b c =
    let x := fun k => let e := a.extractLsb' (8 * k) 8; if au then (e.toNat : Int) else e.toInt
    let y := fun k => let e := b.extractLsb' (8 * k) 8; if bu then (e.toNat : Int) else e.toInt
    BitVec.ofInt 32 (x 0 * y 0 + x 1 * y 1 + x 2 * y 2 + x 3 * y 3 + c.toInt) := by
  simp only [idotR, partOf, intOf, List.range_succ, List.range_zero, List.nil_append, List.foldl_append, List.foldl_cons,
    List.foldl_nil]
  congr 1
  ring
theorem idot2R_eq (au bu : Bool) (a b c : Word) : idotR 16 2 au bu a b c =
    let x := fun k => let e := a.extractLsb' (16 * k) 16; if au then (e.toNat : Int) else e.toInt
    let y := fun k => let e := b.extractLsb' (16 * k) 16; if bu then (e.toNat : Int) else e.toInt
    BitVec.ofInt 32 (x 0 * y 0 + x 1 * y 1 + c.toInt) := by
  simp only [idotR, partOf, intOf, List.range_succ, List.range_zero, List.nil_append, List.foldl_append, List.foldl_cons,
    List.foldl_nil]
  congr 1
  ring

/-! ### Leading and trailing zeros (R147) -/

/-- How many numbers from 0 on satisfy `p`, where `k` is the first that does not. -/
theorem length_takeWhile_range {p : Nat → Bool} {n k : Nat} (hk : k < n) (h : ∀ j, j < k → p j = true) (hn : p k = false) :
    ((List.range n).takeWhile p).length = k := by
  obtain ⟨m, rfl⟩ := Nat.exists_eq_add_of_lt hk
  rw [Nat.add_assoc, List.range_add, List.takeWhile_append_of_pos (by simpa using h), List.range_succ_eq_map]
  simp [hn]
/-- All numbers below `n` satisfy `p`. -/
theorem length_takeWhile_range_all {p : Nat → Bool} {n : Nat} (h : ∀ j, j < n → p j = true) :
    ((List.range n).takeWhile p).length = n := by
  rw [List.takeWhile_eq_self_iff.mpr (by simpa using h), List.length_range]

theorem getLsbD_log2 {a : Word} (ha : a ≠ 0) : a.getLsbD a.toNat.log2 = true :=
  Nat.testBit_log2 (BitVec.toNat_ne_iff_ne.mpr ha)
theorem clzR_eq (a : Word) : clzR a = if a = 0 then 32 else BitVec.ofNat 32 (31 - a.toNat.log2) := by
  rw [clzR]
  split
  · next h =>
    rw [h, length_takeWhile_range_all (by simp)]; rfl
  · next h =>
    have hlog : a.toNat.log2 < 32 := (Nat.log2_lt (BitVec.toNat_ne_iff_ne.mpr h)).mpr a.isLt
    rw [length_takeWhile_range (k := 31 - a.toNat.log2) (by omega)]
    · intro j hj
      rw [Bool.not_eq_true']
      exact Nat.testBit_lt_two_pow (Nat.lt_of_lt_of_le Nat.lt_log2_self (Nat.pow_le_pow_right (by decide) (by omega)))
    · rw [show 31 - (31 - a.toNat.log2) = a.toNat.log2 by omega, getLsbD_log2 h]
      rfl
/-- The lowest bit that is 1 in a word, alone (R147). -/
theorem and_neg_eq_twoPow {a : Word} {k : Nat} (hk : a.getLsbD k = true) (h : ∀ j, j < k → a.getLsbD j = false) :
    a &&& -a = BitVec.twoPow 32 k := by
  refine BitVec.eq_of_getLsbD_eq fun i hi => ?_
  rw [BitVec.getLsbD_and, BitVec.getLsbD_neg, BitVec.getLsbD_twoPow]
  rcases Nat.lt_trichotomy i k with hlt | rfl | hgt
  · rw [h i hlt, decide_eq_false (by omega : ¬ k = i)]
    simp
  · have : ¬ ∃ j < i, a.getLsbD j = true := fun ⟨j, hj, hj'⟩ => by simp [h j hj] at hj'
    simp [hk, hi, this]
  · have : ∃ j < i, a.getLsbD j = true := ⟨k, hgt, hk⟩
    simp [hi, this, Nat.ne_of_lt hgt]
theorem ctzR_eq (a : Word) : ctzR a = if a = 0 then 32 else BitVec.ofNat 32 (a &&& -a).toNat.log2 := by
  rw [ctzR]
  split
  · next h => rw [h, length_takeWhile_range_all (by simp)]; rfl
  · next h =>
    have hex : ∃ k, a.getLsbD k = true := ⟨_, getLsbD_log2 h⟩
    have hk := Nat.find_spec hex
    have hlow : ∀ j, j < Nat.find hex → a.getLsbD j = false := fun j hj => Bool.eq_false_iff.mpr (Nat.find_min hex hj)
    have hlt : Nat.find hex < 32 := BitVec.lt_of_getLsbD hk
    rw [and_neg_eq_twoPow hk hlow, length_takeWhile_range hlt (fun j hj => by simp [hlow j hj]) (by simp [hk]),
      BitVec.toNat_twoPow, Nat.mod_eq_of_lt (Nat.pow_lt_pow_right (by decide) hlt), Nat.log2_two_pow]

/-- Settles O10: each instruction is its mould with a function whose result is the manual's bit by bit or in exact arithmetic. -/
theorem logicShiftsFieldsAndDots : Obligations.LogicShiftsFieldsAndDots := by
  unfold Obligations.LogicShiftsFieldsAndDots
  refine ⟨⟨?_, ?_, ?_, ?_, ?_, ?_, ?_, ?_, ?_, ?_, ?_, ?_, ?_, ?_, ?_, ?_⟩, ?_, ?_, ?_, ?_, ?_, ?_, ?_, ?_, ?_⟩
  · exact binaryIs_of_eq (fun _ _ => rfl) fun a b => eq_ofFnLE fun i => BitVec.getLsbD_and
  · exact binaryIs_of_eq (fun _ _ => rfl) fun a b => eq_ofFnLE fun i => BitVec.getLsbD_or
  · exact binaryIs_of_eq (fun _ _ => rfl) fun a b => eq_ofFnLE fun i => BitVec.getLsbD_xor
  · exact binaryIs_of_eq (fun _ _ => rfl) fun a b => eq_ofFnLE fun i => by simp
  · exact unaryIs_of_exec (fun _ _ => rfl) fun a => eq_ofFnLE fun i => by simp
  · exact fun tt => ternaryIs_of_exec (fun _ _ => rfl) (lop3R_eq tt)
  · exact binaryIs_of_eq (fun _ _ => rfl) fun a b => by rw [shlR, shiftLeft_eq_ofNat]
  · exact binaryIs_of_eq (fun _ _ => rfl) fun a b => by rw [shrR, ushiftRight_eq_ofNat]
  · exact binaryIs_of_eq (fun _ _ => rfl) fun a b => by rw [sarR, sshiftRight_eq_ofInt]
  · exact binaryIs_of_eq (fun _ _ => rfl) rolR_eq
  · exact ternaryIs_of_exec (fun _ _ => rfl) shfR_rot_eq
  · exact ternaryIs_of_exec (fun _ _ => rfl) shfR_z_eq
  · exact ternaryIs_of_exec (fun _ _ => rfl) shfR_s_eq
  · exact wideCountIs_of_exec (fun _ _ => rfl) fun a n => by rw [shl64R, shiftLeft_eq_ofNat]
  · exact wideCountIs_of_exec (fun _ _ => rfl) fun a n => by rw [shr64R, ushiftRight_eq_ofNat]; rfl
  · exact wideCountIs_of_exec (fun _ _ => rfl) fun a n => by rw [shr64R, sshiftRight_eq_ofInt]; rfl
  · exact fun sx => binaryIs_of_eq (fun _ _ => rfl) (bfeR_eq sx)
  · exact ternaryIs_of_exec (fun _ _ => rfl) bfiR_eq
  · exact unaryIs_of_exec (fun _ _ => rfl) popcR_eq
  · exact unaryIs_of_exec (fun _ _ => rfl) clzR_eq
  · exact unaryIs_of_exec (fun _ _ => rfl) ctzR_eq
  · exact unaryIs_of_exec (fun _ _ => rfl) brevR_eq
  · exact fun sel zero => binaryRIs_of_exec (fun _ _ => rfl) (prmtR_eq sel zero)
  · exact fun au bu => ternaryIs_of_exec (fun _ _ => rfl) (idot4R_eq au bu)
  · exact fun au bu => ternaryIs_of_exec (fun _ _ => rfl) (idot2R_eq au bu)

end Sys2Proof.Machine
end
section
/-! PROOFS. Selection, comparison, moves, address formation and run-time register moves (R148 to R151). -/
namespace Sys2Proof.Machine

/-! ### Selection and comparison (R148) -/

theorem icmpHolds_eq {n : Nat} (c : ICond) (u : Bool) (a b : BitVec n) : icmpHolds c u a b =
    comparesAs c (if u then (a.toNat : Int) else a.toInt) (if u then (b.toNat : Int) else b.toInt) := by
  cases u <;> cases c <;>
    simp [icmpHolds, comparesAs, BitVec.slt_eq_decide, BitVec.sle_eq_decide, BitVec.ult_eq_decide, BitVec.ule_eq_decide,
      BitVec.toInt_inj, BitVec.toNat_inj, bne, beq_eq_decide]
theorem setWidth_predicate (b : Bool) : ((predicate b).setWidth 64).setWidth 32 = predicate b := by cases b <;> rfl

theorem exec_icmp64 (o : AluR) (c : ICond) (u : Bool) (s : State) (hd : plainRegs [o.d]) :
    exec (.icmp64 o c u) s = .next (s.completed o.g fun st =>
      ((st.kill64 o.s1 o.k1).kill64 o.s2 o.k2).wr o.d (predicate (icmpHolds c u (st.rd64 o.s1) (st.rd64 o.s2)))) := by
  simp at hd
  refine congrArg Host.Outcome.next ((s.alu_plain o.g _ rfl rfl rfl (Dst.port_r32 hd)).trans ?_)
  refine congrArg (s.completed o.g) (funext fun st => ?_)
  simp [laneOp, Src.read, Src.killIn, Dst.write, noSrc, setWidth_predicate]

/-! ### Moves and address formation (R149, R151) -/

theorem exec_mov (g : Guard) (d : Reg) (src : Opnd) (s : State) (h : plainRegs (d :: opndRegs src)) :
    exec (.mov g d src) s = .next (s.completed g fun st => (killOpnd st src).wr d (opnd32 st src)) := by
  simp at h
  refine congrArg Host.Outcome.next ((s.alu_plain g _ (srcB_port h.2) rfl rfl (Dst.port_r32 h.1)).trans ?_)
  refine congrArg (s.completed g) (funext fun st => ?_)
  simp only [laneOp, noSrc, Dst.write, Src.killIn_srcB, Src.read_srcB]
  simp [Src.killIn]
theorem lih_eq (imm : BitVec 16) (a : Word) :
    imm ++ (a.setWidth 64).extractLsb' 0 16 = BitVec.ofNat 32 (65536 * imm.toNat + a.toNat % 65536) := by
  apply BitVec.eq_of_toNat_eq
  have := imm.isLt
  rw [BitVec.toNat_append, BitVec.toNat_ofNat, BitVec.extractLsb'_toNat, ← Nat.shiftLeft_add_eq_or_of_lt (by omega),
    Nat.shiftLeft_eq, BitVec.toNat_setWidth]
  omega
theorem exec_lih (g : Guard) (d : Reg) (imm : BitVec 16) (s : State) (h : plainRegs [d]) :
    exec (.lih g d imm) s = .next (s.completed g fun st =>
      st.wr d (BitVec.ofNat 32 (65536 * imm.toNat + (st.rd d).toNat % 65536))) := by
  simp at h
  refine congrArg Host.Outcome.next ((s.alu_plain g _ (Src.port_r32 _ h) rfl rfl (Dst.port_r32 h)).trans ?_)
  refine congrArg (s.completed g) (funext fun st => ?_)
  simp [laneOp, noSrc, Dst.write, Src.killIn, Src.read, Stream.kill, lih_eq]
theorem leaR_eq (sh : BitVec 3) (sx : Bool) (a : DWord) (b : Word) : leaR sh sx a b =
    a + BitVec.ofInt 64 ((if sx then b.toInt else b.toNat) * 2 ^ sh.toNat) := by
  have hscale (x : Int) : BitVec.ofInt 64 x <<< sh.toNat = BitVec.ofInt 64 (x * 2 ^ sh.toNat) := by
    have hpow : BitVec.twoPow 64 sh.toNat = BitVec.ofInt 64 (2 ^ sh.toNat) := by
      apply BitVec.eq_of_toNat_eq
      rw [BitVec.toNat_twoPow, BitVec.toNat_ofInt]
      norm_cast
    rw [BitVec.shiftLeft_eq_mul_twoPow, BitVec.ofInt_mul, hpow]
  cases sx with
  | false =>
    have : b.setWidth 64 = BitVec.ofInt 64 b.toNat := by rw [BitVec.ofInt_natCast, BitVec.ofNat_toNat]
    rw [leaR, if_neg Bool.false_ne_true, if_neg Bool.false_ne_true, this, hscale]
  | true => simp [leaR, BitVec.signExtend, hscale]
theorem exec_lea64_reg (o : Alu2) (r : Reg) (k : Bool) (sh : BitVec 3) (sx : Bool) (s : State) (hb : o.b = .reg r k)
    (hr : plainRegs [r]) :
    exec (.lea64 o sh sx) s = .next (s.completed o.g fun st =>
      ((st.kill64 o.s1 o.k1).kill r k).wr64 o.d (leaR sh sx (st.rd64 o.s1) (st.rd r))) := by
  have h : exec (.lea64 o sh sx) s = .next (s.wideCount o (leaR sh sx)) := by
    change execLea64 o sh sx s = _
    rw [execLea64, hb]
  rw [h, s.wideCount_plain o _ (by rw [hb]; exact hr), hb]
  rfl
theorem exec_lea64_imm (o : Alu2) (v : BitVec 26) (sh : BitVec 3) (sx : Bool) (s : State) (hb : o.b = .imm v) :
    exec (.lea64 o sh sx) s = .next (s.completed o.g fun st =>
      (st.kill64 o.s1 o.k1).wr64 o.d (st.rd64 o.s1 + v.signExtend 64)) := by
  change execLea64 o sh sx s = _
  rw [execLea64, hb]
  refine congrArg Host.Outcome.next ((s.alu_plain o.g _ rfl rfl rfl rfl).trans ?_)
  refine congrArg (s.completed o.g) (funext fun st => ?_)
  simp [laneOp, Src.read, Src.killIn, Dst.write, noSrc]

/-! ### Run-time register moves (R150) -/

section
variable (s : State) (g : Guard) (base : BitVec 8) (s1 : Reg)

theorem State.runIndex_isNone (id : SId) (x : Word) : (s.runIndex base id x).isNone = decide (s.ownRegs id ≤ x.toNat + base.toNat) := by
  unfold State.runIndex
  grind

/-- Without a port, the lane whose number is checked first and found beyond its registers makes the instruction trap. -/
theorem State.runTime_trap (go : Unit → State) (fail : SId) (hp : Reg.isPort s1 = false)
    (h : (s.active g).find? (fun id => s.ownRegs id ≤ ((s.stream id).rd s1).toNat + base.toNat) = some fail) :
    s.runTime g base s1 go = s.trap7 g cIllegalOperand fail 0 := by
  have hbad : s.badIndex base ((s.active g).map fun id => (id, (s.stream id).rd s1)) = some fail := by
    simp only [State.badIndex, List.find?_map, Function.comp_def, State.runIndex_isNone, h]
    rfl
  simp [State.runTime, hp, hbad]
/-- Without a port and with every lane's number in range and its register known, the move goes on. -/
theorem State.runTime_go (go : Unit → State) (hp : Reg.isPort s1 = false)
    (h : ∀ id ∈ s.active g, ((s.stream id).rd s1).toNat + base.toNat < s.ownRegs id ∧
      s.Known id (BitVec.ofNat 8 (((s.stream id).rd s1).toNat + base.toNat))) :
    s.runTime g base s1 go = go () := by
  have hbad : s.badIndex base ((s.active g).map fun id => (id, (s.stream id).rd s1)) = none := by
    simp only [State.badIndex, List.find?_map, Function.comp_def, State.runIndex_isNone, Option.map_eq_none_iff,
      List.find?_eq_none, decide_eq_true_eq, Nat.not_le]
    exact fun id hid => (h id hid).1
  have hheld : s.indexHeld base ((s.active g).map fun id => (id, (s.stream id).rd s1)) = false := by
    simp only [State.indexHeld, List.any_map, List.any_eq_false, Function.comp_apply]
    intro id hid
    obtain ⟨hlt, hout, hloop⟩ := h id hid
    simpa [State.runIndex, hlt, hout] using hloop
  simp [State.runTime, hp, hbad, hheld]
end

theorem exec_movri (o : Alu1) (base : BitVec 8) (s : State) : exec (.movri o base) s =
    .next (s.runTime o.g base o.s1 fun _ => s.alu o.g (.r32 o.d) (.r32 o.s1 o.k1) noSrc noSrc fun st a _ _ =>
      (st.rd (BitVec.ofNat 8 (a.toNat + base.toNat))).setWidth 64) := rfl
theorem exec_movwi (g : Guard) (s1 : Reg) (k1 : Bool) (s2 : Reg) (k2 : Bool) (base : BitVec 8) (s : State) :
    exec (.movwi g s1 k1 s2 k2 base) s = execMovwi g s1 k1 s2 k2 base s := rfl

/-- Settles O11: selection, comparison and moves are their moulds; a run-time move goes through `State.runTime`. -/
theorem selectionComparisonAndMoves : Obligations.SelectionComparisonAndMoves := by
  unfold Obligations.SelectionComparisonAndMoves
  refine ⟨⟨?_, ?_, ?_, ?_, ?_, ?_, ?_, exec_nop⟩, ?_, ?_, ?_⟩
  · exact ternaryIs_of_exec (fun _ _ => rfl) fun a b c => by simp [BitVec.getLsbD, Nat.testBit_zero]
  · exact fun c u => binaryRIs_of_exec (fun _ _ => rfl) fun a b => by rw [icmpHolds_eq]; rfl
  · intro o c u s hd
    rw [exec_icmp64 o c u s hd]
    simp only [icmpHolds_eq]
    rfl
  · exact exec_mov
  · exact exec_lih
  · intro o r k sh sx s hb hr
    rw [exec_lea64_reg o r k sh sx s hb hr]
    simp only [leaR_eq]
  · exact exec_lea64_imm
  · intro o base s hp h
    simp at hp
    rw [exec_movri, s.runTime_go o.g base o.s1 _ hp.2 h, s.alu_plain o.g _ (Src.port_r32 _ hp.2) rfl rfl (Dst.port_r32 hp.1)]
    refine congrArg (Host.Outcome.next ∘ s.completed o.g) (funext fun st => ?_)
    have hn : ((st.rd o.s1).setWidth 64).toNat = (st.rd o.s1).toNat := BitVec.toNat_setWidth_of_le (by decide)
    simp [laneOp, Src.read, Src.killIn, Dst.write, noSrc, hn, -BitVec.toNat_setWidth]
  · intro g s1 k1 s2 k2 base s hp h
    simp at hp
    rw [exec_movwi, execMovwi, s.runTime_go g base s1 _ hp.1 h]
    simp [hp, State.retireLanes_eq]
  · intro o g s1 k1 s2 k2 base s fail hp
    simp at hp
    obtain ⟨ho, h1, h2⟩ := hp
    exact ⟨fun h => by rw [exec_movri, s.runTime_trap o.g base o.s1 _ fail ho h],
      fun h => by rw [exec_movwi, execMovwi, s.runTime_trap g base s1 _ fail h1 h]⟩

end Sys2Proof.Machine
end
section
/-! PROOFS. Packed halves and F64 (R211 to R213). -/
namespace Sys2Proof.Machine

/-- An instruction whose meaning is `State.alu` with no port completes with what `laneOp` makes of each lane. -/
theorem exec_of_alu {i : Instr} {s : State} {g : Guard} {d : Dst} {a b c : Src} {f : Stream → DWord → DWord → DWord → DWord}
    {F : Stream → Stream} (h : exec i s = .next (s.alu g d a b c f)) (ha : a.port = none) (hb : b.port = none)
    (hc : c.port = none) (hd : d.port = none) (e : ∀ st, laneOp d a b c f st = F st) :
    exec i s = .next (s.completed g F) := by
  rw [h, s.alu_plain g f ha hb hc hd, funext e]

theorem elem16_zero (a : Word) : elem16 0 a = a.toNat % 65536 := by simp [elem16]
theorem elem16_one (a : Word) : elem16 1 a = a.toNat / 65536 := by
  have := a.isLt
  rw [elem16, BitVec.extractLsb'_toNat, Nat.shiftRight_eq_div_pow]
  omega
theorem halves2_eq (f : Nat → Nat → Nat) (a b : Word) : halves2 f a b =
    BitVec.ofNat 16 (f (a.toNat / 65536) (b.toNat / 65536)) ++ BitVec.ofNat 16 (f (a.toNat % 65536) (b.toNat % 65536)) := by
  simp only [halves2, pack16, elem16_zero, elem16_one]
theorem halves3_eq (f : Nat → Nat → Nat → Nat) (a b c : Word) : halves3 f a b c =
    BitVec.ofNat 16 (f (a.toNat / 65536) (b.toNat / 65536) (c.toNat / 65536)) ++
      BitVec.ofNat 16 (f (a.toNat % 65536) (b.toNat % 65536) (c.toNat % 65536)) := by
  simp only [halves3, pack16, elem16_zero, elem16_one]

/-- An F64 instruction of two operands (R213). -/
theorem exec_pair2 {i : AluR → Instr} {f : Nat → Nat → Nat} (h : ∀ o s, exec (i o) s = .next (s.pair2 o f)) (o : AluR)
    (s : State) : exec (i o) s = .next (s.completed o.g fun st =>
      ((st.kill64 o.s1 o.k1).kill64 o.s2 o.k2).wr64 o.d (BitVec.ofNat 64 (f (st.rd64 o.s1).toNat (st.rd64 o.s2).toNat))) :=
  exec_of_alu (h o s) rfl rfl rfl rfl fun _ => rfl

/-- Settles O13: a packed instruction is its mould with one function on both halves, an F64 instruction works on pairs. -/
theorem packedAndDouble : Obligations.PackedAndDouble := by
  unfold Obligations.PackedAndDouble
  refine ⟨?_, ?_, ?_, ?_, ?_, ?_, ?_, ?_, ?_, ?_⟩
  · exact fun h m => binaryRIs_of_exec (fun _ _ => rfl) (halves2_eq _)
  · exact fun h m => binaryRIs_of_exec (fun _ _ => rfl) (halves2_eq _)
  · exact fun h m => ternaryIs_of_exec (fun _ _ => rfl) (halves3_eq _)
  · exact fun h z => binaryRIs_of_exec (fun _ _ => rfl) (halves2_eq _)
  · exact fun h z => binaryRIs_of_exec (fun _ _ => rfl) (halves2_eq _)
  · refine fun h c z => binaryRIs_of_exec (fun _ _ => rfl) fun a b => ?_
    rw [halves2_eq]
    simp only [Bool.toNat, Bool.cond_eq_ite]
    rfl
  · refine fun h m => ternaryIs_of_exec (fun _ _ => rfl) fun a b c => ?_
    simp only [hdot2R, elem16_zero, elem16_one]
    rfl
  · exact fun o m s => exec_pair2 (i := fun o => .dadd o m) (fun _ _ => rfl) o s
  · exact fun o m s => exec_pair2 (i := fun o => .dmul o m) (fun _ _ => rfl) o s
  · exact fun o m s => exec_of_alu (i := .dfma o m) rfl rfl rfl rfl rfl fun _ => rfl

end Sys2Proof.Machine
end
section
/-! PROOFS. Words written out decode (R93 to R108), and what reset leaves. -/
namespace Sys2Proof.Machine

/-- Settles O6: the decoder computes each. -/
theorem writtenWordsDecode : Obligations.WrittenWordsDecode := by
  unfold Obligations.WrittenWordsDecode
  exact ⟨rfl, rfl, rfl, rfl, rfl, rfl, rfl, rfl⟩

/-- Settles O4: the reset state is written out in the model. -/
theorem resetLeavesTheGivenValues : Obligations.ResetLeavesTheGivenValues := by
  unfold Obligations.ResetLeavesTheGivenValues
  have hports : ∀ fn n, fn < 65 → n < 64 → State.reset.port fn n = blankPort := fun _ _ _ _ => rfl
  have hjobs : ∀ j ∈ State.reset.jobs, j.v = false := by decide
  have hwqs : ∀ n, (State.reset.wq n).v = false := fun _ => rfl
  have hcache : ∀ c ∈ State.reset.vt.caches, c.repl = false ∧ c.wpol = .back ∧ c.line = 128 ∧ c.assoc = 16 ∧
      c.fill = .normal ∧ c.map = (List.range 48).map fun k => (k, List.range 128) := by
    intro c hc
    obtain rfl : c = bootCache := List.mem_singleton.mp hc
    exact ⟨rfl, rfl, rfl, rfl, rfl, rfl⟩
  exact ⟨rfl, rfl, rfl, rfl, rfl, rfl, rfl, rfl, rfl, hports, hjobs, rfl, hwqs, rfl, rfl, rfl, rfl, rfl, rfl, hcache, rfl, rfl, rfl,
    rfl⟩
end Sys2Proof.Machine
end
section
/-! PROOFS. The number formats (R184): encodings and the values they stand for. -/
namespace Sys2Proof.Machine

/-! ### Encodings as a sign and a magnitude -/

/-- What every format of R184 has: an exponent field and a fraction. -/
def Fmt.Ok (f : Fmt) : Prop := 1 ≤ f.t ∧ 1 ≤ f.e
/-- A magnitude that stands for no number: an infinity or a NaN. -/
def Fmt.special (f : Fmt) (mag : Nat) : Bool :=
  if f.infs then mag / 2 ^ f.t == 2 ^ f.e - 1 else mag == f.signBit - 1
/-- The integer significand of a magnitude. -/
def Fmt.mant (f : Fmt) (mag : Nat) : Nat := if mag / 2 ^ f.t = 0 then mag % 2 ^ f.t else 2 ^ f.t + mag % 2 ^ f.t
/-- The exponent of a magnitude. -/
def Fmt.expo (f : Fmt) (mag : Nat) : Int := f.low + (mag / 2 ^ f.t - 1 : Nat)
/-- The value of a magnitude in units of the smallest subnormal. -/
def Fmt.units (f : Fmt) (mag : Nat) : Nat := f.mant mag * 2 ^ (mag / 2 ^ f.t - 1)
/-- The sign of an encoding. -/
def Fmt.negBit (f : Fmt) (b : Nat) : Bool := decide (f.signBit ≤ b % (2 * f.signBit))

variable (f : Fmt)

theorem Fmt.signBit_pos : 0 < f.signBit := Nat.two_pow_pos _
theorem Fmt.signBit_eq : f.signBit = 2 ^ f.e * 2 ^ f.t := Nat.pow_add _ _ _
theorem Fmt.width_eq : 2 ^ f.width = 2 * f.signBit := by
  rw [Fmt.width, Fmt.signBit, Nat.add_assoc, Nat.pow_add, Nat.pow_one]

theorem Fmt.val_of_not_special {f : Fmt} {b : Nat} (h : f.special (b % f.signBit) = false) :
    f.val b = .fin (f.negBit b) (f.mant (b % f.signBit)) (f.expo (b % f.signBit)) false := by
  unfold Fmt.special at h
  simp only [Fmt.val, Fmt.negBit, Fmt.mant, Fmt.expo]
  grind
/-- A magnitude that stands for no number gives an infinity or NaN. -/
theorem Fmt.val_of_special {f : Fmt} {b : Nat} (h : f.special (b % f.signBit) = true) :
    f.val b = if f.infs && b % f.signBit % 2 ^ f.t == 0 then .inf (f.negBit b) else .nan := by
  unfold Fmt.special at h
  simp only [Fmt.val, Fmt.negBit]
  grind
/-- An encoding with a finite value. -/
theorem Fmt.val_eq_fin {f : Fmt} {b m : Nat} {x : Int} {neg st : Bool} (h : f.val b = .fin neg m x st) :
    f.special (b % f.signBit) = false ∧ neg = f.negBit b ∧ m = f.mant (b % f.signBit) ∧ x = f.expo (b % f.signBit) ∧
      st = false := by
  cases hs : f.special (b % f.signBit) with
  | true =>
    rw [f.val_of_special hs] at h
    split at h <;> contradiction
  | false =>
    rw [f.val_of_not_special hs] at h
    obtain ⟨rfl, rfl, rfl, rfl⟩ := FVal.fin.inj h
    exact ⟨rfl, rfl, rfl, rfl, rfl⟩

/-- The magnitudes of numbers are those up to the largest finite one. -/
theorem Fmt.le_maxBits_iff {f : Fmt} (hf : f.Ok) (mag : Nat) :
    mag ≤ f.maxBits ↔ mag < f.signBit ∧ f.special mag = false := by
  have he : 2 ≤ 2 ^ f.e := Nat.pow_le_pow_right (n := 2) (by decide) hf.2
  have ht : 2 ≤ 2 ^ f.t := Nat.pow_le_pow_right (n := 2) (by decide) hf.1
  have hs := f.signBit_eq
  have hdiv (n : Nat) : mag < n * 2 ^ f.t ↔ mag / 2 ^ f.t < n := (Nat.div_lt_iff_lt_mul (by omega)).symm
  have hinf : 0 < (2 ^ f.e - 1) * 2 ^ f.t := Nat.mul_pos (by omega) (by omega)
  have h4 : 4 ≤ f.signBit := hs ▸ Nat.mul_le_mul he ht
  unfold Fmt.maxBits Fmt.special Fmt.infBits
  split
  · rw [hs, hdiv (2 ^ f.e), beq_eq_false_iff_ne]
    have := hdiv (2 ^ f.e - 1)
    omega
  · rw [beq_eq_false_iff_ne]
    omega

theorem Fmt.signed_mod {f : Fmt} {mag : Nat} (neg : Bool) (h : mag < f.signBit) : f.signed neg mag % f.signBit = mag := by
  unfold Fmt.signed
  split
  · rw [Nat.add_mod_left, Nat.mod_eq_of_lt h]
  · exact Nat.mod_eq_of_lt h
theorem Fmt.negBit_signed {f : Fmt} {mag : Nat} (neg : Bool) (h : mag < f.signBit) : f.negBit (f.signed neg mag) = neg := by
  unfold Fmt.signed Fmt.negBit
  cases neg
  · simp [Nat.mod_eq_of_lt (show mag < 2 * f.signBit by omega), h]
  · simp [Nat.mod_eq_of_lt (show f.signBit + mag < 2 * f.signBit by omega)]
/-- An encoding is its sign and its magnitude. -/
theorem Fmt.signed_negBit {f : Fmt} {b : Nat} (h : b < 2 ^ f.width) : f.signed (f.negBit b) (b % f.signBit) = b := by
  rw [f.width_eq] at h
  unfold Fmt.signed Fmt.negBit
  rw [Nat.mod_eq_of_lt h]
  by_cases hb : f.signBit ≤ b
  · simp only [hb, decide_true, if_true]
    rw [Nat.mod_eq_sub_mod hb, Nat.mod_eq_of_lt (by omega)]
    omega
  · simp only [hb, decide_false, Bool.false_eq_true, if_false]
    exact Nat.mod_eq_of_lt (by omega)

/-! ### Greater magnitudes have greater values -/

theorem Fmt.units_zero : f.units 0 = 0 := by simp [Fmt.units, Fmt.mant]
theorem Fmt.units_lt_succ (mag : Nat) : f.units mag < f.units (mag + 1) := by
  have hT : 0 < 2 ^ f.t := Nat.two_pow_pos _
  have ht := Nat.mod_lt mag hT
  have hmag := Nat.div_add_mod mag (2 ^ f.t)
  unfold Fmt.units Fmt.mant
  generalize 2 ^ f.t = T at *
  by_cases hlast : mag % T + 1 < T
  · have hdiv : (mag + 1) / T = mag / T := by
      rw [Nat.div_eq_iff hT, Nat.mul_comm]
      omega
    have hmod : (mag + 1) % T = mag % T + 1 := by
      rw [← hmag, Nat.add_assoc, Nat.mul_add_mod, Nat.mod_eq_of_lt hlast, Nat.mul_add_mod, Nat.mod_mod]
    rw [hdiv, hmod]
    refine Nat.mul_lt_mul_of_pos_right ?_ (Nat.two_pow_pos _)
    split <;> omega
  · have hdiv : (mag + 1) / T = mag / T + 1 := by
      rw [Nat.div_eq_iff hT, Nat.add_mul, Nat.mul_comm (mag / T)]
      omega
    have hmod : (mag + 1) % T = 0 := by
      rw [← hmag, Nat.add_assoc, show mag % T + 1 = T by omega, Nat.mul_add_mod, Nat.mod_self]
    rw [hdiv, hmod, if_neg (Nat.succ_ne_zero _), Nat.add_sub_cancel]
    split
    · next h0 => rw [h0]; omega
    · next h0 =>
      obtain ⟨e, he⟩ := Nat.exists_eq_add_of_lt (Nat.pos_of_ne_zero h0)
      rw [he, Nat.zero_add, Nat.add_sub_cancel, Nat.pow_succ, Nat.mul_comm (2 ^ e), ← Nat.mul_assoc]
      exact Nat.mul_lt_mul_of_pos_right (by omega) (Nat.two_pow_pos _)
theorem Fmt.units_strictMono : StrictMono f.units := strictMono_nat_of_lt_succ f.units_lt_succ
theorem Fmt.expo_eq (mag : Nat) : ((f.mant mag : ℚ) * 2 ^ f.expo mag) = f.units mag * 2 ^ f.low := by
  rw [Fmt.units, Fmt.expo, zpow_add₀ two_ne_zero]
  push_cast
  rw [zpow_natCast]
  ring

/-- The value of an encoding in units of the smallest subnormal, in the order of the encodings' values. -/
def Fmt.signedUnits (z : Int) : Int := if z < 0 then -(f.units z.natAbs : Int) else f.units z.natAbs
theorem Fmt.signedUnits_strictMono : StrictMono f.signedUnits := by
  intro a b hab
  have hpos (n : Nat) (h : n ≠ 0) : 0 < f.units n := by
    have := f.units_strictMono (Nat.pos_of_ne_zero h)
    rwa [f.units_zero] at this
  unfold Fmt.signedUnits
  split <;> split
  · have := f.units_strictMono (show b.natAbs < a.natAbs by omega)
    omega
  · have := hpos a.natAbs (by omega)
    omega
  · omega
  · have := f.units_strictMono (show a.natAbs < b.natAbs by omega)
    omega
/-- The value of a number's encoding, by its place in the order of R206. -/
theorem Fmt.val_eq_signedUnits {f : Fmt} {b m : Nat} {x : Int} {neg : Bool} (hb : b < 2 ^ f.width)
    (h : f.val b = .fin neg m x false) :
    ((if neg then -1 else 1) * m * 2 ^ x : ℚ) = f.signedUnits (f.ord b) * 2 ^ f.low := by
  obtain ⟨_, rfl, rfl, rfl, _⟩ := Fmt.val_eq_fin h
  rw [mul_assoc, f.expo_eq, ← mul_assoc]
  congr 1
  rw [f.width_eq] at hb
  have h0 := f.units_zero
  unfold Fmt.negBit Fmt.ord Fmt.signedUnits
  rw [Nat.mod_eq_of_lt hb]
  by_cases hs : f.signBit ≤ b
  · by_cases hm : b % f.signBit = 0
    · simp [hs, hm, h0]
    · have : -((b % f.signBit : Nat) : Int) < 0 := by omega
      simp only [hs, decide_true, if_true, this, Int.natAbs_neg, Int.natAbs_natCast]
      push_cast
      ring
  · simp only [hs, decide_false, Bool.false_eq_true, if_false, Int.not_lt.mpr (Int.natCast_nonneg (b % f.signBit)),
      Int.natAbs_natCast, one_mul, Int.cast_natCast]

theorem Fmt.isNaN_of_fin {f : Fmt} {b m : Nat} {x : Int} {neg st : Bool} (h : f.val b = .fin neg m x st) :
    f.isNaN b = false := by simp [Fmt.isNaN, h]

end Sys2Proof.Machine
end
section
/-! PROOFS. Rounding (R109, R193). -/
namespace Sys2Proof.Machine

/-! ### The length of a number in bits -/

theorem bitLen_le_iff {n k : Nat} : bitLen n ≤ k ↔ n < 2 ^ k := by
  unfold bitLen
  split
  · next h => simp [h, Nat.two_pow_pos]
  · next h => rw [Nat.succ_le_iff, Nat.log2_lt h]
theorem lt_bitLen_iff {n k : Nat} : k < bitLen n ↔ 2 ^ k ≤ n := by
  rw [← not_le, bitLen_le_iff, not_lt]
theorem bitLen_eq_iff {n k : Nat} : bitLen n = k + 1 ↔ 2 ^ k ≤ n ∧ n < 2 ^ (k + 1) := by
  rw [← lt_bitLen_iff, ← bitLen_le_iff]
  omega
theorem bitLen_mul_two_pow {n : Nat} (h : n ≠ 0) (k : Nat) : bitLen (n * 2 ^ k) = bitLen n + k := by
  obtain ⟨l, hl⟩ : ∃ l, bitLen n = l + 1 := ⟨Nat.log2 n, by simp [bitLen, h]⟩
  obtain ⟨hlo, hhi⟩ := bitLen_eq_iff.mp hl
  rw [hl, Nat.add_right_comm, bitLen_eq_iff, Nat.add_right_comm, Nat.pow_add, Nat.pow_add 2 (l + 1)]
  exact ⟨Nat.mul_le_mul_right _ hlo, Nat.mul_lt_mul_of_pos_right hhi (Nat.two_pow_pos _)⟩

/-! ### Quantizing -/

/-- Nothing is dropped: every mode keeps the magnitude. -/
theorem roundUp_exact (m : Rnd) (neg odd : Bool) {half : Nat} (h : 0 < half) : roundUp m neg odd 0 half false = false := by
  cases m <;> simp [roundUp] <;> omega
theorem quantize_of_le (m : Rnd) (neg : Bool) (mant : Nat) {x q : Int} (st : Bool) (h : q ≤ x) :
    quantize m neg mant x q st = mant * 2 ^ (x - q).toNat := if_pos h
theorem quantize_of_lt (m : Rnd) (neg : Bool) (mant : Nat) {x q : Int} (st : Bool) (h : x < q) :
    quantize m neg mant x q st =
      if roundUp m neg (mant / 2 ^ (q - x).toNat % 2 == 1) (mant % 2 ^ (q - x).toNat) (2 ^ ((q - x).toNat - 1)) st then
        mant / 2 ^ (q - x).toNat + 1
      else mant / 2 ^ (q - x).toNat := if_neg (Int.not_le.mpr h)
/-- What is rounded up depends on the dropped bits only by their place in the unit. -/
theorem roundUp_mul (m : Rnd) (neg odd : Bool) (rem half : Nat) {c : Nat} (h : 0 < c) :
    roundUp m neg odd (rem * c) (half * c) false = roundUp m neg odd rem half false := by
  have h0 : (rem * c != 0) = (rem != 0) := by simp [bne, beq_eq_decide, Nat.ne_of_gt h]
  have h1 : (rem * c == half * c) = (rem == half) := by simp [beq_eq_decide, Nat.ne_of_gt h]
  have h2 : decide (half * c < rem * c) = decide (half < rem) := by simp [h]
  simp only [roundUp, h0, h1, h2]
/-- The same magnitude written with another exponent quantizes to the same multiple. -/
theorem quantize_scale (m : Rnd) (neg : Bool) (mant : Nat) (x q : Int) (k : Nat) :
    quantize m neg (mant * 2 ^ k) (x - k) q false = quantize m neg mant x q false := by
  have hk : 0 < 2 ^ k := Nat.two_pow_pos k
  by_cases h1 : q ≤ x - k
  · rw [quantize_of_le _ _ _ _ h1, quantize_of_le _ _ _ _ (by omega), Nat.mul_assoc, ← Nat.pow_add]
    congr 2
    omega
  · by_cases h2 : q ≤ x
    · obtain ⟨j, hj⟩ : ∃ j, k = j + (q - (x - k)).toNat := ⟨(x - q).toNat, by omega⟩
      have hpow : mant * 2 ^ k = mant * 2 ^ (x - q).toNat * 2 ^ (q - (x - k)).toNat := by
        rw [Nat.mul_assoc, ← Nat.pow_add]
        congr 2
        omega
      rw [quantize_of_lt _ _ _ _ (by omega), quantize_of_le _ _ _ _ h2, hpow, Nat.mul_mod_left,
        roundUp_exact _ _ _ (Nat.two_pow_pos _), Nat.mul_div_cancel _ (Nat.two_pow_pos _)]
      rfl
    · have hk' : (q - (x - k)).toNat = (q - x).toNat + k := by omega
      have hhalf : (q - x).toNat + k - 1 = ((q - x).toNat - 1) + k := by omega
      rw [quantize_of_lt _ _ _ _ (by omega), quantize_of_lt _ _ _ _ (by omega), hk', hhalf, Nat.pow_add, Nat.pow_add,
        Nat.mul_div_mul_right _ _ hk, Nat.mul_mod_mul_right, roundUp_mul _ _ _ _ _ hk]

/-! ### Rounding into a format -/

/-- The exponent of the lowest bit that a magnitude keeps. -/
def Fmt.unit (f : Fmt) (mant : Nat) (x : Int) : Int := max (bitLen mant + x - 1 - f.t) f.low
/-- The magnitude that a value is rounded to, its exponent field and its fraction, before it is held against the largest. -/
def Fmt.roundMag (f : Fmt) (m : Rnd) (neg : Bool) (mant : Nat) (x : Int) (st : Bool) : Nat :=
  (f.unit mant x - f.low).toNat * 2 ^ f.t + quantize m neg mant x (f.unit mant x) st
theorem Fmt.round_fin (f : Fmt) (m : Rnd) (z neg : Bool) (mant : Nat) (x : Int) (st : Bool) :
    f.round m z (.fin neg mant x st) =
      if mant = 0 && !st then f.signed neg 0
      else if f.maxBits < f.roundMag m neg mant x st then f.overflow m neg
      else if z && f.roundMag m neg mant x st < 2 ^ f.t then f.signed neg 0
      else f.signed neg (f.roundMag m neg mant x st) := rfl
theorem Fmt.roundMag_scale (f : Fmt) (m : Rnd) (neg : Bool) {mant : Nat} (x : Int) (k : Nat) (h : mant ≠ 0) :
    f.roundMag m neg (mant * 2 ^ k) (x - k) false = f.roundMag m neg mant x false := by
  have hunit : f.unit (mant * 2 ^ k) (x - k) = f.unit mant x := by
    unfold Fmt.unit
    rw [bitLen_mul_two_pow h]
    push_cast
    congr 1
    omega
  unfold Fmt.roundMag
  rw [hunit, quantize_scale]
/-- The same value written with another exponent rounds to the same encoding. -/
theorem Fmt.round_scale (f : Fmt) (m : Rnd) (z neg : Bool) (mant : Nat) (x : Int) (k : Nat) :
    f.round m z (.fin neg (mant * 2 ^ k) (x - k) false) = f.round m z (.fin neg mant x false) := by
  by_cases h : mant = 0
  · simp [f.round_fin, h]
  · simp only [f.round_fin, f.roundMag_scale m neg x k h, Nat.mul_eq_zero, h, Nat.ne_of_gt (Nat.two_pow_pos k), or_self]

/-- A magnitude is rounded to itself. -/
theorem Fmt.roundMag_self (f : Fmt) (m : Rnd) (neg : Bool) (mag : Nat) :
    f.roundMag m neg (f.mant mag) (f.expo mag) false = mag := by
  have hT : 0 < 2 ^ f.t := Nat.two_pow_pos _
  have hmod := Nat.mod_lt mag hT
  have hmag := Nat.div_add_mod mag (2 ^ f.t)
  unfold Fmt.roundMag Fmt.mant Fmt.expo
  split
  · next h0 =>
    have hunit : f.unit (mag % 2 ^ f.t) (f.low + (mag / 2 ^ f.t - 1 : Nat)) = f.low := by
      have : bitLen (mag % 2 ^ f.t) ≤ f.t := bitLen_le_iff.mpr hmod
      rw [Fmt.unit, h0]
      omega
    rw [hunit, h0, quantize_of_le _ _ _ _ (by omega)]
    simp only [Int.sub_self, Nat.zero_sub, Int.natCast_zero, Int.add_zero, Int.toNat_zero, Nat.zero_mul, Nat.pow_zero, Nat.mul_one,
      Nat.zero_add]
    rw [h0] at hmag
    omega
  · next h0 =>
    have hunit : f.unit (2 ^ f.t + mag % 2 ^ f.t) (f.low + (mag / 2 ^ f.t - 1 : Nat)) = f.low + (mag / 2 ^ f.t - 1 : Nat) := by
      have : bitLen (2 ^ f.t + mag % 2 ^ f.t) = f.t + 1 := bitLen_eq_iff.mpr (by rw [Nat.pow_succ]; omega)
      rw [Fmt.unit, this]
      omega
    rw [hunit, quantize_of_le _ _ _ _ (le_refl _), Int.sub_self, Int.toNat_zero, Nat.pow_zero, Nat.mul_one,
      add_sub_cancel_left, Int.toNat_natCast]
    obtain ⟨e, he⟩ := Nat.exists_eq_add_of_lt (Nat.pos_of_ne_zero h0)
    rw [he] at hmag ⊢
    rw [Nat.zero_add, Nat.mul_comm, Nat.add_one, Nat.succ_mul] at hmag
    rw [Nat.zero_add, Nat.add_sub_cancel]
    omega
/-- A number's encoding is what its value rounds to (R184). -/
theorem Fmt.round_of_le_maxBits {f : Fmt} (m : Rnd) (neg : Bool) {mag : Nat} (h : mag ≤ f.maxBits) :
    f.round m false (.fin neg (f.mant mag) (f.expo mag) false) = f.signed neg mag := by
  rw [f.round_fin, f.roundMag_self, if_neg (Nat.not_lt.mpr h)]
  by_cases h0 : f.mant mag = 0
  · have hmag : mag = 0 := by
      have : f.units mag = f.units 0 := by rw [f.units_zero, Fmt.units, h0, Nat.zero_mul]
      exact f.units_strictMono.injective this
    simp [hmag]
  · simp [h0]
theorem Fmt.round_val {f : Fmt} (hf : f.Ok) (m : Rnd) {b : Nat} (hb : b < 2 ^ f.width) (hn : f.isNaN b = false) :
    f.round m false (f.val b) = b := by
  cases hs : f.special (b % f.signBit) with
  | false =>
    rw [f.val_of_not_special hs,
      f.round_of_le_maxBits m _ ((f.le_maxBits_iff hf _).mpr ⟨Nat.mod_lt _ f.signBit_pos, hs⟩), f.signed_negBit hb]
  | true =>
    have hv := f.val_of_special hs
    rw [hv]
    split at hv
    · next hi =>
      simp only [Bool.and_eq_true, beq_iff_eq] at hi
      obtain ⟨hinfs, ht⟩ := hi
      have hmag : b % f.signBit = f.infBits := by
        have := Nat.div_add_mod (b % f.signBit) (2 ^ f.t)
        simp only [Fmt.special, hinfs, if_true, beq_iff_eq] at hs
        rw [hs, ht, Nat.mul_comm, Nat.add_zero] at this
        exact this.symm
      simp only [hinfs, ht, Fmt.round, if_true, beq_self_eq_true, Bool.and_self, ← hmag]
      exact f.signed_negBit hb
    · simp [Fmt.isNaN, hv] at hn

/-- Only the canonical NaN is a NaN that rounding answers (R185). -/
theorem Fmt.isNaN_signed_of_le {f : Fmt} (hf : f.Ok) (neg : Bool) {mag : Nat} (h : mag ≤ f.maxBits) :
    f.isNaN (f.signed neg mag) = false := by
  obtain ⟨hlt, hs⟩ := (f.le_maxBits_iff hf mag).mp h
  have := f.val_of_not_special (b := f.signed neg mag) (by rw [f.signed_mod neg hlt]; exact hs)
  exact f.isNaN_of_fin this
theorem Fmt.isNaN_signed_infBits {f : Fmt} (hf : f.Ok) (neg : Bool) (hi : f.infs = true) :
    f.isNaN (f.signed neg f.infBits) = false := by
  have he : 2 ≤ 2 ^ f.e := Nat.pow_le_pow_right (n := 2) (by decide) hf.2
  have hT := Nat.two_pow_pos f.t
  have hlt : f.infBits < f.signBit := by
    rw [f.signBit_eq]
    exact Nat.mul_lt_mul_of_pos_right (by omega) hT
  have hmod := f.signed_mod neg hlt
  have hs : f.special (f.signed neg f.infBits % f.signBit) = true := by
    rw [hmod, Fmt.special, hi, if_pos rfl, beq_iff_eq]
    exact Nat.mul_div_cancel _ hT
  rw [Fmt.isNaN, f.val_of_special hs, hmod, hi]
  simp [Fmt.infBits]
theorem Fmt.round_of_isNaN {f : Fmt} (hf : f.Ok) (m : Rnd) (z : Bool) (v : FVal) (h : f.isNaN (f.round m z v) = true) :
    f.round m z v = f.nanBits := by
  have hinf (neg : Bool) (hi : f.infs = true) := f.isNaN_signed_infBits hf neg hi
  cases v with
  | nan => rfl
  | inf neg => simp only [Fmt.round] at h ⊢; grind
  | fin neg mant x st =>
    have h0 := f.isNaN_signed_of_le hf neg (Nat.zero_le _)
    have hmax := f.isNaN_signed_of_le hf neg (le_refl _)
    rw [f.round_fin] at h ⊢
    split at h
    · simp [h0] at h
    · split at h
      · unfold Fmt.overflow at h ⊢
        grind
      · next hle => 
        have hmag := f.isNaN_signed_of_le hf neg (Nat.not_lt.mp hle)
        grind

end Sys2Proof.Machine
end
section
/-! PROOFS. Rounding follows its mode, encodings round to themselves, NaNs are canonical (R109, R184, R185, R193, R205, R206). -/
namespace Sys2Proof.Machine

/-! ### The error of a quantized magnitude (R109, R193) -/

/-- When a magnitude is rounded up from its multiple `d`, by what is dropped of half a unit. -/
def roundsUp (m : Rnd) (neg : Bool) (d : Nat) (rem half : ℚ) : Prop :=
  match m with
  | .rn => half < rem ∨ rem = half ∧ d % 2 = 1
  | .rna => half ≤ rem
  | .rz => False
  | .ru => rem ≠ 0 ∧ neg = false
  | .rd => rem ≠ 0 ∧ neg = true
/-- `roundUp` with nothing more below, over dropped bits of any place value. -/
theorem roundUp_iff (m : Rnd) (neg : Bool) (d rem half : Nat) {y : ℚ} (hy : 0 < y) :
    roundUp m neg (d % 2 == 1) rem half false = true ↔ roundsUp m neg d (rem * y) (half * y) := by
  have hlt : (half * y : ℚ) < rem * y ↔ half < rem := by rw [mul_lt_mul_iff_left₀ hy, Nat.cast_lt]
  have hle : (half * y : ℚ) ≤ rem * y ↔ half ≤ rem := by rw [mul_le_mul_iff_left₀ hy, Nat.cast_le]
  have heq : (rem * y : ℚ) = half * y ↔ rem = half := by rw [mul_left_inj' hy.ne', Nat.cast_inj]
  have h0 : (rem * y : ℚ) ≠ 0 ↔ rem ≠ 0 := by simp [hy.ne']
  cases m <;> simp only [roundUp, roundsUp, hlt, hle, heq, h0] <;> grind

/-- A magnitude as a multiple of its unit and what is left, and the multiple that it is quantized to. -/
theorem quantize_cases (neg : Bool) (mant : Nat) (x q : Int) : ∃ (d : Nat) (rem half : ℚ),
    0 ≤ rem ∧ rem < 2 * half ∧ (2 ^ q : ℚ) = 2 * half ∧ (mant * 2 ^ x : ℚ) = d * (2 * half) + rem ∧
      ∀ m, (roundsUp m neg d rem half → quantize m neg mant x q false = d + 1) ∧
        (¬ roundsUp m neg d rem half → quantize m neg mant x q false = d) := by
  have hq : (0 : ℚ) < 2 ^ q := zpow_pos two_pos q
  by_cases h : q ≤ x
  · have hv : (mant * 2 ^ x : ℚ) = (mant * 2 ^ (x - q).toNat : Nat) * 2 ^ q := by
      push_cast
      rw [mul_assoc, ← zpow_natCast, ← zpow_add₀ two_ne_zero]
      congr 2
      omega
    have hup (m : Rnd) : ¬ roundsUp m neg (mant * 2 ^ (x - q).toNat) 0 (2 ^ q / 2) := by
      have hpos : (0 : ℚ) < 2 ^ q / 2 := by linarith
      cases m <;> simp [roundsUp, hpos.le, hpos.ne, hpos.not_ge]
    exact ⟨_, 0, 2 ^ q / 2, le_refl _, by linarith, by ring, by rw [hv]; ring, fun m =>
      ⟨fun hu => absurd hu (hup m), fun _ => quantize_of_le _ _ _ _ h⟩⟩
  · obtain ⟨j, hj⟩ : ∃ j : Nat, (q - x).toNat = j + 1 := ⟨(q - x).toNat - 1, by omega⟩
    have hy : (0 : ℚ) < 2 ^ x := zpow_pos two_pos x
    have hunit : (2 ^ q : ℚ) = 2 * ((2 ^ j : Nat) * 2 ^ x) := by
      rw [show q = ((j + 1 : Nat) : Int) + x by omega, zpow_add₀ two_ne_zero, zpow_natCast, pow_succ]
      push_cast
      ring
    have hdiv := Nat.div_add_mod mant (2 ^ (j + 1))
    have hmod := Nat.mod_lt mant (Nat.two_pow_pos (j + 1))
    refine ⟨mant / 2 ^ (j + 1), (mant % 2 ^ (j + 1) : Nat) * 2 ^ x, (2 ^ j : Nat) * 2 ^ x, by positivity, ?_, hunit, ?_, ?_⟩
    · rw [← mul_assoc, mul_lt_mul_iff_left₀ hy]
      have : mant % 2 ^ (j + 1) < 2 * 2 ^ j := by rw [Nat.pow_succ] at hmod ⊢; omega
      exact_mod_cast this
    · have : (mant : ℚ) = 2 ^ (j + 1) * (mant / 2 ^ (j + 1) : Nat) + (mant % 2 ^ (j + 1) : Nat) := by exact_mod_cast hdiv.symm
      rw [this, pow_succ]
      push_cast
      ring
    · intro m
      rw [quantize_of_lt _ _ _ _ (by omega), hj, Nat.add_sub_cancel]
      have hiff := roundUp_iff m neg (mant / 2 ^ (j + 1)) (mant % 2 ^ (j + 1)) (2 ^ j) hy
      exact ⟨fun hu => if_pos (hiff.mpr hu), fun hu => if_neg (mt hiff.mp hu)⟩

/-- R109: to nearest, a tie to the even multiple. -/
theorem quantize_rn (neg : Bool) (mant : Nat) (x q : Int) :
    |(quantize .rn neg mant x q false : ℚ) * 2 ^ q - mant * 2 ^ x| ≤ 2 ^ q / 2 ∧
      (|(quantize .rn neg mant x q false : ℚ) * 2 ^ q - mant * 2 ^ x| = 2 ^ q / 2 → Even (quantize .rn neg mant x q false)) := by
  obtain ⟨d, rem, half, h0, hlt, hq, hv, hm⟩ := quantize_cases neg mant x q
  obtain ⟨hup, hdown⟩ := hm .rn
  rw [hq, hv, Nat.even_iff]
  by_cases hu : roundsUp .rn neg d rem half
  · rw [hup hu]
    push_cast
    rw [show ((d : ℚ) + 1) * (2 * half) - (d * (2 * half) + rem) = 2 * half - rem by ring, abs_of_pos (by linarith)]
    unfold roundsUp at hu
    refine ⟨by rcases hu with hu | hu <;> linarith, fun he => ?_⟩
    rcases hu with hu | hu
    · linarith
    · omega
  · rw [hdown hu]
    rw [show (d : ℚ) * (2 * half) - (d * (2 * half) + rem) = -rem by ring, abs_neg, abs_of_nonneg h0]
    unfold roundsUp at hu
    push Not at hu
    refine ⟨by linarith, fun he => ?_⟩
    have := hu.2 (by linarith)
    omega
/-- R109: to nearest, a tie away from zero. -/
theorem quantize_rna (neg : Bool) (mant : Nat) (x q : Int) :
    |(quantize .rna neg mant x q false : ℚ) * 2 ^ q - mant * 2 ^ x| ≤ 2 ^ q / 2 ∧
      (|(quantize .rna neg mant x q false : ℚ) * 2 ^ q - mant * 2 ^ x| = 2 ^ q / 2 →
        (mant * 2 ^ x : ℚ) < quantize .rna neg mant x q false * 2 ^ q) := by
  obtain ⟨d, rem, half, h0, hlt, hq, hv, hm⟩ := quantize_cases neg mant x q
  obtain ⟨hup, hdown⟩ := hm .rna
  rw [hq, hv]
  by_cases hu : roundsUp .rna neg d rem half
  · rw [hup hu]
    push_cast
    rw [show ((d : ℚ) + 1) * (2 * half) - (d * (2 * half) + rem) = 2 * half - rem by ring, abs_of_pos (by linarith)]
    unfold roundsUp at hu
    exact ⟨by linarith, fun _ => by linarith⟩
  · rw [hdown hu]
    rw [show (d : ℚ) * (2 * half) - (d * (2 * half) + rem) = -rem by ring, abs_neg, abs_of_nonneg h0]
    unfold roundsUp at hu
    exact ⟨by linarith, fun he => absurd (by linarith) hu⟩
/-- A mode that does not round up stays within a unit below. -/
theorem quantize_down {m : Rnd} {neg : Bool} (hm : ∀ d rem half, ¬ roundsUp m neg d rem half) (mant : Nat) (x q : Int) :
    (quantize m neg mant x q false * 2 ^ q : ℚ) ≤ mant * 2 ^ x ∧
      (mant * 2 ^ x : ℚ) < quantize m neg mant x q false * 2 ^ q + 2 ^ q := by
  obtain ⟨d, rem, half, h0, hlt, hq, hv, h⟩ := quantize_cases neg mant x q
  rw [(h m).2 (hm d rem half), hq, hv]
  exact ⟨by linarith, by linarith⟩
/-- A mode that rounds everything dropped up stays within a unit above. -/
theorem quantize_up {m : Rnd} {neg : Bool} (hm : ∀ d rem half, roundsUp m neg d rem half ↔ rem ≠ 0) (mant : Nat) (x q : Int) :
    (mant * 2 ^ x : ℚ) ≤ quantize m neg mant x q false * 2 ^ q ∧
      (quantize m neg mant x q false * 2 ^ q : ℚ) < mant * 2 ^ x + 2 ^ q := by
  obtain ⟨d, rem, half, h0, hlt, hq, hv, h⟩ := quantize_cases neg mant x q
  by_cases hrem : rem = 0
  · rw [(h m).2 (by rw [hm]; exact not_not.mpr hrem), hq, hv, hrem]
    exact ⟨by linarith, by linarith⟩
  · have hpos : 0 < rem := lt_of_le_of_ne h0 (Ne.symm hrem)
    rw [(h m).1 ((hm _ _ _).mpr hrem), hq, hv]
    push_cast
    exact ⟨by linarith, by linarith⟩

/-! ### Minimum, maximum and comparison (R205, R206) -/

@[simp] theorem Fmt.flush_false (f : Fmt) (b : Nat) : f.flush false b = b := rfl
theorem Fmt.cmp_of_isNaN {f : Fmt} {a b : Nat} (c : FCond) (h : (f.isNaN a || f.isNaN b) = true) :
    f.cmp c false a b = decide (c = .ne ∨ c = .uno) := by
  cases c <;> simp [Fmt.cmp, h]
/-- Comparisons of numbers are those of their values (R206). -/
theorem Fmt.cmp_of_fin {f : Fmt} {a b ma mb : Nat} {na nb : Bool} {xa xb : Int} (ha : a < 2 ^ f.width) (hb : b < 2 ^ f.width)
    (hva : f.val a = .fin na ma xa false) (hvb : f.val b = .fin nb mb xb false) :
    let va : ℚ := (if na then -1 else 1) * ma * 2 ^ xa
    let vb : ℚ := (if nb then -1 else 1) * mb * 2 ^ xb
    f.cmp .eq false a b = decide (va = vb) ∧ f.cmp .ne false a b = decide (va ≠ vb) ∧
    f.cmp .lt false a b = decide (va < vb) ∧ f.cmp .le false a b = decide (va ≤ vb) ∧
    f.cmp .gt false a b = decide (vb < va) ∧ f.cmp .ge false a b = decide (vb ≤ va) ∧
    f.cmp .ord false a b = true ∧ f.cmp .uno false a b = false := by
  have hlow : (0 : ℚ) < 2 ^ f.low := zpow_pos two_pos _
  intro va vb
  have hlt (y z : Int) : (f.signedUnits y * 2 ^ f.low : ℚ) < f.signedUnits z * 2 ^ f.low ↔ y < z := by
    rw [mul_lt_mul_iff_left₀ hlow, Int.cast_lt, f.signedUnits_strictMono.lt_iff_lt]
  have hva' : va = f.signedUnits (f.ord a) * 2 ^ f.low := Fmt.val_eq_signedUnits ha hva
  have hvb' : vb = f.signedUnits (f.ord b) * 2 ^ f.low := Fmt.val_eq_signedUnits hb hvb
  have hab : va < vb ↔ f.ord a < f.ord b := by rw [hva', hvb', hlt]
  have hba : vb < va ↔ f.ord b < f.ord a := by rw [hva', hvb', hlt]
  have heq : va = vb ↔ f.ord a = f.ord b := by rw [eq_iff_le_not_lt, eq_iff_le_not_lt, hab, ← not_lt, hba, not_lt]
  have hle : va ≤ vb ↔ f.ord a ≤ f.ord b := by rw [← not_lt, hba, not_lt]
  have hge : vb ≤ va ↔ f.ord b ≤ f.ord a := by rw [← not_lt, hab, not_lt]
  have hna := Fmt.isNaN_of_fin hva
  have hnb := Fmt.isNaN_of_fin hvb
  refine ⟨?_, ?_, ?_, ?_, ?_, ?_, by simp [Fmt.cmp, hna, hnb], by simp [Fmt.cmp, hna, hnb]⟩ <;>
    rw [Bool.eq_iff_iff, decide_eq_true_iff] <;> simp [Fmt.cmp, hna, hnb, heq, hab, hba, hle, hge]
  all_goals exact decide_eq_true_iff

theorem Fmt.ok_of_mem {f : Fmt} (h : f ∈ [fF64, fF32, fBF16, fF16, fE4M3, fE5M2]) : f.Ok := by
  have : ∀ f ∈ [fF64, fF32, fBF16, fF16, fE4M3, fE5M2], 1 ≤ f.t ∧ 1 ≤ f.e := by decide
  exact this f h
/-- Of a negative and a positive zero the minimum is the negative one, the maximum the positive one (R205). -/
theorem Fmt.pick_zeros {f : Fmt} (h : f ∈ [fF32, fBF16, fF16]) :
    f.pick false false f.signBit 0 = f.signBit ∧ f.pick false false 0 f.signBit = f.signBit ∧
      f.pick true false f.signBit 0 = 0 ∧ f.pick true false 0 f.signBit = 0 := by
  simp only [List.mem_cons, List.not_mem_nil, or_false] at h
  rcases h with rfl | rfl | rfl <;> exact ⟨rfl, rfl, rfl, rfl⟩

/-- Settles O15: rounding is `quantize` at the lowest kept bit; encodings are ordered as their values. -/
theorem roundingAndNan : Obligations.RoundingAndNan := by
  unfold Obligations.RoundingAndNan
  refine ⟨fun f hf m b hb hn => Fmt.round_val (Fmt.ok_of_mem hf) m hb hn, fun neg mant x q => ?_, ?_, ?_, ?_, ?_⟩
  · have hrz := quantize_down (m := .rz) (neg := neg) (fun _ _ _ h => h) mant x q
    refine ⟨(quantize_rn neg mant x q).1, (quantize_rn neg mant x q).2, (quantize_rna neg mant x q).1,
      (quantize_rna neg mant x q).2, hrz.1, hrz.2, fun h => ?_, fun h => ?_⟩
    · subst h
      obtain ⟨h1, h2⟩ := quantize_up (m := .ru) (neg := false) (fun _ _ _ => by simp [roundsUp]) mant x q
      obtain ⟨h3, h4⟩ := quantize_down (m := .rd) (neg := false) (fun _ _ _ => by simp [roundsUp]) mant x q
      exact ⟨h1, h2, h3, h4⟩
    · subst h
      obtain ⟨h1, h2⟩ := quantize_up (m := .rd) (neg := true) (fun _ _ _ => by simp [roundsUp]) mant x q
      obtain ⟨h3, h4⟩ := quantize_down (m := .ru) (neg := true) (fun _ _ _ => by simp [roundsUp]) mant x q
      exact ⟨h3, h4, h1, h2⟩
  · exact fun f hf m z v => Fmt.round_of_isNaN (Fmt.ok_of_mem hf) m z v
  · refine fun f hf mx a b ha hb => ⟨fun h1 h2 => ?_, fun h1 h2 => ?_, fun h1 h2 => ?_, Fmt.pick_zeros hf⟩ <;>
      simp [Fmt.pick, Fmt.canon, h1, h2]
  · exact fun f hf a b c h => Fmt.cmp_of_isNaN c h
  · exact fun f hf a b na nb ma mb xa xb ha hb hva hvb => Fmt.cmp_of_fin ha hb hva hvb

end Sys2Proof.Machine
end
section
/-! PROOFS. The F32 instructions and their functions (R203 to R210, R109). -/
namespace Sys2Proof.Machine

theorem binaryFIs_of_exec {i : Alu2 → Instr} {f g : Word → Word → Word} (h : ∀ o s, exec (i o) s = .next (s.binaryF o f))
    (e : ∀ a b, f a b = g a b) : BinaryFIs i g := fun o s hp => by rw [h, s.binaryF_plain o f hp, funext₂ e]

theorem fsgnR_eq (op : SgnOp) (a b : Word) : fsgnR op a b =
    if fF32.isNaN a.toNat then 0x7FC00000
    else BitVec.ofNat 32 (a.toNat % 2 ^ 31 + (if (match op with
      | .cpy => b.msb | .neg => !b.msb | .xor => a.msb != b.msb) then 2 ^ 31 else 0)) := by
  have hbit (c : Bool) : bit c ++ a.extractLsb' 0 31 = BitVec.ofNat 32 (a.toNat % 2 ^ 31 + (if c then 2 ^ 31 else 0)) := by
    apply BitVec.eq_of_toNat_eq
    rw [BitVec.toNat_append, BitVec.extractLsb'_toNat, BitVec.toNat_ofNat, ← Nat.shiftLeft_add_eq_or_of_lt (by omega),
      Nat.shiftLeft_eq]
    cases c <;> simp [bit] <;> omega
  unfold fsgnR
  cases op <;> simp only [hbit]
theorem bit_setWidth (c : Bool) : (bit c).setWidth 32 = if c then (1 : Word) else 0 := by cases c <;> rfl

/-! ### Values of F32 encodings -/

theorem Fmt.mant_lt (f : Fmt) (mag : Nat) : f.mant mag < 2 ^ (f.t + 1) := by
  have := Nat.mod_lt mag (Nat.two_pow_pos f.t)
  rw [Fmt.mant, Nat.pow_succ]
  split <;> omega
theorem fF32_maxBits : fF32.maxBits = 255 * 2 ^ 23 - 1 := by decide
/-- The bounds of an F32 number's significand and exponent. -/
theorem fF32_bounds {b m : Nat} {x : Int} {neg st : Bool} (h : fF32.val b = .fin neg m x st) :
    m < 2 ^ 24 ∧ -149 ≤ x ∧ x ≤ 104 ∧ st = false := by
  obtain ⟨hs, _, rfl, rfl, rfl⟩ := Fmt.val_eq_fin h
  have hlt := Nat.mod_lt b fF32.signBit_pos
  have hm : fF32.mant (b % fF32.signBit) < 2 ^ 24 := fF32.mant_lt _
  generalize b % fF32.signBit = mag at *
  simp only [Fmt.special, Fmt.mant, Fmt.expo, Fmt.low, fF32, Fmt.signBit, if_true, beq_eq_false_iff_ne] at *
  exact ⟨hm, by omega, by omega, trivial⟩
theorem isNaN_iff {f : Fmt} {b : Nat} : f.isNaN b = true ↔ f.val b = .nan := by simp [Fmt.isNaN]
theorem fF32_val_inf {b : Nat} {neg : Bool} (h : b = fF32.signed neg fF32.infBits) : fF32.val b = .inf neg := by
  subst h
  cases neg <;> rfl
/-- A zero's encoding. -/
theorem fF32_val_zero (neg : Bool) : fF32.val (fF32.signed neg 0) = .fin neg 0 (-149) false := by cases neg <;> rfl
theorem fF32_signed_lt (neg : Bool) {mag : Nat} (h : mag < 2 ^ 31) : fF32.signed neg mag < 2 ^ 32 := by
  have : fF32.signBit = 2 ^ 31 := rfl
  unfold Fmt.signed
  split <;> omega

/-! ### EXP2R (R109) -/

theorem exp2r_nan {b : Nat} (h : fF32.isNaN b = true) : exp2r b = 0x7FC00000 := by
  rw [exp2r, isNaN_iff.mp h]
  rfl
theorem exp2r_zero {b : Nat} {x : Int} {neg st : Bool} (h : fF32.val b = .fin neg 0 x st) : exp2r b = 0x3F800000 := by
  rw [exp2r, h]
  rfl
theorem exp2r_inf {b : Nat} {neg : Bool} (h : fF32.val b = .inf neg) : exp2r b = if neg then 0 else 0x7F800000 := by
  rw [exp2r, h]
  rfl
/-- A number in multiples of 2^−149, as `exp2r` takes it. -/
def scaled149 (neg : Bool) (m : Nat) (x : Int) : Int := (if neg then -1 else 1) * ((m * 2 ^ (x + 149).toNat : Nat) : Int)
theorem scaled149_cast (neg : Bool) (m : Nat) {x : Int} (hx : -149 ≤ x) :
    (scaled149 neg m x : ℚ) = (if neg then -1 else 1) * m * 2 ^ x * 2 ^ 149 := by
  have : (2 ^ x * 2 ^ 149 : ℚ) = 2 ^ (x + 149).toNat := by
    rw [← zpow_natCast, ← zpow_natCast, ← zpow_add₀ two_ne_zero]
    congr 1
    omega
  rw [scaled149, mul_assoc, this]
  push_cast
  cases neg <;> simp
/-- `exp2r` of a number that is not zero, by its integer and its fraction. -/
theorem exp2r_fin {b m : Nat} {x : Int} {neg st : Bool} (h : fF32.val b = .fin neg m x st) (hm : m ≠ 0) : exp2r b =
    if 9 ≤ bitLen m + x then (if neg then 0 else fF32.infBits)
    else if 128 ≤ scaled149 neg m x / 2 ^ 149 then fF32.infBits
    else if scaled149 neg m x / 2 ^ 149 < -150 then 0
    else fF32.round .rn false (.fin false
      (if (scaled149 neg m x % 2 ^ 149).toNat = 0 then 2 ^ 256
        else expSeries ((scaled149 neg m x % 2 ^ 149).toNat * ln2c / 2 ^ 149) 64 0 (2 ^ 256))
      (scaled149 neg m x / 2 ^ 149 - 256) ((scaled149 neg m x % 2 ^ 149).toNat != 0)) := by
  rw [exp2r, h]
  simp only [hm, if_false]
  rfl
/-- A number whose leading bit is at 2^8 or above. -/
theorem le_of_bitLen {m : Nat} {x : Int} (hm : m ≠ 0) (h : 9 ≤ bitLen m + x) : (2 ^ 8 : ℚ) ≤ m * 2 ^ x := by
  have hpos : 0 < bitLen m := lt_bitLen_iff.mpr (Nat.pos_of_ne_zero hm)
  have h1 : 2 ^ (bitLen m - 1) ≤ m := lt_bitLen_iff.mp (by omega)
  calc (2 ^ 8 : ℚ) = 2 ^ (8 : Int) := by norm_cast
    _ ≤ 2 ^ (((bitLen m - 1 : Nat) : Int) + x) := zpow_le_zpow_right₀ one_le_two (by omega)
    _ = (2 ^ (bitLen m - 1) : Nat) * 2 ^ x := by rw [zpow_add₀ two_ne_zero, zpow_natCast]; norm_cast
    _ ≤ m * 2 ^ x := by gcongr
theorem exp2r_large {b m : Nat} {x : Int} (h : fF32.val b = .fin false m x false) (hv : (128 : ℚ) ≤ m * 2 ^ x) :
    exp2r b = 0x7F800000 := by
  obtain ⟨_, hx, _, _⟩ := fF32_bounds h
  have hm : m ≠ 0 := by rintro rfl; norm_num at hv
  have hn : 128 ≤ scaled149 false m x / 2 ^ 149 := by
    rw [Int.le_ediv_iff_mul_le (by norm_num), ← @Int.cast_le ℚ, scaled149_cast _ _ hx]
    push_cast
    simp only [Bool.false_eq_true, if_false, one_mul]
    nlinarith
  rw [exp2r_fin h hm, if_pos hn]
  split <;> rfl
theorem exp2r_small {b m : Nat} {x : Int} (h : fF32.val b = .fin true m x false) (hv : (150 : ℚ) < m * 2 ^ x) :
    exp2r b = 0 := by
  obtain ⟨_, hx, _, _⟩ := fF32_bounds h
  have hm : m ≠ 0 := by rintro rfl; norm_num at hv
  have hn : scaled149 true m x / 2 ^ 149 < -150 := by
    rw [Int.ediv_lt_iff_lt_mul (by norm_num), ← @Int.cast_lt ℚ, scaled149_cast _ _ hx]
    push_cast
    simp only [if_true, neg_mul, one_mul]
    nlinarith
  rw [exp2r_fin h hm, if_neg (by omega : ¬ 128 ≤ scaled149 true m x / 2 ^ 149), if_pos hn]
  split <;> rfl
theorem exp2r_int {b m : Nat} {neg : Bool} {x n : Int} (h : fF32.val b = .fin neg m x false) (hlo : -149 ≤ n) (hhi : n ≤ 127)
    (hv : ((if neg then -1 else 1) * m * 2 ^ x : ℚ) = n) : exp2r b = fF32.round .rn false (.fin false 1 n false) := by
  obtain ⟨_, hx, _, _⟩ := fF32_bounds h
  by_cases hm : m = 0
  · subst hm
    obtain rfl : n = 0 := by
      simp only [Nat.cast_zero, mul_zero, zero_mul] at hv
      exact_mod_cast hv.symm
    rw [exp2r_zero h]
    rfl
  · have hs : scaled149 neg m x = n * 2 ^ 149 := by
      rw [← @Int.cast_inj ℚ, scaled149_cast _ _ hx, hv]
      push_cast
      rfl
    have hnot : ¬ 9 ≤ bitLen m + x := fun h9 => by
      have hbig := le_of_bitLen hm h9
      have hlo' : (-149 : ℚ) ≤ n := by exact_mod_cast hlo
      have hhi' : (n : ℚ) ≤ 127 := by exact_mod_cast hhi
      cases neg <;> simp at hv <;> linarith
    rw [exp2r_fin h hm, if_neg hnot, hs, Int.mul_ediv_cancel _ (by norm_num), Int.mul_emod_left, if_neg (by omega),
      if_neg (by omega)]
    have := fF32.round_scale .rn false false 1 n 256
    simpa using this

/-! ### `fexd` (R210) -/

/-- The F32 difference of two encodings, rounded to nearest. -/
def fexdArg (a b : Nat) : Nat := fF32.round .rn false (FVal.sum .rn [fF32.val a, (fF32.val b).neg])
theorem f32sub_ofNat {a b : Nat} (ha : a < 2 ^ 32) (hb : b < 2 ^ 32) (h : fexdArg a b < 2 ^ 32) :
    (f32sub (BitVec.ofNat 32 a) (BitVec.ofNat 32 b)).toNat = fexdArg a b := by
  simp only [f32sub, BitVec.toNat_ofNat, Nat.mod_eq_of_lt ha, Nat.mod_eq_of_lt hb]
  exact Nat.mod_eq_of_lt h
theorem fexdArg_nan {a b : Nat} (h : (fF32.isNaN a || fF32.isNaN b) = true) : fexdArg a b = 0x7FC00000 := by
  have hsum : FVal.sum .rn [fF32.val a, (fF32.val b).neg] = .nan := by
    rw [Bool.or_eq_true, isNaN_iff, isNaN_iff] at h
    rcases h with h | h <;> simp [FVal.sum, h, FVal.neg]
  rw [fexdArg, hsum]
  rfl
/-- −∞ less a number. -/
theorem fexdArg_negInf {b m : Nat} {neg : Bool} {x : Int} (h : fF32.val b = .fin neg m x false) :
    fexdArg 0xFF800000 b = 0xFF800000 := by
  have hinf : fF32.val 0xFF800000 = .inf true := rfl
  rw [fexdArg, hinf, h]
  rfl
/-- A number less itself is a zero. -/
theorem fexdArg_self {b m : Nat} {neg : Bool} {x : Int} (h : fF32.val b = .fin neg m x false) :
    ∃ sign, fexdArg b b = fF32.signed sign 0 := by
  have hsum : ∃ sign, FVal.sum .rn [.fin neg m x false, .fin (!neg) m x false] = .fin sign 0 0 false := by
    have htotal : FVal.scaled x (.fin neg m x false) + FVal.scaled x (.fin (!neg) m x false) = 0 := by
      cases neg <;> simp [FVal.scaled]
    simp [FVal.sum, FVal.exp, htotal, -Bool.exists_bool]
  obtain ⟨sign, hsum⟩ := hsum
  refine ⟨sign, ?_⟩
  rw [fexdArg, h, FVal.neg, hsum]
  rfl

/-! ### `flog2`, `fsin` and `fcos` (R209) -/

theorem mem_choose {vs : List Nat} {k : Nat} : choose vs k ∈ vs ∨ choose vs k = 0 := by
  unfold choose
  rw [List.getD_eq_getElem?_getD]
  cases h : vs[k % vs.length]? with
  | none => exact .inr rfl
  | some v => exact .inl (List.mem_of_getElem? h)
/-- What `fsin` and `fcos` may answer lies in [−1, 1]. -/
theorem within_cap {a : Int} {v : Nat} (h : v ∈ within a true) : v % 2 ^ 31 ≤ 0x3F800000 := by
  have hsign : fF32.signBit = 2 ^ 31 := rfl
  simp only [within, List.mem_filterMap, Bool.true_and] at h
  obtain ⟨i, _, h⟩ := h
  unfold Fmt.signed at h
  grind
theorem choose_within_cap (a : Int) (k : Nat) : choose (within a true) k % 2 ^ 31 ≤ 0x3F800000 := by
  rcases mem_choose (vs := within a true) (k := k) with h | h
  · exact within_cap h
  · rw [h]
    decide
theorem fsinR_le {b m : Nat} {neg : Bool} {x : Int} (h : fF32.val b = .fin neg m x false) :
    fsinR b % 2 ^ 31 ≤ 0x3F800000 := by
  rw [fsinR, h]
  dsimp only
  split
  · next hm =>
    have hmag : fF32.units (b % fF32.signBit) = fF32.units 0 := by
      obtain ⟨_, _, hm', _⟩ := Fmt.val_eq_fin h
      rw [fF32.units_zero, Fmt.units, ← hm', hm, Nat.zero_mul]
    have : b % 2 ^ 31 = 0 := fF32.units_strictMono.injective hmag
    rw [this]
    exact Nat.zero_le _
  · exact choose_within_cap _ _
theorem fcosR_le {b m : Nat} {neg : Bool} {x : Int} (h : fF32.val b = .fin neg m x false) :
    fcosR b % 2 ^ 31 ≤ 0x3F800000 := by
  rw [fcosR, h]
  dsimp only
  split
  · decide
  · exact choose_within_cap _ _
theorem flog2R_pow {b l : Nat} {x : Int} (h : fF32.val b = .fin false (2 ^ l) x false) :
    flog2R b = fF32.round .rn false (.ofInt (l + x)) := by
  have hl : bitLen (2 ^ l) - 1 = l := by rw [bitLen, if_neg (Nat.two_pow_pos l).ne', Nat.log2_two_pow, Nat.add_sub_cancel]
  rw [flog2R, h]
  simp [hl]
theorem flog2R_neg {b m : Nat} {x : Int} (h : fF32.val b = .fin true m x false) (hm : m ≠ 0) : flog2R b = 0x7FC00000 := by
  rw [flog2R, h]
  simp only [hm, if_false, if_true]
  rfl
theorem trig_nan {b : Nat} (h : fF32.isNaN b = true) :
    flog2R b = 0x7FC00000 ∧ fsinR b = 0x7FC00000 ∧ fcosR b = 0x7FC00000 := by
  rw [flog2R, fsinR, fcosR, isNaN_iff.mp h]
  exact ⟨rfl, rfl, rfl⟩


/-! ### `frnd` and `fscale` (R210) -/

/-- A whole number of at most 24 bits is an F32 number. -/
theorem fF32_round_nat (neg : Bool) {n : Nat} (hn : n < 2 ^ 24) : ∃ (k : Nat) (y : Int),
    fF32.val (fF32.round .rn false (.fin neg n 0 false)) = .fin neg k y false ∧ (k * 2 ^ y : ℚ) = n := by
  by_cases h0 : n = 0
  · subst h0
    exact ⟨0, -149, by cases neg <;> rfl, by simp⟩
  · have hlen : 0 < bitLen n := lt_bitLen_iff.mpr (Nat.pos_of_ne_zero h0)
    have hlen' : bitLen n ≤ 24 := bitLen_le_iff.mpr hn
    obtain ⟨k, hk⟩ : ∃ k, bitLen n + k = 24 := ⟨24 - bitLen n, by omega⟩
    obtain ⟨hlo, hhi⟩ := bitLen_eq_iff.mp (show bitLen (n * 2 ^ k) = 23 + 1 by rw [bitLen_mul_two_pow h0, hk])
    have hscale := fF32.round_scale .rn false neg n 0 k
    obtain ⟨mag, hmag⟩ : ∃ mag, mag = (150 - k) * 2 ^ 23 + (n * 2 ^ k - 2 ^ 23) := ⟨_, rfl⟩
    have hdiv : mag / 2 ^ 23 = 150 - k := by omega
    have hmod : mag % 2 ^ 23 = n * 2 ^ k - 2 ^ 23 := by omega
    have hmant : fF32.mant mag = n * 2 ^ k := by
      change (if mag / 2 ^ 23 = 0 then mag % 2 ^ 23 else 2 ^ 23 + mag % 2 ^ 23) = _
      rw [if_neg (by omega)]
      omega
    have hexpo : fF32.expo mag = 0 - k := by
      change (1 - 127 - 23 : Int) + (mag / 2 ^ 23 - 1 : Nat) = _
      omega
    have hmax : mag ≤ fF32.maxBits := by
      rw [fF32_maxBits]
      omega
    obtain ⟨hlt, hspec⟩ := (fF32.le_maxBits_iff (Fmt.ok_of_mem (by decide)) mag).mp hmax
    rw [← hscale, ← hmant, ← hexpo, fF32.round_of_le_maxBits _ _ hmax]
    have hsm := fF32.signed_mod neg hlt
    refine ⟨_, _, (fF32.val_of_not_special (by rw [hsm]; exact hspec)).trans (by rw [hsm, fF32.negBit_signed neg hlt]), ?_⟩
    rw [hmant, hexpo]
    push_cast
    rw [mul_assoc, ← zpow_natCast, ← zpow_add₀ two_ne_zero]
    simp
/-- A magnitude of fewer than 24 bits below the point rounds to a whole number of at most 24 bits. -/
theorem quantize_lt {m : Rnd} {neg : Bool} {mant : Nat} {x : Int} (hm : mant < 2 ^ 24) (hx : x < 0) :
    quantize m neg mant x 0 false < 2 ^ 24 := by
  have hdiv : mant / 2 ^ (0 - x).toNat < 2 ^ 23 := by
    rw [Nat.div_lt_iff_lt_mul (Nat.two_pow_pos _), ← Nat.pow_add]
    exact lt_of_lt_of_le hm (Nat.pow_le_pow_right (by decide) (by omega))
  rw [quantize_of_lt _ _ _ _ hx]
  split <;> omega

/-- Flushing keeps a number that is not below the normal ones. -/
theorem Fmt.flush_of_ne {f : Fmt} {z : Bool} {b m : Nat} {neg : Bool} {x : Int} (h : f.val (f.flush z b) = .fin neg m x false)
    (hm : m ≠ 0) : f.flush z b = b := by
  unfold Fmt.flush at *
  split
  · next hz =>
    rw [if_pos hz] at h
    obtain ⟨_, _, hm', _⟩ := Fmt.val_eq_fin h
    have hmod : (b - b % f.signBit) % f.signBit = 0 := by
      rw [Nat.sub_mod_eq_zero_of_mod_eq (Nat.mod_mod _ _).symm]
    rw [hmod] at hm'
    simp [Fmt.mant] at hm'
    omega
  · rfl
theorem Fmt.subnormal_val {f : Fmt} (hf : f.Ok) {b : Nat} (h : f.subnormal b = true) : ∃ neg m x, f.val b = .fin neg m x false := by
  have hs : f.special (b % f.signBit) = false := by
    simp only [Fmt.subnormal, Bool.and_eq_true, bne_iff_ne, decide_eq_true_eq] at h
    have he : 2 ≤ 2 ^ f.e := Nat.pow_le_pow_right (n := 2) (by decide) hf.2
    have ht : 2 ≤ 2 ^ f.t := Nat.pow_le_pow_right (n := 2) (by decide) hf.1
    have h2 : 2 * 2 ^ f.t ≤ f.signBit := by
      rw [f.signBit_eq]
      exact Nat.mul_le_mul_right _ he
    unfold Fmt.special
    rw [Nat.div_eq_of_lt h.2]
    split <;> rw [beq_eq_false_iff_ne] <;> omega
  exact ⟨_, _, _, f.val_of_not_special hs⟩
/-- Flushing keeps infinities and NaNs. -/
theorem Fmt.flush_of_not_fin {f : Fmt} (hf : f.Ok) {b : Nat} (z : Bool) (h : ∀ neg m x, f.val b ≠ .fin neg m x false) :
    f.flush z b = b := by
  unfold Fmt.flush
  split
  · next hz =>
    rw [Bool.and_eq_true] at hz
    obtain ⟨neg, m, x, hv⟩ := f.subnormal_val hf hz.2
    exact absurd hv (h neg m x)
  · rfl
theorem fF32_ok : fF32.Ok := Fmt.ok_of_mem (by decide)

theorem frndR_nan {m : FMod} {a : Nat} (h : fF32.isNaN a = true) : frndR m a = 0x7FC00000 := by
  have hv := isNaN_iff.mp h
  rw [frndR, fF32.flush_of_not_fin fF32_ok m.ftz (by simp [hv]), hv]
  rfl
theorem frndR_inf {m : FMod} {a : Nat} {neg : Bool} (h : fF32.val a = .inf neg) : frndR m a = a := by
  rw [frndR, fF32.flush_of_not_fin fF32_ok m.ftz (by simp [h]), h]
theorem frndR_fin {m : FMod} {a mant : Nat} {neg : Bool} {x : Int} (h : fF32.val (fF32.flush m.ftz a) = .fin neg mant x false) :
    frndR m a = if 0 ≤ x then fF32.flush m.ftz a
      else fF32.round .rn false (.fin neg (quantize m.rnd neg mant x 0 false) 0 false) := by
  rw [frndR, h]
theorem frndR_value {m : FMod} {a mant : Nat} {neg : Bool} {x : Int}
    (h : fF32.val (fF32.flush m.ftz a) = .fin neg mant x false) :
    ∃ (n : Nat) (y : Int), fF32.val (frndR m a) = .fin neg n y false ∧
      (n * 2 ^ y : ℚ) = quantize m.rnd neg mant x 0 false := by
  obtain ⟨hmant, _⟩ := fF32_bounds h
  rw [frndR_fin h]
  split
  · next hx =>
    refine ⟨mant, x, h, ?_⟩
    rw [quantize_of_le _ _ _ _ hx]
    push_cast
    rw [← zpow_natCast]
    congr 2
    omega
  · next hx => exact fF32_round_nat neg (quantize_lt hmant (by omega))
theorem frndR_large {m : FMod} {a mant : Nat} {neg : Bool} {x : Int}
    (h : fF32.val (fF32.flush m.ftz a) = .fin neg mant x false) (hv : (2 ^ 23 : ℚ) ≤ mant * 2 ^ x) : frndR m a = a := by
  obtain ⟨hmant, _⟩ := fF32_bounds h
  have hm : mant ≠ 0 := by rintro rfl; norm_num at hv
  have hx : 0 ≤ x := by
    by_contra hneg
    have h1 : (2 ^ x : ℚ) ≤ 2 ^ (-1 : Int) := zpow_le_zpow_right₀ one_le_two (by omega)
    have h2 : (mant : ℚ) < 2 ^ 24 := by exact_mod_cast hmant
    have h3 : (0 : ℚ) < 2 ^ x := zpow_pos two_pos x
    norm_num at h1
    nlinarith
  rw [frndR_fin h, if_pos hx, fF32.flush_of_ne h hm]

/-- A value beyond the largest F32 number overflows. -/
theorem fF32_round_large (m : Rnd) (z neg : Bool) {mant : Nat} {x : Int} (hm : mant ≠ 0) (hx : 851 ≤ x) :
    fF32.round m z (.fin neg mant x false) = fF32.overflow m neg := by
  have hlen : 0 < bitLen mant := lt_bitLen_iff.mpr (Nat.pos_of_ne_zero hm)
  have hmax := fF32_maxBits
  have hlow : fF32.low = -149 := rfl
  have ht : fF32.t = 23 := rfl
  have hmag : fF32.maxBits < fF32.roundMag m neg mant x false := by
    rw [Fmt.roundMag, Fmt.unit, hlow, ht, hmax]
    omega
  rw [fF32.round_fin, if_neg (by simp [hm]), if_pos hmag]
/-- A value far below the smallest F32 number rounds by its mode and sign alone. -/
theorem fF32_roundMag_tiny (m : Rnd) (neg : Bool) {mant : Nat} {x : Int} (hm : mant ≠ 0) (hlt : mant < 2 ^ 24) (hx : x ≤ -200) :
    fF32.roundMag m neg mant x false = if m = .ru ∧ neg = false ∨ m = .rd ∧ neg = true then 1 else 0 := by
  have hlen : bitLen mant ≤ 24 := bitLen_le_iff.mpr hlt
  have hlow : fF32.low = -149 := rfl
  have ht : fF32.t = 23 := rfl
  have hunit : fF32.unit mant x = -149 := by
    rw [Fmt.unit, hlow, ht]
    omega
  obtain ⟨k, hk⟩ : ∃ k : Nat, (-149 - x).toNat = k + 25 := ⟨(-149 - x).toNat - 25, by omega⟩
  have hbig : 2 ^ 24 ≤ 2 ^ (k + 24) := Nat.pow_le_pow_right (by decide) (by omega)
  have hpow : 2 ^ (k + 25) = 2 * 2 ^ (k + 24) := by rw [Nat.pow_succ 2 (k + 24), Nat.mul_comm]
  have hup : roundUp m neg false mant (2 ^ (k + 24)) false = decide (m = .ru ∧ neg = false ∨ m = .rd ∧ neg = true) := by
    have h1 : ¬ 2 ^ (k + 24) < mant := by omega
    have h2 : mant ≠ 2 ^ (k + 24) := by omega
    cases m <;> cases neg <;> simp [roundUp, h1, h2, hm]
  rw [Fmt.roundMag, hunit, hlow, quantize_of_lt _ _ _ _ (by omega), hk, Nat.div_eq_of_lt (by omega),
    Nat.mod_eq_of_lt (show mant < 2 ^ (k + 25) by omega)]
  simp only [Nat.add_sub_cancel, show k + 25 - 1 = k + 24 from rfl]
  rw [show ((0 : Nat) % 2 == 1) = false from rfl, hup]
  simp
theorem fscaleR_fin {m : FMod} {a mant : Nat} {neg : Bool} {x : Int} (n : Int)
    (h : fF32.val (fF32.flush m.ftz a) = .fin neg mant x false) :
    fscaleR m a n = fF32.round m.rnd m.ftz (.fin neg mant (x + n) false) := by
  obtain ⟨hmant, hlo, hhi, _⟩ := fF32_bounds h
  rw [fscaleR, h]
  dsimp only
  by_cases hm : mant = 0
  · simp [fF32.round_fin, hm]
  · by_cases h1 : 1000 < n
    · rw [fF32_round_large _ _ _ hm (by omega), fF32_round_large _ _ _ hm (by omega)]
    · by_cases h2 : n < -1000
      · simp only [fF32.round_fin, fF32_roundMag_tiny m.rnd neg hm hmant (show x + max (-1000) (min 1000 n) ≤ -200 by omega),
          fF32_roundMag_tiny m.rnd neg hm hmant (show x + n ≤ -200 by omega)]
      · rw [show max (-1000) (min 1000 n) = n by omega]
theorem fscaleR_nan {m : FMod} {a : Nat} (h : fF32.isNaN a = true) (n : Int) : fscaleR m a n = 0x7FC00000 := by
  have hv := isNaN_iff.mp h
  rw [fscaleR, fF32.flush_of_not_fin fF32_ok m.ftz (by simp [hv]), hv]
  rfl
theorem fscaleR_inf {m : FMod} {a : Nat} (h : a = 0x7F800000 ∨ a = 0xFF800000) (n : Int) : fscaleR m a n = a := by
  have hv : ∃ neg, a = fF32.signed neg fF32.infBits := by
    rcases h with rfl | rfl
    · exact ⟨false, rfl⟩
    · exact ⟨true, rfl⟩
  obtain ⟨neg, ha⟩ := hv
  have hval := fF32_val_inf ha
  rw [fscaleR, fF32.flush_of_not_fin fF32_ok m.ftz (by simp [hval]), hval]
  exact ha.symm

/-! ### `fclass` (R210) -/

theorem fclassR_eq {a : Nat} (ha : a < 2 ^ 32) : fclassR a =
    let e := a / 2 ^ 23 % 256
    let t := a % 2 ^ 23
    let neg := decide (2 ^ 31 ≤ a)
    if e = 255 then (if t ≠ 0 then 2 ^ 0 else if neg then 2 ^ 1 else 2 ^ 8)
    else if e ≠ 0 then (if neg then 2 ^ 2 else 2 ^ 7)
    else if t ≠ 0 then (if neg then 2 ^ 3 else 2 ^ 6)
    else (if neg then 2 ^ 4 else 2 ^ 5) := by
  have hsign : fF32.signBit = 2 ^ 31 := rfl
  have hneg : fF32.negBit a = decide (2 ^ 31 ≤ a) := by
    rw [Fmt.negBit, hsign, Nat.mod_eq_of_lt (by omega)]
  have hexp : a % fF32.signBit / 2 ^ fF32.t = a / 2 ^ 23 % 256 := by
    change a % 2 ^ 31 / 2 ^ 23 = _
    omega
  have hspec : fF32.special (a % fF32.signBit) = (a / 2 ^ 23 % 256 == 255) := by
    rw [Fmt.special, hexp]
    rfl
  have hfrac : a % fF32.signBit % 2 ^ fF32.t = a % 2 ^ 23 := by
    change a % 2 ^ 31 % 2 ^ 23 = _
    omega
  have hsub : fF32.subnormal a = (decide (a / 2 ^ 23 % 256 = 0) && decide (a % 2 ^ 23 ≠ 0)) := by
    have hiff : (a % fF32.signBit ≠ 0 ∧ a % fF32.signBit < 2 ^ fF32.t) ↔ a / 2 ^ 23 % 256 = 0 ∧ a % 2 ^ 23 ≠ 0 := by
      change (a % 2 ^ 31 ≠ 0 ∧ a % 2 ^ 31 < 2 ^ 23) ↔ _
      omega
    rw [Fmt.subnormal, Bool.eq_iff_iff, Bool.and_eq_true, Bool.and_eq_true, bne_iff_ne, decide_eq_true_iff, decide_eq_true_iff,
      decide_eq_true_iff]
    exact hiff
  have hmant : fF32.mant (a % fF32.signBit) = 0 ↔ a / 2 ^ 23 % 256 = 0 ∧ a % 2 ^ 23 = 0 := by
    have hT := Nat.two_pow_pos fF32.t
    rw [Fmt.mant, hexp, hfrac]
    generalize a / 2 ^ 23 % 256 = e
    generalize a % 2 ^ 23 = t
    split <;> omega
  cases hs : fF32.special (a % fF32.signBit) with
  | true =>
    have he := hspec.symm.trans hs
    rw [beq_iff_eq] at he
    rw [fclassR, fF32.val_of_special hs, hfrac, hneg]
    simp only [he, if_true]
    generalize a % 2 ^ 23 = t
    by_cases ht : t = 0 <;> simp [ht, fF32]
  | false =>
    have he := hspec.symm.trans hs
    rw [beq_eq_false_iff_ne] at he
    rw [fclassR, fF32.val_of_not_special hs, hneg]
    simp only [hmant, hsub]
    generalize a % 2 ^ 23 = t
    generalize a / 2 ^ 23 % 256 = e at *
    by_cases he0 : e = 0 <;> by_cases ht : t = 0 <;> simp [he, he0, ht]

/-- Settles O12: each instruction is its mould with a function on encodings, whose special values and ranges the lemmas above give. -/
theorem singlePrecision : Obligations.SinglePrecision := by
  unfold Obligations.SinglePrecision
  refine ⟨?_, ?_, ?_, ?_, ?_, ?_, ?_, ?_, ?_, ?_, ?_, ?_, ?_, ?_, ?_, ?_, ?_, ?_, ?_, ?_, ?_, ?_, ?_, ?_, ?_, ?_, ?_, ?_⟩
  · exact fun m => binaryFIs_of_exec (fun _ _ => rfl) fun a b => rfl
  · exact fun m => binaryFIs_of_exec (fun _ _ => rfl) fun a b => rfl
  · exact fun m => binaryFIs_of_exec (fun _ _ => rfl) fun a b => rfl
  · exact fun m => binaryFIs_of_exec (fun _ _ => rfl) fun a b => rfl
  · exact fun m => ternaryIs_of_exec (fun _ _ => rfl) fun a b c => rfl
  · exact fun m => ternaryIs_of_exec (fun _ _ => rfl) fun a b c => rfl
  · exact fun m => ternaryIs_of_exec (fun _ _ => rfl) fun a b c => rfl
  · exact fun z => binaryFIs_of_exec (fun _ _ => rfl) fun a b => rfl
  · exact fun z => binaryFIs_of_exec (fun _ _ => rfl) fun a b => rfl
  · exact fun z => ternaryIs_of_exec (fun _ _ => rfl) fun a b c => rfl
  · exact fun c z => binaryRIs_of_exec (fun _ _ => rfl) fun a b => bit_setWidth _
  · exact fun op => binaryRIs_of_exec (fun _ _ => rfl) (fsgnR_eq op)
  · exact fun m => unaryIs_of_exec (fun _ _ => rfl) fun a => rfl
  · exact fun m => unaryIs_of_exec (fun _ _ => rfl) fun a => rfl
  · exact fun m => unaryIs_of_exec (fun _ _ => rfl) fun a => rfl
  · exact fun z => unaryIs_of_exec (fun _ _ => rfl) fun a => rfl
  · exact fun z => unaryIs_of_exec (fun _ _ => rfl) fun a => rfl
  · exact fun z => unaryIs_of_exec (fun _ _ => rfl) fun a => rfl
  · exact fun z => unaryIs_of_exec (fun _ _ => rfl) fun a => rfl
  · exact fun m => unaryIs_of_exec (fun _ _ => rfl) fun a => rfl
  · exact unaryIs_of_exec (fun _ _ => rfl) fun a => rfl
  · exact fun m => binaryIs_of_eq (fun _ _ => rfl) fun a b => rfl
  · exact binaryRIs_of_exec (fun _ _ => rfl) fun a b => rfl
  · exact ⟨fun b => exp2r_nan, exp2r_inf (neg := true) rfl, exp2r_inf (neg := false) rfl, exp2r_zero (fF32_val_zero false),
      exp2r_zero (fF32_val_zero true), fun b mant x => exp2r_large, fun b mant x => exp2r_small,
      fun b mant neg x n h hlo hhi hv => exp2r_int h hlo hhi hv⟩
  · have hfexd {a b : Nat} (ha : a < 2 ^ 32) (hb : b < 2 ^ 32) (h : fexdArg a b < 2 ^ 32) :
        exp2r (f32sub (BitVec.ofNat 32 a) (BitVec.ofNat 32 b)).toNat = exp2r (fexdArg a b) := by rw [f32sub_ofNat ha hb h]
    refine ⟨fun a b ha hb h => ?_, rfl, rfl, fun b mant neg x hb h => ⟨?_, ?_⟩⟩
    · have harg := fexdArg_nan h
      exact (hfexd ha hb (by rw [harg]; decide)).trans (by rw [harg]; rfl)
    · have harg := fexdArg_negInf h
      exact (hfexd (by decide) hb (by rw [harg]; decide)).trans (by rw [harg]; rfl)
    · obtain ⟨sign, harg⟩ := fexdArg_self h
      refine (hfexd hb hb (by rw [harg]; exact fF32_signed_lt sign (by decide))).trans ?_
      rw [harg]
      exact exp2r_zero (fF32_val_zero sign)
  · exact ⟨fun b => trig_nan, rfl, rfl, rfl, rfl, rfl, fun b mant x => flog2R_neg, fun b l x => flog2R_pow, rfl, rfl, rfl, rfl, rfl,
      rfl, rfl, rfl, fun b mant neg x h => ⟨fsinR_le h, fcosR_le h⟩⟩
  · exact fun m a ha => ⟨frndR_nan, fun h => by
        rcases h with rfl | rfl
        · exact frndR_inf (neg := false) rfl
        · exact frndR_inf (neg := true) rfl,
      fun neg mant x h => ⟨frndR_value h, frndR_large h⟩, fscaleR_nan, fscaleR_inf, fun neg mant x n h => fscaleR_fin n h⟩
  · exact fun a ha => fclassR_eq ha


end Sys2Proof.Machine
end
section
/-! PROOFS. Conversions, scales and the format-slot instructions (R190, R214 to R221). -/
namespace Sys2Proof.Machine

theorem setWidth_up_down (a : Word) : (a.setWidth 64).setWidth 32 = a := by simp
theorem toNat_setWidth_up (a : Word) : (a.setWidth 64).toNat = a.toNat := BitVec.toNat_setWidth_of_le (by decide)
theorem Stream.rd64_low (st : Stream) (r : Reg) : (st.rd64 r).extractLsb' 0 32 = st.rd r := by
  rw [Stream.rd64, BitVec.extractLsb'_append_eq_right]
theorem Stream.rd64_high (st : Stream) (r : Reg) : (st.rd64 r).extractLsb' 32 32 = st.rd (r.up 1) := by
  rw [Stream.rd64, BitVec.extractLsb'_append_eq_left]
theorem Src.port_ite (c : Prop) [Decidable c] {a b : Src} (ha : a.port = none) (hb : b.port = none) :
    (if c then a else b).port = none := by split <;> assumption
theorem Dst.port_ite (c : Prop) [Decidable c] {a b : Dst} (ha : a.port = Option.none) (hb : b.port = Option.none) :
    (if c then a else b).port = Option.none := by split <;> assumption

/-! ### Conversions (R214, R215, R219) -/

theorem exec_f2i (o : Alu1) (t : IType) (m : Rnd) (s : State) (hp : plainRegs [o.d, o.s1]) :
    exec (.f2i o t m) s = .next (s.completed o.g fun st =>
      let v := toIType t m (fF32.val (st.rd o.s1).toNat)
      if typeWide t then (st.kill o.s1 o.k1).wr64 o.d v else (st.kill o.s1 o.k1).wr o.d (v.setWidth 32)) := by
  simp at hp
  refine exec_of_alu (i := .f2i o t m) rfl (Src.port_r32 _ hp.2) rfl rfl (Dst.port_ite _ rfl (Dst.port_r32 hp.1)) fun st => ?_
  cases t <;> simp [laneOp, Src.read, Src.killIn, Dst.write, noSrc, typeWide]
theorem exec_i2f (o : Alu1) (t : IType) (m : Rnd) (s : State) (hp : plainRegs [o.d, o.s1]) :
    exec (.i2f o t m) s = .next (s.completed o.g fun st =>
      let n := match t with
        | .i32 => (st.rd o.s1).toInt | .n32 => ((st.rd o.s1).toNat : Int)
        | .i64 => (st.rd64 o.s1).toInt | .n64 => ((st.rd64 o.s1).toNat : Int)
      (if typeWide t then st.kill64 o.s1 o.k1 else st.kill o.s1 o.k1).wr o.d
        (BitVec.ofNat 32 (fF32.round m false (.ofInt n)))) := by
  simp at hp
  refine exec_of_alu (i := .i2f o t m) rfl (Src.port_ite _ rfl (Src.port_r32 _ hp.2)) rfl rfl (Dst.port_r32 hp.1) fun st => ?_
  cases t <;> simp [laneOp, Src.read, Src.killIn, Dst.write, noSrc, typeWide, ofIType]
theorem exec_dcvt (o : Alu1) (dir : CvtDir) (m : FMod) (s : State) (hp : plainRegs [o.d, o.s1]) :
    exec (.dcvt o dir m) s = .next (s.completed o.g fun st =>
      match dir with
      | .f32f64 => (st.kill64 o.s1 o.k1).wr o.d
          (BitVec.ofNat 32 (fF32.round m.rnd m.ftz (fF64.val (fF64.flush m.ftz (st.rd64 o.s1).toNat))))
      | .f64f32 => (st.kill o.s1 o.k1).wr64 o.d
          (BitVec.ofNat 64 (fF64.round m.rnd false (fF32.val (fF32.flush m.ftz (st.rd o.s1).toNat))))
      | .i64f64 => (st.kill64 o.s1 o.k1).wr64 o.d (toIType .i64 m.rnd (fF64.val (fF64.flush m.ftz (st.rd64 o.s1).toNat)))
      | .f64i64 => (st.kill64 o.s1 o.k1).wr64 o.d
          (BitVec.ofNat 64 (fF64.round m.rnd m.ftz (.ofInt (st.rd64 o.s1).toInt)))) := by
  simp at hp
  refine exec_of_alu (i := .dcvt o dir m) rfl (Src.port_ite _ (Src.port_r32 _ hp.2) rfl) rfl rfl
    (Dst.port_ite _ (Dst.port_r32 hp.1) rfl) fun st => ?_
  cases dir <;> simp [laneOp, Src.read, Src.killIn, Dst.write, noSrc, dcvtR]
theorem exec_dsenc (o : Alu1) (pos : BitVec 3) (ss4 : Bool) (s : State) (hp : plainRegs [o.d, o.s1]) :
    exec (.dsenc o pos ss4) s = .next (s.completed o.g fun st =>
      (st.kill o.s1 o.k1).wr o.d (putElem (if ss4 then 4 else 8) pos.toNat (dsencR ss4 (st.rd o.s1).toNat) (st.rd o.d))) := by
  simp at hp
  refine exec_of_alu (i := .dsenc o pos ss4) rfl (Src.port_r32 _ hp.2) rfl rfl (Dst.port_r32 hp.1) fun st => ?_
  simp [laneOp, Src.read, Src.killIn, Dst.write, noSrc]
theorem scmulR_eq (inv : Bool) (m : FMod) (a b : Word) : onWord2 (scmulR inv m) a b =
    let c := b.toNat % 256
    let scale : FVal := .fin false (8 + c % 8) (c / 8 - 19) false
    let v := fF32.val (fF32.flush m.ftz a.toNat)
    if c = 0 then 0 else if c = 255 then 0x7FC00000
    else BitVec.ofNat 32 (fF32.round m.rnd m.ftz (if inv then v.div scale else v.mul scale)) := by
  have hscale (h0 : b.toNat % 256 ≠ 0) (h1 : b.toNat % 256 ≠ 255) : scaleVal b.toNat =
      .fin false (8 + b.toNat % 256 % 8) ((b.toNat % 256 / 8 : Nat) - 19) false := by
    rw [scaleVal, if_neg h0, if_neg h1]
    congr 2 <;> omega
  unfold onWord2 scmulR
  dsimp only
  split
  · rfl
  · split
    · rfl
    · next h0 h1 => rw [hscale h0 h1]; rfl

/-! ### `atmrg` (R199, R221) -/

/-- An encoding with −0 as +0. -/
def plusZero (m : Word) : Word := if m = 0x80000000 then 0 else m
theorem ord_plusZero (m : Word) : fF32.ord (plusZero m).toNat = fF32.ord m.toNat := by
  unfold plusZero
  split
  · next h => subst h; rfl
  · rfl
theorem ord_word (m : Word) : fF32.ord m.toNat = if 2 ^ 31 ≤ m.toNat then -((m.toNat - 2 ^ 31 : Nat) : Int) else m.toNat := by
  have h := m.isLt
  change (if 2 ^ 31 ≤ m.toNat then -((m.toNat % 2 ^ 31 : Nat) : Int) else (m.toNat % 2 ^ 31 : Nat)) = _
  split <;> omega
theorem ord_inj {m n : Word} (h : fF32.ord m.toNat = fF32.ord n.toNat) (hm : m ≠ 0x80000000) (hn : n ≠ 0x80000000) : m = n := by
  apply BitVec.eq_of_toNat_eq
  have hm' : m.toNat ≠ 2 ^ 31 := fun e => hm (BitVec.eq_of_toNat_eq e)
  have hn' : n.toNat ≠ 2 ^ 31 := fun e => hn (BitVec.eq_of_toNat_eq e)
  rw [ord_word, ord_word] at h
  split at h <;> split at h <;> omega
/-- Equal values of numbers are equal encodings but for the sign of zero. -/
theorem cmp_eq_iff {m n : Word} (hm : fF32.isNaN m.toNat = false) (hn : fF32.isNaN n.toNat = false) :
    fF32.cmp .eq false m.toNat n.toNat = true ↔ plusZero m = plusZero n := by
  have hne (m : Word) : plusZero m ≠ 0x80000000 := by unfold plusZero; grind
  simp only [Fmt.cmp, Fmt.flush_false, hm, hn, Bool.or_self, Bool.not_false, Bool.true_and, beq_iff_eq]
  exact ⟨fun h => ord_inj (by rw [ord_plusZero, ord_plusZero, h]) (hne m) (hne n),
    fun h => by rw [← ord_plusZero m, ← ord_plusZero n, h]⟩
/-- A value that is not a zero. -/
def FVal.NonZero (v : FVal) : Prop := ∀ neg x st, v ≠ .fin neg 0 x st
theorem FVal.NonZero.neg {v : FVal} (h : v.NonZero) : v.neg.NonZero := by
  intro neg x st
  cases v with
  | fin n m y t =>
    have hm : m ≠ 0 := by rintro rfl; exact h n y t rfl
    simp [FVal.neg, hm]
  | _ => simp [FVal.neg]
theorem FVal.scaled_ne_zero {v : FVal} (h : v.NonZero) (hf : ∃ neg m x st, v = .fin neg m x st) (y : Int) : v.scaled y ≠ 0 := by
  obtain ⟨neg, m, x, st, rfl⟩ := hf
  have hm : m ≠ 0 := by rintro rfl; exact h neg x st rfl
  have := Nat.two_pow_pos (x - y).toNat
  cases neg <;> simp [FVal.scaled, hm]
/-- The sign of a zero does not matter in a sum that is not zero. -/
theorem FVal.sum_zero_left (m : Rnd) (a b : Bool) (x : Int) {v : FVal} (h : v.NonZero) :
    FVal.sum m [.fin a 0 x false, v] = FVal.sum m [.fin b 0 x false, v] := by
  cases v with
  | fin n k y t =>
    have := FVal.scaled_ne_zero h ⟨n, k, y, t, rfl⟩
    have hz (c : Bool) (z : Int) : FVal.scaled z (.fin c 0 x false) = 0 := by simp [FVal.scaled]
    simp [FVal.sum, FVal.exp, hz, this]
  | nan => simp [FVal.sum]
  | inf n => cases n <;> simp [FVal.sum]
theorem FVal.sum_zero_right (m : Rnd) (a b : Bool) (x : Int) {v : FVal} (h : v.NonZero) :
    FVal.sum m [v, .fin a 0 x false] = FVal.sum m [v, .fin b 0 x false] := by
  cases v with
  | fin n k y t =>
    have := FVal.scaled_ne_zero h ⟨n, k, y, t, rfl⟩
    have hz (c : Bool) (z : Int) : FVal.scaled z (.fin c 0 x false) = 0 := by simp [FVal.scaled]
    simp [FVal.sum, FVal.exp, hz, this]
  | nan => simp [FVal.sum]
  | inf n => cases n <;> simp [FVal.sum]
theorem val_nonZero {m : Word} (h : plusZero m ≠ 0) : (fF32.val m.toNat).NonZero := by
  intro neg x st hv
  obtain ⟨_, _, hm, _⟩ := Fmt.val_eq_fin hv
  have hmag : m.toNat % 2 ^ 31 = 0 := fF32.units_strictMono.injective
    (show fF32.units (m.toNat % fF32.signBit) = fF32.units 0 by rw [fF32.units_zero, Fmt.units, ← hm, Nat.zero_mul])
  have hlt := m.isLt
  unfold plusZero at h
  split at h
  · exact h rfl
  · next h0 =>
    have h1 : m.toNat ≠ 2 ^ 31 := fun e => h0 (BitVec.eq_of_toNat_eq e)
    have h2 : m.toNat ≠ 0 := fun e => h (BitVec.eq_of_toNat_eq e)
    omega
theorem f32sub_plusZero {m n : Word} (h : plusZero m ≠ plusZero n) : f32sub (plusZero m) (plusZero n) = f32sub m n := by
  have hzero : plusZero 0x80000000 = 0 := rfl
  have hpos : fF32.val (0 : Word).toNat = .fin false 0 (-149) false := fF32_val_zero false
  have hneg : fF32.val (0x80000000 : Word).toNat = .fin true 0 (-149) false := fF32_val_zero true
  have hsub (a b : Word) : f32sub a b =
      BitVec.ofNat 32 (fF32.round .rn false (FVal.sum .rn [fF32.val a.toNat, (fF32.val b.toNat).neg])) := rfl
  by_cases hm : m = 0x80000000
  · subst hm
    rw [hzero] at h ⊢
    have hn : plusZero n = n := if_neg fun e => by rw [e] at h; exact h rfl
    rw [hn, hsub, hsub, hpos, hneg, FVal.sum_zero_left .rn false true (-149) (val_nonZero (Ne.symm h)).neg]
  · have hm' : plusZero m = m := if_neg hm
    by_cases hn : n = 0x80000000
    · subst hn
      rw [hzero] at h ⊢
      rw [hm', hsub, hsub, hpos, hneg, FVal.neg, FVal.neg, FVal.sum_zero_right .rn (!false) (!true) (-149) (val_nonZero h)]
    · rw [hm', show plusZero n = n from if_neg hn]
theorem f32max_mem {m n : Word} (hm : fF32.isNaN m.toNat = false) (hn : fF32.isNaN n.toNat = false) :
    f32max m n = m ∨ f32max m n = n := by
  have h : fF32.pick true false m.toNat n.toNat = m.toNat ∨ fF32.pick true false m.toNat n.toNat = n.toNat := by
    simp only [Fmt.pick, Fmt.flush_false, hm, hn, Bool.false_eq_true, if_false]
    exact ite_eq_or_eq _ _ _
  unfold f32max
  rcases h with h | h <;> simp [h]
/-- The factor of an input of a merge (R199). -/
theorem side_plusZero {m big : Word} (hm : fF32.isNaN m.toNat = false) (hb : fF32.isNaN big.toNat = false) :
    side (plusZero big) (plusZero m) =
      if fF32.cmp .eq false m.toNat big.toNat then 0x3F800000
      else if m = 0xFF800000 then 0 else BitVec.ofNat 32 (exp2r (f32sub m big).toNat) := by
  have hinf : plusZero m = 0xFF800000 ↔ m = 0xFF800000 := by unfold plusZero; grind
  simp only [side, hinf, cmp_eq_iff hm hb]
  split
  · rfl
  · next h => rw [f32sub_plusZero h]
theorem exec_atmrg (o : Alu3) (mx : Bool) (s : State) (hp : plainRegs [o.d, o.s1, o.s2]) :
    exec (.atmrg o mx) s = .next (s.completed o.g fun st =>
      let f := mergeFactors (st.rd o.s3) (st.rd (o.s3.up 1))
      ((st.kill o.s1 o.k1).kill o.s2 o.k2).wr o.d (if mx then mergeMax f else mergeElem f (st.rd o.s1) (st.rd o.s2))) := by
  simp at hp
  refine exec_of_alu (i := .atmrg o mx) rfl (Src.port_r32 _ hp.2.1) (Src.port_r32 _ hp.2.2) rfl (Dst.port_r32 hp.1) fun st => ?_
  simp [laneOp, Src.read, Src.killIn, Dst.write, Stream.kill64, Stream.kill, Stream.rd64_low, Stream.rd64_high]
theorem merge_eq (mx : Bool) (x1 x2 m1 m2 : Word) :
    (if mx then mergeMax (mergeFactors m1 m2) else mergeElem (mergeFactors m1 m2) x1 x2) =
      let big := f32max m1 m2
      let f := fun (m : Word) =>
        if fF32.cmp .eq false m.toNat big.toNat then 0x3F800000
        else if m = 0xFF800000 then 0 else BitVec.ofNat 32 (exp2r (f32sub m big).toNat)
      if fF32.isNaN m1.toNat || fF32.isNaN m2.toNat then 0x7FC00000
      else if mx then big
      else if big = 0xFF800000 then 0
      else f32fma x2 (f m2) (f32mul x1 (f m1)) := by
  by_cases hnan : (fF32.isNaN m1.toNat || fF32.isNaN m2.toNat) = true
  · simp [mergeFactors, hnan, mergeMax, mergeElem]
  · have h := hnan
    rw [Bool.not_eq_true, Bool.or_eq_false_iff] at h
    obtain ⟨h1, h2⟩ := h
    have hb : fF32.isNaN (f32max m1 m2).toNat = false := by rcases f32max_mem h1 h2 with e | e <;> rw [e] <;> assumption
    have hf : mergeFactors m1 m2 = some ⟨f32max m1 m2, side (plusZero (f32max m1 m2)) (plusZero m1),
        side (plusZero (f32max m1 m2)) (plusZero m2), f32max m1 m2 == 0xFF800000⟩ := by
      rw [mergeFactors, if_neg hnan]
      rfl
    rw [hf, side_plusZero h1 hb, side_plusZero h2 hb]
    simp only [mergeMax, mergeElem, if_neg hnan, beq_iff_eq]

/-! ### The nearest code (R190, R219) -/

/-- A fold that keeps the earliest number of the least key. -/
theorem foldl_least {α : Type} [LinearOrder α] (k : Nat → α) (n : Nat) :
    let c := (List.range (n + 1)).foldl (fun best e => if k e < k best then e else best) 0
    c ≤ n ∧ ∀ e, e ≤ n → k c ≤ k e ∧ (k e = k c → c ≤ e) := by
  induction n with
  | zero =>
    refine ⟨by simp, fun e he => ?_⟩
    obtain rfl : e = 0 := by omega
    simp
  | succ n ih =>
    rw [List.range_succ, List.foldl_append, List.foldl_cons, List.foldl_nil]
    generalize (List.range (n + 1)).foldl (fun best e => if k e < k best then e else best) 0 = c at ih ⊢
    obtain ⟨hc, hmin⟩ := ih
    dsimp only
    split
    · next hlt =>
      refine ⟨le_refl _, fun e he => ?_⟩
      rcases Nat.lt_or_ge n e with h | h
      · obtain rfl : e = n + 1 := by omega
        exact ⟨le_refl _, fun _ => le_refl _⟩
      · have := (hmin e h).1
        exact ⟨(hlt.trans_le this).le, fun heq => absurd (hlt.trans_le this) (by rw [heq]; exact lt_irrefl _)⟩
    · next hlt =>
      refine ⟨by omega, fun e he => ?_⟩
      rcases Nat.lt_or_ge n e with h | h
      · obtain rfl : e = n + 1 := by omega
        exact ⟨not_lt.mp hlt, fun _ => by omega⟩
      · exact hmin e h

/-- A finite value as a multiple of a power of two at most its own. -/
theorem FVal.scaled_cast (neg : Bool) (m : Nat) {x y : Int} (st : Bool) (h : y ≤ x) :
    ((FVal.scaled y (.fin neg m x st) : Int) : ℚ) * 2 ^ y = (if neg then -1 else 1) * m * 2 ^ x := by
  have : (2 ^ (x - y).toNat * 2 ^ y : ℚ) = 2 ^ x := by
    rw [← zpow_natCast, ← zpow_add₀ two_ne_zero]
    congr 1
    omega
  rw [FVal.scaled, ← this]
  push_cast
  cases neg <;> simp <;> ring
/-- What `nearest` compares: the distance from the target, then the magnitude. -/
def nearKey (val : Nat → Int) (v : FVal) (e : Nat) : Nat ×ₗ Nat :=
  toLex ((val e * 2 ^ (-6 - min v.exp (-6)).toNat - v.scaled (min v.exp (-6))).natAbs, (val e).natAbs)
theorem nearest_eq (val : Nat → Int) (n : Nat) (v : FVal) : nearest val n v =
    (List.range n).foldl (fun best e => if nearKey val v e < nearKey val v best then e else best) 0 := by
  simp only [nearest, nearKey, Prod.Lex.toLex_lt_toLex, Bool.or_eq_true, Bool.and_eq_true, decide_eq_true_eq, beq_iff_eq]
/-- The nearest code: its value is nearest to `v`, of two as near the smaller, and of several encodings of it the smallest. -/
theorem nearest_spec (val : Nat → Int) (n : Nat) (neg : Bool) (m : Nat) (x : Int) :
    let c := nearest val (n + 1) (.fin neg m x false)
    let w : ℚ := (if neg then -1 else 1) * m * 2 ^ x
    let q := fun e => ((val e : Int) : ℚ) / 64
    c < n + 1 ∧ ∀ e, e < n + 1 → |q c - w| ≤ |q e - w| ∧ (|q e - w| = |q c - w| → |q c| ≤ |q e|) ∧ (q e = q c → c ≤ e) := by
  intro c w q
  obtain ⟨hc, hmin⟩ := foldl_least (nearKey val (.fin neg m x false)) n
  rw [← nearest_eq] at hc hmin
  let y := min x (-6)
  have hy : (0 : ℚ) < 2 ^ y := zpow_pos two_pos _
  have hdist (e : Nat) : |q e - w| = ((val e * 2 ^ (-6 - y).toNat - FVal.scaled y (.fin neg m x false)).natAbs : ℚ) * 2 ^ y := by
    have hq : q e = (val e : ℚ) * 2 ^ (-6 - y).toNat * 2 ^ y := by
      rw [mul_assoc, ← zpow_natCast, ← zpow_add₀ two_ne_zero, show ((-6 - y).toNat : Int) + y = -6 by omega]
      norm_num [q]
      ring
    rw [hq, show w = _ from (FVal.scaled_cast neg m false (min_le_left x (-6))).symm, ← sub_mul, abs_mul, abs_of_pos hy,
      Nat.cast_natAbs]
    push_cast
    rfl
  have habs (e : Nat) : |q e| = ((val e).natAbs : ℚ) / 64 := by
    rw [abs_div, Nat.cast_natAbs]
    norm_num
  refine ⟨by omega, fun e he => ?_⟩
  obtain ⟨hle, heq⟩ := hmin e (by omega)
  rw [nearKey, nearKey, Prod.Lex.toLex_le_toLex] at hle
  refine ⟨?_, fun h => ?_, fun h => heq ?_⟩
  · rw [hdist, hdist]
    gcongr
    rcases hle with h | ⟨h, _⟩
    · exact h.le
    · exact h.le
  · rw [hdist, hdist, mul_left_inj' hy.ne', Nat.cast_inj] at h
    rw [habs, habs]
    gcongr
    rcases hle with hlt | ⟨_, hle⟩
    · exact absurd h.symm hlt.ne
    · exact hle
  · have : val e = val c := by
      rw [div_left_inj' (by norm_num)] at h
      exact_mod_cast h
    rw [nearKey, nearKey, this]

/-- The code of a number from 2^7 on, which lies beyond every code's value: the end on its side. -/
def endCode (ss4 neg : Bool) : Nat := if ss4 then (if neg then 0x8 else 0x0) else if neg then 0x88 else 0x00
/-- The codes' values in units of 2^−6. -/
def codeUnits (ss4 : Bool) (e : Nat) : Int := if ss4 then ss4Val e else ds8Val e
def codeCount (ss4 : Bool) : Nat := if ss4 then 16 else 256
theorem shiftTerm_bounds (s : Nat) {c : Nat} (hc : c < 8) :
    -64 ≤ shiftTerm s c ∧ shiftTerm s c ≤ 64 ∧ (shiftTerm s c = -64 → s = 1 ∧ c = 0) := by
  unfold shiftTerm
  interval_cases c <;> by_cases hs : s = 1 <;> simp [hs]
theorem endCode_lt (ss4 neg : Bool) : endCode ss4 neg < codeCount ss4 := by cases ss4 <;> cases neg <;> decide
/-- No code's value lies beyond the end on a side, and that end is its first encoding. -/
theorem endCode_spec (ss4 neg : Bool) {e : Nat} (he : e < codeCount ss4) :
    (if neg then -128 ≤ codeUnits ss4 (endCode ss4 neg) ∧ codeUnits ss4 (endCode ss4 neg) ≤ codeUnits ss4 e
      else codeUnits ss4 e ≤ codeUnits ss4 (endCode ss4 neg) ∧ codeUnits ss4 (endCode ss4 neg) ≤ 128) ∧
    (codeUnits ss4 e = codeUnits ss4 (endCode ss4 neg) → endCode ss4 neg ≤ e) := by
  cases ss4 with
  | true =>
    have hends : ss4Val 0 = 64 ∧ ss4Val 8 = -64 := ⟨rfl, rfl⟩
    have hlow := shiftTerm_bounds (e / 8 % 2) (c := e % 8) (by omega)
    have hval : ss4Val e = shiftTerm (e / 8 % 2) (e % 8) := rfl
    cases neg <;> simp only [codeUnits, endCode, if_true, if_false, Bool.false_eq_true] <;> omega
  | false =>
    have hends : ds8Val 0 = 128 ∧ ds8Val 0x88 = -128 := ⟨rfl, rfl⟩
    have hhigh := shiftTerm_bounds (e / 128 % 2) (c := e / 16 % 8) (by omega)
    have hlow := shiftTerm_bounds (e / 8 % 2) (c := e % 8) (by omega)
    have hval : ds8Val e = shiftTerm (e / 128 % 2) (e / 16 % 8) + shiftTerm (e / 8 % 2) (e % 8) := rfl
    cases neg <;> simp only [codeUnits, endCode, if_true, if_false, Bool.false_eq_true] <;> omega
theorem dsencR_nan (ss4 : Bool) {a : Nat} (h : fF32.isNaN a = true) : dsencR ss4 a = if ss4 then 0x7 else 0x08 := by
  rw [dsencR, isNaN_iff.mp h]
theorem dsencR_inf (ss4 : Bool) {a : Nat} {neg : Bool} (h : fF32.val a = .inf neg) : dsencR ss4 a = endCode ss4 neg := by
  rw [dsencR, h]
  rfl
theorem dsencR_fin (ss4 : Bool) {a m : Nat} {neg : Bool} {x : Int} (h : fF32.val a = .fin neg m x false) :
    dsencR ss4 a = if 8 ≤ bitLen m + x then endCode ss4 neg
      else nearest (codeUnits ss4) (codeCount ss4) (.fin neg m x false) := by
  rw [dsencR, h]
  cases ss4 <;> rfl
theorem fF32_expo_of_zero {b : Nat} {neg : Bool} {x : Int} (h : fF32.val b = .fin neg 0 x false) : x = -149 := by
  obtain ⟨_, _, hm, rfl, _⟩ := Fmt.val_eq_fin h
  have hmag : b % fF32.signBit = 0 := fF32.units_strictMono.injective
    (by rw [fF32.units_zero, Fmt.units, ← hm, Nat.zero_mul])
  rw [hmag]
  rfl
theorem le_of_bitLen_eight {m : Nat} {x : Int} (hm : m ≠ 0) (h : 8 ≤ bitLen m + x) : (2 ^ 7 : ℚ) ≤ m * 2 ^ x := by
  have := le_of_bitLen (x := x + 1) hm (by omega)
  rw [zpow_add_one₀ two_ne_zero] at this
  linarith
/-- The code that `dsenc` writes for a number has the nearest value (R190). -/
theorem dsencR_spec (ss4 : Bool) {a m : Nat} {neg : Bool} {x : Int} (h : fF32.val a = .fin neg m x false) :
    let c := dsencR ss4 a
    let w : ℚ := (if neg then -1 else 1) * m * 2 ^ x
    let q := fun e => ((codeUnits ss4 e : Int) : ℚ) / 64
    c < codeCount ss4 ∧ ∀ e, e < codeCount ss4 →
      |q c - w| ≤ |q e - w| ∧ (|q e - w| = |q c - w| → |q c| ≤ |q e|) ∧ (q e = q c → c ≤ e) := by
  intro c w q
  have hc := dsencR_fin ss4 h
  by_cases hbig : 8 ≤ bitLen m + x
  · rw [if_pos hbig] at hc
    have hm : m ≠ 0 := by
      rintro rfl
      have := fF32_expo_of_zero h
      have : bitLen 0 = 0 := rfl
      omega
    have hw := le_of_bitLen_eight hm hbig
    rw [show c = endCode ss4 neg from hc]
    refine ⟨endCode_lt ss4 neg, fun e he => ?_⟩
    obtain ⟨hend, hfirst⟩ := endCode_spec ss4 neg he
    have hcast : q e = q (endCode ss4 neg) → codeUnits ss4 e = codeUnits ss4 (endCode ss4 neg) := fun heq => by
      rw [div_left_inj' (by norm_num)] at heq
      exact_mod_cast heq
    have hq (b : Nat) : q b * 64 = codeUnits ss4 b := div_mul_cancel₀ _ (by norm_num)
    cases neg with
    | false =>
      simp only [Bool.false_eq_true, if_false] at hend
      have h1 : (codeUnits ss4 e : ℚ) ≤ codeUnits ss4 (endCode ss4 false) := by exact_mod_cast hend.1
      have h2 : (codeUnits ss4 (endCode ss4 false) : ℚ) ≤ 128 := by exact_mod_cast hend.2
      have h3 : w = m * 2 ^ x := by simp [w]
      rw [abs_of_neg (show q (endCode ss4 false) - w < 0 by linarith [hq (endCode ss4 false)]),
        abs_of_neg (show q e - w < 0 by linarith [hq e])]
      refine ⟨by linarith [hq (endCode ss4 false), hq e], fun heq => ?_, fun heq => hfirst (hcast heq)⟩
      rw [show q e = q (endCode ss4 false) by linarith]
    | true =>
      simp only [if_true] at hend
      have h1 : (-128 : ℚ) ≤ codeUnits ss4 (endCode ss4 true) := by exact_mod_cast hend.1
      have h2 : (codeUnits ss4 (endCode ss4 true) : ℚ) ≤ codeUnits ss4 e := by exact_mod_cast hend.2
      have h3 : w = -(m * 2 ^ x) := by simp [w]
      rw [abs_of_pos (show 0 < q (endCode ss4 true) - w by linarith [hq (endCode ss4 true)]),
        abs_of_pos (show 0 < q e - w by linarith [hq e])]
      refine ⟨by linarith [hq (endCode ss4 true), hq e], fun heq => ?_, fun heq => hfirst (hcast heq)⟩
      rw [show q e = q (endCode ss4 true) by linarith]
  · rw [if_neg hbig] at hc
    have hn : codeCount ss4 = codeCount ss4 - 1 + 1 := by cases ss4 <;> rfl
    have := nearest_spec (codeUnits ss4) (codeCount ss4 - 1) neg m x
    rw [← hn, ← hc] at this
    exact this

/-! ### The smallest scale that fits (R220) -/

/-- The value of a scale that is neither zero nor NaN (R191). -/
def scaleRat (s : Nat) : ℚ := ((8 + s % 8 : Nat) : ℚ) * 2 ^ ((s / 8 : Nat) - 19 : Int)
theorem scaleVal_of_lt {s : Nat} (h0 : s ≠ 0) (h : s < 255) : scaleVal s = .fin false (8 + s % 8) ((s / 8 : Nat) - 19) false := by
  rw [scaleVal, if_neg (by omega), if_neg (by omega)]
  congr 2
  omega
/-- The exact sum of two numbers. -/
theorem FVal.sum_two (m : Rnd) (n1 n2 : Bool) (m1 m2 : Nat) (x1 x2 : Int) :
    let y := min x1 x2
    let total := FVal.scaled y (.fin n1 m1 x1 false) + FVal.scaled y (.fin n2 m2 x2 false)
    ∃ sign, FVal.sum m [.fin n1 m1 x1 false, .fin n2 m2 x2 false] =
      if total = 0 then .fin sign 0 0 false else .fin (decide (total < 0)) total.natAbs y false :=
  ⟨_, by simp [FVal.sum, FVal.exp]; rfl⟩
/-- What `leProd` asks of the sum: that it is not negative. -/
theorem FVal.sum_two_nonneg (n1 n2 : Bool) (m1 m2 : Nat) (x1 x2 : Int) :
    (match FVal.sum .rn [.fin n1 m1 x1 false, .fin n2 m2 x2 false] with
      | .fin neg m _ _ => !neg || m == 0
      | _ => false) = true ↔
      0 ≤ FVal.scaled (min x1 x2) (.fin n1 m1 x1 false) + FVal.scaled (min x1 x2) (.fin n2 m2 x2 false) := by
  obtain ⟨sign, hsum⟩ := FVal.sum_two .rn n1 n2 m1 m2 x1 x2
  rw [hsum]
  generalize FVal.scaled (min x1 x2) (.fin n1 m1 x1 false) + FVal.scaled (min x1 x2) (.fin n2 m2 x2 false) = total
  by_cases h : total = 0 <;> simp [h]
/-- |a| ≤ b × c, for a scale b and a number c that is not negative, says so of their values. -/
theorem leProd_iff {s ma mb : Nat} {na : Bool} {xa xb : Int} (h0 : s ≠ 0) (h : s < 255) :
    (FVal.fin na ma xa false).leProd (scaleVal s) (.fin false mb xb false) = true ↔
      (ma * 2 ^ xa : ℚ) ≤ scaleRat s * (mb * 2 ^ xb) := by
  have hy : (0 : ℚ) < 2 ^ min ((s / 8 : Nat) - 19 + xb : Int) xa := zpow_pos two_pos _
  have h1 := FVal.scaled_cast false ((8 + s % 8) * mb) false (min_le_left ((s / 8 : Nat) - 19 + xb : Int) xa)
  have h2 := FVal.scaled_cast true ma false (min_le_right ((s / 8 : Nat) - 19 + xb : Int) xa)
  have hiff := FVal.sum_two_nonneg false true ((8 + s % 8) * mb) ma ((s / 8 : Nat) - 19 + xb) xa
  rw [scaleVal_of_lt h0 h]
  refine hiff.trans ?_
  rw [← @Int.cast_le ℚ, ← mul_le_mul_iff_left₀ hy, Int.cast_add, Int.cast_zero, zero_mul, add_mul, h1, h2,
    zpow_add₀ two_ne_zero, scaleRat]
  simp only [Bool.false_eq_true, if_false, if_true, one_mul, neg_mul, Nat.cast_mul]
  constructor <;> intro hle <;> linarith
theorem scfitR_fin {a b ma mb : Nat} {na nb : Bool} {xa xb : Int} (ha : fF32.val a = .fin na ma xa false)
    (hb : fF32.val b = .fin nb mb xb false) : scfitR a b =
      if nb || mb = 0 then 255
      else if ma = 0 then 0
      else ((List.range 255).find? fun s => s != 0 && (FVal.fin na ma xa false).leProd (scaleVal s) (.fin nb mb xb false)).getD 254 := by
  rw [scfitR, ha, hb]
/-- The code of `scfit` for two numbers that are not zero is the smallest scale that fits, 0xFE where none does. -/
theorem scfitR_spec {a b ma mb : Nat} {na : Bool} {xa xb : Int} (ha : fF32.val a = .fin na ma xa false)
    (hb : fF32.val b = .fin false mb xb false) (hma : ma ≠ 0) (hmb : mb ≠ 0) :
    1 ≤ scfitR a b ∧ scfitR a b ≤ 0xFE ∧ (∀ s, 1 ≤ s → s < scfitR a b → scaleRat s * (mb * 2 ^ xb) < ma * 2 ^ xa) ∧
      (scfitR a b < 0xFE → (ma * 2 ^ xa : ℚ) ≤ scaleRat (scfitR a b) * (mb * 2 ^ xb)) := by
  have hc := scfitR_fin ha hb
  rw [if_neg (by simp [hmb]), if_neg hma] at hc
  cases hf : (List.range 255).find? fun s =>
      s != 0 && (FVal.fin na ma xa false).leProd (scaleVal s) (.fin false mb xb false) with
  | none =>
    rw [hf] at hc
    rw [List.find?_eq_none] at hf
    rw [hc]
    refine ⟨by decide, by decide, fun s h1 h2 => ?_, fun h => absurd h (by decide)⟩
    have := hf s (List.mem_range.mpr (by simp at h2; omega))
    rw [Bool.and_eq_true, leProd_iff (by omega) (by simp at h2; omega), not_and] at this
    exact not_le.mp (this (by simp; omega))
  | some c =>
    rw [hf] at hc
    rw [List.find?_range_eq_some] at hf
    obtain ⟨hp, hlt, hmin⟩ := hf
    rw [List.mem_range] at hlt
    rw [Bool.and_eq_true, bne_iff_ne] at hp
    obtain ⟨h0, hle⟩ := hp
    rw [show scfitR a b = c from hc]
    refine ⟨by omega, by omega, fun s h1 h2 => ?_, fun _ => (leProd_iff h0 hlt).mp hle⟩
    have := hmin s h2
    rw [Bool.not_eq_true', Bool.and_eq_false_imp, ← Bool.not_eq_true, leProd_iff (by omega) (by omega)] at this
    exact not_le.mp (this (by simp; omega))
theorem scfitR_of_not_fin {a b : Nat} (h : fF32.isNaN a = true ∨ fF32.isNaN b = true ∨ (∃ neg, fF32.val a = .inf neg) ∨
    (∃ neg, fF32.val b = .inf neg)) : scfitR a b = 0xFF := by
  rw [isNaN_iff, isNaN_iff] at h
  unfold scfitR
  rcases h with h | h | ⟨_, h⟩ | ⟨_, h⟩ <;> rw [h] <;> cases fF32.val a <;> rfl

/-! ### The format-slot instructions (R216 to R218) -/

theorem exec_fpack (o : AluR) (slot pos : BitVec 3) (s : State) : exec (.fpack o slot pos) s =
    .next (if packBad (slotDrainFmt (s.slotWord slot)) pos.toNat then s.trapLow o.g cIllegalOperand
      else s.alu o.g (.r32 o.d) (.r32 o.s1 o.k1) (.r32 o.s2 o.k2) noSrc fun st a b _ =>
        (putElem (codeBits (slotDrainFmt (s.slotWord slot))) (pos.toNat + 1) (packOne (s.slotWord slot) (b.setWidth 32).toNat)
          (putElem (codeBits (slotDrainFmt (s.slotWord slot))) pos.toNat (packOne (s.slotWord slot) (a.setWidth 32).toNat)
            (st.rd o.d))).setWidth 64) := rfl
theorem exec_funpk (o : Alu1) (slot pos : BitVec 3) (side : Bool) (s : State) : exec (.funpk o slot pos side) s =
    .next (if unpackBad (sideFmt (s.slotWord slot) side) pos.toNat then s.trapLow o.g cIllegalOperand
      else s.unary o fun a =>
        BitVec.ofNat 32 (fF32.round .rn false (unpackVal (s.slotWord slot) (sideFmt (s.slotWord slot) side) pos.toNat a))) := rfl
theorem exec_q8pack (o : Alu3) (slot pos : BitVec 3) (s : State) : exec (.q8pack o slot pos) s =
    .next (if packBad (slotDrainFmt (s.slotWord slot)) pos.toNat || decide (slotDrainFmt (s.slotWord slot) < 3) ||
        decide (7 < slotDrainFmt (s.slotWord slot)) then s.trapLow o.g cIllegalOperand
      else s.alu o.g (.r32 o.d) (.r32 o.s1 o.k1) (.r32 o.s2 o.k2) (.r32 o.s3 false) fun st a b sc =>
        (putElem (codeBits (slotDrainFmt (s.slotWord slot))) (pos.toNat + 1)
          (q8One (s.slotWord slot) sc.toNat (b.setWidth 32).toNat)
          (putElem (codeBits (slotDrainFmt (s.slotWord slot))) pos.toNat
            (q8One (s.slotWord slot) sc.toNat (a.setWidth 32).toNat) (st.rd o.d))).setWidth 64) := rfl
theorem exec_q8unpk (o : AluR) (slot pos : BitVec 3) (side : Bool) (s : State) : exec (.q8unpk o slot pos side) s =
    .next (if unpackBad (sideFmt (s.slotWord slot) side) pos.toNat then s.trapLow o.g cIllegalOperand
      else s.binaryR o fun a b => BitVec.ofNat 32 (fF32.round .rn false
        (scaledVal (b.toNat % 256) (unpackVal (s.slotWord slot) (sideFmt (s.slotWord slot) side) pos.toNat a)))) := rfl

/-- Settles O14: a conversion is its mould over the values of R184; `nearest` and `scfit` search the codes in order. -/
theorem conversionsAndFormats : Obligations.ConversionsAndFormats := by
  unfold Obligations.ConversionsAndFormats
  refine ⟨⟨exec_f2i, exec_i2f, ?_, exec_dcvt, exec_dsenc, ?_, ?_, ?_, ?_⟩, ⟨?_, ?_⟩, ?_, ?_, ?_, ?_⟩
  · exact fun sat h u m => binaryRIs_of_exec (fun _ _ => rfl) fun a b => rfl
  · exact fun pos ss4 => unaryIs_of_exec (fun _ _ => rfl) fun a => rfl
  · exact binaryFIs_of_exec (fun _ _ => rfl) fun a b => rfl
  · exact fun inv m => binaryRIs_of_exec (fun _ _ => rfl) (scmulR_eq inv m)
  · intro o mx s hp
    rw [exec_atmrg o mx s hp]
    simp only [merge_eq]
  · intro ss4 a
    have hval (e : Nat) : (if ss4 then ss4Val e else ds8Val e) = codeUnits ss4 e := rfl
    exact ⟨dsencR_nan ss4, fun h => (dsencR_inf ss4 h).trans (by cases ss4 <;> rfl),
      fun h => (dsencR_inf ss4 h).trans (by cases ss4 <;> rfl), fun neg mant x h => dsencR_spec ss4 h⟩
  · intro a b
    refine ⟨fun na nb ma mb xa xb ha hb => ⟨fun h => ?_, fun h1 h2 h3 => ?_, fun h1 h2 h3 => ?_⟩, scfitR_of_not_fin⟩
    · rw [scfitR_fin ha hb, if_pos (by simpa using h)]
    · rw [scfitR_fin ha hb, if_neg (by simp [h1, h2]), if_pos h3]
    · subst h1
      exact scfitR_spec ha hb h3 h2
  · intro o slot pos s hp
    simp at hp
    refine ⟨fun h => by rw [exec_fpack, if_pos h], fun h => exec_of_alu (by rw [exec_fpack, if_neg (by simp [h])])
      (Src.port_r32 _ hp.2.1) (Src.port_r32 _ hp.2.2) rfl (Dst.port_r32 hp.1) fun st => ?_⟩
    simp [laneOp, Src.read, Src.killIn, Dst.write, noSrc]
  · intro o slot pos side s hp
    exact ⟨fun h => by rw [exec_funpk, if_pos h], fun h => by rw [exec_funpk, if_neg (by simp [h]), s.unary_plain o _ hp]⟩
  · intro o slot pos s hp
    simp at hp
    refine ⟨fun h => by rw [exec_q8pack, if_pos h], fun h => exec_of_alu (by rw [exec_q8pack, if_neg (by simp [h])])
      (Src.port_r32 _ hp.2.1) (Src.port_r32 _ hp.2.2.1) (Src.port_r32 _ hp.2.2.2) (Dst.port_r32 hp.1) fun st => ?_⟩
    simp [laneOp, Src.read, Src.killIn, Dst.write, Stream.kill, toNat_setWidth_up, -BitVec.toNat_setWidth]
  · intro o slot pos side s hp
    exact ⟨fun h => by rw [exec_q8unpk, if_pos h], fun h => by rw [exec_q8unpk, if_neg (by simp [h]), s.binaryR_plain o _ hp]⟩

end Sys2Proof.Machine
end
section
/-! PROOFS. Registers (R8, R96, R100, R110) and what a register instruction leaves unchanged (R98). -/
namespace Sys2Proof.Machine

/-! ### Reading, writing and killing registers -/

section
variable (st : Stream) (r q : Reg) (v : Word) (w : DWord)

@[simp] theorem Stream.rd_zero : st.rd 0 = 0 := rfl
@[simp] theorem Stream.wr_zero : st.wr 0 v = st := rfl
@[simp] theorem Stream.wr64_zero : st.wr64 0 w = st := rfl
@[simp] theorem Stream.kill_false : st.kill r false = st := rfl
@[simp] theorem Stream.kill_zero (k : Bool) : st.kill 0 k = st := by cases k <;> rfl
theorem Stream.rd_wr_same {r : Reg} (h0 : r ≠ 0) (hp : Reg.isPort r = false) : (st.wr r v).rd r = v := by
  rw [Stream.wr, if_neg (by rw [hp, Bool.or_false, decide_eq_true_iff]; exact h0), Stream.rd, if_neg h0]
  exact sget_sset_same _ _ _ _
theorem Stream.rd_wr_of_ne {r q : Reg} (h : q ≠ r) : (st.wr r v).rd q = st.rd q := by
  unfold Stream.wr
  split
  · rfl
  · have : q.toNat ≠ r.toNat := fun e => h (BitVec.eq_of_toNat_eq e)
    unfold Stream.rd
    dsimp only
    rw [sget_sset_other _ _ _ this]
theorem Stream.rd_kill_same {r : Reg} (hp : Reg.isPort r = false) : (st.kill r true).rd r = 0 := by
  by_cases h0 : r = 0
  · subst h0; rfl
  · exact st.rd_wr_same 0 h0 hp
theorem Stream.rd_kill_of_ne {r q : Reg} (k : Bool) (h : q ≠ r) : (st.kill r k).rd q = st.rd q := by
  cases k
  · rfl
  · exact st.rd_wr_of_ne 0 h
theorem Reg.up_one_ne : r.up 1 ≠ r := by
  intro h
  have := congrArg BitVec.toNat h
  have hlt := r.isLt
  rw [Reg.up, BitVec.toNat_ofNat] at this
  omega
/-- The upper register of a pair that names no port (R96). -/
theorem Reg.up_one_of_even {r : Reg} (he : r.toNat % 2 = 0) (hp : Reg.isPort r = false) :
    r.up 1 ≠ 0 ∧ Reg.isPort (r.up 1) = false := by
  have hlt := r.isLt
  have hup : (r.up 1).toNat = r.toNat + 1 := by
    rw [Reg.up, BitVec.toNat_ofNat]
    omega
  simp only [Reg.isPort, decide_eq_false_iff_not] at hp ⊢
  refine ⟨fun h => ?_, by omega⟩
  rw [h] at hup
  simp at hup
theorem Stream.rd64_wr64_same {r : Reg} (h0 : r ≠ 0) (he : r.toNat % 2 = 0) (hp : Reg.isPort r = false) :
    (st.wr64 r w).rd64 r = w := by
  obtain ⟨h1, hp1⟩ := Reg.up_one_of_even he hp
  rw [Stream.wr64, if_neg h0, Stream.rd64, Stream.rd_wr_same _ _ h1 hp1, Stream.rd_wr_of_ne _ _ (Reg.up_one_ne r).symm,
    Stream.rd_wr_same _ _ h0 hp, BitVec.extractLsb'_append_extractLsb'_eq_extractLsb' (by rfl), BitVec.extractLsb'_eq_self]
theorem Stream.rd_wr64_of_ne {r q : Reg} (h : q ≠ r) (h1 : q ≠ r.up 1) : (st.wr64 r w).rd q = st.rd q := by
  unfold Stream.wr64
  split
  · rfl
  · rw [Stream.rd_wr_of_ne _ _ h1, Stream.rd_wr_of_ne _ _ h]
theorem Stream.rd64_kill64_same {r : Reg} (he : r.toNat % 2 = 0) (hp : Reg.isPort r = false) : (st.kill64 r true).rd64 r = 0 := by
  obtain ⟨h1, hp1⟩ := Reg.up_one_of_even he hp
  rw [Stream.kill64, Stream.rd64, Stream.rd_kill_same _ hp1, Stream.rd_kill_of_ne _ _ (Reg.up_one_ne r).symm,
    Stream.rd_kill_same _ hp]
  rfl
end

/-! ### What changes only some registers of a stream -/

/-- A stream with nothing changed but some registers. -/
def Stream.ChangesOnly (st st' : Stream) (rs : List Reg) : Prop :=
  (∀ r, r ∉ rs → st'.rd r = st.rd r) ∧ st' = { st with regs := st'.regs }
namespace Stream.ChangesOnly
variable {st st' st'' : Stream} {rs rs' : List Reg}

theorem refl (st : Stream) (rs : List Reg) : st.ChangesOnly st rs := ⟨fun _ _ => rfl, rfl⟩
theorem trans (h : st.ChangesOnly st' rs) (h' : st'.ChangesOnly st'' rs) : st.ChangesOnly st'' rs := by
  refine ⟨fun r hr => (h'.1 r hr).trans (h.1 r hr), ?_⟩
  rw [h'.2, h.2]
theorem mono (h : st.ChangesOnly st' rs) (hs : rs ⊆ rs') : st.ChangesOnly st' rs' := ⟨fun r hr => h.1 r fun h => hr (hs h), h.2⟩
theorem wr (st : Stream) (v : Word) {r : Reg} (hr : r ∈ rs) : st.ChangesOnly (st.wr r v) rs := by
  refine ⟨fun q hq => st.rd_wr_of_ne v fun e => hq (e ▸ hr), ?_⟩
  unfold Stream.wr
  split <;> rfl
theorem wr64 (st : Stream) (v : DWord) {r : Reg} (hr : two r ⊆ rs) : st.ChangesOnly (st.wr64 r v) rs := by
  unfold Stream.wr64
  split
  · exact refl _ _
  · exact (wr _ _ (hr (by simp [two]))).trans (wr _ _ (hr (by simp [two])))
theorem kill (st : Stream) {r : Reg} {k : Bool} (hr : killed32 r k ⊆ rs) : st.ChangesOnly (st.kill r k) rs := by
  cases k
  · exact refl _ _
  · exact wr _ _ (hr (by simp [killed32]))
theorem kill64 (st : Stream) {r : Reg} {k : Bool} (hr : killed64 r k ⊆ rs) : st.ChangesOnly (st.kill64 r k) rs := by
  cases k
  · exact refl _ _
  · exact (wr _ _ (hr (by simp [killed64, two]))).trans (wr _ _ (hr (by simp [killed64, two])))
end Stream.ChangesOnly

/-- The registers that the kill of a source clears, and those that a result is written to. -/
def Src.killed : Src → List Reg
  | .r32 r k => killed32 r k
  | .r64 r k => killed64 r k
  | .val _ => []
def Dst.written : Dst → List Reg
  | .none => []
  | .r32 r => [r]
  | .r64 r => two r
@[simp] theorem Src.killed_r32 (r : Reg) (k : Bool) : (Src.r32 r k).killed = killed32 r k := rfl
@[simp] theorem Src.killed_r64 (r : Reg) (k : Bool) : (Src.r64 r k).killed = killed64 r k := rfl
@[simp] theorem Src.killed_val (v : DWord) : (Src.val v).killed = [] := rfl
@[simp] theorem Src.killed_noSrc : noSrc.killed = [] := rfl
@[simp] theorem Dst.written_r32 (r : Reg) : (Dst.r32 r).written = [r] := rfl
@[simp] theorem Dst.written_r64 (r : Reg) : (Dst.r64 r).written = two r := rfl
@[simp] theorem killed32_false (r : Reg) : killed32 r false = [] := rfl
theorem Src.killIn_changesOnly (a : Src) (st : Stream) {rs : List Reg} (h : a.killed ⊆ rs) : st.ChangesOnly (a.killIn st) rs := by
  cases a with
  | r32 r k => exact .kill st h
  | r64 r k => exact .kill64 st h
  | val v => exact .refl st rs
theorem Dst.write_changesOnly (d : Dst) (st : Stream) (v : DWord) {rs : List Reg} (h : d.written ⊆ rs) :
    st.ChangesOnly (d.write st v) rs := by
  cases d with
  | none => exact .refl st rs
  | r32 r => exact .wr st _ (h (by simp [Dst.written]))
  | r64 r => exact .wr64 st _ h
theorem laneOp_changesOnly {d : Dst} {a b c : Src} (f : Stream → DWord → DWord → DWord → DWord) (st : Stream) {rs : List Reg}
    (h : d.written ++ a.killed ++ b.killed ++ c.killed ⊆ rs) : st.ChangesOnly (laneOp d a b c f st) rs := by
  simp only [List.append_subset] at h
  obtain ⟨⟨⟨hd, ha⟩, hb⟩, hc⟩ := h
  exact (((a.killIn_changesOnly st ha).trans (b.killIn_changesOnly _ hb)).trans (c.killIn_changesOnly _ hc)).trans
    (d.write_changesOnly _ _ hd)

/-! ### The frames of the moulds -/

/-- An instruction completes where some registers are no port, and changes only others, in lanes whose guard holds. -/
def Framed (i : Instr) (g : Guard) (rs ports : List Reg) : Prop :=
  ∀ s : State, plainRegs ports = true → ∃ f : Stream → Stream, exec i s = .next (s.completed g f) ∧
    ∀ st : Stream, st.ChangesOnly (f st) rs

theorem framed_of_retire {i : Instr} {g : Guard} {rs ports : List Reg} {f : State → Stream → Stream}
    (h : ∀ s, exec i s = .next (s.retireLanes g (f s))) (hf : ∀ (s : State) (st : Stream), st.ChangesOnly (f s st) rs) : Framed i g rs ports :=
  fun s _ => ⟨f s, by rw [h, s.retireLanes_eq], hf s⟩
theorem framed_of_alu {i : Instr} {g : Guard} {rs ports : List Reg} {d : Dst} {a b c : Src}
    {f : State → Stream → DWord → DWord → DWord → DWord} (h : ∀ s, exec i s = .next (s.alu g d a b c (f s)))
    (hp : plainRegs ports = true → a.port = none ∧ b.port = none ∧ c.port = none ∧ d.port = none)
    (hr : d.written ++ a.killed ++ b.killed ++ c.killed ⊆ rs) : Framed i g rs ports := fun s hs => by
  obtain ⟨ha, hb, hc, hd⟩ := hp hs
  exact ⟨_, by rw [h, s.alu_plain g _ ha hb hc hd], fun st => laneOp_changesOnly _ st hr⟩
theorem framed_of_group {i : Instr} {g : Guard} {rs ports : List Reg} {d : Dst} {kill : Stream → Stream}
    {f : State → List Stream → Stream → DWord} (h : ∀ s, exec i s = .next (s.groupOp g d kill (f s)))
    (hk : ∀ st : Stream, st.ChangesOnly (kill st) rs) (hd : d.written ⊆ rs) : Framed i g rs ports :=
  framed_of_retire h fun _ st => (hk st).trans (d.write_changesOnly _ _ hd)

@[simp] theorem Src.killed_srcB (b : Opnd) : (srcB b).killed = killedOpnd b := by cases b <;> rfl
@[simp] theorem Src.killed_srcF (b : Opnd) : (srcF b).killed = killedOpnd b := by cases b <;> rfl
@[simp] theorem Src.killed_srcB64 (b : Opnd) : (srcB64 b).killed = killedOpnd64 b := by cases b <;> rfl

theorem framed_unary {i : Instr} {o : Alu1} {f : State → Word → Word} (h : ∀ s, exec i s = .next (s.unary o (f s))) :
    Framed i o.g (unaryRegs o) [o.d, o.s1] :=
  framed_of_alu h (fun hp => by simp at hp; exact ⟨Src.port_r32 _ hp.2, rfl, rfl, Dst.port_r32 hp.1⟩)
    (by simp [unaryRegs])
theorem framed_binary {i : Instr} {o : Alu2} {f : State → Word → Word → Word} (h : ∀ s, exec i s = .next (s.binary o (f s))) :
    Framed i o.g (binaryRegs o) (o.d :: o.s1 :: opndRegs o.b) :=
  framed_of_alu h (fun hp => by simp at hp; exact ⟨Src.port_r32 _ hp.2.1, srcB_port hp.2.2, rfl, Dst.port_r32 hp.1⟩)
    (by simp [binaryRegs])
theorem framed_binaryF {i : Instr} {o : Alu2} {f : State → Word → Word → Word} (h : ∀ s, exec i s = .next (s.binaryF o (f s))) :
    Framed i o.g (binaryRegs o) (o.d :: o.s1 :: opndRegs o.b) :=
  framed_of_alu h (fun hp => by simp at hp; exact ⟨Src.port_r32 _ hp.2.1, srcF_port hp.2.2, rfl, Dst.port_r32 hp.1⟩)
    (by simp [binaryRegs])
theorem framed_binaryR {i : Instr} {o : AluR} {f : State → Word → Word → Word} (h : ∀ s, exec i s = .next (s.binaryR o (f s))) :
    Framed i o.g (pairRegs o) [o.d, o.s1, o.s2] :=
  framed_of_alu h (fun hp => by simp at hp; exact ⟨Src.port_r32 _ hp.2.1, Src.port_r32 _ hp.2.2, rfl, Dst.port_r32 hp.1⟩)
    (by simp [pairRegs])
theorem framed_ternary {i : Instr} {o : Alu3} {f : State → Word → Word → Word → Word}
    (h : ∀ s, exec i s = .next (s.ternary o (f s))) : Framed i o.g (ternaryRegs o) [o.d, o.s1, o.s2, o.s3] :=
  framed_of_alu h (fun hp => by
    simp at hp
    exact ⟨Src.port_r32 _ hp.2.1, Src.port_r32 _ hp.2.2.1, Src.port_r32 _ hp.2.2.2, Dst.port_r32 hp.1⟩)
    (by simp [ternaryRegs])
theorem framed_wide {i : Instr} {o : Alu2} {f : State → DWord → DWord → DWord} (h : ∀ s, exec i s = .next (s.wide o (f s))) :
    Framed i o.g (wideRegs o) [] :=
  framed_of_alu h (fun _ => ⟨rfl, srcB64_port _, rfl, rfl⟩) (by simp [wideRegs])
theorem framed_wideCount {i : Instr} {o : Alu2} {f : State → DWord → Word → DWord}
    (h : ∀ s, exec i s = .next (s.wideCount o (f s))) : Framed i o.g (wideCountRegs o) (opndRegs o.b) :=
  framed_of_alu h (fun hp => ⟨rfl, srcB_port hp, rfl, rfl⟩) (by simp [wideCountRegs])
/-- A group instruction of the unary mould. -/
theorem framed_unaryGroup {i : Instr} {o : Alu1} {f : State → List Stream → Stream → DWord}
    (h : ∀ s, exec i s = .next (s.groupOp o.g (.r32 o.d) (fun st => st.kill o.s1 o.k1) (f s))) :
    Framed i o.g (unaryRegs o) [] :=
  framed_of_group h (fun st => .kill st (by simp [unaryRegs])) (by simp [unaryRegs])
theorem framed_pair2 {i : Instr} {o : AluR} {f : Nat → Nat → Nat} (h : ∀ s, exec i s = .next (s.pair2 o f)) :
    Framed i o.g (two o.d ++ killed64 o.s1 o.k1 ++ killed64 o.s2 o.k2) [] :=
  framed_of_alu (f := fun _ _ a b _ => BitVec.ofNat 64 (f a.toNat b.toNat)) h (fun _ => ⟨rfl, rfl, rfl, rfl⟩)
    (by simp)

theorem framed_lea64 (o : Alu2) (sh : BitVec 3) (sx : Bool) : Framed (.lea64 o sh sx) o.g (wideCountRegs o) (opndRegs o.b) := by
  cases hb : o.b with
  | reg r k =>
    have := framed_wideCount (i := .lea64 o sh sx) (o := o) (f := fun _ => leaR sh sx) fun s => by
      change execLea64 o sh sx s = _
      rw [execLea64, hb]
    rwa [hb] at this
  | imm v =>
    refine framed_of_alu (d := .r64 o.d) (a := .r64 o.s1 o.k1) (b := .val (v.signExtend 64)) (c := noSrc)
      (f := fun _ _ a b _ => a + b) (fun s => ?_) (fun _ => ⟨rfl, rfl, rfl, rfl⟩) (by simp [wideCountRegs])
    change execLea64 o sh sx s = _
    rw [execLea64, hb]

/-! ### Pair words (R101, R102) -/

theorem exec_pairWord (a b : PHalf) (s : State) :
    exec (.pairWord a b) s = .next (s.completed ⟨false, 0, false⟩ (pairLane a b)) := rfl
theorem pairLane_changesOnly (a b : PHalf) (st : Stream) : st.ChangesOnly (pairLane a b st) [a.d, b.d] := by
  have ha : st.ChangesOnly (if halfHolds a st then st.wr a.d (halfValue a st) else st) [a.d, b.d] := by
    split
    · exact .wr st _ (by simp)
    · exact .refl st _
  unfold pairLane
  dsimp only
  split
  · exact ha.trans (.wr _ _ (by simp))
  · exact ha

/-- Each register instruction has the frame that `registerForm` gives. -/
theorem framed_of_registerForm {i : Instr} {g : Guard} {rs ports : List Reg} (h : registerForm i = some (g, rs, ports)) :
    Framed i g rs ports := by
  cases i with
  | iadd o | isub o | imul o | imulh o | imulhu o | idivs o | idivu o | imin o | imax o | umin o | umax o
  | and o | or o | xor o | andn o | shl o | shr o | sar o | rol o =>
    cases h
    exact framed_binary fun _ => rfl
  | irem o _ | iadds o _ | isubs o _ | bfe o _ | fscale o _ =>
    cases h
    exact framed_binary fun _ => rfl
  | fadd o _ | fsub o _ | fmul o _ | fdiv o _ | fmin o _ | fmax o _ | scfit o =>
    cases h
    exact framed_binaryF fun _ => rfl
  | imad o | isad o _ | lop3 o _ | shf o _ | bfi o | sel o | idot4 o _ _ | idot2 o _ _ | ffma o _ | ffms o _ | fnma o _
  | fclamp o _ | hfma2 o _ _ | hdot2 o _ _ =>
    cases h
    exact framed_ternary fun _ => rfl
  | add64 o | sub64 o | mul64 o =>
    cases h
    exact framed_wide fun _ => rfl
  | shl64 o | shr64 o _ =>
    cases h
    exact framed_wideCount fun _ => rfl
  | iabs o _ | ineg o _ | not o | popc o | clz o | ctz o | brev o | frcp o _ | frsq o _ | fsqrt o _ | fexp2 o _
  | flog2 o _ | fsin o _ | fcos o _ | frnd o _ | fclass o | dsdec o _ _ =>
    cases h
    exact framed_unary fun _ => rfl
  | prmt o _ _ | icmp o _ _ | fcmp o _ _ | fsgn o _ | fexd o | hadd2 o _ _ | hmul2 o _ _ | hmin2 o _ _ | hmax2 o _ _
  | hcmp2 o _ _ _ | i2h2 o _ _ _ _ | scmul o _ _ =>
    cases h
    exact framed_binaryR fun _ => rfl
  | dadd o _ | dmul o _ =>
    cases h
    exact framed_pair2 fun _ => rfl
  | shfx o _ _ | shup o _ _ | shdn o _ _ | gbcast o _ _ | gsum o _ | gmax o _ | gmin o _ | gbit o _ | gscan o _ _ =>
    cases h
    exact framed_unaryGroup fun _ => rfl
  | dsenc o _ _ =>
    cases h
    exact framed_of_alu (fun _ => rfl) (fun hp => by simp at hp; exact ⟨Src.port_r32 _ hp.2, rfl, rfl, Dst.port_r32 hp.1⟩)
      (by simp [unaryRegs])
  | icmp64 o _ _ =>
    cases h
    exact framed_of_alu (fun _ => rfl) (fun hp => by simp at hp; exact ⟨rfl, rfl, rfl, Dst.port_r32 hp⟩) (by simp)
  | dfma o _ =>
    cases h
    exact framed_of_alu (fun _ => rfl) (fun hp => ⟨rfl, rfl, rfl, rfl⟩) (by simp [killed64])
  | f2i o t _ =>
    cases h
    refine framed_of_alu (fun _ => rfl) (fun hp => ?_) (by cases t <;> simp [typeWide])
    simp at hp
    exact ⟨Src.port_r32 _ hp.2, rfl, rfl, Dst.port_ite _ rfl (Dst.port_r32 hp.1)⟩
  | i2f o t _ =>
    cases h
    refine framed_of_alu (fun _ => rfl) (fun hp => ?_) (by cases t <;> simp [typeWide])
    simp at hp
    exact ⟨Src.port_ite _ rfl (Src.port_r32 _ hp.2), rfl, rfl, Dst.port_r32 hp.1⟩
  | dcvt o dir _ =>
    cases h
    refine framed_of_alu (fun _ => rfl) (fun hp => ?_) (by cases dir <;> simp)
    simp at hp
    exact ⟨Src.port_ite _ (Src.port_r32 _ hp.2) rfl, rfl, rfl, Dst.port_ite _ (Dst.port_r32 hp.1) rfl⟩
  | atmrg o _ =>
    cases h
    refine framed_of_alu (fun _ => rfl) (fun hp => ?_) (by simp [ternaryRegs, killed64])
    simp at hp
    exact ⟨Src.port_r32 _ hp.2.1, Src.port_r32 _ hp.2.2, rfl, Dst.port_r32 hp.1⟩
  | lea64 o sh sx =>
    cases h
    exact framed_lea64 o sh sx
  | mov g d b =>
    cases h
    exact framed_of_alu (fun _ => rfl) (fun hp => by simp at hp; exact ⟨srcB_port hp.2, rfl, rfl, Dst.port_r32 hp.1⟩) (by simp)
  | lih g d _ =>
    cases h
    exact framed_of_alu (fun _ => rfl) (fun hp => by simp at hp; exact ⟨Src.port_r32 _ hp, rfl, rfl, Dst.port_r32 hp⟩) (by simp)
  | nop g =>
    cases h
    exact framed_of_retire (f := fun _ => id) (fun _ => rfl) fun _ st => .refl st _
  | pairWord a b =>
    cases h
    exact fun s _ => ⟨pairLane a b, exec_pairWord a b s, pairLane_changesOnly a b⟩
  | shfl o =>
    cases h
    exact framed_of_group (fun _ => rfl) (fun st => (Stream.ChangesOnly.kill st (by simp [ternaryRegs])).trans
      (.kill _ (by simp [ternaryRegs]))) (by simp [ternaryRegs])
  | vote o op =>
    cases h
    exact framed_of_group (fun _ => rfl) (fun st => .kill st (by simp)) (by cases op <;> simp [two])
  | matchAny o i64 =>
    cases h
    refine framed_of_group (fun _ => rfl) (fun st => ?_) (by simp)
    cases i64
    · exact .kill st (by cases o.k1 <;> simp [killed32, killed64, two])
    · exact .kill64 st (by simp)
  | amask g d =>
    cases h
    exact framed_of_group (fun _ => rfl) (fun st => .refl st _) (by simp)
  | jmask g d n arr =>
    cases h
    exact framed_of_retire (fun _ => rfl) fun _ st => .wr64 st _ (by simp)
  | _ => cases h

/-! ### The other register instructions (R150, R216 to R218) -/

/-- A completion that changes only some registers, as the statements say it. -/
theorem writesOnly_of_completed {s : State} {o : Out} {g : Guard} {rs : List Reg} {f : Stream → Stream}
    (h : o = .next (s.completed g f)) (hf : ∀ st : Stream, st.ChangesOnly (f st) rs) :
    ∃ t, o = .next t ∧ WritesOnly s t g rs := ⟨_, h, f, rfl, hf⟩

/-- Settles O16: every listed instruction is a mould, a group operation or a lane operation that changes only its registers. -/
theorem registerInstructionFrame : Obligations.RegisterInstructionFrame := by
  unfold Obligations.RegisterInstructionFrame
  refine ⟨fun i s g rs ports h hp => ?_, fun o slot pos s hp h => ?_, fun o slot pos side s hp h => ?_,
    fun o slot pos s hp h h3 h7 => ?_, fun o slot pos side s hp h => ?_, fun o base s hp h => ?_,
    fun g s1 k1 s2 k2 base s hp h => ?_⟩
  · obtain ⟨f, hf, hc⟩ := framed_of_registerForm h s hp
    exact writesOnly_of_completed hf hc
  · simp at hp
    exact writesOnly_of_completed (by rw [exec_fpack, if_neg (by simp [h]), s.alu_plain o.g _ (Src.port_r32 _ hp.2.1)
      (Src.port_r32 _ hp.2.2) rfl (Dst.port_r32 hp.1)]) fun st => laneOp_changesOnly _ st (by simp [pairRegs])
  · exact writesOnly_of_completed (by rw [exec_funpk, if_neg (by simp [h]), s.unary_plain o _ hp]) fun st =>
      (Stream.ChangesOnly.kill st (by simp [unaryRegs])).trans (.wr _ _ (by simp [unaryRegs]))
  · simp at hp
    exact writesOnly_of_completed (by rw [exec_q8pack, if_neg (by simp [h]; omega), s.alu_plain o.g _ (Src.port_r32 _ hp.2.1)
      (Src.port_r32 _ hp.2.2.1) (Src.port_r32 _ hp.2.2.2) (Dst.port_r32 hp.1)]) fun st =>
      laneOp_changesOnly _ st (by simp [ternaryRegs])
  · exact writesOnly_of_completed (by rw [exec_q8unpk, if_neg (by simp [h]), s.binaryR_plain o _ hp]) fun st =>
      ((Stream.ChangesOnly.kill st (by simp [pairRegs])).trans (.kill _ (by simp [pairRegs]))).trans
        (.wr _ _ (by simp [pairRegs]))
  · simp at hp
    exact writesOnly_of_completed (by rw [exec_movri, s.runTime_go o.g base o.s1 _ hp.2 h, s.alu_plain o.g _ (Src.port_r32 _ hp.2)
      rfl rfl (Dst.port_r32 hp.1)]) fun st => laneOp_changesOnly _ st (by simp [unaryRegs])
  · simp at hp
    refine ⟨_, by rw [exec_movwi, execMovwi, s.runTime_go g base s1 _ hp.1 h, if_neg (by simp [hp]), s.retireLanes_eq], fun st => ?_⟩
    have hkills : st.ChangesOnly ((st.kill s1 k1).kill s2 k2) (killed32 s1 k1 ++ killed32 s2 k2) :=
      (Stream.ChangesOnly.kill st (by simp)).trans (.kill _ (by simp))
    have hall := (hkills.mono (List.subset_cons_self _ _)).trans
      (.wr _ (st.rd s2) (List.mem_cons_self (a := BitVec.ofNat 8 ((st.rd s1).toNat + base.toNat))))
    exact ⟨hall.2, fun r h1 h2 => hall.1 r (by simp only [List.mem_cons, not_or]; exact ⟨h1, h2⟩)⟩

end Sys2Proof.Machine
end
section
/-! PROOFS. Pair words (R101, R102) and queue operands of the binary mould (R263, R264). -/
namespace Sys2Proof.Machine

/-! ### Pairs -/

theorem Stream.goto_rd (st : Stream) (pc : DWord) (r : Reg) : (st.goto pc).rd r = st.rd r := rfl
theorem pairLane_id (a b : PHalf) (st : Stream) : (pairLane a b st).id = st.id := by
  rw [(pairLane_changesOnly a b st).2]
/-- A half that moves `r` into `d` in every lane. -/
theorem halfHolds_move (d r : Reg) (st : Stream) : halfHolds ⟨0x2D, d, r, 0, false, false⟩ st = true := rfl
theorem halfValue_move (d r : Reg) (st : Stream) : halfValue ⟨0x2D, d, r, 0, false, false⟩ st = st.rd r := rfl
/-- A pair of moves exchanges two registers (R102). -/
theorem pairLane_exchange {x y : Reg} (hxy : x ≠ y) (hx : x ≠ 0) (hy : y ≠ 0) (hp : plainRegs [x, y]) (st : Stream) :
    let st' := pairLane ⟨0x2D, x, y, 0, false, false⟩ ⟨0x2D, y, x, 0, false, false⟩ st
    st'.rd x = st.rd y ∧ st'.rd y = st.rd x ∧ ∀ r, r ≠ x → r ≠ y → st'.rd r = st.rd r := by
  simp at hp
  simp only [pairLane, halfHolds_move, halfValue_move, if_true]
  refine ⟨?_, ?_, fun r h1 h2 => ?_⟩
  · rw [Stream.rd_wr_of_ne _ _ hxy, Stream.rd_wr_same _ _ hx hp.1]
  · rw [Stream.rd_wr_same _ _ hy hp.2]
  · rw [Stream.rd_wr_of_ne _ _ h2, Stream.rd_wr_of_ne _ _ h1]

/-! ### Queue operands -/

theorem Src.port_r32_isPort {r : Reg} (k : Bool) (h : Reg.isPort r = true) : (Src.r32 r k).port = some r := by
  simp [Src.port, h]
theorem Dst.port_r32_isPort {r : Reg} (h : Reg.isPort r = true) : (Dst.r32 r).port = some r := by
  simp [Dst.port, h]

theorem Src.killIn_r32 (st : Stream) (r : Reg) (k : Bool) : (Src.r32 r k).killIn st = st.kill r k := rfl
theorem Src.killIn_noSrc (st : Stream) : noSrc.killIn st = st := rfl
theorem Src.read_r32_low (st : Stream) (r : Reg) (k : Bool) : ((Src.r32 r k).read st).setWidth 32 = st.rd r :=
  setWidth_up_down _
theorem Src.readP_port {src : Src} {r : Reg} (t : Team) (st : Stream) (pss : List (List (Nat × QEntry))) (h : src.port = some r) :
    src.readP t st pss = ((popped t (pss.headD []) st.id).setWidth 64, pss.tail) := by rw [Src.readP, h]
theorem Src.readP_plain {src : Src} (t : Team) (st : Stream) (pss : List (List (Nat × QEntry))) (h : src.port = Option.none) :
    src.readP t st pss = (src.read st, pss) := by rw [Src.readP, h]

section
variable (s : State) (o : Alu2) (f : Word → Word → Word) {low : SId} {rest : List SId} (hact : s.active o.g = low :: rest)

/-- With a port among its operands the binary mould is the queue operation. -/
theorem State.binary_port (h : Reg.isPort o.s1 = true ∨ Reg.isPort o.d = true) :
    s.binary o f = s.portOp o.g (.r32 o.d) (.r32 o.s1 o.k1) (srcB o.b) noSrc
      fun _ a b _ => (f (a.setWidth 32) (b.setWidth 32)).setWidth 64 := by
  rw [State.binary, State.alu, if_neg]
  rcases h with h | h
  · simp [Src.port_r32_isPort _ h]
  · simp [Dst.port_r32_isPort h]
include hact
/-- A port that is not bound traps before anything is popped. -/
theorem State.binary_unbound (h : (Reg.isPort o.s1 = true ∧ s.portKey low o.s1 = none) ∨
    (Reg.isPort o.d = true ∧ s.portKey low o.d = none)) : s.binary o f = s.trapLow o.g cIllegalOperand := by
  rw [s.binary_port o f (h.imp And.left And.left), State.portOp]
  have hany : (([Src.r32 o.s1 o.k1, srcB o.b, noSrc].filterMap Src.port ++ (Dst.r32 o.d).port.toList).any
      fun r => (s.portKey low r).isNone) = true := by
    rcases h with ⟨hp, hk⟩ | ⟨hp, hk⟩
    · simp [Src.port_r32_isPort _ hp, hk]
    · simp [Dst.port_r32_isPort hp, hk]
  simp only [hact, List.head?_cons, hany, if_true]
theorem State.binary_source {key : Nat} (hp : Reg.isPort o.s1 = true) (hk : s.portKey low o.s1 = some key)
    (hplain : plainRegs (o.d :: opndRegs o.b)) :
    s.binary o f = match s.popGroups key (s.groupsOf (low :: rest)) with
      | none => s.stalled
      | some (ps, s1) => s1.completed o.g fun st =>
          (killOpnd (st.kill o.s1 o.k1) o.b).wr o.d (f (popped s.curTeam ps st.id) (opnd32 st o.b)) := by
  simp at hplain
  have hb := srcB_port hplain.2
  have hd := Dst.port_r32 hplain.1
  rw [s.binary_port o f (.inl hp), State.portOp]
  have hports : [Src.r32 o.s1 o.k1, srcB o.b, noSrc].filterMap Src.port = [o.s1] := by
    simp [Src.port_r32_isPort _ hp, hb, noSrc]
  have hall : ([o.s1] ++ (Dst.r32 o.d).port.toList).any (fun r => (s.portKey low r).isNone) = false := by simp [hd, hk]
  simp only [hact, List.head?_cons, hports, hall, State.popSrcs, Option.bind_some, hk]
  cases hpop : s.popGroups key (s.groupsOf (low :: rest)) with
  | none => rfl
  | some p =>
    simp only [hd, Bool.false_eq_true, if_false, State.retireLanes_eq]
    refine congrArg (p.2.completed o.g) (funext fun st => ?_)
    rw [Src.readP_port _ _ _ (Src.port_r32_isPort _ hp), Src.readP_plain _ _ _ hb]
    simp only [Dst.write, Src.killIn_noSrc, Src.killIn_r32, Src.killIn_srcB, Src.read_srcB, List.headD_cons, setWidth_up_down]
/-- A destination port pushes one entry for each group where there is room. -/
theorem State.binary_dest {key : Nat} (hp : Reg.isPort o.d = true) (hk : s.portKey low o.d = some key)
    (hplain : plainRegs (o.s1 :: opndRegs o.b)) :
    s.binary o f = if s.freeOf key < (s.groupsOf (low :: rest)).length then s.stalled
      else (s.pushGroups key s.curTeam ((low :: rest).map fun id => (id, f ((s.stream id).rd o.s1) (opnd32 (s.stream id) o.b)))
        (s.groupsOf (low :: rest))).completed o.g fun st => killOpnd (st.kill o.s1 o.k1) o.b := by
  simp at hplain
  have ha := Src.port_r32 o.k1 hplain.1
  have hb := srcB_port hplain.2
  have hd := Dst.port_r32_isPort hp
  rw [s.binary_port o f (.inr hp), State.portOp]
  have hports : [Src.r32 o.s1 o.k1, srcB o.b, noSrc].filterMap Src.port = [] := by simp [ha, hb, noSrc]
  have hall : ([] ++ (some o.d).toList).any (fun r => (s.portKey low r).isNone) = false := by simp [hk]
  simp only [hact, List.head?_cons, hports, hall, State.popSrcs, hd, hk, Bool.false_eq_true, if_false, State.retireLanes_eq,
    Src.readP_plain _ _ _ ha, Src.readP_plain _ _ _ hb, setWidth_up_down, Src.read_r32_low, Src.read_srcB,
    Src.killIn_noSrc, Src.killIn_r32, Src.killIn_srcB]
end

/-- Settles O17: registers by their rules, a pair word lane by lane, a queue operand of the binary mould through `portOp`. -/
theorem registersPairsAndQueues : Obligations.RegistersPairsAndQueues := by
  unfold Obligations.RegistersPairsAndQueues
  refine ⟨fun st r q v w => ?_, ⟨exec_pairWord, fun x y s t id hxy hx hy hp hcur h hid => ?_⟩, fun i f hi o s low rest hact => ?_⟩
  · exact ⟨rfl, rfl, rfl, fun h0 hp => st.rd_wr_same v h0 hp, fun h => st.rd_wr_of_ne v h, fun hp => st.rd_kill_same hp, rfl,
      fun h0 he hp => st.rd64_wr64_same w h0 he hp, fun he hp _ => st.rd64_kill64_same he hp,
      fun h h1 => st.rd_wr64_of_ne w h h1⟩
  · obtain rfl := Host.Outcome.next.inj h
    have hstream := s.onLanes_stream (ids := s.cur.lanes) (fun st =>
      (pairLane ⟨0x2D, x, y, 0, false, false⟩ ⟨0x2D, y, x, 0, false, false⟩ st).goto s.cur.npc) (pairLane_id _ _) hid
    rw [hstream, if_pos (by simp [hcur])]
    exact pairLane_exchange hxy hx hy hp _
  · have hexec : exec (i o) s = .next (s.binary o f) := by
      simp only [List.mem_cons, Prod.mk.injEq, List.not_mem_nil, or_false] at hi
      rcases hi with ⟨rfl, rfl⟩ | ⟨rfl, rfl⟩ | ⟨rfl, rfl⟩ | ⟨rfl, rfl⟩ | ⟨rfl, rfl⟩ | ⟨rfl, rfl⟩ <;> rfl
    intro gs
    rw [hexec]
    refine ⟨fun h => by rw [s.binary_unbound o f hact h], fun key hp hk hplain => ?_, fun key hp hk hplain => ?_⟩
    · rw [s.binary_source o f hact hp hk hplain]
      exact ⟨fun h => by rw [h], fun ps s1 h => by rw [h]⟩
    · rw [s.binary_dest o f hact hp hk hplain]
      exact ⟨fun h => by rw [if_pos h], fun h => by rw [if_neg (Nat.not_lt.mpr h)]⟩

end Sys2Proof.Machine
end
section
/-! PROOFS. Shuffles, votes, reductions, scans, matches and identity values (R66, R156 to R163). -/
namespace Sys2Proof.Machine

/-! ### The participants of a lane -/

theorem State.parts_eq_peers (s : State) (g : Guard) (st : Stream) : s.parts g st.id = s.peers g st := by
  simp only [State.parts, State.peers, State.active, List.filter_map, List.filter_filter, Function.comp_def, s.stream_id,
    Bool.and_comm]
theorem State.shuffled_eq (s : State) (g : Guard) (s1 fill : Reg) (src : Int) (st : Stream) :
    s.shuffled (s.peers g st) s1 fill src st = (s.fromLane g st src s1 fill).setWidth 64 := by
  have hp : (fun p : Stream => (s.laneIx p : Int) == src) = fun p => decide ((s.curTeam.lane p.id : Int) = src) := by
    funext p
    rw [Bool.eq_iff_iff, beq_iff_eq, decide_eq_true_iff]
    rfl
  unfold State.shuffled State.fromLane
  rw [hp]
  cases (s.peers g st).find? fun p => decide ((s.curTeam.lane p.id : Int) = src) <;> rfl
theorem getLsbD_maskOf (ls : List Nat) (i : Nat) (hi : i < 64) : (maskOf ls).getLsbD i = ls.any fun l => l == i := by
  have h : ∀ (m : DWord), (ls.foldl (fun m l => m ||| (1#64 <<< l)) m).getLsbD i = (m.getLsbD i || ls.any fun l => l == i) := by
    induction ls with
    | nil => simp
    | cons l ls ih =>
      intro m
      have hone : (1#64 <<< l).getLsbD i = (l == i) := by
        rw [BitVec.getLsbD_shiftLeft, BitVec.getLsbD_one]
        grind
      rw [List.foldl_cons, ih, BitVec.getLsbD_or, hone, List.any_cons, Bool.or_assoc]
  rw [maskOf, h]
  simp
theorem State.partMask_eq (s : State) (ps : List Stream) (p : Stream → Bool) :
    s.partMask ps p = s.lanesMask (ps.filter p) := by
  refine eq_ofFnLE fun i => ?_
  rw [State.partMask, getLsbD_maskOf _ _ i.isLt, List.any_map]
  rfl
theorem fold1_eq (f : Word → Word → Word) (l : List Word) : fold1 f 0 l = foldUp f l := by cases l <;> rfl

/-! ### Each group instruction -/

/-- A group instruction that answers a word. -/
theorem exec_of_group {i : Instr} {s : State} {g : Guard} {d : Reg} {kill : Stream → Stream} {f : List Stream → Stream → DWord}
    {v : Stream → Word} (h : exec i s = .next (s.groupOp g (.r32 d) kill f))
    (e : ∀ st, (f (s.peers g st) st).setWidth 32 = v st) : exec i s = .next (s.completed g fun st => (kill st).wr d (v st)) := by
  rw [h, State.groupOp, State.retireLanes_eq]
  simp only [s.parts_eq_peers, e, Dst.write]
/-- A group instruction that answers a pair. -/
theorem exec_of_group64 {i : Instr} {s : State} {g : Guard} {d : Reg} {kill : Stream → Stream} {f : List Stream → Stream → DWord}
    {v : Stream → DWord} (h : exec i s = .next (s.groupOp g (.r64 d) kill f)) (e : ∀ st, f (s.peers g st) st = v st) :
    exec i s = .next (s.completed g fun st => (kill st).wr64 d (v st)) := by
  rw [h, State.groupOp, State.retireLanes_eq]
  simp only [s.parts_eq_peers, e, Dst.write]
theorem exec_of_shuffle {i : Instr} {s : State} {o : Alu1} {fill : Reg} {src : Nat → Int}
    (h : exec i s = .next (s.shuffle o fill src)) : exec i s = .next (s.completed o.g fun st =>
      (st.kill o.s1 o.k1).wr o.d (s.fromLane o.g st (src (s.curTeam.lane st.id)) o.s1 fill)) :=
  exec_of_group h fun st => by rw [s.shuffled_eq, setWidth_up_down, State.laneIx]
theorem exec_of_reduce {i : Instr} {s : State} {o : Alu1} {t : MType} {f : Word → Word → Word}
    (h : exec i s = .next (s.reduce o t f)) : exec i s = .next (s.completed o.g fun st =>
      (st.kill o.s1 o.k1).wr o.d (mtypeFix t (foldUp f ((s.peers o.g st).map fun p => p.rd o.s1)))) :=
  exec_of_group h fun st => by rw [fold1_eq, setWidth_up_down]

theorem all_not_eq (bs : List Bool) : bs.all not = !bs.any id := by
  induction bs with
  | nil => rfl
  | cons b bs ih => cases b <;> simp [ih]
theorem bit_setWidth_up (b : Bool) : ((bit b).setWidth 64).setWidth 32 = if b then (1 : Word) else 0 := by cases b <;> rfl
theorem exec_vote (o : Alu1) (op : VoteOp) (s : State) : op ≠ .bits → exec (.vote o op) s = .next (s.completed o.g fun st =>
    let bs := (s.peers o.g st).map fun p => (p.rd o.s1).getLsbD 0
    (st.kill o.s1 o.k1).wr o.d (match op with
      | .every => if bs.all id then 1 else 0
      | .some => if bs.any id then 1 else 0
      | .same => if bs.all id || bs.all not then 1 else 0
      | _ => BitVec.ofNat 32 (bs.countP id))) := by
  intro h
  cases op with
  | bits => exact absurd rfl h
  | every => exact exec_of_group rfl fun st => bit_setWidth_up _
  | some => exact exec_of_group rfl fun st => bit_setWidth_up _
  | same =>
    refine exec_of_group rfl fun st => (bit_setWidth_up _).trans ?_
    rw [all_not_eq]
  | count =>
    refine exec_of_group rfl fun st => ?_
    rw [List.countP_eq_length_filter]
    exact BitVec.setWidth_ofNat_of_le (by decide) _
theorem setWidth_beq (a b : Word) : (a.setWidth 64 == b.setWidth 64) = (a == b) := by
  rw [Bool.eq_iff_iff, beq_iff_eq, beq_iff_eq]
  exact ⟨fun h => by rw [← setWidth_up_down a, h, setWidth_up_down], fun h => by rw [h]⟩
theorem State.below_eq (s : State) (excl : Bool) (st p : Stream) :
    (decide (s.laneIx p < s.laneIx st) || (!excl && s.laneIx p == s.laneIx st)) =
      (if excl then decide (s.curTeam.lane p.id < s.curTeam.lane st.id) else decide (s.curTeam.lane p.id ≤ s.curTeam.lane st.id)) := by
  unfold State.laneIx
  rw [Bool.eq_iff_iff]
  cases excl with
  | true => simp
  | false =>
    simp only [Bool.not_false, Bool.true_and, Bool.or_eq_true, decide_eq_true_eq, beq_iff_eq, Bool.false_eq_true, if_false]
    omega

/-! ### Identity values (R66, R163) -/

theorem exec_sval (g : Guard) (d : Reg) (code : BitVec 5) (s : State) (hd : Reg.isPort d = false) :
    exec (.sval g d code) s = .next (s.completed g fun st => (s.latched st code.toNat).wr d (s.identity st code.toNat)) := by
  change execSval g d code s = _
  simp only [execSval, hd, Bool.not_false, if_true, State.retireLanes_eq]
theorem ofNat_append_ofNat (x : Nat) (hx : x < 2 ^ 64) : (BitVec.ofNat 32 (x / 2 ^ 32) ++ BitVec.ofNat 32 (x % 2 ^ 32) : DWord) =
    BitVec.ofNat 64 x := by
  apply BitVec.eq_of_toNat_eq
  rw [BitVec.toNat_append, BitVec.toNat_ofNat, BitVec.toNat_ofNat, BitVec.toNat_ofNat,
    ← Nat.shiftLeft_add_eq_or_of_lt (Nat.mod_lt _ (by decide)), Nat.shiftLeft_eq]
  omega
theorem State.gts_lt (s : State) : s.gts < 2 ^ 64 := Nat.mod_lt _ (by decide)

/-- Settles O18: each group instruction is `groupOp` over the participants; `identity` is read code by code. -/
theorem groupInstructions : Obligations.GroupInstructions := by
  unfold Obligations.GroupInstructions
  refine ⟨⟨?_, ?_, ?_, ?_, ?_⟩, ⟨exec_vote, ?_, ?_, ?_, ?_, ?_, ?_, ?_, ?_, ?_⟩, exec_sval, fun s st hk => ?_⟩
  · exact fun o s => exec_of_group rfl fun st => by rw [s.shuffled_eq, setWidth_up_down]
  · exact fun o f m s => exec_of_shuffle (i := .shfx o f m) (src := fun l => ((l ^^^ m.toNat : Nat) : Int)) rfl
  · exact fun o f m s => exec_of_shuffle (i := .shup o f m) (src := fun l => (l : Int) - m.toNat) rfl
  · exact fun o f m s => exec_of_shuffle (i := .shdn o f m) (src := fun l => (l : Int) + m.toNat) rfl
  · exact fun o f m s => exec_of_shuffle (i := .gbcast o f m) (src := fun _ => (m.toNat : Int)) rfl
  · exact fun o s => exec_of_group64 rfl fun st => s.partMask_eq _ _
  · exact fun o f32 s => exec_of_reduce rfl
  · exact fun o t s => exec_of_reduce rfl
  · exact fun o t s => exec_of_reduce rfl
  · exact fun o op s => exec_of_reduce (t := .i32) rfl
  · intro o excl f32 s
    refine exec_of_group rfl fun st => ?_
    simp only [fold1_eq, s.below_eq, setWidth_up_down]
    cases excl <;> rfl
  · intro o s
    refine exec_of_group64 rfl fun st => ?_
    rw [s.partMask_eq]
    congr 2
    funext p
    exact setWidth_beq _ _
  · exact fun o s => exec_of_group64 rfl fun st => s.partMask_eq _ _
  · intro g d s
    refine exec_of_group64 rfl fun st => ?_
    rw [s.partMask_eq, List.filter_true]
  · intro t n
    refine ⟨?_, ?_, ?_, ?_, rfl, rfl, rfl, ?_, rfl, ?_, rfl, rfl, rfl, ?_, ?_, fun hi => ?_⟩
    · simp [State.identity, hk, n]
    · simp [State.identity, hk, n, t]
    · simp [State.identity, hk, n, t]
    · simp [State.identity, hk, n, t, Nat.div_div_eq_div_mul]
    · simp [State.identity, hk, n, t, Team.group]
    · simp [State.identity, hk, n, t, Team.coreOf]
    · exact (BitVec.extractLsb'_append_extractLsb'_eq_extractLsb' (by rfl)).trans BitVec.extractLsb'_eq_self
    · simp [State.identity, hk]
    · rw [show s.identity st 0x11 = BitVec.ofNat 32 (s.gts / 2 ^ 32) by simp [State.identity, hi]]
      exact ofNat_append_ofNat s.gts s.gts_lt

end Sys2Proof.Machine
end
section
/-! PROOFS. What a step leaves of the lanes of its issue group; traps and the return from one (R402, R403, R405, R421, R422). -/
namespace Sys2Proof.Machine

/-! ### The lanes of an issue group -/

theorem State.mem_active {s : State} {g : Guard} {id : SId} :
    id ∈ s.active g ↔ id ∈ s.cur.lanes ∧ guardHolds g (s.stream id) = true := List.mem_filter
theorem State.active_subset (s : State) (g : Guard) : s.active g ⊆ s.cur.lanes := fun _ h => (State.mem_active.mp h).1
theorem State.Present.mono {s : State} {ids ids' : List SId} (h : s.Present ids) (hs : ids' ⊆ ids) : s.Present ids' :=
  fun id hid => h id (hs hid)

theorem State.OnlyStreams.refl (s : State) (ids : List SId) : s.OnlyStreams s ids := ⟨rfl, fun _ _ => rfl⟩
theorem State.OnlyStreams.trans {s t u : State} {ids : List SId} (h : s.OnlyStreams t ids) (h' : t.OnlyStreams u ids) :
    s.OnlyStreams u ids :=
  ⟨by rw [h'.1, h.1], fun id hid => (h'.2 id hid).trans (h.2 id hid)⟩
theorem State.OnlyStreams.mono {s t : State} {ids ids' : List SId} (h : s.OnlyStreams t ids) (hs : ids ⊆ ids') :
    s.OnlyStreams t ids' := ⟨h.1, fun id hid => h.2 id fun hm => hid (hs hm)⟩

section
variable (s : State) {ids : List SId} {f : Stream → Stream} (hf : ∀ st : Stream, (f st).id = st.id)
include hf

theorem State.onLanes_onlyStreams (ids : List SId) : s.OnlyStreams (s.onLanes ids f) ids :=
  ⟨rfl, fun _ h => s.onLanes_other f hf h⟩
theorem State.onLanes_listed {id : SId} (h : id ∈ ids) (hp : (s.stream? id).isSome = true) :
    (s.onLanes ids f).stream id = f (s.stream id) := by
  rw [s.onLanes_stream f hf hp, if_pos h]
theorem State.onLanes_unlisted {id : SId} (h : id ∉ ids) : (s.onLanes ids f).stream id = s.stream id := by
  unfold State.stream
  rw [s.onLanes_other f hf h]
theorem State.onLanes_present {ids' : List SId} (hp : s.Present ids') : (s.onLanes ids f).Present ids' := fun id hid => by
  rw [s.onLanes_stream? ids f hf id, Option.isSome_map]
  exact hp id hid
end

/-- Each active lane as `f` makes it, each other lane of the group past the instruction. -/
theorem State.split_lanes (s : State) (g : Guard) {f : Stream → Stream} (hf : ∀ st : Stream, (f st).id = st.id)
    (hp : s.Present s.cur.lanes) :
    s.Lanes (s.onLanes s.cur.lanes fun st => if guardHolds g st then f st else st.goto s.cur.npc) g f := by
  have hf' : ∀ st : Stream, (if guardHolds g st then f st else st.goto s.cur.npc).id = st.id := fun st => by
    split
    · exact hf st
    · rfl
  refine ⟨fun id h => ?_, fun id h hn => ?_, fun id h => s.onLanes_other _ hf' h⟩
  · obtain ⟨hl, hg⟩ := State.mem_active.mp h
    rw [s.onLanes_listed hf' hl (hp id hl), if_pos hg]
  · rw [s.onLanes_listed hf' h (hp id h), if_neg fun hg => hn (State.mem_active.mpr ⟨h, hg⟩)]

theorem State.retireLanes_onlyStreams (s : State) (g : Guard) {f : Stream → Stream} (hf : ∀ st : Stream, (f st).id = st.id) :
    s.OnlyStreams (s.retireLanes g f) s.cur.lanes :=
  s.onLanes_onlyStreams (fun st => by split <;> simp [hf]) _
theorem State.retireLanes_lanes (s : State) (g : Guard) {f : Stream → Stream} (hf : ∀ st : Stream, (f st).id = st.id)
    (hp : s.Present s.cur.lanes) : s.Lanes (s.retireLanes g f) g fun st => (f st).goto s.cur.npc := by
  have h := s.split_lanes g (f := fun st => (f st).goto s.cur.npc) hf hp
  have e : (fun st => (if guardHolds g st then f st else st).goto s.cur.npc) =
      fun st => if guardHolds g st then (f st).goto s.cur.npc else st.goto s.cur.npc := by
    funext st
    split <;> rfl
  rwa [← e] at h

/-! ### Teams -/

theorem State.onTeam_team? (s : State) (k : Nat) {f : Team → Team} (hf : ∀ tm : Team, (f tm).tcx = tm.tcx) :
    (s.onTeam k f).team? k = (s.team? k).map f := by
  simp only [State.team?, State.onTeam, List.find?_map]
  have hp : ((fun t : Team => decide (t.tcx = k)) ∘ fun t => if t.tcx = k then f t else t) = fun t => decide (t.tcx = k) := by
    funext t
    dsimp only [Function.comp]
    split
    · rw [hf]
    · rfl
  rw [hp]
  cases h : s.teams.find? fun t => t.tcx = k with
  | none => rfl
  | some tm =>
    have htm : tm.tcx = k := by simpa using List.find?_some h
    rw [Option.map_some, Option.map_some, if_pos htm]

theorem State.endTeam_team? (s : State) (k : Nat) (c : Cause) : (s.endTeam k c).team? k =
    (s.team? k).map fun t => if t.ended.isNone then { t with ended := some c, endedAt := s.gts } else t :=
  s.onTeam_team? k fun tm => by split <;> rfl
/-- A team that runs on takes the cause it is ended with (R405). -/
theorem State.endTeam_ended {s : State} {k : Nat} {tm : Team} (c : Cause) (h : s.team? k = some tm) (hn : tm.ended = none) :
    ((s.endTeam k c).team k).ended = some c := by
  rw [State.team, s.endTeam_team?, h]
  simp [hn]
/-- A team that has ended keeps its cause (R405). -/
theorem State.endTeam_keeps {s : State} {k : Nat} {tm : Team} (c : Cause) (h : s.team? k = some tm) (hn : tm.ended ≠ none) :
    ((s.endTeam k c).team k).ended = tm.ended := by
  rw [State.team, s.endTeam_team?, h]
  simp [hn]

/-! ### Traps -/

theorem trapInfo_eq (n : Nat) (code : BitVec 16) :
    trapInfo false 0 n code = BitVec.ofNat 32 (2 ^ 16 * (n % 4096) + code.toNat) := by
  have hc := code.isLt
  apply BitVec.eq_of_toNat_eq
  rw [trapInfo, BitVec.toNat_append, ← Nat.shiftLeft_add_eq_or_of_lt hc, Nat.shiftLeft_eq, BitVec.toNat_append]
  have hz : (bit false ++ BitVec.ofNat 2 0 ++ bit false : BitVec 4).toNat = 0 := by decide
  rw [hz, Nat.zero_shiftLeft, Nat.zero_or, BitVec.toNat_ofNat, BitVec.toNat_ofNat]
  omega

theorem Stream.canTrap_iff {st : Stream} :
    st.canTrap = true ↔ st.trap.hmode = false ∧ st.trap.vec ≠ 0 ∧ targetTrap st.trap.vec = none := by
  simp [Stream.canTrap, and_assoc]

theorem State.skipLanes_lanes (s : State) (g : Guard) (hp : s.Present s.cur.lanes) : s.Lanes (s.skipLanes g) g fun st => st :=
  s.split_lanes g (fun _ => rfl) hp
theorem State.skipLanes_onlyStreams (s : State) (g : Guard) : s.OnlyStreams (s.skipLanes g) s.cur.lanes :=
  s.onLanes_onlyStreams (fun st => by split <;> rfl) _

theorem enterIf_id (st : Stream) (c : Cause) (pc npc a : DWord) (i : Word) :
    (if st.canTrap then st.enterTrap c pc npc a i else st).id = st.id := by split <;> rfl

section
variable (s : State) {g : Guard} {c : Cause} {low : SId} (a : DWord) (code : BitVec 16)

/-- A trap of lanes that all have a handler (R402). -/
theorem State.trap7_enters (hw : s.windowed = false) (hp : s.Present s.cur.lanes) (hc : ∀ id ∈ s.active g, (s.stream id).canTrap = true) :
    s.OnlyStreams (s.trap7 g c low a code) s.cur.lanes ∧
      s.Lanes (s.trap7 g c low a code) g fun st =>
        st.enterTrap c s.cur.pc s.cur.npc a (trapInfo false 0 (ftid low) code) := by
  obtain ⟨hon, hoff, hother⟩ := s.skipLanes_lanes g hp
  have hcan : ∀ id ∈ s.active g, ((s.skipLanes g).stream id).canTrap = true := fun id h => by rw [hon id h]; exact hc id h
  have hpres : (s.skipLanes g).Present s.cur.lanes := s.onLanes_present (fun st => by split <;> rfl) hp
  rw [State.trap7, if_neg (by simp [hw]), State.takeTrap_enters _ _ _ _ _ _ _ hcan]
  refine ⟨(s.skipLanes_onlyStreams g).trans ((State.onLanes_onlyStreams _ (fun st => enterIf_id st _ _ _ _ _) _).mono (s.active_subset g)),
    fun id h => ?_, fun id h hn => ?_, fun id h => ?_⟩
  · rw [State.onLanes_listed _ (fun st => enterIf_id st _ _ _ _ _) h (hpres id (s.active_subset g h)), if_pos (hcan id h), hon id h]
  · rw [State.onLanes_unlisted _ (fun st => enterIf_id st _ _ _ _ _) hn, hoff id h hn]
  · rw [State.onLanes_other _ _ (fun st => enterIf_id st _ _ _ _ _) fun hm => h (s.active_subset g hm), hother id h]

/-- A trap whose lowest lane has no handler ends the team (R402, R405). -/
theorem State.trap7_ends {rest : List SId} (hw : s.windowed = false) (hact : s.active g = low :: rest)
    (hp : ((s.skipLanes g).stream low).canTrap = false) :
    ∃ s1 : State, s1.teams = s.teams ∧ s.trap7 g c low a code = s1.endTeam low.tcx c := by
  rw [State.trap7, if_neg (by simp [hw]), hact, State.takeTrap, List.find?_cons_of_pos (by simp [hp])]
  exact ⟨(s.skipLanes g).onLanes (low :: rest) _, rfl, rfl⟩

/-- `skipLanes` leaves an active lane as it was, also one that does not exist. -/
theorem State.skipLanes_active {id : SId} (h : id ∈ s.active g) : (s.skipLanes g).stream id = s.stream id := by
  obtain ⟨_, hg⟩ := State.mem_active.mp h
  have hf : ∀ st : Stream, (if guardHolds g st then st else st.goto s.cur.npc).id = st.id := fun st => by split <;> rfl
  cases hst : s.stream? id with
  | none =>
    unfold State.stream State.skipLanes
    rw [s.onLanes_stream? _ _ hf id, hst]
    rfl
  | some st =>
    rw [State.skipLanes, s.onLanes_stream _ hf (by simp [hst]), if_pos hg, ite_self]
end

/-- `trap` and `brk` trap at their lowest active lane (R421). -/
theorem exec_trap_or_brk {i : Instr} {c : Cause} {g : Guard} {imm : BitVec 16} {s : State} {low : SId} {rest : List SId}
    (hi : i = .trap g imm ∧ c = 0x51 ∨ i = .brk g imm ∧ c = 0x50) (hact : s.active g = low :: rest) :
    exec i s = .next (s.trap7 g c low 0 imm) := by
  have h : ∀ c, s.trapLow g c 0 imm = s.trap7 g c low 0 imm := fun c => by rw [State.trapLow, hact]; rfl
  rcases hi with ⟨rfl, rfl⟩ | ⟨rfl, rfl⟩
  · exact congrArg Host.Outcome.next (h _)
  · exact congrArg Host.Outcome.next (h _)

/-- `eret` and `eretNx` (R422). -/
theorem exec_eret {i : Instr} {nx : Bool} {g : Guard} (s : State) (hi : i = .eret g ∧ nx = false ∨ i = .eretNx g ∧ nx = true) :
    exec i s = .next (s.leave g nx) := by
  rcases hi with ⟨rfl, rfl⟩ | ⟨rfl, rfl⟩ <;> rfl

section
variable (s : State) {g : Guard} (nx : Bool)

theorem State.leave_returns (h : ∀ id ∈ s.active g, (s.stream id).trap.hmode = true ∧ targetTrap (eretTarget nx (s.stream id)) = none) :
    s.leave g nx = s.onLanes s.cur.lanes fun st =>
      if guardHolds g st then st.leaveTrap (eretTarget nx st) else st.goto s.cur.npc := by
  have h1 : ((s.active g).find? fun id => !(s.stream id).trap.hmode) = none := by
    rw [List.find?_eq_none]
    intro id hid
    simp [(h id hid).1]
  have h2 : ((s.active g).find? fun id => (targetTrap (eretTarget nx (s.stream id))).isSome) = none := by
    rw [List.find?_eq_none]
    intro id hid
    simp [(h id hid).2]
  simp only [State.leave, h1, h2]
theorem State.leave_outside {low : SId} {rest : List SId} (hact : s.active g = low :: rest) (h : (s.stream low).trap.hmode = false) :
    s.leave g nx = s.trap7 g cIllegalOperand low 0 := by
  simp only [State.leave, hact, List.find?_cons_of_pos (p := fun id => !(s.stream id).trap.hmode) (a := low) (by simp [h])]
theorem State.leave_bad_target {low : SId} {rest : List SId} {c : Cause} (hact : s.active g = low :: rest)
    (h : ∀ id ∈ s.active g, (s.stream id).trap.hmode = true) (ht : targetTrap (eretTarget nx (s.stream low)) = some c) :
    s.leave g nx = (s.skipLanes g).endTeam low.tcx c := by
  have h1 : ((low :: rest).find? fun id => !(s.stream id).trap.hmode) = none := by
    rw [← hact, List.find?_eq_none]
    intro id hid
    simp [h id hid]
  simp only [State.leave, hact, h1,
    List.find?_cons_of_pos (p := fun id => (targetTrap (eretTarget nx (s.stream id))).isSome) (a := low) (by simp [ht])]
  rw [ht]
  rfl
end

/-- Settles O19: `trap7` over lanes with a handler and without, and the three ends of `leave`. -/
theorem trapsEnterAndLeaveTheHandler : Obligations.TrapsEnterAndLeaveTheHandler := by
  unfold Obligations.TrapsEnterAndLeaveTheHandler
  refine ⟨fun i c g imm s low rest hi hact hw hp hh => ?_, fun i c g imm s low rest hi hact hw hh => ?_,
    fun i nx g s hi => ⟨fun hp h => ?_, fun low rest hact h => ?_, fun low rest c tm hact h ht htm hn => ?_⟩⟩
  · obtain ⟨honly, hon, hoff, -⟩ :=
      s.trap7_enters (c := c) (low := low) 0 imm hw hp fun id hid => Stream.canTrap_iff.mpr (hh id hid)
    refine ⟨_, exec_trap_or_brk hi hact, honly, fun id hid => ?_, hoff⟩
    rw [hon id hid, trapInfo_eq]
    rfl
  · have hcan : ((s.skipLanes g).stream low).canTrap = false := by
      rw [s.skipLanes_active (hact ▸ List.mem_cons_self), Bool.eq_false_iff, ne_eq, Stream.canTrap_iff]
      rintro ⟨h1, h2, h3⟩
      rcases hh with hh | hh | hh
      · simp [h1] at hh
      · exact h2 hh
      · simp [h3] at hh
    obtain ⟨s1, hs1, he⟩ := s.trap7_ends (c := c) 0 imm hw hact hcan
    have hteam : s1.team? low.tcx = s.team? low.tcx := by rw [State.team?, hs1]; rfl
    refine ⟨_, exec_trap_or_brk hi hact, fun tm htm hn => ?_, fun tm htm hn => ?_⟩
    · rw [he]
      exact State.endTeam_ended c (hteam.trans htm) hn
    · rw [he]
      exact State.endTeam_keeps c (hteam.trans htm) hn
  · have hlanes := s.split_lanes g (f := fun st => st.leaveTrap (eretTarget nx st)) (fun _ => rfl) hp
    refine ⟨_, exec_eret s hi, ?_⟩
    rw [s.leave_returns nx h]
    exact ⟨s.onLanes_onlyStreams (fun st => by split <;> rfl) _, fun id hid => hlanes.1 id hid, hlanes.2.1⟩
  · rw [exec_eret s hi, s.leave_outside nx hact h]
  · refine ⟨_, exec_eret s hi, ?_⟩
    rw [s.leave_bad_target nx hact h ht]
    exact State.endTeam_ended c htm hn

end Sys2Proof.Machine
end
section
/-! PROOFS. The checks before an instruction executes, and those of a branch target (R106, R107, R165, R401, R404). -/
namespace Sys2Proof.Machine

/-! ### The steps of `examine` for a word that is no pair -/

section
variable {w : DWord} {lits : List DWord} {k : Kind} {regs : Nat} {priv phys : Bool} (hw : w.msb = false)
include hw

theorem examine_unassigned (h : unassigned (fieldsOf w).opc = true) :
    examine w lits k regs priv phys = .ok (.unassignedOpcode (fieldsOf w).opc) := by
  simp [examine, hw, h]
theorem examine_kind (h : unassigned (fieldsOf w).opc = false) (hk : kindLegal (fieldsOf w).opc.toNat k = false) :
    examine w lits k regs priv phys = .error cStreamKind := by
  simp [examine, hw, h, hk]
theorem examine_privilege (h : unassigned (fieldsOf w).opc = false) (hk : kindLegal (fieldsOf w).opc.toNat k = true)
    (hp : privOk (fieldsOf w) priv phys = false) : examine w lits k regs priv phys = .error cPrivilege := by
  simp [examine, hw, h, hk, hp]
theorem examine_decoded (h : unassigned (fieldsOf w).opc = false) (hk : kindLegal (fieldsOf w).opc.toNat k = true)
    (hp : privOk (fieldsOf w) priv phys = true) : examine w lits k regs priv phys = match decode w lits with
      | .ok i => if i.streamOk k regs then .ok i else .error cIllegalOperand
      | .error _ => .error cIllegalOperand := by
  simp only [examine, hw, h, hk, hp, Bool.false_eq_true, Bool.not_true, if_false]
  cases decode w lits with
  | error e => rfl
  | ok i =>
    cases h : i.streamOk k regs with
    | true => simp [h]
    | false => simp [h]
end

theorem privOk_of_opcPriv {f : Fields} {phys : Bool} (h : opcPriv f.opc.toNat = true) : privOk f false phys = false := by
  simp [privOk, h]
theorem privOk_cwr_physical {f : Fields} {priv : Bool} (h : f.opc = 0xF3) (hl : crListed (f.fld 0 12).toNat = true)
    (hn : crNeed (f.fld 0 12).toNat = .physical) : privOk f priv false = false := by
  have hp : opcPriv f.opc.toNat = false := by rw [h]; decide
  rw [privOk, hp, hl, hn, h]
  rfl

/-! ### The checks of R165 as ranges of the target -/

theorem extract_top_eq_zero (t : DWord) : t.extractLsb' 57 7 = 0 ↔ t.toNat < 2 ^ 57 := by
  rw [← BitVec.toNat_inj, BitVec.extractLsb'_toNat, Nat.shiftRight_eq_div_pow, show (0 : BitVec 7).toNat = 0 from rfl]
  have := t.isLt
  omega
theorem extract_window_eq (t : DWord) : t.extractLsb' 32 32 = 0x01800000#32 ↔
    0x0180000000000000 ≤ t.toNat ∧ t.toNat < 0x0180000000000000 + 2 ^ 32 := by
  rw [← BitVec.toNat_inj, BitVec.extractLsb'_toNat, Nat.shiftRight_eq_div_pow, BitVec.toNat_ofNat]
  have := t.isLt
  omega
theorem extract_low_eq_zero (t : DWord) : t.extractLsb' 0 3 = 0 ↔ t.toNat % 8 = 0 := by
  rw [← BitVec.toNat_inj, BitVec.extractLsb'_toNat]
  rfl

/-- R165, by the target's value. -/
theorem targetTrap_eq (t : DWord) : targetTrap t =
    if 2 ^ 57 ≤ t.toNat ∨ (0x0180000000000000 ≤ t.toNat ∧ t.toNat < 0x0180000000000000 + 2 ^ 32) then some cAddressClass
    else if t.toNat % 8 = 0 then none else some cAlignment := by
  unfold targetTrap
  by_cases h1 : t.toNat < 2 ^ 57
  · rw [if_neg (not_not.mpr ((extract_top_eq_zero t).mpr h1))]
    by_cases h2 : 0x0180000000000000 ≤ t.toNat ∧ t.toNat < 0x0180000000000000 + 2 ^ 32
    · rw [if_pos ((extract_window_eq t).mpr h2), if_pos (.inr h2)]
    · rw [if_neg (mt (extract_window_eq t).mp h2), if_neg (not_or.mpr ⟨Nat.not_le.mpr h1, h2⟩)]
      by_cases h3 : t.toNat % 8 = 0
      · rw [if_neg (not_not.mpr ((extract_low_eq_zero t).mpr h3)), if_pos h3]
      · rw [if_pos (mt (extract_low_eq_zero t).mp h3), if_neg h3]
  · rw [if_pos (mt (extract_top_eq_zero t).mp h1), if_pos (.inl (Nat.not_lt.mp h1))]

/-! ### The trap of a word with an unassigned opcode -/

/-- A trap of steps 1 to 6 of R106, of lanes that all have a handler (R402). -/
theorem State.trapEarly_enters (s : State) {low : SId} {rest : List SId} (c : Cause) (a : DWord) (hl : s.cur.lanes = low :: rest)
    (hw : s.windowed = false) (hp : s.Present s.cur.lanes) (hc : ∀ id ∈ s.cur.lanes, (s.stream id).canTrap = true) :
    s.OnlyStreams (s.trapEarly c a) s.cur.lanes ∧ ∀ id ∈ s.cur.lanes, (s.trapEarly c a).stream id =
      (s.stream id).enterTrap c s.cur.pc s.cur.npc a (trapInfo false 0 (ftid low) 0) := by
  have hlow : ((s.cur.lanes.head?.map ftid).getD 0) = ftid low := by rw [hl]; rfl
  rw [State.trapEarly, if_neg (by simp [hw]), s.takeTrap_enters _ _ _ _ _ _ hc, hlow]
  refine ⟨s.onLanes_onlyStreams (fun st => enterIf_id st _ _ _ _ _) _, fun id hid => ?_⟩
  rw [s.onLanes_listed (fun st => enterIf_id st _ _ _ _ _) hid (hp id hid), if_pos (hc id hid)]

/-- Settles O20: `examine` step by step, `targetTrap` by the target's value, and `trapEarly` in lanes that have a handler. -/
theorem checksBeforeExecution : Obligations.ChecksBeforeExecution := by
  unfold Obligations.ChecksBeforeExecution
  refine ⟨fun w lits k regs priv phys hw => ⟨examine_unassigned hw, examine_kind hw, fun hu hk hp hpriv => ?_,
    fun hu hk ho hl hn hphys => ?_, fun hu hk hp => ⟨fun i hi ho => ?_, fun e he => ?_⟩⟩,
    fun t => ⟨fun h => ?_, fun h h' => ?_, fun h h' => ?_⟩, fun opc s low rest hl hp hw hh => ?_⟩
  · subst hpriv
    exact examine_privilege hw hu hk (privOk_of_opcPriv hp)
  · subst hphys
    exact examine_privilege hw hu hk (privOk_cwr_physical ho hl hn)
  · rw [examine_decoded hw hu hk hp, hi]
    exact if_pos ho
  · rw [examine_decoded hw hu hk hp, he]
  · rw [targetTrap_eq, if_pos (.inl h)]
  · rw [targetTrap_eq, if_pos (.inr ⟨h, h'⟩)]
  · rw [targetTrap_eq, if_neg (by omega)]
  · obtain ⟨honly, hon⟩ := s.trapEarly_enters cIllegalOpcode 0 hl hw hp fun id hid => Stream.canTrap_iff.mpr (hh id hid)
    refine ⟨_, rfl, honly, fun id hid => ?_⟩
    rw [hon id hid, trapInfo_eq, show (0 : BitVec 16).toNat = 0 from rfl, Nat.add_zero]
    rfl

end Sys2Proof.Machine
end
section
/-! PROOFS. Control registers (R404, R423): a release that waits stalls `cwr` of JOIN_CMD. -/
namespace Sys2Proof.Machine

/-- A load of the first word of the vault that has not been performed. -/
def vaultLoad : MemOp :=
  { num := 0, kind := .load false, lanes := [], d := 0, entry := none, va := 0x4000000000000000, loc := ⟨.vault, vaultKey, 0, false⟩
    size := 4, ord := .rlx, scp := false, agent := .thr, mask := 0, hint := .none, core := 0, ctag := 0, counter := 0
    phase := .issued, inst := 0, kill := none }
/-- One lane whose v5 holds the command that releases share 0, with the share given out and a load still in it. -/
def releasing : State :=
  { State.setShare State.reset 0 ⟨.vault, 0, 0, 0⟩ with
    cur := ⟨[⟨0, .lane, 0⟩], 0, 8⟩
    streams := [{ newStream ⟨0, .lane, 0⟩ 0 0 0 with regs := [(5, 0x80000000)] }]
    ops := [vaultLoad] }

theorem releasing_active : releasing.active ⟨false, 0, false⟩ = [⟨0, .lane, 0⟩] := by decide
/-- The release waits for the load (R225), so that the instruction stalls. -/
theorem releasing_stalls : exec (.cwr ⟨false, 0, false⟩ 5 false 0x39) releasing = .next releasing.stalled := by
  have hbusy : releasing.joinBusy 2 0 releasing.curTeam.fn = true := by decide
  have hlow : releasing.lowest ⟨false, 0, false⟩ = some (releasing.stream ⟨0, .lane, 0⟩) := by
    rw [State.lowest, releasing_active]
    rfl
  have hop : (((releasing.stream ⟨0, .lane, 0⟩).rd 5).extractLsb' 30 2).toNat = 2 := by decide
  have harg : (((releasing.stream ⟨0, .lane, 0⟩).rd 5).extractLsb' 0 30).toNat = 0 := by decide
  change execCwr ⟨false, 0, false⟩ 5 false 0x39 releasing = _
  simp only [execCwr, hlow, hop, harg, hbusy]
  rfl

/-- Refutes O21: the clause that a `cwr` of a number from 0x12 on completes holds for every number but 0x39: a command that releases a
share waits for the accesses still in it (R225), and `releasing` has one. -/
theorem not_controlRegisters : ¬ Obligations.ControlRegisters := by
  unfold Obligations.ControlRegisters
  rintro ⟨⟨-, -, -, hwrite⟩, -⟩
  have h := hwrite ⟨false, 0, false⟩ 5 false 0x39 releasing ⟨0, .lane, 0⟩ [] releasing_active (by decide)
  rw [releasing_stalls] at h
  have hpc := congrArg (fun o : Out => match o with
    | .next t => t.streams.map Stream.pc
    | _ => []) h
  revert hpc
  decide

end Sys2Proof.Machine
end
section
/-! PROOFS. Branches, calls, returns, loops and table jumps (R164 to R166, R169 to R173). -/
namespace Sys2Proof.Machine

/-! ### Relative targets -/

theorem relTarget_eq {n : Nat} (pc : DWord) (off : BitVec n) (hn : n ≤ 64) :
    relTarget pc off = BitVec.ofInt 64 (pc.toNat + 8 * off.toInt) := by
  apply BitVec.eq_of_toInt_eq
  have h8 : off.signExtend 64 <<< 3 = off.signExtend 64 * 8#64 := by
    rw [BitVec.shiftLeft_eq_mul_twoPow]
    rfl
  rw [relTarget, h8, BitVec.toInt_ofInt, BitVec.toInt_add, BitVec.toInt_mul, BitVec.toInt_signExtend_of_le hn, BitVec.toInt_eq_toNat_bmod pc,
    show (8#64).toInt = 8 from rfl, Int.bmod_add_bmod, Int.add_bmod_bmod, Int.mul_comm]
theorem relTarget_signExtend {n : Nat} (pc : DWord) (off : BitVec n) (hn : n ≤ 32) :
    relTarget pc (off.signExtend 32) = BitVec.ofInt 64 (pc.toNat + 8 * off.toInt) := by
  rw [relTarget_eq pc _ (by decide), BitVec.toInt_signExtend_of_le hn]

/-! ### A branch -/

/-- The streams of an issue group: those that exist, and those that its identities name. -/
def State.Issuing (s : State) (st : Stream) : Prop := st.id ∈ s.cur.lanes ∧ (st ∈ s.streams ∨ st = s.stream st.id)
theorem State.issuing_of_lane {s : State} {id : SId} (h : id ∈ s.cur.lanes) : s.Issuing (s.stream id) := by
  rw [State.Issuing, s.stream_id]
  exact ⟨h, .inr rfl⟩

theorem find?_congr_mem {α : Type} {p q : α → Bool} {l : List α} (h : ∀ x ∈ l, p x = q x) : l.find? p = l.find? q := by
  induction l with
  | nil => rfl
  | cons x xs ih =>
    rw [List.find?_cons, List.find?_cons, h x List.mem_cons_self, ih fun y hy => h y (List.mem_cons_of_mem x hy)]

theorem State.pathOf_congr {s : State} {ids : List SId} {dir dir' : Stream → DWord} (old : Stream → List (DWord × DWord)) {st : Stream}
    (h : ∀ id ∈ ids, dir (s.stream id) = dir' (s.stream id)) (hst : dir st = dir' st) :
    s.pathOf ids dir old st = s.pathOf ids dir' old st := by
  have hf : ids.find? (fun id => (s.team st.id.tcx).group id == (s.team st.id.tcx).group st.id && dir (s.stream id) == dir st) =
      ids.find? fun id => (s.team st.id.tcx).group id == (s.team st.id.tcx).group st.id && dir' (s.stream id) == dir' st :=
    find?_congr_mem fun id hid => by rw [h id hid, hst]
  simp only [State.pathOf, hf]

/-- The lanes that pass the guard decide a branch. -/
theorem State.jumped_congr {s : State} {g : Guard} (c : BrClass) {tgt tgt' : Stream → DWord} {f f' : Stream → Stream}
    (h : ∀ st, s.Issuing st → guardHolds g st = true → tgt st = tgt' st ∧ f st = f' st) :
    s.jumped g c tgt f = s.jumped g c tgt' f' := by
  have hdir : ∀ st, s.Issuing st → (if guardHolds g st then tgt st else s.cur.npc) = if guardHolds g st then tgt' st else s.cur.npc := by
    intro st hst
    split
    · next hg => exact (h st hst hg).1
    · rfl
  refine congrArg (fun sts => { s with streams := sts }) (List.map_congr_left fun st hst => ?_)
  by_cases hl : st.id ∈ s.cur.lanes
  · have hi : s.Issuing st := ⟨hl, .inl hst⟩
    have hpath := State.pathOf_congr (s := s) (dir := fun st => if guardHolds g st then tgt st else s.cur.npc)
      (dir' := fun st => if guardHolds g st then tgt' st else s.cur.npc) Stream.path (fun id hid => hdir _ (State.issuing_of_lane hid)) (hdir st hi)
    have hf : (if guardHolds g st then f st else st) = if guardHolds g st then f' st else st := by
      split
      · next hg => exact (h st hi hg).2
      · rfl
    simp only [if_pos hl, hf, hpath, hdir st hi]
  · rw [if_neg hl, if_neg hl]

section
variable {s : State} {g : Guard} {c : BrClass} {takes : Stream → Bool} {tgt : Stream → DWord} {f : Stream → Stream}

/-- A branch whose targets all pass R165. -/
theorem State.branchOf_jumps (h : ∀ id ∈ s.active g, takes (s.stream id) = true → targetTrap (tgt (s.stream id)) = none) :
    s.branchOf g c takes tgt f = s.jumped g c tgt f := by
  have hbad : ((s.active g).find? fun id => takes (s.stream id) && (targetTrap (tgt (s.stream id))).isSome) = none := by
    rw [List.find?_eq_none]
    intro id hid hh
    rw [Bool.and_eq_true] at hh
    rw [h id hid hh.1] at hh
    cases hh.2
  simp only [State.branchOf, hbad]
  rfl
/-- A branch whose first failing lane is `fail`. -/
theorem State.branchOf_traps {fail : SId} {k : Cause}
    (hf : ((s.active g).find? fun id => takes (s.stream id) && (targetTrap (tgt (s.stream id))).isSome) = some fail)
    (ht : targetTrap (tgt (s.stream fail)) = some k) :
    s.branchOf g c takes tgt f = s.trap7 g k fail (tgt (s.stream fail)) := by
  simp only [State.branchOf, hf, ht]
  rfl
theorem State.branch_jumps (h : ∀ id ∈ s.active g, targetTrap (tgt (s.stream id)) = none) : s.branch g c tgt f = s.jumped g c tgt f :=
  State.branchOf_jumps fun id hid _ => h id hid
theorem State.branch_traps {fail : SId} {k : Cause}
    (hf : ((s.active g).find? fun id => (targetTrap (tgt (s.stream id))).isSome) = some fail)
    (ht : targetTrap (tgt (s.stream fail)) = some k) : s.branch g c tgt f = s.trap7 g k fail (tgt (s.stream fail)) :=
  State.branchOf_traps (by simpa using hf) ht
end

/-! ### The forms -/

section
variable (s : State) (g : Guard) (off : BitVec 26)

theorem exec_bra : exec (.bra g off) s = .next (s.branch g (brClass g) (fun _ => relTarget s.cur.pc off) id) := rfl
theorem exec_call (l : Reg) : exec (.call g l off) s =
    .next (s.branch g (brClass g) (fun _ => relTarget s.cur.pc off) fun st => st.wr64 l (s.cur.pc + 8)) := rfl
theorem exec_jmp (s1 : Reg) (k1 : Bool) : exec (.jmp g s1 k1) s =
    .next (s.branch g .multiWay (fun st => st.rd64 s1) fun st => st.kill64 s1 k1) := rfl
theorem exec_ret (s1 : Reg) (k1 : Bool) : exec (.ret g s1 k1) s =
    .next (s.branch g .multiWay (fun st => st.rd64 s1) fun st => st.kill64 s1 k1) := rfl
theorem exec_callr (l s1 : Reg) (k1 : Bool) : exec (.callr g l s1 k1) s =
    .next (s.branch g .multiWay (fun st => st.rd64 s1) fun st => (st.kill64 s1 k1).wr64 l (s.cur.pc + 8)) := rfl
/-- The target of `loop` in one lane, and its counter afterwards. -/
def loopTarget (npc tgt : DWord) (c : Reg) (st : Stream) : DWord := if (st.rd c).toNat ≤ 1 then npc else tgt
def loopCount (c : Reg) (st : Stream) : Stream := st.wr c (if (st.rd c).toNat ≤ 1 then 0 else st.rd c - 1)
theorem exec_loop (c : Reg) : exec (.loop g c off) s = .next (s.branchOf g .twoWay (fun st => decide (1 < (st.rd c).toNat))
    (loopTarget s.cur.npc (relTarget s.cur.pc off) c) (loopCount c)) := rfl
end

/-- The kills of `brm` (R172). -/
def brmKills (k1 k2 : Bool) (es : List (Reg × Bool × Word)) (st : Stream) : Stream :=
  match es with
  | [] => st
  | [(p0, _)] => st.kill p0 k1
  | (p0, _) :: (p1, _) :: _ => (st.kill p0 k1).kill p1 k2
theorem Stream.kill_v0 (st : Stream) (k : Bool) : st.kill 0 k = st := by cases k <;> rfl
theorem exec_brm (s : State) (g : Guard) (k1 k2 : Bool) (es : List (Reg × Bool × Word)) : exec (.brm g k1 k2 es) s =
    .next (s.branch g .multiWay (fun st => brmTarget s.cur.pc s.cur.npc st es) (brmKills k1 k2 es)) := by
  change execBrm g k1 k2 es s = _
  have hk : (fun st : Stream => (st.kill ((es[0]?.map (·.1)).getD 0) k1).kill ((es[1]?.map (·.1)).getD 0) k2) = brmKills k1 k2 es := by
    funext st
    match es with
    | [] => exact (Stream.kill_v0 _ _).trans (Stream.kill_v0 _ _)
    | [(p0, _)] => exact Stream.kill_v0 _ _
    | (p0, _) :: (p1, _) :: _ => rfl
  rw [← hk]
  rfl
theorem brmTarget_cons (pc npc : DWord) (st : Stream) (p : Reg) (neg : Bool) (off : Word) (r : List (Reg × Bool × Word)) :
    brmTarget pc npc st ((p, neg, off) :: r) =
      if (st.rd p).getLsbD 0 = neg then brmTarget pc npc st r else BitVec.ofInt 64 (pc.toNat + 8 * off.toInt) := by
  rw [brmTarget, relTarget_eq pc off (by decide)]
  by_cases h : (st.rd p).getLsbD 0 = neg
  · simp [h]
  · simp [h]

/-! ### The jump table -/

theorem checkUpTo_ok {α : Type} {f : SId → Except Fail α} {h : SId → α} {ids : List SId} (hf : ∀ id ∈ ids, f id = .ok (h id)) :
    checkUpTo f ids = (ids.map fun id => (id, h id), none) := by
  induction ids with
  | nil => rfl
  | cons id r ih => simp only [checkUpTo, hf id List.mem_cons_self, ih fun x hx => hf x (List.mem_cons_of_mem id hx), List.map_cons]
/-- The checks up to a lane that fails. -/
theorem checkUpTo_fails {α : Type} {f : SId → Except Fail α} {h : SId → α} {pre post : List SId} {id : SId} {e : Fail}
    (hf : ∀ id ∈ pre, f id = .ok (h id)) (he : f id = .error e) :
    checkUpTo f (pre ++ id :: post) = (pre.map fun id => (id, h id), some (id, e)) := by
  induction pre with
  | nil => simp only [List.nil_append, checkUpTo, he, List.map_nil]
  | cons x r ih =>
    simp only [List.cons_append, checkUpTo, hf x List.mem_cons_self, ih fun y hy => hf y (List.mem_cons_of_mem x hy), List.map_cons]

/-- Lanes beyond the table read nothing (R173). -/
theorem State.jtabReads_none (s : State) (ids : List SId) :
    s.jtabReads (ids.map fun id => (id, none)) = (.ok (ids.map fun id => (id, 0)), s) := by
  induction ids with
  | nil => rfl
  | cons id r ih => simp only [List.map_cons, State.jtabReads, ih]
/-- The first read that fails decides (R173). -/
theorem State.jtabReads_error {s s1 : State} (pre : List SId) {id : SId} {c : Checked} {e : Cause} (rest : List (SId × Option Checked))
    (h : s.tryLoad id c = (.error e, s1)) :
    s.jtabReads (pre.map (fun id => (id, none)) ++ (id, some c) :: rest) = (.error (id, e, BitVec.ofNat 64 c.va), s1) := by
  induction pre with
  | nil => simp only [List.map_nil, List.nil_append, State.jtabReads, h]
  | cons x r ih => simp only [List.map_cons, List.cons_append, State.jtabReads, ih]

/-- What `jtab` asks of one lane: nothing beyond the table, the check of its read inside. -/
def State.jtabCheck (s : State) (x b : Reg) (len : BitVec 8) (id : SId) : Except Fail (Option Checked) :=
  if decide (((s.stream id).rd x).toNat ≤ len.toNat) then
    match s.checkAt id .load ⟨true, true, false⟩ ((s.stream id).rd64 b + (((s.stream id).rd x).setWidth 64) <<< 2) 4 4 with
    | .error e => .error e
    | .ok c => .ok (some c)
  else .ok none
/-- The word offset of one lane: what it has read inside the table, the default beyond it. -/
def jtabOffset (x : Reg) (len : BitVec 8) (dflt : BitVec 18) (ws : List (SId × Word)) (st : Stream) : Word :=
  if decide ((st.rd x).toNat ≤ len.toNat) then ((ws.find? fun w => w.1 = st.id).map (·.2)).getD 0 else dflt.signExtend 32
/-- A checked read that has to wait. -/
def State.jtabWaits (s : State) (c : SId × Option Checked) : Bool :=
  match c.2 with
  | some k => s.mustWait c.1 k
  | none => false

/-- The end of a `jtab`, from its lanes' checks up to the first that fails. -/
def State.jtabEnd (s : State) (g : Guard) (x : Reg) (k1 : Bool) (b : Reg) (k2 : Bool) (len : BitVec 8) (dflt : BitVec 18)
    (cs : List (SId × Option Checked)) (bad : Option (SId × Fail)) : State :=
  if cs.any s.jtabWaits then s.stalled
  else match s.jtabReads cs, bad with
    | (.error (id, e, a), s1), _ => s1.trap7 g e id a
    | (.ok _, _), some (id, e) => s.failLane g .load (s.stream id) e
    | (.ok ws, s1), none => s1.branch g .multiWay (fun st => relTarget s.cur.pc (jtabOffset x len dflt ws st))
        fun st => (st.kill x k1).kill64 b k2

theorem shift_two (v : DWord) : v <<< 2 = 4 * v := by
  rw [BitVec.shiftLeft_eq_mul_twoPow, BitVec.mul_comm]
  rfl

section
variable {s : State} {g : Guard} {x : Reg} (k1 : Bool) {b : Reg} (k2 : Bool) {len : BitVec 8} {dflt : BitVec 18}

theorem exec_jtab : exec (.jtab g x k1 b k2 len dflt) s = .next (s.jtabEnd g x k1 b k2 len dflt
    (checkUpTo (s.jtabCheck x b len) (s.active g)).1 (checkUpTo (s.jtabCheck x b len) (s.active g)).2) := rfl
theorem State.jtabEnd_reads {cs : List (SId × Option Checked)} {ws : List (SId × Word)} {s1 : State} (hw : cs.any s.jtabWaits = false)
    (hr : s.jtabReads cs = (.ok ws, s1)) : s.jtabEnd g x k1 b k2 len dflt cs none = s1.branch g .multiWay
      (fun st => relTarget s.cur.pc (jtabOffset x len dflt ws st)) fun st => (st.kill x k1).kill64 b k2 := by
  simp only [State.jtabEnd, hw, hr]
  rfl
theorem State.jtabEnd_refused {cs : List (SId × Option Checked)} {ws : List (SId × Word)} {s1 : State} {id : SId} {e : Fail}
    (hw : cs.any s.jtabWaits = false) (hr : s.jtabReads cs = (.ok ws, s1)) :
    s.jtabEnd g x k1 b k2 len dflt cs (some (id, e)) = s.failLane g .load (s.stream id) e := by
  simp only [State.jtabEnd, hw, hr]
  rfl
theorem State.jtabEnd_failed {cs : List (SId × Option Checked)} {s1 : State} {id : SId} {e : Cause} {a : DWord}
    {bad : Option (SId × Fail)} (hw : cs.any s.jtabWaits = false) (hr : s.jtabReads cs = (.error (id, e, a), s1)) :
    s.jtabEnd g x k1 b k2 len dflt cs bad = s1.trap7 g e id a := by
  simp only [State.jtabEnd, hw, hr]
  rfl

theorem State.jtabCheck_outside {id : SId} (h : len.toNat < ((s.stream id).rd x).toNat) : s.jtabCheck x b len id = .ok none := by
  rw [State.jtabCheck, if_neg (by simpa using h)]
theorem State.jtabCheck_ok {id : SId} {c : Checked} (h : ((s.stream id).rd x).toNat ≤ len.toNat)
    (hc : s.checkAt id .load ⟨true, true, false⟩ ((s.stream id).rd64 b + 4 * ((s.stream id).rd x).setWidth 64) 4 4 = .ok c) :
    s.jtabCheck x b len id = .ok (some c) := by
  rw [State.jtabCheck, if_pos (by simpa using h), shift_two, hc]
theorem State.jtabCheck_error {id : SId} {e : Fail} (h : ((s.stream id).rd x).toNat ≤ len.toNat)
    (hc : s.checkAt id .load ⟨true, true, false⟩ ((s.stream id).rd64 b + 4 * ((s.stream id).rd x).setWidth 64) 4 4 = .error e) :
    s.jtabCheck x b len id = .error e := by
  rw [State.jtabCheck, if_pos (by simpa using h), shift_two, hc]
theorem State.none_waits (ids : List SId) : (ids.map fun id => (id, (none : Option Checked))).any s.jtabWaits = false := by
  simp [State.jtabWaits]

/-- Every lane beyond the table takes the default offset (R173). -/
theorem exec_jtab_default (hs : ∀ st ∈ s.streams, st.id ∈ s.cur.lanes → guardHolds g st = true → len.toNat < (st.rd x).toNat)
    (ha : ∀ id ∈ s.active g, len.toNat < ((s.stream id).rd x).toNat)
    (ht : targetTrap (BitVec.ofInt 64 (s.cur.pc.toNat + 8 * dflt.toInt)) = none) :
    exec (.jtab g x k1 b k2 len dflt) s = .next (s.jumped g .multiWay
      (fun st => if guardHolds g st then BitVec.ofInt 64 (s.cur.pc.toNat + 8 * dflt.toInt) else s.cur.npc)
      fun st => (st.kill x k1).kill64 b k2) := by
  have hoff : ∀ st : Stream, len.toNat < (st.rd x).toNat → ∀ ws,
      relTarget s.cur.pc (jtabOffset x len dflt ws st) = BitVec.ofInt 64 (s.cur.pc.toNat + 8 * dflt.toInt) := fun st h ws => by
    rw [jtabOffset, if_neg (by simpa using h), relTarget_signExtend _ _ (by decide)]
  rw [exec_jtab, checkUpTo_ok (h := fun _ => none) fun id hid => State.jtabCheck_outside (ha id hid),
    State.jtabEnd_reads k1 k2 (State.none_waits _) (s.jtabReads_none _),
    State.branch_jumps fun id hid => by rw [hoff _ (ha id hid)]; exact ht]
  refine congrArg Host.Outcome.next (State.jumped_congr _ fun st hst hg => ⟨?_, rfl⟩)
  rw [if_pos hg]
  rcases hst.2 with hm | hm
  · exact hoff st (hs st hm hst.1 hg) _
  · rw [hm] at hg ⊢
    exact hoff _ (ha _ (State.mem_active.mpr ⟨hst.1, hg⟩)) _

/-- One lane inside the table takes the offset it has read (R173). -/
theorem exec_jtab_one {id : SId} {c : Checked} {w : Word} {s1 : State} (hl : s.cur.lanes = [id])
    (hg : guardHolds g (s.stream id) = true) (hx : ((s.stream id).rd x).toNat ≤ len.toNat)
    (hc : s.checkAt id .load ⟨true, true, false⟩ ((s.stream id).rd64 b + 4 * ((s.stream id).rd x).setWidth 64) 4 4 = .ok c)
    (hw : s.mustWait id c = false) (hr : s.tryLoad id c = (.ok w, s1)) (hcur : s1.cur = s.cur) (hst : s1.stream id = s.stream id)
    (ht : targetTrap (BitVec.ofInt 64 (s.cur.pc.toNat + 8 * w.toInt)) = none) :
    exec (.jtab g x k1 b k2 len dflt) s = .next (s1.jumped g .multiWay (fun st =>
        BitVec.ofInt 64 (s.cur.pc.toNat + 8 * (if (st.rd x).toNat ≤ len.toNat then w.toInt else dflt.toInt)))
      fun st => (st.kill x k1).kill64 b k2) := by
  have hact : s.active g = [id] := by rw [State.active, hl, List.filter_singleton, hg]; rfl
  have hact1 : s1.active g = [id] := by rw [State.active, hcur, hl, List.filter_singleton, hst, hg]; rfl
  have hoff : ∀ st : Stream, st.id = id → relTarget s.cur.pc (jtabOffset x len dflt [(id, w)] st) =
      BitVec.ofInt 64 (s.cur.pc.toNat + 8 * (if (st.rd x).toNat ≤ len.toNat then w.toInt else dflt.toInt)) := by
    intro st hid
    by_cases hi : (st.rd x).toNat ≤ len.toNat
    · rw [jtabOffset, if_pos (by simpa using hi), if_pos hi, relTarget_eq _ _ (by decide)]
      simp [hid]
    · rw [jtabOffset, if_neg (by simpa using hi), if_neg hi, relTarget_signExtend _ _ (by decide)]
  have hcheck : checkUpTo (s.jtabCheck x b len) [id] = ([(id, some c)], none) :=
    checkUpTo_ok (h := fun _ => some c) fun id' hid => by rw [List.mem_singleton.mp hid]; exact State.jtabCheck_ok hx hc
  have hread : s.jtabReads [(id, some c)] = (.ok [(id, w)], s1) := by simp only [State.jtabReads, hr]
  rw [exec_jtab, hact, hcheck, State.jtabEnd_reads k1 k2 (by simp [State.jtabWaits, hw]) hread,
    State.branch_jumps fun id' hid => ?_]
  · refine congrArg Host.Outcome.next (State.jumped_congr _ fun st hi _ => ⟨hoff st ?_, rfl⟩)
    have := hi.1
    rwa [hcur, hl, List.mem_singleton] at this
  · rw [hact1, List.mem_singleton] at hid
    rw [hid, hoff _ (s1.stream_id id), hst, if_pos hx]
    exact ht

section
variable {pre post : List SId} {id : SId} (ha : s.active g = pre ++ id :: post)
  (hpre : ∀ p ∈ pre, len.toNat < ((s.stream p).rd x).toNat) (hx : ((s.stream id).rd x).toNat ≤ len.toNat)
include ha hpre hx

/-- The first lane inside the table fails its check (R173). -/
theorem exec_jtab_refused {e : Fail}
    (hc : s.checkAt id .load ⟨true, true, false⟩ ((s.stream id).rd64 b + 4 * ((s.stream id).rd x).setWidth 64) 4 4 = .error e) :
    exec (.jtab g x k1 b k2 len dflt) s = .next (s.failLane g .load (s.stream id) e) := by
  rw [exec_jtab, ha, checkUpTo_fails (h := fun _ => none) (fun p hp => State.jtabCheck_outside (hpre p hp)) (State.jtabCheck_error hx hc),
    State.jtabEnd_refused k1 k2 (State.none_waits _) (s.jtabReads_none _)]

/-- The only lane inside the table fails its read (R173). -/
theorem exec_jtab_failed (hpost : ∀ p ∈ post, len.toNat < ((s.stream p).rd x).toNat) {c : Checked} {e : Cause} {s1 : State}
    (hc : s.checkAt id .load ⟨true, true, false⟩ ((s.stream id).rd64 b + 4 * ((s.stream id).rd x).setWidth 64) 4 4 = .ok c)
    (hw : s.mustWait id c = false) (hr : s.tryLoad id c = (.error e, s1)) :
    exec (.jtab g x k1 b k2 len dflt) s = .next (s1.trap7 g e id (BitVec.ofNat 64 c.va)) := by
  have hmem : ∀ p ∈ pre ++ id :: post, p ≠ id → len.toNat < ((s.stream p).rd x).toNat := fun p hp hne => by
    rcases List.mem_append.mp hp with hp | hp
    · exact hpre p hp
    · exact hpost p (List.mem_of_ne_of_mem hne hp)
  have hnpre : id ∉ pre := fun h => absurd (hpre id h) (Nat.not_lt.mpr hx)
  have hnpost : id ∉ post := fun h => absurd (hpost id h) (Nat.not_lt.mpr hx)
  have hck : checkUpTo (s.jtabCheck x b len) (pre ++ id :: post) =
      (pre.map (fun p => (p, none)) ++ (id, some c) :: post.map fun p => (p, none), none) := by
    rw [checkUpTo_ok (h := fun p => if p = id then some c else none) fun p hp => ?_]
    · rw [List.map_append, List.map_cons, if_pos rfl,
        List.map_congr_left fun p hp => by rw [if_neg fun e : p = id => hnpre (e ▸ hp)],
        List.map_congr_left (l := post) fun p hp => by rw [if_neg fun e : p = id => hnpost (e ▸ hp)]]
    · by_cases he : p = id
      · rw [he, if_pos rfl]
        exact State.jtabCheck_ok hx hc
      · rw [if_neg he]
        exact State.jtabCheck_outside (hmem p hp he)
  rw [exec_jtab, ha, hck, State.jtabEnd_failed k1 k2 ?_ (s.jtabReads_error pre _ hr)]
  rw [List.any_append, State.none_waits, List.any_cons, State.none_waits]
  simp [State.jtabWaits, hw]
end
end

section
variable {s : State} {g : Guard} {c : Reg} {off : BitVec 26}

theorem loopTarget_takes {npc tgt : DWord} {st : Stream} (h : 1 < (st.rd c).toNat) : loopTarget npc tgt c st = tgt :=
  if_neg (Nat.not_le.mpr h)
theorem exec_loop_jumps (ht : targetTrap (relTarget s.cur.pc off) = none) : exec (.loop g c off) s =
    .next (s.jumped g .twoWay (loopTarget s.cur.npc (relTarget s.cur.pc off) c) (loopCount c)) := by
  rw [exec_loop, State.branchOf_jumps fun id _ h => by rw [loopTarget_takes (of_decide_eq_true h)]; exact ht]
theorem exec_loop_ends (ha : ∀ id ∈ s.active g, ((s.stream id).rd c).toNat ≤ 1)
    (hs : ∀ st ∈ s.streams, st.id ∈ s.cur.lanes → guardHolds g st = true → (st.rd c).toNat ≤ 1) :
    exec (.loop g c off) s = .next (s.jumped g .twoWay (fun _ => s.cur.npc) fun st => st.wr c 0) := by
  rw [exec_loop, State.branchOf_jumps fun id hid h => absurd (ha id hid) (Nat.not_le.mpr (of_decide_eq_true h))]
  refine congrArg Host.Outcome.next (State.jumped_congr _ fun st hst hg => ?_)
  have hle : (st.rd c).toNat ≤ 1 := by
    rcases hst.2 with hm | hm
    · exact hs st hm hst.1 hg
    · rw [hm] at hg ⊢
      exact ha _ (State.mem_active.mpr ⟨hst.1, hg⟩)
  exact ⟨if_pos hle, by rw [loopCount, if_pos hle]⟩
theorem exec_loop_traps {k : Cause} {fail : SId} (ht : targetTrap (relTarget s.cur.pc off) = some k)
    (hf : (s.active g).find? (fun id => 1 < ((s.stream id).rd c).toNat) = some fail) :
    exec (.loop g c off) s = .next (s.trap7 g k fail (relTarget s.cur.pc off)) := by
  have hlt : 1 < ((s.stream fail).rd c).toNat := by simpa using List.find?_some hf
  have htgt := loopTarget_takes (npc := s.cur.npc) (tgt := relTarget s.cur.pc off) hlt
  rw [exec_loop, State.branchOf_traps (fail := fail) ?_ (by rw [htgt]; exact ht), htgt]
  rw [← hf]
  refine find?_congr_mem fun id _ => ?_
  by_cases h : 1 < ((s.stream id).rd c).toNat
  · simp [h, loopTarget_takes h, ht]
  · simp [h]
end

/-- Settles O22: `branchOf` with its targets passing and failing, the forms over it, and `jtab` by the lanes inside the table. -/
theorem branchesAndLinks : Obligations.BranchesAndLinks := by
  unfold Obligations.BranchesAndLinks
  refine ⟨fun g off s => ?_, fun g s1 k1 s => ⟨fun h => ?_, fun c fail hf ht => ?_, fun k2 es c fail hf ht => ?_, fun k2 es h => ?_,
    fun pc npc st p neg off r => ⟨rfl, brmTarget_cons pc npc st p neg off r⟩⟩,
    fun g x k1 b k2 len dflt s => ⟨exec_jtab_default k1 k2, fun id c w s1 hl hg hx hc hw hr hcur hst ht =>
      exec_jtab_one k1 k2 hl hg hx hc hw hr hcur hst ht, fun pre post id ha hpre hx =>
      ⟨fun e hc => exec_jtab_refused k1 k2 ha hpre hx hc, fun hpost c e s1 hc hw hr =>
        exec_jtab_failed k1 k2 ha hpre hx hpost hc hw hr⟩⟩⟩
  · intro tgt cls
    have htgt : tgt = relTarget s.cur.pc off := (relTarget_eq s.cur.pc off (by decide)).symm
    clear_value tgt
    subst htgt
    refine ⟨fun ht => ⟨?_, fun l => ?_, fun c => ?_⟩, fun c ha hs => ?_,
      fun c k fail ht hf => ?_, fun c low rest ht hact => ?_⟩
    · rw [exec_bra, State.branch_jumps (tgt := fun _ => relTarget s.cur.pc off) fun _ _ => ht]
      rfl
    · rw [exec_call, State.branch_jumps (tgt := fun _ => relTarget s.cur.pc off) fun _ _ => ht]
      rfl
    · exact exec_loop_jumps ht
    · exact exec_loop_ends ha hs
    · exact exec_loop_traps ht hf
    · have hf : ((s.active g).find? fun _ => (targetTrap (relTarget s.cur.pc off)).isSome) = some low := by simp [hact, ht]
      exact ⟨by rw [exec_bra, State.branch_traps (tgt := fun _ => relTarget s.cur.pc off) hf ht],
        fun l => by rw [exec_call, State.branch_traps (tgt := fun _ => relTarget s.cur.pc off) hf ht]⟩
  · have hj : ∀ f, s.branch g .multiWay (fun st => st.rd64 s1) f = s.jumped g .multiWay (fun st => st.rd64 s1) f :=
      fun f => State.branch_jumps (tgt := fun st => st.rd64 s1) h
    exact ⟨by rw [exec_jmp, hj], by rw [exec_ret, hj], fun l => by rw [exec_callr, hj]⟩
  · have hj : ∀ f, s.branch g .multiWay (fun st => st.rd64 s1) f = s.trap7 g c fail ((s.stream fail).rd64 s1) :=
      fun f => State.branch_traps (tgt := fun st => st.rd64 s1) hf ht
    exact ⟨by rw [exec_jmp, hj], by rw [exec_ret, hj], fun l => by rw [exec_callr, hj]⟩
  · rw [exec_brm, State.branch_traps (tgt := fun st => brmTarget s.cur.pc s.cur.npc st es) hf ht]
  · rw [exec_brm, State.branch_jumps (tgt := fun st => brmTarget s.cur.pc s.cur.npc st es) h]
    rfl

end Sys2Proof.Machine
end
section
/-! PROOFS. `wait`, `bhint`, `yield`, `nsleep` and the ends of their waits (R132, R133, R136 to R138). -/
namespace Sys2Proof.Machine

/-! ### One lane after another -/

section
variable {s : State} {f : Stream → Stream} (hf : ∀ st : Stream, (f st).id = st.id)
include hf

theorem State.onLanes_cons {a : SId} {ids : List SId} (ha : a ∉ ids) : (s.onLane a f).onLanes ids f = s.onLanes (a :: ids) f := by
  refine congrArg (fun sts => { s with streams := sts }) ?_
  rw [State.onLane, State.onLanes, List.map_map]
  refine List.map_congr_left fun st _ => ?_
  rw [Function.comp_apply]
  by_cases h : st.id = a
  · rw [if_pos (List.mem_singleton.mpr h), hf, h, if_neg ha, if_pos List.mem_cons_self]
  · rw [if_neg (mt List.mem_singleton.mp h)]
    exact if_congr (by rw [List.mem_cons, or_iff_right h]) rfl rfl

/-- An instruction that does the same in each of some lanes, one after another. -/
theorem State.foldl_onLane {step : State → SId → State} {ids : List SId} (hn : ids.Nodup)
    (h : ∀ id ∈ ids, ∀ s' : State, s'.cur = s.cur → s'.stream id = s.stream id → step s' id = s'.onLane id f) :
    ids.foldl step s = s.onLanes ids f := by
  induction ids generalizing s with
  | nil =>
    refine congrArg (fun sts => { s with streams := sts }) ?_
    simp
  | cons a r ih =>
    obtain ⟨ha, hr⟩ := List.nodup_cons.mp hn
    rw [List.foldl_cons, h a List.mem_cons_self s rfl rfl, ih hr fun id hid s' hc hs => ?_, State.onLanes_cons hf ha]
    refine h id (List.mem_cons_of_mem a hid) s' hc (hs.trans (s.onLanes_unlisted hf ?_))
    rw [List.mem_singleton]
    exact fun e => ha (e ▸ hid)
end

/-! ### The one lane of a group -/

section
variable {s : State} {g : Guard} {id : SId} (hl : s.cur.lanes = [id]) (hg : guardHolds g (s.stream id) = true)
include hl hg

theorem State.active_one : s.active g = [id] := by rw [State.active, hl, List.filter_singleton, hg]; rfl
theorem State.skipLanes_one_stream : (s.skipLanes g).stream id = s.stream id :=
  s.skipLanes_active (by rw [State.active_one hl hg]; exact List.mem_singleton_self id)
omit hg in
theorem State.skipLanes_one_onlyStreams : s.OnlyStreams (s.skipLanes g) [id] := hl ▸ s.skipLanes_onlyStreams g
end

/-- A change of one stream that exists. -/
theorem State.onLane_only (s : State) {id : SId} {f : Stream → Stream} (hf : ∀ st : Stream, (f st).id = st.id) (hp : s.Present [id]) :
    s.OnlyStreams (s.onLane id f) [id] ∧ (s.onLane id f).stream id = f (s.stream id) :=
  ⟨s.onLanes_onlyStreams hf _, s.onLanes_listed hf (List.mem_singleton_self id) (hp id (List.mem_singleton_self id))⟩

theorem next_of_onLane {i : Instr} {s : State} {id : SId} {f : Stream → Stream} {st' : Stream} (he : exec i s = .next (s.onLane id f))
    (hf : ∀ st : Stream, (f st).id = st.id) (hp : s.Present [id]) (h : f (s.stream id) = st') :
    ∃ t, exec i s = .next t ∧ s.OnlyStreams t [id] ∧ t.stream id = st' :=
  ⟨_, he, (s.onLane_only hf hp).1, (s.onLane_only hf hp).2.trans h⟩

/-! ### Delivery of an error (R132, R402) -/

theorem trapInfo_deferred {k : Nat} (hk : k < 4) (code : BitVec 16) :
    trapInfo true k 0 code = BitVec.ofNat 32 (2 ^ 31 + 2 ^ 29 * k + code.toNat) := by
  have hc := code.isLt
  have hb : ∀ k < 4, (bit true ++ BitVec.ofNat 2 k ++ bit false ++ BitVec.ofNat 12 0 : BitVec 16).toNat = 2 ^ 15 + 2 ^ 13 * k := by decide
  apply BitVec.eq_of_toNat_eq
  rw [trapInfo, BitVec.toNat_append, hb k hk, ← Nat.shiftLeft_add_eq_or_of_lt hc, Nat.shiftLeft_eq, BitVec.toNat_ofNat]
  omega

/-- The error of the lowest covered slot. -/
theorem Stream.firstErr_eq {st : Stream} {covers : Nat → Bool} {k : Nat} {e : Err} (hk : k < 4) (hc : covers k = true)
    (he : st.slots.get k = some e) (hlow : ∀ j, j < k → covers j = true → st.slots.get j = none) :
    st.firstErr covers = some (k, e) := by
  have hnone : ∀ j, j < k → (if covers j then (st.slots.get j).map fun e => (j, e) else none) = none := fun j hj => by
    by_cases h : covers j = true
    · rw [if_pos h, hlow j hj h]; rfl
    · rw [if_neg h]
  have hsome : (if covers k then (st.slots.get k).map fun e => (k, e) else none) = some (k, e) := by rw [if_pos hc, he]; rfl
  rw [Stream.firstErr, show List.range 4 = List.range k ++ k :: List.range' (k + 1) (3 - k) by
    interval_cases k <;> rfl, List.findSome?_append, List.findSome?_cons_of_isSome (by rw [hsome]; rfl), hsome,
    List.findSome?_eq_none_iff.mpr fun j hj => hnone j (List.mem_range.mp hj)]
  rfl
theorem Stream.firstErr_none {st : Stream} {covers : Nat → Bool} (h : ∀ k, k < 4 → covers k = true → st.slots.get k = none) :
    st.firstErr covers = none := by
  rw [Stream.firstErr, List.findSome?_eq_none_iff]
  intro k hk
  by_cases hc : covers k = true
  · rw [if_pos hc, h k (List.mem_range.mp hk) hc]; rfl
  · rw [if_neg hc]

/-- A thread with a handler takes an error of its slot `k`, which empties (R132, R402, R403). -/
theorem State.deliver_enters (s : State) {id : SId} {k : Nat} (e : Err) (hk : k < 4) (hp : s.Present [id])
    (hc : (s.stream id).canTrap = true) :
    s.OnlyStreams (s.deliver id k e) [id] ∧ (s.deliver id k e).stream id = { s.stream id with
      slots := (s.stream id).slots.set k none
      pc := (s.stream id).trap.vec, park := .none, stall := none, short := none, firm := false, room := none, block := []
      outer := (s.stream id).path
      trap := ⟨e.cause, s.cur.pc, s.cur.npc, 0, BitVec.ofNat 32 (2 ^ 31 + 2 ^ 29 * k + e.code.toNat), true, (s.stream id).trap.vec⟩ } := by
  obtain ⟨honly, hst⟩ := s.onLane_only (f := fun st => { st with slots := st.slots.set k none }) (fun _ => rfl) hp
  have hcan : ∀ id' ∈ [id], ((s.onLane id fun st => { st with slots := st.slots.set k none }).stream id').canTrap = true := by
    intro id' hid
    rw [List.mem_singleton.mp hid, hst]
    exact hc
  have hp' : (s.onLane id fun st => { st with slots := st.slots.set k none }).Present [id] := s.onLanes_present (fun _ => by rfl) hp
  rw [State.deliver, State.takeTrap_enters _ _ _ _ _ _ _ hcan]
  obtain ⟨honly', hst'⟩ := State.onLane_only (s.onLane id fun st => { st with slots := st.slots.set k none })
    (fun st => enterIf_id st e.cause s.cur.pc s.cur.npc 0 (trapInfo true k 0 e.code)) hp'
  refine ⟨honly.trans honly', hst'.trans ?_⟩
  rw [if_pos (hcan id (List.mem_singleton_self id)), hst, trapInfo_deferred hk]
  rfl

/-! ### wait (R133) -/

theorem exec_wait (g : Guard) (ldt stt cpt tlt : BitVec 8) (s : State) : exec (.wait g ldt stt cpt tlt) s =
    .next ((s.active g).foldl (fun s id => s.waitLane ldt stt cpt tlt id) (s.skipLanes g)) := rfl
theorem Stream.under_iff {st : Stream} {thr : Nat → Nat} :
    st.under thr = true ↔ ∀ k, k < 4 → thr k = 255 ∨ st.cnt.get k ≤ thr k := by
  simp only [Stream.under, List.all_eq_true, List.mem_range, Bool.or_eq_true, decide_eq_true_iff]
theorem threshold_eq (ldt stt cpt tlt : BitVec 8) (k : Nat) :
    threshold ldt stt cpt tlt k = (match k with | 0 => ldt | 1 => stt | 2 => cpt | _ => tlt).toNat := by
  match k with
  | 0 | 1 | 2 | _ + 3 => rfl

section
variable {s : State} {id : SId} {ldt stt cpt tlt : BitVec 8}

theorem State.waitLane_goes (hu : (s.stream id).under (threshold ldt stt cpt tlt) = true)
    (he : ∀ k, k < 4 → threshold ldt stt cpt tlt k = 255 ∨ (s.stream id).slots.get k = none) :
    s.waitLane ldt stt cpt tlt id = s.onLane id fun st => st.goto s.cur.npc := by
  have hf : (s.stream id).firstErr (fun k => decide (threshold ldt stt cpt tlt k ≠ 255)) = none :=
    Stream.firstErr_none fun k hk hc => (he k hk).resolve_left (of_decide_eq_true hc)
  simp only [State.waitLane, hu, hf]
  rfl
theorem State.waitLane_parks (hu : (s.stream id).under (threshold ldt stt cpt tlt) = false) :
    s.waitLane ldt stt cpt tlt id = s.onLane id fun st => st.parkAt (.counters ldt stt cpt tlt) := by
  simp only [State.waitLane, hu]
  rfl
theorem State.waitLane_delivers {k : Nat} {e : Err} (hu : (s.stream id).under (threshold ldt stt cpt tlt) = true) (hk : k < 4)
    (hc : threshold ldt stt cpt tlt k ≠ 255) (he : (s.stream id).slots.get k = some e)
    (hlow : ∀ j, j < k → threshold ldt stt cpt tlt j = 255 ∨ (s.stream id).slots.get j = none) :
    s.waitLane ldt stt cpt tlt id = s.deliver id k e := by
  have hf : (s.stream id).firstErr (fun k => decide (threshold ldt stt cpt tlt k ≠ 255)) = some (k, e) :=
    Stream.firstErr_eq hk (decide_eq_true hc) he fun j hj h => (hlow j hj).resolve_left (of_decide_eq_true h)
  simp only [State.waitLane, hu, hf]
  rfl
end

/-! ### nsleep (R137) -/

/-- The duration of `nsleep` in a lane. -/
def sleepTime (src : Opnd) (st : Stream) : Nat := min (match src with | .imm v => v.toNat | .reg r _ => (st.rd r).toNat) 1000000
theorem exec_nsleep {g : Guard} {src : Opnd} {s : State} (hp : plainRegs (opndRegs src)) : exec (.nsleep g src) s =
    .next (s.onLanes s.cur.lanes fun st => if guardHolds g st then
      (killOpnd st src).sleep s.gts (sleepTime src st) s.cur.pc s.cur.npc else st.goto s.cur.npc) := by
  change execNsleep g src s = _
  cases src with
  | imm v =>
    have h : sleepFor (v.setWidth 32) = min v.toNat 1000000 := by
      rw [sleepFor, BitVec.toNat_setWidth_of_le (by decide)]
    simp only [execNsleep, h]
    rfl
  | reg r k =>
    have hr : Reg.isPort r = false := by simpa [opndRegs] using hp
    simp only [execNsleep, hr]
    rfl

theorem Stream.passed_eq (st : Stream) : st.passed = st.goto (st.pc + 8) := rfl

/-- Settles O23: each lane of `wait` by its counters and slots, and the streams of the other instructions and of the ends of waits. -/
theorem waitHintYieldAndSleep : Obligations.WaitHintYieldAndSleep := by
  unfold Obligations.WaitHintYieldAndSleep
  refine ⟨fun g ldt stt cpt tlt s hnd hp => ?_, fun _ _ _ => rfl, fun _ _ => rfl, fun g src s hsrc => ?_, fun sid w s hp h => ?_,
    fun sid till num s hp h => ?_, fun sid s hp h1 h2 h3 h4 => ?_⟩
  · intro thr low
    have hthr : thr = threshold ldt stt cpt tlt := funext fun k => (threshold_eq ldt stt cpt tlt k).symm
    have hunder : ∀ st, low st ↔ st.under (threshold ldt stt cpt tlt) = true := fun st => by rw [Stream.under_iff, ← hthr]
    clear_value low thr
    subst hthr
    simp only [hunder]
    refine ⟨fun h => ?_, fun id hl hg hlow => ?_, fun id k e hl hg hlow hk hc he hj hcan => ?_⟩
    · refine ⟨_, exec_wait g ldt stt cpt tlt s, ?_⟩
      have hgo : (s.active g).foldl (fun s id => s.waitLane ldt stt cpt tlt id) (s.skipLanes g) =
          (s.skipLanes g).onLanes (s.active g) fun st => st.goto s.cur.npc := by
        refine State.foldl_onLane (fun _ => by rfl) (hnd.filter _) fun id hid s' hcur hst => ?_
        rw [s.skipLanes_active hid] at hst
        rw [State.waitLane_goes (hst ▸ (h id hid).1) (hst ▸ (h id hid).2), hcur]
        rfl
      obtain ⟨-, hoff, -⟩ := s.skipLanes_lanes g hp
      have hp' : (s.skipLanes g).Present s.cur.lanes := s.onLanes_present (fun st => by split <;> rfl) hp
      rw [hgo]
      refine ⟨(s.skipLanes_onlyStreams g).trans ((State.onLanes_onlyStreams _ (fun _ => by rfl) _).mono (s.active_subset g)),
        fun id hid => ?_⟩
      by_cases ha : id ∈ s.active g
      · rw [State.onLanes_listed _ (fun _ => by rfl) ha (hp' id hid), s.skipLanes_active ha]
      · rw [State.onLanes_unlisted _ (fun _ => by rfl) ha, hoff id hid ha]
    · have hst := State.skipLanes_one_stream hl hg
      have hp' : (s.skipLanes g).Present [id] := s.onLanes_present (fun st => by split <;> rfl) (hl ▸ hp)
      obtain ⟨honly, hpark⟩ := (s.skipLanes g).onLane_only (f := fun st => st.parkAt (.counters ldt stt cpt tlt)) (fun _ => rfl) hp'
      refine ⟨_, exec_wait g ldt stt cpt tlt s, ?_⟩
      rw [State.active_one hl hg, List.foldl_cons, List.foldl_nil, State.waitLane_parks (by rw [hst]; simpa using hlow)]
      exact ⟨(State.skipLanes_one_onlyStreams hl).trans honly, by rw [hpark, hst]⟩
    · have hst := State.skipLanes_one_stream hl hg
      have hp' : (s.skipLanes g).Present [id] := s.onLanes_present (fun st => by split <;> rfl) (hl ▸ hp)
      refine ⟨_, exec_wait g ldt stt cpt tlt s, ?_⟩
      rw [State.active_one hl hg, List.foldl_cons, List.foldl_nil,
        State.waitLane_delivers (k := k) (e := e) (by rw [hst]; exact hlow) hk hc (by rw [hst]; exact he) (by rw [hst]; exact hj)]
      obtain ⟨honly, hent⟩ := (s.skipLanes g).deliver_enters e hk hp' (by rw [hst]; exact hcan)
      exact ⟨(State.skipLanes_one_onlyStreams hl).trans honly, by rw [hent, hst]; rfl⟩
  · exact exec_nsleep hsrc
  · refine next_of_onLane rfl (fun st => ?_) hp ?_
    · split <;> [(split <;> rfl); rfl]
    · simp only [h]
      rfl
  · refine next_of_onLane rfl (fun st => ?_) hp ?_
    · split <;> [(split <;> rfl); rfl]
    · by_cases ht : till ≤ s.clock.cycles
      · simp only [h, if_pos ht]
      · simp only [h, if_neg ht]
        rw [← h]
  · refine next_of_onLane rfl (fun st => ?_) hp ?_
    · split <;> rfl
    · exact if_pos (by simp [h1, h2, h3, h4])

end Sys2Proof.Machine
end
section
/-! PROOFS. `exit` and the join slots (R139, R174 to R180). -/
namespace Sys2Proof.Machine

/-! ### Teams and their slots -/

theorem State.team_of {s : State} {k : Nat} {tm : Team} (h : s.team? k = some tm) : s.team k = tm := by rw [State.team, h]; rfl
theorem State.team?_tcx {s : State} {k : Nat} {tm : Team} (h : s.team? k = some tm) : tm.tcx = k := by
  simpa using List.find?_some h
theorem State.curTeam_of {s : State} {k : Nat} {tm : Team} (hh : s.cur.lanes.head?.map SId.tcx = some k) (h : s.team? k = some tm) :
    s.curTeam = tm := by
  rw [State.curTeam, hh]
  exact State.team_of h

/-- A team with one join slot written. -/
def Team.withSlot (tm : Team) (grp n : Nat) (j : JSlot) : Team := { tm with joins := sset blankSlot tm.joins (16 * grp + n) j }
theorem Team.withSlot_slot (tm : Team) (grp n : Nat) (j : JSlot) : (tm.withSlot grp n j).slot grp n = j := sget_sset_same _ _ _ _
theorem Team.withSlot_other (tm : Team) {grp n n' : Nat} (j : JSlot) (h : n' ≠ n) :
    (tm.withSlot grp n j).slot grp n' = tm.slot grp n' := sget_sset_other _ _ _ (by omega)
theorem State.setSlot_team? {s : State} {k : Nat} {tm : Team} (h : s.team? k = some tm) (grp n : Nat) (j : JSlot) :
    (s.setSlot k grp n j).team? k = some (tm.withSlot grp n j) := by
  rw [State.setSlot, s.onTeam_team? k (fun _ => by rfl), h]
  rfl

/-! ### The streams that join slots let go -/

/-- A stream, or the same let go from a join slot. -/
def Stream.Freed (st st' : Stream) : Prop :=
  st' = st ∨ ∃ n, st.park = .join n false ∧ st' = { st with park := .join n true, path := st'.path }
theorem Stream.Freed.trans {a b c : Stream} (h : a.Freed b) (h' : b.Freed c) : a.Freed c := by
  rcases h with rfl | ⟨n, hp, hb⟩
  · exact h'
  · rcases h' with rfl | ⟨m, hm, -⟩
    · exact .inr ⟨n, hp, hb⟩
    · rw [hb] at hm
      cases hm
theorem Stream.Freed.id_eq {a b : Stream} (h : a.Freed b) : b.id = a.id := by
  rcases h with rfl | ⟨n, -, hb⟩
  · rfl
  · rw [hb]
/-- A stream that is not parked at a join slot stays as it was. -/
theorem Stream.Freed.eq_of_park {a b : Stream} (h : a.Freed b) (hp : ∀ n, a.park ≠ .join n false) : b = a := by
  rcases h with rfl | ⟨n, hn, -⟩
  · rfl
  · exact absurd hn (hp n)

/-- Nothing differs but teams, grid barriers and streams let go from join slots. -/
def State.FreesJoiners (s t : State) : Prop :=
  ∃ f : Stream → Stream, (∀ st : Stream, st.Freed (f st)) ∧
    t = { s with streams := s.streams.map f, teams := t.teams, gbars := t.gbars }
namespace State.FreesJoiners
variable {s t u : State}

theorem of_teams (h : t = { s with teams := t.teams, gbars := t.gbars }) : s.FreesJoiners t :=
  ⟨fun st => st, fun _ => .inl rfl, by rw [List.map_id' s.streams]; exact h⟩
theorem refl (s : State) : s.FreesJoiners s := of_teams rfl
theorem trans (h : s.FreesJoiners t) (h' : t.FreesJoiners u) : s.FreesJoiners u := by
  obtain ⟨f, hf, ht⟩ := h
  obtain ⟨f', hf', hu⟩ := h'
  refine ⟨fun st => f' (f st), fun st => (hf st).trans (hf' _), ?_⟩
  rw [hu, ht]
  simp only [List.map_map, Function.comp_def]
theorem stream? (h : s.FreesJoiners t) (id : SId) : ∃ f : Stream → Stream, (∀ st : Stream, st.Freed (f st)) ∧
    t.stream? id = (s.stream? id).map f := by
  obtain ⟨f, hf, ht⟩ := h
  exact ⟨f, hf, by rw [ht]; exact s.stream?_map f (fun st => (hf st).id_eq) id⟩
theorem present (h : s.FreesJoiners t) {ids : List SId} (hp : s.Present ids) : t.Present ids := fun id hid => by
  obtain ⟨f, -, hs⟩ := h.stream? id
  rw [hs, Option.isSome_map]
  exact hp id hid
theorem stream (h : s.FreesJoiners t) {id : SId} (hp : s.Present [id]) : (s.stream id).Freed (t.stream id) := by
  obtain ⟨f, hf, hs⟩ := h.stream? id
  obtain ⟨st, hst⟩ := Option.isSome_iff_exists.mp (hp id (List.mem_singleton_self id))
  simp only [State.stream, hs, hst, Option.map_some, Option.getD_some]
  exact hf st
end State.FreesJoiners

theorem State.freeJoiners_frees (s : State) (tm : Team) (grp n : Nat) (m : DWord) : s.FreesJoiners (s.freeJoiners tm grp n m) := by
  refine ⟨fun st => if st.inGroup tm grp && st.park == .join n false && (m &&& tm.bit st.id) != 0 then
    { st with park := .join n true, path := joinPath s.issues n } else st, fun st => ?_, rfl⟩
  dsimp only
  split
  · next h =>
    simp only [Bool.and_eq_true, beq_iff_eq] at h
    exact .inr ⟨n, h.1.2, rfl⟩
  · exact .inl rfl
theorem State.setSlot_frees (s : State) (k grp n : Nat) (j : JSlot) : s.FreesJoiners (s.setSlot k grp n j) := .of_teams rfl
theorem State.releaseTest_frees (s : State) (k grp n : Nat) : s.FreesJoiners (s.releaseTest k grp n) := by
  unfold State.releaseTest
  dsimp only
  split
  · exact (s.freeJoiners_frees _ _ _ _).trans (State.setSlot_frees _ _ _ _ _)
  · exact .refl s
theorem State.leaveSlot_frees (s : State) (id : SId) (n : Nat) : s.FreesJoiners (s.leaveSlot id n) := by
  unfold State.leaveSlot
  dsimp only
  split
  · exact .refl s
  · exact (s.setSlot_frees _ _ _ _).trans (State.releaseTest_frees _ _ _ _)
theorem State.foldl_frees {α : Type} {step : State → α → State} (h : ∀ (s : State) (a : α), s.FreesJoiners (step s a)) (l : List α) (s : State) :
    s.FreesJoiners (l.foldl step s) := by
  induction l generalizing s with
  | nil => exact .refl s
  | cons a r ih => exact (h s a).trans (ih _)
theorem State.reevaluate_frees (s : State) (k : Nat) : s.FreesJoiners (s.reevaluate k) := .of_teams rfl
/-- The slots that a stream leaves as it ends. -/
def State.leaveAll (s : State) (id : SId) : State :=
  (List.range 16).foldl (fun s n => if id.kind = .lane then s.leaveSlot id n else s) s
theorem State.leaveAll_frees (s : State) (id : SId) : s.FreesJoiners (s.leaveAll id) :=
  State.foldl_frees (fun s n => by split <;> [exact s.leaveSlot_frees id n; exact .refl s]) _ s

/-! ### exit (R174) -/

/-- A stream that has exited. -/
def Stream.ended (st : Stream) : Stream := { st.free with exited := true }
@[simp] theorem Stream.ended_id (st : Stream) : st.ended.id = st.id := rfl
theorem State.onLane_present (s : State) {id : SId} {f : Stream → Stream} (hf : ∀ st : Stream, (f st).id = st.id) {ids : List SId}
    (hp : s.Present ids) : (s.onLane id f).Present ids := s.onLanes_present hf hp

theorem State.endStream_eq (s : State) (id : SId) :
    s.endStream id = ((s.leaveAll id).onLane id Stream.ended).reevaluate id.tcx := rfl
/-- The stream that ends. -/
theorem State.endStream_ends (s : State) {id : SId} (hp : s.Present [id]) :
    ((s.endStream id).stream id).exited = true ∧ ((s.endStream id).stream id).park = .none := by
  have hp' := (s.leaveAll_frees id).present hp
  obtain ⟨-, hst⟩ := (s.leaveAll id).onLane_only (f := Stream.ended) (fun _ => rfl) hp'
  have hpark : ∀ n, (((s.leaveAll id).onLane id Stream.ended).stream id).park ≠ .join n false := fun n => by
    rw [hst]
    exact Park.noConfusion
  rw [s.endStream_eq, ((State.reevaluate_frees _ id.tcx).stream (State.onLane_present _ Stream.ended_id hp')).eq_of_park hpark, hst]
  exact ⟨rfl, rfl⟩
/-- Another stream is at most let go from a join slot. -/
theorem State.endStream_other (s : State) {id id' : SId} (hp : s.Present [id']) (h : id' ≠ id) :
    (s.stream id').Freed ((s.endStream id).stream id') := by
  have hp' := (s.leaveAll_frees id).present hp
  have hst : ((s.leaveAll id).onLane id Stream.ended).stream id' = (s.leaveAll id).stream id' :=
    State.onLanes_unlisted _ (fun _ => by rfl) (by simpa using h)
  rw [s.endStream_eq]
  refine ((s.leaveAll_frees id).stream hp).trans ?_
  rw [← hst]
  exact (State.reevaluate_frees _ id.tcx).stream (State.onLane_present _ Stream.ended_id hp')
theorem State.endStream_present (s : State) {id : SId} {ids : List SId} (hp : s.Present ids) : (s.endStream id).Present ids := by
  rw [s.endStream_eq]
  exact (State.reevaluate_frees _ _).present (State.onLane_present _ Stream.ended_id ((s.leaveAll_frees id).present hp))
theorem State.endStream_only (s : State) (id : SId) : s.endStream id =
    { s with streams := (s.endStream id).streams, teams := (s.endStream id).teams, gbars := (s.endStream id).gbars } := by
  obtain ⟨f, -, h⟩ := s.leaveAll_frees id
  rw [s.endStream_eq]
  obtain ⟨f', -, h'⟩ := ((s.leaveAll id).onLane id Stream.ended).reevaluate_frees id.tcx
  rw [h', State.onLane, State.onLanes, h]

theorem exec_exit {g : Guard} {s : State} (hm : s.vt.migrateMode = false) :
    exec (.exit g) s = .next ((s.active g).foldl State.exitLane (s.skipLanes g)) := by
  have : s.releaseTag s.curTag = s := by rw [State.releaseTag, if_neg (by simp [hm])]
  change execExit g s = _
  simp only [execExit, this]

section
variable {s : State} {id : SId}

theorem Stream.drained_iff {st : Stream} : st.drained = true ↔ st.cnt = ⟨0, 0, 0, 0⟩ := by simp [Stream.drained]
theorem State.exitLane_parks (h : (s.stream id).cnt ≠ ⟨0, 0, 0, 0⟩) :
    s.exitLane id = s.onLane id fun st => st.parkAt .exitWait := by
  have hd : (s.stream id).drained = false := by rw [Bool.eq_false_iff, ne_eq, Stream.drained_iff]; exact h
  simp only [State.exitLane, hd]
  rfl
theorem State.exitLane_delivers {k : Nat} {e : Err} (h : (s.stream id).cnt = ⟨0, 0, 0, 0⟩) (hk : k < 4)
    (he : (s.stream id).slots.get k = some e) (hlow : ∀ j, j < k → (s.stream id).slots.get j = none) :
    s.exitLane id = s.deliver id k e := by
  have hf : (s.stream id).firstErr (fun _ => true) = some (k, e) := Stream.firstErr_eq hk rfl he fun j hj _ => hlow j hj
  simp only [State.exitLane, Stream.drained_iff.mpr h, hf]
  rfl
theorem State.exitLane_ends (h : (s.stream id).cnt = ⟨0, 0, 0, 0⟩) (he : (s.stream id).slots = ⟨none, none, none, none⟩) :
    s.exitLane id = s.endStream id := by
  have hf : (s.stream id).firstErr (fun _ => true) = none := Stream.firstErr_none fun k hk _ => by
    rw [he]
    match k with
    | 0 | 1 | 2 | _ + 3 => rfl
  simp only [State.exitLane, Stream.drained_iff.mpr h, hf]
  rfl
end

/-- `exit` of lanes that have nothing outstanding: each ends, and no other stream exits or moves. -/
theorem State.exitLanes_end {ids : List SId} (hn : ids.Nodup) {s : State} (hp : s.Present ids)
    (h : ∀ id ∈ ids, (s.stream id).cnt = ⟨0, 0, 0, 0⟩ ∧ (s.stream id).slots = ⟨none, none, none, none⟩) :
    let t := ids.foldl State.exitLane s
    t = { s with streams := t.streams, teams := t.teams, gbars := t.gbars } ∧
      (∀ id ∈ ids, (t.stream id).exited = true ∧ (t.stream id).park = .none) ∧
      ∀ id, id ∉ ids → s.Present [id] → (s.stream id).Freed (t.stream id) := by
  induction ids generalizing s with
  | nil => exact ⟨rfl, by simp, fun _ _ _ => .inl rfl⟩
  | cons a r ih =>
    obtain ⟨ha, hr⟩ := List.nodup_cons.mp hn
    have hpa : s.Present [a] := hp.mono (by simp)
    have hpr : ∀ id ∈ r, s.Present [id] := fun id hid => hp.mono (by simp [hid])
    have hother : ∀ id ∈ r, (s.stream id).Freed ((s.endStream a).stream id) := fun id hid =>
      s.endStream_other (hpr id hid) fun e => ha (e ▸ hid)
    obtain ⟨honly, hend, hrest⟩ := ih hr (s := s.endStream a) (s.endStream_present (hp.mono (by simp))) fun id hid => by
      obtain ⟨hc, hs⟩ := h id (List.mem_cons_of_mem a hid)
      rcases hother id hid with e | ⟨n, -, e⟩
      · rw [e]; exact ⟨hc, hs⟩
      · rw [e]; exact ⟨hc, hs⟩
    obtain ⟨hc, hs⟩ := h a List.mem_cons_self
    obtain ⟨hex, hpk⟩ := s.endStream_ends hpa
    simp only [List.foldl_cons, State.exitLane_ends hc hs]
    refine ⟨by rw [honly, s.endStream_only a], fun id hid => ?_, fun id hid hpid => ?_⟩
    · rcases List.mem_cons.mp hid with rfl | hid
      · rw [(hrest id ha (s.endStream_present hpa)).eq_of_park (by rw [hpk]; exact fun n => Park.noConfusion)]
        exact ⟨hex, hpk⟩
      · exact hend id hid
    · rw [List.mem_cons, not_or] at hid
      obtain ⟨hne, hnr⟩ := hid
      exact (s.endStream_other hpid hne).trans (hrest id hnr (s.endStream_present hpid))

/-! ### Join slots (R175 to R180) -/

/-- A slot after the release test of R177. -/
def released (j : JSlot) : JSlot := if j.mask ≠ 0 ∧ j.arr = j.mask then ⟨0, 0⟩ else j

section
variable {s : State} {k : Nat} {tm : Team} (h : s.team? k = some tm) (grp n : Nat)
include h

theorem State.freeJoiners_team? (u : Team) (m : DWord) : (s.freeJoiners u grp n m).team? k = some tm := h
/-- The release test of a slot of a team (R177). -/
theorem State.releaseTest_of : s.releaseTest k grp n =
    if (tm.slot grp n).mask ≠ 0 ∧ (tm.slot grp n).arr = (tm.slot grp n).mask then
      (s.freeJoiners tm grp n (tm.slot grp n).arr).setSlot k grp n blankSlot else s := by
  rw [State.releaseTest, State.team_of h]
  refine if_congr ?_ rfl rfl
  simp only [Bool.and_eq_true, bne_iff_ne, beq_iff_eq]
theorem State.releaseTest_team? : ∃ tm' : Team, (s.releaseTest k grp n).team? k = some tm' ∧
    tm' = { tm with joins := tm'.joins } ∧ tm'.slot grp n = released (tm.slot grp n) ∧
    ∀ n', n' ≠ n → tm'.slot grp n' = tm.slot grp n' := by
  rw [State.releaseTest_of h, released]
  by_cases hc : (tm.slot grp n).mask ≠ 0 ∧ (tm.slot grp n).arr = (tm.slot grp n).mask
  · rw [if_pos hc, if_pos hc]
    exact ⟨_, State.setSlot_team? (s := s.freeJoiners tm grp n (tm.slot grp n).arr) h grp n blankSlot, rfl, tm.withSlot_slot _ _ _,
      fun n' hn => tm.withSlot_other _ hn⟩
  · rw [if_neg hc, if_neg hc]
    exact ⟨tm, h, rfl, rfl, fun _ _ => rfl⟩
/-- A slot is written and then tested. -/
theorem State.setSlot_released (j : JSlot) : ∃ tm' : Team, ((s.setSlot k grp n j).releaseTest k grp n).team? k = some tm' ∧
    tm' = { tm with joins := tm'.joins } ∧ tm'.slot grp n = released j ∧ ∀ n', n' ≠ n → tm'.slot grp n' = tm.slot grp n' := by
  obtain ⟨tm', h1, h2, h3, h4⟩ := State.releaseTest_team? (State.setSlot_team? h grp n j) grp n
  rw [tm.withSlot_slot] at h3
  exact ⟨tm', h1, h2, h3, fun n' hn => (h4 n' hn).trans (tm.withSlot_other _ hn)⟩
end

end Sys2Proof.Machine
end
section
/-! PROOFS. The instructions of the join slots (R175 to R180). -/
namespace Sys2Proof.Machine

/-- A set of one bit lies in another set or outside it. -/
theorem and_shift_cases (m : DWord) (n : Nat) : m &&& (1#64 <<< n) = 0 ∨ m &&& (1#64 <<< n) = 1#64 <<< n := by
  cases h : m.getLsbD n with
  | false =>
    left
    refine BitVec.eq_of_getLsbD_eq fun i hi => ?_
    by_cases e : i = n
    · simp [e, h]
    · simp [BitVec.getLsbD_one]
      omega
  | true =>
    right
    refine BitVec.eq_of_getLsbD_eq fun i hi => ?_
    by_cases e : i = n
    · simp [e, h]
    · simp [BitVec.getLsbD_one]
      omega
theorem and_not_and (arr m b : DWord) (h : m &&& b = 0) : arr &&& ~~~m &&& b = arr &&& b := by
  refine BitVec.eq_of_getLsbD_eq fun i hi => ?_
  have := congrArg (·.getLsbD i) h
  simp [hi] at this ⊢
  cases arr.getLsbD i <;> cases hm : m.getLsbD i <;> cases hb : b.getLsbD i <;> simp_all
theorem and_not_and_self (arr m b : DWord) (h : m &&& b = b) : arr &&& ~~~m &&& b = 0 := by
  refine BitVec.eq_of_getLsbD_eq fun i hi => ?_
  have := congrArg (·.getLsbD i) h
  simp [hi] at this ⊢
  cases hm : m.getLsbD i <;> cases hb : b.getLsbD i <;> simp_all

/-! ### The streams parked at a slot -/

section
variable (s : State) (tm : Team) (grp n : Nat) (m : DWord) {id : SId} (hp : s.Present [id])
include hp

theorem State.freeJoiners_stream : (s.freeJoiners tm grp n m).stream id =
    if (s.stream id).inGroup tm grp && (s.stream id).park == .join n false && (m &&& tm.bit (s.stream id).id) != 0 then
      { s.stream id with park := .join n true, path := joinPath s.issues n } else s.stream id := by
  obtain ⟨st, hst⟩ := Option.isSome_iff_exists.mp (hp id (List.mem_singleton_self id))
  have hmap := s.stream?_map (fun st => if st.inGroup tm grp && st.park == .join n false && (m &&& tm.bit st.id) != 0 then
    { st with park := .join n true, path := joinPath s.issues n } else st) (fun st => by split <;> rfl) id
  have hs : s.stream id = st := by rw [State.stream, hst]; rfl
  rw [hs, State.stream, State.freeJoiners, hmap, hst]
  rfl
theorem State.freeJoiners_keeps (h : (s.stream id).park ≠ .join n false) : (s.freeJoiners tm grp n m).stream id = s.stream id := by
  rw [s.freeJoiners_stream tm grp n m hp, if_neg]
  simp only [Bool.and_eq_true, beq_iff_eq, not_and]
  exact fun hc => absurd hc.2 h
theorem State.freeJoiners_park (hg : (s.stream id).inGroup tm grp = true) (h : (s.stream id).park = .join n false) :
    ((s.freeJoiners tm grp n m).stream id).park = .join n (decide (m &&& tm.bit id ≠ 0)) := by
  rw [s.freeJoiners_stream tm grp n m hp, hg, h, s.stream_id]
  by_cases hm : m &&& tm.bit id = 0
  · rw [hm, if_neg (by simp), h, decide_eq_false (by simp)]
  · rw [if_pos (by simp only [beq_self_eq_true, Bool.and_true, Bool.true_and, bne_iff_ne]; exact hm), decide_eq_true hm]
end

theorem State.setSlot_stream (s : State) (k grp n : Nat) (j : JSlot) (id : SId) : (s.setSlot k grp n j).stream id = s.stream id := rfl
theorem State.setSlot_present {s : State} {k grp n : Nat} {j : JSlot} {ids : List SId} (hp : s.Present ids) :
    (s.setSlot k grp n j).Present ids := hp

section
variable {s : State} {k : Nat} {tm : Team} (h : s.team? k = some tm) (grp n : Nat) {id : SId} (hp : s.Present [id])
include h hp

theorem State.releaseTest_keeps (hk : (s.stream id).park ≠ .join n false) : (s.releaseTest k grp n).stream id = s.stream id := by
  rw [State.releaseTest_of h]
  split
  · rw [State.setSlot_stream, s.freeJoiners_keeps tm grp n _ hp hk]
  · rfl
theorem State.releaseTest_park (hg : (s.stream id).inGroup tm grp = true) (hk : (s.stream id).park = .join n false) :
    ((s.releaseTest k grp n).stream id).park = .join n (decide ((tm.slot grp n).mask ≠ 0 ∧ (tm.slot grp n).arr = (tm.slot grp n).mask ∧
      (tm.slot grp n).arr &&& tm.bit id ≠ 0)) := by
  rw [State.releaseTest_of h]
  by_cases hc : (tm.slot grp n).mask ≠ 0 ∧ (tm.slot grp n).arr = (tm.slot grp n).mask
  · rw [if_pos hc, State.setSlot_stream, s.freeJoiners_park tm grp n _ hp hg hk]
    simp only [hc.1, hc.2, ne_eq, not_false_eq_true, true_and]
  · rw [if_neg hc, hk]
    rw [decide_eq_false fun hh => hc ⟨hh.1, hh.2.1⟩]
end

/-! ### jset (R176) -/

/-- The MASK that `jset` leaves. -/
def State.newMask (s : State) (tm : Team) (grp n : Nat) (set : DWord) (add : Bool) : DWord :=
  ((if add then (tm.slot grp n).mask ||| set else set) &&& tm.full) &&& ~~~(s.exitedMask tm grp)

section
variable {s : State} {k : Nat} {tm : Team} (h : s.team? k = some tm) (grp n : Nat) (set : DWord) (add : Bool)
include h

theorem State.armSlot_of : s.armSlot k grp n set add =
    ((s.freeJoiners tm grp n ((tm.slot grp n).arr &&& ~~~(s.newMask tm grp n set add))).setSlot k grp n
      ⟨s.newMask tm grp n set add, (tm.slot grp n).arr &&& s.newMask tm grp n set add⟩).releaseTest k grp n := by
  rw [State.armSlot, State.team_of h]
  rfl
theorem State.armSlot_frees : s.FreesJoiners (s.armSlot k grp n set add) := by
  rw [State.armSlot_of h]
  exact ((s.freeJoiners_frees _ _ _ _).trans (State.setSlot_frees _ _ _ _ _)).trans (State.releaseTest_frees _ _ _ _)
theorem State.armSlot_slot : ((s.armSlot k grp n set add).team k).slot grp n =
    released ⟨s.newMask tm grp n set add, (tm.slot grp n).arr &&& s.newMask tm grp n set add⟩ := by
  rw [State.armSlot_of h]
  obtain ⟨tm', h1, -, h3, -⟩ := State.setSlot_released
    (State.freeJoiners_team? h grp n tm ((tm.slot grp n).arr &&& ~~~(s.newMask tm grp n set add))) grp n
    ⟨s.newMask tm grp n set add, (tm.slot grp n).arr &&& s.newMask tm grp n set add⟩
  rw [State.team_of h1, h3]

variable {id : SId} (hp : s.Present [id])
include hp

theorem State.armSlot_keeps (hk : (s.stream id).park ≠ .join n false) : (s.armSlot k grp n set add).stream id = s.stream id := by
  have hkeep := s.freeJoiners_keeps tm grp n ((tm.slot grp n).arr &&& ~~~(s.newMask tm grp n set add)) hp hk
  have hp' := (s.freeJoiners_frees tm grp n ((tm.slot grp n).arr &&& ~~~(s.newMask tm grp n set add))).present hp
  rw [State.armSlot_of h, State.releaseTest_keeps (State.setSlot_team? (State.freeJoiners_team? h grp n tm _) grp n _) grp n
    (State.setSlot_present hp') (by rw [State.setSlot_stream, hkeep]; exact hk), State.setSlot_stream, hkeep]
/-- A thread whose arrival the slot held goes on where the new MASK leaves it out or the slot is complete (R176, R177). -/
theorem State.armSlot_park (hg : (s.stream id).inGroup tm grp = true) (hk : (s.stream id).park = .join n false)
    (ha : (tm.slot grp n).arr &&& tm.bit id ≠ 0) : ((s.armSlot k grp n set add).stream id).park =
      .join n (decide (s.newMask tm grp n set add &&& tm.bit id = 0 ∨
        (s.newMask tm grp n set add ≠ 0 ∧ (tm.slot grp n).arr &&& s.newMask tm grp n set add = s.newMask tm grp n set add))) := by
  rw [State.armSlot_of h]
  generalize s.newMask tm grp n set add = m
  have hp' := (s.freeJoiners_frees tm grp n ((tm.slot grp n).arr &&& ~~~m)).present hp
  have hpark := s.freeJoiners_park tm grp n ((tm.slot grp n).arr &&& ~~~m) hp hg hk
  have hteam := State.setSlot_team? (State.freeJoiners_team? h grp n tm ((tm.slot grp n).arr &&& ~~~m)) grp n ⟨m, (tm.slot grp n).arr &&& m⟩
  have hbit : m &&& tm.bit id = 0 ∨ m &&& tm.bit id = tm.bit id := and_shift_cases m (tm.lane id)
  rcases hbit with hm | hm
  · have hout : ((tm.slot grp n).arr &&& ~~~m) &&& tm.bit id ≠ 0 := by rw [and_not_and _ _ _ hm]; exact ha
    rw [decide_eq_true hout] at hpark
    have hne : ((s.freeJoiners tm grp n ((tm.slot grp n).arr &&& ~~~m)).stream id).park ≠ .join n false := by
      rw [hpark]
      simp
    rw [State.releaseTest_keeps hteam grp n (State.setSlot_present hp') hne, State.setSlot_stream, hpark, decide_eq_true (.inl hm)]
  · have hin : ¬((tm.slot grp n).arr &&& ~~~m) &&& tm.bit id ≠ 0 := fun hh => hh (and_not_and_self _ _ _ hm)
    rw [decide_eq_false hin] at hpark
    have hne0 : m &&& tm.bit id ≠ 0 := fun e => ha (by rw [← hm, e]; exact BitVec.and_zero)
    have hgrp : ((s.freeJoiners tm grp n ((tm.slot grp n).arr &&& ~~~m)).stream id).inGroup
        (tm.withSlot grp n ⟨m, (tm.slot grp n).arr &&& m⟩) grp = true := by
      rw [Stream.inGroup, State.stream_id]
      rw [Stream.inGroup, State.stream_id] at hg
      exact hg
    rw [State.releaseTest_park hteam grp n (State.setSlot_present hp') hgrp hpark, tm.withSlot_slot]
    congr 2
    rw [eq_iff_iff, or_iff_right hne0]
    refine ⟨fun hh => ⟨hh.1, hh.2.1⟩, fun hh => ⟨hh.1, hh.2, ?_⟩⟩
    rw [hh.2]
    exact hne0
end

theorem nins_same (g : Nat) : nins [g] g = [g] := by simp [nins]
/-- Lanes of one group. -/
theorem State.groupsOf_one {s : State} {grp : Nat} {ids : List SId} (h : ∀ id ∈ ids, id.kind = .lane ∧ s.curTeam.group id = grp)
    (hne : ids ≠ []) : s.groupsOf ids = [grp] := by
  have hgo : ∀ l : List SId, (∀ id ∈ l, id.kind = .lane ∧ s.curTeam.group id = grp) →
      l.foldl (fun gs id => nins gs (if id.kind = .lane then s.curTeam.group id else 0)) [grp] = [grp] := by
    intro l hl
    induction l with
    | nil => rfl
    | cons a r ih =>
      obtain ⟨hk, hg⟩ := hl a List.mem_cons_self
      rw [List.foldl_cons, if_pos hk, hg, nins_same, ih fun id hid => hl id (List.mem_cons_of_mem a hid)]
  match ids with
  | a :: r =>
    obtain ⟨hk, hg⟩ := h a List.mem_cons_self
    simp only [State.groupsOf, List.foldl_cons]
    rw [if_pos hk, hg]
    exact hgo r fun id hid => h id (List.mem_cons_of_mem a hid)

/-- What `jset` arms the slot with (R176). -/
def State.jsetSource (s : State) (tm : Team) (g : Guard) (low : SId) (src : Option (Reg × Bool)) : DWord :=
  match src with
  | none => maskOf ((s.active g).map tm.lane)
  | some (r, _) => (s.stream low).rd64 r
def jsetKill (src : Option (Reg × Bool)) (st : Stream) : Stream :=
  match src with
  | none => st
  | some (r, k) => st.kill64 r k
theorem jsetKill_id (src : Option (Reg × Bool)) (st : Stream) : (jsetKill src st).id = st.id := by
  match src with
  | none => rfl
  | some (r, k) => exact st.kill64_id r k

theorem exec_jset {g : Guard} {n : BitVec 4} {src : Option (Reg × Bool)} {add : Bool} {s : State} {tm : Team} {low : SId}
    {rest : List SId} {grp : Nat} (hact : s.active g = low :: rest) (ht : s.team? low.tcx = some tm)
    (hh : s.cur.lanes.head?.map SId.tcx = some low.tcx) (hg : ∀ id ∈ s.active g, id.kind = .lane ∧ tm.group id = grp) :
    exec (.jset g n src add) s =
      .next ((s.armSlot low.tcx grp n.toNat (s.jsetSource tm g low src) add).retireLanes g (jsetKill src)) := by
  have hcur := State.curTeam_of hh ht
  have hgroups : s.groupsOf (s.active g) = [grp] := State.groupsOf_one (by rw [hcur]; exact hg) (by simp [hact])
  have hfil : ((s.active g).filter fun id => tm.group id = grp) = s.active g :=
    List.filter_eq_self.mpr fun id hid => decide_eq_true (hg id hid).2
  change execJset g n src add s = _
  simp only [execJset, State.byGroup, hgroups, hcur, List.map_cons, List.map_nil, List.foldl_cons, List.foldl_nil, hfil,
    State.team?_tcx ht]
  match src with
  | none => rfl
  | some (r, k) => rw [hact]; rfl

/-! ### join, jdrop and releases (R177, R178) -/

section
variable {s : State} {g : Guard} {n : BitVec 4} {tm : Team} {id : SId} (hl : s.cur.lanes = [id])
  (hg : guardHolds g (s.stream id) = true) (ht : s.team? id.tcx = some tm)
include hl hg ht

theorem exec_join_passes (h : (tm.slot (tm.group id) n.toNat).mask &&& tm.bit id = 0) :
    exec (.join g n) s = .next ((s.skipLanes g).onLane id fun st => st.goto s.cur.npc) := by
  have hcur : s.curTeam = tm := State.curTeam_of (by rw [hl]; rfl) ht
  change execJoin g n s = _
  have hb : ((tm.slot (tm.group id) n.toNat).mask &&& tm.bit id != 0) = false := by simpa using h
  simp only [execJoin, hcur, State.active_one hl hg, List.partition_eq_filter_filter, List.filter_singleton, hb, Function.comp_apply]
  rfl
theorem exec_join_arrives (h : (tm.slot (tm.group id) n.toNat).mask &&& tm.bit id ≠ 0) :
    exec (.join g n) s = .next (((s.skipLanes g).onLanes [] fun st => st.goto s.cur.npc).arriveSlot id n.toNat) := by
  have hcur : s.curTeam = tm := State.curTeam_of (by rw [hl]; rfl) ht
  have hb : ((tm.slot (tm.group id) n.toNat).mask &&& tm.bit id != 0) = true := by simpa using h
  change execJoin g n s = _
  simp only [execJoin, hcur, State.active_one hl hg, List.partition_eq_filter_filter, List.filter_singleton, hb, Function.comp_apply]
  rfl
end

/-- A thread arrives at a slot that holds it (R177). -/
theorem State.arriveSlot_of {s : State} {tm : Team} {id : SId} {n : Nat} (hp : s.Present [id]) (ht : s.team? id.tcx = some tm)
    (hk : id.kind = .lane) (hm : (tm.slot (tm.group id) n).mask &&& tm.bit id ≠ 0) :
    s.arriveSlot id n = { s with streams := (s.arriveSlot id n).streams, teams := (s.arriveSlot id n).teams } ∧
      ((s.arriveSlot id n).team id.tcx).slot (tm.group id) n =
        released ⟨(tm.slot (tm.group id) n).mask, (tm.slot (tm.group id) n).arr ||| tm.bit id⟩ ∧
      ((s.arriveSlot id n).stream id).park =
        .join n (decide ((tm.slot (tm.group id) n).arr ||| tm.bit id = (tm.slot (tm.group id) n).mask)) := by
  have htcx := State.team?_tcx ht
  have he : s.arriveSlot id n = ((s.onLane id fun st => st.parkAt (.join n false)).setSlot id.tcx (tm.group id) n
      ⟨(tm.slot (tm.group id) n).mask, (tm.slot (tm.group id) n).arr ||| tm.bit id⟩).releaseTest id.tcx (tm.group id) n := by
    rw [State.arriveSlot, State.team_of ht]
  have ht1 : (s.onLane id fun st => st.parkAt (.join n false)).team? id.tcx = some tm := ht
  have hp1 : (s.onLane id fun st => st.parkAt (.join n false)).Present [id] := s.onLane_present (fun _ => by rfl) hp
  obtain ⟨-, hst⟩ := s.onLane_only (f := fun st => st.parkAt (.join n false)) (fun _ => rfl) hp
  have hteam := State.setSlot_team? ht1 (tm.group id) n
    ⟨(tm.slot (tm.group id) n).mask, (tm.slot (tm.group id) n).arr ||| tm.bit id⟩
  rw [he]
  refine ⟨?_, ?_, ?_⟩
  · rw [State.releaseTest_of hteam]
    split <;> rfl
  · obtain ⟨tm', h1, -, h3, -⟩ := State.setSlot_released ht1 (tm.group id) n
      ⟨(tm.slot (tm.group id) n).mask, (tm.slot (tm.group id) n).arr ||| tm.bit id⟩
    rw [State.team_of h1, h3]
  · have hgrp : (((s.onLane id fun st => st.parkAt (.join n false)).setSlot id.tcx (tm.group id) n
        ⟨(tm.slot (tm.group id) n).mask, (tm.slot (tm.group id) n).arr ||| tm.bit id⟩).stream id).inGroup
        (tm.withSlot (tm.group id) n ⟨(tm.slot (tm.group id) n).mask, (tm.slot (tm.group id) n).arr ||| tm.bit id⟩) (tm.group id) = true := by
      rw [Stream.inGroup, State.stream_id]
      simp only [Bool.and_eq_true, beq_iff_eq]
      exact ⟨⟨htcx.symm, hk⟩, rfl⟩
    rw [State.releaseTest_park hteam (tm.group id) n (State.setSlot_present hp1) hgrp (by rw [State.setSlot_stream, hst]; rfl),
      tm.withSlot_slot]
    have hne : (tm.slot (tm.group id) n).mask ≠ 0 := fun e => hm (by rw [e]; exact BitVec.zero_and)
    congr 2
    rw [eq_iff_iff]
    refine ⟨fun hh => hh.2.1, fun hh => ⟨hne, hh, ?_⟩⟩
    change ((tm.slot (tm.group id) n).arr ||| tm.bit id) &&& tm.bit id ≠ 0
    rw [hh]
    exact hm

/-- The slot that a thread leaves (R178, R180). -/
def Team.left (tm : Team) (id : SId) (j : JSlot) : JSlot :=
  if j.mask &&& tm.bit id != 0 then released ⟨j.mask &&& ~~~tm.bit id, j.arr &&& ~~~tm.bit id⟩ else j
theorem State.leaveSlot_team? {s : State} {tm : Team} {id : SId} (ht : s.team? id.tcx = some tm) (n : Nat) :
    ∃ tm' : Team, (s.leaveSlot id n).team? id.tcx = some tm' ∧ tm' = { tm with joins := tm'.joins } ∧
      tm'.slot (tm.group id) n = tm.left id (tm.slot (tm.group id) n) ∧
      ∀ n', n' ≠ n → tm'.slot (tm.group id) n' = tm.slot (tm.group id) n' := by
  rw [State.leaveSlot, State.team_of ht, Team.left]
  by_cases h : (tm.slot (tm.group id) n).mask &&& tm.bit id = 0
  · simp only [if_pos h]
    exact ⟨tm, ht, rfl, by simp [h], fun _ _ => rfl⟩
  · simp only [if_neg h]
    rw [if_pos (by simpa using h)]
    exact State.setSlot_released ht _ _ _
/-- Slots that a thread leaves one after another. -/
theorem State.leaveSlots_team? {id : SId} {ns : List Nat} (hn : ns.Nodup) {s : State} {tm : Team} (ht : s.team? id.tcx = some tm) (n : Nat) :
    ∃ tm' : Team, (ns.foldl (fun s n => s.leaveSlot id n) s).team? id.tcx = some tm' ∧
      tm'.slot (tm.group id) n = if n ∈ ns then tm.left id (tm.slot (tm.group id) n) else tm.slot (tm.group id) n := by
  induction ns generalizing s tm with
  | nil => exact ⟨tm, ht, by simp⟩
  | cons a r ih =>
    obtain ⟨ha, hr⟩ := List.nodup_cons.mp hn
    obtain ⟨tm1, h1, hj1, hs1, ho1⟩ := State.leaveSlot_team? ht a
    obtain ⟨tm2, h2, hs2⟩ := ih hr h1
    have hgrp : tm1.group id = tm.group id := by rw [hj1]; rfl
    have hleft : ∀ j, tm1.left id j = tm.left id j := fun j => by rw [hj1]; rfl
    rw [hgrp] at hs2
    refine ⟨tm2, h2, ?_⟩
    rw [hs2]
    by_cases hna : n = a
    · subst hna
      rw [if_neg ha, if_pos List.mem_cons_self, hs1]
    · rw [ho1 n hna, hleft]
      simp only [List.mem_cons, hna, false_or]
theorem State.leaveSlots_frees (s : State) (id : SId) (ns : List Nat) : s.FreesJoiners (ns.foldl (fun s n => s.leaveSlot id n) s) :=
  State.foldl_frees (fun s n => s.leaveSlot_frees id n) ns s
theorem State.leaveSlot_gbars (s : State) (id : SId) (n : Nat) : (s.leaveSlot id n).gbars = s.gbars := by
  unfold State.leaveSlot State.releaseTest
  dsimp only
  split
  · rfl
  · split <;> rfl
theorem State.leaveSlots_gbars (s : State) (id : SId) (ns : List Nat) :
    (ns.foldl (fun s n => s.leaveSlot id n) s).gbars = s.gbars := by
  induction ns generalizing s with
  | nil => rfl
  | cons a r ih => rw [List.foldl_cons, ih, s.leaveSlot_gbars]

/-- Settles O24: `exit` lane by lane, and each slot through `armSlot`, `arriveSlot`, `leaveSlot` and the release test. -/
theorem exitAndJoinSlots : Obligations.ExitAndJoinSlots := by
  unfold Obligations.ExitAndJoinSlots
  refine ⟨⟨fun g s hm hnd hp h => ?_, fun g s id hm hl hp hg hc => ?_, fun g s id k e hm hl hp hg hc hk he hlow hcan => ?_⟩,
    fun g n src add s tm low rest grp hact ht hh hg => ?_, fun g n s tm id hl hg hp ht hk => ⟨fun h => ?_, fun h => ?_⟩,
    fun g mask s tm id n hl hg ht hk hn => ?_, fun g d n arr s => rfl, fun tcx grp n s => ⟨_, rfl, ?_⟩⟩
  · obtain ⟨honly, hend, hrest⟩ := State.exitLanes_end (s := s.skipLanes g) (ids := s.active g) (hnd.filter _)
      (s.onLanes_present (fun st => by split <;> rfl) (hp.mono (s.active_subset g))) fun id hid => by
        rw [s.skipLanes_active hid]
        exact h id hid
    refine ⟨_, exec_exit hm, by rw [honly]; rfl, hend, fun id hid hna => ?_⟩
    obtain ⟨-, hoff, -⟩ := s.skipLanes_lanes g hp
    rw [(hrest id hna (s.onLanes_present (fun st => by split <;> rfl) (hp.mono (by simpa using hid)))).eq_of_park
      (by rw [hoff id hid hna]; exact fun n => Park.noConfusion), hoff id hid hna]
    exact ⟨rfl, rfl⟩
  · have hst := State.skipLanes_one_stream hl hg
    obtain ⟨honly, hpark⟩ := (s.skipLanes g).onLane_only (f := fun st => st.parkAt .exitWait) (fun _ => rfl)
      (s.onLanes_present (fun st => by split <;> rfl) hp)
    refine ⟨_, exec_exit hm, ?_⟩
    rw [State.active_one hl hg, List.foldl_cons, List.foldl_nil, State.exitLane_parks (by rw [hst]; exact hc)]
    exact ⟨(State.skipLanes_one_onlyStreams hl).trans honly, by rw [hpark, hst]⟩
  · have hst := State.skipLanes_one_stream hl hg
    obtain ⟨honly, hent⟩ := (s.skipLanes g).deliver_enters e hk (s.onLanes_present (fun st => by split <;> rfl) hp)
      (by rw [hst]; exact hcan)
    refine ⟨_, exec_exit hm, ?_⟩
    rw [State.active_one hl hg, List.foldl_cons, List.foldl_nil, State.exitLane_delivers (k := k) (e := e) (by rw [hst]; exact hc) hk
      (by rw [hst]; exact he) (by rw [hst]; exact hlow)]
    exact ⟨(State.skipLanes_one_onlyStreams hl).trans honly, by rw [hent, hst]; rfl⟩
  · have hfrees := State.armSlot_frees ht grp n.toNat (s.jsetSource tm g low src) add
    have hcur : (s.armSlot low.tcx grp n.toNat (s.jsetSource tm g low src) add).cur = s.cur := by
      obtain ⟨f, -, hf⟩ := hfrees
      rw [hf]
    refine ⟨_, exec_jset hact ht hh hg, ?_, State.armSlot_slot ht grp n.toNat _ add, fun id hid hp hpark => ?_, fun id hid hp hin hpark harr => ?_⟩
    · have : (s.armSlot low.tcx grp n.toNat (s.jsetSource tm g low src) add).gbars = s.gbars := by
        rw [State.armSlot_of ht]
        unfold State.releaseTest
        dsimp only
        split <;> rfl
      obtain ⟨f, -, hf⟩ := hfrees
      rw [State.retireLanes, State.onLanes, hf, this]
    · have hkeep := State.armSlot_keeps ht grp n.toNat (s.jsetSource tm g low src) add hp hpark
      rw [State.retireLanes, hcur, State.onLanes_listed _ (fun st => ?_) hid (hfrees.present hp id (by simp)), hkeep]
      · rfl
      · split
        · exact jsetKill_id src st
        · rfl
    · have hpk := State.armSlot_park ht grp n.toNat (s.jsetSource tm g low src) add hp hin hpark harr
      rw [State.retireLanes, hcur, State.onLanes_unlisted _ (fun st => ?_) hid]
      · exact hpk
      · split
        · exact jsetKill_id src st
        · rfl
  · have hp' : (s.skipLanes g).Present [id] := s.onLanes_present (fun st => by split <;> rfl) hp
    obtain ⟨honly, hgo⟩ := (s.skipLanes g).onLane_only (f := fun st => st.goto s.cur.npc) (fun _ => rfl) hp'
    exact ⟨_, exec_join_passes hl hg ht h, (State.skipLanes_one_onlyStreams hl).trans honly,
      by rw [hgo, State.skipLanes_one_stream hl hg]⟩
  · obtain ⟨h1, h2, h3⟩ := State.arriveSlot_of (s := (s.skipLanes g).onLanes [] fun st => st.goto s.cur.npc)
      (State.onLanes_present _ (fun _ => by rfl) (s.onLanes_present (fun st => by split <;> rfl) hp)) ht hk h
    exact ⟨_, exec_join_arrives hl hg ht h, by rw [h1]; rfl, h2, h3⟩
  · have hfil : ((List.range 16).filter fun n => mask.getLsbD n).Nodup := List.nodup_range.filter _
    obtain ⟨tm', h1, h2⟩ := State.leaveSlots_team? hfil ht n
    have hexec : exec (.jdrop g mask) s = .next ((((List.range 16).filter fun n => mask.getLsbD n).foldl
        (fun s n => s.leaveSlot id n) s).retireLanes g fun st => st) := by
      change execJdrop g mask s = _
      simp only [execJdrop, State.active_one hl hg, List.foldl_cons, List.foldl_nil]
      rfl
    refine ⟨_, hexec, ?_, ?_⟩
    · obtain ⟨f, -, hf⟩ := s.leaveSlots_frees id ((List.range 16).filter fun n => mask.getLsbD n)
      rw [State.retireLanes, State.onLanes, hf, s.leaveSlots_gbars]
    · have hteam : ((((List.range 16).filter fun n => mask.getLsbD n).foldl (fun s n => s.leaveSlot id n) s).retireLanes g
          fun st => st).team id.tcx = tm' := State.team_of h1
      rw [hteam, h2]
      cases hb : mask.getLsbD n with
      | false => simp [hb]
      | true => simp [hb, hn, Team.left, released]
  · refine congrArg (fun f => { s with streams := s.streams.map f }) (funext fun st => ?_)
    refine if_congr ?_ rfl rfl
    simp only [Stream.inGroup, Bool.and_eq_true, beq_iff_eq, and_assoc]

end Sys2Proof.Machine
end
section
/-! PROOFS. The checks of an access in their order, and the translation it uses (R68 to R72, R79, R82, R86, R88). -/
namespace Sys2Proof.Machine

/-! ### Classes and windows as ranges of the address -/

theorem class_eq (a : DWord) : (a.extractLsb' 62 2).toNat = a.toNat / 2 ^ 62 := by
  rw [BitVec.extractLsb'_toNat, Nat.shiftRight_eq_div_pow]
  have := a.isLt
  omega
theorem zeroBits00 (a : DWord) (h : a.toNat / 2 ^ 62 = 0) : (a.extractLsb' 57 5 == 0) = decide (a.toNat < 2 ^ 57) := by
  rw [Bool.eq_iff_iff, beq_iff_eq, decide_eq_true_iff, ← BitVec.toNat_inj, BitVec.extractLsb'_toNat, Nat.shiftRight_eq_div_pow,
    show (0 : BitVec 5).toNat = 0 from rfl]
  omega
theorem zeroBits01 (a : DWord) (h : a.toNat / 2 ^ 62 = 1) : (a.extractLsb' 32 30 == 0) = decide (a.toNat < 2 ^ 62 + 2 ^ 32) := by
  rw [Bool.eq_iff_iff, beq_iff_eq, decide_eq_true_iff, ← BitVec.toNat_inj, BitVec.extractLsb'_toNat, Nat.shiftRight_eq_div_pow,
    show (0 : BitVec 30).toNat = 0 from rfl]
  omega
/-- R68, R69, by the address's value. -/
theorem classOk_eq (cl : Classes) (a : DWord) : classOk cl a = match a.toNat / 2 ^ 62 with
    | 0 => cl.c00 && decide (a.toNat < 2 ^ 57)
    | 1 => cl.c01 && decide (a.toNat < 2 ^ 62 + 2 ^ 32)
    | 2 => cl.c10
    | _ => false := by
  rw [classOk, class_eq]
  match h : a.toNat / 2 ^ 62 with
  | 0 => simp only [zeroBits00 a h]
  | 1 => simp only [zeroBits01 a h]
  | 2 => rfl
  | _ + 3 => rfl

section
variable {s : State} {st : Stream} {ak : AK} {cl : Classes} {a : DWord} {n align : Nat}

theorem State.check_refuses (h : classOk cl a = false ∨ classOk cl (a + BitVec.ofNat 64 (n - 1)) = false) :
    s.check st ak cl a n align = .error (.trap cAddressClass a) := by
  rw [State.check, if_pos]
  rcases h with h | h <;> simp [h]
theorem State.check_accepts (h : classOk cl a = true) (h' : classOk cl (a + BitVec.ofNat 64 (n - 1)) = true) :
    s.check st ak cl a n align = match s.redirect st a n with
      | .error f => .error f
      | .ok va => if a.toNat % align ≠ 0 then .error (.trap cAlignment a) else match a.toNat / 2 ^ 62 with
        | 0 => s.checkPage (s.who st) ak va
        | 1 => match s.vaultBad (s.team st.id.tcx).recd.asid (a.toNat % 2 ^ 32) n with
          | some bad => .error (.trap cVaultRange (0x4000000000000000 + BitVec.ofNat 64 bad))
          | none => .ok ⟨⟨.vault, vaultKey + a.toNat % 2 ^ 32, 0, false⟩, a.toNat, none⟩
        | _ => .ok ⟨remoteLoc a false, a.toNat, none⟩ := by
  rw [State.check, if_neg (by simp [h, h']), class_eq] <;> rfl
theorem State.redirect_outside (h : a.toNat < windowBase ∨ windowBase + 2 ^ 32 ≤ a.toNat) : s.redirect st a n = .ok a.toNat := by
  have hw : ¬a.extractLsb' 32 32 = 0x01800000#32 := by
    rw [extract_window_eq]
    unfold windowBase at h
    omega
  simp only [State.redirect, if_neg hw]
/-- An access that leaves its private window (R86). -/
theorem State.redirect_beyond {d : Desc} {p : Nat} (ha : a.toNat = windowBase + p) (hp : p < 2 ^ 32)
    (hd : s.desc (s.team st.id.tcx).recd.asid = some d) (hn : 2 ^ d.privLog2 < p + n) : s.redirect st a n =
      .error (.trap cAddressClass (BitVec.ofNat 64 (max (windowBase + p) (windowBase + 2 ^ d.privLog2)))) := by
  have hw : a.extractLsb' 32 32 = 0x01800000#32 := by
    rw [extract_window_eq, ha]
    unfold windowBase
    omega
  simp only [State.redirect, if_pos hw, hd, ha, Nat.add_sub_cancel_left, if_pos hn]
end

/-! ### Vault ranges (R72) -/

/-- A byte lies in a VAULT share of the ASID. -/
def State.Vaulted (s : State) (asid : BitVec 16) (x : Nat) : Prop :=
  x / 2 ^ 25 < 48 ∧ (s.share (shareOf x)).role = .vault ∧ (s.share (shareOf x)).owner = asid
/-- The test of `vaultBad` on the first byte of a share. -/
def State.notVaulted (s : State) (asid : BitVec 16) (x : Nat) : Bool :=
  !(decide (x / 2 ^ 25 < 48) && (s.share (shareOf x)).role == .vault && (s.share (shareOf x)).owner == asid)
theorem State.notVaulted_iff {s : State} {asid : BitVec 16} {x : Nat} : s.notVaulted asid x = true ↔ ¬s.Vaulted asid x := by
  simp only [State.notVaulted, State.Vaulted, Bool.not_eq_true', Bool.eq_false_iff, ne_eq, Bool.and_eq_true, decide_eq_true_iff,
    beq_iff_eq, and_assoc]
/-- Shares are 64 KiB. -/
theorem State.vaulted_congr {s : State} {asid : BitVec 16} {x y : Nat} (h : x / 65536 = y / 65536) :
    s.Vaulted asid x ↔ s.Vaulted asid y := by
  have h25 : x / 2 ^ 25 = y / 2 ^ 25 := by omega
  have hs : shareOf x = shareOf y := by
    unfold shareOf
    omega
  rw [State.Vaulted, State.Vaulted, h25, hs]

section
variable {s : State} {asid : BitVec 16} {a n : Nat} (hn : 0 < n)

theorem State.vaultBad_eq : s.vaultBad asid a n = if s.notVaulted asid a then some a else
    ((List.range ((a + n - 1) / 65536 - a / 65536)).find? fun i => s.notVaulted asid ((a / 65536 + i + 1) * 65536)).map
      fun i => (a / 65536 + i + 1) * 65536 := by
  change List.find? (s.notVaulted asid) (a :: _) = _
  rw [List.find?_cons, List.find?_map]
  cases s.notVaulted asid a <;> rfl
include hn
theorem State.vaultBad_none : s.vaultBad asid a n = none ↔ ∀ x, a ≤ x → x < a + n → s.Vaulted asid x := by
  rw [State.vaultBad_eq]
  by_cases ha : s.notVaulted asid a = true
  · rw [if_pos ha]
    exact ⟨fun h => (nomatch h), fun h => absurd (h a (Nat.le_refl a) (by omega)) (State.notVaulted_iff.mp ha)⟩
  · rw [if_neg ha, Option.map_eq_none_iff, List.find?_eq_none]
    rw [State.notVaulted_iff, not_not] at ha
    refine ⟨fun h x hax hxn => ?_, fun h i hi => ?_⟩
    · by_cases hx : x / 65536 = a / 65536
      · exact (State.vaulted_congr hx).mpr ha
      · have hi := h (x / 65536 - a / 65536 - 1) (by rw [List.mem_range]; omega)
        rw [State.notVaulted_iff, not_not] at hi
        exact (State.vaulted_congr (by omega)).mpr hi
    · rw [List.mem_range] at hi
      rw [State.notVaulted_iff, not_not]
      exact h _ (by omega) (by omega)
theorem State.vaultBad_some {b : Nat} (h : s.vaultBad asid a n = some b) :
    a ≤ b ∧ b < a + n ∧ ¬s.Vaulted asid b ∧ ∀ x, a ≤ x → x < b → s.Vaulted asid x := by
  rw [State.vaultBad_eq] at h
  by_cases ha : s.notVaulted asid a = true
  · rw [if_pos ha, Option.some_inj] at h
    subst h
    exact ⟨Nat.le_refl a, by omega, State.notVaulted_iff.mp ha, fun x h1 h2 => absurd h1 (by omega)⟩
  · rw [if_neg ha, Option.map_eq_some_iff] at h
    rw [State.notVaulted_iff, not_not] at ha
    obtain ⟨i, hi, rfl⟩ := h
    obtain ⟨hb, hr, hlow⟩ := List.find?_range_eq_some.mp hi
    rw [List.mem_range] at hr
    refine ⟨by omega, by omega, State.notVaulted_iff.mp hb, fun x hax hxb => ?_⟩
    by_cases hx : x / 65536 = a / 65536
    · exact (State.vaulted_congr hx).mpr ha
    · have hj := hlow (x / 65536 - a / 65536 - 1) (by omega)
      rw [Bool.not_eq_true', Bool.eq_false_iff, ne_eq, State.notVaulted_iff, not_not] at hj
      exact (State.vaulted_congr (by omega)).mpr hj
end

/-! ### A cached translation (R79, R82, R88) -/

section
variable {s : State} {w : Who} {ak : AK} {va : Nat} {e : TlbEntry} (he : s.tlbLookup w.at_ w.die w.asid va = some e)
  (ha : e.leaf.a = true) (hd : ak.writes = true → e.leaf.d = true)
include he ha hd

theorem State.xlate_cached : s.xlate w.at_ w.die w.asid va ak.writes = .ok (e.leaf, e.va, none) := by
  have hc : (!e.leaf.a || (ak.writes && !e.leaf.d)) = false := by
    cases hw : ak.writes with
    | false => simp [ha]
    | true => simp [ha, hd hw]
  simp only [State.xlate, he, hc]
  rfl
theorem State.checkPage_denied (h : (ak.writes = true ∧ e.leaf.w = false) ∨ (ak = .fetch ∧ e.leaf.x = false) ∨
    (w.priv = false ∧ e.leaf.u = false)) : s.checkPage w ak va = .error (.page va (.fault cPagePermission 0 false)) := by
  simp only [State.checkPage, State.xlate_cached he ha hd]
  refine if_pos ?_
  rcases h with ⟨h1, h2⟩ | ⟨h1, h2⟩ | ⟨h1, h2⟩ <;> simp [h1, h2]
theorem State.checkPage_allowed (h : ¬((ak.writes = true ∧ e.leaf.w = false) ∨ (ak = .fetch ∧ e.leaf.x = false) ∨
    (w.priv = false ∧ e.leaf.u = false))) (hc : s.cache? e.leaf.vcid = none) : s.checkPage w ak va =
      if !s.vcUsable e.leaf.vcid then .error (.trap cVcUndefined (BitVec.ofNat 64 va)) else .ok ⟨leafLoc e.leaf e.va va, va, none⟩ := by
  have hden : ((ak.writes && !e.leaf.w) || (ak == .fetch && !e.leaf.x) || (!w.priv && !e.leaf.u)) = false := by
    rw [Bool.eq_false_iff]
    refine mt (fun hh => ?_) h
    simpa [or_assoc] using hh
  have hro : (ak.writes && ((s.cache? e.leaf.vcid).map (·.wpol) == some .readOnly)) = false := by simp [hc]
  simp only [State.checkPage, State.xlate_cached he ha hd, hden, hro]
  rfl
end

/-- Settles O25: `check` by the address's value, `vaultBad` share by share, and `checkPage` over a cached translation. -/
theorem accessChecksAndTranslation : Obligations.AccessChecksAndTranslation := by
  unfold Obligations.AccessChecksAndTranslation
  refine ⟨fun s st ak cl a n align hn => ⟨fun h => ?_, fun h hb => ?_, fun h hb => ?_, fun h hb => ?_, fun h => ?_,
    fun d p ha hp hn2 hc hd hlt => ?_, fun h h' hw hal => ?_, fun h hc hc' hal => ⟨fun b hb => ?_, fun hb => ?_⟩⟩,
    fun s asid a n hn => ⟨State.vaultBad_none hn, fun b hb => State.vaultBad_some hn hb⟩,
    fun s w ak va e he ha hd => ⟨fun h => State.checkPage_denied he ha hd h, fun h h0 hc => ?_, fun h h0 hc => ?_⟩⟩
  · exact State.check_refuses (.inl (by rw [classOk_eq, h]; rfl))
  · refine State.check_refuses (.inl ?_)
    rw [classOk_eq, h]
    rcases hb with hb | hb
    · simp [hb]
    · simp only [decide_eq_false (Nat.not_lt.mpr hb), Bool.and_false]
  · refine State.check_refuses (.inl ?_)
    rw [classOk_eq, h]
    rcases hb with hb | hb
    · simp [hb]
    · simp only [decide_eq_false (Nat.not_lt.mpr hb), Bool.and_false]
  · exact State.check_refuses (.inl (by rw [classOk_eq, h]; exact hb))
  · exact State.check_refuses (.inr h)
  · have hin : ∀ x : DWord, x.toNat < 2 ^ 57 → classOk cl x = true := fun x hx => by
      rw [classOk_eq, show x.toNat / 2 ^ 62 = 0 by omega]
      simp only [hc, decide_eq_true hx, Bool.and_self]
    have hbase : windowBase = 108086391056891904 := rfl
    have hlast : (a + BitVec.ofNat 64 (n - 1)).toNat < 2 ^ 57 := by
      rw [BitVec.toNat_add, BitVec.toNat_ofNat, ha]
      omega
    rw [State.check_accepts (hin a (by omega)) (hin _ hlast), State.redirect_beyond ha hp hd hlt]
  · rw [State.check_accepts h h', State.redirect_outside hw]
    exact if_pos hal
  · have hbase : windowBase = 108086391056891904 := rfl
    rw [State.check_accepts hc hc', State.redirect_outside (.inr (by omega))]
    simp only [hal, h, hb]
    rw [BitVec.ofNat_add]
    rfl
  · have hbase : windowBase = 108086391056891904 := rfl
    rw [State.check_accepts hc hc', State.redirect_outside (.inr (by omega))]
    simp only [hal, h, hb]
    rfl
  · have hu : s.vcUsable e.leaf.vcid = true := by rw [h0]; rfl
    rw [State.checkPage_allowed he ha hd h (by rw [h0]; exact hc), hu]
    rfl
  · have hu : s.vcUsable e.leaf.vcid = false := by
      simp only [State.vcUsable, hc, Bool.or_false, beq_eq_false_iff_ne]
      exact h0
    rw [State.checkPage_allowed he ha hd h hc, hu]
    rfl

end Sys2Proof.Machine
end
section
/-! PROOFS. Issue of operations: the lanes' checks, the numbers and phases of what they leave (R84, R130, R243, R316, R330, R435). -/
namespace Sys2Proof.Machine

/-! ### The checks of the lanes (R243) -/

theorem checkAll_ok {α : Type} {f : SId → Except Fail α} {ids : List SId} {cs : List (SId × α)} (h : checkAll f ids = .ok cs) :
    cs.map Prod.fst = ids ∧ ∀ c ∈ cs, f c.1 = .ok c.2 := by
  induction ids generalizing cs with
  | nil =>
    cases h
    exact ⟨rfl, fun _ h => absurd h List.not_mem_nil⟩
  | cons id r ih =>
    rw [checkAll] at h
    cases hx : f id with
    | error e => rw [hx] at h; cases h
    | ok x =>
      cases hr : checkAll f r with
      | error e => rw [hx, hr] at h; cases h
      | ok xs =>
        rw [hx, hr] at h
        cases h
        obtain ⟨h1, h2⟩ := ih hr
        exact ⟨by rw [List.map_cons, h1], List.forall_mem_cons.mpr ⟨hx, h2⟩⟩
/-- A check that has failed. -/
def failed {α : Type} : Except Fail α → Bool
  | .error _ => true
  | .ok _ => false
theorem checkAll_error {α : Type} {f : SId → Except Fail α} {ids : List SId} {fail : SId} {e : Fail}
    (hf : ids.find? (fun id => failed (f id)) = some fail) (he : f fail = .error e) : checkAll f ids = .error (fail, e) := by
  induction ids with
  | nil => cases hf
  | cons id r ih =>
    rw [List.find?_cons] at hf
    cases hx : f id with
    | error e' =>
      rw [hx, failed] at hf
      cases hf
      rw [he] at hx
      cases hx
      rw [checkAll, he]
    | ok x =>
      rw [hx, failed] at hf
      rw [checkAll, hx, ih hf]

/-! ### Phases -/

/-- The counter of an operation rises (R130). -/
def Stream.counted (k : Nat) (st : Stream) : Stream := { st with cnt := st.cnt.add k 1 }
@[simp] theorem Stream.counted_id (k : Nat) (st : Stream) : (st.counted k).id = st.id := rfl

theorem Checked.Local.ranked {c : Checked} (h : c.Local) : c.loc.ranked = false := by
  obtain ⟨-, -, hk, -⟩ := h
  exact decide_eq_false (Nat.not_le.mpr hk)

section
variable (s : State) (asid : BitVec 16) {o : MemOp}

/-- The phase of an operation that is no class-10 access (R330, R435). -/
def State.startPhase (s : State) (o : MemOp) : OpPhase :=
  if !o.travels then .issued
  else if o.loc.space = .pod then
    if s.links.anyPort || s.cached o then .sent s.gts 1 (s.podPort o) else .failed cPodPortDown 0
  else if o.loc.cxl then
    if s.links.cxlUp || s.cached o then .sent s.gts 1 none else .failed cLinkLost 0
  else .issued
theorem State.sendPhase_unranked (hr : o.loc.ranked = false) : s.sendPhase asid o = (s.startPhase o, []) := by
  unfold State.sendPhase State.startPhase
  simp only [hr, Bool.false_eq_true, if_false]
  split
  · rfl
  · split
    · split <;> rfl
    · split
      · split <;> rfl
      · rfl
/-- An operation on the device's own memory. -/
theorem State.startPhase_local {s : State} (hl : o.loc.space.local = true) (hc : o.loc.cxl = false) : s.startPhase o = .issued := by
  have hp : o.loc.space ≠ .pod := fun e => by rw [e] at hl; cases hl
  unfold State.startPhase
  rw [if_neg hp, hc]
  split <;> rfl
theorem State.launchOp_unranked (hr : o.loc.ranked = false) :
    s.launchOp asid o = s.issueOp { o with phase := s.startPhase { o with num := s.nextOp } } := by
  have hp := s.sendPhase_unranked asid (o := { o with num := s.nextOp }) hr
  simp only [State.launchOp, hp, hr, List.append_nil, Bool.false_eq_true, if_false]
  split <;> rfl
/-- An operation of one lane. -/
theorem State.issueOp_one {l : OpLane} (hl : o.lanes = [l]) : s.issueOp o =
    { s.onLane l.sid (Stream.counted o.counter) with
      ops := s.ops ++ [{ o with num := s.nextOp }], nextOp := s.nextOp + 1 } := by
  rw [State.issueOp, hl]
  rfl
end

/-! ### One operation for each lane -/

theorem State.touch_none (s : State) (w : Who) (ak : AK) {c : Checked} (h : c.walked = none) : s.touch w ak c = s := by
  rw [State.touch, h]
theorem State.opsOf_nil (s : State) (f : OpForm) (data : SId → DWord × DWord) : s.opsOf f data [] = [] := rfl
theorem State.opsOf_cons (s : State) (f : OpForm) (data : SId → DWord × DWord) (c : SId × Checked) (cs : List (SId × Checked)) :
    s.opsOf f data (c :: cs) = { s.mkOp f [⟨c.1, (data c.1).1, (data c.1).2⟩] none c.2 with num := s.nextOp } ::
      State.opsOf { s with nextOp := s.nextOp + 1 } f data cs := by
  unfold State.opsOf
  rw [List.zipIdx_cons', List.map_cons, List.map_map]
  congr 1
  refine List.map_congr_left fun x _ => ?_
  rw [Function.comp_apply, Prod.map_apply]
  simp only [Nat.add_assoc, Nat.add_comm 1]
  rfl
/-- Each lane of an instruction leaves one operation on the device's own memory, in ascending thread index. -/
theorem State.issueAll_local (f : OpForm) (ak : AK) (data : SId → DWord × DWord) {cs : List (SId × Checked)} (s : State)
    (hn : (cs.map Prod.fst).Nodup) (hl : ∀ c ∈ cs, c.2.Local) : s.issueAll f ak data (fun _ => none) cs =
      { s.onLanes (cs.map Prod.fst) (Stream.counted f.counter) with
        ops := s.ops ++ s.opsOf f data cs, nextOp := s.nextOp + cs.length } := by
  induction cs generalizing s with
  | nil =>
    simp only [State.issueAll, List.foldl_nil, State.opsOf_nil, List.append_nil, List.length_nil, Nat.add_zero, List.map_nil,
      State.onLanes, List.not_mem_nil, if_false, List.map_id']
  | cons c r ih =>
    obtain ⟨hc, hr⟩ := List.forall_mem_cons.mp hl
    rw [List.map_cons, List.nodup_cons] at hn
    have hrank := hc.ranked
    obtain ⟨hloc, hcxl, -, hw⟩ := hc
    have hph : ∀ o : MemOp, o.loc = c.2.loc → s.startPhase o = .issued := fun o ho =>
      State.startPhase_local (by rw [ho]; exact hloc) (by rw [ho]; exact hcxl)
    have hstep : (s.touch (s.who (s.stream c.1)) ak c.2).launchOp (s.team c.1.tcx).recd.asid
        ((s.touch (s.who (s.stream c.1)) ak c.2).mkOp f [⟨c.1, (data c.1).1, (data c.1).2⟩] none c.2) =
        { s.onLane c.1 (Stream.counted f.counter) with
          ops := s.ops ++ [{ s.mkOp f [⟨c.1, (data c.1).1, (data c.1).2⟩] none c.2 with num := s.nextOp }]
          nextOp := s.nextOp + 1 } := by
      rw [s.touch_none _ _ hw, s.launchOp_unranked _ hrank,
        hph { s.mkOp f [⟨c.1, (data c.1).1, (data c.1).2⟩] none c.2 with num := s.nextOp } rfl]
      exact s.issueOp_one (o := { s.mkOp f [⟨c.1, (data c.1).1, (data c.1).2⟩] none c.2 with phase := .issued }) rfl
    change State.issueAll (State.launchOp _ _ _) f ak data (fun _ => none) r = _
    rw [hstep, ih _ hn.2 hr, s.opsOf_cons, List.map_cons, ← State.onLanes_cons (f := Stream.counted f.counter) (fun _ => rfl) hn.1]
    have hops : ∀ x, (s.ops ++ [x]) ++ State.opsOf { s with nextOp := s.nextOp + 1 } f data r =
        s.ops ++ x :: State.opsOf { s with nextOp := s.nextOp + 1 } f data r := fun x => by rw [List.append_assoc]; rfl
    rw [List.length_cons, ← hops, Nat.add_comm r.length, ← Nat.add_assoc]
    rfl

end Sys2Proof.Machine
end
section
/-! PROOFS. The access instructions (R130, R242 to R248, R330, R331, R435). -/
namespace Sys2Proof.Machine

/-! ### The waits before an access -/

theorem inMask_mono {m m' : BitVec 5} {sp : Space} (h : ∀ i, m.getLsbD i = true → m'.getLsbD i = true) (hm : inMask m sp = true) :
    inMask m' sp = true := h _ hm
theorem State.farPending_mono {s : State} {id : SId} {m m' : BitVec 5} (h : ∀ i, m.getLsbD i = true → m'.getLsbD i = true)
    (hf : s.farPending id m' = false) : s.farPending id m = false := by
  rw [State.farPending, List.any_eq_false] at hf ⊢
  refine fun o ho hh => hf o ho ?_
  rw [Bool.and_eq_true] at hh ⊢
  exact ⟨hh.1, inMask_mono h hh.2⟩
/-- The mask of an access of the device's own memory names no far space that STOR does not. -/
theorem ordMask_far {scp : Bool} {stor : BitVec 5} {sp : Space} (hl : sp.local = true) :
    ∀ i, (ordMask scp stor sp &&& farMask).getLsbD i = true → stor.getLsbD i = true := by
  intro i hi
  rw [BitVec.getLsbD_and, Bool.and_eq_true] at hi
  obtain ⟨hm, hf⟩ := hi
  cases scp with
  | false => simp [ordMask] at hm
  | true =>
    rw [ordMask, if_pos rfl, BitVec.getLsbD_or, Bool.or_eq_true] at hm
    refine hm.resolve_right fun hs => ?_
    have hnone : ∀ sp : Space, sp.local = true → spaceBit sp &&& farMask = 0 := by
      intro sp h
      match sp, h with
      | .vault, _ => rfl
      | .dev, _ => rfl
    have := congrArg (·.getLsbD i) (hnone sp hl)
    simp [hs, hf] at this

section
variable {s : State} {ids : List SId}

theorem State.counterFull_false {k : Nat} (h : ∀ id ∈ ids, (s.stream id).cnt.get k < 254) : s.counterFull ids k = false := by
  rw [State.counterFull, List.any_eq_false]
  intro id hid
  simpa using h id hid
theorem State.flushWait_false (h : ∀ id ∈ ids, (s.stream id).flush = none) : s.flushWait ids = false := by
  rw [State.flushWait, List.any_eq_false]
  intro id hid
  rw [h id hid]
  exact Bool.false_ne_true
/-- After the acquire of lanes that wait for no flush. -/
theorem State.acquired_streams (ord : Order) (h : ∀ id ∈ ids, (s.stream id).flush = none) (id : SId) :
    (s.acquired ord ids).stream id = s.stream id := by
  unfold State.acquired
  split
  · by_cases hid : id ∈ ids
    · cases hst : s.stream? id with
      | none =>
        rw [State.stream, State.stream, s.onLanes_stream? ids _ (fun _ => by rfl) id, hst]
        rfl
      | some st =>
        rw [s.onLanes_stream _ (fun _ => by rfl) (by rw [hst]; rfl), if_pos hid]
        rw [← h id hid]
    · exact s.onLanes_unlisted (fun _ => by rfl) hid
  · rfl
end

theorem State.replyFull_local {s : State} (core : Nat) {cs : List (SId × Checked)} (h : ∀ c ∈ cs, c.2.Local) :
    s.replyFull core cs = false := by
  have hf : (cs.filter fun c => c.2.loc.space == .pod) = [] := by
    rw [List.filter_eq_nil_iff]
    intro c hc hp
    have := (h c hc).1
    rw [beq_iff_eq.mp hp] at this
    cases this
  rw [State.replyFull, hf]
  rfl
theorem State.remoteHeld_unranked {s : State} (f : OpForm) {cs : List (SId × Checked)} (h : ∀ c ∈ cs, c.2.loc.ranked = false) :
    s.remoteHeld f cs = false := by
  rw [State.remoteHeld, List.any_eq_false]
  intro c hc
  simp [h c hc]
theorem any_ranked {cs : List (SId × Checked)} (h : ∀ c ∈ cs, c.2.loc.ranked = false) : (cs.any fun c => c.2.loc.ranked) = false := by
  rw [List.any_eq_false]
  intro c hc
  simp [h c hc]
theorem State.farWait_local {s : State} {scp : Bool} {ord : Order} {stor : BitVec 5} {cs : List (SId × Checked)}
    (hl : ∀ c ∈ cs, c.2.Local) (hf : ∀ c ∈ cs, s.farPending c.1 stor = false) : s.farWait scp ord stor cs = .go := by
  have h1 : (cs.any fun c => s.farPending c.1 (ordMask scp stor c.2.loc.space &&& farMask)) = false := by
    rw [List.any_eq_false]
    intro c hc
    rw [State.farPending_mono (ordMask_far (hl c hc).1) (hf c hc)]
    exact Bool.false_ne_true
  have h2 : (cs.any fun c => s.farOrdered c.1 c.2.loc.space) = false := by
    rw [List.any_eq_false]
    intro c hc
    rw [State.farOrdered, (hl c hc).1]
    exact Bool.false_ne_true
  simp only [State.farWait, h1, h2, Bool.and_false]
  rfl

/-! ### The access mould (R242 to R248) -/

section
variable {s : State} {o : Acc} {kind : OpKind} {ak : AK} {cl : Classes} {ctr : Nat} (hd : Reg.isPort o.d = false)
  (hcnt : ∀ id ∈ s.active o.g, (s.stream id).cnt.get ctr < 254 ∧ (s.stream id).flush = none)
include hd hcnt

/-- An access, up to its lanes' checks. -/
theorem State.access_checks (hne : s.active o.g ≠ []) : s.access o kind ak cl ctr =
    match checkAll (fun id => s.checkAt id ak cl (accAddr o (s.stream id)) (2 ^ o.size.toNat) (2 ^ o.size.toNat)) (s.active o.g) with
    | .error (id, e) => s.failLane o.g ak (s.stream id) e
    | .ok cs => s.accessGo o (accForm o kind ctr) ak (s.active o.g) cs := by
  have h1 := State.counterFull_false fun id hid => (hcnt id hid).1
  have h2 := State.flushWait_false fun id hid => (hcnt id hid).2
  obtain ⟨low, rest, hact⟩ := List.exists_cons_of_ne_nil hne
  rw [hact] at h1 h2
  simp only [State.access, hact, List.head?_cons, hd, h1, h2, Bool.false_and, Bool.and_false, Bool.or_self, Bool.false_eq_true, if_false] <;> rfl
end

/-- The instruction once its checks have passed, for a register D and no class-10 access. -/
theorem State.accessGo_plain {s : State} {o : Acc} {f : OpForm} {ak : AK} {ids : List SId} {cs : List (SId × Checked)}
    (hd : Reg.isPort o.d = false) (hw : s.windowed = false) (hr : ∀ c ∈ cs, c.2.loc.ranked = false)
    (hfull : s.replyFull ((ids.head?.map s.curTeam.coreOf).getD 0) cs = false) (hgo : s.farWait o.scp o.ord o.stor cs = .go) :
    s.accessGo o f ak ids cs = ((s.issueAll f ak (fun id => (accData o (s.stream id), 0)) (fun _ => none) cs).acquired o.ord ids).retireLanes
      o.g fun st => st.kill64 o.s1 o.k1 := by
  simp only [State.accessGo, hw, hfull, State.remoteHeld_unranked f hr, hgo, any_ranked hr, hd, Bool.false_and, Bool.and_false,
    Bool.or_self, Bool.false_eq_true, if_false, Bool.not_false, if_true]

theorem State.stream_congr {s t : State} (h : t.streams = s.streams) (id : SId) : t.stream id = s.stream id := by
  unfold State.stream State.stream?
  rw [h]
theorem State.stream?_congr {s t : State} (h : t.streams = s.streams) (id : SId) : t.stream? id = s.stream? id := by
  unfold State.stream?
  rw [h]
theorem State.active_congr {s t : State} {g : Guard} (hc : t.cur = s.cur)
    (hg : ∀ id ∈ s.cur.lanes, guardHolds g (t.stream id) = guardHolds g (s.stream id)) : t.active g = s.active g := by
  rw [State.active, hc]
  exact List.filter_congr hg
theorem State.acquired_cur (s : State) (ord : Order) (ids : List SId) : (s.acquired ord ids).cur = s.cur := by
  unfold State.acquired
  split <;> rfl
theorem State.acquired_only (s : State) (ord : Order) (ids : List SId) : s.OnlyStreams (s.acquired ord ids) ids := by
  unfold State.acquired
  split
  · exact s.onLanes_onlyStreams (fun _ => by rfl) _
  · exact .refl s ids
theorem State.acquired_present {s : State} {ord : Order} {ids l : List SId} (hp : s.Present l) : (s.acquired ord ids).Present l := by
  unfold State.acquired
  split
  · exact s.onLanes_present (fun _ => by rfl) hp
  · exact hp
theorem guardHolds_counted (g : Guard) (st : Stream) (k : Nat) : guardHolds g (st.counted k) = guardHolds g st := rfl

section
variable {s u : State} {g : Guard} {ord : Order} {ctr : Nat} {f : Stream → Stream} (hf : ∀ st : Stream, (f st).id = st.id)
  (hcur : u.cur = s.cur) (hu : u.streams = (s.onLanes (s.active g) (Stream.counted ctr)).streams)
include hf hcur hu

/-- Streams outside the group that issues stay as they were. -/
theorem State.issued_others {id : SId} (h : id ∉ s.cur.lanes) :
    ((u.acquired ord (s.active g)).retireLanes g f).stream? id = s.stream? id := by
  have hcur' : (u.acquired ord (s.active g)).cur = s.cur := (u.acquired_cur _ _).trans hcur
  have hact : id ∉ s.active g := fun hm => h (s.active_subset g hm)
  rw [((u.acquired ord (s.active g)).retireLanes_onlyStreams g hf).2 id (by rw [hcur']; exact h),
    (u.acquired_only ord (s.active g)).2 id hact, State.stream?_congr hu, s.onLanes_other _ (fun st => st.counted_id ctr) hact]

/-- Lanes that have issued their operations retire. -/
theorem State.issued_lanes (hp : s.Present s.cur.lanes) (hfl : ∀ id ∈ s.active g, (s.stream id).flush = none) :
    (∀ id ∈ s.active g, ((u.acquired ord (s.active g)).retireLanes g f).stream id = (f ((s.stream id).counted ctr)).goto s.cur.npc) ∧
      ∀ id ∈ s.cur.lanes, id ∉ s.active g → ((u.acquired ord (s.active g)).retireLanes g f).stream id = (s.stream id).goto s.cur.npc := by
  have hcur' : (u.acquired ord (s.active g)).cur = s.cur := (u.acquired_cur _ _).trans hcur
  have hin : ∀ id ∈ s.active g, u.stream id = (s.stream id).counted ctr := fun id hid => by
    rw [State.stream_congr hu, s.onLanes_listed (fun st => st.counted_id ctr) hid (hp id (s.active_subset g hid))]
  have hout : ∀ id, id ∉ s.active g → u.stream id = s.stream id := fun id hid => by
    rw [State.stream_congr hu, s.onLanes_unlisted (fun st => st.counted_id ctr) hid]
  have hst : ∀ id, (u.acquired ord (s.active g)).stream id = u.stream id :=
    u.acquired_streams ord fun id hid => by rw [hin id hid]; exact hfl id hid
  have hpu : u.Present s.cur.lanes := fun id hid => by
    rw [State.stream?_congr hu]
    exact s.onLanes_present (fun st => st.counted_id ctr) hp id hid
  have hlanes := (u.acquired ord (s.active g)).retireLanes_lanes g hf (by rw [hcur']; exact State.acquired_present hpu)
  have hact : (u.acquired ord (s.active g)).active g = s.active g := State.active_congr hcur' fun id hid => by
    rw [hst]
    by_cases h : id ∈ s.active g
    · rw [hin id h, guardHolds_counted]
    · rw [hout id h]
  rw [State.Lanes, hact, hcur'] at hlanes
  obtain ⟨hon, hoff, -⟩ := hlanes
  exact ⟨fun id hid => by rw [hon id hid, hst, hin id hid], fun id hid hn => by rw [hoff id hid hn, hst, hout id hn]⟩
end

theorem Stream.wr_counted (st : Stream) (r : Reg) (v : Word) (k : Nat) : (st.counted k).wr r v = (st.wr r v).counted k := by
  unfold Stream.wr
  split <;> rfl
theorem Stream.kill_counted (st : Stream) (r : Reg) (b : Bool) (k : Nat) : (st.counted k).kill r b = (st.kill r b).counted k := by
  cases b
  · rfl
  · exact st.wr_counted r 0 k
theorem Stream.kill64_counted (st : Stream) (r : Reg) (b : Bool) (k : Nat) : (st.counted k).kill64 r b = (st.kill64 r b).counted k := by
  rw [Stream.kill64, Stream.kill_counted, Stream.kill_counted]
  rfl
theorem Stream.kill64_cnt (st : Stream) (r : Reg) (b : Bool) : (st.kill64 r b).cnt = st.cnt := by
  rw [(Stream.ChangesOnly.kill64 (rs := killed64 r b) st (List.Subset.refl _)).2]

/-- `ld`, `st`, `ldro`, `ldv` and `stv` are the access mould. -/
theorem exec_access {i : Instr} {kind : OpKind} {ak : AK} {cl : Classes} {ctr : Nat} {o : Acc} (s : State)
    (hi : (i, kind, ak, cl, ctr) ∈ [(Instr.ld o, OpKind.load o.sx, AK.load, allClasses, 0), (.st o, .store, .store, allClasses, 1),
      (.ldro o, .load o.sx, .load, class00, 0), (.ldv o, .load o.sx, .load, vaultOnly, 0), (.stv o, .store, .store, vaultOnly, 1)]) :
    exec i s = .next (s.access o kind ak cl ctr) := by
  simp only [List.mem_cons, List.not_mem_nil, or_false, Prod.mk.injEq] at hi
  rcases hi with ⟨rfl, rfl, rfl, rfl, rfl⟩ | ⟨rfl, rfl, rfl, rfl, rfl⟩ | ⟨rfl, rfl, rfl, rfl, rfl⟩ | ⟨rfl, rfl, rfl, rfl, rfl⟩ |
    ⟨rfl, rfl, rfl, rfl, rfl⟩ <;> rfl

section
variable {s : State} {o : Acc} {kind : OpKind} {ak : AK} {cl : Classes} {ctr : Nat}

/-- The first failing lane of an access decides (R243). -/
theorem State.access_traps (hd : Reg.isPort o.d = false) (hw : s.windowed = false)
    (hcnt : ∀ id ∈ s.active o.g, (s.stream id).cnt.get ctr < 254 ∧ (s.stream id).flush = none) {fail : SId} {cause : Cause} {a : DWord}
    (hf : (s.active o.g).find? (fun id => failed
      (s.checkAt id ak cl (accAddr o (s.stream id)) (2 ^ o.size.toNat) (2 ^ o.size.toNat))) = some fail)
    (he : s.checkAt fail ak cl (accAddr o (s.stream fail)) (2 ^ o.size.toNat) (2 ^ o.size.toNat) = .error (.trap cause a)) :
    s.access o kind ak cl ctr = (s.refused (s.who (s.stream fail)) ak (.trap cause a)).trap7 o.g cause fail a := by
  have hne : s.active o.g ≠ [] := List.ne_nil_of_mem (List.mem_of_find?_eq_some hf)
  rw [State.access_checks hd hcnt hne, checkAll_error hf he]
  dsimp only
  rw [State.failLane, if_neg (by simp [hw])]
  rw [s.stream_id]
theorem State.refused_trap {w : Who} {a : DWord} {cause : Cause} (h : cause ∉ [cVcUndefined, cPagePermission]) :
    s.refused w ak (.trap cause a) = s := by
  simp only [List.mem_cons, List.not_mem_nil, or_false] at h
  rw [State.refused]
  exact if_neg h

/-- An access of the device's own memory whose checks pass. -/
theorem State.access_local (hn : s.cur.lanes.Nodup) (hne : s.active o.g ≠ []) (hd : Reg.isPort o.d = false)
    (hw : s.windowed = false) (hcnt : ∀ id ∈ s.active o.g, (s.stream id).cnt.get ctr < 254 ∧ (s.stream id).flush = none ∧
      s.farPending id o.stor = false) {cs : List (SId × Checked)}
    (hcs : checkAll (fun id => s.checkAt id ak cl (accAddr o (s.stream id)) (2 ^ o.size.toNat) (2 ^ o.size.toNat)) (s.active o.g) = .ok cs)
    (hl : ∀ c ∈ cs, c.2.Local) : ∃ u : State, s.access o kind ak cl ctr =
      (u.acquired o.ord (s.active o.g)).retireLanes o.g (fun st => st.kill64 o.s1 o.k1) ∧ u.cur = s.cur ∧
      u.streams = (s.onLanes (s.active o.g) (Stream.counted ctr)).streams ∧ u = { s with
        streams := u.streams, nextOp := s.nextOp + cs.length
        ops := s.ops ++ s.opsOf (accForm o kind ctr) (fun id => (accData o (s.stream id), 0)) cs } := by
  obtain ⟨hids, -⟩ := checkAll_ok hcs
  have hmem : ∀ c ∈ cs, c.1 ∈ s.active o.g := fun c hc => hids ▸ List.mem_map_of_mem hc
  rw [State.access_checks hd (fun id hid => ⟨(hcnt id hid).1, (hcnt id hid).2.1⟩) hne, hcs]
  dsimp only
  rw [State.accessGo_plain hd hw (fun c hc => (hl c hc).ranked) (State.replyFull_local _ hl)
    (State.farWait_local hl fun c hc => (hcnt c.1 (hmem c hc)).2.2),
    State.issueAll_local _ _ _ s (by rw [hids]; exact hn.filter _) hl, hids]
  exact ⟨_, rfl, rfl, rfl, rfl⟩
end

/-- The operation of one lane of an access. -/
def State.accOp (s : State) (o : Acc) (kind : OpKind) (ctr : Nat) (id : SId) (c : Checked) : MemOp :=
  { s.mkOp (accForm o kind ctr) [⟨id, accData o (s.stream id), 0⟩] none c with num := s.nextOp }
theorem State.issueAll_one {s : State} {o : Acc} {kind : OpKind} {ak : AK} {ctr : Nat} {id : SId} {c : Checked} (hwk : c.walked = none)
    (hr : c.loc.ranked = false) :
    s.issueAll (accForm o kind ctr) ak (fun id => (accData o (s.stream id), 0)) (fun _ => none) [(id, c)] =
      { s.onLanes [id] (Stream.counted ctr) with
        ops := s.ops ++ [{ s.accOp o kind ctr id c with phase := s.startPhase (s.accOp o kind ctr id c) }], nextOp := s.nextOp + 1 } := by
  change State.launchOp _ _ _ = _
  rw [s.touch_none _ _ hwk, s.launchOp_unranked _ hr, s.issueOp_one (l := ⟨id, accData o (s.stream id), 0⟩) (by rfl)]
  rfl

/-- An access of one lane that goes over no rank's descriptor. -/
theorem State.access_one {s : State} {o : Acc} {kind : OpKind} {ak : AK} {cl : Classes} {ctr : Nat} {id : SId} {c : Checked}
    (hl : s.cur.lanes = [id]) (hg : guardHolds o.g (s.stream id) = true) (hd : Reg.isPort o.d = false) (hw : s.windowed = false)
    (hcnt : (s.stream id).cnt.get ctr < 254) (hfl : (s.stream id).flush = none)
    (hc : s.checkAt id ak cl (accAddr o (s.stream id)) (2 ^ o.size.toNat) (2 ^ o.size.toNat) = .ok c) (hwk : c.walked = none)
    (hr : c.loc.ranked = false) (hgo : s.farWait o.scp o.ord o.stor [(id, c)] = .go)
    (hfull : s.replyFull (s.curTeam.coreOf id) [(id, c)] = false) :
    ∃ u : State, s.access o kind ak cl ctr =
      (u.acquired o.ord (s.active o.g)).retireLanes o.g (fun st => st.kill64 o.s1 o.k1) ∧ u.cur = s.cur ∧
      u.streams = (s.onLanes (s.active o.g) (Stream.counted ctr)).streams ∧ u = { s with
        streams := u.streams, nextOp := s.nextOp + 1, ops := s.ops ++ [{ s.accOp o kind ctr id c with phase := s.startPhase (s.accOp o kind ctr id c) }] } := by
  have hact := State.active_one hl hg
  have hck : checkAll (fun id => s.checkAt id ak cl (accAddr o (s.stream id)) (2 ^ o.size.toNat) (2 ^ o.size.toNat)) [id] = .ok [(id, c)] := by
    rw [checkAll, hc]
    rfl
  have hall : ∀ c' ∈ [(id, c)], c'.2.loc.ranked = false := fun c' h => by rw [List.mem_singleton.mp h]; exact hr
  rw [State.access_checks hd (fun id' hid => by rw [hact, List.mem_singleton] at hid; rw [hid]; exact ⟨hcnt, hfl⟩) (by simp [hact]),
    hact, hck]
  dsimp only
  rw [State.accessGo_plain (ids := [id]) hd hw hall hfull hgo, State.issueAll_one hwk hr]
  exact ⟨_, rfl, rfl, rfl, rfl⟩

/-- Settles O26: the access mould with its checks passing, for one lane in every space, and with a failing lane. -/
theorem accessesIssueOrTrap : Obligations.AccessesIssueOrTrap := by
  unfold Obligations.AccessesIssueOrTrap
  refine ⟨fun i kind ak cl ctr o s cs hi hn hp hne hd hw _ hcnt hcs hl => ?_,
    fun i kind ak cl ctr o s id c hi ⟨hlane, hg, hp⟩ hd hw _ hcnt hfl hc hwk hk hgo hfull => ?_,
    fun i ak cl ctr o s fail cause a hi hd hw hcnt hf he => ?_⟩
  · obtain ⟨u, hex, hcur, hu, heq⟩ := State.access_local (kind := kind) hn hne hd hw hcnt hcs hl
    have hkid : ∀ st : Stream, (st.kill64 o.s1 o.k1).id = st.id := fun st => st.kill64_id _ _
    obtain ⟨hon, hoff⟩ := State.issued_lanes (ord := o.ord) hkid hcur hu hp fun id hid => (hcnt id hid).2.1
    refine ⟨_, exec_access s hi, ?_⟩
    rw [hex]
    refine ⟨?_, fun id hid => State.issued_others hkid hcur hu hid, fun id hid => ?_, hoff⟩
    · have h1 := (u.acquired_only o.ord (s.active o.g)).1
      have h2 := ((u.acquired o.ord (s.active o.g)).retireLanes_onlyStreams o.g hkid).1
      rw [h2, h1, heq]
      rfl
    · rw [hon id hid, Stream.kill64_counted, Stream.counted, Stream.kill64_cnt]
  · have hi5 := List.mem_append_left [(Instr.ldv o, OpKind.load o.sx, AK.load, vaultOnly, 0), (.stv o, .store, .store, vaultOnly, 1)] hi
    have htr : ∀ x : MemOp, x.kind = kind → x.travels = true := fun x hx => by
      simp only [List.mem_cons, List.not_mem_nil, or_false, Prod.mk.injEq] at hi
      rw [MemOp.travels, hx]
      rcases hi with ⟨-, rfl, -⟩ | ⟨-, rfl, -⟩ | ⟨-, rfl, -⟩ <;> rfl
    intro data x ph
    obtain ⟨u, hex, hcur, hu, heq⟩ := State.access_one (kind := kind) hlane hg hd hw hcnt hfl hc hwk
      (decide_eq_false (Nat.not_le.mpr hk)) hgo hfull
    have hkid : ∀ st : Stream, (st.kill64 o.s1 o.k1).id = st.id := fun st => st.kill64_id _ _
    have hact := State.active_one hlane hg
    have hfl' : ∀ id' ∈ s.active o.g, (s.stream id').flush = none := fun id' h => by
      rw [hact, List.mem_singleton] at h
      rw [h]
      exact hfl
    obtain ⟨hon, -⟩ := State.issued_lanes (ord := o.ord) hkid hcur hu (by rw [hlane]; exact hp) hfl'
    have hph : s.startPhase x = ph := by
      rw [State.startPhase, htr x rfl]
      simp only [Bool.not_true, Bool.false_eq_true, if_false, Bool.or_eq_true]
      rfl
    rw [show s.accOp o kind ctr id c = x from rfl, hph] at heq
    refine ⟨_, exec_access s hi5, ?_⟩
    rw [hex]
    refine ⟨?_, rfl, ?_, fun id' hne => State.issued_others hkid hcur hu (by rw [hlane]; simpa using hne)⟩
    · have h1 := (u.acquired_only o.ord (s.active o.g)).1
      have h2 := ((u.acquired o.ord (s.active o.g)).retireLanes_onlyStreams o.g hkid).1
      rw [h2, h1, heq]
    · rw [hon id (by rw [hact]; exact List.mem_singleton_self id), Stream.kill64_counted]
      rfl
  · have hi5 : ∃ kind, (i, kind, ak, cl, ctr) ∈ [(Instr.ld o, OpKind.load o.sx, AK.load, allClasses, 0), (.st o, .store, .store, allClasses, 1),
        (.ldro o, .load o.sx, .load, class00, 0), (.ldv o, .load o.sx, .load, vaultOnly, 0), (.stv o, .store, .store, vaultOnly, 1)] := by
      simp only [List.mem_cons, List.not_mem_nil, or_false, Prod.mk.injEq] at hi ⊢
      rcases hi with h | h | h | h | h
      · exact ⟨.load o.sx, .inl ⟨h.1, rfl, h.2⟩⟩
      · exact ⟨.store, .inr (.inl ⟨h.1, rfl, h.2⟩)⟩
      · exact ⟨.load o.sx, .inr (.inr (.inl ⟨h.1, rfl, h.2⟩))⟩
      · exact ⟨.load o.sx, .inr (.inr (.inr (.inl ⟨h.1, rfl, h.2⟩)))⟩
      · exact ⟨.store, .inr (.inr (.inr (.inr ⟨h.1, rfl, h.2⟩)))⟩
    obtain ⟨kind, hi5⟩ := hi5
    have hf' : (s.active o.g).find? (fun id => failed
        (s.checkAt id ak cl (accAddr o (s.stream id)) (2 ^ o.size.toNat) (2 ^ o.size.toNat))) = some fail := by
      rw [← hf]
      refine find?_congr_mem fun id _ => ?_
      change _ = match s.checkAt id ak cl (accAddr o (s.stream id)) (2 ^ o.size.toNat) (2 ^ o.size.toNat) with
        | .error _ => true
        | .ok _ => false
      cases s.checkAt id ak cl (accAddr o (s.stream id)) (2 ^ o.size.toNat) (2 ^ o.size.toNat) <;> rfl
    have htrap := State.access_traps (kind := kind) (cl := cl) (ctr := ctr) hd hw hcnt hf' he
    exact ⟨by rw [exec_access s hi5, htrap], fun hc => by rw [exec_access s hi5, htrap, State.refused_trap hc]⟩

end Sys2Proof.Machine
end
section
/-! PROOFS. What ends an operation leaves of its streams (R130, R246), and what loads and stores do when they are performed. -/
namespace Sys2Proof.Machine

/-! ### Notes of what happens before what -/

/-- Nothing differs but the notes of some streams. -/
def State.NotesOn (s t : State) (ids : List SId) : Prop :=
  ∃ f : Stream → Stream, (∀ st, (f st).bare = st.bare) ∧ (∀ st, st.id ∉ ids → f st = st) ∧ t = { s with streams := s.streams.map f }

theorem Stream.bare_id (st : Stream) : st.bare.id = st.id := rfl
theorem Stream.id_of_bare {st st' : Stream} (h : st'.bare = st.bare) : st'.id = st.id := by
  rw [← st'.bare_id, h, st.bare_id]
namespace State.NotesOn
variable {s t u : State} {ids : List SId}

theorem refl (s : State) (ids : List SId) : s.NotesOn s ids :=
  ⟨fun st => st, fun _ => rfl, fun _ _ => rfl, by rw [List.map_id']⟩
theorem trans (h : s.NotesOn t ids) (h' : t.NotesOn u ids) : s.NotesOn u ids := by
  obtain ⟨f, hb, ho, ht⟩ := h
  obtain ⟨f', hb', ho', hu⟩ := h'
  refine ⟨fun st => f' (f st), fun st => (hb' _).trans (hb st), fun st hst => ?_, ?_⟩
  · dsimp only
    rw [ho st hst, ho' st hst]
  · rw [hu, ht]
    simp only [List.map_map, Function.comp_def]
theorem of_onLane (s : State) (id : SId) {f : Stream → Stream} (hb : ∀ st : Stream, (f st).bare = st.bare) :
    s.NotesOn (s.onLane id f) [id] :=
  ⟨fun st => if st.id ∈ [id] then f st else st, fun st => by
    dsimp only
    split
    · exact hb st
    · rfl, fun _ h => if_neg h, rfl⟩
theorem mono {ids' : List SId} (h : s.NotesOn t ids) (hs : ids ⊆ ids') : s.NotesOn t ids' := by
  obtain ⟨f, hb, ho, ht⟩ := h
  exact ⟨f, hb, fun st hn => ho st fun hm => hn (hs hm), ht⟩
theorem foldl {α : Type} {step : State → α → State} {on : α → SId} {l : List α}
    (h : ∀ a ∈ l, ∀ s : State, s.NotesOn (step s a) [on a]) (s : State) : s.NotesOn (l.foldl step s) (l.map on) := by
  induction l generalizing s with
  | nil => exact refl s _
  | cons a r ih =>
    refine ((h a List.mem_cons_self s).mono (by simp)).trans ?_
    exact (ih (fun b hb => h b (List.mem_cons_of_mem a hb)) _).mono (by simp)

theorem onlyStreams (h : s.NotesOn t ids) : s.OnlyStreams t ids := by
  obtain ⟨f, hb, ho, ht⟩ := h
  refine ⟨by rw [ht], fun id hid => ?_⟩
  rw [ht, s.stream?_map f (fun st => Stream.id_of_bare (hb st)) id]
  cases hs : s.stream? id with
  | none => rfl
  | some st =>
    have hi : st.id = id := by simpa using List.find?_some hs
    rw [Option.map_some, ho st (hi ▸ hid)]
theorem present (h : s.NotesOn t ids) {l : List SId} (hp : s.Present l) : t.Present l := by
  obtain ⟨f, hb, -, ht⟩ := h
  intro id hid
  rw [ht, s.stream?_map f (fun st => Stream.id_of_bare (hb st)) id, Option.isSome_map]
  exact hp id hid
theorem bare (h : s.NotesOn t ids) (id : SId) : (t.stream id).bare = (s.stream id).bare := by
  obtain ⟨f, hb, -, ht⟩ := h
  rw [State.stream, State.stream, ht, s.stream?_map f (fun st => Stream.id_of_bare (hb st)) id]
  cases s.stream? id with
  | none => rfl
  | some st => exact hb st
end State.NotesOn

/-- What performing an operation notes of its streams. -/
theorem State.noteDone_notes (s : State) (o : MemOp) (self : List Nat) : s.NotesOn (s.noteDone o self) (o.lanes.map (·.sid)) := by
  refine State.NotesOn.foldl (fun l _ s => ?_) s
  dsimp only
  have hif : ∀ {u v : State} (c : Bool) {f : Stream → Stream}, s.NotesOn u [l.sid] → (∀ st : Stream, (f st).bare = st.bare) →
      v = (if c then u else u.onLane l.sid f) → s.NotesOn v [l.sid] := by
    intro u v c f hu hf hv
    rw [hv]
    split
    · exact hu
    · exact hu.trans (.of_onLane u l.sid hf)
  exact hif _ (hif _ (hif _ (.refl s _) (fun _ => by rfl) rfl) (fun _ => by rfl) rfl) (fun _ => by rfl) rfl

/-! ### The end of an operation of one lane -/

/-- The value of an operation in the registers of its lane (R246). -/
def Stream.took (o : MemOp) (v : Option DWord) (st : Stream) : Stream :=
  match v with
  | none => st
  | some x => if o.size = 8 then st.wr64 o.d x else st.wr o.d (x.setWidth 32)
theorem Stream.took_changesOnly (o : MemOp) (v : Option DWord) (st : Stream) : st.ChangesOnly (st.took o v) (two o.d) := by
  match v with
  | none => exact .refl st _
  | some x =>
    unfold Stream.took
    dsimp only
    split
    · exact .wr64 st _ (List.Subset.refl _)
    · exact .wr st _ (by simp [two])
theorem Stream.took_id (o : MemOp) (v : Option DWord) (st : Stream) : (st.took o v).id = st.id := by
  rw [(st.took_changesOnly o v).2]
theorem Stream.wr_bare (st : Stream) (r : Reg) (v : Word) : (st.wr r v).bare = st.bare.wr r v := by
  unfold Stream.wr
  split <;> rfl
theorem Stream.wr64_bare (st : Stream) (r : Reg) (v : DWord) : (st.wr64 r v).bare = st.bare.wr64 r v := by
  unfold Stream.wr64
  split
  · rfl
  · rw [Stream.wr_bare, Stream.wr_bare]
theorem Stream.kill_bare (st : Stream) (r : Reg) (k : Bool) : (st.kill r k).bare = st.bare.kill r k := by
  cases k
  · rfl
  · exact st.wr_bare r 0
theorem Stream.kill64_bare (st : Stream) (r : Reg) (k : Bool) : (st.kill64 r k).bare = st.bare.kill64 r k := by
  rw [Stream.kill64, Stream.kill_bare, Stream.kill_bare]
  rfl
theorem Stream.took_bare (o : MemOp) (v : Option DWord) (st : Stream) : (st.took o v).bare = st.bare.took o v := by
  match v with
  | none => rfl
  | some x =>
    unfold Stream.took
    dsimp only
    split
    · exact st.wr64_bare _ _
    · exact st.wr_bare _ _

/-- A lane after its operation: its value, and one count less (R130). -/
def Stream.finished (o : MemOp) (v : Option DWord) (st : Stream) : Stream :=
  { st.took o v with cnt := (st.took o v).cnt.dec o.counter }
theorem Stream.finished_eq (o : MemOp) (v : Option DWord) (st : Stream) :
    st.finished o v = { st.took o v with cnt := st.cnt.dec o.counter } := by
  have h : (st.took o v).cnt = st.cnt := by rw [(st.took_changesOnly o v).2]
  rw [Stream.finished, h]
theorem Stream.finished_id (o : MemOp) (v : Option DWord) (st : Stream) : (st.finished o v).id = st.id := Stream.took_id o v st
theorem Stream.finished_bare (o : MemOp) (v : Option DWord) (st : Stream) : (st.finished o v).bare = st.bare.finished o v := by
  have h := st.took_bare o v
  unfold Stream.finished
  rw [← h]
  rfl
theorem Stream.loadWrite_closed {st : Stream} (h : st.window = none) (num : Nat) (o : MemOp) (x : DWord) :
    st.loadWrite num o.d (decide (o.size = 8)) x = st.took o (some x) := by
  unfold Stream.loadWrite Stream.took
  dsimp only
  by_cases h8 : o.size = 8
  · have hw : (st.wr64 o.d x).window = none := by
      rw [(Stream.ChangesOnly.wr64 (rs := two o.d) st x (List.Subset.refl _)).2]
      exact h
    simp only [h8, decide_true, if_true, hw, h]
  · have hw : (st.wr o.d (x.setWidth 32)).window = none := by
      rw [(Stream.ChangesOnly.wr (rs := [o.d]) st _ (by simp)).2]
      exact h
    simp only [h8, decide_false, Bool.false_eq_true, if_false, hw, h]
theorem Stream.loadWrite_id (st : Stream) (num : Nat) (d : Reg) (wide : Bool) (x : DWord) : (st.loadWrite num d wide x).id = st.id := by
  unfold Stream.loadWrite
  dsimp only
  have h : (if wide = true then st.wr64 d x else st.wr d (x.setWidth 32)).id = st.id := by split <;> simp
  split
  · exact h
  · split <;> exact h
theorem Stream.took_v0 {o : MemOp} (h : o.d = 0) (x : DWord) (st : Stream) : st.took o (some x) = st := by
  unfold Stream.took
  dsimp only
  rw [h]
  split <;> rfl

section
variable {s : State} {o : MemOp} {id : SId} {v : Option DWord} (hp : s.Present [id]) (hw : v.isSome = true → (s.stream id).window = none)
  (he : v.isSome = true → o.entry = none)
include hp hw he

theorem State.finishLane_only : s.OnlyStreams (s.finishLane o id v) [id] ∧
    (s.finishLane o id v).stream id = (s.stream id).finished o v := by
  have hdec : ∀ {u : State} {f : Stream → Stream}, (∀ st : Stream, (f st).id = st.id) → u = s.onLane id f →
      s.OnlyStreams (u.decCounter id o.counter) [id] ∧ (u.decCounter id o.counter).stream id =
        { f (s.stream id) with cnt := (f (s.stream id)).cnt.dec o.counter } := by
    intro u f hf hu
    obtain ⟨h1, h2⟩ := s.onLane_only hf hp
    obtain ⟨h3, h4⟩ := (s.onLane id f).onLane_only (f := fun st => { st with cnt := st.cnt.dec o.counter }) (fun _ => rfl)
      (s.onLane_present hf hp)
    rw [hu, State.decCounter]
    exact ⟨h1.trans h3, by rw [h4, h2]⟩
  have hid : s = s.onLane id fun st => st := by
    rw [State.onLane, State.onLanes]
    simp
  match v, hw, he with
  | none, _, _ => exact hdec (fun _ => rfl) hid
  | some x, hw, he =>
    rw [State.finishLane]
    simp only [he rfl]
    by_cases hd : o.d = 0
    · rw [if_pos hd]
      obtain ⟨h1, h2⟩ := hdec (f := fun st => st) (fun _ => rfl) hid
      refine ⟨h1, h2.trans ?_⟩
      rw [Stream.finished, Stream.took_v0 hd]
    · rw [if_neg hd]
      obtain ⟨h1, h2⟩ := hdec (f := fun st => st.loadWrite o.num o.d (decide (o.size = 8)) x) (fun st => st.loadWrite_id _ _ _ _) rfl
      refine ⟨h1, h2.trans ?_⟩
      dsimp only
      rw [Stream.loadWrite_closed (hw rfl), Stream.finished]
end

theorem State.removeOp_op? (s : State) (n : Nat) : (s.removeOp n).op? n = none := by
  rw [State.op?, List.find?_eq_none]
  intro o ho
  simp only [State.removeOp, pruneFences, List.mem_filter] at ho
  simpa using ho.1.1.2

/-- An operation that is no part of a transfer and no word of an origin block. -/
def MemOp.single (o : MemOp) : Bool :=
  match o.kind with
  | .elemLoad _ _ _ | .elemStore _ | .block _ => false
  | _ => true
theorem State.endOp_single {s : State} {o : MemOp} (h : o.single = true) (vals : List DWord) : s.endOp o vals =
    (o.lanes.zip vals).foldl (fun s p => s.finishLane o p.1.sid (if o.returns then some p.2 else none)) ((s.noteDone o []).removeOp o.num) := by
  unfold MemOp.single at h
  unfold State.endOp
  dsimp only
  cases hk : o.kind with
  | elemLoad x es sx => simp [hk] at h
  | elemStore x => simp [hk] at h
  | block i => simp [hk] at h
  | _ => rfl

/-- What the end of an operation of one lane leaves: its value, its counter one lower, and no operation of its number. -/
structure State.Ended (s t : State) (o : MemOp) (id : SId) (v : Option DWord) : Prop where
  frame : t = { s with streams := t.streams, ops := t.ops }
  gone : t.op? o.num = none
  others : ∀ i, i ≠ id → t.stream? i = s.stream? i
  lane : (t.stream id).bare = ((s.stream id).finished o v).bare

theorem Stream.bare_window {st st' : Stream} (h : st'.bare = st.bare) : st'.window = st.window :=
  (congrArg Stream.window h : st'.bare.window = st.bare.window)

theorem State.endOp_one {s : State} {o : MemOp} {l : OpLane} (hs : o.single = true) (hl : o.lanes = [l]) (hp : s.Present [l.sid])
    (hw : o.returns = true → (s.stream l.sid).window = none) (he : o.returns = true → o.entry = none) (x : DWord) :
    s.Ended (s.endOp o [x]) o l.sid (if o.returns then some x else none) := by
  have hn := s.noteDone_notes o []
  rw [hl, List.map_cons, List.map_nil] at hn
  have hv : (if o.returns then some x else none).isSome = true → o.returns = true := by cases o.returns <;> simp
  obtain ⟨⟨h1, h2⟩, h3⟩ := State.finishLane_only (s := (s.noteDone o []).removeOp o.num) (o := o) (hn.present hp)
    (v := if o.returns then some x else none) (fun h => (Stream.bare_window (hn.bare l.sid)).trans (hw (hv h))) (fun h => he (hv h))
  have heq : s.endOp o [x] = ((s.noteDone o []).removeOp o.num).finishLane o l.sid (if o.returns then some x else none) := by
    rw [State.endOp_single hs, hl]
    rfl
  rw [heq]
  obtain ⟨hf, ho⟩ := hn.onlyStreams
  refine ⟨?_, ?_, fun i hi => ?_, ?_⟩
  · rw [h1, State.removeOp, hf]
  · rw [h1]
    exact State.removeOp_op? _ _
  · rw [h2 i (by simpa using hi)]
    exact ho i (by simpa using hi)
  · rw [h3, Stream.finished_bare, Stream.finished_bare]
    exact congrArg (fun b => Stream.finished o _ b) (hn.bare l.sid)

end Sys2Proof.Machine
end
section
/-! PROOFS. What loads and stores do when they are performed (R130, R246). -/
namespace Sys2Proof.Machine

/-! ### An uncached operation of the device's own memory -/

theorem bytesOfNat_eq (n v : Nat) : bytesOfNat n v = (List.range n).map fun i => BitVec.ofNat 8 (v / 256 ^ i) := by
  induction n generalizing v with
  | zero => rfl
  | succ n ih =>
    rw [bytesOfNat, ih, List.range_succ_eq_map, List.map_cons, List.map_map]
    refine congr (congrArg List.cons (by simp)) (List.map_congr_left fun i _ => ?_)
    rw [Function.comp_apply, Nat.pow_succ', Nat.div_div_eq_div_mul]

theorem State.linkDown_local (s : State) {l : Loc} (h : l.space.local = true) : s.linkDown l = false := by
  cases hs : l.space <;> simp [State.linkDown, Space.local, hs] at h ⊢
theorem State.shutHost_local (s : State) (fn : Nat) {l : Loc} (h : l.space.local = true) : s.shutHost fn l = false := by
  cases hs : l.space <;> simp [State.shutHost, Space.local, hs] at h ⊢

/-- With no store on its way, none arrives. -/
theorem State.settle_none {s : State} (h : ∀ a ∈ s.ops, a.phase ≠ .left) (key n : Nat) : s.settle key n = s := by
  have hf : (s.ops.filter fun a => a.leftOver key n) = [] := List.filter_eq_nil_iff.2 fun a ha => by
    simp [MemOp.leftOver, MemOp.isLeft, h a ha]
  rw [State.settle, hf]
  rfl

section
variable {s : State} {o : MemOp} (h : s.Uncached o)
include h

theorem State.Uncached.performable (hx : o.xfer = none) : s.performable o = true := by
  obtain ⟨hm, hph, -⟩ := h
  simp [State.performable, hm, hph, State.buffered, hx]
theorem State.Uncached.ranked : o.loc.ranked = false := by
  obtain ⟨-, -, -, -, hk, -⟩ := h
  simpa [Loc.ranked] using hk
theorem State.Uncached.unsent : o.unsent = false := by
  rw [MemOp.unsent, h.ranked, Bool.and_false, Bool.false_and]

theorem State.Uncached.loadLocal (hx : o.xfer = none) (hp : s.poisoned o.loc.key o.size = false) :
    s.loadLocal o = (.ok (memReadN s.mem o.loc.key o.size), s) := by
  obtain ⟨-, -, hs, -, -, -, hc, -⟩ := h
  simp [State.loadLocal, s.linkDown_local hs, s.shutHost_local _ hs, hx, State.spoiled, hc, hp, State.loadBytes, State.readHome]

theorem State.Uncached.doLoad (hx : o.xfer = none) (hp : s.poisoned o.loc.key o.size = false) :
    s.doLoad o = s.endOp o [o.value (memReadN s.mem o.loc.key o.size)] := by
  have hl := h.loadLocal hx hp
  obtain ⟨-, hph, -, -, -, -, hc, -⟩ := h
  have he : s.earlyStores o = [] := by rw [State.earlyStores, hc]
  have ht : s.inTransit o = false := by rw [State.inTransit, hc]; rfl
  simp only [State.doLoad, hph, ht, Bool.false_and, Bool.false_eq_true, if_false, hl, he, State.markSeen, List.isEmpty_nil, if_true]

/-- A store performed: its bytes at their home, the marks and errors of what it covers gone. -/
theorem State.Uncached.storeLocal (hm : s.vt.migrateMode = false) :
    s.storeLocal o = (none, (s.clearPoison o.loc.key o.size).writeHome o.loc.key o.bytes) := by
  obtain ⟨-, -, hs, -, -, hk, hc, hleft⟩ := h
  have hset := State.settle_none hleft o.loc.key o.size
  have hr : ((s.clearPoison o.loc.key o.size).releaseTag o.ctag) = s.clearPoison o.loc.key o.size := if_neg fun h => Bool.noConfusion (hm.symm.trans h)
  have hc' : (s.clearPoison o.loc.key o.size).cache? o.loc.vcid = none := hc
  simp only [State.storeLocal, s.linkDown_local hs, s.shutHost_local _ hs, hset, hr, ite_self, hc', State.storeAt, Bool.false_and,
    Bool.false_eq_true, Bool.or_self, if_false, Option.map_none, Option.getD_none]
  rw [State.putHome_up (s := s.clearPoison o.loc.key o.size) hk]

theorem State.Uncached.doStore (hm : s.vt.migrateMode = false) (k : State → State) :
    s.doStore o k = k ((s.clearPoison o.loc.key o.size).writeHome o.loc.key o.bytes) := by
  have hl := h.storeLocal hm
  obtain ⟨-, hph, -⟩ := h
  simp only [State.doStore, hph, hl]
end

/-! ### The value of a load -/

theorem MemOp.value_eq {o : MemOp} {sx : Bool} (hk : o.kind = .load sx) (hz : o.size ∈ [1, 2, 4, 8]) (m : List Host.Cell) (k : Nat) :
    o.value (memReadN m k o.size) =
      (let v := natOfBytes (memReadN m k o.size)
       if sx && decide (o.size < 4) then
          ((if o.size = 1 then (BitVec.ofNat 8 v).signExtend 32 else (BitVec.ofNat 16 v).signExtend 32).setWidth 64)
        else BitVec.ofNat 64 v) := by
  have ht : (memReadN m k o.size).take o.size = memReadN m k o.size := List.take_of_length_le (by simp)
  have hsx : o.sx = sx := by rw [MemOp.sx, hk]
  rw [MemOp.value, ht, hsx]
  dsimp only
  generalize natOfBytes (memReadN m k o.size) = v
  simp only [List.mem_cons, List.not_mem_nil, or_false] at hz
  rcases hz with h | h | h | h <;> rw [h] <;> cases sx <;> rfl

/-- A write of less than a granule clears no mark. -/
theorem granulesLeft_short {n : Nat} (h : n < 32) (gs : List Nat) (k : Nat) : granulesLeft gs k n = gs :=
  List.filter_eq_self.2 fun g _ => by
    simp only [Bool.not_eq_true', Bool.and_eq_false_imp, decide_eq_true_eq, decide_eq_false_iff_not]
    omega

theorem exec_loadComplete {s : State} {n : Nat} {o : MemOp} {sx : Bool} (ho : s.op? n = some o) (hp : s.performable o = true)
    (hu : o.unsent = false) (hk : o.kind = .load sx) : exec (.loadComplete n) s = .next (s.doLoad o) := by
  change execLoadComplete n s = _
  simp only [execLoadComplete, ho, hp, hu, hk]
  rfl
theorem exec_storePerformed {s : State} {n : Nat} {o : MemOp} (ho : s.op? n = some o) (hp : s.performable o = true)
    (hu : o.unsent = false) (hk : o.kind = .store) (hc : s.cache? o.loc.vcid = none) :
    exec (.storePerformed n) s = .next (s.doStore o fun s => s.endOp o o.blanks) := by
  change execStorePerformed n s = _
  simp only [execStorePerformed, ho, hp, hu, hk, hc]
  rfl

theorem State.num_of_op? {s : State} {n : Nat} {o : MemOp} (h : s.op? n = some o) : o.num = n := by
  simpa using List.find?_some h

/-- Settles O27: an operation that is its own home's business reads or writes its bytes there and ends in its lane. -/
theorem loadsAndStoresPerform : Obligations.LoadsAndStoresPerform := by
  unfold Obligations.LoadsAndStoresPerform
  refine ⟨?_, ?_⟩
  · intro s n o sx l ho hu hk hl he hpo hz hp hw v x
    have hx : o.xfer = none := by rw [MemOp.xfer, hk]
    have hret : o.returns = true := by rw [MemOp.returns, hk]
    have hval : o.value (memReadN s.mem o.loc.key o.size) = x := MemOp.value_eq hk hz _ _
    clear_value x
    obtain ⟨hf, hg, hot, hla⟩ := State.endOp_one (s := s) (by rw [MemOp.single, hk]) hl hp (fun _ => hw) (fun _ => he) x
    rw [if_pos hret] at hla
    refine ⟨_, by rw [exec_loadComplete ho (hu.performable hx) hu.unsent hk, hu.doLoad hx hpo, hval], hf,
      State.num_of_op? ho ▸ hg, hot, ?_⟩
    rw [hla, Stream.finished_eq]
    rfl
  · intro s n o l ho hu hk hl hp hm
    have hx : o.xfer = none := by rw [MemOp.xfer, hk]
    have hret : o.returns = false := by rw [MemOp.returns, hk]
    have hb : o.blanks = [0] := by rw [MemOp.blanks, hl]; rfl
    have hbytes : o.bytes = (List.range o.size).map fun i => BitVec.ofNat 8 (l.b.toNat / 256 ^ i) := by
      rw [MemOp.bytes, hl]
      exact bytesOfNat_eq _ _
    have hn := hu.doStore hm fun s => s.endOp o o.blanks
    obtain ⟨hf, hg, hot, hla⟩ := State.endOp_one (s := (s.clearPoison o.loc.key o.size).writeHome o.loc.key o.bytes)
      (by rw [MemOp.single, hk]) hl hp (by simp [hret]) (by simp [hret]) 0
    rw [if_neg (by simp [hret])] at hla
    rw [← hb] at hf hg hot hla
    have hmem := congrArg State.mem hf
    have hvt := congrArg State.vt hf
    refine ⟨_, by rw [exec_storePerformed ho (hu.performable hx) hu.unsent hk hu.2.2.2.2.2.2.1, hn], hf.trans ?_, ?_, ?_, ?_,
      State.num_of_op? ho ▸ hg, hot, ?_⟩
    · rw [hmem, hvt]
      rfl
    · rw [hmem, ← hbytes]
      exact stored_memWriteN _ _ _
    · intro hz
      rw [hvt]
      exact granulesLeft_short hz _ _
    · intro w hw
      rw [hvt] at hw
      exact List.mem_of_mem_filter hw
    · rw [hla, Stream.finished_eq]
      rfl

end Sys2Proof.Machine
end
section
/-! PROOFS. Atomics: their issue, their performing and the words they write (R354 to R360, R370). -/
namespace Sys2Proof.Machine

/-! ### Issue of a scoped instruction, one request for each lane -/

theorem State.issueAll_congr {f : OpForm} {ak : AK} {data data' : SId → DWord × DWord} {cs : List (SId × Checked)} (s : State)
    (h : ∀ c ∈ cs, data c.1 = data' c.1) :
    s.issueAll f ak data (fun _ => none) cs = s.issueAll f ak data' (fun _ => none) cs :=
  List.foldl_ext _ _ s fun u c hc => by rw [h c hc]

theorem State.issueAll_cons (f : OpForm) (ak : AK) (data : SId → DWord × DWord) (c : SId × Checked) (r : List (SId × Checked))
    (s : State) : s.issueAll f ak data (fun _ => none) (c :: r) =
      (s.issueAll f ak data (fun _ => none) [c]).issueAll f ak data (fun _ => none) r := rfl

/-- One lane issues its operation, with the operands it then has. -/
def State.issueOwn (f : OpForm) (ak : AK) (args : Stream → DWord × DWord) (s : State) (c : SId × Checked) : State :=
  (s.touch (s.who (s.stream c.1)) ak c.2).launchOp (s.team c.1.tcx).recd.asid
    ((s.touch (s.who (s.stream c.1)) ak c.2).mkOp f [⟨c.1, (args (s.stream c.1)).1, (args (s.stream c.1)).2⟩] none c.2)
theorem State.issueOwn_eq (f : OpForm) (ak : AK) (args : Stream → DWord × DWord) (s : State) (c : SId × Checked)
    : s.issueOwn f ak args c = s.issueAll f ak (fun id => args (s.stream id)) (fun _ => none) [c] := rfl

/-- Each lane's operands are those it has before the instruction. -/
theorem State.issueAll_reads (f : OpForm) (ak : AK) (args : Stream → DWord × DWord) {cs : List (SId × Checked)} (s : State)
    (hn : (cs.map Prod.fst).Nodup) (hl : ∀ c ∈ cs, c.2.Local) :
    cs.foldl (State.issueOwn f ak args) s = s.issueAll f ak (fun id => args (s.stream id)) (fun _ => none) cs := by
  induction cs generalizing s with
  | nil => rfl
  | cons c r ih =>
    obtain ⟨hc, hr⟩ := List.forall_mem_cons.mp hl
    rw [List.map_cons, List.nodup_cons] at hn
    have hone : (s.issueAll f ak (fun id => args (s.stream id)) (fun _ => none) [c]).streams =
        (s.onLanes [c.1] (Stream.counted f.counter)).streams := by
      rw [State.issueAll_local f ak _ s (by simp) (by simpa using hc)]
      rfl
    rw [List.foldl_cons, ih _ hn.2 hr, s.issueOwn_eq, State.issueAll_cons f ak _ c r s]
    generalize s.issueAll f ak (fun id => args (s.stream id)) (fun _ => none) [c] = u at hone ⊢
    refine State.issueAll_congr _ fun c' hc' => ?_
    have hne : c'.1 ∉ [c.1] := fun h => hn.1 (List.mem_singleton.mp h ▸ List.mem_map_of_mem hc')
    exact congrArg args ((State.stream_congr hone c'.1).trans <| s.onLanes_unlisted (fun st => st.counted_id f.counter) hne)

section
variable {s : State} {o : Atom} {f : OpForm} {ak : AK} {args : Stream → DWord × DWord} {kill : Stream → Stream} {cs : List (SId × Checked)}

/-- A scoped instruction of the device's own memory, with one request for each lane. -/
theorem State.atomGo_local (hn : s.cur.lanes.Nodup) (hids : cs.map Prod.fst = s.active o.g)
    (hfar : ∀ id ∈ s.active o.g, s.farPending id o.stor = false) (hl : ∀ c ∈ cs, c.2.Local) : ∃ u : State,
      s.atomGo o f ak args kill (cs.map fun c => [c]) cs =
        (u.acquired o.ord (s.active o.g)).retireLanes o.g (fun st => kill (st.kill64 o.s1 o.k1)) ∧ u.cur = s.cur ∧
      u.streams = (s.onLanes (s.active o.g) (Stream.counted f.counter)).streams ∧ u = { s with
        streams := u.streams, nextOp := s.nextOp + cs.length
        ops := s.ops ++ s.opsOf f (fun id => args (s.stream id)) cs } := by
  have hmem : ∀ c ∈ cs, c.1 ∈ s.active o.g := fun c hc => hids ▸ List.mem_map_of_mem hc
  have hr : ∀ c ∈ cs, c.2.loc.ranked = false := fun c hc => (hl c hc).ranked
  have hnd : (cs.map Prod.fst).Nodup := by rw [hids]; exact hn.filter _
  simp only [State.atomGo, State.replyFull_local _ hl, State.remoteHeld_unranked f hr, any_ranked hr,
    State.farWait_local hl fun c hc => hfar c.1 (hmem c hc), Bool.or_self, Bool.and_false, Bool.false_eq_true, if_false, List.foldl_map,
    List.head?_cons, List.foldl_cons, List.foldl_nil, List.map_cons, List.map_nil]
  change ∃ u : State, (((cs.foldl (State.issueOwn f ak args) s).acquired o.ord (s.active o.g)).retireLanes o.g _) = _ ∧ _
  rw [State.issueAll_reads f ak args s hnd hl,
    State.issueAll_local _ _ _ s hnd hl, hids]
  exact ⟨_, rfl, rfl, rfl, rfl⟩

/-- What it leaves. -/
theorem State.atomGo_leaves (hn : s.cur.lanes.Nodup) (hp : s.Present s.cur.lanes) (hids : cs.map Prod.fst = s.active o.g)
    (hfar : ∀ id ∈ s.active o.g, s.farPending id o.stor = false) (hfl : ∀ id ∈ s.active o.g, (s.stream id).flush = none)
    (hl : ∀ c ∈ cs, c.2.Local) (hk : ∀ st : Stream, (kill st).id = st.id) :
    let t := s.atomGo o f ak args kill (cs.map fun c => [c]) cs
    t = { s with
      streams := t.streams, nextOp := s.nextOp + cs.length, ops := s.ops ++ s.opsOf f (fun id => args (s.stream id)) cs } ∧
    (∀ id, id ∉ s.cur.lanes → t.stream? id = s.stream? id) ∧
    (∀ id ∈ s.active o.g, t.stream id = (kill (((s.stream id).kill64 o.s1 o.k1).counted f.counter)).goto s.cur.npc) ∧
    ∀ id ∈ s.cur.lanes, id ∉ s.active o.g → t.stream id = (s.stream id).goto s.cur.npc := by
  obtain ⟨u, hex, hcur, hu, heq⟩ := State.atomGo_local (f := f) (ak := ak) (args := args) (kill := kill) hn hids hfar hl
  have hkid : ∀ st : Stream, (kill (st.kill64 o.s1 o.k1)).id = st.id := fun st => (hk _).trans (st.kill64_id _ _)
  obtain ⟨hon, hoff⟩ := State.issued_lanes (f := fun st => kill (st.kill64 o.s1 o.k1)) (ord := o.ord) hkid hcur hu hp hfl
  intro t
  rw [show t = _ from hex]
  refine ⟨?_, fun id hid => State.issued_others hkid hcur hu hid, fun id hid => ?_, hoff⟩
  · have h1 := (u.acquired_only o.ord (s.active o.g)).1
    have h2 := ((u.acquired o.ord (s.active o.g)).retireLanes_onlyStreams o.g hkid).1
    rw [h2, h1, heq]
  · rw [hon id hid, Stream.kill64_counted]
end

/-! ### Lanes that all name different words -/

theorem requests_distinct {cs : List (SId × Checked)} (h : (cs.map fun c => c.2.loc.key).Nodup) : requests cs = cs.map fun c => [c] := by
  have hkeys : ∀ (l : List (SId × Checked)) (ks : List Nat), (ks ++ l.map fun c => c.2.loc.key).Nodup →
      l.foldl (fun ks c => if c.2.loc.key ∈ ks then ks else ks ++ [c.2.loc.key]) ks = ks ++ l.map fun c => c.2.loc.key := by
    intro l
    induction l with
    | nil => simp
    | cons c r ih =>
      intro ks hk
      have hn : c.2.loc.key ∉ ks := fun hm => (List.nodup_append.mp hk).2.2 _ hm _ (by simp) rfl
      rw [List.foldl_cons, if_neg hn, ih _ (by simpa using hk), List.map_cons, List.append_assoc]
      rfl
  have hone : ∀ l : List (SId × Checked), (l.map fun c => c.2.loc.key).Nodup → ∀ c ∈ l,
      (l.filter fun x => x.2.loc.key = c.2.loc.key) = [c] := by
    intro l
    induction l with
    | nil => simp
    | cons a r ih =>
      intro hk c hc
      rw [List.map_cons, List.nodup_cons] at hk
      rcases List.mem_cons.mp hc with rfl | hr
      · rw [List.filter_cons_of_pos (by simp), List.filter_eq_nil_iff.mpr]
        intro x hx hkey
        exact hk.1 (decide_eq_true_iff.mp hkey ▸ List.mem_map_of_mem hx)
      · rw [List.filter_cons_of_neg, ih hk.2 c hr]
        intro hkey
        exact hk.1 (decide_eq_true_iff.mp hkey ▸ List.mem_map_of_mem hr)
  rw [requests, hkeys cs [] (by simpa using h), List.nil_append, List.map_map]
  exact List.map_congr_left fun c hc => hone cs h c hc

/-! ### The operands and kills of an atomic -/

theorem atomKill_counted (op : RmwOp) (r : Reg) (k : Bool) (st : Stream) (n : Nat) :
    atomKill op r k (st.counted n) = (atomKill op r k st).counted n := by
  unfold atomKill
  split
  · exact st.kill64_counted _ _ _
  · exact st.kill64_counted _ _ _
  · rw [Stream.kill64_counted, Stream.kill64_counted]
  · exact st.kill_counted _ _ _
theorem atomKill_id (op : RmwOp) (r : Reg) (k : Bool) (st : Stream) : (atomKill op r k st).id = st.id := by
  unfold atomKill
  split
  · exact st.kill64_id _ _
  · exact st.kill64_id _ _
  · rw [Stream.kill64_id, Stream.kill64_id]
  · exact st.kill_id _ _
theorem Stream.kill_cnt (st : Stream) (r : Reg) (b : Bool) : (st.kill r b).cnt = st.cnt := by
  cases b
  · rfl
  · rw [show st.kill r true = st.wr r 0 from rfl, (Stream.ChangesOnly.wr (rs := [r]) st _ (by simp)).2]
theorem atomKill_cnt (op : RmwOp) (r : Reg) (k : Bool) (st : Stream) : (atomKill op r k st).cnt = st.cnt := by
  unfold atomKill
  split
  · exact st.kill64_cnt _ _
  · exact st.kill64_cnt _ _
  · rw [Stream.kill64_cnt, Stream.kill64_cnt]
  · exact st.kill_cnt _ _

/-- Every atomic is one mould. -/
theorem exec_atomic {i : Instr} {op : RmwOp} {o : Atom} (s : State)
    (hi : (i, op) ∈ [(Instr.aadd o, RmwOp.add), (.aadd64 o, .add64), (.aaddf o, .addf), (.aadd2h o, .add2h), (.amin o false, .min),
        (.amin o true, .umin), (.amax o false, .max), (.amax o true, .umax), (.aminf o, .minf), (.amaxf o, .maxf), (.aand o, .and),
        (.aor o, .or), (.axor o, .xor), (.axchg o, .xchg), (.acas o, .cas), (.acas64 o, .cas64), (.ainc o, .inc), (.adec o, .dec),
        (.ctadd o false, .ctadd false), (.ctadd o true, .ctadd true)]) : exec i s = .next (s.atomic o op) := by
  simp only [List.mem_cons, List.not_mem_nil, or_false, Prod.mk.injEq] at hi
  rcases hi with ⟨rfl, rfl⟩ | ⟨rfl, rfl⟩ | ⟨rfl, rfl⟩ | ⟨rfl, rfl⟩ | ⟨rfl, rfl⟩ | ⟨rfl, rfl⟩ | ⟨rfl, rfl⟩ | ⟨rfl, rfl⟩ |
    ⟨rfl, rfl⟩ | ⟨rfl, rfl⟩ | ⟨rfl, rfl⟩ | ⟨rfl, rfl⟩ | ⟨rfl, rfl⟩ | ⟨rfl, rfl⟩ | ⟨rfl, rfl⟩ | ⟨rfl, rfl⟩ | ⟨rfl, rfl⟩ |
    ⟨rfl, rfl⟩ | ⟨rfl, rfl⟩ | ⟨rfl, rfl⟩ <;> rfl

/-! ### Performing an atomic -/

/-- Without lines nothing is written back or dropped but marks of the caches. -/
theorem State.writeBack_noLines {s : State} (h : s.vt.lines = []) (p : Line → Bool) :
    s.writeBack p = { s with vt := { s.vt with caches := (s.writeBack p).vt.caches } } := by
  unfold State.writeBack
  simp only [h, List.filter_nil, List.foldl_nil, State.onLines, List.map_nil, poisonAfter]
theorem State.dropCopies_noLines {s : State} (h : s.vt.lines = []) (loc : Loc) :
    s.dropCopies loc = { s with vt := { s.vt with caches := (s.dropCopies loc).vt.caches } } := by
  have hw := s.writeBack_noLines h fun l => l.covers loc.key
  unfold State.dropCopies State.dropLines
  dsimp only
  rw [hw]
  simp only [h, List.filter_nil]
theorem State.releaseTag_noLines {s : State} (h : s.vt.lines = []) (n : Nat) :
    s.releaseTag n = { s with vt := { s.vt with caches := (s.releaseTag n).vt.caches } } := by
  unfold State.releaseTag
  split
  · exact s.writeBack_noLines h _
  · rfl

/-- The read-modify-write of one lane on an unpoisoned word that no line holds. -/
theorem State.rmwAt_one {s : State} (h : s.vt.lines = []) (hleft : ∀ a ∈ s.ops, a.phase ≠ .left) {loc : Loc} {op : RmwOp}
    (hop : op ∉ [.add64, .cas64, .add2h]) (hp : s.poisoned loc.key 4 = false) (b c : DWord) :
    let old := BitVec.ofNat 32 (natOfBytes (memReadN s.mem loc.key 4))
    ∃ vt, s.rmwAt loc op [(b, c)] = (some [BitVec.ofNat 64 (natOfBytes (memReadN s.mem loc.key 4))],
      { s with mem := memWriteN s.mem loc.key (bytesOfNat 4 (rmw32 op old (b.setWidth 32) (c.setWidth 32)).toNat), vt := vt }) := by
  intro old
  have hsize : rmwSize op = 4 := by cases op <;> simp_all [rmwSize]
  have hreq : ∀ v : DWord, rmwRequest op v [(b, c)] =
      ([v], (rmw32 op (v.setWidth 32) (b.setWidth 32) (c.setWidth 32)).setWidth 64) := fun v => by
    cases op with
    | add64 | cas64 | add2h => simp at hop
    | _ => rfl
  have hd := State.dropCopies_noLines (s := s) h loc
  refine ⟨(s.dropCopies loc).vt, ?_⟩
  have hpo : (s.dropCopies loc).poisoned loc.key 4 = false := by rw [hd]; exact hp
  have hmem : (s.dropCopies loc).mem = s.mem := by rw [hd]
  have hold : (BitVec.ofNat 64 (natOfBytes (memReadN s.mem loc.key 4))).setWidth 32 = old := by
    apply BitVec.eq_of_toNat_eq
    simp [old]
  simp only [State.rmwAt, hsize, State.settle_none hleft, hpo, Bool.false_eq_true, if_false, State.readHome, hmem, hreq, hold, State.writeHome]
  rw [BitVec.toNat_setWidth_of_le (by decide), hd]

theorem exec_atomicPerform {s : State} {n : Nat} {o : MemOp} {op : RmwOp} {ret : Bool} (ho : s.op? n = some o) (hp : s.performable o = true)
    (hu : o.unsent = false) (hk : o.kind = .rmw op ret) (hph : o.phase = .issued) (hop : op ≠ .add2h) :
    exec (.atomicPerform n) s = .next (match (if ordReleases o.ord then s.releaseTag o.ctag else s).rmwAt o.loc op o.args with
      | (none, s1) => s1.failOp o cPoison 0
      | (some vs, s1) => s1.endOp o vs) := by
  change execAtomicPerform n s = _
  simp only [execAtomicPerform, ho, hp, hu, hk, hph, hop]
  rfl

/-! ### The words that the read-modify-writes write -/

theorem rmw32_min (a b c : Word) : rmw32 .min a b c = BitVec.ofInt 32 (min a.toInt b.toInt) := by
  simp only [rmw32, BitVec.slt, decide_eq_true_eq]
  split
  · rw [min_eq_right (by omega), BitVec.ofInt_toInt]
  · rw [min_eq_left (by omega), BitVec.ofInt_toInt]
theorem rmw32_max (a b c : Word) : rmw32 .max a b c = BitVec.ofInt 32 (max a.toInt b.toInt) := by
  simp only [rmw32, BitVec.slt, decide_eq_true_eq]
  split
  · rw [max_eq_right (by omega), BitVec.ofInt_toInt]
  · rw [max_eq_left (by omega), BitVec.ofInt_toInt]
theorem rmw32_umin (a b c : Word) : rmw32 .umin a b c = BitVec.ofNat 32 (min a.toNat b.toNat) := by
  simp only [rmw32, BitVec.lt_def]
  split
  · rw [min_eq_right (by omega), BitVec.ofNat_toNat, BitVec.setWidth_eq]
  · rw [min_eq_left (by omega), BitVec.ofNat_toNat, BitVec.setWidth_eq]
theorem rmw32_umax (a b c : Word) : rmw32 .umax a b c = BitVec.ofNat 32 (max a.toNat b.toNat) := by
  simp only [rmw32, BitVec.lt_def]
  split
  · rw [max_eq_right (by omega), BitVec.ofNat_toNat, BitVec.setWidth_eq]
  · rw [max_eq_left (by omega), BitVec.ofNat_toNat, BitVec.setWidth_eq]
theorem rmw32_inc (a b c : Word) : rmw32 .inc a b c = if b.toNat ≤ a.toNat then 0 else BitVec.ofNat 32 (a.toNat + 1) := by
  simp only [rmw32, BitVec.le_def]
  refine if_congr Iff.rfl rfl ?_
  apply BitVec.eq_of_toNat_eq
  simp [BitVec.toNat_add]
theorem rmw32_dec (a b c : Word) : rmw32 .dec a b c = if a = 0 ∨ b.toNat < a.toNat then b else BitVec.ofNat 32 (a.toNat - 1) := by
  simp only [rmw32, BitVec.lt_def]
  split
  · rfl
  · next h =>
    have h0 : a.toNat ≠ 0 := fun h0 => h (.inl (BitVec.eq_of_toNat_eq h0))
    apply BitVec.eq_of_toNat_eq
    rw [BitVec.toNat_sub, BitVec.toNat_ofNat, show (1 : Word).toNat = 1 from rfl]
    omega
/-- R370: the count modulo 2^31, and the error bit kept or set. -/
theorem rmw32_ctadd (a b c : Word) (err : Bool) : (rmw32 (.ctadd err) a b c).toNat =
    (a.toNat + b.toNat) % 2 ^ 31 + (if 2 ^ 31 ≤ a.toNat ∨ err = true then 2 ^ 31 else 0) := by
  have hm : a.getLsbD 31 = decide (2 ^ 31 ≤ a.toNat) := by
    rw [← BitVec.msb_eq_getLsbD_last, BitVec.msb_eq_decide]
  have hs : (a.extractLsb' 0 31 + b.extractLsb' 0 31).toNat = (a.toNat + b.toNat) % 2 ^ 31 := by
    simp [BitVec.toNat_add, BitVec.extractLsb'_toNat]
  have hlt : (a.toNat + b.toNat) % 2 ^ 31 < 2 ^ 31 := Nat.mod_lt _ (by decide)
  rw [rmw32, BitVec.toNat_append, ← Nat.shiftLeft_add_eq_or_of_lt (a.extractLsb' 0 31 + b.extractLsb' 0 31).isLt, hs, hm]
  by_cases h : 2 ^ 31 ≤ a.toNat ∨ err = true
  · rw [if_pos h, show (decide (2 ^ 31 ≤ a.toNat) || err) = true by simpa using h]
    simp [bit, Nat.shiftLeft_eq]
    omega
  · rw [if_neg h, show (decide (2 ^ 31 ≤ a.toNat) || err) = false by simpa using h]
    simp [bit]

section
variable {s : State} {o : MemOp} {l : OpLane} (h : s.Uncached o)
include h

/-- R356 to R358: the one lane of an uncached request reads the old word and writes the new one. -/
theorem State.atomicPerform_one {n : Nat} {op : RmwOp} {ret : Bool} (ho : s.op? n = some o) (hlines : s.vt.lines = [])
    (hk : o.kind = .rmw op ret) (hop : op ∉ [.add64, .cas64, .add2h]) (hl : o.lanes = [l]) (hpo : s.poisoned o.loc.key 4 = false) :
    let x := natOfBytes (memReadN s.mem o.loc.key 4)
    ∃ vt, exec (.atomicPerform n) s = .next (State.endOp { s with
      mem := memWriteN s.mem o.loc.key (bytesOfNat 4 (rmw32 op (BitVec.ofNat 32 x) (l.b.setWidth 32) (l.c.setWidth 32)).toNat), vt := vt }
      o [BitVec.ofNat 64 x]) := by
  intro x
  have hx : o.xfer = none := by rw [MemOp.xfer, hk]
  have hperf := h.performable hx
  have hun := h.unsent
  obtain ⟨-, hph, -, -, -, -, -, hleft⟩ := h
  have hne : op ≠ .add2h := fun e => hop (by simp [e])
  have hrel : ∃ cs, (if ordReleases o.ord then s.releaseTag o.ctag else s) = { s with vt := { s.vt with caches := cs } } := by
    split
    · exact ⟨_, State.releaseTag_noLines hlines _⟩
    · exact ⟨s.vt.caches, rfl⟩
  obtain ⟨cs, hcs⟩ := hrel
  have hargs : o.args = [(l.b, l.c)] := by rw [MemOp.args, hl]; rfl
  obtain ⟨vt, hr⟩ := State.rmwAt_one (s := { s with vt := { s.vt with caches := cs } }) hlines hleft (loc := o.loc) hop hpo l.b l.c
  refine ⟨vt, ?_⟩
  rw [exec_atomicPerform ho hperf hun hk hph hne, hcs, hargs, hr]
end

/-- Settles O28: an atomic is the scoped mould with one request for each word; its performing is one read and one write. -/
theorem atomicInstructions : Obligations.AtomicInstructions := by
  unfold Obligations.AtomicInstructions
  refine ⟨?_, ?_, ?_⟩
  · intro i op o s cs hi hn hp hne hm hcnt hcs hl hkeys
    obtain ⟨hids, -⟩ := checkAll_ok hcs
    have h1 := State.counterFull_false fun id hid => (hcnt id hid).1
    have h2 := State.flushWait_false fun id hid => (hcnt id hid).2.1
    have hex : s.atomic o op = s.atomGo o (atomForm o (.rmw op (o.d != 0)) (rmwSize op) (if o.d = 0 then 1 else 0)) .atomic
        (atomArgs op o.s2) (atomKill op o.s2 o.k2) (cs.map fun c => [c]) cs := by
      rw [← requests_distinct hkeys]
      simp only [State.atomic, h1, h2, hcs, Bool.and_false, Bool.or_self, Bool.false_eq_true, if_false]
    obtain ⟨hf, -, hon, -⟩ := State.atomGo_leaves (o := o) (cs := cs)
      (f := atomForm o (.rmw op (o.d != 0)) (rmwSize op) (if o.d = 0 then 1 else 0)) (ak := .atomic)
      (args := atomArgs op o.s2) (kill := atomKill op o.s2 o.k2) hn hp hids (fun id hid => (hcnt id hid).2.2)
      (fun id hid => (hcnt id hid).2.1) hl (fun st => atomKill_id op o.s2 o.k2 st)
    refine ⟨_, (exec_atomic s hi).trans (congrArg Host.Outcome.next hex), hf, fun id hid => ?_⟩
    rw [hon id hid, atomKill_counted, Stream.counted, atomKill_cnt, Stream.kill64_cnt]
    rfl
  · intro s n o op ret l ho hu hlines hk hop hz hl he hpo hp hw old new
    obtain ⟨vt, hex⟩ := State.atomicPerform_one hu ho hlines hk hop hl hpo
    have hret : o.returns = ret := by rw [MemOp.returns, hk]
    have hold : (BitVec.ofNat 64 (natOfBytes (memReadN s.mem o.loc.key 4))).setWidth 32 = old := by
      apply BitVec.eq_of_toNat_eq
      simp [old]
    obtain ⟨hf, hg, -, hla⟩ := State.endOp_one (s := { s with mem := memWriteN s.mem o.loc.key (bytesOfNat 4 new.toNat), vt := vt })
      (by rw [MemOp.single, hk]) hl hp (fun _ => hw) (fun _ => he) (BitVec.ofNat 64 (natOfBytes (memReadN s.mem o.loc.key 4)))
    have hmem := congrArg State.mem hf
    have hvt := congrArg State.vt hf
    refine ⟨_, hex, hf.trans ?_, ?_, State.num_of_op? ho ▸ hg, ?_⟩
    · rw [hmem, hvt]
    · rw [hmem, ← bytesOfNat_eq]
      exact stored_memWriteN _ _ _
    · rw [hla, Stream.finished_eq, hret]
      clear_value old
      cases ret with
      | false => rfl
      | true =>
        rw [if_pos rfl, Stream.took, if_neg (by rw [hz]; decide), hold]
        rfl
  · intro a b c
    refine ⟨?_, rmw32_min a b c, rmw32_max a b c, rmw32_umin a b c, rmw32_umax a b c, rfl, rfl, rfl, rfl, rfl, rmw32_inc a b c,
      rmw32_dec a b c, rmw32_ctadd a b c, fun x y z => ⟨?_, rfl⟩⟩
    · exact BitVec.eq_of_toNat_eq (by simp [rmw32, BitVec.toNat_add])
    · exact BitVec.eq_of_toNat_eq (by simp [rmwNew, BitVec.toNat_add])

end Sys2Proof.Machine
end
section
/-! PROOFS. The effect of a full/empty operation on its word (R228, R229, R248). -/
namespace Sys2Proof.Machine

theorem mem_nins {l : List Nat} {n x : Nat} : x ∈ nins l n ↔ x = n ∨ x ∈ l := by
  induction l with
  | nil => simp [nins]
  | cons k r ih =>
    rw [nins]
    split
    · simp only [List.mem_cons, ih]
      tauto
    · split
      · next h => simp [h]
      · simp
theorem mem_ndel {l : List Nat} {n x : Nat} : x ∈ ndel l n ↔ x ∈ l ∧ x ≠ n := by simp [ndel]

theorem setWidth_ofNat_32 (n : Nat) : (BitVec.ofNat 64 n).setWidth 32 = BitVec.ofNat 32 n :=
  BitVec.eq_of_toNat_eq (by simp)

theorem State.finishLane_present {s : State} {o : MemOp} {id : SId} {v : Option DWord} {ids : List SId} (he : v.isSome = true → o.entry = none)
    (hp : s.Present ids) : (s.finishLane o id v).Present ids := by
  unfold State.finishLane State.decCounter
  refine State.onLane_present _ (fun _ => by rfl) ?_
  match v, he with
  | none, _ => exact hp
  | some x, he =>
    simp only [he rfl]
    split
    · exact hp
    · exact s.onLane_present (fun st => st.loadWrite_id _ _ _ _) hp

/-! ### The word -/

/-- A full/empty operation reads its word. -/
def FeOp.loads (op : FeOp) : Bool := decide (op = .ldvw ∨ op = .ldvt)
/-- What it leaves of the word and its bit. -/
def State.feWord (s : State) (o : MemOp) (op : FeOp) (b : DWord) : State :=
  match op with
  | .ldvw => s
  | .ldvt => s.setEmptyBit o.word true
  | _ => ((s.mend o.loc.key 4).writeHome o.loc.key (bytesOfNat 4 b.toNat)).setEmptyBit o.word false

section
variable (s : State) (o : MemOp) (op : FeOp) (b : DWord)

theorem State.feWord_frame : s.feWord o op b =
    { s with mem := (s.feWord o op b).mem
             vt := { s.vt with empty := (s.feWord o op b).vt.empty, broken := (s.feWord o op b).vt.broken } } := by
  cases op <;> rfl
theorem State.feWord_empty (x : Nat) : x ∈ (s.feWord o op b).vt.empty ↔
    (if x = o.word then op = .ldvt ∨ (op = .ldvw ∧ o.word ∈ s.vt.empty) else x ∈ s.vt.empty) := by
  have hst : x ∈ ndel s.vt.empty o.word ↔ if x = o.word then False else x ∈ s.vt.empty := by
    rw [mem_ndel]
    split <;> simp_all
  match op with
  | .ldvw => by_cases h : x = o.word <;> simp [State.feWord, h]
  | .ldvt => by_cases h : x = o.word <;> simp [State.feWord, State.setEmptyBit, mem_nins, h]
  | .stvp =>
    change x ∈ ndel s.vt.empty o.word ↔ _
    simpa using hst
  | .stvf =>
    change x ∈ ndel s.vt.empty o.word ↔ _
    simpa using hst
theorem State.feWord_mem : if op.loads then (s.feWord o op b).mem = s.mem
    else Stored s.mem (s.feWord o op b).mem o.loc.key ((List.range 4).map fun i => BitVec.ofNat 8 (b.toNat / 256 ^ i)) := by
  rw [← bytesOfNat_eq]
  match op with
  | .ldvw => exact rfl
  | .ldvt => exact rfl
  | .stvp => exact stored_memWriteN _ _ _
  | .stvf => exact stored_memWriteN _ _ _
end

/-! ### The lane -/

/-- The kill that a parked operation keeps for its performing. -/
def Stream.killed (o : MemOp) (st : Stream) : Stream :=
  match o.kill with
  | some r => st.kill64 r true
  | none => st
/-- A lane that is parked on an operation goes on. -/
def Stream.unparked (o : MemOp) (st : Stream) : Stream :=
  match st.park with
  | .fe n => if n = o.num then st.goto (st.pc + 8) else st
  | _ => st
/-- A lane after its full/empty operation. -/
def Stream.fed (o : MemOp) (v : Option DWord) (st : Stream) : Stream := ((st.killed o).finished o v).unparked o

theorem Stream.killed_id (o : MemOp) (st : Stream) : (st.killed o).id = st.id := by
  unfold Stream.killed
  split
  · exact st.kill64_id _ _
  · rfl
theorem Stream.killed_window (o : MemOp) (st : Stream) : (st.killed o).window = st.window := by
  unfold Stream.killed
  split
  · rw [(Stream.ChangesOnly.kill64 (rs := killed64 _ true) st (List.Subset.refl _)).2]
  · rfl
theorem Stream.killed_bare (o : MemOp) (st : Stream) : (st.killed o).bare = st.bare.killed o := by
  unfold Stream.killed
  split
  · exact st.kill64_bare _ _
  · rfl
theorem Stream.unparked_id (o : MemOp) (st : Stream) : (st.unparked o).id = st.id := by
  unfold Stream.unparked
  split
  · split <;> rfl
  · rfl
theorem Stream.unparked_bare (o : MemOp) (st : Stream) : (st.unparked o).bare = st.bare.unparked o := by
  have h : ∀ p : Park, p = st.park → Stream.bare (match p with
      | .fe n => if n = o.num then st.goto (st.pc + 8) else st
      | _ => st) = match p with
      | .fe n => if n = o.num then st.bare.goto (st.bare.pc + 8) else st.bare
      | _ => st.bare := by
    intro p hp
    cases p with
    | fe n =>
      dsimp only
      split <;> rfl
    | _ => rfl
  exact h st.park rfl
theorem Stream.fed_bare (o : MemOp) (v : Option DWord) (st : Stream) : (st.fed o v).bare = st.bare.fed o v := by
  rw [Stream.fed, Stream.unparked_bare, Stream.finished_bare, Stream.killed_bare]
  rfl
theorem Stream.fed_congr {o : MemOp} {v : Option DWord} {st st' : Stream} (h : st'.bare = st.bare) : (st'.fed o v).bare = (st.fed o v).bare := by
  rw [Stream.fed_bare, Stream.fed_bare, h]

/-! ### The effect of an operation of one lane -/

/-- The effect of a full/empty operation: its word, its bit, its lane, and no operation left. -/
structure State.FeDone (s t : State) (o : MemOp) (op : FeOp) (l : OpLane) : Prop where
  frame : t = { s with
    streams := t.streams, ops := t.ops, mem := t.mem
    vt := { s.vt with empty := t.vt.empty, broken := t.vt.broken, waiters := s.vt.waiters.filter (· ≠ o.num) } }
  gone : t.op? o.num = none
  empty : ∀ x, x ∈ t.vt.empty ↔ (if x = o.word then op = .ldvt ∨ (op = .ldvw ∧ o.word ∈ s.vt.empty) else x ∈ s.vt.empty)
  mem : if op.loads then t.mem = s.mem
    else Stored s.mem t.mem o.loc.key ((List.range 4).map fun i => BitVec.ofNat 8 (l.b.toNat / 256 ^ i))
  others : ∀ i, i ≠ l.sid → t.stream? i = s.stream? i
  lane : (t.stream l.sid).bare = ((s.stream l.sid).fed o
    (if op.loads then some (BitVec.ofNat 64 (natOfBytes (memReadN s.mem o.loc.key 4))) else none)).bare

/-- The registers that a parked operation kills. -/
def State.feKilled (s : State) (o : MemOp) (id : SId) : State :=
  match o.kill with
  | some r => s.onLane id fun st => st.kill64 r true
  | none => s
theorem State.feKilled_only {s : State} (o : MemOp) {id : SId} (hp : s.Present [id]) :
    s.OnlyStreams (s.feKilled o id) [id] ∧ (s.feKilled o id).stream id = (s.stream id).killed o ∧ (s.feKilled o id).Present [id] := by
  unfold State.feKilled Stream.killed
  split
  · next r _ =>
    obtain ⟨h1, h2⟩ := s.onLane_only (f := fun st => st.kill64 r true) (fun st => st.kill64_id _ _) hp
    exact ⟨h1, h2, s.onLane_present (fun st => st.kill64_id _ _) hp⟩
  · exact ⟨.refl s _, rfl, hp⟩

/-- The operation leaves the lists of operations and of waiters. -/
def State.feRemove (s : State) (o : MemOp) : State :=
  { s.removeOp o.num with vt := { s.vt with waiters := s.vt.waiters.filter (· ≠ o.num) } }

section
variable {s : State} {o : MemOp} {op : FeOp} {l : OpLane}

theorem State.feEffect_eq (hk : o.kind = .fe op) (hl : o.lanes = [l]) (hm : s.vt.migrateMode = false) : s.feEffect o =
    State.feRemove (((((s.noteDone o []).feKilled o l.sid).feWord o op l.b).finishLane o l.sid
      (if op.loads then some (BitVec.ofNat 64 (natOfBytes (((s.noteDone o []).feKilled o l.sid).readHome o.loc.key 4))) else none)).onLane
        l.sid (Stream.unparked o)) o := by
  have hr : (if ordReleases o.ord then s.releaseTag o.ctag else s) = s := by
    rw [State.releaseTag, hm]
    exact ite_self s
  unfold State.feEffect
  rw [hr, hl, hk]
  cases op <;> rfl

theorem State.feEffect_done (hk : o.kind = .fe op) (hl : o.lanes = [l]) (he : o.entry = none) (hp : s.Present [l.sid])
    (hw : (s.stream l.sid).window = none) (hm : s.vt.migrateMode = false) : s.FeDone (s.feEffect o) o op l := by
  have hn := s.noteDone_notes o []
  rw [hl, List.map_cons, List.map_nil] at hn
  obtain ⟨hf0, ho0⟩ := hn.onlyStreams
  obtain ⟨⟨hf1, ho1⟩, hs1, hp1⟩ := State.feKilled_only o (hn.present hp)
  rw [State.feEffect_eq hk hl hm]
  generalize hu : (s.noteDone o []).feKilled o l.sid = u at *
  have hmem : u.mem = s.mem := by rw [hf1, hf0]
  have hframe := u.feWord_frame o op l.b
  have hst : (u.feWord o op l.b).streams = u.streams := by rw [hframe]
  have hwin : ((u.feWord o op l.b).stream l.sid).window = none := by
    rw [State.stream_congr hst, hs1, Stream.killed_window, Stream.bare_window (hn.bare l.sid), hw]
  have hp2 : (u.feWord o op l.b).Present [l.sid] := fun i hi => by rw [State.stream?_congr hst]; exact hp1 i hi
  have hrd : u.readHome o.loc.key 4 = memReadN s.mem o.loc.key 4 := by rw [State.readHome, hmem]
  rw [hrd]
  generalize hv : (if op.loads then some (BitVec.ofNat 64 (natOfBytes (memReadN s.mem o.loc.key 4))) else none) = v
  obtain ⟨⟨hf3, ho3⟩, hs3⟩ := State.finishLane_only (o := o) (v := v) hp2 (fun _ => hwin) (fun _ => he)
  have hp3 := State.finishLane_present (o := o) (id := l.sid) (v := v) (fun _ => he) hp2
  obtain ⟨⟨hf4, ho4⟩, hs4⟩ := State.onLane_only _ (f := Stream.unparked o) (fun st => st.unparked_id o) hp3
  generalize hz : ((u.feWord o op l.b).finishLane o l.sid v).onLane l.sid (Stream.unparked o) = z at *
  have hz1 : z = { u.feWord o op l.b with streams := z.streams } := by rw [hf4, hf3]
  have hmem' : z.mem = (u.feWord o op l.b).mem := by rw [hz1]
  have hvt' : z.vt = (u.feWord o op l.b).vt := by rw [hz1]
  have hvt : u.vt = s.vt := by rw [hf1, hf0]
  have hu0 : u = { s with streams := u.streams } := hf1.trans (congrArg (fun y : State => { y with streams := u.streams }) hf0)
  have hzv : z.vt = { s.vt with empty := z.vt.empty, broken := z.vt.broken } := by
    rw [hvt', ← hvt]
    exact congrArg State.vt hframe
  have hzs : z = { s with streams := z.streams, mem := z.mem, vt := z.vt } := by
    rw [hmem', hvt']
    exact hz1.trans ((congrArg (fun y : State => { y with
      streams := z.streams, mem := (u.feWord o op l.b).mem, vt := (u.feWord o op l.b).vt }) hframe).trans
      (congrArg (fun y : State => { y with
        streams := z.streams, mem := (u.feWord o op l.b).mem, vt := (u.feWord o op l.b).vt }) hu0))
  refine ⟨?_, z.removeOp_op? _, fun x => ?_, ?_, fun i hi => ?_, ?_⟩
  · have hwv : z.vt.waiters = s.vt.waiters := by rw [hzv]
    calc z.feRemove o = { ({ s with streams := z.streams, mem := z.mem, vt := z.vt } : State) with
          ops := (z.removeOp o.num).ops, vt := { z.vt with waiters := z.vt.waiters.filter (· ≠ o.num) } } :=
        congrArg (fun y : State => { y with
          ops := (z.removeOp o.num).ops, vt := { z.vt with waiters := z.vt.waiters.filter (· ≠ o.num) } }) hzs
      _ = _ := congrArg (fun w : Vaults => { s with
          streams := z.streams, ops := (z.removeOp o.num).ops, mem := z.mem, vt := w }) (by
        rw [hwv]
        exact congrArg (fun w : Vaults => { w with waiters := s.vt.waiters.filter (· ≠ o.num) }) hzv)
  · have := u.feWord_empty o op l.b x
    rw [hvt] at this
    rw [← hvt'] at this
    exact this
  · change if op.loads then z.mem = s.mem else Stored s.mem z.mem _ _
    rw [hmem', ← hmem]
    exact u.feWord_mem o op l.b
  · have hi' : i ∉ [l.sid] := by simpa using hi
    change z.stream? i = s.stream? i
    rw [ho4 i hi', ho3 i hi', State.stream?_congr hst, ho1 i hi', ho0 i hi']
  · change (z.stream l.sid).bare = _
    rw [hs4, hs3, State.stream_congr hst, hs1]
    rw [hv]
    exact Stream.fed_congr (hn.bare l.sid)
end

/-! ### Arrival at the bank -/

/-- The state of its word for which an operation waits. -/
def FeOp.waits (op : FeOp) (empty : Bool) : Bool := if op.loads then empty else decide (op = .stvp) && !empty
theorem State.feReady_eq (s : State) {o : MemOp} {op : FeOp} (hk : o.kind = .fe op) :
    s.feReady o = !op.waits (decide (o.word ∈ s.vt.empty)) := by
  rw [State.feReady, hk]
  cases op with
  | ldvw => rfl
  | ldvt => rfl
  | stvp => exact (Bool.not_not _).symm
  | stvf => rfl
theorem State.serveWaiters_idle {s : State} (h : s.vt.waiters = []) (a n : Nat) : s.serveWaiters a n = s := by
  cases n with
  | zero => rfl
  | succ n => simp [State.serveWaiters, State.nextWaiter, h]

theorem exec_vaultBankOp {s : State} {n : Nat} {o : MemOp} {op : FeOp} (ho : s.op? n = some o) (hm : s.mayPerform o = true)
    (hph : o.phase = .issued) (hk : o.kind = .fe op) : exec (.vaultBankOp n) s = .next (s.feArrive o) := by
  change execVaultBankOp n s = _
  simp only [execVaultBankOp, ho, hm, hph, hk]
  rfl

section
variable {s : State} {o : MemOp} {op : FeOp} {l : OpLane} (hk : o.kind = .fe op) (hwa : s.vt.waiters = [])
include hk hwa

theorem State.feArrive_waits (hw : op.waits (decide (o.word ∈ s.vt.empty)) = true) : s.feArrive o =
    { s.onOp o.num (fun x => { x with phase := .waiting }) with vt := { s.vt with waiters := [o.num] } } := by
  rw [State.feArrive, s.feReady_eq hk, hw, hwa]
  rfl
/-- What is done when the operation takes effect and nothing else waits. -/
theorem State.feServed (hl : o.lanes = [l]) (he : o.entry = none) (hp : s.Present [l.sid]) (hw : (s.stream l.sid).window = none)
    (hm : s.vt.migrateMode = false) (a n : Nat) : s.FeDone ((s.feEffect o).serveWaiters a n) o op l := by
  have hd := State.feEffect_done hk hl he hp hw hm
  have hnil : (s.feEffect o).vt.waiters = [] := by rw [hd.frame, hwa]; rfl
  rw [State.serveWaiters_idle hnil]
  exact hd
theorem State.feArrive_ready (hr : op.waits (decide (o.word ∈ s.vt.empty)) = false) (hl : o.lanes = [l]) (he : o.entry = none)
    (hp : s.Present [l.sid]) (hw : (s.stream l.sid).window = none) (hm : s.vt.migrateMode = false) : s.FeDone (s.feArrive o) o op l := by
  rw [State.feArrive, s.feReady_eq hk, hr]
  exact State.feServed hk hwa hl he hp hw hm _ _
end

/-- A lane that is parked on its operation, after it (R248). -/
theorem Stream.fed_parked {o : MemOp} {st : Stream} (h : st.park = .fe o.num) (v : Option DWord) :
    st.fed o v = { (st.killed o).took o v with cnt := st.cnt.dec o.counter }.goto (st.pc + 8) := by
  have hkill : (st.killed o).park = st.park ∧ (st.killed o).pc = st.pc ∧ (st.killed o).cnt = st.cnt := by
    unfold Stream.killed
    split
    · rw [(Stream.ChangesOnly.kill64 (rs := killed64 _ true) st (List.Subset.refl _)).2]
      exact ⟨rfl, rfl, rfl⟩
    · exact ⟨rfl, rfl, rfl⟩
  obtain ⟨h1, h2, h3⟩ := hkill
  have htook := ((st.killed o).took_changesOnly o v).2
  rw [Stream.fed, Stream.finished_eq, h3]
  generalize (st.killed o).took o v = x at *
  rw [Stream.unparked]
  have hpark : x.park = .fe o.num := by rw [htook]; exact h1.trans h
  have hpc : x.pc = st.pc := by rw [htook]; exact h2
  simp only [hpark, hpc, if_true]

/-- The value that a full/empty operation gives its lane. -/
theorem Stream.took_word {o : MemOp} (hz : o.size = 4) (op : FeOp) (n : Nat) (st : Stream) :
    st.took o (if op.loads then some (BitVec.ofNat 64 n) else none) = if op.loads then st.wr o.d (BitVec.ofNat 32 n) else st := by
  cases op.loads with
  | false => rfl
  | true =>
    rw [if_pos rfl, if_pos rfl, Stream.took, if_neg (by rw [hz]; decide), setWidth_ofNat_32]

/-- The first clause of O29. -/
theorem vaultBankOp_done {s : State} {n : Nat} {o : MemOp} {op : FeOp} {l : OpLane} (ho : s.op? n = some o) (hm : s.mayPerform o = true)
    (hph : o.phase = .issued) (hk : o.kind = .fe op) (hl : o.lanes = [l]) (he : o.entry = none) (hwa : s.vt.waiters = [])
    (hp : s.Present [l.sid]) (hw : (s.stream l.sid).window = none) (hmi : s.vt.migrateMode = false)
    (hr : op.waits (decide (o.word ∈ s.vt.empty)) = false) : ∃ t, exec (.vaultBankOp n) s = .next t ∧ s.FeDone t o op l :=
  ⟨_, exec_vaultBankOp ho hm hph hk, State.feArrive_ready hk hwa hr hl he hp hw hmi⟩

end Sys2Proof.Machine
end
section
/-! PROOFS. Full/empty instructions of one lane (R248, R249). -/
namespace Sys2Proof.Machine

theorem all_congr_mem {α : Type} {l : List α} {p q : α → Bool} (h : ∀ a ∈ l, p a = q a) : l.all p = l.all q := by
  rw [Bool.eq_iff_iff, List.all_eq_true, List.all_eq_true]
  exact forall₂_congr fun a ha => by rw [h a ha]

/-! ### What order asks of an operation does not rest on where its streams stand -/

/-- Two streams of one identity with the same notes, both ended or neither. -/
structure Stream.SameNotes (st st' : Stream) : Prop where
  id : st'.id = st.id
  exited : st'.exited = st.exited
  overtaken : st'.overtaken = st.overtaken
  carried : st'.carried = st.carried
  fenced : st'.fenced = st.fenced
theorem Stream.SameNotes.refl (st : Stream) : st.SameNotes st := ⟨rfl, rfl, rfl, rfl, rfl⟩
theorem Stream.SameNotes.trans {st st' st'' : Stream} (h : st.SameNotes st') (h' : st'.SameNotes st'') : st.SameNotes st'' :=
  ⟨h'.id.trans h.id, h'.exited.trans h.exited, h'.overtaken.trans h.overtaken, h'.carried.trans h.carried, h'.fenced.trans h.fenced⟩

section
variable {s : State} {f : Stream → Stream} (hf : ∀ st : Stream, st.SameNotes (f st))
include hf

theorem Stream.SameNotes.on (p : Stream → Prop) [DecidablePred p] (st : Stream) : st.SameNotes (if p st then f st else st) := by
  split
  · exact hf st
  · exact .refl st
theorem State.inhabited_map (ag : Agent) (x : SId) :
    State.inhabited { s with streams := s.streams.map f } ag x = s.inhabited ag x := by
  unfold State.inhabited
  rw [List.any_map]
  refine congrArg _ (congrArg (s.streams.any ·) (funext fun y => ?_))
  simp only [Function.comp_apply, (hf _).id, (hf _).exited]
  rfl
theorem State.overtakenFor_map (id : SId) : State.overtakenFor { s with streams := s.streams.map f } id = s.overtakenFor id := by
  unfold State.overtakenFor
  rw [List.any_map]
  refine congrArg (s.streams.any ·) (funext fun y => ?_)
  simp only [Function.comp_apply, (hf _).id, (hf _).overtaken]
  rfl
theorem State.stream_map {id : SId} (hp : s.Present [id]) :
    State.stream { s with streams := s.streams.map f } id = f (s.stream id) := by
  obtain ⟨st, hst⟩ := Option.isSome_iff_exists.mp (hp id (List.mem_singleton_self id))
  rw [State.stream, State.stream, s.stream?_map f (fun st => (hf st).id) id, hst]
  rfl
theorem State.carriedFor_map {id : SId} (hp : s.Present [id]) (b : MemOp) :
    State.carriedFor { s with streams := s.streams.map f } (State.stream { s with streams := s.streams.map f } id) b =
      s.carriedFor (s.stream id) b := by
  unfold State.carriedFor
  rw [State.stream_map hf hp, (hf _).carried, (hf _).fenced, (hf _).id]
  rfl
theorem State.mayPerform_map {b : MemOp} (hx : b.xfer = none) (hp : ∀ l ∈ b.lanes, s.Present [l.sid]) :
    State.mayPerform { s with streams := s.streams.map f } b = s.mayPerform b := by
  unfold State.mayPerform
  rw [hx]
  dsimp only
  refine congrArg (· && _) (all_congr_mem fun l hl => ?_)
  rw [State.overtakenFor_map hf, State.carriedFor_map hf (hp l hl)]
  simp only [State.inhabited_map hf]
  rfl
end

/-! ### The operation of one lane -/

/-- Nothing but the places of streams has moved; one lane is now as given. -/
def State.Moved (s t : State) (id : SId) (st' : Stream) : Prop :=
  ∃ f : Stream → Stream, (∀ st : Stream, st.SameNotes (f st)) ∧ f (s.stream id) = st' ∧ t = { s with streams := s.streams.map f }
namespace State.Moved
variable {s t u : State} {id : SId} {st st' : Stream}

theorem refl (s : State) (id : SId) : s.Moved s id (s.stream id) := ⟨fun st => st, fun st => .refl st, rfl, by rw [List.map_id']⟩
theorem stream (h : s.Moved t id st) (hp : s.Present [id]) : t.stream id = st := by
  obtain ⟨f, hf, hst, rfl⟩ := h
  rw [State.stream_map hf hp, hst]
theorem present (h : s.Moved t id st) {ids : List SId} (hp : s.Present ids) : t.Present ids := by
  obtain ⟨f, hf, -, rfl⟩ := h
  intro i hi
  rw [s.stream?_map f (fun st => (hf st).id) i, Option.isSome_map]
  exact hp i hi
theorem trans (h : s.Moved t id st) (h' : t.Moved u id st') (hp : s.Present [id]) : s.Moved u id st' := by
  have hs := h.stream hp
  obtain ⟨f, hf, hst, ht⟩ := h
  obtain ⟨f', hf', hst', hu⟩ := h'
  refine ⟨fun st => f' (f st), fun st => (hf st).trans (hf' _), ?_, ?_⟩
  · dsimp only
    rw [hst, ← hs]
    exact hst'
  · rw [hu, ht]
    simp only [List.map_map, Function.comp_def]
theorem of_onLanes (s : State) {id : SId} {ids : List SId} (h : id ∈ ids) {f : Stream → Stream} (hf : ∀ st : Stream, st.SameNotes (f st)) :
    s.Moved (s.onLanes ids f) id (f (s.stream id)) :=
  ⟨fun st => if st.id ∈ ids then f st else st, fun st => .on hf (fun st => st.id ∈ ids) st, if_pos (by rwa [s.stream_id]), rfl⟩
theorem mayPerform (h : s.Moved t id st) {b : MemOp} (hx : b.xfer = none) (hp : ∀ l ∈ b.lanes, s.Present [l.sid]) (ops : List MemOp) (n : Nat) :
    State.mayPerform { t with ops := ops, nextOp := n } b = State.mayPerform { s with ops := ops, nextOp := n } b := by
  obtain ⟨f, hf, -, rfl⟩ := h
  exact State.mayPerform_map (s := { s with ops := ops, nextOp := n }) hf hx hp
theorem frame (h : s.Moved t id st) : t = { s with streams := t.streams } := by
  obtain ⟨f, -, -, rfl⟩ := h
  rfl
end State.Moved

theorem map_onOp_last {l : List MemOp} {x : MemOp} {f : MemOp → MemOp} (h : (l.find? fun o => o.num = x.num) = none) :
    (l ++ [x]).map (fun o => if o.num = x.num then f o else o) = l ++ [f x] := by
  rw [List.map_append, List.map_singleton, if_pos rfl]
  refine congrArg (· ++ _) ((List.map_congr_left fun o ho => ?_).trans (List.map_id l))
  exact if_neg (by simpa using List.find?_eq_none.mp h o ho)
theorem find?_last {l : List MemOp} {x : MemOp} (h : (l.find? fun o => o.num = x.num) = none) :
    ((l ++ [x]).find? fun o => o.num = x.num) = some x := by
  rw [List.find?_append, h]
  simp

/-- The operation of a full/empty instruction in one lane. -/
def State.feOp (s : State) (o : Acc) (op : FeOp) (ctr : Nat) (id : SId) (c : Checked) (v : DWord) : MemOp :=
  { s.mkOp ⟨.fe op, o.d, 4, o.ord, o.scp, o.agent, o.stor, o.hint, ctr⟩ [⟨id, v, 0⟩] none c with num := s.nextOp }

section
variable {s : State} {o : Acc} {op : FeOp} {ctr : Nat} {id : SId} {c : Checked} (hl : s.cur.lanes = [id])
  (hg : guardHolds o.g (s.stream id) = true) (hp : s.Present [id]) (hfl : (s.stream id).flush = none) (hc : c.Local)
include hl hg hp hfl hc

/-- The one lane of a full/empty instruction has issued its operation, and takes its turn at the bank. -/
theorem State.feIssue_one : ∃ m : State, s.Moved m id ((s.stream id).counted ctr) ∧
    (s.acquired o.ord [id]).feIssue o op ctr none [] (fun _ => none) [(id, c)] =
      State.feLane { m with ops := s.ops ++ [s.feOp o op ctr id c (((s.stream id).rd o.d).setWidth 64)], nextOp := s.nextOp + 1 }
        o op id s.nextOp := by
  have h1 : s.Moved (s.acquired o.ord [id]) id (s.stream id) := by
    unfold State.acquired
    split
    · have := State.Moved.of_onLanes s (List.mem_singleton_self id) (f := fun st => { st with flush := none }) fun st => ⟨rfl, rfl, rfl, rfl, rfl⟩
      rwa [show { s.stream id with flush := none } = s.stream id by rw [← hfl]] at this
    · exact .refl s id
  have hs1 := h1.stream hp
  have h2 : (s.acquired o.ord [id]).Moved ((s.acquired o.ord [id]).skipLanes o.g) id (s.stream id) := by
    have := State.Moved.of_onLanes (s.acquired o.ord [id]) (id := id) (ids := (s.acquired o.ord [id]).cur.lanes) (by rw [s.acquired_cur, hl]; simp)
      (f := fun st => if guardHolds o.g st then st else st.goto (s.acquired o.ord [id]).cur.npc) fun st => by
        split
        · exact .refl st
        · exact ⟨rfl, rfl, rfl, rfl, rfl⟩
    rw [hs1, if_pos hg] at this
    exact this
  have h12 := h1.trans h2 hp
  have hs2 := h12.stream hp
  have hf2 := h12.frame
  have h3 := State.Moved.of_onLanes ((s.acquired o.ord [id]).skipLanes o.g) (List.mem_singleton_self id) (f := Stream.counted ctr)
    fun st => ⟨rfl, rfl, rfl, rfl, rfl⟩
  rw [hs2] at h3
  refine ⟨_, h12.trans h3 hp, ?_⟩
  unfold State.feIssue
  dsimp only [List.foldl_cons, List.foldl_nil]
  generalize (s.acquired o.ord [id]).skipLanes o.g = u at *
  rw [hs2]
  generalize ((s.stream id).rd o.d).setWidth 64 = v
  have hph : u.startPhase { u.mkOp { accForm o (.fe op) ctr with size := 4 } [⟨id, v, 0⟩] none c with num := u.nextOp } = .issued :=
    State.startPhase_local hc.1 hc.2.1
  have hx : s.feOp o op ctr id c v = { u.mkOp { accForm o (.fe op) ctr with size := 4 } [⟨id, v, 0⟩] none c with num := u.nextOp } := by
    rw [hf2]
    rfl
  have hlaunch : ∀ asid, u.launchOp asid (u.mkOp { accForm o (.fe op) ctr with size := 4 } [⟨id, v, 0⟩] none c) =
      { u.onLane id (Stream.counted ctr) with ops := s.ops ++ [s.feOp o op ctr id c v], nextOp := s.nextOp + 1 } := fun asid => by
    rw [u.launchOp_unranked (o := u.mkOp { accForm o (.fe op) ctr with size := 4 } [⟨id, v, 0⟩] none c) asid hc.ranked, hph,
      u.issueOp_one (l := ⟨id, v, 0⟩) rfl, hx]
    have hops : u.ops = s.ops := by rw [hf2]
    have hnext : u.nextOp = s.nextOp := by rw [hf2]
    rw [hops, hnext]
    rfl
  have hnext : u.nextOp = s.nextOp := by rw [hf2]
  rw [hlaunch, hnext]
  rfl

omit hp in
/-- A full/empty instruction of one lane whose address passes its checks. -/
theorem State.feAccess_one (hd : Reg.isPort o.d = false) (hcnt : (s.stream id).cnt.get ctr < 254) (hfar : s.farPending id o.stor = false)
    (hck : s.checkAt id (if ctr = 0 then .load else .store) vaultOnly (accAddr o (s.stream id)) 4 4 = .ok c) :
    s.feAccess o op ctr =
      if (s.curTeam.recd.feTrap && op != .stvf) && !s.mayPerform (s.feOp o op ctr id c 0) then s.stalled
      else if (s.curTeam.recd.feTrap && op != .stvf) && op.waits (decide (c.loc.key - vaultKey ∈ s.vt.empty)) then
        s.trap7 o.g cFeTrap id (accAddr o (s.stream id))
      else (s.acquired o.ord [id]).feIssue o op ctr none [] (fun _ => none) [(id, c)] := by
  have hact := State.active_one hl hg
  have h1 : s.counterFull [id] ctr = false := State.counterFull_false (by simpa using hcnt)
  have h2 : s.flushWait [id] = false := State.flushWait_false (by simpa using hfl)
  have h3 : s.farWait o.scp o.ord o.stor [(id, c)] = .go := State.farWait_local (by simpa using hc) (by simpa using hfar)
  have hcheck : checkAll (fun id => s.checkAt id (if ctr = 0 then .load else .store) vaultOnly (accAddr o (s.stream id)) 4 4) [id] =
      .ok [(id, c)] := by
    rw [checkAll, hck]
    rfl
  have hblocks : feBlocks op s.vt.empty [(id, c.loc.key - vaultKey)] =
      if op.waits (decide (c.loc.key - vaultKey ∈ s.vt.empty)) then some id else none := by
    by_cases he : c.loc.key - vaultKey ∈ s.vt.empty <;> cases op <;> simp [feBlocks, FeOp.waits, FeOp.loads, he]
  unfold State.feAccess
  simp only [hact, List.head?_cons, hd, h1, h2, Bool.false_and, Bool.and_false, Bool.or_self, Bool.false_eq_true, if_false, hcheck,
    List.any_cons, List.any_nil, Bool.or_false, List.map_cons, List.map_nil, hblocks, h3, Bool.not_false, if_true]
  generalize (s.curTeam.recd.feTrap && op != .stvf) = tr
  refine if_congr Iff.rfl rfl ?_
  cases tr with
  | false => rfl
  | true =>
    generalize op.waits (decide (c.loc.key - vaultKey ∈ s.vt.empty)) = wt
    cases wt <;> rfl

end

/-! ### The turn of the lane at the bank -/

/-- A state with one more operation, and one lane counted for it. -/
structure State.Launched (s u : State) (id : SId) (ctr : Nat) (x : MemOp) : Prop where
  frame : u = { s with streams := u.streams, ops := s.ops ++ [x], nextOp := s.nextOp + 1 }
  lane : u.stream id = (s.stream id).counted ctr
  present : u.Present [id]
  op : u.op? x.num = some x
  may : u.mayPerform x = (s.issueOp x).mayPerform x

section
variable {s : State} {o : Acc} {op : FeOp} {ctr : Nat} {id : SId} {c : Checked} {v : DWord} (hp : s.Present [id])
  (hfresh : s.op? s.nextOp = none)
include hp hfresh

theorem State.Moved.launched {m : State} (hm : s.Moved m id ((s.stream id).counted ctr)) :
    s.Launched { m with ops := s.ops ++ [s.feOp o op ctr id c v], nextOp := s.nextOp + 1 } id ctr (s.feOp o op ctr id c v) := by
  have hx : (s.feOp o op ctr id c v).xfer = none := rfl
  have hpl : ∀ l ∈ (s.feOp o op ctr id c v).lanes, s.Present [l.sid] := fun l hl => by
    rw [List.mem_singleton.mp hl]
    exact hp
  have hiss : s.Moved (s.onLane id (Stream.counted ctr)) id ((s.stream id).counted ctr) :=
    .of_onLanes s (List.mem_singleton_self id) fun st => ⟨rfl, rfl, rfl, rfl, rfl⟩
  have heq : s.issueOp (s.feOp o op ctr id c v) =
      { s.onLane id (Stream.counted ctr) with ops := s.ops ++ [s.feOp o op ctr id c v], nextOp := s.nextOp + 1 } :=
    s.issueOp_one (l := ⟨id, v, 0⟩) rfl
  refine ⟨?_, hm.stream hp, hm.present hp, find?_last hfresh, ?_⟩
  · exact congrArg (fun z : State => { z with ops := s.ops ++ [s.feOp o op ctr id c v], nextOp := s.nextOp + 1 }) hm.frame
  · rw [hm.mayPerform hx hpl, heq, hiss.mayPerform hx hpl]
end

section
variable {s u : State} {o : Acc} {op : FeOp} {ctr : Nat} {id : SId} {x : MemOp} (hu : s.Launched u id ctr x)
include hu

/-- `stvf` waits for nothing, and its lane goes on. -/
theorem State.feLane_stvf (n : Nat) (hn : n = x.num) : u.feLane o .stvf id n = u.onLane id fun st => (st.kill64 o.s1 o.k1).goto u.cur.npc := by
  rw [State.feLane, hn, hu.op]
  rfl

/-- The operation with the kill that its lane leaves to it. -/
def MemOp.kept (x : MemOp) (o : Acc) : MemOp := { x with kill := if o.k1 then some o.s1 else none }

/-- Before an earlier access its lane parks. -/
theorem State.feLane_parks (hne : op ≠ .stvf) (hmay : u.mayPerform x = false) (hfresh : s.op? x.num = none) : u.feLane o op id x.num =
    { u.onLane id (fun st => { st.parkAt (.fe x.num) with pc := u.cur.pc }) with ops := s.ops ++ [x.kept o] } := by
  have hops := congrArg State.ops hu.frame
  have hmap := map_onOp_last (f := fun x => x.kept o) hfresh
  rw [State.feLane, hu.op]
  simp only [hne, if_false, hmay, Bool.not_false, if_true]
  rw [← hmap]
  simp only [State.onOp, hops]
  rfl

/-- It parks on its word where that is not in the state it waits for. -/
theorem State.feLane_waits (hk : x.kind = .fe op) (hne : op ≠ .stvf) (hmay : u.mayPerform x = true) (hwa : u.vt.waiters = [])
    (hw : op.waits (decide (x.word ∈ u.vt.empty)) = true) (hfresh : s.op? x.num = none) : u.feLane o op id x.num =
      { u.onLane id (fun st => { st.parkAt (.fe x.num) with pc := u.cur.pc }) with
        ops := s.ops ++ [{ x.kept o with phase := .waiting }], vt := { u.vt with waiters := [x.num] } } := by
  have hops := congrArg State.ops hu.frame
  have hmap := map_onOp_last (f := fun x => x.kept o) hfresh
  have hmap2 := map_onOp_last (x := x.kept o) (f := fun x => { x with phase := .waiting }) hfresh
  have hr : u.feReady x = false := by rw [u.feReady_eq hk, hw]; rfl
  have harr := State.feArrive_waits (s := (u.onOp x.num fun x => x.kept o).onLane id fun st => { st.parkAt (.fe x.num) with pc := u.cur.pc })
    (o := x.kept o) (op := op) hk hwa hw
  rw [State.feLane, hu.op]
  simp only [hne, if_false, hmay, hr, Bool.not_true, Bool.false_eq_true]
  refine harr.trans ?_
  simp only [State.onOp, State.onLane, State.onLanes, hops, hmap]
  rw [hmap2]
  rfl

/-- Otherwise it takes effect, and the lane goes on. -/
theorem State.feLane_done {l : OpLane} (hk : x.kind = .fe op) (hl : x.lanes = [l]) (hid : l.sid = id) (he : x.entry = none)
    (hne : op ≠ .stvf) (hmay : u.mayPerform x = true) (hwa : u.vt.waiters = []) (hr : op.waits (decide (x.word ∈ u.vt.empty)) = false)
    (hw : (s.stream id).window = none) (hm : u.vt.migrateMode = false) :
    State.FeDone (u.onLane id fun st => (st.kill64 o.s1 o.k1).goto u.cur.npc) (u.feLane o op id x.num) x op l := by
  have hready : u.feReady x = true := by rw [u.feReady_eq hk, hr]; rfl
  obtain ⟨h1, h2⟩ := u.onLane_only (f := fun st => (st.kill64 o.s1 o.k1).goto u.cur.npc) (fun st => st.kill64_id _ _) hu.present
  have h3 := u.onLane_present (id := id) (f := fun st => (st.kill64 o.s1 o.k1).goto u.cur.npc) (fun st => st.kill64_id _ _) hu.present
  have hp' : (u.onLane id fun st => (st.kill64 o.s1 o.k1).goto u.cur.npc).Present [l.sid] :=
    fun i hi => h3 i (by rwa [hid] at hi)
  have hw' : ((u.onLane id fun st => (st.kill64 o.s1 o.k1).goto u.cur.npc).stream l.sid).window = none := by
    rw [hid, h2, hu.lane]
    change (((s.stream id).counted ctr).kill64 o.s1 o.k1).window = none
    rw [Stream.kill64_counted, Stream.counted, (Stream.ChangesOnly.kill64 (rs := killed64 _ _) (s.stream id) (List.Subset.refl _)).2]
    exact hw
  rw [State.feLane, hu.op]
  simp only [hne, if_false, hmay, hready, Bool.not_true, Bool.false_eq_true, if_true]
  exact State.feServed (s := u.onLane id fun st => (st.kill64 o.s1 o.k1).goto u.cur.npc) hk hwa hl he hp' hw' hm _ _
end

theorem exec_feAccess {i : Instr} {op : FeOp} {ak : AK} {ctr : Nat} {o : Acc} (s : State)
    (hi : (i, op, ak, ctr) ∈ [(Instr.ldvw o, FeOp.ldvw, AK.load, 0), (.ldvt o, .ldvt, .load, 0), (.stvp o, .stvp, .store, 1),
        (.stvf o, .stvf, .store, 1)]) : exec i s = .next (s.feAccess o op ctr) ∧ ak = (if ctr = 0 then .load else .store) ∧ ctr < 2 := by
  simp only [List.mem_cons, List.not_mem_nil, or_false, Prod.mk.injEq] at hi
  rcases hi with ⟨rfl, rfl, rfl, rfl⟩ | ⟨rfl, rfl, rfl, rfl⟩ | ⟨rfl, rfl, rfl, rfl⟩ | ⟨rfl, rfl, rfl, rfl⟩ <;> exact ⟨rfl, rfl, by decide⟩

theorem Counters.dec_add {c : Counters} {k : Nat} (hk : k < 2) : (c.add k 1).dec k = c := by
  match k, hk with
  | 0, _ => rfl
  | 1, _ => rfl
theorem Stream.wr_goto (st : Stream) (r : Reg) (v : Word) (pc : DWord) : (st.goto pc).wr r v = (st.wr r v).goto pc := by
  unfold Stream.wr
  split <;> rfl

/-- A lane that has issued and gone on, after its operation (R248). -/
theorem Stream.fed_unparked {o : MemOp} {st : Stream} (hk : o.kill = none) (h : st.park = .none) (v : Option DWord) :
    st.fed o v = { st.took o v with cnt := st.cnt.dec o.counter } := by
  have hkill : st.killed o = st := by rw [Stream.killed, hk]
  have htook := (st.took_changesOnly o v).2
  rw [Stream.fed, hkill, Stream.finished_eq, Stream.unparked]
  generalize st.took o v = x at *
  have hpark : x.park = .none := by rw [htook]; exact h
  simp only [hpark]

/-- Settles O29: the effect at the bank, and the instruction of one lane up to its turn there. -/
theorem fullEmptyWords : Obligations.FullEmptyWords := by
  unfold Obligations.FullEmptyWords
  refine ⟨?_, ?_⟩
  · intro s n o op l ho hm hph hk hl he hz hwa hp hw hpark hmi st w empty loads waits
    have hnum := State.num_of_op? ho
    have hwaits : waits = op.waits (decide (o.word ∈ s.vt.empty)) := rfl
    refine ⟨fun h => ⟨_, exec_vaultBankOp ho hm hph hk, ?_⟩, fun h => ?_⟩
    · rw [State.feArrive_waits hk hwa (hwaits ▸ h), hnum]
      exact ⟨rfl, rfl, rfl⟩
    · obtain ⟨t, hex, hf, hg, hempty, hmem, -, hlane⟩ := vaultBankOp_done ho hm hph hk hl he hwa hp hw hmi (hwaits ▸ h)
      refine ⟨t, hex, hnum ▸ hg, by rw [hf, hwa]; rfl, fun x => (hempty x).trans ?_, hmem, ?_⟩
      · change _ ↔ if x = o.word then op = .ldvt ∨ (op = .ldvw ∧ decide (o.word ∈ s.vt.empty) = true) else x ∈ s.vt.empty
        rw [decide_eq_true_iff]
      rw [hlane, Stream.fed_parked (hnum.symm ▸ hpark), Stream.took_word hz]
      rfl
  · intro i op ak ctr o s id c hi hl hg hp hd hmi hwin hcnt hfl hfar hck hc hfresh hwa w empty loads waits v x y killed counted
    obtain ⟨hex, hak, hctr⟩ := exec_feAccess s hi
    rw [hak] at hck
    have hwaits : waits = op.waits (decide (c.loc.key - vaultKey ∈ s.vt.empty)) := by cases op <;> rfl
    have hone := State.feAccess_one (op := op) hl hg hfl hc hd hcnt hfar hck
    have hw : (s.stream id).window = none := by simpa [State.windowed, hl] using hwin
    obtain ⟨m, hm, hissue⟩ := State.feIssue_one (op := op) (ctr := ctr) hl hg hp hfl hc
    have hlau := hm.launched (o := o) (op := op) (c := c) (v := v.setWidth 64) hp hfresh
    have hx : s.feOp o op ctr id c (v.setWidth 64) = x := rfl
    have hy : s.feOp o op ctr id c 0 = y := rfl
    have hkx : x.kind = .fe op := rfl
    have hword : x.word = w := rfl
    rw [hy] at hone
    rw [show ((s.stream id).rd o.d).setWidth 64 = v.setWidth 64 from rfl, hx] at hissue
    rw [hx] at hlau
    have hgo : (op ≠ .stvf → s.curTeam.recd.feTrap = true → s.mayPerform y = true ∧ waits = false) → exec i s = .next
        (State.feLane { m with ops := s.ops ++ [x], nextOp := s.nextOp + 1 } o op id s.nextOp) := by
      intro h
      rw [hex, hone, hissue, ← hwaits]
      by_cases hne : op = .stvf
      · simp [hne]
      · cases hft : s.curTeam.recd.feTrap with
        | false => simp
        | true => simp [(h hne hft).1, (h hne hft).2]
    generalize ({ m with ops := s.ops ++ [x], nextOp := s.nextOp + 1 } : State) = u at hgo hlau
    have hcur : u.cur = s.cur := by rw [hlau.frame]
    have hvt : u.vt = s.vt := by rw [hlau.frame]
    have hmem : u.mem = s.mem := by rw [hlau.frame]
    refine ⟨fun hft hwt hmy => ?_, fun hft hne hmy => ?_, fun hst => ?_, fun hne hft hor => ?_, fun hne hmay htr hwf => ?_⟩
    · have hne : op ≠ .stvf := by
        intro h
        rw [hwaits, h] at hwt
        cases hwt
      rw [hex, hone, ← hwaits]
      simp [hft, hmy, hwt, hne]
    · rw [hex, hone]
      simp [hft, hmy, hne]
    · refine ⟨_, hgo fun h => absurd hst h, ?_⟩
      rw [hst, State.feLane_stvf hlau s.nextOp rfl]
      obtain ⟨h1, h2⟩ := State.onLane_only _ (f := fun st => (st.kill64 o.s1 o.k1).goto u.cur.npc) (fun st => st.kill64_id _ _) hlau.present
      refine ⟨?_, ?_⟩
      · rw [h1.1, hlau.frame]
      · rw [h2, hlau.lane, hcur, Stream.kill64_counted, Stream.counted, Stream.kill64_cnt]
    · have hlane : (u.onLane id fun st => { st.parkAt (.fe x.num) with pc := u.cur.pc }).stream id =
          { counted.parkAt (.fe s.nextOp) with pc := s.cur.pc } := by
        rw [(u.onLane_only (f := fun st => { st.parkAt (.fe x.num) with pc := u.cur.pc }) (fun _ => rfl) hlau.present).2, hlau.lane, hcur]
        rfl
      refine ⟨_, hgo fun _ h => absurd (hft.symm.trans h) Bool.false_ne_true, ?_⟩
      rw [show s.nextOp = x.num from rfl]
      have hframe : (u.onLane id fun st => { st.parkAt (.fe x.num) with pc := u.cur.pc }) = { s with
          streams := (u.onLane id fun st => { st.parkAt (.fe x.num) with pc := u.cur.pc }).streams
          ops := s.ops ++ [x], nextOp := s.nextOp + 1 } := by
        rw [(u.onLane_only (f := fun st => { st.parkAt (.fe x.num) with pc := u.cur.pc }) (fun _ => rfl) hlau.present).1.1, hlau.frame]
      cases hmay : (s.issueOp x).mayPerform x with
      | false =>
        rw [State.feLane_parks hlau hne (hlau.may.trans hmay) hfresh]
        refine ⟨?_, hlane⟩
        have hvt0 : { s.vt with waiters := [] } = s.vt := by rw [← hwa]
        rw [hframe]
        exact congrArg (fun z : Vaults => { s with
          streams := (u.onLane id fun st => { st.parkAt (.fe x.num) with pc := u.cur.pc }).streams
          ops := s.ops ++ [x.kept o], nextOp := s.nextOp + 1, vt := z }) hvt0.symm
      | true =>
        have hwt : waits = true := hor.resolve_left (by simp [hmay])
        rw [State.feLane_waits hlau hkx hne (hlau.may.trans hmay) (hvt ▸ hwa) (by rw [hvt]; exact hwaits.symm.trans hwt) hfresh]
        refine ⟨?_, hlane⟩
        rw [hframe, hvt]
        rfl
    · obtain ⟨hf, hg', hem, hme, -, hla⟩ := State.feLane_done (o := o) (l := ⟨id, v.setWidth 64, 0⟩) hlau hkx rfl rfl rfl hne
        (hlau.may.trans hmay) (hvt ▸ hwa) (by rw [hvt]; exact hwaits.symm.trans hwf) hw (hvt ▸ hmi)
      obtain ⟨h1, h2⟩ := State.onLane_only _ (f := fun st => (st.kill64 o.s1 o.k1).goto u.cur.npc) (fun st => st.kill64_id _ _) hlau.present
      refine ⟨_, hgo fun _ h => ⟨htr h, hwf⟩, ?_, hg', fun a => ?_, ?_, ?_⟩
      · have hz : (u.onLane id fun st => (st.kill64 o.s1 o.k1).goto u.cur.npc) = { s with
            streams := (u.onLane id fun st => (st.kill64 o.s1 o.k1).goto u.cur.npc).streams
            ops := s.ops ++ [x], nextOp := s.nextOp + 1 } := by rw [h1.1, hlau.frame]
        have hv : { s.vt with
            empty := (u.feLane o op id x.num).vt.empty, broken := (u.feLane o op id x.num).vt.broken
            waiters := s.vt.waiters.filter (· ≠ x.num) } =
            { s.vt with empty := (u.feLane o op id x.num).vt.empty, broken := (u.feLane o op id x.num).vt.broken } := by
          rw [hwa, List.filter_nil, ← hwa]
        refine hf.trans ?_
        rw [hz]
        exact congrArg (fun z : Vaults => { s with
          streams := (u.feLane o op id x.num).streams, nextOp := s.nextOp + 1, ops := (u.feLane o op id x.num).ops
          mem := (u.feLane o op id x.num).mem, vt := z }) hv
      · have hn : ¬(op = .ldvw ∧ x.word ∈ s.vt.empty) := fun ⟨ho, he⟩ => by
          rw [hwaits, ho, show c.loc.key - vaultKey = x.word from rfl, decide_eq_true he] at hwf
          cases hwf
        refine (hem a).trans ?_
        change (if a = x.word then op = .ldvt ∨ (op = .ldvw ∧ x.word ∈ u.vt.empty) else a ∈ u.vt.empty) ↔ _
        rw [hvt]
        simp only [hn, or_false]
        rfl
      · have hme' : if op.loads then (u.feLane o op id x.num).mem = u.mem
          else Stored u.mem (u.feLane o op id x.num).mem x.loc.key ((List.range 4).map fun i => BitVec.ofNat 8 ((v.setWidth 64).toNat / 256 ^ i)) := hme
        rw [hmem, BitVec.toNat_setWidth_of_le (by decide)] at hme'
        exact hme'
      · refine hla.trans ?_
        rw [h2, hlau.lane, Stream.kill64_counted, hcur, Stream.fed_unparked (o := x) rfl rfl, Stream.took_word (o := x) rfl]
        change Stream.bare { (if op.loads then ((killed.counted ctr).goto s.cur.npc).wr o.d
          (BitVec.ofNat 32 (natOfBytes (memReadN u.mem c.loc.key 4))) else (killed.counted ctr).goto s.cur.npc) with
            cnt := (killed.cnt.add ctr 1).dec ctr } = _
        rw [Counters.dec_add hctr, hmem, show loads = op.loads from rfl]
        cases op.loads with
        | false => rfl
        | true =>
          rw [if_pos rfl, if_pos rfl, Stream.wr_goto, Stream.wr_counted]
          have hcw : ∀ val : Word, (killed.wr o.d val).cnt = killed.cnt := fun val => by
            rw [(Stream.ChangesOnly.wr (rs := [o.d]) killed val (by simp)).2]
          rw [← hcw]
          rfl

end Sys2Proof.Machine
end
section
/-! PROOFS. What work on memory, its caches and its translations leaves unchanged. -/
namespace Sys2Proof.Machine

/-- Nothing differs but memory, translations, the caches, free values, and what a link that is down counts and records. -/
def State.MemoryWork (s t : State) : Prop :=
  t = { s with mem := t.mem, tr := t.tr, vt := t.vt, free := t.free, links := t.links, hif := t.hif }

namespace State.MemoryWork
variable {s t u : State}

theorem refl (s : State) : s.MemoryWork s := rfl
theorem trans (h : s.MemoryWork t) (h' : t.MemoryWork u) : s.MemoryWork u := by
  unfold State.MemoryWork at h h' ⊢
  rw [h', h]
theorem foldl {α : Type} {f : State → α → State} (hf : ∀ (s : State) (a : α), s.MemoryWork (f s a)) (l : List α) (s : State) :
    s.MemoryWork (l.foldl f s) := by
  induction l generalizing s with
  | nil => exact refl s
  | cons a r ih => exact (hf s a).trans (ih _)

theorem putHome (s : State) (k : Nat) (bs : List Byte) : s.MemoryWork (s.putHome k bs) := by
  unfold State.putHome
  split
  · split <;> exact rfl
  · exact rfl
theorem writeBack (s : State) (p : Line → Bool) : s.MemoryWork (s.writeBack p) :=
  (foldl (f := fun s (l : Line) => s.putHome l.base l.data) (fun s l => putHome s l.base l.data)
    (s.vt.lines.filter fun l => p l && l.dirty) s).trans rfl
theorem makeRoom (s : State) (c : VCache) (rep : Option Nat) (set : Nat) : s.MemoryWork (s.makeRoom c rep set) := by
  unfold State.makeRoom
  dsimp only
  split
  · exact refl s
  · split
    · exact refl s
    · exact (writeBack s _).trans rfl
theorem fillLine (s : State) (c : VCache) (rep : Option Nat) (k : Nat) (req : Option Prio) : s.MemoryWork (s.fillLine c rep k req) := by
  unfold State.fillLine
  dsimp only
  split
  · exact refl s
  · exact (makeRoom s c rep _).trans rfl
theorem moveLine (s : State) (c : VCache) (rep : Option Nat) (k : Nat) : s.MemoryWork (s.moveLine c rep k) := by
  unfold State.moveLine
  split
  · exact refl s
  · dsimp only
    split
    · exact refl s
    · exact (makeRoom s c rep _).trans rfl
theorem loadTouch (s : State) (loc : Loc) (cluster : Nat) (req : Option Prio) : s.MemoryWork (s.loadTouch loc cluster req) := by
  unfold State.loadTouch
  split
  · exact refl s
  · dsimp only
    split
    · exact (moveLine s _ _ _).trans rfl
    · exact fillLine s _ _ _ _
end State.MemoryWork

/-- Nothing differs but memory and translations. -/
def State.WalkWork (s t : State) : Prop := t = { s with mem := t.mem, tr := t.tr }
namespace State.WalkWork
variable {s t u : State}

theorem refl (s : State) : s.WalkWork s := rfl
theorem trans (h : s.WalkWork t) (h' : t.WalkWork u) : s.WalkWork u := by
  unfold State.WalkWork at h h' ⊢
  rw [h', h]
theorem foldl {α : Type} {f : State → α → State} (hf : ∀ (s : State) (a : α), s.WalkWork (f s a)) (l : List α) (s : State) :
    s.WalkWork (l.foldl f s) := by
  induction l generalizing s with
  | nil => exact refl s
  | cons a r ih => exact (hf s a).trans (ih _)
theorem memoryWork (h : s.WalkWork t) : s.MemoryWork t := by
  unfold State.WalkWork at h
  unfold State.MemoryWork
  rw [h]

theorem touchWalk (s : State) (at_ : TlbAt) (die : Nat) (asid : BitVec 16) (va : Nat) (write : Bool) (w : Walked) :
    s.WalkWork (s.touchWalk at_ die asid va write w) := by
  unfold State.touchWalk
  have hw : ∀ (p : Prop) [Decidable p] (n v : Nat), s.WalkWork (if p then s else s.physWrite w.pte n v) := fun p _ n v => by
    split
    · exact refl s
    · exact rfl
  exact (hw _ _ _).trans rfl
theorem touchRead (s : State) (w : Who) (va : Nat) : s.WalkWork (s.touchRead w va) := by
  unfold State.touchRead
  split
  · exact touchWalk s _ _ _ _ _ _
  · exact refl s
theorem touch (s : State) (w : Who) (ak : AK) (c : Checked) : s.WalkWork (s.touch w ak c) := by
  unfold State.touch
  split
  · exact refl s
  · exact touchWalk s _ _ _ _ _ _
theorem touchRange (s : State) (o : Rng) (id : SId) : s.WalkWork (s.touchRange o id) := by
  unfold State.touchRange
  dsimp only
  split
  · exact refl s
  · split
    · exact refl s
    · exact foldl (fun s va => touchRead s _ va) _ s
end State.WalkWork

/-- A prefetch works on memory and the caches only (R250). -/
theorem State.prefetch_work (s : State) (o : Acc) (id : SId) : s.MemoryWork (s.prefetch o id) := by
  unfold State.prefetch
  dsimp only
  split
  · exact .refl s
  · split
    · exact .refl s
    · split
      · exact .refl s
      · exact (State.WalkWork.touch s _ _ _).memoryWork.trans (.loadTouch _ _ _ _)

end Sys2Proof.Machine
end
section
/-! PROOFS. Range instructions, queries, `ptoa` and prefetch (R250 to R257). -/
namespace Sys2Proof.Machine

/-! ### One operation of one lane, outside the access mould -/

/-- The operation as it is sent. -/
def State.sent (s : State) (o : MemOp) : MemOp := { o with phase := s.startPhase { o with num := s.nextOp }, num := s.nextOp }
theorem State.launchOp_one {s : State} {o : MemOp} {l : OpLane} (asid : BitVec 16) (hr : o.loc.ranked = false) (hl : o.lanes = [l]) :
    s.launchOp asid o =
      { s.onLane l.sid (Stream.counted o.counter) with ops := s.ops ++ [s.sent o], nextOp := s.nextOp + 1 } := by
  rw [s.launchOp_unranked asid hr]
  exact s.issueOp_one (o := { o with phase := s.startPhase { o with num := s.nextOp } }) hl

section
variable {s u : State} {g : Guard} {id : SId} {f : Stream → Stream} (ha : s.Alone g id) (hf : ∀ st : Stream, (f st).id = st.id)
include ha hf

/-- One lane retires. -/
theorem State.retired_one : s.OnlyStreams (s.retireLanes g f) [id] ∧ (s.retireLanes g f).stream id = (f (s.stream id)).goto s.cur.npc := by
  obtain ⟨hl, hg, hp⟩ := ha
  have hlanes := s.retireLanes_lanes g hf (by rw [hl]; exact hp)
  obtain ⟨hon, -⟩ := hlanes
  exact ⟨hl ▸ s.retireLanes_onlyStreams g hf, hon id (by rw [State.active_one hl hg]; exact List.mem_singleton_self id)⟩

/-- One lane that has been counted for an operation retires. -/
theorem State.retired_counted {k : Nat} (hcur : u.cur = s.cur) (hu : u.streams = (s.onLane id (Stream.counted k)).streams) :
    u.retireLanes g f = { u with streams := (u.retireLanes g f).streams } ∧
      (u.retireLanes g f).stream id = (f ((s.stream id).counted k)).goto s.cur.npc ∧
      ∀ id', id' ≠ id → (u.retireLanes g f).stream? id' = s.stream? id' := by
  obtain ⟨hl, hg, hp⟩ := ha
  obtain ⟨⟨-, h1⟩, h2⟩ := s.onLane_only (f := Stream.counted k) (fun st => st.counted_id k) hp
  have hst : u.stream id = (s.stream id).counted k := (State.stream_congr hu id).trans h2
  have hu' : u.Alone g id := by
    refine ⟨by rw [hcur, hl], by rw [hst]; exact hg, fun i hi => ?_⟩
    rw [State.stream?_congr hu]
    exact s.onLane_present (fun st => st.counted_id k) hp i hi
  obtain ⟨⟨h3, h4⟩, h5⟩ := State.retired_one hu' hf
  refine ⟨h3, by rw [h5, hst, hcur], fun i hi => ?_⟩
  rw [h4 i (by simpa using hi), State.stream?_congr hu]
  exact h1 i (by simpa using hi)
end

/-! ### Range instructions (R251 to R254) -/

theorem rngKill_id (o : Rng) (st : Stream) : (rngKill o st).id = st.id := (Stream.kill_id _ _ _).trans (st.kill64_id _ _)
theorem rngKill_counted (o : Rng) (st : Stream) (k : Nat) : rngKill o (st.counted k) = (rngKill o st).counted k := by
  rw [rngKill, Stream.kill64_counted, Stream.kill_counted]
  rfl
theorem rngKill_cnt (o : Rng) (st : Stream) : (rngKill o st).cnt = st.cnt := by rw [rngKill, Stream.kill_cnt, Stream.kill64_cnt]

/-- The operation of a cache instruction in one lane. -/
def State.rangeMem (s : State) (id : SId) (op : RangeOp) (ps : List (Loc × Nat)) : MemOp :=
  s.mkOp (rngForm (.range op ps)) [⟨id, 0, 0⟩] none
    ⟨{ (ps.head?.map Prod.fst).getD ⟨.dev, 0, 0, false⟩ with space := .dev, cxl := false }, 0, none⟩

section
variable {o : Rng} {s : State} {id : SId} (ha : s.Alone o.g id) (hcnt : (s.stream id).cnt.st < 254)
include ha hcnt

theorem State.rangeOp_one {op : RangeOp} {needW : Bool} {ps : List (Loc × Nat)} (hck : s.rangeCheck o needW id = .ok ps) :
    s.rangeOp o op needW = (if ((s.touchRange o id).stream id).rd o.s2 = 0 then s.touchRange o id
      else (s.touchRange o id).launchOp 0 ((s.touchRange o id).rangeMem id op ps)).retireLanes o.g (rngKill o) := by
  obtain ⟨hl, hg, hp⟩ := ha
  have hfull : s.counterFull [id] 1 = false := State.counterFull_false fun i hi => by
    rw [List.mem_singleton.mp hi]
    exact hcnt
  have hcs : checkAll (s.rangeCheck o needW) [id] = .ok [(id, ps)] := by
    rw [checkAll, hck]
    rfl
  simp only [State.rangeOp, State.active_one hl hg, hfull, hcs, Bool.false_eq_true, if_false, List.foldl_cons, List.foldl_nil]
  rfl

/-- With L = 0 nothing happens (R251). -/
theorem State.rangeOp_empty {op : RangeOp} {needW : Bool} (h0 : (s.stream id).rd o.s2 = 0) :
    s.rangeOp o op needW = s.completed o.g (rngKill o) := by
  have hck : s.rangeCheck o needW id = .ok [] := by simp [State.rangeCheck, h0]
  have ht : s.touchRange o id = s := by simp [State.touchRange, h0]
  rw [State.rangeOp_one ha hcnt hck, ht, if_pos h0]
  rfl

theorem State.rangeOp_issues {op : RangeOp} {needW : Bool} {ps : List (Loc × Nat)} (hck : s.rangeCheck o needW id = .ok ps)
    (hne : (s.stream id).rd o.s2 ≠ 0) (hk : ∀ p ∈ ps, p.1.key < 2 ^ 63) : ∃ t x, s.rangeOp o op needW = t ∧
      t = { s.touchRange o id with streams := t.streams, ops := s.ops ++ [x], nextOp := s.nextOp + 1 } ∧
      x.kind = .range op ps ∧ x.num = s.nextOp ∧ x.counter = 1 ∧ x.phase = .issued ∧
      t.stream id = { rngKill o (s.stream id) with cnt := (s.stream id).cnt.add 1 1 }.goto s.cur.npc := by
  have hf : s.touchRange o id = { s with mem := (s.touchRange o id).mem, tr := (s.touchRange o id).tr } := State.WalkWork.touchRange s o id
  have hst : (s.touchRange o id).streams = s.streams := by rw [hf]
  have hne' : ¬((s.touchRange o id).stream id).rd o.s2 = 0 := by rwa [State.stream_congr hst]
  have hkey : ((ps.head?.map Prod.fst).getD (⟨.dev, 0, 0, false⟩ : Loc)).key < 2 ^ 63 := by
    cases ps with
    | nil => exact (by decide : 0 < 2 ^ 63)
    | cons p r => exact hk p List.mem_cons_self
  rw [State.rangeOp_one ha hcnt hck, if_neg hne', State.launchOp_one (l := ⟨id, 0, 0⟩) 0 (decide_eq_false (Nat.not_le.mpr hkey)) rfl]
  obtain ⟨h1, h2, -⟩ := State.retired_counted (k := 1) ha (rngKill_id o)
    (u := { (s.touchRange o id).onLane id (Stream.counted 1) with
      ops := (s.touchRange o id).ops ++ [(s.touchRange o id).sent ((s.touchRange o id).rangeMem id op ps)]
      nextOp := (s.touchRange o id).nextOp + 1 }) (by rw [hf]; rfl) (by
        change (s.touchRange o id).streams.map _ = s.streams.map _
        rw [hst])
  have hops : (s.touchRange o id).ops = s.ops := by rw [hf]
  have hnext : (s.touchRange o id).nextOp = s.nextOp := by rw [hf]
  refine ⟨_, (s.touchRange o id).sent ((s.touchRange o id).rangeMem id op ps), rfl, h1.trans ?_, rfl, hnext, rfl,
    State.startPhase_local (s := s.touchRange o id) (o := { (s.touchRange o id).rangeMem id op ps with num := (s.touchRange o id).nextOp }) rfl rfl, ?_⟩
  · rw [hops, hnext]
    rfl
  · refine h2.trans ?_
    rw [rngKill_counted, Stream.counted, rngKill_cnt]
end

/-! ### `femk` (R252) -/

theorem rangeBad_vault {a : DWord} {l : Nat} (h0 : 2 ^ 62 ≤ a.toNat) (h1 : a.toNat + l ≤ 2 ^ 62 + 2 ^ 32) (hl : 0 < l) :
    rangeBad vaultOnly a l = false := by
  have hlt := a.isLt
  have hlast : (BitVec.ofNat 64 (a.toNat + (l - 1))).toNat = a.toNat + (l - 1) := by
    rw [BitVec.toNat_ofNat]
    omega
  have hca : a.toNat / 2 ^ 62 = 1 := by omega
  have hcl : (a.toNat + (l - 1)) / 2 ^ 62 = 1 := by omega
  have ho : classOk vaultOnly a = true := by
    rw [classOk_eq, hca]
    simpa [vaultOnly] using (by omega : a.toNat < 2 ^ 62 + 2 ^ 32)
  have hol : classOk vaultOnly (BitVec.ofNat 64 (a.toNat + (l - 1))) = true := by
    rw [classOk_eq, hlast, hcl]
    simpa [vaultOnly] using (by omega : a.toNat + (l - 1) < 2 ^ 62 + 2 ^ 32)
  have hw : decide (2 ^ 64 ≤ a.toNat + (l - 1)) = false := decide_eq_false (by omega)
  simp only [rangeBad, ho, hol, hw, hca, hcl]
  rfl

section
variable {o : Rng} {s : State} {id : SId} (ha : s.Alone o.g id) (hcnt : (s.stream id).cnt.st < 254)
include ha hcnt

theorem exec_femk_one (full : Bool) {c : Checked} (hck : s.femkCheck o id = .ok c) :
    exec (.femk o full) s = .next ((if ((s.stream id).rd o.s2).toNat = 0 then s
      else s.launchOp 0 (s.mkOp (rngForm (.femk ((s.stream id).rd o.s2).toNat full)) [⟨id, 0, 0⟩] none c)).retireLanes o.g (rngKill o)) := by
  obtain ⟨hl, hg, hp⟩ := ha
  have hfull : s.counterFull [id] 1 = false := State.counterFull_false fun i hi => by
    rw [List.mem_singleton.mp hi]
    exact hcnt
  have hcs : checkAll (s.femkCheck o) [id] = .ok [(id, c)] := by
    rw [checkAll, hck]
    rfl
  change execFemk o full s = _
  simp only [execFemk, State.active_one hl hg, hfull, hcs, Bool.false_eq_true, if_false, List.foldl_cons, List.foldl_nil]

theorem exec_femk_empty (full : Bool) (h0 : (s.stream id).rd o.s2 = 0) : exec (.femk o full) s = .next (s.completed o.g (rngKill o)) := by
  have hck : s.femkCheck o id = .ok ⟨⟨.vault, vaultKey, 0, false⟩, ((s.stream id).rd64 o.s1).toNat, none⟩ := by simp [State.femkCheck, h0]
  rw [exec_femk_one ha hcnt full hck, if_pos (by rw [h0]; rfl)]
  rfl
end

section
variable {o : Rng} {s : State} {id : SId} (ha : s.Alone o.g id) (hcnt : (s.stream id).cnt.st < 254)
include ha hcnt

theorem exec_femk_issues (full : Bool) (hne : (s.stream id).rd o.s2 ≠ 0) (h0 : 2 ^ 62 ≤ ((s.stream id).rd64 o.s1).toNat)
    (h1 : ((s.stream id).rd64 o.s1).toNat + ((s.stream id).rd o.s2).toNat ≤ 2 ^ 62 + 2 ^ 32) (ha4 : ((s.stream id).rd64 o.s1).toNat % 4 = 0)
    (hl4 : ((s.stream id).rd o.s2).toNat % 4 = 0) (hl16 : ((s.stream id).rd o.s2).toNat ≤ 65536)
    (hv : s.vaultBad (s.team id.tcx).recd.asid (((s.stream id).rd64 o.s1).toNat % 2 ^ 32) ((s.stream id).rd o.s2).toNat = none) :
    ∃ t x, exec (.femk o full) s = .next t ∧ t = { s with streams := t.streams, ops := s.ops ++ [x], nextOp := s.nextOp + 1 } ∧
      x.kind = .femk ((s.stream id).rd o.s2).toNat full ∧ x.num = s.nextOp ∧ x.loc.key = vaultKey + ((s.stream id).rd64 o.s1).toNat % 2 ^ 32 ∧
      x.counter = 1 ∧ t.stream id = { rngKill o (s.stream id) with cnt := (s.stream id).cnt.add 1 1 }.goto s.cur.npc := by
  have hne' : ((s.stream id).rd o.s2).toNat ≠ 0 := fun h => hne (BitVec.eq_of_toNat_eq h)
  have hbad := rangeBad_vault h0 h1 (by omega)
  have hck : s.femkCheck o id =
      .ok ⟨⟨.vault, vaultKey + ((s.stream id).rd64 o.s1).toNat % 2 ^ 32, 0, false⟩, ((s.stream id).rd64 o.s1).toNat, none⟩ := by
    simp only [State.femkCheck, hne', hbad, ha4, hl4, hv, Nat.not_lt.mpr hl16, ne_eq, not_true_eq_false, decide_false, Bool.or_self,
      Bool.false_eq_true, if_false]
  have hr : (vaultKey + ((s.stream id).rd64 o.s1).toNat % 2 ^ 32) < 2 ^ 63 := by
    unfold vaultKey
    omega
  rw [exec_femk_one ha hcnt full hck, if_neg hne', State.launchOp_one (l := ⟨id, 0, 0⟩) 0 (decide_eq_false (Nat.not_le.mpr hr)) rfl]
  obtain ⟨h1, h2, -⟩ := State.retired_counted (k := 1) ha (rngKill_id o) (u := { s.onLane id (Stream.counted 1) with
    ops := s.ops ++ [s.sent (s.mkOp (rngForm (.femk ((s.stream id).rd o.s2).toNat full)) [⟨id, 0, 0⟩] none
      ⟨⟨.vault, vaultKey + ((s.stream id).rd64 o.s1).toNat % 2 ^ 32, 0, false⟩, ((s.stream id).rd64 o.s1).toNat, none⟩)]
    nextOp := s.nextOp + 1 }) rfl rfl
  refine ⟨_, _, rfl, h1, rfl, rfl, rfl, rfl, h2.trans ?_⟩
  rw [rngKill_counted, Stream.counted, rngKill_cnt]
end

/-! ### Queries (R255, R256) -/

section
variable {o : Qry} {s : State} {id : SId} {c : Checked} {kind : Checked → OpKind} {check : SId → Except Fail Checked} (ha : s.Alone o.g id)
include ha

theorem State.query_unbound (hd : Reg.isPort o.d = true) (hk : s.portKey id o.d = none) :
    s.query o kind check = s.trap7 o.g cIllegalOperand id 0 := by
  obtain ⟨hl, hg, -⟩ := ha
  simp [State.query, State.trapLow, State.active_one hl hg, hd, hk]

variable (hcnt : (s.stream id).cnt.ld < 254) (hck : check id = .ok c) (hc : c.Local)
include hcnt hck hc

theorem State.query_plain (hd : Reg.isPort o.d = false) : s.query o kind check =
    (s.launchOp 0 (s.mkOp ⟨kind c, o.d, 4, .rlx, false, .thr, 0, .none, 0⟩ [⟨id, 0, 0⟩] none c)).retireLanes o.g fun st =>
      st.kill64 o.s1 o.k1 := by
  obtain ⟨hl, hg, -⟩ := ha
  have hfull : s.counterFull [id] 0 = false := State.counterFull_false fun i hi => by
    rw [List.mem_singleton.mp hi]
    exact hcnt
  have hcs : checkAll check [id] = .ok [(id, c)] := by
    rw [checkAll, hck]
    rfl
  have htouch := fun w => s.touch_none w .load (c := c) hc.2.2.2
  simp only [State.query, State.active_one hl hg, hd, hfull, hcs, Bool.false_eq_true, Bool.false_and, if_false, List.foldl_cons, List.foldl_nil,
    htouch]
  rfl

theorem State.query_port {key : Nat} (hd : Reg.isPort o.d = true) (hk : s.portKey id o.d = some key) (hroom : 0 < s.freeOf key) :
    s.query o kind check =
      (((s.reserveEntry key (maskOf [s.curTeam.lane id]) 1).2.launchOp 0 ((s.reserveEntry key (maskOf [s.curTeam.lane id]) 1).2.mkOp
        ⟨kind c, o.d, 4, .rlx, false, .thr, 0, .none, 0⟩ [⟨id, 0, 0⟩] (some (key / 32, key % 32, s.qu.serial)) c)).retireLanes o.g fun st =>
          st.kill64 o.s1 o.k1) := by
  obtain ⟨hl, hg, -⟩ := ha
  have hfull : s.counterFull [id] 0 = false := State.counterFull_false fun i hi => by
    rw [List.mem_singleton.mp hi]
    exact hcnt
  have hcs : checkAll check [id] = .ok [(id, c)] := by
    rw [checkAll, hck]
    rfl
  have hgroups : ∃ g, s.groupsOf [id] = [g] ∧ (decide (id.kind ≠ .lane) || decide (s.curTeam.group id = g)) = true := by
    refine ⟨if id.kind = .lane then s.curTeam.group id else 0, rfl, ?_⟩
    by_cases h : id.kind = .lane <;> simp [h]
  obtain ⟨g, hgs, hin⟩ := hgroups
  have hres : s.reserveLoads key s.curTeam [id] [g] = ([(g, s.qu.serial)], (s.reserveEntry key (maskOf [s.curTeam.lane id]) 1).2) := by
    rw [State.reserveLoads, List.filter_singleton, hin]
    rfl
  have hentry : entryFor s.curTeam key [(g, s.qu.serial)] id = some (key / 32, key % 32, s.qu.serial) := by
    have : (decide (id.kind ≠ .lane) || decide (g = s.curTeam.group id)) = true := by
      rw [← hin, decide_eq_decide.mpr (eq_comm (a := g))]
    rw [entryFor, List.find?_cons, this]
    rfl
  have htouch := fun (u : State) w => u.touch_none w .load (c := c) hc.2.2.2
  have hroom' : ¬s.freeOf key < 1 := by omega
  simp only [State.query, State.active_one hl hg, hd, hk, hfull, hcs, hgs, hres, Bool.false_eq_true, if_false, List.foldl_cons, List.foldl_nil,
    htouch, hentry, List.head?_cons, Option.any_some, Option.bind_some, Option.getD_some, hroom', Option.isNone_some, Bool.and_false,
    List.length_cons, List.length_nil, Nat.zero_add, if_true, decide_false]
end

/-- A query of one lane leaves its operation. -/
theorem State.query_issues {o : Qry} {s q : State} {id : SId} {x : MemOp} {l : OpLane} (ha : s.Alone o.g id) (hst : q.streams = s.streams)
    (hcur : q.cur = s.cur) (hops : q.ops = s.ops) (hnext : q.nextOp = s.nextOp) (hr : x.loc.ranked = false) (hl : x.lanes = [l])
    (hid : l.sid = id) (hx : x.counter = 0) : ∃ t, (q.launchOp 0 x).retireLanes o.g (fun st => st.kill64 o.s1 o.k1) = t ∧
      t = { q with streams := t.streams, ops := s.ops ++ [q.sent x], nextOp := s.nextOp + 1 } ∧
      t.stream id = { ((s.stream id).kill64 o.s1 o.k1) with cnt := (s.stream id).cnt.add 0 1 }.goto s.cur.npc := by
  rw [State.launchOp_one 0 hr hl, hid, hx]
  obtain ⟨h1, h2, -⟩ := State.retired_counted (k := 0) (f := fun st => st.kill64 o.s1 o.k1) ha (fun st => st.kill64_id _ _)
    (u := { q.onLane id (Stream.counted 0) with ops := q.ops ++ [q.sent x], nextOp := q.nextOp + 1 }) hcur (by
      change q.streams.map _ = s.streams.map _
      rw [hst])
  refine ⟨_, rfl, h1.trans ?_, h2.trans ?_⟩
  · rw [hops, hnext]
    rfl
  · rw [Stream.kill64_counted, Stream.counted, Stream.kill64_cnt]

theorem exec_rangeOp {i : Instr} {op : RangeOp} {needW : Bool} {o : Rng} (s : State)
    (hi : (i, op, needW) ∈ [(Instr.cwb o, RangeOp.wb, false), (.cflush o, .flush, false), (.cinval o, .inval, true),
          (.cprio o .first, .prio .first, false), (.cprio o .normal, .prio .normal, false), (.cprio o .last, .prio .last, false)]) :
    exec i s = .next (s.rangeOp o op needW) := by
  simp only [List.mem_cons, List.not_mem_nil, or_false, Prod.mk.injEq] at hi
  rcases hi with ⟨rfl, rfl, rfl⟩ | ⟨rfl, rfl, rfl⟩ | ⟨rfl, rfl, rfl⟩ | ⟨rfl, rfl, rfl⟩ | ⟨rfl, rfl, rfl⟩ | ⟨rfl, rfl, rfl⟩ <;> rfl

/-! ### `ptoa` and the private window (R86, R257) -/

theorem exec_ptoa {o : Qry} {s : State} {id : SId} {va : Nat} (ha : s.Alone o.g id)
    (hr : s.redirect (s.stream id) ((s.stream id).rd64 o.s1) 1 = .ok va) : ∃ t, exec (.ptoa o) s = .next t ∧ s.OnlyStreams t [id] ∧
      t.stream id = (((s.stream id).kill64 o.s1 o.k1).wr64 o.d (BitVec.ofNat 64 va)).goto s.cur.npc := by
  have hf : ∀ st : Stream, (match s.redirect st (st.rd64 o.s1) 1 with
      | .ok va => (st.kill64 o.s1 o.k1).wr64 o.d (BitVec.ofNat 64 va)
      | .error _ => st).id = st.id := fun st => by
    split
    · rw [Stream.wr64_id, Stream.kill64_id]
    · rfl
  obtain ⟨h1, h2⟩ := State.retired_one ha hf
  rw [hr] at h2
  obtain ⟨hl, hg, -⟩ := ha
  have hcs : checkAll (fun id => s.redirect (s.stream id) ((s.stream id).rd64 o.s1) 1) [id] = .ok [(id, va)] := by
    rw [checkAll, hr]
    rfl
  refine ⟨_, ?_, h1, h2⟩
  change execPtoa o s = _
  simp only [execPtoa, State.active_one hl hg, hcs] <;> rfl

theorem State.redirect_within {s : State} {st : Stream} {p : Nat} {d : Desc} (hn : p < 2 ^ d.privLog2) (hp : p < 2 ^ 32)
    (hd : s.desc (s.team st.id.tcx).recd.asid = some d) : s.redirect st (BitVec.ofNat 64 (windowBase + p)) 1 = .ok (d.privBase +
        (st.id.tcx * 2048 + (if st.id.kind = .lane then st.id.unit else 0)) * 2 ^ d.privLog2 + p) := by
  have ha : (BitVec.ofNat 64 (windowBase + p)).toNat = windowBase + p := by
    rw [BitVec.toNat_ofNat]
    unfold windowBase
    omega
  have hw : (BitVec.ofNat 64 (windowBase + p)).extractLsb' 32 32 = 0x01800000#32 := by
    rw [extract_window_eq, ha]
    unfold windowBase
    omega
  have hlt : ¬2 ^ d.privLog2 < p + 1 := by omega
  simp only [State.redirect, if_pos hw, hd, ha, Nat.add_sub_cancel_left, if_neg hlt]
  rfl

/-! ### Prefetch (R250) -/

theorem exec_prf (o : Acc) (s : State) : ∃ t, exec (.prf o) s = .next t ∧
    t = { s.completed o.g id with mem := t.mem, tr := t.tr, vt := t.vt, free := t.free, links := t.links, hif := t.hif } := by
  have hw : s.MemoryWork ((s.active o.g).foldl (fun s id => s.prefetch o id) s) :=
    State.MemoryWork.foldl (f := fun s id => s.prefetch o id) (fun s id => s.prefetch_work o id) (s.active o.g) s
  refine ⟨_, rfl, ?_⟩
  generalize (s.active o.g).foldl (fun s id => s.prefetch o id) s = u at *
  rw [hw]
  rfl
theorem exec_prf_fails {o : Acc} {s : State} (h : ∀ id ∈ s.active o.g, ∃ f, s.checkAt id .load class00 (accAddr o (s.stream id)) 1 1 = .error f) :
    exec (.prf o) s = .next (s.completed o.g id) := by
  have hfold : ∀ l : List SId, (∀ id ∈ l, id ∈ s.active o.g) → l.foldl (fun s id => s.prefetch o id) s = s := by
    intro l
    induction l with
    | nil => exact fun _ => rfl
    | cons id r ih =>
      intro hm
      obtain ⟨f, hf⟩ := h id (hm id List.mem_cons_self)
      have hp : s.prefetch o id = s := by simp only [State.prefetch, hf]
      rw [List.foldl_cons, hp]
      exact ih fun i hi => hm i (List.mem_cons_of_mem _ hi)
  change Host.Outcome.next (((s.active o.g).foldl (fun s id => s.prefetch o id) s).retireLanes o.g id) = _
  rw [hfold _ fun _ h => h]
  rfl

/-- Settles O30: each instruction of one lane leaves its operation, `ptoa` its address, and `prf` nothing that a register shows. -/
theorem rangesAndQueries : Obligations.RangesAndQueries := by
  unfold Obligations.RangesAndQueries
  refine ⟨?_, ?_, ?_, ?_, ?_, exec_prf, fun o s h => exec_prf_fails h⟩
  · intro o s id hl hg hp hcnt kill
    have ha : s.Alone o.g id := ⟨hl, hg, hp⟩
    refine ⟨fun i needW hi h0 => ?_, fun i op needW ps hi hne hck hk => ?_, fun full hne => ?_⟩
    · simp only [List.mem_cons, List.not_mem_nil, or_false, Prod.mk.injEq] at hi
      rcases hi with ⟨rfl, rfl⟩ | ⟨rfl, rfl⟩ | ⟨rfl, rfl⟩ | ⟨rfl, rfl⟩ | ⟨rfl, rfl⟩ | ⟨rfl, rfl⟩ | ⟨rfl, rfl⟩ | ⟨rfl, rfl⟩
      case inr.inr.inr.inr.inr.inr.inl => exact exec_femk_empty ha hcnt true h0
      case inr.inr.inr.inr.inr.inr.inr => exact exec_femk_empty ha hcnt false h0
      all_goals exact congrArg Host.Outcome.next (State.rangeOp_empty ha hcnt h0)
    · refine ⟨State.WalkWork.touchRange s o id, ?_⟩
      obtain ⟨t, x, hex, h⟩ := State.rangeOp_issues (op := op) ha hcnt hck hne hk
      exact ⟨t, x, (exec_rangeOp s hi).trans (congrArg Host.Outcome.next hex), h⟩
    · intro a l h0 h1 ha4 hl4 hl16 hv
      exact exec_femk_issues ha hcnt full hne h0 h1 ha4 hl4 hl16 hv
  · intro i o s id c hi ha hcnt hc
    refine ⟨fun hd hk => ?_, fun q e hq => ?_⟩
    · rcases hi with ⟨rfl, -⟩ | ⟨rfl, -⟩
      · exact congrArg Host.Outcome.next (State.query_unbound ha hd hk)
      · exact congrArg Host.Outcome.next (State.query_unbound ha hd hk)
    · obtain ⟨kind, check, hex, hck, hkind⟩ : ∃ (kind : Checked → OpKind) (check : SId → Except Fail Checked),
          exec i s = .next (s.query o kind check) ∧ check id = .ok c ∧
            kind c = if i = .feqry o then .feqry else .vcq 0 (BitVec.ofNat 64 c.va) := by
        rcases hi with ⟨rfl, h⟩ | ⟨rfl, h⟩
        · exact ⟨_, _, rfl, h, (if_pos rfl).symm⟩
        · exact ⟨_, _, rfl, h, (if_neg (by simp)).symm⟩
      rw [hex, ← hkind]
      rcases hq with ⟨hd, rfl, rfl⟩ | ⟨key, hd, hk, hroom, rfl, rfl⟩
      · obtain ⟨t, ht, hf, hs⟩ := State.query_issues (q := q) (l := ⟨id, 0, 0⟩)
          (x := q.mkOp ⟨kind c, o.d, 4, .rlx, false, .thr, 0, .none, 0⟩ [⟨id, 0, 0⟩] none c) ha rfl rfl rfl rfl hc.ranked rfl rfl rfl
        exact ⟨t, _, congrArg Host.Outcome.next ((State.query_plain ha hcnt hck hc hd).trans ht), hf, rfl, rfl, rfl, rfl, rfl, rfl, hs⟩
      · obtain ⟨t, ht, hf, hs⟩ := State.query_issues (s := s) (q := (s.reserveEntry key (maskOf [s.curTeam.lane id]) 1).2) (l := ⟨id, 0, 0⟩)
          (x := (s.reserveEntry key (maskOf [s.curTeam.lane id]) 1).2.mkOp ⟨kind c, o.d, 4, .rlx, false, .thr, 0, .none, 0⟩ [⟨id, 0, 0⟩]
            (some (key / 32, key % 32, s.qu.serial)) c) ha rfl rfl rfl rfl hc.ranked rfl rfl rfl
        exact ⟨t, _, congrArg Host.Outcome.next ((State.query_port ha hcnt hck hc hd hk hroom).trans ht), hf, rfl, rfl, rfl, rfl, rfl, rfl, hs⟩
  · exact fun o s id va hl hg hp hr => exec_ptoa ⟨hl, hg, hp⟩ hr
  · exact fun s st a n h => State.redirect_outside h
  · exact fun s st p d hn hp hd => State.redirect_within hn hp hd

end Sys2Proof.Machine
end
section
/-! PROOFS. The signal of `hsig`: an operation of its kind need not be one that is performed here (R372). -/
namespace Sys2Proof.Machine

/-- Sending an operation keeps it outstanding. -/
theorem State.sendNow_op? {s : State} {o : MemOp} (h : s.op? o.num = some o) : ((s.sendNow o).op? o.num).isSome = true := by
  have hf : ∀ ph : OpPhase, (List.find? (fun x => decide (x.num = o.num))
      (s.ops.map fun x => if x.num = o.num then { x with phase := ph } else x)).isSome = true := by
    intro ph
    rw [List.find?_isSome]
    refine ⟨{ o with phase := ph }, List.mem_map.mpr ⟨o, List.mem_of_find?_eq_some h, if_pos rfl⟩, decide_eq_true rfl⟩
  exact hf _

/-- A signal without a word whose location is the memory of another rank. -/
def awaySignal : MemOp :=
  { num := 0, kind := .hsig 0 0 false, lanes := [⟨⟨0, .lane, 0⟩, 0, 0⟩], d := 0, entry := none, va := 0, loc := ⟨.pod, 2 ^ 63, 0, false⟩
    size := 0, ord := .rel, scp := true, agent := .sys, mask := 0, hint := .none, core := 0, ctag := 0, counter := 1
    phase := .issued, inst := 0, kill := none }
/-- One lane with that signal outstanding, and the host link up. -/
def signalling : State :=
  { State.reset with
    streams := [newStream ⟨0, .lane, 0⟩ 0 0 0], ops := [awaySignal], links := { State.reset.links with hostUp := true } }

theorem signalling_may : signalling.mayPerform awaySignal = true := by decide
/-- It is a request to another rank that has not left yet: it is sent, and stays outstanding (R243, R319). -/
theorem signalling_sends : exec (.storePerformed 0) signalling = .next (signalling.sendNow awaySignal) := by
  have ho : signalling.op? 0 = some awaySignal := rfl
  have hp : signalling.performable awaySignal = true := by decide
  have hu : awaySignal.unsent = true := by decide
  change execStorePerformed 0 signalling = _
  simp only [execStorePerformed, ho, hp, hu]
  rfl

/-- Refutes O31: its last clause says that performing the message of `hsig` ends the operation whatever its location is, but
`awaySignal` names another rank's memory, so that the step only sends it. -/
theorem not_fencesAndCounters : ¬ Obligations.FencesAndCounters := by
  unfold Obligations.FencesAndCounters
  rintro ⟨-, -, -, -, hmsg⟩
  obtain ⟨t, hex, -, hgone, -⟩ := hmsg signalling 0 0 0 awaySignal ⟨⟨0, .lane, 0⟩, 0, 0⟩ rfl signalling_may rfl rfl rfl
    (fun id hid => by rw [List.mem_singleton.mp hid]; rfl) rfl
  rw [signalling_sends] at hex
  cases hex
  have h := State.sendNow_op? (s := signalling) (o := awaySignal) rfl
  rw [show awaySignal.num = 0 from rfl, hgone] at h
  exact Bool.noConfusion h

end Sys2Proof.Machine
end
section
/-! PROOFS. Barriers (R364 to R367). -/
namespace Sys2Proof.Machine

/-! ### Arrivals -/

/-- The barrier after n arrivals that do not pass the target. -/
def Barrier.after (b : Barrier) (n want : Nat) (count : Option Nat) : Barrier :=
  if b.arrived + n = want then ⟨b.gen + 1, 0, none⟩ else ⟨b.gen, b.arrived + n, some count⟩

theorem Barrier.arrive_eval {b : Barrier} {count : Option Nat} {live : Nat} (he : b.expected = none ∨ b.expected = some count)
    (h : b.arrived + 1 ≤ count.getD live) : (b.arrive count).eval live = b.after 1 (count.getD live) count := by
  have hexp : b.expected.getD count = count := by rcases he with h | h <;> rw [h] <;> rfl
  simp only [Barrier.eval, Barrier.arrive, hexp, Barrier.after]
  exact if_congr (by omega) rfl rfl

theorem arrivals_eq {live : Nat} {count : Option Nat} {ids : List SId} {b : Barrier} (hne : ids ≠ [])
    (he : b.expected = none ∨ b.expected = some count) (h : b.arrived + ids.length ≤ count.getD live) :
    arrivals live count ids b = (ids.map fun id => (id, b.gen), b.after ids.length (count.getD live) count) := by
  induction ids generalizing b with
  | nil => exact absurd rfl hne
  | cons id r ih =>
    rw [List.length_cons] at h
    have hev := Barrier.arrive_eval he (show b.arrived + 1 ≤ count.getD live by omega)
    rw [arrivals]
    dsimp only
    rw [hev]
    match r with
    | [] => rfl
    | id' :: r' =>
      rw [List.length_cons] at h
      have hgo : b.after 1 (count.getD live) count = ⟨b.gen, b.arrived + 1, some count⟩ := if_neg (by omega)
      rw [hgo, ih (List.cons_ne_nil _ _) (.inr rfl) (by simp only [List.length_cons]; omega)]
      simp only [List.map_cons, List.length_cons, Barrier.after, Nat.add_assoc, Nat.add_comm 1]

theorem genOf_map {ids : List SId} {id : SId} (h : id ∈ ids) (w : Word) : genOf (ids.map fun id => (id, w)) id = w := by
  have hf : ((ids.map fun i => (i, w)).find? fun g => g.1 = id) = some (id, w) := by
    induction ids with
    | nil => cases h
    | cons a r ih =>
      rw [List.map_cons, List.find?_cons]
      by_cases ha : a = id
      · simp [ha]
      · rw [show decide ((a, w).1 = id) = false from decide_eq_false ha]
        exact ih ((List.mem_cons.mp h).resolve_left fun e => ha e.symm)
  rw [genOf, hf]
  rfl

theorem State.barWait_none {s : State} {ids : List SId} {rlx arr ret : Bool} {stor : BitVec 5}
    (h : rlx = true ∨ s.Settled ids stor ∧ s.carriedIn ids stor = false) : s.barWait ids rlx arr ret stor = none := by
  rcases h with h | ⟨⟨-, hf, hp⟩, hc⟩
  · simp [State.barWait, h]
  · simp [State.barWait, State.flushWait_false hf, hp, hc]

/-! ### Lanes that differ in their notes only -/

/-- A state whose issue group stands as before, but for notes in its active lanes. -/
structure State.NotedAs (s u : State) (g : Guard) : Prop where
  cur : u.cur = s.cur
  on : ∀ id ∈ s.active g, (u.stream id).bare = (s.stream id).bare
  off : ∀ id, id ∉ s.active g → u.stream id = s.stream id
  other : ∀ id, id ∉ s.cur.lanes → u.stream? id = s.stream? id
  present : u.Present s.cur.lanes

theorem guardHolds_bare (g : Guard) {st st' : Stream} (h : st'.bare = st.bare) : guardHolds g st' = guardHolds g st := by
  have hr : ∀ st : Stream, guardHolds g st.bare = guardHolds g st := fun _ => rfl
  rw [← hr, h, hr]

section
variable {s u : State} {g : Guard}

theorem State.NotedAs.of_notesOn (hp : s.Present s.cur.lanes) (h : s.NotesOn u (s.active g)) : s.NotedAs u g := by
  obtain ⟨hf, ho⟩ := h.onlyStreams
  refine ⟨by rw [hf], fun id _ => h.bare id, fun id hid => ?_, fun id hid => ho id fun hm => hid (s.active_subset g hm), h.present hp⟩
  rw [State.stream, State.stream, ho id hid]
theorem State.NotedAs.congr {v : State} (h : s.NotedAs u g) (hc : v.cur = u.cur) (hs : v.streams = u.streams) : s.NotedAs v g := by
  refine ⟨hc.trans h.cur, fun id hid => ?_, fun id hid => ?_, fun id hid => ?_, fun id hid => ?_⟩
  · rw [State.stream_congr hs]; exact h.on id hid
  · rw [State.stream_congr hs]; exact h.off id hid
  · rw [State.stream?_congr hs]; exact h.other id hid
  · rw [State.stream?_congr hs]; exact h.present id hid
theorem State.NotedAs.active (h : s.NotedAs u g) : u.active g = s.active g := by
  refine State.active_congr h.cur fun id _ => ?_
  by_cases hm : id ∈ s.active g
  · exact guardHolds_bare g (h.on id hm)
  · rw [h.off id hm]
theorem State.NotedAs.notes {v : State} (h : s.NotedAs u g) (hn : u.NotesOn v (s.active g)) : s.NotedAs v g := by
  obtain ⟨hf, ho⟩ := hn.onlyStreams
  refine ⟨by rw [hf]; exact h.cur, fun id hid => (hn.bare id).trans (h.on id hid), fun id hid => ?_, fun id hid => ?_, hn.present h.present⟩
  · rw [State.stream, ho id hid]
    exact h.off id hid
  · rw [ho id fun hm => hid (s.active_subset g hm)]
    exact h.other id hid
theorem State.NotedAs.refl (hp : s.Present s.cur.lanes) (g : Guard) : s.NotedAs s g := .of_notesOn hp (.refl s _)
/-- An acquire of lanes that wait for no flush. -/
theorem State.NotedAs.acquired (h : s.NotedAs u g) (ord : Order) (hf : ∀ id ∈ s.active g, (s.stream id).flush = none) :
    s.NotedAs (u.acquired ord (s.active g)) g := by
  have hst : ∀ id, (u.acquired ord (s.active g)).stream id = u.stream id := u.acquired_streams ord fun id hid =>
    (congrArg Stream.flush (h.on id hid) : (u.stream id).bare.flush = (s.stream id).bare.flush).trans (hf id hid)
  refine ⟨(u.acquired_cur _ _).trans h.cur, fun id hid => by rw [hst]; exact h.on id hid, fun id hid => by rw [hst]; exact h.off id hid,
    fun id hid => ?_, State.acquired_present h.present⟩
  rw [(u.acquired_only ord (s.active g)).2 id fun hm => hid (s.active_subset g hm)]
  exact h.other id hid

variable {f : Stream → Stream} (hid : ∀ st : Stream, (f st).id = st.id)
  (hb : ∀ st st' : Stream, st'.bare = st.bare → (f st').bare = (f st).bare)
include hid hb

theorem State.NotedAs.retires (h : s.NotedAs u g) : s.LanesBare (u.retireLanes g f) g fun st => (f st).goto s.cur.npc := by
  obtain ⟨hon, hoff, hother⟩ := u.retireLanes_lanes g hid (by rw [h.cur]; exact h.present)
  rw [h.active, h.cur] at hon hoff
  rw [h.cur] at hother
  refine ⟨fun id hm => ?_, fun id hl hm => ?_, fun id hl => (hother id hl).trans (h.other id hl)⟩
  · rw [hon id hm]
    exact congrArg (fun x : Stream => x.goto s.cur.npc) (hb _ _ (h.on id hm))
  · rw [hoff id hl hm, h.off id hm]
theorem State.NotedAs.parks (h : s.NotedAs u g) : s.LanesBare ((u.skipLanes g).onLanes (s.active g) f) g f := by
  obtain ⟨hon, hoff, hother⟩ := u.skipLanes_lanes g (by rw [h.cur]; exact h.present)
  have hp : (u.skipLanes g).Present s.cur.lanes := u.onLanes_present (fun st => by split <;> rfl) h.present
  rw [h.active] at hon hoff
  rw [h.cur] at hoff hother
  refine ⟨fun id hm => ?_, fun id hl hm => ?_, fun id hl => ?_⟩
  · rw [State.onLanes_listed _ hid hm (hp id (s.active_subset g hm)), hon id hm]
    exact hb _ _ (h.on id hm)
  · rw [State.onLanes_unlisted _ hid hm, hoff id hl hm, h.off id hm]
  · rw [(u.skipLanes g).onLanes_other _ hid fun hm => hl (s.active_subset g hm), hother id hl, h.other id hl]
end

/-! ### The team's barriers -/

theorem State.onTeam_other {s : State} {k x : Nat} {f : Team → Team} (hf : ∀ tm : Team, (f tm).tcx = tm.tcx) (h : x ≠ k) :
    (s.onTeam k f).team? x = s.team? x := by
  simp only [State.team?, State.onTeam, List.find?_map]
  have hp : ((fun t : Team => decide (t.tcx = x)) ∘ fun t => if t.tcx = k then f t else t) = fun t => decide (t.tcx = x) := by
    funext t
    dsimp only [Function.comp]
    split
    · rw [hf]
    · rfl
  rw [hp]
  cases hfind : s.teams.find? fun t => t.tcx = x with
  | none => rfl
  | some tm =>
    have htm : tm.tcx = x := by simpa using List.find?_some hfind
    rw [Option.map_some, if_neg fun e => h (htm.symm.trans e)]

theorem Team.noteBar_keeps (t : Team) (id : Nat) (bar : Bool) (arrived : List (SId × Word)) (now : Word) :
    (t.noteBar id bar arrived now).bars = t.bars ∧ (t.noteBar id bar arrived now).tcx = t.tcx := by
  have harr : ∀ (t : Team) (gs : List Nat), (t.noteArrivals id gs).bars = t.bars ∧ (t.noteArrivals id gs).tcx = t.tcx :=
    fun t gs => ⟨rfl, rfl⟩
  have hcomp : ∀ t : Team, (t.noteComplete id).bars = t.bars ∧ (t.noteComplete id).tcx = t.tcx := fun t => by
    unfold Team.noteComplete
    split <;> exact ⟨rfl, rfl⟩
  have hfold : ∀ (step : Team → Word → Team), (∀ t k, (step t k).bars = t.bars ∧ (step t k).tcx = t.tcx) → ∀ (l : List Word) (t : Team),
      (l.foldl step t).bars = t.bars ∧ (l.foldl step t).tcx = t.tcx := by
    intro step hs l
    induction l with
    | nil => exact fun t => ⟨rfl, rfl⟩
    | cons k r ih =>
      intro t
      obtain ⟨h1, h2⟩ := ih (step t k)
      exact ⟨h1.trans (hs t k).1, h2.trans (hs t k).2⟩
  refine hfold _ (fun t k => ?_) _ t
  dsimp only
  split <;> split
  · exact harr t _
  · exact ⟨rfl, rfl⟩
  · exact ⟨(hcomp _).1.trans (harr t _).1, (hcomp _).2.trans (harr t _).2⟩
  · exact hcomp t

/-- A team's barrier after arrivals: the generation that it stands at, and what the arrivals note. -/
def State.barState (s : State) (tcx n : Nat) (wait : Bool) (gs : List (SId × Word)) (b : Barrier) : State :=
  (s.setBar tcx n b).onTeam tcx fun x => x.noteBar n wait gs b.gen

theorem State.barState_teams {s : State} {tm : Team} {n : Nat} {wait : Bool} {gs : List (SId × Word)} {b : Barrier}
    (ht : s.team? tm.tcx = some tm) : ((s.barState tm.tcx n wait gs b).team tm.tcx).barrier n = b ∧
      (∀ k, k ≠ n → ((s.barState tm.tcx n wait gs b).team tm.tcx).barrier k = tm.barrier k) ∧
      ∀ x, x ≠ tm.tcx → (s.barState tm.tcx n wait gs b).team? x = s.team? x := by
  have hnote : ∀ x : Team, (x.noteBar n wait gs b.gen).tcx = x.tcx := fun x => (x.noteBar_keeps n wait gs b.gen).2
  have hteam : (s.barState tm.tcx n wait gs b).team? tm.tcx =
      some (({ tm with bars := sset blankBar tm.bars n b } : Team).noteBar n wait gs b.gen) := by
    rw [State.barState, State.onTeam_team? _ _ hnote, State.setBar,
      s.onTeam_team? tm.tcx (f := fun t => { t with bars := sset blankBar t.bars n b }) (fun _ => rfl), ht]
    rfl
  refine ⟨?_, fun k hk => ?_, fun x hx => ?_⟩
  · rw [State.team_of hteam, Team.barrier, (Team.noteBar_keeps _ _ _ _ _).1]
    exact sget_sset_same _ _ _ _
  · rw [State.team_of hteam, Team.barrier, (Team.noteBar_keeps _ _ _ _ _).1]
    exact sget_sset_other _ _ _ hk
  · rw [State.barState, State.onTeam_other hnote hx, State.setBar,
      State.onTeam_other (f := fun t => { t with bars := sset blankBar t.bars n b }) (fun _ => rfl) hx]

/-! ### Arrivals of an issue group -/

theorem State.arriveWith_notes (s : State) (key : Option Nat) (ids : List SId) : s.NotesOn (s.arriveWith key ids) ids := by
  have h := State.NotesOn.foldl (on := fun id => id) (l := ids)
    (step := fun s id => if (s.pendingBefore (s.stream id) s.nextOp).isEmpty then s
      else s.onLane id fun st => { st with
        arrived := (st.arrived.filter fun e => e.2.any s.live) ++ [(key, s.pendingBefore (s.stream id) s.nextOp)] })
    (fun id _ s => by
      split
      · exact .refl s _
      · exact .of_onLane s id fun st => rfl) s
  rwa [List.map_id'] at h

theorem State.OnlyStreams.threads {s t : State} {ids : List SId} (h : s.OnlyStreams t ids) : s.OnlyThreads t := by
  unfold State.OnlyThreads
  rw [h.1]

theorem State.LanesBare.congr {s t : State} {g : Guard} {f f' : Stream → Stream} (h : s.LanesBare t g f)
    (hf : ∀ id ∈ s.active g, f (s.stream id) = f' (s.stream id)) : s.LanesBare t g f' :=
  ⟨fun id hid => by rw [h.1 id hid, hf id hid], h.2⟩

/-- What the arrivals release. -/
def State.arriving (s : State) (rlx : Bool) (key : Option Nat) (ids : List SId) : State := if rlx then s else s.arriveWith key ids
theorem State.arriving_notes (s : State) (rlx : Bool) (key : Option Nat) (ids : List SId) : s.NotesOn (s.arriving rlx key ids) ids := by
  unfold State.arriving
  split
  · exact .refl s ids
  · exact s.arriveWith_notes key ids
/-- The acquire of a wait that is not relaxed. -/
def State.returning (s : State) (rlx : Bool) (ids : List SId) : State := if rlx then s else s.acquired .acq ids

theorem State.returning_only (s : State) (rlx : Bool) (ids : List SId) : s.OnlyStreams (s.returning rlx ids) ids := by
  unfold State.returning
  split
  · exact .refl s ids
  · exact s.acquired_only _ _
theorem State.NotedAs.returning {s u : State} {g : Guard} {rlx : Bool} {stor : BitVec 5} (h : s.NotedAs u g)
    (hw : rlx = true ∨ s.Settled (s.active g) stor ∧ s.carriedIn (s.active g) stor = false) :
    s.NotedAs (u.returning rlx (s.active g)) g := by
  unfold State.returning
  rcases hw with hr | ⟨⟨-, hf, -⟩, -⟩
  · rw [if_pos hr]
    exact h
  · split
    · exact h
    · exact h.acquired .acq hf

section
variable {s : State} {o : BarOp} (hne : s.active o.g ≠ [])
  (hw : o.rlx = true ∨ s.Settled (s.active o.g) o.stor ∧ s.carriedIn (s.active o.g) o.stor = false)
  (he : (s.curTeam.barrier o.id.toNat).expected = none ∨ (s.curTeam.barrier o.id.toNat).expected = some (s.barCount o))
  (hle : (s.curTeam.barrier o.id.toNat).arrived + (s.active o.g).length ≤ (s.barCount o).getD (s.liveLanes s.curTeam.tcx))
include hne hw he hle

theorem State.barArrive_eq (wait : Bool) : s.barArrive o wait =
    (let gs := (s.active o.g).map fun id => (id, (s.curTeam.barrier o.id.toNat).gen)
     let s2 := (s.arriving o.rlx (some o.id.toNat) (s.active o.g)).barState s.curTeam.tcx o.id.toNat wait gs
       ((s.curTeam.barrier o.id.toNat).after (s.active o.g).length ((s.barCount o).getD (s.liveLanes s.curTeam.tcx)) (s.barCount o))
     if wait then ((s2.returning o.rlx (s.active o.g)).skipLanes o.g).onLanes (s.active o.g) fun st =>
       st.parkAt (.bar o.id.toNat (genOf gs st.id) false o.rlx)
     else s2.retireLanes o.g fun st => st.wr o.d (genOf gs st.id)) := by
  obtain ⟨low, rest, hact⟩ := List.exists_cons_of_ne_nil hne
  have hhead : (s.active o.g).head? = some low := by rw [hact]; rfl
  have hdis : (s.curTeam.barrier o.id.toNat).disagrees (s.barCount o) = false := by
    rcases he with h | h <;> simp [Barrier.disagrees, h]
  have hrel : (if o.rlx then s else s.releaseTag s.curTag) = s := by
    rcases hw with h | ⟨⟨h, -⟩, -⟩
    · rw [h]; rfl
    · rw [State.releaseTag, h]; exact ite_self s
  unfold State.barArrive
  simp only [hhead, State.barWait_none hw, hdis, arrivals_eq hne he hle, hrel]
  rfl

/-- The team after its lanes' arrivals. -/
theorem State.barArrive_teams (ht : s.team? s.curTeam.tcx = some s.curTeam) (wait : Bool) :
    let t := s.barArrive o wait
    s.OnlyThreads t ∧ (t.team s.curTeam.tcx).barrier o.id.toNat = (s.curTeam.barrier o.id.toNat).after (s.active o.g).length
        ((s.barCount o).getD (s.liveLanes s.curTeam.tcx)) (s.barCount o) ∧
      (∀ k, k ≠ o.id.toNat → (t.team s.curTeam.tcx).barrier k = s.curTeam.barrier k) ∧
      ∀ x, x ≠ s.curTeam.tcx → t.team? x = s.team? x := by
  intro t
  have ht' : t = _ := State.barArrive_eq hne hw he hle wait
  clear_value t
  obtain ⟨hv, -⟩ := (s.arriving_notes o.rlx (some o.id.toNat) (s.active o.g)).onlyStreams
  have hteams : (s.arriving o.rlx (some o.id.toNat) (s.active o.g)).team? s.curTeam.tcx = some s.curTeam := by rw [hv]; exact ht
  have hsame : ∀ x, (s.arriving o.rlx (some o.id.toNat) (s.active o.g)).team? x = s.team? x := fun x => by rw [hv]; rfl
  obtain ⟨h1, h2, h3⟩ := State.barState_teams (n := o.id.toNat) (wait := wait)
    (gs := (s.active o.g).map fun id => (id, (s.curTeam.barrier o.id.toNat).gen))
    (b := (s.curTeam.barrier o.id.toNat).after (s.active o.g).length ((s.barCount o).getD (s.liveLanes s.curTeam.tcx)) (s.barCount o)) hteams
  have hs2 : s.OnlyThreads ((s.arriving o.rlx (some o.id.toNat) (s.active o.g)).barState s.curTeam.tcx o.id.toNat wait
      ((s.active o.g).map fun id => (id, (s.curTeam.barrier o.id.toNat).gen))
      ((s.curTeam.barrier o.id.toNat).after (s.active o.g).length ((s.barCount o).getD (s.liveLanes s.curTeam.tcx)) (s.barCount o))) :=
    (s.arriving_notes o.rlx (some o.id.toNat) (s.active o.g)).onlyStreams.threads.trans rfl
  dsimp only at ht'
  generalize (s.arriving o.rlx (some o.id.toNat) (s.active o.g)).barState s.curTeam.tcx o.id.toNat wait _ _ = s2 at *
  have hthr : s2.OnlyThreads t ∧ t.teams = s2.teams := by
    rw [ht']
    split
    · have hret := (s2.returning_only o.rlx (s.active o.g))
      refine ⟨hret.threads.trans rfl, ?_⟩
      change (s2.returning o.rlx (s.active o.g)).teams = s2.teams
      rw [hret.1]
    · exact ⟨rfl, rfl⟩
  have hteam? : ∀ x, t.team? x = s2.team? x := fun x => by rw [State.team?, hthr.2]; rfl
  have hteam : ∀ x, t.team x = s2.team x := fun x => by rw [State.team, hteam?]; rfl
  exact ⟨hs2.trans hthr.1, by rw [hteam]; exact h1, fun k hk => by rw [hteam]; exact h2 k hk,
    fun x hx => (hteam? x).trans ((h3 x hx).trans (hsame x))⟩

/-- The lanes after their arrivals. -/
theorem State.barArrive_lanes (hp : s.Present s.cur.lanes) :
    s.LanesBare (s.barArrive o true) o.g (fun st => st.parkAt (.bar o.id.toNat (s.curTeam.barrier o.id.toNat).gen false o.rlx)) ∧
    s.LanesBare (s.barArrive o false) o.g (fun st => (st.wr o.d (s.curTeam.barrier o.id.toNat).gen).goto s.cur.npc) := by
  have hnote : ∀ wait gs b, s.NotedAs ((s.arriving o.rlx (some o.id.toNat) (s.active o.g)).barState s.curTeam.tcx o.id.toNat wait gs b) o.g :=
    fun wait gs b => (State.NotedAs.of_notesOn hp (s.arriving_notes o.rlx (some o.id.toNat) (s.active o.g))).congr rfl rfl
  have hgen : ∀ id ∈ s.active o.g,
      genOf ((s.active o.g).map fun id => (id, (s.curTeam.barrier o.id.toNat).gen)) (s.stream id).id = (s.curTeam.barrier o.id.toNat).gen :=
    fun id hid => by rw [s.stream_id]; exact genOf_map hid _
  have hidb : ∀ st st' : Stream, st'.bare = st.bare → st'.id = st.id := fun st st' h => Stream.id_of_bare h
  rw [State.barArrive_eq hne hw he hle, State.barArrive_eq hne hw he hle]
  refine ⟨?_, ?_⟩
  · refine (State.NotedAs.parks (f := fun st => st.parkAt (.bar o.id.toNat
      (genOf ((s.active o.g).map fun id => (id, (s.curTeam.barrier o.id.toNat).gen)) st.id) false o.rlx)) (fun _ => rfl)
      (fun st st' h => ?_) ((hnote true _ _).returning hw)).congr fun id hid => by rw [hgen id hid]
    rw [hidb st st' h]
    exact congrArg (fun x : Stream => x.parkAt _) h
  · refine (State.NotedAs.retires (f := fun st => st.wr o.d
      (genOf ((s.active o.g).map fun id => (id, (s.curTeam.barrier o.id.toNat).gen)) st.id)) (fun st => st.wr_id _ _)
      (fun st st' h => ?_) (hnote false _ _)).congr fun id hid => by rw [hgen id hid]
    rw [hidb st st' h, Stream.wr_bare, Stream.wr_bare, h]
end

/-! ### `barwt` and `gbar` -/

theorem barReturn_bare (s : State) (key : Option Nat) (st : Stream) : (s.barReturn key st).bare = st.bare := by
  unfold State.barReturn
  split <;> rfl

section
variable {s : State}

theorem exec_barwt {o : BarOp} (hp : s.Present s.cur.lanes)
    (hw : o.rlx = true ∨ s.Settled (s.active o.g) o.stor ∧ s.carriedIn (s.active o.g) o.stor = false) :
    ∃ t, exec (.barwt o) s = .next t ∧ s.OnlyStreams t s.cur.lanes ∧ s.LanesBare t o.g fun st =>
      if st.rd o.s1 = (s.curTeam.barrier o.id.toNat).gen then st.parkAt (.bar o.id.toNat (s.curTeam.barrier o.id.toNat).gen true o.rlx)
      else st.goto s.cur.npc := by
  have hn := (State.NotedAs.refl hp o.g).returning hw
  have honly := s.returning_only o.rlx (s.active o.g)
  have hex : exec (.barwt o) s = .next ((s.returning o.rlx (s.active o.g)).onLanes s.cur.lanes fun st =>
      if guardHolds o.g st && st.rd o.s1 == (s.curTeam.barrier o.id.toNat).gen then
        st.parkAt (.bar o.id.toNat (s.curTeam.barrier o.id.toNat).gen true o.rlx)
      else (if o.rlx || !guardHolds o.g st then st else s.barReturn (some o.id.toNat) st).goto s.cur.npc) := by
    change execBarwt o s = _
    simp only [execBarwt, State.barWait_none hw]
    rfl
  generalize s.returning o.rlx (s.active o.g) = u at *
  have hid : ∀ st : Stream, (if guardHolds o.g st && st.rd o.s1 == (s.curTeam.barrier o.id.toNat).gen then
        st.parkAt (.bar o.id.toNat (s.curTeam.barrier o.id.toNat).gen true o.rlx)
      else (if o.rlx || !guardHolds o.g st then st else s.barReturn (some o.id.toNat) st).goto s.cur.npc).id = st.id := fun st => by
    split
    · rfl
    · split
      · rfl
      · change (s.barReturn (some o.id.toNat) st).id = st.id
        exact Stream.id_of_bare (barReturn_bare s _ st)
  refine ⟨_, hex, (honly.mono (s.active_subset o.g)).trans (u.onLanes_onlyStreams hid _), fun id hm => ?_, fun id hl hm => ?_, fun id hl => ?_⟩
  · obtain ⟨hl, hg⟩ := State.mem_active.mp hm
    have hb := hn.on id hm
    have hg' : guardHolds o.g (u.stream id) = true := (guardHolds_bare o.g hb).trans hg
    have hrd : (u.stream id).rd o.s1 = (s.stream id).rd o.s1 :=
      (congrArg (fun x : Stream => x.rd o.s1) hb : (u.stream id).bare.rd o.s1 = (s.stream id).bare.rd o.s1)
    rw [u.onLanes_listed hid hl (hn.present id hl), hg', hrd, Bool.true_and]
    beta_reduce
    by_cases h : (s.stream id).rd o.s1 = (s.curTeam.barrier o.id.toNat).gen
    · rw [if_pos (beq_iff_eq.mpr h), if_pos h]
      exact congrArg (fun x : Stream => x.parkAt _) hb
    · rw [if_neg (by simpa using h), if_neg h]
      have hret : (if o.rlx || !true then u.stream id else s.barReturn (some o.id.toNat) (u.stream id)).bare = (u.stream id).bare := by
        split
        · rfl
        · exact barReturn_bare s _ _
      exact congrArg (fun x : Stream => x.goto s.cur.npc) (hret.trans hb)
  · have hg : guardHolds o.g (u.stream id) = false := by
      rw [hn.off id hm]
      exact Bool.eq_false_iff.mpr fun hg => hm (State.mem_active.mpr ⟨hl, hg⟩)
    rw [u.onLanes_listed hid hl (hn.present id hl), hg, hn.off id hm]
    simp
  · rw [u.onLanes_other _ hid hl]
    exact hn.other id hl

/-- The lanes of a grid's barrier after their arrival. -/
def State.gbarParked (u : State) (g : Guard) (rlx : Bool) (ids : List SId) (gs : List (SId × Word)) (grid : Nat) (b : Barrier) : State :=
  (State.skipLanes { u with gbars := sset blankBar u.gbars grid b } g).onLanes ids fun st => st.parkAt (.gbar (genOf gs st.id) rlx)

theorem exec_gbar {g : Guard} {rlx : Bool} {stor : BitVec 5} (hp : s.Present s.cur.lanes) (hne : s.active g ≠ [])
    (hw : rlx = true ∨ s.Settled (s.active g) stor ∧ s.carriedIn (s.active g) stor = false) (hco : s.curTeam.recd.coteam = true)
    (he : (sget blankBar s.gbars s.curTeam.grid).expected = none ∨ (sget blankBar s.gbars s.curTeam.grid).expected = some none)
    (hle : (sget blankBar s.gbars s.curTeam.grid).arrived + (s.active g).length ≤
      ((s.teams.filter fun x => x.grid == s.curTeam.grid).map fun x => s.liveLanes x.tcx).sum) :
    ∃ t, exec (.gbar g rlx stor) s = .next t ∧ t = { s with streams := t.streams, gbars := t.gbars } ∧
      t.gbars = sset blankBar s.gbars s.curTeam.grid ((sget blankBar s.gbars s.curTeam.grid).after (s.active g).length
        ((s.teams.filter fun x => x.grid == s.curTeam.grid).map fun x => s.liveLanes x.tcx).sum none) ∧
      s.LanesBare t g fun st => st.parkAt (.gbar (sget blankBar s.gbars s.curTeam.grid).gen rlx) := by
  obtain ⟨low, rest, hact⟩ := List.exists_cons_of_ne_nil hne
  have hhead : (s.active g).head? = some low := by rw [hact]; rfl
  have hrel : (if rlx then s else (s.releaseTag s.curTag).acquired .acq (s.active g)) = s.returning rlx (s.active g) := by
    rcases hw with h | ⟨⟨h, -⟩, -⟩
    · rw [State.returning, h]; rfl
    · rw [State.returning, State.releaseTag, h]; rfl
  have hn := (State.NotedAs.refl hp g).returning hw
  have harr := (s.returning rlx (s.active g)).arriving_notes rlx none (s.active g)
  have honly : s.OnlyStreams ((s.returning rlx (s.active g)).arriving rlx none (s.active g)) (s.active g) :=
    (s.returning_only rlx (s.active g)).trans harr.onlyStreams
  have hn2 := hn.notes harr
  have harrive := arrivals_eq (live := ((s.teams.filter fun x : Team => x.grid == s.curTeam.grid).map fun x : Team => s.liveLanes x.tcx).sum)
    (count := none) hne he hle
  have hex : exec (.gbar g rlx stor) s = .next (((s.returning rlx (s.active g)).arriving rlx none (s.active g)).gbarParked g rlx (s.active g)
      ((s.active g).map fun id => (id, (sget blankBar s.gbars s.curTeam.grid).gen)) s.curTeam.grid
      ((sget blankBar s.gbars s.curTeam.grid).after (s.active g).length
        ((s.teams.filter fun x => x.grid == s.curTeam.grid).map fun x => s.liveLanes x.tcx).sum none)) := by
    change execGbar g rlx stor s = _
    simp only [execGbar, hhead, hco, State.barWait_none hw, harrive, hrel,
      Bool.not_true, Bool.false_eq_true, if_false]
    rfl
  generalize (s.returning rlx (s.active g)).arriving rlx none (s.active g) = u at *
  generalize (sget blankBar s.gbars s.curTeam.grid).after (s.active g).length
    ((s.teams.filter fun x : Team => x.grid == s.curTeam.grid).map fun x : Team => s.liveLanes x.tcx).sum none = b at hex ⊢
  have hg : u.gbars = s.gbars := by rw [honly.1]
  have hframe : ∀ t : State, { u with streams := t.streams, gbars := t.gbars } = { s with streams := t.streams, gbars := t.gbars } :=
    fun t => congrArg (fun y : State => { y with streams := t.streams, gbars := t.gbars }) honly.1
  refine ⟨_, hex, ?_, congrArg (fun l => sset blankBar l s.curTeam.grid b) hg, ?_⟩
  · exact hframe (u.gbarParked g rlx _ _ _ b)
  · refine (State.NotedAs.parks (f := fun st => st.parkAt (.gbar
      (genOf ((s.active g).map fun id => (id, (sget blankBar s.gbars s.curTeam.grid).gen)) st.id) rlx)) (fun _ => rfl)
      (u := { u with gbars := sset blankBar u.gbars s.curTeam.grid b }) (fun st st' h => ?_) (hn2.congr rfl rfl)).congr fun id hid => ?_
    · rw [Stream.id_of_bare h]
      exact congrArg (fun x : Stream => x.parkAt _) h
    · rw [s.stream_id, genOf_map hid]
end

/-! ### Release (R364, R366, R367) -/

/-- A stream as the release of a barrier leaves it. -/
def State.released (s : State) (tcx : Nat) (key : Option Nat) (st : Stream) : Stream :=
  if st.id.tcx = tcx && s.barPassed st key then (if st.park.relaxed then st else s.barReturn key st).passed else st
theorem State.released_id (s : State) (tcx : Nat) (key : Option Nat) (st : Stream) : (s.released tcx key st).id = st.id := by
  unfold State.released
  split
  · change (if st.park.relaxed then st else s.barReturn key st).id = st.id
    split
    · rfl
    · exact Stream.id_of_bare (barReturn_bare s key st)
  · rfl
theorem exec_barrierRelease (tcx : Nat) (key : Option Nat) {s : State} {id : SId} (h : (s.stream? id).isSome = true) :
    ∃ t, exec (.barrierRelease tcx key) s = .next t ∧ t = { s with streams := t.streams } ∧
      t.stream id = s.released tcx key (s.stream id) := by
  refine ⟨_, rfl, rfl, ?_⟩
  obtain ⟨st, hst⟩ := Option.isSome_iff_exists.mp h
  have hm := s.stream?_map (s.released tcx key) (s.released_id tcx key) id
  change (State.stream? { s with streams := s.streams.map (s.released tcx key) } id).getD _ = _
  rw [hm, State.stream, hst]
  rfl

section
variable {s : State} {tcx : Nat} {key : Option Nat} {st : Stream}

theorem State.released_stays (h : st.id.tcx ≠ tcx ∨ s.barPassed st key = false) : s.released tcx key st = st := by
  unfold State.released
  rcases h with h | h <;> simp [h]
theorem State.released_goes (ht : st.id.tcx = tcx) (h : s.barPassed st key = true) :
    (s.released tcx key st).bare = (st.goto (st.pc + 8)).bare ∧
      (st.park.relaxed = true → s.released tcx key st = st.goto (st.pc + 8)) := by
  have hr : s.released tcx key st = (if st.park.relaxed then st else s.barReturn key st).passed := if_pos (by simp [ht, h])
  rw [hr]
  refine ⟨?_, fun hrel => by rw [if_pos hrel]; rfl⟩
  have hb : (if st.park.relaxed then st else s.barReturn key st).bare = st.bare := by
    split
    · rfl
    · exact barReturn_bare s key st
  exact congrArg (fun x : Stream => x.goto (x.pc + 8)) hb
end

/-- Settles O32: arrivals below the target, one generation for all, and its end with the arrival that reaches it. -/
theorem barriers : Obligations.Barriers := by
  unfold Obligations.Barriers
  refine ⟨?_, ?_⟩
  · intro s hp ht tm next
    refine ⟨?_, ?_⟩
    · intro o hne hw b count want
      refine ⟨exec_barwt hp hw, fun he hle i f hi => ?_⟩
      obtain ⟨hpark, hgo⟩ := State.barArrive_lanes hne hw he hle hp
      simp only [List.mem_cons, List.not_mem_nil, or_false, Prod.mk.injEq] at hi
      rcases hi with ⟨rfl, rfl⟩ | ⟨rfl, rfl⟩
      · obtain ⟨h1, h2, h3, h4⟩ := State.barArrive_teams hne hw he hle ht true
        exact ⟨_, rfl, h1, h2, h3, h4, hpark⟩
      · obtain ⟨h1, h2, h3, h4⟩ := State.barArrive_teams hne hw he hle ht false
        exact ⟨_, rfl, h1, h2, h3, h4, hgo⟩
    · intro g rlx stor hne hw hco b want he hle
      obtain ⟨t, hex, hf, hg, hl⟩ := exec_gbar hp hne hw hco he hle
      refine ⟨t, hex, hf, ?_, fun k hk => ?_, hl⟩
      · rw [hg]
        exact sget_sset_same _ _ _ _
      · rw [hg]
        exact sget_sset_other _ _ _ hk
  · intro tcx s id hid
    refine ⟨fun k => ?_, ?_⟩
    · obtain ⟨t, hex, hf, hst⟩ := exec_barrierRelease tcx (some k) hid
      refine ⟨t, hex, hf, fun hne => ?_, fun gen wt rlx htcx hpark => ⟨fun hgen => ?_, fun hgen => ?_⟩, fun hno => ?_⟩
      · rw [hst, State.released_stays (.inl (by rwa [s.stream_id]))]
      · rw [hst, State.released_stays (.inr (by simp [State.barPassed, hpark, s.stream_id, htcx, hgen]))]
      · obtain ⟨h1, h2⟩ := State.released_goes (s := s) (key := some k) (st := s.stream id) (tcx := tcx) (by rw [s.stream_id]; exact htcx)
          (by simp [State.barPassed, hpark, s.stream_id, htcx, Ne.symm hgen])
        rw [hst]
        exact ⟨h1, fun hr => h2 (by rw [hpark]; exact hr)⟩
      · rw [hst, State.released_stays (.inr ?_)]
        rw [State.barPassed]
        split
        · next n gen wt rlx hpark =>
          have hn : n ≠ k := fun e => hno gen wt rlx (e ▸ hpark)
          simp [hn]
        · rfl
    · obtain ⟨t, hex, hf, hst⟩ := exec_barrierRelease tcx none hid
      refine ⟨t, hex, hf, fun hne => ?_, fun gen rlx htcx hpark => ⟨fun hgen => ?_, fun hgen => ?_⟩, fun hno => ?_⟩
      · rw [hst, State.released_stays (.inl (by rwa [s.stream_id]))]
      · rw [hst, State.released_stays (.inr (by simp [State.barPassed, hpark, s.stream_id, htcx, hgen]))]
      · obtain ⟨h1, h2⟩ := State.released_goes (s := s) (key := none) (st := s.stream id) (tcx := tcx) (by rw [s.stream_id]; exact htcx)
          (by simp [State.barPassed, hpark, s.stream_id, htcx, Ne.symm hgen])
        rw [hst]
        exact ⟨h1, fun hr => h2 (by rw [hpark]; exact hr)⟩
      · rw [hst, State.released_stays (.inr ?_)]
        rw [State.barPassed]
        split
        · next gen rlx hpark => exact absurd hpark (hno gen rlx)
        · rfl

end Sys2Proof.Machine
end
section
/-! PROOFS. Launch ports, submissions and `launch` (R36 to R41, R373). -/
namespace Sys2Proof.Machine

/-! ### The registers of a port -/

theorem State.onPort_one (s : State) (fn n : Nat) (f : Port → Port) : s.OnePort (s.onPort fn n f) fn n (f (s.port fn n)) :=
  ⟨rfl, sget_sset_same .., fun _ h => sget_sset_other _ _ _ h⟩
theorem State.OnePort.trans {s t u : State} {fn n : Nat} {p q : Port} (h : s.OnePort t fn n p) (h' : t.OnePort u fn n q) :
    s.OnePort u fn n q :=
  ⟨by rw [h'.1, h.1], h'.2.1, fun k hk => (h'.2.2 k hk).trans (h.2.2 k hk)⟩
theorem State.portIrq_off {s : State} {fn n : Nat} (h : (s.port fn n).irqEn = false) (on : Bool) : s.portIrq fn n on = s := by
  simp [State.portIrq, h]
theorem State.portReport_one {s : State} {fn n : Nat} (h : (s.port fn n).irqEn = false) (w : Word) :
    s.OnePort (s.portReport fn n w) fn n
      { s.port fn n with lastReject := w, readCount := ((s.port fn n).readCount + 1) % 65536 } := by
  have h1 := s.onPort_one fn n fun p => { p with lastReject := w, readCount := (p.readCount + 1) % 65536 }
  rw [State.portReport, State.portIrq_off (by rw [h1.2.1]; exact h)]
  exact h1

/-- A message changes what Loom holds of nothing. -/
theorem State.sendMsix_keeps (s : State) (fn vec : Nat) :
    ∃ links hif outbox, s.sendMsix fn vec = { s with links := links, hif := hif, outbox := outbox } := by
  unfold State.sendMsix State.discard
  dsimp only
  split_ifs
  · exact ⟨_, _, _, rfl⟩
  · exact ⟨_, _, _, rfl⟩
  · exact ⟨_, _, _, rfl⟩
  · exact ⟨_, _, _, rfl⟩
  · exact ⟨_, _, _, rfl⟩
theorem State.portIrq_keeps (s : State) (fn n : Nat) (on : Bool) :
    ∃ links hif outbox, s.portIrq fn n on = { s with links := links, hif := hif, outbox := outbox } := by
  unfold State.portIrq
  dsimp only
  split
  · exact s.sendMsix_keeps _ _
  · exact ⟨_, _, _, rfl⟩
theorem State.portReport_loom (s : State) (fn n : Nat) (w : Word) :
    (s.portReport fn n w).loom = { s.loom with ports := (s.portReport fn n w).loom.ports } ∧
      ((s.portReport fn n w).port fn n).lastReject = w := by
  obtain ⟨links, hif, outbox, e⟩ := (s.onPort fn n fun p => { p with lastReject := w, readCount := (p.readCount + 1) % 65536 }).portIrq_keeps
    fn n (w.extractLsb' 0 8 != 0)
  have h := s.onPort_one fn n fun p => { p with lastReject := w, readCount := (p.readCount + 1) % 65536 }
  refine ⟨?_, ?_⟩
  · rw [State.portReport, e]
    rfl
  · rw [State.portReport, e]
    exact congrArg Port.lastReject h.2.1

section
variable {s : State} {fn n : Nat} (hf : fn ≤ 64) (hn : n < 64) (hr : s.fw.recovery = false)

include hr in
theorem State.barsOpen_eq : s.barsOpen fn = (s.fn fn).v := by simp [State.barsOpen, hr]
include hf hn in
theorem portExists_of : portExists fn n = true := by simp [portExists, hf, hn]

variable (hv : (s.fn fn).v = true)
include hf hn hr hv

theorem exec_lpSubmit_open (size : Nat) (v : DWord) : exec (.lpSubmit fn n size v) s = .next (s.submitWrite fn n size v) := by
  change Host.Outcome.next (if portExists fn n && s.barsOpen fn then s.submitWrite fn n size v else s) = _
  rw [portExists_of hf hn, State.barsOpen_eq hr, hv]
  rfl
omit hv in
theorem exec_lpConfig_open {via : Nat} (hvia : via = 0 ∨ via = fn) (hv : (s.fn via).v = true) (size : Nat) (v : DWord) :
    exec (.lpConfig via fn n size v) s = .next (s.configWrite via fn n size v) := by
  change Host.Outcome.next (if portExists fn n && (via == 0 || via == fn) && s.barsOpen via then s.configWrite via fn n size v else s) = _
  rw [portExists_of hf hn, State.barsOpen_eq hr, hv]
  have : (via == 0 || via == fn) = true := by simpa using hvia
  rw [this]
  rfl
theorem exec_registerWrite_port {off : Nat} (ho : off < 64) (size : Nat) (v : DWord) :
    exec (.registerWrite ⟨fn, 2, 64 * n + off, size, v⟩) s = .next (s.portRegWrite fn n off size v) := by
  change Host.Outcome.next (if (decide (64 < fn) || !s.barsOpen fn) = true then s
    else if 2 = 0 then _ else s.bar2Write fn (64 * n + off) size v) = _
  have hlt : decide (64 < fn) = false := decide_eq_false (by omega)
  rw [State.barsOpen_eq hr, hv, hlt]
  change Host.Outcome.next (s.bar2Write fn (64 * n + off) size v) = _
  have h1 : (64 * n + off) / 64 = n := by omega
  have h2 : (64 * n + off) % 64 = off := by omega
  rw [State.bar2Write, if_pos (by omega), h1, h2]
end

section
variable (s : State) (fn n : Nat) (v : DWord)

theorem State.submitWrite_enters (he : (s.port fn n).enable = true) (hv : v.toNat % 256 = 0) (hl : (s.port fn n).fifo.length < 16) :
    s.submitWrite fn n 8 v = s.onPort fn n fun p => { p with fifo := p.fifo ++ [v] } := by
  rw [State.submitWrite, if_neg (by simp [he, hv]), if_neg (by omega)]
theorem State.submitWrite_overflows (he : (s.port fn n).enable = true) (hv : v.toNat % 256 = 0) (hl : 16 ≤ (s.port fn n).fifo.length)
    (hi : (s.port fn n).irqEn = false) : s.submitWrite fn n 8 v = s.onPort fn n fun p => { p with overflow := true } := by
  rw [State.submitWrite, if_neg (by simp [he, hv]), if_pos hl, State.portIrq_off]
  rw [(s.onPort_one fn n fun p => { p with overflow := true }).2.1]
  exact hi
theorem State.submitWrite_bad {size : Nat} (h : size ≠ 8 ∨ (s.port fn n).enable = false ∨ v.toNat % 256 ≠ 0) :
    s.submitWrite fn n size v = s.badWrite fn n := by
  rw [State.submitWrite, if_pos]
  simpa [or_assoc] using h
theorem State.configWrite_physical (h : s.ownsAsid fn (v.toNat % 2 ^ 16) = true) :
    s.configWrite 0 fn n 8 v = s.onPort fn n fun p => { p with
      asid := v.extractLsb' 0 16, enable := v.getLsbD 16, vector := v.toNat / 2 ^ 17 % 2048, irqEn := v.getLsbD 28 } := by
  have ha : (v.extractLsb' 0 16).toNat = v.toNat % 2 ^ 16 := by simp
  have hvec : (v.extractLsb' 17 11).toNat = v.toNat / 2 ^ 17 % 2048 := by simp [Nat.shiftRight_eq_div_pow]
  rw [State.configWrite, ha, h, if_neg (by decide), hvec]
end

/-! ### Loom takes a submission (R38, R39) -/

theorem State.portReady_listed {s : State} {k : Nat} (h : s.portReady k = true) :
    k ∈ (s.loom.ports.map (·.1)).filter s.portReady := by
  refine List.mem_filter.mpr ⟨?_, h⟩
  by_contra hn
  have hk : ∀ l : List (Nat × Port), k ∉ l.map (·.1) → sget blankPort l k = blankPort := by
    intro l
    induction l with
    | nil => exact fun _ => rfl
    | cons p r ih =>
      intro hm
      obtain ⟨hp, hr⟩ := not_or.mp fun h' => hm (List.mem_cons.mpr h')
      rw [sget, if_neg (Ne.symm hp), ih hr]
  rw [State.portReady, hk _ hn] at h
  exact Bool.false_ne_true h
theorem exec_loomTakeSubmission_ready {s : State} {fn n : Nat} (hf : fn ≤ 64) (hn : n < 64) (hr : s.fw.recovery = false)
    (hp : s.portReady (64 * fn + n) = true) (hs : 64 * fn + n ∉ s.loom.served) : exec (.loomTakeSubmission fn n) s =
      .next ((State.onPort { s with loom := { s.loom with served := nins s.loom.served (64 * fn + n) } } fn n fun p =>
        { p with fifo := p.fifo.tail }).submit fn (s.port fn n).asid ((s.port fn n).fifo.headD 0) ((s.port fn n).fifo.headD 0)
        (.port fn n)) := by
  have hserved : (if ((s.loom.ports.map (·.1)).filter s.portReady).all s.loom.served.contains then [] else s.loom.served) =
      s.loom.served := by
    refine if_neg fun hall => hs ?_
    simpa using List.all_eq_true.mp hall _ (State.portReady_listed hp)
  change Host.Outcome.next (if (s.fw.recovery || !portExists fn n || !s.portReady (64 * fn + n)) = true then s else
    let served := if ((s.loom.ports.map (·.1)).filter s.portReady).all s.loom.served.contains then [] else s.loom.served
    if served.contains (64 * fn + n) = true then s else State.submit (State.onPort
      { s with loom := { s.loom with served := nins served (64 * fn + n) } } fn n fun p => { p with fifo := p.fifo.tail })
      fn (s.port fn n).asid ((s.port fn n).fifo.headD 0) ((s.port fn n).fifo.headD 0) (.port fn n)) = _
  rw [hr, portExists_of hf hn, hp, hserved]
  dsimp only
  rw [if_neg (by decide), if_neg (by simpa using hs)]

/-! ### The answer to a record -/

section
variable (s : State) {fn : Nat} {asid : BitVec 16} {a name : DWord}

theorem State.submit_refused (o : Origin) {w : Word} {s1 : State}
    (h : (readLaunch fn asid a).run s = (.error w, s1) ∨
      ∃ bs s2 s3, (readLaunch fn asid a).run s = (.ok bs, s2) ∧ (launchOf fn asid a true bs).run s2 = (.error w, s3) ∧
        s1 = match doneCtrOf bs with
          | none => s3
          | some c => s3.bump fn asid c 0 true) :
    s.submit fn asid a name o = s1.rejectLaunch fn asid none o w := by
  rcases h with h | ⟨bs, s2, s3, h2, h3, h1⟩
  · rw [State.submit, h]
  · rw [State.submit, h2]
    dsimp only
    rw [h3]
    have e : s1 = s3.failDone fn asid (doneCtrOf bs) := by
      rw [h1]
      cases doneCtrOf bs <;> rfl
    subst e
    rfl
theorem State.submit_accepted (o : Origin) {s0 s1 : State} {bs : List Byte} {info : LaunchInfo}
    (h0 : (readLaunch fn asid a).run s = (.ok bs, s0)) (h1 : (launchOf fn asid a true bs).run s0 = (.ok info, s1)) :
    s.submit fn asid a name o = s1.acceptLaunch fn asid name o info info.regions := by
  rw [State.submit, h0]
  dsimp only
  rw [h1]

theorem State.touchRegions_work (rs : List Region) : s.WalkWork (s.touchRegions fn asid rs) :=
  State.WalkWork.foldl (f := fun (s : State) (r : Region) => if r.1.toNat / 2 ^ 62 = 1 then s else s.touchRead (s.unit fn asid) r.1.toNat) (fun s r => by
    split
    · exact .refl s
    · exact .touchRead ..) rs s

theorem State.answerLaunch_one {id : SId} {d : Reg} (w : Word) (hp : s.Present [id]) (hk : (s.stream id).park = .launch d none) :
    s.OnlyStreams (s.answerLaunch [id] d w) [id] ∧
      (s.answerLaunch [id] d w).stream id = ((s.stream id).wr d w).goto ((s.stream id).pc + 8) := by
  let f : Stream → Stream := fun st => match st.park with
    | .launch _ none => (st.wr d w).goto (st.pc + 8)
    | _ => st
  have hf : ∀ st : Stream, (f st).id = st.id := fun st => by
    dsimp only [f]
    split
    · exact st.wr_id d w
    · rfl
  refine ⟨s.onLanes_onlyStreams hf _, (s.onLanes_listed hf (List.mem_singleton_self id) (hp id (List.mem_singleton_self id))).trans ?_⟩
  dsimp only [f]
  rw [hk]
end

/-- A grid that enters the pool is there afterwards. -/
structure State.Enters (s t : State) (g : Grid) : Prop where
  nextGrid : t.loom.nextGrid = s.loom.nextGrid
  nextSeq : t.loom.nextSeq = s.loom.nextSeq + 1
  length : t.loom.grids.length = s.loom.grids.length + 1
  listed : ∃ head, { g with seq := s.loom.nextSeq, since := s.clock.gtsQ, head := head } ∈ t.loom.grids

/-- What the head of level 3 is changes nothing else of a grid. -/
theorem State.noteHead_eq (s : State) : ∃ f : Grid → Grid, (∀ g, ∃ head, f g = { g with head := head }) ∧
    s.noteHead = { s with loom := { s.loom with grids := s.loom.grids.map f } } := by
  let hs := s.loom.grids.filter fun g => g.level == 3 && g.waiting
  let head := (hs.find? fun g => hs.all fun h => decide (g.seq ≤ h.seq)).map (·.id)
  refine ⟨fun g => if some g.id = head then (if g.head.isSome then g else { g with head := some s.clock.gtsQ })
    else { g with head := none }, fun g => ?_, rfl⟩
  dsimp only
  split_ifs
  · exact ⟨_, rfl⟩
  · exact ⟨_, rfl⟩
  · exact ⟨_, rfl⟩

/-- The state of a pool that a grid has entered, before the answer. -/
def State.pooled (s : State) (g : Grid) : State :=
  State.noteHead { s with loom := { s.loom with
    grids := s.loom.grids ++ [{ g with seq := s.loom.nextSeq, since := s.clock.gtsQ }], nextSeq := s.loom.nextSeq + 1 } }
theorem State.pooled_enters (s : State) (g : Grid) :
    s.Enters (s.pooled g) g ∧ s.pooled g = { s with loom := (s.pooled g).loom } ∧ (s.pooled g).loom.held = s.loom.held := by
  obtain ⟨f, hf, e⟩ := State.noteHead_eq { s with loom := { s.loom with
    grids := s.loom.grids ++ [{ g with seq := s.loom.nextSeq, since := s.clock.gtsQ }], nextSeq := s.loom.nextSeq + 1 } }
  rw [State.pooled, e]
  obtain ⟨head, hg⟩ := hf { g with seq := s.loom.nextSeq, since := s.clock.gtsQ }
  refine ⟨⟨rfl, rfl, by simp, head, ?_⟩, rfl, rfl⟩
  exact List.mem_map.mpr ⟨_, List.mem_append_right _ (List.mem_singleton_self _), hg⟩
theorem State.Enters.answered {s t u : State} {g : Grid} (h : s.Enters t g) (hn : u.loom.nextGrid = t.loom.nextGrid)
    (hq : u.loom.nextSeq = t.loom.nextSeq) (hg : u.loom.grids = t.loom.grids) : s.Enters u g :=
  ⟨hn.trans h.nextGrid, hq.trans h.nextSeq, by rw [hg, h.length], by rw [hg]; exact h.listed⟩
theorem State.enterGrid_enters (s : State) (g : Grid) : s.Enters (s.enterGrid g) g ∧ (s.enterGrid g).loom.held = s.loom.held := by
  obtain ⟨h, -, hh⟩ := s.pooled_enters g
  have hout : s.enterGrid g = match g.origin with
    | .port fn n => (s.pooled g).portReport fn n 0
    | .thread ids d => (s.pooled g).answerLaunch ids d 0
    | .node _ => s.pooled g := rfl
  rw [hout]
  cases g.origin with
  | port fn n =>
    have e := ((s.pooled g).portReport_loom fn n 0).1
    exact ⟨h.answered (by rw [e]) (by rw [e]) (by rw [e]), by rw [e]; exact hh⟩
  | thread ids d => exact ⟨h.answered rfl rfl rfl, hh⟩
  | node n => exact ⟨h, hh⟩

/-! ### A record that is accepted (R39 to R41) -/

/-- The grid of an accepted record. -/
def State.launchGrid (s : State) (fn : Nat) (asid : BitVec 16) (name : DWord) (o : Origin) (info : LaunchInfo) : Grid :=
  { id := s.loom.nextGrid, origin := o, fn := fn, recd := { info.recd with addr := name }, level := info.recd.level, seq := 0
    since := 0, head := none, reserved := false, scores := s.affinity fn asid info.regions, next := 0, pos := 0, retired := 0
    failed := none, failedAt := (0, 0), inst := none, exits := [] }
/-- The state that it enters. -/
def State.launchState (s : State) (fn : Nat) (asid : BitVec 16) (info : LaunchInfo) : State :=
  { s.touchRegions fn asid info.regions with loom := { s.loom with nextGrid := s.loom.nextGrid + 1 } }

section
variable {s s0 s1 : State} {fn : Nat} {asid : BitVec 16} {a name : DWord} {bs : List Byte} {info : LaunchInfo}
variable (h0 : (readLaunch fn asid a).run s = (.ok bs, s0)) (h1 : (launchOf fn asid a true bs).run s0 = (.ok info, s1))
variable (hc : info.coll = none) (hco : info.recd.coteam = false) (hl : s1.levelRoom info.recd.level = true)
variable (hh : ∀ h ∈ s1.loom.held, h.level ≠ info.recd.level)
include h0 h1 hc hco hl hh

theorem State.submit_pools (o : Origin) :
    s.submit fn asid a name o = (s1.launchState fn asid info).enterGrid (s1.launchGrid fn asid name o info) := by
  have hheld : (s1.loom.held.any fun h => h.level == info.recd.level) = false :=
    List.any_eq_false.mpr fun h hm => by simpa using hh h hm
  have hroom : (s1.launchState fn asid info).levelRoom info.recd.level = true := hl
  have hadm : ¬(info.recd.coteam && !s1.admits { info.recd with addr := name }) = true := by rw [hco]; exact Bool.false_ne_true
  rw [s.submit_accepted o h0 h1, State.acceptLaunch, hc, State.bindColl]
  refine (if_neg hadm).trans (if_pos ?_)
  change ((s1.launchState fn asid info).levelRoom info.recd.level && !(s1.loom.held.any fun h => h.level == info.recd.level)) = true
  rw [hroom, hheld]
  rfl
theorem State.submit_enters (o : Origin) :
    let t := s.submit fn asid a name o
    t.loom.nextGrid = s1.loom.nextGrid + 1 ∧ t.loom.nextSeq = s1.loom.nextSeq + 1 ∧
      t.loom.grids.length = s1.loom.grids.length + 1 ∧
      ∃ g ∈ t.loom.grids, g.id = s1.loom.nextGrid ∧ g.origin = o ∧ g.fn = fn ∧ g.recd = { info.recd with addr := name } ∧
        g.level = info.recd.level ∧ g.seq = s1.loom.nextSeq ∧ g.next = 0 ∧ g.retired = 0 ∧ g.failed = none ∧ g.inst = none := by
  intro t
  have e : t = _ := State.submit_pools h0 h1 hc hco hl hh o
  obtain ⟨⟨hn, hq, hlen, head, hg⟩, -⟩ := (s1.launchState fn asid info).enterGrid_enters (s1.launchGrid fn asid name o info)
  rw [← e] at hn hq hlen hg
  exact ⟨hn, hq, hlen, _, hg, rfl, rfl, rfl, rfl, rfl, rfl, rfl, rfl, rfl, rfl⟩
theorem State.submit_answers {id : SId} {d : Reg} (hp : s1.Present [id]) (hk : (s1.stream id).park = .launch d none) :
    (s.submit fn asid a name (.thread [id] d)).stream id = ((s1.stream id).wr d 0).goto ((s1.stream id).pc + 8) := by
  let g := s1.launchGrid fn asid name (.thread [id] d) info
  have hst : ((s1.launchState fn asid info).pooled g).streams = s1.streams := by
    have hw : (s1.touchRegions fn asid info.regions).streams = s1.streams := by rw [s1.touchRegions_work info.regions]
    exact (show _ = (s1.touchRegions fn asid info.regions).streams by rw [((s1.launchState fn asid info).pooled_enters g).2.1]; rfl).trans hw
  rw [State.submit_pools h0 h1 hc hco hl hh]
  change (((s1.launchState fn asid info).pooled g).answerLaunch [id] d 0).stream id = _
  rw [(State.answerLaunch_one _ 0 (fun k hm => by rw [State.stream?_congr hst]; exact hp k hm)
    (by rw [State.stream_congr hst]; exact hk)).2, State.stream_congr hst]
theorem State.submit_reports (n : Nat) : ((s.submit fn asid a name (.port fn n)).port fn n).lastReject = 0 := by
  rw [State.submit_pools h0 h1 hc hco hl hh]
  exact (((s1.launchState fn asid info).pooled (s1.launchGrid fn asid name (.port fn n) info)).portReport_loom fn n 0).2
end

/-! ### `launch` (R373) -/

theorem exec_launch_parks {g : Guard} {d r : Reg} {s : State} {low : SId} {rest : List SId} (hact : s.active g = low :: rest)
    (hp : s.Present s.cur.lanes) (hn : s.nearPending (s.active g) mLaunch = false) (hm : s.vt.migrateMode = false) :
    ∃ t : State, exec (.launch g d r) s =
        .next (t.submit s.curTeam.fn s.curTeam.recd.asid (s.recordAddr (s.stream low) ((s.stream low).rd64 r))
          ((s.stream low).rd64 r) (.thread (low :: rest) d)) ∧
      s.OnlyStreams t s.cur.lanes ∧ s.Lanes t g fun st => { st.parkAt (.launch d none) with pc := s.cur.pc } := by
  have hid : ∀ st : Stream, ({ st.parkAt (.launch d none) with pc := s.cur.pc } : Stream).id = st.id := fun _ => rfl
  refine ⟨(s.skipLanes g).onLanes (s.active g) fun st => { st.parkAt (.launch d none) with pc := s.cur.pc }, ?_, ?_, ?_⟩
  · have hlow : s.lowest g = some (s.stream low) := by rw [State.lowest, hact]; rfl
    change execLaunch g d r s = _
    unfold execLaunch
    dsimp only
    rw [hlow]
    dsimp only
    rw [hn, if_neg Bool.false_ne_true, State.releaseTag, hm, if_neg Bool.false_ne_true, hact]
  · exact (s.skipLanes_onlyStreams g).trans (((s.skipLanes g).onLanes_onlyStreams hid _).mono (s.active_subset g))
  · obtain ⟨hon, hoff, hother⟩ := s.skipLanes_lanes g hp
    have hp' : (s.skipLanes g).Present s.cur.lanes := s.onLanes_present (fun st => by split <;> rfl) hp
    refine ⟨fun id h => ?_, fun id hl h => ?_, fun id hl => ?_⟩
    · rw [State.onLanes_listed _ hid h (hp' id (s.active_subset g h)), hon id h]
    · rw [State.onLanes_unlisted _ hid h, hoff id hl h]
    · rw [(s.skipLanes g).onLanes_other _ hid fun h => hl (s.active_subset g h), hother id hl]

/-! ### The statement -/

theorem port_registers (s : State) (fn n : Nat) (v : DWord) (hf : fn ≤ 64) (hn : n < 64) (hv : (s.fn fn).v = true)
    (hr : s.fw.recovery = false) :
    let p := s.port fn n
    (p.enable = true → v.toNat % 256 = 0 →
      (p.fifo.length < 16 → ∃ t, exec (.lpSubmit fn n 8 v) s = .next t ∧ s.OnePort t fn n { p with fifo := p.fifo ++ [v] }) ∧
      (16 ≤ p.fifo.length → p.irqEn = false →
        ∃ t, exec (.lpSubmit fn n 8 v) s = .next t ∧ s.OnePort t fn n { p with overflow := true })) ∧
    (∀ size, size ≠ 8 ∨ p.enable = false ∨ v.toNat % 256 ≠ 0 →
      ∃ t, exec (.lpSubmit fn n size v) s = .next t ∧ s.OnePort t fn n { p with badWrite := true }) ∧
    (s.ownsAsid fn (v.toNat % 2 ^ 16) = true → ∃ t, exec (.lpConfig 0 fn n 8 v) s = .next t ∧
      s.OnePort t fn n { p with
        asid := v.extractLsb' 0 16, enable := v.getLsbD 16, vector := v.toNat / 2 ^ 17 % 2048, irqEn := v.getLsbD 28 }) ∧
    (fn ≠ 0 → ∃ t, exec (.lpConfig fn fn n 8 v) s = .next t ∧ s.OnePort t fn n { p with badWrite := true }) ∧
    (∃ t, exec (.registerWrite ⟨fn, 2, 64 * n + 8, 8, v⟩) s = .next t ∧
      s.OnePort t fn n { p with
        refused := p.refused && !v.getLsbD 59, overflow := p.overflow && !v.getLsbD 58, badWrite := p.badWrite && !v.getLsbD 57 }) ∧
    (∃ t, exec (.registerWrite ⟨fn, 2, 64 * n + 16, 8, v⟩) s = .next t ∧ s.OnePort t fn n { p with graphSrc := v }) := by
  intro p
  have hbad : s.OnePort (s.badWrite fn n) fn n { p with badWrite := true } := s.onPort_one fn n _
  refine ⟨fun he ha => ⟨fun hl => ⟨_, exec_lpSubmit_open hf hn hr hv 8 v, ?_⟩, fun hl hi => ⟨_, exec_lpSubmit_open hf hn hr hv 8 v, ?_⟩⟩,
    fun size h => ⟨_, exec_lpSubmit_open hf hn hr hv size v, ?_⟩,
    fun ho => ⟨_, exec_lpConfig_open hf hn hr (.inl rfl) rfl 8 v, ?_⟩,
    fun h0 => ⟨_, exec_lpConfig_open hf hn hr (.inr rfl) hv 8 v, ?_⟩,
    ⟨_, exec_registerWrite_port hf hn hr hv (by decide) 8 v, ?_⟩, ⟨_, exec_registerWrite_port hf hn hr hv (by decide) 8 v, ?_⟩⟩
  · rw [s.submitWrite_enters fn n v he ha hl]
    exact s.onPort_one fn n _
  · rw [s.submitWrite_overflows fn n v he ha hl hi]
    exact s.onPort_one fn n _
  · rw [s.submitWrite_bad fn n v h]
    exact hbad
  · rw [s.configWrite_physical fn n v ho]
    exact s.onPort_one fn n _
  · rw [State.configWrite, if_pos (by simp [h0])]
    exact hbad
  · exact s.onPort_one fn n fun p =>
      { p with refused := p.refused && !v.getLsbD 59, overflow := p.overflow && !v.getLsbD 58, badWrite := p.badWrite && !v.getLsbD 57 }
  · exact s.onPort_one fn n fun p => { p with graphSrc := v }

/-- Settles O33: a write is one `onPort`; Loom's answer follows the outcome of reading and checking the record. -/
theorem portsAndSubmissions : Obligations.PortsAndSubmissions := by
  unfold Obligations.PortsAndSubmissions
  refine ⟨port_registers, fun s fn n hf hn hr hp hs => ⟨_, exec_loomTakeSubmission_ready hf hn hr hp hs, rfl, ?_⟩,
    fun g d s1 s low rest hact hp hn hm => exec_launch_parks hact hp hn hm, fun s s1 fn asid a name w h => ⟨fun n hi => ?_, fun n => ?_,
      fun id d hp hk => ?_⟩, fun s s0 s1 fn asid a name bs info h0 h1 hc hco hl hh => ?_⟩
  · exact sget_sset_same ..
  · rw [s.submit_refused _ h]
    exact State.portReport_one hi w
  · exact s.submit_refused _ h
  · rw [s.submit_refused _ h]
    exact s1.answerLaunch_one w hp hk
  · intro enters
    have he := fun o => State.submit_enters h0 h1 hc hco hl hh (name := name) o
    exact ⟨fun n => ⟨he _, State.submit_reports h0 h1 hc hco hl hh n⟩, fun n => he _,
      fun id d hp hk => ⟨he _, State.submit_answers h0 h1 hc hco hl hh hp hk⟩⟩

end Sys2Proof.Machine
end
section
/-! PROOFS. The last team of a gang starts every team of it (R46, R67). -/
namespace Sys2Proof.Machine

/-! ### A gang of two teams whose first team is placed -/

def gangRec : Rec := { blankRec with gridX := 2, coteam := true }
def gang : Grid :=
  { id := 0, origin := .port 0 0, fn := 0, recd := gangRec, level := 0, seq := 0, since := 0, head := none, reserved := false
    scores := [], next := 1, pos := 0, retired := 0, failed := none, failedAt := (0, 0), inst := none, exits := [] }
/-- The first team waits for the second; the job slot of its ASID has become valid with rank 3 of 8. -/
def gathered : State :=
  { State.reset with
    teams := [{ blankTeam 0 with recd := gangRec }], jobs := [{ blankJob with v := true, rank := 3, last := 7 }]
    loom := { State.resetLoom with grids := [gang] } }

theorem gathered_freeTcx : gathered.freeTcx = some 1 := by
  rw [State.freeTcx, List.find?_range_eq_some]
  refine ⟨by decide, List.mem_range.mpr (by decide), fun j hj => ?_⟩
  rw [Nat.lt_one_iff.mp hj]
  decide
/-- Core 0 has room for the second team. -/
theorem gathered_candidates : ∃ rest, gathered.candidates gangRec = 0 :: rest := by
  have hr : List.range Config.cores = 0 :: (List.range 191).map Nat.succ := List.range_succ_eq_map
  have hh : gathered.handlerCore gangRec = none := rfl
  have hf : (!gangRec.paired || 0 % 2 == 0) && gathered.coreFits gangRec 0 0 && (!gangRec.paired || gathered.coreFits gangRec 1 1) &&
      (gangRec.controlPc == 0 || !gathered.controlBusy 0) && (gathered.vaultFor gangRec 0).isSome := by decide
  rw [State.candidates, gathered_freeTcx, if_neg (by decide), hh, hr]
  exact ⟨_, List.filter_cons_of_pos hf⟩
/-- A grid without affinity goes to the first core from its position on (R64). -/
theorem State.choose_unscored {s : State} {g : Grid} {rest : List Nat} (hs : g.scores = []) (hp : g.pos = 0)
    (hc : s.candidates g.recd = 0 :: rest) : s.choose g = some 0 := by
  have hbest : ∀ l : List Nat, l.foldl (fun m (c : Nat) => max m (sget 0 g.scores (c / 4))) 0 = 0 := by
    intro l
    rw [hs]
    induction l with
    | nil => rfl
    | cons c l ih => exact ih
  have hfind : (0 :: rest).find? (fun c => decide (g.pos ≤ c)) = some 0 := List.find?_cons_of_pos (by simp [hp])
  unfold State.choose
  simp only [hc, hbest, if_true, hfind]
theorem gathered_choose : gathered.choose gang = some 0 :=
  State.choose_unscored rfl rfl gathered_candidates.choose_spec

theorem exec_placeTeam {s : State} {k core : Nat} {g : Grid} (hg : s.grid? k = some g) (hr : s.fw.recovery = false)
    (ht : s.itsTurn g = true) (hc : s.choose g = some core) (hp : s.loom.placed ≠ some s.clock.cycles)
    (hq : s.loom.retired ≠ some s.clock.cycles) : exec (.placeTeam k) s =
      .next { s.placeTeam g core with loom := { (s.placeTeam g core).loom with placed := some s.clock.cycles } } := by
  change execPlaceTeam k s = _
  rw [execPlaceTeam]
  dsimp only
  rw [hg]
  dsimp only
  rw [if_neg (by simp [hr, ht, hp, hq]), hc]
theorem gathered_places : exec (.placeTeam 0) gathered = .next { gathered.placeTeam gang 0 with
    loom := { (gathered.placeTeam gang 0).loom with placed := some gathered.clock.cycles } } :=
  exec_placeTeam rfl rfl (by decide) gathered_choose (by decide) (by decide)

/-- Both teams take the rank of that moment. -/
theorem gathered_ranks : (gathered.placeTeam gang 0).teams.map Team.rank = [3, 3] := by
  rw [State.placeTeam, gathered_freeTcx]
  decide

/-- Refutes O34: the placing of the last team of a gang starts every team of it, which takes RANK and NRANKS then (R67), so that the
teams are not those of before with one more: in `gathered` the waiting team has the rank of no job, and 3 afterwards. -/
theorem not_readyPoolAndPlacement : ¬ Obligations.ReadyPoolAndPlacement := by
  unfold Obligations.ReadyPoolAndPlacement
  rintro ⟨-, h⟩
  obtain ⟨-, -, -, -, hplace⟩ := h gathered 0 gang rfl
  obtain ⟨t, tm, hex, hteams, -⟩ := hplace 0 rfl (by decide) gathered_choose (by decide) (by decide)
  rw [gathered_places] at hex
  cases hex
  have hr := gathered_ranks
  change (gathered.placeTeam gang 0).teams = _ at hteams
  rw [hteams] at hr
  exact absurd (List.cons.inj hr).1 (by decide)

end Sys2Proof.Machine
end
section
/-! PROOFS. The end and the retirement of teams and of grids (R405, R418, R420, R429, R430). -/
namespace Sys2Proof.Machine

/-! ### What serving the waiters of a vault word leaves of the rest -/

theorem State.onLanes_ids (s : State) (ids : List SId) {f : Stream → Stream} (hf : ∀ st : Stream, (f st).id = st.id) :
    (s.onLanes ids f).streams.map (·.id) = s.streams.map (·.id) := by
  simp only [State.onLanes, List.map_map]
  refine List.map_congr_left fun st _ => ?_
  dsimp only [Function.comp]
  split
  · exact hf st
  · rfl
/-- Teams, grids, barriers, shares and engines are as they were, and the same streams and as many lines are there. -/
structure State.BankWork (s t : State) : Prop where
  frame : t = { s with
    streams := t.streams, ops := t.ops, nextOp := t.nextOp, mem := t.mem, qu := t.qu, free := t.free, links := t.links, hif := t.hif
    vt := { s.vt with empty := t.vt.empty, broken := t.vt.broken, waiters := t.vt.waiters, poison := t.vt.poison
                      caches := t.vt.caches, lines := t.vt.lines, dirs := t.vt.dirs } }
  ids : t.streams.map (·.id) = s.streams.map (·.id)
  lines : t.vt.lines.length = s.vt.lines.length

namespace State.BankWork
variable {s t u : State}

theorem refl (s : State) : s.BankWork s := ⟨rfl, rfl, rfl⟩
theorem trans (h : s.BankWork t) (h' : t.BankWork u) : s.BankWork u := by
  refine ⟨?_, h'.ids.trans h.ids, h'.lines.trans h.lines⟩
  rw [h'.frame, h.frame]
theorem foldl {α : Type} {f : State → α → State} (hf : ∀ (s : State) (a : α), s.BankWork (f s a)) (l : List α) (s : State) :
    s.BankWork (l.foldl f s) := by
  induction l generalizing s with
  | nil => exact refl s
  | cons a r ih => exact (hf s a).trans (ih _)
theorem writeBack (s : State) (p : Line → Bool) : s.BankWork (s.writeBack p) := by
  refine trans (foldl (f := fun s (l : Line) => s.putHome l.base l.data) (fun s l => ?_) (s.vt.lines.filter fun l => p l && l.dirty) s)
    ⟨rfl, rfl, List.length_map _⟩
  unfold State.putHome
  split
  · split <;> exact ⟨rfl, rfl, rfl⟩
  · exact ⟨rfl, rfl, rfl⟩
theorem of_notesOn {ids : List SId} (h : s.NotesOn t ids) : s.BankWork t := by
  obtain ⟨f, hb, -, rfl⟩ := h
  refine ⟨rfl, ?_, rfl⟩
  simp only [List.map_map]
  exact List.map_congr_left fun st _ => Stream.id_of_bare (hb st)
theorem onLanes (s : State) (ids : List SId) {f : Stream → Stream} (hf : ∀ st : Stream, (f st).id = st.id) :
    s.BankWork (s.onLanes ids f) := ⟨rfl, s.onLanes_ids ids hf, rfl⟩
theorem decCounter (s : State) (id : SId) (k : Nat) : s.BankWork (s.decCounter id k) := onLanes s [id] fun _ => rfl

theorem storeElems (s : State) (x : Xfer) (n : Nat) (e : QEntry) : s.BankWork (s.storeElems x n e) :=
  foldl (fun s i => by
    dsimp only
    split
    · exact refl s
    · split
      · exact ⟨rfl, rfl, rfl⟩
      · exact refl s) _ s
theorem serveStore {key : Nat} (h : s.serveStore key = some t) : s.BankWork t := by
  unfold State.serveStore at h
  split at h
  · split at h
    · cases h
      exact (trans (t := s.setQueue key _) ⟨rfl, rfl, rfl⟩ (trans (t := (s.setQueue key _).onXfer _ _) ⟨rfl, rfl, rfl⟩ (storeElems _ _ _ _)))
    · cases h
  · cases h
theorem serveLoad {key : Nat} (h : s.serveLoad key = some t) : s.BankWork t := by
  unfold State.serveLoad at h
  split at h
  · split at h
    · cases h
      exact ⟨rfl, rfl, rfl⟩
    · cases h
  · cases h
theorem serveQueue (s : State) (key n : Nat) : s.BankWork (s.serveQueue key n) := by
  induction n generalizing s with
  | zero => exact refl s
  | succ n ih =>
    rw [State.serveQueue]
    cases hs : s.serveStore key with
    | some s1 => exact (serveStore hs).trans (ih s1)
    | none =>
      cases hl : s.serveLoad key with
      | some s1 => exact (serveLoad hl).trans (ih s1)
      | none => exact refl s
theorem endXfers (s : State) : s.BankWork s.endXfers := by
  have h := foldl (f := fun (s : State) (x : Xfer) => s.decCounter x.sid (if x.store then 1 else 0))
    (fun s x => decCounter s _ _) (s.qu.xfers.filter fun x => !x.unserved && x.pending == 0) s
  exact h.trans ⟨rfl, rfl, rfl⟩
theorem changed (s : State) (key : Nat) : s.BankWork (s.changed key) := (serveQueue s key 64).trans (endXfers _)
theorem fillElem (s : State) (key serial elem : Nat) (v : Word) : s.BankWork (s.fillElem key serial elem v) :=
  trans (t := s.setQueue key _) ⟨rfl, rfl, rfl⟩ (changed _ key)
theorem finishLane (s : State) (o : MemOp) (id : SId) (v : Option DWord) : s.BankWork (s.finishLane o id v) := by
  unfold State.finishLane
  refine trans ?_ (decCounter _ id o.counter)
  match v, o.entry with
  | none, _ => exact refl s
  | some x, some (core, q, serial) => exact fillElem s _ _ _ _
  | some x, none =>
    dsimp only
    split
    · exact refl s
    · exact onLanes s [id] fun st => st.loadWrite_id _ _ _ _
theorem releaseTag (s : State) (ctag : Nat) : s.BankWork (s.releaseTag ctag) := by
  unfold State.releaseTag
  split
  · exact writeBack s _
  · exact refl s

theorem feEffect (s : State) (o : MemOp) : s.BankWork (s.feEffect o) := by
  have hrel : s.BankWork (if ordReleases o.ord then s.releaseTag o.ctag else s) := by
    split
    · exact releaseTag s _
    · exact refl s
  have hkill : s.BankWork (o.lanes.foldl (fun s l => match o.kill with
      | some r => s.onLane l.sid fun st => st.kill64 r true
      | none => s) ((if ordReleases o.ord then s.releaseTag o.ctag else s).noteDone o [])) :=
    (hrel.trans (of_notesOn (State.noteDone_notes _ o []))).trans (foldl (fun s l => by
      split
      · exact onLanes s [l.sid] fun st => st.kill64_id _ _
      · exact refl s) _ _)
  unfold State.feEffect
  refine hkill.trans ?_
  generalize o.lanes.foldl _ _ = u
  refine trans (t := State.onLane _ _ _) (trans (t := match o.kind with
    | .fe .ldvw => _
    | .fe .ldvt => _
    | _ => _) ?_ (onLanes _ [_] fun st => ?_)) ⟨rfl, rfl, rfl⟩
  · split
    · exact finishLane u o _ _
    · exact trans (t := u.setEmptyBit o.word true) ⟨rfl, rfl, rfl⟩ (finishLane _ o _ _)
    · refine trans ?_ (finishLane _ o _ _)
      exact ⟨rfl, rfl, rfl⟩
  · split
    · split <;> rfl
    · rfl
theorem serveWaiters (s : State) (a n : Nat) : s.BankWork (s.serveWaiters a n) := by
  induction n generalizing s with
  | zero => exact refl s
  | succ n ih =>
    rw [State.serveWaiters]
    split
    · exact refl s
    · exact (feEffect s _).trans (ih _)
theorem clearVault (s : State) (a n fuel : Nat) : s.BankWork (s.clearVault a n fuel) := by
  induction fuel generalizing s with
  | zero => exact ⟨rfl, rfl, rfl⟩
  | succ fuel ih =>
    have hz : s.BankWork ((s.mend (vaultKey + a) n).zeroVault a n) := ⟨rfl, rfl, rfl⟩
    rw [State.clearVault]
    split
    · exact hz
    · exact (hz.trans (foldl (fun u w => serveWaiters u w _) _ _)).trans (ih _)
end State.BankWork

/-! ### A range of the vault that is zeroed (R225, R228) -/

theorem State.clearVault_zero (s : State) {a n b : Nat} (h : b < n) (fuel : Nat) :
    memRead (s.clearVault a n fuel).mem (vaultKey + a + b) = 0 := by
  have hz : ∀ u : State, memRead ((u.mend (vaultKey + a) n).zeroVault a n).mem (vaultKey + a + b) = 0 := fun u =>
    (memRead_zeroRange u.mem _ _ _).trans (if_pos ⟨by omega, by omega⟩)
  induction fuel generalizing s with
  | zero => exact hz s
  | succ fuel ih =>
    rw [State.clearVault]
    split
    · exact hz s
    · exact ih _
/-- With no waiter anywhere, nothing but the bytes and the words changes. -/
theorem State.clearVault_idle {s : State} (h : s.vt.waiters = []) (a n fuel : Nat) :
    let t := s.clearVault a n fuel
    t = { s with mem := t.mem, vt := t.vt } := by
  have hz : ∀ u : State, u.vt.waiters = [] → ((u.mend (vaultKey + a) n).zeroVault a n).vt.waiters = [] := fun u hu => hu
  induction fuel generalizing s with
  | zero => rfl
  | succ fuel ih =>
    intro t
    have hserve : ∀ (l : List Nat) (u : State), u.vt.waiters = [] →
        l.foldl (fun u w => u.serveWaiters w (u.vt.waiters.length + 1)) u = u := fun l => by
      induction l with
      | nil => exact fun _ _ => rfl
      | cons w r ihl =>
        intro u hu
        rw [List.foldl_cons, State.serveWaiters_idle hu, ihl u hu]
    have e : t = (s.mend (vaultKey + a) n).zeroVault a n ∨
        t = ((s.mend (vaultKey + a) n).zeroVault a n).clearVault a n fuel := by
      dsimp only [t]
      rw [State.clearVault]
      split
      · exact .inl rfl
      · exact .inr (congrArg (fun u : State => u.clearVault a n fuel) (hserve _ _ (hz s h)))
    rcases e with e | e
    · rw [e]
      rfl
    · rw [e, ih (hz s h)]
      rfl

/-! ### A team's queues and tiles -/

theorem State.dropMat_eq (s : State) (t : Team) : s.dropMat t = { s with mx := (s.dropMat t).mx } := by
  have h : ∀ (l : List Nat) (u : State), l.foldl (fun s k => s.setTile t.tileCluster k []) u =
      { u with mx := (l.foldl (fun s k => s.setTile t.tileCluster k []) u).mx } := fun l => by
    induction l with
    | nil => exact fun _ => rfl
    | cons k r ih =>
      intro u
      rw [List.foldl_cons, ih]
      rfl
  unfold State.dropMat
  dsimp only
  rw [h]
def State.clearQueues (s : State) (ks : List Nat) : State := ks.foldl (fun s k => s.setQueue k []) s
theorem State.clearQueues_eq (ks : List Nat) (s : State) : s.clearQueues ks = { s with qu := (s.clearQueues ks).qu } := by
  induction ks generalizing s with
  | nil => rfl
  | cons k r ih =>
    change (s.setQueue k []).clearQueues r = { s with qu := ((s.setQueue k []).clearQueues r).qu }
    rw [ih]
    rfl
theorem State.setQueue_nil (s : State) (k j : Nat) (h : j = k ∨ (s.queue j).entries = []) : ((s.setQueue k []).queue j).entries = [] := by
  by_cases hj : j = k
  · subst hj
    exact congrArg Queue.entries (sget_sset_same ..)
  · exact (congrArg Queue.entries (sget_sset_other _ _ _ hj)).trans (h.resolve_left hj)
theorem State.clearQueues_entries (ks : List Nat) (s : State) {j : Nat} (h : j ∈ ks ∨ (s.queue j).entries = []) :
    ((s.clearQueues ks).queue j).entries = [] := by
  induction ks generalizing s with
  | nil => exact h.resolve_left (List.not_mem_nil)
  | cons k r ih =>
    refine ih (s.setQueue k []) ?_
    rcases h with h | h
    · rcases List.mem_cons.mp h with rfl | h
      · exact .inr (s.setQueue_nil _ _ (.inl rfl))
      · exact .inl h
    · exact .inr (s.setQueue_nil _ _ (.inr h))

theorem State.clearQueues_dropMat (s : State) (t : Team) {ks : List Nat} : (s.dropMat t).clearQueues ks =
    { s with qu := ((s.dropMat t).clearQueues ks).qu, mx := ((s.dropMat t).clearQueues ks).mx } := by
  rw [State.clearQueues_eq, State.dropMat_eq]
theorem State.dropStreams_frame (s : State) (x : Nat) : ∃ ops vt qu tr, vt.waiters ⊆ s.vt.waiters ∧ s.dropStreams x =
    { s with streams := s.streams.filter fun st => st.id.tcx ≠ x, ops := ops, vt := vt, qu := qu, tr := tr } :=
  ⟨_, _, _, _, List.filter_subset_self _, rfl⟩

/-! ### The end of a team (R405) -/

theorem State.reevaluate_team? (s : State) (x : Nat) : ∃ f : Team → Team, (∀ tm : Team, (f tm).cleaned = tm.cleaned) ∧
    (s.reevaluate x).team? x = (s.team? x).map f := by
  let step : Team → Nat × Barrier → Team := fun t b => if (b.2.eval (s.liveLanes x)).gen = b.2.gen then t else t.noteComplete b.1
  have hnote : ∀ (t : Team) (b : Nat), (t.noteComplete b).tcx = t.tcx ∧ (t.noteComplete b).cleaned = t.cleaned := fun t b => by
    unfold Team.noteComplete
    split
    · exact ⟨rfl, rfl⟩
    · exact ⟨rfl, rfl⟩
  have hstep : ∀ (bs : List (Nat × Barrier)) (t : Team), (bs.foldl step t).tcx = t.tcx ∧ (bs.foldl step t).cleaned = t.cleaned := fun bs => by
    induction bs with
    | nil => exact fun _ => ⟨rfl, rfl⟩
    | cons b r ih =>
      intro t
      have h1 : (step t b).tcx = t.tcx ∧ (step t b).cleaned = t.cleaned := by
        dsimp only [step]
        split
        · exact ⟨rfl, rfl⟩
        · exact hnote t _
      exact ⟨(ih _).1.trans h1.1, (ih _).2.trans h1.2⟩
  let f : Team → Team := fun t =>
    t.bars.foldl step { t with bars := t.bars.foldl (fun bs b => sset blankBar bs b.1 (b.2.eval (s.liveLanes x))) t.bars }
  exact ⟨f, fun tm => (hstep _ _).2, s.onTeam_team? x (f := f) fun tm => (hstep _ _).1⟩
theorem State.reevaluate_eq (s : State) (x : Nat) :
    s.reevaluate x = { s with teams := (s.reevaluate x).teams, gbars := (s.reevaluate x).gbars } := rfl

theorem State.onGrid_grid? (s : State) (k : Nat) {f : Grid → Grid} (hf : ∀ g : Grid, (f g).id = g.id) :
    (s.onGrid k f).grid? k = (s.grid? k).map f := by
  simp only [State.grid?, State.onGrid, List.find?_map]
  have hp : ((fun g : Grid => decide (g.id = k)) ∘ fun g => if g.id = k then f g else g) = fun g => decide (g.id = k) := by
    funext g
    dsimp only [Function.comp]
    split
    · rw [hf]
    · rfl
  rw [hp]
  cases h : s.loom.grids.find? fun g => g.id = k with
  | none => rfl
  | some g =>
    have hi : g.id = k := by simpa using List.find?_some h
    simp [hi]

/-- What a team leaves when it ends, before its vault segment is zeroed. -/
def State.ending (s : State) (t : Team) : State :=
  (((s.onTeam t.tcx fun x => { x with cleaned := true }).dropStreams t.tcx).dropMat t).clearQueues t.queueKeys
/-- And after it. -/
def State.endingFilled (s : State) (t : Team) : State :=
  if t.recd.vaultKib = 0 then s.ending t else (s.ending t).fillVault t.vaultBase.toNat (t.recd.vaultKib * 1024)
/-- The grid takes the first failure in the order of R12 (R430). -/
def Team.failing (t : Team) (cause : Cause) (g : Grid) : Grid :=
  if g.failed.isNone || decide (t.endedAt < g.failedAt.1) || (t.endedAt == g.failedAt.1 && decide (t.core < g.failedAt.2)) then
    { g with failed := some cause, failedAt := (t.endedAt, t.core) } else g

section
variable (s : State) (t : Team)

theorem State.ending_frame : ∃ ops vt qu tr mx, vt.waiters ⊆ s.vt.waiters ∧ s.ending t =
    { s with teams := (s.onTeam t.tcx fun x => { x with cleaned := true }).teams
             streams := s.streams.filter fun st => st.id.tcx ≠ t.tcx, ops := ops, vt := vt, qu := qu, tr := tr, mx := mx } := by
  obtain ⟨ops, vt, qu, tr, hw, e⟩ := (s.onTeam t.tcx fun x => { x with cleaned := true }).dropStreams_frame t.tcx
  refine ⟨ops, vt, (s.ending t).qu, tr, (s.ending t).mx, hw, (State.clearQueues_dropMat _ t).trans ?_⟩
  change { (s.onTeam t.tcx fun x => { x with cleaned := true }).dropStreams t.tcx with qu := (s.ending t).qu, mx := (s.ending t).mx } = _
  rw [e]
  rfl
theorem State.endingFilled_work : (s.ending t).BankWork (s.endingFilled t) := by
  unfold State.endingFilled
  split
  · exact .refl _
  · exact .clearVault _ _ _ _
theorem State.endingFilled_idle (h : t.recd.vaultKib = 0 ∨ s.vt.waiters = []) :
    s.endingFilled t = { s.ending t with mem := (s.endingFilled t).mem, vt := (s.endingFilled t).vt } := by
  unfold State.endingFilled
  split
  · rfl
  · rename_i hk
    obtain ⟨ops, vt, qu, tr, mx, hw, e⟩ := s.ending_frame t
    have hnil : (s.ending t).vt.waiters = [] := by
      rw [e]
      exact List.eq_nil_of_subset_nil ((h.resolve_left hk) ▸ hw)
    exact State.clearVault_idle hnil _ _ _
end

theorem State.cleanTeam_eq {s : State} {t : Team} (cause : Cause) (hc : ∀ c ∈ s.dr.copies, c.tcx = t.tcx → c.final = true)
    (hg : ∀ g, s.grid? t.grid = some g → g.inst = none) : s.cleanTeam t cause =
      (((s.endingFilled t).onGrid t.grid (t.failing cause)).reevaluate t.tcx).record 1 t.core (t.detail cause) := by
  have hfree : ((((s.onTeam t.tcx fun x => { x with cleaned := true }).dropStreams t.tcx).dr.copies.filter fun c =>
      c.tcx == t.tcx && !c.final).map (·.id)) = [] := by
    rw [List.map_eq_nil_iff, List.filter_eq_nil_iff]
    intro c hm hcond
    simp only [Bool.and_eq_true, beq_iff_eq, Bool.not_eq_true'] at hcond
    rw [hc c hm hcond.1] at hcond
    exact Bool.noConfusion hcond.2
  have hloom : (s.endingFilled t).loom = s.loom := by
    obtain ⟨ops, vt, qu, tr, mx, -, e⟩ := s.ending_frame t
    rw [(s.endingFilled_work t).frame, e]
  have hnone : ((((s.endingFilled t).onGrid t.grid (t.failing cause)).reevaluate t.tcx).grid? t.grid).bind (·.inst) = none := by
    have h1 : (((s.endingFilled t).onGrid t.grid (t.failing cause)).reevaluate t.tcx).grid? t.grid =
        (s.grid? t.grid).map (t.failing cause) := by
      have h2 := (s.endingFilled t).onGrid_grid? t.grid (f := t.failing cause) fun g => by unfold Team.failing; split <;> rfl
      rw [show (s.endingFilled t).grid? t.grid = s.grid? t.grid by rw [State.grid?, hloom, State.grid?]] at h2
      exact h2
    rw [h1]
    cases h : s.grid? t.grid with
    | none => rfl
    | some g =>
      rw [Option.map_some, Option.bind_some, Team.failing]
      split
      · exact hg g h
      · exact hg g h
  unfold State.cleanTeam
  dsimp only
  rw [hfree]
  change (match ((((s.endingFilled t).onGrid t.grid (t.failing cause)).reevaluate t.tcx).grid? t.grid).bind (·.inst) with
    | some n => _
    | none => _ : State).record 1 t.core (t.detail cause) = _
  rw [hnone]
  rfl

section
variable {s : State} {t : Team} {x : Nat} {cause : BitVec 8} (ht : s.team? x = some t) (he : t.ended = some cause)
variable (hcl : t.cleaned = false) (hc : ∀ c ∈ s.dr.copies, c.tcx = x → c.final = true)
variable (hg : ∀ g, s.grid? t.grid = some g → g.inst = none)
include ht he hcl hc hg

theorem exec_teamEnd : exec (.teamEnd x cause) s =
    .next ((((s.endingFilled t).onGrid t.grid (t.failing cause)).reevaluate t.tcx).record 1 t.core (t.detail cause)) := by
  have hx : t.tcx = x := State.team?_tcx ht
  rw [← State.cleanTeam_eq cause (by rw [hx]; exact hc) hg]
  change execTeamEnd x cause s = _
  rw [execTeamEnd, ht]
  refine congrArg Host.Outcome.next (if_pos ?_)
  simp [he, hcl]

omit he hcl hc hg in
theorem State.endingFilled_team? : ∃ tm', (((s.endingFilled t).onGrid t.grid (t.failing cause)).reevaluate t.tcx).team? x = some tm' ∧
    tm'.cleaned = true := by
  have hx : t.tcx = x := State.team?_tcx ht
  have hteams : (s.endingFilled t).teams = (s.onTeam x fun y => { y with cleaned := true }).teams := by
    obtain ⟨ops, vt, qu, tr, mx, -, e⟩ := s.ending_frame t
    rw [(s.endingFilled_work t).frame, e, hx]
  obtain ⟨f, hf, h⟩ := ((s.endingFilled t).onGrid t.grid (t.failing cause)).reevaluate_team? x
  have h1 : ((s.endingFilled t).onGrid t.grid (t.failing cause)).team? x = some { t with cleaned := true } := by
    have h2 := s.onTeam_team? x (f := fun y => { y with cleaned := true }) fun _ => rfl
    rw [ht] at h2
    exact (congrArg (List.find? fun y : Team => decide (y.tcx = x)) hteams).trans h2
  rw [hx, h, h1]
  exact ⟨_, rfl, hf _⟩
omit ht he hcl hc hg in
theorem State.endingFilled_loom : (s.endingFilled t).loom = s.loom := by
  obtain ⟨ops, vt, qu, tr, mx, -, e⟩ := s.ending_frame t
  rw [(s.endingFilled_work t).frame, e]
omit he hcl hc hg in
theorem State.endingFilled_ids : (s.endingFilled t).streams.map (·.id) = (s.streams.filter fun st => st.id.tcx ≠ x).map (·.id) := by
  obtain ⟨ops, vt, qu, tr, mx, -, e⟩ := s.ending_frame t
  rw [(s.endingFilled_work t).ids, e, State.team?_tcx ht]
omit he hcl hc hg in
theorem State.endingFilled_streams (h : t.recd.vaultKib = 0 ∨ s.vt.waiters = []) :
    (s.endingFilled t).streams = s.streams.filter fun st => st.id.tcx ≠ x := by
  obtain ⟨ops, vt, qu, tr, mx, -, e⟩ := s.ending_frame t
  rw [s.endingFilled_idle t h, e, State.team?_tcx ht]
omit ht he hcl hc hg in
theorem State.endingFilled_queue (h : t.recd.vaultKib = 0 ∨ s.vt.waiters = []) {k : Nat} (hk : k ∈ t.queueKeys) :
    ((s.endingFilled t).queue k).entries = [] := by
  rw [State.queue, s.endingFilled_idle t h]
  exact State.clearQueues_entries _ _ (.inl hk)
omit ht he hcl hc hg in
theorem State.endingFilled_zero {a : Nat} (h : a < t.recd.vaultKib * 1024) :
    memRead (s.endingFilled t).mem (vaultKey + t.vaultBase.toNat + a) = 0 := by
  rw [State.endingFilled, if_neg fun h0 => by rw [h0] at h; omega]
  exact State.clearVault_zero _ h _
end
theorem Team.failing_first {t : Team} {cause : Cause} {g : Grid}
    (h : g.failed = none ∨ t.endedAt < g.failedAt.1 ∨ t.endedAt = g.failedAt.1 ∧ t.core < g.failedAt.2) :
    t.failing cause g = { g with failed := some cause, failedAt := (t.endedAt, t.core) } := by
  rw [Team.failing, if_pos]
  simpa [or_assoc] using h
theorem Team.failing_later {t : Team} {cause : Cause} {g : Grid}
    (h : ¬(g.failed = none ∨ t.endedAt < g.failedAt.1 ∨ t.endedAt = g.failedAt.1 ∧ t.core < g.failedAt.2)) :
    t.failing cause g = g := by
  rw [Team.failing, if_neg]
  simpa [or_assoc] using h

/-! ### The retirement of a team (R429) -/

/-- What the retirement of a team leaves of memory and of the waiters. -/
def State.retiring (s : State) (t : Team) : State :=
  if t.ended.isSome && t.recd.vaultKib != 0 then s.fillVault t.vaultBase.toNat (t.recd.vaultKib * 1024) else s
theorem State.retiring_work (s : State) (t : Team) : s.BankWork (s.retiring t) := by
  unfold State.retiring
  split
  · exact .clearVault _ _ _ _
  · exact .refl _
theorem State.retiring_idle {s : State} {t : Team} (h : t.ended = none ∨ t.recd.vaultKib = 0 ∨ s.vt.waiters = []) :
    s.retiring t = { s with mem := (s.retiring t).mem, vt := (s.retiring t).vt } := by
  unfold State.retiring
  split
  · rename_i hc
    simp only [Bool.and_eq_true, bne_iff_ne] at hc
    refine State.clearVault_idle ((h.resolve_left fun h0 => ?_).resolve_left hc.2) _ _ _
    rw [h0] at hc
    exact Bool.noConfusion hc.1
  · rfl
theorem State.retiring_plain {s : State} {t : Team} (h : t.ended = none ∨ t.recd.vaultKib = 0) : s.retiring t = s := by
  refine if_neg fun hc => ?_
  simp only [Bool.and_eq_true, bne_iff_ne] at hc
  rcases h with h | h
  · rw [h] at hc
    exact Bool.noConfusion hc.1
  · exact hc.2 h
theorem State.freeTeam_frame (s : State) (t : Team) : ∃ ops vt qu tr mx dr, s.freeTeam t =
    { s.retiring t with
      teams := (s.retiring t).teams.filter fun y => y.tcx ≠ t.tcx
      streams := (s.retiring t).streams.filter fun st => st.id.tcx ≠ t.tcx, ops := ops, vt := vt, qu := qu, tr := tr, mx := mx, dr := dr } := by
  obtain ⟨ops, vt, qu, tr, -, e⟩ := (s.retiring t).dropStreams_frame t.tcx
  let u := (((s.retiring t).dropStreams t.tcx).dropMat t).clearQueues t.queueKeys
  have hu : u = { (s.retiring t).dropStreams t.tcx with qu := u.qu, mx := u.mx } := State.clearQueues_dropMat _ t
  refine ⟨ops, vt, u.qu, tr, u.mx,
    { u.dr with copies := u.dr.copies.map fun (c : Copy) => if c.tcx = t.tcx then { c with tcx := 65536 } else c }, ?_⟩
  change { u with
    teams := u.teams.filter fun x => x.tcx ≠ t.tcx
    dr := { u.dr with copies := u.dr.copies.map fun (c : Copy) => if c.tcx = t.tcx then { c with tcx := 65536 } else c } } = _
  rw [e] at hu
  generalize u = v at hu
  rw [hu]

theorem State.chunkExit_unbound {s : State} {t : Team} (hg : ∀ g, s.grid? t.grid = some g → g.inst = none) : s.chunkExit t = s := by
  unfold State.chunkExit
  cases h : s.grid? t.grid with
  | none => rfl
  | some g =>
    dsimp only
    rw [hg g h]
theorem exec_teamRetire {s : State} {t : Team} {x : Nat} (ht : s.team? x = some t) (hr : s.mayRetire t = true)
    (hm : s.vt.migrateMode = false) (hg : ∀ g, s.grid? t.grid = some g → g.inst = none) :
    let u := (s.freeTeam t).onGrid t.grid fun g => { g with retired := g.retired + 1 }
    exec (.teamRetire x) s = .next { u with loom := { u.loom with retired := some s.clock.cycles } } := by
  have hrel : ∀ k, s.releaseTag k = s := fun k => by rw [State.releaseTag, hm]; rfl
  have hexit : (if t.ended.isSome then s else s.chunkExit t) = s := by
    rw [State.chunkExit_unbound hg]
    exact ite_self s
  change execTeamRetire x s = _
  rw [execTeamRetire, ht]
  dsimp only
  rw [hr, if_neg (by decide), hrel, hrel, hexit]

theorem team_retires (s : State) (x : Nat) (tm : Team) (ht : s.team? x = some tm) (hr : s.mayRetire tm = true)
    (hm : s.vt.migrateMode = false) (hg : ∀ g, s.grid? tm.grid = some g → g.inst = none) :
    ∃ t, exec (.teamRetire x) s = .next t ∧ t.teams = (s.teams.filter fun y => y.tcx ≠ x) ∧
      (tm.ended = none ∨ tm.recd.vaultKib = 0 → t.mem = s.mem) ∧
      (tm.ended = none ∨ tm.recd.vaultKib = 0 ∨ s.vt.waiters = [] → t.streams = s.streams.filter fun st => st.id.tcx ≠ x) ∧
      (tm.ended.isSome = true → ∀ a, a < tm.recd.vaultKib * 1024 → memRead t.mem (vaultKey + tm.vaultBase.toNat + a) = 0) ∧
      ∀ g, s.grid? tm.grid = some g → t.grid? tm.grid = some { g with retired := g.retired + 1 } := by
  have hx : tm.tcx = x := State.team?_tcx ht
  obtain ⟨ops, vt, qu, tr, mx, dr, e⟩ := s.freeTeam_frame tm
  have hteams : (s.freeTeam tm).teams = s.teams.filter fun y => y.tcx ≠ x := by
    rw [e, (s.retiring_work tm).frame, hx]
  have hmem : (s.freeTeam tm).mem = (s.retiring tm).mem := by rw [e]
  have hloom : (s.freeTeam tm).loom = s.loom := by rw [e, (s.retiring_work tm).frame]
  refine ⟨_, exec_teamRetire ht hr hm hg, hteams, fun h => hmem.trans (by rw [State.retiring_plain h]), fun h => ?_,
    fun h a ha => (congrArg (memRead · _) hmem).trans ?_, fun g h => ?_⟩
  · have hst : (s.freeTeam tm).streams = (s.retiring tm).streams.filter fun st => st.id.tcx ≠ x := by rw [e, hx]
    exact hst.trans (by rw [State.retiring_idle h])
  · rw [State.retiring, if_pos]
    · exact State.clearVault_zero _ ha _
    · simp only [h, Bool.true_and, bne_iff_ne]
      omega
  · have h2 := (s.freeTeam tm).onGrid_grid? tm.grid (f := fun g => { g with retired := g.retired + 1 }) fun _ => rfl
    have hq : (s.freeTeam tm).grid? tm.grid = s.grid? tm.grid := by rw [State.grid?, hloom, State.grid?]
    rw [hq, h] at h2
    exact h2

/-! ### Nodes that end their instance (R50) -/

theorem State.onNode_node? (s : State) (k : Nat) {f : Node → Node} (hf : ∀ n : Node, (f n).idx = n.idx) :
    (s.onNode k f).node? k = (s.node? k).map f := by
  simp only [State.node?, State.onNode, List.find?_map]
  have hp : ((fun n : Node => decide (n.idx = k)) ∘ fun n => if n.idx = k then f n else n) = fun n => decide (n.idx = k) := by
    funext n
    dsimp only [Function.comp]
    split
    · rw [hf]
    · rfl
  rw [hp]
  cases h : s.loom.nodes.find? fun n => n.idx = k with
  | none => rfl
  | some n =>
    have hi : n.idx = k := by simpa using List.find?_some h
    simp [hi]
theorem State.endRun_node? {s : State} {k : Nat} {x : Node} (h : s.node? k = some x) :
    (s.endRun k).node? k = some { x with running := false, runs := x.runs - 1 } := by
  have h1 := s.onNode_node? k (f := fun x => { x with running := false, runs := x.runs - 1 }) fun _ => rfl
  rw [h] at h1
  exact h1
theorem State.graphFault_keeps (s : State) (x : Node) (c : BitVec 8) (w : Word) : ∃ links hif outbox, s.graphFault x c w =
    { s with links := links, hif := hif, outbox := outbox
             loom := { s.loom with ports := (s.graphFault x c w).loom.ports } } ∧
      (s.graphFault x c w).port x.fn x.port =
        { s.port x.fn x.port with gValid := true, gCause := c, gReject := w, gNode := x.idx } := by
  obtain ⟨links, hif, outbox, e⟩ := (s.onPort x.fn x.port fun p =>
    { p with gValid := true, gCause := c, gReject := w, gNode := x.idx }).portIrq_keeps x.fn x.port !(s.port x.fn x.port).gValid
  have h := s.onPort_one x.fn x.port fun p => { p with gValid := true, gCause := c, gReject := w, gNode := x.idx }
  refine ⟨links, hif, outbox, ?_, ?_⟩
  · rw [State.graphFault]
    dsimp only
    rw [e]
    rfl
  · rw [State.graphFault]
    dsimp only
    rw [e]
    exact h.2.1
theorem State.nodeFail_of {s : State} {k : Nat} {x : Node} (h : s.node? k = some x) (c : BitVec 8) (w : Word) :
    s.nodeFail k c w = (s.endRun k).graphFault x c w := by rw [State.nodeFail, h]
/-- An instance that fails: the node, the completions, and LP_GRAPH_FAULT of the installing port. -/
theorem State.nodeFail_fails {s : State} {k : Nat} {x : Node} (h : s.node? k = some x) (c : BitVec 8) (w : Word) :
    let r := s.nodeFail k c w
    r.node? k = some { x with running := false, runs := x.runs - 1 } ∧ r.loom.completions = s.loom.completions ∧
      (r.port x.fn x.port).gValid = true ∧ (r.port x.fn x.port).gCause = c ∧ (r.port x.fn x.port).gReject = w ∧
      (r.port x.fn x.port).gNode = x.idx := by
  intro r
  have er : r = (s.endRun k).graphFault x c w := State.nodeFail_of h c w
  obtain ⟨links, hif, outbox, e, hp⟩ := (s.endRun k).graphFault_keeps x c w
  rw [← er] at e hp
  refine ⟨?_, by rw [e]; rfl, by rw [hp], by rw [hp], by rw [hp], by rw [hp]⟩
  have hn : r.node? k = (s.endRun k).node? k := by rw [State.node?, e, State.node?]
  rw [hn]
  exact State.endRun_node? h
theorem State.nodeDone_done {s : State} {k : Nat} {x : Node} (h : s.node? k = some x) (succ : List Nat) :
    (s.nodeDone k succ).node? k = some { x with running := false, runs := x.runs - 1 } ∧
      (s.nodeDone k succ).loom.completions = s.loom.completions ++ succ := ⟨State.endRun_node? h, rfl⟩
theorem State.nodeOk_of {s : State} {k : Nat} {x : Node} (h : s.node? k = some x) : s.nodeOk k = s.nodeDone k x.succ := by
  rw [State.nodeOk, h]
  rfl

/-! ### The retirement of a grid (R430) -/

/-- The grid leaves the pool, and its barrier goes. -/
def State.gridGone (r : State) (k : Nat) : State :=
  { r with loom := { r.loom with grids := r.loom.grids.filter fun h => h.id ≠ k }, gbars := sset blankBar r.gbars k blankBar }
/-- What the parent node takes. -/
def State.parentTakes (q : State) (g : Grid) : State :=
  match g.recd.parent.bind q.node? with
  | none => q
  | some p => match g.failed with
    | some c => q.graphFault p c 0
    | none => { q with loom := { q.loom with completions := q.loom.completions ++ [p.idx] } }
/-- What the node takes whose instance the grid is. -/
def State.originTakes (q : State) (g : Grid) : State :=
  match g.origin, g.failed with
  | .node n, some c => q.nodeFail n c 0
  | .node n, none => q.nodeOk n
  | _, _ => q
theorem State.gridGone_ends (r : State) (k : Nat) :
    (r.gridGone k).loom.grids = (r.loom.grids.filter fun h => h.id ≠ k) ∧ sget blankBar (r.gridGone k).gbars k = blankBar ∧
      r.gridGone k = { r with loom := { r.loom with grids := (r.gridGone k).loom.grids }, gbars := (r.gridGone k).gbars } :=
  ⟨rfl, sget_sset_same .., rfl⟩
theorem exec_gridRetire {s : State} {k : Nat} {g : Grid} (hg : s.grid? k = some g) (hn : g.recd.teams ≤ g.next)
    (hr : g.recd.teams ≤ g.retired) : exec (.gridRetire k) s = .next
      ((((s.bumpIf g.fn g.recd.asid g.recd.doneCtr 1 g.failed.isSome).parentTakes g).originTakes g).gridGone k) := by
  have hw : (g.waiting || decide (g.retired < g.recd.teams)) = false := by
    rw [Grid.waiting, decide_eq_false (by omega), decide_eq_false (by omega)]
    rfl
  change execGridRetire k s = _
  rw [execGridRetire, hg]
  refine congrArg Host.Outcome.next ((if_neg (by simpa using hw)).trans ?_)
  rfl
theorem State.originTakes_other {q : State} {g : Grid} (h : ∀ n, g.origin ≠ .node n) : q.originTakes g = q := by
  unfold State.originTakes
  split
  · exact absurd ‹_› (h _)
  · exact absurd ‹_› (h _)
  · rfl

theorem grid_retires (s : State) (k : Nat) (g : Grid) (hg : s.grid? k = some g) (hn : g.recd.teams ≤ g.next)
    (hr : g.recd.teams ≤ g.retired) :
    let q := if g.recd.doneCtr = 0 then s else s.bump g.fn g.recd.asid g.recd.doneCtr 1 g.failed.isSome
    let ends := fun (r t : State) => t.loom.grids = (r.loom.grids.filter fun h => h.id ≠ k) ∧ sget blankBar t.gbars k = blankBar ∧
      t = { r with loom := { r.loom with grids := t.loom.grids }, gbars := t.gbars }
    ((∀ n, g.origin ≠ .node n) → ∃ r t, exec (.gridRetire k) s = .next t ∧ ends r t ∧
      (g.recd.parent.bind q.node? = none → r = q) ∧
      (∀ p, g.recd.parent.bind q.node? = some p → g.failed = none →
        r = { q with loom := { q.loom with completions := q.loom.completions ++ [p.idx] } }) ∧
      (∀ p c, g.recd.parent.bind q.node? = some p → g.failed = some c → r = q.graphFault p c 0)) ∧
    (∀ n x, g.origin = .node n → g.recd.parent = none → q.node? n = some x → ∃ r t, exec (.gridRetire k) s = .next t ∧ ends r t ∧
      r.node? n = some { x with running := false, runs := x.runs - 1 } ∧
      (g.failed = none → r.loom.completions = q.loom.completions ++ x.succ ∧
        r = { q with loom := { q.loom with nodes := r.loom.nodes, completions := r.loom.completions } }) ∧
      (∀ c, g.failed = some c → r.loom.completions = q.loom.completions ∧
        ((r.port x.fn x.port).gValid = true ∧ (r.port x.fn x.port).gCause = c ∧ (r.port x.fn x.port).gReject = 0 ∧
          (r.port x.fn x.port).gNode = x.idx))) := by
  intro q ends
  have hex : exec (.gridRetire k) s = .next (((q.parentTakes g).originTakes g).gridGone k) := exec_gridRetire hg hn hr
  refine ⟨fun ho => ⟨_, _, hex, State.gridGone_ends _ k, ?_⟩, fun n x ho hp hx => ⟨_, _, hex, State.gridGone_ends _ k, ?_⟩⟩
  · rw [State.originTakes_other ho]
    refine ⟨fun h => ?_, fun p h hf => ?_, fun p c h hf => ?_⟩
    · rw [State.parentTakes, h]
    · rw [State.parentTakes, h, hf]
    · rw [State.parentTakes, h, hf]
  · have hpar : q.parentTakes g = q := by rw [State.parentTakes, hp]; rfl
    rw [hpar]
    cases hf : g.failed with
    | none =>
      have e : q.originTakes g = q.nodeDone n x.succ := by
        rw [State.originTakes, ho, hf, ← State.nodeOk_of hx]
      obtain ⟨h1, h2⟩ := State.nodeDone_done hx x.succ
      rw [e]
      exact ⟨h1, fun _ => ⟨h2, rfl⟩, fun _ h => nomatch h⟩
    | some c =>
      have e : q.originTakes g = q.nodeFail n c 0 := by rw [State.originTakes, ho, hf]
      obtain ⟨h1, h2, h3⟩ := State.nodeFail_fails hx c 0
      rw [e]
      exact ⟨h1, (fun h => nomatch h), fun c' h => by cases h; exact ⟨h2, h3⟩⟩

/-! ### What ends a team (R405, R418, R420) -/

theorem State.endTeam_ends {s : State} {x : Nat} {tm : Team} (c : Cause) (h : s.team? x = some tm) (hn : tm.ended = none) :
    (s.endTeam x c).team? x = some { tm with ended := some c, endedAt := s.gts } := by
  rw [s.endTeam_team?, h, Option.map_some, hn]
  rfl
theorem exec_watchdogExpire_on {s : State} {x : Nat} {tm : Team} {st : Stream} (h : s.team? x = some tm) (hst : st ∈ s.streams)
    (hw : (s.fn tm.fn).wdog ≠ 0) (hsh : tm.shadow = false) (hi : tm.image = none) (hx : st.id.tcx = x) (hex : st.exited = false)
    (hp : st.park ≠ .none ∨ st.stall ≠ none) (hl : tm.lastIssue + (s.fn tm.fn).wdog.toNat * 1000000 ≤ s.gts) :
    exec (.watchdogExpire x) s = .next (s.endTeam x cWatchdog) := by
  have hwait : (s.streams.any fun st => st.id.tcx == x && !st.exited && (st.park != .none || st.stall.isSome)) = true := by
    refine List.any_eq_true.mpr ⟨st, hst, ?_⟩
    simp only [hx, hex, beq_self_eq_true, Bool.not_false, Bool.true_and, Bool.or_eq_true, bne_iff_ne, Option.isSome_iff_ne_none]
    exact hp
  have hms : (s.fn tm.fn).wdog.toNat ≠ 0 := fun h0 => hw (BitVec.eq_of_toNat_eq h0)
  change execWatchdogExpire x s = _
  rw [execWatchdogExpire, h]
  refine congrArg Host.Outcome.next (if_pos ?_)
  simp [hwait, hms, Team.active, hsh, hi, hl]
theorem exec_watchdogExpire_off {s : State} {x : Nat} {tm : Team} (h : s.team? x = some tm)
    (hl : s.gts < tm.lastIssue + (s.fn tm.fn).wdog.toNat * 1000000 ∨ (s.fn tm.fn).wdog = 0) :
    exec (.watchdogExpire x) s = .next s := by
  change execWatchdogExpire x s = _
  rw [execWatchdogExpire, h]
  refine congrArg Host.Outcome.next (if_neg fun hc => ?_)
  simp only [Bool.and_eq_true, decide_eq_true_eq] at hc
  obtain ⟨⟨⟨h0, -⟩, -⟩, h1⟩ := hc
  rcases hl with hl | hl
  · omega
  · rw [hl] at h0
    exact h0 rfl

/-- What TEAM_END leaves. -/
def State.teamEnded (s : State) (t : Team) (cause : Cause) : State :=
  (((s.endingFilled t).onGrid t.grid (t.failing cause)).reevaluate t.tcx).record 1 t.core (t.detail cause)
theorem State.teamEnded_frame (s : State) (t : Team) (cause : Cause) : (s.teamEnded t cause).streams = (s.endingFilled t).streams ∧
    (s.teamEnded t cause).qu = (s.endingFilled t).qu ∧ (s.teamEnded t cause).mem = (s.endingFilled t).mem := by
  unfold State.teamEnded
  generalize s.endingFilled t = u
  exact ⟨rfl, rfl, rfl⟩
theorem State.teamEnded_grid? {s : State} {t : Team} {cause : Cause} {g : Grid} (h : s.grid? t.grid = some g) :
    (s.teamEnded t cause).grid? t.grid = some (t.failing cause g) := by
  have h1 := (s.endingFilled t).onGrid_grid? t.grid (f := t.failing cause) fun g => by unfold Team.failing; split <;> rfl
  have hq : (s.endingFilled t).grid? t.grid = s.grid? t.grid := by rw [State.grid?, State.endingFilled_loom, State.grid?]
  rw [hq, h] at h1
  exact h1

/-- Settles O35: `State.cleanTeam`, `State.freeTeam` and the two halves of GRID_RETIRE, each by what it leaves. -/
theorem teamsAndGridsRetire : Obligations.TeamsAndGridsRetire := by
  unfold Obligations.TeamsAndGridsRetire
  refine ⟨fun s x tm h hn => ⟨⟨_, rfl, rfl, State.endTeam_ends _ h hn⟩, fun st hst hw hsh hi hx hex hp hl =>
    ⟨_, exec_watchdogExpire_on h hst hw hsh hi hx hex hp hl, rfl, State.endTeam_ends _ h hn⟩, exec_watchdogExpire_off h⟩,
    fun s x tm cause ht he hcl hc hg => ?_, team_retires, grid_retires⟩
  refine ⟨s.teamEnded tm cause, exec_teamEnd ht he hcl hc hg, State.endingFilled_team? ht, ?_, fun h => ?_, fun g h => ?_,
    fun h k hk => ?_, fun a ha => ?_⟩
  · rw [(s.teamEnded_frame tm cause).1]
    exact State.endingFilled_ids ht
  · rw [(s.teamEnded_frame tm cause).1]
    exact State.endingFilled_streams ht h
  · exact ⟨fun hf => (State.teamEnded_grid? h).trans (congrArg some (Team.failing_first hf)),
      fun hf => (State.teamEnded_grid? h).trans (congrArg some (Team.failing_later hf))⟩
  · rw [State.queue, (s.teamEnded_frame tm cause).2.1]
    exact State.endingFilled_queue h hk
  · rw [(s.teamEnded_frame tm cause).2.2]
    exact State.endingFilled_zero ha

end Sys2Proof.Machine
end
section
/-! PROOFS. Job slots, keys and grant tokens (R315, R324 to R326, R328, R445). -/
namespace Sys2Proof.Machine

/-! ### One job slot -/

section
variable (s : State) {n : Nat} (hn : n < s.jobs.length) (f : JobSlot → JobSlot)

include hn in
theorem State.onJob_job : (s.onJob n f).job n = f (s.job n) := by
  simp [State.job, State.onJob, List.getElem?_mapIdx, List.getElem?_eq_getElem hn]
theorem State.onJob_other {m : Nat} (h : m ≠ n) : (s.onJob n f).job m = s.job m := by
  have e : ((s.onJob n f).jobs)[m]? = s.jobs[m]? := by
    rw [State.onJob, List.getElem?_mapIdx]
    simp [if_neg h]
  rw [State.job, e, State.job]
include hn in
/-- Nothing but one slot changes. -/
theorem State.onJob_sets {i : Instr} {j : JobSlot} (he : exec i s = .next (s.onJob n f)) (hj : f (s.job n) = j) :
    ∃ t, exec i s = .next t ∧ t = { s with jobs := t.jobs } ∧ t.job n = j ∧ ∀ m, m ≠ n → t.job m = s.job m :=
  ⟨_, he, rfl, (s.onJob_job hn f).trans hj, fun _ h => s.onJob_other f h⟩
omit hn in
theorem State.onJob_same (h : f (s.job n) = s.job n) : s.onJob n f = s := by
  have e : s.jobs.mapIdx (fun i j => if i = n then f j else j) = s.jobs := by
    refine List.ext_getElem (by simp) fun i h1 h2 => ?_
    rw [List.getElem_mapIdx]
    split
    · subst i
      have hj : s.job n = s.jobs[n] := by simp [State.job, List.getElem?_eq_getElem h2]
      rw [← hj]
      exact h
    · rfl
  rw [State.onJob, e]
end
theorem State.onJob_onJob (s : State) (n : Nat) (f f' : JobSlot → JobSlot) :
    (s.onJob n f).onJob n f' = s.onJob n fun x => f' (f x) := by
  have e : ((s.onJob n f).onJob n f').jobs = (s.onJob n fun x => f' (f x)).jobs := by
    refine List.ext_getElem (by simp [State.onJob]) fun i h1 h2 => ?_
    simp only [State.onJob, List.getElem_mapIdx]
    split <;> rfl
  exact congrArg (fun js => { s with jobs := js }) e

/-- The rank cache keeps no entry of a slot whose validity changes. -/
theorem State.dropRanks_drops (s : State) (n : Nat) (f : JobSlot → JobSlot) :
    let t := (s.dropRanks n).onJob n f
    t = { s with jobs := t.jobs, dr := { s.dr with ranks := t.dr.ranks } } ∧
      ∀ e, e ∈ t.dr.ranks ↔ e ∈ s.dr.ranks ∧ e.1 ≠ n :=
  ⟨rfl, fun e => by simp [State.dropRanks, State.onJob]⟩

/-- Another valid slot holds an ASID. -/
theorem State.otherJob_iff (s : State) (n : Nat) (asid : BitVec 16) :
    (s.jobs.mapIdx fun i x => i != n && x.v && x.asid == asid).any id = true ↔
      ∃ m, m ≠ n ∧ (s.job m).v = true ∧ (s.job m).asid = asid := by
  constructor
  · intro h
    obtain ⟨b, hb, hid⟩ := List.any_eq_true.mp h
    obtain ⟨m, hm, rfl⟩ := List.mem_iff_getElem.mp hb
    have hm' : m < s.jobs.length := by simpa using hm
    simp only [List.getElem_mapIdx, id_eq, Bool.and_eq_true, bne_iff_ne, beq_iff_eq] at hid
    have hj : s.job m = s.jobs[m] := by simp [State.job, List.getElem?_eq_getElem hm']
    rw [← hj] at hid
    exact ⟨m, hid.1.1, hid.1.2, hid.2⟩
  · rintro ⟨m, hne, hv, ha⟩
    have hm : m < s.jobs.length := by
      by_contra hge
      rw [State.job, List.getElem?_eq_none (by omega)] at hv
      exact Bool.noConfusion hv
    have hj : s.job m = s.jobs[m] := by simp [State.job, List.getElem?_eq_getElem hm]
    rw [hj] at hv ha
    exact List.any_eq_true.mpr ⟨_, List.getElem_mem (by simpa using hm), by simp [hne, hv, ha]⟩

/-- The register words that name RANK and NRANKS. -/
theorem extract_append_low (h : BitVec 15) (v : BitVec 17) : (h ++ v : Word).extractLsb' 0 17 = v := by
  refine BitVec.eq_of_getLsbD_eq fun i hi => ?_
  rw [BitVec.getLsbD_extractLsb', BitVec.getLsbD_append]
  simp [hi]
theorem bit_append_high (h : BitVec 15) (v : BitVec 17) : (h ++ v : Word).getLsbD 17 = h.getLsbD 0 := by
  rw [BitVec.getLsbD_append]
  rfl
theorem State.jobSelf_rank (s : State) (n : Nat) (v : BitVec 17) :
    s.jobSelf n (0#15 ++ v) = s.onJob n fun x => if x.v then x else { x with rank := v.toNat } := by
  rw [State.jobSelf, extract_append_low, bit_append_high]
  rfl
theorem State.jobSelf_nranks (s : State) (n : Nat) (v : BitVec 17) :
    s.jobSelf n (0#14 ++ 1#1 ++ v) = s.onJob n fun x => if x.v then x else { x with last := v.toNat } := by
  have h1 : (0#14 ++ 1#1 ++ v : Word).getLsbD 17 = true := bit_append_high (0#14 ++ 1#1) v
  have h2 : (0#14 ++ 1#1 ++ v : Word).extractLsb' 0 17 = v := extract_append_low (0#14 ++ 1#1) v
  rw [State.jobSelf, h1, h2]
  rfl

/-! ### Keys (R328) -/

/-- The keys of a slot with one of a generation replaced. -/
def JobSlot.withKey (j : JobSlot) (g : Nat) (ws : List Word) : JobSlot :=
  { j with keys := (j.keys.filter fun e => e.1 ≠ g) ++ [(g, ws)] }
def JobSlot.withoutKey (j : JobSlot) (g : Nat) : JobSlot := { j with keys := j.keys.filter fun e => e.1 ≠ g }
/-- One word of an install or a retire, as the slot takes it. -/
def JobSlot.takeWord (w : Word) (x : JobSlot) : JobSlot :=
  if x.pending ≠ [] then
    let ws := x.pending ++ [w]
    if ws.length = 8 then
      let g := ((ws.headD 0).extractLsb' 0 2).toNat
      { x with pending := [], keys := (x.keys.filter fun e => e.1 ≠ g) ++ [(g, ws.tail)] }
    else { x with pending := ws }
  else if w.extractLsb' 2 28 ≠ 0 || w.getLsbD 31 == w.getLsbD 30 then x
  else if w.getLsbD 31 then { x with pending := [w] }
  else { x with keys := x.keys.filter fun e => e.1 ≠ (w.extractLsb' 0 2).toNat }
theorem State.keyWord_eq (s : State) (n : Nat) (w : Word) : s.keyWord n w = s.onJob n (JobSlot.takeWord w) := rfl
theorem State.keyWords_eq (s : State) (n : Nat) (ws : List Word) :
    ws.foldl (fun s w => s.keyWord n w) s = s.onJob n fun x => ws.foldl (fun x w => x.takeWord w) x := by
  induction ws generalizing s with
  | nil =>
    have e : s.jobs.mapIdx (fun i j => if i = n then j else j) = s.jobs := by
      refine List.ext_getElem (by simp) fun i h1 h2 => ?_
      rw [List.getElem_mapIdx, ite_self]
    exact (congrArg (fun js => { s with jobs := js }) e).symm
  | cons w r ih => rw [List.foldl_cons, ih, State.keyWord_eq, State.onJob_onJob]; rfl

/-- The first word of an install of a generation. -/
def installHead (g : BitVec 2) : Word := 1#1 ++ 0#29 ++ g
theorem installHead_reads (g : BitVec 2) : (installHead g).extractLsb' 2 28 = 0 ∧ (installHead g).getLsbD 31 = true ∧
    (installHead g).getLsbD 30 = false ∧ (installHead g).extractLsb' 0 2 = g := by
  revert g
  decide
theorem retireWord_reads (g : BitVec 2) : (0#1 ++ 1#1 ++ 0#28 ++ g : Word).extractLsb' 2 28 = 0 ∧
    (0#1 ++ 1#1 ++ 0#28 ++ g : Word).getLsbD 31 = false ∧ (0#1 ++ 1#1 ++ 0#28 ++ g : Word).getLsbD 30 = true ∧
    (0#1 ++ 1#1 ++ 0#28 ++ g : Word).extractLsb' 0 2 = g := by
  revert g
  decide
theorem takeWord_begins {x : JobSlot} (h : x.pending = []) (g : BitVec 2) :
    x.takeWord (installHead g) = { x with pending := [installHead g] } := by
  obtain ⟨h1, h2, h3, -⟩ := installHead_reads g
  rw [JobSlot.takeWord, if_neg (by simp [h]), if_neg (by rw [h1, h2, h3]; decide), if_pos h2]
theorem takeWord_retires {x : JobSlot} (h : x.pending = []) (g : BitVec 2) :
    x.takeWord (0#1 ++ 1#1 ++ 0#28 ++ g) = x.withoutKey g.toNat := by
  obtain ⟨h1, h2, h3, h4⟩ := retireWord_reads g
  rw [JobSlot.takeWord, if_neg (by simp [h]), if_neg (by rw [h1, h2, h3]; decide), if_neg (by rw [h2]; decide), h4, JobSlot.withoutKey]
theorem takeWord_goes_on {x : JobSlot} {p : List Word} (h : x.pending = p) (hne : p ≠ []) (hl : p.length < 7) (w : Word) :
    x.takeWord w = { x with pending := p ++ [w] } := by
  rw [JobSlot.takeWord, if_pos (by rw [h]; exact hne), h]
  exact if_neg (by simp; omega)
/-- The words after the first are kept until the last of eight is there. -/
theorem takeWords_pending (ws : List Word) {x : JobSlot} {p : List Word} (h : x.pending = p) (hne : p ≠ [])
    (hl : p.length + ws.length ≤ 7) : ws.foldl (fun x w => x.takeWord w) x = { x with pending := p ++ ws } := by
  induction ws generalizing x p with
  | nil =>
    rw [List.append_nil, ← h]
    rfl
  | cons w r ih =>
    rw [List.length_cons] at hl
    rw [List.foldl_cons, takeWord_goes_on h hne (by omega), ih (p := p ++ [w]) rfl (by simp) (by simp; omega)]
    simp
theorem installWords_eq (g : BitVec 2) {ws : List Word} (h : ws.length = 7) : installWords g ws = installHead g :: ws := by
  rw [installWords, List.take_append_of_le_length (by omega), List.take_of_length_le (by omega)]
  rfl
theorem takeWord_ends {x : JobSlot} {g : BitVec 2} {ws : List Word} (h : x.pending = installHead g :: ws) (hl : ws.length = 6) (w : Word) :
    x.takeWord w = { x.withKey g.toNat (ws ++ [w]) with pending := [] } := by
  have h4 := (installHead_reads g).2.2.2
  rw [JobSlot.takeWord, if_pos (by simp [h]), h]
  dsimp only
  rw [if_pos (by simp [hl])]
  simp only [List.cons_append, List.headD_cons, List.tail_cons, h4]
  rfl
theorem takeWords_install {x : JobSlot} (h : x.pending = []) (g : BitVec 2) {ws : List Word} (hw : ws.length = 7) :
    (installWords g ws).foldl (fun x w => x.takeWord w) x = x.withKey g.toNat ws := by
  have hsplit : ws = ws.take 6 ++ [ws.getD 6 0] := by
    conv_lhs => rw [← List.take_append_drop 6 ws]
    congr 1
    rw [List.drop_eq_getElem_cons (by omega), List.drop_eq_nil_of_le (by omega)]
    simp [List.getElem?_eq_getElem (show 6 < ws.length by omega)]
  have hmid := takeWords_pending (ws.take 6) (x := { x with pending := [installHead g] }) rfl (by simp) (by simp; omega)
  have hrun : ws.foldl (fun x w => x.takeWord w) { x with pending := [installHead g] } =
      JobSlot.takeWord (ws.getD 6 0) { x with pending := [installHead g] ++ ws.take 6 } := by
    conv_lhs => rw [hsplit]
    rw [List.foldl_append, hmid]
    rfl
  rw [installWords_eq g hw, List.foldl_cons, takeWord_begins h, hrun, takeWord_ends (ws := ws.take 6) rfl (by simp [hw]), ← hsplit, JobSlot.withKey, JobSlot.withKey, ← h]

/-! ### The statements of O52 -/

section
variable {s : State} {n : Nat} (hn : n < s.jobs.length)
include hn

theorem jobSlot_validates (asid : BitVec 16) (hv : (s.job n).v = false) (hr : (s.job n).rank ≤ (s.job n).last)
    (ho : ¬∃ m, m ≠ n ∧ (s.job m).v = true ∧ (s.job m).asid = asid) :
    ∃ t ts, exec (.jobSlotValidate n asid) s = .next t ∧
      (t = { s with jobs := t.jobs, dr := { s.dr with ranks := t.dr.ranks } } ∧
        ∀ e, e ∈ t.dr.ranks ↔ e ∈ s.dr.ranks ∧ e.1 ≠ n) ∧
      t.job n = { s.job n with
        v := true, asid := asid, levelT := ts, levelM := (t.job n).levelM, regions := [], gen := (s.job n).gen + 1 } ∧
      ts.length = 32 ∧ (∀ i, i < 32 → ts[i]? = some (s.readRankDesc ((s.job n).tableBase + 32 * i))) ∧
      ∀ m, m ≠ n → t.job m = s.job m := by
  let ts := (List.range 32).map fun i => s.readRankDesc ((s.job n).tableBase + 32 * i)
  let own := ts.getD ((s.job n).rank / 4096) ⟨0, 0, 0, 0⟩
  let ms := if own.ok && own.kind == 1 then (List.range 64).map fun i => s.readRankDesc (own.ptr.toNat + 32 * i) else []
  let f : JobSlot → JobSlot := fun x => { x with v := true, asid := asid, levelT := ts, levelM := ms, regions := [], gen := x.gen + 1 }
  have hex : exec (.jobSlotValidate n asid) s = .next ((s.dropRanks n).onJob n f) := by
    change Host.Outcome.next (s.validateJob n asid) = _
    have hno : (s.jobs.mapIdx fun i x => i != n && x.v && x.asid == asid).any id = false :=
      Bool.eq_false_iff.mpr fun h => ho ((s.otherJob_iff n asid).mp h)
    rw [State.validateJob, hv, hno]
    refine congrArg Host.Outcome.next ((if_neg Bool.false_ne_true).trans ((if_neg ?_).trans rfl))
    have hlt : ¬(s.job n).last < (s.job n).rank := by omega
    simp [hlt]
  have hj : ((s.dropRanks n).onJob n f).job n = f (s.job n) := (s.dropRanks n).onJob_job hn f
  refine ⟨_, ts, hex, s.dropRanks_drops n f, ?_, by simp [ts], fun i hi => ?_, fun m hm => (s.dropRanks n).onJob_other f hm⟩
  · rw [hj]
  · simp [ts, hi]

theorem jobSlot_registers (v : BitVec 17) :
    ((s.job n).v = true → exec (.jobSelfRank n v) s = .next s ∧ exec (.jobSelfNranks n v) s = .next s) ∧
    ((s.job n).v = false →
      (∃ t, exec (.jobSelfRank n v) s = .next t ∧ t = { s with jobs := t.jobs } ∧ t.job n = { s.job n with rank := v.toNat } ∧
        ∀ m, m ≠ n → t.job m = s.job m) ∧
      ∃ t, exec (.jobSelfNranks n v) s = .next t ∧ t = { s with jobs := t.jobs } ∧ t.job n = { s.job n with last := v.toNat } ∧
        ∀ m, m ≠ n → t.job m = s.job m) := by
  have hr : exec (.jobSelfRank n v) s = .next (s.onJob n fun x => if x.v then x else { x with rank := v.toNat }) :=
    congrArg Host.Outcome.next (s.jobSelf_rank n v)
  have hl : exec (.jobSelfNranks n v) s = .next (s.onJob n fun x => if x.v then x else { x with last := v.toNat }) :=
    congrArg Host.Outcome.next (s.jobSelf_nranks n v)
  refine ⟨fun h => ⟨hr.trans (congrArg Host.Outcome.next ?_), hl.trans (congrArg Host.Outcome.next ?_)⟩,
    fun h => ⟨s.onJob_sets hn _ hr ?_, s.onJob_sets hn _ hl ?_⟩⟩
  · exact s.onJob_same _ (by rw [h]; rfl)
  · exact s.onJob_same _ (by rw [h]; rfl)
  · exact if_neg (by rw [h]; decide)
  · exact if_neg (by rw [h]; decide)

theorem jobSlot_keys (g : BitVec 2) (ws : List Word) (hw : ws.length = 7) :
    ((s.job n).pending = [] →
      (∃ t, exec (.keyInstall n g ws) s = .next t ∧ t = { s with jobs := t.jobs } ∧ t.job n = (s.job n).withKey g.toNat ws ∧
        ∀ m, m ≠ n → t.job m = s.job m) ∧
      ∃ t, exec (.keyRetire n g) s = .next t ∧ t = { s with jobs := t.jobs } ∧ t.job n = (s.job n).withoutKey g.toNat ∧
        ∀ m, m ≠ n → t.job m = s.job m) ∧
    ((s.job n).pending ≠ [] → exec (.keyInstall n g ws) s = .next s ∧ exec (.keyRetire n g) s = .next s) ∧
    ∃ t bs, exec (.mgmtKeyInstall n g ws) s = .next t ∧
      t = { s with jobs := t.jobs, free := s.free + 1, outbox := s.outbox ++ [.mgmt bs] } ∧
      t.job n = (s.job n).withKey g.toNat ws ∧ ∀ m, m ≠ n → t.job m = s.job m := by
  have htake : (ws ++ List.replicate 7 0).take 7 = ws := by
    rw [List.take_append_of_le_length (by omega), List.take_of_length_le (by omega)]
  refine ⟨fun h => ⟨s.onJob_sets hn (fun x => (installWords g ws).foldl (fun x w => JobSlot.takeWord w x) x) ?_ (takeWords_install h g hw),
    s.onJob_sets hn (JobSlot.takeWord (0#1 ++ 1#1 ++ 0#28 ++ g)) ?_ (takeWord_retires h g)⟩, fun h => ⟨?_, ?_⟩, ?_⟩
  · exact congrArg Host.Outcome.next ((if_pos h).trans (s.keyWords_eq n _))
  · exact congrArg Host.Outcome.next (if_pos h)
  · exact congrArg Host.Outcome.next (if_neg h)
  · exact congrArg Host.Outcome.next (if_neg h)
  · let u := s.onJob n fun x =>
      { x with keys := (x.keys.filter fun e => e.1 ≠ g.toNat) ++ [(g.toNat, (ws ++ List.replicate 7 0).take 7)] }
    refine ⟨u.answerMctp false [], [] ++ Config.monitor u.free, rfl, rfl, ?_, fun m hm => s.onJob_other _ hm⟩
    refine (s.onJob_job hn _).trans ?_
    rw [htake, JobSlot.withKey]
end

/-- Settles O52: each write is one `onJob`, with `dropRanks` where V changes. -/
theorem jobSlotsAndKeys : Obligations.JobSlotsAndKeys := by
  unfold Obligations.JobSlotsAndKeys
  intro s n hn j sets drops
  refine ⟨fun asid => ?_, fun v => jobSlot_registers hn v, fun v => s.onJob_sets hn _ rfl rfl, fun g ws hw => jobSlot_keys hn g ws hw⟩
  intro other
  refine ⟨fun hv => congrArg Host.Outcome.next (if_pos hv), fun hv h => s.onJob_sets hn (fun x => { x with asid := asid }) ?_ rfl,
    fun hv hr ho => jobSlot_validates hn asid hv hr ho,
    fun hv => ⟨_, congrArg Host.Outcome.next (if_pos hv), s.dropRanks_drops n _, (s.dropRanks n).onJob_job hn _,
      fun m hm => (s.dropRanks n).onJob_other _ hm⟩,
    fun hv => s.onJob_sets hn (fun x => { x with asid := asid }) (congrArg Host.Outcome.next (if_neg (by rw [hv]; decide))) rfl⟩
  have hbad : (decide ((s.job n).last < (s.job n).rank) || (s.jobs.mapIdx fun i x => i != n && x.v && x.asid == asid).any id) = true := by
    rw [Bool.or_eq_true, decide_eq_true_eq, s.otherJob_iff]
    exact h
  refine congrArg Host.Outcome.next ((if_neg (by rw [hv]; decide)).trans (if_pos ?_))
  exact hbad

end Sys2Proof.Machine
end
section
/-! PROOFS. Grant tokens (R324, R325). -/
namespace Sys2Proof.Machine

/-! ### One lane -/

section
variable {s : State} {id : SId} (f : State → Stream → Word × State)

theorem State.eachLane_one : s.eachLane f [id] = ([(id, (f s (s.stream id)).1)], (f s (s.stream id)).2) := rfl
theorem laneWord_one (w : Word) : laneWord [(id, w)] id = w := by simp [laneWord]
theorem State.retireLanes_word {g : Guard} {t : State} (hl : t.cur.lanes = [id]) (w : Word) (k : Stream → Stream) (d : Reg) :
    (t.retireLanes g fun st => (k st).wr d (laneWord [(id, w)] st.id)) = t.completed g fun st => (k st).wr d w := by
  have h : ∀ st ∈ t.streams, (if st.id ∈ t.cur.lanes then
      (if guardHolds g st then (k st).wr d (laneWord [(id, w)] st.id) else st).goto t.cur.npc else st) =
      if st.id ∈ t.cur.lanes then (if guardHolds g st then (k st).wr d w else st).goto t.cur.npc else st := fun st _ => by
    split
    · rename_i hm
      rw [hl] at hm
      rw [List.mem_singleton.mp hm, laneWord_one]
    · rfl
  exact congrArg (fun ss => { t with streams := ss }) (List.map_congr_left h)
end

/-! ### The token store (R324) -/

/-- The token is the one of a key. -/
def Token.isOf (x : Token) (asid : BitVec 16) (rank region : Nat) : Bool := x.asid == asid && x.rank == rank && x.region == region
theorem State.tokenOf_eq (s : State) (asid : BitVec 16) (rank region : Nat) :
    s.tokenOf asid rank region = (s.tokens.find? fun x => x.isOf asid rank region).map (·.tok) := by
  unfold State.tokenOf Token.isOf
  congr 2
theorem State.tokenOf_isSome (s : State) (asid : BitVec 16) (rank region : Nat) :
    (s.tokens.any fun x => x.isOf asid rank region) = (s.tokenOf asid rank region).isSome := by
  rw [State.tokenOf_eq, Option.isSome_map, Bool.eq_iff_iff, List.find?_isSome, List.any_eq_true]
/-- A token has one key. -/
theorem Token.isOf_unique {x : Token} {asid a : BitVec 16} {rank r region g : Nat} (h : x.isOf asid rank region = true)
    (h' : x.isOf a r g = true) : (a, r, g) = (asid, rank, region) := by
  simp only [Token.isOf, Bool.and_eq_true, beq_iff_eq] at h h'
  obtain ⟨⟨h1, h2⟩, h3⟩ := h
  obtain ⟨⟨h4, h5⟩, h6⟩ := h'
  rw [← h4, ← h5, ← h6, h1, h2, h3]

section
variable (s : State) (asid : BitVec 16) (rank region : Nat) (tok : DWord)

/-- The store with the token of a key replaced. -/
def State.replaceToken : State :=
  { s with tokens := s.tokens.map fun x => if x.isOf asid rank region then { x with tok := tok } else x }
def State.addToken : State := { s with tokens := s.tokens ++ [⟨asid, rank, region, tok⟩] }
def State.dropToken : State := { s with tokens := s.tokens.filter fun x => !x.isOf asid rank region }

theorem State.replaceToken_tokenOf (h : s.tokenOf asid rank region ≠ none) :
    (s.replaceToken asid rank region tok).tokenOf asid rank region = some tok ∧
      ∀ a r g, (a, r, g) ≠ (asid, rank, region) → (s.replaceToken asid rank region tok).tokenOf a r g = s.tokenOf a r g := by
  let f : Token → Token := fun x => if x.isOf asid rank region then { x with tok := tok } else x
  have hkey : ∀ a r g, (fun x : Token => x.isOf a r g) ∘ f = fun x => x.isOf a r g := fun a r g => by
    funext x
    dsimp only [Function.comp, f]
    split <;> rfl
  have hfind : ∀ a r g, (s.replaceToken asid rank region tok).tokenOf a r g =
      ((s.tokens.find? fun x => x.isOf a r g).map f).map (·.tok) := fun a r g => by
    rw [State.tokenOf_eq, State.replaceToken, List.find?_map, hkey]
  refine ⟨?_, fun a r g hne => ?_⟩
  · rw [hfind]
    rw [State.tokenOf_eq] at h
    cases hx : s.tokens.find? fun x => x.isOf asid rank region with
    | none => rw [hx] at h; exact absurd rfl h
    | some x =>
      have hi : x.isOf asid rank region = true := List.find?_some (p := fun x : Token => x.isOf asid rank region) hx
      simp [f, hi]
  · rw [hfind, State.tokenOf_eq]
    cases hx : s.tokens.find? fun x => x.isOf a r g with
    | none => rfl
    | some x =>
      have hi : x.isOf a r g = true := List.find?_some (p := fun x : Token => x.isOf a r g) hx
      have hno : ¬x.isOf asid rank region = true := fun h' => hne (Token.isOf_unique h' hi)
      simp [f, hno]
theorem State.addToken_tokenOf (h : s.tokenOf asid rank region = none) :
    (s.addToken asid rank region tok).tokenOf asid rank region = some tok ∧
      ∀ a r g, (a, r, g) ≠ (asid, rank, region) → (s.addToken asid rank region tok).tokenOf a r g = s.tokenOf a r g := by
  refine ⟨?_, fun a r g hne => ?_⟩
  · rw [State.tokenOf_eq, Option.map_eq_none_iff] at h
    rw [State.tokenOf_eq, State.addToken, List.find?_append, h]
    simp [Token.isOf]
  · have hno : (⟨asid, rank, region, tok⟩ : Token).isOf a r g = false :=
      Bool.eq_false_iff.mpr fun h' => hne (Token.isOf_unique (by simp [Token.isOf]) h')
    rw [State.tokenOf_eq, State.tokenOf_eq, State.addToken, List.find?_append]
    simp [hno]
theorem State.dropToken_tokenOf : (s.dropToken asid rank region).tokenOf asid rank region = none ∧
    ∀ a r g, (a, r, g) ≠ (asid, rank, region) → (s.dropToken asid rank region).tokenOf a r g = s.tokenOf a r g := by
  refine ⟨?_, fun a r g hne => ?_⟩
  · rw [State.tokenOf_eq, Option.map_eq_none_iff, List.find?_eq_none]
    intro x hx
    have := (List.mem_filter.mp hx).2
    simpa using this
  · rw [State.tokenOf_eq, State.tokenOf_eq, State.dropToken, List.find?_filter]
    congr 2
    funext x
    by_cases hx : x.isOf a r g = true
    · have hno : x.isOf asid rank region = false := Bool.eq_false_iff.mpr fun h' => hne (Token.isOf_unique h' hx)
      simp [hx, hno]
    · simp [hx]
end

/-! ### The results of R325 -/

theorem rankWord_eq (r : Word) : (r.extractLsb' 0 17).toNat = r.toNat % 2 ^ 17 := by simp
theorem rankWord_rsvd (r : Word) : r.extractLsb' 17 15 ≠ 0 ↔ r.toNat / 2 ^ 17 ≠ 0 := by
  have h : (r.extractLsb' 17 15).toNat = r.toNat / 2 ^ 17 := by
    have := r.isLt
    simp only [BitVec.extractLsb'_toNat, Nat.shiftRight_eq_div_pow]
    omega
  rw [← h, not_iff_not]
  exact ⟨fun e => by rw [e]; rfl, fun e => BitVec.eq_of_toNat_eq e⟩
/-- A rank word that names no rank of the job. -/
def badRank (last : Nat) (r : Word) : Prop := last < r.toNat % 2 ^ 17 ∨ r.toNat / 2 ^ 17 ≠ 0
theorem badRank_iff (last : Nat) (r : Word) :
    (decide (last < (r.extractLsb' 0 17).toNat) || decide (r.extractLsb' 17 15 ≠ 0)) = true ↔ badRank last r := by
  rw [Bool.or_eq_true, decide_eq_true_eq, decide_eq_true_eq, rankWord_eq, rankWord_rsvd]
  rfl

section
variable {s : State} {asid : BitVec 16} {t : DWord} {r : Word} {n : Nat} (hj : s.jobOf asid = some n)

theorem State.installToken_jobless (h : s.jobOf asid = none) : s.installToken asid t r = (4, s) := by rw [State.installToken, h]
include hj
theorem State.installToken_rank (hb : badRank (s.job n).last r) : s.installToken asid t r = (5, s) := by
  rw [State.installToken, hj]
  exact if_pos ((badRank_iff _ r).mpr hb)
theorem State.installToken_shape (hb : ¬badRank (s.job n).last r) (h : tokRights t = 0 ∨ tokSize t < 12 ∨ 40 < tokSize t) :
    s.installToken asid t r = (3, s) := by
  rw [State.installToken, hj]
  refine (if_neg (mt (badRank_iff _ r).mp hb)).trans (if_pos ?_)
  simpa [or_assoc] using h
theorem State.installToken_stores (hb : ¬badRank (s.job n).last r) (h1 : tokRights t ≠ 0) (h2 : 12 ≤ tokSize t) (h3 : tokSize t ≤ 40) :
    s.installToken asid t r = if 1048576 ≤ s.tokens.length then (2, s)
      else if (s.tokenOf asid (r.toNat % 2 ^ 17) (tokRegion t)).isSome then
        (1, s.replaceToken asid (r.toNat % 2 ^ 17) (tokRegion t) t)
      else (0, s.addToken asid (r.toNat % 2 ^ 17) (tokRegion t) t) := by
  rw [← State.tokenOf_isSome, ← rankWord_eq, State.installToken, hj]
  refine (if_neg (mt (badRank_iff _ r).mp hb)).trans ((if_neg ?_).trans rfl)
  have h4 : ¬tokSize t < 12 := by omega
  have h5 : ¬40 < tokSize t := by omega
  rw [decide_eq_false h1, decide_eq_false h4, decide_eq_false h5]
  decide
end
section
variable {s : State} {asid : BitVec 16} {r : Word} {n region : Nat} (hj : s.jobOf asid = some n)

theorem State.removeToken_jobless (h : s.jobOf asid = none) : s.removeToken asid r region = (4, s) := by rw [State.removeToken, h]
include hj
theorem State.removeToken_rank (hb : badRank (s.job n).last r) : s.removeToken asid r region = (5, s) := by
  rw [State.removeToken, hj]
  exact if_pos ((badRank_iff _ r).mpr hb)
theorem State.removeToken_drops (hb : ¬badRank (s.job n).last r) : s.removeToken asid r region =
    if (s.tokenOf asid (r.toNat % 2 ^ 17) region).isSome then (0, s.dropToken asid (r.toNat % 2 ^ 17) region) else (6, s) := by
  rw [← State.tokenOf_isSome, ← rankWord_eq, State.removeToken, hj]
  exact (if_neg (mt (badRank_iff _ r).mp hb)).trans rfl
end

/-! ### `rgtok` and `rgtok.rm` of one lane -/

section
variable {s t : State} {id : SId} {v : Word}

theorem exec_rgtok {o : AluR} (ha : s.Alone o.g id)
    (h : s.installToken s.curTeam.recd.asid ((s.stream id).rd64 o.s1) ((s.stream id).rd o.s2) = (v, t)) (hl : t.cur = s.cur) :
    exec (.rgtok o) s = .next (t.completed o.g fun st => ((st.kill64 o.s1 o.k1).kill o.s2 o.k2).wr o.d v) := by
  obtain ⟨hlanes, hg, -⟩ := ha
  change execRgtok o s = _
  rw [execRgtok, State.active_one hlanes hg, State.eachLane_one]
  dsimp only
  rw [h]
  exact congrArg Host.Outcome.next
    (State.retireLanes_word (by rw [hl]; exact hlanes) v (fun st => (st.kill64 o.s1 o.k1).kill o.s2 o.k2) o.d)
theorem exec_rgtokRm {g : Guard} {d s2 : Reg} {k2 : Bool} {region : BitVec 5} (ha : s.Alone g id)
    (h : s.removeToken s.curTeam.recd.asid ((s.stream id).rd s2) region.toNat = (v, t)) (hl : t.cur = s.cur) :
    exec (.rgtokRm g d s2 k2 region) s = .next (t.completed g fun st => (st.kill s2 k2).wr d v) := by
  obtain ⟨hlanes, hg, -⟩ := ha
  change execRgtokRm g d s2 k2 region s = _
  rw [execRgtokRm, State.active_one hlanes hg, State.eachLane_one]
  dsimp only
  rw [h]
  exact congrArg Host.Outcome.next (State.retireLanes_word (by rw [hl]; exact hlanes) v (fun st => st.kill s2 k2) d)
end

/-- Settles O53: the five outcomes of an install and the four of a removal, over the store as a map by key. -/
theorem grantTokensAreStored : Obligations.GrantTokensAreStored := by
  unfold Obligations.GrantTokensAreStored
  intro s id st asid bad others
  refine ⟨fun o ha => ?_, fun g d s2 k2 region ha => ?_⟩
  · intro tok r rank answers stores
    refine ⟨fun hj => exec_rgtok ha (State.installToken_jobless hj) rfl, fun n hj =>
      ⟨fun hb => exec_rgtok ha (State.installToken_rank hj hb) rfl, fun hb =>
        ⟨fun h => exec_rgtok ha (State.installToken_shape hj hb h) rfl, fun h1 h2 h3 => ?_⟩⟩⟩
    have he := State.installToken_stores hj hb h1 h2 h3
    refine ⟨fun hf => exec_rgtok ha (he.trans (if_pos hf)) rfl, fun hr hs => ?_, fun hr hs => ?_⟩
    · have hs' : (s.tokenOf asid rank (tokRegion tok)).isSome = true := Option.isSome_iff_ne_none.mpr hs
      exact ⟨_, exec_rgtok ha (he.trans ((if_neg (by omega)).trans (if_pos hs'))) rfl, rfl, s.replaceToken_tokenOf asid rank _ tok hs⟩
    · have hs' : ¬(s.tokenOf asid rank (tokRegion tok)).isSome = true := by rw [hs]; decide
      exact ⟨_, exec_rgtok ha (he.trans ((if_neg (by omega)).trans (if_neg hs'))) rfl, rfl, s.addToken_tokenOf asid rank _ tok hs⟩
  · intro r rank answers
    refine ⟨fun hj => exec_rgtokRm ha (State.removeToken_jobless hj) rfl, fun n hj =>
      ⟨fun hb => exec_rgtokRm ha (State.removeToken_rank hj hb) rfl, fun hb hs => ?_, fun hb hs => ?_⟩⟩
    · have hs' : ¬(s.tokenOf asid rank region.toNat).isSome = true := by rw [hs]; decide
      exact exec_rgtokRm ha ((State.removeToken_drops hj hb).trans (if_neg hs')) rfl
    · have hs' : (s.tokenOf asid rank region.toNat).isSome = true := Option.isSome_iff_ne_none.mpr hs
      exact ⟨_, exec_rgtokRm ha ((State.removeToken_drops hj hb).trans (if_pos hs')) rfl, rfl, s.dropToken_tokenOf asid rank region.toNat⟩

end Sys2Proof.Machine
end
section
/-! PROOFS. Work queues (R385 to R387). -/
namespace Sys2Proof.Machine

/-! ### One queue and one instance -/

theorem State.setWq_wq (s : State) (n : Nat) (q : WorkQ) : (s.setWq n q).wq n = { q with ver := (s.wq n).ver + 1 } := sget_sset_same ..
theorem State.setWq_other (s : State) {n k : Nat} (q : WorkQ) (h : k ≠ n) : (s.setWq n q).wq k = s.wq k := sget_sset_other _ _ _ h
theorem State.onInst_inst? (s : State) (k : Nat) {f : Inst → Inst} (hf : ∀ i : Inst, (f i).num = i.num) :
    (s.onInst k f).inst? k = (s.inst? k).map f := by
  simp only [State.inst?, State.onInst, List.find?_map]
  have hp : ((fun i : Inst => decide (i.num = k)) ∘ fun i => if i.num = k then f i else i) = fun i => decide (i.num = k) := by
    funext i
    dsimp only [Function.comp]
    split
    · rw [hf]
    · rfl
  rw [hp]
  cases h : s.co.insts.find? fun i => i.num = k with
  | none => rfl
  | some i =>
    have hi : i.num = k := by simpa using List.find?_some h
    simp [hi]
theorem State.inst?_num {s : State} {k : Nat} {i : Inst} (h : s.inst? k = some i) : i.num = k := by
  simpa using List.find?_some h

/-! ### WQ_n_CTL (R385) -/

/-- A stream after the queue it waits on has lost its owner. -/
def Stream.ownerLost (n : Nat) (st : Stream) : Stream :=
  match st.park with
  | .wqpop m o => if m = n then ((st.kill o.s1 o.k1).wr o.d 0xFFFFFFFF).goto (st.pc + 8) else st
  | _ => if st.room.any fun r => r.1 = n then { st with room := some (n, true) } else st
theorem Stream.ownerLost_id (n : Nat) (st : Stream) : (st.ownerLost n).id = st.id := by
  unfold Stream.ownerLost
  split
  · split
    · exact (Stream.wr_id _ _ _).trans (Stream.kill_id _ _ _)
    · rfl
  · split <;> rfl
/-- A queue whose owner loses it, before its new owner is written. -/
def State.wqLost (s : State) (n : Nat) : State :=
  let s1 := s.setWq n { s.wq n with state := 1, entries := [] }
  { s1 with
    co := { s1.co with insts := s1.co.insts.map fun i => if i.desc.workq == some n then { i with pushes := [] } else i }
    streams := s.streams.map (Stream.ownerLost n) }
theorem State.wqWrite_owned {s : State} {n : Nat} {w : Word} (hv : (s.wq n).v = true)
    (h : w.getLsbD 31 = false ∨ (s.wq n).asid ≠ w.extractLsb' 0 16) :
    s.wqWrite n w = (s.wqLost n).setWq n (if w.getLsbD 31 then
      { (s.wqLost n).wq n with v := true, asid := w.extractLsb' 0 16, state := 0, entries := [] }
      else { (s.wqLost n).wq n with v := false, asid := w.extractLsb' 0 16 }) := by
  have hc : ¬(w.getLsbD 31 && (s.wq n).asid == w.extractLsb' 0 16) = true := by
    intro hc
    simp only [Bool.and_eq_true, beq_iff_eq] at hc
    rcases h with h | h
    · rw [hc.1] at h
      exact Bool.noConfusion h
    · exact h hc.2
  refine (if_pos hv).trans ((if_neg hc).trans ?_)
  cases w.getLsbD 31 <;> rfl
theorem State.wqWrite_free {s : State} {n : Nat} {w : Word} (hv : (s.wq n).v = false) :
    s.wqWrite n w = s.setWq n (if w.getLsbD 31 then { s.wq n with v := true, asid := w.extractLsb' 0 16, state := 0, entries := [] }
      else { s.wq n with asid := w.extractLsb' 0 16 }) := by
  refine (if_neg (by rw [hv]; decide)).trans ?_
  cases w.getLsbD 31 <;> rfl
theorem State.wqLost_stream {s : State} {n : Nat} {id : SId} (hp : s.Present [id]) (q : WorkQ) :
    ((s.wqLost n).setWq n q).stream id = (s.stream id).ownerLost n := by
  have h := s.stream?_map (Stream.ownerLost n) (Stream.ownerLost_id n) id
  have hs := hp id (List.mem_singleton_self id)
  rw [State.stream, State.stream]
  change (State.stream? { s with streams := s.streams.map (Stream.ownerLost n) } id).getD _ = _
  rw [h]
  obtain ⟨st, hst⟩ := Option.isSome_iff_exists.mp hs
  rw [hst]
  rfl

theorem queue_control (s : State) (n : Nat) (v : Word) (hn : n < 256) :
    let q := s.wq n
    let asid := v.extractLsb' 0 16
    let holds := fun (t : State) (own : Bool) => exec (.wqCtlWrite n v) s = .next t ∧ (t.wq n).v = own ∧ (t.wq n).asid = asid ∧
      (∀ k, k ≠ n → t.wq k = s.wq k) ∧ t.mem = s.mem ∧ t.ops = s.ops
    (q.v = true → v.msb = true → q.asid = asid → exec (.wqCtlWrite n v) s = .next s) ∧
    (q.v = false → ∃ t, holds t v.msb ∧ t.streams = s.streams ∧
      (v.msb = true → (t.wq n).state = 0 ∧ (t.wq n).entries = [])) ∧
    (q.v = true → v.msb = false ∨ q.asid ≠ asid → ∃ t, holds t v.msb ∧ (t.wq n).entries = [] ∧
      (t.wq n).state = (if v.msb then 0 else 1) ∧
      (∀ id o, s.Present [id] → (s.stream id).park = .wqpop n o →
        t.stream id = (((s.stream id).kill o.s1 o.k1).wr o.d 0xFFFFFFFF).goto ((s.stream id).pc + 8)) ∧
      ∀ id b, s.Present [id] → (s.stream id).popping = none → (s.stream id).room = some (n, b) →
        t.stream id = { s.stream id with room := some (n, true) }) := by
  intro q asid holds
  have hmsb : v.msb = v.getLsbD 31 := BitVec.msb_eq_getLsbD_last v
  have hex : exec (.wqCtlWrite n v) s = .next (s.wqWrite n v) := congrArg Host.Outcome.next (if_pos hn)
  refine ⟨fun hv hm ha => hex.trans (congrArg Host.Outcome.next ?_), fun hv => ?_, fun hv h => ?_⟩
  · refine (if_pos hv).trans (if_pos ?_)
    rw [← hmsb, hm, ha]
    exact beq_self_eq_true _
  · rw [State.wqWrite_free hv, ← hmsb] at hex
    cases hm : v.msb with
    | true =>
      rw [hm] at hex
      refine ⟨_, ⟨hex, ?_, ?_, fun k hk => s.setWq_other _ hk, rfl, rfl⟩, rfl, fun _ => ?_⟩
      · rw [State.setWq_wq]; rfl
      · rw [State.setWq_wq]; rfl
      · rw [State.setWq_wq]; exact ⟨rfl, rfl⟩
    | false =>
      rw [hm] at hex
      refine ⟨_, ⟨hex, ?_, ?_, fun k hk => s.setWq_other _ hk, rfl, rfl⟩, rfl, fun h => Bool.noConfusion h⟩
      · rw [State.setWq_wq]; exact hv
      · rw [State.setWq_wq]; rfl
  · rw [State.wqWrite_owned hv (by rw [← hmsb]; exact h), ← hmsb] at hex
    have hlost : (s.wqLost n).wq n = { s.wq n with state := 1, entries := [], ver := (s.wq n).ver + 1 } := s.setWq_wq n _
    have hoth : ∀ k q', k ≠ n → ((s.wqLost n).setWq n q').wq k = s.wq k := fun k q' hk =>
      ((s.wqLost n).setWq_other q' hk).trans (s.setWq_other _ hk)
    refine ⟨_, ⟨hex, ?_, ?_, fun k hk => hoth k _ hk, rfl, rfl⟩, ?_, ?_, fun id o hp hk => ?_, fun id b hp hk hr => ?_⟩
    · rw [State.setWq_wq]
      cases v.msb <;> rfl
    · rw [State.setWq_wq]
      cases v.msb <;> rfl
    · rw [State.setWq_wq, hlost]
      cases v.msb <;> rfl
    · rw [State.setWq_wq, hlost]
      cases v.msb <;> rfl
    · rw [State.wqLost_stream hp, Stream.ownerLost, hk]
      exact if_pos rfl
    · rw [State.wqLost_stream hp]
      have hroom : ((s.stream id).room.any fun r => r.1 = n) = true := by rw [hr]; simp
      unfold Stream.popping at hk
      unfold Stream.ownerLost
      split
      · rename_i m o hpk
        rw [hpk] at hk
        exact absurd hk (Option.some_ne_none m)
      · exact if_pos hroom

/-! ### `wqpush` (R387) -/

section
variable {g : Guard} {s1 s2 : Reg} {k1 k2 : Bool} {s : State} {low : SId} {rest : List SId} (hact : s.active g = low :: rest)

include hact
theorem State.lowest_of : s.lowest g = some (s.stream low) := by
  rw [State.lowest, hact]
  rfl
theorem exec_wqpush_named {n : Nat} (hn : s.wqNumber (s.stream low) s1 = some n) : exec (.wqpush g s1 k1 s2 k2) s = .next (
    if (decide ((s.wq n).state ≠ 0) || (((low :: rest).map fun id => (s.stream id).rd s2).any fun v => decide (0xFFFFFFFE ≤ v.toNat)) ||
      (low :: rest).any fun id => (s.stream id).roomLost) = true then s.trapLow g cIllegalOperand
    else if s.nearPending (low :: rest) 0b00011 then s.stalled
    else if wqSize < (s.wq n).entries.length + ((low :: rest).map fun id => (s.stream id).rd s2).length then s.awaitRoom (low :: rest) n
    else ((s.releaseTag s.curTag).wqAppend n ((low :: rest).map fun id => (s.stream id).rd s2)).retireLanes g
      fun st => (st.kill s1 k1).kill s2 k2) := by
  change execWqpush g s1 k1 s2 k2 s = _
  rw [execWqpush, State.lowest_of hact, hact]
  dsimp only
  rw [hn]
theorem exec_wqState {f : WorkQ → WorkQ} {i : Instr} (hi : exec i s = .next (s.wqState g s1 k1 f)) :
    (s.wqNumber (s.stream low) s1 = none → exec i s = .next (s.trapLow g cIllegalOperand)) ∧
    ∀ n, s.wqNumber (s.stream low) s1 = some n →
      ∃ t : State, (t = { s with co := { s.co with wqs := t.co.wqs } } ∧ t.wq n = { f (s.wq n) with ver := (s.wq n).ver + 1 } ∧
        ∀ k, k ≠ n → t.wq k = s.wq k) ∧ exec i s = .next (t.completed g fun st => st.kill s1 k1) := by
  rw [hi, State.wqState, State.lowest_of hact]
  refine ⟨fun h => ?_, fun n h => ?_⟩
  · dsimp only
    rw [h]
  · dsimp only
    rw [h]
    exact ⟨s.setWq n (f (s.wq n)), ⟨rfl, s.setWq_wq n _, fun k hk => s.setWq_other _ hk⟩, rfl⟩
end

/-- Lanes that wait for room (R387). -/
theorem State.awaitRoom_waits {s : State} {ids : List SId} (h : ids ⊆ s.cur.lanes) (n : Nat) :
    s.OnlyStreams (s.awaitRoom ids n) s.cur.lanes ∧ ∀ id ∈ ids, s.Present [id] →
      (s.awaitRoom ids n).stream id = { s.stream id with room := some (n, false) }.hold s.clock.cycles := by
  let f : Stream → Stream := fun st => { st with room := some (n, false) }
  let f' : Stream → Stream := fun st => st.hold s.clock.cycles
  have hf : ∀ st : Stream, (f st).id = st.id := fun _ => rfl
  have hf' : ∀ st : Stream, (f' st).id = st.id := fun _ => rfl
  refine ⟨((s.onLanes_onlyStreams hf ids).mono h).trans ((s.onLanes ids f).onLanes_onlyStreams hf' _), fun id hid hp => ?_⟩
  have hm := List.mem_singleton_self id
  refine ((s.onLanes ids f).onLanes_listed hf' (h hid) (s.onLanes_present hf hp id hm)).trans ?_
  rw [s.onLanes_listed hf hid (hp id hm)]

theorem queue_pushes (g : Guard) (s1 s2 : Reg) (k1 k2 : Bool) (s : State) (low : SId) (rest : List SId)
    (hact : s.active g = low :: rest) :
    let ids := low :: rest
    let vals := ids.map fun id => (s.stream id).rd s2
    let now := fun (t : State) (n : Nat) (q : WorkQ) => t = { s with co := { s.co with wqs := t.co.wqs } } ∧
      t.wq n = { q with ver := (s.wq n).ver + 1 } ∧ ∀ k, k ≠ n → t.wq k = s.wq k
    (s.wqNumber (s.stream low) s1 = none → exec (.wqpush g s1 k1 s2 k2) s = .next (s.trapLow g 0x03) ∧
      exec (.wqpushClose g s1 k1) s = .next (s.trapLow g 0x03) ∧ exec (.wqpushReopen g s1 k1) s = .next (s.trapLow g 0x03)) ∧
    ∀ n, s.wqNumber (s.stream low) s1 = some n →
      let q := s.wq n
      let fits := ∀ v ∈ vals, v.toNat < 0xFFFFFFFE
      let lost := ∃ id ∈ ids, ∃ m, (s.stream id).room = some (m, true)
      (q.state ≠ 0 ∨ ¬fits ∨ lost → exec (.wqpush g s1 k1 s2 k2) s = .next (s.trapLow g 0x03)) ∧
      (q.state = 0 → fits → ¬lost → s.nearPending ids 0b00011 = false → s.vt.migrateMode = false →
        (q.entries.length + vals.length ≤ 1024 → ∃ t, now t n { q with entries := q.entries ++ vals } ∧
          exec (.wqpush g s1 k1 s2 k2) s = .next (t.completed g fun st => (st.kill s1 k1).kill s2 k2)) ∧
        (1024 < q.entries.length + vals.length → ∃ t, exec (.wqpush g s1 k1 s2 k2) s = .next t ∧ s.OnlyStreams t s.cur.lanes ∧
          ∀ id ∈ ids, s.Present [id] → t.stream id = { s.stream id with room := some (n, false) }.hold s.clock.cycles)) ∧
      (∃ t, now t n { q with state := if q.state = 0 then 1 else q.state } ∧
        exec (.wqpushClose g s1 k1) s = .next (t.completed g fun st => st.kill s1 k1)) ∧
      (∃ t, now t n { q with state := 0, entries := [] } ∧
        exec (.wqpushReopen g s1 k1) s = .next (t.completed g fun st => st.kill s1 k1)) := by
  intro ids vals now
  have hclose := exec_wqState hact (s1 := s1) (k1 := k1) (f := fun q => { q with state := if q.state = 0 then 1 else q.state })
    (i := .wqpushClose g s1 k1) rfl
  have hopen := exec_wqState hact (s1 := s1) (k1 := k1) (f := fun q => { q with state := 0, entries := [] })
    (i := .wqpushReopen g s1 k1) rfl
  refine ⟨fun h => ⟨?_, hclose.1 h, hopen.1 h⟩, fun n hn => ?_⟩
  · change execWqpush g s1 k1 s2 k2 s = _
    rw [execWqpush, State.lowest_of hact]
    dsimp only
    rw [h]
    rfl
  · intro q fits lost
    have hex := exec_wqpush_named hact (k1 := k1) (k2 := k2) (s2 := s2) hn
    have hfits : (vals.any fun v => decide (0xFFFFFFFE ≤ v.toNat)) = true ↔ ¬fits := by
      rw [List.any_eq_true, not_forall]
      simp only [decide_eq_true_eq, Classical.not_imp, Nat.not_lt]
    have hlost : (ids.any fun id => (s.stream id).roomLost) = true ↔ lost := by
      rw [List.any_eq_true]
      refine exists_congr fun id => and_congr_right fun _ => ?_
      rw [Stream.roomLost]
      cases (s.stream id).room with
      | none => simp
      | some r =>
        obtain ⟨m, b⟩ := r
        simp
    have hbad : (decide (q.state ≠ 0) || (vals.any fun v => decide (0xFFFFFFFE ≤ v.toNat)) || ids.any fun id => (s.stream id).roomLost) =
        true ↔ q.state ≠ 0 ∨ ¬fits ∨ lost := by
      rw [Bool.or_eq_true, Bool.or_eq_true, decide_eq_true_eq, hfits, hlost, or_assoc]
    refine ⟨fun h => hex.trans (congrArg Host.Outcome.next (if_pos (hbad.mpr h))), fun h0 hf hl hp hm => ?_, hclose.2 n hn, hopen.2 n hn⟩
    have hex' := hex.trans (congrArg Host.Outcome.next ((if_neg fun hb => (hbad.mp hb).elim (fun h => h h0) fun h =>
      h.elim (fun h => h hf) hl).trans (if_neg (by rw [hp]; decide))))
    have hsub : ids ⊆ s.cur.lanes := fun id hid => s.active_subset g (hact ▸ hid)
    refine ⟨fun hr => ⟨s.wqAppend n vals, ⟨rfl, s.setWq_wq n _, fun k hk => s.setWq_other _ hk⟩, ?_⟩, fun hr => ⟨s.awaitRoom ids n, ?_,
      State.awaitRoom_waits hsub n⟩⟩
    · refine hex'.trans (congrArg Host.Outcome.next ((if_neg (Nat.not_lt.mpr hr)).trans ?_))
      rw [State.releaseTag, hm]
      rfl
    · exact hex'.trans (congrArg Host.Outcome.next (if_pos hr))

/-! ### `wqpop` of one lane (R387) -/

/-- The lane before it takes its entry. -/
def State.popReady (s : State) (g : Guard) (id : SId) : State :=
  ((s.acquired .acq [id]).skipLanes g).onLanes [] fun st => st.hold s.clock.cycles
section
variable {o : Alu1} {s : State} {id : SId} (ha : s.Alone o.g id) (hf : (s.stream id).flush = none)
include ha hf

theorem State.popReady_only : s.OnlyStreams (s.popReady o.g id) [id] ∧ (s.popReady o.g id).stream id = s.stream id ∧
    (s.popReady o.g id).Present [id] := by
  obtain ⟨hl, hg, hp⟩ := ha
  have hfl : ∀ k ∈ [id], (s.stream k).flush = none := fun k hk => by rw [List.mem_singleton.mp hk]; exact hf
  have h1 : s.OnlyStreams (s.acquired .acq [id]) [id] := s.acquired_only .acq [id]
  have hs1 : (s.acquired .acq [id]).stream id = s.stream id := State.acquired_streams .acq hfl id
  have hl1 : (s.acquired .acq [id]).cur.lanes = [id] := by rw [s.acquired_cur]; exact hl
  have hg1 : guardHolds o.g ((s.acquired .acq [id]).stream id) = true := by rw [hs1]; exact hg
  have hp1 : (s.acquired .acq [id]).Present [id] := State.acquired_present hp
  have h2 : (s.acquired .acq [id]).OnlyStreams ((s.acquired .acq [id]).skipLanes o.g) [id] := by
    have h := (s.acquired .acq [id]).skipLanes_onlyStreams o.g
    rwa [hl1] at h
  have hs2 := State.skipLanes_one_stream hl1 hg1
  have hh : ∀ st : Stream, (st.hold s.clock.cycles).id = st.id := fun _ => rfl
  have h3 := ((s.acquired .acq [id]).skipLanes o.g).onLanes_onlyStreams hh []
  have hs3 := ((s.acquired .acq [id]).skipLanes o.g).onLanes_unlisted hh (List.not_mem_nil (a := id))
  have hp2 : ((s.acquired .acq [id]).skipLanes o.g).Present [id] := State.onLanes_present _ (fun st => by split <;> rfl) hp1
  exact ⟨(h1.trans h2).trans (h3.mono (List.nil_subset _)), hs3.trans (hs2.trans hs1), State.onLanes_present _ hh hp2⟩

/-- The lane takes from the queue that was named when it parked, or that it names now. -/
theorem exec_wqpop_pops {n : Nat}
    (hn : (s.stream id).popping = some n ∨ (s.stream id).popping = none ∧ s.wqNumber (s.stream id) o.s1 = some n) :
    exec (.wqpop o) s = .next ((s.popReady o.g id).popLane n o id) := by
  obtain ⟨hl, hg, hp⟩ := ha
  have hact : s.active o.g = [id] := State.active_one hl hg
  have hwait : s.flushWait [id] = false :=
    State.flushWait_false fun k hk => by rw [List.mem_singleton.mp hk]; exact hf
  have hrest : [id].filter (fun k => !([(id, n)].any fun l => l.1 = k)) = [] := by simp
  have hgo : (if s.flushWait ([(id, n)].map (·.1)) then s.stalled else
      [(id, n)].foldl (fun u l => u.popLane l.2 o l.1) (((s.acquired .acq ([(id, n)].map (·.1))).skipLanes o.g).onLanes
        ([id].filter fun k => !([(id, n)].any fun l => l.1 = k)) fun st => st.hold s.clock.cycles)) =
      (s.popReady o.g id).popLane n o id := by
    rw [hrest]
    exact if_neg (by rw [List.map_singleton, hwait]; decide)
  change execWqpop o s = _
  rw [execWqpop, State.lowest_of hact, hact]
  rcases hn with hn | ⟨hn, hq⟩
  · have hback : [id].filterMap (fun id => (s.stream id).popping.map fun n => (id, n)) = [(id, n)] := by simp [hn]
    dsimp only
    rw [hback]
    exact congrArg Host.Outcome.next hgo
  · have hback : [id].filterMap (fun id => (s.stream id).popping.map fun n => (id, n)) = [] := by simp [hn]
    dsimp only
    rw [hback, hq]
    exact congrArg Host.Outcome.next hgo
omit hf in
theorem exec_wqpop_unnamed (hn : (s.stream id).popping = none) (hq : s.wqNumber (s.stream id) o.s1 = none) :
    exec (.wqpop o) s = .next (s.trapLow o.g cIllegalOperand) := by
  obtain ⟨hl, hg, hp⟩ := ha
  have hact : s.active o.g = [id] := State.active_one hl hg
  have hback : [id].filterMap (fun id => (s.stream id).popping.map fun n => (id, n)) = [] := by simp [hn]
  change execWqpop o s = _
  rw [execWqpop, State.lowest_of hact, hact]
  dsimp only
  rw [hback, hq]
  rfl
end

/-- What `wqpop` writes when the lane goes on. -/
def Stream.popped (o : Alu1) (v : Word) (npc : DWord) (st : Stream) : Stream := ((st.kill o.s1 o.k1).wr o.d v).goto npc
theorem Stream.popped_id (o : Alu1) (v : Word) (npc : DWord) (st : Stream) : (st.popped o v npc).id = st.id :=
  (Stream.wr_id _ _ _).trans (Stream.kill_id _ _ _)
theorem State.popLane_ends {s u : State} {id : SId} (h : s.OnlyStreams u [id]) (hs : u.stream id = s.stream id) (hp : u.Present [id])
    (o : Alu1) (w : State) (v : Word) (hw : w = { u with co := { u.co with wqs := w.co.wqs } }) :
    let t := w.onLane id (Stream.popped o v s.cur.npc)
    t = { s with streams := t.streams, co := { s.co with wqs := t.co.wqs } } ∧
      t.stream id = (((s.stream id).kill o.s1 o.k1).wr o.d v).goto s.cur.npc ∧ ∀ k, k ≠ id → t.stream? k = s.stream? k := by
  have hst : w.streams = u.streams := by rw [hw]
  have hpw : w.Present [id] := fun k hk => by rw [State.stream?_congr hst]; exact hp k hk
  obtain ⟨h1, h2⟩ := w.onLane_only (Stream.popped_id o v s.cur.npc) hpw
  refine ⟨?_, ?_, fun k hk => ?_⟩
  · rw [h1.1, hw, h.1]
  · rw [h2, State.stream_congr hst, hs]
    rfl
  · rw [h1.2 k (by simpa using hk), State.stream?_congr hst, h.2 k (by simpa using hk)]

theorem queue_pops (o : Alu1) (s : State) (id : SId) (ha : s.Alone o.g id) (hf : (s.stream id).flush = none) :
    let names := (s.wqNumber (s.stream id) o.s1)
    let ends := fun (t : State) (v : Word) => exec (.wqpop o) s = .next t ∧
      t = { s with streams := t.streams, co := { s.co with wqs := t.co.wqs } } ∧
      t.stream id = (((s.stream id).kill o.s1 o.k1).wr o.d v).goto s.cur.npc ∧ ∀ k, k ≠ id → t.stream? k = s.stream? k
    ((s.stream id).popping = none → names = none → exec (.wqpop o) s = .next (s.trapLow o.g 0x03)) ∧
    ∀ n, (s.stream id).popping = some n ∨ (s.stream id).popping = none ∧ names = some n →
      let q := s.wq n
      (∀ v r, q.entries = v :: r → ∃ t, ends t v ∧ t.wq n = { q with entries := r, ver := q.ver + 1 } ∧
        ∀ k, k ≠ n → t.wq k = s.wq k) ∧
      (q.entries = [] → q.state = 1 → ∃ t, ends t 0xFFFFFFFF ∧ t.co = s.co) ∧
      (q.entries = [] → q.state = 2 → ∃ t, ends t 0xFFFFFFFE ∧ t.co = s.co) ∧
      (q.entries = [] → q.state = 0 → ∃ t, exec (.wqpop o) s = .next t ∧ s.OnlyStreams t [id] ∧
        t.stream id = (s.stream id).parkAt (.wqpop n o)) := by
  intro names ends
  refine ⟨fun hn hq => exec_wqpop_unnamed ha hn hq, fun n hn => ?_⟩
  intro q
  have hex := exec_wqpop_pops ha hf hn
  obtain ⟨h1, h2, h3⟩ := State.popReady_only ha hf
  generalize hu : s.popReady o.g id = u at hex h1 h2 h3
  have hco : u.co = s.co := by rw [h1.1]
  have hq : u.wq n = q := by rw [State.wq, hco]; rfl
  have hnpc : u.cur.npc = s.cur.npc := by rw [h1.1]
  have hempty : ∀ v, q.entries = [] → q.state ≠ 0 → emptyResult q.state = v → ∃ t, ends t v ∧ t.co = s.co := fun v he h0 hv => by
    refine ⟨u.onLane id (Stream.popped o v s.cur.npc), ⟨hex.trans (congrArg Host.Outcome.next ?_),
      State.popLane_ends h1 h2 h3 o u v rfl⟩, hco⟩
    rw [State.popLane, hq, he, ← hv, ← hnpc]
    exact if_neg h0
  refine ⟨fun v r he => ?_, fun he h1' => hempty _ he (by omega) (by rw [h1']; rfl), fun he h2' => hempty _ he (by omega) (by rw [h2']; rfl),
    fun he h0 => ?_⟩
  · let w := u.setWq n { q with entries := r }
    have hw : ∀ k, (w.onLane id (Stream.popped o v s.cur.npc)).wq k = w.wq k := fun _ => rfl
    refine ⟨w.onLane id (Stream.popped o v s.cur.npc), ⟨hex.trans (congrArg Host.Outcome.next ?_),
      State.popLane_ends h1 h2 h3 o w v rfl⟩, ?_, fun k hk => ?_⟩
    · rw [State.popLane, hq, he, ← hnpc]
      rfl
    · rw [hw, State.setWq_wq, hq]
    · rw [hw, u.setWq_other _ hk, State.wq, hco]
      rfl
  · let f : Stream → Stream := fun st => st.parkAt (.wqpop n o)
    obtain ⟨h4, h5⟩ := u.onLane_only (f := f) (fun _ => rfl) h3
    refine ⟨u.onLane id f, hex.trans (congrArg Host.Outcome.next ?_), h1.trans h4, h5.trans (congrArg f h2)⟩
    rw [State.popLane, hq, he]
    exact if_pos h0

/-! ### WQ_CHUNK_PUSH (R386) -/

section
variable {s : State} {num c : Nat} {i : Inst} {n : Nat} (hi : s.inst? num = some i) (hw : i.desc.workq = some n)
include hi hw

theorem exec_wqChunkPush : exec (.wqChunkPush num c) s = .next (
    if (!(i.pushes.head? == some c)) = true then s
    else if (!((s.wq n).isOpen && (s.wq n).asid == i.asid)) = true then
      (s.onInst num fun i => { i with pushes := i.pushes.tail }).endInst num
    else if (s.wq n).entries.length < wqSize then
      ((s.onInst num fun i => { i with pushes := i.pushes.tail }).wqAppend n [BitVec.ofNat 32 c]).endInst num
    else s) := by
  change execWqChunkPush num c s = _
  rw [execWqChunkPush, hi]
  dsimp only
  rw [hw]

omit hw in
/-- The instance after it has dropped the identifier. -/
theorem State.pushed_inst? {r : List Nat} (hp : i.pushes = c :: r) :
    (s.onInst num fun i => { i with pushes := i.pushes.tail }).inst? num = some { i with pushes := r } := by
  have h := s.onInst_inst? num (f := fun i => { i with pushes := i.pushes.tail }) fun _ => rfl
  rw [hi] at h
  rw [h, Option.map_some, hp]
  rfl
end
theorem State.endInst_later {s : State} {num : Nat} {i : Inst} (hi : s.inst? num = some i)
    (h : i.final = false ∨ i.ended = true ∨ i.pushes ≠ []) : s.endInst num = s := by
  rw [State.endInst, hi]
  refine if_pos ?_
  rcases h with h | h | h
  · simp [h]
  · simp [h]
  · simp [h]
/-- The end of an instance that nothing but its queue waits for. -/
theorem State.endInst_queue {s : State} {num : Nat} {i : Inst} {n : Nat} (hi : s.inst? num = some i) (hw : i.desc.workq = some n)
    (hf : i.final = true) (he : i.ended = false) (hp : i.pushes = []) (hn : i.node = none) (ho : i.opener = none) :
    s.endInst num = if s.decides i then (s.onInst num fun i => { i with ended := true }).wqEnd n i.asid i.aborted.isSome
      else s.onInst num fun i => { i with ended := true } := by
  rw [State.endInst, hi]
  refine (if_neg (by simp [hf, he, hp])).trans ?_
  dsimp only
  rw [hw, ho, hn]
theorem State.wqEnd_keeps (s : State) (n : Nat) (asid : BitVec 16) (b : Bool) (num : Nat) :
    (s.wqEnd n asid b).inst? num = s.inst? num ∧ ((s.wqEnd n asid b).wq n).entries = (s.wq n).entries := by
  unfold State.wqEnd
  dsimp only
  split
  · exact ⟨rfl, by rw [State.setWq_wq]⟩
  · exact ⟨rfl, rfl⟩
theorem State.wqEnd_state {s : State} {n : Nat} {asid : BitVec 16} (h : (s.wq n).isOpen = true) (ha : (s.wq n).asid = asid) (b : Bool) :
    ((s.wqEnd n asid b).wq n).state = if b then 2 else 1 := by
  rw [State.wqEnd, if_pos (by rw [h, ha]; exact beq_self_eq_true _), State.setWq_wq]

theorem chunk_pushes (s : State) (num c : Nat) (i : Inst) (n : Nat) (hi : s.inst? num = some i) (hw : i.desc.workq = some n) :
    (i.pushes.head? ≠ some c → exec (.wqChunkPush num c) s = .next s) ∧
    (∀ r, i.pushes = c :: r →
      let opens := (s.wq n).isOpen = true ∧ (s.wq n).asid = i.asid
      (opens → 1024 ≤ (s.wq n).entries.length → exec (.wqChunkPush num c) s = .next s) ∧
      (i.final = false ∨ i.ended = true ∨ r ≠ [] →
        (opens → (s.wq n).entries.length < 1024 → ∃ t, exec (.wqChunkPush num c) s = .next t ∧
          t.inst? num = some { i with pushes := r } ∧ (t.wq n).entries = (s.wq n).entries ++ [BitVec.ofNat 32 c]) ∧
        (¬opens → ∃ t, exec (.wqChunkPush num c) s = .next t ∧ t = { s with co := { s.co with insts := t.co.insts } } ∧
          t.inst? num = some { i with pushes := r })) ∧
      (i.final = true → i.ended = false → r = [] → opens → (s.wq n).entries.length < 1024 → i.node = none → i.opener = none →
        ∃ t, exec (.wqChunkPush num c) s = .next t ∧ t.inst? num = some { i with pushes := [], ended := true } ∧
          (t.wq n).entries = (s.wq n).entries ++ [BitVec.ofNat 32 c] ∧
          ((∀ x ∈ s.co.insts, x.desc.workq = some n → x.asid = i.asid → x.final = true → x.ended = false → i.seq ≤ x.seq) →
            (t.wq n).state = if i.aborted.isSome then 2 else 1) ∧
          (∀ x ∈ s.co.insts, x.desc.workq = some n → x.asid = i.asid → x.final = true → x.ended = false → x.seq < i.seq → x.num ≠ num →
            (t.wq n).state = 0))) := by
  have hex := exec_wqChunkPush (c := c) hi hw
  refine ⟨fun h => hex.trans (congrArg Host.Outcome.next (if_pos (by simpa using h))), fun r hp => ?_⟩
  intro opens
  have hin := State.pushed_inst? hi hp
  let d := s.onInst num fun i => { i with pushes := i.pushes.tail }
  let u := d.wqAppend n [BitVec.ofNat 32 c]
  have hex' := hex.trans (congrArg Host.Outcome.next (if_neg (by simp [hp])))
  have hopen : opens → (!((s.wq n).isOpen && (s.wq n).asid == i.asid)) = false := fun h => by rw [h.1, h.2]; simp
  have hu : u.inst? num = some { i with pushes := r } := hin
  have huq : u.wq n = { s.wq n with entries := (s.wq n).entries ++ [BitVec.ofNat 32 c], ver := (s.wq n).ver + 1 } := d.setWq_wq n _
  refine ⟨fun h hl => ?_, fun hlater => ⟨fun h hl => ⟨u, ?_, hu, by rw [huq]⟩, fun h => ⟨d, ?_, rfl, hin⟩⟩,
    fun hf he hr h hl hn ho => ?_⟩
  · exact hex'.trans (congrArg Host.Outcome.next ((if_neg (by rw [hopen h]; decide)).trans (if_neg (Nat.not_lt.mpr hl))))
  · refine hex'.trans (congrArg Host.Outcome.next ((if_neg (by rw [hopen h]; decide)).trans ((if_pos hl).trans ?_)))
    exact State.endInst_later hu hlater
  · refine hex'.trans (congrArg Host.Outcome.next ((if_pos ?_).trans (State.endInst_later hin hlater)))
    rw [Bool.not_eq_true', Bool.eq_false_iff]
    simpa [opens] using h
  · subst hr
    have hend := State.endInst_queue hu hw hf he rfl hn ho
    let e := u.onInst num fun i => { i with ended := true }
    have hen : e.inst? num = some { i with pushes := [], ended := true } := by
      have h1 := u.onInst_inst? num (f := fun i => { i with ended := true }) fun _ => rfl
      rwa [hu] at h1
    have heq : e.wq n = u.wq n := rfl
    have hkeep := e.wqEnd_keeps n i.asid i.aborted.isSome num
    refine ⟨u.endInst num, ?_, ?_, ?_, fun hall => ?_, fun x hx hxw hxa hxf hxe hlt _ => ?_⟩
    · exact hex'.trans (congrArg Host.Outcome.next ((if_neg (by rw [hopen h]; decide)).trans (if_pos hl)))
    · rw [hend]
      split
      · exact hkeep.1.trans hen
      · exact hen
    · rw [hend]
      split
      · rw [hkeep.2, heq, huq]
      · exact (congrArg WorkQ.entries heq).trans (by rw [huq])
    · have hd : u.decides { i with pushes := [] } = true := by
        rw [State.decides, List.all_eq_true]
        intro x hx
        obtain ⟨y, hy, rfl⟩ := List.mem_map.mp hx
        have hfields : ∀ z : Inst, z = (if y.num = num then { y with pushes := y.pushes.tail } else y) →
            z.desc = y.desc ∧ z.asid = y.asid ∧ z.final = y.final ∧ z.ended = y.ended ∧ z.seq = y.seq := fun z hz => by
          rw [hz]
          split
          · exact ⟨rfl, rfl, rfl, rfl, rfl⟩
          · exact ⟨rfl, rfl, rfl, rfl, rfl⟩
        obtain ⟨h1, h2, h3, h4, h5⟩ := hfields _ rfl
        dsimp only
        rw [h1, h2, h3, h4, h5, hw]
        by_cases hc : y.desc.workq = some n ∧ y.asid = i.asid ∧ y.final = true ∧ y.ended = false
        · simp [hall y hy hc.1 hc.2.1 hc.2.2.1 hc.2.2.2]
        · by_contra hno
          simp only [Bool.not_eq_true, Bool.or_eq_false_iff, bne_eq_false_iff_eq, Bool.not_eq_false', decide_eq_false_iff_not] at hno
          obtain ⟨⟨⟨⟨n1, n2⟩, n3⟩, n4⟩, -⟩ := hno
          exact hc ⟨n1, n2, n3, n4⟩
      rw [hend, if_pos hd]
      refine State.wqEnd_state (s := e) ?_ ?_ _
      · rw [heq, huq]
        exact h.1
      · rw [heq, huq]
        exact h.2
    · have hd : u.decides { i with pushes := [] } = false := by
        rw [State.decides, List.all_eq_false]
        refine ⟨if x.num = num then { x with pushes := x.pushes.tail } else x, List.mem_map.mpr ⟨x, hx, rfl⟩, ?_⟩
        have hlt' : ¬i.seq ≤ x.seq := by omega
        split
        · simp [hw, hxw, hxa, hxf, hxe, hlt']
        · simp [hw, hxw, hxa, hxf, hxe, hlt']
      have h0 : (s.wq n).state = 0 := by
        have := h.1
        unfold WorkQ.isOpen at this
        simp only [Bool.and_eq_true, beq_iff_eq] at this
        exact this.2
      rw [hend, if_neg (by rw [hd]; decide)]
      change (e.wq n).state = 0
      rw [heq, huq]
      exact h0

/-- Settles O54: each operation of a work queue by what it makes of the one queue, of the lanes and of the instance. -/
theorem workQueuesHoldTheirEntries : Obligations.WorkQueuesHoldTheirEntries := by
  unfold Obligations.WorkQueuesHoldTheirEntries
  exact ⟨queue_control, queue_pushes, queue_pops, chunk_pushes⟩

end Sys2Proof.Machine
end
section
/-! PROOFS. Queue instructions (R262, R270 to R273). -/
namespace Sys2Proof.Machine

/-! ### Bindings -/

/-- The bindings of the half of a team that a stream runs on, and its queues there. -/
def Team.bindsOf (t : Team) (id : SId) : List (Nat × Nat) := if t.half id == 1 then t.binds.2 else t.binds.1
def Team.queuesOf (t : Team) (id : SId) : List Nat := if t.half id == 1 then t.queues.2 else t.queues.1
theorem State.portKey_of {s : State} {id : SId} {t : Team} (h : s.team? id.tcx = some t) (r : Reg) : s.portKey id r =
    (((t.bindsOf id).find? fun e => e.1 = portIdx r).bind fun e => (t.queuesOf id)[e.2]?.map fun h => 32 * (t.core + t.half id) + h) := by
  have ht : s.team id.tcx = t := by rw [State.team, h]; rfl
  unfold State.portKey
  rw [ht]
  change (match (t.bindsOf id).find? fun e => e.1 = portIdx r with
    | none => none
    | some (_, k) => (t.queuesOf id)[k]?.map fun h => 32 * (t.core + t.half id) + h) = _
  cases (t.bindsOf id).find? fun e => e.1 = portIdx r <;> rfl
theorem Team.rebind_half (t : Team) (up : Bool) (f : List (Nat × Nat) → List (Nat × Nat)) (id : SId) :
    (t.rebind up f).half id = t.half id ∧ (t.rebind up f).tcx = t.tcx ∧ (t.rebind up f).queuesOf id = t.queuesOf id ∧
      (t.rebind up f).core = t.core := by
  cases up
  · exact ⟨rfl, rfl, rfl, rfl⟩
  · exact ⟨rfl, rfl, rfl, rfl⟩
theorem Team.rebind_bindsOf (t : Team) (id : SId) (f : List (Nat × Nat) → List (Nat × Nat)) :
    (t.rebind (t.half id == 1) f).bindsOf id = f (t.bindsOf id) := by
  have hh := (t.rebind_half (t.half id == 1) f id).1
  unfold Team.bindsOf
  rw [hh]
  unfold Team.rebind
  split <;> rfl
theorem portIdx_inj {p q : Reg} (hp : Reg.isPort p = true) (hq : Reg.isPort q = true) (h : q ≠ p) : portIdx q ≠ portIdx p := by
  unfold Reg.isPort at hp hq
  simp only [decide_eq_true_eq] at hp hq
  unfold portIdx
  intro he
  exact h (BitVec.eq_of_toNat_eq (by omega))

section
variable {g : Guard} {s : State} {id : SId} (ha : s.Alone g id) (ht : s.team? id.tcx = some s.curTeam)

/-- The device after the bindings of the issuing core have been made `f` of what they were. -/
def State.rebound (s : State) (g : Guard) (id : SId) (f : List (Nat × Nat) → List (Nat × Nat)) : State :=
  (s.onTeam s.curTeam.tcx fun t => t.rebind (t.half id == 1) f).retireLanes g fun st => st

include ha
theorem State.lowest_alone : s.lowest g = some (s.stream id) := State.lowest_of (State.active_one ha.1 ha.2.1)
omit ha in
include ht in
theorem State.rebound_portKey (f : List (Nat × Nat) → List (Nat × Nat)) (r : Reg) : (s.rebound g id f).portKey id r =
    (((f (s.curTeam.bindsOf id)).find? fun e => e.1 = portIdx r).bind fun e =>
      (s.curTeam.queuesOf id)[e.2]?.map fun h => 32 * (s.curTeam.core + s.curTeam.half id) + h) := by
  have htcx : s.curTeam.tcx = id.tcx := State.team?_tcx ht
  have h1 := s.onTeam_team? id.tcx (f := fun t => t.rebind (t.half id == 1) f) fun t => (t.rebind_half _ f id).2.1
  rw [ht, Option.map_some] at h1
  have h2 : (s.rebound g id f).team? id.tcx = some (s.curTeam.rebind (s.curTeam.half id == 1) f) := by
    rw [← h1, ← htcx]
    rfl
  obtain ⟨e1, -, e2, e3⟩ := s.curTeam.rebind_half (s.curTeam.half id == 1) f id
  rw [State.portKey_of h2, Team.rebind_bindsOf, e1, e2, e3]
theorem State.rebound_frame (f : List (Nat × Nat) → List (Nat × Nat)) :
    s.rebound g id f = { s with streams := (s.rebound g id f).streams, teams := (s.rebound g id f).teams } ∧
      (s.rebound g id f).stream id = (s.stream id).goto s.cur.npc :=
  ⟨rfl, (State.retired_one (s := s.onTeam s.curTeam.tcx fun t => t.rebind (t.half id == 1) f) ha (f := fun st => st) fun _ => rfl).2⟩
theorem exec_qbind {p : Reg} {k : BitVec 4} (hk : k.toNat < s.curTeam.recd.qports) :
    exec (.qbind g p k) s = .next (s.rebound g id fun b => (portIdx p, k.toNat) :: b.filter fun e => e.1 ≠ portIdx p) := by
  change execQbind g p k s = _
  rw [execQbind, State.lowest_alone ha]
  dsimp only
  rw [s.stream_id]
  exact congrArg Host.Outcome.next (if_neg (by omega))
theorem exec_qbindUn (p : Reg) : exec (.qbindUn g p) s = .next (s.rebound g id fun b => b.filter fun e => e.1 ≠ portIdx p) := by
  change execQbindUn g p s = _
  rw [execQbindUn, State.lowest_alone ha]
  dsimp only
  rw [s.stream_id]
  rfl
theorem exec_qbind_beyond {p : Reg} {k : BitVec 4} (hk : s.curTeam.recd.qports ≤ k.toNat) :
    exec (.qbind g p k) s = .next (s.trap7 g cIllegalOperand id 0) := by
  change execQbind g p k s = _
  rw [execQbind, State.lowest_alone ha]
  refine congrArg Host.Outcome.next ((if_pos hk).trans ?_)
  rw [State.trapLow, State.active_one ha.1 ha.2.1]
  rfl
end
theorem find?_bound (b : List (Nat × Nat)) (n k : Nat) :
    ((n, k) :: b.filter fun e => e.1 ≠ n).find? (fun e => e.1 = n) = some (n, k) ∧
      (b.filter fun e => e.1 ≠ n).find? (fun e => e.1 = n) = none ∧ ∀ m, m ≠ n →
      ((n, k) :: b.filter fun e => e.1 ≠ n).find? (fun e => e.1 = m) = b.find? (fun e => e.1 = m) ∧
      (b.filter fun e => e.1 ≠ n).find? (fun e => e.1 = m) = b.find? (fun e => e.1 = m) := by
  have hkeep : ∀ m, m ≠ n → (b.filter fun e => e.1 ≠ n).find? (fun e => e.1 = m) = b.find? (fun e => e.1 = m) := fun m hm => by
    rw [List.find?_filter]
    congr 1
    funext e
    by_cases he : e.1 = m
    · simp [he, hm]
    · simp [he]
  refine ⟨by simp, List.find?_eq_none.mpr fun e he => by simpa using (List.mem_filter.mp he).2, fun m hm => ⟨?_, hkeep m hm⟩⟩
  rw [List.find?_cons_of_neg (by simpa using hm.symm)]
  exact hkeep m hm

/-! ### Reading and dropping -/

theorem qstat_word (k free ready : Nat) :
    (0#16 ++ BitVec.ofNat 5 (k % 32) ++ 1#1 ++ BitVec.ofNat 5 free ++ BitVec.ofNat 5 ready : Word) =
      BitVec.ofNat 32 (k % 32 * 2 ^ 11 + 2 ^ 10 + free % 32 * 2 ^ 5 + ready % 32) := by
  apply BitVec.eq_of_toNat_eq
  simp only [append_toNat, BitVec.toNat_ofNat]
  omega

/-- Without transfers nothing waits for a queue. -/
theorem State.changed_idle {s : State} (h : s.qu.xfers = []) (key : Nat) : s.changed key = s := by
  have hs : s.serveQueue key 64 = s := by
    have h1 : s.serveStore key = none := by
      unfold State.serveStore
      rw [h]
      rfl
    have h2 : s.serveLoad key = none := by
      unfold State.serveLoad
      rw [h]
      rfl
    rw [State.serveQueue, h1, h2]
    rfl
  rw [State.changed, hs]
  unfold State.endXfers
  simp only [h, List.filter_nil, List.foldl_nil]
  rw [← h]

section
variable {g : Guard} {s : State} {id : SId} (ha : s.Alone g id) (d : Reg) {p : Reg}
include ha

theorem exec_qstat : ∃ t, exec (.qstat g d p) s = .next t ∧ s.OnlyStreams t [id] ∧
    t.stream id = ((s.stream id).wr d (match s.portKey id p with
      | none => 0
      | some k => BitVec.ofNat 32 (k % 32 * 2 ^ 11 + 2 ^ 10 + (s.queue k).free % 32 * 2 ^ 5 + (s.queue k).ready % 32))).goto s.cur.npc := by
  obtain ⟨h1, h2⟩ := State.retired_one ha (f := fun st => st.wr d (s.qstatWord (s.portKey st.id p))) fun st => st.wr_id _ _
  refine ⟨_, rfl, h1, h2.trans ?_⟩
  rw [s.stream_id]
  have hw : s.qstatWord (s.portKey id p) = match s.portKey id p with
      | none => 0
      | some k => BitVec.ofNat 32 (k % 32 * 2 ^ 11 + 2 ^ 10 + (s.queue k).free % 32 * 2 ^ 5 + (s.queue k).ready % 32) := by
    cases s.portKey id p with
    | none => rfl
    | some k => exact qstat_word k _ _
  rw [hw]

variable {key : Nat} (hk : s.portKey id p = some key)
include hk

theorem exec_qpeek {pos : BitVec 4} {e : QEntry} (hr : pos.toNat < (s.queue key).ready)
    (he : (s.queue key).entries[pos.toNat]? = some e) : ∃ t, exec (.qpeek g d p pos) s = .next t ∧ s.OnlyStreams t [id] ∧
      t.stream id = ((s.stream id).wr d (sget 0 e.elems (s.curTeam.lane id))).goto s.cur.npc := by
  obtain ⟨h1, h2⟩ := State.retired_one ha (f := fun st => st.wr d (sget 0 e.elems (s.curTeam.lane st.id))) fun st => st.wr_id _ _
  refine ⟨_, ?_, h1, h2.trans (by rw [s.stream_id])⟩
  change execQpeek g d p pos s = _
  rw [execQpeek, State.lowest_alone ha]
  dsimp only
  rw [s.stream_id, hk]
  refine congrArg Host.Outcome.next ((if_neg (by omega)).trans ?_)
  rw [he]
  rfl
theorem exec_qdrop (n : BitVec 5) (hx : s.qu.xfers = []) : ∃ t, exec (.qdrop g d p n) s = .next t ∧
    t = { s with streams := t.streams, qu := t.qu } ∧
    (t.queue key).entries = (s.queue key).entries.drop (min n.toNat (s.queue key).ready) ∧
    (∀ k, k ≠ key → t.queue k = s.queue k) ∧
    t.stream id = ((s.stream id).wr d (BitVec.ofNat 32 (min n.toNat (s.queue key).ready))).goto s.cur.npc := by
  let m := min n.toNat (s.queue key).ready
  let u := s.setQueue key ((s.queue key).entries.drop m)
  have hu : u.Alone g id := ha
  obtain ⟨h1, h2⟩ := State.retired_one hu (f := fun st => st.wr d (BitVec.ofNat 32 m)) fun st => st.wr_id _ _
  refine ⟨_, ?_, ?_, ?_, fun k hne => ?_, h2⟩
  · change execQdrop g d p n s = _
    rw [execQdrop, State.lowest_alone ha]
    dsimp only
    rw [s.stream_id, hk]
    exact congrArg (fun v : State => Host.Outcome.next (v.retireLanes g fun st => st.wr d (BitVec.ofNat 32 m)))
      (State.changed_idle (s := u) hx key)
  · rw [h1.1]
    rfl
  · exact congrArg Queue.entries (sget_sset_same ..)
  · exact sget_sset_other _ _ _ hne
end

/-- Settles O44: a binding is the first entry of its port; `qstat`, `qpeek` and `qdrop` by the queue that the port names. -/
theorem queueInstructions : Obligations.QueueInstructions := by
  unfold Obligations.QueueInstructions
  intro g s id ha ht tm half queues
  have hq : s.curTeam.queuesOf id = queues := by
    unfold Team.queuesOf
    simp only [beq_iff_eq]
    rfl
  refine ⟨fun p k hk hp => ⟨_, exec_qbind ha hk, (State.rebound_frame ha _).1, ?_, fun q hqp hne => ?_, (State.rebound_frame ha _).2⟩,
    fun p k hk => exec_qbind_beyond ha hk,
    fun p hp => ⟨_, exec_qbindUn ha p, (State.rebound_frame ha _).1, ?_, fun q hqp hne => ?_, (State.rebound_frame ha _).2⟩,
    fun d p => exec_qstat ha d, fun d p key hk => ⟨fun pos e hr he => exec_qpeek ha d hk hr he, fun n hx => exec_qdrop ha d hk n hx⟩⟩
  · rw [State.rebound_portKey ht, (find?_bound _ _ k.toNat).1, Option.bind_some, hq]
  · rw [State.rebound_portKey ht, ((find?_bound _ _ k.toNat).2.2 _ (portIdx_inj hp hqp hne)).1, State.portKey_of ht]
  · rw [State.rebound_portKey ht, (find?_bound _ (portIdx p) 0).2.1]
    rfl
  · rw [State.rebound_portKey ht, ((find?_bound _ _ 0).2.2 _ (portIdx_inj hp hqp hne)).2, State.portKey_of ht]

end Sys2Proof.Machine
end
section
/-! PROOFS. Prediction windows (R122, R125 to R127, R155, R169, R170). -/
namespace Sys2Proof.Machine

/-- What the branch writes changes registers alone, and by the registers alone. -/
theorem Window.write_regs (w : Window) (dir : Bool) {x y : Stream} (h : x.regs = y.regs) :
    w.write dir x = { x with regs := (w.write dir y).regs } := by
  have hrd : ∀ r, (w.entry x).rd r = (w.entry y).rd r := fun _ => rfl
  have hg : guardHolds w.guard (w.entry x) = guardHolds w.guard (w.entry y) := rfl
  have hwr : ∀ (r : Reg) (v : Word), x.wr r v = { x with regs := (y.wr r v).regs } := fun r v => by
    unfold Stream.wr
    split
    · rw [← h]
    · rw [← h]
  have hwr64 : ∀ (r : Reg) (v : DWord), x.wr64 r v = { x with regs := (y.wr64 r v).regs } := fun r v => by
    unfold Stream.wr64
    split
    · rw [← h]
    · unfold Stream.wr
      split <;> split <;> rw [← h]
  unfold Window.write
  rw [hg]
  split
  · split
    · exact hwr64 _ _
    · rw [← h]
  · split
    · exact hwr _ _
    · rw [← h]
  · rw [← h]

section
variable {s : State} {id : SId} {w : Window} (hw : (s.stream id).window = some w) (hp : s.Present [id])

/-- A window whose predicates nothing awaits. -/
theorem State.predKnown_iff : s.predKnown id w = true ↔
    s.awaits id w.guard.reg w.firstOp = false ∧ ∀ c, w.loop = some c → s.awaits id c w.firstOp = false := by
  unfold State.predKnown
  cases w.loop with
  | none => simp
  | some c => simp

/-- The path that the lane leaves the branch on. -/
def Window.past (w : Window) (next : DWord) : List (DWord × DWord) :=
  match w.known.find? fun p => p.1 == next with
  | some p => p.2
  | none => w.path

include hw hp
theorem exec_predicateResolve (hm : s.windowMates id w = [id]) : exec (.predicateResolve id) s =
    .next (if (!s.predKnown id w) = true then s else s.resolve (w.past (w.next (s.stream id))) id) := by
  obtain ⟨st, hst⟩ := Option.isSome_iff_exists.mp (hp id (List.mem_singleton_self id))
  have hs : s.stream id = st := by rw [State.stream, hst]; rfl
  change execPredicateResolve id s = _
  rw [execPredicateResolve, hst]
  dsimp only
  rw [hs] at hw ⊢
  rw [hw]
  dsimp only
  rw [hm]
  have hall : [id].all (fun id => s.predKnown id w) = s.predKnown id w := by simp
  rw [hall]
  have hpath : ∀ dir : Stream → DWord, s.pathOf [id] dir (fun x => (x.window.map (·.path)).getD []) st = w.path := fun dir => by
    unfold State.pathOf
    dsimp only
    split
    · rename_i k hk
      have hki : k = id := by simpa using List.mem_of_find?_eq_some hk
      rw [hki, hs, hw]
      rfl
    · rw [hw]
      rfl
  refine congrArg Host.Outcome.next (congrArg (fun u => if (!s.predKnown id w) = true then s else u) ?_)
  change s.resolve (match (Option.bind (s.stream id).window fun v => v.known.find? fun p => p.1 == v.next (s.stream id)) with
    | some p => p.2
    | none => s.pathOf [id] (fun x => (x.window.map fun v => v.next x).getD 0) (fun x => (x.window.map (·.path)).getD []) (s.stream id)) id = _
  rw [hs, hpath, hw]
  rfl

theorem State.resolve_confirms (past : List (DWord × DWord)) (h : w.actual (s.stream id) = w.taken) :
    s.OnlyStreams (s.resolve past id) [id] ∧ (s.resolve past id).stream id =
      { (if w.loop.isSome then w.write (w.actual (s.stream id)) (s.stream id) else s.stream id) with
        window := none
        path := (s.stream id).path.take ((s.stream id).path.length - w.path.length - 1) ++ (w.branch, w.next (s.stream id)) :: past } := by
  have hres : s.resolve past id = s.onLane id fun st =>
      { (if w.loop.isSome then w.write (w.actual (s.stream id)) st else st) with
        window := none, path := st.path.take (st.path.length - w.path.length - 1) ++ (w.branch, w.next st) :: past } := by
    rw [State.resolve]
    dsimp only
    rw [hw]
    exact if_pos h
  rw [hres]
  refine s.onLane_only (fun st => ?_) hp
  dsimp only
  split
  · rw [w.write_regs _ rfl]
  · rfl

theorem State.resolve_replays (past : List (DWord × DWord)) (h : w.actual (s.stream id) ≠ w.taken)
    (ho : ∀ o ∈ s.ops, w.firstOp ≤ o.num → o.ofStream id = false) :
    s.resolve past id = { s with streams := (s.resolve past id).streams, pm := (s.resolve past id).pm } ∧
      (s.resolve past id).stream id = { w.write (w.actual (s.stream id)) (s.stream id).rollback with
        pc := w.next (s.stream id), path := (w.branch, w.next (s.stream id)) :: past, policy := .last } := by
  have hdrop : s.dropWindowOps id w.firstOp = s := by
    have h1 : s.ops.filter (fun o => decide (w.firstOp ≤ o.num) && o.ofStream id && !o.isFence) = [] :=
      List.filter_eq_nil_iff.mpr fun o hm hc => by
        simp only [Bool.and_eq_true, decide_eq_true_eq] at hc
        rw [ho o hm hc.1.1] at hc
        exact Bool.noConfusion hc.1.2
    have h2 : s.ops.filter (fun o => !(decide (w.firstOp ≤ o.num) && o.ofStream id)) = s.ops :=
      List.filter_eq_self.mpr fun o hm => by
        by_cases hn : w.firstOp ≤ o.num
        · rw [ho o hm hn]
          simp
        · simp [hn]
    unfold State.dropWindowOps
    dsimp only
    rw [h1, h2]
    rfl
  let f : Stream → Stream := fun st =>
    { w.write (w.actual (s.stream id)) st.rollback with pc := w.next st, path := (w.branch, w.next st) :: past, policy := .last }
  let t := s.team id.tcx
  let flag : Stream → Stream := fun x =>
    if (x.inGroup t (t.group id) && x.window.any fun v => v.issue == w.issue) = true then
      { x with window := x.window.map fun v => { v with missed := true } } else x
  let pmf : PmCounts → PmCounts := fun p =>
    { p with squashed := p.squashed + 1, misplaced := if w.missed then p.misplaced else p.misplaced + 1 }
  have hres : s.resolve past id = (State.onPm { s.onLane id f with streams := (s.onLane id f).streams.map flag } (t.tag id) pmf) := by
    rw [State.resolve]
    dsimp only
    rw [hw]
    dsimp only
    rw [if_neg h, hdrop]
  have hback : ∀ st : Stream, st.rollback.id = st.id := fun st => by
    unfold Stream.rollback
    split <;> rfl
  have hf : ∀ st : Stream, (f st).id = st.id := fun st => by
    dsimp only [f]
    rw [w.write_regs _ (rfl : st.rollback.regs = st.rollback.regs)]
    exact hback st
  have hflag : ∀ x : Stream, (flag x).id = x.id := fun x => by
    dsimp only [flag]
    split <;> rfl
  have hlane : (s.onLane id f).stream id = f (s.stream id) := (s.onLane_only hf hp).2
  have hpres : ((s.onLane id f).stream? id).isSome = true := s.onLanes_present hf hp id (List.mem_singleton_self id)
  have hstream : (State.stream { s.onLane id f with streams := (s.onLane id f).streams.map flag } id) =
      flag ((s.onLane id f).stream id) := by
    obtain ⟨st, hst⟩ := Option.isSome_iff_exists.mp hpres
    rw [State.stream, (s.onLane id f).stream?_map flag hflag id, hst, State.stream, hst]
    rfl
  have hnone : (f (s.stream id)).window = none := by
    have hr : (s.stream id).rollback.window = none := by
      rw [Stream.rollback, hw]
    have hwr : (w.write (w.actual (s.stream id)) (s.stream id).rollback).window = (s.stream id).rollback.window := by
      rw [w.write_regs _ (rfl : (s.stream id).rollback.regs = (s.stream id).rollback.regs)]
    exact hwr.trans hr
  refine ⟨by rw [hres]; rfl, ?_⟩
  rw [hres]
  refine (hstream.trans (congrArg flag hlane)).trans ?_
  exact if_neg (by rw [hnone]; simp)
end

/-- Settles O42: `State.resolve` of the one lane of the window, confirmed or replayed. -/
theorem windowsResolve : Obligations.WindowsResolve := by
  unfold Obligations.WindowsResolve
  intro s id w hw hp hm known st entry dir next past write
  have hex := exec_predicateResolve hw hp hm
  have hdir : w.actual st = dir := by
    dsimp only [dir]
    unfold Window.actual
    cases w.loop <;> rfl
  have hnext : w.next st = next := by
    dsimp only [next]
    rw [← hdir]
    rfl
  have hwrite : ∀ x : Stream, w.write dir x = write x := fun x => by
    dsimp only [write]
    unfold Window.write
    cases w.link <;> cases w.loop <;> rfl
  rw [hnext] at hex
  have hgo : known → exec (.predicateResolve id) s = .next (s.resolve past id) := fun h => by
    have e : w.past next = past := rfl
    rw [hex, State.predKnown_iff.mpr h, e]
    rfl
  refine ⟨fun h => hex.trans (congrArg Host.Outcome.next (if_pos ?_)), fun h hd => ⟨_, hgo h, ?_⟩, fun h hd ho => ⟨_, hgo h, ?_⟩⟩
  · rw [Bool.not_eq_true']
    exact Bool.eq_false_iff.mpr fun hk => h (State.predKnown_iff.mp hk)
  · obtain ⟨h1, h2⟩ := State.resolve_confirms hw hp past (hdir.trans hd)
    refine ⟨h1, ?_⟩
    rw [h2, hnext, hdir, hwrite]
  · obtain ⟨h1, h2⟩ := State.resolve_replays hw hp past (by rw [hdir]; exact hd) ho
    refine ⟨h1, ?_⟩
    have hback : st.rollback = { st with
        regs := w.regs, gtsHi := w.gtsHi, policy := w.policy, path := w.path, window := none, park := .none, stall := none, short := none
        firm := false } := by
      rw [Stream.rollback, hw]
    rw [h2, hnext, hdir, ← hwrite, w.write_regs dir (x := st.rollback) (y := { st with regs := w.regs, gtsHi := w.gtsHi })
      (by rw [hback]), w.write_regs dir (x := { st with regs := w.regs, gtsHi := w.gtsHi }) rfl, hback]

end Sys2Proof.Machine
end
section
/-! PROOFS. A stream that stands twice in the list takes the trap of another's fault (R410). -/
namespace Sys2Proof.Machine

/-- Two streams of one lane: the first has faulted on entry 1 of its die, the second on entry 0, which stands for page 0. -/
def doubled : State :=
  { State.reset with
    cur := ⟨[⟨0, .lane, 0⟩], 0, 8⟩
    streams := [{ newStream ⟨0, .lane, 0⟩ 0 8 0 with park := .fault 0 1 8 0 0 true false },
      { newStream ⟨0, .lane, 0⟩ 0 8 0 with park := .fault 0 0 8 0 0 true false }]
    tr := { State.reset.tr with merges := [⟨0, 0, 0, 0, [], 0, 0, 0, false, 1, cPageNotPresent, 0, 0, 0, true, true⟩] } }
/-- `fresume.fail` of page 0 of ASID 0. -/
def resumed : AluR := ⟨⟨false, 0, false⟩, 1, 0, false, 0, false⟩

theorem doubled_active : doubled.active resumed.g = [⟨0, .lane, 0⟩] := by decide
theorem doubled_merge : doubled.mergeOf 0 0 0 = some ⟨0, 0, 0, 0, [], 0, 0, 0, false, 1, cPageNotPresent, 0, 0, 0, true, true⟩ := by
  decide
theorem doubled_owns : doubled.ownsAsid doubled.curTeam.fn 0 = true := by decide
/-- The lane enters its handler with the cause of entry 0. -/
theorem doubled_traps : ∃ t, exec (.fresumeFail resumed 0) doubled = .next t ∧ (t.stream ⟨0, .lane, 0⟩).trap.hmode = true :=
  ⟨_, rfl, by decide⟩

/-- Refutes O41: the streams that take the trap of an entry are named by their identities, so that where a state holds two streams of
one identity the first of them takes the trap although it waits on another entry: in `doubled` the executing lane does. -/
theorem not_pageFaultRecordsAndReplays : ¬ Obligations.PageFaultRecordsAndReplays := by
  unfold Obligations.PageFaultRecordsAndReplays
  rintro ⟨-, -, -, h⟩
  obtain ⟨-, hsome⟩ := h doubled resumed 0 ⟨0, .lane, 0⟩ [] true (.fresumeFail resumed 0) (by simp) doubled_active
    (by simp [State.Present]; decide) (by decide) doubled_owns
  obtain ⟨t, hex, -, hlane, -⟩ := hsome _ doubled_merge (by decide)
  obtain ⟨t', hex', htrap⟩ := doubled_traps
  rw [hex] at hex'
  cases hex'
  rw [hlane ⟨0, .lane, 0⟩ (by decide)] at htrap
  revert htrap
  decide

end Sys2Proof.Machine
end
section
/-! PROOFS. `tlbinv`, `tlbsync` and page walks (R79, R84, R411, R412). -/
namespace Sys2Proof.Machine

/-! ### The ASID operand -/

section Drop
variable {s : State} {g : Guard} {w : Word} {range : Option (Nat × Nat)} {kill : Stream → Stream}

theorem extract_high_eq {w : Word} : w.extractLsb' 16 16 = 0 ↔ w.toNat < 2 ^ 16 := by
  rw [← BitVec.toNat_inj, BitVec.extractLsb'_toNat, Nat.shiftRight_eq_div_pow]
  have hw := w.isLt
  change w.toNat / 2 ^ 16 % 2 ^ 16 = 0 ↔ _
  omega
theorem extract_low_toNat {w : Word} (h : w.toNat < 2 ^ 16) : (w.extractLsb' 0 16).toNat = w.toNat := by
  rw [BitVec.extractLsb'_toNat, Nat.shiftRight_zero, Nat.mod_eq_of_lt h]
theorem State.asidTrap_none {fn : Nat} (h : w.toNat < 2 ^ 16) (ho : s.ownsAsid fn w.toNat = true) : s.asidTrap fn w = none := by
  simp [State.asidTrap, extract_high_eq.mpr h, extract_low_toNat h, ho]
theorem State.asidTrap_reserved {fn : Nat} (h : 2 ^ 16 ≤ w.toNat) : s.asidTrap fn w = some cIllegalOperand :=
  if_pos (mt extract_high_eq.mp (Nat.not_lt.mpr h))
theorem State.asidTrap_foreign {fn : Nat} (h : w.toNat < 2 ^ 16) (ho : s.ownsAsid fn w.toNat = false) :
    s.asidTrap fn w = some cPrivilege := by
  simp [State.asidTrap, extract_high_eq.mpr h, extract_low_toNat h, ho]

theorem State.tlbDrop_traps {c : Cause} (h : s.asidTrap s.curTeam.fn w = some c) : s.tlbDrop g w range kill = s.trapLow g c := by
  rw [State.tlbDrop, h]
theorem State.tlbDrop_drops (h : s.asidTrap s.curTeam.fn w = none) : s.tlbDrop g w range kill =
    (s.invalidate (w.extractLsb' 0 16) range).retireLanes g fun st =>
      kill { st with
        old := st.old ++ (s.oldOps (w.extractLsb' 0 16) range).filter fun n => !(st.old.contains n)
        oldPackets := st.oldPackets ++ (s.oldPackets (w.extractLsb' 0 16) range).filter fun p => !(st.oldPackets.contains p) } := by
  rw [State.tlbDrop, h]
end Drop

/-! ### What `tlbinv` drops -/

section Invalidate
variable (s : State) (asid : BitVec 16) (range : Option (Nat × Nat))

theorem State.invalidateEntry_tlb (m : Merge) : (s.invalidateEntry m).tr.tlb = s.tr.tlb := by
  unfold State.invalidateEntry
  dsimp only
  split <;> rfl
theorem State.invalidateEntry_merges (m : Merge) :
    (s.invalidateEntry m).tr.merges = s.tr.merges.filter fun x => !(x.die == m.die && x.idx == m.idx) := by
  unfold State.invalidateEntry
  dsimp only
  split <;> rfl
theorem State.invalidateEntries_tlb (ms : List Merge) : (ms.foldl State.invalidateEntry s).tr.tlb = s.tr.tlb := by
  induction ms generalizing s with
  | nil => rfl
  | cons m ms ih => exact (ih _).trans (s.invalidateEntry_tlb m)
/-- The freed entries are none of those that are left. -/
theorem State.invalidateEntries_merges (ms : List Merge) {x : Merge} (h : x ∈ (ms.foldl State.invalidateEntry s).tr.merges) :
    x ∈ s.tr.merges ∧ x ∉ ms := by
  induction ms generalizing s with
  | nil => exact ⟨h, List.not_mem_nil⟩
  | cons m ms ih =>
    obtain ⟨hx, hn⟩ := ih _ h
    rw [s.invalidateEntry_merges m, List.mem_filter] at hx
    refine ⟨hx.1, fun hm => ?_⟩
    rcases List.mem_cons.mp hm with rfl | hm
    · simp at hx
    · exact hn hm

theorem State.mem_invalidate_tlb {e : TlbEntry} : e ∈ (s.invalidate asid range).tr.tlb ↔
    e ∈ s.tr.tlb ∧ ¬(e.asid = asid ∧ overlaps e.va (2 ^ e.leaf.size) range = true) := by
  unfold State.invalidate
  dsimp only
  rw [List.mem_filter, State.invalidateEntries_tlb]
  have hb : ∀ a b : Bool, (!(a && b)) = true ↔ ¬(a = true ∧ b = true) := by decide
  rw [hb, beq_iff_eq]
theorem State.mem_invalidate_merges {m : Merge} (h : m ∈ (s.invalidate asid range).tr.merges) :
    ¬(m.asid = asid ∧ overlaps (m.page * 4096) 4096 range = true) := by
  obtain ⟨hm, hn⟩ := s.invalidateEntries_merges _ h
  rw [List.mem_filter] at hn
  simpa [hm] using hn
variable {s asid} in
/-- Where no entry of the merge tables is of the ASID, no stream and no byte changes. -/
theorem State.invalidate_frame (h : ∀ m ∈ s.tr.merges, m.asid ≠ asid) :
    s.invalidate asid range = { s with tr := (s.invalidate asid range).tr, mx := (s.invalidate asid range).mx } := by
  have hnil : (s.tr.merges.filter fun m => m.asid == asid && overlaps (m.page * 4096) 4096 range) = [] := by
    rw [List.filter_eq_nil_iff]
    intro m hm
    simp [h m hm]
  unfold State.invalidate
  rw [hnil]
  rfl
end Invalidate

/-! ### Zeroing a range (R412) -/

theorem State.syncWait_done {s : State} {g : Guard} {k : State → State}
    (h : s.undrained ((s.active g).flatMap fun id => (s.stream id).old) = [])
    (h' : s.unplaced ((s.active g).flatMap fun id => (s.stream id).oldPackets) = []) : s.syncWait g k = k s := by
  unfold State.syncWait
  dsimp only
  rw [h, h']
  rfl
theorem State.zeroHbm_frame (s : State) (p l : Nat) :
    s.zeroHbm p l = { s with mem := zeroRange s.mem p l, vt := (s.zeroHbm p l).vt } := rfl

/-! ### Walks -/

theorem mem_tlbPut_self (tlb : List TlbEntry) (e : TlbEntry) : e ∈ tlbPut tlb e := by simp [tlbPut]
/-- An entry of one cache stays when another cache takes an entry. -/
theorem mem_tlbPut_of_mem {tlb : List TlbEntry} {e x : TlbEntry} (hx : x ∈ tlb) (hne : x.at_ ≠ e.at_) : x ∈ tlbPut tlb e := by
  have hrest : x ∈ tlb.filter fun x => !(x.at_ == e.at_ && x.asid == e.asid && x.va == e.va && x.leaf.size == e.leaf.size) :=
    List.mem_filter.mpr ⟨hx, by simp [hne]⟩
  simp only [tlbPut]
  refine List.mem_append_left _ ?_
  split
  · exact (List.mem_eraseP_of_neg (by simp [hne])).mpr hrest
  · exact hrest

theorem hits_block (at_ : TlbAt) (asid : BitVec 16) (va : Nat) (leaf : Leaf) :
    TlbEntry.hits ⟨at_, asid, va / 2 ^ leaf.size * 2 ^ leaf.size, leaf⟩ at_ asid va = true := by
  have h1 := Nat.div_mul_le_self va (2 ^ leaf.size)
  have h2 := Nat.lt_div_mul_add (a := va) (Nat.two_pow_pos leaf.size)
  simp [TlbEntry.hits, h1, h2]

/-- The block that a walk installs is its leaf's, or the 64 KiB of the group around it (R83). -/
theorem State.contig_block {s : State} {w : Walked} {va : Nat} {p : Leaf × Nat} (h : s.contig w va = some p) :
    p.2 = va / 2 ^ p.1.size * 2 ^ p.1.size := by
  unfold State.contig at h
  split at h
  · cases h
  · dsimp only at h
    split at h
    · cases h
      rfl
    · cases h
theorem State.install_block (s : State) (w : Walked) (va : Nat) :
    ∃ leaf, (s.contig w va).getD (w.leaf, va / 2 ^ w.leaf.size * 2 ^ w.leaf.size) = (leaf, va / 2 ^ leaf.size * 2 ^ leaf.size) := by
  cases h : s.contig w va with
  | none => exact ⟨w.leaf, rfl⟩
  | some p => exact ⟨p.1, Prod.ext rfl (contig_block h)⟩
theorem State.install_hits (s : State) (at_ : TlbAt) (die : Nat) (asid : BitVec 16) (va : Nat) (w : Walked) :
    (∃ e ∈ (s.install at_ die asid va w).tr.tlb, e.hits at_ asid va = true) ∧
      ∃ e ∈ (s.install at_ die asid va w).tr.tlb, e.hits (.die die) asid va = true := by
  obtain ⟨leaf, hb⟩ := s.install_block w va
  have htlb : (s.install at_ die asid va w).tr.tlb =
      tlbPut (tlbPut s.tr.tlb ⟨at_, asid, va / 2 ^ leaf.size * 2 ^ leaf.size, leaf⟩)
        ⟨.die die, asid, va / 2 ^ leaf.size * 2 ^ leaf.size, leaf⟩ := by
    simp only [State.install, hb]
    rfl
  rw [htlb]
  have hdie := (⟨_, mem_tlbPut_self _ _, hits_block (.die die) asid va leaf⟩ :
    ∃ e ∈ tlbPut (tlbPut s.tr.tlb ⟨at_, asid, va / 2 ^ leaf.size * 2 ^ leaf.size, leaf⟩)
      ⟨.die die, asid, va / 2 ^ leaf.size * 2 ^ leaf.size, leaf⟩, e.hits (.die die) asid va = true)
  refine ⟨?_, hdie⟩
  by_cases hat : at_ = .die die
  · rw [hat] at hdie ⊢
    exact hdie
  · exact ⟨_, mem_tlbPut_of_mem (mem_tlbPut_self _ _) hat, hits_block at_ asid va leaf⟩

/-- A and D that the entry lacks are written into it (R84). -/
theorem State.touchWalk_stored (s : State) (at_ : TlbAt) (die : Nat) (asid : BitVec 16) (va : Nat) (write : Bool) (w : Walked)
    (h : w.entry.getLsbD 4 = false ∨ write = true ∧ w.entry.getLsbD 5 = false) :
    Stored s.mem (s.touchWalk at_ die asid va write w).mem w.pte
      (bytesOfNat 8 (w.entry ||| 0x10 ||| (if write then 0x20 else 0)).toNat) := by
  have hne : w.entry ||| 0x10 ||| (if write then 0x20 else 0) ≠ w.entry := by
    intro he
    rcases h with h | ⟨rfl, h⟩
    · have h4 := congrArg (fun x : DWord => x.getLsbD 4) he
      simp [BitVec.getLsbD_eq_getElem] at h h4
      simp [h] at h4
    · have h5 := congrArg (fun x : DWord => x.getLsbD 5) he
      simp [BitVec.getLsbD_eq_getElem] at h h5
      simp [h] at h5
  simp only [State.touchWalk, if_neg hne]
  exact stored_memWriteN _ _ _

theorem State.touchWalk_hits (s : State) (at_ : TlbAt) (die : Nat) (asid : BitVec 16) (va : Nat) (write : Bool) (w : Walked) :
    (∃ e ∈ (s.touchWalk at_ die asid va write w).tr.tlb, e.hits at_ asid va = true) ∧
      ∃ e ∈ (s.touchWalk at_ die asid va write w).tr.tlb, e.hits (.die die) asid va = true :=
  State.install_hits _ at_ die asid va _

/-- The access that a check passed is at the address that was checked. -/
theorem State.checkPage_va {s : State} {w : Who} {ak : AK} {va : Nat} {c : Checked} (h : s.checkPage w ak va = .ok c) :
    c.va = va := by
  unfold State.checkPage at h
  split at h
  · cases h
  · simp only at h
    split_ifs at h
    cases h
    rfl

/-- A core walks for fetches only. -/
theorem State.aboutTo_core {s : State} {k : Nat} {asid : BitVec 16} {va : DWord} {write : Bool}
    (h : s.aboutTo (.core k) asid va write = true) : write = false := by
  cases write
  · rfl
  · simp [State.aboutTo] at h

/-- The kind of access that a walk is made for. -/
def walkKind (h : Holder) (write : Bool) : AK :=
  match h with
  | .core _ => .fetch
  | .dray _ => if write then .store else .load
/-- A core walks for fetches, a Dray for its writes too. -/
theorem State.walkKind_writes {s : State} {h : Holder} {asid : BitVec 16} {va : DWord} {write : Bool}
    (ha : s.aboutTo h asid va write = true) : (walkKind h write).writes = write := by
  cases h with
  | core k => rw [State.aboutTo_core ha]; rfl
  | dray k => cases write <;> rfl

theorem exec_pageWalk_idle {s : State} {h : Holder} {asid : BitVec 16} {va : DWord} {write : Bool}
    (ha : s.aboutTo h asid va write = false) : exec (.pageWalk h asid va write) s = .next s :=
  congrArg Host.Outcome.next (if_pos (by simp [ha]))
theorem exec_pageWalk_refused {s : State} {h : Holder} {asid : BitVec 16} {va : DWord} {write : Bool} {f : Fail}
    (hc : s.checkPage (s.holderWho h asid) (walkKind h write) va.toNat = .error f) :
    exec (.pageWalk h asid va write) s = .next s := by
  cases h <;>
  · change execPageWalk _ asid va write s = _
    unfold execPageWalk
    dsimp only [walkKind] at hc ⊢
    rw [hc]
    exact congrArg Host.Outcome.next (ite_self s)
theorem exec_pageWalk_passed {s : State} {h : Holder} {asid : BitVec 16} {va : DWord} {write : Bool} {c : Checked}
    (hva : va.toNat < 2 ^ 57) (ha : s.aboutTo h asid va write = true) (hc : s.checkPage (s.holderWho h asid) (walkKind h write) va.toNat = .ok c) :
    exec (.pageWalk h asid va write) s = .next (s.touch (s.holderWho h asid) (walkKind h write) c) := by
  have h0 : va.extractLsb' 57 7 = 0 := by
    rw [← BitVec.toNat_inj, BitVec.extractLsb'_toNat, Nat.shiftRight_eq_div_pow, Nat.div_eq_of_lt hva]
    rfl
  cases h <;>
  · change execPageWalk _ asid va write s = _
    unfold execPageWalk
    dsimp only [walkKind] at hc ⊢
    rw [hc]
    exact congrArg Host.Outcome.next (if_neg (by simp [ha, h0]))

/-- Settles O40: `tlbinv` filters the translations and frees the entries of the merge tables one by one; a walk that passes installs
the block that holds the address in both caches. -/
theorem translationMaintenance : Obligations.TranslationMaintenance := by
  unfold Obligations.TranslationMaintenance
  refine ⟨fun s g low rest i w range kill hact hp hi => ?_, fun s g d h1 h2 => ?_,
    fun s g d s1 k1 s2 k2 low rest hact hp => ?_, fun s h asid va write hva => ?_⟩
  · have hlow : s.lowest g = some (s.stream low) := State.lowest_of hact
    have hex : exec i s = .next (s.tlbDrop g w range kill) := by
      rcases hi with ⟨s1, k1, s2, k2, s3, rfl, hl, rfl, rfl, rfl⟩ | ⟨s3, rfl, rfl, rfl, rfl⟩
      · change execTlbinv g s1 k1 s2 k2 s3 s = _
        rw [execTlbinv, hlow]
        exact congrArg Host.Outcome.next (if_neg hl)
      · change execTlbinvAll g s3 s = _
        rw [execTlbinvAll, hlow]
    have hid : ∀ st : Stream, (kill st).id = st.id := by
      rcases hi with ⟨s1, k1, s2, k2, s3, -, -, -, -, rfl⟩ | ⟨s3, -, -, -, rfl⟩ <;> simp
    rw [hex]
    refine ⟨fun hw ho => ⟨_, rfl, ?_⟩, fun hw => ?_, fun hw ho => ?_⟩
    · rw [State.tlbDrop_drops (State.asidTrap_none hw ho)]
      refine ⟨fun e he => (s.mem_invalidate_tlb _ _).mp he, fun e he hn => (s.mem_invalidate_tlb _ _).mpr ⟨he, hn⟩,
        fun m hm => s.mem_invalidate_merges _ _ hm, fun hm => ?_⟩
      rw [State.invalidate_frame range hm]
      exact ⟨rfl, State.retireLanes_lanes { s with tr := _, mx := _ } g (fun st => hid _) hp⟩
    · exact congrArg Host.Outcome.next (State.tlbDrop_traps (State.asidTrap_reserved hw))
    · exact congrArg Host.Outcome.next (State.tlbDrop_traps (State.asidTrap_foreign hw ho))
  · exact congrArg Host.Outcome.next (State.syncWait_done h1 h2)
  · have hex : exec (.tlbsyncZero g d s1 k1 s2 k2) s = execTlbsyncZero g d s1 k1 s2 k2 s := rfl
    rw [hex, execTlbsyncZero, State.lowest_of hact]
    dsimp only
    refine ⟨fun hph => congrArg Host.Outcome.next (if_pos (by simp [hph])), fun hph hlt hpa hla hl h1 h2 => ?_⟩
    have hpass : ¬((decide (2 ^ 40 ≤ ((s.stream low).rd64 s1).toNat) || decide (((s.stream low).rd64 s1).toNat % 4096 ≠ 0) ||
        decide (((s.stream low).rd s2).toNat % 4096 ≠ 0) || decide (((s.stream low).rd s2).toNat = 0)) = true) := by
      simpa [hpa, hla, hl] using hlt
    rw [if_neg (by simp [hph]), if_neg hpass, State.syncWait_done h1 h2, State.zeroHbm_frame]
    refine ⟨_, rfl, rfl, memRead_zeroRange s.mem _ _, ?_⟩
    exact State.retireLanes_lanes { s with mem := _, vt := _ } g
      (f := fun st => ((st.synced.kill64 s1 k1).kill s2 k2).wr d 0) (fun st => by simp [Stream.synced]) hp
  · refine ⟨exec_pageWalk_idle, fun f => exec_pageWalk_refused, fun c wk ha hc hwk => ⟨_, exec_pageWalk_passed hva ha hc, ?_⟩⟩
    have hasid : (s.holderWho h asid).asid = asid := by cases h <;> rfl
    have htouch : s.touch (s.holderWho h asid) (walkKind h write) c =
        s.touchWalk (s.holderWho h asid).at_ (s.holderWho h asid).die asid va.toNat write wk := by
      rw [State.touch, hwk, State.checkPage_va hc, State.walkKind_writes ha, hasid]
    rw [htouch]
    exact ⟨State.WalkWork.touchWalk s _ _ _ _ _ wk, fun hbits => s.touchWalk_stored _ _ _ _ _ wk hbits, s.touchWalk_hits _ _ _ _ _ wk⟩

end Sys2Proof.Machine
end
section
/-! PROOFS. What coherent reads and writes of the device's own agents leave of the rest (R232, R234, R351). -/
namespace Sys2Proof.Machine

/-- Nothing differs but memory, the lines and the directory of the caches, marks of errors, the streams and the stores that end, and
what a link that is down counts; the same streams are there. -/
structure State.HomeWork (s t : State) : Prop where
  frame : t = { s with
    streams := t.streams, ops := t.ops, mem := t.mem, free := t.free, links := t.links, hif := t.hif
    vt := { s.vt with broken := t.vt.broken, poison := t.vt.poison, caches := t.vt.caches, lines := t.vt.lines, dirs := t.vt.dirs } }
  ids : t.streams.map (·.id) = s.streams.map (·.id)

namespace State.HomeWork
variable {s t u : State}

theorem refl (s : State) : s.HomeWork s := ⟨rfl, rfl⟩
theorem trans (h : s.HomeWork t) (h' : t.HomeWork u) : s.HomeWork u := by
  refine ⟨?_, h'.ids.trans h.ids⟩
  rw [h'.frame, h.frame]
theorem foldl {α : Type} {f : State → α → State} (hf : ∀ (s : State) (a : α), s.HomeWork (f s a)) (l : List α) (s : State) :
    s.HomeWork (l.foldl f s) := by
  induction l generalizing s with
  | nil => exact refl s
  | cons a r ih => exact (hf s a).trans (ih _)
theorem of_notesOn {ids : List SId} (h : s.NotesOn t ids) : s.HomeWork t := by
  have hb := State.BankWork.of_notesOn h
  obtain ⟨f, -, -, rfl⟩ := h
  exact ⟨rfl, hb.ids⟩
theorem vault_flushing (h : s.HomeWork t) : t.vt.flushing = s.vt.flushing := by rw [h.frame]
theorem vault_shares (h : s.HomeWork t) : t.vt.shares = s.vt.shares := by rw [h.frame]
theorem vault_empty (h : s.HomeWork t) : t.vt.empty = s.vt.empty := by rw [h.frame]
theorem vault_waiters (h : s.HomeWork t) : t.vt.waiters = s.vt.waiters := by rw [h.frame]

/-! ### Lines -/

theorem putHome (s : State) (k : Nat) (bs : List Byte) : s.HomeWork (s.putHome k bs) := by
  unfold State.putHome
  split
  · split <;> exact ⟨rfl, rfl⟩
  · exact ⟨rfl, rfl⟩
theorem writeBack (s : State) (p : Line → Bool) : s.HomeWork (s.writeBack p) :=
  (foldl (f := fun s (l : Line) => s.putHome l.base l.data) (fun s l => putHome s l.base l.data)
    (s.vt.lines.filter fun l => p l && l.dirty) s).trans ⟨rfl, rfl⟩
theorem onLines (s : State) (p : Line → Bool) (f : Line → Line) : s.HomeWork (s.onLines p f) := ⟨rfl, rfl⟩
theorem dropLines (s : State) (p : Line → Bool) : s.HomeWork (s.dropLines p) := ⟨rfl, rfl⟩
theorem makeRoom (s : State) (c : VCache) (rep : Option Nat) (set : Nat) : s.HomeWork (s.makeRoom c rep set) := by
  unfold State.makeRoom
  dsimp only
  split
  · exact refl s
  · split
    · exact refl s
    · exact (writeBack s _).trans ⟨rfl, rfl⟩
theorem fillLine (s : State) (c : VCache) (rep : Option Nat) (k : Nat) (req : Option Prio) : s.HomeWork (s.fillLine c rep k req) := by
  unfold State.fillLine
  dsimp only
  split
  · exact refl s
  · exact (makeRoom s c rep _).trans ⟨rfl, rfl⟩
theorem moveLine (s : State) (c : VCache) (rep : Option Nat) (k : Nat) : s.HomeWork (s.moveLine c rep k) := by
  unfold State.moveLine
  split
  · exact refl s
  · dsimp only
    split
    · exact refl s
    · exact (makeRoom s c rep _).trans ⟨rfl, rfl⟩
theorem rehome (s : State) (v : Nat) : s.HomeWork (s.rehome v) := by
  unfold State.rehome
  split
  · exact refl s
  · exact (writeBack s _).trans ⟨rfl, rfl⟩
theorem loadTouch (s : State) (loc : Loc) (cluster : Nat) (req : Option Prio) : s.HomeWork (s.loadTouch loc cluster req) := by
  unfold State.loadTouch
  split
  · exact refl s
  · dsimp only
    split
    · exact (moveLine s _ _ _).trans (onLines _ _ _)
    · exact fillLine s _ _ _ _
theorem dropCopies (s : State) (loc : Loc) : s.HomeWork (s.dropCopies loc) := (writeBack s _).trans (dropLines _ _)
theorem replicaPut (s : State) (vcid c key : Nat) (bs : List Byte) (dirty : Bool) (ctag : Option Nat) (req : Option Prio) :
    s.HomeWork (s.replicaPut vcid c key bs dirty ctag req) := by
  unfold State.replicaPut
  split
  · exact refl s
  · dsimp only
    split
    · exact dropLines s _
    · exact (moveLine s _ _ _).trans (onLines _ _ _)
theorem storeAt (s : State) (loc : Loc) (bs : List Byte) (req : Option Prio) (ctag : Option Nat) :
    s.HomeWork (s.storeAt loc bs req ctag) := by
  unfold State.storeAt
  split
  · exact putHome s _ _
  · next c _ =>
    dsimp only
    split
    · have h1 : s.HomeWork (if (s.line? loc.vcid none loc.key).isSome then s.moveLine c none loc.key
          else s.fillLine c none loc.key req) := by
        split
        · exact moveLine s _ _ _
        · exact fillLine s _ _ _ _
      revert h1
      generalize (if (s.line? loc.vcid none loc.key).isSome then s.moveLine c none loc.key else s.fillLine c none loc.key req) = u
      intro h1
      refine (h1.trans ?_).trans (onLines _ _ _)
      split
      · exact refl _
      · exact putHome _ _ _
    · exact ((moveLine s _ _ _).trans (putHome _ _ _)).trans (onLines _ _ _)
    · exact (putHome s _ _).trans (dropLines _ _)

/-! ### The directory -/

theorem setDir (s : State) (seg : Nat) (d : Dir) : s.HomeWork (s.setDir seg d) := ⟨rfl, rfl⟩
theorem removeOp (s : State) (n : Nat) : s.HomeWork (s.removeOp n) := ⟨rfl, rfl⟩
/-- An operation that gives no value ends for a lane: its counter falls. -/
theorem finishLane (s : State) (o : MemOp) (id : SId) : s.HomeWork (s.finishLane o id none) :=
  ⟨rfl, s.onLanes_ids [id] fun _ => rfl⟩
theorem finishSg (s : State) (o : MemOp) : s.HomeWork (s.finishSg o) :=
  (foldl (fun s (l : OpLane) => finishLane s o l.sid) o.lanes s).trans (removeOp _ _)
theorem transitEnd (s : State) (seg : Nat) : s.HomeWork (s.transitEnd seg) := by
  unfold State.transitEnd
  split
  · exact (setDir s seg _).trans (foldl finishSg _ _)
  · exact refl s
theorem dirDrop (s : State) (seg : Nat) : s.HomeWork (s.dirDrop seg) := by
  unfold State.dirDrop
  split
  · exact (dropLines s _).trans (setDir _ _ _)
  · exact ((writeBack s _).trans (dropLines _ _)).trans (setDir _ _ _)
  · exact refl s
theorem dirRoom (s : State) (seg : Nat) : s.HomeWork (s.dirRoom seg) := by
  unfold State.dirRoom
  dsimp only
  split
  · exact refl s
  · split
    · exact (((transitEnd s _).trans (dirDrop _ _)).trans (transitEnd _ _)).trans ⟨rfl, rfl⟩
    · exact refl s
theorem dirRead (s : State) (v : VCache) (c key : Nat) (req : Option Prio) : s.HomeWork (s.dirRead v c key req) := by
  unfold State.dirRead
  dsimp only
  refine trans ((dirRoom s (segOf key)).trans ?_) (fillLine _ v (some c) key req)
  generalize s.dirRoom (segOf key) = u
  split
  · exact setDir u _ _
  · exact setDir u _ _
  · split
    · exact refl u
    · exact (writeBack u _).trans (setDir _ _ _)
  · exact refl u
theorem dirWrite (s : State) (c key : Nat) (bs : List Byte) : s.HomeWork (s.dirWrite c key bs) := by
  unfold State.dirWrite
  dsimp only
  split
  · exact putHome s _ _
  · exact ((putHome s _ _).trans (dropLines _ _)).trans (setDir _ _ _)
  · split
    · exact putHome s _ _
    · exact ((((writeBack s _).trans (dropLines _ _)).trans (putHome _ _ _)).trans (dropLines _ _)).trans (setDir _ _ _)
  · exact refl s

/-! ### Stores on their way, and the agents' own accesses -/

theorem arriveLeft (s : State) (c : VCache) (o : MemOp) : s.HomeWork (s.arriveLeft c o) :=
  (replicaPut s _ _ _ _ _ _ _).trans (dirWrite _ _ _ _)
theorem finishLeft (s : State) (o : MemOp) : s.HomeWork (s.finishLeft o) := by
  unfold State.finishLeft
  split
  · exact refl s
  · next c _ =>
    have hnote := (transitEnd s (segOf o.loc.key)).trans ((arriveLeft _ c o).trans (of_notesOn (State.noteDone_notes _ o [])))
    refine (hnote.trans ?_).trans (removeOp _ _)
    exact foldl (fun s (l : OpLane) => finishLane s o l.sid) o.lanes _
theorem settle (s : State) (key n : Nat) : s.HomeWork (s.settle key n) := foldl finishLeft _ s
theorem clearPoison (s : State) (k n : Nat) : s.HomeWork (s.clearPoison k n) := ⟨rfl, rfl⟩
theorem readNow (s : State) (loc : Loc) (cluster n : Nat) (req : Option Prio) : s.HomeWork (s.readNow loc cluster n req).2 := by
  unfold State.readNow
  split
  · exact refl s
  · split
    · split
      · exact loadTouch s _ _ _
      · exact (transitEnd s _).trans (dirRead _ _ _ _ _)
    · exact loadTouch s _ _ _
theorem writeNow (s : State) (loc : Loc) (cluster : Nat) (bs : List Byte) (ctag : Option Nat) :
    s.HomeWork (s.writeNow loc cluster bs ctag) := by
  unfold State.writeNow
  dsimp only
  refine ((settle s loc.key bs.length).trans (clearPoison _ loc.key bs.length)).trans ?_
  generalize (s.settle loc.key bs.length).clearPoison loc.key bs.length = u
  split
  · exact putHome u _ _
  · next c _ =>
    split
    · refine (transitEnd u (segOf loc.key)).trans ?_
      generalize u.transitEnd (segOf loc.key) = v
      refine (replicaPut v loc.vcid (c.replica cluster) loc.key bs (v.staysLocal c (c.replica cluster) loc.key) ctag none).trans ?_
      split
      · exact refl _
      · exact dirWrite _ _ _ _
    · exact storeAt u _ _ _ _
theorem readRange (s : State) (loc : Loc) (cluster n : Nat) : s.HomeWork (s.readRange loc cluster n).2 := by
  have h : ∀ (l : List (Nat × Nat)) (acc : List Byte × State), s.HomeWork acc.2 →
      s.HomeWork (l.foldl (fun (acc : List Byte × State) p =>
        let (bs, s1) := acc.2.readNow { loc with key := p.1 } cluster p.2 none
        (acc.1 ++ bs, s1)) acc).2 := by
    intro l
    induction l with
    | nil => exact fun acc ha => ha
    | cons p l ih => exact fun acc ha => ih _ (ha.trans (readNow acc.2 { loc with key := p.1 } cluster p.2 none))
  exact h _ _ (refl s)
theorem writeRange (s : State) (loc : Loc) (cluster : Nat) (bs : List Byte) : s.HomeWork (s.writeRange loc cluster bs) :=
  (clearPoison s _ _).trans (foldl (fun s _ => writeNow s _ cluster _ none) _ _)
end State.HomeWork

/-! ### Reads and writes of units -/

/-- The same, with translations cached. -/
structure State.UnitWork (s t : State) : Prop where
  frame : t = { s with
    streams := t.streams, ops := t.ops, mem := t.mem, tr := t.tr, free := t.free, links := t.links, hif := t.hif
    vt := { s.vt with broken := t.vt.broken, poison := t.vt.poison, caches := t.vt.caches, lines := t.vt.lines, dirs := t.vt.dirs } }
  ids : t.streams.map (·.id) = s.streams.map (·.id)

namespace State.UnitWork
variable {s t u : State}

theorem refl (s : State) : s.UnitWork s := ⟨rfl, rfl⟩
theorem trans (h : s.UnitWork t) (h' : t.UnitWork u) : s.UnitWork u := by
  refine ⟨?_, h'.ids.trans h.ids⟩
  rw [h'.frame, h.frame]
theorem foldl {α : Type} {f : State → α → State} (hf : ∀ (s : State) (a : α), s.UnitWork (f s a)) (l : List α) (s : State) :
    s.UnitWork (l.foldl f s) := by
  induction l generalizing s with
  | nil => exact refl s
  | cons a r ih => exact (hf s a).trans (ih _)
theorem of_homeWork (h : s.HomeWork t) : s.UnitWork t := by
  refine ⟨?_, h.ids⟩
  rw [h.frame]
theorem of_walkWork (h : s.WalkWork t) : s.UnitWork t := by
  unfold State.WalkWork at h
  rw [h]
  exact ⟨rfl, rfl⟩
theorem vault_flushing (h : s.UnitWork t) : t.vt.flushing = s.vt.flushing := by rw [h.frame]

theorem touch (s : State) (w : Who) (ak : AK) (c : Checked) : s.UnitWork (s.touch w ak c) := of_walkWork (.touch s w ak c)
theorem refused (s : State) (w : Who) (ak : AK) (f : Fail) : s.UnitWork (s.refused w ak f) := by
  have hseen : ∀ va : Nat, s.UnitWork (match s.xlate w.at_ w.die w.asid va ak.writes with
      | .ok (_, _, some wk) => s.install w.at_ w.die w.asid va wk
      | .ok (_, _, none) => s
      | .error .join => s
      | .error _ => s.cacheDesc w.asid) := by
    intro va
    split <;> exact ⟨rfl, rfl⟩
  unfold State.refused
  split
  · exact hseen _
  · split
    · exact hseen _
    · exact refl s
theorem lostWrite (s : State) (l : Loc) : s.UnitWork (s.lostWrite l) := by
  unfold State.lostWrite
  split
  · split <;> exact ⟨rfl, rfl⟩
  · exact refl s
theorem unitRead1 (s : State) (w : Who) (va n cluster : Nat) : s.UnitWork (s.unitRead1 w va n cluster).2 := by
  unfold State.unitRead1
  split
  · exact refused s _ _ _
  · next c _ =>
    dsimp only
    split
    · exact touch s _ _ _
    · exact (touch s w .load c).trans (of_homeWork (.readNow _ c.loc cluster n none))
theorem unitReads (s : State) (w : Who) (cluster : Nat) (l : List (Nat × Nat)) : s.UnitWork (s.unitReads w cluster l).2 := by
  induction l generalizing s with
  | nil => exact refl s
  | cons p r ih =>
    have h1 := unitRead1 s w p.1 p.2 cluster
    rw [State.unitReads]
    split
    · next s1 hs => rw [hs] at h1; exact h1
    · next bs s1 hs =>
      rw [hs] at h1
      have h2 := ih s1
      split
      · next s2 hs' => rw [hs'] at h2; exact h1.trans h2
      · next cs s2 hs' => rw [hs'] at h2; exact h1.trans h2
theorem unitRead (s : State) (w : Who) (va n : Nat) : s.UnitWork (s.unitRead w va n).2 := unitReads s w 0 _
theorem unitWrite1 (s : State) (w : Who) (va cluster : Nat) (bs : List Byte) : s.UnitWork (s.unitWrite1 w va cluster bs) := by
  unfold State.unitWrite1
  split
  · exact refused s _ _ _
  · next c _ =>
    refine (touch s w .store c).trans ?_
    dsimp only
    split
    · exact lostWrite _ _
    · split
      · exact refl _
      · exact of_homeWork (.writeNow _ _ _ _ _)
theorem rmwAt (s : State) (loc : Loc) (op : RmwOp) (lanes : List (DWord × DWord)) : s.UnitWork (s.rmwAt loc op lanes).2 := by
  unfold State.rmwAt
  dsimp only
  refine ((of_homeWork (.settle s loc.key (rmwSize op))).trans (of_homeWork (.dropCopies _ loc))).trans ?_
  split
  · exact refl _
  · exact ⟨rfl, rfl⟩
theorem bump (s : State) (fn : Nat) (asid : BitVec 16) (a : DWord) (inc : Nat) (err : Bool) : s.UnitWork (s.bump fn asid a inc err) := by
  unfold State.bump
  dsimp only
  split
  · split
    · exact refused s _ _ _
    · next c _ =>
      refine (touch s (s.unit fn asid) .atomic c).trans ?_
      split
      · exact lostWrite _ _
      · split
        · exact refl _
        · split
          · exact ⟨rfl, rfl⟩
          · exact rmwAt _ _ _ _
  · split
    · exact refl s
    · exact rmwAt _ _ _ _
  · exact refl s
theorem bumpIf (s : State) (fn : Nat) (asid : BitVec 16) (a : DWord) (inc : Nat) (err : Bool) :
    s.UnitWork (s.bumpIf fn asid a inc err) := by
  unfold State.bumpIf
  split
  · exact refl s
  · exact bump s _ _ _ _ _
end State.UnitWork

end Sys2Proof.Machine
end
section
/-! PROOFS. Contexts: swaps, images, `ctxfl` and the flush of a save (R413 to R417). -/
namespace Sys2Proof.Machine

/-! ### Squashed windows -/

section Squash
variable {s : State} {id id' : SId}

theorem State.decCounters_frame (os : List MemOp) (id : SId) (s : State) :
    ∃ ss, (os.foldl (fun s o => s.decCounter id o.counter) s) = { s with streams := ss } := by
  induction os generalizing s with
  | nil => exact ⟨s.streams, rfl⟩
  | cons o os ih =>
    obtain ⟨ss, h⟩ := ih (s.decCounter id o.counter)
    exact ⟨ss, h.trans rfl⟩
theorem State.decCounters_other (os : List MemOp) (h : id' ≠ id) (s : State) :
    (os.foldl (fun s o => s.decCounter id o.counter) s).stream? id' = s.stream? id' := by
  induction os generalizing s with
  | nil => rfl
  | cons o os ih =>
    have h1 := s.onLanes_other (ids := [id]) (id := id') (fun st => { st with cnt := st.cnt.dec o.counter }) (fun _ => rfl) (by simpa using h)
    exact (ih (s.decCounter id o.counter)).trans h1
theorem State.squash_frame (s : State) (id : SId) : ∃ ss os, s.squash id = { s with streams := ss, ops := os } := by
  unfold State.squash
  split
  · exact ⟨s.streams, s.ops, rfl⟩
  · unfold State.dropWindowOps
    dsimp only
    obtain ⟨ss, h⟩ := State.decCounters_frame
      (s.ops.filter fun o => decide (_ ≤ o.num) && o.ofStream id && !o.isFence) id { s with ops := _ }
    rw [h]
    exact ⟨_, _, rfl⟩
/-- A stream outside every window is not touched. -/
theorem State.squash_other (h : (s.stream id').window = none) : (s.squash id).stream? id' = s.stream? id' := by
  unfold State.squash
  split
  · rfl
  · next w hw =>
    have hne : id' ≠ id := by
      rintro rfl
      rw [h] at hw
      cases hw
    have hid : ∀ st : Stream, Stream.id { st.rollback with pc := w.branch } = st.id := fun st => by
      unfold Stream.rollback
      dsimp only
      split <;> rfl
    exact ((s.dropWindowOps id w.firstOp).onLanes_other _ hid (by simpa using hne)).trans (State.decCounters_other _ hne _)
theorem State.squashAll_frame (ids : List SId) (s : State) : ∃ ss os, ids.foldl State.squash s = { s with streams := ss, ops := os } := by
  induction ids generalizing s with
  | nil => exact ⟨s.streams, s.ops, rfl⟩
  | cons id ids ih =>
    obtain ⟨ss, os, h⟩ := ih (s.squash id)
    obtain ⟨ss', os', h'⟩ := s.squash_frame id
    exact ⟨ss, os, h.trans (by rw [h'])⟩
theorem State.squashAll_other (ids : List SId) {s : State} (h : (s.stream id').window = none) :
    (ids.foldl State.squash s).stream? id' = s.stream? id' := by
  induction ids generalizing s with
  | nil => rfl
  | cons id ids ih =>
    have h1 := State.squash_other (id := id) h
    exact (ih (by unfold State.stream at h ⊢; rw [h1]; exact h)).trans h1
end Squash

/-! ### Swaps -/

section Swap
variable {s : State} {g : Guard} {d s2 : Reg} {k2 : Bool} {low : SId} {rest : List SId} {cs : List Nat}

theorem State.onPms_frame (f : PmCounts → Nat → PmCounts) (ks : List Nat) (s : State) :
    ∃ pm, (ks.foldl (fun s k => s.onPm k fun p => f p s.clock.cycles) s) = { s with pm := pm } := by
  induction ks generalizing s with
  | nil => exact ⟨s.pm, rfl⟩
  | cons k ks ih =>
    obtain ⟨pm, h⟩ := ih (s.onPm k fun p => f p s.clock.cycles)
    exact ⟨pm, h.trans rfl⟩

/-- A team of some cores changes its set. -/
def Team.turn (now : Nat) (cs : List Nat) (t : Team) : Team :=
  if t.onCores cs then { t with shadow := !t.shadow, lastIssue := now - t.lastIssue } else t
/-- A state whose windows are squashed, with the sets of some cores exchanged. -/
def State.turned (s u : State) (cs : List Nat) : State :=
  let go := fun (o : TileOp) => if (s.shadowOn cs).any fun t => t.tcx == o.sid.tcx then { o with stopped := false } else o
  let v := { u with teams := u.teams.map (Team.turn s.gts cs) }
  { v.onLanes (v.streamsOf (s.shadowOn cs)) (fun st => { st with since := s.clock.cycles, aged := false }) with
    mx := { v.mx with ops := v.mx.ops.map go } }
theorem State.swap_eq (s : State) (cs : List Nat) :
    ∃ pm, s.swap cs = { s.turned ((s.streamsOf (s.activeOn cs)).foldl State.squash s) cs with pm := pm } := by
  generalize hu : s.turned ((s.streamsOf (s.activeOn cs)).foldl State.squash s) cs = u
  obtain ⟨pm, h⟩ := State.onPms_frame PmCounts.out (tagsOf (s.activeOn cs)) u
  obtain ⟨pm', h'⟩ := State.onPms_frame PmCounts.enter (tagsOf (s.shadowOn cs)) { u with pm := pm }
  refine ⟨pm', Eq.trans ?_ h'⟩
  rw [← h, ← hu]
  rfl

/-- A swap turns the teams of its cores over, and touches a stream outside every window at most in its time of readiness. -/
theorem State.swap_turns (s : State) (cs : List Nat) :
    (s.swap cs).teams = s.teams.map (Team.turn s.gts cs) ∧ (s.swap cs).mem = s.mem ∧ (s.swap cs).cur = s.cur ∧
    ∀ id st, (s.stream id).window = none → s.stream? id = some st →
      ∃ n b, (s.swap cs).stream? id = some { st with since := n, aged := b } := by
  obtain ⟨pm, h⟩ := s.swap_eq cs
  obtain ⟨ss, os, h1⟩ := State.squashAll_frame (s.streamsOf (s.activeOn cs)) s
  have hother := fun id => State.squashAll_other (id' := id) (s.streamsOf (s.activeOn cs)) (s := s)
  rw [h, h1] at *
  refine ⟨rfl, rfl, rfl, fun id st hw hst => ?_⟩
  generalize hv : ({ s with streams := ss, ops := os, teams := s.teams.map (Team.turn s.gts cs) } : State) = v
  have hst' : v.stream? id = some st := by
    rw [← hst, ← hother id hw, ← hv]
    rfl
  have hmap := v.stream?_map (fun st => if st.id ∈ v.streamsOf (s.shadowOn cs) then { st with since := s.clock.cycles, aged := false }
    else st) (fun st => by split <;> rfl) id
  rw [hst', ← hv] at hmap
  by_cases hin : st.id ∈ v.streamsOf (s.shadowOn cs)
  · exact ⟨s.clock.cycles, false, hmap.trans (by rw [← hv] at hin; simp [hin])⟩
  · exact ⟨st.since, st.aged, hmap.trans (by rw [← hv] at hin; simp [hin])⟩
end Swap

/-! ### Images -/

/-- Nothing differs but queues and tiles. -/
def State.BankMove (s t : State) : Prop := t = { s with qu := t.qu, mx := t.mx }
namespace State.BankMove
variable {s t u : State}

theorem refl (s : State) : s.BankMove s := rfl
theorem trans (h : s.BankMove t) (h' : t.BankMove u) : s.BankMove u := by
  unfold State.BankMove at h h' ⊢
  rw [h', h]
theorem foldl {α : Type} {f : State → α → State} (hf : ∀ (s : State) (a : α), s.BankMove (f s a)) (l : List α) (s : State) :
    s.BankMove (l.foldl f s) := by
  induction l generalizing s with
  | nil => exact refl s
  | cons a r ih => exact (hf s a).trans (ih _)
theorem moveQueue (s : State) (a b : Nat) : s.BankMove (s.moveQueue a b) := rfl
theorem moveTile (s : State) (c p c' p' : Nat) : s.BankMove (s.moveTile c p c' p') := rfl
theorem teams (h : s.BankMove t) : t.teams = s.teams := by rw [h]
theorem images (h : s.BankMove t) : t.images = s.images := by rw [h]
end State.BankMove

section Image
variable {s : State} {n core : Nat} {tm x : Team}

theorem State.onTeam_found {s : State} {k : Nat} {f : Team → Team} (hf : ∀ t : Team, (f t).tcx = t.tcx) {x : Team}
    (h : (s.onTeam k f).team? k = some x) : ∃ y, s.team? k = some y ∧ x = f y := by
  rw [s.onTeam_team? k hf] at h
  obtain ⟨y, hy, rfl⟩ := Option.map_eq_some_iff.mp h
  exact ⟨y, hy, rfl⟩

theorem State.saveTeam_moves (s : State) (n : Nat) (t : Team) : ∃ u, s.BankMove u ∧
    s.saveTeam n t = u.onTeam t.tcx fun t => { t with image := some n, shadow := false } := by
  unfold State.saveTeam
  dsimp only
  refine ⟨_, ?_, rfl⟩
  exact ((State.BankMove.foldl (fun s q => State.BankMove.moveQueue s _ _) t.queues.1 s).trans
    (State.BankMove.foldl (fun s q => State.BankMove.moveQueue s _ _) t.queues.2 _)).trans
      (State.BankMove.foldl (fun s p => State.BankMove.moveTile s _ p _ p) _ _)
theorem State.saveTeam_images (s : State) (n : Nat) (t : Team) : (s.saveTeam n t).images = s.images := by
  obtain ⟨u, hu, h⟩ := s.saveTeam_moves n t
  rw [h]
  exact hu.images
theorem State.saveTeam_saved (h : (s.saveTeam n tm).team? tm.tcx = some x) : x.image = some n ∧ x.shadow = false := by
  obtain ⟨u, -, hu⟩ := s.saveTeam_moves n tm
  rw [hu] at h
  obtain ⟨y, -, rfl⟩ := State.onTeam_found (f := fun t => { t with image := some n, shadow := false }) (fun _ => rfl) h
  exact ⟨rfl, rfl⟩

theorem State.loadTeam_moves (s : State) (core : Nat) (t : Team) : ∃ u q ids, s.BankMove u ∧
    s.loadTeam core t = (u.onTeam t.tcx fun t => { t with image := none, shadow := true, core := core, queues := q }).onLanes ids
      fun st => { st with flush := some (t.tag st.id) } := by
  unfold State.loadTeam
  dsimp only
  refine ⟨_, _, _, ?_, rfl⟩
  exact (((State.BankMove.foldl (fun s p => State.BankMove.moveQueue s _ _) (t.queues.1.zip _) s).trans
    (State.BankMove.foldl (fun s p => State.BankMove.moveQueue s _ _) (t.queues.2.zip _) _)).trans
      (State.BankMove.foldl (fun s e => State.BankMove.moveTile s _ _ _ _) _ _)).trans rfl
theorem State.loadTeam_images (s : State) (core : Nat) (t : Team) : (s.loadTeam core t).images = s.images := by
  obtain ⟨u, q, ids, hu, h⟩ := s.loadTeam_moves core t
  rw [h]
  exact hu.images
theorem State.loadTeam_loaded (h : (s.loadTeam core tm).team? tm.tcx = some x) :
    x.image = none ∧ x.shadow = true ∧ x.core = core := by
  obtain ⟨u, q, ids, -, hu⟩ := s.loadTeam_moves core tm
  rw [hu] at h
  obtain ⟨y, -, rfl⟩ := State.onTeam_found (s := u)
    (f := fun t => { t with image := none, shadow := true, core := core, queues := q }) (fun _ => rfl) h
  exact ⟨rfl, rfl, rfl⟩

theorem State.writeImage_work (s : State) (w : Who) (va cluster : Nat) (bs : List Byte) : s.UnitWork (s.writeImage w va cluster bs) :=
  State.UnitWork.foldl (fun s _ => by
    split
    · exact (State.UnitWork.touch s _ _ _).trans (.of_homeWork (.writeRange _ _ _ _))
    · exact .refl s) _ s

theorem mem_foldl_nins {l : List Nat} {x : Nat} (h : x ∈ l) (m : List Nat) : x ∈ l.foldl nins m := by
  have hm : ∀ (l : List Nat) (m : List Nat), x ∈ m → x ∈ l.foldl nins m := by
    intro l
    induction l with
    | nil => exact fun _ h => h
    | cons a l ih => exact fun m h => ih _ (mem_nins.mpr (.inr h))
  induction l generalizing m with
  | nil => exact absurd h List.not_mem_nil
  | cons a l ih =>
    rcases List.mem_cons.mp h with rfl | h
    · exact hm l _ (mem_nins.mpr (.inl rfl))
    · exact ih h _
theorem Team.ctag_mem (tm : Team) : tm.ctag ∈ tagsOf [tm] := by
  unfold tagsOf
  simp only [List.flatMap_cons, List.flatMap_nil, List.append_nil]
  split <;> exact List.mem_cons_self
end Image

/-! ### Lines with a tag -/

section Flush
variable {s : State} {tag : Nat}

theorem State.writeBack_clean (s : State) {l : Line} (h : l ∈ (s.writeBack fun l => l.ctag == some tag).vt.lines)
    (ht : l.ctag = some tag) : l.dirty = false := by
  have hl : ∃ ls : List Line, (s.writeBack fun l => l.ctag == some tag).vt.lines =
      ls.map fun l => if l.ctag == some tag && l.dirty then
        { l with dirty := false, ctag := none, prio := prioMin l.prio (s.fillPrio l.vcid) } else l :=
    ⟨_, rfl⟩
  obtain ⟨ls, hl⟩ := hl
  rw [hl] at h
  obtain ⟨x, -, rfl⟩ := List.mem_map.mp h
  split at ht
  · cases ht
  · next hx =>
    rw [if_neg hx]
    simpa [ht] using hx
theorem State.flushTag_clean (s : State) {l : Line} (h : l ∈ (s.flushTag tag).vt.lines) (ht : l.ctag = some tag) : l.dirty = false :=
  State.writeBack_clean _ h ht
theorem State.flushTag_flushing (s : State) (tag : Nat) : (s.flushTag tag).vt.flushing = s.vt.flushing :=
  ((State.HomeWork.foldl State.HomeWork.finishLeft _ s).trans (.writeBack _ _)).vault_flushing

/-- Only memory, the caches and what a link that is down counts take part in a write-back. -/
theorem State.writeBack_frame (s : State) (p : Line → Bool) :
    ∃ m v l h, s.writeBack p = { s with mem := m, vt := v, links := l, hif := h } := by
  have hput : ∀ (ls : List Line) (s : State),
      ∃ m v l h, ls.foldl (fun s l => s.putHome l.base l.data) s = { s with mem := m, vt := v, links := l, hif := h } := by
    intro ls
    induction ls with
    | nil => exact fun s => ⟨s.mem, s.vt, s.links, s.hif, rfl⟩
    | cons x ls ih =>
      intro s
      obtain ⟨m, v, l, h, h1⟩ := ih (s.putHome x.base x.data)
      refine ⟨m, v, l, h, h1.trans ?_⟩
      unfold State.putHome
      split
      · split <;> rfl
      · rfl
  obtain ⟨m, v, l, h, h1⟩ := hput (s.vt.lines.filter fun l => p l && l.dirty) s
  unfold State.writeBack
  rw [h1]
  exact ⟨_, _, _, _, rfl⟩
/-- Where no store is on its way, the flush of a tag is a write-back. -/
theorem State.flushTag_calm (h : ∀ x ∈ s.ops, x.phase ≠ .left) : s.flushTag tag = s.writeBack fun l => l.ctag == some tag := by
  have hnil : s.ops.filter (fun o => o.isLeft && o.ctag == tag) = [] := List.filter_eq_nil_iff.mpr fun o ho => by
    simp [MemOp.isLeft, h o ho]
  unfold State.flushTag
  rw [hnil]
  rfl
theorem State.tagHeld_calm (h : ∀ x ∈ s.ops, x.phase ≠ .left) : s.tagHeld tag = true ↔ ∃ l ∈ s.vt.lines, l.ctag = some tag := by
  have hops : (s.ops.any fun o => o.isLeft && o.ctag == tag) = false := List.any_eq_false.mpr fun o ho => by
    simp [MemOp.isLeft, h o ho]
  rw [State.tagHeld, hops]
  simp
end Flush

/-! ### The instructions -/

section Exec
variable {s : State} {g : Guard} {low : SId} {rest : List SId}

theorem State.ctxTrap_physical {st : Stream} {r : Reg} (h : s.physical st = false) : s.ctxTrap st r = some cPrivilege :=
  if_pos (by simp [h])

/-- The sets of a swap hold no team exactly where none lies on its cores. -/
theorem State.setsEmpty_iff {cs : List Nat} :
    ((s.activeOn cs).isEmpty && (s.shadowOn cs).isEmpty) = true ↔ ∀ tm ∈ s.teams, tm.onCores cs = false := by
  simp only [State.activeOn, State.shadowOn, Bool.and_eq_true, List.isEmpty_iff, List.filter_eq_nil_iff, Bool.not_eq_true']
  refine ⟨fun h tm htm => ?_, fun h => ⟨fun tm htm => by simp [h tm htm], fun tm htm => by simp [h tm htm]⟩⟩
  obtain ⟨h1, h2⟩ := h
  have h1 := h1 tm htm
  have h2 := h2 tm htm
  cases hc : tm.onCores cs
  · rfl
  · cases hs : tm.shadow <;> simp [hc, hs] at h1 h2

theorem exec_ctxswSwap {d s2 : Reg} {k2 : Bool} (hact : s.active g = low :: rest) (ht : s.ctxTrap (s.stream low) s2 = none) :
    exec (.ctxswSwap g d s2 k2) s = .next (
      if ((s.activeOn (s.swapCores ((s.stream low).rd s2).toNat)).isEmpty &&
        (s.shadowOn (s.swapCores ((s.stream low).rd s2).toNat)).isEmpty) = true then s.ctxDone g d (fun st => st.kill s2 k2) 1
      else (s.swap (s.swapCores ((s.stream low).rd s2).toNat)).ctxDone g d (fun st => st.kill s2 k2) 0) := by
  change execCtxswSwap g d s2 k2 s = _
  rw [execCtxswSwap, State.lowest_of hact]
  dsimp only
  rw [ht]

theorem Stream.wr_regs_congr {st st' : Stream} (r : Reg) (v : Word) (h : st'.regs = st.regs) : (st'.wr r v).regs = (st.wr r v).regs := by
  unfold Stream.wr
  split
  · exact h
  · exact congrArg (fun rs => sset 0 rs r.toNat v) h
theorem Stream.kill_regs_congr {st st' : Stream} (r : Reg) (k : Bool) (h : st'.regs = st.regs) :
    (st'.kill r k).regs = (st.kill r k).regs := by
  unfold Stream.kill
  split
  · exact Stream.wr_regs_congr r 0 h
  · exact h

/-- A lane outside every window completes after a swap as it would have before. -/
theorem State.swap_completes {cs : List Nat} {f : Stream → Stream} {id : SId} (hid : id ∈ s.cur.lanes)
    (hp : s.Present s.cur.lanes) (hw : s.windowed = false) (hg : guardHolds g (s.stream id) = true)
    (hf : ∀ st : Stream, (f st).id = st.id) (hr : ∀ (st : Stream) n b, (f { st with since := n, aged := b }).regs = (f st).regs) :
    (((s.swap cs).retireLanes g f).stream id).pc = s.cur.npc ∧
      (((s.swap cs).retireLanes g f).stream id).regs = (f (s.stream id)).regs := by
  obtain ⟨-, -, hcur, hst⟩ := s.swap_turns cs
  obtain ⟨st, hsome⟩ := Option.isSome_iff_exists.mp (hp id hid)
  have heq : s.stream id = st := by
    rw [State.stream, hsome]
    rfl
  have hwin : (s.stream id).window = none := by
    have := List.any_eq_false.mp hw id hid
    simpa using this
  obtain ⟨n, b, hs'⟩ := hst id st hwin hsome
  have heq' : (s.swap cs).stream id = { st with since := n, aged := b } := by
    rw [State.stream, hs']
    rfl
  have hlane := State.onLanes_listed (s := s.swap cs) (ids := (s.swap cs).cur.lanes)
    (f := fun st => (if guardHolds g st then f st else st).goto (s.swap cs).cur.npc) (fun st => by split <;> simp [hf])
    (id := id) (by rw [hcur]; exact hid) (by rw [hs']; rfl)
  have hg' : guardHolds g ({ st with since := n, aged := b } : Stream) = true := by
    rw [← hg, heq]
    rfl
  unfold State.retireLanes
  rw [hlane, heq', if_pos hg', hcur, heq]
  exact ⟨rfl, hr st n b⟩

section Save
variable {o : AluR} {core : Nat}

theorem exec_ctxswSv_empty (hact : s.active o.g = low :: rest) (ht : s.ctxTrap (s.stream low) o.s2 = none)
    (he : s.savedSet ((s.stream low).rd o.s2).toNat = []) : exec (.ctxswSv o) s = .next (s.ctxDone o.g o.d (ctxKill o) 1) := by
  change execCtxswSv o s = _
  rw [execCtxswSv, State.lowest_of hact]
  dsimp only
  rw [ht, he]
  rfl
theorem exec_ctxswSv_address (hact : s.active o.g = low :: rest) (ht : s.ctxTrap (s.stream low) o.s2 = none)
    (he : s.savedSet ((s.stream low).rd o.s2).toNat ≠ []) (ha : s.imageAddr (s.stream low) o.s1 = none) :
    exec (.ctxswSv o) s = .next (s.ctxDone o.g o.d (ctxKill o) 4) := by
  change execCtxswSv o s = _
  rw [execCtxswSv, State.lowest_of hact]
  dsimp only
  rw [ht, ha]
  obtain ⟨t0, ts, hts⟩ := List.exists_cons_of_ne_nil he
  rw [hts]
  rfl
/-- The state that a save of one team leaves for the answer (R415). -/
def State.savedOne (s : State) (w : Who) (va cluster : Nat) (tm : Team) : State :=
  let s1 := s.unlistTeams [tm]
  let s2 := s1.writeImage w va cluster (imageOf s.nextOp tm.ctag)
  let s3 := { s2 with nextOp := s.nextOp + 1, images := s2.images ++ [(s.nextOp, tm.ctag)] }.saveTeam s.nextOp tm
  if s.vt.migrateMode then s3 else { s3 with vt := { s3.vt with flushing := (tagsOf [tm]).foldl nins s3.vt.flushing } }
theorem exec_ctxswSv_saves {tm : Team} {va : Nat} (hact : s.active o.g = low :: rest) (ht : s.ctxTrap (s.stream low) o.s2 = none)
    (he : s.savedSet ((s.stream low).rd o.s2).toNat = [tm]) (ha : s.imageAddr (s.stream low) o.s1 = some va)
    (hw : s.imageWritable (s.who (s.stream low)) va = true) (hs : (s.unlistTeams [tm]).savable [tm] = true) :
    exec (.ctxswSv o) s =
      .next ((s.savedOne (s.who (s.stream low)) va s.curTeam.cluster tm).ctxDone o.g o.d (ctxKill o) 0) := by
  change execCtxswSv o s = _
  rw [execCtxswSv, State.lowest_of hact]
  dsimp only
  rw [ht, ha, he]
  dsimp only [List.head?]
  rw [hw, hs]
  rfl
theorem State.savedOne_leaves (s : State) (w : Who) (va cluster : Nat) (tm : Team) :
    (s.savedOne w va cluster tm).images = s.images ++ [(s.nextOp, tm.ctag)] ∧
      (∀ x, (s.savedOne w va cluster tm).team? tm.tcx = some x → x.image = some s.nextOp ∧ x.shadow = false) ∧
      (s.vt.migrateMode = false → tm.ctag ∈ (s.savedOne w va cluster tm).vt.flushing) := by
  have himg : ((s.unlistTeams [tm]).writeImage w va cluster (imageOf s.nextOp tm.ctag)).images = s.images := by
    rw [((s.unlistTeams [tm]).writeImage_work w va cluster _).frame]
    rfl
  unfold State.savedOne
  dsimp only
  rw [himg]
  generalize (s.unlistTeams [tm]).writeImage w va cluster (imageOf s.nextOp tm.ctag) = u
  cases s.vt.migrateMode
  · exact ⟨State.saveTeam_images _ s.nextOp _, fun x hx => State.saveTeam_saved (n := s.nextOp) hx,
      fun _ => mem_foldl_nins tm.ctag_mem _⟩
  · exact ⟨State.saveTeam_images _ s.nextOp _, fun x hx => State.saveTeam_saved (n := s.nextOp) hx, fun h => Bool.noConfusion h⟩

theorem exec_ctxswLd (o : AluR) : exec (.ctxswLd o) = execCtxswLd o := rfl
theorem exec_ctxswLd_busy (hact : s.active o.g = low :: rest) (ht : s.ctxTrap (s.stream low) o.s2 = none)
    (he : s.shadowOn [((s.stream low).rd o.s2).toNat] ≠ []) : exec (.ctxswLd o) s = .next (s.ctxDone o.g o.d (ctxKill o) 1) := by
  have hb : (!(s.shadowOn [((s.stream low).rd o.s2).toNat]).isEmpty) = true := by simpa using he
  rw [exec_ctxswLd]
  unfold execCtxswLd
  simp only [State.lowest_of hact, ht, hb, if_true]
theorem exec_ctxswLd_address (hact : s.active o.g = low :: rest) (ht : s.ctxTrap (s.stream low) o.s2 = none)
    (he : s.shadowOn [((s.stream low).rd o.s2).toNat] = []) (ha : s.imageAddr (s.stream low) o.s1 = none) :
    exec (.ctxswLd o) s = .next (s.ctxDone o.g o.d (ctxKill o) 4) := by
  rw [exec_ctxswLd]
  unfold execCtxswLd
  simp only [State.lowest_of hact, ht, he, ha, List.isEmpty_nil, Bool.not_true, if_false, Bool.false_eq_true]
theorem exec_ctxswLd_loads {va n : Nat} {bs : List Byte} {s1 : State} {tm : Team} (hact : s.active o.g = low :: rest)
    (ht : s.ctxTrap (s.stream low) o.s2 = none) (hcore : core = ((s.stream low).rd o.s2).toNat)
    (he : s.shadowOn [core] = []) (ha : s.imageAddr (s.stream low) o.s1 = some va) {len : Nat} (hlen : imageBytes = len)
    (hr : s.unitRead (s.who (s.stream low)) va len = (some bs, s1)) (hn : s1.imageNamed bs = some n)
    (hts : (s1.teams.filter fun t => t.image == some n) = [tm]) (hsh : s1.shadowOn (loadCores [tm] core) = [])
    (hfit : s1.loadFits [tm] core = true) :
    exec (.ctxswLd o) s = .next (({ s1.loadTeam (loadCore [tm] core tm) tm with
      images := (s1.loadTeam (loadCore [tm] core tm) tm).images.filter fun e => e.1 ≠ n }).ctxDone o.g o.d (ctxKill o) 0) := by
  rw [exec_ctxswLd]
  unfold execCtxswLd
  rw [hlen]
  simp only [State.lowest_of hact, ht, ← hcore, he, ha, hr, hn, hts, hsh, hfit, List.isEmpty_nil, Bool.not_true, if_false,
    Bool.false_eq_true, List.foldl_cons, List.foldl_nil]
end Save

theorem exec_ctxfl_physical {o : Alu1} (hact : s.active o.g = low :: rest) (h : s.physical (s.stream low) = false) :
    exec (.ctxfl o) s = .next (s.trapLow o.g cPrivilege) := by
  change execCtxfl o s = _
  rw [execCtxfl, State.lowest_of hact]
  exact congrArg Host.Outcome.next (if_pos (by simp [h]))
theorem exec_ctxfl_flushes {o : Alu1} (hact : s.active o.g = low :: rest) (h : s.physical (s.stream low) = true)
    (hw : ((s.stream low).rd o.s1).toNat < 2 ^ 16) : exec (.ctxfl o) s = .next ((s.flushTag ((s.stream low).rd o.s1).toNat).retireLanes o.g
      fun st => (st.kill o.s1 o.k1).wr o.d (if s.tagHeld ((s.stream low).rd o.s1).toNat then 1 else 0)) := by
  change execCtxfl o s = _
  rw [execCtxfl, State.lowest_of hact]
  exact congrArg Host.Outcome.next ((if_neg (by simp [h])).trans (if_neg (by simpa using extract_high_eq.mpr hw)))
end Exec

/-- Settles O43: what a swap squashes lies in windows, so that no lane of the instruction is touched; a save or a load of one team
moves its queues and tiles and then changes the team; a write-back takes the tag off the lines that it cleans. -/
theorem contextsMove : Obligations.ContextsMove := by
  unfold Obligations.ContextsMove
  refine ⟨fun s g d s2 k2 low rest hact hp hwin => ⟨fun hph => ?_, fun ht => ?_⟩,
    fun s o low rest hact hp ht => ⟨exec_ctxswSv_empty hact ht, exec_ctxswSv_address hact ht,
      fun tm va he ha hw hs => ?_, exec_ctxswLd_busy hact ht, exec_ctxswLd_address hact ht,
      fun va bs s1 n tm he ha hr hn hts hsh hfit => ?_⟩,
    fun s o low rest hact => ⟨exec_ctxfl_physical hact, fun hph hw hleft => ?_⟩, fun s tag htag => ?_⟩
  · change execCtxswSwap g d s2 k2 s = _
    rw [execCtxswSwap, State.lowest_of hact]
    dsimp only
    rw [State.ctxTrap_physical hph]
    rfl
  · intro cs
    refine ⟨fun hnone => ?_, fun tm htm hon => ?_⟩
    · rw [exec_ctxswSwap hact ht, if_pos (State.setsEmpty_iff.mpr hnone)]
      rfl
    · have hsome : ¬((s.activeOn cs).isEmpty && (s.shadowOn cs).isEmpty) = true := fun h => by
        rw [State.setsEmpty_iff.mp h tm htm] at hon
        cases hon
      obtain ⟨hteams, hmem, -, -⟩ := s.swap_turns cs
      have hex : exec (.ctxswSwap g d s2 k2) s = .next ((s.swap cs).retireLanes g fun st => (st.kill s2 k2).wr d 0) :=
        (exec_ctxswSwap hact ht).trans (congrArg Host.Outcome.next (if_neg hsome))
      refine ⟨_, hex, hteams, hmem, fun id hid => ?_⟩
      obtain ⟨hl, hg⟩ := State.mem_active.mp hid
      exact State.swap_completes (f := fun st => (st.kill s2 k2).wr d 0) hl hp hwin hg (fun st => by simp) fun st n b =>
        Stream.wr_regs_congr d 0 (Stream.kill_regs_congr s2 k2 rfl)
  · obtain ⟨himg, hteam, hflush⟩ := s.savedOne_leaves (s.who (s.stream low)) va s.curTeam.cluster tm
    exact ⟨_, exec_ctxswSv_saves hact ht he ha hw hs, himg, hteam, hflush⟩
  · generalize hlen : imageBytes = len at hr
    have hex := exec_ctxswLd_loads (core := ((s.stream low).rd o.s2).toNat) hact ht rfl he ha hlen hr hn hts hsh hfit
    refine ⟨_, hex, ?_, fun x hx => ?_⟩
    · change (State.images (s1.loadTeam _ tm)).filter _ = _
      rw [State.loadTeam_images]
    · have hx' : (s1.loadTeam (loadCore [tm] ((s.stream low).rd o.s2).toNat tm) tm).team? tm.tcx = some x := hx
      exact State.loadTeam_loaded hx'
  · refine ⟨_, exec_ctxfl_flushes hact hph hw, fun l hl ht => s.flushTag_clean hl ht, ?_⟩
    obtain ⟨m, v, l, h, hfr⟩ := s.writeBack_frame fun l => l.ctag == some ((s.stream low).rd o.s1).toNat
    have hval : (if s.tagHeld ((s.stream low).rd o.s1).toNat = true then (1 : Word) else 0) =
        if ∃ l ∈ s.vt.lines, l.ctag = some ((s.stream low).rd o.s1).toNat then 1 else 0 :=
      if_congr (State.tagHeld_calm hleft) rfl rfl
    rw [hval, State.flushTag_calm hleft, hfr]
    rfl
  · change ∃ t, execCtagFlushAck tag s = _ ∧ _
    rw [execCtagFlushAck, if_pos htag]
    refine ⟨_, rfl, ?_, fun l hl ht => s.flushTag_clean hl ht⟩
    change ndel (s.flushTag tag).vt.flushing tag = _
    rw [s.flushTag_flushing]
    rfl

end Sys2Proof.Machine
end
section
/-! PROOFS. The Joiner's commands, soft errors and the Sweeper (R224 to R227, R240, R241). -/
namespace Sys2Proof.Machine

/-! ### Shares -/

section Shares
variable {s t : State} {n m : Nat} {x : Share}

theorem State.share_setShare_same (s : State) (n : Nat) (x : Share) : (s.setShare n x).share n = x := by
  unfold State.share State.setShare
  dsimp only
  rw [sget_sset_same]
  split
  · next h => exact h.symm
  · rfl
theorem State.share_setShare_other (s : State) (x : Share) (h : m ≠ n) : (s.setShare n x).share m = s.share m := by
  unfold State.share State.setShare
  dsimp only
  rw [sget_sset_other _ _ _ h]
theorem State.share_congr (h : t.vt.shares = s.vt.shares) (n : Nat) : t.share n = s.share n := by
  unfold State.share
  rw [h]
theorem State.BankWork.shares (h : s.BankWork t) : t.vt.shares = s.vt.shares := by rw [h.frame]
end Shares

/-! ### A share that loses its role (R225, R229) -/

section Free
variable {s : State} {a n : Nat}

theorem State.turnAway_frame (s : State) (a n : Nat) :
    ∃ ss os ws, s.turnAway a n = { s with streams := ss, ops := os, vt := { s.vt with waiters := ws } } := by
  have hlanes : ∀ (o : MemOp) (f : Stream → Stream) (ls : List OpLane) (s : State),
      ∃ ss, ls.foldl (fun s l => (s.decCounter l.sid o.counter).onLane l.sid f) s = { s with streams := ss } := by
    intro o f ls
    induction ls with
    | nil => exact fun s => ⟨s.streams, rfl⟩
    | cons l ls ih =>
      intro s
      obtain ⟨ss, h⟩ := ih ((s.decCounter l.sid o.counter).onLane l.sid f)
      exact ⟨ss, h.trans rfl⟩
  unfold State.turnAway
  generalize (s.ops.filter fun o => o.phase == .waiting && decide (a ≤ o.word) && decide (o.word < a + n)) = os
  induction os generalizing s with
  | nil => exact ⟨s.streams, s.ops, s.vt.waiters, rfl⟩
  | cons o os ih =>
    rw [List.foldl_cons]
    refine (ih _).imp fun ss' => Exists.imp fun os' => Exists.imp fun ws' h' => h'.trans ?_
    rw [(hlanes o _ o.lanes s).choose_spec]
    rfl

/-- Every word of a range that has been filled is full. -/
theorem State.clearVault_full (s : State) {w : Nat} (h1 : a ≤ w) (h2 : w < a + n) (fuel : Nat) : w ∉ (s.clearVault a n fuel).vt.empty := by
  have hz : ∀ u : State, w ∉ ((u.mend (vaultKey + a) n).zeroVault a n).vt.empty := fun u hw => by
    have := (List.mem_filter.mp hw).2
    simp only [Bool.or_eq_true, decide_eq_true_eq] at this
    omega
  induction fuel generalizing s with
  | zero => exact hz s
  | succ fuel ih =>
    rw [State.clearVault]
    split
    · exact hz s
    · exact ih _
/-- With no waiter anywhere, no byte outside the range changes. -/
theorem State.clearVault_outside {k : Nat} (h : s.vt.waiters = []) (hk : k < vaultKey + a ∨ vaultKey + a + n ≤ k) (fuel : Nat) :
    memRead (s.clearVault a n fuel).mem k = memRead s.mem k := by
  have hz : ∀ u : State, memRead ((u.mend (vaultKey + a) n).zeroVault a n).mem k = memRead u.mem k := fun u =>
    (memRead_zeroRange u.mem _ _ _).trans (if_neg (by omega))
  have hserve : ∀ (l : List Nat) (u : State), u.vt.waiters = [] →
      l.foldl (fun u w => u.serveWaiters w (u.vt.waiters.length + 1)) u = u := fun l => by
    induction l with
    | nil => exact fun _ _ => rfl
    | cons w r ihl =>
      intro u hu
      rw [List.foldl_cons, State.serveWaiters_idle hu, ihl u hu]
  induction fuel generalizing s with
  | zero => exact hz s
  | succ fuel ih =>
    have hw : ((s.mend (vaultKey + a) n).zeroVault a n).vt.waiters = [] := h
    rw [State.clearVault]
    split
    · exact hz s
    · rw [hserve _ _ hw, ih hw, hz s]

theorem State.freeShare_share (s : State) (n : Nat) : (s.freeShare n).share n = (s.share n).idle := State.share_setShare_same _ _ _
theorem State.freeShare_other (s : State) {n m : Nat} (h : m ≠ n) : (s.freeShare n).share m = s.share m := by
  obtain ⟨ss, os, ws, ht⟩ := (s.fillVault (shareAddr n) 65536).turnAway_frame (shareAddr n) 65536
  have hfill : (s.fillVault (shareAddr n) 65536).vt.shares = s.vt.shares := (State.BankWork.clearVault s _ _ _).shares
  refine (State.share_setShare_other _ _ h).trans (State.share_congr ?_ m)
  rw [ht]
  exact hfill
/-- A share that has lost its role is zero and full. -/
theorem State.freeShare_cleared (s : State) (n : Nat) {w : Nat} (h1 : shareAddr n ≤ w) (h2 : w < shareAddr n + 65536) :
    memRead (s.freeShare n).mem (vaultKey + w) = 0 ∧ (s.freeShare n).wordEmpty w = false := by
  obtain ⟨ss, os, ws, ht⟩ := (s.fillVault (shareAddr n) 65536).turnAway_frame (shareAddr n) 65536
  have hz := s.clearVault_zero (a := shareAddr n) (n := 65536) (b := w - shareAddr n) (by omega) (s.vt.waiters.length + 1)
  have hkey : vaultKey + shareAddr n + (w - shareAddr n) = vaultKey + w := by omega
  rw [hkey] at hz
  have hf := s.clearVault_full h1 h2 (s.vt.waiters.length + 1)
  refine ⟨?_, decide_eq_false ?_⟩
  · unfold State.freeShare
    rw [ht]
    exact hz
  · unfold State.freeShare
    rw [ht]
    exact hf
theorem State.freeShare_outside {k : Nat} (h : s.vt.waiters = [])
    (hk : k < vaultKey + shareAddr n ∨ vaultKey + shareAddr n + 65536 ≤ k) :
    memRead (s.freeShare n).mem k = memRead s.mem k := by
  obtain ⟨ss, os, ws, ht⟩ := (s.fillVault (shareAddr n) 65536).turnAway_frame (shareAddr n) 65536
  unfold State.freeShare
  rw [ht]
  exact State.clearVault_outside h hk _
end Free

/-! ### Commands -/

section Join
variable {s : State} {n fn : Nat}

theorem State.joinStatus_eq {u : State} {x : Share} (hn : n < Config.shares) (hx : u.share n = x) (res : Nat) :
    u.joinStatus n res = BitVec.ofNat 4 x.role.code ++ BitVec.ofNat 8 (if x.role = .member ∨ x.role = .leaving then x.vcid else 0) ++
      BitVec.ofNat 4 res ++ (if x.role = .vault then x.owner else 0#16) := by
  have hc : Config.shares ≤ 32768 := by decide
  have hmod : n % 32768 = n := Nat.mod_eq_of_lt (by omega)
  unfold State.joinStatus
  dsimp only
  rw [hmod, if_neg (by omega), hx]
  congr 4
  simp
/-- A command that is refused leaves its status and nothing else. -/
theorem State.joinCommand_refused {op res : Nat} (hn : n < Config.shares) (hr : s.joinResult op n fn = res) (h0 : res ≠ 0) :
    s.joinCommand op n fn = { s with vt := { s.vt with joinStat := s.joinStatus n res } } := by
  have hc : Config.shares ≤ 32768 := by decide
  unfold State.joinCommand
  dsimp only
  rw [hr, if_neg h0, Nat.mod_eq_of_lt (by omega), if_neg (by omega)]
theorem State.joinCommand_done {op : Nat} (hn : n < Config.shares) (hr : s.joinResult op n fn = 0) :
    s.joinCommand op n fn = { s.joinDo op n with vt := { (s.joinDo op n).vt with joinStat := (s.joinDo op n).joinStatus n 0 } } := by
  have hc : Config.shares ≤ 32768 := by decide
  unfold State.joinCommand
  dsimp only
  rw [hr, if_pos rfl, Nat.mod_eq_of_lt (by omega), if_neg (by omega)]
theorem State.joinResult_missing {op : Nat} (hn : Config.shares ≤ n) : s.joinResult op n fn = 1 := by
  simp [State.joinResult, hn]
theorem State.joinCommand_missing {op : Nat} (hn : Config.shares ≤ n) (hm : n < 32768) :
    s.joinCommand op n fn = { s with vt := { s.vt with joinStat := s.joinStatus n 1 }, free := s.free + 1 } := by
  unfold State.joinCommand
  dsimp only
  rw [State.joinResult_missing hn, if_neg (by decide), Nat.mod_eq_of_lt hm, if_pos hn]
theorem State.joinStatus_missing (hn : Config.shares ≤ n) (hm : n < 32768) : (s.joinStatus n 1).extractLsb' 16 4 = 1#4 := by
  unfold State.joinStatus
  dsimp only
  rw [Nat.mod_eq_of_lt hm, if_pos hn]
  generalize BitVec.ofNat 4 (Config.pick s.free % 5) = x
  revert x
  decide
theorem exec_joinRelease_idle (h : s.joinBusy 2 n 0 = false) : exec (.joinRelease n) s = .next (s.joinCommand 2 n 0) :=
  congrArg Host.Outcome.next (if_neg (by simp [h]))
theorem State.joinBusy_refused {res : Nat} (hr : s.joinResult 2 n 0 = res) (h0 : res ≠ 0) : s.joinBusy 2 n 0 = false := by
  simp [State.joinBusy, hr, h0]
end Join

/-! ### Soft errors -/

section Errors
variable {s : State} {k : Nat} {c : Cause}

theorem State.endTeam_other {k x : Nat} (c : Cause) (h : x ≠ k) : (s.endTeam k c).team? x = s.team? x :=
  State.onTeam_other (fun tm => by split <;> rfl) h
theorem State.endTeams_frame (c : Cause) (ks : List Nat) (s : State) :
    ∃ ts, ks.foldl (fun s k => s.endTeam k c) s = { s with teams := ts } := by
  induction ks generalizing s with
  | nil => exact ⟨s.teams, rfl⟩
  | cons k ks ih =>
    obtain ⟨ts, h⟩ := ih (s.endTeam k c)
    exact ⟨ts, h.trans rfl⟩
theorem State.endTeams_unlisted (c : Cause) (ks : List Nat) (hk : k ∉ ks) (s : State) :
    (ks.foldl (fun s k => s.endTeam k c) s).team? k = s.team? k := by
  induction ks generalizing s with
  | nil => rfl
  | cons x ks ih =>
    obtain ⟨hx, hks⟩ := not_or.mp (mt List.mem_cons.mpr hk)
    exact (ih hks _).trans (State.endTeam_other c hx)
/-- Each team of a list ends once, with the cause. -/
theorem State.endTeams_listed (c : Cause) (ks : List Nat) (hk : k ∈ ks) (s : State) :
    (ks.foldl (fun s k => s.endTeam k c) s).team? k =
      (s.team? k).map fun t => if t.ended.isNone then { t with ended := some c, endedAt := s.gts } else t := by
  induction ks generalizing s with
  | nil => exact absurd hk List.not_mem_nil
  | cons x ks ih =>
    by_cases hx : k = x
    · subst hx
      by_cases hks : k ∈ ks
      · refine (ih hks _).trans ?_
        rw [s.endTeam_team? k c, Option.map_map]
        refine congrArg (fun f => Option.map f (s.team? k)) (funext fun t => ?_)
        by_cases hn : t.ended.isNone = true
        · rw [Function.comp, if_pos hn]
          rfl
        · rw [Function.comp, if_neg hn, if_neg hn]
      · exact (State.endTeams_unlisted c ks hks _).trans (s.endTeam_team? k c)
    · have hks : k ∈ ks := (List.mem_cons.mp hk).resolve_left hx
      refine (ih hks _).trans ?_
      rw [State.endTeam_other c hx]
      rfl

/-- The identities of the teams whose vault holds the line of an address. -/
def State.lineHolders (s : State) (a : Nat) : List Nat :=
  (s.teams.filter fun t => t.recd.asid == (s.share (shareOf a)).owner && t.recd.vaultKib != 0 &&
    decide (t.vaultBase.toNat < a / 128 * 128 + 128) && decide (a / 128 * 128 < t.vaultBase.toNat + t.recd.vaultKib * 1024)).map (·.tcx)
theorem State.mem_lineHolders {a : Nat} {x : Nat} : x ∈ s.lineHolders a ↔ ∃ t ∈ s.teams, t.tcx = x ∧
    t.recd.asid = (s.share (shareOf a)).owner ∧ t.recd.vaultKib ≠ 0 ∧ t.vaultBase.toNat < a / 128 * 128 + 128 ∧
      a / 128 * 128 < t.vaultBase.toNat + t.recd.vaultKib * 1024 := by
  simp only [State.lineHolders, List.mem_map, List.mem_filter, Bool.and_eq_true, beq_iff_eq, bne_iff_ne, decide_eq_true_eq, ne_eq]
  exact ⟨fun ⟨t, ⟨ht, ⟨⟨h1, h2⟩, h3⟩, h4⟩, hx⟩ => ⟨t, ht, hx, h1, h2, h3, h4⟩,
    fun ⟨t, ht, hx, h1, h2, h3, h4⟩ => ⟨t, ⟨ht, ⟨⟨h1, h2⟩, h3⟩, h4⟩, hx⟩⟩

/-- The first error of a share counts. -/
theorem State.countError_first {u : State} {n : Nat} (h : (u.share n).errors = 0) :
    (u.countError n).failShare n = u.setShare n { u.share n with errors := 1 } := by
  have hc : u.countError n = u.setShare n { u.share n with errors := 1 } := by
    unfold State.countError
    dsimp only
    rw [h, if_neg (by decide)]
  rw [hc]
  exact if_pos (by rw [State.share_setShare_same]; exact Nat.one_lt_two)
/-- An error in the vault of some teams ends them, and counts against the share (R240). -/
theorem State.vaultError_ends {a : Nat} (hr : (s.share (shareOf a)).role = .vault) (he : (s.share (shareOf a)).errors = 0)
    (hh : s.lineHolders a ≠ []) : ∃ ts, s.vaultError a = State.setShare { s with
        teams := ts, vt := { s.vt with broken := nins s.vt.broken (a / 4 * 4) } } (shareOf a)
          { s.share (shareOf a) with errors := 1 } ∧
      ∀ k, (s.vaultError a).team? k = if k ∈ s.lineHolders a then
        (s.team? k).map fun t => if t.ended.isNone then { t with ended := some cUncorrectable, endedAt := s.gts } else t else s.team? k := by
  let s0 : State := { s with vt := { s.vt with broken := nins s.vt.broken (a / 4 * 4) } }
  obtain ⟨ts, hts⟩ := State.endTeams_frame cUncorrectable (s.lineHolders a) s0
  have heq : s.vaultError a = State.setShare { s0 with teams := ts } (shareOf a) { s.share (shareOf a) with errors := 1 } := by
    have hlist : (if (s.share (shareOf a)).role = .vault then s.lineHolders a else []) = s.lineHolders a := if_pos hr
    have hemp : (s.lineHolders a).isEmpty = false := by simpa using hh
    have hv : s.vaultError a = (((s.lineHolders a).foldl (fun s t => s.endTeam t cUncorrectable) s0).countError (shareOf a)).failShare
        (shareOf a) := by
      unfold State.vaultError
      dsimp only
      unfold State.lineHolders at hlist hemp ⊢
      rw [hlist, hemp]
      rfl
    rw [hv, hts]
    exact State.countError_first he
  refine ⟨ts, heq, fun k => ?_⟩
  have hteams : (s.vaultError a).team? k = ((s.lineHolders a).foldl (fun s t => s.endTeam t cUncorrectable) s0).team? k := by
    rw [heq, hts]
    rfl
  rw [hteams]
  split
  · next hk => exact State.endTeams_listed cUncorrectable _ hk s0
  · next hk => exact State.endTeams_unlisted cUncorrectable _ hk s0

theorem State.team?_of_nodup {tm : Team} (h : tm ∈ s.teams) (hn : (s.teams.map Team.tcx).Nodup) : s.team? tm.tcx = some tm := by
  unfold State.team?
  generalize s.teams = l at h hn
  induction l with
  | nil => exact absurd h List.not_mem_nil
  | cons x l ih =>
    obtain ⟨hx, hl⟩ := List.nodup_cons.mp hn
    rcases List.mem_cons.mp h with rfl | h
    · exact List.find?_cons_of_pos (by simp)
    · rw [List.find?_cons_of_neg, ih h hl]
      simpa using fun he : x.tcx = tm.tcx => hx (he ▸ List.mem_map_of_mem h)

theorem exec_vaultError {a : Nat} (hs : shareOf a < Config.shares) : exec (.uncorrectableError (.vault a)) s = .next (s.vaultError a) :=
  congrArg Host.Outcome.next (if_pos hs)
end Errors

/-- Settles O58: what a release serves and turns away touches no share, and it ends with every byte zero and every word full; the first
error of a share ends each team of the line once. -/
theorem sharesAndSoftErrors : Obligations.SharesAndSoftErrors := by
  unfold Obligations.SharesAndSoftErrors
  refine ⟨fun s n fn => ?_, fun s n => rfl, fun s pa => ⟨_, rfl, rfl, ?_⟩, fun s a hs hr he => ?_⟩
  · intro x word answers owns
    have hword : ∀ (u : State) (y : Share) (res : Nat), n < Config.shares → u.share n = y → u.joinStatus n res = word y res :=
      fun u y res hlt hy => State.joinStatus_eq hlt hy res
    refine ⟨fun hge hlt i hi => ?_, fun hlt => ?_⟩
    · have hmiss : ∀ op fn, s.joinCommand op n fn = { s with vt := { s.vt with joinStat := s.joinStatus n 1 }, free := s.free + 1 } :=
        fun op fn => State.joinCommand_missing hge hlt
      refine ⟨_, s.joinStatus n 1, ?_, rfl, State.joinStatus_missing hge hlt⟩
      simp only [List.mem_cons, List.not_mem_nil, or_false] at hi
      rcases hi with rfl | rfl | rfl
      · exact congrArg Host.Outcome.next (hmiss 0 0)
      · exact congrArg Host.Outcome.next (hmiss 1 fn)
      · rw [exec_joinRelease_idle (State.joinBusy_refused (State.joinResult_missing hge) (by decide)), hmiss]
    · have hge : ¬Config.shares ≤ n := Nat.not_le.mpr hlt
      have hrefuse : ∀ {op res fn'}, s.joinResult op n fn' = res → res ≠ 0 →
          s.joinCommand op n fn' = { s with vt := { s.vt with joinStat := word x res } } := fun hr h0 =>
        (State.joinCommand_refused hlt hr h0).trans (by rw [hword s x _ hlt rfl])
      refine ⟨?_, fun ho => ?_, fun ho hf => ?_, fun ho hf => ?_, fun hv => ?_, fun hv hh => ?_, fun hv hh hb => ?_, fun hv hh hb => ?_⟩
      · have h0 : s.joinResult 0 n 0 = 0 := by simp [State.joinResult, hge]
        refine congrArg Host.Outcome.next ((State.joinCommand_done hlt h0).trans ?_)
        change { s with vt := { s.vt with joinStat := s.joinStatus n 0 } } = _
        rw [hword s x _ hlt rfl]
      · exact congrArg Host.Outcome.next (hrefuse (by simp [State.joinResult, hge, show s.ownsAsid fn _ = false from ho]) (by decide))
      · exact congrArg Host.Outcome.next (hrefuse
          (by simp [State.joinResult, hge, show s.ownsAsid fn _ = true from ho, show (s.share n).role ≠ _ from hf]) (by decide))
      · intro y
        have h0 : s.joinResult 1 n fn = 0 := by
          simp [State.joinResult, hge, show s.ownsAsid fn _ = true from ho, show (s.share n).role = _ from hf]
        have hy : (s.joinDo 1 n).share n = y := State.share_setShare_same _ _ _
        refine ⟨_, congrArg Host.Outcome.next (State.joinCommand_done hlt h0), ?_, hy, fun m hm => State.share_setShare_other _ _ hm⟩
        rw [hword _ y _ hlt hy]
        rfl
      · have h2 : s.joinResult 2 n 0 = 2 := by simp [State.joinResult, hge, show (s.share n).role ≠ _ from hv]
        exact (exec_joinRelease_idle (State.joinBusy_refused h2 (by decide))).trans (congrArg Host.Outcome.next (hrefuse h2 (by decide)))
      · have h3 : s.joinResult 2 n 0 = 3 := by simp [State.joinResult, hge, show (s.share n).role = _ from hv, hh]
        exact (exec_joinRelease_idle (State.joinBusy_refused h3 (by decide))).trans (congrArg Host.Outcome.next (hrefuse h3 (by decide)))
      · have h0 : s.joinResult 2 n 0 = 0 := by simp [State.joinResult, hge, show (s.share n).role = _ from hv, hh]
        exact congrArg Host.Outcome.next (if_pos (by simp [State.joinBusy, h0, hb]))
      · intro y
        have h0 : s.joinResult 2 n 0 = 0 := by simp [State.joinResult, hge, show (s.share n).role = _ from hv, hh]
        have hidle : s.joinBusy 2 n 0 = false := by simp [State.joinBusy, hb]
        have hy : (s.joinDo 2 n).share n = y := s.freeShare_share n
        refine ⟨_, (exec_joinRelease_idle hidle).trans (congrArg Host.Outcome.next (State.joinCommand_done hlt h0)), hy,
          hword _ y _ hlt hy, fun m hm => s.freeShare_other hm, fun w h1 h2 => s.freeShare_cleared n h1 h2,
          fun hw k hk => State.freeShare_outside hw hk⟩
  · change (nins s.vt.poison (pa / 32 * 32)).any _ = true
    refine List.any_eq_true.mpr ⟨pa / 32 * 32, mem_nins.mpr (.inl rfl), ?_⟩
    have := Nat.lt_div_mul_add (a := pa) (b := 32) (by decide)
    simp
    omega
  · intro x holds hex hn
    obtain ⟨tm0, htm0, h0⟩ := hex
    have hmem : tm0.tcx ∈ s.lineHolders a := State.mem_lineHolders.mpr ⟨tm0, htm0, rfl, h0⟩
    obtain ⟨ts, heq, hteam⟩ := State.vaultError_ends hr he (List.ne_nil_of_mem hmem)
    refine ⟨_, exec_vaultError hs, by rw [heq]; rfl, by rw [heq]; exact State.share_setShare_same _ _ _, fun w => ?_, fun tm htm => ?_⟩
    · rw [heq]
      exact mem_nins.trans or_comm
    · have hfind := State.team?_of_nodup htm hn
      rw [hteam, hfind]
      by_cases hh : holds tm
      · have hin : tm.tcx ∈ s.lineHolders a := State.mem_lineHolders.mpr ⟨tm, htm, rfl, hh⟩
        rw [if_pos hin]
        simp [hh, Option.isNone_iff_eq_none]
        rfl
      · have hout : tm.tcx ∉ s.lineHolders a := fun hin => by
          obtain ⟨t', ht', he', hh'⟩ := State.mem_lineHolders.mp hin
          have hsame := State.team?_of_nodup ht' hn
          rw [he', hfind] at hsame
          exact hh (Option.some.inj hsame ▸ hh')
        rw [if_neg hout, if_neg fun h => hh h.1]

end Sys2Proof.Machine
end
section
/-! PROOFS. The segment directory (R234, R235, R258, R351). -/
namespace Sys2Proof.Machine

/-! ### What work on lines leaves -/

/-- A cache but for the state of its definition. -/
def VCache.still (c : VCache) : VCache := { c with state := .defined }

/-- Nothing differs but memory, the lines of the caches, the errors of migrations, and what a link that is down counts. -/
structure State.LineWork (s t : State) : Prop where
  frame : t = { s with
    mem := t.mem, free := t.free, hif := t.hif, links := { s.links with discarded := t.links.discarded }
    vt := { s.vt with poison := t.vt.poison, caches := t.vt.caches, lines := t.vt.lines } }
  caches : t.vt.caches.map VCache.still = s.vt.caches.map VCache.still

namespace State.LineWork
variable {s t u : State}

theorem refl (s : State) : s.LineWork s := ⟨rfl, rfl⟩
theorem trans (h : s.LineWork t) (h' : t.LineWork u) : s.LineWork u := by
  refine ⟨?_, h'.caches.trans h.caches⟩
  rw [h'.frame, h.frame]
theorem foldl {α : Type} {f : State → α → State} (hf : ∀ (s : State) (a : α), s.LineWork (f s a)) (l : List α) (s : State) :
    s.LineWork (l.foldl f s) := by
  induction l generalizing s with
  | nil => exact refl s
  | cons a r ih => exact (hf s a).trans (ih _)
theorem streams (h : s.LineWork t) : t.streams = s.streams := by rw [h.frame]
theorem ops (h : s.LineWork t) : t.ops = s.ops := by rw [h.frame]
theorem dir (h : s.LineWork t) (k : Nat) : t.dir k = s.dir k := by rw [h.frame]; rfl
theorem keyDown (h : s.LineWork t) (k : Nat) : t.keyDown k = s.keyDown k := by rw [h.frame]; rfl
theorem share (h : s.LineWork t) (n : Nat) : t.share n = s.share n := by rw [h.frame]; rfl
theorem stream? (h : s.LineWork t) (id : SId) : t.stream? id = s.stream? id := by rw [h.frame]; rfl
theorem stream (h : s.LineWork t) (id : SId) : t.stream id = s.stream id := by rw [h.frame]; rfl
theorem op? (h : s.LineWork t) (n : Nat) : t.op? n = s.op? n := by rw [h.frame]; rfl
theorem cache_still (h : s.LineWork t) (v : Nat) : (t.cache? v).map VCache.still = (s.cache? v).map VCache.still := by
  have hfind : ∀ cs : List VCache, (cs.find? fun c => c.vcid = v).map VCache.still =
      (cs.map VCache.still).find? fun c => c.vcid = v := fun cs => by
    rw [List.find?_map]
    rfl
  rw [State.cache?, State.cache?, hfind, hfind, h.caches]
theorem cache_repl (h : s.LineWork t) (v : Nat) : (t.cache? v).map VCache.repl = (s.cache? v).map VCache.repl := by
  have hm : ∀ o : Option VCache, o.map VCache.repl = (o.map VCache.still).map VCache.repl := fun o => by cases o <;> rfl
  rw [hm, h.cache_still, ← hm]

theorem putHome (s : State) (k : Nat) (bs : List Byte) : s.LineWork (s.putHome k bs) := by
  unfold State.putHome
  split
  · split <;> exact ⟨rfl, rfl⟩
  · exact ⟨rfl, rfl⟩
theorem onLines (s : State) (p : Line → Bool) (f : Line → Line) : s.LineWork (s.onLines p f) := ⟨rfl, rfl⟩
theorem dropLines (s : State) (p : Line → Bool) : s.LineWork (s.dropLines p) := ⟨rfl, rfl⟩
theorem errorAfter_still (ls : List Line) (p : Line → Bool) (cs : List VCache) :
    (errorAfter ls p cs).map VCache.still = cs.map VCache.still := by
  rw [errorAfter, List.map_map]
  refine List.map_congr_left fun c _ => ?_
  dsimp only [Function.comp]
  split <;> rfl
theorem writeBack (s : State) (p : Line → Bool) : s.LineWork (s.writeBack p) := by
  have h := foldl (f := fun s (l : Line) => s.putHome l.base l.data) (fun s l => putHome s l.base l.data)
    (s.vt.lines.filter fun l => p l && l.dirty) s
  unfold State.writeBack
  refine h.trans ⟨rfl, ?_⟩
  exact (errorAfter_still _ _ _).trans h.caches.symm
theorem makeRoom (s : State) (c : VCache) (rep : Option Nat) (set : Nat) : s.LineWork (s.makeRoom c rep set) := by
  unfold State.makeRoom
  dsimp only
  split
  · exact refl s
  · split
    · exact refl s
    · exact (writeBack s _).trans ⟨rfl, rfl⟩
theorem fillLine (s : State) (c : VCache) (rep : Option Nat) (k : Nat) (req : Option Prio) : s.LineWork (s.fillLine c rep k req) := by
  unfold State.fillLine
  dsimp only
  split
  · exact refl s
  · exact (makeRoom s c rep _).trans ⟨rfl, rfl⟩
theorem moveLine (s : State) (c : VCache) (rep : Option Nat) (k : Nat) : s.LineWork (s.moveLine c rep k) := by
  unfold State.moveLine
  split
  · exact refl s
  · dsimp only
    split
    · exact refl s
    · exact (makeRoom s c rep _).trans ⟨rfl, rfl⟩
theorem replicaPut (s : State) (vcid c key : Nat) (bs : List Byte) (dirty : Bool) (ctag : Option Nat) (req : Option Prio) :
    s.LineWork (s.replicaPut vcid c key bs dirty ctag req) := by
  unfold State.replicaPut
  split
  · exact refl s
  · dsimp only
    split
    · exact dropLines s _
    · exact (moveLine s _ _ _).trans (onLines _ _ _)
theorem releaseTag (s : State) (ctag : Nat) : s.LineWork (s.releaseTag ctag) := by
  unfold State.releaseTag
  split
  · exact writeBack s _
  · exact refl s
end State.LineWork

/-! ### Entries -/

section Entry
variable {s : State} {seg k : Nat} {d : Dir}

@[simp] theorem State.dir_setDir_same (s : State) (seg : Nat) (d : Dir) : (s.setDir seg d).dir seg = d := sget_sset_same _ _ _ _
theorem State.dir_setDir_other (s : State) (d : Dir) (h : k ≠ seg) : (s.setDir seg d).dir k = s.dir k := sget_sset_other _ _ _ h

/-- An eviction drops the lines of its segment, those of an owner after they have been written back. -/
theorem State.dirDrop_spec (s : State) (seg : Nat) : (s.dirDrop seg).streams = s.streams ∧ (s.dirDrop seg).ops = s.ops ∧
    (∀ k, k ≠ seg → (s.dirDrop seg).dir k = s.dir k) ∧
    match s.dir seg with
      | .S _ => (s.dirDrop seg).dir seg = .T [] none ∧ (s.dirDrop seg).mem = s.mem ∧
          ∀ l, l ∈ (s.dirDrop seg).vt.lines ↔ l ∈ s.vt.lines ∧ l.inSeg seg = false
      | .O _ => (s.dirDrop seg).dir seg = .T [] none ∧ ∀ l ∈ (s.dirDrop seg).vt.lines, l.inSeg seg = false
      | .I => s.dirDrop seg = s
      | .T _ _ => s.dirDrop seg = s := by
  cases hd : s.dir seg with
  | I =>
    have h : s.dirDrop seg = s := by rw [State.dirDrop, hd]
    rw [h]
    exact ⟨rfl, rfl, fun _ _ => rfl, rfl⟩
  | T a b =>
    have h : s.dirDrop seg = s := by rw [State.dirDrop, hd]
    rw [h]
    exact ⟨rfl, rfl, fun _ _ => rfl, rfl⟩
  | S set =>
    have h : s.dirDrop seg = (s.dropLines fun l => l.inSeg seg).setDir seg (transit .I) := by rw [State.dirDrop, hd]
    rw [h]
    refine ⟨rfl, rfl, fun k hk => State.dir_setDir_other _ _ hk, State.dir_setDir_same _ _ _, rfl, fun l => ?_⟩
    exact List.mem_filter.trans (by simp)
  | O o =>
    have h : s.dirDrop seg = ((s.flushOwner seg o).dropLines fun l => l.inSeg seg).setDir seg (transit .I) := by rw [State.dirDrop, hd]
    have hw := (State.LineWork.writeBack s fun l => l.inSeg seg && l.rep == some o).trans (.dropLines _ fun l => l.inSeg seg)
    rw [h]
    refine ⟨hw.streams, hw.ops, fun k hk => (State.dir_setDir_other _ _ hk).trans (hw.dir k), State.dir_setDir_same _ _ _,
      fun l hl => ?_⟩
    simpa using (List.mem_filter.mp hl).2

/-! ### The end of a transit -/

theorem State.finishSg_frame (s : State) (o : MemOp) : ∃ ss, s.finishSg o = State.removeOp { s with streams := ss } o.num := by
  have h : ∀ (ls : List OpLane) (s : State), ∃ ss, ls.foldl (fun s l => s.finishLane o l.sid none) s = { s with streams := ss } := by
    intro ls
    induction ls with
    | nil => exact fun s => ⟨s.streams, rfl⟩
    | cons l ls ih =>
      intro s
      obtain ⟨ss, h⟩ := ih (s.finishLane o l.sid none)
      exact ⟨ss, h.trans rfl⟩
  obtain ⟨ss, h⟩ := h o.lanes s
  exact ⟨ss, congrArg (fun u : State => u.removeOp o.num) h⟩
theorem mem_of_removeOp {n : Nat} {o : MemOp} (h : o ∈ (s.removeOp n).ops) : o ∈ s.ops ∧ o.num ≠ n := by
  simp only [State.removeOp, pruneFences, List.mem_filter] at h
  exact ⟨h.1.1.1, by simpa using h.1.1.2⟩
/-- The segment instructions that end are removed, and nothing but streams and operations changes. -/
theorem State.finishSgs_frame (l : List MemOp) (s : State) : ∃ ss os, l.foldl State.finishSg s = { s with streams := ss, ops := os } ∧
    ∀ o ∈ os, o ∈ s.ops ∧ ∀ x ∈ l, o.num ≠ x.num := by
  induction l generalizing s with
  | nil => exact ⟨s.streams, s.ops, rfl, fun o ho => ⟨ho, fun _ h => absurd h List.not_mem_nil⟩⟩
  | cons a l ih =>
    obtain ⟨ss', h'⟩ := s.finishSg_frame a
    obtain ⟨ss, os, h, hos⟩ := ih (s.finishSg a)
    refine ⟨ss, os, ?_, fun o ho => ?_⟩
    · rw [List.foldl_cons, h, h']
      rfl
    · obtain ⟨hmem, hne⟩ := hos o ho
      rw [h'] at hmem
      obtain ⟨hs, hn⟩ := mem_of_removeOp hmem
      refine ⟨hs, fun x hx => ?_⟩
      rcases List.mem_cons.mp hx with rfl | hx
      · exact hn
      · exact hne x hx
/-- The state that a transit leaves. -/
def Dir.settled : Dir → Dir
  | .T _ (some o) => .O o
  | .T set none => dirOfSharers set
  | d => d
theorem State.transitEnd_spec (s : State) (seg : Nat) :
    (s.sgWaiting seg = [] → s.transitEnd seg = { s with vt := { s.vt with dirs := (s.transitEnd seg).vt.dirs } }) ∧
    (∀ k, k ≠ seg → (s.transitEnd seg).dir k = s.dir k) ∧
    (∀ a b, s.dir seg = .T a b → ∀ o ∈ s.sgWaiting seg, (s.transitEnd seg).op? o.num = none) ∧
    (s.transitEnd seg).dir seg = (s.dir seg).settled := by
  cases hd : s.dir seg with
  | T set owner =>
    have ht : s.transitEnd seg = (s.sgWaiting seg).foldl State.finishSg (s.setDir seg (Dir.settled (.T set owner))) := by
      rw [State.transitEnd, hd]
      cases owner <;> rfl
    obtain ⟨ss, os, h, hos⟩ := State.finishSgs_frame (s.sgWaiting seg) (s.setDir seg (Dir.settled (.T set owner)))
    rw [ht, h]
    refine ⟨fun hnil => ?_, fun k hk => State.dir_setDir_other s _ hk, fun _ _ _ o ho => ?_, State.dir_setDir_same s _ _⟩
    · rw [hnil] at h
      rw [← h]
      rfl
    · rw [State.op?, List.find?_eq_none]
      intro x hx
      simpa using (hos x hx).2 o ho
  | _ =>
    have ht : s.transitEnd seg = s := by rw [State.transitEnd, hd]
    rw [ht]
    exact ⟨fun _ => rfl, fun _ _ => rfl, fun _ _ h => Dir.noConfusion h, hd⟩

/-- An entry that is there, or has room, evicts none. -/
theorem State.dirRoom_of (h : s.DirRoom seg) : s.dirRoom seg = s := by
  unfold State.dirRoom
  refine if_pos ?_
  rw [Bool.or_eq_true, decide_eq_true_eq]
  rcases h with h | h
  · refine .inr ?_
    obtain ⟨e, he, hs⟩ := List.any_eq_true.mp h
    refine List.any_eq_true.mpr ⟨e, List.mem_filter.mpr ⟨he, ?_⟩, hs⟩
    rw [beq_iff_eq.mp hs]
    exact beq_self_eq_true _
  · exact .inl h
end Entry

/-! ### Transitions that an instruction asks for -/

/-- One entry becomes `d`: streams, operations, the other entries and the kinds of the caches stay. -/
structure State.DirStep (s t : State) (seg : Nat) (d : Dir) : Prop where
  streams : t.streams = s.streams
  ops : t.ops = s.ops
  others : ∀ k, k ≠ seg → t.dir k = s.dir k
  here : t.dir seg = d
  repl : ∀ v, (t.cache? v).map VCache.repl = (s.cache? v).map VCache.repl

section Step
variable {s t u : State} {seg r : Nat} {d : Dir}

theorem State.DirStep.refl (h : s.dir seg = d) : s.DirStep s seg d := ⟨rfl, rfl, fun _ _ => rfl, h, fun _ => rfl⟩
theorem State.LineWork.setDir (h : s.LineWork u) (seg : Nat) (d : Dir) : s.DirStep (u.setDir seg d) seg d :=
  ⟨h.streams, h.ops, fun k hk => (u.dir_setDir_other d hk).trans (h.dir k), u.dir_setDir_same seg d, h.cache_repl⟩

/-- What `sgacq` or `sgrel` from replica r makes of an entry (R234). -/
def sgAfter (acq : Bool) (r : Nat) : Dir → Dir
  | .I => if acq then .O r else .I
  | .S set => if acq then (if set = [r] then .O r else .T [] (some r)) else .S set
  | .O x => if acq then (if x = r then .O r else .T [] (some r)) else if x = r then .T [r] none else .O x
  | x => x

theorem State.dirAcquire_step (hroom : s.DirRoom seg) : s.DirStep (s.dirAcquire r seg) seg (sgAfter true r (s.dir seg)) := by
  unfold State.dirAcquire
  dsimp only
  rw [State.dirRoom_of hroom]
  cases hd : s.dir seg with
  | I => exact (State.LineWork.refl s).setDir seg _
  | S set =>
    have h := (State.LineWork.dropLines s fun l => l.inSeg seg && l.rep != some r).setDir seg (if set = [r] then .O r else .T [] (some r))
    exact h
  | O o =>
    dsimp only [sgAfter]
    split
    · next h => exact .refl (h ▸ hd)
    · have h := (State.LineWork.writeBack s fun l => l.inSeg seg && l.rep == some o).trans
        (.dropLines _ fun l => l.inSeg seg && l.rep == some o)
      exact h.setDir seg _
  | T a b => exact .refl hd
theorem State.dirAcquire_lines (hroom : s.DirRoom seg) {set : List Nat} (hd : s.dir seg = .S set) :
    ∀ y ∈ (s.dirAcquire r seg).vt.lines, y.inSeg seg = true → y.rep = some r := by
  have h : s.dirAcquire r seg = (s.invalidateOthers seg r).setDir seg (if set = [r] then .O r else transit (.O r)) := by
    unfold State.dirAcquire
    dsimp only
    rw [State.dirRoom_of hroom, hd]
  rw [h]
  intro y hy hs
  have := (List.mem_filter.mp hy).2
  simpa [hs] using this
theorem State.dirRelease_step : s.DirStep (s.dirRelease r seg) seg (sgAfter false r (s.dir seg)) := by
  unfold State.dirRelease
  cases hd : s.dir seg with
  | O o =>
    dsimp only [sgAfter]
    split
    · next h =>
      subst h
      exact (State.LineWork.writeBack s fun l => l.inSeg seg && l.rep == some o).setDir seg _
    · exact .refl hd
  | _ => exact .refl hd

/-! ### `sgacq` and `sgrel` -/

theorem State.onOp_op? {n : Nat} {o : MemOp} {f : MemOp → MemOp} (hf : ∀ x : MemOp, (f x).num = x.num) (h : s.op? n = some o) :
    (s.onOp n f).op? n = some (f o) := by
  simp only [State.op?, State.onOp, List.find?_map] at h ⊢
  have hp : ((fun o : MemOp => decide (o.num = n)) ∘ fun o => if o.num = n then f o else o) = fun o => decide (o.num = n) := by
    funext x
    dsimp only [Function.comp]
    split
    · rw [hf]
    · rfl
  rw [hp, h]
  exact congrArg some (if_pos (by simpa using List.find?_some h))

theorem State.inTransit_iff {o : MemOp} {c : VCache} (hc : (s.cache? o.loc.vcid).map VCache.repl = some c.repl) (hr : c.repl = true) :
    s.inTransit o = true ↔ ∃ a b, s.dir (segOf o.loc.key) = .T a b := by
  have hmap : ((s.cache? o.loc.vcid).map (·.repl)).getD false = true := by
    rw [show ((s.cache? o.loc.vcid).map (·.repl)) = some c.repl from hc, hr]
    rfl
  unfold State.inTransit
  rw [hmap, Bool.true_and]
  cases s.dir (segOf o.loc.key) <;> simp
theorem State.performable_stays {o : MemOp} (h : s.performable o = true) : o.phase ≠ .left := by
  intro hp
  simp [State.performable, hp] at h

/-- The step of `sgacq` or `sgrel`, with the state after the transition at hand (R258). -/
theorem State.doSg_spec {o : MemOp} {c : VCache} {acq : Bool} {n : Nat} (ho : s.op? n = some o)
    (hc : s.cache? o.loc.vcid = some c) (hr : c.repl = true)
    (hperf : s.performable o = true) (hT : ∀ a b, s.dir (segOf o.loc.key) ≠ .T a b)
    (hu : (if acq then s.dirAcquire (c.replica o.cluster) (segOf o.loc.key) else s.dirRelease (c.replica o.cluster) (segOf o.loc.key)) = u)
    (hstep : s.DirStep u (segOf o.loc.key) d) :
    ((∀ a b, d ≠ .T a b) → s.doSg o acq = u.endOp o o.blanks) ∧
      (∀ a b, d = .T a b → s.doSg o acq = u.onOp n fun o => { o with phase := .left }) := by
  have hmap : (s.cache? o.loc.vcid).map VCache.repl = some c.repl := by rw [hc]; rfl
  have hidle : s.inTransit o = false := by
    rw [Bool.eq_false_iff]
    intro h
    obtain ⟨a, b, h⟩ := (State.inTransit_iff hmap hr).mp h
    exact hT a b h
  have heq : s.doSg o acq = if u.inTransit o then u.onOp o.num fun o => { o with phase := .left } else u.endOp o o.blanks := by
    unfold State.doSg
    rw [hc]
    dsimp only
    rw [hidle, Bool.false_or, if_neg (by simpa using State.performable_stays hperf), hu]
  have hiff := State.inTransit_iff ((hstep.repl _).trans hmap) hr
  rw [hstep.here] at hiff
  refine ⟨fun hd => ?_, fun a b hd => ?_⟩
  · rw [heq, if_neg fun h => ?_]
    obtain ⟨a, b, h⟩ := hiff.mp h
    exact hd a b h
  · rw [heq, if_pos (hiff.mpr ⟨a, b, hd⟩), State.num_of_op? ho]
/-- The end of an operation of one lane that gives no value. -/
theorem State.endOp_blank {o : MemOp} {l : OpLane} (hs : o.single = true) (hret : o.returns = false) (hl : o.lanes = [l])
    (hp : s.Present [l.sid]) : s.Ended (s.endOp o o.blanks) o l.sid none := by
  have h := State.endOp_one hs hl hp (fun h => by rw [hret] at h; cases h) (fun h => by rw [hret] at h; cases h) 0
  rw [hret] at h
  rw [MemOp.blanks, hl]
  exact h
theorem State.Ended.dir {o : MemOp} {id : SId} {v : Option DWord} (h : s.Ended t o id v) (k : Nat) : t.dir k = s.dir k := by
  rw [h.frame]
  rfl
end Step

/-! ### Stores through a replica -/

section Store
variable {s t : State} {n : Nat} {o : MemOp} {c : VCache}

theorem State.cache_vcid {v : Nat} (h : s.cache? v = some c) : c.vcid = v := by simpa using List.find?_some h

/-- What a store that takes effect in its replica works on: the lines of the context's release, then those of the replica. -/
def State.storing (s : State) (c : VCache) (o : MemOp) : State :=
  (if ordReleases o.ord then s.releaseTag o.ctag else s).replicaPut o.loc.vcid (c.replica o.cluster) o.loc.key o.bytes
    (s.staysLocal c (c.replica o.cluster) o.loc.key) (some o.ctag) (s.fillRequest o)
theorem State.storing_work (s : State) (c : VCache) (o : MemOp) : s.LineWork (s.storing c o) := by
  have h : s.LineWork (if ordReleases o.ord then s.releaseTag o.ctag else s) := by
    split
    · exact .releaseTag s _
    · exact .refl s
  exact h.trans (.replicaPut _ _ _ _ _ _ _ _)
theorem exec_dirStore_issued (ho : s.op? n = some o) (hc : s.cache? o.loc.vcid = some c) (hr : c.repl = true) (hk : o.kind = .store)
    (hph : o.phase = .issued) (hperf : s.performable o = true) (hq : s.quiet n o.loc.key o.size = true)
    (hl : s.linkDown o.loc = false) (hsh : s.shutHost (s.opFn o) o.loc = false) : exec (.dirStore n) s =
      .next (if s.staysLocal c (c.replica o.cluster) o.loc.key then (s.storing c o).endOp o o.blanks
        else ((s.storing c o).noteDone o [o.num]).onOp o.num fun o => { o with phase := .left }) := by
  rw [← State.num_of_op? ho] at hq
  have hph' : o.phase ≠ .left := by rw [hph]; exact fun h => nomatch h
  change execDirStore n s = _
  rw [execDirStore, ho]
  dsimp only
  rw [hc]
  dsimp only
  rw [hr, hk]
  dsimp only
  rw [if_neg (by simp), if_neg hph', hperf, hq, hl, hsh]
  rfl
theorem exec_dirStore_left (ho : s.op? n = some o) (hc : s.cache? o.loc.vcid = some c) (hr : c.repl = true) (hk : o.kind = .store)
    (hph : o.phase = .left) : exec (.dirStore n) s = .next (if s.inTransit o then s else (s.arriveLeft c o).endOp o o.blanks) := by
  change execDirStore n s = _
  rw [execDirStore, ho]
  dsimp only
  rw [hc]
  dsimp only
  rw [hr, hk]
  dsimp only
  rw [if_neg (by simp), if_pos hph]

/-- A write that reaches the home of a segment without sharers. -/
theorem State.dirWrite_unheld {r key : Nat} {bs : List Byte} (h : s.dir (segOf key) = .I) : s.dirWrite r key bs = s.putHome key bs := by
  unfold State.dirWrite
  dsimp only
  rw [h]
/-- One that reaches the home of a segment with sharers leaves the lines of its own replica, with the entry that they give. -/
theorem State.dirWrite_shared {r key : Nat} {bs : List Byte} {set : List Nat} (h : s.dir (segOf key) = .S set) :
    (s.dirWrite r key bs).streams = s.streams ∧ (∀ k, k ≠ segOf key → (s.dirWrite r key bs).dir k = s.dir k) ∧
    (s.dirWrite r key bs).mem = (s.putHome key bs).mem ∧ (s.dirWrite r key bs).dir (segOf key) = (match s.holds (segOf key) r, decide (set = [r]) with
      | true, true => .S [r]
      | true, false => .T [r] none
      | false, true => .I
      | false, false => .T [] none) ∧ ∀ y ∈ (s.dirWrite r key bs).vt.lines, y.inSeg (segOf key) = true → y.rep = some r := by
  have hw : s.dirWrite r key bs = ((s.putHome key bs).invalidateOthers (segOf key) r).setDir (segOf key)
      (if set = [r] then (if ((s.putHome key bs).invalidateOthers (segOf key) r).holds (segOf key) r then Dir.S [r] else Dir.I)
        else transit (if ((s.putHome key bs).invalidateOthers (segOf key) r).holds (segOf key) r then Dir.S [r] else Dir.I)) := by
    unfold State.dirWrite
    dsimp only
    rw [h]
  have hlines : (s.putHome key bs).vt.lines = s.vt.lines := by
    unfold State.putHome
    split
    · split <;> rfl
    · rfl
  have hholds : ((s.putHome key bs).invalidateOthers (segOf key) r).holds (segOf key) r = s.holds (segOf key) r := by
    change ((s.putHome key bs).vt.lines.filter _).any _ = _
    rw [hlines, List.any_filter]
    unfold State.holds
    refine congrArg (fun p => s.vt.lines.any p) (funext fun l => ?_)
    cases l.inSeg (segOf key) <;> cases hrep : l.rep == some r <;> simp_all
  rw [hw, hholds]
  have hput := (State.LineWork.putHome s key bs).trans (.dropLines _ fun l => l.inSeg (segOf key) && l.rep != some r)
  refine ⟨hput.streams, fun k hk => (State.dir_setDir_other _ _ hk).trans (hput.dir k), rfl, ?_, fun y hy hs => ?_⟩
  · rw [State.dir_setDir_same]
    by_cases hset : set = [r] <;> cases s.holds (segOf key) r <;> simp [hset, transit]
  · have := (List.mem_filter.mp hy).2
    simpa [hs] using this

theorem State.putHome_stored {k : Nat} {bs : List Byte} (h : s.keyDown k = false) : Stored s.mem (s.putHome k bs).mem k bs := by
  rw [State.putHome, if_neg (by simp [h])]
  exact stored_memWriteN _ _ _
theorem State.putHome_down {k : Nat} {bs : List Byte} (h : s.keyDown k = true) : (s.putHome k bs).mem = s.mem := by
  rw [State.putHome, if_pos h]
  split <;> rfl
end Store

/-! ### Read misses -/

section Miss
variable {s : State} {c : VCache} {rep : Option Nat} {k : Nat}

theorem overlay_length (k : Nat) (bs : List Byte) (k' : Nat) (new : List Byte) : (overlay k bs k' new).length = bs.length := by
  simp [overlay]
theorem State.arrived_length (s : State) (c : VCache) (rep : Option Nat) (k : Nat) (bs : List Byte) :
    (s.arrived c rep k bs).length = bs.length := by
  unfold State.arrived
  split
  · rfl
  · generalize s.ops = os
    induction os generalizing bs with
    | nil => rfl
    | cons o os ih =>
      rw [List.foldl_cons, ih]
      split
      · exact overlay_length _ _ _ _
      · rfl
/-- A fill leaves a line that holds the byte. -/
theorem State.fillLine_fills (h : s.fillShares c rep ≠ []) (hl : 0 < c.line) (req : Option Prio) :
    ((s.fillLine c rep k req).line? c.vcid rep k).isSome = true := by
  have hne : (s.fillShares c rep).isEmpty = false := by simpa using h
  unfold State.fillLine
  dsimp only
  rw [hne, if_neg (by decide)]
  unfold State.line?
  rw [List.find?_isSome]
  refine ⟨_, List.mem_append_right _ (List.mem_singleton_self _), ?_⟩
  have hlen : ∀ u : State, (u.arrived c rep (k / c.line * c.line) (u.readHome (k / c.line * c.line) c.line)).length = c.line := fun u => by
    rw [State.arrived_length, State.readHome, memReadN_length]
  have h1 := Nat.div_mul_le_self k c.line
  have h2 := Nat.lt_div_mul_add (a := k) hl
  simp [Line.covers, hlen, h1, h2]

/-- What a read miss from replica k makes of an entry (R234). -/
def missAfter (k : Nat) : Dir → Dir
  | .I => .S [k]
  | .S set => .S (nins set k)
  | .O x => if x = k then .O x else .T (nins [x] k) none
  | x => x
theorem State.dirRead_step {addr : Nat} (hroom : s.DirRoom (segOf addr)) (hT : ∀ a b, s.dir (segOf addr) ≠ .T a b)
    (hsh : s.fillShares c (some k) ≠ []) (hl : 0 < c.line) (req : Option Prio) :
    (s.dirRead c k addr req).streams = s.streams ∧ (s.dirRead c k addr req).ops = s.ops ∧
      ((s.dirRead c k addr req).line? c.vcid (some k) addr).isSome = true ∧
      (s.dirRead c k addr req).dir (segOf addr) = missAfter k (s.dir (segOf addr)) := by
  have hstep : ∃ u, s.dirRead c k addr req = u.fillLine c (some k) addr req ∧
      s.DirStep u (segOf addr) (missAfter k (s.dir (segOf addr))) ∧ u.fillShares c (some k) = s.fillShares c (some k) := by
    unfold State.dirRead
    dsimp only
    rw [State.dirRoom_of hroom]
    cases hd : s.dir (segOf addr) with
    | I => exact ⟨_, rfl, (State.LineWork.refl s).setDir _ _, rfl⟩
    | S set => exact ⟨_, rfl, (State.LineWork.refl s).setDir _ _, rfl⟩
    | O x =>
      refine ⟨_, rfl, ?_⟩
      dsimp only [missAfter]
      split
      · exact ⟨.refl hd, rfl⟩
      · have hw := State.LineWork.writeBack s fun l => l.inSeg (segOf addr) && l.rep == some x
        refine ⟨hw.setDir _ _, ?_⟩
        have hsame : ∀ n, State.share ((s.flushOwner (segOf addr) x).setDir (segOf addr) (transit (.S (nins [x] k)))) n = s.share n :=
          hw.share
        unfold State.fillShares
        simp only [hsame]
    | T a b => exact absurd hd (hT a b)
  obtain ⟨u, hu, hst, hfill⟩ := hstep
  have hw := State.LineWork.fillLine u c (some k) addr req
  rw [hu]
  exact ⟨hw.streams.trans hst.streams, hw.ops.trans hst.ops, State.fillLine_fills (by rw [hfill]; exact hsh) hl req,
    (hw.dir _).trans hst.here⟩
end Miss

/-! ### The steps of one operation -/

section Ops
variable {s t u : State} {n : Nat} {o : MemOp} {l : OpLane} {c : VCache}

/-- An operation of one lane has ended without a value, and no entry but that of its segment has changed. -/
def State.OpEnds (s t : State) (n : Nat) (o : MemOp) (id : SId) : Prop :=
  t.op? n = none ∧ (t.stream id).bare = { s.stream id with cnt := (s.stream id).cnt.dec o.counter }.bare ∧
    ∀ k, k ≠ segOf o.loc.key → t.dir k = s.dir k
theorem State.Ended.opEnds (ho : s.op? n = some o) (hu : u.streams = s.streams)
    (hdir : ∀ k, k ≠ segOf o.loc.key → u.dir k = s.dir k) (h : u.Ended t o l.sid none) : s.OpEnds t n o l.sid := by
  refine ⟨State.num_of_op? ho ▸ h.gone, ?_, fun k hk => (h.dir k).trans (hdir k hk)⟩
  have hlane := h.lane
  rw [State.stream_congr hu] at hlane
  exact hlane
theorem State.Present.congr {ids : List SId} (hp : s.Present ids) (h : u.streams = s.streams) : u.Present ids := fun id hid => by
  rw [State.stream?_congr h]
  exact hp id hid

section
variable (ho : s.op? n = some o) (hl : o.lanes = [l]) (hp : s.Present [l.sid]) (hc : s.cache? o.loc.vcid = some c) (hr : c.repl = true)
include ho hl hp hc hr

theorem State.sg_transition {acq : Bool} (hk : o.kind = .sg acq) (hperf : s.performable o = true)
    (hT : ∀ a b, s.dir (segOf o.loc.key) ≠ .T a b) (hroom : s.DirRoom (segOf o.loc.key)) :
    ∃ t, exec (if acq then .dirSgacq n else .dirSgrel n) s = .next t ∧
      t.dir (segOf o.loc.key) = sgAfter acq (c.replica o.cluster) (s.dir (segOf o.loc.key)) ∧
      (∀ k, k ≠ segOf o.loc.key → t.dir k = s.dir k) ∧
      ((∀ a b, sgAfter acq (c.replica o.cluster) (s.dir (segOf o.loc.key)) ≠ .T a b) → s.OpEnds t n o l.sid) ∧
      (∀ a b, sgAfter acq (c.replica o.cluster) (s.dir (segOf o.loc.key)) = .T a b →
        t.streams = s.streams ∧ t.op? n = some { o with phase := .left }) ∧
      (acq = true → ∀ y ∈ t.vt.lines, y.inSeg (segOf o.loc.key) = true → (∀ x, s.dir (segOf o.loc.key) ≠ .O x) →
        s.dir (segOf o.loc.key) ≠ .I → y.rep = some (c.replica o.cluster)) := by
  generalize hu : (if acq then s.dirAcquire (c.replica o.cluster) (segOf o.loc.key)
    else s.dirRelease (c.replica o.cluster) (segOf o.loc.key)) = u
  have hstep : s.DirStep u (segOf o.loc.key) (sgAfter acq (c.replica o.cluster) (s.dir (segOf o.loc.key))) := by
    rw [← hu]
    cases acq
    · exact State.dirRelease_step
    · exact State.dirAcquire_step hroom
  have hex : exec (if acq then .dirSgacq n else .dirSgrel n) s = .next (s.doSg o acq) := by
    cases acq
    · change execDirSgrel n s = _
      rw [execDirSgrel, ho]
      exact congrArg Host.Outcome.next (if_pos (by simp [hk, hperf]))
    · change execDirSgacq n s = _
      rw [execDirSgacq, ho]
      exact congrArg Host.Outcome.next (if_pos (by simp [hk, hperf]))
  obtain ⟨hend, hwait⟩ := State.doSg_spec ho hc hr hperf hT hu hstep
  have hlines : acq = true → ∀ y ∈ u.vt.lines, y.inSeg (segOf o.loc.key) = true → (∀ x, s.dir (segOf o.loc.key) ≠ .O x) →
      s.dir (segOf o.loc.key) ≠ .I → y.rep = some (c.replica o.cluster) := by
    intro ha y hy hs hO hI
    cases hd : s.dir (segOf o.loc.key) with
    | S set =>
      rw [← hu, ha] at hy
      exact State.dirAcquire_lines hroom hd y hy hs
    | I => exact absurd hd hI
    | O x => exact absurd hd (hO x)
    | T a b => exact absurd hd (hT a b)
  by_cases hTa : ∀ a b, sgAfter acq (c.replica o.cluster) (s.dir (segOf o.loc.key)) ≠ .T a b
  · have h := State.endOp_blank (s := u) (o := o) (by simp [MemOp.single, hk]) (by simp [MemOp.returns, hk]) hl (hp.congr hstep.streams)
    rw [hex, hend hTa]
    refine ⟨_, rfl, (h.dir _).trans hstep.here, fun k hk => (h.dir k).trans (hstep.others k hk),
      fun _ => h.opEnds ho hstep.streams hstep.others, fun a b he => absurd he (hTa a b), ?_⟩
    rw [h.frame]
    exact hlines
  · have hT' : ∃ a b, sgAfter acq (c.replica o.cluster) (s.dir (segOf o.loc.key)) = .T a b := by
      by_contra hno
      exact hTa fun a b h => hno ⟨a, b, h⟩
    obtain ⟨a, b, hab⟩ := hT'
    rw [hex, hwait a b hab]
    refine ⟨_, rfl, hstep.here, hstep.others, fun h => absurd h hTa, fun _ _ _ => ⟨hstep.streams, ?_⟩, hlines⟩
    refine State.onOp_op? (f := fun o => { o with phase := .left }) (fun _ => rfl) ?_
    rw [State.op?, hstep.ops]
    exact ho

omit hl hp in
/-- A store that does not stay in its replica leaves for its home. -/
theorem State.store_leaves (hk : o.kind = .store) (hph : o.phase = .issued) (hperf : s.performable o = true)
    (hq : s.quiet n o.loc.key o.size = true) (hlink : s.linkDown o.loc = false) (hshut : s.shutHost (s.opFn o) o.loc = false)
    (hnot : s.dir (segOf o.loc.key) ≠ .O (c.replica o.cluster) ∨ c.wpol ≠ .back) :
    ∃ t, exec (.dirStore n) s = .next t ∧ t.op? n = some { o with phase := .left } ∧ ∀ id, (t.stream id).bare = (s.stream id).bare := by
  have hw := s.storing_work c o
  have hstays : s.staysLocal c (c.replica o.cluster) o.loc.key = false := by
    rcases hnot with h | h <;> simp [State.staysLocal, h]
  have hex := exec_dirStore_issued ho hc hr hk hph hperf hq hlink hshut
  rw [hstays, if_neg (by decide), State.num_of_op? ho] at hex
  have hn := (s.storing c o).noteDone_notes o [n]
  refine ⟨_, hex, ?_, fun id => (hn.bare id).trans (congrArg Stream.bare (hw.stream id))⟩
  refine State.onOp_op? (f := fun o => { o with phase := .left }) (fun _ => rfl) ?_
  rw [State.op?, hn.onlyStreams.1]
  exact (hw.op? n).trans ho
theorem State.store_stays (hk : o.kind = .store) (hph : o.phase = .issued) (hperf : s.performable o = true)
    (hq : s.quiet n o.loc.key o.size = true) (hlink : s.linkDown o.loc = false) (hshut : s.shutHost (s.opFn o) o.loc = false)
    (hd : s.dir (segOf o.loc.key) = .O (c.replica o.cluster)) (hback : c.wpol = .back)
    (hline : (s.line? o.loc.vcid (some (c.replica o.cluster)) o.loc.key).isSome = true) :
    ∃ t, exec (.dirStore n) s = .next t ∧ s.OpEnds t n o l.sid := by
  have hw := s.storing_work c o
  have hstays : s.staysLocal c (c.replica o.cluster) o.loc.key = true := by
    simp [State.staysLocal, hback, hd, State.cache_vcid hc, hline]
  have hex := exec_dirStore_issued ho hc hr hk hph hperf hq hlink hshut
  rw [hstays] at hex
  have h := State.endOp_blank (s := s.storing c o) (o := o) (by simp [MemOp.single, hk]) (by simp [MemOp.returns, hk]) hl
    (hp.congr hw.streams)
  exact ⟨_, hex, h.opEnds ho hw.streams fun k _ => hw.dir k⟩

/-- A store arrives at its home, where no transit holds it up. -/
theorem State.store_arrives (hk : o.kind = .store) (hph : o.phase = .left) (hT : ∀ a b, s.dir (segOf o.loc.key) ≠ .T a b) {v : State}
    (hv : State.dirWrite (s.replicaPut o.loc.vcid (c.replica o.cluster) o.loc.key o.bytes false none none) (c.replica o.cluster)
      o.loc.key o.bytes = v) (hstr : v.streams = s.streams) (hdir : ∀ k, k ≠ segOf o.loc.key → v.dir k = s.dir k) :
    ∃ t, exec (.dirStore n) s = .next t ∧ s.OpEnds t n o l.sid ∧ t = { v with streams := t.streams, ops := t.ops } := by
  have hmap : (s.cache? o.loc.vcid).map VCache.repl = some c.repl := by rw [hc]; rfl
  have harrive : s.arriveLeft c o = v := by
    rw [← hv]
    unfold State.arriveLeft
    rw [State.cache_vcid hc]
  have h := State.endOp_blank (s := v) (o := o) (by simp [MemOp.single, hk]) (by simp [MemOp.returns, hk]) hl (hp.congr hstr)
  refine ⟨_, (exec_dirStore_left ho hc hr hk hph).trans ?_, h.opEnds ho hstr hdir, h.frame⟩
  rw [harrive, if_neg fun hin => ?_]
  obtain ⟨a, b, hab⟩ := (State.inTransit_iff hmap hr).mp hin
  exact hT a b hab
end
end Ops

section MissExec
variable {s : State} {v k addr : Nat} {c : VCache} {o : MemOp}

theorem exec_dirReadMiss_transit (hc : s.cache? v = some c) {a : List Nat} {b : Option Nat} (hd : s.dir (segOf addr) = .T a b) :
    exec (.dirReadMiss v k addr) s = .next s := by
  change execDirReadMiss v k addr s = _
  rw [execDirReadMiss, hc]
  dsimp only
  rw [hd]
  exact congrArg Host.Outcome.next (if_neg (by simp))
theorem exec_dirReadMiss_fills (hc : s.cache? v = some c) (hr : c.repl = true) (hmem : o ∈ s.ops) (hov : o.loc.vcid = v)
    (hreads : o.reads = true) (hwrites : o.writes = false) (hk : c.replica o.cluster = k) (hkey : o.loc.key = addr)
    (hnone : s.line? v (some k) addr = none) (hT : ∀ a b, s.dir (segOf addr) ≠ .T a b) :
    ∃ req, exec (.dirReadMiss v k addr) s = .next (s.dirRead c k addr req) := by
  have hwant : (s.ops.filter fun o => o.loc.vcid == v && o.reads && !o.writes && c.replica o.cluster == k &&
      o.loc.key / c.line * c.line == addr / c.line * c.line).isEmpty = false := by
    rw [List.isEmpty_eq_false_iff]
    exact List.ne_nil_of_mem (List.mem_filter.mpr ⟨hmem, by simp [hov, hreads, hwrites, hk, hkey]⟩)
  change ∃ req, execDirReadMiss v k addr s = _
  rw [execDirReadMiss, hc]
  dsimp only
  rw [hr, hwant, hnone]
  refine ⟨_, congrArg Host.Outcome.next (if_pos ?_)⟩
  cases hd : s.dir (segOf addr) with
  | T a b => exact absurd hd (hT a b)
  | _ => rfl
end MissExec

/-- Settles O60: each transition is one change of the segment's entry beside work on lines; an operation that ends changes no entry. -/
theorem segmentDirectoryTransitions : Obligations.SegmentDirectoryTransitions := by
  unfold Obligations.SegmentDirectoryTransitions
  refine ⟨fun s seg => ⟨⟨_, rfl, ?_⟩, ⟨_, rfl, ?_⟩⟩, fun s n o l c ho hl hp hc hr => ?_,
    fun s v k addr c o hc hv hr hline hmem hov hreads hwrites hk hkey hnone hsh => ⟨fun a b hd => ?_, fun hT hroom => ?_⟩⟩
  · obtain ⟨h1, h2, h3, h4⟩ := s.dirDrop_spec seg
    refine ⟨h1, h2, h3, ?_⟩
    cases hd : s.dir seg <;> rw [hd] at h4 <;> exact h4
  · obtain ⟨h1, h2, h3, h4⟩ := s.transitEnd_spec seg
    refine ⟨h1, h2, h3, h4.trans ?_⟩
    cases s.dir seg with
    | T set owner => cases owner <;> cases set <;> rfl
    | _ => rfl
  · intro seg r ended
    have hmap : (s.cache? o.loc.vcid).map VCache.repl = some c.repl := by rw [hc]; rfl
    refine ⟨fun acq hk hperf hT hroom => ?_, fun hk hph hperf hq hlink hshut => ⟨State.store_leaves ho hc hr hk hph hperf hq hlink hshut,
      State.store_stays ho hl hp hc hr hk hph hperf hq hlink hshut⟩, fun hk hph => ⟨fun a b hd => ?_, ?_⟩⟩
    · intro after
      have hafter : after = sgAfter acq r (s.dir seg) := by
        dsimp only [after]
        cases s.dir seg <;> rfl
      rw [hafter]
      exact State.sg_transition ho hl hp hc hr hk hperf hT hroom
    · rw [exec_dirStore_left ho hc hr hk hph, if_pos ((State.inTransit_iff hmap hr).mpr ⟨a, b, hd⟩)]
    · intro s1 down
      have hw : s.LineWork s1 := .replicaPut s _ _ _ _ _ _ _
      refine ⟨fun hd => ?_, fun set hd => ?_⟩
      · have hput := hw.trans (.putHome s1 o.loc.key o.bytes)
        obtain ⟨t, hex, hends, ht⟩ := State.store_arrives ho hl hp hc hr hk hph (fun a b => by rw [show s.dir _ = _ from hd]; exact fun h => nomatch h)
          (State.dirWrite_unheld ((hw.dir _).trans hd)) hput.streams fun k _ => hput.dir k
        refine ⟨t, hex, hends, ?_, fun hdown => ?_, fun hdown => ?_⟩
        · rw [ht]
          exact (hput.dir seg).trans hd
        · rw [ht]
          exact State.putHome_stored ((hw.keyDown _).trans hdown)
        · rw [ht]
          exact State.putHome_down ((hw.keyDown _).trans hdown)
      · obtain ⟨hstr, hother, hmem, hdir, hlines⟩ := State.dirWrite_shared (bs := o.bytes) (r := r) ((hw.dir seg).trans hd)
        obtain ⟨t, hex, hends, ht⟩ := State.store_arrives ho hl hp hc hr hk hph (fun a b => by rw [show s.dir _ = _ from hd]; exact fun h => nomatch h)
          rfl (hstr.trans hw.streams) fun k hk => (hother k hk).trans (hw.dir k)
        refine ⟨t, hex, hends, fun hdown => ?_, fun hdown => ?_, ?_, ?_⟩
        · rw [ht]
          exact hmem ▸ State.putHome_stored ((hw.keyDown _).trans hdown)
        · rw [ht]
          exact hmem.trans (State.putHome_down ((hw.keyDown _).trans hdown))
        · rw [ht]
          exact hdir
        · rw [ht]
          exact hlines
  · exact exec_dirReadMiss_transit hc hd
  · obtain ⟨req, hex⟩ := exec_dirReadMiss_fills hc hr hmem hov hreads hwrites hk hkey hnone hT
    obtain ⟨h1, h2, h3, h4⟩ := State.dirRead_step hroom hT hsh hline req
    rw [hv] at h3
    refine ⟨_, hex, h1, h2, h3, h4.trans ?_⟩
    cases s.dir (segOf addr) <;> rfl

end Sys2Proof.Machine
end
section
/-! PROOFS. Virtual caches are defined and removed (R230, R237, R238). -/
namespace Sys2Proof.Machine

/-! ### Shares joined and freed one after another -/

section Shares
variable {s : State} {n m : Nat}

/-- Only the table of shares differs. -/
def State.ShareWork (s t : State) : Prop := t = { s with vt := { s.vt with shares := t.vt.shares } }
theorem State.ShareWork.refl (s : State) : s.ShareWork s := rfl
theorem State.ShareWork.trans {s t u : State} (h : s.ShareWork t) (h' : t.ShareWork u) : s.ShareWork u := by
  unfold State.ShareWork at h h' ⊢
  rw [h', h]
theorem State.ShareWork.setShare (s : State) (n : Nat) (x : Share) : s.ShareWork (s.setShare n x) := rfl

/-- A change of one share after another, each once or more often to the same end. -/
theorem State.setShares_spec (f : Share → Share) (hf : ∀ x, f (f x) = f x) (l : List Nat) (s : State) :
    s.ShareWork (l.foldl (fun s n => s.setShare n (f (s.share n))) s) ∧
      (∀ n ∈ l, (l.foldl (fun s n => s.setShare n (f (s.share n))) s).share n = f (s.share n)) ∧
      ∀ n, n ∉ l → (l.foldl (fun s n => s.setShare n (f (s.share n))) s).share n = s.share n := by
  induction l generalizing s with
  | nil => exact ⟨.refl s, fun _ h => absurd h List.not_mem_nil, fun _ _ => rfl⟩
  | cons a l ih =>
    obtain ⟨h1, h2, h3⟩ := ih (s.setShare a (f (s.share a)))
    have ha := s.share_setShare_same a (f (s.share a))
    refine ⟨(State.ShareWork.setShare s a _).trans h1, fun n hn => ?_, fun n hn => ?_⟩
    · by_cases hl : n ∈ l
      · refine (h2 n hl).trans ?_
        by_cases hna : n = a
        · rw [hna, ha, hf]
        · rw [s.share_setShare_other _ hna]
      · have hna : n = a := (List.mem_cons.mp hn).resolve_right hl
        subst hna
        exact (h3 n hl).trans ha
    · obtain ⟨hna, hl⟩ := not_or.mp (mt List.mem_cons.mpr hn)
      exact (h3 n hl).trans (s.share_setShare_other _ hna)
theorem State.joinCaches_spec (v : Nat) (l : List Nat) (s : State) :
    s.ShareWork (l.foldl (fun s n => s.joinCache v n) s) ∧
      (∀ n ∈ l, (l.foldl (fun s n => s.joinCache v n) s).share n = { s.share n with role := .member, owner := 0, vcid := v }) ∧
      ∀ n, n ∉ l → (l.foldl (fun s n => s.joinCache v n) s).share n = s.share n :=
  State.setShares_spec (fun x => { x with role := .member, owner := 0, vcid := v }) (fun _ => rfl) l s

/-- Where nothing waits on a word, filling a range touches only its bytes, its words and their errors. -/
theorem State.clearVault_bytes (h : s.vt.waiters = []) (a n fuel : Nat) :
    ∃ m e b, s.clearVault a n fuel = { s with mem := m, vt := { s.vt with empty := e, broken := b } } := by
  have hserve : ∀ (l : List Nat) (u : State), u.vt.waiters = [] →
      l.foldl (fun u w => u.serveWaiters w (u.vt.waiters.length + 1)) u = u := fun l => by
    induction l with
    | nil => exact fun _ _ => rfl
    | cons w r ihl =>
      intro u hu
      rw [List.foldl_cons, State.serveWaiters_idle hu, ihl u hu]
  induction fuel generalizing s with
  | zero => exact ⟨_, _, _, rfl⟩
  | succ fuel ih =>
    have hw : ((s.mend (vaultKey + a) n).zeroVault a n).vt.waiters = [] := h
    rw [State.clearVault]
    split
    · exact ⟨_, _, _, rfl⟩
    · rw [hserve _ _ hw]
      obtain ⟨m, e, b, hm⟩ := ih hw
      exact ⟨m, e, b, hm.trans rfl⟩
/-- Where nothing waits, a share that loses its role touches its bytes, words and entry only. -/
theorem State.freeShare_idle (h : s.vt.waiters = []) (ho : ∀ o ∈ s.ops, o.phase ≠ .waiting) (n : Nat) :
    ∃ m e b sh, s.freeShare n = { s with mem := m, vt := { s.vt with empty := e, broken := b, shares := sh } } := by
  obtain ⟨m, e, b, hfill⟩ := State.clearVault_bytes h (shareAddr n) 65536 (s.vt.waiters.length + 1)
  have hnone : (s.ops.filter fun o => o.phase == .waiting && decide (shareAddr n ≤ o.word) && decide (o.word < shareAddr n + 65536)) = [] :=
    List.filter_eq_nil_iff.mpr fun o hm => by simp [ho o hm]
  unfold State.freeShare State.fillVault State.turnAway
  rw [hfill]
  dsimp only
  rw [hnone]
  exact ⟨m, e, b, _, rfl⟩
theorem State.freeShares_spec (l : List Nat) {s : State} (h : s.vt.waiters = []) (ho : ∀ o ∈ s.ops, o.phase ≠ .waiting) :
    (∃ m e b sh, l.foldl State.freeShare s = { s with mem := m, vt := { s.vt with empty := e, broken := b, shares := sh } }) ∧
      (∀ n ∈ l, ((l.foldl State.freeShare s).share n).role = .free ∨ ((l.foldl State.freeShare s).share n).role = .failed) ∧
      ∀ n, n ∉ l → (l.foldl State.freeShare s).share n = s.share n := by
  have hidle : ∀ x : Share, x.idle.role = .free ∨ x.idle.role = .failed := fun x => by
    unfold Share.idle
    dsimp only
    split
    · exact .inr rfl
    · exact .inl rfl
  induction l generalizing s with
  | nil => exact ⟨⟨s.mem, s.vt.empty, s.vt.broken, s.vt.shares, rfl⟩, fun _ h => absurd h List.not_mem_nil, fun _ _ => rfl⟩
  | cons a l ih =>
    obtain ⟨m, e, b, sh, ha⟩ := State.freeShare_idle h ho a
    obtain ⟨⟨m', e', b', sh', h1⟩, h2, h3⟩ := ih (s := s.freeShare a) (by rw [ha]; exact h) (by rw [ha]; exact ho)
    refine ⟨⟨m', e', b', sh', ?_⟩, fun n hn => ?_, fun n hn => ?_⟩
    · rw [List.foldl_cons, h1, ha]
    · by_cases hl : n ∈ l
      · exact h2 n hl
      · have hna : n = a := (List.mem_cons.mp hn).resolve_right hl
        subst hna
        rw [List.foldl_cons, h3 n hl, s.freeShare_share]
        exact hidle _
    · obtain ⟨hna, hl⟩ := not_or.mp (mt List.mem_cons.mpr hn)
      exact (h3 n hl).trans (s.freeShare_other hna)
end Shares

/-! ### Status words -/

section Status
variable {s : State} {v : Nat} {c : VCache}

theorem State.vcidFault_undefined (h : v = 0 ∨ s.cache? v = none) (remove : Bool) : s.vcidFault v false remove = some (vcStatus 0 vcBadVcid) := by
  unfold State.vcidFault
  rcases h with h | h
  · exact if_pos h
  · rw [h]
    exact ite_self _
theorem State.vcidFault_busy (hv : v ≠ 0) (hc : s.cache? v = some c) (h : c.state ≠ .defined) (define remove : Bool) :
    s.vcidFault v define remove = some (vcStatus 0 vcBusy) := by
  unfold State.vcidFault
  rw [if_neg hv, hc]
  exact if_pos (by simpa using h)
theorem State.vcidFault_defined (hv : v ≠ 0) (hc : s.cache? v = some c) (h : c.state = .defined) (define remove : Bool) :
    s.vcidFault v define remove = if define || (remove && v == 1) then some (vcStatus 0 vcBadVcid) else none := by
  unfold State.vcidFault
  rw [if_neg hv, hc]
  exact if_neg (by simp [h])
theorem State.vcidFault_unused (hv : v ≠ 0) (hc : s.cache? v = none) (remove : Bool) : s.vcidFault v true remove = none := by
  unfold State.vcidFault
  rw [if_neg hv, hc]
  rfl
theorem vcAddr_class {a : DWord} {n d : Nat} (h : plain00 a = false) : vcAddr a n d = some (vcStatus d vcClass) := if_pos (by simp [h])
theorem vcAddr_align {a : DWord} {n d : Nat} (h : plain00 a = true) (ha : a.toNat % n ≠ 0) : vcAddr a n d = some (vcStatus d vcAlign) :=
  (if_neg (by simp [h])).trans (if_pos ha)
theorem vcAddr_ok {a : DWord} {n d : Nat} (h : plain00 a = true) (ha : a.toNat % n = 0) : vcAddr a n d = none :=
  (if_neg (by simp [h])).trans (if_neg (by simp [ha]))
end Status

/-! ### `vcdef` -/

section Define
variable {s t : State} {fn v n : Nat} {asid : BitVec 16} {a : DWord} {c : VCache} {w : Word}

theorem State.define_fault (h : s.vcidFault v true false = some w) : s.define fn asid a v = (w, s) := by
  rw [State.define, h]
theorem State.define_address (h : s.vcidFault v true false = none) (ha : vcAddr a 64 0 = some w) : s.define fn asid a v = (w, s) := by
  rw [State.define, h, ha]
theorem State.define_read (h : s.vcidFault v true false = none) (ha : vcAddr a 64 0 = none)
    (hr : s.readCdr fn asid a v = (.error w, t)) : s.define fn asid a v = (w, t) := by
  rw [State.define, h, ha]
  dsimp only
  rw [hr]
theorem State.define_share (h : s.vcidFault v true false = none) (ha : vcAddr a 64 0 = none)
    (hr : s.readCdr fn asid a v = (.ok c, t)) (hs : (c.shares.find? fun n => (t.share n).role != .free) = some n) :
    s.define fn asid a v = (vcStatus n vcShare, t) := by
  rw [State.define, h, ha]
  dsimp only
  rw [hr]
  dsimp only
  rw [hs]
theorem State.define_done (h : s.vcidFault v true false = none) (ha : vcAddr a 64 0 = none)
    (hr : s.readCdr fn asid a v = (.ok c, t)) (hs : (c.shares.find? fun n => (t.share n).role != .free) = none) :
    s.define fn asid a v = (vcStatus 0 0, { c.shares.foldl (fun s n => s.joinCache v n) t with
      vt := { (c.shares.foldl (fun s n => s.joinCache v n) t).vt with
        caches := (c.shares.foldl (fun s n => s.joinCache v n) t).vt.caches ++ [c] } }) := by
  rw [State.define, h, ha]
  dsimp only
  rw [hr]
  dsimp only
  rw [hs]
theorem exec_vcdef {g : Guard} {d s1 : Reg} {vcid : BitVec 8} {low : SId} {rest : List SId} (hact : s.active g = low :: rest)
    (h : s.define s.curTeam.fn s.curTeam.recd.asid (s.recordAddr (s.stream low) ((s.stream low).rd64 s1)) vcid.toNat = (w, t)) :
    exec (.vcdef g d s1 vcid) s = .next (t.completed g fun st => st.wr d w) := by
  change execVcdef g d s1 vcid s = _
  rw [execVcdef, State.lowest_of hact]
  dsimp only
  rw [h]
  rfl

/-- The status words of `vcdef`, and what a definition leaves (R237, R238). -/
theorem vcdef_answers (g : Guard) (d s1 : Reg) (vcid : BitVec 8) (s : State) {low : SId} {rest : List SId} (hact : s.active g = low :: rest) :
    let a := s.recordAddr (s.stream low) ((s.stream low).rd64 s1)
    let answers := fun (t : State) (w : Word) => exec (.vcdef g d s1 vcid) s = .next (t.completed g fun st => st.wr d w)
    let unused := vcid ≠ 0 ∧ s.cache? vcid.toNat = none
    (vcid = 0 ∨ (∃ c, s.cache? vcid.toNat = some c ∧ c.state = .defined) → answers s 1) ∧
    (∀ c, vcid ≠ 0 → s.cache? vcid.toNat = some c → c.state ≠ .defined → answers s 2) ∧
    (unused → plain00 a = false → answers s 9) ∧ (unused → plain00 a = true → a.toNat % 64 ≠ 0 → answers s 4) ∧
    (unused → plain00 a = true → a.toNat % 64 = 0 →
      (∀ e t, s.readCdr s.curTeam.fn s.curTeam.recd.asid a vcid.toNat = (.error e, t) → answers t e) ∧
      ∀ c t, s.readCdr s.curTeam.fn s.curTeam.recd.asid a vcid.toNat = (.ok c, t) →
        (∀ n, (c.shares.find? fun n => (t.share n).role != .free) = some n →
          answers t (0#8 ++ BitVec.ofNat 16 n ++ 6#8)) ∧
        ((∀ n ∈ c.shares, (t.share n).role = .free) → ∃ u, answers u 0 ∧
          u = { t with vt := { t.vt with shares := u.vt.shares, caches := t.vt.caches ++ [c] } } ∧
          (∀ n ∈ c.shares, (u.share n).role = .member ∧ (u.share n).vcid = vcid.toNat) ∧
          ∀ n, n ∉ c.shares → u.share n = t.share n)) := by
  intro a answers unused
  have hne : vcid ≠ 0 → vcid.toNat ≠ 0 := fun h h0 => h (BitVec.eq_of_toNat_eq h0)
  have hnone : unused → s.vcidFault vcid.toNat true false = none := fun h => State.vcidFault_unused (hne h.1) h.2 false
  refine ⟨fun h => exec_vcdef hact (State.define_fault ?_), fun c h hc hs =>
    exec_vcdef hact (State.define_fault (State.vcidFault_busy (hne h) hc hs true false)),
    fun hu hp => exec_vcdef hact (State.define_address (hnone hu) (vcAddr_class hp)),
    fun hu hp ha => exec_vcdef hact (State.define_address (hnone hu) (vcAddr_align hp ha)),
    fun hu hp ha => ⟨fun e t hr => exec_vcdef hact (State.define_read (hnone hu) (vcAddr_ok hp ha) hr),
      fun c t hr => ⟨fun n hn => exec_vcdef hact (State.define_share (hnone hu) (vcAddr_ok hp ha) hr hn), fun hfree => ?_⟩⟩⟩
  · by_cases h0 : vcid = 0
    · exact if_pos (by rw [h0]; rfl)
    · obtain ⟨c, hc, hd⟩ := h.resolve_left h0
      exact State.vcidFault_defined (hne h0) hc hd true false
  · have hfind : (c.shares.find? fun n => (t.share n).role != .free) = none :=
      List.find?_eq_none.mpr fun n hn => by simp [hfree n hn]
    obtain ⟨hw, hin, hout⟩ := State.joinCaches_spec vcid.toNat c.shares t
    refine ⟨_, exec_vcdef hact (State.define_done (hnone hu) (vcAddr_ok hp ha) hr hfind), ?_, fun n hn => ?_, hout⟩
    · rw [hw]
    · have hsh := hin n hn
      exact ⟨congrArg Share.role hsh, congrArg Share.vcid hsh⟩
end Define

/-! ### `vcdef.rm` and the drain -/

section Remove
variable {s : State} {v : Nat} {c : VCache}

theorem State.onCache_cache? {f : VCache → VCache} (hf : ∀ x : VCache, (f x).vcid = x.vcid) (h : s.cache? v = some c) :
    (s.onCache v f).cache? v = some (f c) := by
  simp only [State.cache?, State.onCache, List.find?_map] at h ⊢
  have hp : ((fun c : VCache => decide (c.vcid = v)) ∘ fun c => if c.vcid = v then f c else c) = fun c => decide (c.vcid = v) := by
    funext x
    dsimp only [Function.comp]
    split
    · rw [hf]
    · rfl
  rw [hp, h]
  exact congrArg some (if_pos (by simpa using List.find?_some h))

theorem exec_vcdefRm_fault {g : Guard} {d : Reg} {vcid : BitVec 8} {low : SId} {rest : List SId} {w : Word}
    (hact : s.active g = low :: rest) (h : s.vcidFault vcid.toNat false true = some w) :
    exec (.vcdefRm g d vcid) s = .next (s.completed g fun st => st.wr d w) := by
  change execVcdefRm g d vcid s = _
  rw [execVcdefRm, State.lowest_of hact]
  dsimp only
  rw [h]
  rfl
/-- The lanes of a removal park at it (R238). -/
theorem exec_vcdefRm_parks {g : Guard} {d : Reg} {vcid : BitVec 8} {low : SId} {rest : List SId} (hact : s.active g = low :: rest)
    (hp : s.Present s.cur.lanes) (h : s.vcidFault vcid.toNat false true = none) (hc : s.cache? vcid.toNat = some c) :
    ∃ t, exec (.vcdefRm g d vcid) s = .next t ∧ t = { s with streams := t.streams, vt := { s.vt with caches := t.vt.caches } } ∧
      t.cache? vcid.toNat = some { c with state := .removing } ∧
      s.Lanes t g fun st => { st.parkAt (.vcrm vcid.toNat d) with pc := s.cur.pc } := by
  let u : State := s.onCache vcid.toNat fun c => { c with state := .removing }
  let f : Stream → Stream := fun st => { st.parkAt (.vcrm vcid.toNat d) with pc := s.cur.pc }
  have hex : exec (.vcdefRm g d vcid) s = .next ((u.skipLanes g).onLanes (s.active g) f) := by
    change execVcdefRm g d vcid s = _
    rw [execVcdefRm, State.lowest_of hact]
    dsimp only
    rw [h]
  have hskip : (u.skipLanes g).Present (s.active g) := State.onLanes_present (s := u) (ids := s.cur.lanes)
    (f := fun st => if guardHolds g st then st else st.goto s.cur.npc) (fun st => by split <;> rfl)
    (ids' := s.active g) (hp.mono (s.active_subset g))
  have hid : ∀ st : Stream, (f st).id = st.id := fun _ => rfl
  have hlanes := u.skipLanes_lanes g (show u.Present u.cur.lanes from hp)
  refine ⟨_, hex, rfl, State.onCache_cache? (s := s) (f := fun c => { c with state := .removing }) (fun _ => rfl) hc,
    fun id hin => ?_, fun id hl hout => ?_, fun id hl => ?_⟩
  · rw [State.onLanes_listed _ hid hin (hskip id hin), hlanes.1 id hin]
    rfl
  · rw [State.onLanes_unlisted _ hid hout]
    exact hlanes.2.1 id hl hout
  · refine ((u.skipLanes g).onLanes_other f hid fun hin => hl (s.active_subset g hin)).trans (hlanes.2.2 id hl)

theorem exec_vcRemoveDrain_waits (hc : s.cache? v = some c) (h : c.state ≠ .removing ∨ s.vcInUse v = true) :
    exec (.vcRemoveDrain v) s = .next s := by
  change execVcRemoveDrain v s = _
  rw [execVcRemoveDrain, hc]
  exact congrArg Host.Outcome.next (if_pos (by simpa using h))
/-- A lane that waits for the removal of a cache takes its status (R238). -/
def Stream.removed (v : Nat) (st : Stream) : Stream :=
  match st.park with
  | .vcrm x d => if x = v then (st.wr d (vcStatus 0 0)).goto (st.pc + 8) else st
  | _ => st
theorem Stream.removed_id (v : Nat) (st : Stream) : (st.removed v).id = st.id := by
  unfold Stream.removed
  split
  · split
    · simp
    · rfl
  · rfl
theorem exec_vcRemoveDrain_drains (hc : s.cache? v = some c) (hs : c.state = .removing) (hu : s.vcInUse v = false) :
    ∃ u, u = c.shares.foldl State.freeShare ((s.writeBack fun l => l.vcid == v).dropLines fun l => l.vcid == v) ∧
      exec (.vcRemoveDrain v) s = .next { u with
        vt := { u.vt with caches := u.vt.caches.filter fun x => x.vcid ≠ v }, streams := u.streams.map (Stream.removed v) } := by
  refine ⟨_, rfl, ?_⟩
  change execVcRemoveDrain v s = _
  rw [execVcRemoveDrain, hc]
  exact congrArg Host.Outcome.next (if_neg (by simp [hs, hu]))
/-- A cache that has drained is gone, with its lines; its shares have no use, and the lanes that waited go on. -/
theorem State.vcRemoveDrain_spec (hc : s.cache? v = some c) (hs : c.state = .removing) (hu : s.vcInUse v = false)
    (hw : s.vt.waiters = []) (ho : ∀ o ∈ s.ops, o.phase ≠ .waiting) : ∃ t, exec (.vcRemoveDrain v) s = .next t ∧ t.cache? v = none ∧
      (∀ l ∈ t.vt.lines, l.vcid ≠ v) ∧ (∀ n ∈ c.shares, (t.share n).role = .free ∨ (t.share n).role = .failed) ∧
      ∀ id d, s.Present [id] → (s.stream id).park = .vcrm v d → t.stream id = ((s.stream id).wr d 0).goto ((s.stream id).pc + 8) := by
  have hl := (State.LineWork.writeBack s fun l => l.vcid == v).trans (.dropLines _ fun l => l.vcid == v)
  obtain ⟨u, hu, hex⟩ := exec_vcRemoveDrain_drains hc hs hu
  obtain ⟨⟨m, e, b, sh, hfree⟩, hroles, -⟩ := State.freeShares_spec c.shares
    (s := (s.writeBack fun l => l.vcid == v).dropLines fun l => l.vcid == v) (by rw [hl.frame]; exact hw) (by rw [hl.ops]; exact ho)
  rw [← hu] at hfree hroles
  have hlines : u.vt.lines = ((s.writeBack fun l => l.vcid == v).dropLines fun l => l.vcid == v).vt.lines := by rw [hfree]
  have hstreams : u.streams = s.streams := by
    rw [hfree]
    exact hl.streams
  refine ⟨_, hex, ?_, fun l hml => ?_, hroles, fun id d hp hpark => ?_⟩
  · rw [State.cache?, List.find?_eq_none]
    intro x hx
    simpa using (List.mem_filter.mp hx).2
  · have hm : l ∈ u.vt.lines := hml
    rw [hlines] at hm
    simpa using (List.mem_filter.mp hm).2
  · obtain ⟨st, hst⟩ := Option.isSome_iff_exists.mp (hp id (List.mem_singleton_self id))
    have heq : s.stream id = st := by
      rw [State.stream, hst]
      rfl
    have hmap := u.stream?_map (Stream.removed v) (Stream.removed_id v) id
    rw [State.stream?_congr hstreams, hst] at hmap
    rw [heq] at hpark
    refine (congrArg (fun o : Option Stream => o.getD (newStream id 0 0 0)) hmap).trans ?_
    change st.removed v = _
    rw [Stream.removed, hpark, heq]
    exact if_pos rfl
end Remove

end Sys2Proof.Machine
end
section
/-! PROOFS. Virtual caches migrate (R239). -/
namespace Sys2Proof.Machine

/-! ### The beginning of a migration -/

section Rehome
variable {s t : State} {v : Nat} {c : VCache}

/-- A migration goes on with its ASID and counter, and perhaps an error. -/
def VCache.MigratesOn (c c' : VCache) : Prop :=
  ∀ a k e, c.state = .migrating a k e → ∃ e', c' = { c with state := .migrating a k e' }
theorem VCache.MigratesOn.refl (c : VCache) : c.MigratesOn c := fun a k e h => ⟨e, by rw [← h]⟩
theorem VCache.MigratesOn.trans {c c' c'' : VCache} (h : c.MigratesOn c') (h' : c'.MigratesOn c'') : c.MigratesOn c'' := by
  intro a k e hs
  obtain ⟨e1, h1⟩ := h a k e hs
  obtain ⟨e2, h2⟩ := h' a k e1 (by rw [h1])
  exact ⟨e2, by rw [h2, h1]⟩
/-- Every cache that is there stays, and its migration goes on. -/
def State.CachesStay (s t : State) : Prop := ∀ v c, s.cache? v = some c → ∃ c', t.cache? v = some c' ∧ c.MigratesOn c'
theorem State.CachesStay.refl (s : State) : s.CachesStay s := fun _ c h => ⟨c, h, .refl c⟩
theorem State.CachesStay.trans {u : State} (h : s.CachesStay t) (h' : t.CachesStay u) : s.CachesStay u := by
  intro v c hc
  obtain ⟨c1, hc1, hm1⟩ := h v c hc
  obtain ⟨c2, hc2, hm2⟩ := h' v c1 hc1
  exact ⟨c2, hc2, hm1.trans hm2⟩
theorem State.CachesStay.foldl {α : Type} {f : State → α → State} (hf : ∀ (s : State) (a : α), s.CachesStay (f s a)) (l : List α)
    (s : State) : s.CachesStay (l.foldl f s) := by
  induction l generalizing s with
  | nil => exact .refl s
  | cons a r ih => exact (hf s a).trans (ih _)
theorem State.CachesStay.of_caches (h : t.vt.caches = s.vt.caches) : s.CachesStay t := fun v c hc => by
  refine ⟨c, ?_, .refl c⟩
  rw [State.cache?, h]
  exact hc
theorem State.CachesStay.writeBack (s : State) (p : Line → Bool) : s.CachesStay (s.writeBack p) := by
  intro v c hc
  have herr : ∀ cs : List VCache, cs.find? (fun c => c.vcid = v) = some c →
      ∃ c', (errorAfter s.vt.lines p cs).find? (fun c => c.vcid = v) = some c' ∧ c.MigratesOn c' := by
    intro cs hfind
    unfold errorAfter
    rw [List.find?_map]
    generalize hf : (fun c : VCache => match c.state with
      | .migrating a k e =>
        { c with state := .migrating a k (e || s.vt.lines.any fun l => p l && l.dirty && l.vcid == c.vcid && !l.bad.isEmpty) }
      | _ => c) = f
    have hvcid : ∀ x : VCache, (f x).vcid = x.vcid := fun x => by
      rw [← hf]
      dsimp only
      split <;> rfl
    have hp : ((fun c : VCache => decide (c.vcid = v)) ∘ f) = fun c => decide (c.vcid = v) := funext fun x => by
      dsimp only [Function.comp]
      rw [hvcid]
    rw [hp, hfind]
    refine ⟨f c, rfl, fun a k e hs => ?_⟩
    rw [← hf]
    dsimp only
    rw [hs]
    exact ⟨_, rfl⟩
  exact herr s.vt.caches hc

theorem State.leaveReplica_work (s : State) (v k : Nat) : s.HomeWork (s.leaveReplica v k) ∧ s.CachesStay (s.leaveReplica v k) := by
  have hdirs : ∀ (p : Nat × Dir → Bool) (f : Nat × Dir → Dir) (l : List (Nat × Dir)) (u : State),
      ∃ d, l.foldl (fun s e => if p e then s else s.setDir e.1 (f e)) u = { u with vt := { u.vt with dirs := d } } := by
    intro p f l
    induction l with
    | nil => exact fun u => ⟨u.vt.dirs, rfl⟩
    | cons e l ih =>
      intro u
      rw [List.foldl_cons]
      split
      · exact ih u
      · obtain ⟨d, hd⟩ := ih (u.setDir e.1 (f e))
        exact ⟨d, hd.trans rfl⟩
  unfold State.leaveReplica
  dsimp only
  rw [(hdirs _ _ _ _).choose_spec]
  refine ⟨((State.HomeWork.writeBack s _).trans (.dropLines _ _)).trans ⟨rfl, rfl⟩, ?_⟩
  exact ((State.CachesStay.writeBack s _).trans (.of_caches rfl)).trans (.of_caches rfl)
theorem State.rehome_stays (s : State) (v : Nat) : s.CachesStay (s.rehome v) := by
  unfold State.rehome
  split
  · exact .refl s
  · exact (State.CachesStay.writeBack s _).trans (.of_caches rfl)

theorem State.placeAmong_way {ls : List Line} {l x : Line} (h : s.placeAmong c ls l = some x) : x.way < c.assoc := by
  unfold State.placeAmong at h
  dsimp only at h
  split at h
  · cases h
  · next hn =>
    cases h
    simp only [Bool.or_eq_true, decide_eq_true_eq, not_or, not_le] at hn
    exact hn.2
theorem State.placed_ways (ls : List Line) (kept : List Line) (h : ∀ x ∈ kept, x.way < c.assoc) :
    ∀ x ∈ ls.foldl (fun kept l => kept ++ (s.placeAmong c kept l).toList) kept, x.way < c.assoc := by
  induction ls generalizing kept with
  | nil => exact h
  | cons l ls ih =>
    refine ih _ fun x hx => ?_
    rcases List.mem_append.mp hx with hx | hx
    · exact h x hx
    · exact State.placeAmong_way (Option.mem_toList.mp hx)
/-- Every line of a cache that stays has a place among its ways. -/
theorem State.rehome_ways (hc : s.cache? v = some c) : ∀ l ∈ (s.rehome v).vt.lines, l.vcid = v →
    (s.share l.share).role.leaves = false → l.way < c.assoc := by
  intro l hl hv hs
  unfold State.rehome at hl
  rw [hc] at hl
  rcases List.mem_append.mp hl with hl | hl
  · have := (List.mem_filter.mp hl).2
    simp [hv, hs] at this
  · exact State.placed_ways _ [] (fun _ h => absurd h List.not_mem_nil) l hl
end Rehome

section Migrate
variable {s : State} {v : Nat} {c n : VCache} {asid : BitVec 16} {ctr : DWord}

/-- What a migration makes of its shares, its cache and its lines (R239). -/
theorem State.migrate_spec (hc : s.cache? v = some c)
    (hok : ∀ x ∈ n.shares, (s.share x).role = .free ∨ ((s.share x).role = .member ∧ (s.share x).vcid = v)) :
    (∃ bad, (s.migrate c n asid ctr).cache? v = some { c with
      fill := n.fill, assoc := n.assoc, map := n.map, state := .migrating asid ctr bad }) ∧
    (∀ x ∈ n.shares, ((s.migrate c n asid ctr).share x).role = .member ∧ ((s.migrate c n asid ctr).share x).vcid = v) ∧
    (∀ x ∈ c.shares, x ∉ n.shares → (s.share x).role = .member → ((s.migrate c n asid ctr).share x).role = .leaving) ∧
    (∀ x, x ∉ n.shares → x ∉ c.shares → (s.migrate c n asid ctr).share x = s.share x) ∧
    ∀ l ∈ (s.migrate c n asid ctr).vt.lines, l.vcid = v → ((s.migrate c n asid ctr).share l.share).role.leaves = false →
      l.way < n.assoc := by
  have hv := State.cache_vcid hc
  generalize hadded : n.shares.filter (fun x => (s.share x).role == .free) = added
  generalize hgone : c.shares.filter (fun x => !(n.shares.contains x) && (s.share x).role == .member) = gone
  obtain ⟨hw1, hin1, hout1⟩ := State.joinCaches_spec c.vcid added s
  generalize hs1 : added.foldl (fun s x => s.joinCache c.vcid x) s = s1 at hw1 hin1 hout1
  obtain ⟨hw2, hin2, hout2⟩ := State.setShares_spec (fun x => { x with role := .leaving }) (fun _ => rfl) gone s1
  generalize hs2 : gone.foldl (fun s x => s.setShare x { s.share x with role := .leaving }) s1 = s2 at hw2 hin2 hout2
  let new : VCache := { c with fill := n.fill, assoc := n.assoc, map := n.map, state := .migrating asid ctr false }
  let s3 := s2.onCache c.vcid fun _ => new
  generalize hlost : (c.map.map (·.1)).filter (fun k => !((n.map.map (·.1)).contains k)) = lost
  have h4 : ∃ s4, (if c.repl then lost.foldl (fun s k => s.leaveReplica c.vcid k) s3 else s3) = s4 ∧ s3.HomeWork s4 ∧ s3.CachesStay s4 := by
    refine ⟨_, rfl, ?_⟩
    split
    · exact ⟨.foldl (fun s k => (s.leaveReplica_work c.vcid k).1) _ _, .foldl (fun s k => (s.leaveReplica_work c.vcid k).2) _ _⟩
    · exact ⟨.refl _, .refl _⟩
  obtain ⟨s4, hs4, hw4, hc4⟩ := h4
  have hmig : s.migrate c n asid ctr = s4.rehome c.vcid := by
    rw [← hs4, ← hlost]
    dsimp only [s3]
    rw [← hs2, ← hs1, ← hadded, ← hgone]
    rfl
  have hc3 : s3.cache? v = some new := by
    have hc2 : s2.cache? v = some c := by
      rw [hw2, hw1]
      exact hc
    have hfind : s3.cache? v = (s2.cache? v).map fun x => if x.vcid = c.vcid then new else x := by
      simp only [State.cache?, s3, State.onCache, List.find?_map]
      have hp : ((fun c : VCache => decide (c.vcid = v)) ∘ fun x => if x.vcid = c.vcid then new else x) = fun c => decide (c.vcid = v) := by
        funext x
        dsimp only [Function.comp]
        split
        · next h => rw [h]
        · rfl
      rw [hp]
    rw [hfind, hc2]
    exact congrArg some (if_pos rfl)
  obtain ⟨c4, hc4', hm4⟩ := hc4 v new hc3
  obtain ⟨c5, hc5, hm5⟩ := s4.rehome_stays c.vcid v c4 hc4'
  obtain ⟨bad, hbad⟩ := hm4 asid ctr false rfl
  obtain ⟨bad', hbad'⟩ := (hm4.trans hm5) asid ctr false rfl
  have hshare4 : ∀ x, s4.share x = s2.share x := fun x => (State.share_congr hw4.vault_shares x).trans rfl
  have hshare : ∀ x, (s.migrate c n asid ctr).share x = s2.share x := fun x => by
    rw [hmig, State.share_congr (State.HomeWork.rehome s4 c.vcid).vault_shares x, hshare4]
  have hgone_iff : ∀ x, x ∈ gone ↔ x ∈ c.shares ∧ x ∉ n.shares ∧ (s.share x).role = .member := fun x => by
    rw [← hgone, List.mem_filter]
    simp
  have hadd_iff : ∀ x, x ∈ added ↔ x ∈ n.shares ∧ (s.share x).role = .free := fun x => by
    rw [← hadded, List.mem_filter]
    simp
  refine ⟨⟨bad', ?_⟩, fun x hx => ?_, fun x hx hn hr => ?_, fun x hn hx => ?_, fun l hl hlv hrole => ?_⟩
  · rw [hmig, hc5, hbad']
  · have hg : x ∉ gone := fun h => ((hgone_iff x).mp h).2.1 hx
    rw [hshare, hout2 x hg]
    rcases hok x hx with hf | hm
    · rw [hin1 x ((hadd_iff x).mpr ⟨hx, hf⟩)]
      exact ⟨rfl, hv⟩
    · have ha : x ∉ added := fun h => by
        rw [((hadd_iff x).mp h).2] at hm
        exact nomatch hm.1
      rw [hout1 x ha]
      exact hm
  · rw [hshare, hin2 x ((hgone_iff x).mpr ⟨hx, hn, hr⟩)]
  · rw [hshare, hout2 x fun h => hx ((hgone_iff x).mp h).1, hout1 x fun h => hn ((hadd_iff x).mp h).1]
  · rw [hmig, hv] at hl
    rw [hshare, ← hshare4] at hrole
    have hway := State.rehome_ways hc4' l hl hlv hrole
    rw [hbad] at hway
    exact hway
end Migrate

/-! ### `vcmig` -/

section Start
variable {s t : State} {fn v : Nat} {asid : BitVec 16} {a ctr : DWord} {c n : VCache} {w : Word}

theorem State.startMigration_fault (h : s.vcidFault v false false = some w) : s.startMigration fn asid a ctr v = (w, s) := by
  rw [State.startMigration, h]
theorem State.startMigration_address (h : s.vcidFault v false false = none) (ha : vcAddr a 64 0 = some w) :
    s.startMigration fn asid a ctr v = (w, s) := by
  rw [State.startMigration, h, ha]
  rfl
/-- Both addresses of a migration may be used. -/
theorem vcmig_addresses (ha : vcAddr a 64 0 = none) (hc : ctr = 0 ∨ (plain00 ctr = true ∧ ctr.toNat % 4 = 0)) :
    ((vcAddr a 64 0).orElse fun _ => if ctr = 0 then none else vcAddr ctr 4 0) = none := by
  rw [ha]
  change (if ctr = 0 then none else vcAddr ctr 4 0) = none
  split
  · rfl
  · next h =>
    obtain ⟨h1, h2⟩ := hc.resolve_left h
    exact vcAddr_ok h1 h2
theorem State.startMigration_read (h : s.vcidFault v false false = none)
    (ha : ((vcAddr a 64 0).orElse fun _ => if ctr = 0 then none else vcAddr ctr 4 0) = none)
    (hr : s.readCdr fn asid a v = (.error w, t)) : s.startMigration fn asid a ctr v = (w, t) := by
  rw [State.startMigration, h]
  dsimp only
  rw [ha]
  dsimp only
  rw [hr]
theorem State.startMigration_change (h : s.vcidFault v false false = none)
    (ha : ((vcAddr a 64 0).orElse fun _ => if ctr = 0 then none else vcAddr ctr 4 0) = none)
    (hr : s.readCdr fn asid a v = (.ok n, t)) (hc : t.cache? v = some c)
    (hne : n.line ≠ c.line ∨ n.repl ≠ c.repl ∨ n.wpol ≠ c.wpol) : s.startMigration fn asid a ctr v = (vcStatus 0 vcChange, t) := by
  rw [State.startMigration, h]
  dsimp only
  rw [ha]
  dsimp only
  rw [hr]
  dsimp only
  rw [hc]
  exact if_pos (by simpa [or_assoc] using hne)
theorem State.startMigration_begins (h : s.vcidFault v false false = none)
    (ha : ((vcAddr a 64 0).orElse fun _ => if ctr = 0 then none else vcAddr ctr 4 0) = none)
    (hr : s.readCdr fn asid a v = (.ok n, t)) (hc : t.cache? v = some c) (hl : n.line = c.line) (hrep : n.repl = c.repl)
    (hw : n.wpol = c.wpol) (hok : ∀ x ∈ n.shares, (t.share x).role = .free ∨ ((t.share x).role = .member ∧ (t.share x).vcid = v)) :
    s.startMigration fn asid a ctr v = (vcStatus 0 0, t.migrate c n asid ctr) := by
  have hfind : (n.shares.find? fun x => !((t.share x).role == .free || ((t.share x).role == .member && (t.share x).vcid == v))) = none :=
    List.find?_eq_none.mpr fun x hx => by
      rcases hok x hx with h | ⟨h1, h2⟩
      · simp [h]
      · simp [h1, h2]
  rw [State.startMigration, h]
  dsimp only
  rw [ha]
  dsimp only
  rw [hr]
  dsimp only
  rw [hc]
  dsimp only
  rw [if_neg (by simp [hl, hrep, hw]), hfind]
theorem exec_vcmig {g : Guard} {d s1 s2 : Reg} {vcid : BitVec 8} {low : SId} {rest : List SId} (hact : s.active g = low :: rest)
    (h : s.startMigration s.curTeam.fn s.curTeam.recd.asid (s.recordAddr (s.stream low) ((s.stream low).rd64 s1))
      (if s2 = 0 then 0 else s.recordAddr (s.stream low) ((s.stream low).rd64 s2)) vcid.toNat = (w, t)) :
    exec (.vcmig g d s1 s2 vcid) s = .next (t.completed g fun st => st.wr d w) := by
  change execVcmig g d s1 s2 vcid s = _
  rw [execVcmig, State.lowest_of hact]
  dsimp only
  rw [h]
  rfl
end Start

/-! ### Lines that leave a cache -/

section Out
variable {s : State} {p : Line → Bool} {x l : Line}

/-- Which lines a set holds does not depend on what a write-back changes of a line. -/
def BlindTo (p : Line → Bool) : Prop := ∀ (l : Line) q, p { l with dirty := false, ctag := none, prio := q } = p l
/-- Of the lines that are written back and dropped none is left, and the others are as they were. -/
theorem State.mem_writtenOut (hp : BlindTo p) : x ∈ ((s.writeBack p).dropLines p).vt.lines ↔ x ∈ s.vt.lines ∧ p x = false := by
  have hlines : (s.writeBack p).vt.lines = s.vt.lines.map fun l => if (p l && l.dirty) = true then
      { l with dirty := false, ctag := none, prio := prioMin l.prio (s.fillPrio l.vcid) } else l := by
    have hput : ∀ (ls : List Line) (u : State), (ls.foldl (fun s l => s.putHome l.base l.data) u).vt.lines = u.vt.lines := by
      intro ls
      induction ls with
      | nil => exact fun _ => rfl
      | cons l ls ih =>
        intro u
        refine (ih _).trans ?_
        unfold State.putHome
        dsimp only
        split
        · split <;> rfl
        · rfl
    exact congrArg (List.map _) (hput _ s)
  have hdrop : x ∈ ((s.writeBack p).dropLines p).vt.lines ↔ x ∈ (s.writeBack p).vt.lines ∧ p x = false :=
    List.mem_filter.trans (by simp)
  rw [hdrop, hlines, List.mem_map]
  constructor
  · rintro ⟨⟨y, hy, rfl⟩, hx⟩
    by_cases hc : (p y && y.dirty) = true
    · rw [if_pos hc, hp] at hx
      rw [hx] at hc
      cases hc
    · rw [if_neg hc] at hx ⊢
      exact ⟨hy, hx⟩
  · rintro ⟨hx, hpx⟩
    exact ⟨⟨x, hx, if_neg (by simp [hpx])⟩, hpx⟩
theorem State.writtenOut_mem_clean (h : s.vt.lines.filter (fun l => p l && l.dirty) = []) :
    ((s.writeBack p).dropLines p).mem = s.mem := by
  have hm : ((s.writeBack p).dropLines p).mem =
      ((s.vt.lines.filter fun l => p l && l.dirty).foldl (fun s l => s.putHome l.base l.data) s).mem := rfl
  rw [hm, h]
  rfl
theorem State.writtenOut_stored (h : s.vt.lines.filter (fun l => p l && l.dirty) = [l]) (hk : s.keyDown l.base = false) :
    Stored s.mem ((s.writeBack p).dropLines p).mem l.base l.data := by
  have hm : ((s.writeBack p).dropLines p).mem =
      ((s.vt.lines.filter fun l => p l && l.dirty).foldl (fun s l => s.putHome l.base l.data) s).mem := rfl
  rw [hm, h]
  exact State.putHome_stored hk
theorem filter_and_dirty {ls : List Line} (h : ls.filter p = [l]) (hd : l.dirty = true) : ls.filter (fun l => p l && l.dirty) = [l] := by
  have : ls.filter (fun l => p l && l.dirty) = (ls.filter p).filter fun l => l.dirty := by
    rw [List.filter_filter]
    exact List.filter_congr fun x _ => Bool.and_comm _ _
  rw [this, h]
  simp [hd]
end Out

/-! ### Room in a set -/

section Room
variable {s : State} {c : VCache} {rep : Option Nat} {set : Nat}

theorem State.makeRoom_free (h : (s.vt.lines.filter (s.inSet c rep set)).length < c.assoc) : s.makeRoom c rep set = s := if_pos h
theorem Prio.rank_le (p : Prio) : Prio.rank p ≤ 2 := by cases p <;> decide
/-- The lowest priority of a set is that of one of its lines. -/
theorem lowest_prio {ls : List Line} (h : ls ≠ []) : (∀ x ∈ ls, ls.foldl (fun m l => min m (Prio.rank l.prio)) 2 ≤ Prio.rank x.prio) ∧
    ∃ x ∈ ls, Prio.rank x.prio = ls.foldl (fun m l => min m (Prio.rank l.prio)) 2 := by
  have hgen : ∀ (ls : List Line) (m : Nat), ls.foldl (fun m l => min m (Prio.rank l.prio)) m ≤ m ∧
      (∀ x ∈ ls, ls.foldl (fun m l => min m (Prio.rank l.prio)) m ≤ Prio.rank x.prio) ∧
      (ls.foldl (fun m l => min m (Prio.rank l.prio)) m = m ∨
        ∃ x ∈ ls, Prio.rank x.prio = ls.foldl (fun m l => min m (Prio.rank l.prio)) m) := by
    intro ls
    induction ls with
    | nil => exact fun m => ⟨le_refl m, fun _ h => absurd h List.not_mem_nil, .inl rfl⟩
    | cons y ls ih =>
      intro m
      obtain ⟨h1, h2, h3⟩ := ih (min m (Prio.rank y.prio))
      refine ⟨h1.trans (min_le_left _ _), fun x hx => ?_, ?_⟩
      · rcases List.mem_cons.mp hx with rfl | hx
        · exact h1.trans (min_le_right _ _)
        · exact h2 x hx
      · rcases h3 with h3 | ⟨x, hx, h3⟩
        · rcases min_choice m (Prio.rank y.prio) with hm | hm
          · exact .inl (h3.trans hm)
          · exact .inr ⟨y, List.mem_cons_self, (h3.trans hm).symm⟩
        · exact .inr ⟨x, List.mem_cons_of_mem _ hx, h3⟩
  obtain ⟨h1, h2, h3⟩ := hgen ls 2
  refine ⟨h2, ?_⟩
  rcases h3 with h3 | h3
  · obtain ⟨y, ys, rfl⟩ := List.exists_cons_of_ne_nil h
    have hy := h2 y List.mem_cons_self
    exact ⟨y, List.mem_cons_self, by have := Prio.rank_le y.prio; omega⟩
  · exact h3
/-- A line of the lowest priority of a full set leaves it (R236). -/
theorem State.makeRoom_evicts (h : c.assoc ≤ (s.vt.lines.filter (s.inSet c rep set)).length)
    (hne : s.vt.lines.filter (s.inSet c rep set) ≠ []) : ∃ out ∈ s.vt.lines.filter (s.inSet c rep set),
      (∀ x ∈ s.vt.lines.filter (s.inSet c rep set), Prio.rank out.prio ≤ Prio.rank x.prio) ∧ s.makeRoom c rep set =
        { ((s.writeBack fun l => s.inSet c rep set l && l.base == out.base).dropLines
          fun l => s.inSet c rep set l && l.base == out.base) with free := s.free + 1 } := by
  generalize hls : s.vt.lines.filter (s.inSet c rep set) = ls at h hne
  obtain ⟨hmin, y, hy, hlow⟩ := lowest_prio hne
  generalize hm : ls.foldl (fun m l => min m (Prio.rank l.prio)) 2 = low at hmin hlow
  generalize hcands : ls.filter (fun l => Prio.rank l.prio == low) = cands
  have hpos : 0 < cands.length := by
    rw [← hcands]
    exact List.length_pos_of_mem (List.mem_filter.mpr ⟨hy, by simpa using hlow⟩)
  have hlt := Nat.mod_lt (Config.pick s.free) hpos
  have hout : cands[Config.pick s.free % cands.length] ∈ cands := List.getElem_mem hlt
  have hget : cands[Config.pick s.free % cands.length]? = some cands[Config.pick s.free % cands.length] := List.getElem?_eq_getElem hlt
  generalize cands[Config.pick s.free % cands.length] = out at hout hget
  rw [← hcands] at hout
  obtain ⟨hin, hrank⟩ := List.mem_filter.mp hout
  refine ⟨out, hin, fun x hx => ?_, ?_⟩
  · rw [beq_iff_eq.mp hrank]
    exact hmin x hx
  · unfold State.makeRoom
    dsimp only
    rw [hls, if_neg (Nat.not_lt.mpr h), hm, hcands, hget]
theorem State.inSet_blind (s : State) (c : VCache) (rep : Option Nat) (set base : Nat) :
    BlindTo fun l => s.inSet c rep set l && l.base == base := fun _ _ => rfl
/-- Room is made without the lines that lie in no place of the set. -/
theorem State.mem_makeRoom {l : Line} (h : s.inSet c rep set l = false) : l ∈ (s.makeRoom c rep set).vt.lines ↔ l ∈ s.vt.lines := by
  by_cases hlen : (s.vt.lines.filter (s.inSet c rep set)).length < c.assoc
  · rw [State.makeRoom_free hlen]
  · by_cases hne : s.vt.lines.filter (s.inSet c rep set) = []
    · have hroom : s.makeRoom c rep set = s := by
        unfold State.makeRoom
        dsimp only
        rw [hne]
        exact ite_self s
      rw [hroom]
    · obtain ⟨out, -, -, heq⟩ := State.makeRoom_evicts (Nat.not_lt.mp hlen) hne
      rw [heq]
      exact (State.mem_writtenOut (s.inSet_blind c rep set out.base)).trans (by simp [h])
theorem State.makeRoom_subset {l : Line} (h : l ∈ (s.makeRoom c rep set).vt.lines) : l ∈ s.vt.lines := by
  by_cases hlen : (s.vt.lines.filter (s.inSet c rep set)).length < c.assoc
  · rwa [State.makeRoom_free hlen] at h
  · by_cases hne : s.vt.lines.filter (s.inSet c rep set) = []
    · have hroom : s.makeRoom c rep set = s := by
        unfold State.makeRoom
        dsimp only
        rw [hne]
        exact ite_self s
      rwa [hroom] at h
    · obtain ⟨out, -, -, heq⟩ := State.makeRoom_evicts (Nat.not_lt.mp hlen) hne
      rw [heq] at h
      exact ((State.mem_writtenOut (s.inSet_blind c rep set out.base)).mp h).1
end Room

/-! ### Sweeping a line out of a LEAVING share -/

section Sweep
variable {s : State} {v base : Nat} {c : VCache} {l : Line}

/-- The lines that a sweep writes out. -/
def sweptLines (v base : Nat) (rep : Option Nat) (x : Line) : Bool := x.vcid == v && x.base == base && x.rep == rep
theorem sweptLines_iff {rep : Option Nat} {x : Line} : sweptLines v base rep x = true ↔ x.vcid = v ∧ x.base = base ∧ x.rep = rep := by
  simp [sweptLines, and_assoc]
theorem State.mayMove_iff (s : State) (c : VCache) (l : Line) : s.mayMove c l = true ↔
    ¬(c.assoc ≤ (s.vt.lines.filter (s.inSet c l.rep (c.setOf l.base (s.fillShares c l.rep).length))).length ∧
      ∀ x ∈ s.vt.lines.filter (s.inSet c l.rep (c.setOf l.base (s.fillShares c l.rep).length)),
        x.dirty = true ∧ Prio.rank l.prio < Prio.rank x.prio) := by
  unfold State.mayMove
  dsimp only
  generalize s.vt.lines.filter _ = ls
  rw [Bool.or_eq_true, decide_eq_true_eq, not_and_or, Nat.not_le, List.any_eq_true]
  refine or_congr Iff.rfl ?_
  simp only [Bool.not_eq_true', Bool.and_eq_false_iff, not_forall]
  exact exists_congr fun x => by
    rw [exists_prop, not_and_or, decide_eq_false_iff_not, Bool.not_eq_true]
theorem exec_vcmigSweep (hc : s.cache? v = some c)
    (hl : (s.vt.lines.find? fun l => l.vcid = v && l.base = base && (s.share l.share).role == .leaving) = some l) :
    exec (.vcmigSweep v base) s = .next (if (s.mayMove c l && !(s.fillShares c l.rep).isEmpty) = true then s.moveLine c l.rep base
      else (s.writeBack (sweptLines v base l.rep)).dropLines (sweptLines v base l.rep)) := by
  change execVcmigSweep v base s = _
  rw [execVcmigSweep, hc]
  dsimp only
  rw [hl]
  rfl
theorem exec_vcmigSweep_none (h : s.cache? v = none ∨
    ∀ l ∈ s.vt.lines, ¬(l.vcid = v ∧ l.base = base ∧ (s.share l.share).role = .leaving)) : exec (.vcmigSweep v base) s = .next s := by
  change execVcmigSweep v base s = _
  rw [execVcmigSweep]
  rcases hc : s.cache? v with _ | c
  · rfl
  · have hno : (s.vt.lines.find? fun l => l.vcid = v && l.base = base && (s.share l.share).role == .leaving) = none := by
      refine List.find?_eq_none.mpr fun l hl => ?_
      have := (h.resolve_left (by rw [hc]; nofun)) l hl
      simpa [and_assoc] using this
    dsimp only
    rw [hno]
/-- A line that finds no place is written back and leaves the cache. -/
theorem State.swept_spec (s : State) (v base : Nat) (l : Line) :
    let t := (s.writeBack (sweptLines v base l.rep)).dropLines (sweptLines v base l.rep)
    t.streams = s.streams ∧
    (∀ x, x ∈ t.vt.lines ↔ x ∈ s.vt.lines ∧ ¬(x.vcid = v ∧ x.base = base ∧ x.rep = l.rep)) ∧
    ((∀ x ∈ s.vt.lines, x.vcid = v → x.base = base → x.rep = l.rep → x.dirty = false) → t.mem = s.mem) ∧
    (s.vt.lines.filter (fun x => decide (x.vcid = v ∧ x.base = base ∧ x.rep = l.rep)) = [l] → l.dirty = true →
      s.keyDown base = false → Stored s.mem t.mem base l.data) := by
  intro t
  have hw : s.LineWork t := (State.LineWork.writeBack s _).trans (.dropLines _ _)
  have hp : BlindTo (sweptLines v base l.rep) := fun _ _ => rfl
  refine ⟨hw.streams, fun x => ?_, fun hd => ?_, fun hone hdirty hk => ?_⟩
  · rw [State.mem_writtenOut hp, ← sweptLines_iff, Bool.not_eq_true]
  · refine State.writtenOut_mem_clean (List.filter_eq_nil_iff.mpr fun x hx => ?_)
    rw [Bool.and_eq_true, sweptLines_iff]
    rintro ⟨⟨h1, h2, h3⟩, h4⟩
    rw [hd x hx h1 h2 h3] at h4
    cases h4
  · have hf : s.vt.lines.filter (sweptLines v base l.rep) = [l] := by
      rw [← hone]
      exact List.filter_congr fun x _ => by rw [Bool.eq_iff_iff, sweptLines_iff, decide_eq_true_eq]
    have hin : l ∈ s.vt.lines.filter (sweptLines v base l.rep) := by
      rw [hf]
      exact List.mem_singleton_self l
    have hb : l.base = base := (sweptLines_iff.mp (List.mem_filter.mp hin).2).2.1
    have := State.writtenOut_stored (filter_and_dirty hf hdirty) (by rwa [hb])
    rwa [hb] at this
/-- A line of a LEAVING share that finds a place takes it, with what it holds (R239). -/
theorem State.moveLine_spec (hv : c.vcid = v) (hb : l.base = base) (hlv : (s.share l.share).role.leaves = true) (hne : s.fillShares c l.rep ≠ [])
    (hline : s.line? v l.rep base = some l) :
    let shs := s.fillShares c l.rep
    let set := c.setOf base shs.length
    let s1 := s.makeRoom c l.rep set
    let moved := { l with share := c.shareAt shs set, set := set, way := s1.freeWay c l.rep set }
    (s.moveLine c l.rep base).streams = s.streams ∧ (s.moveLine c l.rep base).mem = s1.mem ∧
      ((∀ x ∈ s.vt.lines, x.vcid = v → x.base = base → x.rep = l.rep → x = l) →
        ∀ x, x ∈ (s.moveLine c l.rep base).vt.lines ↔ (x ∈ s1.vt.lines ∧ x ≠ l) ∨ x = moved) := by
  subst hv hb
  intro shs set s1 moved
  have heq : s.moveLine c l.rep l.base = s1.onLines (fun x => x.vcid == c.vcid && x.rep == l.rep && x.base == l.base) fun x =>
      { x with share := c.shareAt shs set, set := set, way := s1.freeWay c l.rep set } := by
    unfold State.moveLine
    rw [hline]
    exact if_neg (by simp [hlv, hne])
  rw [heq]
  refine ⟨(State.LineWork.makeRoom s c l.rep set).streams, rfl, fun hone x => ?_⟩
  have hin : l ∈ s1.vt.lines :=
    (State.mem_makeRoom (by simp [State.inSet, hlv])).mpr (List.mem_of_find?_eq_some hline)
  have hp : (l.vcid == c.vcid && l.rep == l.rep && l.base == l.base) = true := by
    have := List.find?_some hline
    simp only [Bool.and_eq_true, decide_eq_true_eq] at this
    simp [this.1.1]
  have honly : ∀ y ∈ s1.vt.lines, (y.vcid == c.vcid && y.rep == l.rep && y.base == l.base) = true → y = l := by
    intro y hy h
    simp only [Bool.and_eq_true, beq_iff_eq] at h
    exact hone y (State.makeRoom_subset hy) h.1.1 h.2 h.1.2
  refine List.mem_map.trans ⟨?_, ?_⟩
  · rintro ⟨y, hy, rfl⟩
    by_cases h : (y.vcid == c.vcid && y.rep == l.rep && y.base == l.base) = true
    · rw [if_pos h, honly y hy h]
      exact .inr rfl
    · rw [if_neg h]
      refine .inl ⟨hy, fun hyl => h ?_⟩
      rw [hyl]
      exact hp
  · rintro (⟨hx, hxl⟩ | rfl)
    · exact ⟨x, hx, if_neg fun h => hxl (honly x hx h)⟩
    · exact ⟨l, hin, if_pos hp⟩
theorem State.mem_fillShares {rep : Option Nat} {n : Nat} (h : n ∈ s.fillShares c rep) : (s.share n).role = .member := by
  obtain ⟨e, -, he⟩ := List.mem_flatMap.mp h
  exact beq_iff_eq.mp (List.mem_filter.mp he).2
/-- The share of a set is one of those that take new lines. -/
theorem State.shareAt_member {rep : Option Nat} (hne : s.fillShares c rep ≠ []) (hpos : 0 < c.setsPerShare) :
    (s.share (c.shareAt (s.fillShares c rep) (c.setOf base (s.fillShares c rep).length))).role = .member := by
  have hlen : 0 < (s.fillShares c rep).length := List.length_pos_of_ne_nil hne
  have hlt : c.setOf base (s.fillShares c rep).length / c.setsPerShare < (s.fillShares c rep).length :=
    Nat.div_lt_of_lt_mul (by
      rw [Nat.mul_comm]
      exact Nat.mod_lt _ (Nat.mul_pos hlen hpos))
  rw [VCache.shareAt, List.getD_eq_getElem _ _ hlt]
  exact State.mem_fillShares (List.getElem_mem hlt)
/-- The line that a full set evicts is written back, and the others stay (R236). -/
theorem State.evicted_spec {rep : Option Nat} {set : Nat} (h : c.assoc ≤ (s.vt.lines.filter (s.inSet c rep set)).length)
    (hne : s.vt.lines.filter (s.inSet c rep set) ≠ []) : ∃ out ∈ s.vt.lines.filter (s.inSet c rep set),
      (∀ x ∈ s.vt.lines.filter (s.inSet c rep set), Prio.rank out.prio ≤ Prio.rank x.prio) ∧
      (∀ x, x ∈ (s.makeRoom c rep set).vt.lines ↔ x ∈ s.vt.lines ∧ ¬(s.inSet c rep set x = true ∧ x.base = out.base)) ∧
      ((s.vt.lines.filter (s.inSet c rep set)).filter (fun x => x.base == out.base) = [out] → out.dirty = true →
        s.keyDown out.base = false → Stored s.mem (s.makeRoom c rep set).mem out.base out.data) := by
  obtain ⟨out, hin, hmin, heq⟩ := State.makeRoom_evicts h hne
  refine ⟨out, hin, hmin, fun x => ?_, fun hone hd hk => ?_⟩
  · rw [heq]
    exact (State.mem_writtenOut (s.inSet_blind c rep set out.base)).trans (by simp)
  · rw [heq]
    refine State.writtenOut_stored (filter_and_dirty ?_ hd) hk
    rw [← hone, List.filter_filter]
    exact List.filter_congr fun x _ => Bool.and_comm _ _
end Sweep

/-! ### The end of a migration -/

section End
variable {s : State} {v : Nat} {c : VCache} {asid : BitVec 16} {k : DWord} {bad : Bool}

theorem exec_migrationEnd_waits (hc : s.cache? v = some c) (hs : c.state = .migrating asid k bad)
    (h : ∃ l ∈ s.vt.lines, l.vcid = v ∧ l.share ∈ s.leavingShares v) : exec (.migrationEnd v) s = .next s := by
  change execMigrationEnd v s = _
  rw [execMigrationEnd, hc]
  dsimp only
  rw [hs]
  refine congrArg Host.Outcome.next (if_pos (List.any_eq_true.mpr ?_))
  obtain ⟨l, hl, hv, hn⟩ := h
  exact ⟨l, hl, by simpa [hv] using hn⟩
theorem exec_migrationEnd_ends (hc : s.cache? v = some c) (hs : c.state = .migrating asid k bad)
    (h : ¬∃ l ∈ s.vt.lines, l.vcid = v ∧ l.share ∈ s.leavingShares v) :
    ∃ r, r = ((s.leavingShares v).foldl State.freeShare s).onCache v (fun x => { x with state := .defined }) ∧
      exec (.migrationEnd v) s = .next (if k = 0 then r else r.bump (r.fnOf asid) asid k 1 bad) := by
  refine ⟨_, rfl, ?_⟩
  change execMigrationEnd v s = _
  rw [execMigrationEnd, hc]
  dsimp only
  rw [hs]
  refine congrArg Host.Outcome.next ((if_neg fun hany => h ?_).trans rfl)
  obtain ⟨l, hl, hn⟩ := List.any_eq_true.mp hany
  rw [Bool.and_eq_true, beq_iff_eq, List.contains_iff_mem] at hn
  exact ⟨l, hl, hn⟩
/-- A migration that no line holds up ends: its LEAVING shares have no use, and its cache is as defined. -/
theorem State.migrationEnd_spec (hc : s.cache? v = some c) (hs : c.state = .migrating asid k bad)
    (h : ¬∃ l ∈ s.vt.lines, l.vcid = v ∧ l.share ∈ s.leavingShares v) (hw : s.vt.waiters = []) (ho : ∀ o ∈ s.ops, o.phase ≠ .waiting) :
    ∃ r, exec (.migrationEnd v) s = .next (if k = 0 then r else r.bump (r.fnOf asid) asid k 1 bad) ∧
      r.cache? v = some { c with state := .defined } ∧ r.streams = s.streams ∧
      (∀ n ∈ s.leavingShares v, (r.share n).role = .free ∨ (r.share n).role = .failed) ∧
      ∀ n, n ∉ s.leavingShares v → r.share n = s.share n := by
  obtain ⟨r, hr, hex⟩ := exec_migrationEnd_ends hc hs h
  obtain ⟨⟨m, e, b, sh, hfree⟩, hroles, hothers⟩ := State.freeShares_spec (s.leavingShares v) hw ho
  refine ⟨r, hex, ?_, ?_, fun n hn => ?_, fun n hn => ?_⟩
  · rw [hr]
    refine State.onCache_cache? (f := fun x => { x with state := .defined }) (fun _ => rfl) ?_
    rw [hfree]
    exact hc
  · rw [hr]
    exact (congrArg State.streams hfree).trans rfl
  · rw [hr]
    exact hroles n hn
  · rw [hr]
    exact hothers n hn
end End

/-! ### The obligation -/

/-- A cache identifier that is not 0 is no 0 as a number. -/
theorem vcid_toNat_ne {vcid : BitVec 8} (h : vcid ≠ 0) : vcid.toNat ≠ 0 := fun h0 => h (BitVec.eq_of_toNat_eq h0)
theorem vcid_undefined {s : State} {vcid : BitVec 8} (h : vcid = 0 ∨ s.cache? vcid.toNat = none) :
    vcid.toNat = 0 ∨ s.cache? vcid.toNat = none := h.imp_left fun h => by rw [h]; rfl
/-- The status words of `vcmig`, and the migration that it begins. -/
theorem vcmig_answers (g : Guard) (d s1 s2 : Reg) (vcid : BitVec 8) (s : State) {low : SId} {rest : List SId} (hact : s.active g = low :: rest) :
    let st := s.stream low
    let a := s.recordAddr st (st.rd64 s1)
    let ctr := if s2 = 0 then 0 else s.recordAddr st (st.rd64 s2)
    let answers := fun (t : State) (w : Word) => exec (.vcmig g d s1 s2 vcid) s = .next (t.completed g fun st => st.wr d w)
    (vcid = 0 ∨ s.cache? vcid.toNat = none → answers s 1) ∧
    ∀ c, vcid ≠ 0 → s.cache? vcid.toNat = some c → (c.state ≠ .defined → answers s 2) ∧
      (c.state = .defined → plain00 a = false → answers s 9) ∧
      (c.state = .defined → plain00 a = true → a.toNat % 64 ≠ 0 → answers s 4) ∧
      (c.state = .defined → plain00 a = true → a.toNat % 64 = 0 → ctr = 0 ∨ (plain00 ctr = true ∧ ctr.toNat % 4 = 0) →
        (∀ e t, s.readCdr s.curTeam.fn s.curTeam.recd.asid a vcid.toNat = (.error e, t) → answers t e) ∧
        ∀ n t, s.readCdr s.curTeam.fn s.curTeam.recd.asid a vcid.toNat = (.ok n, t) → t.cache? vcid.toNat = some c →
          let ok := fun (x : Nat) => (t.share x).role = .free ∨ ((t.share x).role = .member ∧ (t.share x).vcid = vcid.toNat)
          (n.line ≠ c.line ∨ n.repl ≠ c.repl ∨ n.wpol ≠ c.wpol → answers t 8) ∧
          (n.line = c.line → n.repl = c.repl → n.wpol = c.wpol → c.vcid = vcid.toNat → (∀ x ∈ n.shares, ok x) →
            ∃ u bad, answers u 0 ∧ u.cache? vcid.toNat = some { c with
                fill := n.fill, assoc := n.assoc, map := n.map, state := .migrating s.curTeam.recd.asid ctr bad } ∧
              (∀ x ∈ n.shares, (u.share x).role = .member ∧ (u.share x).vcid = vcid.toNat) ∧
              (∀ x ∈ c.shares, x ∉ n.shares → (t.share x).role = .member → (u.share x).role = .leaving) ∧
              (∀ x, x ∉ n.shares → x ∉ c.shares → u.share x = t.share x) ∧
              ∀ l ∈ u.vt.lines, l.vcid = vcid.toNat → (u.share l.share).role.leaves = false → l.way < n.assoc)) := by
  intro st a ctr answers
  refine ⟨fun h => exec_vcmig hact (State.startMigration_fault (State.vcidFault_undefined (vcid_undefined h) false)), fun c hv hc =>
    ⟨fun h => exec_vcmig hact (State.startMigration_fault (State.vcidFault_busy (vcid_toNat_ne hv) hc h _ _)), fun h hp => ?_,
      fun h hp hal => ?_, fun h hp hal hctr => ⟨fun e t hr => ?_, fun n t hr hct => ?_⟩⟩⟩
  all_goals have hf := State.vcidFault_defined (vcid_toNat_ne hv) hc h false false
  · exact exec_vcmig hact (State.startMigration_address hf (vcAddr_class hp))
  · exact exec_vcmig hact (State.startMigration_address hf (vcAddr_align hp hal))
  · exact exec_vcmig hact (State.startMigration_read hf (vcmig_addresses (vcAddr_ok hp hal) hctr) hr)
  · intro ok
    have haddr := vcmig_addresses (vcAddr_ok hp hal) hctr
    refine ⟨fun hne => exec_vcmig hact (State.startMigration_change hf haddr hr hct hne), fun hl hrep hw _ hok => ?_⟩
    obtain ⟨⟨bad, hbad⟩, hin, hgone, hother, hways⟩ := State.migrate_spec (asid := s.curTeam.recd.asid) (ctr := ctr) hct hok
    exact ⟨_, bad, exec_vcmig hact (State.startMigration_begins hf haddr hr hct hl hrep hw hok), hbad, hin, hgone, hother, hways⟩
/-- What the sweep of a line does: to its place, or out of the cache. -/
theorem vcmigSweep_answers (s : State) (v base : Nat) (c : VCache) (l : Line) (hc : s.cache? v = some c) (hv : c.vcid = v)
    (hl : (s.vt.lines.find? fun l => l.vcid = v && l.base = base && (s.share l.share).role == .leaving) = some l) :
    let shs := s.fillShares c l.rep
    let set := c.setOf base shs.length
    let ls := s.vt.lines.filter (s.inSet c l.rep set)
    let full := c.assoc ≤ ls.length ∧ ∀ x ∈ ls, x.dirty = true ∧ Prio.rank l.prio < Prio.rank x.prio
    (full ∨ shs = [] → ∃ t, exec (.vcmigSweep v base) s = .next t ∧ t.streams = s.streams ∧
      (∀ x, x ∈ t.vt.lines ↔ x ∈ s.vt.lines ∧ ¬(x.vcid = v ∧ x.base = base ∧ x.rep = l.rep)) ∧
      ((∀ x ∈ s.vt.lines, x.vcid = v → x.base = base → x.rep = l.rep → x.dirty = false) → t.mem = s.mem) ∧
      (s.vt.lines.filter (fun x => decide (x.vcid = v ∧ x.base = base ∧ x.rep = l.rep)) = [l] → l.dirty = true →
        s.keyDown base = false → Stored s.mem t.mem base l.data)) ∧
    (¬full → shs ≠ [] → s.line? v l.rep base = some l →
      let s1 := s.makeRoom c l.rep set
      let moved := { l with share := c.shareAt shs set, set := set, way := s1.freeWay c l.rep set }
      (∃ t, exec (.vcmigSweep v base) s = .next t ∧ t.streams = s.streams ∧ t.mem = s1.mem ∧
        ((∀ x ∈ s.vt.lines, x.vcid = v → x.base = base → x.rep = l.rep → x = l) →
          ∀ x, x ∈ t.vt.lines ↔ (x ∈ s1.vt.lines ∧ x ≠ l) ∨ x = moved)) ∧
      (0 < c.setsPerShare → (s.share moved.share).role = .member) ∧
      (ls.length < c.assoc → s1 = s) ∧
      (c.assoc ≤ ls.length → ls ≠ [] → ∃ out ∈ ls, (∀ x ∈ ls, Prio.rank out.prio ≤ Prio.rank x.prio) ∧
        (∀ x, x ∈ s1.vt.lines ↔ x ∈ s.vt.lines ∧ ¬(s.inSet c l.rep set x = true ∧ x.base = out.base)) ∧
        (ls.filter (fun x => x.base == out.base) = [out] → out.dirty = true → s.keyDown out.base = false →
          Stored s.mem s1.mem out.base out.data))) := by
  intro shs set ls full
  have hfound := List.find?_some hl
  simp only [Bool.and_eq_true, decide_eq_true_eq, beq_iff_eq] at hfound
  obtain ⟨⟨-, hb⟩, hrole⟩ := hfound
  have hmay : s.mayMove c l = true ↔ ¬full := by
    rw [State.mayMove_iff, hb]
  have hex := exec_vcmigSweep hc hl
  refine ⟨fun h => ?_, fun hfull hne hline => ⟨?_, fun hpos => State.shareAt_member hne hpos, State.makeRoom_free, State.evicted_spec⟩⟩
  · refine ⟨_, hex.trans (congrArg _ (if_neg ?_)), State.swept_spec s v base l⟩
    rw [Bool.and_eq_true, hmay]
    rintro ⟨hm, hs⟩
    exact absurd (h.resolve_left hm) (by simpa using hs)
  · refine ⟨_, hex.trans (congrArg _ (if_pos ?_)), State.moveLine_spec hv hb (by rw [hrole]; rfl) hne hline⟩
    rw [Bool.and_eq_true, hmay]
    exact ⟨hfull, by simpa using hne⟩

/-- Settles O59: the checks of `vcdef`, `vcdef.rm` and `vcmig` in their order; a line leaves a full set by `makeRoom`, and a sweep takes
its line to its place or writes it out. -/
theorem cachesAreDefinedAndMigrate : Obligations.CachesAreDefinedAndMigrate := by
  refine ⟨⟨fun g d s1 vcid s low rest hact => vcdef_answers g d s1 vcid s hact, fun g d vcid s low rest hact => ?_,
    fun s v c hc => ⟨exec_vcRemoveDrain_waits hc, fun hs hu hw ho => State.vcRemoveDrain_spec hc hs hu hw ho⟩⟩,
    fun g d s1 s2 vcid s low rest hact => vcmig_answers g d s1 s2 vcid s hact, vcmigSweep_answers,
    fun s v base h => exec_vcmigSweep_none h,
    fun s v c asid k bad hc hs => ⟨exec_migrationEnd_waits hc hs, State.migrationEnd_spec hc hs⟩⟩
  refine ⟨fun h => exec_vcdefRm_fault hact (State.vcidFault_undefined (vcid_undefined h) true), fun c hv hc => ⟨fun h =>
    exec_vcdefRm_fault hact (State.vcidFault_busy (vcid_toNat_ne hv) hc h _ _), fun h h1 => ?_, fun h h1 hp => ?_⟩⟩
  all_goals have hf := State.vcidFault_defined (vcid_toNat_ne hv) hc h false true
  · refine exec_vcdefRm_fault hact (hf.trans (if_pos ?_))
    rw [h1]
    rfl
  · refine exec_vcdefRm_parks hact hp (hf.trans (if_neg ?_)) hc
    have : vcid.toNat ≠ 1 := fun h => h1 (BitVec.eq_of_toNat_eq h)
    simpa using this

end Sys2Proof.Machine
end
section
/-! PROOFS. Firmware stages, the management port and halts (R425, R443 to R446). -/
namespace Sys2Proof.Machine

/-! ### Cores halt -/

section Halt
variable {s : State}

theorem mem_foldl_nins_iff {l m : List Nat} {x : Nat} : x ∈ l.foldl nins m ↔ x ∈ l ∨ x ∈ m := by
  induction l generalizing m with
  | nil => simp
  | cons a l ih =>
    rw [List.foldl_cons, ih, mem_nins, List.mem_cons]
    tauto
theorem State.stream_window_none (h : ∀ st ∈ s.streams, st.window = none) (id : SId) : (s.stream id).window = none := by
  cases hf : s.stream? id with
  | none => rw [show s.stream id = newStream id 0 0 0 by rw [State.stream, hf]; rfl]; rfl
  | some st =>
    rw [show s.stream id = st by rw [State.stream, hf]; rfl]
    exact h st (List.mem_of_find?_eq_some hf)
/-- Where no window is open there is nothing to squash. -/
theorem State.squashAll_idle (h : ∀ st ∈ s.streams, st.window = none) (ids : List SId) : ids.foldl State.squash s = s := by
  induction ids with
  | nil => rfl
  | cons id ids ih =>
    rw [List.foldl_cons, State.squash, State.stream_window_none h]
    exact ih
theorem State.haltCores_idle (h : ∀ st ∈ s.streams, st.window = none) (cs : List Nat) :
    s.haltCores cs = { s with halted := cs.foldl nins s.halted } := by
  rw [State.haltCores, State.squashAll_idle h]
theorem mem_haltAll {c : Nat} {m : List Nat} : c ∈ (List.range Config.cores).foldl nins m ↔ c < 192 ∨ c ∈ m := by
  rw [mem_foldl_nins_iff, List.mem_range]
  rfl
/-- What `halt` does in the lanes of its guard. -/
def haltedLane (o : Alu1) (st : Stream) : Stream := (st.kill o.s1 o.k1).wr o.d 0
theorem exec_halt {o : Alu1} {low : SId} {rest : List SId} (hact : s.active o.g = low :: rest) :
    exec (.halt o) s = .next (
      let c := ((s.stream low).rd o.s1).toNat
      let own := s.curTeam.coreOf (s.stream low).id
      if !s.physical (s.stream low) then s.trapLow o.g cPrivilege
      else if c = 0xFFFFFFFF then
        (s.haltCores ((List.range Config.cores).filter fun k => k != own)).retireLanes o.g (haltedLane o)
      else if 191 < c || c = own then s.trapLow o.g cIllegalOperand
      else (s.haltCores [c]).retireLanes o.g (haltedLane o)) := by
  change execHalt o s = _
  rw [execHalt, State.lowest_of hact]
  rfl
end Halt

/-! ### Firmware stages -/

/-- Which image a stage loads, as the obligation says it. -/
theorem Firmware.loads_of {f : Firmware} {image : List Byte} {version : Nat} (h : f.active = none ∨ ∃ bs, f.active = some (bs, version) ∧
    image = if f.stages = 7 then bs.drop f.loaded else (bs.drop f.loaded).take image.length) : f.loads image version = true := by
  unfold Firmware.loads
  rcases h with h | ⟨bs, h, himg⟩
  · rw [h]
  · rw [h]
    simpa using himg
theorem exec_firmwareStage {s : State} {image : List Byte} {version : Nat} (hr : s.fw.recovery = false) (hs : s.fw.stages < 8)
    (h : s.fw.loads image version = true) : exec (.firmwareStage s.fw.stages image version) s = .next (
      let m := sset [] s.fw.measures s.fw.stages ((Config.shake256 image).take 64)
      if s.fw.accepts image version then
        { s with fw := { s.fw with measures := m, stages := s.fw.stages + 1, loaded := s.fw.loaded + image.length } }
      else { s with fw := { s.fw with measures := m, recovery := true } }) := by
  change execFirmwareStage _ image version s = _
  rw [execFirmwareStage]
  exact congrArg Host.Outcome.next (if_neg (by simp [hr, hs, h]))
theorem exec_firmwareStage_other {s : State} {bs image : List Byte} {v version : Nat} (ha : s.fw.active = some (bs, v)) (hv : version ≠ v) :
    exec (.firmwareStage s.fw.stages image version) s = .next s := by
  have hl : s.fw.loads image version = false := by
    rw [Firmware.loads, ha]
    simp [hv]
  change execFirmwareStage _ image version s = _
  rw [execFirmwareStage]
  exact congrArg Host.Outcome.next (if_pos (by simp [hl]))
theorem Firmware.accepts_iff {f : Firmware} {image : List Byte} {version : Nat} :
    f.accepts image version = true ↔ Config.mldsaOk image = true ∧ f.fuse ≤ version := by simp [Firmware.accepts]

/-! ### Requests of the management port and of the host -/

section Requests
variable {s : State} {r : MctpReq} {version : Nat}

theorem State.mctpOpen_iff : s.mctpOpen r = true ↔ r.host = false ∨ s.links.hostUp = true ∧ s.fw.recovery = false := by
  simp [State.mctpOpen]
theorem exec_pldmFwUpdate (h : s.mctpOpen r = true) : exec (.pldmFwUpdate r version) s = .next ((if s.fw.accepts r.bytes version = true then
    { s with fw := { s.fw with update := some (r.bytes, version) } } else s).answerMctp r.host []) := by
  change execPldmFwUpdate r version s = _
  rw [execPldmFwUpdate]
  exact congrArg Host.Outcome.next (if_pos h)
theorem exec_spdmRequest (h : s.mctpOpen r = true) : exec (.spdmRequest r) s = .next (s.answerMctp r.host
    (Config.certificates ++ s.fw.report ++ Config.mldsaSign s.fw.ident (r.bytes ++ s.fw.report))) := by
  change execSpdmRequest r s = _
  rw [execSpdmRequest]
  exact congrArg Host.Outcome.next (if_pos h)
theorem mctp_closed (h : ¬s.mctpOpen r = true) : exec (.pldmFwUpdate r version) s = .next s ∧ exec (.spdmRequest r) s = .next s :=
  ⟨congrArg Host.Outcome.next (if_neg h), congrArg Host.Outcome.next (if_neg h)⟩
end Requests

/-- HALT_ALL and CRASH_DUMP where no window is open. -/
theorem haltAll_crashDump {s : State} (h : ∀ st ∈ s.streams, st.window = none) :
    (∃ t bs, exec .haltAll s = .next t ∧ t = { s with halted := t.halted, free := s.free + 1, outbox := s.outbox ++ [.mgmt bs] } ∧
      ∀ c, c ∈ t.halted ↔ c < 192 ∨ c ∈ s.halted) ∧
    (∃ t, exec .crashDump s = .next t ∧
      t = { s with halted := t.halted, outbox := s.outbox ++ [.dump s.dumped (Config.mldsaSign s.fw.ident (dumpBytes s.dumped))] } ∧
      ∀ c, c < 192 → c ∈ t.halted) := by
  obtain ⟨hs, hidle, hmem⟩ : ∃ hs, s.haltCores (List.range Config.cores) = { s with halted := hs } ∧ ∀ c, c ∈ hs ↔ c < 192 ∨ c ∈ s.halted :=
    ⟨_, State.haltCores_idle h _, fun c => mem_haltAll⟩
  have hdump : ∀ u, (if (List.range Config.cores).all s.halted.contains then s else s.haltCores (List.range Config.cores)) = u →
      exec .crashDump s = .next (u.send (.dump u.dumped (Config.mldsaSign u.fw.ident (dumpBytes u.dumped)))) := by
    rintro u rfl
    change execCrashDump s = _
    rw [execCrashDump]
  refine ⟨⟨({ s with halted := hs } : State).answerMctp false [], Config.monitor s.free, ?_, rfl, hmem⟩, ?_⟩
  · change execHaltAll s = _
    rw [execHaltAll, hidle]
  · by_cases hall : ((List.range Config.cores).all s.halted.contains) = true
    · refine ⟨_, hdump s (if_pos hall), rfl, fun c hc => ?_⟩
      exact List.contains_iff_mem.mp (List.all_eq_true.mp hall c (List.mem_range.mpr hc))
    · exact ⟨_, hdump _ ((if_neg hall).trans hidle), rfl, fun c hc => (hmem c).mpr (.inl hc)⟩
/-- `halt` where no window is open (R425). -/
theorem halt_answers {s : State} (h : ∀ st ∈ s.streams, st.window = none) (o : Alu1) {low : SId} {rest : List SId}
    (hact : s.active o.g = low :: rest) :
    let c := ((s.stream low).rd o.s1).toNat
    let own := s.curTeam.coreOf (s.stream low).id
    (s.physical (s.stream low) = false → exec (.halt o) s = .next (s.trapLow o.g 0x05)) ∧
    (s.physical (s.stream low) = true → 191 < c → c ≠ 0xFFFFFFFF → exec (.halt o) s = .next (s.trapLow o.g 0x03)) ∧
    (s.physical (s.stream low) = true → c = 0xFFFFFFFF → ∃ t, exec (.halt o) s = .next t ∧
      t = { (s.completed o.g fun st => (st.kill o.s1 o.k1).wr o.d 0) with halted := t.halted } ∧
      ∀ k, k ∈ t.halted ↔ (k < 192 ∧ k ≠ own) ∨ k ∈ s.halted) ∧
    (s.physical (s.stream low) = true → c ≤ 191 → c ≠ own → ∃ t, exec (.halt o) s = .next t ∧
      t = { (s.completed o.g fun st => (st.kill o.s1 o.k1).wr o.d 0) with halted := t.halted } ∧
      ∀ k, k ∈ t.halted ↔ k = c ∨ k ∈ s.halted) := by
  intro c own
  have hex := exec_halt hact
  dsimp only at hex
  refine ⟨fun hp => ?_, fun hp hc hne => ?_, fun hp hc => ?_, fun hp hc hne => ?_⟩
  · rw [hex, hp]
    rfl
  · rw [hex, if_neg (by simp [hp]), if_neg hne, if_pos (by simpa using Or.inl hc)]
    rfl
  · rw [hex, if_neg (by simp [hp]), if_pos hc, State.haltCores_idle h]
    refine ⟨_, rfl, rfl, fun k => mem_foldl_nins_iff.trans (or_congr_left ?_)⟩
    simp [Config.cores, own]
  · rw [hex, if_neg (by simp [hp]), if_neg (by omega), if_neg (by simpa using ⟨hc, hne⟩), State.haltCores_idle h]
    exact ⟨_, rfl, rfl, fun k => mem_nins⟩

/-- Settles O39: each step's equation under its tests; where no window is open a halt changes the list of halted cores alone. -/
theorem firmwareManagementAndHalt : Obligations.FirmwareManagementAndHalt := by
  refine ⟨fun s image version hr hs ha => ?_, fun s bs image v version ha hv => exec_firmwareStage_other ha hv, fun s r version => ?_,
    fun s => ⟨Config.monitor s.free, ?_⟩, fun s h => ⟨(haltAll_crashDump h).1, (haltAll_crashDump h).2, fun o low rest hact => halt_answers h o hact⟩⟩
  · intro m ok
    have hex := exec_firmwareStage hr hs (Firmware.loads_of ha)
    exact ⟨fun hok => hex.trans (congrArg _ (if_pos (Firmware.accepts_iff.mpr hok))),
      fun hok => hex.trans (congrArg _ (if_neg (fun h => hok (Firmware.accepts_iff.mp h))))⟩
  · intro answered open_ ok
    refine ⟨fun hopen hok => ⟨Config.monitor s.free, ?_⟩, fun hopen hok => ⟨Config.monitor s.free, ?_⟩, fun hopen => ⟨Config.monitor s.free, ?_⟩,
      fun hopen => mctp_closed fun h => hopen (State.mctpOpen_iff.mp h)⟩
    · rw [exec_pldmFwUpdate (State.mctpOpen_iff.mpr hopen), if_pos (Firmware.accepts_iff.mpr hok)]
      rfl
    · rw [exec_pldmFwUpdate (State.mctpOpen_iff.mpr hopen), if_neg (fun h => hok (Firmware.accepts_iff.mp h))]
      rfl
    · rw [exec_spdmRequest (State.mctpOpen_iff.mpr hopen)]
      rfl
  · change execPldmMonitor s = _
    unfold execPldmMonitor State.answerMctp State.send
    rfl

end Sys2Proof.Machine
end
section
/-! PROOFS. Functions, messages, event records and links (R330, R362, R419, R431, R433 to R435, R442). -/
namespace Sys2Proof.Machine

/-! ### FN_CFG and MSI-X -/

section Functions
variable {s : State} {n : Nat} {v : DWord}

theorem State.fn_other {m : Nat} (f : FnCfg → FnCfg) (h : m ≠ n) : (s.onFn n f).fn m = s.fn m := by
  unfold State.fn State.onFn
  rw [sget_sset_other _ _ _ h]
theorem State.fn_same (f : FnCfg → FnCfg) (h : n ≠ 0) : (s.onFn n f).fn n = f (s.fn n) := by
  unfold State.fn State.onFn
  simp [h]
/-- The tests of FN_CFG_n in the words of R433. -/
theorem fnCfg_fields (v : DWord) : (v.extractLsb' 0 16).toNat = v.toNat % 2 ^ 16 ∧ (v.extractLsb' 16 16).toNat = v.toNat / 2 ^ 16 % 2 ^ 16 ∧
    (v.extractLsb' 49 11).toNat = v.toNat / 2 ^ 49 % 2048 ∧ v.getLsbD 63 = v.msb := by
  refine ⟨?_, ?_, ?_, ?_⟩
  · simp
  · rw [BitVec.extractLsb'_toNat, Nat.shiftRight_eq_div_pow]
  · rw [BitVec.extractLsb'_toNat, Nat.shiftRight_eq_div_pow]
  · rw [BitVec.msb_eq_getLsbD_last]
/-- The ranges of the other valid functions lie apart from one. -/
def State.apart (s : State) (n first last : Nat) : Prop :=
  ∀ m ∈ (List.range 65).filter (fun m => m != n && (s.fn m).v), (s.fn m).last.toNat < first ∨ last < (s.fn m).first.toNat
/-- The vectors of the others and of one. -/
def State.vectors (s : State) (n mine : Nat) : Nat :=
  (((List.range 65).filter fun m => m != n && (s.fn m).v).map fun m => (s.fn m).msix + 1).sum + mine
/-- A rule of R433 that a write breaks. -/
def State.breaksRule (s : State) (n : Nat) (v : DWord) : Prop :=
  v.toNat / 2 ^ 16 % 2 ^ 16 < v.toNat % 2 ^ 16 ∨ ¬s.apart n (v.toNat % 2 ^ 16) (v.toNat / 2 ^ 16 % 2 ^ 16) ∨
    2048 < s.vectors n (if v.msb then v.toNat / 2 ^ 49 % 2048 + 1 else 0)
theorem State.fnCfgWrite_eq (hn : n ≤ 64) (h0 : n ≠ 0) : (s.breaksRule n v → s.fnCfgWrite n v = s) ∧
    (¬s.breaksRule n v → s.fnCfgWrite n v = s.onFn n fun f => { f with
      v := v.msb, atomic := v.getLsbD 62, msix := v.toNat / 2 ^ 49 % 2048, first := v.extractLsb' 0 16
      last := v.extractLsb' 16 16, privAsid := v.extractLsb' 32 16
      privV := v.getLsbD 48 && decide (v.extractLsb' 0 16 ≤ v.extractLsb' 32 16) && decide (v.extractLsb' 32 16 ≤ v.extractLsb' 16 16) }) := by
  obtain ⟨hf, hl, hm, hv⟩ := fnCfg_fields v
  have hov : (((List.range 65).filter fun m => m != n && (s.fn m).v).any fun m =>
      decide (v.extractLsb' 0 16 ≤ (s.fn m).last) && decide ((s.fn m).first ≤ v.extractLsb' 16 16)) = true ↔
      ¬s.apart n (v.toNat % 2 ^ 16) (v.toNat / 2 ^ 16 % 2 ^ 16) := by
    unfold State.apart
    rw [List.any_eq_true, not_forall]
    refine exists_congr fun m => ?_
    rw [Classical.not_imp, not_or, Bool.and_eq_true, decide_eq_true_eq, decide_eq_true_eq, BitVec.le_def, BitVec.le_def, hf, hl, Nat.not_lt, Nat.not_lt]
  unfold State.fnCfgWrite
  dsimp only
  rw [show (n == 0 || v.getLsbD 63) = v.msb by rw [hv, beq_eq_false_iff_ne.mpr h0, Bool.false_or], hm]
  refine ⟨fun h => if_pos ?_, fun h => if_neg (mt ?_ h)⟩
  all_goals
    simp only [Bool.or_eq_true, decide_eq_true_eq, hov, BitVec.lt_def, hf, hl, State.breaksRule, State.vectors] at h ⊢
    have : ¬64 < n := by omega
    tauto
theorem exec_fnCfgWrite (hr : s.fw.recovery = false) : exec (.fnCfgWrite n v) s = .next (s.fnCfgWrite n v) :=
  congrArg Host.Outcome.next (if_neg (by simp [hr]))
theorem fnCfgWrite_answers (hn : n ≤ 64) (h0 : n ≠ 0) (hr : s.fw.recovery = false) :
    let first := v.toNat % 2 ^ 16
    let last := v.toNat / 2 ^ 16 % 2 ^ 16
    let others := (List.range 65).filter fun m => m != n && (s.fn m).v
    let apart := ∀ m ∈ others, (s.fn m).last.toNat < first ∨ last < (s.fn m).first.toNat
    let vectors := (others.map fun m => (s.fn m).msix + 1).sum + (if v.msb then v.toNat / 2 ^ 49 % 2048 + 1 else 0)
    (first ≤ last → apart → vectors ≤ 2048 → ∃ t, exec (.fnCfgWrite n v) s = .next t ∧ t = { s with fns := t.fns } ∧
      (∀ m, m ≠ n → t.fn m = s.fn m) ∧
      t.fn n = { s.fn n with
        v := v.msb, atomic := v.getLsbD 62, msix := v.toNat / 2 ^ 49 % 2048, first := BitVec.ofNat 16 first
        last := BitVec.ofNat 16 last, privAsid := v.extractLsb' 32 16
        privV := v.getLsbD 48 && decide (first ≤ (v.extractLsb' 32 16).toNat) && decide ((v.extractLsb' 32 16).toNat ≤ last) }) ∧
    (last < first ∨ ¬apart ∨ 2048 < vectors → exec (.fnCfgWrite n v) s = .next s) := by
  intro first last others apart vectors
  obtain ⟨hf, hl, -, -⟩ := fnCfg_fields v
  refine ⟨fun h1 h2 h3 => ?_, fun h => ?_⟩
  · refine ⟨_, (exec_fnCfgWrite hr).trans (congrArg _ ((State.fnCfgWrite_eq hn h0).2 ?_)), rfl,
      fun m hm => State.fn_other _ hm, (State.fn_same _ h0).trans ?_⟩
    · rintro (h | h | h)
      · exact Nat.not_lt.mpr h1 h
      · exact h h2
      · exact Nat.not_lt.mpr h3 h
    · have hfirst : BitVec.ofNat 16 first = v.extractLsb' 0 16 := BitVec.eq_of_toNat_eq (by rw [hf]; simp [first])
      have hlast : BitVec.ofNat 16 last = v.extractLsb' 16 16 := BitVec.eq_of_toNat_eq (by rw [hl]; simp [last])
      simp only [hfirst, hlast, BitVec.le_def, hf, hl]
      rfl
  · exact (exec_fnCfgWrite hr).trans (congrArg _ ((State.fnCfgWrite_eq hn h0).1 h))
theorem msixUnmask_answers {fn vector : Nat} (hf : fn ≤ 64) (hv : (s.fn fn).v = true) (hm : vector ≤ (s.fn fn).msix) :
    let k := 2048 * fn + vector
    ∃ t, exec (.msixUnmask fn vector) s = .next t ∧
      t.outbox = (if k ∈ s.hif.pending ∧ s.links.hostUp = true then s.outbox ++ [.msix fn vector] else s.outbox) ∧
      k ∉ t.hif.pending ∧ k ∈ t.hif.unmasked := by
  intro k
  let s1 : State := { s with hif := { s.hif with unmasked := nins s.hif.unmasked k, pending := ndel s.hif.pending k } }
  have hmem : k ∈ s1.hif.unmasked := mem_nins.mpr (.inl rfl)
  have hgone : k ∉ s1.hif.pending := fun h => by simpa using (List.mem_filter.mp h).2
  have hex : exec (.msixUnmask fn vector) s = .next (if s.hif.pending.contains k then s1.sendMsix fn vector else s1) :=
    congrArg Host.Outcome.next (if_neg (by simp [hv, hf, hm]))
  have hsend : s1.sendMsix fn vector = if s.links.hostUp then { s1 with outbox := s.outbox ++ [.msix fn vector] } else s1.discard := by
    have hv' : (s1.fn fn).v = true := hv
    have hm' : ¬(s1.fn fn).msix < vector := Nat.not_lt.mpr hm
    have hc : s1.hif.unmasked.contains (2048 * fn + vector) = true := List.contains_iff_mem.mpr hmem
    unfold State.sendMsix
    simp only [hv', hm', hc, Bool.not_true, Bool.false_eq_true, if_false]
    cases hu : s.links.hostUp
    · exact if_pos (by simp)
    · exact if_neg (by simp)
  refine ⟨_, hex, ?_⟩
  by_cases hp : k ∈ s.hif.pending
  · rw [if_pos (List.contains_iff_mem.mpr hp), hsend]
    by_cases hu : s.links.hostUp = true
    · rw [if_pos hu, if_pos ⟨hp, hu⟩]
      exact ⟨rfl, hgone, hmem⟩
    · rw [if_neg hu, if_neg fun h => hu h.2]
      exact ⟨rfl, hgone, hmem⟩
  · rw [if_neg (fun h => hp (List.contains_iff_mem.mp h)), if_neg fun h => hp h.1]
    exact ⟨rfl, hgone, hmem⟩
end Functions

/-! ### Event records -/

section Events
variable {s : State} {e : EvRec}

/-- A message of a vector is a matter of the links, the host interface and the outbox alone. -/
theorem State.sendMsix_frame (s : State) (fn vec : Nat) :
    ∃ l h o, s.sendMsix fn vec = { s with links := l, hif := h, outbox := o } ∧ h.evtHead = s.hif.evtHead ∧ h.evtSeq = s.hif.evtSeq ∧
      h.evtTail = s.hif.evtTail ∧ h.evtCtl = s.hif.evtCtl ∧ h.held = s.hif.held ∧ h.fresh = s.hif.fresh ∧ l.hostUp = s.links.hostUp := by
  unfold State.sendMsix
  dsimp only
  split
  · exact ⟨s.links, s.hif, s.outbox, rfl, rfl, rfl, rfl, rfl, rfl, rfl, rfl⟩
  · split
    · exact ⟨s.discard.links, s.hif, s.outbox, rfl, rfl, rfl, rfl, rfl, rfl, rfl, rfl⟩
    · split
      · exact ⟨s.discard.links, s.hif, s.outbox, rfl, rfl, rfl, rfl, rfl, rfl, rfl, rfl⟩
      · split
        · exact ⟨s.links, _, s.outbox, rfl, rfl, rfl, rfl, rfl, rfl, rfl, rfl⟩
        · exact ⟨s.links, s.hif, _, rfl, rfl, rfl, rfl, rfl, rfl, rfl, rfl⟩
theorem State.sendMsix_with (s : State) (fn vec : Nat) (ss : List Stream) (co : Colls) :
    ({ s with streams := ss, co := co } : State).sendMsix fn vec = { s.sendMsix fn vec with streams := ss, co := co } := by
  have hfn : ({ s with streams := ss, co := co } : State).fn fn = s.fn fn := rfl
  unfold State.sendMsix
  simp only [hfn]
  split
  · rfl
  · split
    · rfl
    · split
      · rfl
      · split <;> rfl

/-- The size of the ring of event records (R442). -/
def State.evtSize (s : State) : Nat := 2 ^ (s.hif.evtCtl.toNat % 16 + 6)
/-- How many records the ring holds that the host has not taken. -/
def State.evtUsed (s : State) : Nat := (s.hif.evtHead + 2 ^ 32 - s.hif.evtTail) % 2 ^ 32
theorem State.putEvent_down (h : s.links.hostUp = false) : s.putEvent e =
    let s1 := { s with hif := { s.hif with held := (s.hif.held ++ [e]).drop (s.hif.held.length + 1 - 256) } }
    if s.hif.held.length < 256 then s1 else s1.nextSeq := if_pos (by simp [h])
theorem State.putEvent_full (h : s.links.hostUp = true) (hf : s.hif.evtCtl.getLsbD 31 = false ∨ s.evtUsed = s.evtSize) :
    s.putEvent e = s.discard.nextSeq := by
  refine (if_neg (by simp [h])).trans (if_pos ?_)
  rw [Bool.or_eq_true, Bool.not_eq_true', beq_iff_eq, BitVec.extractLsb'_toNat, Nat.shiftRight_zero]
  exact hf
/-- Bytes in the ring of records, before the message. -/
def State.ringed (s : State) (k : Nat) (bs : List Byte) : State :=
  { s with mem := memWriteN s.mem k bs
           hif := { s.hif with evtSeq := (s.hif.evtSeq + 1) % 2 ^ 32, evtHead := (s.hif.evtHead + 1) % 2 ^ 32 } }
/-- The place of the next record. -/
def State.evtPlace (s : State) : Nat := hostByte ((s.hif.evtBase.toNat + 32 * (s.hif.evtHead % s.evtSize)) % 2 ^ 64)
theorem State.putEvent_room (h : s.links.hostUp = true) (hb : s.hif.evtCtl.getLsbD 31 = true) (hf : s.evtUsed ≠ s.evtSize) :
    s.putEvent e = (s.ringed s.evtPlace (e.bytes s.hif.evtSeq)).sendMsix 0 (s.hif.evtCtl.extractLsb' 16 11).toNat := by
  have hsize : 2 ^ ((s.hif.evtCtl.extractLsb' 0 4).toNat + 6) = s.evtSize := by
    rw [BitVec.extractLsb'_toNat, Nat.shiftRight_zero]
    rfl
  refine (if_neg (by simp [h])).trans ((if_neg ?_).trans ?_)
  · rw [hsize, hb, Bool.not_true, Bool.false_or, beq_iff_eq]
    exact hf
  · have hplace : hostByte ((s.hif.evtBase.toNat + 32 * (s.hif.evtHead % s.evtSize)) % 2 ^ 64) = s.evtPlace := rfl
    rw [hsize, hplace]
    generalize s.evtPlace = k
    generalize e.bytes s.hif.evtSeq = bs
    rfl

/-- A record at its place is a matter of memory, of the links and of the host interface alone; no other record changes. -/
theorem State.putEvent_frame (s : State) (e : EvRec) :
    ∃ m l h o, s.putEvent e = { s with mem := m, links := l, hif := h, outbox := o } ∧ h.fresh = s.hif.fresh ∧ l.hostUp = s.links.hostUp ∧
      (s.links.hostUp = true → h.held = s.hif.held) := by
  cases hu : s.links.hostUp with
  | false =>
    rw [State.putEvent_down hu]
    dsimp only
    split
    · exact ⟨s.mem, s.links, _, s.outbox, rfl, rfl, hu, nofun⟩
    · exact ⟨s.mem, s.links, _, s.outbox, rfl, rfl, hu, nofun⟩
  | true =>
    by_cases hf : s.hif.evtCtl.getLsbD 31 = false ∨ s.evtUsed = s.evtSize
    · rw [State.putEvent_full hu hf]
      exact ⟨s.mem, s.discard.links, s.discard.nextSeq.hif, s.outbox, rfl, rfl, hu, fun _ => rfl⟩
    · rw [not_or, Bool.not_eq_false] at hf
      rw [State.putEvent_room hu hf.1 hf.2]
      generalize s.evtPlace = k
      generalize e.bytes s.hif.evtSeq = bs
      obtain ⟨l, h, o, heq, -, -, -, -, hheld, hfresh, hup⟩ := (s.ringed k bs).sendMsix_frame 0 (s.hif.evtCtl.extractLsb' 16 11).toNat
      rw [heq]
      exact ⟨memWriteN s.mem k bs, l, h, o, rfl, hfresh, hup.trans hu, fun _ => hheld⟩
theorem State.putEvent_with (s : State) (e : EvRec) (ss : List Stream) (co : Colls) :
    ({ s with streams := ss, co := co } : State).putEvent e = { s.putEvent e with streams := ss, co := co } := by
  cases hu : s.links.hostUp with
  | false =>
    rw [State.putEvent_down hu, State.putEvent_down (s := { s with streams := ss, co := co }) hu]
    dsimp only
    split <;> rfl
  | true =>
    by_cases hf : s.hif.evtCtl.getLsbD 31 = false ∨ s.evtUsed = s.evtSize
    · rw [State.putEvent_full hu hf, State.putEvent_full (s := { s with streams := ss, co := co }) hu hf]
      rfl
    · rw [not_or, Bool.not_eq_false] at hf
      have hplace : ({ s with streams := ss, co := co } : State).evtPlace = s.evtPlace := rfl
      rw [State.putEvent_room hu hf.1 hf.2, State.putEvent_room (s := { s with streams := ss, co := co }) hu hf.1 hf.2, hplace]
      dsimp only
      generalize s.evtPlace = k
      generalize e.bytes s.hif.evtSeq = bs
      exact (s.ringed k bs).sendMsix_with 0 _ ss co
/-- What a record that finds room leaves (R442). -/
theorem State.putEvent_written (h : s.links.hostUp = true) (hb : s.hif.evtCtl.getLsbD 31 = true) (hf : s.evtUsed ≠ s.evtSize) :
    ((s.putEvent e).hif.evtHead = (s.hif.evtHead + 1) % 2 ^ 32 ∧ (s.putEvent e).hif.evtSeq = (s.hif.evtSeq + 1) % 2 ^ 32 ∧
      Stored s.mem (s.putEvent e).mem s.evtPlace (e.bytes s.hif.evtSeq)) ∧
    (s.putEvent e).hif.evtTail = s.hif.evtTail ∧ (s.putEvent e).hif.evtCtl = s.hif.evtCtl := by
  rw [State.putEvent_room h hb hf]
  generalize s.evtPlace = k
  generalize e.bytes s.hif.evtSeq = bs
  obtain ⟨l, h', o, heq, hhead, hseq, htail, hctl, -, -, -⟩ := (s.ringed k bs).sendMsix_frame 0 (s.hif.evtCtl.extractLsb' 16 11).toNat
  rw [heq]
  exact ⟨⟨hhead, hseq, stored_memWriteN _ _ _⟩, htail, hctl⟩
end Events

end Sys2Proof.Machine
end
section
/-! PROOFS. The clock, event records and the links (R330, R362, R434, R435, R440, R442). -/
namespace Sys2Proof.Machine

/-! ### Time passes -/

section Time
variable {s : State} {e : EvRec}

/-- The records of a nanosecond, written at its end. -/
def State.ticked (s : State) (quarters : Nat) : State :=
  if (s.clock.gtsQ + quarters) / 4 = s.clock.gtsQ / 4 then s else s.grantEntries.writeEvents
theorem State.advance_frame (s : State) (c q : Nat) : ∃ b ss, s.advance c q = { s.ticked q with
    clock := ⟨(s.ticked q).clock.cycles + c, s.clock.gtsQ + q⟩, pwr := { (s.ticked q).pwr with busy := b }, streams := ss } := ⟨_, _, rfl⟩
theorem State.writeEvents_none (h : s.hif.fresh = []) : s.writeEvents = { s with hif := { s.hif with fresh := [] } } := by
  rw [State.writeEvents, h]
  rfl
theorem State.writeEvents_one (h : s.hif.fresh = [e]) : s.writeEvents = ({ s with hif := { s.hif with fresh := [] } } : State).putEvent e := by
  rw [State.writeEvents, h]
  rfl
theorem hif_fresh_nil {h : HostIf} (hf : h.fresh = []) : { h with fresh := [] } = h := by
  cases h
  cases hf
  rfl
theorem step_tick (h : s.agenda = []) : step s = .next ((s.examinedAll exec).advance 1 1) := by
  rw [step, State.nextTurn, h]
/-- Between two nanoseconds nothing is written. -/
theorem step_within (h : s.agenda = []) (hq : s.clock.gtsQ % 4 ≠ 3) : ∃ t, step s = .next t ∧ t.hif = s.hif ∧ t.mem = s.mem := by
  obtain ⟨b, ss, hadv⟩ := (s.examinedAll exec).advance_frame 1 1
  have ht : (s.examinedAll exec).ticked 1 = s.examinedAll exec := if_pos (by
    have : (s.examinedAll exec).clock.gtsQ = s.clock.gtsQ := rfl
    omega)
  refine ⟨_, step_tick h, ?_, ?_⟩ <;> rw [hadv, ht] <;> rfl
/-- At the end of a nanosecond its records are written. -/
theorem step_nanosecond (h : s.agenda = []) (hq : s.clock.gtsQ % 4 = 3) (hf : s.hif.fresh = [e]) :
    let s0 : State := { s with hif := { s.hif with fresh := [] } }
    ∃ t, step s = .next t ∧ t.hif = (s0.putEvent e).hif ∧ t.mem = (s0.putEvent e).mem ∧ t.links = (s0.putEvent e).links := by
  intro s0
  obtain ⟨b, ss, hadv⟩ := (s.examinedAll exec).advance_frame 1 1
  have ht : (s.examinedAll exec).ticked 1 = { s0.putEvent e with
      streams := (s.examinedAll exec).streams, co := (s.examinedAll exec).grantEntries.co } := by
    refine (if_neg ?_).trans ((State.writeEvents_one (s := (s.examinedAll exec).grantEntries) hf).trans
      (s0.putEvent_with e (s.examinedAll exec).streams (s.examinedAll exec).grantEntries.co))
    have : (s.examinedAll exec).clock.gtsQ = s.clock.gtsQ := rfl
    omega
  refine ⟨_, step_tick h, ?_, ?_, ?_⟩ <;> rw [hadv, ht]
theorem eventRecord_answers (s : State) (event : BitVec 8) (source : BitVec 16) (detail : DWord) :
    let e : EvRec := ⟨s.gts, event, source, detail⟩
    let size := 2 ^ (s.hif.evtCtl.toNat % 16 + 6)
    let nextSeq := (s.hif.evtSeq + 1) % 2 ^ 32
    (eventSource source.toNat = true →
      exec (.eventRecord event source detail) s = .next { s with hif := { s.hif with fresh := insertEvent e s.hif.fresh } }) ∧
    (eventSource source.toNat = false → exec (.eventRecord event source detail) s = .next s) ∧
    (∀ x, x.gts = e.gts → insertEvent e [x] = if source.toNat < x.source.toNat then [e, x] else [x, e]) ∧
    (s.agenda = [] → s.clock.gtsQ % 4 ≠ 3 → ∃ t, step s = .next t ∧ t.hif = s.hif ∧ t.mem = s.mem) ∧
    (s.agenda = [] → s.clock.gtsQ % 4 = 3 → s.hif.fresh = [e] →
      let s0 : State := { s with hif := { s.hif with fresh := [] } }
      ∃ t, step s = .next t ∧ t.hif = (s0.putEvent e).hif ∧ t.mem = (s0.putEvent e).mem ∧ t.links = (s0.putEvent e).links) ∧
    (s.links.hostUp = false → s.hif.held.length < 256 → s.putEvent e = { s with hif := { s.hif with held := s.hif.held ++ [e] } }) ∧
    (s.links.hostUp = false → s.hif.held.length = 256 →
      s.putEvent e = { s with hif := { s.hif with held := s.hif.held.tail ++ [e], evtSeq := nextSeq } }) ∧
    (s.links.hostUp = true →
      (s.hif.evtCtl.getLsbD 31 = false ∨ (s.hif.evtHead + 2 ^ 32 - s.hif.evtTail) % 2 ^ 32 = size) →
      s.putEvent e = { s with
        links := { s.links with discarded := min (s.links.discarded + 1) (2 ^ 32 - 1) }, hif := { s.hif with evtSeq := nextSeq } }) ∧
    (s.links.hostUp = true → s.hif.evtCtl.getLsbD 31 = true → (s.hif.evtHead + 2 ^ 32 - s.hif.evtTail) % 2 ^ 32 ≠ size →
      (s.putEvent e).hif.evtHead = (s.hif.evtHead + 1) % 2 ^ 32 ∧ (s.putEvent e).hif.evtSeq = nextSeq ∧
        Stored s.mem (s.putEvent e).mem (hostByte ((s.hif.evtBase.toNat + 32 * (s.hif.evtHead % size)) % 2 ^ 64))
          (bytesOfNat 8 s.gts ++ bytesOfNat 2 source.toNat ++ bytesOfNat 1 event.toNat ++ bytesOfNat 1 0 ++
            bytesOfNat 4 (s.hif.evtSeq % 2 ^ 32) ++ bytesOfNat 8 detail.toNat ++ bytesOfNat 8 0)) := by
  intro e size nextSeq
  refine ⟨fun h => congrArg Host.Outcome.next (if_pos h), fun h => congrArg Host.Outcome.next (if_neg (by simp [h])), fun x hx => ?_,
    step_within, step_nanosecond, fun hu hlt => ?_, fun hu hlen => ?_, State.putEvent_full, fun hu hb hf => (State.putEvent_written hu hb hf).1⟩
  · change (if x.gts = e.gts ∧ source.toNat < x.source.toNat then [e, x] else [x, e]) = _
    simp only [hx, true_and]
  · rw [State.putEvent_down hu]
    dsimp only
    rw [if_pos hlt, Nat.sub_eq_zero_of_le (by omega), List.drop_zero]
  · rw [State.putEvent_down hu]
    dsimp only
    have hne : s.hif.held ≠ [] := by
      rintro h
      rw [h] at hlen
      cases hlen
    rw [if_neg (by omega), show s.hif.held.length + 1 - 256 = 1 by omega, List.drop_one, List.tail_append_of_ne_nil hne]
    rfl
end Time

/-! ### An operation fails -/

section Fail
variable {s : State} {o : MemOp} {c : Cause} {r : BitVec 16}

theorem pruneFences_subset {l : List MemOp} : pruneFences l ⊆ l := fun _ h => (List.mem_filter.mp (List.mem_filter.mp h).1).1
theorem mem_pruneFences {l : List MemOp} (h : o ∈ l) (hf : o.isFence = false) : o ∈ pruneFences l := by
  have hk : (∀ ws, o.kind ≠ .seen ws) ∧ ∀ ws, o.kind ≠ .fence ws :=
    ⟨fun ws h => by simp [MemOp.isFence, h] at hf, fun ws h => by simp [MemOp.isFence, h] at hf⟩
  refine List.mem_filter.mpr ⟨List.mem_filter.mpr ⟨h, ?_⟩, ?_⟩
  · split
    · next ws hw => exact absurd hw (hk.1 ws)
    · rfl
  · split
    · next ws hw => exact absurd hw (hk.2 ws)
    · rfl
theorem State.failOp_single (h : o.single = true) : s.failOp o c r =
    (o.lanes.foldl (fun s l => s.recordErr l.sid o.counter ⟨c, r⟩) s).endOp o (o.lanes.map fun _ => allOnes o.size) := by
  unfold MemOp.single at h
  unfold State.failOp
  dsimp only
  split
  · next i hk => simp [hk] at h
  · rfl
theorem State.finishLane_plain (id : SId) {v : Option DWord} (he : v.isSome = true → o.entry = none) :
    ∃ ss, s.finishLane o id v = { s with streams := ss } := by
  cases v with
  | none => exact ⟨_, rfl⟩
  | some x =>
    unfold State.finishLane
    dsimp only
    rw [he rfl]
    dsimp only
    split <;> exact ⟨_, rfl⟩
/-- The failure of an operation that fills no queue entry changes streams alone, and takes away the operation. -/
theorem State.failOp_ops (hs : o.single = true) (he : o.returns = true → o.entry = none) :
    ∃ ss, s.failOp o c r = { s with streams := ss, ops := pruneFences (s.ops.filter fun x => x.num ≠ o.num) } := by
  have hrec : ∀ (ls : List OpLane) (u : State), ∃ ss, ls.foldl (fun s l => s.recordErr l.sid o.counter ⟨c, r⟩) u = { u with streams := ss } := by
    intro ls
    induction ls with
    | nil => exact fun u => ⟨u.streams, rfl⟩
    | cons l ls ih =>
      intro u
      obtain ⟨ss, h⟩ := ih (u.recordErr l.sid o.counter ⟨c, r⟩)
      exact ⟨ss, h⟩
  have hfin : ∀ (ls : List (OpLane × DWord)) (u : State), ∃ ss, ls.foldl (fun s p => s.finishLane o p.1.sid
      (if o.returns then some p.2 else none)) u = { u with streams := ss } := by
    intro ls
    induction ls with
    | nil => exact fun u => ⟨u.streams, rfl⟩
    | cons p ls ih =>
      intro u
      obtain ⟨ss1, h1⟩ := State.finishLane_plain (s := u) (o := o) p.1.sid (v := if o.returns then some p.2 else none) fun h => he (by
        cases hr : o.returns with
        | true => rfl
        | false => simp [hr] at h)
      obtain ⟨ss, h⟩ := ih (u.finishLane o p.1.sid (if o.returns then some p.2 else none))
      exact ⟨ss, h.trans (by rw [h1])⟩
  rw [State.failOp_single hs, State.endOp_single hs]
  obtain ⟨ss, h⟩ := hrec o.lanes s
  rw [h]
  obtain ⟨hn, -⟩ := (({ s with streams := ss } : State).noteDone_notes o []).onlyStreams
  obtain ⟨ss', h'⟩ := hfin (o.lanes.zip (o.lanes.map fun _ => allOnes o.size))
    ((({ s with streams := ss } : State).noteDone o []).removeOp o.num)
  refine ⟨ss', h'.trans ?_⟩
  rw [State.removeOp, hn]
/-- What the failure of an operation of one lane leaves there: the error in its slot, all ones for a value, its counter one lower. -/
theorem State.failOp_one {l : OpLane} (hs : o.single = true) (hl : o.lanes = [l]) (hp : s.Present [l.sid])
    (hw : o.returns = true → (s.stream l.sid).window = none) (he : o.returns = true → o.entry = none) :
    (s.failOp o c r) = { s with streams := (s.failOp o c r).streams, ops := (s.failOp o c r).ops } ∧ (s.failOp o c r).op? o.num = none ∧
      (∀ i, i ≠ l.sid → (s.failOp o c r).stream? i = s.stream? i) ∧ ((s.failOp o c r).stream l.sid).bare =
        (({ s.stream l.sid with slots := (s.stream l.sid).slots.record o.counter ⟨c, r⟩ } : Stream).finished o
          (if o.returns then some (allOnes o.size) else none)).bare := by
  obtain ⟨⟨h1, h2⟩, h3⟩ := s.onLane_only (id := l.sid) (f := fun st => { st with slots := st.slots.record o.counter ⟨c, r⟩ }) (fun _ => rfl) hp
  have hpres := s.onLane_present (id := l.sid) (f := fun st => { st with slots := st.slots.record o.counter ⟨c, r⟩ }) (fun _ => rfl) hp
  have hfail : s.failOp o c r = (s.onLane l.sid fun st => { st with slots := st.slots.record o.counter ⟨c, r⟩ }).endOp o [allOnes o.size] := by
    rw [State.failOp_single hs, hl]
    rfl
  obtain ⟨hf, hg, ho, hst⟩ := State.endOp_one (s := s.onLane l.sid fun st => { st with slots := st.slots.record o.counter ⟨c, r⟩ }) hs hl hpres
    (fun h => by rw [h3]; exact hw h) he (allOnes o.size)
  rw [← hfail] at hf hg ho hst
  rw [h3] at hst
  refine ⟨hf.trans ?_, hg, fun i hi => (ho i hi).trans (h2 i (by simpa using hi)), hst⟩
  rw [State.onLane, State.onLanes]
end Fail

end Sys2Proof.Machine
end
section
/-! PROOFS. The host link, UALink and the CXL link (R330, R362, R419, R434, R435). -/
namespace Sys2Proof.Machine

/-! ### The host link -/

section HostLink
variable {s : State}

theorem Stream.wr_slots (st : Stream) (d : Reg) (v : Word) (k : Slots) :
    ({ st with slots := k } : Stream).wr d v = { st.wr d v with slots := k } := by
  unfold Stream.wr
  split <;> rfl
/-- A load of a word that fails reads as all ones. -/
theorem Stream.finished_ones {o : MemOp} (h : o.size = 4) (st : Stream) (k : Slots) :
    ({ st with slots := k } : Stream).finished o (some (allOnes o.size)) =
      { st.wr o.d 0xFFFFFFFF with slots := k, cnt := st.cnt.dec o.counter } := by
  rw [Stream.finished_eq, Stream.took]
  dsimp only
  rw [h, if_neg (by decide), Stream.wr_slots]
  rfl
/-- The loss of a host read. -/
def State.loseRead (s : State) (o : MemOp) : State := s.failOp o cLinkLost 0
/-- Reads that fail: streams change, and operations go. -/
theorem State.loseReads_spec (ls : List MemOp) (s : State) (h : ∀ o ∈ ls, o.single = true ∧ o.entry = none) :
    (∃ ss os, ls.foldl State.loseRead s = { s with streams := ss, ops := os }) ∧ (∀ o ∈ (ls.foldl State.loseRead s).ops, o ∈ s.ops) ∧
      (∀ x ∈ ls, ∀ o ∈ (ls.foldl State.loseRead s).ops, o.num ≠ x.num) ∧
      ∀ o ∈ s.ops, o.isFence = false → (∀ x ∈ ls, x.num ≠ o.num) → o ∈ (ls.foldl State.loseRead s).ops := by
  induction ls generalizing s with
  | nil => exact ⟨⟨s.streams, s.ops, rfl⟩, fun _ ho => ho, fun _ hx => absurd hx List.not_mem_nil, fun _ ho _ _ => ho⟩
  | cons x ls ih =>
    obtain ⟨hx, he⟩ := h x List.mem_cons_self
    obtain ⟨ss, hfail⟩ : ∃ ss, s.loseRead x = { s with streams := ss, ops := pruneFences (s.ops.filter fun y => y.num ≠ x.num) } :=
      State.failOp_ops hx fun _ => he
    obtain ⟨⟨ss', os, hf⟩, hsub, hgone, hkeep⟩ := ih (s.loseRead x) fun o ho => h o (List.mem_cons_of_mem _ ho)
    have hops : (s.loseRead x).ops = pruneFences (s.ops.filter fun y => y.num ≠ x.num) := by rw [hfail]
    have hmem : ∀ o ∈ (s.loseRead x).ops, o ∈ s.ops ∧ o.num ≠ x.num := fun o ho => by
      rw [hops] at ho
      simpa using List.mem_filter.mp (pruneFences_subset ho)
    rw [List.foldl_cons]
    refine ⟨⟨ss', os, hf.trans (by rw [hfail])⟩, fun o ho => (hmem o (hsub o ho)).1, fun y hy o ho => ?_, fun o ho hn hall => hkeep o ?_ hn
      fun y hy => hall y (List.mem_cons_of_mem _ hy)⟩
    · rcases List.mem_cons.mp hy with rfl | hy
      · exact (hmem o (hsub o ho)).2
      · exact hgone y hy o ho
    · rw [hops]
      exact mem_pruneFences (List.mem_filter.mpr ⟨ho, by simpa using (hall x List.mem_cons_self).symm⟩) hn
/-- Host reads that a loss of the link fails. -/
def MemOp.hostRead (o : MemOp) : Bool := o.loc.space == .host && !o.loc.cxl && o.reads
theorem State.loseCopies_idle (h : ∀ c ∈ s.dr.copies, c.going = false) : s.loseCopies = s := by
  have hf : ∀ p : Copy → Bool, s.dr.copies.filter (fun c => c.going && p c) = [] := fun p =>
    List.filter_eq_nil_iff.mpr fun c hc => by simp [h c hc]
  unfold State.loseCopies
  dsimp only
  rw [hf]
  rfl
/-- The host link goes down. -/
def State.linkGone (s : State) : State :=
  { s with links := { s.links with hostUp := false, losses := (s.links.losses + 1) % 65536 }, hif := { s.hif with lost := true } }
theorem exec_hostLinkLoss (h : s.links.hostUp = true) (hc : ∀ c ∈ s.dr.copies, c.going = false)
    (hk : ∀ o ∈ s.ops, o.hostRead = true → o.single = true ∧ o.entry = none) :
    exec .hostLinkLoss s = .next (((s.ops.filter MemOp.hostRead).foldl State.loseRead s.linkGone).record 4 0x500 0) := by
  obtain ⟨⟨ss, os, hf⟩, -⟩ := State.loseReads_spec (s.ops.filter MemOp.hostRead) s.linkGone fun o ho =>
    hk o (List.mem_filter.mp ho).1 (List.mem_filter.mp ho).2
  have hidle : ((s.ops.filter MemOp.hostRead).foldl State.loseRead s.linkGone).loseCopies =
      (s.ops.filter MemOp.hostRead).foldl State.loseRead s.linkGone := State.loseCopies_idle (by rw [hf]; exact hc)
  change execHostLinkLoss s = _
  rw [execHostLinkLoss]
  refine congrArg Host.Outcome.next ((if_neg (by simp [h])).trans ?_)
  exact congrArg (fun u : State => u.record 4 0x500 0) hidle
theorem hostLinkLoss_answers (hup : s.links.hostUp = true) (hc : ∀ c ∈ s.dr.copies, c.going = false) :
    let lost := fun (o : MemOp) => o.loc.space == .host && !o.loc.cxl && o.reads
    (∀ o ∈ s.ops, lost o = true → ((∃ sx, o.kind = .load sx) ∨ ∃ op ret, o.kind = .rmw op ret) ∧ o.entry = none) →
    ∃ t, exec .hostLinkLoss s = .next t ∧ t = { s with
        streams := t.streams, ops := t.ops
        links := { s.links with hostUp := false, losses := (s.links.losses + 1) % 65536 }
        hif := { s.hif with lost := true, fresh := insertEvent ⟨s.gts, 4, 0x500, 0⟩ s.hif.fresh } } ∧
      (∀ o ∈ s.ops, lost o = true → t.op? o.num = none) ∧ (∀ o ∈ t.ops, o ∈ s.ops) ∧
      (∀ o ∈ s.ops, o.isFence = false → (∀ x ∈ s.ops, lost x = true → x.num ≠ o.num) → o ∈ t.ops) ∧
      ((∀ o ∈ s.ops, lost o = false) → t.streams = s.streams ∧ t.ops = s.ops) ∧
      (∀ o l, s.ops.filter lost = [o] → o.lanes = [l] → o.kind = .load false → o.size = 4 → o.d ≠ 0 →
        s.Present [l.sid] → (s.stream l.sid).window = none →
        (∀ id, id ≠ l.sid → t.stream? id = s.stream? id) ∧
        (t.stream l.sid).bare = { ((s.stream l.sid).wr o.d 0xFFFFFFFF) with
          slots := (s.stream l.sid).slots.record o.counter ⟨0x23, 0⟩, cnt := (s.stream l.sid).cnt.dec o.counter }.bare) := by
  intro lost hkinds
  have hsingle : ∀ o ∈ s.ops, o.hostRead = true → o.single = true ∧ o.entry = none := fun o ho hl => by
    obtain ⟨⟨sx, hk⟩ | ⟨op, ret, hk⟩, he⟩ := hkinds o ho hl <;> exact ⟨by rw [MemOp.single, hk], he⟩
  obtain ⟨⟨ss, os, hf⟩, hsub, hgone, hkeep⟩ := State.loseReads_spec (s.ops.filter MemOp.hostRead) s.linkGone fun o ho =>
    hsingle o (List.mem_filter.mp ho).1 (List.mem_filter.mp ho).2
  have hex := exec_hostLinkLoss hup hc hsingle
  generalize hu : (s.ops.filter MemOp.hostRead).foldl State.loseRead s.linkGone = u at hf hsub hgone hkeep hex
  refine ⟨_, hex, ?_, fun o ho hl => ?_, hsub, fun o ho hn hall => ?_, fun hno => ?_, fun o l hone hlanes hk hsize hd hp hw => ?_⟩
  · rw [hf]
    rfl
  · exact List.find?_eq_none.mpr fun x hx => by simpa using hgone o (List.mem_filter.mpr ⟨ho, hl⟩) x hx
  · exact hkeep o ho hn fun x hx => hall x (List.mem_filter.mp hx).1 (List.mem_filter.mp hx).2
  · have hnil : s.ops.filter MemOp.hostRead = [] := List.filter_eq_nil_iff.mpr fun o ho => by
      have := hno o ho
      simp only [MemOp.hostRead, lost] at this ⊢
      simp [this]
    rw [hnil] at hu
    rw [← hu]
    exact ⟨rfl, rfl⟩
  · have hmem : o ∈ s.ops.filter MemOp.hostRead := hone ▸ List.mem_singleton_self o
    obtain ⟨hsi, hen⟩ := hsingle o (List.mem_filter.mp hmem).1 (List.mem_filter.mp hmem).2
    have hueq : u = s.linkGone.failOp o cLinkLost 0 := by
      rw [← hu, show s.ops.filter MemOp.hostRead = [o] from hone]
      rfl
    have hret : o.returns = true := by rw [MemOp.returns, hk]
    obtain ⟨-, -, ho, hst⟩ := State.failOp_one (s := s.linkGone) (c := cLinkLost) (r := 0) hsi hlanes hp (fun _ => hw) fun _ => hen
    rw [← hueq] at ho hst
    refine ⟨ho, hst.trans ?_⟩
    rw [hret, if_pos rfl, Stream.finished_ones hsize]
    rfl
theorem State.putEvents_frame (es : List EvRec) (s : State) : ∃ m l h o, es.foldl State.putEvent s =
    { s with mem := m, links := l, hif := h, outbox := o } ∧ h.fresh = s.hif.fresh ∧ l.hostUp = s.links.hostUp ∧
      (s.links.hostUp = true → h.held = s.hif.held) := by
  induction es generalizing s with
  | nil => exact ⟨s.mem, s.links, s.hif, s.outbox, rfl, rfl, rfl, fun _ => rfl⟩
  | cons e es ih =>
    obtain ⟨m, l, h, o, heq, hfr, hup, hheld⟩ := s.putEvent_frame e
    obtain ⟨m', l', h', o', heq', hfr', hup', hheld'⟩ := ih (s.putEvent e)
    rw [heq] at hfr' hup' hheld'
    refine ⟨m', l', h', o', heq'.trans (by rw [heq]), hfr'.trans hfr, hup'.trans hup, fun hs => (hheld' (hup.trans hs)).trans (hheld hs)⟩
/-- Records that all find room take the next places of the ring. -/
theorem State.putEvents_head (es : List EvRec) (s : State) (hup : s.links.hostUp = true) (hb : s.hif.evtCtl.getLsbD 31 = true)
    (hh : s.hif.evtHead < 2 ^ 32) (ht : s.hif.evtTail < 2 ^ 32) (hroom : s.evtUsed + es.length ≤ s.evtSize) :
    (es.foldl State.putEvent s).hif.evtHead = (s.hif.evtHead + es.length) % 2 ^ 32 := by
  induction es generalizing s with
  | nil => exact (Nat.mod_eq_of_lt hh).symm
  | cons e es ih =>
    rw [List.length_cons] at hroom
    obtain ⟨⟨hhead, -, -⟩, htail, hctl⟩ := State.putEvent_written (e := e) hup hb (by omega)
    obtain ⟨m, l, h, o, heq, -, hup', -⟩ := s.putEvent_frame e
    have hsize : (s.putEvent e).evtSize = s.evtSize := by rw [State.evtSize, hctl, State.evtSize]
    have hbound : s.evtSize ≤ 2 ^ 21 := Nat.pow_le_pow_right (by omega) (by omega)
    have hused : (s.putEvent e).evtUsed = s.evtUsed + 1 := by
      have hu : s.evtUsed = (s.hif.evtHead + 2 ^ 32 - s.hif.evtTail) % 2 ^ 32 := rfl
      rw [State.evtUsed, hhead, htail]
      omega
    have := ih (s.putEvent e) (by rw [heq]; exact hup'.trans hup) (by rw [hctl]; exact hb) (by rw [hhead]; omega) (by rw [htail]; exact ht)
      (by rw [hused, hsize]; omega)
    rw [List.foldl_cons, this, hhead, List.length_cons]
    omega
theorem hostLinkUp_answers (s : State) (hdown : s.links.hostUp = false) :
    let s1 : State := { s with links := { s.links with hostUp := true, wasUp := true }, hif := { s.hif with held := [] } }
    let s2 := s.hif.held.foldl State.putEvent s1
    let used := (s.hif.evtHead + 2 ^ 32 - s.hif.evtTail) % 2 ^ 32
    ∃ t, exec .hostLinkUp s = .next t ∧ t = { s2 with hif := { s2.hif with fresh := t.hif.fresh } } ∧ t.hif.held = [] ∧
      t.hif.fresh = (if s.links.wasUp then insertEvent ⟨s.gts, 5, 0x500, 0⟩ s.hif.fresh else s.hif.fresh) ∧
      (s.hif.evtCtl.getLsbD 31 = true → s.hif.evtHead < 2 ^ 32 → s.hif.evtTail < 2 ^ 32 →
        used + s.hif.held.length ≤ 2 ^ (s.hif.evtCtl.toNat % 16 + 6) →
        t.hif.evtHead = (s.hif.evtHead + s.hif.held.length) % 2 ^ 32) := by
  intro s1 s2 used
  obtain ⟨m, l, h, o, heq, hfr, -, hheld⟩ := State.putEvents_frame s.hif.held s1
  have hex : exec .hostLinkUp s = .next (if s.links.wasUp then s2.record 5 0x500 0 else s2) := by
    change execHostLinkUp s = _
    rw [execHostLinkUp]
    exact congrArg Host.Outcome.next (if_neg (by simp [hdown]))
  have h2held : s2.hif.held = [] := (congrArg (fun u : State => u.hif.held) heq).trans (hheld rfl)
  have h2fresh : s2.hif.fresh = s.hif.fresh := (congrArg (fun u : State => u.hif.fresh) heq).trans hfr
  have h2gts : s2.gts = s.gts := (congrArg State.gts heq).trans rfl
  have h2head : s.hif.evtCtl.getLsbD 31 = true → s.hif.evtHead < 2 ^ 32 → s.hif.evtTail < 2 ^ 32 →
      used + s.hif.held.length ≤ 2 ^ (s.hif.evtCtl.toNat % 16 + 6) → s2.hif.evtHead = (s.hif.evtHead + s.hif.held.length) % 2 ^ 32 :=
    State.putEvents_head s.hif.held s1 rfl
  clear_value s2
  cases hwas : s.links.wasUp with
  | false => exact ⟨_, by rw [hex, hwas]; rfl, rfl, h2held, h2fresh, h2head⟩
  | true => exact ⟨s2.record 5 0x500 0, by rw [hex, hwas]; rfl, rfl, h2held, by rw [if_pos rfl, ← h2gts, ← h2fresh]; rfl, h2head⟩
end HostLink

/-! ### UALink -/

section Pod
variable {s : State} {p : Nat}

/-- The state with a port of UALink down. -/
def State.portDown (s : State) (p : Nat) : State := { s with links := { s.links with ports := s.links.ports.set p false } }
/-- While another port is up, what a port that goes down changes is its own accesses. -/
theorem exec_ualinkPortDown {s2 : State} (h : s.ops.foldl (fun x o => x.podDown p o) (s.portDown p) = s2) (hup : s2.links.anyPort = true) :
    exec (.ualinkPortDown p) s = .next s2 := by
  change execUalinkPortDown p s = _
  unfold execUalinkPortDown
  exact congrArg Host.Outcome.next ((if_pos (by rw [← hup, ← h]; rfl)).trans h)
theorem State.podDown_still {u : State} {o : MemOp} (h : o.loc.space ≠ .pod ∨ ∀ t n, o.phase ≠ .sent t n (some p)) : u.podDown p o = u := by
  unfold State.podDown
  split
  · next t n q hph =>
    refine if_pos ?_
    rw [Bool.or_eq_true, bne_iff_ne, bne_iff_ne]
    exact h.imp_right fun h hq => h t n (by rw [hph, hq])
  · rfl
theorem State.podDowns_still {ops : List MemOp} {u : State} (h : ∀ o ∈ ops, o.loc.space ≠ .pod ∨ ∀ t n, o.phase ≠ .sent t n (some p)) :
    ops.foldl (fun x o => x.podDown p o) u = u := by
  induction ops with
  | nil => rfl
  | cons o ops ih =>
    rw [List.foldl_cons, State.podDown_still (h o List.mem_cons_self)]
    exact ih fun o ho => h o (List.mem_cons_of_mem _ ho)
theorem exec_ualinkPortDown_still (h : ∀ o ∈ s.ops, o.loc.space ≠ .pod ∨ ∀ t n, o.phase ≠ .sent t n (some p))
    (hup : (s.links.ports.set p false).any id = true) : exec (.ualinkPortDown p) s = .next (s.portDown p) :=
  exec_ualinkPortDown (State.podDowns_still h) hup
theorem anyPort_set {ports : List Bool} {p k : Nat} (hk : k ≠ p) (h : ports[k]? = some true) : (ports.set p false).any id = true := by
  have : (ports.set p false)[k]? = some true := by rw [List.getElem?_set_ne hk.symm, h]
  exact List.any_eq_true.mpr ⟨true, List.mem_of_getElem? this, rfl⟩
/-- A load that the port carried goes to the next port that is up. -/
theorem ualinkPortDown_moves {q n : Nat} {o : MemOp} {sx : Bool} {t0 tries : Nat} (hops : s.ops = [o]) (hn : o.num = n) (hk : o.kind = .load sx)
    (hs : o.loc.space = .pod) (hph : o.phase = .sent t0 tries (some p)) (hq : (s.portDown p).podPort o = some q)
    (hup : (s.portDown p).links.anyPort = true) :
    exec (.ualinkPortDown p) s = .next { s.portDown p with ops := [{ o with phase := .sent t0 tries (some q) }] } := by
  refine exec_ualinkPortDown ?_ hup
  have hmove : (s.portDown p).podDown p o = (s.portDown p).onOp o.num fun x => { x with phase := .sent t0 tries ((s.portDown p).podPort o) } := by
    unfold State.podDown
    rw [hph]
    dsimp only
    rw [if_neg (by simp [hs]), if_neg (by simp [MemOp.isRmw, hk]), if_pos (by simp [hup])]
  rw [hops, List.foldl_cons, List.foldl_nil, hmove, hq]
  have : (s.portDown p).ops = [o] := hops
  simp [State.onOp, this, hn]
/-- An atomic that the port carried has an unknown outcome. -/
theorem ualinkPortDown_fails {o : MemOp} {l : OpLane} {t0 tries : Nat} (hops : s.ops = [o]) (hk : o.kind = .rmw .add false)
    (hs : o.loc.space = .pod) (hph : o.phase = .sent t0 tries (some p)) (hl : o.lanes = [l]) (hp : s.Present [l.sid])
    (hup : (s.links.ports.set p false).any id = true) : ∃ t, exec (.ualinkPortDown p) s = .next t ∧ t.ops = [] ∧
      (t.stream l.sid).bare = { s.stream l.sid with
        slots := (s.stream l.sid).slots.record o.counter ⟨0x22, 0⟩, cnt := (s.stream l.sid).cnt.dec o.counter }.bare := by
  have hret : o.returns = false := by rw [MemOp.returns, hk]
  have hsi : o.single = true := by rw [MemOp.single, hk]
  obtain ⟨hf, hgone, -, hst⟩ := State.failOp_one (s := s.portDown p) (c := cOutcomeUnknown) (r := 0) hsi hl hp (by simp [hret]) (by simp [hret])
  have hfail : (s.portDown p).podDown p o = (s.portDown p).failOp o cOutcomeUnknown 0 := by
    unfold State.podDown
    rw [hph]
    dsimp only
    rw [if_neg (by simp [hs]), if_pos (by simp [MemOp.isRmw, hk])]
  refine ⟨_, exec_ualinkPortDown (by rw [hops, List.foldl_cons, List.foldl_nil, hfail]) (by rw [hf]; exact hup), ?_, hst.trans ?_⟩
  · obtain ⟨ss, hfail⟩ := State.failOp_ops (s := s.portDown p) (c := cOutcomeUnknown) (r := 0) hsi (by simp [hret])
    rw [hfail, show (s.portDown p).ops = [o] from hops]
    simp [pruneFences]
  · rw [hret, if_neg (by decide), Stream.finished_eq, Stream.took]
    rfl
end Pod

/-! ### The CXL link -/

section Cxl
variable {s : State} {n : Nat} {o : MemOp} {l : OpLane} {t0 tries : Nat} {port : Option Nat}

theorem State.cxlSent_of (hph : o.phase = .sent t0 tries port) (hx : o.loc.cxl = true) : o.cxlSent = some t0 := by
  rw [MemOp.cxlSent, hph]
  exact if_pos hx
theorem exec_cxlTimeout (ho : s.op? n = some o) (hph : o.phase = .sent t0 tries port) (hx : o.loc.cxl = true) :
    exec (.cxlTimeout n) s = .next (if t0 + (s.hif.cxlTimeout + 1) * 1000000 ≤ s.gts then s.cxlTimedOut.failOp o cLinkLost 0 else s) := by
  change execCxlTimeout n s = _
  rw [execCxlTimeout, ho]
  dsimp only
  rw [State.cxlSent_of hph hx]
  dsimp only
  exact congrArg Host.Outcome.next (if_congr (by rw [decide_eq_true_eq]; rfl) rfl rfl)
theorem exec_cxlCompletion_late (ho : s.op? n = some o) (hph : o.phase = .sent t0 tries port) (hx : o.loc.cxl = true)
    (hlate : t0 + (s.hif.cxlTimeout + 1) * 1000000 < s.gts) : exec (.cxlCompletion n) s = .next s := by
  change execCxlCompletion n s = _
  rw [execCxlCompletion, ho]
  dsimp only
  rw [State.cxlSent_of hph hx]
  refine congrArg Host.Outcome.next (if_pos ?_)
  have : ¬s.gts ≤ s.cxlDeadline t0 := Nat.not_le.mpr hlate
  simp [this]
/-- A load that the expander answers in time takes its bytes. -/
theorem exec_cxlCompletion (ho : s.op? n = some o) (hk : o.kind = .load false) (hph : o.phase = .sent t0 tries port) (hx : o.loc.cxl = true)
    (hsize : o.size = 4) (hup : s.links.cxlUp = true) (hs : o.loc.space = .host) (hm : s.mayPerform o = true)
    (hc : s.cache? o.loc.vcid = none) (hpo : s.poisoned o.loc.key 4 = false) (hin : s.gts ≤ t0 + (s.hif.cxlTimeout + 1) * 1000000) :
    exec (.cxlCompletion n) s = .next (s.endOp o [o.value (memReadN s.mem o.loc.key o.size)]) := by
  have hsent := State.cxlSent_of hph hx
  have hin' : s.gts ≤ s.cxlDeadline t0 := hin
  have hload : s.loadLocal o = (.ok (memReadN s.mem o.loc.key o.size), s) := by
    simp [State.loadLocal, State.linkDown, State.shutHost, MemOp.xfer, hk, hs, hx, hup, State.spoiled, hc, hsize, hpo, State.loadBytes, State.readHome]
  have he : s.earlyStores o = [] := by rw [State.earlyStores, hc]
  have ht : s.inTransit o = false := by rw [State.inTransit, hc]; rfl
  have hdo : s.doLoad o = s.endOp o [o.value (memReadN s.mem o.loc.key o.size)] := by
    simp only [State.doLoad, hph, ht, Bool.false_and, Bool.false_eq_true, if_false, hload, he, State.markSeen, List.isEmpty_nil, if_true]
  change execCxlCompletion n s = _
  simp only [execCxlCompletion, ho, hsent, Option.any_some, hin', hm, hup, hk, hdo]
  rfl
theorem cxl_answers (ho : s.op? n = some o) (hk : o.kind = .load false) (hph : o.phase = .sent t0 tries port) (hx : o.loc.cxl = true)
    (hl : o.lanes = [l]) (hen : o.entry = none) (hp : s.Present [l.sid]) (hsize : o.size = 4) (hw : (s.stream l.sid).window = none) :
    (s.links.cxlUp = true → o.loc.space = .host → s.mayPerform o = true → s.cache? o.loc.vcid = none → s.poisoned o.loc.key 4 = false →
      s.gts ≤ t0 + (s.hif.cxlTimeout + 1) * 1000000 →
      ∃ t, exec (.cxlCompletion n) s = .next t ∧ t = { s with streams := t.streams, ops := t.ops } ∧ t.op? n = none ∧
        (t.stream l.sid).bare = { ((s.stream l.sid).wr o.d (BitVec.ofNat 32 (natOfBytes (memReadN s.mem o.loc.key 4)))) with
          cnt := (s.stream l.sid).cnt.dec o.counter }.bare) ∧
    (t0 + (s.hif.cxlTimeout + 1) * 1000000 ≤ s.gts →
      ∃ t, exec (.cxlTimeout n) s = .next t ∧ t.op? n = none ∧ t.hif.cxlTimeouts = min (s.hif.cxlTimeouts + 1) 65535 ∧
        (t.stream l.sid).bare = { ((s.stream l.sid).wr o.d 0xFFFFFFFF) with
          slots := (s.stream l.sid).slots.record o.counter ⟨0x23, 0⟩, cnt := (s.stream l.sid).cnt.dec o.counter }.bare) ∧
    (t0 + (s.hif.cxlTimeout + 1) * 1000000 < s.gts → exec (.cxlCompletion n) s = .next s) ∧
    (s.gts < t0 + (s.hif.cxlTimeout + 1) * 1000000 → exec (.cxlTimeout n) s = .next s) := by
  have hsi : o.single = true := by rw [MemOp.single, hk]
  have hret : o.returns = true := by rw [MemOp.returns, hk]
  have hnum := State.num_of_op? ho
  refine ⟨fun hup hs hm hc hpo hin => ?_, fun hlate => ?_, exec_cxlCompletion_late ho hph hx,
    fun hearly => (exec_cxlTimeout ho hph hx).trans (congrArg _ (if_neg (Nat.not_le.mpr hearly)))⟩
  · have hval : o.value (memReadN s.mem o.loc.key o.size) = BitVec.ofNat 64 (natOfBytes (memReadN s.mem o.loc.key 4)) := by
      rw [MemOp.value_eq hk (by simp [hsize]), hsize]
      rfl
    obtain ⟨hf, hgone, -, hst⟩ := State.endOp_one (s := s) hsi hl hp (fun _ => hw) (fun _ => hen) (o.value (memReadN s.mem o.loc.key o.size))
    refine ⟨_, exec_cxlCompletion ho hk hph hx hsize hup hs hm hc hpo hin, hf, hnum ▸ hgone, hst.trans ?_⟩
    have hw32 : (BitVec.ofNat 64 (natOfBytes (memReadN s.mem o.loc.key 4))).setWidth 32 =
        BitVec.ofNat 32 (natOfBytes (memReadN s.mem o.loc.key 4)) := BitVec.eq_of_toNat_eq (by simp)
    rw [hret, if_pos rfl, hval, Stream.finished_eq, Stream.took]
    dsimp only
    rw [hsize, if_neg (by decide), hw32]
  · obtain ⟨hf, hgone, -, hst⟩ := State.failOp_one (s := s.cxlTimedOut) (c := cLinkLost) (r := 0) hsi hl hp (fun _ => hw) fun _ => hen
    refine ⟨_, (exec_cxlTimeout ho hph hx).trans (congrArg _ (if_pos hlate)), hnum ▸ hgone, by rw [hf]; rfl, hst.trans ?_⟩
    rw [hret, if_pos rfl, Stream.finished_ones hsize]
    rfl
end Cxl

/-- Settles O37: FN_CFG_n by its rules, event records by their places in the ring, and what each link fails, moves or answers. -/
theorem functionsEventsAndLinks : Obligations.FunctionsEventsAndLinks := by
  refine ⟨⟨fun s n v hn h0 hr => fnCfgWrite_answers hn h0 hr, fun s fn vector hf hv hm => msixUnmask_answers hf hv hm, eventRecord_answers⟩,
    fun s hup hc => hostLinkLoss_answers hup hc, hostLinkUp_answers, fun s p => rfl, fun s p k hk hport hops => ?_,
    fun s p q n o sx t0 tries hops hn hk hs hph => ualinkPortDown_moves hops hn hk hs hph, fun s p r n o t0 tries hops _ hph hr hup => ?_,
    fun s p n o l t0 tries hops _ hk hs hph hl hp hup => ualinkPortDown_fails hops hk hs hph hl hp hup, fun s => ⟨rfl, rfl⟩,
    fun s n o l t0 tries port ho hk hph hx hl hen hp hsize _ hw => cxl_answers ho hk hph hx hl hen hp hsize hw⟩
  · exact exec_ualinkPortDown_still (fun o ho => .inl (hops o ho)) (anyPort_set hk hport)
  · refine exec_ualinkPortDown_still (fun x hx => .inr fun t m hx' => ?_) hup
    rw [hops, List.mem_singleton] at hx
    rw [hx, hph] at hx'
    cases hx'
    exact hr rfl

end Sys2Proof.Machine
end
section
/-! PROOFS. Power states, the clock, and resets (R436 to R440, R445). -/
namespace Sys2Proof.Machine

/-! ### Power states -/

section Power
variable {s : State}

theorem State.setPower_frame (s : State) (p : Power) : ∃ h, s.setPower p = { s with pwr := p, hif := h } := by
  unfold State.setPower
  dsimp only
  split <;> exact ⟨_, rfl⟩
theorem State.setPower_pwr (s : State) (p : Power) : (s.setPower p).pwr = p ∧ (s.setPower p).streams = s.streams ∧
    (s.setPower p).ops = s.ops ∧ (s.setPower p).outbox = s.outbox := by
  obtain ⟨h, e⟩ := s.setPower_frame p
  rw [e]
  exact ⟨rfl, rfl, rfl, rfl⟩
/-- A state that the host and the management port allow (R433, R445). -/
def State.mayEnter (s : State) (code latency : Nat) : Prop := (∃ tol, s.tolerance = some tol ∧ latency ≤ tol) ∧ code ∉ s.pwr.disabled
theorem State.allows_iff {code latency : Nat} : s.allows code latency = true ↔ s.mayEnter code latency := by
  unfold State.allows State.mayEnter
  cases s.tolerance <;> simp
theorem State.dwelt_iff {unit ns : Nat} : s.dwelt unit ns = true ↔ sget 0 s.pwr.busy unit + 4 * ns ≤ s.clock.gtsQ := decide_eq_true_iff
theorem exec_clkGateEnter {c : Nat} (hc : c < 48) : exec (.clkGateEnter c) s = .next
    (if (s.clusterIdle c && s.dwelt c 1000 && s.allows 1 2000) = true then s.setPower { s.pwr with gated := nins s.pwr.gated c } else s) := by
  change execClkGateEnter c s = _
  rw [execClkGateEnter, decide_eq_true hc, Bool.true_and]
theorem powerEnter_answers {c : Nat} (hc : c < 48) :
    let may := fun (code latency : Nat) => (∃ tol, s.tolerance = some tol ∧ latency ≤ tol) ∧ code ∉ s.pwr.disabled
    let long := fun (unit ns : Nat) => sget 0 s.pwr.busy unit + 4 * ns ≤ s.clock.gtsQ
    (s.clusterIdle c = true → long c 1000 → may 1 2000 →
      ∃ t, exec (.clkGateEnter c) s = .next t ∧ t.pwr = { s.pwr with gated := nins s.pwr.gated c } ∧ t.streams = s.streams ∧
        t.ops = s.ops) ∧
    (s.clusterIdle c = false ∨ ¬long c 1000 ∨ ¬may 1 2000 → exec (.clkGateEnter c) s = .next s) ∧
    (∀ d, d < 4 → s.dieIdle d = true → long (64 + d) 100000 → may 2 40000 →
      ∃ t, exec (.retainEnter d) s = .next t ∧ t.pwr = { s.pwr with retained := nins s.pwr.retained d } ∧ t.streams = s.streams) ∧
    (∀ k, s.hif.hbmIdle ≠ 0 → k ∉ s.channelsUsed → long (128 + k) (s.hif.hbmIdle * 1000) → may 3 300000 →
      ∃ t, exec (.hbmSrEnter k) s = .next t ∧ t.pwr = { s.pwr with hbmSr := nins s.pwr.hbmSr k } ∧ t.streams = s.streams) ∧
    (s.deviceIdle = true → long 100 10000000 → may 4 5000000 →
      ∃ t, exec .deepEnter s = .next t ∧ t.pwr = { s.pwr with deep := true } ∧ t.streams = s.streams) := by
  intro may long
  refine ⟨fun hi hl hm => ?_, fun h => ?_, fun d hd hi hl hm => ?_, fun k h0 hk hl hm => ?_, fun hi hl hm => ?_⟩
  · obtain ⟨h1, h2, h3, -⟩ := s.setPower_pwr { s.pwr with gated := nins s.pwr.gated c }
    exact ⟨_, (exec_clkGateEnter hc).trans (congrArg _ (if_pos (by simp [hi, State.dwelt_iff.mpr hl, State.allows_iff.mpr hm]))), h1, h2, h3⟩
  · refine (exec_clkGateEnter hc).trans (congrArg _ (if_neg ?_))
    rw [Bool.and_eq_true, Bool.and_eq_true, State.dwelt_iff, State.allows_iff]
    rintro ⟨⟨hi, hl⟩, hm⟩
    rcases h with h | h | h
    · rw [hi] at h
      cases h
    · exact h hl
    · exact h hm
  · obtain ⟨h1, h2, -⟩ := s.setPower_pwr { s.pwr with retained := nins s.pwr.retained d }
    exact ⟨_, congrArg Host.Outcome.next (if_pos (by simp [hd, hi, State.dwelt_iff.mpr hl, State.allows_iff.mpr hm])), h1, h2⟩
  · obtain ⟨h1, h2, -⟩ := s.setPower_pwr { s.pwr with hbmSr := nins s.pwr.hbmSr k }
    exact ⟨_, congrArg Host.Outcome.next (if_pos (by simp [h0, hk, State.dwelt_iff.mpr hl, State.allows_iff.mpr hm])), h1, h2⟩
  · obtain ⟨h1, h2, -⟩ := s.setPower_pwr { s.pwr with deep := true }
    exact ⟨_, congrArg Host.Outcome.next (if_pos (by simp [hi, State.dwelt_iff.mpr hl, State.allows_iff.mpr hm])), h1, h2⟩
theorem not_mem_ndel {l : List Nat} {n : Nat} : n ∉ ndel l n := fun h => by simpa using (List.mem_filter.mp h).2
theorem powerWake_answers (s : State) (c : Nat) :
    (∃ t, exec (.powerWake (.cluster c)) s = .next t ∧ c ∉ t.pwr.gated ∧ c / 12 ∉ t.pwr.retained ∧ t.pwr.deep = false) ∧
    (∃ t, exec (.powerWake .device) s = .next t ∧ t.pwr.deep = false ∧ t.pwr.gated = s.pwr.gated) := by
  refine ⟨⟨s.wake (.cluster c), rfl, ?_⟩, ⟨s.wake .device, rfl, ?_⟩⟩
  · rw [State.wake, (s.setPower_pwr _).1]
    exact ⟨not_mem_ndel, not_mem_ndel, rfl⟩
  · rw [State.wake, (s.setPower_pwr _).1]
    exact ⟨rfl, rfl⟩
/-- The units leave the states that are allowed no more. -/
theorem State.leaveStates_pwr (s : State) : s.leaveStates.pwr = { s.pwr with
    gated := if s.allows 1 2000 then s.pwr.gated else [], retained := if s.allows 2 40000 then s.pwr.retained else []
    hbmSr := if s.allows 3 300000 && s.hif.hbmIdle != 0 then s.pwr.hbmSr else [], deep := s.pwr.deep && s.allows 4 5000000 } ∧
    s.leaveStates.outbox = s.outbox := by
  unfold State.leaveStates
  exact ⟨(s.setPower_pwr _).1, (s.setPower_pwr _).2.2.2⟩
theorem powerLimit_answers (s : State) (disable : List Nat) (cap : Option Nat) : ∃ t, exec (.powerLimit disable cap) s = .next t ∧
    t.pwr.disabled = disable ∧ t.pwr.cap = cap ∧ (4 ∈ disable → t.pwr.deep = false) ∧ (1 ∈ disable → t.pwr.gated = []) ∧
    (∃ bs, t.outbox = s.outbox ++ [.mgmt bs]) ∧
    (∀ tol, s.tolerance = some tol → (4 ∉ disable → 5000000 ≤ tol → t.pwr.deep = s.pwr.deep) ∧
      (1 ∉ disable → 2000 ≤ tol → t.pwr.gated = s.pwr.gated)) := by
  obtain ⟨hp, ho⟩ := State.leaveStates_pwr { s with pwr := { s.pwr with disabled := disable, cap := cap } }
  generalize hu : ({ s with pwr := { s.pwr with disabled := disable, cap := cap } } : State).leaveStates = u at hp ho
  have hno : ∀ code latency, code ∈ disable → ({ s with pwr := { s.pwr with disabled := disable, cap := cap } } : State).allows code latency = false :=
    fun code latency h => Bool.eq_false_iff.mpr fun ha => (State.allows_iff.mp ha).2 h
  have hyes : ∀ code latency tol, s.tolerance = some tol → code ∉ disable → latency ≤ tol →
      ({ s with pwr := { s.pwr with disabled := disable, cap := cap } } : State).allows code latency = true :=
    fun code latency tol ht hc hl => State.allows_iff.mpr ⟨⟨tol, ht, hl⟩, hc⟩
  refine ⟨u.answerMctp false [], congrArg (fun u : State => Host.Outcome.next (u.answerMctp false [])) hu, ?_, ?_, fun h => ?_, fun h => ?_,
    ⟨_, congrArg (fun o => o ++ _) ho⟩, fun tol ht => ⟨fun h hl => ?_, fun h hl => ?_⟩⟩
  all_goals
    have hpwr : (u.answerMctp false []).pwr = u.pwr := rfl
    rw [hpwr, hp]
  · rw [hno 4 _ h]
    exact Bool.and_false _
  · rw [hno 1 _ h]
    rfl
  · rw [hyes 4 _ tol ht h hl]
    exact Bool.and_true _
  · rw [hyes 1 _ tol ht h hl]
    rfl
end Power

/-! ### Time (R440) -/

section Time
variable {s : State}

theorem State.ticked_frame (s : State) (q : Nat) : ∃ m l h o co, s.ticked q = { s with mem := m, links := l, hif := h, outbox := o, co := co } ∧
    (s.hif.fresh = [] → m = s.mem ∧ h = s.hif) := by
  unfold State.ticked
  split
  · exact ⟨s.mem, s.links, s.hif, s.outbox, s.co, rfl, fun _ => ⟨rfl, rfl⟩⟩
  · obtain ⟨m, l, h, o, heq, -⟩ := State.putEvents_frame s.hif.fresh { s.grantEntries with hif := { s.hif with fresh := [] } }
    have hw : s.grantEntries.writeEvents = s.hif.fresh.foldl State.putEvent { s.grantEntries with hif := { s.hif with fresh := [] } } := rfl
    by_cases hf : s.hif.fresh = []
    · rw [hw, hf]
      exact ⟨s.mem, s.links, _, s.outbox, s.grantEntries.co, rfl, fun _ => ⟨rfl, hif_fresh_nil hf⟩⟩
    · rw [hw, heq]
      exact ⟨m, l, h, o, s.grantEntries.co, rfl, fun h => absurd h hf⟩
theorem ptpSync_answers (s : State) (nanos offset : Nat) (slew : Int) :
    (slew.natAbs * 10000 ≤ 4 * nanos → ∃ t, exec (.ptpSync nanos slew offset) s = .next t ∧
      (t.clock.gtsQ : Int) = s.clock.gtsQ + 4 * nanos + slew ∧ t.pwr.gated = s.pwr.gated ∧
      (offset ≤ 50000 → s.hif.fresh = [] → t.mem = s.mem ∧ t.hif = s.hif)) ∧
    (4 * nanos < slew.natAbs * 10000 → exec (.ptpSync nanos slew offset) s = .next s) := by
  refine ⟨fun h => ?_, fun h => congrArg Host.Outcome.next (if_pos h)⟩
  have hex : exec (.ptpSync nanos slew offset) s = .next (
      let s1 := s.advance (4 * nanos) ((4 * (nanos : Int) + slew).toNat)
      if offset ≤ 50000 then s1 else { s1 with free := s1.free + 1 }.record 9 (pickSource (Config.pick s1.free)) 0) :=
    congrArg Host.Outcome.next (if_neg (Nat.not_lt.mpr h))
  obtain ⟨b, ss, hadv⟩ := s.advance_frame (4 * nanos) ((4 * (nanos : Int) + slew).toNat)
  obtain ⟨m, l, hf, o, co, ht, hsame⟩ := s.ticked_frame ((4 * (nanos : Int) + slew).toNat)
  rw [ht] at hadv
  dsimp only at hex
  refine ⟨_, hex, ?_⟩
  have hq : ((s.clock.gtsQ + (4 * (nanos : Int) + slew).toNat : Nat) : Int) = s.clock.gtsQ + 4 * nanos + slew := by omega
  split
  · rw [hadv]
    exact ⟨hq, rfl, fun _ hfresh => hsame hfresh⟩
  · next hoff =>
    rw [hadv]
    exact ⟨hq, rfl, fun hle => absurd hle hoff⟩
end Time

end Sys2Proof.Machine
end
section
/-! PROOFS. Resets of functions and of the device (R436, R437, R445). -/
namespace Sys2Proof.Machine

/-- The work of a reset: no team, grid or node comes to be, no function changes, and every copy was there. -/
structure State.ResetWork (s t : State) : Prop where
  teams : t.teams ⊆ s.teams
  loom : t.loom = s.loom
  fns : t.fns = s.fns
  copies : ∀ c ∈ t.dr.copies, ∃ c' ∈ s.dr.copies, c'.fn = c.fn

namespace State.ResetWork
variable {s t u : State}

theorem refl (s : State) : s.ResetWork s := ⟨fun _ h => h, rfl, rfl, fun c h => ⟨c, h, rfl⟩⟩
theorem trans (h : s.ResetWork t) (h' : t.ResetWork u) : s.ResetWork u := by
  refine ⟨fun x hx => h.teams (h'.teams hx), h'.loom.trans h.loom, h'.fns.trans h.fns, fun c hc => ?_⟩
  obtain ⟨c1, h1, e1⟩ := h'.copies c hc
  obtain ⟨c2, h2, e2⟩ := h.copies c1 h1
  exact ⟨c2, h2, e2.trans e1⟩
theorem foldl {α : Type} {f : State → α → State} (hf : ∀ (s : State) (a : α), s.ResetWork (f s a)) (l : List α) (s : State) :
    s.ResetWork (l.foldl f s) := by
  induction l generalizing s with
  | nil => exact refl s
  | cons a r ih => exact (hf s a).trans (ih _)
theorem of_same (h1 : t.teams = s.teams) (h2 : t.loom = s.loom) (h3 : t.fns = s.fns) (h4 : t.dr.copies = s.dr.copies) : s.ResetWork t := by
  refine ⟨?_, h2, h3, fun c hc => ⟨c, h4 ▸ hc, rfl⟩⟩
  rw [h1]
  exact fun _ h => h
theorem of_homeWork (h : s.HomeWork t) : s.ResetWork t := by
  rw [h.frame]
  exact .of_same rfl rfl rfl rfl
theorem of_bankWork (h : s.BankWork t) : s.ResetWork t := by
  rw [h.frame]
  exact .of_same rfl rfl rfl rfl
theorem onCopy (s : State) (id : CopyId) {f : Copy → Copy} (hf : ∀ c, (f c).fn = c.fn) : s.ResetWork (s.onCopy id f) := by
  refine ⟨fun _ h => h, rfl, rfl, fun c hc => ?_⟩
  obtain ⟨c', hc', rfl⟩ := List.mem_map.mp hc
  refine ⟨c', hc', ?_⟩
  split
  · exact (hf c').symm
  · rfl
theorem cancelCopy (s : State) (id : CopyId) : s.ResetWork (s.cancelCopy id) := by
  unfold State.cancelCopy
  split
  · exact refl s
  · next c _ =>
    split
    · exact refl s
    · dsimp only
      split
      · exact (onCopy s id (f := fun c => { c with cancel := some s.gts }) fun _ => rfl).trans (.of_same rfl rfl rfl rfl)
      · exact onCopy s id fun _ => rfl
theorem dropStreams (s : State) (x : Nat) : s.ResetWork (s.dropStreams x) := .of_same rfl rfl rfl rfl
theorem dropMat (s : State) (t : Team) : s.ResetWork (s.dropMat t) := by
  rw [State.dropMat_eq]
  exact .of_same rfl rfl rfl rfl
theorem clearQueues (s : State) (ks : List Nat) : s.ResetWork (s.clearQueues ks) := by
  rw [State.clearQueues_eq]
  exact .of_same rfl rfl rfl rfl
theorem fillVault (s : State) (a n : Nat) : s.ResetWork (s.fillVault a n) := of_bankWork (.clearVault s a n _)
/-- A team that is freed is gone. -/
theorem freeTeam (s : State) (t : Team) : s.ResetWork (s.freeTeam t) ∧ ∀ x ∈ (s.freeTeam t).teams, x.tcx ≠ t.tcx := by
  have h0 : s.ResetWork (if t.ended.isSome && t.recd.vaultKib != 0 then s.fillVault t.vaultBase.toNat (t.recd.vaultKib * 1024) else s) := by
    split
    · exact fillVault s _ _
    · exact refl s
  have h1 := ((h0.trans (dropStreams _ t.tcx)).trans (dropMat _ t)).trans (clearQueues _ t.queueKeys)
  refine ⟨h1.trans ⟨List.filter_subset_self _, rfl, rfl, fun c hc => ?_⟩, fun x hx => by simpa using (List.mem_filter.mp hx).2⟩
  obtain ⟨c', hc', rfl⟩ := List.mem_map.mp hc
  refine ⟨c', hc', ?_⟩
  split <;> rfl
theorem resetTeam (s : State) (t : Team) : s.ResetWork (s.resetTeam t) ∧ ∀ x ∈ (s.resetTeam t).teams, x.tcx ≠ t.tcx := by
  let left := s.ops.filter fun o => o.isLeft && o.lanes.any fun l => l.sid.tcx == t.tcx
  have h1 := ((foldl cancelCopy ((s.dr.copies.filter fun c => c.tcx == t.tcx && !c.final).map (·.id)) s).trans
    (foldl (fun s o => of_homeWork (.finishLeft s o)) left _)).trans (dropStreams _ t.tcx)
  generalize hu : ((left.foldl State.finishLeft (((s.dr.copies.filter fun c => c.tcx == t.tcx && !c.final).map (·.id)).foldl
    State.cancelCopy s)).dropStreams t.tcx) = u at h1
  let s2 : State := { u with
    ops := pruneFences (u.ops.filter fun o => !(o.lanes.any fun l => l.sid.tcx == t.tcx))
    images := match t.image with
      | some n => u.images.filter fun e => e.1 ≠ n
      | none => u.images }
  have h2 : s.ResetWork s2 := h1.trans (.of_same rfl rfl rfl rfl)
  obtain ⟨s3, h3, s4, h4, heq⟩ : ∃ s3, s3 = t.queueKeys.foldl (fun s k => s.setQueue k []) (s2.dropMat t) ∧ ∃ s4, s4 =
      (if t.recd.vaultKib = 0 then s3 else s3.fillVault t.vaultBase.toNat (t.recd.vaultKib * 1024)) ∧ s.resetTeam t = s4.freeTeam t := by
    refine ⟨_, rfl, _, rfl, ?_⟩
    dsimp only [s2]
    rw [← hu]
    rfl
  have hs3 : s.ResetWork s3 := by
    rw [h3]
    exact (h2.trans (dropMat s2 t)).trans (clearQueues _ t.queueKeys)
  have hs4 : s.ResetWork s4 := by
    rw [h4]
    split
    · exact hs3
    · exact hs3.trans (fillVault s3 _ _)
  rw [heq]
  exact ⟨hs4.trans (freeTeam s4 t).1, (freeTeam s4 t).2⟩
/-- Teams that are reset are gone. -/
theorem resetTeams (ts : List Team) (s : State) : s.ResetWork (ts.foldl State.resetTeam s) ∧
    ∀ t ∈ ts, ∀ x ∈ (ts.foldl State.resetTeam s).teams, x.tcx ≠ t.tcx := by
  induction ts generalizing s with
  | nil => exact ⟨refl s, fun _ h => absurd h List.not_mem_nil⟩
  | cons a ts ih =>
    obtain ⟨hw, hgone⟩ := ih (s.resetTeam a)
    obtain ⟨hw0, hgone0⟩ := resetTeam s a
    refine ⟨hw0.trans hw, fun t ht x hx => ?_⟩
    rcases List.mem_cons.mp ht with rfl | ht
    · exact hgone0 x (hw.teams hx)
    · exact hgone t ht x hx
theorem abortInst (s : State) (num : Nat) (cause : Cause) (m : Nat) : s.ResetWork (s.abortInst num cause m) := by
  unfold State.abortInst
  split
  · exact refl s
  · split
    · exact refl s
    · exact .of_same rfl rfl rfl rfl
theorem invalidateEntry (s : State) (m : Merge) : s.ResetWork (s.invalidateEntry m) := by
  unfold State.invalidateEntry
  dsimp only
  split <;> exact .of_same rfl rfl rfl rfl
theorem invalidate (s : State) (asid : BitVec 16) (range : Option (Nat × Nat)) : s.ResetWork (s.invalidate asid range) :=
  (foldl invalidateEntry (s.tr.merges.filter fun m => m.asid == asid && overlaps (m.page * 4096) 4096 range) s).trans
    (.of_same rfl rfl rfl rfl)
theorem freeShare (s : State) (n : Nat) : s.ResetWork (s.freeShare n) := by
  obtain ⟨ss, os, ws, ht⟩ := (s.fillVault (shareAddr n) 65536).turnAway_frame (shareAddr n) 65536
  unfold State.freeShare
  rw [ht]
  exact (fillVault s _ _).trans (.of_same rfl rfl rfl rfl)
theorem invalidateJob (s : State) (n : Nat) (asid : BitVec 16) : s.ResetWork (s.invalidateJob n asid) := by
  unfold State.invalidateJob
  split <;> exact .of_same rfl rfl rfl rfl
theorem wqWrite (s : State) (n : Nat) (w : Word) : s.ResetWork (s.wqWrite n w) := by
  unfold State.wqWrite
  dsimp only
  split
  · split
    · exact refl s
    · split <;> exact .of_same rfl rfl rfl rfl
  · split <;> exact .of_same rfl rfl rfl rfl
end State.ResetWork

/-! ### The reset of a function -/

section Function
variable {s : State} {n : Nat}

/-- The grids, records and nodes of a function are gone, and its waiting ones (R436). -/
def State.unloomed (s : State) (n : Nat) : State :=
  { s with loom := s.loom.reset n
           gbars := s.gbars.filter fun b => !(((s.loom.grids.filter fun (g : Grid) => g.fn == n).map Grid.id).contains b.1) }.noteHead
/-- Its copies and multicasts are gone. -/
def State.uncopied (s : State) (n : Nat) (none : Bool) : State :=
  { s with co := { s.co with mcasts := s.co.mcasts.filter fun m => m.fn != n }
           dr := { s.dr with copies := s.dr.copies.filter fun c => c.fn != n }
           loom := { s.loom with retired := if none then s.loom.retired else some s.clock.cycles } }
/-- Its default handler, its tokens and its messages are gone. -/
def State.unowned (s : State) (n : Nat) (mine : BitVec 16 → Bool) : State :=
  { s.onFn n (fun f => { f with defVec := 0 }) with
    tokens := s.tokens.filter fun t => !mine t.asid
    hif := { s.hif with unmasked := s.hif.unmasked.filter fun k => !(k / 2048 == n)
                        pending := s.hif.pending.filter fun k => !(k / 2048 == n) } }
/-- The stages of a reset: Loom, then the teams, the copies, what its ASIDs hold, and its registers. -/
def State.ResetInStages (s : State) (n : Nat) (t : State) : Prop := ∃ s2 s3 s9 mine none free h,
  s2 = ((s.unloomed n).teams.filter fun t => t.fn == n).foldl State.resetTeam (s.unloomed n) ∧ s2.ResetWork s3 ∧
  (s3.uncopied n none).ResetWork s9 ∧ t = { s9.unowned n mine with free := free, hif := h } ∧ h.unmasked = (s9.unowned n mine).hif.unmasked
theorem State.flrOne_stages (s : State) (n : Nat) : s.ResetInStages n (s.flrOne n) := by
  unfold State.flrOne
  extract_lets mine gs s1 ts s2 s3 loom3 dr3 co3 s4 done aborted coA s5 s6 shares s7 s8 wqs s9
  have h5 : s4.ResetWork s5 :=
    (ResetWork.foldl (fun s (i : Inst) => .abortInst s i.num cAborted i.me) _ s4).trans (.of_same rfl rfl rfl rfl)
  have h6 : s4.ResetWork s6 := h5.trans (.foldl (fun s (a : Nat) => .invalidate s (BitVec.ofNat 16 a) none) _ s5)
  have h7 : s4.ResetWork s7 := h6.trans (.foldl .freeShare _ s6)
  have h8 : s4.ResetWork s8 := h7.trans (.foldl (fun s k => by
    split
    · exact .invalidateJob s k _
    · exact .refl s) _ s7)
  have h9 : s4.ResetWork s9 := h8.trans (.foldl (fun s k => .wqWrite s k _) _ s8)
  have h3 : s2.ResetWork s3 := .foldl .cancelCopy _ s2
  exact ⟨s2, s3, s9, mine, ts.isEmpty, _, _, rfl, h3, h9, rfl, rfl⟩

/-- What the reset of a function leaves of teams, of Loom, of copies and of functions. -/
theorem State.flrOne_spec (s : State) (n : Nat) : (∀ x ∈ (s.flrOne n).teams, x ∈ s.teams ∧ x.fn ≠ n) ∧
    (∀ g ∈ (s.flrOne n).loom.grids, ∃ g' ∈ s.loom.grids, g'.fn = g.fn ∧ g.fn ≠ n) ∧ (∀ g ∈ (s.flrOne n).loom.held, g.fn ≠ n) ∧
    (∀ x ∈ (s.flrOne n).loom.nodes, x.fn ≠ n) ∧ (∀ c ∈ (s.flrOne n).dr.copies, c.fn ≠ n) ∧ ((s.flrOne n).fn n).defVec = 0 ∧
    (∀ m, m ≠ n → (s.flrOne n).fn m = s.fn m) ∧ ∀ k ∈ (s.flrOne n).hif.unmasked, k / 2048 ≠ n := by
  obtain ⟨s2, s3, s9, mine, none, free, h, h2, h3, h9, heq, hun⟩ := s.flrOne_stages n
  obtain ⟨f, hf, hl⟩ := State.noteHead_eq { s with loom := s.loom.reset n, gbars := s.gbars.filter fun b =>
    !(((s.loom.grids.filter fun (g : Grid) => g.fn == n).map Grid.id).contains b.1) }
  have h1 : (s.unloomed n).teams = s.teams ∧ (s.unloomed n).loom = { s.loom.reset n with grids := (s.loom.reset n).grids.map f } ∧
      (s.unloomed n).fns = s.fns := by
    unfold State.unloomed
    rw [hl]
    exact ⟨rfl, rfl, rfl⟩
  obtain ⟨hw2, hgone⟩ := State.ResetWork.resetTeams ((s.unloomed n).teams.filter fun t => t.fn == n) (s.unloomed n)
  rw [← h2] at hw2 hgone
  have hw3 := hw2.trans h3
  have hloom : (s.flrOne n).loom = { s3.loom with retired := (s3.uncopied n none).loom.retired } := by
    rw [heq]
    exact h9.loom
  have hgrids : (s.flrOne n).loom.grids = (s.loom.reset n).grids.map f := by rw [hloom, hw3.loom, h1.2.1]
  have hfns : (s.flrOne n).fns = (s9.onFn n fun f => { f with defVec := 0 }).fns := by rw [heq]; rfl
  have hfn : ∀ m, s9.fn m = s.fn m := fun m => by
    unfold State.fn
    rw [h9.fns, show (s3.uncopied n none).fns = s3.fns from rfl, hw3.fns, h1.2.2]
  have hfn' : ∀ m, (s.flrOne n).fn m = (s9.onFn n fun f => { f with defVec := 0 }).fn m := fun m => by
    unfold State.fn
    rw [hfns]
  refine ⟨fun x hx => ?_, fun g hg => ?_, fun g hg => ?_, fun x hx => ?_, fun c hc => ?_, ?_, fun m hm => ?_, fun k hk => ?_⟩
  · rw [heq] at hx
    have hx3 : x ∈ s3.teams := h9.teams hx
    have hx1 : x ∈ (s.unloomed n).teams := hw3.teams hx3
    exact ⟨h1.1 ▸ hx1, fun hn => hgone x (List.mem_filter.mpr ⟨hx1, by simpa using hn⟩) x (h3.teams hx3) rfl⟩
  · rw [hgrids] at hg
    obtain ⟨g', hg', rfl⟩ := List.mem_map.mp hg
    obtain ⟨hd, e⟩ := hf g'
    obtain ⟨hin, hfn⟩ := List.mem_filter.mp hg'
    refine ⟨g', hin, ?_, ?_⟩
    · rw [e]
    · rw [e]
      simpa using hfn
  · rw [hloom, hw3.loom, h1.2.1] at hg
    simpa using (List.mem_filter.mp hg).2
  · rw [hloom, hw3.loom, h1.2.1] at hx
    simpa using (List.mem_filter.mp hx).2
  · rw [heq] at hc
    obtain ⟨c', hc', e⟩ := h9.copies c hc
    rw [← e]
    simpa using (List.mem_filter.mp hc').2
  · rw [hfn']
    unfold State.fn State.onFn
    simp only [sget_sset_same]
    split <;> rfl
  · rw [hfn', State.fn_other _ hm, hfn]
  · rw [heq] at hk
    change k ∈ h.unmasked at hk
    rw [hun] at hk
    simpa using (List.mem_filter.mp hk).2
end Function

/-! ### The reset of the physical function, and of the device -/

section Device
variable {s : State}

/-- After the resets of some functions none has a team or a grid. -/
theorem State.flrs_spec (ns : List Nat) (s : State) : (∀ x ∈ (ns.foldl State.flrOne s).teams, x.fn ∉ ns) ∧
    (∀ g ∈ (ns.foldl State.flrOne s).loom.grids, g.fn ∉ ns) := by
  suffices h : ∀ (ns : List Nat) (s : State), (∀ x ∈ (ns.foldl State.flrOne s).teams, x ∈ s.teams ∧ x.fn ∉ ns) ∧
      (∀ g ∈ (ns.foldl State.flrOne s).loom.grids, (∃ g' ∈ s.loom.grids, g'.fn = g.fn) ∧ g.fn ∉ ns) from
    ⟨fun x hx => ((h ns s).1 x hx).2, fun g hg => ((h ns s).2 g hg).2⟩
  intro ns
  induction ns with
  | nil => exact fun s => ⟨fun x hx => ⟨hx, List.not_mem_nil⟩, fun g hg => ⟨⟨g, hg, rfl⟩, List.not_mem_nil⟩⟩
  | cons n ns ih =>
    intro s
    obtain ⟨hteams, hgrids⟩ := ih (s.flrOne n)
    obtain ⟨ht, hg, -⟩ := s.flrOne_spec n
    refine ⟨fun x hx => ?_, fun g hx => ?_⟩
    · obtain ⟨h1, h2⟩ := hteams x hx
      obtain ⟨h3, h4⟩ := ht x h1
      exact ⟨h3, List.not_mem_cons_of_ne_of_not_mem h4 h2⟩
    · obtain ⟨⟨g1, hg1, e1⟩, h2⟩ := hgrids g hx
      obtain ⟨g2, hg2, e2, hn⟩ := hg g1 hg1
      exact ⟨⟨g2, hg2, e2.trans e1⟩, List.not_mem_cons_of_ne_of_not_mem (e1 ▸ hn) h2⟩
theorem State.resetCaches_work (s : State) : s.resetCaches.teams = s.teams ∧ s.resetCaches.loom = s.loom ∧ s.resetCaches.vt.lines = [] := by
  let s1 := (s.writeBack fun _ => true).dropLines fun _ => true
  have h1 : s.LineWork s1 := (State.LineWork.writeBack s _).trans (.dropLines _ _)
  have h0 : s1.vt.lines = [] := List.filter_eq_nil_iff.mpr fun l _ => by simp
  have hfree : ∀ (ns : List Nat) (u : State), (ns.foldl State.freeShare u).teams = u.teams ∧ (ns.foldl State.freeShare u).loom = u.loom ∧
      (u.vt.lines = [] → (ns.foldl State.freeShare u).vt.lines = []) := by
    intro ns
    induction ns with
    | nil => exact fun u => ⟨rfl, rfl, id⟩
    | cons n ns ih =>
      intro u
      obtain ⟨ha, hb, hc⟩ := ih (u.freeShare n)
      have hu : (u.freeShare n).teams = u.teams ∧ (u.freeShare n).loom = u.loom ∧ (u.vt.lines = [] → (u.freeShare n).vt.lines = []) := by
        have hb : u.BankWork (u.fillVault (shareAddr n) 65536) := .clearVault u _ _ _
        obtain ⟨ss, os, ws, ht⟩ := (u.fillVault (shareAddr n) 65536).turnAway_frame (shareAddr n) 65536
        unfold State.freeShare
        rw [ht]
        refine ⟨(congrArg State.teams hb.frame).trans rfl, (congrArg State.loom hb.frame).trans rfl, fun h => List.length_eq_zero_iff.mp ?_⟩
        exact hb.lines.trans (by rw [h]; rfl)
      exact ⟨ha.trans hu.1, hb.trans hu.2.1, fun h => hc (hu.2.2 h)⟩
  obtain ⟨ha, hb, hc⟩ := hfree (s1.vt.caches.flatMap VCache.shares) s1
  refine ⟨ha.trans ?_, hb.trans ?_, hc h0⟩ <;> rw [h1.frame]
/-- What the reset of the physical function leaves (R437). -/
structure State.Cleared (t : State) : Prop where
  teams : ∀ tm ∈ t.teams, 64 < tm.fn
  grids : ∀ g ∈ t.loom.grids, 64 < g.fn
  settings : t.halted = [] ∧ t.jobs = List.replicate 8 blankJob ∧ t.tr.asidTbl = 0 ∧ t.tr.tlb = [] ∧ t.tr.descs = [] ∧ t.co.wqs = [] ∧
    t.co.mcgLo = 0 ∧ t.co.mcgHi = 0
  caches : t.vt.caches = [bootCache] ∧ t.vt.lines = [] ∧ t.vt.dirs = [] ∧ t.vt.migrateMode = false
theorem State.flrAll_cleared (s : State) : s.flrAll.Cleared := by
  obtain ⟨hteams, hgrids⟩ := State.flrs_spec (List.range 65) s
  unfold State.flrAll
  generalize (List.range 65).foldl State.flrOne s = u at hteams hgrids
  obtain ⟨h1, h2, h3⟩ := u.resetCaches_work
  refine ⟨fun tm h => ?_, fun g h => ?_, ⟨rfl, rfl, rfl, rfl, rfl, rfl, rfl, rfl⟩, ⟨rfl, h3, rfl, rfl⟩⟩
  · have h' : tm ∈ u.resetCaches.teams := h
    rw [h1] at h'
    have := hteams tm h'
    rw [List.mem_range] at this
    omega
  · have h' : g ∈ u.resetCaches.loom.grids := h
    rw [h2] at h'
    have := hgrids g h'
    rw [List.mem_range] at this
    omega
theorem exec_deviceReset (s : State) : exec .deviceReset s = .next { State.reset with
    clock := s.clock, agenda := s.agenda, free := s.free + 1, outbox := s.outbox ++ [.mgmt ([] ++ Config.monitor s.free)]
    fw := ⟨0, [], false, s.fw.fuse, none, if s.fw.update.isSome then s.fw.update else s.fw.active, 0, s.fw.ident + 1⟩
    pwr := { State.reset.pwr with disabled := s.pwr.disabled, cap := s.pwr.cap } } := by
  have hact : (s.fw.update.orElse fun _ => s.fw.active) = if s.fw.update.isSome then s.fw.update else s.fw.active := by
    cases s.fw.update <;> rfl
  change execDeviceReset s = _
  rw [execDeviceReset, hact]
  rfl
end Device

/-- Settles O38: a state is entered under its conditions and left by a wake or a limit; a reset of a function takes away its teams, grids,
nodes and copies, and that of the physical function those of every function. -/
theorem powerTimeAndResets : Obligations.PowerTimeAndResets := by
  refine ⟨⟨fun s c hc => ?_, powerLimit_answers, ptpSync_answers⟩, fun i s n hi h0 hn => ?_, fun i s hi => ?_,
    fun s => ⟨_, exec_deviceReset s⟩⟩
  · obtain ⟨h1, h2, h3, h4, h5⟩ := powerEnter_answers (s := s) hc
    exact ⟨h1, h2, h3, h4, h5, (powerWake_answers s c).1, (powerWake_answers s c).2⟩
  · obtain ⟨ht, hg, hh, hx, hc, hd, hf, hk⟩ := s.flrOne_spec n
    have hone : (if 64 < n then s else if n = 0 then s.flrAll else s.flrOne n) = s.flrOne n := by
      rw [if_neg (by omega), if_neg h0]
    obtain ⟨u, hex, hu⟩ : ∃ u, exec i s = .next u ∧ (u = s.flrOne n ∨ u = (s.flrOne n).answerMctp false []) := by
      rcases hi with rfl | rfl
      · exact ⟨_, congrArg Host.Outcome.next hone, .inl rfl⟩
      · exact ⟨_, congrArg (fun u : State => Host.Outcome.next (u.answerMctp false [])) hone, .inr rfl⟩
    refine ⟨u, hex, ?_⟩
    have ht' : ∀ tm ∈ (s.flrOne n).teams, tm.fn ≠ n := fun tm h => (ht tm h).2
    have hg' : ∀ g ∈ (s.flrOne n).loom.grids, g.fn ≠ n := fun g h => (hg g h).choose_spec.2.2
    rcases hu with rfl | rfl
    · exact ⟨ht', hg', hh, hx, hc, hd, hf, hk⟩
    · exact ⟨ht', hg', hh, hx, hc, hd, hf, hk⟩
  · obtain ⟨u, hex, hu⟩ : ∃ u, exec i s = .next u ∧ u.Cleared := by
      have hcleared := s.flrAll_cleared
      obtain ⟨v, hv⟩ : ∃ v, v = s.flrAll := ⟨_, rfl⟩
      rw [← hv] at hcleared
      have h0 : (if 64 < 0 then s else if 0 = 0 then s.flrAll else s.flrOne 0) = v := hv.symm
      obtain ⟨h1, h2, h3, h4⟩ := hcleared
      rcases hi with rfl | rfl | rfl
      · exact ⟨v, congrArg Host.Outcome.next hv.symm, h1, h2, h3, h4⟩
      · exact ⟨v, congrArg Host.Outcome.next h0, h1, h2, h3, h4⟩
      · exact ⟨v.answerMctp false [], congrArg (fun u : State => Host.Outcome.next (u.answerMctp false [])) h0, h1, h2, h3, h4⟩
    obtain ⟨h1, h2, ⟨h3, h4, h5, h6, h7, h8, h9, h10⟩, h11, h12, h13, h14⟩ := hu
    exact ⟨u, hex, h1, h2, h3, h4, h5, h6, h7, h8, h9, h10, h11, h12, h13, h14⟩

end Sys2Proof.Machine
end
section
/-! PROOFS. Carter streams, and the park on short queues (R264, R266, R274, R387). -/
namespace Sys2Proof.Machine

/-! ### The park on short queues -/

section StallPark
variable {s : State} {id : SId} {st : Stream}

theorem mem_insertUnit {x y : Stream} {l : List Stream} : y ∈ insertUnit x l ↔ y = x ∨ y ∈ l := by
  induction l with
  | nil => exact List.mem_singleton.trans (by simp)
  | cons z l ih =>
    unfold insertUnit
    split
    · exact List.mem_cons
    · rw [List.mem_cons, ih, List.mem_cons]
      tauto
theorem mem_insertUnits {y : Stream} {l r : List Stream} (h : y ∈ l.foldl (fun r st => insertUnit st r) r) : y ∈ l ∨ y ∈ r := by
  induction l generalizing r with
  | nil => exact .inr h
  | cons z l ih =>
    rcases ih h with h | h
    · exact .inl (List.mem_cons_of_mem _ h)
    · rcases mem_insertUnit.mp h with rfl | h
      · exact .inl List.mem_cons_self
      · exact .inr h
theorem State.mem_fellows {x : Stream} (hst : st ∈ s.streams) (h : x ∈ s.fellows st) : x ∈ s.streams := by
  unfold State.fellows at h
  split at h
  · rcases mem_insertUnits h with h | h
    · exact (List.mem_filter.mp h).1
    · cases h
  · rw [List.mem_singleton.mp h]
    exact hst
theorem State.stream?_of_mem {x : Stream} (h : x ∈ s.streams) : (s.stream? x.id).isSome = true :=
  List.find?_isSome.mpr ⟨x, h, by simp⟩
/-- The threads that park together. -/
def State.mates (s : State) (st : Stream) : List SId := ((s.fellows st).filter s.overdue).map (·.id)
theorem State.mates_present (hst : st ∈ s.streams) : s.Present (s.mates st) := by
  intro x hx
  obtain ⟨y, hy, rfl⟩ := List.mem_map.mp hx
  exact State.stream?_of_mem (State.mem_fellows hst (List.mem_filter.mp hy).1)
theorem exec_queueStallPark_early (hs : s.stream? id = some st) (ho : s.overdue st = false) : exec (.queueStallPark id) s = .next s := by
  change execQueueStallPark id s = _
  rw [execQueueStallPark, hs]
  exact congrArg Host.Outcome.next (if_pos (by simp [ho]))
theorem exec_queueStallPark_on (hs : s.stream? id = some st) (hx : st.exited = false) (ho : s.overdue st = true) {q : Option Park}
    (hq : s.queuePark st = q) : exec (.queueStallPark id) s = .next (match q with
      | none => s
      | some p => s.onLanes (s.mates st) fun x => x.parkAt p) := by
  change execQueueStallPark id s = _
  unfold execQueueStallPark
  simp only [hs, hx, ho, hq, Bool.not_true, Bool.or_self, Bool.false_eq_true, if_false]
  cases q with
  | none => rfl
  | some p => rfl
theorem State.queuePark_eq {ws : List (DWord × Checked)} {i : Instr} (hf : s.fetch st = .ok ws) (he : s.examineFor st (ws.map (·.1)) = .ok i)
    (hi : s.interlocked i st = false) (hw : windowHolds (s.fellows st) i ws = false)
    (hc : crossLane i = true → s.pathHeld ((s.fellows st).map (·.id)) st = false) :
    s.queuePark st = match s.fullWorkQueue st ((ws.map (·.1)).headD 0) i with
      | some (n, ver) => some (.wq n ver ((s.sharing st ((ws.map (·.1)).headD 0)).headD st.id))
      | none => if (s.shortQueues st ((ws.map (·.1)).headD 0) i).isEmpty then none
        else some (.queue (s.shortQueues st ((ws.map (·.1)).headD 0) i)) := by
  unfold State.queuePark
  rw [hf]
  dsimp only
  rw [he]
  refine if_neg ?_
  rw [hi, hw]
  cases h : crossLane i
  · simp
  · simp [hc h]
theorem queueStallPark_answers (hs : s.stream? id = some st) (hx : st.exited = false) (hp : st.park = .none) :
    (st.short = none → exec (.queueStallPark id) s = .next s) ∧
    (∀ t0, st.short = some t0 → s.clock.cycles < t0 + 256 → exec (.queueStallPark id) s = .next s) ∧
    (∀ t0 ws i, st.short = some t0 → t0 + 256 ≤ s.clock.cycles → s.fetch st = .ok ws → s.examineFor st (ws.map (·.1)) = .ok i →
      s.interlocked i st = false → windowHolds (s.fellows st) i ws = false →
      (crossLane i = true → s.pathHeld ((s.fellows st).map (·.id)) st = false) →
      let w := (ws.map (·.1)).headD 0
      let mates := ((s.fellows st).filter s.overdue).map (·.id)
      let parks := fun (p : Park) => ∃ t, exec (.queueStallPark id) s = .next t ∧ s.OnlyStreams t mates ∧
        ∀ x ∈ mates, t.stream x = (s.stream x).parkAt p
      (∀ n ver, s.fullWorkQueue st w i = some (n, ver) → parks (.wq n ver ((s.sharing st w).headD id))) ∧
      (s.fullWorkQueue st w i = none → s.shortQueues st w i ≠ [] → parks (.queue (s.shortQueues st w i))) ∧
      (s.fullWorkQueue st w i = none → s.shortQueues st w i = [] → exec (.queueStallPark id) s = .next s)) := by
  have hst : st ∈ s.streams := List.mem_of_find?_eq_some hs
  have hid : st.id = id := by simpa using List.find?_some hs
  refine ⟨fun hn => exec_queueStallPark_early hs (by simp [State.overdue, hn]), fun t0 hn hlt =>
    exec_queueStallPark_early hs (by simp [State.overdue, hn, hlt]), fun t0 ws i hn hle hf he hi hw hc => ?_⟩
  intro w mates parks
  have ho : s.overdue st = true := by simp [State.overdue, hn, hle, hp]
  have hq := State.queuePark_eq hf he hi hw hc
  rw [hid] at hq
  have hparks : ∀ p, s.queuePark st = some p → parks p := fun p h => ⟨_, exec_queueStallPark_on hs hx ho h,
    s.onLanes_onlyStreams (f := fun x => x.parkAt p) (fun _ => rfl) mates,
    fun x hx => s.onLanes_listed (f := fun x => x.parkAt p) (fun _ => rfl) hx (State.mates_present hst x hx)⟩
  refine ⟨fun n ver hfull => hparks _ ?_, fun hfull hshort => hparks _ ?_, fun hfull hshort => exec_queueStallPark_on hs hx ho (q := none) ?_⟩
  · rw [hq, hfull]
  · rw [hq, hfull]
    exact if_neg fun h => hshort (List.isEmpty_iff.mp h)
  · rw [hq, hfull]
    exact if_pos (List.isEmpty_iff.mpr hshort)
end StallPark

/-! ### `cspawn` -/

section Spawn
variable {s : State} {g : Guard} {d s1 s2 : Reg} {k1 k2 : Bool} {id : SId}

/-- The lane of `cspawn`, with what it answers. -/
def spawned (d s1 : Reg) (k1 : Bool) (s2 : Reg) (k2 : Bool) (v : Word) (st : Stream) : Stream := ((st.kill64 s1 k1).kill s2 k2).wr d v
theorem spawned_id (v : Word) (st : Stream) : (spawned d s1 k1 s2 k2 v st).id = st.id := by
  rw [spawned, Stream.wr_id, Stream.kill_id, Stream.kill64_id]
/-- A stream takes the place of any other of its identity. -/
def State.newborn (s : State) (x : Stream) : State := { s with streams := (s.streams.filter fun y => y.id ≠ x.id) ++ [x] }
theorem State.newborn_same (x : Stream) : (s.newborn x).stream? x.id = some x := by
  unfold State.stream? State.newborn
  rw [List.find?_append, List.find?_eq_none.mpr fun y hy => by simpa using (List.mem_filter.mp hy).2]
  simp
theorem State.newborn_other {x : Stream} {i : SId} (h : i ≠ x.id) : (s.newborn x).stream? i = s.stream? i := by
  unfold State.stream? State.newborn
  rw [List.find?_append, List.find?_filter]
  have hx : [x].find? (fun st => decide (st.id = i)) = none := by simp [h.symm]
  rw [hx, Option.or_none]
  congr 1
  funext y
  by_cases hy : y.id = i
  · simp [hy, h]
  · simp [hy]
theorem exec_cspawn (ha : s.Alone g id) (ht : targetTrap ((s.stream id).rd64 s1) = none) : exec (.cspawn g d s1 k1 s2 k2) s = .next (
    match (List.range 4).find? fun k => (s.carterSlot (s.curTeam.coreOf id) k).isNone with
    | none => s.retireLanes g (spawned d s1 k1 s2 k2 0xFFFFFFFF)
    | some k => (s.newborn ((newStream ⟨s.curTeam.tcx, .carter, 4 * s.curTeam.half id + k⟩ ((s.stream id).rd64 s1)
        (s.fn s.curTeam.fn).defVec s.clock.cycles).wr 1 ((s.stream id).rd s2))).retireLanes g
          (spawned d s1 k1 s2 k2 (BitVec.ofNat 32 k))) := by
  change execCspawn g d s1 k1 s2 k2 s = _
  unfold execCspawn
  rw [State.lowest_alone ha]
  dsimp only
  rw [ht, s.stream_id]
  dsimp only
  refine congrArg Host.Outcome.next ?_
  generalize (List.range 4).find? _ = found
  cases found with
  | none => rfl
  | some k => (simp only [State.newborn, Stream.wr_id]; rfl)
/-- The streams that `cspawn` leaves: its own, the new one, and the others. -/
theorem cspawn_answers (ha : s.Alone g id) (ht : targetTrap ((s.stream id).rd64 s1) = none) :
    let core := s.curTeam.coreOf id
    let kills := fun (st : Stream) => (st.kill64 s1 k1).kill s2 k2
    ((∀ k, k < 4 → (s.carterSlot core k).isSome = true) →
      ∃ t, exec (.cspawn g d s1 k1 s2 k2) s = .next t ∧ s.OnlyStreams t [id] ∧
        t.stream id = ((kills (s.stream id)).wr d 0xFFFFFFFF).goto s.cur.npc) ∧
    (∀ k, k < 4 → s.carterSlot core k = none → (∀ j, j < k → (s.carterSlot core j).isSome = true) →
      let new : SId := ⟨s.curTeam.tcx, .carter, 4 * s.curTeam.half id + k⟩
      new ≠ id → ∃ t, exec (.cspawn g d s1 k1 s2 k2) s = .next t ∧ t = { s with streams := t.streams } ∧
        t.stream id = ((kills (s.stream id)).wr d (BitVec.ofNat 32 k)).goto s.cur.npc ∧
        t.stream new = (newStream new ((s.stream id).rd64 s1) (s.fn s.curTeam.fn).defVec s.clock.cycles).wr 1 ((s.stream id).rd s2) ∧
        ∀ x, x ≠ id → x ≠ new → t.stream? x = s.stream? x) := by
  intro core kills
  refine ⟨fun hfull => ?_, fun k hk hnone hlow => ?_⟩
  · have hfind : ((List.range 4).find? fun k => (s.carterSlot (s.curTeam.coreOf id) k).isNone) = none :=
      List.find?_eq_none.mpr fun k hk => by
        rw [Option.isNone_iff_eq_none]
        exact Option.isSome_iff_ne_none.mp (hfull k (List.mem_range.mp hk))
    have hex := exec_cspawn (d := d) (k1 := k1) (s2 := s2) (k2 := k2) ha ht
    rw [hfind] at hex
    obtain ⟨h1, h2⟩ := State.retired_one ha (f := spawned d s1 k1 s2 k2 0xFFFFFFFF) (fun st => spawned_id _ st)
    exact ⟨_, hex, h1, h2⟩
  · intro new hne
    have hfind : ((List.range 4).find? fun k => (s.carterSlot (s.curTeam.coreOf id) k).isNone) = some k := by
      refine List.find?_range_eq_some.mpr ⟨Option.isNone_iff_eq_none.mpr hnone, List.mem_range.mpr hk, fun j hj => ?_⟩
      rw [Bool.not_eq_true', ← Option.not_isSome, hlow j hj]
      rfl
    have hex := exec_cspawn (d := d) (k1 := k1) (s2 := s2) (k2 := k2) ha ht
    rw [hfind] at hex
    dsimp only at hex
    generalize hx : (newStream ⟨s.curTeam.tcx, .carter, 4 * s.curTeam.half id + k⟩ ((s.stream id).rd64 s1)
      (s.fn s.curTeam.fn).defVec s.clock.cycles).wr 1 ((s.stream id).rd s2) = x at hex
    have hxid : x.id = new := by
      rw [← hx, Stream.wr_id]
      rfl
    obtain ⟨hl, hg, hp⟩ := ha
    have hst : (s.newborn x).stream? id = s.stream? id := State.newborn_other (by rw [hxid]; exact hne.symm)
    have hstream : (s.newborn x).stream id = s.stream id := by rw [State.stream, hst, State.stream]
    have hb : (s.newborn x).Alone g id := by
      refine ⟨hl, by rw [hstream]; exact hg, fun i hi => ?_⟩
      rw [List.mem_singleton.mp hi, hst]
      exact hp id (List.mem_singleton_self id)
    obtain ⟨⟨h1, h2⟩, h3⟩ := State.retired_one hb (f := spawned d s1 k1 s2 k2 (BitVec.ofNat 32 k)) (fun st => spawned_id _ st)
    have hnew : ((s.newborn x).retireLanes g (spawned d s1 k1 s2 k2 (BitVec.ofNat 32 k))).stream? new = some x := by
      rw [h2 new (by simpa using hne), ← hxid]
      exact State.newborn_same x
    refine ⟨_, hex, h1, by rw [h3, hstream]; rfl, ?_, fun i hi hin => ?_⟩
    · rw [State.stream, hnew]
      rfl
    · rw [h2 i (by simpa using hi)]
      exact State.newborn_other (by rw [hxid]; exact hin)
end Spawn

/-! ### `cstop` -/

section Stop
variable {s : State} {g : Guard} {d : Reg} {slots : BitVec 4} {id : SId}

/-- The Carter streams that `cstop` names. -/
def State.stopped (s : State) (core : Nat) (slots : BitVec 4) : List SId :=
  (List.range 4).filterMap fun k => if slots.getLsbD k then (s.carterSlot core k).map (·.id) else none
/-- The slots of a list of streams. -/
def slotMask (ids : List SId) : Word := ids.foldl (fun m id => m ||| (1#32 <<< (id.unit % 4))) 0
theorem getLsbD_slotMask (ids : List SId) {k : Nat} (hk : k < 32) : (slotMask ids).getLsbD k = ids.any fun id => id.unit % 4 == k := by
  have h : ∀ m : Word, (ids.foldl (fun m id => m ||| (1#32 <<< (id.unit % 4))) m).getLsbD k =
      (m.getLsbD k || ids.any fun id => id.unit % 4 == k) := by
    induction ids with
    | nil => exact fun m => (Bool.or_false _).symm
    | cons x ids ih =>
      intro m
      have hbit : (1#32 <<< (x.unit % 4)).getLsbD k = (x.unit % 4 == k) := by
        rw [BitVec.getLsbD_shiftLeft, BitVec.getLsbD_one, Bool.eq_iff_iff]
        simp only [hk, decide_true, Bool.true_and, Bool.and_eq_true, Bool.not_eq_true', decide_eq_false_iff_not, beq_iff_eq, decide_eq_true_eq]
        omega
      rw [List.foldl_cons, ih, BitVec.getLsbD_or, hbit, List.any_cons, Bool.or_assoc]
  rw [slotMask, h]
  simp
theorem State.mem_stopped {core : Nat} {x : SId} : x ∈ s.stopped core slots ↔
    ∃ k, k < 4 ∧ slots.getLsbD k = true ∧ ∃ st, s.carterSlot core k = some st ∧ st.id = x := by
  unfold State.stopped
  rw [List.mem_filterMap]
  refine exists_congr fun k => ?_
  rw [List.mem_range]
  refine and_congr_right fun _ => ?_
  by_cases h : slots.getLsbD k = true
  · simp [h]
  · simp [h]
theorem State.carterSlot_unit {core k : Nat} {x : Stream} (h : s.carterSlot core k = some x) : x.id.unit % 4 = k := by
  have := List.find?_some h
  simp only [Bool.and_eq_true, beq_iff_eq] at this
  exact this.1.1.2
/-- The streams stop, and no merge lists them. -/
def State.stopAll (s : State) (hit : List SId) : State :=
  { s.onLanes hit Stream.stop with
    tr := { s.tr with merges := s.tr.merges.map fun m => { m with waiters := m.waiters.filter fun w => !(hit.contains w) } } }
theorem exec_cstop (ha : s.Alone g id) : exec (.cstop g d slots) s = .next
    ((s.stopAll (s.stopped (s.curTeam.coreOf id) slots)).retireLanes g fun st => st.wr d (slotMask (s.stopped (s.curTeam.coreOf id) slots))) := by
  change execCstop g d slots s = _
  unfold execCstop
  rw [State.lowest_alone ha]
  dsimp only
  rw [s.stream_id]
  rfl
theorem cstop_answers (ha : s.Alone g id) :
    let core := s.curTeam.coreOf id
    let hit := fun (k : Nat) => slots.getLsbD k && (s.carterSlot core k).isSome
    (∀ k x, k < 4 → s.carterSlot core k = some x → x.id ≠ id) →
    ∃ t mask, exec (.cstop g d slots) s = .next t ∧ t = { s with streams := t.streams, tr := t.tr } ∧
      (∀ k, k < 32 → mask.getLsbD k = (decide (k < 4) && hit k)) ∧
      t.stream id = ((s.stream id).wr d mask).goto s.cur.npc ∧
      ∀ k x, k < 4 → hit k = true → s.carterSlot core k = some x → s.stream? x.id = some x →
        t.stream x.id = { x.parkAt .stop with slots := ⟨none, none, none, none⟩ } := by
  intro core hit hself
  have hout : id ∉ s.stopped core slots := fun h => by
    obtain ⟨k, hk, -, st, hst, hid⟩ := State.mem_stopped.mp h
    exact hself k st hk hst hid
  have hex := exec_cstop (d := d) (slots := slots) ha
  change exec (.cstop g d slots) s = .next ((s.stopAll (s.stopped core slots)).retireLanes g fun st => st.wr d (slotMask (s.stopped core slots))) at hex
  generalize hids : s.stopped core slots = ids at hout hex
  obtain ⟨hl, hg, hp⟩ := ha
  have hother : ∀ i, i ∉ ids → (s.stopAll ids).stream? i = s.stream? i := fun i hi => s.onLanes_other Stream.stop (fun _ => rfl) hi
  have hstream : (s.stopAll ids).stream id = s.stream id := by rw [State.stream, hother id hout, State.stream]
  have hb : (s.stopAll ids).Alone g id := by
    refine ⟨hl, by rw [hstream]; exact hg, fun i hi => ?_⟩
    rw [List.mem_singleton.mp hi, hother id hout]
    exact hp id (List.mem_singleton_self id)
  obtain ⟨⟨h1, h2⟩, h3⟩ := State.retired_one hb (f := fun st => st.wr d (slotMask ids)) (fun st => Stream.wr_id _ _ _)
  refine ⟨_, slotMask ids, hex, h1.trans rfl, fun k hk => ?_, by rw [h3, hstream]; rfl, fun k x hk hhit hx hsome => ?_⟩
  · rw [getLsbD_slotMask ids hk, ← hids, Bool.eq_iff_iff, List.any_eq_true, Bool.and_eq_true, decide_eq_true_eq, Bool.and_eq_true]
    constructor
    · rintro ⟨x, hx, hu⟩
      obtain ⟨k', hk', hs, st, hst, rfl⟩ := State.mem_stopped.mp hx
      rw [beq_iff_eq, State.carterSlot_unit hst] at hu
      subst hu
      exact ⟨hk', hs, by rw [hst]; rfl⟩
    · rintro ⟨hk4, hs, hsome⟩
      obtain ⟨st, hst⟩ := Option.isSome_iff_exists.mp hsome
      exact ⟨st.id, State.mem_stopped.mpr ⟨k, hk4, hs, st, hst, rfl⟩, by rw [State.carterSlot_unit hst]; exact beq_self_eq_true k⟩
  · have hxin : x.id ∈ ids := by
      rw [← hids]
      exact State.mem_stopped.mpr ⟨k, hk, (Bool.and_eq_true_iff.mp hhit).1, x, hx, rfl⟩
    have hxs : (s.stopAll ids).stream x.id = (s.stream x.id).stop :=
      s.onLanes_listed (f := Stream.stop) (fun _ => rfl) hxin (by rw [hsome]; rfl)
    have hxst : s.stream x.id = x := by rw [State.stream, hsome]; rfl
    rw [State.stream, h2 x.id (by simpa using hself k x hk hx), ← State.stream, hxs, hxst]
    rfl
end Stop

end Sys2Proof.Machine
end
section
/-! PROOFS. Carter transfers (R259, R276 to R278). -/
namespace Sys2Proof.Machine

/-! ### A transfer starts -/

section Start
variable {s u : State} {o : CarOp} {st : Stream} {key : Nat} {gather store : Bool} {cs : List (Option Checked)} {x : Xfer}

theorem foldl_still {α β : Type} {f : α → β → α} {a : α} {l : List β} (h : ∀ b ∈ l, f a b = a) : l.foldl f a = a := by
  induction l with
  | nil => rfl
  | cons b l ih =>
    rw [List.foldl_cons, h b List.mem_cons_self]
    exact ih fun c hc => h c (List.mem_cons_of_mem _ hc)
/-- The transfer that an instruction starts. -/
def State.newXfer (s : State) (o : CarOp) (st : Stream) (key : Nat) (gather store : Bool) (cs : List (Option Checked)) : Xfer :=
  ⟨s.nextOp, st.id, key / 32, key % 32, (s.team st.id.tcx).recd.groupW, gather, store,
    cs.map fun c => c.map fun c => (BitVec.ofNat 64 c.va, c.loc), 2 ^ o.esz.toNat, o.sx, o.bulk, [], [], 0⟩
theorem State.newXfer_key : (s.newXfer o st key gather store cs).key = key := Nat.div_add_mod key 32
/-- The transfer is there, and its lane counted. -/
def State.withXfer (s : State) (x : Xfer) (k : Nat) : State :=
  { s with nextOp := s.nextOp + 1, qu := { s.qu with xfers := s.qu.xfers ++ [x] } }.onLane x.sid (Stream.counted k)
/-- One read of a load or gather. -/
def State.readOp (x : Xfer) (asid : BitVec 16) (tag : Nat) (sx : Bool) (s : State) (r : Checked × List Nat) : MemOp :=
  let op := elemOp x s.nextOp (.elemLoad x.num r.2 sx) (BitVec.ofNat 64 r.1.va) r.1.loc 0 tag
  { op with phase := (s.sendPhase asid op).1 }
def State.readElem (x : Xfer) (asid : BitVec 16) (tag : Nat) (sx : Bool) (s : State) (r : Checked × List Nat) : State :=
  { s.onXfer x.num (fun x => { x with pending := x.pending + 1 }) with
    ops := s.ops ++ [s.readOp x asid tag sx r], nextOp := s.nextOp + 1 }
/-- The elements that have an address. -/
def addressed (cs : List (Option Checked)) : List (Nat × Checked) :=
  (List.range cs.length).filterMap fun i => ((cs[i]?).bind id).map fun c => (i, c)
/-- The reads of a transfer: for a gather, the first element of each distinct key reads for all of them. -/
def xferReads (gather store : Bool) (cs : List (Option Checked)) : List (Checked × List Nat) :=
  if store then []
  else if gather then ((addressed cs).filter fun e => ((addressed cs).find? fun f => f.2.loc.key == e.2.loc.key).map (·.1) == some e.1).map fun e =>
    (e.2, ((addressed cs).filter fun f => f.2.loc.key == e.2.loc.key).map (·.1))
  else (addressed cs).map fun e => (e.2, [e.1])
theorem State.startXfer_eq (h : ∀ c ∈ cs, ∀ k, c = some k → k.walked = none) : s.startXfer o st key gather store cs =
    ((xferReads gather store cs).foldl (State.readElem (s.newXfer o st key gather store cs) (s.team st.id.tcx).recd.asid
      ((s.team st.id.tcx).tag st.id) o.sx) (s.withXfer (s.newXfer o st key gather store cs) (if store then 1 else 0))).changed key := by
  unfold State.startXfer
  extract_lets t w ak s1 x s2 idx reads
  have h1 : s1 = s := foldl_still fun c hc => by
    cases c with
    | none => rfl
    | some k => exact s.touch_none _ ak (h _ hc k rfl)
  clear_value s1
  subst h1
  rfl
/-- Operations are outstanding, and every transfer waits for some of them. -/
def State.waiting (u : State) (os : List MemOp) (n : Nat) : State :=
  { u with ops := u.ops ++ os, nextOp := u.nextOp + n
           qu := { u.qu with xfers := u.qu.xfers.map fun y => { y with pending := y.pending + n } } }
theorem State.waiting_add (u : State) (os os' : List MemOp) (n m : Nat) : (u.waiting os n).waiting os' m = u.waiting (os ++ os') (n + m) := by
  unfold State.waiting
  simp only [List.append_assoc, Nat.add_assoc, List.map_map, Function.comp_def]
theorem State.readElem_eq (asid : BitVec 16) (tag : Nat) (sx : Bool) (r : Checked × List Nat) (hnum : ∀ y ∈ u.qu.xfers, y.num = x.num) :
    ∃ op, u.readElem x asid tag sx r = u.waiting [op] 1 := by
  have hmap : (u.onXfer x.num fun x => { x with pending := x.pending + 1 }).qu.xfers =
      u.qu.xfers.map fun y => { y with pending := y.pending + 1 } := List.map_congr_left fun y hy => if_pos (hnum y hy)
  refine ⟨u.readOp x asid tag sx r, ?_⟩
  unfold State.readElem State.waiting
  rw [← hmap]
  rfl
/-- The reads of a transfer are outstanding, and it waits for them. -/
theorem State.readElems (asid : BitVec 16) (tag : Nat) (sx : Bool) (rs : List (Checked × List Nat)) (hnum : ∀ y ∈ u.qu.xfers, y.num = x.num) :
    ∃ os, os.length = rs.length ∧ rs.foldl (State.readElem x asid tag sx) u = u.waiting os rs.length := by
  induction rs generalizing u with
  | nil => exact ⟨[], rfl, by simp [State.waiting]⟩
  | cons r rs ih =>
    obtain ⟨op, h1⟩ := State.readElem_eq asid tag sx r hnum
    obtain ⟨os, hlen, heq⟩ := ih (u := u.waiting [op] 1) fun y hy => by
      obtain ⟨z, hz, rfl⟩ := List.mem_map.mp hy
      exact hnum z hz
    refine ⟨op :: os, congrArg (· + 1) hlen, ?_⟩
    rw [List.foldl_cons, h1, heq, State.waiting_add, List.length_cons, Nat.add_comm 1]
    rfl
end Start

/-! ### The one transfer of a device is served -/

section Serve
variable {u : State} {x : Xfer} {key : Nat}

theorem State.setQueue_entries (es : List QEntry) : ((u.setQueue key es).queue key).entries = es :=
  congrArg Queue.entries (sget_sset_same _ _ _ _)
theorem State.reserveEntry_entries (mask : DWord) (missing : Nat) : ((u.reserveEntry key mask missing).2.queue key).entries =
    (u.queue key).entries ++ [⟨u.qu.serial, [], mask, if missing = 0 then .ready else .reserved, missing⟩] :=
  State.setQueue_entries _
theorem State.endXfers_waiting (hx : u.qu.xfers = [x]) (h : x.unserved = true ∨ x.pending ≠ 0) : u.endXfers = u := by
  have hkeep : (x.unserved || x.pending != 0) = true := by simpa using h
  have hdone : u.qu.xfers.filter (fun x => !x.unserved && x.pending == 0) = [] := by
    have hno : (!x.unserved && x.pending == 0) = false := by
      rw [Bool.and_eq_false_iff, Bool.not_eq_false', beq_eq_false_iff_ne]
      exact h
    rw [hx, List.filter_singleton, hno]
    rfl
  have hleft : u.qu.xfers.filter (fun x => x.unserved || x.pending != 0) = u.qu.xfers := by
    rw [hx, List.filter_singleton, hkeep]
    rfl
  unfold State.endXfers
  dsimp only
  rw [hdone, List.foldl_nil, hleft]
theorem State.onXfer_one (hx : u.qu.xfers = [x]) (f : Xfer → Xfer) : (u.onXfer x.num f).qu.xfers = [f x] := by
  unfold State.onXfer
  dsimp only
  rw [hx, List.map_singleton, if_pos rfl]
/-- The entry that a load or gather reserves next. -/
theorem State.reserveNext_frame (hx : u.qu.xfers = [x]) : u.reserveNext x = { u with qu := (u.reserveNext x).qu } ∧
    (u.reserveNext x).qu.xfers = [{ x with entries := x.entries ++ [u.qu.serial] }] := by
  refine ⟨rfl, ?_⟩
  exact State.onXfer_one (u := ((u.reserveEntry x.key (maskOf ((x.elemsOf x.entries.length).map (· % x.w)))
    _).2.setQueue x.key _)) hx fun x => { x with entries := x.entries ++ [u.qu.serial] }
theorem State.serveStore_load (hx : u.qu.xfers = [x]) (hs : x.store = false) : u.serveStore key = none := by
  unfold State.serveStore
  simp [hx, hs]
theorem State.serveLoad_one (hx : u.qu.xfers = [x]) : u.serveLoad key = none ∨ u.serveLoad key = some (u.reserveNext x) := by
  unfold State.serveLoad
  rw [hx, List.find?_singleton]
  split
  · next y hy =>
    have : y = x := by
      split at hy
      · exact (Option.some.inj hy).symm
      · cases hy
    subst this
    split
    · exact .inr rfl
    · exact .inl rfl
  · exact .inl rfl
/-- What waits is served: the transfer may reserve entries, and nothing else of the device changes. -/
theorem State.serveQueue_load (n : Nat) (hx : u.qu.xfers = [x]) (hs : x.store = false) :
    u.serveQueue key n = { u with qu := (u.serveQueue key n).qu } ∧ ∃ es, (u.serveQueue key n).qu.xfers = [{ x with entries := es }] := by
  induction n generalizing u x with
  | zero => exact ⟨rfl, x.entries, hx⟩
  | succ n ih =>
    have hserve : u.serveQueue key (n + 1) = (u.serveLoad key).elim u fun s1 => s1.serveQueue key n := by
      rw [State.serveQueue, State.serveStore_load hx hs, Option.none_or]
      cases u.serveLoad key with
      | none => rfl
      | some s1 => rfl
    rcases State.serveLoad_one (key := key) hx with h | h
    · rw [hserve, h, Option.elim_none]
      exact ⟨rfl, x.entries, hx⟩
    · obtain ⟨hf, hx'⟩ := State.reserveNext_frame hx
      obtain ⟨h1, es, h2⟩ := ih (x := { x with entries := x.entries ++ [u.qu.serial] }) hx' hs
      rw [hserve, h, Option.elim_some]
      exact ⟨h1.trans (by rw [hf]), es, h2⟩
theorem State.serveQueue_idle (n : Nat) (h1 : u.serveStore key = none) (h2 : u.serveLoad key = none) : u.serveQueue key n = u := by
  cases n with
  | zero => rfl
  | succ n => rw [State.serveQueue, h1, h2]; rfl
theorem Xfer.total_one (h0 : 0 < x.elems.length) (hw : x.elems.length ≤ x.w) : x.total = 1 := by
  unfold Xfer.total
  rw [show x.elems.length + x.w - 1 = x.w + (x.elems.length - 1) by omega, Nat.add_div_left _ (by omega),
    Nat.div_eq_of_lt (by omega)]
theorem Xfer.elemsOf_zero (hw : x.elems.length ≤ x.w) : x.elemsOf 0 = List.range x.elems.length := by
  have hfil : ∀ w : Nat, (List.range w).filterMap (fun i => if 0 * x.w + i < x.elems.length then some (0 * x.w + i) else none) =
      List.range (min w x.elems.length) := by
    intro w
    induction w with
    | zero => simp
    | succ w ih =>
      rw [List.range_succ, List.filterMap_append, ih]
      by_cases h : w < x.elems.length
      · rw [Nat.min_eq_left (by omega), Nat.min_eq_left (by omega), List.range_succ]
        simp [h]
      · rw [Nat.min_eq_right (by omega), Nat.min_eq_right (by omega)]
        simp [h]
  rw [Xfer.elemsOf, hfil, Nat.min_eq_right hw]
/-- A load that has its elements all before it reserves one entry for them. -/
theorem State.reserveNext_line (u : State) (he : x.entries = []) (hg : x.got = []) (h0 : 0 < x.elems.length)
    (hw : x.elems.length ≤ x.w) (hall : ∀ i, i < x.elems.length → (x.elems.getD i none).isNone = false) :
    ((u.reserveNext x).queue x.key).entries = (u.queue x.key).entries ++
      [⟨u.qu.serial, [], maskOf (List.range x.elems.length), .reserved, x.elems.length⟩] := by
  have hes := Xfer.elemsOf_zero hw
  have hmod : (List.range x.elems.length).map (· % x.w) = List.range x.elems.length := by
    refine (List.map_congr_left fun i hi => ?_).trans (List.map_id _)
    exact Nat.mod_eq_of_lt (Nat.lt_of_lt_of_le (List.mem_range.mp hi) hw)
  have hhave : (List.range x.elems.length).filterMap (fun i => match x.got.find? fun g => g.1 = i with
      | some (_, v) => some (i, v)
      | none => if (x.elems.getD i none).isNone then some (i, 0xFFFFFFFF) else none) = [] := by
    refine List.filterMap_eq_nil_iff.mpr fun i hi => ?_
    rw [hg]
    exact if_neg (by rw [hall i (List.mem_range.mp hi)]; exact Bool.false_ne_true)
  have hlist : ∀ (l : List QEntry) (serial : Nat), l.map (fun e => if e.serial = serial then
      { e with elems := ([] : List (Nat × Word)).foldl (fun m p => sset 0 m (p.1 % x.w) p.2) e.elems } else e) = l := fun l serial =>
    (List.map_congr_left fun e _ => by split <;> rfl).trans (List.map_id l)
  have hne : x.elems.length ≠ 0 := Nat.pos_iff_ne_zero.mp h0
  unfold State.reserveNext
  extract_lets n es have_
  have h1 : es = List.range x.elems.length := by
    dsimp only [es, n]
    rw [he]
    exact hes
  have h2 : have_ = [] := by
    dsimp only [have_]
    rw [h1]
    exact hhave
  clear_value es have_
  subst h1 h2
  dsimp only
  change ((State.setQueue _ x.key _).queue x.key).entries = _
  rw [State.setQueue_entries, hlist, State.reserveEntry_entries, hmod, List.length_range, List.length_nil, Nat.sub_zero, if_neg hne]
/-- A load of one line is served: its entry is the tail of its queue, and its data are awaited. -/
theorem State.changed_load (hx : u.qu.xfers = [x]) (hs : x.store = false) (he : x.entries = []) (hg : x.got = [])
    (h0 : 0 < x.elems.length) (hw : x.elems.length ≤ x.w) (hall : ∀ i, i < x.elems.length → (x.elems.getD i none).isNone = false)
    (hp : x.pending ≠ 0) (hfree : 0 < (u.queue x.key).free) (hheld : u.held x.key false = false) :
    ∃ q, u.changed x.key = { u with qu := q } ∧ ((u.changed x.key).queue x.key).entries = (u.queue x.key).entries ++
      [⟨u.qu.serial, [], maskOf (List.range x.elems.length), .reserved, x.elems.length⟩] := by
  have huns : x.unserved = true := by
    rw [Xfer.unserved, he, Xfer.total_one h0 hw]
    rfl
  have hload : u.serveLoad x.key = some (u.reserveNext x) := by
    unfold State.serveLoad
    rw [hx, List.find?_singleton, if_pos (by simp [hs, huns])]
    exact if_pos (by simp [hfree, hheld])
  obtain ⟨hf, hx'⟩ := State.reserveNext_frame hx
  have hidle : (u.reserveNext x).serveLoad x.key = none := by
    unfold State.serveLoad
    have hkey : ({ x with entries := x.entries ++ [u.qu.serial] } : Xfer).unserved = false := by
      unfold Xfer.unserved
      rw [show ({ x with entries := x.entries ++ [u.qu.serial] } : Xfer).total = x.total from rfl, Xfer.total_one h0 hw]
      simp
    rw [hx', List.find?_singleton, if_neg (by simp [hkey])]
  have hq : u.changed x.key = u.reserveNext x := by
    unfold State.changed
    rw [State.serveQueue, State.serveStore_load hx hs, Option.none_or, hload]
    dsimp only
    rw [State.serveQueue_idle 63 (State.serveStore_load hx' hs) hidle]
    exact State.endXfers_waiting hx' (.inr hp)
  rw [hq]
  exact ⟨_, hf, State.reserveNext_line u he hg h0 hw hall⟩
/-- A gather is served as far as its queue has room. -/
theorem State.changed_gather (hx : u.qu.xfers = [x]) (hs : x.store = false) (hp : x.pending ≠ 0) :
    ∃ q es, u.changed key = { u with qu := q } ∧ q.xfers = [{ x with entries := es }] := by
  obtain ⟨h1, es, h2⟩ := State.serveQueue_load (key := key) 64 hx hs
  have hq : u.changed key = u.serveQueue key 64 := State.endXfers_waiting h2 (.inr hp)
  exact ⟨_, es, hq.trans h1, h2⟩
/-- A scatter whose queue is empty waits. -/
theorem State.changed_scatter (hx : u.qu.xfers = [x]) (hs : x.store = true) (huns : x.unserved = true) (hempty : (u.queue key).entries = []) :
    u.changed key = u := by
  have h1 : u.serveStore key = none := by
    unfold State.serveStore
    rw [hempty]
    split
    · next h => cases h
    · rfl
  have h2 : u.serveLoad key = none := by
    unfold State.serveLoad
    rw [hx, List.find?_singleton, if_neg (by simp [hs])]
  unfold State.changed
  rw [State.serveQueue_idle 64 h1 h2]
  exact State.endXfers_waiting hx (.inl huns)

/-! #### A store of one line -/

/-- The operation of one element of an entry. -/
def State.storeOp (s : State) (x : Xfer) (e : QEntry) (i : Nat) (va : DWord) (loc : Loc) : MemOp :=
  { elemOp x s.nextOp (.elemStore x.num) va loc (sget 0 e.elems (i % x.w)) ((s.team x.sid.tcx).tag x.sid) with
    phase := if !loc.cxl then .issued else if s.links.cxlUp then .sent s.gts 1 none else .failed cLinkLost 0 }
/-- One element of an entry is stored where its bit is set. -/
def State.storeElem (x : Xfer) (e : QEntry) (s : State) (i : Nat) : State :=
  match x.elems.getD i none with
  | none => s
  | some (va, loc) =>
    if e.mask.getLsbD (i % x.w) then
      { s.onXfer x.num (fun x => { x with pending := x.pending + 1 }) with ops := s.ops ++ [s.storeOp x e i va loc], nextOp := s.nextOp + 1 }
    else s
theorem State.storeElems_eq (s : State) (x : Xfer) (n : Nat) (e : QEntry) : s.storeElems x n e = (x.elemsOf n).foldl (State.storeElem x e) s := rfl
theorem State.storeElem_eq {e : QEntry} {i : Nat} (hnum : ∀ y ∈ u.qu.xfers, y.num = x.num) (hsome : (x.elems.getD i none).isNone = false)
    (hbit : e.mask.getLsbD (i % x.w) = true) : ∃ op : MemOp, op.kind = .elemStore x.num ∧ op.size = x.size ∧
      u.storeElem x e i = u.waiting [op] 1 := by
  obtain ⟨⟨va, loc⟩, hel⟩ := Option.ne_none_iff_exists'.mp fun h : x.elems.getD i none = none => by
    rw [h] at hsome
    cases hsome
  have hmap : (u.onXfer x.num fun x => { x with pending := x.pending + 1 }).qu.xfers =
      u.qu.xfers.map fun y => { y with pending := y.pending + 1 } := List.map_congr_left fun y hy => if_pos (hnum y hy)
  refine ⟨u.storeOp x e i va loc, rfl, rfl, ?_⟩
  unfold State.storeElem State.waiting
  rw [hel, ← hmap]
  exact if_pos hbit
/-- The stores of the elements of an entry whose bits are set are outstanding. -/
theorem State.storeElem_ops (x : Xfer) (e : QEntry) (is : List Nat) (u : State) (hnum : ∀ y ∈ u.qu.xfers, y.num = x.num)
    (hall : ∀ i ∈ is, (x.elems.getD i none).isNone = false ∧ e.mask.getLsbD (i % x.w) = true) :
    ∃ os : List MemOp, os.length = is.length ∧ (∀ o ∈ os, o.kind = .elemStore x.num ∧ o.size = x.size) ∧
      is.foldl (State.storeElem x e) u = u.waiting os is.length := by
  induction is generalizing u with
  | nil => exact ⟨[], rfl, fun _ h => absurd h List.not_mem_nil, by simp [State.waiting]⟩
  | cons i is ih =>
    obtain ⟨hsome, hbit⟩ := hall i List.mem_cons_self
    obtain ⟨op, hkind, hsize, hone⟩ := State.storeElem_eq hnum hsome hbit
    obtain ⟨os, hlen, hk, heq⟩ := ih (u.waiting [op] 1) (fun y hy => by
      obtain ⟨z, hz, rfl⟩ := List.mem_map.mp hy
      exact hnum z hz) fun j hj => hall j (List.mem_cons_of_mem _ hj)
    refine ⟨op :: os, congrArg (· + 1) hlen, fun o ho => ?_, ?_⟩
    · rcases List.mem_cons.mp ho with rfl | ho
      · exact ⟨hkind, hsize⟩
      · exact hk o ho
    · rw [List.foldl_cons, hone, heq, State.waiting_add, List.length_cons, Nat.add_comm 1]
      rfl
theorem readyRun_pos {l : List QEntry} (h : 0 < readyRun l) : ∃ e r, l = e :: r ∧ e.state = .ready := by
  cases l with
  | nil => cases h
  | cons e r =>
    refine ⟨e, r, rfl, ?_⟩
    by_contra hne
    rw [readyRun, if_neg hne] at h
    cases h
/-- A store of one line pops the head of its queue, and its elements are outstanding. -/
theorem State.changed_store {e : QEntry} {r : List QEntry} (hx : u.qu.xfers = [x]) (hs : x.store = true) (he : x.entries = [])
    (h0 : 0 < x.elems.length) (hw : x.elems.length ≤ x.w) (hall : ∀ i, i < x.elems.length → (x.elems.getD i none).isNone = false)
    (hq : (u.queue x.key).entries = e :: r) (hr : e.state = .ready) (hheld : u.held x.key true = false)
    (hbits : ∀ i, i < x.elems.length → e.mask.getLsbD i = true) :
    ∃ (os : List MemOp) (q : Queues), os.length = x.elems.length ∧ (∀ o ∈ os, o.kind = .elemStore x.num ∧ o.size = x.size) ∧
      u.changed x.key = { u with ops := u.ops ++ os, nextOp := u.nextOp + x.elems.length, qu := q } ∧
      ((u.changed x.key).queue x.key).entries = r := by
  let y : Xfer := { x with entries := [e.serial] }
  let v : State := (u.setQueue x.key r).onXfer x.num fun x => { x with entries := x.entries ++ [e.serial] }
  have hv : v.qu.xfers = [y] := by
    refine (State.onXfer_one (u := u.setQueue x.key r) hx fun x => { x with entries := x.entries ++ [e.serial] }).trans ?_
    rw [he]
    rfl
  obtain ⟨os, hlen, hk, hfold⟩ := State.storeElem_ops x e (List.range x.elems.length) v (fun z hz => by
    rw [hv, List.mem_singleton] at hz
    rw [hz]) fun i hi => by
      have hi' := List.mem_range.mp hi
      rw [Nat.mod_eq_of_lt (Nat.lt_of_lt_of_le hi' hw)]
      exact ⟨hall i hi', hbits i hi'⟩
  rw [List.length_range] at hlen hfold
  have huns : x.unserved = true := by
    rw [Xfer.unserved, he, Xfer.total_one h0 hw]
    rfl
  have hserve : u.serveStore x.key = some (v.waiting os x.elems.length) := by
    unfold State.serveStore
    rw [hx, List.find?_singleton, if_pos (by simp [hs, huns]), hq]
    refine (if_pos (by simp [hr, hheld])).trans (congrArg some ?_)
    rw [State.storeElems_eq, he, List.length_nil, Xfer.elemsOf_zero hw]
    exact hfold
  have hxs : (v.waiting os x.elems.length).qu.xfers = [{ y with pending := y.pending + x.elems.length }] := by
    unfold State.waiting
    dsimp only
    rw [hv]
    rfl
  have hserved : ({ y with pending := y.pending + x.elems.length } : Xfer).unserved = false := by
    unfold Xfer.unserved
    rw [show ({ y with pending := y.pending + x.elems.length } : Xfer).total = x.total from rfl, Xfer.total_one h0 hw]
    rfl
  have hidle1 : (v.waiting os x.elems.length).serveStore x.key = none := by
    unfold State.serveStore
    rw [hxs, List.find?_singleton, if_neg (by simp [hserved])]
  have hidle2 : (v.waiting os x.elems.length).serveLoad x.key = none := by
    unfold State.serveLoad
    rw [hxs, List.find?_singleton, if_neg (by simp [hserved])]
  have hch : u.changed x.key = v.waiting os x.elems.length := by
    unfold State.changed
    rw [State.serveQueue, hserve, Option.some_or]
    dsimp only
    rw [State.serveQueue_idle 63 hidle1 hidle2]
    refine State.endXfers_waiting hxs (.inr ?_)
    dsimp only
    omega
  rw [hch]
  exact ⟨os, _, hlen, hk, rfl, State.setQueue_entries (u := u) r⟩
end Serve

end Sys2Proof.Machine
end
section
/-! PROOFS. The transfer instructions (R276 to R278). -/
namespace Sys2Proof.Machine

section Car
variable {s : State} {o : CarOp} {id : SId} {key : Nat} {cs : List (Option Checked)} {store : Bool}

theorem carKill_id (o : CarOp) (p : Bool) (st : Stream) : (carKill o p st).id = st.id := by
  unfold carKill
  split
  · rw [Stream.kill64_id, Stream.kill64_id]
  · rw [Stream.kill_id, Stream.kill64_id]
theorem carKill_counted (o : CarOp) (p : Bool) (st : Stream) (k : Nat) :
    carKill o p (st.counted k) = { carKill o p st with cnt := st.cnt.add k 1 } := by
  have hcnt : (carKill o p st).cnt = st.cnt := by
    unfold carKill
    split
    · rw [Stream.kill64_cnt, Stream.kill64_cnt]
    · rw [Stream.kill_cnt, Stream.kill64_cnt]
  have hc : carKill o p (st.counted k) = (carKill o p st).counted k := by
    unfold carKill
    split
    · rw [Stream.kill64_counted, Stream.kill64_counted]
    · rw [Stream.kill64_counted, Stream.kill_counted]
  rw [hc, Stream.counted, hcnt]
/-- Checks that all pass give one translation for each address. -/
theorem State.xferChecks_some {ak : AK} {n : Nat} {as : List (Option DWord)} (has : ∀ a ∈ as, a.isSome = true)
    (h : s.xferChecks id ak n as = .ok cs) : cs.length = as.length ∧ ∀ c ∈ cs, c.isSome = true := by
  induction as generalizing cs with
  | nil =>
    cases h
    exact ⟨rfl, fun _ h => absurd h List.not_mem_nil⟩
  | cons a as ih =>
    obtain ⟨b, rfl⟩ := Option.isSome_iff_exists.mp (has a List.mem_cons_self)
    unfold State.xferChecks at h
    split at h
    · cases h
    · split at h
      · cases h
      · next cs' hcs =>
        cases h
        obtain ⟨hlen, hall⟩ := ih (fun a ha => has a (List.mem_cons_of_mem _ ha)) hcs
        refine ⟨congrArg (· + 1) hlen, fun c hc => ?_⟩
        rcases List.mem_cons.mp hc with rfl | hc
        · rfl
        · exact hall c hc
theorem addressed_all (h : ∀ c ∈ cs, c.isSome = true) : (addressed cs).length = cs.length ∧ ∀ e ∈ addressed cs, cs[e.1]? = some (some e.2) := by
  unfold addressed
  constructor
  · rw [List.filterMap_length_eq_length.mpr, List.length_range]
    intro i hi
    rw [List.getElem?_eq_getElem (List.mem_range.mp hi), Option.bind_some, id_eq, Option.isSome_map]
    exact h _ (List.getElem_mem _)
  · intro e he
    obtain ⟨i, hi, hm⟩ := List.mem_filterMap.mp he
    obtain ⟨c, hc, rfl⟩ := Option.map_eq_some_iff.mp hm
    rw [List.getElem?_eq_getElem (List.mem_range.mp hi), Option.bind_some, id_eq] at hc
    rw [List.getElem?_eq_getElem (List.mem_range.mp hi), hc]
/-- Why a transfer of a line may start. -/
theorem State.lineXfer_starts (ha : s.Alone o.g id) (hk : s.portKey id o.p = some key) (ht : s.team? id.tcx = some s.curTeam)
    (hn : ((s.stream id).rd o.s2).toNat ≠ 0) (hw : ((s.stream id).rd o.s2).toNat ≤ s.curTeam.recd.groupW)
    (hc : (if store then (s.stream id).cnt.st else (s.stream id).cnt.ld) < 254)
    (hcs : s.xferChecks id (if store then .store else .load) (2 ^ o.esz.toNat) ((List.range ((s.stream id).rd o.s2).toNat).map fun i =>
      some ((s.stream id).rd64 o.s1 + BitVec.ofNat 64 i *
        (if o.str then ((s.stream id).rd o.s3).signExtend 64 else BitVec.ofNat 64 (2 ^ o.esz.toNat)))) = .ok cs)
    (hroom : s.xferRoom key ((s.stream id).rd o.s2).toNat false store = true) :
    s.lineXfer o store = (s.startXfer o (s.stream id) key false store cs).retireLanes o.g (carKill o false) := by
  have hteam : s.team id.tcx = s.curTeam := by rw [State.team, ht]; rfl
  have hfull : s.counterFull [id] (if store then 1 else 0) = false := by
    unfold State.counterFull
    cases store <;> simpa [Counters.get] using hc
  unfold State.lineXfer
  rw [State.lowest_alone ha]
  dsimp only
  rw [s.stream_id, hk, hteam]
  dsimp only
  rw [if_neg (Nat.not_lt.mpr hw), if_neg hn, hfull, if_neg Bool.false_ne_true, hcs]
  dsimp only
  rw [hroom]
  rfl
theorem State.lineXfer_empty (ha : s.Alone o.g id) (hk : (s.portKey id o.p).isSome = true) (hn : (s.stream id).rd o.s2 = 0) :
    s.lineXfer o store = s.retireLanes o.g (carKill o false) := by
  obtain ⟨key, hk⟩ := Option.isSome_iff_exists.mp hk
  unfold State.lineXfer
  rw [State.lowest_alone ha]
  dsimp only
  rw [s.stream_id, hk]
  dsimp only
  rw [hn]
  exact (if_neg (Nat.not_lt_zero _)).trans (if_pos rfl)

/-- What a transfer that starts leaves of the queue it uses, and the transfer. -/
theorem State.withXfer_queue (x : Xfer) (k : Nat) (os : List MemOp) (n : Nat) (key : Nat) :
    ((s.withXfer x k).waiting os n).queue key = s.queue key := rfl
theorem State.withXfer_xfers (x : Xfer) (k : Nat) (os : List MemOp) (n : Nat) (hx : s.qu.xfers = []) :
    ((s.withXfer x k).waiting os n).qu.xfers = [{ x with pending := x.pending + n }] := by
  unfold State.waiting State.withXfer State.onLane State.onLanes
  dsimp only
  rw [hx]
  rfl
theorem newXfer_elems {st : Stream} {gather : Bool} (hall : ∀ c ∈ cs, c.isSome = true) :
    (s.newXfer o st key gather store cs).elems.length = cs.length ∧
      ∀ i, i < cs.length → ((s.newXfer o st key gather store cs).elems.getD i none).isNone = false := by
  refine ⟨List.length_map _, fun i hi => ?_⟩
  obtain ⟨c, hc⟩ := Option.isSome_iff_exists.mp (hall _ (List.getElem_mem hi))
  unfold State.newXfer
  simp only [List.getD_eq_getElem?_getD, List.getElem?_map, List.getElem?_eq_getElem hi, hc, Option.map_some, Option.getD_some,
    Option.isNone_some]
/-- A load of a line starts: one entry reserved, and one read of each element outstanding. -/
theorem State.startXfer_load (hx : s.qu.xfers = []) (st : Stream) (hlocal : ∀ c ∈ cs, ∀ k, c = some k → k.walked = none)
    (hall : ∀ c ∈ cs, c.isSome = true) (h0 : 0 < cs.length) (hw : cs.length ≤ (s.team st.id.tcx).recd.groupW)
    (hroom : s.xferRoom key cs.length false false = true) : ∃ (os : List MemOp) (q : Queues), os.length = cs.length ∧
      s.startXfer o st key false false cs = { s.onLane st.id (Stream.counted 0) with
        ops := s.ops ++ os, nextOp := s.nextOp + 1 + cs.length, qu := q } ∧
      ((s.startXfer o st key false false cs).queue key).entries = (s.queue key).entries ++
        [⟨s.qu.serial, [], maskOf (List.range cs.length), .reserved, cs.length⟩] := by
  let x := s.newXfer o st key false false cs
  obtain ⟨hlen, hsome⟩ := newXfer_elems (s := s) (o := o) (key := key) (store := false) (st := st) (gather := false) hall
  have hreads : (xferReads false false cs).length = cs.length := (List.length_map _).trans (addressed_all hall).1
  obtain ⟨os, hos, hfold⟩ := State.readElems (u := s.withXfer x 0) (x := x) (s.team st.id.tcx).recd.asid ((s.team st.id.tcx).tag st.id) o.sx
    (xferReads false false cs) fun y hy => by
      have hy' : y ∈ s.qu.xfers ++ [x] := hy
      rw [hx, List.nil_append, List.mem_singleton] at hy'
      rw [hy']
  rw [hreads] at hos hfold
  have hkey : x.key = key := State.newXfer_key
  have hfree : s.held key false = false ∧ 0 < (s.queue key).free := by
    unfold State.xferRoom at hroom
    simp only [Bool.and_eq_true, Bool.false_eq_true, if_false, decide_eq_true_eq] at hroom
    have hf := hroom.1.1
    unfold State.freeOf at hf
    split at hf
    · exact absurd hf (Nat.lt_irrefl 0)
    · next h =>
      rw [Bool.or_eq_true, not_or, Bool.not_eq_true] at h
      exact ⟨h.1, hf⟩
  obtain ⟨q, hq, hentries⟩ := State.changed_load (x := { x with pending := x.pending + cs.length })
    (s.withXfer_xfers x 0 os cs.length hx) rfl rfl rfl (by rw [hlen]; exact h0) (by rw [hlen]; exact hw)
    (fun i hi => hsome i (by rw [← hlen]; exact hi)) (by dsimp only; omega)
    (by rw [State.withXfer_queue]; exact (hkey ▸ hfree.2 : 0 < (s.queue x.key).free)) (hkey ▸ hfree.1 : s.held x.key false = false)
  have heq : s.startXfer o st key false false cs = ((s.withXfer x 0).waiting os cs.length).changed key := by
    rw [State.startXfer_eq hlocal]
    exact congrArg (fun u : State => u.changed key) hfold
  have hkey' : ({ x with pending := x.pending + cs.length } : Xfer).key = key := hkey
  rw [hkey'] at hq hentries
  rw [heq]
  refine ⟨os, q, hos, hq.trans rfl, hentries.trans ?_⟩
  rw [State.withXfer_queue, show ({ x with pending := x.pending + cs.length } : Xfer).elems.length = cs.length from hlen]
  rfl
/-- A store of a line starts: the head of its queue popped, and one store of each element outstanding. -/
theorem State.startXfer_store {e : QEntry} {r : List QEntry} (hx : s.qu.xfers = []) (st : Stream)
    (hlocal : ∀ c ∈ cs, ∀ k, c = some k → k.walked = none) (hall : ∀ c ∈ cs, c.isSome = true) (h0 : 0 < cs.length)
    (hw : cs.length ≤ (s.team st.id.tcx).recd.groupW) (hroom : s.xferRoom key cs.length false true = true)
    (hq : (s.queue key).entries = e :: r) (hbits : ∀ i, i < cs.length → e.mask.getLsbD i = true) :
    ∃ (os : List MemOp) (q : Queues), os.length = cs.length ∧ (∀ y ∈ os, y.kind = .elemStore s.nextOp ∧ y.size = 2 ^ o.esz.toNat) ∧
      s.startXfer o st key false true cs = { s.onLane st.id (Stream.counted 1) with
        ops := s.ops ++ os, nextOp := s.nextOp + 1 + cs.length, qu := q } ∧
      ((s.startXfer o st key false true cs).queue key).entries = r := by
  let x := s.newXfer o st key false true cs
  obtain ⟨hlen, hsome⟩ := newXfer_elems (s := s) (o := o) (key := key) (store := true) (st := st) (gather := false) hall
  have hkey : x.key = key := State.newXfer_key
  have hxs : (s.withXfer x 1).qu.xfers = [x] := by
    change s.qu.xfers ++ [x] = [x]
    rw [hx, List.nil_append]
  have hready : s.held key true = false ∧ 0 < (s.queue key).ready := by
    unfold State.xferRoom at hroom
    simp only [Bool.and_eq_true, if_true, Bool.false_or, decide_eq_true_eq, Bool.not_eq_true'] at hroom
    exact ⟨hroom.1.1.2, hroom.1.1.1⟩
  have hr : e.state = .ready := by
    obtain ⟨e', r', h', hst⟩ := readyRun_pos hready.2
    rw [hq] at h'
    cases h'
    exact hst
  obtain ⟨os, q, hos, hk, hch, hentries⟩ := State.changed_store (u := s.withXfer x 1) hxs rfl rfl (by rw [hlen]; exact h0)
    (by rw [hlen]; exact hw) (fun i hi => hsome i (by rw [← hlen]; exact hi)) (hkey ▸ hq : (s.queue x.key).entries = e :: r) hr
    (hkey ▸ hready.1 : s.held x.key true = false) (fun i hi => hbits i (by rw [← hlen]; exact hi))
  rw [hkey] at hch hentries
  rw [hlen] at hos hch
  have heq : s.startXfer o st key false true cs = (s.withXfer x 1).changed key := State.startXfer_eq hlocal
  rw [heq]
  exact ⟨os, q, hos, hk, hch.trans rfl, hentries⟩
end Car

end Sys2Proof.Machine
end
section
/-! PROOFS. What the transfer instructions answer (R276 to R278). -/
namespace Sys2Proof.Machine

theorem maskOf_range (n i : Nat) (hi : i < 64) : (maskOf (List.range n)).getLsbD i = decide (i < n) := by
  rw [getLsbD_maskOf _ _ hi, Bool.eq_iff_iff]
  simp

section Line
variable {s : State} {o : CarOp} {id : SId} {key : Nat} {cs : List (Option Checked)}

theorem local_walked {k : Checked} (h : k.Local) : k.walked = none := h.2.2.2

/-- `aload` of n elements: the tail of its queue reserved, and n reads outstanding. -/
theorem aload_answers (ha : s.Alone o.g id) (hx : s.qu.xfers = []) (hk : s.portKey id o.p = some key)
    (hn : ((s.stream id).rd o.s2).toNat ≠ 0) (hw : ((s.stream id).rd o.s2).toNat ≤ s.curTeam.recd.groupW)
    (ht : s.team? id.tcx = some s.curTeam) (hc : (s.stream id).cnt.ld < 254)
    (hcs : s.xferChecks id .load (2 ^ o.esz.toNat) ((List.range ((s.stream id).rd o.s2).toNat).map fun i =>
      some ((s.stream id).rd64 o.s1 + BitVec.ofNat 64 i *
        (if o.str then ((s.stream id).rd o.s3).signExtend 64 else BitVec.ofNat 64 (2 ^ o.esz.toNat)))) = .ok cs)
    (hl : ∀ c ∈ cs, ∀ k, c = some k → k.Local) (hroom : s.xferRoom key ((s.stream id).rd o.s2).toNat false false = true) :
    ∃ t e, exec (.aload o) s = .next t ∧ t.mem = s.mem ∧ (t.queue key).entries = (s.queue key).entries ++ [e] ∧
      e.state = .reserved ∧ e.missing = ((s.stream id).rd o.s2).toNat ∧
      (∀ i, i < 64 → e.mask.getLsbD i = decide (i < ((s.stream id).rd o.s2).toNat)) ∧
      t.ops.length = s.ops.length + ((s.stream id).rd o.s2).toNat ∧
      t.stream id = { carKill o false (s.stream id) with cnt := (s.stream id).cnt.add 0 1 }.goto s.cur.npc := by
  have hstart := State.lineXfer_starts (store := false) ha hk ht hn hw hc hcs hroom
  obtain ⟨hlen, hall⟩ := State.xferChecks_some (fun a h => by obtain ⟨i, -, rfl⟩ := List.mem_map.mp h; rfl) hcs
  rw [List.length_map, List.length_range] at hlen
  have hteam : s.team id.tcx = s.curTeam := by rw [State.team, ht]; rfl
  obtain ⟨os, q, hos, heq, hq⟩ := State.startXfer_load (o := o) (key := key) hx (s.stream id)
    (fun c hc k hk => local_walked (hl c hc k hk)) hall (by omega)
    (by rw [s.stream_id, hteam, hlen]; exact hw) (by rw [hlen]; exact hroom)
  rw [s.stream_id] at heq
  obtain ⟨hframe, hst, -⟩ := State.retired_counted (k := 0) (u := s.startXfer o (s.stream id) key false false cs) ha (carKill_id o false)
    (by rw [heq]; rfl) (by rw [heq])
  rw [hlen] at hos hq
  refine ⟨_, ⟨s.qu.serial, [], maskOf (List.range ((s.stream id).rd o.s2).toNat), .reserved, ((s.stream id).rd o.s2).toNat⟩,
    congrArg Host.Outcome.next hstart, ?_, ?_, rfl, rfl, fun i hi => maskOf_range _ i hi, ?_, ?_⟩
  · rw [hframe, heq]
    rfl
  · rw [hframe]
    exact hq
  · rw [hframe, heq]
    exact List.length_append.trans (by rw [hos])
  · rw [hst, carKill_counted]

/-- `astore` of n elements: the READY head of its queue popped, and n stores outstanding. -/
theorem astore_answers {e : QEntry} {r : List QEntry} (ha : s.Alone o.g id) (hx : s.qu.xfers = []) (hk : s.portKey id o.p = some key)
    (hn : ((s.stream id).rd o.s2).toNat ≠ 0) (hw : ((s.stream id).rd o.s2).toNat ≤ s.curTeam.recd.groupW)
    (ht : s.team? id.tcx = some s.curTeam) (hc : (s.stream id).cnt.st < 254)
    (hcs : s.xferChecks id .store (2 ^ o.esz.toNat) ((List.range ((s.stream id).rd o.s2).toNat).map fun i =>
      some ((s.stream id).rd64 o.s1 + BitVec.ofNat 64 i *
        (if o.str then ((s.stream id).rd o.s3).signExtend 64 else BitVec.ofNat 64 (2 ^ o.esz.toNat)))) = .ok cs)
    (hl : ∀ c ∈ cs, ∀ k, c = some k → k.Local) (hroom : s.xferRoom key ((s.stream id).rd o.s2).toNat false true = true)
    (hq : (s.queue key).entries = e :: r) (hbits : ∀ i, i < ((s.stream id).rd o.s2).toNat → e.mask.getLsbD i = true) :
    ∃ t, exec (.astore o) s = .next t ∧ t.mem = s.mem ∧ (t.queue key).entries = r ∧
      t.ops.length = s.ops.length + ((s.stream id).rd o.s2).toNat ∧
      (∀ x ∈ t.ops.drop s.ops.length, x.kind = .elemStore s.nextOp ∧ x.size = 2 ^ o.esz.toNat) ∧
      t.stream id = { carKill o false (s.stream id) with cnt := (s.stream id).cnt.add 1 1 }.goto s.cur.npc := by
  have hstart := State.lineXfer_starts (store := true) ha hk ht hn hw hc hcs hroom
  obtain ⟨hlen, hall⟩ := State.xferChecks_some (fun a h => by obtain ⟨i, -, rfl⟩ := List.mem_map.mp h; rfl) hcs
  rw [List.length_map, List.length_range] at hlen
  have hteam : s.team id.tcx = s.curTeam := by rw [State.team, ht]; rfl
  obtain ⟨os, q, hos, hkind, heq, hent⟩ := State.startXfer_store (o := o) (key := key) hx (s.stream id)
    (fun c hc k hk => local_walked (hl c hc k hk)) hall (by omega)
    (by rw [s.stream_id, hteam, hlen]; exact hw) (by rw [hlen]; exact hroom) hq (by rw [hlen]; exact hbits)
  rw [s.stream_id] at heq
  obtain ⟨hframe, hst, -⟩ := State.retired_counted (k := 1) (u := s.startXfer o (s.stream id) key false true cs) ha (carKill_id o false)
    (by rw [heq]; rfl) (by rw [heq])
  have hops : (s.startXfer o (s.stream id) key false true cs).ops = s.ops ++ os := by rw [heq]
  rw [hlen] at hos
  refine ⟨_, congrArg Host.Outcome.next hstart, ?_, ?_, ?_, ?_, ?_⟩
  · rw [hframe, heq]
    rfl
  · rw [hframe]
    exact hent
  · rw [hframe]
    dsimp only
    rw [hops, List.length_append, hos]
  · rw [hframe]
    dsimp only
    rw [hops, List.drop_left]
    exact hkind
  · rw [hst, carKill_counted]
end Line

/-! ### `agath` and `ascat` -/

theorem filterMap_id_some {α : Type} (l : List α) : (l.map some).filterMap id = l :=
  (List.filterMap_map ..).trans List.filterMap_some

section Index
variable {s s1 : State} {o : CarOp} {id : SId} {key : Nat} {ics cs : List Checked} {ws : List Word} {store : Bool}

theorem State.readIndices_length (s : State) (id : SId) (slot : Nat) (ics : List Checked) :
    (s.readIndices id slot ics).1.length = ics.length := by
  induction ics generalizing s with
  | nil => rfl
  | cons c r ih => exact congrArg (· + 1) (ih _)
/-- Why a transfer by indices may start. -/
theorem State.indexXfer_starts (ha : s.Alone o.g id) (hk : s.portKey id o.p = some key)
    (hn : ((s.stream id).rd o.s3).toNat ≠ 0) (hmax : ((s.stream id).rd o.s3).toNat ≤ 1024)
    (hc : (if store then (s.stream id).cnt.st else (s.stream id).cnt.ld) < 254)
    (hroom : s.xferRoom key ((s.stream id).rd o.s3).toNat true store = true)
    (hics : s.xferChecks id .load 4 ((List.range ((s.stream id).rd o.s3).toNat).map fun i =>
      some ((s.stream id).rd64 o.s2 + BitVec.ofNat 64 (4 * i))) = .ok (ics.map some))
    (hwait : ∀ c ∈ ics, s.mustWait id c = false) (hread : s.readIndices id (if store then 1 else 0) ics = (ws.map some, s1))
    (hcs : s1.xferChecks id (if store then .store else .load) (2 ^ o.esz.toNat) (ws.map fun w => some ((s.stream id).rd64 o.s1 +
      ((if o.str then w.signExtend 64 else w.setWidth 64 : DWord) <<< o.scale.toNat))) = .ok (cs.map some)) :
    s.indexXfer o store = (s1.startXfer o (s.stream id) key true store (cs.map some)).retireLanes o.g (carKill o true) := by
  have hfull : s.counterFull [id] (if store then 1 else 0) = false := by
    unfold State.counterFull
    cases store <;> simpa [Counters.get] using hc
  unfold State.indexXfer
  rw [State.lowest_alone ha]
  dsimp only
  rw [s.stream_id, hk]
  dsimp only
  rw [if_neg (Nat.not_lt.mpr hmax), if_neg hn, hfull, if_neg Bool.false_ne_true, hics]
  dsimp only
  rw [filterMap_id_some, List.any_eq_false.mpr fun c hc => by rw [hwait c hc]; exact Bool.false_ne_true, if_neg Bool.false_ne_true, hread]
  dsimp only
  rw [List.map_map]
  erw [hcs]
  dsimp only
  rw [hroom]
  rfl

/-- The lane that issues a transfer by indices, after its indices have been read. -/
structure State.IndexBase (s s1 : State) (g : Guard) (id : SId) : Prop where
  alone : s1.Alone g id
  cur : s1.cur = s.cur
  stream : s1.stream id = s.stream id
theorem State.IndexBase.of (ha : s.Alone o.g id) (hcur : s1.cur = s.cur) (hst : s1.stream id = s.stream id) (hp : s1.Present [id]) :
    s.IndexBase s1 o.g id := by
  obtain ⟨hl, hg, -⟩ := ha
  exact ⟨⟨by rw [hcur]; exact hl, by rw [hst]; exact hg, hp⟩, hcur, hst⟩
theorem xferReads_nonempty (h : cs ≠ []) : 0 < (xferReads true false (cs.map some)).length := by
  obtain ⟨c, r, rfl⟩ := List.exists_cons_of_ne_nil h
  have hmem : (0, c) ∈ addressed ((c :: r).map some) :=
    List.mem_filterMap.mpr ⟨0, List.mem_range.mpr (by simp), rfl⟩
  have hhead : (addressed ((c :: r).map some)).find? (fun f => f.2.loc.key == c.loc.key) = some (0, c) := by
    unfold addressed
    rw [List.map_cons, List.length_cons, List.range_succ_eq_map, List.filterMap_cons]
    exact List.find?_cons_of_pos (beq_self_eq_true _)
  have hreads : (c, ((addressed ((c :: r).map some)).filter fun f => f.2.loc.key == c.loc.key).map (·.1)) ∈
      xferReads true false ((c :: r).map some) :=
    List.mem_map.mpr ⟨(0, c), List.mem_filter.mpr ⟨hmem, by rw [hhead]; exact beq_self_eq_true _⟩, rfl⟩
  exact List.length_pos_of_mem hreads

variable (hb : s.IndexBase s1 o.g id) (hx : s1.qu.xfers = []) (hlocal : ∀ c ∈ cs, c.Local) (hne : cs ≠ [])
  (hlen : cs.length = ws.length)
include hb hx hlocal hne hlen

/-- A gather starts: its reads outstanding. -/
theorem State.gather_starts : ∃ t x, (s1.startXfer o (s.stream id) key true false (cs.map some)).retireLanes o.g (carKill o true) = t ∧
    t.mem = s1.mem ∧ t.qu.xfers = [x] ∧ x.num = s1.nextOp ∧ x.gather = true ∧ x.elems.length = ws.length ∧ x.store = false ∧
    t.stream id = { carKill o true (s.stream id) with cnt := (s.stream id).cnt.add 0 1 }.goto s.cur.npc := by
  obtain ⟨ha, hcur, hst⟩ := hb
  let x := s1.newXfer o (s.stream id) key true false (cs.map some)
  have hw : ∀ c ∈ cs.map some, ∀ k, c = some k → k.walked = none := fun c hc k hk => by
    obtain ⟨c', hc', rfl⟩ := List.mem_map.mp hc
    exact Option.some.inj hk ▸ local_walked (hlocal c' hc')
  obtain ⟨os, -, hfold⟩ := State.readElems (u := s1.withXfer x 0) (x := x) (s1.team (s.stream id).id.tcx).recd.asid
    ((s1.team (s.stream id).id.tcx).tag (s.stream id).id) o.sx (xferReads true false (cs.map some)) fun y hy => by
      have hy' : y ∈ s1.qu.xfers ++ [x] := hy
      rw [hx, List.nil_append, List.mem_singleton] at hy'
      rw [hy']
  have heq := (State.startXfer_eq (s := s1) (o := o) (st := s.stream id) (key := key) (gather := true) (store := false) hw).trans
    (congrArg (fun u : State => u.changed key) hfold)
  have hpos := xferReads_nonempty hne
  obtain ⟨q, es, hq, hqx⟩ := State.changed_gather (key := key)
    (s1.withXfer_xfers x 0 os (xferReads true false (cs.map some)).length hx) rfl
    (Nat.ne_of_gt (Nat.add_pos_right _ hpos))
  rw [hq] at heq
  obtain ⟨hframe, hret, -⟩ := State.retired_counted (k := 0) (u := s1.startXfer o (s.stream id) key true false (cs.map some)) ha
    (carKill_id o true) (by rw [heq]; rfl) (by rw [heq, ← s.stream_id (id := id)]; rfl)
  refine ⟨_, { x with pending := x.pending + (xferReads true false (cs.map some)).length, entries := es }, rfl, ?_, ?_, rfl, rfl, ?_, rfl, ?_⟩
  · rw [hframe, heq]
    rfl
  · rw [hframe, heq]
    exact hqx
  · exact (List.length_map _).trans ((List.length_map _).trans hlen)
  · rw [hret, carKill_counted, hst, hcur]

/-- A scatter to an empty queue starts, and waits. -/
theorem State.scatter_starts (hgw : 0 < (s1.team id.tcx).recd.groupW) (hempty : (s1.queue key).entries = []) :
    ∃ t x, (s1.startXfer o (s.stream id) key true true (cs.map some)).retireLanes o.g (carKill o true) = t ∧
    t.mem = s1.mem ∧ t.ops = s1.ops ∧ t.qu.xfers = [x] ∧ x.num = s1.nextOp ∧ x.gather = true ∧ x.elems.length = ws.length ∧
    x.store = true ∧ x.entries = [] ∧
    t.stream id = { carKill o true (s.stream id) with cnt := (s.stream id).cnt.add 1 1 }.goto s.cur.npc := by
  obtain ⟨ha, hcur, hst⟩ := hb
  let x := s1.newXfer o (s.stream id) key true true (cs.map some)
  have hw : ∀ c ∈ cs.map some, ∀ k, c = some k → k.walked = none := fun c hc k hk => by
    obtain ⟨c', hc', rfl⟩ := List.mem_map.mp hc
    exact Option.some.inj hk ▸ local_walked (hlocal c' hc')
  have hxs : (s1.withXfer x 1).qu.xfers = [x] := by
    change s1.qu.xfers ++ [x] = [x]
    rw [hx, List.nil_append]
  have hxlen : x.elems.length = cs.length := (List.length_map _).trans (List.length_map _)
  have huns : x.unserved = true := by
    have hpos := List.length_pos_of_ne_nil hne
    have hxw : x.w = (s1.team id.tcx).recd.groupW := by
      change (s1.team (s.stream id).id.tcx).recd.groupW = _
      rw [s.stream_id]
    unfold Xfer.unserved Xfer.total
    rw [hxlen, hxw]
    exact decide_eq_true (Nat.div_pos (by omega) hgw)
  have heq : s1.startXfer o (s.stream id) key true true (cs.map some) = s1.withXfer x 1 :=
    (State.startXfer_eq (s := s1) (o := o) (st := s.stream id) (key := key) (gather := true) (store := true) hw).trans
      (State.changed_scatter hxs rfl huns hempty)
  obtain ⟨hframe, hret, -⟩ := State.retired_counted (k := 1) (u := s1.startXfer o (s.stream id) key true true (cs.map some)) ha
    (carKill_id o true) (by rw [heq]; rfl) (by rw [heq, ← s.stream_id (id := id)]; rfl)
  refine ⟨_, x, rfl, ?_, ?_, ?_, rfl, rfl, hxlen.trans hlen, rfl, rfl, ?_⟩
  · rw [hframe, heq]
    rfl
  · rw [hframe, heq]
    rfl
  · rw [hframe, heq]
    exact hxs
  · rw [hret, carKill_counted, hst, hcur]
end Index
end Sys2Proof.Machine
end
section
/-! PROOFS. The last element of a transfer (R259), and the obligation on Carter streams and transfers. -/
namespace Sys2Proof.Machine

section Ready
variable {s u : State} {o : MemOp} {x : Xfer} {key : Nat}

/-- With a load whose entries are all reserved, nothing is served. -/
theorem State.serveQueue_served (n : Nat) (hx : u.qu.xfers = [x]) (hs : x.store = false) (huns : x.unserved = false) :
    u.serveQueue key n = u := by
  refine State.serveQueue_idle n (State.serveStore_load hx hs) ?_
  unfold State.serveLoad
  rw [hx, List.find?_singleton, if_neg (by simp [huns])]
/-- A transfer whose operations are done ends, and its counter falls. -/
theorem State.endXfers_done (hx : u.qu.xfers = [x]) (hs : x.store = false) (huns : x.unserved = false) (hp : x.pending = 0) :
    u.endXfers = { u.decCounter x.sid 0 with qu := { u.qu with xfers := [] } } := by
  have hdone : (!x.unserved && x.pending == 0) = true := by rw [huns, hp]; rfl
  have hgone : (x.unserved || x.pending != 0) = false := by rw [huns, hp]; rfl
  have h1 : u.qu.xfers.filter (fun x => !x.unserved && x.pending == 0) = [x] := by
    rw [hx, List.filter_singleton, hdone]
    rfl
  have h2 : u.qu.xfers.filter (fun x => x.unserved || x.pending != 0) = [] := by
    rw [hx, List.filter_singleton, hgone]
    rfl
  unfold State.endXfers
  dsimp only
  rw [h1, List.foldl_cons, List.foldl_nil, hs]
  rw [if_neg Bool.false_ne_true, show (u.decCounter x.sid 0).qu = u.qu from rfl, h2]
/-- An entry with one element filled in. -/
def QEntry.filled (serial elem : Nat) (v : Word) (e : QEntry) : QEntry :=
  if e.serial = serial then
    { e with elems := sset 0 e.elems elem v, missing := e.missing - 1, state := if e.missing ≤ 1 then .ready else e.state }
  else e
theorem State.elemArrive_one {i serial : Nat} (v : Word) (hx : u.qu.xfers = [x]) (hs : x.store = false) (huns : x.unserved = false)
    (hp : x.pending ≠ 0) (he : x.entries[i / x.w]? = some serial) :
    u.elemArrive x.num v i = u.setQueue x.key ((u.queue x.key).entries.map (QEntry.filled serial (i % x.w) v)) := by
  have hfind : (u.qu.xfers.find? fun y => y.num = x.num) = some x := by
    rw [hx, List.find?_singleton, if_pos (decide_eq_true rfl)]
  unfold State.elemArrive
  rw [hfind]
  dsimp only
  rw [he]
  dsimp only
  change (u.setQueue x.key ((u.queue x.key).entries.map (QEntry.filled serial (i % x.w) v))).changed x.key = _
  have hx' : (u.setQueue x.key ((u.queue x.key).entries.map (QEntry.filled serial (i % x.w) v))).qu.xfers = [x] := hx
  unfold State.changed
  rw [State.serveQueue_served 64 hx' hs huns]
  exact State.endXfers_waiting hx' (.inr hp)
theorem State.xferDone_last (hx : u.qu.xfers = [x]) (hs : x.store = false) (huns : x.unserved = false) (hp : x.pending = 1) :
    u.xferDone x.num = { u.decCounter x.sid 0 with qu := { u.qu with xfers := [] } } := by
  have hfind : (u.qu.xfers.find? fun y => y.num = x.num) = some x := by
    rw [hx, List.find?_singleton, if_pos (decide_eq_true rfl)]
  have hx' := State.onXfer_one hx fun x => { x with pending := x.pending - 1 }
  unfold State.xferDone
  rw [hfind]
  dsimp only
  unfold State.changed
  rw [State.serveQueue_served 64 hx' hs huns, State.endXfers_done hx' hs huns (by dsimp only; rw [hp])]
  rfl

variable (h : s.Uncached o)
include h
theorem State.Uncached.performable_elem : s.performable o = true := by
  obtain ⟨hm, hph, hl, -⟩ := h
  have hpod : (o.loc.space != .pod) = true := by
    cases hs : o.loc.space <;> simp [Space.local, hs] at hl ⊢
  simp [State.performable, hm, hph, State.buffered, hpod]
theorem State.Uncached.doLoad_elem (hx : o.xfer.isSome = true) (hf : s.flawed o.loc o.cluster o.size = none) :
    s.doLoad o = s.endOp o [o.value (memReadN s.mem o.loc.key o.size)] := by
  obtain ⟨-, hph, hs, -, -, -, hc, -⟩ := h
  have hl : s.loadLocal o = (.ok (memReadN s.mem o.loc.key o.size), s) := by
    simp [State.loadLocal, s.linkDown_local hs, s.shutHost_local _ hs, hx, hc, hf, State.loadBytes, State.readHome]
  have he : s.earlyStores o = [] := by rw [State.earlyStores, hc]
  have ht : s.inTransit o = false := by rw [State.inTransit, hc]; rfl
  simp only [State.doLoad, hph, ht, Bool.false_and, Bool.false_eq_true, if_false, hl, he, State.markSeen, List.isEmpty_nil, if_true]
end Ready

/-- The value of an element of four bytes. -/
theorem MemOp.value_word {o : MemOp} (hsx : o.sx = false) (hz : o.size = 4) (m : List Host.Cell) (k : Nat) :
    (o.value (memReadN m k 4)).setWidth 32 = BitVec.ofNat 32 (natOfBytes (memReadN m k 4)) := by
  have ht : (memReadN m k 4).take 4 = memReadN m k 4 := List.take_of_length_le (by simp)
  rw [MemOp.value, hsx, hz, ht]
  generalize natOfBytes (memReadN m k 4) = v
  apply BitVec.eq_of_toNat_eq
  simp [extendLoad]

/-- ENTRY_READY of the last element of a load. -/
theorem entryReady_last (s : State) (n : Nat) (o : MemOp) (x : Xfer) (i serial : Nat) (ho : s.op? n = some o) (hu : s.Uncached o)
    (hk : o.kind = .elemLoad x.num [i] false) (hf : s.flawed o.loc o.cluster 4 = none) (hz : o.size = 4) (hx : s.qu.xfers = [x])
    (hp : x.pending = 1) (huns : x.unserved = false) (hs : x.store = false) (he : x.entries[i / x.w]? = some serial)
    (hpres : s.Present [x.sid]) :
    ∃ t, exec (.entryReady n) s = .next t ∧ t = { s with streams := t.streams, ops := t.ops, qu := t.qu } ∧ t.op? n = none ∧
      t.qu.xfers = [] ∧ (t.stream x.sid).bare = { s.stream x.sid with cnt := (s.stream x.sid).cnt.dec 0 }.bare ∧
      (t.queue x.key).entries = (s.queue x.key).entries.map
        (QEntry.filled serial (i % x.w) (BitVec.ofNat 32 (natOfBytes (memReadN s.mem o.loc.key 4)))) := by
  let v := BitVec.ofNat 32 (natOfBytes (memReadN s.mem o.loc.key 4))
  have hnotes := s.noteDone_notes o []
  have hframe := hnotes.onlyStreams.1
  let u := (s.noteDone o []).removeOp o.num
  have hux : u.qu.xfers = [x] := by
    change (s.noteDone o []).qu.xfers = [x]
    rw [hframe]
    exact hx
  have hq : u.qu = s.qu := by
    change (s.noteDone o []).qu = s.qu
    rw [hframe]
  let u1 := u.setQueue x.key ((u.queue x.key).entries.map (QEntry.filled serial (i % x.w) v))
  have hexec : exec (.entryReady n) s = .next (s.doLoad o) := by
    change execEntryReady n s = _
    simp only [execEntryReady, ho, hu.performable_elem, hu.unsent, hk]
    rfl
  have hval : ([o.value (memReadN s.mem o.loc.key 4)].headD 0).setWidth 32 = v := MemOp.value_word (by rw [MemOp.sx, hk]) hz _ _
  have hend : s.doLoad o = { u1.decCounter x.sid 0 with qu := { u1.qu with xfers := [] } } := by
    rw [hu.doLoad_elem (by rw [MemOp.xfer, hk]; rfl) (by rw [hz]; exact hf), hz]
    unfold State.endOp
    rw [hk]
    dsimp only
    rw [hval, List.foldl_cons, List.foldl_nil, State.elemArrive_one v hux hs huns (by omega) he]
    exact State.xferDone_last (u := u1) (x := x) hux hs huns hp
  have hpres1 : u.Present [x.sid] := (hnotes.present hpres :)
  refine ⟨_, hexec, ?_, ?_, ?_, ?_, ?_⟩
  · rw [hend]
    exact congrArg (fun w : State => { w with streams := (u1.decCounter x.sid 0).streams, ops := u1.ops, qu := { u1.qu with xfers := [] } })
      hframe
  · rw [hend, ← State.num_of_op? ho]
    exact (s.noteDone o []).removeOp_op? o.num
  · rw [hend]
  · rw [hend]
    have hdec := (u.onLane_only (f := fun st => { st with cnt := st.cnt.dec 0 }) (fun st => rfl) hpres1).2
    have hst : (u.stream x.sid).bare = (s.stream x.sid).bare := hnotes.bare x.sid
    change ((u.onLane x.sid fun st => { st with cnt := st.cnt.dec 0 }).stream x.sid).bare = _
    rw [hdec]
    exact congrArg (fun st : Stream => { st with cnt := st.cnt.dec 0 }) hst
  · rw [hend]
    change ((u.setQueue x.key _).queue x.key).entries = _
    rw [State.setQueue_entries]
    change (sget emptyQueue u.qu.qs x.key).entries.map _ = _
    rw [hq]
    rfl

/-- Settles O45: streams of Carters park, start and stop by the state of their core; a transfer starts from its checks, and ends with
the last of its operations. -/
theorem carterStreamsAndTransfers : Obligations.CarterStreamsAndTransfers := by
  unfold Obligations.CarterStreamsAndTransfers
  refine ⟨⟨fun s id st hs hx hp => queueStallPark_answers hs hx hp, fun g d s1 k1 s2 k2 s id ha ht => cspawn_answers ha ht,
    fun g d slots s id ha => cstop_answers ha⟩, ?_, ?_, ?_, ?_⟩
  · intro o s id key cs store ha hx hk st n hn hw ht hc hcs hl hroom
    refine ⟨fun hs => ?_, fun hs e r hq hbits => ?_⟩
    · subst hs
      exact aload_answers ha hx hk hn hw ht hc hcs hl hroom
    · subst hs
      exact astore_answers ha hx hk hn hw ht hc hcs hl hroom hq hbits
  · intro o s id i hi ha hn hk
    rcases hi with rfl | rfl
    · exact congrArg Host.Outcome.next (State.lineXfer_empty (store := false) ha hk hn)
    · exact congrArg Host.Outcome.next (State.lineXfer_empty (store := true) ha hk hn)
  · intro o s s1 id key ics cs ws store ha hk ht st n hn hmax hgw hc hroom hics hwait hread hcs hl hcur hteams hst hp hx
    have hstart := State.indexXfer_starts ha hk hn hmax hc hroom hics hwait hread hcs
    have hb := State.IndexBase.of ha hcur hst hp
    obtain ⟨hicl, -⟩ := State.xferChecks_some (fun a h => by obtain ⟨i, -, rfl⟩ := List.mem_map.mp h; rfl) hics
    obtain ⟨hcl, -⟩ := State.xferChecks_some (fun a h => by obtain ⟨i, -, rfl⟩ := List.mem_map.mp h; rfl) hcs
    have hwl := s.readIndices_length id (if store then 1 else 0) ics
    rw [hread] at hwl
    simp only [List.length_map, List.length_range] at hicl hcl hwl
    have hne : cs ≠ [] := List.ne_nil_of_length_pos (by omega)
    have hteam : s1.team id.tcx = s.curTeam := by
      rw [State.team, State.team?, hteams]
      exact congrArg (fun t : Option Team => t.getD (blankTeam id.tcx)) ht
    refine ⟨fun hs => ?_, fun hs hq => ?_⟩
    · subst hs
      obtain ⟨t, x, ht, h⟩ := State.gather_starts (key := key) hb hx hl hne hcl
      exact ⟨t, x, congrArg Host.Outcome.next (hstart.trans ht), h⟩
    · subst hs
      obtain ⟨t, x, ht, h⟩ := State.scatter_starts (key := key) hb hx hl hne hcl (by rw [hteam]; exact hgw) hq
      exact ⟨t, x, congrArg Host.Outcome.next (hstart.trans ht), h⟩
  · intro s n o x i serial ho hu hk hf hz hx hp huns hs he hpres v
    exact entryReady_last s n o x i serial ho hu hk hf hz hx hp huns hs he hpres

end Sys2Proof.Machine
end
section
/-! PROOFS. Matrix instructions enter the buffer of their cluster (R285, R286, R290 to R300). -/
namespace Sys2Proof.Machine

/-- A step of a stream that keeps its identity and its counters. -/
structure Stream.Kills (f : Stream → Stream) : Prop where
  id_eq : ∀ st : Stream, (f st).id = st.id
  counted : ∀ (st : Stream) (k : Nat), f (st.counted k) = { f st with cnt := st.cnt.add k 1 }
theorem Stream.Kills.refl : Stream.Kills fun st => st := ⟨fun _ => rfl, fun _ _ => rfl⟩
theorem Stream.Kills.kill (r : Reg) (k : Bool) : Stream.Kills fun st => st.kill r k :=
  ⟨fun st => st.kill_id r k, fun st n => by rw [Stream.kill_counted, Stream.counted, Stream.kill_cnt]⟩
theorem Stream.Kills.kill64 (r : Reg) (k : Bool) : Stream.Kills fun st => st.kill64 r k :=
  ⟨fun st => st.kill64_id r k, fun st n => by rw [Stream.kill64_counted, Stream.counted, Stream.kill64_cnt]⟩
theorem Stream.Kills.both (r : Reg) (k : Bool) (r' : Reg) (k' : Bool) : Stream.Kills fun st => (st.kill64 r k).kill r' k' :=
  ⟨fun st => by rw [Stream.kill_id, Stream.kill64_id], fun st n => by
    rw [Stream.kill64_counted, Stream.kill_counted, Stream.counted, Stream.kill_cnt, Stream.kill64_cnt]⟩

/-- The outcome of an instruction that enters a tile operation. -/
def State.TileEnters (s : State) (id : SId) (t : State) (x : TileOp) (f : Stream → Stream) (mats : List (Nat × Mat))
    (tiles : List (Nat × List (Nat × Word))) : Prop :=
  t = { s with
    streams := t.streams, nextOp := s.nextOp + 1
    mx := { s.mx with ops := s.mx.ops ++ [{ x with num := s.nextOp }], mats := mats, tiles := tiles } } ∧
  t.stream id = { f (s.stream id) with cnt := (s.stream id).cnt.add 3 1 }.goto s.cur.npc ∧
  ∀ id', id' ≠ id → t.stream? id' = s.stream? id'

section Entry
variable {s : State} {g : Guard} {id : SId} {f : Stream → Stream}

/-- With the names and words of tiles as given. -/
def State.withTiles (s : State) (mats : List (Nat × Mat)) (tiles : List (Nat × List (Nat × Word))) : State :=
  { s with mx := { s.mx with mats := mats, tiles := tiles } }
theorem State.enters_of (ha : s.Alone g id) (hf : Stream.Kills f) (x : TileOp) (hx : x.sid = id) (mats : List (Nat × Mat))
    (tiles : List (Nat × List (Nat × Word))) :
    s.TileEnters id (((s.withTiles mats tiles).enterTileOp x).retireLanes g f) x f mats tiles := by
  subst hx
  obtain ⟨h1, h2, h3⟩ := State.retired_counted (k := 3) (u := (s.withTiles mats tiles).enterTileOp x) ha hf.id_eq rfl rfl
  exact ⟨h1.trans rfl, by rw [h2, hf.counted], h3⟩
/-- One that leaves the names and words of tiles. -/
theorem State.enters_plain (ha : s.Alone g id) (hf : Stream.Kills f) {x : TileOp} (hx : x.sid = id) {i : Instr}
    (he : exec i s = .next ((s.enterTileOp x).retireLanes g f)) :
    ∃ t, exec i s = .next t ∧ s.TileEnters id t x f s.mx.mats s.mx.tiles :=
  ⟨_, he, s.enters_of ha hf x hx s.mx.mats s.mx.tiles⟩

theorem State.tileIssue_room (ha : s.Alone g id) (hb : s.bufferFull (s.team id.tcx).cluster = false) (hc : (s.stream id).cnt.tl < 254)
    (k : Stream → Mat → State) : s.tileIssue g k = k (s.stream id) (s.matNext id) := by
  have hfull : s.counterFull [id] 3 = false := by
    unfold State.counterFull
    simpa [Counters.get] using hc
  unfold State.tileIssue
  rw [State.lowest_alone ha]
  dsimp only
  rw [s.stream_id, hb, hfull]
  rfl
end Entry

section Plain
variable {s : State} {id : SId}

theorem exec_mload {o : MatOp} {rs : List (List (DWord × Loc × Nat))} (ha : s.Alone o.g id)
    (hb : s.bufferFull (s.team id.tcx).cluster = false) (hc : (s.stream id).cnt.tl < 254) :
    let slot := s.slotWord o.slot
    let k := ((s.stream id).rd o.s2).toNat % 256
    let klen := if k = 0 then 128 else k
    klen ≤ 128 → bFmtOk (slotBFmt slot) = true → ¬(codeBits (slotBFmt slot) = 4 ∧ klen % 2 = 1) →
    s.operandRows (s.stream id) .load 64 (fmtBytes (slotBFmt slot) 128) ((s.matNext id).stride 1) ((s.stream id).rd64 o.s1) klen = .ok rs →
    s.touchRows (s.stream id) .load rs = s →
    exec (.mload o) s = .next ((s.enterTileOp
      { blankTileOp with sid := id, kind := .load, slot := slot, rows := klen, mem := rs }).retireLanes o.g (matKill o)) := by
  intro slot k klen hk hfmt hodd hrs ht
  have hlow : (((s.stream id).rd o.s2).extractLsb' 0 8).toNat = k := by
    rw [BitVec.extractLsb'_toNat, Nat.shiftRight_zero]
  have hbad : (decide (128 < klen) || !bFmtOk (slotBFmt slot) || (codeBits (slotBFmt slot) == 4 && klen % 2 == 1)) = false := by
    have hodd' : (codeBits (slotBFmt slot) == 4 && klen % 2 == 1) = false := by
      rw [Bool.eq_false_iff]
      intro h
      rw [Bool.and_eq_true, beq_iff_eq, beq_iff_eq] at h
      exact hodd h
    rw [hfmt, hodd', decide_eq_false (Nat.not_lt.mpr hk)]
    rfl
  change execMload o s = _
  unfold execMload
  rw [State.tileIssue_room ha hb hc]
  dsimp only
  rw [hlow]
  refine congrArg Host.Outcome.next ?_
  refine (if_neg (ne_true_of_eq_false hbad)).trans ?_
  rw [hrs]
  dsimp only
  rw [ht, s.stream_id]

/-- The physical tile, and the queue, that an instruction names. -/
theorem State.matQueue_memory {low : Stream} {o : MatOp} (hq : o.q = false) : s.matQueue low o = some none := by
  rw [State.matQueue, hq]
  rfl
theorem State.matQueue_port {low : Stream} {o : MatOp} {key : Nat} (hq : o.q = true) (hk : s.portKey low.id o.s1 = some key) :
    s.matQueue low o = some (some key) := by
  rw [State.matQueue, hq, if_pos rfl, hk]
  rfl

section Tiled
variable {o : MatOp} {t rows r0 : Nat} (ha : s.Alone o.g id)
  (hb : s.bufferFull (s.team id.tcx).cluster = false) (hc : (s.stream id).cnt.tl < 254)
  (ht : (s.matNext id).tileOf o.tile.toNat = some t) (hr : rowSpec ((s.stream id).rd o.s2) = some (rows, r0))
include ha hb hc ht hr

/-- The checks of `mmul` against the active plane (R293). -/
def mmulFits (m : Mat) (slot : DWord) : Prop :=
  m.active.klen ≠ 0 ∧ fmtPair (slotAFmt slot) (slotBFmt slot) = true ∧ slotBFmt slot = m.active.fmt ∧ slotBBlk slot = m.active.blk ∧
    slotBScale slot = m.active.scale ∧ (slotAScale slot = 0 ∨ slotABlk slot = m.aBlk) ∧
    ¬((codeBits (slotAFmt slot) = 4 ∨ codeBits (slotBFmt slot) = 4) ∧ m.active.klen % 2 = 1)
omit ha hb hc ht hr in
theorem mmul_passes {m : Mat} {slot : DWord} (h : mmulFits m slot) :
    (decide (m.active.klen = 0) || !fmtPair (slotAFmt slot) (slotBFmt slot) || slotBFmt slot != m.active.fmt ||
      slotBBlk slot != m.active.blk || slotBScale slot != m.active.scale || (slotAScale slot != 0 && slotABlk slot != m.aBlk) ||
      ((codeBits (slotAFmt slot) == 4 || codeBits (slotBFmt slot) == 4) && m.active.klen % 2 == 1)) = false := by
  obtain ⟨h1, h2, h3, h4, h5, h6, h7⟩ := h
  have h6' : (slotAScale slot != 0 && slotABlk slot != m.aBlk) = false := by
    rcases h6 with h | h <;> simp [h]
  have h7' : ((codeBits (slotAFmt slot) == 4 || codeBits (slotBFmt slot) == 4) && m.active.klen % 2 == 1) = false := by
    rw [Bool.eq_false_iff]
    intro h
    simp only [Bool.and_eq_true, Bool.or_eq_true, beq_iff_eq] at h
    exact h7 h
  rw [h6', h7', h2, h3, h4, h5, decide_eq_false h1]
  simp

theorem exec_mmul_memory {rs : List (List (DWord × Loc × Nat))} (hfit : mmulFits (s.matNext id) (s.slotWord o.slot)) (hq : o.q = false)
    (hrs : s.operandRows (s.stream id) .load 64 (fmtBytes (slotAFmt (s.slotWord o.slot)) (s.matNext id).active.klen)
      ((s.matNext id).stride 0) ((s.stream id).rd64 o.s1) rows = .ok rs) (htouch : s.touchRows (s.stream id) .load rs = s) :
    exec (.mmul o) s = .next ((s.enterTileOp { blankTileOp with
      sid := id, kind := .mul o.z, tile := some t, slot := s.slotWord o.slot
      rows := rows, rowBase := r0, mem := rs }).retireLanes o.g (matKill o)) := by
  change execMmul o s = _
  unfold execMmul
  rw [State.tileIssue_room ha hb hc]
  dsimp only
  rw [State.matQueue_memory hq, ht, hr]
  refine congrArg Host.Outcome.next ((if_neg (ne_true_of_eq_false (mmul_passes hfit))).trans ?_)
  rw [hq, if_neg Bool.false_ne_true, hrs]
  dsimp only
  rw [htouch, s.stream_id]
  rfl
theorem exec_mmul_queue {key : Nat} (hfit : mmulFits (s.matNext id) (s.slotWord o.slot)) (hq : o.q = true)
    (hk : s.portKey id o.s1 = some key) :
    exec (.mmul o) s = .next ((s.enterTileOp { blankTileOp with
      sid := id, kind := .mul o.z, tile := some t, slot := s.slotWord o.slot
      rows := rows, rowBase := r0, queue := some key }).retireLanes o.g fun st => st.kill o.s2 o.k2) := by
  change execMmul o s = _
  unfold execMmul
  rw [State.tileIssue_room ha hb hc]
  dsimp only
  rw [State.matQueue_port hq (by rw [s.stream_id]; exact hk), ht, hr]
  refine congrArg Host.Outcome.next ((if_neg (ne_true_of_eq_false (mmul_passes hfit))).trans ?_)
  rw [hq, if_pos rfl, s.stream_id]
theorem exec_mdrain_memory {rs : List (List (DWord × Loc × Nat))} (hq : o.q = false)
    (hrs : s.operandRows (s.stream id) .store 64 (fmtBytes (slotDrainFmt (s.slotWord o.slot)) 128)
      ((s.matNext id).stride 2) ((s.stream id).rd64 o.s1) rows = .ok rs) (htouch : s.touchRows (s.stream id) .store rs = s) :
    exec (.mdrain o) s = .next ((s.enterTileOp { blankTileOp with
      sid := id, kind := .drain o.z, tile := some t, slot := s.slotWord o.slot
      rows := rows, rowBase := r0, mem := rs }).retireLanes o.g (matKill o)) := by
  change execMdrain o s = _
  unfold execMdrain
  rw [State.tileIssue_room ha hb hc]
  dsimp only
  rw [State.matQueue_memory hq, ht, hr]
  dsimp only
  rw [hq, if_neg Bool.false_ne_true, hrs]
  dsimp only
  rw [htouch, s.stream_id]
  rfl
theorem exec_mdrain_queue {key : Nat} (hq : o.q = true) (hk : s.portKey id o.s1 = some key) :
    exec (.mdrain o) s = .next ((s.enterTileOp { blankTileOp with
      sid := id, kind := .drain o.z, tile := some t, slot := s.slotWord o.slot
      rows := rows, rowBase := r0, queue := some key }).retireLanes o.g fun st => st.kill o.s2 o.k2) := by
  change execMdrain o s = _
  unfold execMdrain
  rw [State.tileIssue_room ha hb hc]
  dsimp only
  rw [State.matQueue_port hq (by rw [s.stream_id]; exact hk), ht, hr]
  dsimp only
  rw [hq, if_pos rfl, s.stream_id]
end Tiled

section Rows
variable {g : Guard} {s1 s2 : Reg} {k1 k2 : Bool} {tile : BitVec 3} {t rows r0 : Nat} {rs : List (List (DWord × Loc × Nat))}
  (ha : s.Alone g id) (hb : s.bufferFull (s.team id.tcx).cluster = false) (hc : (s.stream id).cnt.tl < 254)
include ha hb hc

theorem exec_mswap : exec (.mswap g) s = .next ((s.enterTileOp { blankTileOp with sid := id, kind := .swap }).retireLanes g fun st => st) := by
  change execMswap g s = _
  unfold execMswap
  rw [State.tileIssue_room ha hb hc]
  dsimp only
  rw [s.stream_id]
  rfl
theorem exec_mzero (ht : (s.matNext id).tileOf tile.toNat = some t) (hr : rowSpec ((s.stream id).rd s2) = some (rows, r0)) :
    exec (.mzero g s2 k2 tile) s = .next ((s.enterTileOp { blankTileOp with
      sid := id, kind := .zero, tile := some t, rows := rows, rowBase := r0 }).retireLanes g fun st => st.kill s2 k2) := by
  change execMzero g s2 k2 tile s = _
  unfold execMzero
  rw [State.tileIssue_room ha hb hc]
  dsimp only
  rw [ht, hr]
  dsimp only
  rw [s.stream_id]
theorem exec_mtld (ht : (s.matNext id).tileOf tile.toNat = some t) (hr : rowSpec ((s.stream id).rd s2) = some (rows, r0))
    (hrs : s.operandRows (s.stream id) .load 64 512 ((s.matNext id).stride 3) ((s.stream id).rd64 s1) rows = .ok rs)
    (htouch : s.touchRows (s.stream id) .load rs = s) :
    exec (.mtld g s1 k1 s2 k2 tile) s = .next ((s.enterTileOp { blankTileOp with
      sid := id, kind := .tld, tile := some t, rows := rows, rowBase := r0, mem := rs }).retireLanes g
        fun st => (st.kill64 s1 k1).kill s2 k2) := by
  change execMtld g s1 k1 s2 k2 tile s = _
  unfold execMtld
  rw [State.tileIssue_room ha hb hc]
  dsimp only
  rw [ht, hr]
  dsimp only
  rw [hrs]
  dsimp only
  rw [htouch, s.stream_id]
/-- The scales of the A operand (R294). -/
theorem exec_mscA {slot : BitVec 3} (h1 : slotAScale (s.slotWord slot) = 1) (h2 : aFmtOk (slotAFmt (s.slotWord slot)) = true)
    (hrs : s.operandRows (s.stream id) .load 1 (128 / blkLen (slotABlk (s.slotWord slot))) ((s.matNext id).stride 4)
      ((s.stream id).rd64 s1) 128 = .ok rs) (htouch : s.touchRows (s.stream id) .load rs = s) :
    exec (.mscA g s1 k1 slot) s = .next ((s.enterTileOp { blankTileOp with
      sid := id, kind := .scA, slot := s.slotWord slot, rows := 128, mem := rs }).retireLanes g fun st => st.kill64 s1 k1) := by
  change Host.Outcome.next (s.loadScales g s1 k1 slot false) = _
  unfold State.loadScales
  rw [State.tileIssue_room ha hb hc]
  refine congrArg Host.Outcome.next ((if_neg ?_).trans ?_)
  · rw [if_neg Bool.false_ne_true, h1, h2]
    exact Bool.false_ne_true
  · simp only [Bool.false_eq_true, if_false, hrs, htouch, s.stream_id]
/-- The scales of the B operand. -/
theorem exec_mscB {slot : BitVec 3} (h1 : slotBScale (s.slotWord slot) = 1) (h2 : bFmtOk (slotBFmt (s.slotWord slot)) = true)
    (h3 : (s.matNext id).shadow.klen ≠ 0) (h4 : slotBBlk (s.slotWord slot) = (s.matNext id).shadow.blk)
    (hrs : s.operandRows (s.stream id) .load 1 128 ((s.matNext id).stride 4) ((s.stream id).rd64 s1)
      (((s.matNext id).shadow.klen + blkLen (slotBBlk (s.slotWord slot)) - 1) / blkLen (slotBBlk (s.slotWord slot))) = .ok rs)
    (htouch : s.touchRows (s.stream id) .load rs = s) :
    exec (.mscB g s1 k1 slot) s = .next ((s.enterTileOp { blankTileOp with
      sid := id, kind := .scB, slot := s.slotWord slot
      rows := ((s.matNext id).shadow.klen + blkLen (slotBBlk (s.slotWord slot)) - 1) / blkLen (slotBBlk (s.slotWord slot))
      mem := rs }).retireLanes g fun st => st.kill64 s1 k1) := by
  change Host.Outcome.next (s.loadScales g s1 k1 slot true) = _
  unfold State.loadScales
  rw [State.tileIssue_room ha hb hc]
  refine congrArg Host.Outcome.next ((if_neg ?_).trans ?_)
  · rw [if_pos rfl, h1, h2, ← h4, beq_eq_false_iff_ne.mpr h3]
    simp
  · simp only [if_true, hrs, htouch, s.stream_id]
end Rows
end Plain

end Sys2Proof.Machine
end
section
/-! PROOFS. The names of tiles, strides and the matrix fence (R291, R295, R300), and the obligation on matrix instructions. -/
namespace Sys2Proof.Machine

section Names
variable {s : State} {g : Guard} {id : SId}

theorem State.mat_onMat (tcx : Nat) (f : Mat → Mat) : (s.onMat tcx f).mat tcx = f (s.mat tcx) := sget_sset_same _ _ _ _
theorem State.mat_onMat_other {tcx x : Nat} (f : Mat → Mat) (h : x ≠ tcx) : (s.onMat tcx f).mat x = s.mat x := sget_sset_other _ _ _ h
theorem Mat.rename_tileOf (m : Mat) (name : Nat) (new : Option Nat) : (m.rename name new).tileOf name = new := by
  have hgone : (m.map.filter fun e => e.1 ≠ name).find? (fun e => e.1 = name) = none := by
    rw [List.find?_eq_none]
    intro e he h
    rw [List.mem_filter] at he
    simp only [decide_eq_true_eq] at he h
    exact he.2 h
  unfold Mat.tileOf Mat.rename
  dsimp only
  rw [List.find?_append, hgone]
  cases new with
  | none => rfl
  | some t => simp
theorem Mat.rename_releasing (m : Mat) (name : Nat) (new : Option Nat) :
    (m.rename name new).releasing = m.releasing ++ (m.tileOf name).toList := rfl

theorem mnew_answers {tile : BitVec 3} {k : Nat} (ha : s.Alone g id) (hb : s.bufferFull (s.team id.tcx).cluster = false)
    (hc : (s.stream id).cnt.tl < 254) (hroom : (s.mat id.tcx).map.length + (s.mat id.tcx).releasing.length < 8)
    (hk : s.freeTile (s.team id.tcx).cluster = some k) (ht : (s.team id.tcx).tcx = id.tcx) :
    ∃ t, exec (.mnew g tile) s = .next t ∧
      s.TileEnters id t { blankTileOp with sid := id, kind := .new, tile := (s.mat id.tcx).tileOf tile.toNat } (fun st => st)
        t.mx.mats t.mx.tiles ∧
      (t.mat id.tcx).tileOf tile.toNat = some k ∧ t.tile (s.team id.tcx).cluster k = [] ∧
      (t.mat id.tcx).releasing = (s.mat id.tcx).releasing ++ ((s.mat id.tcx).tileOf tile.toNat).toList := by
  let w := (s.setTile (s.team id.tcx).cluster k []).onMat id.tcx fun m => m.rename tile.toNat (some k)
  let op : TileOp := { blankTileOp with sid := id, kind := .new, tile := (s.mat id.tcx).tileOf tile.toNat }
  have hex : exec (.mnew g tile) s = .next ((w.enterTileOp op).retireLanes g fun st => st) := by
    change execMnew g tile s = _
    unfold execMnew
    rw [State.tileIssue_room ha hb hc]
    dsimp only
    rw [s.stream_id, ht, if_neg (Nat.not_le.mpr hroom), hk]
    rfl
  have hent := s.enters_of ha Stream.Kills.refl op rfl w.mx.mats w.mx.tiles
  change s.TileEnters id ((w.enterTileOp op).retireLanes g fun st => st) op (fun st => st) w.mx.mats w.mx.tiles at hent
  have hmx : ((w.enterTileOp op).retireLanes g fun st => st).mx = { w.mx with ops := s.mx.ops ++ [{ op with num := s.nextOp }] } :=
    congrArg State.mx hent.1
  have hmat : ((w.enterTileOp op).retireLanes g fun st => st).mat id.tcx = (s.mat id.tcx).rename tile.toNat (some k) := by
    rw [State.mat, hmx]
    exact (s.setTile (s.team id.tcx).cluster k []).mat_onMat id.tcx fun m => m.rename tile.toNat (some k)
  refine ⟨_, hex, ?_, ?_, ?_, ?_⟩
  · rw [hmx]
    exact hent
  · rw [hmat, Mat.rename_tileOf]
  · rw [State.tile, hmx]
    exact sget_sset_same _ _ _ _
  · rw [hmat, Mat.rename_releasing]
theorem mrel_answers {tile : BitVec 3} (ha : s.Alone g id) (hb : s.bufferFull (s.team id.tcx).cluster = false)
    (hc : (s.stream id).cnt.tl < 254) :
    ∃ t, exec (.mrel g tile) s = .next t ∧
      s.TileEnters id t { blankTileOp with sid := id, kind := .rel, tile := (s.mat id.tcx).tileOf tile.toNat } (fun st => st)
        t.mx.mats s.mx.tiles ∧
      (t.mat id.tcx).tileOf tile.toNat = none ∧
      (t.mat id.tcx).releasing = (s.mat id.tcx).releasing ++ ((s.mat id.tcx).tileOf tile.toNat).toList := by
  let w := s.onMat id.tcx fun m => m.rename tile.toNat none
  let op : TileOp := { blankTileOp with sid := id, kind := .rel, tile := (s.mat id.tcx).tileOf tile.toNat }
  have hex : exec (.mrel g tile) s = .next ((w.enterTileOp op).retireLanes g fun st => st) := by
    change execMrel g tile s = _
    unfold execMrel
    rw [State.tileIssue_room ha hb hc]
    dsimp only
    rw [s.stream_id]
    rfl
  have hent := s.enters_of ha Stream.Kills.refl op rfl w.mx.mats s.mx.tiles
  change s.TileEnters id ((w.enterTileOp op).retireLanes g fun st => st) op (fun st => st) w.mx.mats s.mx.tiles at hent
  have hmx : ((w.enterTileOp op).retireLanes g fun st => st).mx = { w.mx with ops := s.mx.ops ++ [{ op with num := s.nextOp }] } :=
    congrArg State.mx hent.1
  have hmat : ((w.enterTileOp op).retireLanes g fun st => st).mat id.tcx = (s.mat id.tcx).rename tile.toNat none := by
    rw [State.mat, hmx]
    exact s.mat_onMat id.tcx fun m => m.rename tile.toNat none
  refine ⟨_, hex, ?_, ?_, ?_⟩
  · rw [hmx]
    exact hent
  · rw [hmat, Mat.rename_tileOf]
  · rw [hmat, Mat.rename_releasing]

/-- A lane retires after a change of its cluster's state. -/
theorem State.retired_mx {f : Stream → Stream} (ha : s.Alone g id) (hf : ∀ st : Stream, (f st).id = st.id) (m : Arrays) :
    ({ s with mx := m }.retireLanes g f) = { s with streams := ({ s with mx := m }.retireLanes g f).streams, mx := m } ∧
      ({ s with mx := m }.retireLanes g f).stream id = (f (s.stream id)).goto s.cur.npc := by
  obtain ⟨⟨h1, -⟩, h2⟩ := State.retired_one (s := { s with mx := m }) ha hf
  exact ⟨h1, h2⟩
theorem mcfg_answers (s1 : Reg) (k1 : Bool) (f : MField) (ha : s.Alone g id) :
    ∃ t, exec (.mcfg g s1 k1 f) s = .next t ∧ t = { s with streams := t.streams, mx := t.mx } ∧
      (t.mat id.tcx) = { s.mat id.tcx with strides := (s.mat id.tcx).strides.set (strideIdx f) ((s.stream id).rd s1) } ∧
      (∀ x, x ≠ id.tcx → t.mat x = s.mat x) ∧ t.stream id = ((s.stream id).kill s1 k1).goto s.cur.npc := by
  let w := s.onMat id.tcx fun m => { m with strides := m.strides.set (strideIdx f) ((s.stream id).rd s1) }
  have hex : exec (.mcfg g s1 k1 f) s = .next (w.retireLanes g fun st => st.kill s1 k1) := by
    change execMcfg g s1 k1 f s = _
    unfold execMcfg
    rw [State.lowest_alone ha]
    dsimp only
    rw [s.stream_id]
  obtain ⟨hf, hst⟩ := State.retired_mx (f := fun st => st.kill s1 k1) ha (fun st => st.kill_id s1 k1) w.mx
  change w.retireLanes g (fun st => st.kill s1 k1) = _ at hf
  have hmx : (w.retireLanes g fun st => st.kill s1 k1).mx = w.mx := (congrArg State.mx hf).trans rfl
  refine ⟨_, hex, ?_, ?_, fun x hx => ?_, hst⟩
  · rw [hmx]
    exact hf
  · rw [State.mat, hmx]
    exact s.mat_onMat id.tcx _
  · rw [State.mat, hmx]
    exact s.mat_onMat_other _ hx

theorem mfence_waits (ha : s.Alone g id) (hc : (s.stream id).cnt.tl ≠ 0) :
    ∃ t, exec (.mfence g) s = .next t ∧ s.OnlyStreams t [id] ∧ t.stream id = (s.stream id).parkAt .mfence := by
  have hex : exec (.mfence g) s = .next (s.onLane id fun st => st.parkAt .mfence) := by
    change execMfence g s = _
    unfold execMfence
    rw [State.lowest_alone ha]
    refine congrArg Host.Outcome.next ((if_pos hc).trans ?_)
    rw [State.parkLanes, ha.1]
    rfl
  exact next_of_onLane hex (fun _ => rfl) ha.2.2 rfl
theorem mfence_drops (ha : s.Alone g id) (hc : (s.stream id).cnt.tl = 0) (he : (s.stream id).slots.tl = none) :
    ∃ t, exec (.mfence g) s = .next t ∧ t = { s with streams := t.streams, mx := t.mx } ∧
      (∀ l, l ∈ t.mx.cache ↔ l ∈ s.mx.cache ∧ ¬(l.cluster = (s.team id.tcx).cluster ∧ l.asid = (s.team id.tcx).recd.asid)) ∧
      t.stream id = (s.stream id).goto s.cur.npc := by
  let w := s.dropOperands fun l => l.cluster == (s.team id.tcx).cluster && l.asid == (s.team id.tcx).recd.asid
  have hex : exec (.mfence g) s = .next (w.retireLanes g fun st => st) := by
    change execMfence g s = _
    unfold execMfence
    rw [State.lowest_alone ha]
    refine congrArg Host.Outcome.next ((if_neg (not_not_intro hc)).trans ?_)
    rw [he, s.stream_id]
    rfl
  obtain ⟨hf, hst⟩ := State.retired_mx (f := fun st => st) ha (fun _ => rfl) w.mx
  change w.retireLanes g (fun st => st) = _ at hf
  have hmx : (w.retireLanes g fun st => st).mx = w.mx := (congrArg State.mx hf).trans rfl
  refine ⟨_, hex, ?_, fun l => ?_, hst⟩
  · rw [hmx]
    exact hf
  · rw [hmx]
    change l ∈ s.mx.cache.filter _ ↔ _
    rw [List.mem_filter, Bool.not_eq_true', Bool.eq_false_iff, ne_eq, Bool.and_eq_true, beq_iff_eq, beq_iff_eq]
end Names

/-- Settles O46: a matrix instruction whose checks pass enters one operation and is counted; the names of tiles, the strides and the
operand cache change as its own rule says. -/
theorem matrixInstructionsEnterTheBuffer : Obligations.MatrixInstructionsEnterTheBuffer := by
  unfold Obligations.MatrixInstructionsEnterTheBuffer
  intro g s id ha hb hc st m enters plain base
  refine ⟨State.enters_plain ha Stream.Kills.refl rfl (exec_mswap ha hb hc), ?_, ?_, ?_, ?_, ?_, ?_, ?_, ?_⟩
  · intro o rs hg slot k klen hk hfmt hodd hrs htouch
    subst hg
    exact State.enters_plain ha (Stream.Kills.both _ _ _ _) rfl (exec_mload ha hb hc hk hfmt hodd hrs htouch)
  · intro o t rows r0 hg ht hr slot
    subst hg
    refine ⟨?_, ?_⟩
    · intro h1 h2 h3 h4 h5 h6 h7 x
      have hfit : mmulFits m slot := ⟨h1, h2, h3, h4, h5, h6, h7⟩
      exact ⟨fun rs hq hrs htouch => State.enters_plain ha (Stream.Kills.both _ _ _ _) rfl
          (exec_mmul_memory ha hb hc ht hr hfit hq hrs htouch),
        fun key hq hk => State.enters_plain ha (Stream.Kills.kill _ _) rfl (exec_mmul_queue ha hb hc ht hr hfit hq hk)⟩
    · intro x
      exact ⟨fun rs hq hrs htouch => State.enters_plain ha (Stream.Kills.both _ _ _ _) rfl
          (exec_mdrain_memory ha hb hc ht hr hq hrs htouch),
        fun key hq hk => State.enters_plain ha (Stream.Kills.kill _ _) rfl (exec_mdrain_queue ha hb hc ht hr hq hk)⟩
  · intro s1 k1 s2 k2 tile t rows r0 ht hr
    exact ⟨State.enters_plain ha (Stream.Kills.kill _ _) rfl (exec_mzero ha hb hc ht hr),
      fun rs hrs htouch => State.enters_plain ha (Stream.Kills.both _ _ _ _) rfl (exec_mtld ha hb hc ht hr hrs htouch)⟩
  · intro s1 k1 slot rs w
    exact ⟨fun h1 h2 hrs htouch => State.enters_plain ha (Stream.Kills.kill64 _ _) rfl (exec_mscA ha hb hc h1 h2 hrs htouch),
      fun h1 h2 h3 h4 hrs htouch => State.enters_plain ha (Stream.Kills.kill64 _ _) rfl (exec_mscB ha hb hc h1 h2 h3 h4 hrs htouch)⟩
  · intro tile old
    exact ⟨fun k hroom hk ht => mnew_answers ha hb hc hroom hk ht, mrel_answers ha hb hc⟩
  · intro s1 k1 f
    exact mcfg_answers s1 k1 f ha
  · exact mfence_waits ha
  · exact mfence_drops ha

end Sys2Proof.Machine
end
section
/-! PROOFS. Packets of copies: their answers and their places (R320 to R322). -/
namespace Sys2Proof.Machine

/-! ### One copy changes -/

section Copies
variable {s : State} {k : CopyId} {c : Copy}

/-- A step that keeps the identities of copies changes the copy it is applied to, and no other. -/
theorem State.onCopy_same {f : Copy → Copy} (hf : ∀ x : Copy, (f x).id = x.id) (hc : s.copy? k = some c) :
    (s.onCopy k f).copy? k = some (f c) := by
  have hid : c.id = k := by simpa using List.find?_some hc
  unfold State.copy? State.onCopy
  rw [List.find?_map]
  have hp : ((fun x : Copy => decide (x.id = k)) ∘ fun x => if x.id = k then f x else x) = fun x => decide (x.id = k) := by
    funext x
    rw [Function.comp_apply]
    split
    · rw [hf]
    · rfl
  rw [hp, show s.dr.copies.find? (fun x => decide (x.id = k)) = some c from hc, Option.map_some, if_pos hid]
theorem State.onCopy_other {f : Copy → Copy} (hf : ∀ x : Copy, (f x).id = x.id) {j : CopyId} (hj : j ≠ k) :
    (s.onCopy k f).copy? j = s.copy? j := by
  unfold State.copy? State.onCopy
  rw [List.find?_map]
  have hp : ((fun x : Copy => decide (x.id = j)) ∘ fun x => if x.id = k then f x else x) = fun x => decide (x.id = j) := by
    funext x
    rw [Function.comp_apply]
    split
    · rw [hf]
    · rfl
  rw [hp]
  cases hx : s.dr.copies.find? (fun x => decide (x.id = j)) with
  | none => rfl
  | some x =>
    have hxid : x.id = j := by simpa using List.find?_some hx
    rw [Option.map_some, if_neg (hxid ▸ hj)]
/-- A copy with its first error. -/
def Copy.errored (cause : Cause) (reason : BitVec 8) (x : Copy) : Copy :=
  if x.err.isNone then { x with err := some (cause, reason) } else x
theorem Copy.errored_id (cause : Cause) (reason : BitVec 8) (x : Copy) : (x.errored cause reason).id = x.id := by
  unfold Copy.errored
  split <;> rfl
theorem State.copyErr_eq (cause : Cause) (reason : BitVec 8) : s.copyErr k cause reason = s.onCopy k (Copy.errored cause reason) := rfl

/-- The outcome of an answer: its packet settled, and the error as given. -/
def State.Settles (s t : State) (k : CopyId) (c : Copy) (n : Nat) (err : Option (BitVec 8 × BitVec 8)) : Prop :=
  t = { s with dr := { s.dr with copies := t.dr.copies } } ∧ (∀ j, j ≠ k → t.copy? j = s.copy? j) ∧
    t.copy? k = some { c with err := err, packets := c.packets.map fun q => if q.index = n then { q with acked := true } else q }
theorem State.settles_plain (n : Nat) (hc : s.copy? k = some c) : s.Settles (s.onCopy k fun c => c.settle n) k c n c.err :=
  ⟨rfl, fun _ hj => State.onCopy_other (f := fun c => c.settle n) (fun _ => rfl) hj,
    State.onCopy_same (f := fun c => c.settle n) (fun _ => rfl) hc⟩
theorem State.settles_err (n : Nat) (hc : s.copy? k = some c) (cause : Cause) (reason : BitVec 8) :
    s.Settles ((s.onCopy k fun c => c.settle n).copyErr k cause reason) k c n (c.errored cause reason).err := by
  have h1 := State.onCopy_same (f := fun c => c.settle n) (fun _ => rfl) hc
  refine ⟨rfl, fun j hj => ?_, ?_⟩
  · rw [State.copyErr_eq, State.onCopy_other (Copy.errored_id cause reason) hj, State.onCopy_other (f := fun c => c.settle n) (fun _ => rfl) hj]
  · rw [State.copyErr_eq, State.onCopy_same (Copy.errored_id cause reason) h1]
    by_cases he : c.err.isNone = true
    · rw [Copy.errored, if_pos (show (c.settle n).err.isNone = true from he), Copy.errored, if_pos he]
      rfl
    · rw [Copy.errored, if_neg (show ¬(c.settle n).err.isNone = true from he), Copy.errored, if_neg he]
      rfl

variable {n : Nat} {p : Packet} (hc : s.copy? k = some c) (hp : c.inFlight n = some p)
include hc hp

theorem exec_packetAck (data : List Byte) (h : class10 c.dst = true) :
    exec (.packetAck k n data) s = .next (s.onCopy k fun c => c.settle n) := by
  change execPacketAck k n data s = _
  unfold execPacketAck
  rw [hc]
  dsimp only
  rw [hp]
  exact congrArg Host.Outcome.next (if_pos h)
theorem exec_packetNack (r : BitVec 8) :
    exec (.packetNack k n r) s = .next ((s.onCopy k fun c => c.settle n).copyErr k cRemoteNack r) := by
  change execPacketNack k n r s = _
  unfold execPacketNack
  rw [hc, Option.bind_some, hp]
theorem exec_copyTimeout : exec (.copyTimeout k n) s = .next (if p.t0 + ms100 ≤ s.gts then
    (s.onCopy k fun c => c.settle n).copyErr k cRemoteTimeout 0 else s) := by
  change execCopyTimeout k n s = _
  unfold execCopyTimeout
  rw [hc, Option.bind_some, hp]
theorem exec_packetRetransmit_pod {x : Nat} (hd : c.dest = some (.pod x)) : exec (.packetRetransmit k n) s = .next s := by
  change execPacketRetransmit k n s = _
  unfold execPacketRetransmit
  rw [hc]
  dsimp only
  rw [hp, hd]
theorem exec_packetRetransmit_fabric {a : DWord} (hd : c.dest = some (.fabric a)) : exec (.packetRetransmit k n) s = .next (
    if c.err.isSome || c.cancel.isSome || s.gts < p.last + p.timeout then s
    else
      let q := { p with last := s.gts, path := (p.path + 1) % c.paths, tries := p.tries + 1 }
      (s.onCopy k fun c => { c with packets := c.packets.map fun x => if x.index = n then q else x
                                    retx := min (c.retx + 1) 255 }).send (s.message c (.fabric a) q)) := by
  change execPacketRetransmit k n s = _
  unfold execPacketRetransmit
  rw [hc]
  dsimp only
  rw [hp, hd]
theorem exec_packetRetransmit_ended (h : c.err.isSome = true ∨ c.cancel.isSome = true) : exec (.packetRetransmit k n) s = .next s := by
  change execPacketRetransmit k n s = _
  unfold execPacketRetransmit
  rw [hc]
  dsimp only
  rw [hp]
  have hb : (c.err.isSome || c.cancel.isSome) = true := by simpa using h
  cases hd : c.dest with
  | none => rfl
  | some d =>
    cases d with
    | pod x => rfl
    | fabric a => exact congrArg Host.Outcome.next (if_pos (by rw [hb]; rfl))
omit hc in
theorem Copy.inFlight_index : p.index = n := by
  unfold Copy.inFlight at hp
  split at hp
  · obtain ⟨q, hq, hqp⟩ := Option.bind_eq_some_iff.mp hp
    have hn : q.index = n := by simpa using List.find?_some hq
    split at hqp
    · cases hqp
    · cases hqp
      exact hn
  · cases hp
end Copies

/-! ### The records of placed packets -/

section Placed
variable {s : State}

/-- The record of a copy of a source. -/
def Placed.keyed (j : Word) (r c : Nat) (p : Placed) : Prop := p.job = j ∧ p.srcRank = r ∧ p.copy = c
theorem State.placedOf_keyed (j : Word) (r c : Nat) : (s.placedOf j r c).keyed j r c := by
  unfold State.placedOf
  cases h : s.dr.placed.find? fun p => p.job = j && p.srcRank = r && p.copy = c with
  | none => exact ⟨rfl, rfl, rfl⟩
  | some p =>
    have hp := List.find?_some h
    simp only [Bool.and_eq_true, decide_eq_true_eq] at hp
    exact ⟨hp.1.1, hp.1.2, hp.2⟩
theorem State.placedOf_setPlaced {p : Placed} {j : Word} {r c : Nat} (h : p.keyed j r c) : (s.setPlaced p).placedOf j r c = p := by
  obtain ⟨rfl, rfl, rfl⟩ := h
  unfold State.placedOf State.setPlaced
  dsimp only
  rw [List.find?_append, List.find?_eq_none.mpr, Option.none_or, List.find?_singleton]
  · simp
  · intro q hq
    have hno := (List.mem_filter.mp hq).2
    simp only [Bool.not_eq_true', beq_eq_decide, Bool.eq_false_iff] at hno
    exact hno
theorem State.placedOf_setPlaced_other {p : Placed} {j : Word} {r c : Nat} (h : ¬p.keyed j r c) :
    (s.setPlaced p).placedOf j r c = s.placedOf j r c := by
  unfold State.placedOf State.setPlaced
  dsimp only
  have hlast : (decide (p.job = j) && decide (p.srcRank = r) && decide (p.copy = c)) = false := by
    rw [Bool.eq_false_iff]
    intro hb
    simp only [Bool.and_eq_true, decide_eq_true_eq] at hb
    exact h ⟨hb.1.1, hb.1.2, hb.2⟩
  have hfilter : (s.dr.placed.filter fun q => !(q.job == p.job && q.srcRank == p.srcRank && q.copy == p.copy)).find?
      (fun q => decide (q.job = j) && decide (q.srcRank = r) && decide (q.copy = c)) =
      s.dr.placed.find? fun q => decide (q.job = j) && decide (q.srcRank = r) && decide (q.copy = c) := by
    rw [List.find?_filter]
    refine congrArg (fun f => s.dr.placed.find? f) (funext fun q => ?_)
    rw [Bool.eq_iff_iff]
    simp only [Bool.and_eq_true, Bool.not_eq_true', Bool.eq_false_iff, ne_eq, decide_eq_true_eq, beq_iff_eq]
    constructor
    · exact fun hq => hq.2
    · rintro ⟨⟨rfl, rfl⟩, rfl⟩
      exact ⟨fun hq => h ⟨hq.1.1.symm, hq.1.2.symm, hq.2.symm⟩, ⟨rfl, rfl⟩, rfl⟩
  rw [List.find?_append, hfilter, List.find?_singleton, hlast, if_neg Bool.false_ne_true, Option.or_none]
end Placed

/-- Settles O50: an answer settles its packet and the first error stays; a packet is placed once, and none after the close. -/
theorem packetsAreAnswered : Obligations.PacketsAreAnswered := by
  unfold Obligations.PacketsAreAnswered
  refine ⟨?_, ?_, ?_⟩
  · intro s k c n p hc hp settled
    refine ⟨fun data h => ⟨_, exec_packetAck hc hp data h, State.settles_plain n hc⟩, fun r he => ⟨_, exec_packetNack hc hp r, ?_⟩,
      fun r x he => ⟨_, exec_packetNack hc hp r, ?_⟩, fun he ht => ⟨_, (exec_copyTimeout hc hp).trans (congrArg _ (if_pos ht)), ?_⟩,
      fun ht => (exec_copyTimeout hc hp).trans (congrArg _ (if_neg (Nat.not_le.mpr ht))), fun x hd => exec_packetRetransmit_pod hc hp hd,
      fun h => exec_packetRetransmit_ended hc hp h, fun a hd ht => ?_, ?_⟩
    · have h := State.settles_err n hc cRemoteNack r
      rw [Copy.errored, if_pos (by rw [he]; rfl)] at h
      exact h
    · have h := State.settles_err n hc cRemoteNack r
      rw [Copy.errored, if_neg (by rw [he]; exact Bool.false_ne_true), he] at h
      exact h
    · have h := State.settles_err n hc cRemoteTimeout 0
      rw [Copy.errored, if_pos (by rw [he]; rfl)] at h
      exact h
    · exact (exec_packetRetransmit_fabric hc hp hd).trans (congrArg _ (if_pos (by simp [Packet.timeout, ht])))
    · intro a hd ht he hcan path head
      have hdue : (c.err.isSome || c.cancel.isSome || decide (s.gts < p.last + p.timeout)) = false := by
        rw [he, hcan]
        exact decide_eq_false (Nat.not_lt.mpr ht)
      have hex := (exec_packetRetransmit_fabric hc hp hd).trans (congrArg _ (if_neg (ne_true_of_eq_false hdue)))
      refine ⟨_, hex, ?_, rfl, ?_⟩
      · have hmsg : s.message c (.fabric a) { p with last := s.gts, path := path, tries := p.tries + 1 } =
            if class10 c.dst then .packet head (byteRuns p.data) c.notify
              else .fetch head (fetchRanges ((c.cut c.carried).getD n [])) := by
          unfold State.message
          dsimp only
          rw [Copy.inFlight_index hp]
          rfl
        exact congrArg (fun m => s.outbox ++ [m]) hmsg
      · exact State.onCopy_same (f := fun c => { c with packets := c.packets.map fun x =>
          if x.index = n then { p with last := s.gts, path := path, tries := p.tries + 1 } else x, retx := min (c.retx + 1) 255 })
          (fun _ => rfl) hc
  · intro s p old ack
    refine ⟨fun hcl => ?_, fun hcl hi => ?_, fun r s1 hcl hi hpl => ?_, fun s1 hcl hi hpl => ?_⟩
    · exact congrArg Host.Outcome.next (if_pos hcl)
    · exact congrArg Host.Outcome.next ((if_neg (ne_true_of_eq_false hcl)).trans (if_pos hi))
    · change execPacketPlace p s = _
      unfold execPacketPlace
      dsimp only
      rw [if_neg (ne_true_of_eq_false hcl), if_neg hi, hpl]
      rfl
    · have hex : exec (.packetPlace p) s =
          .next ((s1.setPlaced { old with indices := nins old.indices p.index }).send ack) := by
        change execPacketPlace p s = _
        unfold execPacketPlace
        dsimp only
        rw [if_neg (ne_true_of_eq_false hcl), if_neg hi, hpl]
      have hplaced := s1.placedOf_setPlaced (p := { old with indices := nins old.indices p.index })
        (s.placedOf_keyed p.req.job p.req.srcRank p.copy)
      refine ⟨_, hex, rfl, ?_, fun j => ?_⟩
      · exact (congrArg Placed.closed hplaced).trans hcl
      · exact (iff_of_eq (congrArg (fun q : Placed => j ∈ q.indices) hplaced)).trans mem_nins
  · intro s job src copy
    refine ⟨_, rfl, rfl, State.placedOf_setPlaced ⟨rfl, rfl, rfl⟩, fun j a b hne => State.placedOf_setPlaced_other fun h => ?_⟩
    obtain ⟨h1, h2, h3⟩ := h
    exact hne (by rw [← h1, ← h2, ← h3])

end Sys2Proof.Machine
end
section
/-! PROOFS. The Porter and the ends of remote accesses (R319, R326, R327, R329, R361). -/
namespace Sys2Proof.Machine

/-! ### The Porter's checks -/

section Serve
variable {s s1 : State} {r : InReq} {k : Nat}

theorem exec_remoteRequest (load : Option Nat) (data : List Byte) : exec (.remoteRequest r load data) s =
    .next ((s.serve r load data).2.send (.reply r.srcRank (s.serve r load data).1)) := rfl

/-- The checks of a request without a notify word: the region that it may use, or the first failure. -/
theorem State.portCheck_noJob {right n : Nat} (h : ∀ j ∈ s.jobs, ¬(j.v = true ∧ j.jid = r.job)) :
    s.portCheck r right n none = (.error 2, s) := by
  have hf : (s.jobs.findIdx? fun j => j.v && j.jid == r.job) = none := List.findIdx?_eq_none_iff.mpr fun j hj => by
    rw [Bool.eq_false_iff, ne_eq, Bool.and_eq_true, beq_iff_eq]
    exact h j hj
  unfold State.portCheck
  rw [hf]
  rfl

section Job
variable (hk : s.jobs.findIdx? (fun j => j.v && j.jid == r.job) = some k)
include hk

theorem State.portCheck_noKey {right n : Nat} (h : ∀ e ∈ (s.job k).keys, e.1 ≠ tokGen r.token) :
    s.portCheck r right n none = (.error 3, s) := by
  have hno : ((s.job k).keys.any fun e => e.1 == tokGen r.token) = false := List.any_eq_false.mpr fun e he => by
    rw [beq_iff_eq]
    exact h e he
  unfold State.portCheck
  rw [hk]
  dsimp only
  rw [hno]
  rfl
theorem State.findJob : (s.jobs.find? fun j => j.v && j.jid == r.job) = some (s.job k) := by
  obtain ⟨hlt, hpk, hmin⟩ := List.findIdx?_eq_some_iff_getElem.mp hk
  have hjob : s.job k = s.jobs[k] := by
    unfold State.job
    rw [List.getElem?_eq_getElem hlt, Option.getD_some]
  rw [hjob]
  exact List.find?_eq_some_iff_getElem.mpr ⟨hpk, k, hlt, rfl, fun j hj => by
    rw [Bool.not_eq_true']
    exact Bool.eq_false_iff.mpr (hmin j hj)⟩

variable {e : Nat × List Word} (he : (s.job k).keys.find? (fun e => e.1 = tokGen r.token) = some e)
include he

theorem State.macOk_iff : s.macOk r.job r.token = true ↔
    Config.kmac e.2 (r.token.extractLsb' 32 32) (s.job k).rank r.job = r.token.extractLsb' 0 32 := by
  unfold State.macOk
  rw [State.findJob hk]
  dsimp only
  rw [he]
  exact beq_iff_eq
/-- What the Porter grants of a region: the bytes, under a right that the token and the entry both give. -/
def RegionEntry.grants (g : RegionEntry) (r : InReq) (right n : Nat) : Except (BitVec 8) Unit :=
  if tokRegion r.token ≠ r.region then .error 6
  else if (tokRights r.token &&& g.rights).getLsbD right = false then .error 7
  else if min (2 ^ tokSize r.token) (2 ^ g.size) < r.offset + n then .error 8
  else .ok ()

omit hk in
theorem State.key_held : ((s.job k).keys.any fun e => e.1 == tokGen r.token) = true := by
  refine List.any_eq_true.mpr ⟨e, List.mem_of_find?_eq_some he, ?_⟩
  have h := List.find?_some he
  rw [decide_eq_true_eq] at h
  exact beq_iff_eq.mpr h
variable {right n : Nat}
theorem State.portCheck_badMac (hmac : s.macOk r.job r.token = false) : s.portCheck r right n none = (.error 4, s) := by
  unfold State.portCheck
  rw [hk]
  dsimp only
  rw [State.key_held he, hmac]
  rfl
variable (hmac : s.macOk r.job r.token = true)
include hmac
theorem State.portCheck_expired (hcur : s.current r.token = false) : s.portCheck r right n none = (.error 5, s) := by
  unfold State.portCheck
  rw [hk]
  dsimp only
  rw [State.key_held he, hmac, hcur]
  rfl
variable (hcur : s.current r.token = true)
include hcur
theorem State.portCheck_noRegion (hr : s.region k (tokRegion r.token) = (none, s1)) : s.portCheck r right n none = (.error 6, s1) := by
  unfold State.portCheck
  rw [hk]
  dsimp only
  rw [State.key_held he, hmac, hcur, hr]
  rfl
theorem State.portCheck_granted {g : RegionEntry} (hr : s.region k (tokRegion r.token) = (some g, s1)) :
    s.portCheck r right n none = ((g.grants r right n).map fun _ => (k, g), s1) := by
  unfold State.portCheck RegionEntry.grants
  rw [hk]
  dsimp only
  rw [State.key_held he, hmac, hcur, hr, BitVec.getLsbD_and]
  simp only [Bool.not_true, Bool.false_eq_true, if_false, Option.any_none, Bool.or_false, Option.isSome_none, Bool.false_and,
    decide_eq_true_eq, Bool.not_eq_true']
  split
  · rfl
  · split
    · rfl
    · split <;> rfl
end Job

/-- The answer of a request whose checks have given their result. -/
theorem State.serve_refused {load : Option Nat} {data : List Byte} {x : BitVec 8}
    (h : s.portCheck r (if load.isSome then 0 else 1) (load.getD data.length) none = (.error x, s1)) :
    s.serve r load data = (.nack x, s1) := by
  unfold State.serve
  dsimp only
  rw [h]
section Passed
variable {load : Option Nat} {data : List Byte} {g : RegionEntry} {s2 : State}
  (h : s.portCheck r (if load.isSome then 0 else 1) (load.getD data.length) none = (.ok (k, g), s1))
include h
theorem State.serve_untranslated {x : BitVec 8}
    (hl : s1.portLocs k g (if load.isSome then .load else .store) r.offset (load.getD data.length) = (.error x, s2)) :
    s.serve r load data = (.nack x, s2) := by
  unfold State.serve
  dsimp only
  rw [h]
  dsimp only
  rw [hl]
theorem State.serve_load {ls : List Loc} (hs : load.isSome = true)
    (hl : s1.portLocs k g (if load.isSome then .load else .store) r.offset (load.getD data.length) = (.ok ls, s2)) :
    s.serve r load data =
      (.data (s2.portRead (ls.zip ((pieces (g.base.toNat + r.offset) (load.getD data.length)).map (·.2)))).1,
        (s2.portRead (ls.zip ((pieces (g.base.toNat + r.offset) (load.getD data.length)).map (·.2)))).2) := by
  unfold State.serve
  dsimp only
  rw [h]
  dsimp only
  rw [hl]
  exact if_pos hs
theorem State.serve_store {ls : List Loc} (hs : load = none)
    (hl : s1.portLocs k g (if load.isSome then .load else .store) r.offset (load.getD data.length) = (.ok ls, s2)) :
    s.serve r load data = (.data [], s2.portWrite data (ls.zip ((pieces (g.base.toNat + r.offset) (load.getD data.length)).map (·.2)))) := by
  unfold State.serve
  dsimp only
  rw [h]
  dsimp only
  rw [hl]
  exact if_neg (by rw [hs]; exact Bool.false_ne_true)
end Passed
theorem State.portLocs_error {g : RegionEntry} {ak : AK} {off n : Nat} {x : BitVec 8} (h : s.portLocs k g ak off n = (.error x, s1)) : x = 9 := by
  unfold State.portLocs at h
  dsimp only at h
  split at h
  · cases h
    rfl
  · cases h
end Serve

end Sys2Proof.Machine
end
section
/-! PROOFS. Remote atomics and the ends of remote accesses, and the obligation on the Porter (R319, R329, R361). -/
namespace Sys2Proof.Machine

section Atomics
variable {s s1 : State} {a : InAtomic} {x : Reply}

/-- The reply of a served atomic is cached where it carries data (R329). -/
def cachedReply (a : InAtomic) (x : Reply) (now : Nat) : List CachedReply :=
  match x with
  | .data _ => [CachedReply.mk a.req.srcRank a.seq x now]
  | _ => []
theorem remoteAtomic_served (ht : s.gts < a.t0 + 7000000) (hno : ∀ y ∈ s.dr.replies, ¬(y.srcRank = a.req.srcRank ∧ y.seq = a.seq))
    (hs : s.serveAtomic a.req a.op a.lanes = (x, s1)) :
    ∃ t, exec (.remoteAtomicExecute a) s = .next t ∧ t.outbox = s1.outbox ++ [.atomReply a.req.srcRank a.seq x] ∧
      t.mem = s1.mem ∧ t.dr.replies = s1.dr.replies ++ cachedReply a x s1.gts := by
  have hf : (s.dr.replies.find? fun y => y.srcRank = a.req.srcRank && y.seq = a.seq) = none := List.find?_eq_none.mpr fun y hy h => by
    rw [Bool.and_eq_true, decide_eq_true_eq, decide_eq_true_eq] at h
    exact hno y hy h
  change ∃ t, execRemoteAtomicExecute a s = .next t ∧ _
  unfold execRemoteAtomicExecute
  rw [if_neg (show ¬a.t0 + ms7 ≤ s.gts from Nat.not_le.mpr ht), hf]
  dsimp only
  rw [hs]
  cases x with
  | data bs => exact ⟨_, rfl, rfl, rfl, rfl⟩
  | nack r => exact ⟨_, rfl, rfl, rfl, (List.append_nil _).symm⟩
  | portDown => exact ⟨_, rfl, rfl, rfl, (List.append_nil _).symm⟩
theorem remoteAtomic_repeated {y : CachedReply} (ht : s.gts < a.t0 + 7000000)
    (hf : s.dr.replies.find? (fun x => x.srcRank = a.req.srcRank && x.seq = a.seq) = some y) :
    exec (.remoteAtomicExecute a) s = .next { s with outbox := s.outbox ++ [.atomReply a.req.srcRank a.seq y.reply] } := by
  have hy := List.find?_some hf
  rw [Bool.and_eq_true, decide_eq_true_eq, decide_eq_true_eq] at hy
  change execRemoteAtomicExecute a s = _
  unfold execRemoteAtomicExecute
  rw [if_neg (show ¬a.t0 + ms7 ≤ s.gts from Nat.not_le.mpr ht), hf]
  dsimp only
  rw [hy.1, hy.2]
  rfl
end Atomics

/-! ### The end of an access to another device -/

section Remote
variable {s : State} {n : Nat} {o : MemOp} {l : OpLane} {t0 tries : Nat} {port : Option Nat}

/-- The outcome of an access of one lane that ends. -/
def State.EndsOp (s t : State) (n : Nat) (o : MemOp) (id : SId) (f : Stream → Stream) : Prop :=
  t = { s with streams := t.streams, ops := t.ops } ∧ t.op? n = none ∧
    (t.stream id).bare = { f (s.stream id) with cnt := (s.stream id).cnt.dec o.counter }.bare ∧
    ∀ i, i ≠ id → t.stream? i = s.stream? i

/-- What a reply that comes in time makes of its operation. -/
def State.replyEnds (s : State) (o : MemOp) : Reply → State
  | .data bs => s.answered o bs
  | .nack e => s.failOp o cRemoteNack (e.setWidth 16)
  | .portDown => s.failOp o cPodPortDown 0

variable (ho : s.op? n = some o) (hl : o.lanes = [l]) (hp : s.Present [l.sid]) (he : o.entry = none)
include ho hl hp he

theorem State.endsOp_of {f : Stream → Stream} (hs : o.single = true) (hw : o.returns = true → (s.stream l.sid).window = none) (x : DWord)
    (hf : ∀ st : Stream, st.took o (if o.returns then some x else none) = f st) : s.EndsOp (s.endOp o [x]) n o l.sid f := by
  obtain ⟨h1, h2, h3, h4⟩ := State.endOp_one hs hl hp hw (fun _ => he) x
  refine ⟨h1, State.num_of_op? ho ▸ h2, ?_, h3⟩
  rw [h4, Stream.finished_eq, hf]
theorem State.endsOp_fail {f : Stream → Stream} (hs : o.single = true) (hw : o.returns = true → (s.stream l.sid).window = none) (c : Cause)
    (r : BitVec 16) (hf : ∀ st : Stream,
      ({ st with slots := st.slots.record o.counter ⟨c, r⟩ } : Stream).took o (if o.returns then some (allOnes o.size) else none) = f st) :
    s.EndsOp (s.failOp o c r) n o l.sid f := by
  obtain ⟨h1, h2, h3, h4⟩ := State.failOp_one (c := c) (r := r) hs hl hp hw (fun _ => he)
  refine ⟨h1, State.num_of_op? ho ▸ h2, ?_, h3⟩
  rw [h4, Stream.finished_eq, hf]
omit hl hp he

variable (hph : o.phase = .sent t0 tries port) (hk : 2 ^ 63 ≤ o.loc.key)
include hph hk
omit ho in
theorem MemOp.sentAt_ranked : o.sentAt = some t0 := by
  rw [MemOp.sentAt, hph]
  exact if_pos (decide_eq_true hk)
theorem exec_remoteReply (r : Reply) : exec (.remoteReply n r) s = .next (if o.deadline t0 ≤ s.gts then s else s.replyEnds o r) := by
  change execRemoteReply n r s = _
  unfold execRemoteReply
  rw [ho]
  dsimp only
  rw [MemOp.sentAt_ranked hph hk]
  cases r <;> rfl
theorem exec_remoteAccessTimeout : exec (.remoteAccessTimeout n) s =
    .next (if !o.isRmw && decide (o.deadline t0 ≤ s.gts) then s.failOp o cRemoteTimeout 0 else s) := by
  change execRemoteAccessTimeout n s = _
  unfold execRemoteAccessTimeout
  rw [ho]
  dsimp only
  rw [MemOp.sentAt_ranked hph hk]
theorem exec_atomicOutcomeUnknown : exec (.atomicOutcomeUnknown n) s =
    .next (if o.isRmw && decide (o.deadline t0 ≤ s.gts) then s.failOp o cOutcomeUnknown 0 else s) := by
  change execAtomicOutcomeUnknown n s = _
  unfold execAtomicOutcomeUnknown
  rw [ho]
  dsimp only
  rw [MemOp.sentAt_ranked hph hk]
omit hk
theorem exec_remoteAtomicResend : exec (.remoteAtomicResend n) s =
    .next (if o.isRmw && o.loc.space == .remote && decide (t0 + resendAfter tries ≤ s.gts) && decide (s.gts < t0 + 6000000) then
      { s.onOp n (fun o => { o with phase := .sent t0 (tries + 1) port }) with outbox := s.outbox ++ (s.requestOf n).take 1 }
    else s) := by
  change execRemoteAtomicResend n s = _
  unfold execRemoteAtomicResend
  rw [ho]
  dsimp only
  rw [hph]
  rfl
end Remote

/-- Settles O51: the Porter answers the first check that fails, and serves what passes; an access ends with its answer, its loss or
its silence, each within its own time. -/
theorem porterAndRemoteAccesses : Obligations.PorterAndRemoteAccesses := by
  unfold Obligations.PorterAndRemoteAccesses
  refine ⟨⟨?_, ?_, ?_⟩, ?_⟩
  · intro s r load data n right answer
    have hans : ∀ {t : State} {x : Reply}, s.serve r load data = (x, t) → answer t x := fun {t x} h => by
      change exec (.remoteRequest r load data) s = _
      rw [exec_remoteRequest, h]
      rfl
    refine ⟨fun hno => hans (State.serve_refused (State.portCheck_noJob hno)), fun k hk => ⟨fun hkey =>
      hans (State.serve_refused (State.portCheck_noKey hk hkey)), fun e he => ?_⟩⟩
    intro mac
    have hiff : s.macOk r.job r.token = true ↔ mac := State.macOk_iff hk he
    refine ⟨fun hm => hans (State.serve_refused (State.portCheck_badMac hk he (Bool.eq_false_iff.mpr (hm ∘ hiff.mp)))),
      fun hm hcur => hans (State.serve_refused (State.portCheck_expired hk he (hiff.mpr hm) hcur)), fun hm hcur => ⟨fun s1 hr =>
      hans (State.serve_refused (State.portCheck_noRegion hk he (hiff.mpr hm) hcur hr)), fun s1 g hr => ?_⟩⟩
    intro rights limit
    have hgr := State.portCheck_granted (right := right) (n := n) hk he (hiff.mpr hm) hcur hr
    refine ⟨fun h => hans (State.serve_refused ?_), fun h h' => hans (State.serve_refused ?_),
      fun h h' hl => hans (State.serve_refused ?_), fun h h' hl => ?_⟩
    · rw [RegionEntry.grants, if_pos h] at hgr
      exact hgr
    · rw [RegionEntry.grants, if_neg (not_not_intro h), if_pos h'] at hgr
      exact hgr
    · rw [RegionEntry.grants, if_neg (not_not_intro h), if_neg (ne_false_of_eq_true h'), if_pos hl] at hgr
      exact hgr
    · rw [RegionEntry.grants, if_neg (not_not_intro h), if_neg (ne_false_of_eq_true h'),
        if_neg (Nat.not_lt.mpr hl)] at hgr
      intro places lens
      refine ⟨fun x s2 hpl => ?_, fun ls s2 hpl => ⟨fun hs => hans (State.serve_load hgr hs hpl), fun hs => hans (State.serve_store hgr hs hpl)⟩⟩
      have hx := State.portLocs_error hpl
      subst hx
      exact ⟨rfl, hans (State.serve_untranslated hgr hpl)⟩
  · intro s a
    refine ⟨fun h => congrArg Host.Outcome.next (if_pos h), fun h => ⟨fun x hx => remoteAtomic_repeated h hx, fun x s1 hno hs => ?_⟩⟩
    obtain ⟨t, h1, h2, h3, h4⟩ := remoteAtomic_served h hno hs
    refine ⟨t, h1, h2, h3, h4.trans ?_⟩
    cases x <;> rfl
  · intro s src seq
    refine ⟨_, rfl, rfl, fun x => List.mem_filter.trans (and_congr_right fun _ => ?_)⟩
    simp only [Bool.not_eq_true', Bool.eq_false_iff, ne_eq, Bool.and_eq_true, beq_iff_eq, decide_eq_true_eq, and_assoc]
    rfl
  · intro s n o l t0 tries port ho hph hk hl hp he st ends
    refine ⟨?_, fun hkind => ?_⟩
    · intro hkind hsize hd hw inTime fails
      have hs : o.single = true := by rw [MemOp.single, hkind]
      have hret : o.returns = true := by rw [MemOp.returns, hkind]
      have hdl : o.deadline t0 = t0 + 100000000 := by rw [MemOp.deadline, MemOp.isRmw, hkind]; rfl
      have hmw : o.isRmw = false := by rw [MemOp.isRmw, hkind]
      have hreply := exec_remoteReply ho hph hk
      have hsilent := exec_remoteAccessTimeout ho hph hk
      rw [hmw] at hsilent
      rw [hdl] at hreply hsilent
      have hones : allOnes o.size = 0xFFFFFFFF := by rw [hsize]; rfl
      have hfail : ∀ (c : Cause) (r : BitVec 16), ends (s.failOp o c r) (fails ⟨c, r⟩) := fun c r =>
        State.endsOp_fail ho hl hp he hs (fun _ => hw) c r fun st => by
          rw [if_pos hret, hones, Stream.took, hsize]
          exact Stream.wr_slots ..
      refine ⟨fun bs ht => ⟨_, (hreply _).trans (congrArg _ (if_neg (Nat.not_le.mpr ht))), ?_⟩,
        fun r ht => ⟨_, (hreply _).trans (congrArg _ (if_neg (Nat.not_le.mpr ht))), hfail 0x20 (r.setWidth 16)⟩,
        fun ht => ⟨_, (hreply _).trans (congrArg _ (if_neg (Nat.not_le.mpr ht))), hfail 0x24 0⟩,
        fun ht => ⟨⟨_, hsilent.trans (congrArg _ (if_pos (by rw [decide_eq_true ht]; rfl))), hfail 0x21 0⟩, fun r =>
          (hreply r).trans (congrArg _ (if_pos ht))⟩,
        fun ht => hsilent.trans (congrArg _ (if_neg (by rw [decide_eq_false (Nat.not_le.mpr ht)]; exact Bool.false_ne_true)))⟩
      have hans : s.replyEnds o (.data bs) = s.endOp o [o.value bs] := by
        unfold State.replyEnds State.answered
        rw [hkind]
      rw [hans]
      refine State.endsOp_of (f := fun st => st.wr o.d (BitVec.ofNat 32 (natOfBytes (bs.take 4)))) ho hl hp he hs (fun _ => hw)
        (o.value bs) fun st => ?_
      have hv : (o.value bs).setWidth 32 = BitVec.ofNat 32 (natOfBytes (bs.take 4)) := by
        rw [MemOp.value, MemOp.sx, hkind, hsize]
        generalize natOfBytes (bs.take 4) = v
        apply BitVec.eq_of_toNat_eq
        simp [extendLoad]
      rw [if_pos hret, Stream.took, hsize, hv]
      exact if_neg (by decide)
    · have hs : o.single = true := by rw [MemOp.single, hkind]
      have hret : o.returns = false := by rw [MemOp.returns, hkind]
      have hmw : o.isRmw = true := by rw [MemOp.isRmw, hkind]
      have hdl : o.deadline t0 = t0 + 8000000 := by rw [MemOp.deadline, hmw]; rfl
      have hreply := exec_remoteReply ho hph hk
      have hsilent := exec_atomicOutcomeUnknown ho hph hk
      have hagain := exec_remoteAtomicResend ho hph
      rw [hmw] at hsilent hagain
      rw [hdl] at hreply hsilent
      have hnot : ∀ h : o.returns = true, (s.stream l.sid).window = none := fun h => absurd (hret.symm.trans h) Bool.false_ne_true
      refine ⟨fun bs ht => ⟨_, (hreply _).trans (congrArg _ (if_neg (Nat.not_le.mpr ht))), ?_⟩,
        fun r ht => (hreply r).trans (congrArg _ (if_pos ht)), fun hsp h1 h2 => ?_, fun h => ?_,
        fun ht => ⟨_, hsilent.trans (congrArg _ (if_pos (by rw [decide_eq_true ht]; rfl))), ?_⟩,
        fun ht => hsilent.trans (congrArg _ (if_neg (by rw [decide_eq_false (Nat.not_le.mpr ht)]; exact Bool.false_ne_true)))⟩
      · have hans : s.replyEnds o (.data bs) = s.endOp o (replyVals (rmwSize .add) 1 bs) := by
          unfold State.replyEnds State.answered
          rw [hkind, hl]
          rfl
        rw [hans]
        exact State.endsOp_of (f := fun st => st) ho hl hp he hs hnot _ fun st => by
          simp only [hret, Bool.false_eq_true, if_false, Stream.took]
      · refine ⟨_, hagain.trans (congrArg _ (if_pos ?_)), rfl, State.onOp_op? (fun _ => rfl) ho, rfl⟩
        rw [hsp, decide_eq_true h1, decide_eq_true h2]
        rfl
      · refine hagain.trans (congrArg _ (if_neg ?_))
        rcases h with h | h
        · rw [decide_eq_false (Nat.not_lt.mpr h), Bool.and_false]
          exact Bool.false_ne_true
        · rw [decide_eq_false (Nat.not_le.mpr h), Bool.and_false, Bool.false_and]
          exact Bool.false_ne_true
      · exact State.endsOp_fail (f := fun st => { st with slots := st.slots.record o.counter ⟨0x22, 0⟩ }) ho hl hp he hs hnot 0x22 0
          fun st => by simp only [hret, Bool.false_eq_true, if_false, Stream.took]

end Sys2Proof.Machine
end
section
/-! PROOFS. Multicasts leave with their bytes (R388, R389). -/
namespace Sys2Proof.Machine

/-! ### Runs of bytes -/

/-- The bytes of runs, each at its address. -/
def runBytes (rs : List (DWord × List Byte)) : List (DWord × Byte) :=
  rs.flatMap fun r => r.2.mapIdx fun j b => (r.1 + BitVec.ofNat 64 j, b)
theorem runBytes_cons (a : DWord) (b : Byte) (bs : List Byte) (rs : List (DWord × List Byte)) :
    runBytes ((a, b :: bs) :: rs) = (a, b) :: runBytes ((a + 1, bs) :: rs) := by
  unfold runBytes
  rw [List.flatMap_cons, List.flatMap_cons, List.mapIdx_cons]
  have hstep : (fun (j : Nat) (b : Byte) => (a + BitVec.ofNat 64 (j + 1), b)) = fun j b => (a + 1 + BitVec.ofNat 64 j, b) := by
    funext j b
    rw [BitVec.ofNat_add, BitVec.add_comm (BitVec.ofNat 64 j), ← BitVec.add_assoc]
    rfl
  rw [hstep, List.cons_append, BitVec.ofNat_eq_ofNat, BitVec.add_zero]
/-- The runs of bytes hold those bytes and no other. -/
theorem runBytes_byteRuns (l : List (DWord × Byte)) : runBytes (byteRuns l) = l := by
  induction l with
  | nil => rfl
  | cons p l ih =>
    obtain ⟨a, b⟩ := p
    unfold byteRuns
    split
    · next h =>
      rw [h] at ih
      rw [runBytes_cons, ← ih]
      rfl
    · next x bs rs h =>
      rw [h] at ih
      split
      · next hx =>
        rw [Bool.and_eq_true, decide_eq_true_eq] at hx
        rw [runBytes_cons, ← hx.1, ih]
      · rw [runBytes_cons, ← ih]
        rfl

/-! ### The request -/

section Send
variable (s : State) (st : Stream) (a : McArgs) (bytes : List (DWord × Byte))

/-- The members to which a multicast goes. -/
def McArgs.peers (a : McArgs) : List Nat := a.group.members.filter (· ≠ a.own)
/-- The members to which something is sent, with their tokens. -/
def State.mcTokens (s : State) (asid : BitVec 16) (a : McArgs) : List (Nat × DWord) :=
  a.peers.filterMap fun p => (s.mcMember asid a p).toOption.map fun t => (p, t)
theorem State.mem_mcTokens {asid : BitVec 16} {p : Nat} {tok : DWord} :
    (p, tok) ∈ s.mcTokens asid a ↔ p ∈ a.peers ∧ s.mcMember asid a p = .ok tok := by
  unfold State.mcTokens
  rw [List.mem_filterMap]
  constructor
  · rintro ⟨q, hq, hm⟩
    obtain ⟨t, ht, heq⟩ := Option.map_eq_some_iff.mp hm
    cases heq
    refine ⟨hq, ?_⟩
    cases hc : s.mcMember asid a p with
    | error e => rw [hc] at ht; cases ht
    | ok t' => rw [hc] at ht; cases ht; rfl
  · rintro ⟨hp, hm⟩
    exact ⟨p, hp, by rw [hm]; rfl⟩
/-- The packets of a multicast. -/
def State.mcPackets (s : State) (asid : BitVec 16) (a : McArgs) (bytes : List (DWord × Byte)) : List Msg :=
  if !s.links.anyPort || (s.mcTokens asid a).isEmpty then [] else
    ((List.range ((bytes.length + 255) / 256)).map fun i => (bytes.drop (256 * i)).take 256).mapIdx fun i p =>
      Msg.mcast s.nextOp i (s.mcTokens asid a) (byteRuns p) (a.notify.setWidth 64)
/-- The first answer of a member: none while it is awaited. -/
def State.mcAnswer (s : State) (asid : BitVec 16) (a : McArgs) (p : Nat) : Option (BitVec 8) :=
  if !s.links.anyPort then some 0x0C else match s.mcMember asid a p with
    | .error r => some r
    | .ok _ => none
def State.newMcast (s : State) (st : Stream) (a : McArgs) : Mcast :=
  let t := s.team st.id.tcx
  { num := s.nextOp, sid := st.id, fn := t.fn, asid := t.recd.asid, rankBase := a.group.rankBase
    members := a.peers.map fun p => (p, s.mcAnswer t.recd.asid a p), ack := a.ack, srcCtr := a.srcCtr, time := s.gts
    portDown := !s.links.anyPort, answered := false }
theorem State.sendMcast_eq : s.sendMcast st a bytes = { s with
    co := { s.co with mcasts := s.co.mcasts ++ [s.newMcast st a] }, nextOp := s.nextOp + 1
    outbox := s.outbox ++ s.mcPackets (s.team st.id.tcx).recd.asid a bytes } := by
  have hview : ∀ asid : BitVec 16, (a.peers.map fun p => (p, s.mcMember asid a p)).filterMap (fun v => match v.2 with
      | .ok t => some (v.1, t)
      | .error _ => none) = s.mcTokens asid a := by
    intro asid
    rw [List.filterMap_map]
    refine List.filterMap_congr fun p _ => ?_
    rw [Function.comp_apply]
    dsimp only
    cases s.mcMember asid a p <;> rfl
  unfold State.sendMcast
  extract_lets t ps down view answer m toks parts msgs
  have htoks : toks = s.mcTokens t.recd.asid a := (hview t.recd.asid)
  have hm : m = s.newMcast st a := by
    change ({ num := s.nextOp, sid := st.id, fn := t.fn, asid := t.recd.asid, rankBase := a.group.rankBase
              members := view.map fun v => (v.1, answer v.2), ack := a.ack, srcCtr := a.srcCtr, time := s.gts
              portDown := down, answered := false } : Mcast) = _
    unfold State.newMcast
    rw [List.map_map]
    rfl
  have hmsgs : msgs = s.mcPackets t.recd.asid a bytes := by
    change (if down || toks.isEmpty then [] else parts.mapIdx fun i (p : List (DWord × Byte)) =>
      Msg.mcast s.nextOp i toks (byteRuns p) (a.notify.setWidth 64)) = _
    rw [htoks]
    rfl
  rw [hm, hmsgs]
end Send

end Sys2Proof.Machine
end
section
/-! PROOFS. The answers of multicasts (R390), and the obligation on them. -/
namespace Sys2Proof.Machine

section Word
variable (c : Mcast)

/-- The answers of the members, silence for those that gave none. -/
def Mcast.heard (c : Mcast) : List (BitVec 8) := c.members.map fun x => x.2.getD 0x0B
/-- The members that answered with a NACK. -/
def Mcast.nacked (c : Mcast) : List (Nat × BitVec 8) := c.answers.filter fun x => x.2 != 0
theorem Mcast.heard_eq : c.heard = c.answers.map (·.2) := by
  rw [Mcast.answers, List.map_map]
  rfl
theorem Mcast.nacked_reasons : c.nacked.map (·.2) = c.heard.filter fun r => r != 0 := by
  rw [Mcast.heard_eq, List.filter_map]
  rfl
theorem Mcast.answers_length : c.answers.length = c.heard.length := by rw [Mcast.heard_eq, List.length_map]
theorem Mcast.nacked_length : c.nacked.length = (c.heard.filter fun r => r != 0).length := by
  rw [← Mcast.nacked_reasons, List.length_map]
/-- The first NACK as the word gives it: the member's rank and the reason. -/
def Mcast.firstRank (c : Mcast) : BitVec 17 := c.nacked.head?.elim 0 fun x => BitVec.ofNat 17 (c.rankBase + x.1)
def Mcast.firstReason (c : Mcast) : BitVec 8 := c.nacked.head?.elim 0 (·.2)
theorem Mcast.word_eq : c.word = 1#1 ++ 0#14 ++ c.firstRank ++ 0#4 ++ c.firstReason ++ BitVec.ofNat 10 c.nacked.length ++
    BitVec.ofNat 10 (c.answers.length - c.nacked.length) := by
  unfold Mcast.word Mcast.firstRank Mcast.firstReason Mcast.nacked
  dsimp only
  cases (c.answers.filter fun x => x.2 != 0).head? <;> rfl
theorem word_fields (a : BitVec 17) (b : BitVec 8) (n m : BitVec 10) :
    (1#1 ++ 0#14 ++ a ++ 0#4 ++ b ++ n ++ m : BitVec 64).msb = true ∧ (1#1 ++ 0#14 ++ a ++ 0#4 ++ b ++ n ++ m : BitVec 64).extractLsb' 0 10 = m ∧
      (1#1 ++ 0#14 ++ a ++ 0#4 ++ b ++ n ++ m : BitVec 64).extractLsb' 10 10 = n ∧
      (1#1 ++ 0#14 ++ a ++ 0#4 ++ b ++ n ++ m : BitVec 64).extractLsb' 20 8 = b ∧
      (1#1 ++ 0#14 ++ a ++ 0#4 ++ b ++ n ++ m : BitVec 64).extractLsb' 32 17 = a := by
  refine ⟨?_, ?_, ?_, ?_, ?_⟩
  · rw [BitVec.msb_append, if_neg (by decide), BitVec.msb_append, if_neg (by decide), BitVec.msb_append, if_neg (by decide),
      BitVec.msb_append, if_neg (by decide), BitVec.msb_append, if_neg (by decide)]
    rfl
  · rw [BitVec.extractLsb'_append_eq_of_add_le (by decide), BitVec.extractLsb'_eq_self]
  · rw [BitVec.extractLsb'_append_eq_of_le (by decide), BitVec.extractLsb'_append_eq_of_add_le (by decide), BitVec.extractLsb'_eq_self]
  · rw [BitVec.extractLsb'_append_eq_of_le (by decide), BitVec.extractLsb'_append_eq_of_le (by decide),
      BitVec.extractLsb'_append_eq_of_add_le (by decide), BitVec.extractLsb'_eq_self]
  · rw [BitVec.extractLsb'_append_eq_of_le (by decide), BitVec.extractLsb'_append_eq_of_le (by decide),
      BitVec.extractLsb'_append_eq_of_le (by decide), BitVec.extractLsb'_append_eq_of_le (by decide),
      BitVec.extractLsb'_append_eq_of_add_le (by decide), BitVec.extractLsb'_eq_self]
theorem Mcast.firstReason_eq : c.firstReason = (c.heard.filter fun r => r != 0).headD 0 := by
  rw [← Mcast.nacked_reasons, Mcast.firstReason]
  cases c.nacked <;> rfl
theorem Mcast.nacked_head {x : Nat} {r : Option (BitVec 8)} (h : c.members.find? (fun x => x.2.getD 0x0B != 0) = some (x, r)) :
    c.nacked.head? = some (x, r.getD 0x0B) := by
  unfold Mcast.nacked Mcast.answers
  rw [List.head?_filter, List.find?_map]
  exact congrArg _ h
/-- The error of a multicast by the reason of its first NACK. -/
def Mcast.errOf (c : Mcast) (r : BitVec 8) : Err :=
  if c.portDown then ⟨0x24, 0⟩
  else if ∀ r ∈ c.heard.filter fun r => r != 0, r = 0x0B then ⟨0x21, 0⟩
  else ⟨0x20, r.setWidth 16⟩
theorem Mcast.err_eq : c.err = (c.heard.filter fun r => r != 0).head?.map c.errOf := by
  have hall : (c.nacked.all fun x => x.2 == rSilent) = true ↔ ∀ r ∈ c.heard.filter fun r => r != 0, r = 0x0B := by
    rw [← Mcast.nacked_reasons, List.all_eq_true]
    simp only [List.mem_map, beq_iff_eq, rSilent]
    exact ⟨fun h r ⟨x, hx, hr⟩ => hr ▸ h x hx, fun h x hx => h x.2 ⟨x, hx, rfl⟩⟩
  unfold Mcast.errOf
  rw [← Mcast.nacked_reasons] at hall ⊢
  unfold Mcast.err
  change (match c.nacked.head? with
    | none => none
    | some x => if c.portDown then some ⟨cPodPortDown, 0⟩
      else if c.nacked.all fun x => x.2 == rSilent then some ⟨cRemoteTimeout, 0⟩
      else some ⟨cRemoteNack, x.2.setWidth 16⟩ : Option Err) = _
  cases hn : c.nacked with
  | nil => rfl
  | cons x xs =>
    rw [hn] at hall
    dsimp only [List.head?_cons, List.map_cons, Option.map_some]
    cases c.portDown with
    | true => rfl
    | false =>
      rw [if_neg Bool.false_ne_true]
      by_cases h : ∀ r ∈ (x :: xs).map (·.2), r = 0x0B
      · rw [if_pos (hall.mpr h)]
        exact congrArg some (if_pos h).symm
      · rw [if_neg (fun hb => h (hall.mp hb))]
        exact congrArg some (if_neg h).symm
end Word
end Sys2Proof.Machine
end
section
/-! PROOFS. `mcst`, `mcput` and the acknowledgement of multicasts (R388 to R390), and the obligation on them. -/
namespace Sys2Proof.Machine

/-! ### The two instructions -/

section Issue
variable {g : Guard} {grp s1 x : Reg} {k1 : Bool} {s : State} {a : McArgs}

theorem State.mcastFrame_passes {put : Bool} {low : SId} {rest : List SId} (hact : s.active g = low :: rest) (hc : (s.stream low).cnt.cp < 254)
    (hn : s.nearPending (low :: rest) 0b11111 = false)
    (hargs : s.mcArgs (s.stream low) grp x put (decide ((s.groupsOf (low :: rest)).length ≤ 1)) = .ok a) (f : Stream → McArgs → State) :
    s.mcastFrame g grp x put f = f (s.stream low) a := by
  have hfull : s.counterFull [low] 2 = false := by
    unfold State.counterFull
    simpa [Counters.get] using hc
  unfold State.mcastFrame
  rw [State.lowest_of hact, hact]
  dsimp only
  rw [s.stream_id, hfull, hn, if_neg Bool.false_ne_true, if_neg Bool.false_ne_true, hargs]

section Store
variable {id : SId} {sa : DWord} (ha : s.Alone g id) (hc : (s.stream id).cnt.cp < 254) (hn : s.nearPending [id] 0b11111 = false)
  (hargs : s.mcArgs (s.stream id) grp x false (decide ((s.groupsOf [id]).length ≤ 1)) = .ok a)
  (hsa : s.copyRange (s.stream id) ((s.stream id).rd64 s1) a.len = .ok sa) (h10 : class10 sa = false)
include ha hc hn hargs hsa h10

theorem exec_mcst_sends {bs : List Byte} {s2 : State}
    (hr : (s.countCopy id).mcastRead (s.team id.tcx).fn ((s.team id.tcx).coreOf id) (s.team id.tcx).recd.asid (pieces sa.toNat a.len) =
      (.ok bs, s2)) :
    exec (.mcst g grp s1 k1 x) s = .next ((s2.sendMcast (s.stream id) a (bs.mapIdx fun i b => (a.template + BitVec.ofNat 64 i, b))).retireLanes g
      fun st => st.kill64 s1 k1) := by
  change execMcst g grp s1 k1 x s = _
  unfold execMcst
  rw [State.mcastFrame_passes (State.active_one ha.1 ha.2.1) hc hn hargs]
  dsimp only
  rw [hsa]
  dsimp only
  rw [h10, if_neg Bool.false_ne_true, s.stream_id, hr]
theorem exec_mcst_unread {e : Cause} {s2 : State}
    (hr : (s.countCopy id).mcastRead (s.team id.tcx).fn ((s.team id.tcx).coreOf id) (s.team id.tcx).recd.asid (pieces sa.toNat a.len) =
      (.error e, s2)) :
    exec (.mcst g grp s1 k1 x) s = .next ((((s2.bumpIf (s.team id.tcx).fn (s.team id.tcx).recd.asid a.srcCtr 1 true).recordErr id 2
      ⟨e, 0⟩).decCounter id 2).retireLanes g fun st => st.kill64 s1 k1) := by
  change execMcst g grp s1 k1 x s = _
  unfold execMcst
  rw [State.mcastFrame_passes (State.active_one ha.1 ha.2.1) hc hn hargs]
  dsimp only
  rw [hsa]
  dsimp only
  rw [h10, if_neg Bool.false_ne_true, s.stream_id, hr]
end Store

theorem exec_mcput {low : SId} {rest : List SId} (hact : s.active g = low :: rest) (hc : (s.stream low).cnt.cp < 254)
    (hn : s.nearPending (low :: rest) 0b11111 = false)
    (hargs : s.mcArgs (s.stream low) grp x true (decide ((s.groupsOf (low :: rest)).length ≤ 1)) = .ok a) :
    exec (.mcput g grp s1 k1 x) s = .next (((s.countCopy low).sendMcast (s.stream low) a ((low :: rest).flatMap fun id =>
      (bytesOfNat 4 ((s.stream id).rd s1).toNat).mapIdx fun i b =>
        (a.template + BitVec.ofNat 64 (4 * (s.team low.tcx).lane id + i), b))).retireLanes g fun st => st.kill s1 k1) := by
  change execMcput g grp s1 k1 x s = _
  unfold execMcput
  rw [State.mcastFrame_passes hact hc hn hargs]
  dsimp only
  rw [s.stream_id, hact]
end Issue

/-! ### The answers -/

section Answer
variable {s : State} {n : Nat} {c : Mcast} (hc : (s.co.mcasts.find? fun c => c.num = n) = some c)
include hc

theorem Mcast.num_of_find : c.num = n := by simpa using List.find?_some hc
/-- A step that keeps the numbers of multicasts changes the one of its number. -/
theorem mcasts_mapped {f : Mcast → Mcast} (hf : ∀ x : Mcast, x.num = n → (f x).num = n) :
    ((s.co.mcasts.map fun x => if x.num = n then f x else x).find? fun c => c.num = n) = some (f c) := by
  rw [List.find?_map]
  have hp : ((fun x : Mcast => decide (x.num = n)) ∘ fun x => if x.num = n then f x else x) = fun x => decide (x.num = n) := by
    funext x
    rw [Function.comp_apply]
    split
    · next h => rw [hf x h, h]
    · rfl
  rw [hp, hc, Option.map_some, if_pos (Mcast.num_of_find hc)]
/-- The answer of a member. -/
def Mcast.hears (p : Nat) (r : BitVec 8) (c : Mcast) : Mcast :=
  { c with members := c.members.map fun x => if x.1 = p then (x.1, some (x.2.getD r)) else x }
omit hc in
theorem exec_mcastReplicate (p : Nat) (r : BitVec 8) : exec (.mcastReplicate n p r) s = .next { s with co := { s.co with
    mcasts := s.co.mcasts.map fun c => if c.num = n then c.hears p r else c } } := by
  have hput : (fun x : Nat × Option (BitVec 8) => if x.1 = p && x.2.isNone then (x.1, some r) else x) =
      fun x => if x.1 = p then (x.1, some (x.2.getD r)) else x := by
    funext x
    obtain ⟨q, o⟩ := x
    by_cases h : q = p
    · cases o <;> simp [h]
    · simp [h]
  change execMcastReplicate n p r s = _
  unfold execMcastReplicate Mcast.hears
  rw [hput]

theorem exec_mcastAck : exec (.mcastAck n) s = .next (
    if c.answered then s.endMcast c
    else if !(c.members.all fun x => x.2.isSome) && decide (s.gts < c.time + ms100) then s
    else s.answerMcast c) := by
  change execMcastAck n s = _
  unfold execMcastAck
  rw [hc]
/-- A multicast whose silent members count as such. -/
def Mcast.closed (c : Mcast) : Mcast :=
  { c with members := c.members.map fun x => (x.1, some (x.2.getD 0x0B)), answered := true }
def State.closeMcast (s : State) (n : Nat) (d : Mcast) : State :=
  { s with co := { s.co with mcasts := s.co.mcasts.map fun (x : Mcast) => if x.num = n then d else x } }
theorem State.answerMcast_eq : s.answerMcast c =
    (if c.ack = 0 then s.closeMcast n c.closed
      else (s.closeMcast n c.closed).unitWrite1 ((s.closeMcast n c.closed).unit c.fn c.asid) c.ack.toNat 0 (bytesOfNat 8 c.word.toNat)).bumpIf
        c.fn c.asid c.srcCtr 1 c.err.isSome := by
  have hd : ({ c with members := c.answers.map fun (x : Nat × BitVec 8) => (x.1, some x.2), answered := true } : Mcast) = c.closed := by
    rw [Mcast.answers, List.map_map]
    rfl
  unfold State.answerMcast
  dsimp only
  rw [hd, Mcast.num_of_find hc]
  rfl
omit hc

/-- A write of an engine to the device's own memory, past every cache. -/
theorem State.unitWrite1_local {w : Who} {va cluster : Nat} {bs : List Byte} {k : Checked} (hk : s.checkPage w .store va = .ok k)
    (hs : k.loc.space = .dev) (hd : s.keyDown k.loc.key = false) (hv : s.cache? k.loc.vcid = none) (ho : ∀ o ∈ s.ops, o.phase ≠ .left) :
    ∃ r, s.unitWrite1 w va cluster bs = r ∧ r.co = s.co ∧ r.streams = s.streams ∧ r.outbox = s.outbox ∧
      Stored (s.touch w .store k).mem r.mem k.loc.key bs := by
  have hw := State.WalkWork.touch s w .store k
  have hloc : k.loc.space.local = true := by rw [hs]; rfl
  unfold State.unitWrite1
  rw [hk]
  dsimp only
  unfold State.WalkWork at hw
  generalize s.touch w .store k = u at hw ⊢
  have hclear : (u.settle k.loc.key bs.length).clearPoison k.loc.key bs.length = u.clearPoison k.loc.key bs.length := by
    rw [State.settle_none fun o h => ho o (by rw [hw] at h; exact h)]
  have hcache : (u.clearPoison k.loc.key bs.length).cache? k.loc.vcid = none := by
    rw [hw]
    exact hv
  have hup : (u.clearPoison k.loc.key bs.length).keyDown k.loc.key = false := by
    rw [hw]
    exact hd
  rw [u.linkDown_local hloc, if_neg Bool.false_ne_true, u.shutHost_local _ hloc, if_neg Bool.false_ne_true, State.writeNow]
  dsimp only
  rw [hclear, hcache]
  dsimp only
  rw [State.putHome_up hup]
  refine ⟨_, rfl, ?_, ?_, ?_, stored_memWriteN _ _ _⟩
  · rw [hw]
    rfl
  · rw [hw]
    rfl
  · rw [hw]
    rfl
theorem State.endMcast_frame : s.endMcast c = { s with
    streams := (s.endMcast c).streams, co := { s.co with mcasts := s.co.mcasts.filter fun x => x.num ≠ c.num } } := by
  unfold State.endMcast
  split <;> rfl
theorem State.endMcast_stream (hp : s.Present [c.sid]) : (s.endMcast c).stream c.sid = { s.stream c.sid with
    cnt := (s.stream c.sid).cnt.dec 2
    slots := c.err.elim (s.stream c.sid).slots fun e => (s.stream c.sid).slots.record 2 e } := by
  let f : Stream → Stream := fun st => { st with cnt := st.cnt.dec 2 }
  obtain ⟨-, h1⟩ := s.onLane_only (f := f) (fun _ => rfl) hp
  have hp1 := s.onLane_present (id := c.sid) (f := f) (fun _ => rfl) hp
  unfold State.endMcast
  dsimp only
  cases c.err with
  | none => exact h1
  | some e =>
    obtain ⟨-, h2⟩ := (s.onLane c.sid f).onLane_only (f := fun st => { st with slots := st.slots.record 2 e }) (fun _ => rfl) hp1
    exact h2.trans (congrArg (fun st : Stream => { st with slots := st.slots.record 2 e }) h1)
end Answer

/-- Settles O57: a multicast leaves in packets that hold its bytes; it ends with the answers of its members, or with their silence. -/
theorem multicastsAreSentAndAnswered : Obligations.MulticastsAreSentAndAnswered := by
  unfold Obligations.MulticastsAreSentAndAnswered
  refine ⟨?_, ?_, ?_, ?_⟩
  · intro s st a bytes t asid ps
    have ht : t = _ := s.sendMcast_eq st a bytes
    refine ⟨ht.trans (by rw [ht]), fun hdown => ?_, fun hup => ?_, s.newMcast st a, by rw [ht], rfl, rfl, rfl, rfl, rfl, rfl, ?_⟩
    · rw [ht]
      dsimp only
      rw [State.mcPackets, hdown]
      exact List.append_nil _
    · refine ⟨s.mcTokens asid a, s.mcPackets asid a bytes, by rw [ht], fun p tok => s.mem_mcTokens a, fun hno => ?_, fun hne => ?_⟩
      · rw [State.mcPackets, hno, hup]
        rfl
      · have hp : s.mcPackets asid a bytes = ((List.range ((bytes.length + 255) / 256)).map fun i =>
            (bytes.drop (256 * i)).take 256).mapIdx fun i p =>
              Msg.mcast s.nextOp i (s.mcTokens asid a) (byteRuns p) (a.notify.setWidth 64) := by
          rw [State.mcPackets, hup]
          exact if_neg (by rw [List.isEmpty_eq_false_iff.mpr hne]; exact Bool.false_ne_true)
        rw [hp, List.length_mapIdx, List.length_map, List.length_range]
        refine ⟨rfl, fun i hi => ⟨byteRuns ((bytes.drop (256 * i)).take 256), ?_, runBytes_byteRuns _⟩⟩
        rw [List.getElem?_mapIdx, List.getElem?_map, List.getElem?_range hi]
        rfl
    · refine List.map_congr_left fun p _ => congrArg (Prod.mk p) ?_
      unfold State.mcAnswer
      cases s.links.anyPort with
      | false => rfl
      | true => cases s.mcMember asid a p <;> rfl
  · intro g grp s1 k1 x s id a ha hc hn st s0 one
    exact ⟨fun sa bs s2 hargs hsa h10 hr => exec_mcst_sends ha hc hn hargs hsa h10 hr,
      fun sa e s2 hargs hsa h10 hr => exec_mcst_unread ha hc hn hargs hsa h10 hr⟩
  · intro g grp s1 k1 x s low rest a hact hc hn hargs s0 words
    exact exec_mcput hact hc hn hargs
  · intro s n p r c hc
    have hack := exec_mcastAck hc
    refine ⟨?_, fun hna hsome hlt => ?_, fun hna hdue => ?_, fun hans hp => ?_, ?_⟩
    · exact ⟨_, c.hears p r, exec_mcastReplicate p r, rfl, mcasts_mapped hc (f := fun c => c.hears p r) (fun _ h => h), rfl⟩
    · obtain ⟨x, hx, hxn⟩ := hsome
      have hall : (c.members.all fun x => x.2.isSome) = false := List.all_eq_false.mpr ⟨x, hx, by rw [hxn]; exact Bool.false_ne_true⟩
      rw [hack, hna, hall]
      exact congrArg Host.Outcome.next ((if_neg Bool.false_ne_true).trans (if_pos (by rw [decide_eq_true (p := s.gts < c.time + ms100) hlt]; rfl)))
    · intro d s1 counted
      have hgo : (!(c.members.all fun x => x.2.isSome) && decide (s.gts < c.time + ms100)) = false := by
        rcases hdue with h | h
        · rw [List.all_eq_true.mpr fun x hx => Option.isSome_iff_ne_none.mpr (h x hx)]
          rfl
        · rw [decide_eq_false (p := s.gts < c.time + ms100) (Nat.not_lt.mpr h), Bool.and_false]
      rw [hna, hgo] at hack
      have hex := hack.trans (congrArg Host.Outcome.next (State.answerMcast_eq hc))
      refine ⟨mcasts_mapped hc (f := fun _ => d) fun _ _ => (Mcast.num_of_find hc : c.num = n), fun h0 => ?_, fun k hne hk hs hd hv ho => ?_⟩
      · rw [hex, if_pos h0]
        rfl
      · obtain ⟨r, hr, h1, h2, h3, h4⟩ := State.unitWrite1_local (cluster := 0) (bs := bytesOfNat 8 c.word.toNat) hk hs hd hv ho
        refine ⟨r, ?_, h1, h2, h3, h4⟩
        rw [hex, if_neg hne]
        exact congrArg (fun r => Host.Outcome.next (State.bumpIf r c.fn c.asid c.srcCtr 1 c.err.isSome)) hr
    · rw [hans, if_pos rfl] at hack
      refine ⟨_, hack, State.endMcast_frame.trans ?_, ?_, (State.endMcast_stream hp).trans ?_⟩
      · rw [State.endMcast_frame]
      · rw [State.endMcast_frame]
        refine List.find?_eq_none.mpr fun x hx h => ?_
        have hxn := (List.mem_filter.mp hx).2
        rw [Mcast.num_of_find hc] at hxn
        simp only [decide_eq_true_eq] at hxn h
        exact hxn h
      · cases c.err <;> rfl
    · intro heard nacks
      obtain ⟨h1, h2, h3, h4, h5⟩ := word_fields c.firstRank c.firstReason (BitVec.ofNat 10 c.nacked.length)
        (BitVec.ofNat 10 (c.answers.length - c.nacked.length))
      rw [← Mcast.word_eq] at h1 h2 h3 h4 h5
      rw [Mcast.answers_length, Mcast.nacked_length] at h2
      rw [Mcast.nacked_length] at h3
      refine ⟨⟨h1, h2, h3, h4.trans c.firstReason_eq⟩, fun x r hx => ?_, fun hno => ?_, fun r hr => ?_⟩
      · rw [h5, Mcast.firstRank, c.nacked_head hx]
        rfl
      · rw [c.err_eq]
        exact congrArg (fun l : List (BitVec 8) => l.head?.map c.errOf) hno
      · rw [c.err_eq]
        exact congrArg (Option.map c.errOf) hr

end Sys2Proof.Machine
end
section
/-! PROOFS. Full/empty bits that a copy sets, and the end of copies (R228, R304 to R306, R314). -/
namespace Sys2Proof.Machine

/-! ### Bits of vault words that nothing waits for -/

section Bits
variable {s : State}

/-- With the words as given empty. -/
def State.withEmpty (s : State) (es : List Nat) : State := { s with vt := { s.vt with empty := es } }
theorem State.setBit_idle (h : s.vt.waiters = []) (a : Nat) (e : Bool) :
    ∃ es, s.setBit a e = s.withEmpty es ∧ ∀ b, b ∈ es ↔ if b = a then e = true else b ∈ s.vt.empty := by
  unfold State.setBit
  split
  · next hw =>
    refine ⟨s.vt.empty, rfl, fun b => ?_⟩
    unfold State.wordEmpty at hw
    split
    · next hb => rw [hb, ← hw, decide_eq_true_eq]
    · rfl
  · refine ⟨(s.setEmptyBit a e).vt.empty, State.serveWaiters_idle (s := s.setEmptyBit a e) h a _, fun b => ?_⟩
    unfold State.setEmptyBit
    dsimp only
    cases e with
    | true => rw [if_pos rfl, mem_nins]; by_cases hb : b = a <;> simp [hb]
    | false => rw [if_neg Bool.false_ne_true, mem_ndel]; by_cases hb : b = a <;> simp [hb]
/-- Bits of a list of words. -/
theorem State.setBits_idle (h : s.vt.waiters = []) (ws : List Nat) (e : Bool) :
    ∃ es, ws.foldl (fun s w => s.setBit w e) s = s.withEmpty es ∧ ∀ b, b ∈ es ↔ if b ∈ ws then e = true else b ∈ s.vt.empty := by
  induction ws generalizing s with
  | nil => exact ⟨s.vt.empty, rfl, fun b => by simp⟩
  | cons w ws ih =>
    obtain ⟨es, h1, h2⟩ := State.setBit_idle h w e
    obtain ⟨fs, h3, h4⟩ := ih (s := s.withEmpty es) h
    refine ⟨fs, ?_, fun b => (h4 b).trans ?_⟩
    · rw [List.foldl_cons, h1, h3]
      rfl
    · change (if b ∈ ws then e = true else b ∈ es) ↔ _
      rw [h2 b]
      by_cases hb : b = w <;> by_cases hbs : b ∈ ws <;> simp [hb, hbs]
end Bits

/-! ### The end of a copy -/

section Finish
variable {s : State} {k : CopyId} {c : Copy}

/-- The state in which a copy ends. -/
def Copy.ended (c : Copy) (state : Nat) (cause : BitVec 8) (reason : Word) (seq : Nat) : Copy :=
  { c with state := state, cause := cause, reason := reason, dray := none, seq := seq }
/-- The close that the end of a copy sends. -/
def Copy.closes (c : Copy) : List Msg := if c.cancel.isNone then (c.dest.map fun d => Msg.close c.seq c.job c.srcRank d).toList else []
/-- What the end of a copy of a stream leaves. -/
structure State.CopyEnds (s t : State) (k : CopyId) (c : Copy) (state : Nat) (cause : BitVec 8) (reason : Word) (slots : Slots)
    (out : List Msg) : Prop where
  copy : t.copy? k = some { c with state := state, cause := cause, reason := reason, dray := none, seq := s.nextOp }
  others : ∀ j, j ≠ k → t.copy? j = s.copy? j
  lane : t.stream c.sid = { s.stream c.sid with slots := slots, cnt := (s.stream c.sid).cnt.dec 2 }
  rest : ∀ id, id ≠ c.sid → t.stream? id = s.stream? id
  mem : t.mem = s.mem
  outbox : t.outbox = s.outbox ++ out

/-- Two changes of one lane are one. -/
theorem State.onLane_twice {f g : Stream → Stream} {id : SId} (hf : ∀ st : Stream, (f st).id = st.id) :
    (s.onLane id f).onLane id g = s.onLane id fun st => g (f st) := by
  unfold State.onLane State.onLanes
  dsimp only
  rw [List.map_map]
  refine congrArg (fun ss => ({ s with streams := ss } : State)) (List.map_congr_left fun st _ => ?_)
  rw [Function.comp_apply]
  by_cases h : st.id ∈ [id]
  · rw [if_pos h, if_pos h, if_pos (by rw [hf]; exact h)]
  · rw [if_neg h, if_neg h, if_neg h]
theorem State.fillWords_none (hc : s.copy? k = some c) (he : c.empties = []) :
    s.fillWords k [] = s.onCopy k fun x => { x with empties := [] } := by
  have hnil : ∀ l : List Nat, l.filter ([] : List Nat).contains = [] := fun l => List.filter_eq_nil_iff.mpr fun _ _ => by simp
  unfold State.fillWords
  rw [hc]
  dsimp only
  rw [he]
  simp only [hnil]
  rfl

variable (hc : s.copy? k = some c) (hcore : c.id.core ≠ 192) (he : c.empties = []) (hsrc : c.srcCtr = 0) (hnot : c.notify = 0)
  (hp : s.Present [c.sid])
include hc hcore he hsrc hnot hp

theorem State.finishCopy_ends (state : Nat) (cause : BitVec 8) (reason : Word) (hst : state ≠ 5) :
    s.CopyEnds (s.finishCopy k state cause reason) k c state cause reason
      (if state = 3 then (s.stream c.sid).slots.record 2 ⟨cause, reason.setWidth 16⟩ else (s.stream c.sid).slots) c.closes := by
  have hid : c.id = k := by simpa using List.find?_some hc
  have hfill := State.fillWords_none hc he
  let f : Copy → Copy := fun x => { x with empties := [] }
  let g : Copy → Copy := fun x => x.ended state cause reason s.nextOp
  have hc1 : (s.onCopy k f).copy? k = some c := by
    rw [State.onCopy_same (f := f) (fun _ => rfl) hc]
    change some { c with empties := [] } = some c
    rw [← he]
  let u := (s.onCopy k f).onCopy k g
  have hu : u.copy? k = some (c.ended state cause reason s.nextOp) := State.onCopy_same (f := g) (fun _ => rfl) hc1
  have hother : ∀ j, j ≠ k → u.copy? j = s.copy? j := fun j hj =>
    (State.onCopy_other (f := g) (fun _ => rfl) hj).trans (State.onCopy_other (f := f) (fun _ => rfl) hj)
  let v : State := { u with nextOp := s.nextOp + 1, outbox := s.outbox ++ c.closes }
  let e : Err := ⟨cause, reason.setWidth 16⟩
  have hfin : s.finishCopy k state cause reason = (if state = 3 then v.recordErr c.sid 2 e else v).decCounter c.sid 2 := by
    have hbump : ∀ (w : State) (b : Bool), w.bumpIf c.fn c.asid 0 1 b = w := fun w b => if_pos rfl
    unfold State.finishCopy
    rw [hfill, hc1]
    dsimp only
    rw [hnot, hsrc, hbump, hbump, ite_self, if_neg (hid ▸ hcore : k.core ≠ nodeCore)]
    rw [decide_eq_false hst, Bool.or_false, if_neg hst, if_neg hst]
    simp only [decide_eq_true_eq]
    have hv : v = { u with nextOp := s.nextOp + 1, outbox := s.outbox ++ c.closes } := rfl
    rw [hv, Copy.closes]
    cases c.dest with
    | none =>
      have hout : s.outbox ++ (if c.cancel.isNone = true then (Option.map (fun d => Msg.close c.seq c.job c.srcRank d) none).toList else []) =
          s.outbox := by
        rw [Option.map_none, Option.toList_none, ite_self, List.append_nil]
      rw [hout]
      rfl
    | some d =>
      cases c.cancel with
      | none => rfl
      | some t =>
        have hout : s.outbox ++ (if (some t).isNone = true then (Option.map (fun d => Msg.close c.seq c.job c.srcRank d) (some d)).toList else []) =
            s.outbox := List.append_nil _
        rw [hout]
        rfl
  let F : Stream → Stream := fun st => { st with
    slots := if state = 3 then st.slots.record 2 e else st.slots, cnt := st.cnt.dec 2 }
  have hlane : s.finishCopy k state cause reason = v.onLane c.sid F := by
    rw [hfin]
    dsimp only [F]
    split
    · exact State.onLane_twice (fun _ => rfl)
    · rfl
  obtain ⟨⟨-, h1⟩, h2⟩ := v.onLane_only (f := F) (fun _ => rfl) (show v.Present [c.sid] from hp)
  rw [hlane]
  refine ⟨hu, hother, h2.trans ?_, fun id hid => h1 id (by simpa using hid), rfl, rfl⟩
  dsimp only [F]
  split <;> rfl
end Finish
end Sys2Proof.Machine
end
section
/-! PROOFS. How a copy ends, by its state (R304, R306, R314). -/
namespace Sys2Proof.Machine

section Ending
variable {s : State} {k : CopyId} {c : Copy} (hc : s.copy? k = some c)
include hc

/-- COPY_FINAL of a copy whose Dray does not go on. -/
theorem exec_copyFinal (h : c.going = false ∨ c.dest.isSome = true) : exec (.copyFinal k) s = .next
    (c.ending.elim s fun e => s.finishCopy k e.1 e.2.1 e.2.2) := by
  have hs : (if c.dest.isNone then s.burst k c.todo.length else s) = s := by
    rcases h with h | h
    · have hb : s.burst k c.todo.length = s := by
        unfold State.burst
        rw [hc]
        exact if_pos (by rw [h]; rfl)
      rw [hb, ite_self]
    · exact if_neg (by rw [Option.isNone_eq_false_iff.mpr h]; exact Bool.false_ne_true)
  change execCopyFinal k s = _
  unfold execCopyFinal
  rw [hc]
  dsimp only
  rw [hs, hc, Option.bind_some]
  cases c.ending <;> rfl
theorem exec_cancelConfirm (hst : c.state < 2) (hcan : c.cancel.isSome = true) :
    ∃ t, exec (.cancelConfirm k) s = .next t ∧ t = { s with dr := { s.dr with copies := t.dr.copies } } ∧
      t.copy? k = some { c with confirmed := true } := by
  refine ⟨_, rfl, rfl, ?_⟩
  have hfin : c.final = false := decide_eq_false (Nat.not_le.mpr hst)
  refine (State.onCopy_same (f := fun c => if c.cancel.isSome && !c.final then { c with confirmed := true } else c) (fun x => ?_) hc).trans ?_
  · split <;> rfl
  · rw [hcan, hfin]
    rfl
theorem exec_cancelTimeout {at_ : Nat} (hcan : c.cancel = some at_) (hst : c.state < 2) (hconf : c.confirmed = false) (hset : c.settled = false) :
    exec (.cancelTimeout k) s = .next (if at_ + ms100 ≤ s.gts then
      s.finishCopy k 3 (c.err.getD (cRemoteTimeout, 0)).1 ((c.err.getD (cRemoteTimeout, 0)).2.setWidth 32) else s) := by
  have hfin : c.final = false := decide_eq_false (Nat.not_le.mpr hst)
  change execCancelTimeout k s = _
  unfold execCancelTimeout
  rw [hc]
  dsimp only
  rw [hcan]
  dsimp only
  rw [hfin, hconf, hset]
  simp only [Bool.not_false, Bool.and_true, Bool.true_and, decide_eq_true_eq]
omit hc

/-- What ends a copy: its bytes all moved and answered, an error, or a cancellation. -/
theorem Copy.ending_success (hst : c.state = 1) (hset : c.settled = true) (hmoved : c.todo.length ≤ c.moved) (he : c.err = none)
    (hcan : c.cancel = none) : c.ending = some (2, 0, 0) ∧ c.going = false := by
  have hw : c.whole = true := decide_eq_true hmoved
  constructor
  · simp [Copy.ending, Copy.final, hst, hset, he, hcan, hw]
  · simp [Copy.going, hw]
theorem Copy.ending_error {e : BitVec 8} {r : BitVec 8} (hst : c.state = 1) (hset : c.settled = true) (he : c.err = some (e, r))
    (hcan : c.cancel = none) : c.ending = some (3, e, r.setWidth 32) ∧ c.going = false := by
  constructor
  · simp [Copy.ending, Copy.final, hst, hset, he, hcan]
  · simp [Copy.going, he]
theorem Copy.ending_cancel (hst : c.state < 2) (hwhen : c.state = 0 ∨ c.settled = true ∨ c.confirmed = true) (he : c.err = none)
    (hcan : c.cancel.isSome = true) : c.ending = some (4, 0, 0) ∧ c.going = false := by
  have hfin : c.final = false := decide_eq_false (Nat.not_le.mpr hst)
  have hw : (c.state == 0 || c.settled || c.confirmed) = true := by
    rcases hwhen with h | h | h <;> simp [h]
  have hno : c.cancel.isNone = false := Option.isNone_eq_false_iff.mpr hcan
  constructor
  · unfold Copy.ending
    rw [hfin, hcan, hw, he]
    rfl
  · simp [Copy.going, hno]
end Ending
end Sys2Proof.Machine
end
section
/-! PROOFS. A copy starts: a fill of a vault within 64 B (R228, R304, R312), and the obligation on copies that move and end. -/
namespace Sys2Proof.Machine

/-! ### Bytes within 64 aligned bytes -/

theorem toNat_add_within {a : DWord} {k : Nat} (h : a.toNat % 64 + k < 64) : (a + BitVec.ofNat 64 k).toNat = a.toNat + k := by
  have ha := a.isLt
  rw [BitVec.toNat_add, BitVec.toNat_ofNat]
  omega
theorem classBits_within {a : DWord} {k : Nat} (h : a.toNat % 64 + k < 64) :
    (a + BitVec.ofNat 64 k).extractLsb' 62 2 = a.extractLsb' 62 2 := by
  apply BitVec.eq_of_toNat_eq
  rw [BitVec.extractLsb'_toNat, BitVec.extractLsb'_toNat, toNat_add_within h, Nat.shiftRight_eq_div_pow, Nat.shiftRight_eq_div_pow]
  omega
/-- Bytes at consecutive addresses from a first one on. -/
def bytesFrom (a : DWord) (bs : List Byte) : List (DWord × Byte) := bs.mapIdx fun k b => (a + BitVec.ofNat 64 k, b)
theorem bytesFrom_cons (a : DWord) (b : Byte) (bs : List Byte) : bytesFrom a (b :: bs) = (a, b) :: bytesFrom (a + 1) bs := by
  unfold bytesFrom
  have hstep : (fun (k : Nat) (b : Byte) => (a + BitVec.ofNat 64 (k + 1), b)) = fun k b => (a + 1 + BitVec.ofNat 64 k, b) := by
    funext k b
    rw [BitVec.ofNat_add, BitVec.add_comm (BitVec.ofNat 64 k), ← BitVec.add_assoc]
    rfl
  rw [List.mapIdx_cons, hstep, BitVec.ofNat_eq_ofNat, BitVec.add_zero]
theorem byteRuns_within {a : DWord} {b : Byte} {bs : List Byte} (h : a.toNat % 64 + bs.length < 64) :
    byteRuns (bytesFrom a (b :: bs)) = [(a, b :: bs)] := by
  induction bs generalizing a b with
  | nil => rw [bytesFrom_cons]; rfl
  | cons b' bs ih =>
    rw [List.length_cons] at h
    have h1 : (a + 1).toNat = a.toNat + 1 := toNat_add_within (a := a) (k := 1) (by omega)
    rw [bytesFrom_cons, byteRuns, ih (by omega)]
    refine if_pos ?_
    rw [decide_eq_true rfl, bne_iff_ne.mpr (by omega)]
    rfl

/-! ### The moves of a fill -/

section Fill
variable {c : Copy} {p : Word} {w : Nat}

/-- The bytes that a fill writes. -/
def fillBytes (p : Word) (w n : Nat) : List Byte := (List.range n).map fun j => p.extractLsb' (8 * (j % 2 ^ w)) 8
theorem Copy.plan_fill (h : c.kind = .fill p w) :
    c.plan = ((bytesFrom c.dst (fillBytes p w c.len)).map fun m => (m.1, Feed.byte m.2), false) := by
  unfold Copy.plan bytesFrom fillBytes
  rw [h]
  exact congrArg (fun l => (l, false)) (List.ext_getElem (by simp) fun i h1 h2 => by simp)
theorem burstMoves_all {ms : List (DWord × Feed)} {n : Nat} (h : ms.length ≤ n) (hne : ms ≠ []) : burstMoves ms n = ms := by
  unfold burstMoves
  rw [List.take_of_length_le h, List.drop_eq_nil_of_le h, List.getLast?_eq_some_getLast hne]
  exact List.append_nil _
theorem State.drayGather_bytes (s : State) (c : Copy) (d : Nat) (l : List (DWord × Byte)) :
    s.drayGather c d (l.map fun m => (m.1, Feed.byte m.2)) = (l, none, s) := by
  induction l with
  | nil => rfl
  | cons m l ih =>
    rw [List.map_cons, State.drayGather, ih]

theorem fillBytes_length (p : Word) (w n : Nat) : (fillBytes p w n).length = n := (List.length_map _).trans List.length_range
theorem bytesFrom_length (a : DWord) (bs : List Byte) : (bytesFrom a bs).length = bs.length := List.length_mapIdx
theorem mem_bytesFrom {a : DWord} {bs : List Byte} {m : DWord × Byte} (h : m ∈ bytesFrom a bs) :
    ∃ k, k < bs.length ∧ m.1 = a + BitVec.ofNat 64 k := by
  obtain ⟨k, hk, rfl⟩ := List.mem_mapIdx.mp h
  exact ⟨k, hk, rfl⟩
/-- Nothing of a fill of a vault meets a location of class 00. -/
theorem State.moveMeets_vault {s : State} {d : Nat} (hit : Loc → Bool) {m : DWord × Byte} (h : m.1.extractLsb' 62 2 = 1#2) :
    s.moveMeets c d hit (m.1, Feed.byte m.2) = false := by
  have hno : (m.1.extractLsb' 62 2 == 0#2) = false := by rw [h]; rfl
  unfold State.moveMeets
  dsimp only
  rw [hno]
  rfl

/-! ### The start -/

variable {s : State} {k : CopyId} {d : Nat} (hc : s.copy? k = some c) (hstart : s.mayStart c d = true)
include hc hstart

theorem exec_copyStart : exec (.copyStart k d) s = .next (
    let s1 := s.onCopy k fun c => { c with state := 1, dray := some d }
    if class10 c.dst && c.source.any class10 then s1.copyErr k cAddressClass 0
    else if c.ranked then s1.moveRanked c d
    else s1.moveOn c d 64) := by
  change execCopyStart k d s = _
  unfold execCopyStart
  rw [hc]
  dsimp only
  rw [hstart]
  rfl
/-- A copy between two ranks has a source of the wrong class. -/
theorem copyStart_twoRanks {src : DWord} (hk : c.kind = .bytes src) (hd : class10 c.dst = true) (hs : class10 src = true) (he : c.err = none) :
    ∃ t, exec (.copyStart k d) s = .next t ∧ t = { s with dr := { s.dr with copies := t.dr.copies } } ∧
      t.copy? k = some { c with state := 1, dray := some d, err := some (0x12, 0) } := by
  have hboth : (class10 c.dst && c.source.any class10) = true := by
    rw [hd, Copy.source, hk]
    exact hs
  refine ⟨_, (exec_copyStart hc hstart).trans (congrArg Host.Outcome.next (if_pos hboth)), rfl, ?_⟩
  rw [State.copyErr_eq, State.onCopy_same (Copy.errored_id _ _)
    (State.onCopy_same (f := fun c => { c with state := 1, dray := some d }) (fun _ => rfl) hc)]
  exact congrArg some (if_pos (by rw [he]; rfl))
end Fill
end Sys2Proof.Machine
end
section
/-! PROOFS. A fill of a vault starts (R228, R304, R312), and the obligation on copies that move and end. -/
namespace Sys2Proof.Machine

section Fill
variable {s : State} {c : Copy} {d : Nat} {a : DWord} {bs : List Byte}

/-- The home of a byte of the vault is on no link. -/
theorem State.keyDown_vault (s : State) (n : Nat) : s.keyDown (vaultKey + n) = false := by
  unfold State.keyDown
  rw [decide_eq_false (Nat.not_lt.mpr (Nat.le_add_right vaultKey n)), Bool.and_false, Bool.false_and]
/-- With the bytes of a vault range at their home. -/
def State.vaultWritten (s : State) (a : DWord) (bs : List Byte) : State :=
  (s.clearPoison (vaultKey + a.toNat % 2 ^ 32) bs.length).writeHome (vaultKey + a.toNat % 2 ^ 32) bs
theorem State.drayScatter_vault (ha : a.extractLsb' 62 2 = 1#2) (hb : s.vaultBad c.asid (a.toNat % 2 ^ 32) bs.length = none)
    (hv : s.cache? 0 = none) (ho : ∀ o ∈ s.ops, o.phase ≠ .left) :
    s.drayScatter c d [(a, bs)] = (none, s.vaultWritten a bs) := by
  let l : Loc := ⟨.vault, vaultKey + a.toNat % 2 ^ 32, 0, false⟩
  have hat : s.drayAt c d .store a bs.length = (.ok l, s) := by
    unfold State.drayAt
    rw [if_pos ha, hb]
  have hwrite : s.writeNow l (48 * (d / 64) / 4) bs = s.vaultWritten a bs := by
    have hcache : (s.clearPoison l.key bs.length).cache? l.vcid = none := hv
    unfold State.writeNow
    dsimp only
    rw [State.settle_none ho, hcache]
    exact State.putHome_up (s := s.clearPoison l.key bs.length) (State.keyDown_vault _ _) bs
  unfold State.drayScatter
  rw [hat]
  dsimp only
  rw [s.linkDown_local (l := l) rfl, if_neg Bool.false_ne_true, s.shutHost_local c.fn (l := l) rfl, if_neg Bool.false_ne_true, hwrite]
  rfl
theorem State.ownWords_congr {t : State} (h : t.vt.shares = s.vt.shares) : t.ownWords = s.ownWords := by
  funext asid ws
  have hshare : t.share = s.share := by
    funext n
    rw [State.share, State.share, h]
  unfold State.ownWords State.vaultBad
  rw [hshare]
/-- What is left of a write of a vault range: memory, and the marks of errors in it. -/
theorem State.vaultWritten_frame : s.vaultWritten a bs = { s with
    mem := (s.vaultWritten a bs).mem
    vt := { s.vt with broken := (s.vaultWritten a bs).vt.broken, poison := (s.vaultWritten a bs).vt.poison } } := rfl
theorem State.vaultWritten_stored : Stored s.mem (s.vaultWritten a bs).mem (vaultKey + a.toNat % 2 ^ 32) bs := stored_memWriteN _ _ _
/-- The words of a copy that has no byte to come are full, where nothing waits for them. -/
theorem State.fillWords_all {k : CopyId} (hc : s.copy? k = some c) (hw : s.vt.waiters = []) :
    ∃ es, s.fillWords k [] = (s.onCopy k fun x => { x with empties := [] }).withEmpty es ∧
      ∀ b, b ∈ es ↔ b ∈ s.vt.empty ∧ b ∉ s.ownWords c.asid c.empties := by
  have hnil : ∀ l : List Nat, l.filter ([] : List Nat).contains = [] := fun l => List.filter_eq_nil_iff.mpr fun _ _ => by simp
  have hall : ∀ l : List Nat, l.filter (fun w => !([] : List Nat).contains w) = l := fun l => List.filter_eq_self.mpr fun _ _ => by simp
  obtain ⟨es, h1, h2⟩ := State.setBits_idle (s := s.onCopy k fun x => { x with empties := [] }) hw (s.ownWords c.asid c.empties) false
  refine ⟨es, ?_, fun b => (h2 b).trans ?_⟩
  · unfold State.fillWords
    rw [hc]
    dsimp only
    rw [hall]
    simp only [hnil]
    exact h1
  · change (if b ∈ s.ownWords c.asid c.empties then false = true else b ∈ s.vt.empty) ↔ _
    by_cases h : b ∈ s.ownWords c.asid c.empties <;> simp [h]

variable {k : CopyId} {p : Word} {w : Nat} (hc : s.copy? k = some c) (hstart : s.mayStart c d = true) (hk : c.kind = .fill p w)
  (hm : c.moved = 0) (hd : c.dst.extractLsb' 62 2 = 1#2) (h0 : 0 < c.len) (h64 : c.dst.toNat % 64 + c.len ≤ 64)
  (hb : s.vaultBad c.asid (c.dst.toNat % 2 ^ 32) c.len = none) (hv : s.cache? 0 = none) (hw : s.vt.waiters = [])
  (ho : ∀ o ∈ s.ops, o.phase ≠ .left)
include hc hstart hk hm hd h0 h64 hb hv hw ho

theorem copyStart_fill : ∃ t, exec (.copyStart k d) s = .next t ∧
    t.copy? k = some { c with state := 1, dray := some d, empties := [], moved := c.len, cxl := none } ∧
    Stored s.mem t.mem (vaultKey + c.dst.toNat % 2 ^ 32) ((List.range c.len).map fun j => p.extractLsb' (8 * (j % 2 ^ w)) 8) ∧
    (∀ a, a ∈ t.vt.empty ↔ a ∈ s.vt.empty ∧ a ∉ s.ownWords c.asid c.empties) ∧ t.streams = s.streams ∧ t.ops = s.ops := by
  have hid : c.id = k := by simpa using List.find?_some hc
  have hcl : class10 c.dst = false := by rw [class10, hd]; rfl
  have hsrc : c.source = none := by rw [Copy.source, hk]
  have hranked : c.ranked = false := by rw [Copy.ranked, hcl, hsrc]; rfl
  let bs := fillBytes p w c.len
  have hbl : bs.length = c.len := fillBytes_length p w c.len
  have hplan : c.plan = ((bytesFrom c.dst bs).map fun m => (m.1, Feed.byte m.2), false) := Copy.plan_fill hk
  let ms := (bytesFrom c.dst bs).map fun m => (m.1, Feed.byte m.2)
  have hmoves : burstMoves (c.plan.1.drop c.moved) 64 = ms := by
    rw [hplan, hm, List.drop_zero]
    have hlen : ms.length = c.len := (List.length_map _).trans ((bytesFrom_length _ _).trans hbl)
    have hle : ms.length ≤ 64 := by omega
    have hpos : 0 < ms.length := by omega
    exact burstMoves_all hle (List.ne_nil_of_length_pos hpos)
  let u := s.onCopy k fun c => { c with state := 1, dray := some d }
  have hu : u.copy? k = some { c with state := 1, dray := some d } :=
    State.onCopy_same (f := fun c => { c with state := 1, dray := some d }) (fun _ => rfl) hc
  have hnone : ms.any (u.moveMeets c d Loc.cxl) = false := List.any_eq_false.mpr fun m hmem => by
    obtain ⟨m', hm', rfl⟩ := List.mem_map.mp hmem
    obtain ⟨j, hj, ha⟩ := mem_bytesFrom hm'
    rw [State.moveMeets_vault Loc.cxl (by rw [ha, classBits_within (by omega)]; exact hd)]
    exact Bool.false_ne_true
  have hruns : byteRuns (bytesFrom c.dst bs) = [(c.dst, bs)] := by
    obtain ⟨b, r, hbr⟩ := List.exists_cons_of_ne_nil (List.ne_nil_of_length_pos (by omega : 0 < bs.length))
    rw [hbr] at hbl ⊢
    exact byteRuns_within (by rw [List.length_cons] at hbl; omega)
  have hscatter := State.drayScatter_vault (s := u) (c := c) (d := d) (bs := bs) hd (by rw [hbl]; exact hb) hv ho
  obtain ⟨es, h1, h2⟩ := State.fillWords_all (s := u.vaultWritten c.dst bs) (k := k) hu hw
  have hput : u.drayPut c d (bytesFrom c.dst bs) [] = ((u.vaultWritten c.dst bs).onCopy k fun x => { x with empties := [] }).withEmpty es := by
    unfold State.drayPut
    rw [hruns, hscatter]
    dsimp only
    rw [hid]
    exact h1
  have hrest : wordsOf ((c.plan.1.drop (c.moved + (bytesFrom c.dst bs).length)).map (·.1)) = [] := by
    rw [List.drop_eq_nil_of_le (by rw [hplan, List.length_map]; omega)]
    rfl
  have hmove : u.moveOn c d 64 = (u.drayPut c d (bytesFrom c.dst bs) []).onCopy k fun x => { x with moved := c.len, cxl := none } := by
    unfold State.moveOn State.throughCxl
    rw [hmoves, hnone]
    unfold State.moveSome
    dsimp only
    rw [hmoves, State.drayGather_bytes]
    dsimp only
    rw [hrest, hplan, hid, hm, Nat.zero_add, bytesFrom_length, hbl]
    rfl
  have hex : exec (.copyStart k d) s = .next (u.moveOn c d 64) := by
    rw [exec_copyStart hc hstart]
    dsimp only
    rw [hcl, hranked]
    rfl
  have hmem := State.vaultWritten_stored (s := u) (a := c.dst) (bs := bs)
  have hframe := State.vaultWritten_frame (s := u) (a := c.dst) (bs := bs)
  have hshares : (u.vaultWritten c.dst bs).vt.shares = s.vt.shares := by
    rw [hframe]
    rfl
  rw [State.ownWords_congr hshares] at h2
  generalize u.vaultWritten c.dst bs = v at h1 h2 hput hmem hframe
  refine ⟨_, hex, ?_, ?_, ?_, ?_, ?_⟩
  · rw [hmove, hput]
    exact State.onCopy_same (f := fun x => { x with moved := c.len, cxl := none }) (fun _ => rfl)
      (State.onCopy_same (f := fun x => { x with empties := [] }) (fun _ => rfl) (s := v) (by rw [hframe]; exact hu))
  · rw [hmove, hput]
    exact hmem
  · intro a
    rw [hmove, hput]
    exact (h2 a).trans (by rw [hframe]; rfl)
  · rw [hmove, hput, hframe]
    rfl
  · rw [hmove, hput, hframe]
    rfl
end Fill

/-- Settles O49: a free Dray starts the copy whose turn it is; a copy ends by its bytes, its error or its cancellation. -/
theorem copiesMoveAndEnd : Obligations.CopiesMoveAndEnd := by
  unfold Obligations.CopiesMoveAndEnd
  refine ⟨fun s k d c hc => ⟨fun h => ?_, fun src h hk hd hs he => copyStart_twoRanks hc h hk hd hs he,
    fun p w h hk hm hd h0 h64 hb hv hw ho => copyStart_fill hc h hk hm hd h0 h64 hb hv hw ho⟩, ?_⟩
  · change execCopyStart k d s = _
    unfold execCopyStart
    rw [hc]
    dsimp only
    rw [h]
    rfl
  · intro s k c hc hcore he hsrc hnot hp st ends close
    have hends : ∀ (state : Nat) (cause : BitVec 8) (reason : Word) (out : List Msg), state ≠ 5 → c.closes = out →
        ends (s.finishCopy k state cause reason) state cause reason
          (if state = 3 then st.slots.record 2 ⟨cause, reason.setWidth 16⟩ else st.slots) out :=
      fun state cause reason out h5 hout => by
        obtain ⟨h1, h2, h3, h4, h6, h7⟩ := State.finishCopy_ends hc hcore he hsrc hnot hp state cause reason h5
        exact ⟨h1, h2, h3, h4, h6, hout ▸ h7⟩
    have hopen : c.cancel = none → c.closes = close := fun h => by rw [Copy.closes, h]; rfl
    have hshut : c.cancel.isSome = true → c.closes = [] := fun h => by
      rw [Copy.closes, Option.isNone_eq_false_iff.mpr h]
      rfl
    have hends3 : ∀ (e r : BitVec 8) (out : List Msg), c.closes = out →
        ends (s.finishCopy k 3 e (r.setWidth 32)) 3 e (r.setWidth 32) (st.slots.record 2 ⟨e, r.setWidth 16⟩) out := fun e r out hout => by
      have h := hends 3 e (r.setWidth 32) out (by decide) hout
      rw [if_pos rfl, BitVec.setWidth_setWidth_of_le _ (by decide)] at h
      exact h
    have hfinal : ∀ {x : Nat × Cause × Word}, c.ending = some x ∧ c.going = false →
        exec (.copyFinal k) s = .next (s.finishCopy k x.1 x.2.1 x.2.2) := fun h => by
      rw [exec_copyFinal hc (.inl h.2), h.1]
      rfl
    refine ⟨fun hno hgo => ?_, fun hst hset hmv her hcan => ?_, fun e r hst hset her hcan => ?_, fun hst hwhen her hcan => ?_,
      fun hst hcan => exec_cancelConfirm hc hst hcan, fun at_ hst hcan hconf hset => ⟨fun hdue => ?_, fun hdue => ?_⟩⟩
    · rw [exec_copyFinal hc hgo, hno]
      rfl
    · exact ⟨_, hfinal (Copy.ending_success hst hset hmv her hcan), hends 2 0 0 close (by decide) (hopen hcan)⟩
    · exact ⟨_, hfinal (Copy.ending_error hst hset her hcan), hends3 e r close (hopen hcan)⟩
    · exact ⟨_, hfinal (Copy.ending_cancel hst hwhen her hcan), hends 4 0 0 [] (by decide) (hshut hcan)⟩
    · exact ⟨_, (exec_cancelTimeout hc hcan hst hconf hset).trans (congrArg Host.Outcome.next (if_pos hdue)),
        hends3 _ _ [] (hshut (by rw [hcan]; rfl))⟩
    · exact (exec_cancelTimeout hc hcan hst hconf hset).trans (congrArg Host.Outcome.next (if_neg (Nat.not_le.mpr hdue)))

end Sys2Proof.Machine
end
section
/-! PROOFS. A copy whose cached descriptor places the private window at the end of class 00 (R50, R311). -/
namespace Sys2Proof.Machine

/-- One lane of ASID 0, whose cached descriptor places private memory 4 bytes before the end of class 00; share 0 is its vault. -/
def nearEnd : State :=
  { State.reset with
    cur := ⟨[⟨0, .lane, 0⟩], 0, 8⟩
    streams := [{ newStream ⟨0, .lane, 0⟩ 0 8 0 with regs := [(2, 8), (9, 0x40000000), (11, 0x01800000)] }]
    tr := { State.reset.tr with descs := [(0, some ⟨0, 2 ^ 57 - 4, 20⟩)] }
    vt := { State.reset.vt with shares := [(0, some ⟨.vault, 0, 0, 0⟩)] } }
/-- `dcopy` of 8 bytes from the private window to the vault. -/
def nearEndCopy : CopyOp := ⟨⟨false, 0, false⟩, 12, 8, false, 10, false, 2, 0, 0⟩

theorem nearEnd_source : nearEnd.copyRange (nearEnd.stream ⟨0, .lane, 0⟩) 0x0180000000000000 8 = .ok 0x01fffffffffffffc := by
  decide
theorem nearEnd_dest : nearEnd.copyRange (nearEnd.stream ⟨0, .lane, 0⟩) 0x4000000000000000 8 = .ok 0x4000000000000000 := by
  decide
theorem nearEnd_counters : nearEnd.copyCounters (nearEnd.stream ⟨0, .lane, 0⟩) 2 0x4000000000000000 (some 0x01fffffffffffffc) =
    .ok (0, 0) := by decide

theorem find_range_true (n : Nat) : (List.range (n + 1)).find? (fun _ => true) = some 0 := by
  rw [List.range_succ_eq_map, List.find?_cons_of_pos rfl]
theorem freeEntry_unused {s : State} (h : s.dr.copies = []) (core : Nat) : s.freeEntry core = some 0 := by
  unfold State.freeEntry
  rw [h]
  generalize hn : 1024 = n
  obtain ⟨m, rfl⟩ : ∃ m, n = m + 1 := ⟨1023, hn.symm⟩
  simp only [List.filter_nil, List.any_nil, Bool.not_false, find_range_true]
theorem nearEnd_entry : nearEnd.freeEntry 0 = some 0 := freeEntry_unused rfl 0
theorem nearEnd_lowest : nearEnd.lowest nearEndCopy.g = some (nearEnd.stream ⟨0, .lane, 0⟩) := by decide
theorem nearEnd_room : nearEnd.counterFull [⟨0, .lane, 0⟩] 2 = false := by decide
/-- The copy that it issues. -/
def nearEndMoves : Copy :=
  { nearEnd.copyBase nearEndCopy (nearEnd.stream ⟨0, .lane, 0⟩) 0 with
    kind := .bytes 0x01fffffffffffffc
    dst := 0x4000000000000000
    len := 8 }

theorem exec_nearEndCopy : exec (.dcopy nearEndCopy) nearEnd = .next ((nearEnd.issueCopy nearEndMoves).copyDone nearEndCopy true
    ((nearEnd.issueCopy nearEndMoves).handleOf nearEndMoves.id)) := by
  change execDcopy nearEndCopy nearEnd = _
  unfold execDcopy State.rangeCopy
  simp only [nearEnd_lowest]
  have hx : ((nearEnd.stream ⟨0, .lane, 0⟩).rd64 2) = 8 := by decide
  have hd : ((nearEnd.stream ⟨0, .lane, 0⟩).rd64 8) = 0x4000000000000000 := by decide
  have hs : ((nearEnd.stream ⟨0, .lane, 0⟩).rd64 10) = 0x0180000000000000 := by decide
  have hid : (nearEnd.stream ⟨0, .lane, 0⟩).id = ⟨0, .lane, 0⟩ := by decide
  have hcore : (nearEnd.team 0).coreOf ⟨0, .lane, 0⟩ = 0 := by decide
  have hlen : (8 : DWord).toNat = 8 := by decide
  have hclass : class10 0x4000000000000000 = false := by decide
  simp only [hx, hd, hs, hid, nearEnd_room, hcore, hlen, nearEnd_dest, nearEnd_source, nearEnd_counters, nearEnd_entry, hclass,
    Bool.false_and, Bool.not_false, Bool.false_eq_true, if_false, Nat.reducePow, Nat.reduceLT, nearEndCopy]
  rfl
/-- The copy moves the 4 bytes that remain of the class, and only their word is set empty. -/
theorem nearEnd_empties : ∃ t, exec (.dcopy nearEndCopy) nearEnd = .next t ∧ 4 ∉ t.vt.empty := ⟨_, exec_nearEndCopy, by decide⟩

/-- Refutes O48: the moves of a copy end with the class of its resolved source, and only the words that it moves to are set empty; in
`nearEnd` the source passes its checks in the private window and lies 4 bytes before the end of class 00, so that of the 8 bytes of
the destination the second word stays full. -/
theorem not_copiesIssueAndReport : ¬ Obligations.CopiesIssueAndReport := by
  unfold Obligations.CopiesIssueAndReport
  rintro ⟨h, -, -⟩
  obtain ⟨-, hcopy⟩ := h nearEndCopy false nearEnd ⟨0, .lane, 0⟩ 0x01fffffffffffffc 0x4000000000000000 0 0 0
    (by simp [State.Alone, State.Present]; decide) (by decide) (by decide)
  obtain ⟨t, c, hex, -, -, -, -, -, -, -, -, -, -, -, -, -, -, -, hwords⟩ := hcopy (by decide) nearEnd_dest (fun _ => ⟨nearEnd_source, by decide⟩) (by simp) nearEnd_counters
    nearEnd_entry rfl (by simp)
  obtain ⟨-, -, hempty⟩ := hwords (by decide)
  obtain ⟨t', hex', hfull⟩ := nearEnd_empties
  obtain rfl : t = t' := Host.Outcome.next.inj (hex.symm.trans hex')
  exact hfull ((hempty 4).mpr (.inr ⟨4, by decide, by decide⟩))

end Sys2Proof.Machine
end
section
/-! PROOFS. Collectives open, abort and report (R375 to R378, R391). -/
namespace Sys2Proof.Machine

/-! ### `coll` (R375, R378) -/

/-- The end of a `coll` with its answer. -/
def State.collDone (s : State) (o : CollOp) (v : Word) : State := s.completed o.g fun st => (st.kill64 o.s1 o.k1).wr o.d v
/-- A `coll` that opens no instance. -/
def State.collRefused (s : State) (o : CollOp) (id : SId) (v : Word) : State := (s.recordErr id 2 ⟨0x03, 0⟩).collDone o v
/-- What a `coll` does with the outcome of its descriptor's checks. -/
def collOutcome (o : CollOp) (t : Team) (id : SId) (a : DWord) (r : Except Word CollDesc × State) : State :=
  r.1.casesOn (fun w => r.2.collRefused o id w) fun d =>
    ((((r.2.openInst t.fn t.recd.asid a d (some id) none o.rlx).onLane id fun st => { st with cnt := st.cnt.add 2 1 }).fireAll
      r.2.co.nextNum)).collDone o 0

theorem exec_coll {o : CollOp} {s : State} {id : SId} (ha : s.Alone o.g id) (hc : (s.stream id).cnt.cp < 254)
    (hn : s.nearPending [id] (if o.rlx then 0b00011 else o.stor ||| 0b00011) = false) (hm : o.rlx = false → s.vt.migrateMode = false) :
    let a := s.recordAddr (s.stream id) ((s.stream id).rd64 o.s1)
    exec (.coll o) s = .next (if (s.instOf s.curTeam.recd.asid a).isSome then s.collRefused o id 0xFFFFFFFF
      else collOutcome o s.curTeam id a ((checkColl s.curTeam.fn s.curTeam.recd.asid a true).run s)) := by
  have hfull : s.counterFull [id] 2 = false := by
    unfold State.counterFull
    simpa [Counters.get] using hc
  have hrel : (if o.rlx then s else s.releaseTag s.curTag) = s := by
    split
    · rfl
    · next hr => rw [State.releaseTag, hm (by simpa using hr), if_neg Bool.false_ne_true]
  change execColl o s = _
  unfold execColl
  dsimp only
  rw [State.active_one ha.1 ha.2.1, State.lowest_alone ha]
  dsimp only
  rw [s.stream_id, hfull, hn, if_neg Bool.false_ne_true, if_neg Bool.false_ne_true, hrel]
  obtain ⟨r, s1⟩ := (checkColl s.curTeam.fn s.curTeam.recd.asid (s.recordAddr (s.stream id) ((s.stream id).rd64 o.s1)) true).run s
  cases r <;> rfl

/-! ### Instances -/

theorem State.allocMerge_frame (s : State) (die idx : Nat) (asid : BitVec 16) (va core kind : Nat) (f : XFail) (pc : DWord)
    (ws : List SId) : s.WalkWork (s.allocMerge die idx asid va core kind f pc ws) := rfl
theorem State.engineFail_frame (s : State) (die fn : Nat) (asid : BitVec 16) (kind : Nat) (e : Fail) (core : Nat) :
    s.WalkWork (s.engineFail die fn asid kind e core) := by
  unfold State.engineFail State.engineFault
  split
  · rfl
  · split
    · rfl
    · split
      · rfl
      · split
        · rfl
        · exact s.allocMerge_frame _ _ _ _ _ _ _ _ _

theorem State.WalkWork.co_eq {s t : State} (h : s.WalkWork t) : t.co = s.co := by rw [show t = _ from h]
theorem State.UnitWork.co_eq {s t : State} (h : s.UnitWork t) : t.co = s.co := by rw [h.frame]
theorem State.putStatus_unitWork (s : State) (i : Inst) (w : DWord) : s.UnitWork (s.putStatus i w) := .unitWrite1 s _ _ _ _

/-- The instance aborted at this member. -/
def Inst.abortedBy (i : Inst) (cause : Cause) (m : Nat) : Inst := { i with aborted := some (cause, i.desc.rank m, m) }

theorem State.abortInst_eq {s : State} {num : Nat} {i : Inst} (h : s.inst? num = some i) (hf : i.final = false) (ha : i.aborted = none)
    (cause : Cause) (m : Nat) : s.abortInst num cause m = { s.onInst num (Inst.abortedBy · cause m) with
      outbox := s.outbox ++ i.partners.map fun p => Msg.abort i.tag p (i.desc.rank m) m } := by
  unfold State.abortInst
  rw [h]
  dsimp only
  rw [hf, ha]
  rfl
theorem State.abortInst_co {s : State} {num : Nat} {i : Inst} (h : s.inst? num = some i) (hf : i.final = false) (ha : i.aborted = none)
    (cause : Cause) (m : Nat) : (s.abortInst num cause m).co =
      { s.co with insts := s.co.insts.map fun x => if x.num = num then x.abortedBy cause m else x } := by
  rw [State.abortInst_eq h hf ha]
  rfl
theorem State.abortInst_inst? {s : State} {num : Nat} {i : Inst} (h : s.inst? num = some i) (hf : i.final = false)
    (ha : i.aborted = none) (cause : Cause) (m : Nat) : (s.abortInst num cause m).inst? num = some (i.abortedBy cause m) := by
  rw [State.abortInst_eq h hf ha]
  exact (s.onInst_inst? num (f := (Inst.abortedBy · cause m)) fun _ => rfl).trans (congrArg _ h)

/-- The failure of a page of a buffer, none where it fits (R377). -/
def State.pageFails (s : State) (i : Inst) (va : Nat) : Option (Nat × Cause × Option Fail) :=
  match s.checkPage (s.unit i.fn i.asid) .load va with
  | .error e => some (va, failCause e, some e)
  | .ok c => if c.loc.space = .dev then none else some (va, cPagePermission, none)
theorem State.pageFails_none {s : State} {i : Inst} {va : Nat} : s.pageFails i va = none ↔
    ∃ c, s.checkPage (s.unit i.fn i.asid) .load va = .ok c ∧ c.loc.space = .dev := by
  unfold State.pageFails
  cases s.checkPage (s.unit i.fn i.asid) .load va with
  | error e => simp
  | ok c => by_cases hd : c.loc.space = .dev <;> simp [hd]

/-- What the check of the buffers of an instance does (R377). -/
theorem State.checkBuffers_cases {s : State} {num : Nat} {i : Inst} (h : s.inst? num = some i) :
    (i.desc.pages.findSome? (s.pageFails i) = none ∧ s.checkBuffers num = s) ∨
    ∃ va c e, i.desc.pages.findSome? (s.pageFails i) = some (va, c, e) ∧ ∃ u : State, s.WalkWork u ∧
      s.checkBuffers num = u.abortInst num c i.me := by
  have heq : s.checkBuffers num = (i.desc.pages.findSome? (s.pageFails i)).elim s fun r =>
      (r.2.2.elim s (s.engineFail (s.stackAt i.fn i.asid r.1 (i.millers.headD 0) / 4) i.fn i.asid 8)).abortInst num r.2.1 i.me := by
    unfold State.checkBuffers
    rw [h]
    change (match i.desc.pages.findSome? (s.pageFails i) with
      | none => s
      | some (va, c, e) => (e.elim s (s.engineFail (s.stackAt i.fn i.asid va (i.millers.headD 0) / 4) i.fn i.asid 8)).abortInst num c
          i.me) = _
    cases i.desc.pages.findSome? (s.pageFails i) <;> rfl
  rw [heq]
  cases i.desc.pages.findSome? (s.pageFails i) with
  | none => exact .inl ⟨rfl, rfl⟩
  | some r =>
    obtain ⟨va, c, e⟩ := r
    refine .inr ⟨va, c, e, rfl, _, ?_, rfl⟩
    cases e with
    | none => rfl
    | some e => exact s.engineFail_frame _ _ _ _ _ _

/-! ### Opening (R375, R376, R382) -/

section Open
variable {s : State} {fn : Nat} {asid : BitVec 16} {a : DWord} {d : CollDesc} {op : Option SId} {node : Option Nat} {rlx : Bool} {n : Nat}

/-- The key of a new instance. -/
def State.keyOf (s : State) (n : Nat) (d : CollDesc) : CollKey := ⟨(s.job n).jid, d.op, d.ranks⟩
/-- Its number among the instances of its key. -/
def State.opened (s : State) (key : CollKey) : Nat := ((s.co.opened.find? fun e => e.1 = key).map (·.2)).getD 0
/-- A new instance. -/
def State.newInst (s : State) (fn : Nat) (asid : BitVec 16) (a : DWord) (d : CollDesc) (op : Option SId) (node : Option Nat) (rlx : Bool)
    (n : Nat) : Inst :=
  let i : Inst :=
    { num := s.co.nextNum, slot := s.instSlot, asid := asid, fn := fn, job := n, addr := a, desc := d
      tag := ⟨(s.job n).jid, d.op, d.ranks, s.opened (s.keyOf n d), d.algo, d.fmt, d.tripleD, d.chunk, d.total⟩, millers := []
      me := (d.member (s.job n).rank).getD 0, opener := op, node := node, rlx := rlx, chunks := [], sent := []
      pushes := [], aborted := none, final := false, ended := false, seq := s.co.nextNum }
  { i with millers := if d.op = 5 then [] else (List.range d.virtuals).map fun v => s.stackAt fn asid (i.resultAt v) 0 }
/-- The instance in its slot. -/
def State.withInst (s : State) (i : Inst) (key : CollKey) : State :=
  { s with co := { s.co with
    insts := (s.co.insts.filter fun x => x.slot ≠ i.slot) ++ [i], nextNum := s.co.nextNum + 1
    opened := (s.co.opened.filter fun e => e.1 ≠ key) ++ [(key, s.opened key + 1)] } }
theorem State.openInst_eq (hj : s.jobOf asid = some n) : s.openInst fn asid a d op node rlx =
    ((s.withInst (s.newInst fn asid a d op node rlx n) (s.keyOf n d)).putStatus (s.newInst fn asid a d op node rlx n) 0).checkBuffers
      s.co.nextNum := by
  unfold State.openInst
  rw [hj]
  rfl

/-- The instance is there, and aborted where a page of its buffers does not fit. -/
theorem State.openInst_co (hj : s.jobOf asid = some n) (hnum : ∀ j ∈ s.co.insts, j.num < s.co.nextNum) :
    let i := s.newInst fn asid a d op node rlx n
    ∃ j, (j = i ∨ d.op ≠ 5 ∧ ∃ c, j = i.abortedBy c i.me) ∧ (s.openInst fn asid a d op node rlx).co =
      { (s.withInst i (s.keyOf n d)).co with insts := (s.co.insts.filter fun x => x.slot ≠ i.slot) ++ [j] } := by
  intro i
  have hother : ∀ x ∈ s.co.insts.filter fun x => x.slot ≠ i.slot, ¬x.num = s.co.nextNum := fun x hx =>
    Nat.ne_of_lt (hnum x (List.mem_of_mem_filter hx))
  have hco : ((s.withInst i (s.keyOf n d)).putStatus i 0).co = (s.withInst i (s.keyOf n d)).co :=
    ((s.withInst i (s.keyOf n d)).putStatus_unitWork i 0).co_eq
  have hi : ∀ u : State, u.co = (s.withInst i (s.keyOf n d)).co → u.inst? s.co.nextNum = some i := fun u hu => by
    unfold State.inst?
    rw [hu]
    change ((s.co.insts.filter fun x => x.slot ≠ i.slot) ++ [i]).find? _ = _
    rw [List.find?_append, List.find?_eq_none.mpr (fun x hx => by simpa using hother x hx)]
    exact List.find?_cons_of_pos (a := i) (p := fun x : Inst => x.num = s.co.nextNum) (l := []) (decide_eq_true rfl)
  rw [State.openInst_eq hj]
  rcases State.checkBuffers_cases (hi _ hco) with ⟨-, h⟩ | ⟨va, c, e, hbad, u, hu, h⟩ <;> rw [h]
  · exact ⟨i, .inl rfl, hco⟩
  · have hu' : u.co = (s.withInst i (s.keyOf n d)).co := hu.co_eq.trans hco
    refine ⟨i.abortedBy c i.me, .inr ⟨fun h5 => ?_, c, rfl⟩, ?_⟩
    · have hpages : i.desc.pages = [] := if_pos h5
      rw [hpages] at hbad
      exact Option.some_ne_none _ hbad.symm
    · rw [State.abortInst_co (hi u hu') rfl rfl, hu']
      change ({ (s.withInst i (s.keyOf n d)).co with
        insts := ((s.co.insts.filter fun x => x.slot ≠ i.slot) ++ [i]).map _ } : Colls) = _
      rw [List.map_append, List.map_congr_left fun x hx => if_neg (hother x hx), List.map_id']
      rw [List.map_singleton, if_pos (show i.num = s.co.nextNum from rfl)]

/-- An instance opens. -/
theorem State.openInst_opens (hj : s.jobOf asid = some n) (hnum : ∀ j ∈ s.co.insts, j.num < s.co.nextNum) :
    let key : CollKey := ⟨(s.job n).jid, d.op, d.ranks⟩
    let t := s.openInst fn asid a d op node rlx
    t.co.nextNum = s.co.nextNum + 1 ∧
      ∃ i ∈ t.co.insts, i.num = s.co.nextNum ∧ i.slot = s.instSlot ∧ i.asid = asid ∧ i.fn = fn ∧ i.addr = a ∧ i.desc = d ∧ i.opener = op ∧
        i.node = node ∧ i.me = (d.member (s.job n).rank).getD 0 ∧ i.final = false ∧ i.chunks = [] ∧
        i.tag = ⟨key.job, d.op, d.ranks, ((s.co.opened.find? fun e => e.1 = key).map (·.2)).getD 0, d.algo, d.fmt, d.tripleD, d.chunk,
          d.total⟩ ∧
        (i.aborted = none ∨ d.op ≠ 5 ∧ ∃ c, i.aborted = some (c, d.rank i.me, i.me)) ∧
        (∀ j ∈ t.co.insts, j.slot = s.instSlot → j = i) ∧ (t.co.opened.find? fun e => e.1 = key) = some (key, i.tag.k + 1) := by
  intro key t
  obtain ⟨j, hab, hco⟩ := State.openInst_co (fn := fn) (a := a) (d := d) (op := op) (node := node) (rlx := rlx) hj hnum
  rw [show t.co = _ from hco]
  have hopened : ((s.co.opened.filter fun e => e.1 ≠ key) ++ [(key, s.opened key + 1)]).find? (fun e => e.1 = key) =
      some (key, s.opened key + 1) := by
    rw [List.find?_append, List.find?_eq_none.mpr (fun x hx => by simpa using (List.mem_filter.mp hx).2)]
    exact List.find?_cons_of_pos (a := (key, s.opened key + 1)) (p := fun e : CollKey × Nat => e.1 = key) (l := []) (decide_eq_true rfl)
  have hslot : ∀ x ∈ (s.co.insts.filter fun x => x.slot ≠ s.instSlot) ++ [j], x.slot = s.instSlot → x = j := fun x hx h => by
    rcases List.mem_append.mp hx with hx | hx
    · exact absurd h (by simpa using (List.mem_filter.mp hx).2)
    · exact List.mem_singleton.mp hx
  refine ⟨rfl, j, List.mem_append_right _ List.mem_cons_self, ?_⟩
  rcases hab with rfl | ⟨h5, c, rfl⟩
  · exact ⟨rfl, rfl, rfl, rfl, rfl, rfl, rfl, rfl, rfl, rfl, rfl, rfl, .inl rfl, hslot, hopened⟩
  · exact ⟨rfl, rfl, rfl, rfl, rfl, rfl, rfl, rfl, rfl, rfl, rfl, rfl, .inr ⟨h5, c, rfl⟩, hslot, hopened⟩
end Open

/-- The buffers of an instance are checked as it opens. -/
theorem State.checkBuffers_aborts {s : State} {num : Nat} {i : Inst} (h : s.inst? num = some i) (hf : i.final = false)
    (ha : i.aborted = none) :
    ((∀ va ∈ i.desc.pages, s.pageFails i va = none) → s.checkBuffers num = s) ∧
    ∀ va ∈ i.desc.pages, s.pageFails i va ≠ none →
      ∃ j c, (s.checkBuffers num).inst? num = some j ∧ j.aborted = some (c, i.desc.rank i.me, i.me) := by
  rcases State.checkBuffers_cases h with ⟨hnone, heq⟩ | ⟨va, c, e, hbad, u, hu, heq⟩
  · exact ⟨fun _ => heq, fun va hva hfail => absurd (List.findSome?_eq_none_iff.mp hnone va hva) hfail⟩
  · have hi : u.inst? num = some i := by
      unfold State.inst? at h ⊢
      rw [hu.co_eq, h]
    rw [heq]
    refine ⟨fun hall => ?_, fun _ _ _ => ⟨_, c, State.abortInst_inst? hi hf ha c i.me, rfl⟩⟩
    rw [List.findSome?_eq_none_iff.mpr hall] at hbad
    exact absurd hbad.symm (Option.some_ne_none _)

/-! ### `cabort` and `cstat` (R391) -/

section Report
variable {o : Alu1} {s : State} {low : SId} {rest : List SId} (hact : s.active o.g = low :: rest)
include hact

theorem exec_cabort_none (h : s.instOf s.curTeam.recd.asid (s.recordAddr (s.stream low) ((s.stream low).rd64 o.s1)) = none) :
    exec (.cabort o) s = .next (s.completed o.g fun st => (st.kill64 o.s1 o.k1).wr o.d 1) := by
  change execCabort o s = _
  unfold execCabort
  rw [State.lowest_of hact]
  dsimp only
  rw [h]
  rfl
theorem exec_cabort_some {i : Inst} (h : s.instOf s.curTeam.recd.asid (s.recordAddr (s.stream low) ((s.stream low).rd64 o.s1)) = some i) :
    exec (.cabort o) s = .next ((s.abortInst i.num 0x41 i.me).completed o.g fun st => (st.kill64 o.s1 o.k1).wr o.d 0) := by
  change execCabort o s = _
  unfold execCabort
  rw [State.lowest_of hact]
  dsimp only
  rw [h]
  rfl
theorem exec_cstat : exec (.cstat o) s = .next (s.completed o.g fun st => (st.kill64 o.s1 o.k1).wr64 o.d
    (s.statusOf s.curTeam.recd.asid (s.recordAddr (s.stream low) ((s.stream low).rd64 o.s1)))) := by
  change execCstat o s = _
  unfold execCstat
  rw [State.lowest_of hact]
  rfl
end Report

theorem State.instOf_open {s : State} {asid : BitVec 16} {a : DWord} {i : Inst} (h : s.instOf asid a = some i) : i.final = false := by
  simpa [State.openInsts] using (List.mem_filter.mp (List.mem_of_find?_eq_some h)).2
theorem State.statusOf_none {s : State} {asid : BitVec 16} {a : DWord} (h : ∀ i ∈ s.co.insts, ¬(i.asid = asid ∧ i.addr = a)) :
    s.statusOf asid a = -1 := by
  unfold State.statusOf
  rw [List.find?_eq_none.mpr fun i hi => by simpa using h i (List.mem_reverse.mp hi)]
theorem State.statusOf_newest {s : State} {asid : BitVec 16} {a : DWord} {l r : List Inst} {i : Inst} (h : s.co.insts = l ++ i :: r)
    (h1 : i.asid = asid) (h2 : i.addr = a) (hr : ∀ j ∈ r, ¬(j.asid = asid ∧ j.addr = a)) :
    s.statusOf asid a = if i.final then i.status else 0 := by
  unfold State.statusOf
  rw [h, List.reverse_append, List.reverse_cons, List.append_assoc, List.find?_append,
    List.find?_eq_none.mpr fun j hj => by simpa using hr j (List.mem_reverse.mp hj), List.singleton_append,
    List.find?_cons_of_pos (by simp [h1, h2])]
  rfl
theorem Inst.status_success {i : Inst} (hf : i.final = true) (ha : i.aborted = none) : i.status = 1#64 <<< 60 := by
  unfold Inst.status
  rw [ha]
  dsimp only
  rw [hf]
  rfl
theorem Inst.status_aborted {i : Inst} {c : Cause} {r m : Nat} (ha : i.aborted = some (c, r, m)) : i.status =
    if c = 0x40 ∨ c = 0x41 then 2#4 ++ c ++ 0#18 ++ BitVec.ofNat 17 r ++ BitVec.ofNat 17 m else 2#4 ++ c ++ 0#52 := by
  unfold Inst.status
  rw [ha]
  exact if_congr (by rw [Bool.or_eq_true, decide_eq_true_iff, decide_eq_true_iff]; rfl) rfl rfl

/-- Settles O55: `coll` by its equation, the instance that it opens, the check of its buffers, and the two reports. -/
theorem collectivesOpenAndReport : Obligations.CollectivesOpenAndReport := by
  unfold Obligations.CollectivesOpenAndReport
  refine ⟨fun o s id ha hc hn hm => ?_, fun s fn asid a d op node rlx n hj hnum => State.openInst_opens hj hnum,
    fun s num i h hf hab => ?_, fun o s low rest hact => ?_⟩
  · have hex := exec_coll ha hc hn hm
    refine ⟨fun hopen => ?_, fun w s1 hnone hrun => ?_, fun d s1 hnone hrun => ?_⟩ <;> refine hex.trans ?_
    · exact congrArg Host.Outcome.next (if_pos hopen)
    · rw [hnone, hrun]
      rfl
    · rw [hnone, hrun]
      rfl
  · obtain ⟨hok, hbad⟩ := State.checkBuffers_aborts h hf hab
    exact ⟨fun hall => hok fun va hva => State.pageFails_none.mpr (hall va hva),
      fun va hva hfail => hbad va hva fun hno => hfail (State.pageFails_none.mp hno)⟩
  · refine ⟨exec_cabort_none hact, fun i hof hi hab => ⟨s.abortInst i.num 0x41 i.me, exec_cabort_some hact hof, ?_,
      State.abortInst_inst? hi (State.instOf_open hof) hab _ _, ?_⟩, fun hnone => ?_, fun l i r h h1 h2 hr => ?_⟩
    · rw [State.abortInst_eq hi (State.instOf_open hof) hab]
      rfl
    · rw [State.abortInst_eq hi (State.instOf_open hof) hab]
    · rw [exec_cstat hact, State.statusOf_none hnone]
    · rw [exec_cstat hact, State.statusOf_newest h h1 h2 hr]
      refine ⟨fun hf => ?_, fun hf hab => ?_, fun c rk m hf hab => ?_⟩ <;> rw [hf]
      · rfl
      · rw [if_pos rfl, Inst.status_success hf hab]
      · rw [if_pos rfl, Inst.status_aborted hab]
end Sys2Proof.Machine
end
section
/-! PROOFS. Work of a unit on memory while no store is on its way: no stream and no operation changes (R351). -/
namespace Sys2Proof.Machine

namespace State.MemoryWork
variable {s t u : State}

theorem co_eq (h : s.MemoryWork t) : t.co = s.co := by rw [show t = _ from h]
theorem streams_eq (h : s.MemoryWork t) : t.streams = s.streams := by rw [show t = _ from h]
theorem onLines (s : State) (p : Line → Bool) (f : Line → Line) : s.MemoryWork (s.onLines p f) := rfl
theorem dropLines (s : State) (p : Line → Bool) : s.MemoryWork (s.dropLines p) := rfl
theorem setDir (s : State) (seg : Nat) (d : Dir) : s.MemoryWork (s.setDir seg d) := rfl
theorem replicaPut (s : State) (vcid c key : Nat) (bs : List Byte) (dirty : Bool) (ctag : Option Nat) (req : Option Prio) :
    s.MemoryWork (s.replicaPut vcid c key bs dirty ctag req) := by
  unfold State.replicaPut
  split
  · exact refl s
  · dsimp only
    split
    · exact dropLines s _
    · exact (moveLine s _ _ _).trans (onLines _ _ _)
theorem storeAt (s : State) (loc : Loc) (bs : List Byte) (req : Option Prio) (ctag : Option Nat) :
    s.MemoryWork (s.storeAt loc bs req ctag) := by
  unfold State.storeAt
  split
  · exact putHome s _ _
  · next c _ =>
    dsimp only
    split
    · have h1 : s.MemoryWork (if (s.line? loc.vcid none loc.key).isSome then s.moveLine c none loc.key
          else s.fillLine c none loc.key req) := by
        split
        · exact moveLine s _ _ _
        · exact fillLine s _ _ _ _
      revert h1
      generalize (if (s.line? loc.vcid none loc.key).isSome then s.moveLine c none loc.key else s.fillLine c none loc.key req) = u
      intro h1
      refine (h1.trans ?_).trans (onLines _ _ _)
      split
      · exact refl _
      · exact putHome _ _ _
    · exact ((moveLine s _ _ _).trans (putHome _ _ _)).trans (onLines _ _ _)
    · exact (putHome s _ _).trans (dropLines _ _)
theorem dirWrite (s : State) (c key : Nat) (bs : List Byte) : s.MemoryWork (s.dirWrite c key bs) := by
  unfold State.dirWrite
  dsimp only
  split
  · exact putHome s _ _
  · exact ((putHome s _ _).trans (dropLines _ _)).trans (setDir _ _ _)
  · split
    · exact putHome s _ _
    · exact ((((writeBack s _).trans (dropLines _ _)).trans (putHome _ _ _)).trans (dropLines _ _)).trans (setDir _ _ _)
  · exact refl s
/-- With no segment instruction in transit the end of a transit ends none. -/
theorem transitEnd (h : ∀ o ∈ s.ops, o.phase ≠ .left) (seg : Nat) : s.MemoryWork (s.transitEnd seg) := by
  have hnone : s.sgWaiting seg = [] := List.filter_eq_nil_iff.mpr fun o ho => by simp [h o ho]
  unfold State.transitEnd
  split
  · rw [hnone]
    exact setDir s seg _
  · exact refl s
theorem writeNow (h : ∀ o ∈ s.ops, o.phase ≠ .left) (loc : Loc) (cluster : Nat) (bs : List Byte) (ctag : Option Nat) :
    s.MemoryWork (s.writeNow loc cluster bs ctag) := by
  unfold State.writeNow
  rw [State.settle_none h]
  have h0 : s.MemoryWork (s.clearPoison loc.key bs.length) := rfl
  refine h0.trans ?_
  have hu : ∀ o ∈ (s.clearPoison loc.key bs.length).ops, o.phase ≠ .left := h
  revert hu
  generalize s.clearPoison loc.key bs.length = u
  intro hu
  dsimp only
  split
  · exact putHome u _ _
  · next c _ =>
    split
    · refine (transitEnd hu (segOf loc.key)).trans ?_
      generalize u.transitEnd (segOf loc.key) = v
      refine (replicaPut v loc.vcid (c.replica cluster) loc.key bs (v.staysLocal c (c.replica cluster) loc.key) ctag none).trans ?_
      split
      · exact refl _
      · exact dirWrite _ _ _ _
    · exact storeAt u _ _ _ _
theorem refused (s : State) (w : Who) (ak : AK) (f : Fail) : s.MemoryWork (s.refused w ak f) := by
  have hseen : ∀ va : Nat, s.MemoryWork (match s.xlate w.at_ w.die w.asid va ak.writes with
      | .ok (_, _, some wk) => s.install w.at_ w.die w.asid va wk
      | .ok (_, _, none) => s
      | .error .join => s
      | .error _ => s.cacheDesc w.asid) := by
    intro va
    split <;> exact rfl
  unfold State.refused
  split
  · exact hseen _
  · split
    · exact hseen _
    · exact refl s
theorem lostWrite (s : State) (l : Loc) : s.MemoryWork (s.lostWrite l) := by
  unfold State.lostWrite
  split
  · split <;> exact rfl
  · exact refl s
theorem unitWrite1 (h : ∀ o ∈ s.ops, o.phase ≠ .left) (w : Who) (va cluster : Nat) (bs : List Byte) :
    s.MemoryWork (s.unitWrite1 w va cluster bs) := by
  unfold State.unitWrite1
  split
  · exact refused s _ _ _
  · next c _ =>
    have ht := State.WalkWork.touch s w .store c
    have hops : ∀ o ∈ (s.touch w .store c).ops, o.phase ≠ .left := by
      rw [show s.touch w .store c = _ from ht]
      exact h
    refine ht.memoryWork.trans ?_
    dsimp only
    split
    · exact lostWrite _ _
    · split
      · exact refl _
      · exact writeNow hops _ _ _ _
end State.MemoryWork
end Sys2Proof.Machine
end
section
/-! PROOFS. Stages, forwards, aborts and ends of collective instances (R376, R379, R380, R382, R384). -/
namespace Sys2Proof.Machine

theorem State.onInst_same {s : State} {num : Nat} {i : Inst} (h : s.inst? num = some i) {f : Inst → Inst} (hf : ∀ i : Inst, (f i).num = i.num) :
    (s.onInst num f).inst? num = some (f i) := by
  rw [State.onInst_inst? s num hf, h]
  rfl

theorem State.onInst_const {s : State} {num : Nat} {i j : Inst} (h : s.inst? num = some i) (hj : j.num = num) :
    (s.onInst num fun _ => j).inst? num = some j := by
  have heq : (s.onInst num fun _ => j) = s.onInst num fun x => { j with num := x.num } := by
    unfold State.onInst
    refine congrArg (fun l => { s with co := { s.co with insts := l } }) (List.map_congr_left fun x _ => ?_)
    by_cases hx : x.num = num
    · rw [if_pos hx, if_pos hx]
      dsimp only
      rw [hx, ← hj]
    · rw [if_neg hx, if_neg hx]
  rw [heq, State.onInst_same h (f := fun x => { j with num := x.num }) fun _ => rfl, State.inst?_num h, ← hj]

/-! ### Packets (R376) -/

section Packet
variable {s : State} {p : InColl} {f : Inst → State}

theorem State.collPacket_nack {r : BitVec 8} (h : s.collCheck p = some r) :
    s.collPacket p f = { s with outbox := s.outbox ++ [.collNack p.tag p.src r] } := by
  unfold State.collPacket
  rw [h]
theorem State.collPacket_idle (h : s.collCheck p = none)
    (hi : s.partner p.tag = none ∨ ∃ i, s.partner p.tag = some i ∧ (i.final = true ∨ i.aborted ≠ none)) : s.collPacket p f = s := by
  unfold State.collPacket
  rw [h]
  rcases hi with hi | ⟨i, hi, hend⟩ <;> rw [hi]
  refine if_pos ?_
  rcases hend with h | h
  · rw [h, Bool.true_or]
  · rw [Option.isSome_iff_ne_none.mpr h, Bool.or_true]
theorem State.collPacket_open {i : Inst} (h : s.collCheck p = none) (hi : s.partner p.tag = some i) (hf : i.final = false)
    (ha : i.aborted = none) : s.collPacket p f = if i.tag = p.tag then f i else s.abortInst i.num 0x41 i.me := by
  unfold State.collPacket
  rw [h]
  dsimp only
  rw [hi]
  dsimp only
  rw [hf, ha]
  by_cases ht : i.tag = p.tag
  · rw [if_pos ht, ht, bne_self_eq_false]
    rfl
  · rw [if_neg ht, bne_iff_ne.mpr ht]
    rfl
end Packet

/-! ### Stages (R379, R380) -/

/-- The input of a stage. -/
def Chunk.input (c : Chunk) (g : Stage) : Option (List Byte) :=
  match g.src with
  | none => some c.mine
  | some m => (c.staged.find? fun x => x.1 = m).map (·.2)
/-- What a stage makes of it. -/
def Inst.folded (i : Inst) (v : Nat) (g : Stage) (x : List Byte) : List Byte :=
  if g.fold then (match (i.chunk v).acc with
    | some a => combine i.desc a x
    | none => x)
  else x
/-- The data in staging that it leaves there. -/
def Chunk.unread (c : Chunk) (src : Option Nat) : List (Nat × List Byte) :=
  match src with
  | none => c.staged
  | some m => match c.staged.findIdx? fun y => y.1 == m with
    | some k => c.staged.eraseIdx k
    | none => c.staged
/-- The instance after a stage that writes nothing. -/
def Inst.staged (v : Nat) (c : Chunk) (g : Stage) (now : Nat) (i : Inst) : Inst :=
  { i.setChunk c with sent := i.sent ++ g.dests.map fun m => Forward.mk v m now }

theorem Inst.chunk_idx (i : Inst) (v : Nat) : (i.chunk v).idx = v := by
  unfold Inst.chunk
  cases h : i.chunks.find? fun c => c.idx = v with
  | none => rfl
  | some c => simpa using List.find?_some h
theorem Inst.setChunk_chunk (i : Inst) (c : Chunk) : (i.setChunk c).chunk c.idx = c := by
  unfold Inst.setChunk Inst.chunk
  dsimp only
  rw [List.find?_append, List.find?_eq_none.mpr (fun x hx => by simpa using (List.mem_filter.mp hx).2), Option.none_or,
    List.find?_cons_of_pos (a := c) (p := fun x : Chunk => x.idx = c.idx) (l := []) (decide_eq_true rfl)]
  rfl
theorem Inst.setChunk_other (i : Inst) {c : Chunk} {w : Nat} (h : w ≠ c.idx) : (i.setChunk c).chunk w = i.chunk w := by
  unfold Inst.setChunk Inst.chunk
  dsimp only
  have hkeep : (i.chunks.filter fun x => x.idx ≠ c.idx).find? (fun x => x.idx = w) = i.chunks.find? fun x => x.idx = w := by
    rw [List.find?_filter]
    refine congrArg (List.find? · i.chunks) (funext fun x => ?_)
    by_cases hx : x.idx = w
    · simp [hx, h]
    · simp [hx]
  rw [List.find?_append, hkeep, List.find?_cons_of_neg (by simpa using fun e => h e.symm), List.find?_nil, Option.or_none]

/-- The chunk after a stage that writes nothing. -/
def Inst.stepped (i : Inst) (v : Nat) (g : Stage) (x : List Byte) (now : Nat) : Chunk :=
  { i.chunk v with
    acc := some (i.folded v g x)
    step := (i.chunk v).step + 1
    staged := (i.chunk v).unread g.src
    since := now
    entry := false }

theorem State.runStage_eq {s : State} {num v : Nat} {i : Inst} {g : Stage} {x : List Byte} (h : s.inst? num = some i)
    (ha : i.aborted = none) (hf : (i.chunk v).fired = true) (he : s.holdsEntry i v = true)
    (hg : (i.desc.stages i.me v)[(i.chunk v).step]? = some g) (hw : g.write = false) (hx : (i.chunk v).input g = some x) :
    s.runStage num v = some { s.onInst num (Inst.staged v (i.stepped v g x s.gts) g s.gts) with
      outbox := s.outbox ++ g.dests.map fun m => Msg.forward i.tag v m (i.folded v g x) } := by
  have hpass : (!(i.chunk v).fired || i.aborted.isSome || !s.holdsEntry i v) = false := by rw [hf, ha, he]; rfl
  unfold State.runStage
  rw [h]
  dsimp only
  rw [hpass, if_neg Bool.false_ne_true, hg]
  obtain ⟨src, fold, write, dests⟩ := g
  obtain rfl : write = false := hw
  simp only [Bool.false_and, Bool.false_eq_true, if_false, Bool.or_false]
  unfold Chunk.input at hx
  cases src with
  | none =>
    obtain rfl : (i.chunk v).mine = x := Option.some.inj hx
    rfl
  | some m =>
    dsimp only at hx ⊢
    rw [hx]
    rfl

/-- A stage leaves its fold, its forwards and the other chunks. -/
theorem State.runStage_runs {s : State} {num v : Nat} {i : Inst} {g : Stage} {x : List Byte} (h : s.inst? num = some i)
    (ha : i.aborted = none) (hf : (i.chunk v).fired = true) (he : s.holdsEntry i v = true)
    (hg : (i.desc.stages i.me v)[(i.chunk v).step]? = some g) (hw : g.write = false) (hx : (i.chunk v).input g = some x) :
    let val := if g.fold then ((i.chunk v).acc.map fun a => combine i.desc a x).getD x else x
    ∃ t j, s.runStage num v = some t ∧ t = { s with co := { s.co with insts := t.co.insts }, outbox := t.outbox } ∧
      t.outbox = s.outbox ++ g.dests.map (fun m => Msg.forward i.tag v m val) ∧ t.inst? num = some j ∧
      j.sent = i.sent ++ g.dests.map (fun m => Forward.mk v m s.gts) ∧ (j.chunk v).acc = some val ∧
      (j.chunk v).step = (i.chunk v).step + 1 ∧ ∀ w, w ≠ v → j.chunk w = i.chunk w := by
  intro val
  have hval : val = i.folded v g x := by
    unfold Inst.folded
    cases h : (i.chunk v).acc <;> simp only [val, h] <;> rfl
  have hidx : (i.stepped v g x s.gts).idx = v := i.chunk_idx v
  have hchunk : (i.setChunk (i.stepped v g x s.gts)).chunk v = i.stepped v g x s.gts := by
    have hc := i.setChunk_chunk (i.stepped v g x s.gts)
    rwa [hidx] at hc
  rw [hval]
  refine ⟨_, (i.staged v (i.stepped v g x s.gts) g s.gts), State.runStage_eq h ha hf he hg hw hx, rfl, rfl,
    State.onInst_same h fun _ => rfl, rfl, congrArg Chunk.acc hchunk, congrArg Chunk.step hchunk, fun w hwv => ?_⟩
  exact i.setChunk_other (by rwa [hidx])

/-! ### Aborts (R382, R384) -/

/-- The instance aborts here and tells its partners. -/
theorem State.abortInst_aborts {s : State} {num : Nat} {i : Inst} (h : s.inst? num = some i) (hf : i.final = false) (ha : i.aborted = none)
    {e : Instr} {cause : Cause} {m : Nat} (he : exec e s = .next (s.abortInst num cause m)) : ∃ t, exec e s = .next t ∧
      t = { s with co := { s.co with insts := t.co.insts }, outbox := t.outbox } ∧
      t.inst? num = some { i with aborted := some (cause, i.desc.rank m, m) } ∧
      t.outbox = s.outbox ++ i.partners.map fun p => Msg.abort i.tag p (i.desc.rank m) m := by
  refine ⟨_, he, ?_, State.abortInst_inst? h hf ha cause m, ?_⟩ <;> rw [State.abortInst_eq h hf ha]
  rfl

theorem exec_stepTimeout {s : State} {num m : Nat} {i : Inst} (h : s.inst? num = some i) : exec (.stepTimeout num m) s = .next
    (if ∃ w ∈ s.lateMembers i, w.2 = m ∧ ∀ x ∈ s.lateMembers i, w.1 < x.1 ∨ w.1 = x.1 ∧ w.2 ≤ x.2 then s.abortInst num 0x40 m else s) := by
  change execStepTimeout num m s = _
  unfold execStepTimeout
  rw [h]
  exact congrArg Host.Outcome.next (if_congr (by simp) rfl rfl)
/-- What waits for a member longer than the limit. -/
theorem State.mem_lateMembers {s : State} {i : Inst} {at_ m : Nat} : (at_, m) ∈ s.lateMembers i ↔
    at_ + i.desc.timeout * 1000 < s.gts ∧
      ((∃ c ∈ i.chunks, i.waitsFor c = some m ∧ c.since = at_) ∨ ∃ f ∈ i.sent, f.member = m ∧ f.time = at_) := by
  unfold State.lateMembers
  simp only [List.mem_filter, List.mem_append, List.mem_filterMap, List.mem_map, Option.map_eq_some_iff, Prod.mk.injEq,
    decide_eq_true_eq]
  rw [and_comm]
  refine and_congr_right fun _ => or_congr ?_ ?_
  · exact exists_congr fun c => and_congr_right fun _ =>
      ⟨fun ⟨_, hw, hs, hm⟩ => ⟨hm ▸ hw, hs⟩, fun ⟨hw, hs⟩ => ⟨m, hw, hs, rfl⟩⟩
  · exact exists_congr fun f => and_congr_right fun _ => and_comm

/-! ### The end of an instance (R382) -/

theorem State.endInst_pushing {s : State} {num : Nat} {i : Inst} (h : s.inst? num = some i) (hp : i.pushes ≠ []) : s.endInst num = s := by
  unfold State.endInst
  rw [h]
  refine if_pos ?_
  rw [List.isEmpty_eq_false_iff.mpr hp, Bool.not_false, Bool.or_true]
/-- The opening stream once its instance has ended, with the cause of an abort. -/
def Stream.collEnded (aborted : Option (BitVec 8 × Nat × Nat)) (st : Stream) : Stream :=
  { st with
    cnt := st.cnt.dec 2
    slots := match aborted with
      | some (c, _, _) => st.slots.record 2 ⟨c, 0⟩
      | none => st.slots }
theorem State.endInst_eq {s : State} {num : Nat} {i : Inst} {sid : SId} (h : s.inst? num = some i) (hf : i.final = true)
    (he : i.ended = false) (hp : i.pushes = []) (hw : i.desc.workq = none) (hn : i.node = none) (ho : i.opener = some sid) :
    s.endInst num = (s.onInst num fun i => { i with ended := true }).onLane sid (Stream.collEnded i.aborted) := by
  unfold State.endInst
  rw [h]
  dsimp only
  rw [hf, he, hp]
  simp only [Bool.not_true, Bool.false_or, List.isEmpty_nil, Bool.false_eq_true, if_false, hw, hn, ho]
  cases i.aborted with
  | none => rfl
  | some r => exact State.onLane_twice fun _ => rfl
theorem State.endInst_ends {s : State} {num : Nat} {i : Inst} {sid : SId} (h : s.inst? num = some i) (hf : i.final = true)
    (he : i.ended = false) (hp : i.pushes = []) (hw : i.desc.workq = none) (hn : i.node = none) (ho : i.opener = some sid)
    (hs : s.Present [sid]) : (s.endInst num).inst? num = some { i with ended := true } ∧
      (s.endInst num).stream sid = (s.stream sid).collEnded i.aborted := by
  rw [State.endInst_eq h hf he hp hw hn ho]
  exact ⟨State.onInst_same h (f := fun i => { i with ended := true }) fun _ => rfl,
    ((s.onInst num fun i => { i with ended := true }).onLane_only (f := Stream.collEnded i.aborted) (fun _ => rfl) hs).2⟩

theorem exec_instanceFinal_waits {s : State} {num : Nat} {i : Inst} (h : s.inst? num = some i) (hf : i.final = false)
    (ha : i.aborted = none) (hc : i.complete = false) : exec (.instanceFinal num) s = .next s := by
  change execInstanceFinal num s = _
  unfold execInstanceFinal
  rw [h]
  dsimp only
  rw [hf, ha, hc]
  rfl
theorem exec_instanceFinal_again {s : State} {num : Nat} {i : Inst} (h : s.inst? num = some i) (hf : i.final = true) :
    exec (.instanceFinal num) s = .next (s.endInst num) := by
  change execInstanceFinal num s = _
  unfold execInstanceFinal
  rw [h]
  dsimp only
  rw [hf, if_pos rfl]
/-- The final instance. -/
def State.finalOf (s : State) (i : Inst) : Inst := { i with final := true, seq := s.co.nextNum }
/-- An instance is final: what the write of its status leaves. -/
theorem exec_instanceFinal_first {s : State} {num : Nat} {i : Inst} (h : s.inst? num = some i) (hf : i.final = false)
    (hend : i.aborted ≠ none ∨ i.complete = true) (hno : i.desc.notify = 0) (hleft : ∀ o ∈ s.ops, o.phase ≠ .left) :
    ∃ u : State, exec (.instanceFinal num) s = .next (u.endInst num) ∧ u.inst? num = some (s.finalOf i) ∧ u.streams = s.streams ∧
      u.co.wqs = s.co.wqs := by
  let s1 : State := { s.onInst num fun _ => s.finalOf i with
    co := { (s.onInst num fun _ => s.finalOf i).co with nextNum := s.co.nextNum + 1 } }
  have hwork : s1.MemoryWork (s1.putStatus (s.finalOf i) (s.finalOf i).status) :=
    State.MemoryWork.unitWrite1 (s := s1) hleft _ _ _ _
  have hi : s1.inst? num = some (s.finalOf i) := State.onInst_const h (show i.num = num from State.inst?_num h)
  refine ⟨s1.putStatus (s.finalOf i) (s.finalOf i).status, ?_, ?_, hwork.streams_eq, (congrArg Colls.wqs hwork.co_eq : _ = s1.co.wqs)⟩
  · change execInstanceFinal num s = _
    unfold execInstanceFinal
    rw [h]
    dsimp only
    have hgo : (!(i.aborted.isSome || i.complete)) = false := by
      rcases hend with ha | hc
      · rw [Option.isSome_iff_ne_none.mpr ha]
        rfl
      · rw [hc, Bool.or_true]
        rfl
    rw [hf, if_neg Bool.false_ne_true, hgo, if_neg Bool.false_ne_true, hno]
    rfl
  · unfold State.inst? at hi ⊢
    rw [hwork.co_eq, hi]

/-! ### The obligation -/

section Settle
variable {s : State} {num : Nat} {i : Inst}

/-- An acknowledgement settles its forward, and data of a chunk is staged (R379). -/
theorem exec_millerStep_ack {p : InColl} {v k : Nat} (h : s.inst? num = some i) (hf : i.final = false) (ha : i.aborted = none)
    (hc : s.collCheck p = none) (hp : s.partner p.tag = some i) (ht : i.tag = p.tag)
    (hk : (i.sent.findIdx? fun f => f.chunk == v && f.member == p.src) = some k) :
    ∃ t, exec (.millerStep (.packet p) v none) s = .next t ∧ t = { s with co := { s.co with insts := t.co.insts } } ∧
      t.inst? num = some { i with sent := i.sent.eraseIdx k } := by
  let f : Inst → Inst := fun i => match i.sent.findIdx? fun f => f.chunk == v && f.member == p.src with
    | some k => { i with sent := i.sent.eraseIdx k }
    | none => i
  have hnum : ∀ i : Inst, (f i).num = i.num := fun i => by
    dsimp only [f]
    split <;> rfl
  have hfi : f i = { i with sent := i.sent.eraseIdx k } := by
    dsimp only [f]
    rw [hk]
  refine ⟨s.onInst num f, ?_, rfl, (State.onInst_same h hnum).trans (congrArg some hfi)⟩
  rw [← State.inst?_num h]
  exact congrArg Host.Outcome.next ((State.collPacket_open hc hp hf ha).trans (if_pos ht))
theorem exec_millerStep_data {p : InColl} {v : Nat} {bs : List Byte} (h : s.inst? num = some i) (hf : i.final = false)
    (ha : i.aborted = none) (hc : s.collCheck p = none) (hp : s.partner p.tag = some i) (ht : i.tag = p.tag) (hv : v < i.desc.virtuals) :
    ∃ s1 : State, exec (.millerStep (.packet p) v (some bs)) s = .next (s1.runChunk num v (i.desc.count + 3)) ∧
      s1 = { s with co := { s.co with insts := s1.co.insts }, outbox := s.outbox ++ [.collAck i.tag v p.src] } ∧
      s1.inst? num = some (i.setChunk { i.chunk v with staged := (i.chunk v).staged ++ [(p.src, bs)] }) := by
  let f : Inst → Inst := fun i => i.setChunk { i.chunk v with staged := (i.chunk v).staged ++ [(p.src, bs)] }
  refine ⟨{ s.onInst num f with outbox := s.outbox ++ [.collAck i.tag v p.src] }, ?_, rfl, State.onInst_same h fun _ => rfl⟩
  rw [← State.inst?_num h]
  exact congrArg Host.Outcome.next (((State.collPacket_open hc hp hf ha).trans (if_pos ht)).trans (if_neg (Nat.not_le.mpr hv)))
theorem exec_millerStep_own (h : s.inst? num = some i) (v : Nat) (x : Option (List Byte)) :
    exec (.millerStep (.own num) v x) s = .next (s.runChunk num v (i.desc.count + 3)) := by
  change execMillerStep (.own num) v x s = _
  unfold execMillerStep
  dsimp only
  rw [h]
theorem State.runStage_aborted (h : s.inst? num = some i) (ha : i.aborted ≠ none) (v : Nat) : s.runStage num v = none := by
  unfold State.runStage
  rw [h]
  refine if_pos ?_
  rw [Option.isSome_iff_ne_none.mpr ha, Bool.or_true, Bool.true_or]
theorem State.runChunk_aborted (h : s.inst? num = some i) (ha : i.aborted ≠ none) (v n : Nat) : s.runChunk num v (n + 1) = s := by
  rw [State.runChunk, State.runStage_aborted h ha]
end Settle

/-- Settles O56: the packets by the cases of `collPacket`, a stage by its equation, the aborts by `abortInst_aborts`, and the two halves
of an instance's end. -/
theorem collectiveInstancesProceed : Obligations.CollectiveInstancesProceed := by
  unfold Obligations.CollectiveInstancesProceed
  intro s num i h
  refine ⟨fun p r v x m hc => ?_, fun p v x m hc hi => ?_, fun v x ha => ?_, fun v x => ?_, fun hf ha => ?_, fun hend hno hleft => ?_⟩
  · exact ⟨by cases x <;> exact congrArg Host.Outcome.next (State.collPacket_nack hc), congrArg Host.Outcome.next (State.collPacket_nack hc)⟩
  · have hidle : ∀ f, s.collPacket p f = s := fun f => State.collPacket_idle hc (hi.imp_right fun hi => ⟨i, hi⟩)
    exact ⟨by cases x <;> exact congrArg Host.Outcome.next (hidle _), congrArg Host.Outcome.next (hidle _)⟩
  · exact (exec_millerStep_own h v x).trans (congrArg Host.Outcome.next (State.runChunk_aborted h ha v _))
  · exact exec_millerStep_own h v x
  · intro from_
    refine ⟨fun p v k ⟨hc, hp, ht⟩ hk => exec_millerStep_ack h hf ha hc hp ht hk,
      fun p v bs ⟨hc, hp, ht⟩ hv => exec_millerStep_data h hf ha hc hp ht hv,
      fun v g x hfired he hg hw hq hx => State.runStage_runs h ha hfired he hg hw hx, ?_, exec_instanceFinal_waits h hf ha⟩
    intro aborts late lost
    have hab : ∀ (e : Instr) (cause : Cause) (m : Nat), exec e s = .next (s.abortInst num cause m) → aborts e cause m :=
      fun e cause m he => State.abortInst_aborts h hf ha he
    have hnum : i.num = num := State.inst?_num h
    refine ⟨fun p m ⟨hc, hp, ht⟩ => hab _ _ _ ?_, fun p v x m hc hp ht => ⟨hab _ _ _ ?_, hab _ _ _ ?_⟩, fun m => ⟨fun hl => hab _ _ _ ?_, fun hl => ?_⟩⟩
    · rw [← hnum]
      exact congrArg Host.Outcome.next ((State.collPacket_open hc hp hf ha).trans (if_pos ht))
    · rw [← hnum]
      cases x <;> exact congrArg Host.Outcome.next ((State.collPacket_open hc hp hf ha).trans (if_neg ht))
    · rw [← hnum]
      exact congrArg Host.Outcome.next ((State.collPacket_open hc hp hf ha).trans (if_neg ht))
    · obtain ⟨at_, hlate, hfirst⟩ := hl
      refine (exec_stepTimeout h).trans (congrArg Host.Outcome.next (if_pos ⟨(at_, m), State.mem_lateMembers.mpr hlate, rfl, ?_⟩))
      exact fun x hx => hfirst x.2 x.1 (State.mem_lateMembers.mp hx)
    · refine (exec_stepTimeout h).trans (congrArg Host.Outcome.next (if_neg ?_))
      rintro ⟨⟨at_, k⟩, hw, rfl, hfirst⟩
      exact hl ⟨at_, State.mem_lateMembers.mp hw, fun m' at' h' => hfirst (at', m') (State.mem_lateMembers.mpr h')⟩
  · refine ⟨fun hf hp => ?_, fun he hp hw hn sid ho hs => ?_⟩
    · obtain ⟨u, hex, hi, hstreams, hwqs⟩ := exec_instanceFinal_first h hf hend hno hleft
      rw [State.endInst_pushing hi hp] at hex
      exact ⟨u, hex, hi, hstreams, hwqs⟩
    · by_cases hf : i.final = true
      · obtain ⟨hi, hst⟩ := State.endInst_ends h hf he hp hw hn ho hs
        rw [if_pos hf]
        exact ⟨_, exec_instanceFinal_again h hf, by rw [hi, ← hf], hst⟩
      · rw [if_neg hf]
        obtain ⟨u, hex, hi, hstreams, -⟩ := exec_instanceFinal_first h (Bool.not_eq_true _ ▸ hf) hend hno hleft
        have hstream : u.stream sid = s.stream sid := by unfold State.stream State.stream?; rw [hstreams]
        have hs' : u.Present [sid] := by unfold State.Present State.stream? at hs ⊢; rw [hstreams]; exact hs
        obtain ⟨hi', hst⟩ := State.endInst_ends hi rfl he hp hw hn ho hs'
        rw [hstream] at hst
        exact ⟨_, hex, hi', hst⟩
end Sys2Proof.Machine
end
section
/-! PROOFS. A tensor copy of a graph node whose destination word a `stvp` waits on (R50, R228, R229). -/
namespace Sys2Proof.Machine

/-- A `stvp` of 5 that waits for vault word 0 to become empty. -/
def waitingStore : MemOp :=
  { num := 7, kind := .fe .stvp, lanes := [⟨⟨0, .lane, 0⟩, 5, 0⟩], d := 0, entry := none, va := 0x4000000000000000
    loc := ⟨.vault, vaultKey, 0, false⟩, size := 4, ord := .rlx, scp := false, agent := .thr, mask := 0, hint := .none, core := 0
    ctag := 0, counter := 1, phase := .waiting, inst := 0, kill := none }
/-- A COPY node with one map for its source and its destination. -/
def mapNode : Node :=
  { idx := 0, asid := 0, fn := 0, port := 0, typ := 2, npred := 0, succ := [], payload := 0x40, aux := 0x40, arg := 1 <<< 63
    affinity := 0, pending := 0, runs := 1, running := false, removing := false }
/-- At address 0x40 a map of one byte at vault address 0. -/
def mapped : State :=
  { State.reset with
    loom := { State.reset.loom with nodes := [mapNode] }
    mem := [(0x47, 0x40), (0x48, 1), (0x49, 1), (0x50, 1), (0x80, 1)]
    tr := { State.reset.tr with tlb := [⟨.die 0, 0, 0, ⟨0, 0, 0, 12, true, true, true, true, true⟩⟩] }
    ops := [waitingStore]
    vt := { State.reset.vt with shares := [(0, some ⟨.vault, 0, 0, 0⟩)], waiters := [7] } }
/-- The node's instance runs. -/
def mappedRun : State := mapped.onNode 0 fun x => { x with running := true }
/-- Its two reads of the map. -/
def firstRead : MapRead × State := (readMap 0 0 0x40).run mappedRun
def secondRead : MapRead × State := (readMap 0 0 0x40).run firstRead.2
/-- The checks of the two maps. -/
def mapsChecked : Except Word (TMap × TMap) × State := (checkMaps firstRead.1 secondRead.1).run secondRead.2
/-- One byte at vault address 0. -/
def vaultByte : TMap := ⟨0x4000000000000000, 1, false, false, 0, [1], [1], [0]⟩

theorem mapsChecked_ok : mapsChecked.1 = .ok (vaultByte, vaultByte) := by decide +kernel
theorem mapsChecked_eq : mapsChecked = (.ok (vaultByte, vaultByte), mapsChecked.2) := by
  rw [← mapsChecked_ok]
theorem mapsChecked_mem : memRead mapsChecked.2.mem vaultKey = 0 := by decide +kernel
theorem mapped_mem : memRead (mappedRun.runNode mapNode).mem vaultKey = 5 := by decide +kernel
theorem exec_mapped : exec (.nodeInstanceRun 0) mapped = .next (mappedRun.runNode mapNode) := by
  change execNodeInstanceRun 0 mapped = _
  unfold execNodeInstanceRun
  rw [show mapped.node? 0 = some mapNode from rfl]
  exact congrArg Host.Outcome.next (if_neg (by decide))

/-- Refutes O36: a tensor copy sets the vault words of its destination empty as it is issued, and a `stvp` that waits for one of them
is then served and writes it; in `mapped` the COPY node leaves the byte 5 at its destination, where memory held 0. -/
theorem not_graphNodes : ¬ Obligations.GraphNodes := by
  unfold Obligations.GraphNodes
  rintro ⟨-, h⟩
  obtain ⟨hrun, -, -⟩ := h mapped 0 mapNode rfl
  obtain ⟨-, -, -, htensor, -⟩ := hrun (by decide) rfl rfl rfl fun _ => by decide
  obtain ⟨-, hok⟩ := htensor firstRead.1 secondRead.1 firstRead.2 secondRead.2 rfl (by decide)
    (Prod.mk.eta (p := firstRead)).symm (Prod.mk.eta (p := secondRead)).symm
  obtain ⟨t, c, hex, -, hmem, -⟩ := hok vaultByte vaultByte mapsChecked.2 mapsChecked_eq (by decide)
  obtain rfl : mappedRun.runNode mapNode = t := Host.Outcome.next.inj (exec_mapped.symm.trans hex)
  have h5 : memRead mapsChecked.2.mem vaultKey = 5 := hmem ▸ mapped_mem
  rw [mapsChecked_mem] at h5
  exact absurd h5 (by decide)

end Sys2Proof.Machine
end
section
/-! PROOFS. The words of a tile after its rows have been replaced (R283, R293, R297). -/
namespace Sys2Proof.Machine

/-! ### Lists of keyed values -/

section
variable {α : Type} {d : α} {n : Nat}

theorem sget_absent {l : List (Nat × α)} (h : ∀ e ∈ l, e.1 ≠ n) (r : List (Nat × α)) : sget d (l ++ r) n = sget d r n := by
  induction l with
  | nil => rfl
  | cons e l ih =>
    obtain ⟨k, v⟩ := e
    rw [List.cons_append, sget, if_neg (h (k, v) List.mem_cons_self)]
    exact ih fun e he => h e (List.mem_cons_of_mem _ he)
theorem sget_append_absent (l : List (Nat × α)) {r : List (Nat × α)} (h : ∀ e ∈ r, e.1 ≠ n) : sget d (l ++ r) n = sget d l n := by
  induction l with
  | nil => simpa using sget_absent (d := d) h []
  | cons e l ih =>
    obtain ⟨k, v⟩ := e
    rw [List.cons_append, sget, sget, ih]
theorem sget_filter {p : Nat → Bool} (hp : p n = true) (l : List (Nat × α)) : sget d (l.filter fun e => p e.1) n = sget d l n := by
  induction l with
  | nil => rfl
  | cons e l ih =>
    obtain ⟨k, v⟩ := e
    by_cases hk : p k = true
    · rw [List.filter_cons_of_pos (p := fun e : Nat × α => p e.1) hk, sget, sget, ih]
    · rw [List.filter_cons_of_neg (p := fun e : Nat × α => p e.1) hk, sget, ih, if_neg fun e => hk (by rw [e, hp])]
/-- The value of a key that every pair of the key has, the default where there need be none. -/
theorem sget_of_all {l : List (Nat × α)} {v : α} (hall : ∀ e ∈ l, e.1 = n → e.2 = v) (hex : v ≠ d → (n, v) ∈ l) : sget d l n = v := by
  induction l with
  | nil => exact (not_not.mp fun h => List.not_mem_nil (hex fun e => h e.symm) : d = v)
  | cons e l ih =>
    obtain ⟨k, x⟩ := e
    by_cases hk : k = n
    · rw [sget, if_pos hk]
      exact hall (k, x) List.mem_cons_self hk
    · rw [sget, if_neg hk]
      refine ih (fun e he => hall e (List.mem_cons_of_mem _ he)) fun hv => ?_
      rcases List.mem_cons.mp (hex hv) with h | h
      · exact absurd (congrArg Prod.fst h).symm hk
      · exact h
end

/-! ### Rows of a tile -/

/-- The pairs of new rows. -/
def rowPairs (r0 : Nat) (rows : List (List Word)) : List (Nat × Word) :=
  (rows.mapIdx fun i r => r.mapIdx fun j w => (128 * (r0 + i) + j, w)).flatten
theorem mem_rowPairs {r0 : Nat} {rows : List (List Word)} {e : Nat × Word} (h : e ∈ rowPairs r0 rows) :
    ∃ i j, ∃ hi : i < rows.length, ∃ hj : j < rows[i].length, e = (128 * (r0 + i) + j, rows[i][j]) := by
  obtain ⟨l, hl, he⟩ := List.mem_flatten.mp h
  obtain ⟨i, hi, rfl⟩ := List.mem_mapIdx.mp hl
  obtain ⟨j, hj, rfl⟩ := List.mem_mapIdx.mp he
  exact ⟨i, j, hi, hj, rfl⟩
theorem rowPairs_mem {r0 : Nat} {rows : List (List Word)} {i j : Nat} (hi : i < rows.length) (hj : j < rows[i].length) :
    (128 * (r0 + i) + j, rows[i][j]) ∈ rowPairs r0 rows :=
  List.mem_flatten.mpr ⟨_, List.mem_mapIdx.mpr ⟨i, hi, rfl⟩, List.mem_mapIdx.mpr ⟨j, hj, rfl⟩⟩

/-- A tile whose rows from `r0` on have been replaced: the new words, and the old ones elsewhere. -/
theorem putRows_word {ws : List (Nat × Word)} {r0 : Nat} {rows : List (List Word)} (h : ∀ row ∈ rows, row.length = 128) {r c : Nat}
    (hc : c < 128) : sget 0 (putRows ws r0 rows) (128 * r + c) =
      if r0 ≤ r ∧ r < r0 + rows.length then (rows.getD (r - r0) []).getD c 0 else sget 0 ws (128 * r + c) := by
  have hlen : ∀ {i : Nat} (hi : i < rows.length), rows[i].length = 128 := fun hi => h _ (List.getElem_mem hi)
  have hnew : ∀ e ∈ (rowPairs r0 rows).filter fun e => e.2 != 0, 128 * r0 ≤ e.1 ∧ e.1 < 128 * (r0 + rows.length) := by
    intro e he
    obtain ⟨i, j, hi, hj, rfl⟩ := mem_rowPairs (List.mem_of_mem_filter he)
    rw [hlen hi] at hj
    dsimp only
    omega
  have hlow : ∀ e ∈ ws.filter fun e => decide (e.1 < 128 * r0), e.1 < 128 * r0 := fun e he => by simpa using (List.mem_filter.mp he).2
  have hhigh : ∀ e ∈ ws.filter fun e => decide (128 * (r0 + rows.length) ≤ e.1), 128 * (r0 + rows.length) ≤ e.1 := fun e he => by
    simpa using (List.mem_filter.mp he).2
  change sget 0 (ws.filter (fun e => decide (e.1 < 128 * r0)) ++ ((rowPairs r0 rows).filter fun e => e.2 != 0) ++
    ws.filter fun e => decide (128 * (r0 + rows.length) ≤ e.1)) (128 * r + c) = _
  rw [List.append_assoc]
  by_cases h1 : r < r0
  · rw [if_neg (by omega), sget_append_absent _ fun e he => ?_, sget_filter (p := fun k => decide (k < 128 * r0)) (by simp; omega)]
    rcases List.mem_append.mp he with he | he
    · have := hnew e he
      omega
    · have := hhigh e he
      omega
  · rw [sget_absent fun e he => by have := hlow e he; omega]
    by_cases h2 : r < r0 + rows.length
    · have hi : r - r0 < rows.length := by omega
      have hj : c < rows[r - r0].length := by rw [hlen hi]; exact hc
      rw [if_pos ⟨Nat.not_lt.mp h1, h2⟩, sget_append_absent _ fun e he => by have := hhigh e he; omega]
      rw [List.getD_eq_getElem _ _ hi, List.getD_eq_getElem _ _ hj]
      refine sget_of_all (fun e he hk => ?_) fun hv => List.mem_filter.mpr ⟨?_, by simpa using hv⟩
      · obtain ⟨i, j, hi', hj', rfl⟩ := mem_rowPairs (List.mem_of_mem_filter he)
        have hj2 := hlen hi' ▸ hj'
        dsimp only at hk ⊢
        obtain rfl : i = r - r0 := by omega
        obtain rfl : j = c := by omega
        rfl
      · have hm := rowPairs_mem (r0 := r0) hi hj
        rwa [show r0 + (r - r0) = r by omega] at hm
    · rw [if_neg (by omega), sget_absent fun e he => by have := hnew e he; omega,
        sget_filter (p := fun k => decide (128 * (r0 + rows.length) ≤ k)) (by simp; omega)]

/-! ### The rows that operations put -/

section
variable {ws : List (Nat × Word)} {r c : Nat} (hc : c < 128)
include hc

theorem zeroRows_word (r0 n : Nat) : sget 0 (putRows ws r0 (zeroRows n)) (128 * r + c) =
    if r0 ≤ r ∧ r < r0 + n then 0 else sget 0 ws (128 * r + c) := by
  have hrow : ∀ row ∈ zeroRows n, row = List.replicate 128 0 := fun row h => (List.mem_replicate.mp h).2
  rw [putRows_word (fun row h => by rw [hrow row h, List.length_replicate]) hc, zeroRows, List.length_replicate]
  refine if_ctx_congr Iff.rfl (fun h => ?_) fun _ => rfl
  have hget : (List.replicate n (List.replicate 128 (0 : Word))).getD (r - r0) [] = List.replicate 128 0 := by
    rw [List.getD_eq_getElem _ _ (by rw [List.length_replicate]; omega), List.getElem_replicate]
  rw [hget, List.getD_eq_getElem _ _ (by rw [List.length_replicate]; exact hc), List.getElem_replicate]
theorem rowWords_word (r0 : Nat) (rows : List (List Byte)) : sget 0 (putRows ws r0 (rows.map rowWords)) (128 * r + c) =
    if r0 ≤ r ∧ r < r0 + rows.length then BitVec.ofNat 32 (fld (rows.getD (r - r0) []) (4 * c) 4) else sget 0 ws (128 * r + c) := by
  have hlen : ∀ bs, (rowWords bs).length = 128 := fun bs => by rw [rowWords, List.length_map, List.length_range]
  rw [putRows_word (fun row h => by obtain ⟨bs, -, rfl⟩ := List.mem_map.mp h; exact hlen bs) hc, List.length_map]
  refine if_ctx_congr Iff.rfl (fun h => ?_) fun _ => rfl
  have hi : r - r0 < rows.length := by omega
  have hget : (rows.map rowWords).getD (r - r0) [] = rowWords rows[r - r0] := by
    rw [List.getD_eq_getElem _ _ (by rw [List.length_map]; exact hi), List.getElem_map]
  rw [hget, List.getD_eq_getElem _ _ (by rw [hlen]; exact hc), List.getD_eq_getElem _ _ hi]
  unfold rowWords
  rw [List.getElem_map, List.getElem_range]
theorem mmulRows_word (m : Mat) (o : TileOp) (ovw : Bool) (rows : List (List Byte)) :
    sget 0 (putRows ws o.rowBase (mmulRows m o ovw ws rows)) (128 * r + c) =
      if o.rowBase ≤ r ∧ r < o.rowBase + rows.length then
        mmulElem m o.slot (r - o.rowBase) (rows.getD (r - o.rowBase) []) (if ovw then 0 else sget 0 ws (128 * r + c)) c
      else sget 0 ws (128 * r + c) := by
  have hrow : ∀ row ∈ mmulRows m o ovw ws rows, row.length = 128 := fun row h => by
    obtain ⟨i, hi, rfl⟩ := List.mem_mapIdx.mp h
    rw [List.length_map, List.length_range]
  rw [putRows_word hrow hc, show (mmulRows m o ovw ws rows).length = rows.length from List.length_mapIdx]
  refine if_ctx_congr Iff.rfl (fun h => ?_) fun _ => rfl
  have hi : r - o.rowBase < rows.length := by omega
  have hget : (mmulRows m o ovw ws rows).getD (r - o.rowBase) [] = (List.range 128).map fun n => mmulElem m o.slot (r - o.rowBase)
      rows[r - o.rowBase] (if ovw then 0 else sget 0 ws (128 * (o.rowBase + (r - o.rowBase)) + n)) n := by
    unfold mmulRows
    rw [List.getD_eq_getElem _ _ (by rw [List.length_mapIdx]; exact hi), List.getElem_mapIdx]
  rw [hget, List.getD_eq_getElem _ _ (by rw [List.length_map, List.length_range]; exact hc), List.getElem_map, List.getElem_range,
    List.getD_eq_getElem _ _ hi, show o.rowBase + (r - o.rowBase) = r by omega]
end
end Sys2Proof.Machine
end
section
/-! PROOFS. The bytes of queue entries, and what a tile operation pops and pushes (R283, R289). -/
namespace Sys2Proof.Machine

/-! ### Bytes and entries -/

theorem natOfBytes_lt (l : List Byte) : natOfBytes l < 256 ^ l.length := by
  induction l with
  | nil => exact Nat.one_pos
  | cons b l ih =>
    rw [natOfBytes, List.length_cons, Nat.pow_succ]
    have := b.isLt
    omega
theorem bytesOfNat_zero (n : Nat) : bytesOfNat n 0 = List.replicate n 0 := by
  induction n with
  | zero => rfl
  | succ n ih => rw [bytesOfNat, Nat.zero_div, ih]; rfl
theorem bytesOfNat_natOfBytes {n : Nat} {l : List Byte} (h : l.length ≤ n) :
    bytesOfNat n (natOfBytes l) = l ++ List.replicate (n - l.length) 0 := by
  induction l generalizing n with
  | nil => exact bytesOfNat_zero n
  | cons b l ih =>
    obtain ⟨n, rfl⟩ : ∃ m, n = m + 1 := ⟨n - 1, by rw [List.length_cons] at h; omega⟩
    have hb : BitVec.ofNat 8 (b.toNat + 256 * natOfBytes l) = b := by
      apply BitVec.eq_of_toNat_eq
      rw [BitVec.toNat_ofNat]
      have := b.isLt
      omega
    have hd : (b.toNat + 256 * natOfBytes l) / 256 = natOfBytes l := by
      have := b.isLt
      omega
    rw [natOfBytes, bytesOfNat, hb, hd, ih (by rw [List.length_cons] at h; omega), List.cons_append, List.length_cons,
      Nat.add_sub_add_right]
theorem fld_lt (bs : List Byte) (off : Nat) : fld bs off 4 < 2 ^ 32 :=
  Nat.lt_of_lt_of_le (natOfBytes_lt _) (Nat.pow_le_pow_right (by decide) (List.length_take_le 4 _))

/-- Words listed by their index. -/
theorem sget_listed (k : Nat) (v : Nat → Word) (j : Nat) :
    sget 0 (((List.range k).map fun i => (i, v i)).foldl (fun m p => sset 0 m p.1 p.2) []) j = if j < k then v j else 0 := by
  induction k with
  | zero => rfl
  | succ k ih =>
    rw [List.range_succ, List.map_append, List.foldl_append, List.map_singleton, List.foldl_cons, List.foldl_nil]
    by_cases h : j = k
    · rw [h, sget_sset_same, if_pos (Nat.lt_succ_self k)]
    · rw [sget_sset_other _ _ _ h, ih]
      exact if_congr (by omega) rfl rfl

/-- The words of the bytes of an entry. -/
def wordsOfBytes (bs : List Byte) : List (Nat × Word) :=
  (List.range ((bs.length + 3) / 4)).map fun i => (i, BitVec.ofNat 32 (fld bs (4 * i) 4))
theorem flatMap_words {w : Nat} {bs : List Byte} (h : bs.length ≤ 4 * w) :
    ((List.range w).flatMap fun i => bytesOfNat 4 (fld bs (4 * i) 4)) = bs ++ List.replicate (4 * w - bs.length) 0 := by
  induction w generalizing bs with
  | zero =>
    obtain rfl : bs = [] := List.length_eq_zero_iff.mp (by omega)
    rfl
  | succ w ih =>
    have hrest : ((List.range w).map Nat.succ).flatMap (fun i => bytesOfNat 4 (fld bs (4 * i) 4)) =
        (List.range w).flatMap fun i => bytesOfNat 4 (fld (bs.drop 4) (4 * i) 4) := by
      rw [List.flatMap_map]
      refine List.flatMap_congr fun i _ => ?_
      unfold fld
      rw [List.drop_drop, Nat.mul_succ, Nat.add_comm]
    rw [List.range_succ_eq_map, List.flatMap_cons, hrest, ih (by rw [List.length_drop]; omega), fld, Nat.mul_zero, List.drop_zero,
      bytesOfNat_natOfBytes (List.length_take_le 4 bs)]
    by_cases h4 : 4 ≤ bs.length
    · rw [List.length_take_of_le h4, Nat.sub_self, List.replicate_zero, List.append_nil, ← List.append_assoc, List.take_append_drop,
        List.length_drop]
      exact congrArg (fun n => bs ++ List.replicate n 0) (by omega)
    · rw [List.take_of_length_le (by omega), List.drop_eq_nil_of_le (by omega), List.nil_append, List.append_assoc,
        List.replicate_append_replicate]
      exact congrArg (fun n => bs ++ List.replicate n 0) (by rw [List.length_nil]; omega)
/-- The bytes of an entry are those pushed, and zeros up to its width. -/
theorem entryBytes_words {w : Nat} {bs : List Byte} (h : bs.length ≤ 4 * w) (n : Nat) (mask : DWord) (st : EState) (m : Nat) :
    entryBytes ⟨n, (wordsOfBytes bs).foldl (fun m p => sset 0 m p.1 p.2) [], mask, st, m⟩ w =
      bs ++ List.replicate (4 * w - bs.length) 0 := by
  rw [← flatMap_words h]
  unfold entryBytes wordsOfBytes
  refine List.flatMap_congr fun i _ => ?_
  dsimp only
  rw [sget_listed]
  congr 1
  split
  · rw [BitVec.toNat_ofNat, Nat.mod_eq_of_lt (fld_lt bs _)]
  · next hi =>
    unfold fld
    rw [List.drop_eq_nil_of_le (by omega)]
    rfl

/-! ### Pops and pushes of an operation -/

theorem State.onTileOp_find {s : State} {num : Nat} {o : TileOp} (h : s.mx.ops.find? (fun x => decide (x.num = num)) = some o)
    {f : TileOp → TileOp} (hf : ∀ x : TileOp, (f x).num = x.num) :
    (s.onTileOp num f).mx.ops.find? (fun x => decide (x.num = num)) = some (f o) := by
  unfold State.onTileOp
  dsimp only
  rw [List.find?_map]
  have hp : ((fun x : TileOp => decide (x.num = num)) ∘ fun x => if x.num = num then f x else x) = fun x => decide (x.num = num) := by
    funext x
    dsimp only [Function.comp]
    split
    · rw [hf]
    · rfl
  have hn : o.num = num := by simpa using List.find?_some h
  rw [hp, h, Option.map_some, if_pos hn]

/-- Queue work of a tile operation: nothing changes but the operations of the buffer and the queues. -/
def State.QueueWork (s t : State) : Prop := t = { s with mx := { s.mx with ops := t.mx.ops }, qu := t.qu } ∧ t.qu.xfers = s.qu.xfers
theorem State.QueueWork.refl (s : State) : s.QueueWork s := ⟨rfl, rfl⟩
theorem State.QueueWork.trans {s t u : State} (h : s.QueueWork t) (h' : t.QueueWork u) : s.QueueWork u := by
  obtain ⟨h1, h2⟩ := h
  obtain ⟨h1', h2'⟩ := h'
  exact ⟨by rw [h1', h1], h2'.trans h2⟩

/-- An operation with its progress. -/
def TileOp.progress (o : TileOp) (moved : Nat) (bytes : List Byte) : TileOp := { o with moved := moved, bytes := bytes }

/-- READY entries are popped as far as the rows need them. -/
theorem State.popTile_pops {num key w total : Nat} {rest : List QEntry} (es : List QEntry) : ∀ (s : State) (o : TileOp) (n : Nat),
    s.qu.xfers = [] → s.mx.ops.find? (fun x => decide (x.num = num)) = some o → (s.queue key).entries = es ++ rest →
    (∀ e ∈ es, e.state = .ready) → o.moved + es.length = total → es.length ≤ n →
    ∃ t, s.popTile num key w total n = t ∧ s.QueueWork t ∧ (t.queue key).entries = rest ∧
      t.mx.ops.find? (fun x => decide (x.num = num)) = some (o.progress total (o.bytes ++ es.flatMap fun e => entryBytes e w)) := by
  induction es with
  | nil =>
    intro s o n hx ho hq _ hm _
    have hsame : o.progress total (o.bytes ++ [].flatMap fun e => entryBytes e w) = o := by
      rw [← hm]
      simp [TileOp.progress]
    refine ⟨s, ?_, .refl s, hq, by rw [hsame, ho]⟩
    cases n with
    | zero => rfl
    | succ n =>
      rw [State.popTile, ho]
      exact if_pos (Nat.le_of_eq hm.symm)
  | cons e es ih =>
    intro s o n hx ho hq hr hm hn
    rw [List.length_cons] at hm hn
    obtain ⟨n, rfl⟩ : ∃ m, n = m + 1 := ⟨n - 1, by omega⟩
    let f : TileOp → TileOp := fun o => o.progress (o.moved + 1) (o.bytes ++ entryBytes e w)
    let u := (s.onTileOp num f).setQueue key (es ++ rest)
    have hu : s.QueueWork u := ⟨rfl, rfl⟩
    have hstep : s.popTile num key w total (n + 1) = u.popTile num key w total n := by
      rw [State.popTile, ho]
      dsimp only
      rw [if_neg (by omega), hq]
      dsimp only [List.cons_append]
      rw [if_pos (hr e List.mem_cons_self)]
      exact congrArg (State.popTile · num key w total n) (State.changed_idle (s := u) hx key)
    obtain ⟨t, hpop, hwork, hrest, hfind⟩ := ih u (f o) n hx (State.onTileOp_find ho fun _ => rfl) (State.setQueue_entries _)
      (fun e he => hr e (List.mem_cons_of_mem _ he)) (by simp only [f, TileOp.progress]; omega) (by omega)
    refine ⟨t, hstep.trans hpop, hu.trans hwork, hrest, ?_⟩
    rw [hfind, List.flatMap_cons, ← List.append_assoc]
    rfl

theorem ceil_step {m L : Nat} (hm : 0 < m) (hL : 0 < L) : (L + m - 1) / m = (L - m + m - 1) / m + 1 := by
  rw [show L + m - 1 = L - 1 + m by omega, Nat.add_div_right _ hm]
  by_cases h : m ≤ L
  · rw [Nat.sub_add_cancel h]
  · rw [show L - m = 0 by omega, Nat.zero_add, Nat.div_eq_of_lt (by omega : L - 1 < m), Nat.div_eq_of_lt (by omega : m - 1 < m)]
/-- The bytes of a piece and of what follows it. -/
theorem take_piece {m : Nat} {bs tail : List Byte} (htail : tail.take (bs.length - m) = bs.drop m) :
    (bs.take m ++ List.replicate (m - (bs.take m).length) 0 ++ tail).take bs.length = bs := by
  by_cases h : m ≤ bs.length
  · rw [List.length_take_of_le h, Nat.sub_self, List.replicate_zero, List.append_nil, List.take_append, List.length_take_of_le h, htail,
      List.take_of_length_le (by rw [List.length_take_of_le h]; exact h), List.take_append_drop]
  · rw [List.take_of_length_le (by omega : bs.length ≤ m), List.append_assoc, List.take_left]

theorem State.pushTile_stops {s : State} {num key : Nat} {o : TileOp} (ho : s.mx.ops.find? (fun x => decide (x.num = num)) = some o)
    (h : o.bytes = [] ∨ (s.queue key).free = 0) (w n : Nat) : s.pushTile num key w n = s := by
  cases n with
  | zero => rfl
  | succ n =>
    rw [State.pushTile, ho]
    refine if_pos ?_
    rcases h with h | h <;> simp [h]

/-- What pushes leave once they have come to the last byte of the operation. -/
def State.Pushed (s t : State) (num key w : Nat) (o : TileOp) : Prop :=
  s.QueueWork t ∧ (∃ moved, t.mx.ops.find? (fun x => decide (x.num = num)) = some (o.progress moved [])) ∧
    ∃ es, (t.queue key).entries = (s.queue key).entries ++ es ∧ es.length = (o.bytes.length + 4 * w - 1) / (4 * w) ∧
      (∀ e ∈ es, e.state = .ready) ∧ (es.flatMap fun e => entryBytes e w).take o.bytes.length = o.bytes

theorem State.pushed_nothing {s : State} {num key w : Nat} {o : TileOp} (hw : 0 < w)
    (ho : s.mx.ops.find? (fun x => decide (x.num = num)) = some o) (hb : o.bytes = []) : s.Pushed s num key w o := by
  refine ⟨.refl s, ⟨o.moved, by rw [ho, TileOp.progress, ← hb]⟩, [], (List.append_nil _).symm, ?_, fun _ h => absurd h List.not_mem_nil, ?_⟩
  · rw [hb]
    exact (Nat.div_eq_of_lt (by rw [List.length_nil]; omega)).symm
  · rw [hb]
    rfl
/-- Bytes are pushed as far as there is room, here to the last. -/
theorem State.pushTile_pushes {num key w : Nat} (hw : 0 < w) (n : Nat) : ∀ (s : State) (o : TileOp), s.qu.xfers = [] →
    s.mx.ops.find? (fun x => decide (x.num = num)) = some o → (o.bytes.length + 4 * w - 1) / (4 * w) ≤ n →
    (o.bytes.length + 4 * w - 1) / (4 * w) ≤ (s.queue key).free → s.Pushed (s.pushTile num key w n) num key w o := by
  induction n with
  | zero =>
    intro s o hx ho hn hfree
    have hb : o.bytes = [] := by
      by_contra hb
      rw [ceil_step (by omega) (List.length_pos_iff.mpr hb)] at hn
      exact absurd hn (Nat.not_succ_le_zero _)
    exact State.pushed_nothing hw ho hb
  | succ n ih =>
    intro s o hx ho hn hfree
    by_cases hb : o.bytes = []
    · rw [State.pushTile_stops ho (.inl hb)]
      exact State.pushed_nothing hw ho hb
    · have hL : 0 < o.bytes.length := List.length_pos_iff.mpr hb
      rw [ceil_step (by omega : 0 < 4 * w) hL] at hn hfree
      have hroom : (s.queue key).free ≠ 0 := Nat.ne_of_gt (Nat.lt_of_lt_of_le (Nat.succ_pos _) hfree)
      let bs := o.bytes.take (4 * w)
      let f : TileOp → TileOp := fun o => o.progress (o.moved + 1) (o.bytes.drop (4 * w))
      let e : QEntry := ⟨s.qu.serial, (wordsOfBytes bs).foldl (fun m p => sset 0 m p.1 p.2) [], BitVec.ofNat 64 (2 ^ ((bs.length + 3) / 4) - 1),
        .ready, 0⟩
      let v := (s.onTileOp num f).setQueue key ((s.queue key).entries ++ [e])
      let u := { v with qu := { v.qu with serial := s.qu.serial + 1 } }
      have hu : s.QueueWork u := ⟨rfl, rfl⟩
      have hqu : (u.queue key).entries = (s.queue key).entries ++ [e] := State.setQueue_entries _
      have hstep : s.pushTile num key w (n + 1) = u.pushTile num key w n := by
        rw [State.pushTile, ho]
        dsimp only
        rw [if_neg (by simp only [Bool.or_eq_true, List.isEmpty_iff, hb, decide_eq_true_eq, false_or]; exact hroom)]
        exact congrArg (State.pushTile · num key w n) (State.changed_idle (s := u) hx key)
      have hdrop : (f o).bytes.length = o.bytes.length - 4 * w := List.length_drop
      have hfree' : (u.queue key).free = (s.queue key).free - 1 := by
        rw [Queue.free, hqu, List.length_append, List.length_singleton, Queue.free, Nat.sub_sub]
      obtain ⟨hwork, ⟨moved, hfind⟩, es, hent, hlen, hready, hbytes⟩ := ih u (f o) hx (State.onTileOp_find ho fun _ => rfl)
        (by rw [hdrop]; exact Nat.le_of_succ_le_succ hn) (by rw [hdrop, hfree']; exact Nat.le_sub_one_of_lt hfree)
      rw [hdrop] at hlen hbytes
      rw [hstep]
      refine ⟨hu.trans hwork, ⟨moved, hfind⟩, e :: es, ?_, ?_, ?_, ?_⟩
      · rw [hent, hqu, List.append_assoc]
        rfl
      · rw [List.length_cons, hlen, ceil_step (by omega : 0 < 4 * w) hL]
      · exact fun x hx => (List.mem_cons.mp hx).elim (fun h => h ▸ rfl) (hready x)
      · rw [List.flatMap_cons, entryBytes_words (List.length_take_le _ _)]
        exact take_piece hbytes
end Sys2Proof.Machine
end
section
/-! PROOFS. Tile operations execute (R283 to R298), and the obligation on them. -/
namespace Sys2Proof.Machine

/-! ### The end of an operation (R285) -/

/-- The operation has left the buffer and TLC has fallen. -/
def State.TileLeft (s t : State) (o : TileOp) : Prop :=
  (∀ x ∈ t.mx.ops, x.num ≠ o.num) ∧ (t.stream o.sid).cnt = (s.stream o.sid).cnt.dec 3
/-- A word of a tile. -/
def State.tileWord (s : State) (cluster k r c : Nat) : Word := sget 0 (s.tile cluster k) (128 * r + c)

section
variable {s u : State} {cluster : Nat} {o : TileOp}

theorem State.tileDone_left (hc : (u.stream o.sid).cnt = (s.stream o.sid).cnt) (hp : u.Present [o.sid]) : s.TileLeft (u.tileDone o) o := by
  let v : State := { u with mx := { u.mx with ops := u.mx.ops.filter fun x => x.num ≠ o.num } }
  refine ⟨fun x hx => by simpa using (List.mem_filter.mp hx).2, ?_⟩
  rw [← hc]
  exact congrArg Stream.cnt (v.onLane_only (f := fun st => { st with cnt := st.cnt.dec 3 }) (fun _ => rfl) hp).2
theorem State.stopTile_left (h : ∀ x ∈ u.mx.ops, x.num ≠ o.num) : u.stopTile o = u := by
  unfold State.stopTile
  refine if_neg ?_
  have hno : (u.mx.ops.any fun x => x.num == o.num && x.moved == o.moved) = false := by
    rw [List.any_eq_false]
    intro x hx
    simp [h x hx]
  rw [hno, Bool.and_false]
  exact Bool.false_ne_true
theorem State.stopTile_cases (u : State) (o : TileOp) : u.stopTile o = u ∨ u.stopTile o = { u with mx := { u.mx with
    ops := u.mx.ops.map fun x => if x.sid.tcx = o.sid.tcx then { x with stopped := true } else x } } := by
  unfold State.stopTile
  dsimp only
  split
  · exact .inr rfl
  · exact .inl rfl
theorem exec_tileOpExecute (hn : s.nextTileOp cluster = some o) :
    exec (.tileOpExecute cluster) s = .next ((s.runTile cluster o).stopTile o) := by
  change execTileOpExecute cluster s = _
  unfold execTileOpExecute
  rw [hn]
/-- An operation that ends, after the work that makes `u`. -/
theorem exec_tile_ends (hn : s.nextTileOp cluster = some o) (hr : s.runTile cluster o = u.tileDone o)
    (hc : (u.stream o.sid).cnt = (s.stream o.sid).cnt) (hp : u.Present [o.sid]) :
    exec (.tileOpExecute cluster) s = .next (u.tileDone o) ∧ s.TileLeft (u.tileDone o) o := by
  have hleft := State.tileDone_left hc hp
  refine ⟨?_, hleft⟩
  rw [exec_tileOpExecute hn, hr, State.stopTile_left hleft.1]

/-! ### Tiles -/

theorem State.tile_setTile (s : State) (cluster k : Nat) (ws : List (Nat × Word)) : (s.setTile cluster k ws).tile cluster k = ws :=
  sget_sset_same _ _ _ _
variable {k r c : Nat} (hc : c < 128)
include hc
theorem State.zeroed_word (s : State) (cluster k r0 n : Nat) :
    (s.setTile cluster k (putRows (s.tile cluster k) r0 (zeroRows n))).tileWord cluster k r c =
      if r0 ≤ r ∧ r < r0 + n then 0 else s.tileWord cluster k r c := by
  unfold State.tileWord
  rw [State.tile_setTile, zeroRows_word hc]
theorem State.loaded_word (s : State) (cluster k r0 : Nat) (rows : List (List Byte)) :
    (s.setTile cluster k (putRows (s.tile cluster k) r0 (rows.map rowWords))).tileWord cluster k r c =
      if r0 ≤ r ∧ r < r0 + rows.length then BitVec.ofNat 32 (fld (rows.getD (r - r0) []) (4 * c) 4) else s.tileWord cluster k r c := by
  unfold State.tileWord
  rw [State.tile_setTile, rowWords_word hc]
theorem State.mulTile_word (s : State) (o : TileOp) (cluster k : Nat) (ovw : Bool) (rows : List (List Byte)) :
    (s.mulTile o cluster k ovw rows).tileWord cluster k r c =
      if o.rowBase ≤ r ∧ r < o.rowBase + rows.length then
        mmulElem (s.mat o.sid.tcx) o.slot (r - o.rowBase) (rows.getD (r - o.rowBase) []) (if ovw then 0 else s.tileWord cluster k r c) c
      else s.tileWord cluster k r c := by
  have h : (s.mulTile o cluster k ovw rows).tile cluster k = putRows (s.tile cluster k) o.rowBase
      (mmulRows (s.mat o.sid.tcx) o ovw (s.tile cluster k) rows) := s.tile_setTile _ _ _
  unfold State.tileWord
  rw [h, mmulRows_word hc]
end

/-! ### Drains -/

/-- The rows that a drain with `z` zeroes. -/
def State.drainZero (s : State) (z : Bool) (cluster k : Nat) (o : TileOp) : State :=
  if z then s.setTile cluster k (putRows (s.tile cluster k) o.rowBase (zeroRows o.rows)) else s
theorem State.drainZero_word {s : State} {z : Bool} {cluster k r c : Nat} {o : TileOp} (hc : c < 128) :
    (s.drainZero z cluster k o).tileWord cluster k r c =
      if z = true ∧ o.rowBase ≤ r ∧ r < o.rowBase + o.rows then 0 else s.tileWord cluster k r c := by
  unfold State.drainZero
  cases z with
  | false => rw [if_neg Bool.false_ne_true, if_neg fun h => Bool.false_ne_true h.1]
  | true =>
    rw [if_pos rfl, State.zeroed_word hc]
    exact if_congr (by simp) rfl rfl
theorem State.drainZero_frame (s : State) (z : Bool) (cluster k : Nat) (o : TileOp) :
    s.drainZero z cluster k o = { s with mx := { s.mx with tiles := (s.drainZero z cluster k o).mx.tiles } } := by
  unfold State.drainZero
  split <;> rfl
theorem State.writeNow_stored {s : State} {loc : Loc} (hd : s.keyDown loc.key = false) (hv : s.cache? loc.vcid = none)
    (ho : ∀ o ∈ s.ops, o.phase ≠ .left) (cluster : Nat) (bs : List Byte) (tag : Option Nat) :
    Stored s.mem (s.writeNow loc cluster bs tag).mem loc.key bs := by
  have hcache : (s.clearPoison loc.key bs.length).cache? loc.vcid = none := hv
  have hup : (s.clearPoison loc.key bs.length).keyDown loc.key = false := hd
  rw [State.writeNow, State.settle_none ho]
  dsimp only
  rw [hcache]
  dsimp only
  rw [State.putHome_up hup]
  exact stored_memWriteN _ _ _

section
variable {s : State} {cluster k : Nat} {z : Bool} {o : TileOp}

theorem State.runTile_drain (hk : o.kind = .drain z) (hq : o.queue = none) (ht : o.tile = some k) : s.runTile cluster o =
    ((s.writeRows o.sid cluster ((List.range o.rows).map (drainRow o (s.tile cluster k))) o.mem).drainZero z cluster k o).tileDone o := by
  unfold State.runTile
  rw [hk, hq, ht]
  rfl
/-- A drain to memory, after the writes that make `s1`. -/
theorem exec_drain (hn : s.nextTileOp cluster = some o) (hk : o.kind = .drain z) (hq : o.queue = none) (ht : o.tile = some k) {s1 : State}
    (hw : s.writeRows o.sid cluster ((List.range o.rows).map (drainRow o (s.tile cluster k))) o.mem = s1) (hmx : s1.mx = s.mx)
    (hp : s1.Present [o.sid]) (hcnt : (s1.stream o.sid).cnt = (s.stream o.sid).cnt) :
    ∃ t, exec (.tileOpExecute cluster) s = .next t ∧ s.TileLeft t o ∧ t.mem = s1.mem ∧ ∀ r c, c < 128 →
      t.tileWord cluster k r c = if z = true ∧ o.rowBase ≤ r ∧ r < o.rowBase + o.rows then 0 else s.tileWord cluster k r c := by
  have hrun := State.runTile_drain (s := s) (cluster := cluster) hk hq ht
  rw [hw] at hrun
  have hframe := s1.drainZero_frame z cluster k o
  have hword : ∀ r c, s1.tileWord cluster k r c = s.tileWord cluster k r c := fun r c => by
    unfold State.tileWord State.tile
    rw [hmx]
  obtain ⟨hex, hleft⟩ := exec_tile_ends hn hrun (by rw [hframe]; exact hcnt) (by rw [hframe]; exact hp)
  refine ⟨_, hex, hleft, show (s1.drainZero z cluster k o).mem = s1.mem by rw [hframe], fun r c hc => ?_⟩
  rw [← hword r c]
  exact State.drainZero_word hc

/-- A drain of one row to one place of the device's own memory, past every cache. -/
theorem State.writeRows_one {row : List Byte} {a : DWord} {l : Loc} {n : Nat} (hl : l.space.local = true) (hd : s.keyDown l.key = false)
    (hv : s.cache? l.vcid = none) (ho : ∀ o ∈ s.ops, o.phase ≠ .left) (sid : SId) :
    s.MemoryWork (s.writeRows sid cluster [row] [[(a, l, n)]]) ∧
      (s.writeRows sid cluster [row] [[(a, l, n)]]).mx = s.mx ∧
      Stored s.mem (s.writeRows sid cluster [row] [[(a, l, n)]]).mem l.key (row.take n) := by
  have heq : s.writeRows sid cluster [row] [[(a, l, n)]] =
      s.writeNow l cluster (row.take n) (some ((s.team sid.tcx).tag sid)) := by
    rw [State.writeRows, State.writePieces]
    rw [s.linkDown_local hl, if_neg Bool.false_ne_true, s.shutHost_local _ hl, if_neg Bool.false_ne_true]
    rfl
  have hwork := State.MemoryWork.writeNow ho l cluster (row.take n) (some ((s.team sid.tcx).tag sid))
  rw [heq]
  exact ⟨hwork, by rw [show s.writeNow l cluster (row.take n) _ = _ from hwork], State.writeNow_stored hd hv ho cluster _ _⟩
end

/-! ### Queues -/

section
variable {s : State} {cluster k key : Nat} {z : Bool} {o : TileOp}

/-- The bytes of the rows of a drain. -/
def State.drainBytes (s : State) (cluster k : Nat) (o : TileOp) : List Byte :=
  ((List.range o.rows).map (drainRow o (s.tile cluster k))).flatten
/-- A drain to a queue before its first push. -/
def State.drainFrom (s : State) (cluster k : Nat) (o : TileOp) : State :=
  s.onTileOp o.num fun x => { x with bytes := s.drainBytes cluster k o }
theorem State.runTile_push (hk : o.kind = .drain z) (hq : o.queue = some key) (ht : o.tile = some k) (hm : o.moved = 0) {u : State}
    (hu : (s.drainFrom cluster k o).pushTile o.num key (s.team o.sid.tcx).recd.groupW 16 = u) : s.runTile cluster o =
    if u.mx.ops.any fun x => x.num == o.num && x.bytes.isEmpty then ((u.drainZero z cluster k o).tileDone o).changed key else u := by
  rw [← hu]
  unfold State.runTile
  rw [hk, hq, ht]
  dsimp only
  rw [if_pos hm]
  rfl
theorem State.QueueWork.streams_eq {s t : State} (h : s.QueueWork t) : t.streams = s.streams := by rw [h.1]
theorem State.QueueWork.tileWord_eq {s t : State} (h : s.QueueWork t) (cluster k r c : Nat) :
    t.tileWord cluster k r c = s.tileWord cluster k r c := by
  unfold State.tileWord State.tile
  rw [h.1]
theorem State.present_congr {s t : State} (h : t.streams = s.streams) {ids : List SId} (hp : s.Present ids) : t.Present ids := by
  unfold State.Present State.stream? at hp ⊢
  rw [h]
  exact hp

section Push
variable (hn : s.nextTileOp cluster = some o) (hk : o.kind = .drain z) (hq : o.queue = some key) (ht : o.tile = some k)
  (hfind : s.mx.ops.find? (fun x => decide (x.num = o.num)) = some o) (hm : o.moved = 0) (hx : s.qu.xfers = [])
include hn hk hq ht hfind hm hx

/-- A drain to a queue with room for all of its bytes. -/
theorem exec_drain_pushed (hp : s.Present [o.sid]) (hw : 0 < (s.team o.sid.tcx).recd.groupW)
    (h16 : ((s.drainBytes cluster k o).length + 4 * (s.team o.sid.tcx).recd.groupW - 1) / (4 * (s.team o.sid.tcx).recd.groupW) ≤ 16)
    (hfree : ((s.drainBytes cluster k o).length + 4 * (s.team o.sid.tcx).recd.groupW - 1) / (4 * (s.team o.sid.tcx).recd.groupW) ≤
      (s.queue key).free) :
    ∃ t es, exec (.tileOpExecute cluster) s = .next t ∧ s.TileLeft t o ∧ (t.queue key).entries = (s.queue key).entries ++ es ∧
      es.length = ((s.drainBytes cluster k o).length + 4 * (s.team o.sid.tcx).recd.groupW - 1) / (4 * (s.team o.sid.tcx).recd.groupW) ∧
      (∀ e ∈ es, e.state = .ready) ∧
      (es.flatMap fun e => entryBytes e (s.team o.sid.tcx).recd.groupW).take (s.drainBytes cluster k o).length = s.drainBytes cluster k o ∧
      ∀ r c, c < 128 →
        t.tileWord cluster k r c = if z = true ∧ o.rowBase ≤ r ∧ r < o.rowBase + o.rows then 0 else s.tileWord cluster k r c := by
  have hstart : s.QueueWork (s.drainFrom cluster k o) := ⟨rfl, rfl⟩
  obtain ⟨hwork, ⟨moved, hdone⟩, es, hent, hlen, hready, hbytes⟩ := State.pushTile_pushes hw 16 (s.drainFrom cluster k o)
    { o with bytes := s.drainBytes cluster k o } hx (State.onTileOp_find hfind fun _ => rfl) h16 hfree
  have hrun := State.runTile_push (s := s) (cluster := cluster) hk hq ht hm rfl
  revert hwork hdone hent hrun
  generalize (s.drainFrom cluster k o).pushTile o.num key (s.team o.sid.tcx).recd.groupW 16 = u
  intro hwork hdone hent hrun
  have hall := hstart.trans hwork
  have hlast : (u.mx.ops.any fun x => x.num == o.num && x.bytes.isEmpty) = true :=
    List.any_eq_true.mpr ⟨_, List.mem_of_find?_eq_some hdone, by simp [TileOp.progress]⟩
  have hframe := u.drainZero_frame z cluster k o
  rw [if_pos hlast, State.changed_idle (show ((u.drainZero z cluster k o).tileDone o).qu.xfers = [] from by
    change (u.drainZero z cluster k o).qu.xfers = []
    rw [hframe]
    exact hall.2.trans hx)] at hrun
  have hst : (u.drainZero z cluster k o).streams = s.streams := by
    rw [hframe]
    exact hall.streams_eq
  obtain ⟨hex, hleft⟩ := exec_tile_ends hn hrun (by rw [State.stream_congr hst]) (State.present_congr hst hp)
  refine ⟨_, es, hex, hleft, ?_, hlen, hready, hbytes, fun r c hc => ?_⟩
  · change ((u.drainZero z cluster k o).queue key).entries = _
    rw [hframe]
    exact hent
  · rw [← hall.tileWord_eq]
    exact State.drainZero_word hc
omit hx in
/-- A drain to a queue without room. -/
theorem exec_drain_full (hfull : (s.queue key).free = 0) (hb : s.drainBytes cluster k o ≠ []) :
    ∃ t, exec (.tileOpExecute cluster) s = .next t ∧ t.queue key = s.queue key ∧ t.mx.tiles = s.mx.tiles ∧
      ∃ x ∈ t.mx.ops, x.num = o.num ∧ x.bytes = s.drainBytes cluster k o := by
  have hfrom := State.onTileOp_find hfind (f := fun x => { x with bytes := s.drainBytes cluster k o }) fun _ => rfl
  have hrun := State.runTile_push (u := s.drainFrom cluster k o) (z := z) hk hq ht hm (State.pushTile_stops hfrom (.inr hfull) _ 16)
  have hbytes : ∀ x ∈ (s.drainFrom cluster k o).mx.ops, x.num = o.num → x.bytes = s.drainBytes cluster k o := fun x hx hnum => by
    obtain ⟨y, -, rfl⟩ := List.mem_map.mp hx
    by_cases hy : y.num = o.num
    · rw [if_pos hy]
    · rw [if_neg hy] at hnum
      exact absurd hnum hy
  have hnone : ((s.drainFrom cluster k o).mx.ops.any fun x => x.num == o.num && x.bytes.isEmpty) = false := by
    rw [List.any_eq_false]
    intro x hx
    by_cases hnum : x.num = o.num
    · simp [hbytes x hx hnum, hb]
    · simp [hnum]
  rw [hnone, if_neg Bool.false_ne_true] at hrun
  have hmem := List.mem_of_find?_eq_some hfrom
  refine ⟨_, exec_tileOpExecute hn, ?_⟩
  rw [hrun]
  rcases (s.drainFrom cluster k o).stopTile_cases o with h | h <;> rw [h]
  · exact ⟨rfl, rfl, _, hmem, rfl, rfl⟩
  · refine ⟨rfl, rfl, _, List.mem_map.mpr ⟨_, hmem, rfl⟩, ?_, ?_⟩ <;> split <;> rfl
end Push

section Pop
variable (hn : s.nextTileOp cluster = some o) (hk : o.kind = .mul z) (hq : o.queue = some key) (ht : o.tile = some k)
  (hfind : s.mx.ops.find? (fun x => decide (x.num = o.num)) = some o) (hm : o.moved = 0)

/-- The bytes of a row of an `mmul`, and the entries that its rows need. -/
def State.rowBytes (s : State) (o : TileOp) : Nat := fmtBytes (slotAFmt o.slot) (s.mat o.sid.tcx).active.klen
def State.rowEntries (s : State) (o : TileOp) : Nat :=
  (o.rows * s.rowBytes o + 4 * (s.team o.sid.tcx).recd.groupW - 1) / (4 * (s.team o.sid.tcx).recd.groupW)

include hk hq ht in
theorem State.runTile_pop {u : State} (hu : s.popTile o.num key (s.team o.sid.tcx).recd.groupW (s.rowEntries o) 16 = u) {o1 : TileOp}
    (h1 : u.mx.ops.find? (fun x => decide (x.num = o.num)) = some o1) : s.runTile cluster o =
      if s.rowEntries o ≤ o1.moved then (u.mulTile o1 cluster k z (cutRows o1.bytes (s.rowBytes o) o.rows)).changed key else u := by
  unfold State.runTile
  rw [hk, hq, ht]
  dsimp only
  change (match (s.popTile o.num key (s.team o.sid.tcx).recd.groupW (s.rowEntries o) 16).mx.ops.find? fun x => x.num = o.num with
    | some o1 => if s.rowEntries o ≤ o1.moved then ((s.popTile o.num key (s.team o.sid.tcx).recd.groupW (s.rowEntries o) 16).mulTile o1
        cluster k z (cutRows o1.bytes (s.rowBytes o) o.rows)).changed key
      else s.popTile o.num key (s.team o.sid.tcx).recd.groupW (s.rowEntries o) 16
    | none => s.popTile o.num key (s.team o.sid.tcx).recd.groupW (s.rowEntries o) 16) = _
  rw [hu, h1]

include hn hk hq ht hfind hm
/-- An `mmul` whose entries are READY. -/
theorem exec_mul_popped (hb : o.bytes = []) (hx : s.qu.xfers = []) (hp : s.Present [o.sid]) {es rest : List QEntry}
    (h16 : s.rowEntries o ≤ 16) (hent : (s.queue key).entries = es ++ rest) (hlen : es.length = s.rowEntries o)
    (hr : ∀ e ∈ es, e.state = .ready) :
    let rows := cutRows (es.flatMap fun e => entryBytes e (s.team o.sid.tcx).recd.groupW) (s.rowBytes o) o.rows
    ∃ t, exec (.tileOpExecute cluster) s = .next t ∧ s.TileLeft t o ∧ (t.queue key).entries = rest ∧ ∀ r c, c < 128 →
      t.tileWord cluster k r c = if o.rowBase ≤ r ∧ r < o.rowBase + o.rows then
        mmulElem (s.mat o.sid.tcx) o.slot (r - o.rowBase) (rows.getD (r - o.rowBase) []) (if z then 0 else s.tileWord cluster k r c) c
      else s.tileWord cluster k r c := by
  intro rows
  obtain ⟨u, hu, hwork, hrest, hone⟩ := State.popTile_pops (w := (s.team o.sid.tcx).recd.groupW) (total := s.rowEntries o) es s o 16 hx
    hfind hent hr (by rw [hm, hlen, Nat.zero_add]) (hlen ▸ h16)
  rw [hb, List.nil_append] at hone
  have hrun := State.runTile_pop (cluster := cluster) hk hq ht hu hone
  let o1 := o.progress (s.rowEntries o) (es.flatMap fun e => entryBytes e (s.team o.sid.tcx).recd.groupW)
  let v := u.setTile cluster k (putRows (u.tile cluster k) o.rowBase (mmulRows (u.mat o.sid.tcx) o1 z (u.tile cluster k) rows))
  have hidle : (u.mulTile o1 cluster k z rows).changed key = u.mulTile o1 cluster k z rows :=
    State.changed_idle (s := u.mulTile o1 cluster k z rows) (hwork.2.trans hx) key
  replace hrun := (hrun.trans (if_pos (Nat.le_refl (s.rowEntries o)))).trans hidle
  have hdone : u.mulTile o1 cluster k z rows = v.tileDone o := rfl
  have hst : v.streams = s.streams := hwork.streams_eq
  obtain ⟨hex, hleft⟩ := exec_tile_ends (u := v) hn (hrun.trans hdone) (by rw [State.stream_congr hst]) (State.present_congr hst hp)
  refine ⟨_, hex, hleft, hrest, fun r c hc => ?_⟩
  have hmat : u.mat o.sid.tcx = s.mat o.sid.tcx := by
    unfold State.mat
    rw [hwork.1]
  rw [← hdone, State.mulTile_word hc, hwork.tileWord_eq, show rows.length = o.rows from (List.length_map _).trans List.length_range]
  change (if _ then mmulElem (u.mat o.sid.tcx) _ _ _ _ _ else _) = _
  rw [hmat]
  rfl
/-- An `mmul` that waits for its queue. -/
theorem exec_mul_waits (hneed : 0 < s.rowEntries o) (hready : (s.queue key).ready = 0) (hshadow : (s.team o.sid.tcx).shadow = false) :
    exec (.tileOpExecute cluster) s = .next s := by
  have hpop : s.popTile o.num key (s.team o.sid.tcx).recd.groupW (s.rowEntries o) 16 = s := by
    rw [State.popTile, hfind]
    dsimp only
    rw [if_neg (by omega)]
    unfold Queue.ready at hready
    revert hready
    cases (s.queue key).entries with
    | nil => exact fun _ => rfl
    | cons e r =>
      intro hready
      rw [readyRun] at hready
      refine if_neg fun he => ?_
      rw [if_pos he] at hready
      exact Nat.succ_ne_zero _ hready
  have hrun := State.runTile_pop (cluster := cluster) hk hq ht hpop hfind
  rw [if_neg (by omega)] at hrun
  rw [exec_tileOpExecute hn, hrun, State.stopTile, hshadow, Bool.false_and, Bool.false_and, if_neg Bool.false_ne_true]
end Pop
end

/-! ### The obligation -/

section
variable {s s1 : State} {cluster k : Nat} {o : TileOp} {rows : List (List Byte)}

theorem State.onMat_ends (hn : s.nextTileOp cluster = some o) {f : Mat → Mat}
    (hr : s.runTile cluster o = (s1.onMat o.sid.tcx f).tileDone o) (hc : (s1.stream o.sid).cnt = (s.stream o.sid).cnt)
    (hp : s1.Present [o.sid]) :
    ∃ t, exec (.tileOpExecute cluster) s = .next t ∧ s.TileLeft t o ∧ t.mat o.sid.tcx = f (s1.mat o.sid.tcx) := by
  obtain ⟨hex, hleft⟩ := exec_tile_ends (u := s1.onMat o.sid.tcx f) hn hr hc hp
  exact ⟨_, hex, hleft, s1.mat_onMat o.sid.tcx f⟩
end

/-- Settles O47: each kind of operation by its effect on planes, scales and tiles, `exec_tile_ends` for what its end leaves, and the
queue forms by induction on the entries they move. -/
theorem tileOperationsExecute : Obligations.TileOperationsExecute := by
  unfold Obligations.TileOperationsExecute
  intro s cluster o hn hp
  refine ⟨fun hk => ?_, fun k hk ht => ?_, fun k hk ht => ?_, fun rows s1 hk hr hc hp1 => ?_, fun k rows s1 hk ht hr hc hp1 hlen => ?_,
    fun k z rows s1 hk hq ht hr hc hp1 hlen => ?_, fun k z hk hq ht hmem => ?_, fun k z hk ht => ?_,
    fun k z key hk hq ht hfind hm hb hx => ?_, fun rows s1 hk hr hc hp1 => ?_, fun rows s1 hk hr hc hp1 => ?_⟩
  · obtain ⟨t, hex, hleft, hmat⟩ := State.onMat_ends (s1 := s) hn (f := fun m => { m with active := m.shadow, shadow := m.active })
      (by rw [State.runTile, hk]) rfl hp
    exact ⟨t, hex, hleft, by rw [hmat], by rw [hmat]⟩
  · obtain ⟨hex, hleft⟩ := exec_tile_ends (u := s.setTile cluster k (putRows (s.tile cluster k) o.rowBase (zeroRows o.rows))) hn
      (by rw [State.runTile, hk, ht]; rfl) rfl hp
    exact ⟨_, hex, hleft, fun r c hc => State.zeroed_word hc s cluster k o.rowBase o.rows⟩
  · obtain ⟨hex, hleft⟩ := exec_tile_ends
      (u := (s.setTile cluster k []).onMat o.sid.tcx fun m => { m with releasing := m.releasing.erase k }) hn
      (by rcases hk with hk | hk <;> rw [State.runTile, hk, ht]) rfl hp
    exact ⟨_, hex, hleft, s.tile_setTile cluster k [], 
      congrArg Mat.releasing ((s.setTile cluster k []).mat_onMat o.sid.tcx fun m => { m with releasing := m.releasing.erase k })⟩
  · obtain ⟨t, hex, hleft, hmat⟩ := State.onMat_ends (s1 := s1) hn (f := fun m => { m with shadow := planeOf o.slot o.rows rows })
      (by rw [State.runTile, hk]; dsimp only; rw [hr]) hc hp1
    exact ⟨t, hex, hleft, by rw [hmat], by rw [hmat]⟩
  · obtain ⟨hex, hleft⟩ := exec_tile_ends (u := s1.setTile cluster k (putRows (s1.tile cluster k) o.rowBase (rows.map rowWords))) hn
      (by rw [State.runTile, hk, ht]; dsimp only; rw [hr]; rfl) hc hp1
    exact ⟨_, hex, hleft, fun r c hc => hlen ▸ State.loaded_word hc s1 cluster k o.rowBase rows⟩
  · obtain ⟨hex, hleft⟩ := exec_tile_ends
      (u := s1.setTile cluster k (putRows (s1.tile cluster k) o.rowBase (mmulRows (s1.mat o.sid.tcx) o z (s1.tile cluster k) rows))) hn
      (by rw [State.runTile, hk, hq, ht]; dsimp only; rw [hr]; rfl) hc hp1
    exact ⟨_, hex, hleft, fun r c hc => hlen ▸ State.mulTile_word hc s1 o cluster k z rows⟩
  · exact exec_drain hn hk hq ht (by rw [hmem]; cases (List.range o.rows).map (drainRow o (s.tile cluster k)) <;> rfl) rfl hp rfl
  · refine ⟨fun s1 hq hw hmx hp1 hcnt => exec_drain hn hk hq ht hw hmx hp1 hcnt, fun a l n hq hone hmem hl hd hv hleft => ?_,
      fun key hq hfind hm hx => ⟨fun hw h16 hfree => exec_drain_pushed hn hk hq ht hfind hm hx hp hw h16 hfree,
        fun hfull hb => exec_drain_full hn hk hq ht hfind hm hfull hb⟩⟩
    obtain ⟨hwork, hmx, hstored⟩ := State.writeRows_one (cluster := cluster) (row := drainRow o (s.tile cluster k) 0) (a := a) (n := n) hl hd hv
      hleft o.sid
    obtain ⟨t, hex, hend, ht', hzero⟩ := exec_drain hn hk hq ht (by rw [hone, hmem]; rfl) hmx (State.present_congr hwork.streams_eq hp)
      (by rw [State.stream_congr hwork.streams_eq])
    exact ⟨t, hex, hend, ht' ▸ hstored, hzero⟩
  · exact ⟨fun es rest h16 hent hlen hr => exec_mul_popped hn hk hq ht hfind hm hb hx hp h16 hent hlen hr,
      fun hneed hready hshadow => exec_mul_waits hn hk hq ht hfind hm hneed hready hshadow⟩
  · obtain ⟨t, hex, hleft, hmat⟩ := State.onMat_ends (s1 := s1) hn
      (f := fun m => { m with aCodes := codesOf 16 rows, aBlk := slotABlk o.slot }) (by rw [State.runTile, hk]; dsimp only; rw [hr]) hc hp1
    exact ⟨t, hex, hleft, by rw [hmat], by rw [hmat], by rw [hmat]⟩
  · obtain ⟨t, hex, hleft, hmat⟩ := State.onMat_ends (s1 := s1) hn
      (f := fun m => { m with
        shadow := { m.shadow with
          codes := codesOf 128 rows ++ m.shadow.codes.filter fun e => decide (128 * o.rows ≤ e.1) } }) (by rw [State.runTile, hk]; dsimp only; rw [hr]) hc hp1
    exact ⟨t, hex, hleft, by rw [hmat], by rw [hmat]⟩
end Sys2Proof.Machine
end
section
/-! PROOFS. A turn of a stream runs the instruction at its PC (R106, R118, R120, R155). -/
namespace Sys2Proof.Machine

/-! ### The instruction (R106) -/

theorem decode_of_examine {w : DWord} {lits : List DWord} {k : Kind} {regs : Nat} {priv phys : Bool} {i : Instr}
    (h : examine w lits k regs priv phys = .ok i) : decode w lits = .ok i := by
  have hread : ∀ {d : Except Reject Instr}, (match d with
      | .ok i => if i.streamOk k regs then some i else none
      | .error _ => none) = some i → d = .ok i := by
    intro d hd
    cases d with
    | error e => exact absurd hd.symm (Option.some_ne_none i)
    | ok j =>
      dsimp only at hd
      split at hd
      · exact congrArg Except.ok (Option.some.inj hd)
      · exact absurd hd.symm (Option.some_ne_none i)
  unfold examine at h
  dsimp only at h
  split at h
  · split at h
    · exact nomatch h
    · next j hj =>
      split at h
      · obtain rfl := Except.ok.inj h
        exact hread hj
      · exact nomatch h
  · next hm =>
    split at h
    · next hu =>
      obtain rfl := Except.ok.inj h
      rw [decode, if_neg hm, decodeFull]
      exact if_pos hu
    · split at h
      · exact nomatch h
      · split at h
        · exact nomatch h
        · split at h
          · exact nomatch h
          · next j hj =>
            obtain rfl := Except.ok.inj h
            exact hread hj

/-! ### The issue group (R120) -/

/-- The threads that may issue with a lead that has no window open have none open either. -/
theorem State.fellows_window {s : State} {lead x : Stream} (h : lead.window = none) (hx : x ∈ s.fellows lead) : x.window = none := by
  unfold State.fellows at hx
  split at hx
  · rcases mem_insertUnits hx with hx | hx
    · have hf := (List.mem_filter.mp hx).2
      unfold State.fellow at hf
      simp only [Bool.and_eq_true] at hf
      obtain ⟨⟨⟨⟨-, hw⟩, -⟩, -⟩, -⟩ := hf
      rw [h] at hw
      cases hxw : x.window with
      | none => rfl
      | some w => rw [hxw] at hw; exact nomatch hw
    · exact absurd hx List.not_mem_nil
  · rw [List.mem_singleton.mp hx, h]
theorem windowHolds_closed {all : List Stream} (h : ∀ x ∈ all, x.window = none) (i : Instr) (ws : List (DWord × Checked)) :
    windowHolds all i ws = false := by
  unfold windowHolds
  rw [List.any_eq_false]
  intro x hx
  rw [h x hx]
  exact Bool.false_ne_true
theorem State.lead_mem_packed {s : State} {lead : Stream} {all : List Stream} (h : ∃ x ∈ all, x.id = lead.id) :
    lead.id ∈ s.packed lead all := by
  obtain ⟨x, hx, hid⟩ := h
  unfold State.packed
  dsimp only
  split
  · exact List.mem_map.mpr ⟨x, hx, hid⟩
  · generalize fillGroups _ [] = chunks
    cases hf : chunks.find? fun c => c.contains lead.id with
    | none => exact List.mem_singleton_self _
    | some c => simpa using List.find?_some hf

/-! ### The issue (R118, R122) -/

section
variable {s : State} {st : Stream} {ws : List (DWord × Checked)} {i : Instr} {all : List Stream} {t : State}

theorem State.openWindows_none (s : State) (i : Instr) (npc : DWord) (ids : List SId) : s.openWindows i npc ids [] = s := by
  unfold State.openWindows
  split <;> rfl

theorem State.goers_subset {s : State} {i : Instr} {all : List Stream} {x : Stream} (h : x ∈ s.goers i all) : x ∈ all := by
  unfold State.goers at h
  dsimp only at h
  split at h
  · exact List.mem_of_mem_filter (List.mem_of_mem_filter h)
  · split at h
    · exact List.mem_of_mem_filter h
    · split at h
      · exact List.mem_of_mem_filter (List.mem_of_mem_filter h)
      · exact List.mem_of_mem_filter h
theorem State.UnitWork.recordErr (s : State) (id : SId) (k : Nat) (e : Err) : s.UnitWork (s.recordErr id k e) :=
  ⟨rfl, s.onLanes_ids [id] fun _ => rfl⟩
theorem State.UnitWork.lostRead (s : State) (l : Loc) : s.UnitWork (s.lostRead l) := by
  unfold State.lostRead
  split <;> exact ⟨rfl, rfl⟩
theorem State.fetched_work (s : State) (st : Stream) (ids : List SId) (ws : List (DWord × Checked)) : s.UnitWork (s.fetched st ids ws) := by
  unfold State.fetched
  refine .foldl (fun s w => ?_) ws s
  dsimp only
  have ht := State.UnitWork.touch s (s.who st) .fetch w.2
  split
  · exact (ht.trans (.lostRead _ _)).trans (.foldl (fun u id => .recordErr u id _ _) ids _)
  · exact ht.trans (.of_homeWork (.readNow _ _ _ _ _))
theorem State.slotsLate_congr {s t : State} (ht : t.teams = s.teams) (hc : t.clock = s.clock) (ids : List SId) :
    t.slotsLate ids = s.slotsLate ids := by
  unfold State.slotsLate State.slotGroups State.team State.team?
  rw [ht, hc]

/-- The lanes that issue with a lead. -/
def State.issuing (s : State) (st : Stream) (i : Instr) (all : List Stream) : List SId :=
  (s.packed st (all.filter fun x => (s.goers i all).any fun y => y.id = x.id)).filter fun x => (s.goers i all).any fun y => y.id = x
/-- The state in which they execute: after the fetch, with the others held. -/
def State.beforeIssue (s : State) (st : Stream) (ws : List (DWord × Checked)) (i : Instr) (all : List Stream) : State :=
  let ready := all.filter fun x => (s.goers i all).any fun y => y.id = x.id
  (s.fetched st (all.map (·.id)) ws).holdLanes ((all.filter fun x => !(ready.any fun y => y.id = x.id)).map (·.id))
    fun x => (twoWay i).any fun b => (s.forecast x).isNone && s.unknown b x
/-- What issue records in them. -/
def State.afterIssue (t s : State) (st : Stream) (ids : List SId) (i : Instr) (n : Nat) : State :=
  (if slotUser i then t.noteSlots ids else t).noted s st ids n

theorem State.issueInstr_runs (run : Instr → State → Out) (hw : ∀ x ∈ all, x.window = none)
    (hg : ∀ x ∈ all, s.guesses i (st.pc + BitVec.ofNat 64 (8 * ws.length)) x = none)
    (hgo : ((s.goers i all).any fun y => y.id = st.id) = true)
    (hlate : slotUser i = true → (s.beforeIssue st ws i all).slotsLate (s.issuing st i all) = false)
    (hrun : run i ((s.beforeIssue st ws i all).atGroup (s.issuing st i all) st.pc ws.length) = .next t) :
    s.issueInstr run st all ws i = .next (t.afterIssue s st (s.issuing st i all) i ws.length) := by
  have hps : (all.filterMap fun x => (s.guesses i (st.pc + BitVec.ofNat 64 (8 * ws.length)) x).map fun dir => (x.id, dir)) = [] :=
    List.filterMap_eq_nil_iff.mpr fun x hx => by rw [hg x hx]; rfl
  have hlead : ∃ x ∈ all.filter fun x => (s.goers i all).any fun y => y.id = x.id, x.id = st.id := by
    obtain ⟨y, hy, hid⟩ := List.any_eq_true.mp hgo
    exact ⟨y, List.mem_filter.mpr ⟨State.goers_subset hy, List.any_eq_true.mpr ⟨y, hy, decide_eq_true rfl⟩⟩, of_decide_eq_true hid⟩
  have hmem : st.id ∈ s.issuing st i all := List.mem_filter.mpr ⟨State.lead_mem_packed hlead, hgo⟩
  have hany : ((all.filter fun x => (s.goers i all).any fun y => y.id = x.id).any fun x => x.id = st.id) = true := by
    obtain ⟨x, hx, hid⟩ := hlead
    exact List.any_eq_true.mpr ⟨x, hx, decide_eq_true hid⟩
  unfold State.issueInstr
  dsimp only
  rw [windowHolds_closed hw, if_neg Bool.false_ne_true, hps]
  simp only [List.any_nil, Bool.or_false, List.filter_nil, List.map_nil, List.append_nil, State.openWindows_none]
  rw [hany, if_pos rfl]
  have hids : ((s.issuing st i all).isEmpty || (all.filter fun x => (s.goers i all).any fun y => y.id = x.id).isEmpty) = false := by
    obtain ⟨x, hx, -⟩ := hlead
    rw [List.isEmpty_eq_false_iff.mpr (List.ne_nil_of_mem hmem), List.isEmpty_eq_false_iff.mpr (List.ne_nil_of_mem hx)]
    rfl
  have hslots : (slotUser i && s.slotsLate (s.issuing st i all)) = false := by
    have hwork := (s.fetched_work st (all.map (·.id)) ws).frame
    cases hu : slotUser i with
    | false => rfl
    | true => rw [← hlate hu]; exact (State.slotsLate_congr (congrArg State.teams hwork) (congrArg State.clock hwork) _).symm
  refine (if_neg (ne_true_of_eq_false hids)).trans ((if_neg (ne_true_of_eq_false hslots)).trans ?_)
  change (match run i ((s.beforeIssue st ws i all).atGroup (s.issuing st i all) st.pc ws.length) with
    | .next t => Host.Outcome.next (t.afterIssue s st (s.issuing st i all) i ws.length)
    | o => o) = _
  rw [hrun]
end

/-! ### Turns (R121, R138) -/

section
variable {s : State} {id : SId} {ws : List (DWord × Checked)} {i : Instr} {t : State}

theorem State.attempt_issues (run : Instr → State → Out) (hp : (s.stream id).park ≠ .stop)
    (ha : s.asleep ((s.team id.tcx).coreOf id) = false) (hf : s.fetch (s.stream id) = .ok ws)
    (he : s.examineFor (s.stream id) (ws.map (·.1)) = .ok i) :
    s.attempt run id = s.issueInstr run (s.stream id) (s.fellows (s.stream id)) ws i := by
  unfold State.attempt
  dsimp only
  rw [if_neg hp, ha, if_neg Bool.false_ne_true, hf]
  dsimp only
  rw [he]
/-- The stream of an issue turn goes on. -/
theorem State.turn_issue {run : Instr → State → Out} (hk : id.kind ≠ .lane) (hc : s.canIssue (s.stream id) = true)
    (hd : s.deferred (s.rivals (s.stream id)) (s.stream id) = false) (h : s.attempt run id = .next t) :
    s.turn run (.issue id) = .next (if t.stuck then t else t.noteYield run s) := by
  have hgo : (decide (id.kind ≠ .lane) && s.canIssue (s.stream id)) = true := by rw [hc, decide_eq_true hk]; rfl
  rw [State.turn]
  refine (if_pos hgo).trans ?_
  dsimp only
  rw [hd, if_neg Bool.false_ne_true, State.issueFirst, h]
  dsimp only
  split <;> rfl
/-- The first lead of a core goes on. -/
theorem State.turn_core {run : Instr → State → Out} {c k : Nat} (hl : (s.leads c k).head? = some id) (h : s.attempt run id = .next t)
    (hs : t.stuck = false) : s.turn run (.core c k) = .next (t.noteYield run s) := by
  obtain ⟨rest, hrest⟩ := List.head?_eq_some_iff.mp hl
  rw [State.turn, hrest, State.issueFirst, h]
  dsimp only
  rw [hs, if_neg Bool.false_ne_true]
theorem step_turn {turn : Turn} {r : List Turn} {u : State} (ha : s.agenda = turn :: r)
    (h : ({ s with agenda := r } : State).turn exec turn = .next u) : step s = .next (u.noteUse { s with agenda := r }) := by
  rw [step, State.nextTurn, ha]
  dsimp only
  rw [h]
end

/-- Settles O5: the checks of `attempt`, the lanes that issue by `issueInstr_runs`, and the turn of a stream or of a core. -/
theorem stepRunsTheDecodedInstruction : Obligations.StepRunsTheDecodedInstruction := by
  unfold Obligations.StepRunsTheDecodedInstruction
  intro s turn r id ws i t hagenda s0 st all go goes ready held ids firm s1 after hp ha hwin hf he hg hgo hlate hrun
  have hexam : examine _ _ _ _ _ _ = .ok i := he
  have hissue : s0.attempt exec id = .next after :=
    (State.attempt_issues exec hp ha hf he).trans
      (State.issueInstr_runs exec (fun x hx => State.fellows_window hwin hx) hg hgo hlate hrun)
  refine ⟨decode_of_examine hexam, fun hturn hk hc hd => ?_, fun c k hturn hl hs => ?_⟩
  · rw [hturn] at hagenda
    exact step_turn hagenda (State.turn_issue hk hc hd hissue)
  · rw [hturn] at hagenda
    exact step_turn hagenda (State.turn_core hl hissue hs)
end Sys2Proof.Machine
end
section
/-! PROOFS. What is kept of a state in every step, and the operations of the state, its memory, its translations and its vaults. -/
namespace Sys2Proof.Machine

/-- What a property of a run asks of a state: whether its memory is in canonical form, and its earliest timestamp. -/
structure Kept where
  canonical : Prop
  least : Nat
/-- A timestamp and a memory are as asked. -/
def Kept.Holds (kp : Kept) (t : Nat) (mem : List Host.Cell) : Prop := (kp.canonical → Memory.wf mem = true) ∧ kp.least ≤ t
/-- A state is as asked. -/
def State.Sound (kp : Kept) (s : State) : Prop := kp.Holds s.clock.gtsQ s.mem

section
variable {kp : Kept}

@[simp] theorem State.sound_mk
    (clock : Clock) (agenda : List Turn) (cur : Cur) (issues : Nat) (free : Nat) (nextOp : Nat) (streams : List Stream)
    (teams : List Team) (gbars : List (Nat × Barrier)) (ops : List MemOp) (mem : List Host.Cell) (tr : Trans)
    (vt : Vaults) (qu : Queues) (jobs : List JobSlot) (tokens : List Token) (fns : List (Nat × FnCfg))
    (pm : List (Nat × PmCounts)) (halted : List Nat) (links : Links) (loom : Loom) (mx : Arrays) (dr : Drays) (co : Colls)
    (hif : HostIf) (pwr : Power) (fw : Firmware) (images : List (Nat × Nat)) (outbox : List Msg) :
    State.Sound kp (State.mk clock agenda cur issues free nextOp streams teams gbars ops mem tr vt qu jobs tokens
      fns pm halted links loom mx dr co hif pwr fw images outbox) ↔ kp.Holds clock.gtsQ mem := Iff.rfl
@[simp] theorem State.sound_fold (s : State) : kp.Holds s.clock.gtsQ s.mem ↔ s.Sound kp := Iff.rfl
@[simp] theorem State.sound_ite (c : Prop) [Decidable c] (s t : State) :
    (if c then s else t).Sound kp ↔ if c then s.Sound kp else t.Sound kp := by split <;> rfl
theorem State.Sound.snd {α : Type} {p : α × State} {x : α} {t : State} (hp : p.2.Sound kp) (e : p = (x, t)) : t.Sound kp := by
  subst e
  exact hp
theorem State.sound_foldl_iff {α : Type} {f : State → α → State} (hf : ∀ s a, (f s a).Sound kp ↔ s.Sound kp) (l : List α)
    (s : State) : (l.foldl f s).Sound kp ↔ s.Sound kp := by
  induction l generalizing s with
  | nil => rfl
  | cons a r ih => exact (ih _).trans (hf s a)
theorem State.sound_foldl {α : Type} {f : State → α → State} (hf : ∀ s a, s.Sound kp → (f s a).Sound kp) (l : List α) {s : State}
    (h : s.Sound kp) : (l.foldl f s).Sound kp := by
  induction l generalizing s with
  | nil => exact h
  | cons a r ih => exact ih (hf s a h)

/-- An outcome whose next state, where it has one, is as asked. -/
def Out.Sound (kp : Kept) (o : Out) : Prop := ∀ t : State, o = .next t → t.Sound kp

@[simp] theorem Out.sound_next (t : State) : Out.Sound kp (.next t) ↔ t.Sound kp :=
  ⟨fun h => h t rfl, fun h _ e => by cases e; exact h⟩
@[simp] theorem Out.sound_refused (r : Refusal) : Out.Sound kp (.refused r) := by
  intro t e
  cases e
@[simp] theorem Out.sound_fault (r : Fault) : Out.Sound kp (.fault r) := by
  intro t e
  cases e
end

section
variable {kp : Kept}

/-! ### What Ops.lean defines -/

@[simp] theorem State.sound_onLanes (s : State) (ids : List SId) (f : Stream → Stream) :
    (s.onLanes ids f).Sound kp ↔ s.Sound kp :=
  Iff.rfl
@[simp] theorem State.sound_onLane (s : State) (id : SId) (f : Stream → Stream) :
    (s.onLane id f).Sound kp ↔ s.Sound kp :=
  Iff.rfl
@[simp] theorem State.sound_onTeam (s : State) (tcx : Nat) (f : Team → Team) :
    (s.onTeam tcx f).Sound kp ↔ s.Sound kp :=
  Iff.rfl
@[simp] theorem State.sound_retireLanes (s : State) (g : Guard) (f : Stream → Stream) :
    (s.retireLanes g f).Sound kp ↔ s.Sound kp :=
  Iff.rfl
@[simp] theorem State.sound_stalled (s : State) :
    (s.stalled).Sound kp ↔ s.Sound kp :=
  Iff.rfl
@[simp] theorem State.sound_endTeam (s : State) (tcx : Nat) (cause : Cause) :
    (s.endTeam tcx cause).Sound kp ↔ s.Sound kp :=
  Iff.rfl
@[simp] theorem State.sound_takeTrap (s : State) (ids : List SId) (cause : Cause) (pc npc addr : DWord) (info : Word) :
    (s.takeTrap ids cause pc npc addr info).Sound kp ↔ s.Sound kp := by
  unfold State.takeTrap
  split <;> simp
@[simp] theorem State.sound_skipLanes (s : State) (g : Guard) :
    (s.skipLanes g).Sound kp ↔ s.Sound kp :=
  Iff.rfl
@[simp] theorem State.sound_trap7 (s : State) (g : Guard) (cause : Cause) (fail : SId) (addr : DWord) (code : BitVec 16 := 0) :
    (s.trap7 g cause fail addr code).Sound kp ↔ s.Sound kp := by simp [State.trap7]
@[simp] theorem State.sound_trapLow (s : State) (g : Guard) (cause : Cause) (addr : DWord := 0) (code : BitVec 16 := 0) :
    (s.trapLow g cause addr code).Sound kp ↔ s.Sound kp := by
  unfold State.trapLow
  split <;> simp
@[simp] theorem State.sound_trapEarly (s : State) (cause : Cause) (addr : DWord := 0) :
    (s.trapEarly cause addr).Sound kp ↔ s.Sound kp := by simp [State.trapEarly]
@[simp] theorem State.sound_deliver (s : State) (id : SId) (k : Nat) (e : Err) :
    (s.deliver id k e).Sound kp ↔ s.Sound kp := by simp [State.deliver]
@[simp] theorem State.sound_recordErr (s : State) (id : SId) (k : Nat) (e : Err) :
    (s.recordErr id k e).Sound kp ↔ s.Sound kp :=
  Iff.rfl
@[simp] theorem State.sound_decCounter (s : State) (id : SId) (k : Nat) :
    (s.decCounter id k).Sound kp ↔ s.Sound kp :=
  Iff.rfl

/-! ### What Queue.lean defines -/

@[simp] theorem State.sound_setQueue (s : State) (key : Nat) (es : List QEntry) :
    (s.setQueue key es).Sound kp ↔ s.Sound kp :=
  Iff.rfl
@[simp] theorem State.sound_reserveEntry (s : State) (key : Nat) (mask : DWord) (missing : Nat) :
    (s.reserveEntry key mask missing).2.Sound kp ↔ s.Sound kp :=
  Iff.rfl
@[simp] theorem State.sound_onXfer (s : State) (num : Nat) (f : Xfer → Xfer) :
    (s.onXfer num f).Sound kp ↔ s.Sound kp :=
  Iff.rfl
@[simp] theorem State.sound_reserveNext (s : State) (x : Xfer) :
    (s.reserveNext x).Sound kp ↔ s.Sound kp :=
  Iff.rfl
@[simp] theorem State.sound_storeElems (s : State) (x : Xfer) (n : Nat) (e : QEntry) :
    (s.storeElems x n e).Sound kp ↔ s.Sound kp := by
  unfold State.storeElems
  grind [State.sound_onXfer, State.sound_mk, State.sound_fold, State.sound_foldl_iff]
@[simp] theorem State.sound_endXfers (s : State) :
    (s.endXfers).Sound kp ↔ s.Sound kp := by
  simp [State.endXfers, State.sound_foldl_iff]
theorem State.sound_serveStore (s : State) (key : Nat) {t : State} (e : s.serveStore key = some t) :
    t.Sound kp ↔ s.Sound kp := by
  unfold State.serveStore at e
  split at e
  · split at e
    · rw [← Option.some.inj e, State.sound_storeElems, State.sound_onXfer, State.sound_setQueue]
    · nomatch e
  · nomatch e
theorem State.sound_serveLoad (s : State) (key : Nat) {t : State} (e : s.serveLoad key = some t) :
    t.Sound kp ↔ s.Sound kp := by
  unfold State.serveLoad at e
  split at e
  · split at e
    · rw [← Option.some.inj e, State.sound_reserveNext]
    · nomatch e
  · nomatch e
@[simp] theorem State.sound_serveQueue (s : State) (key : Nat) (x0 : Nat) :
    (s.serveQueue key x0).Sound kp ↔ s.Sound kp := by
  induction x0 generalizing s with
  | zero => rfl
  | succ n ih =>
    rw [State.serveQueue]
    cases h1 : s.serveStore key with
    | some t => exact (ih t).trans (State.sound_serveStore s key h1)
    | none =>
      cases h2 : s.serveLoad key with
      | some t => exact (ih t).trans (State.sound_serveLoad s key h2)
      | none => rfl
@[simp] theorem State.sound_changed (s : State) (key : Nat) :
    (s.changed key).Sound kp ↔ s.Sound kp := by simp [State.changed]
theorem State.sound_popQueue (s : State) (key : Nat) {t : State} {x} (e : s.popQueue key = some (x, t)) :
    t.Sound kp ↔ s.Sound kp := by
  unfold State.popQueue at e
  split at e
  · nomatch e
  · split at e
    · rw [← (Prod.mk.inj (Option.some.inj e)).2, State.sound_changed, State.sound_setQueue]
    · nomatch e
@[simp] theorem State.sound_pushEntry (s : State) (key : Nat) (elems : List (Nat × Word)) (mask : DWord) :
    (s.pushEntry key elems mask).Sound kp ↔ s.Sound kp := by simp [State.pushEntry]
@[simp] theorem State.sound_fillElem (s : State) (key serial elem : Nat) (v : Word) :
    (s.fillElem key serial elem v).Sound kp ↔ s.Sound kp := by simp [State.fillElem]
theorem State.sound_popGroups (s : State) (key : Nat) (x0 : List Nat) {t : State} {x} (e : s.popGroups key x0 = some (x, t)) :
    t.Sound kp ↔ s.Sound kp := by
  induction x0 generalizing s t x with
  | nil => rw [← (Prod.mk.inj (Option.some.inj e)).2]
  | cons g gs ih =>
    rw [State.popGroups] at e
    split at e
    · nomatch e
    next s1 h1 =>
      split at e
      · nomatch e
      next s2 h2 =>
        rw [← (Prod.mk.inj (Option.some.inj e)).2, ih s1 h2, State.sound_popQueue s key h1]
@[simp] theorem State.sound_pushGroups (s : State) (key : Nat) (t : Team) (vals : List (SId × Word)) (gs : List Nat) :
    (s.pushGroups key t vals gs).Sound kp ↔ s.Sound kp := by
  simp [State.pushGroups, State.sound_foldl_iff]

/-! ### What Operands.lean defines -/

theorem State.sound_popSrcs (s : State) (ids : List SId) (gs : List Nat) (x0 : List Reg) {t : State} {x}
    (e : s.popSrcs ids gs x0 = some (x, t)) :
    t.Sound kp ↔ s.Sound kp := by
  induction x0 generalizing s t x with
  | nil => rw [← (Prod.mk.inj (Option.some.inj e)).2]
  | cons r rs ih =>
    rw [State.popSrcs] at e
    split at e
    · nomatch e
    next key _ =>
      split at e
      · nomatch e
      next s1 h1 =>
        split at e
        · nomatch e
        next s2 h2 =>
          rw [← (Prod.mk.inj (Option.some.inj e)).2, ih s1 h2, State.sound_popGroups s key gs h1]
@[simp] theorem State.sound_portOp (s : State) (g : Guard) (d : Dst) (a b c : Src) (f : Stream → DWord → DWord → DWord → DWord) :
    (s.portOp g d a b c f).Sound kp ↔ s.Sound kp := by
  unfold State.portOp
  dsimp only
  split
  · rw [State.sound_retireLanes]
  · split
    · rw [State.sound_trapLow]
    · split
      · rw [State.sound_stalled]
      next hp =>
        have h1 := State.sound_popSrcs (kp := kp) s _ _ _ hp
        split
        · rw [State.sound_retireLanes, h1]
        · split
          · rw [State.sound_stalled]
          · split <;> simp [h1]
@[simp] theorem State.sound_alu (s : State) (g : Guard) (d : Dst) (a b c : Src) (f : Stream → DWord → DWord → DWord → DWord) :
    (s.alu g d a b c f).Sound kp ↔ s.Sound kp := by simp [State.alu]
@[simp] theorem State.sound_unary (s : State) (o : Alu1) (f : Word → Word) :
    (s.unary o f).Sound kp ↔ s.Sound kp := by simp [State.unary]
@[simp] theorem State.sound_binary (s : State) (o : Alu2) (f : Word → Word → Word) :
    (s.binary o f).Sound kp ↔ s.Sound kp := by simp [State.binary]
@[simp] theorem State.sound_binaryR (s : State) (o : AluR) (f : Word → Word → Word) :
    (s.binaryR o f).Sound kp ↔ s.Sound kp := by simp [State.binaryR]
@[simp] theorem State.sound_ternary (s : State) (o : Alu3) (f : Word → Word → Word → Word) :
    (s.ternary o f).Sound kp ↔ s.Sound kp := by simp [State.ternary]
@[simp] theorem State.sound_wide (s : State) (o : Alu2) (f : DWord → DWord → DWord) :
    (s.wide o f).Sound kp ↔ s.Sound kp := by simp [State.wide]
@[simp] theorem State.sound_wideCount (s : State) (o : Alu2) (f : DWord → Word → DWord) :
    (s.wideCount o f).Sound kp ↔ s.Sound kp := by simp [State.wideCount]

/-! ### What Memory.lean defines -/

@[simp] theorem State.sound_writeHome {s : State} (k : Nat) (bs : List Byte) (h : s.Sound kp) :
    (s.writeHome k bs).Sound kp :=
  ⟨fun c => State.MemOk.writeHome (h.1 c) k bs, h.2⟩
@[simp] theorem State.sound_physWrite {s : State} (pa n v : Nat) (h : s.Sound kp) :
    (s.physWrite pa n v).Sound kp := by simp [State.physWrite, h]
@[simp] theorem State.sound_setShare (s : State) (n : Nat) (x : Share) :
    (s.setShare n x).Sound kp ↔ s.Sound kp :=
  Iff.rfl
@[simp] theorem State.sound_zeroVault {s : State} (a n : Nat) (h : s.Sound kp) :
    (s.zeroVault a n).Sound kp :=
  ⟨fun c => State.MemOk.zeroVault (h.1 c) a n, h.2⟩
@[simp] theorem State.sound_zeroShare {s : State} (n : Nat) (h : s.Sound kp) :
    (s.zeroShare n).Sound kp := by simp [State.zeroShare, h]
@[simp] theorem State.sound_onCache (s : State) (v : Nat) (f : VCache → VCache) :
    (s.onCache v f).Sound kp ↔ s.Sound kp :=
  Iff.rfl
@[simp] theorem State.sound_onLines (s : State) (p : Line → Bool) (f : Line → Line) :
    (s.onLines p f).Sound kp ↔ s.Sound kp :=
  Iff.rfl
@[simp] theorem State.sound_dropLines (s : State) (p : Line → Bool) :
    (s.dropLines p).Sound kp ↔ s.Sound kp :=
  Iff.rfl
@[simp] theorem State.sound_discard (s : State) :
    (s.discard).Sound kp ↔ s.Sound kp :=
  Iff.rfl
@[simp] theorem State.sound_noteEvent (s : State) (e : EvRec) :
    (s.noteEvent e).Sound kp ↔ s.Sound kp :=
  Iff.rfl
@[simp] theorem State.sound_record (s : State) (event : Nat) (source : Nat) (detail : DWord) :
    (s.record event source detail).Sound kp ↔ s.Sound kp :=
  Iff.rfl
@[simp] theorem State.sound_cxlTimedOut (s : State) :
    (s.cxlTimedOut).Sound kp ↔ s.Sound kp :=
  Iff.rfl
@[simp] theorem State.sound_putHome {s : State} (k : Nat) (bs : List Byte) (h : s.Sound kp) :
    (s.putHome k bs).Sound kp := by simp [State.putHome, h]
@[simp] theorem State.sound_writeBack {s : State} (p : Line → Bool) (h : s.Sound kp) :
    (s.writeBack p).Sound kp := by
  unfold State.writeBack
  grind [State.sound_onLines, State.sound_putHome, State.sound_mk, State.sound_fold, State.sound_foldl]
@[simp] theorem State.sound_makeRoom {s : State} (c : VCache) (rep : Option Nat) (set : Nat) (h : s.Sound kp) :
    (s.makeRoom c rep set).Sound kp := by
  unfold State.makeRoom
  dsimp only
  (repeat' split) <;> simp [h]
@[simp] theorem State.sound_fillLine {s : State} (c : VCache) (rep : Option Nat) (k : Nat) (req : Option Prio) (h : s.Sound kp) :
    (s.fillLine c rep k req).Sound kp := by simp [State.fillLine, h]
@[simp] theorem State.sound_moveLine {s : State} (c : VCache) (rep : Option Nat) (k : Nat) (h : s.Sound kp) :
    (s.moveLine c rep k).Sound kp := by
  unfold State.moveLine
  split <;> simp [h]
@[simp] theorem State.sound_rehome {s : State} (v : Nat) (h : s.Sound kp) :
    (s.rehome v).Sound kp := by
  unfold State.rehome
  split <;> simp [h]
@[simp] theorem State.sound_onPm (s : State) (ctag : Nat) (f : PmCounts → PmCounts) :
    (s.onPm ctag f).Sound kp ↔ s.Sound kp :=
  Iff.rfl
@[simp] theorem State.sound_loadTouch {s : State} (loc : Loc) (cluster : Nat) (req : Option Prio) (h : s.Sound kp) :
    (s.loadTouch loc cluster req).Sound kp := by
  unfold State.loadTouch
  dsimp only
  (repeat' split) <;> simp [h]
@[simp] theorem State.sound_countLookup (s : State) (loc : Loc) (cluster ctag : Nat) :
    (s.countLookup loc cluster ctag).Sound kp ↔ s.Sound kp := by
  unfold State.countLookup
  split <;> simp
@[simp] theorem State.sound_storeAt {s : State} (loc : Loc) (bs : List Byte) (req : Option Prio) (ctag : Option Nat)
    (h : s.Sound kp) :
    (s.storeAt loc bs req ctag).Sound kp := by
  unfold State.storeAt
  (repeat' split) <;> simp [h]
@[simp] theorem State.sound_dropCopies {s : State} (loc : Loc) (h : s.Sound kp) :
    (s.dropCopies loc).Sound kp := by simp [State.dropCopies, h]
@[simp] theorem State.sound_mend (s : State) (k n : Nat) :
    (s.mend k n).Sound kp ↔ s.Sound kp :=
  Iff.rfl

/-! ### What Translate.lean defines -/

@[simp] theorem State.sound_cacheDesc (s : State) (asid : BitVec 16) :
    (s.cacheDesc asid).Sound kp ↔ s.Sound kp :=
  Iff.rfl
@[simp] theorem State.sound_install (s : State) (at_ : TlbAt) (die : Nat) (asid : BitVec 16) (va : Nat) (w : Walked) :
    (s.install at_ die asid va w).Sound kp ↔ s.Sound kp :=
  Iff.rfl
@[simp] theorem State.sound_touchWalk {s : State} (at_ : TlbAt) (die : Nat) (asid : BitVec 16) (va : Nat) (write : Bool)
    (w : Walked) (h : s.Sound kp) :
    (s.touchWalk at_ die asid va write w).Sound kp := by simp [State.touchWalk, h]
@[simp] theorem State.sound_refused (s : State) (w : Who) (ak : AK) (f : Fail) :
    (s.refused w ak f).Sound kp ↔ s.Sound kp := by
  unfold State.refused
  dsimp only
  (repeat' split) <;> simp
@[simp] theorem State.sound_touch {s : State} (w : Who) (ak : AK) (c : Checked) (h : s.Sound kp) :
    (s.touch w ak c).Sound kp := by
  unfold State.touch
  split <;> simp [h]
@[simp] theorem State.sound_touchRead {s : State} (w : Who) (va : Nat) (h : s.Sound kp) :
    (s.touchRead w va).Sound kp := by
  unfold State.touchRead
  split <;> simp [h]
@[simp] theorem State.sound_allocMerge (s : State) (die idx : Nat) (asid : BitVec 16) (va core kind : Nat) (f : XFail)
    (pc : DWord) (ws : List SId) :
    (s.allocMerge die idx asid va core kind f pc ws).Sound kp ↔ s.Sound kp :=
  Iff.rfl
@[simp] theorem State.sound_parkOn (s : State) (die idx : Nat) (low : Stream) (va : Nat) (act : List SId) (fetch : Bool) :
    (s.parkOn die idx low va act fetch).Sound kp ↔ s.Sound kp :=
  Iff.rfl
@[simp] theorem State.sound_pageFault (s0 : State) (lanes : State → Cause → DWord → State) (hl : ∀ s c v,
    (lanes s c v).Sound kp ↔ s.Sound kp)
    (act : List SId) (low : Stream) (ak : AK) (va : Nat) (f : XFail) :
    (s0.pageFault lanes act low ak va f).Sound kp ↔ s0.Sound kp := by
  unfold State.pageFault
  dsimp only
  split
  · simp
  · split
    · simp
    · split
      · simp [hl]
      · split <;> simp
@[simp] theorem State.sound_failLane (s : State) (g : Guard) (ak : AK) (st : Stream) (f : Fail) :
    (s.failLane g ak st f).Sound kp ↔ s.Sound kp := by
  unfold State.failLane
  (repeat' split) <;> simp

/-! ### What Rank.lean defines -/

@[simp] theorem State.sound_onJob (s : State) (n : Nat) (f : JobSlot → JobSlot) :
    (s.onJob n f).Sound kp ↔ s.Sound kp :=
  Iff.rfl
@[simp] theorem State.sound_fillRank (s : State) (n r : Nat) :
    (s.fillRank n r).Sound kp ↔ s.Sound kp := by simp [State.fillRank]
@[simp] theorem State.sound_dropRanks (s : State) (n : Nat) :
    (s.dropRanks n).Sound kp ↔ s.Sound kp :=
  Iff.rfl
@[simp] theorem State.sound_asIssued {α : Type} {s : State} (n : Nat) (j : JobSlot) (f : State → α × State)
    (hf : ∀ s, s.Sound kp → (f s).2.Sound kp) (h : s.Sound kp) :
    (s.asIssued n j f).2.Sound kp := by
  unfold State.asIssued
  split
  · exact hf s h
  · rw [State.sound_onJob]
    exact hf _ ((State.sound_onJob s n _).mpr h)

/-! ### What Vault.lean defines -/

@[simp] theorem State.sound_lostWrite (s : State) (l : Loc) :
    (s.lostWrite l).Sound kp ↔ s.Sound kp := by simp [State.lostWrite]
@[simp] theorem State.sound_lostRead (s : State) (l : Loc) :
    (s.lostRead l).Sound kp ↔ s.Sound kp := by simp [State.lostRead]
@[simp] theorem State.sound_onOp (s : State) (n : Nat) (f : MemOp → MemOp) :
    (s.onOp n f).Sound kp ↔ s.Sound kp :=
  Iff.rfl
@[simp] theorem State.sound_removeOp (s : State) (n : Nat) :
    (s.removeOp n).Sound kp ↔ s.Sound kp :=
  Iff.rfl
@[simp] theorem State.sound_issueOp (s : State) (o : MemOp) :
    (s.issueOp o).Sound kp ↔ s.Sound kp := by
  simp [State.issueOp, State.sound_foldl_iff]
@[simp] theorem State.sound_noteDone (s : State) (o : MemOp) (self : List Nat) :
    (s.noteDone o self).Sound kp ↔ s.Sound kp := by
  simp [State.noteDone, State.sound_foldl_iff]
@[simp] theorem State.sound_noteFence (s : State) (id : SId) (ord : Order) (ag : Agent) (m : BitVec 5) :
    (s.noteFence id ord ag m).Sound kp ↔ s.Sound kp := by simp [State.noteFence]
@[simp] theorem State.sound_finishLane (s : State) (o : MemOp) (id : SId) (v : Option DWord) :
    (s.finishLane o id v).Sound kp ↔ s.Sound kp := by
  unfold State.finishLane
  (repeat' split) <;> simp
@[simp] theorem State.sound_setEmptyBit (s : State) (a : Nat) (e : Bool) :
    (s.setEmptyBit a e).Sound kp ↔ s.Sound kp :=
  Iff.rfl
@[simp] theorem State.sound_releaseTag {s : State} (ctag : Nat) (h : s.Sound kp) :
    (s.releaseTag ctag).Sound kp := by simp [State.releaseTag, h]
@[simp] theorem State.sound_feEffect {s0 : State} (o : MemOp) (h : s0.Sound kp) :
    (s0.feEffect o).Sound kp := by
  unfold State.feEffect
  dsimp only
  generalize hr : List.foldl _ ((if ordReleases o.ord then s0.releaseTag o.ctag else s0).noteDone o []) o.lanes = r
  have h1 : r.Sound kp := by
    rw [← hr]
    refine State.sound_foldl (fun s l hs => ?_) _ ?_
    · split <;> simp [hs]
    · split <;> simp [h]
  simp
  split <;> simp [h1]
@[simp] theorem State.sound_serveWaiters {s : State} (a : Nat) (x0 : Nat) (h : s.Sound kp) :
    (s.serveWaiters a x0).Sound kp := by
  induction x0 generalizing s with
  | zero => unfold State.serveWaiters; grind
  | succ n ih =>
    unfold State.serveWaiters
    grind [State.sound_feEffect]
@[simp] theorem State.sound_setBit {s : State} (a : Nat) (empty : Bool) (h : s.Sound kp) :
    (s.setBit a empty).Sound kp := by simp [State.setBit, h]
@[simp] theorem State.sound_feArrive {s : State} (o : MemOp) (h : s.Sound kp) :
    (s.feArrive o).Sound kp := by simp [State.feArrive, h]
@[simp] theorem State.sound_clearVault {s : State} (a n : Nat) (x0 : Nat) (h : s.Sound kp) :
    (s.clearVault a n x0).Sound kp := by
  induction x0 generalizing s with
  | zero => exact State.sound_zeroVault a n ((State.sound_mend s _ n).mpr h)
  | succ k ih =>
    have h1 := State.sound_zeroVault a n ((State.sound_mend s (vaultKey + a) n).mpr h)
    rw [State.clearVault]
    split
    · exact h1
    · exact ih (State.sound_foldl (fun s w hs => State.sound_serveWaiters w _ hs) _ h1)
@[simp] theorem State.sound_fillVault {s : State} (a n : Nat) (h : s.Sound kp) :
    (s.fillVault a n).Sound kp := by simp [State.fillVault, h]
@[simp] theorem State.sound_turnAway (s : State) (a n : Nat) :
    (s.turnAway a n).Sound kp ↔ s.Sound kp := by
  simp [State.turnAway, State.sound_foldl_iff]
end

end Sys2Proof.Machine
end
section
/-! PROOFS. What is kept of a state: accesses, the directory, barriers, control flow, groups, synchronisation and Carter streams. -/
namespace Sys2Proof.Machine

section
variable {kp : Kept}

/-! ### What Access.lean defines -/

@[simp] theorem State.sound_parkLanes (s : State) (p : Park) :
    (s.parkLanes p).Sound kp ↔ s.Sound kp :=
  Iff.rfl
@[simp] theorem State.sound_launchOp (s : State) (asid : BitVec 16) (o : MemOp) :
    (s.launchOp asid o).Sound kp ↔ s.Sound kp := by
  unfold State.launchOp
  dsimp only
  split <;> simp
@[simp] theorem State.sound_issueAll {s : State} (f : OpForm) (ak : AK) (data : SId → DWord × DWord) (entry : SId → Option
    (Nat × Nat × Nat)) (cs : List (SId × Checked)) (h : s.Sound kp) :
    (s.issueAll f ak data entry cs).Sound kp := by
  unfold State.issueAll
  grind [State.sound_touch, State.sound_launchOp, State.sound_foldl]
@[simp] theorem State.sound_acquired (s : State) (ord : Order) (ids : List SId) :
    (s.acquired ord ids).Sound kp ↔ s.Sound kp := by simp [State.acquired]
@[simp] theorem State.sound_reserveLoads (s : State) (key : Nat) (t : Team) (ids : List SId) (x0 : List Nat) :
    (s.reserveLoads key t ids x0).2.Sound kp ↔ s.Sound kp := by
  induction x0 generalizing s with
  | nil => unfold State.reserveLoads; grind
  | cons p r ih =>
    unfold State.reserveLoads
    grind [State.sound_reserveEntry]
@[simp] theorem State.sound_accessGo {s : State} (o : Acc) (f : OpForm) (ak : AK) (ids : List SId) (cs : List (SId × Checked))
    (h : s.Sound kp) :
    (s.accessGo o f ak ids cs).Sound kp := by
  unfold State.accessGo
  dsimp only
  split
  · simp [h]
  · split
    · simp [h]
    · split
      · simp [h]
      · simp [h]
      · have h0 : (if ordReleases o.ord && cs.any (fun c => c.2.loc.ranked) then s.releaseTag s.curTag else s).Sound kp := by
          split <;> simp [h]
        split
        · simp [h0]
        · split
          · split
            · simp [h]
            next hp => simp [(State.sound_popSrcs _ _ _ _ hp).mpr h0]
          · split <;> simp [h, h0]
@[simp] theorem State.sound_access {s : State} (o : Acc) (kind : OpKind) (ak : AK) (cl : Classes) (ctr : Nat) (h : s.Sound kp) :
    (s.access o kind ak cl ctr).Sound kp := by
  unfold State.access
  dsimp only
  (repeat' split) <;> simp [h]
@[simp] theorem sound_execLd (o : Acc) {s : State} (h : s.Sound kp) : Out.Sound kp (execLd o s) :=
  (Out.sound_next _).mpr (by simp [h])
@[simp] theorem sound_execSt (o : Acc) {s : State} (h : s.Sound kp) : Out.Sound kp (execSt o s) :=
  (Out.sound_next _).mpr (by simp [h])
@[simp] theorem sound_execLdro (o : Acc) {s : State} (h : s.Sound kp) : Out.Sound kp (execLdro o s) :=
  (Out.sound_next _).mpr (by simp [h])
@[simp] theorem sound_execLdv (o : Acc) {s : State} (h : s.Sound kp) : Out.Sound kp (execLdv o s) :=
  (Out.sound_next _).mpr (by simp [h])
@[simp] theorem sound_execStv (o : Acc) {s : State} (h : s.Sound kp) : Out.Sound kp (execStv o s) :=
  (Out.sound_next _).mpr (by simp [h])
@[simp] theorem State.sound_feLane {s : State} (o : Acc) (op : FeOp) (id : SId) (n : Nat) (h : s.Sound kp) :
    (s.feLane o op id n).Sound kp := by
  unfold State.feLane
  split <;> simp [h]
@[simp] theorem State.sound_feIssue {s : State} (o : Acc) (op : FeOp) (ctr : Nat) (port : Option Nat) (pss : List (List
    (Nat × QEntry))) (entry : SId → Option (Nat × Nat × Nat)) (cs : List (SId × Checked)) (h : s.Sound kp) :
    (s.feIssue o op ctr port pss entry cs).Sound kp := by
  unfold State.feIssue
  grind [State.sound_skipLanes, State.sound_launchOp, State.sound_feLane, State.sound_foldl]
@[simp] theorem State.sound_feAccess {s : State} (o : Acc) (op : FeOp) (ctr : Nat) (h : s.Sound kp) :
    (s.feAccess o op ctr).Sound kp := by
  unfold State.feAccess
  dsimp only
  split
  · simp [h]
  · split
    · simp [h]
    · split
      · simp [h]
      · split
        · simp [h]
        · split
          · simp [h]
          · split
            · simp [h]
            · split
              · simp [h]
              · simp [h]
              · split
                · simp [h]
                · split
                  · split
                    · simp [h]
                    next hp => exact State.sound_feIssue _ _ _ _ _ _ _ ((State.sound_popSrcs _ _ _ _ hp).mpr
                      ((State.sound_acquired ..).mpr h))
                  · split <;> simp [h]
@[simp] theorem sound_execLdvw (o : Acc) {s : State} (h : s.Sound kp) : Out.Sound kp (execLdvw o s) :=
  (Out.sound_next _).mpr (by simp [h])
@[simp] theorem sound_execLdvt (o : Acc) {s : State} (h : s.Sound kp) : Out.Sound kp (execLdvt o s) :=
  (Out.sound_next _).mpr (by simp [h])
@[simp] theorem sound_execStvp (o : Acc) {s : State} (h : s.Sound kp) : Out.Sound kp (execStvp o s) :=
  (Out.sound_next _).mpr (by simp [h])
@[simp] theorem sound_execStvf (o : Acc) {s : State} (h : s.Sound kp) : Out.Sound kp (execStvf o s) :=
  (Out.sound_next _).mpr (by simp [h])
@[simp] theorem State.sound_prefetch {s : State} (o : Acc) (id : SId) (h : s.Sound kp) :
    (s.prefetch o id).Sound kp := by
  unfold State.prefetch
  dsimp only
  (repeat' split) <;> simp [h]
@[simp] theorem sound_execPrf (o : Acc) {s : State} (h : s.Sound kp) : Out.Sound kp (execPrf o s) := by simp +contextual
    [execPrf, h, State.sound_foldl]
@[simp] theorem State.sound_touchRange {s : State} (o : Rng) (id : SId) (h : s.Sound kp) :
    (s.touchRange o id).Sound kp := by
  unfold State.touchRange
  grind [State.sound_touchRead, State.sound_foldl]
@[simp] theorem State.sound_rangeOp {s : State} (o : Rng) (op : RangeOp) (needW : Bool) (h : s.Sound kp) :
    (s.rangeOp o op needW).Sound kp := by
  unfold State.rangeOp
  grind [State.sound_retireLanes, State.sound_stalled, State.sound_failLane, State.sound_launchOp, State.sound_touchRange,
    State.sound_foldl]
@[simp] theorem sound_execCwb (o : Rng) {s : State} (h : s.Sound kp) : Out.Sound kp (execCwb o s) :=
  (Out.sound_next _).mpr (by simp [h])
@[simp] theorem sound_execCflush (o : Rng) {s : State} (h : s.Sound kp) : Out.Sound kp (execCflush o s) :=
  (Out.sound_next _).mpr (by simp [h])
@[simp] theorem sound_execCinval (o : Rng) {s : State} (h : s.Sound kp) : Out.Sound kp (execCinval o s) :=
  (Out.sound_next _).mpr (by simp [h])
@[simp] theorem sound_execCprio (o : Rng) (p : Prio) {s : State} (h : s.Sound kp) : Out.Sound kp (execCprio o p s) :=
  (Out.sound_next _).mpr (by simp [h])
@[simp] theorem sound_execFemk (o : Rng) (full : Bool) {s : State} (h : s.Sound kp) : Out.Sound kp (execFemk o full s) := by
  unfold execFemk
  dsimp only
  (repeat' split) <;> simp +contextual [h, State.sound_foldl]
@[simp] theorem State.sound_query {s : State} (o : Qry) (kind : Checked → OpKind) (check : SId → Except Fail Checked)
    (h : s.Sound kp) :
    (s.query o kind check).Sound kp := by
  unfold State.query
  grind [State.sound_retireLanes, State.sound_stalled, State.sound_trapLow, State.sound_touch, State.sound_failLane,
    State.sound_launchOp, State.sound_reserveLoads, State.sound_foldl]
@[simp] theorem sound_execFeqry (o : Qry) {s : State} (h : s.Sound kp) : Out.Sound kp (execFeqry o s) :=
  (Out.sound_next _).mpr (by simp [h])
@[simp] theorem sound_execVcq (o : Qry) {s : State} (h : s.Sound kp) : Out.Sound kp (execVcq o s) :=
  (Out.sound_next _).mpr (by simp [h])
@[simp] theorem sound_execPtoa (o : Qry) {s : State} (h : s.Sound kp) : Out.Sound kp (execPtoa o s) := by
  unfold execPtoa
  dsimp only
  (repeat' split) <;> simp [h]
@[simp] theorem State.sound_sgOp {s : State} (g : Guard) (s1 : Reg) (k1 acq : Bool) (h : s.Sound kp) :
    (s.sgOp g s1 k1 acq).Sound kp := by
  unfold State.sgOp
  grind [State.sound_retireLanes, State.sound_stalled, State.sound_touch, State.sound_failLane, State.sound_launchOp,
    State.sound_foldl]
@[simp] theorem sound_execSgacq (g : Guard) (s1 : Reg) (k1 : Bool) {s : State} (h : s.Sound kp) : Out.Sound kp
    (execSgacq g s1 k1 s) :=
  (Out.sound_next _).mpr (by simp [h])
@[simp] theorem sound_execSgrel (g : Guard) (s1 : Reg) (k1 : Bool) {s : State} (h : s.Sound kp) : Out.Sound kp
    (execSgrel g s1 k1 s) :=
  (Out.sound_next _).mpr (by simp [h])

/-! ### What Directory.lean defines -/

@[simp] theorem State.sound_setDir (s : State) (seg : Nat) (d : Dir) :
    (s.setDir seg d).Sound kp ↔ s.Sound kp :=
  Iff.rfl
@[simp] theorem State.sound_invalidateOthers (s : State) (seg c : Nat) :
    (s.invalidateOthers seg c).Sound kp ↔ s.Sound kp :=
  Iff.rfl
@[simp] theorem State.sound_flushOwner {s : State} (seg o : Nat) (h : s.Sound kp) :
    (s.flushOwner seg o).Sound kp := by simp [State.flushOwner, h]
@[simp] theorem State.sound_finishSg (s : State) (o : MemOp) :
    (s.finishSg o).Sound kp ↔ s.Sound kp := by
  simp [State.finishSg, State.sound_foldl_iff]
@[simp] theorem State.sound_transitEnd (s : State) (seg : Nat) :
    (s.transitEnd seg).Sound kp ↔ s.Sound kp := by
  unfold State.transitEnd
  grind [State.sound_setDir, State.sound_finishSg, State.sound_foldl_iff]
@[simp] theorem State.sound_dirDrop {s : State} (seg : Nat) (h : s.Sound kp) :
    (s.dirDrop seg).Sound kp := by
  unfold State.dirDrop
  split <;> simp [h]
@[simp] theorem State.sound_dirRoom {s : State} (seg : Nat) (h : s.Sound kp) :
    (s.dirRoom seg).Sound kp := by
  unfold State.dirRoom
  dsimp only
  (repeat' split) <;> simp [h]
@[simp] theorem State.sound_dirRead {s0 : State} (v : VCache) (c key : Nat) (req : Option Prio) (h : s0.Sound kp) :
    (s0.dirRead v c key req).Sound kp := by
  unfold State.dirRead
  dsimp only
  split <;> simp [h]
@[simp] theorem State.sound_dirWrite {s : State} (c key : Nat) (bs : List Byte) (h : s.Sound kp) :
    (s.dirWrite c key bs).Sound kp := by
  unfold State.dirWrite
  dsimp only
  split <;> simp [h]
@[simp] theorem State.sound_dirAcquire {s0 : State} (c seg : Nat) (h : s0.Sound kp) :
    (s0.dirAcquire c seg).Sound kp := by
  unfold State.dirAcquire
  dsimp only
  split <;> simp [h]
@[simp] theorem State.sound_dirRelease {s : State} (c seg : Nat) (h : s.Sound kp) :
    (s.dirRelease c seg).Sound kp := by
  unfold State.dirRelease
  split <;> simp [h]
@[simp] theorem State.sound_replicaPut {s : State} (vcid c key : Nat) (bs : List Byte) (dirty : Bool) (ctag : Option Nat)
    (req : Option Prio) (h : s.Sound kp) :
    (s.replicaPut vcid c key bs dirty ctag req).Sound kp := by
  unfold State.replicaPut
  split <;> simp [h]
@[simp] theorem State.sound_arriveLeft {s : State} (c : VCache) (o : MemOp) (h : s.Sound kp) :
    (s.arriveLeft c o).Sound kp := by simp [State.arriveLeft, h]
@[simp] theorem State.sound_finishLeft {s : State} (o : MemOp) (h : s.Sound kp) :
    (s.finishLeft o).Sound kp := by
  unfold State.finishLeft
  grind [State.sound_removeOp, State.sound_noteDone, State.sound_finishLane, State.sound_transitEnd, State.sound_arriveLeft,
    State.sound_foldl]
@[simp] theorem State.sound_settle {s : State} (key n : Nat) (h : s.Sound kp) :
    (s.settle key n).Sound kp := by
  unfold State.settle
  grind [State.sound_finishLeft, State.sound_foldl]
@[simp] theorem State.sound_loadBytes {s : State} (o : MemOp) (h : s.Sound kp) :
    (s.loadBytes o).2.Sound kp := by
  unfold State.loadBytes
  split <;> simp [h]
@[simp] theorem State.sound_loadLocal {s : State} (o : MemOp) (h : s.Sound kp) :
    (s.loadLocal o).2.Sound kp := by
  unfold State.loadLocal
  dsimp only
  (repeat' split) <;> simp [h]
@[simp] theorem State.sound_markSeen (s : State) (o : MemOp) (ws : List Nat) :
    (s.markSeen o ws).Sound kp ↔ s.Sound kp := by simp [State.markSeen]
@[simp] theorem State.sound_noteEarly (s : State) (o : MemOp) :
    (s.noteEarly o).Sound kp ↔ s.Sound kp := by simp [State.noteEarly]
@[simp] theorem State.sound_clearPoison (s : State) (k n : Nat) :
    (s.clearPoison k n).Sound kp ↔ s.Sound kp :=
  Iff.rfl
@[simp] theorem State.sound_readNow {s : State} (loc : Loc) (cluster n : Nat) (req : Option Prio) (h : s.Sound kp) :
    (s.readNow loc cluster n req).2.Sound kp := by
  unfold State.readNow
  (repeat' split) <;> simp [h]
@[simp] theorem State.sound_writeNow {s : State} (loc : Loc) (cluster : Nat) (bs : List Byte) (ctag : Option Nat := none)
    (h : s.Sound kp) :
    (s.writeNow loc cluster bs ctag).Sound kp := by
  unfold State.writeNow
  dsimp only
  split <;> simp [h]
@[simp] theorem State.sound_readRange {s : State} (loc : Loc) (cluster n : Nat) (h : s.Sound kp) :
    (s.readRange loc cluster n).2.Sound kp := by
  have key : ∀ (l : List (Nat × Nat)) (acc : List Byte × State), acc.2.Sound kp →
      (l.foldl (fun (acc : List Byte × State) p =>
        let (bs, s1) := acc.2.readNow { loc with key := p.1 } cluster p.2 none
        (acc.1 ++ bs, s1)) acc).2.Sound kp := by
    intro l
    induction l with
    | nil => exact fun _ ha => ha
    | cons p r ih => exact fun acc ha => ih _ (State.sound_readNow _ _ _ _ ha)
  exact key _ _ h
@[simp] theorem State.sound_writeRange {s : State} (loc : Loc) (cluster : Nat) (bs : List Byte) (h : s.Sound kp) :
    (s.writeRange loc cluster bs).Sound kp := by
  unfold State.writeRange
  grind [State.sound_clearPoison, State.sound_writeNow, State.sound_foldl]

/-! ### What Barrier.lean defines -/

@[simp] theorem State.sound_setSlot (s : State) (tcx grp n : Nat) (j : JSlot) :
    (s.setSlot tcx grp n j).Sound kp ↔ s.Sound kp :=
  Iff.rfl
@[simp] theorem State.sound_freeJoiners (s : State) (t : Team) (grp n : Nat) (m : DWord) :
    (s.freeJoiners t grp n m).Sound kp ↔ s.Sound kp :=
  Iff.rfl
@[simp] theorem State.sound_releaseTest (s : State) (tcx grp n : Nat) :
    (s.releaseTest tcx grp n).Sound kp ↔ s.Sound kp := by simp [State.releaseTest]
@[simp] theorem State.sound_armSlot (s : State) (tcx grp n : Nat) (set : DWord) (or : Bool) :
    (s.armSlot tcx grp n set or).Sound kp ↔ s.Sound kp := by simp [State.armSlot]
@[simp] theorem State.sound_leaveSlot (s : State) (id : SId) (n : Nat) :
    (s.leaveSlot id n).Sound kp ↔ s.Sound kp := by simp [State.leaveSlot]
@[simp] theorem State.sound_arriveSlot (s : State) (id : SId) (n : Nat) :
    (s.arriveSlot id n).Sound kp ↔ s.Sound kp := by simp [State.arriveSlot]
@[simp] theorem State.sound_setBar (s : State) (tcx id : Nat) (b : Barrier) :
    (s.setBar tcx id b).Sound kp ↔ s.Sound kp :=
  Iff.rfl
@[simp] theorem State.sound_reevaluate (s : State) (tcx : Nat) :
    (s.reevaluate tcx).Sound kp ↔ s.Sound kp :=
  Iff.rfl
@[simp] theorem State.sound_endStream (s : State) (id : SId) :
    (s.endStream id).Sound kp ↔ s.Sound kp := by
  simp [State.endStream, State.sound_foldl_iff]

/-! ### What Control.lean defines -/

@[simp] theorem State.sound_branchOf (s : State) (g : Guard) (c : BrClass) (takes : Stream → Bool) (tgt : Stream → DWord)
    (f : Stream → Stream) :
    (s.branchOf g c takes tgt f).Sound kp ↔ s.Sound kp := by
  unfold State.branchOf
  dsimp only
  split <;> simp
@[simp] theorem State.sound_branch (s : State) (g : Guard) (c : BrClass) (tgt : Stream → DWord) (f : Stream → Stream) :
    (s.branch g c tgt f).Sound kp ↔ s.Sound kp := by simp [State.branch]
@[simp] theorem sound_execBra (g : Guard) (off : BitVec 26) {s : State} (h : s.Sound kp) : Out.Sound kp (execBra g off s) :=
  (Out.sound_next _).mpr ((State.sound_branch ..).mpr h)
@[simp] theorem sound_execCall (g : Guard) (l : Reg) (off : BitVec 26) {s : State} (h : s.Sound kp) : Out.Sound kp
    (execCall g l off s) :=
  (Out.sound_next _).mpr ((State.sound_branch ..).mpr h)
@[simp] theorem sound_execLoop (g : Guard) (c : Reg) (off : BitVec 26) {s : State} (h : s.Sound kp) : Out.Sound kp
    (execLoop g c off s) :=
  (Out.sound_next _).mpr ((State.sound_branchOf ..).mpr h)
@[simp] theorem sound_execJmp (g : Guard) (s1 : Reg) (k1 : Bool) {s : State} (h : s.Sound kp) : Out.Sound kp
    (execJmp g s1 k1 s) :=
  (Out.sound_next _).mpr ((State.sound_branch ..).mpr h)
@[simp] theorem sound_execCallr (g : Guard) (l s1 : Reg) (k1 : Bool) {s : State} (h : s.Sound kp) : Out.Sound kp
    (execCallr g l s1 k1 s) :=
  (Out.sound_next _).mpr ((State.sound_branch ..).mpr h)
@[simp] theorem sound_execRet (g : Guard) (s1 : Reg) (k1 : Bool) {s : State} (h : s.Sound kp) : Out.Sound kp
    (execRet g s1 k1 s) :=
  (Out.sound_next _).mpr ((State.sound_branch ..).mpr h)
@[simp] theorem sound_execBrm (g : Guard) (k1 k2 : Bool) (es : List (Reg × Bool × Word)) {s : State}
    (h : s.Sound kp) : Out.Sound kp (execBrm g k1 k2 es s) :=
  (Out.sound_next _).mpr ((State.sound_branch ..).mpr h)
@[simp] theorem State.sound_tryBytes {s : State} (id : SId) (c : Checked) (f : OpForm) (h : s.Sound kp) :
    (s.tryBytes id c f).2.Sound kp := by
  unfold State.tryBytes
  grind [State.sound_touch, State.sound_noteDone, State.sound_transitEnd, State.sound_loadLocal, State.sound_noteEarly]
@[simp] theorem State.sound_tryLoad {s : State} (id : SId) (c : Checked) (f : OpForm := plainLoad) (h : s.Sound kp) :
    (s.tryLoad id c f).2.Sound kp := by
  unfold State.tryLoad
  grind [State.sound_tryBytes]
@[simp] theorem State.sound_loadNow {s : State} (id : SId) (c : Checked) (f : OpForm) (h : s.Sound kp) :
    (s.loadNow id c f).2.Sound kp := by
  unfold State.loadNow
  grind [State.sound_recordErr, State.sound_tryLoad]
@[simp] theorem State.sound_jtabReads {s : State} (x0 : List (SId × Option Checked)) (h : s.Sound kp) :
    (s.jtabReads x0).2.Sound kp := by
  induction x0 generalizing s with
  | nil => exact h
  | cons p r ih =>
    obtain ⟨id, _ | c⟩ := p
    · rw [State.jtabReads]
      have h1 := ih h
      split
      next e => exact h1.snd e
      · exact h1
    · rw [State.jtabReads]
      have h1 := State.sound_tryLoad id c plainLoad h
      split
      next e => exact h1.snd e
      next e =>
        have h2 := ih (h1.snd e)
        split
        next e2 => exact h2.snd e2
        · exact h2
@[simp] theorem sound_execJtab (g : Guard) (x : Reg) (k1 : Bool) (b : Reg) (k2 : Bool) (len : BitVec 8) (dflt : BitVec 18)
    {s : State} (h : s.Sound kp) : Out.Sound kp (execJtab g x k1 b k2 len dflt s) := by
  unfold execJtab
  dsimp only
  rw [Out.sound_next]
  split
  · simp [h]
  · have h1 := State.sound_jtabReads (checkUpTo (fun id =>
        let st := s.stream id
        if decide ((st.rd x).toNat ≤ len.toNat) then
          match s.checkAt id .load ⟨true, true, false⟩ (st.rd64 b + (((st.rd x).setWidth 64) <<< 2)) 4 4 with
          | .error e => .error e
          | .ok c => .ok (some c)
        else .ok none) (s.active g)).1 h
    split
    next e => simp [h1.snd e]
    · simp [h]
    next e _ => simp [h1.snd e]
@[simp] theorem State.sound_exitLane (s : State) (id : SId) :
    (s.exitLane id).Sound kp ↔ s.Sound kp := by
  unfold State.exitLane
  dsimp only
  (repeat' split) <;> simp
@[simp] theorem sound_execExit (g : Guard) {s : State} (h : s.Sound kp) : Out.Sound kp (execExit g s) := by simp +contextual
    [execExit, h, State.sound_foldl]
@[simp] theorem sound_execJset (g : Guard) (n : BitVec 4) (src : Option (Reg × Bool)) (or : Bool) {s : State}
    (h : s.Sound kp) : Out.Sound kp (execJset g n src or s) := by simp +contextual [execJset, h, State.sound_foldl]
@[simp] theorem sound_execJoin (g : Guard) (n : BitVec 4) {s : State} (h : s.Sound kp) : Out.Sound kp
    (execJoin g n s) := by simp +contextual [execJoin, h, State.sound_foldl]
@[simp] theorem sound_execJdrop (g : Guard) (mask : BitVec 16) {s : State} (h : s.Sound kp) : Out.Sound kp
    (execJdrop g mask s) := by simp +contextual [execJdrop, h, State.sound_foldl]
@[simp] theorem sound_execJmask (g : Guard) (d : Reg) (n : BitVec 4) (arr : Bool) {s : State} (h : s.Sound kp) : Out.Sound kp
    (execJmask g d n arr s) :=
  (Out.sound_next _).mpr h
@[simp] theorem State.sound_waitLane (s : State) (ldt stt cpt tlt : BitVec 8) (id : SId) :
    (s.waitLane ldt stt cpt tlt id).Sound kp ↔ s.Sound kp := by
  unfold State.waitLane
  dsimp only
  (repeat' split) <;> simp
@[simp] theorem sound_execWait (g : Guard) (ldt stt cpt tlt : BitVec 8) {s : State} (h : s.Sound kp) : Out.Sound kp
    (execWait g ldt stt cpt tlt s) := by simp +contextual [execWait, h, State.sound_foldl]
@[simp] theorem sound_execBhint (g : Guard) (p : Policy) {s : State} (h : s.Sound kp) : Out.Sound kp (execBhint g p s) :=
  (Out.sound_next _).mpr h
@[simp] theorem sound_execYield (g : Guard) {s : State} (h : s.Sound kp) : Out.Sound kp (execYield g s) :=
  (Out.sound_next _).mpr h
@[simp] theorem sound_execNsleep (g : Guard) (src : Opnd) {s : State} (h : s.Sound kp) : Out.Sound kp (execNsleep g src s) := by
  unfold execNsleep
  rw [Out.sound_next]
  split
  · simp [h]
  · dsimp only
    split
    · simp [h]
    · split
      · simp [h]
      · split
        · simp [h]
        · split
          · simp [h]
          next e => simp [(State.sound_popSrcs _ _ _ _ e).mpr h]

/-! ### What Group.lean defines -/

@[simp] theorem State.sound_groupOp (s : State) (g : Guard) (d : Dst) (kill : Stream → Stream)
    (f : List Stream → Stream → DWord) :
    (s.groupOp g d kill f).Sound kp ↔ s.Sound kp :=
  Iff.rfl
@[simp] theorem sound_execShfl (o : Alu3) {s : State} (h : s.Sound kp) : Out.Sound kp (execShfl o s) :=
  (Out.sound_next _).mpr h
@[simp] theorem State.sound_shuffle (s : State) (o : Alu1) (f : Reg) (src : Nat → Int) :
    (s.shuffle o f src).Sound kp ↔ s.Sound kp :=
  Iff.rfl
@[simp] theorem sound_execShfx (o : Alu1) (f : Reg) (m : BitVec 6) {s : State} (h : s.Sound kp) : Out.Sound kp
    (execShfx o f m s) :=
  (Out.sound_next _).mpr h
@[simp] theorem sound_execShup (o : Alu1) (f : Reg) (m : BitVec 6) {s : State} (h : s.Sound kp) : Out.Sound kp
    (execShup o f m s) :=
  (Out.sound_next _).mpr h
@[simp] theorem sound_execShdn (o : Alu1) (f : Reg) (m : BitVec 6) {s : State} (h : s.Sound kp) : Out.Sound kp
    (execShdn o f m s) :=
  (Out.sound_next _).mpr h
@[simp] theorem sound_execGbcast (o : Alu1) (f : Reg) (m : BitVec 6) {s : State} (h : s.Sound kp) : Out.Sound kp
    (execGbcast o f m s) :=
  (Out.sound_next _).mpr h
@[simp] theorem sound_execVote (o : Alu1) (op : VoteOp) {s : State} (h : s.Sound kp) : Out.Sound kp (execVote o op s) :=
  (Out.sound_next _).mpr h
@[simp] theorem State.sound_reduce (s : State) (o : Alu1) (t : MType) (f : Word → Word → Word) :
    (s.reduce o t f).Sound kp ↔ s.Sound kp :=
  Iff.rfl
@[simp] theorem sound_execGsum (o : Alu1) (f32 : Bool) {s : State} (h : s.Sound kp) : Out.Sound kp (execGsum o f32 s) :=
  (Out.sound_next _).mpr h
@[simp] theorem sound_execGmax (o : Alu1) (t : MType) {s : State} (h : s.Sound kp) : Out.Sound kp (execGmax o t s) :=
  (Out.sound_next _).mpr h
@[simp] theorem sound_execGmin (o : Alu1) (t : MType) {s : State} (h : s.Sound kp) : Out.Sound kp (execGmin o t s) :=
  (Out.sound_next _).mpr h
@[simp] theorem sound_execGbit (o : Alu1) (op : BitOp) {s : State} (h : s.Sound kp) : Out.Sound kp (execGbit o op s) :=
  (Out.sound_next _).mpr h
@[simp] theorem sound_execGscan (o : Alu1) (excl f32 : Bool) {s : State} (h : s.Sound kp) : Out.Sound kp
    (execGscan o excl f32 s) :=
  (Out.sound_next _).mpr h
@[simp] theorem sound_execMatchAny (o : Alu1) (i64 : Bool) {s : State} (h : s.Sound kp) : Out.Sound kp (execMatchAny o i64 s) :=
  (Out.sound_next _).mpr h
@[simp] theorem sound_execAmask (g : Guard) (d : Reg) {s : State} (h : s.Sound kp) : Out.Sound kp (execAmask g d s) :=
  (Out.sound_next _).mpr h
@[simp] theorem sound_execSval (g : Guard) (d : Reg) (code : BitVec 5) {s : State} (h : s.Sound kp) : Out.Sound kp
    (execSval g d code s) :=
  (Out.sound_next _).mpr (by simp [h])

/-! ### What Sync.lean defines -/

@[simp] theorem State.sound_atomGo {s : State} (o : Atom) (f : OpForm) (ak : AK) (args : Stream → DWord × DWord)
    (kill : Stream → Stream) (reqs : List (List (SId × Checked))) (cs : List (SId × Checked)) (h : s.Sound kp) :
    (s.atomGo o f ak args kill reqs cs).Sound kp := by
  unfold State.atomGo
  dsimp only
  split
  · simp [h]
  · split
    · simp [h]
    · simp [h]
    · have h0 : (if ordReleases o.ord && cs.any (fun c => c.2.loc.ranked) then s.releaseTag s.curTag else s).Sound kp := by
        split <;> simp [h]
      rw [State.sound_retireLanes, State.sound_acquired]
      refine State.sound_foldl (fun s r hs => ?_) _ h0
      split
      · exact hs
      · rw [State.sound_launchOp]
        exact State.sound_foldl (fun s c hs => State.sound_touch _ _ _ hs) _ hs
@[simp] theorem State.sound_atomic {s : State} (o : Atom) (op : RmwOp) (h : s.Sound kp) :
    (s.atomic o op).Sound kp := by
  unfold State.atomic
  dsimp only
  (repeat' split) <;> simp [h]
@[simp] theorem sound_execAadd (o : Atom) {s : State} (h : s.Sound kp) : Out.Sound kp (execAadd o s) :=
  (Out.sound_next _).mpr (by simp [h])
@[simp] theorem sound_execAadd64 (o : Atom) {s : State} (h : s.Sound kp) : Out.Sound kp (execAadd64 o s) :=
  (Out.sound_next _).mpr (by simp [h])
@[simp] theorem sound_execAaddf (o : Atom) {s : State} (h : s.Sound kp) : Out.Sound kp (execAaddf o s) :=
  (Out.sound_next _).mpr (by simp [h])
@[simp] theorem sound_execAadd2h (o : Atom) {s : State} (h : s.Sound kp) : Out.Sound kp (execAadd2h o s) :=
  (Out.sound_next _).mpr (by simp [h])
@[simp] theorem sound_execAmin (o : Atom) (u : Bool) {s : State} (h : s.Sound kp) : Out.Sound kp (execAmin o u s) :=
  (Out.sound_next _).mpr (by simp [h])
@[simp] theorem sound_execAmax (o : Atom) (u : Bool) {s : State} (h : s.Sound kp) : Out.Sound kp (execAmax o u s) :=
  (Out.sound_next _).mpr (by simp [h])
@[simp] theorem sound_execAminf (o : Atom) {s : State} (h : s.Sound kp) : Out.Sound kp (execAminf o s) :=
  (Out.sound_next _).mpr (by simp [h])
@[simp] theorem sound_execAmaxf (o : Atom) {s : State} (h : s.Sound kp) : Out.Sound kp (execAmaxf o s) :=
  (Out.sound_next _).mpr (by simp [h])
@[simp] theorem sound_execAand (o : Atom) {s : State} (h : s.Sound kp) : Out.Sound kp (execAand o s) :=
  (Out.sound_next _).mpr (by simp [h])
@[simp] theorem sound_execAor (o : Atom) {s : State} (h : s.Sound kp) : Out.Sound kp (execAor o s) :=
  (Out.sound_next _).mpr (by simp [h])
@[simp] theorem sound_execAxor (o : Atom) {s : State} (h : s.Sound kp) : Out.Sound kp (execAxor o s) :=
  (Out.sound_next _).mpr (by simp [h])
@[simp] theorem sound_execAxchg (o : Atom) {s : State} (h : s.Sound kp) : Out.Sound kp (execAxchg o s) :=
  (Out.sound_next _).mpr (by simp [h])
@[simp] theorem sound_execAcas (o : Atom) {s : State} (h : s.Sound kp) : Out.Sound kp (execAcas o s) :=
  (Out.sound_next _).mpr (by simp [h])
@[simp] theorem sound_execAcas64 (o : Atom) {s : State} (h : s.Sound kp) : Out.Sound kp (execAcas64 o s) :=
  (Out.sound_next _).mpr (by simp [h])
@[simp] theorem sound_execAinc (o : Atom) {s : State} (h : s.Sound kp) : Out.Sound kp (execAinc o s) :=
  (Out.sound_next _).mpr (by simp [h])
@[simp] theorem sound_execAdec (o : Atom) {s : State} (h : s.Sound kp) : Out.Sound kp (execAdec o s) :=
  (Out.sound_next _).mpr (by simp [h])
@[simp] theorem sound_execCtadd (o : Atom) (err : Bool) {s : State} (h : s.Sound kp) : Out.Sound kp (execCtadd o err s) :=
  (Out.sound_next _).mpr (by simp [h])
@[simp] theorem sound_execCtrd (o : Atom) {s : State} (h : s.Sound kp) : Out.Sound kp (execCtrd o s) := by
  unfold execCtrd
  dsimp only
  (repeat' split) <;> simp [h]
@[simp] theorem State.sound_waitcLane {s : State} (o : Atom) (id : SId) (c : Checked) (h : s.Sound kp) :
    (s.waitcLane o id c).Sound kp := by
  unfold State.waitcLane
  dsimp only
  (repeat' split) <;> simp [h]
@[simp] theorem sound_execWaitc (o : Atom) {s : State} (h : s.Sound kp) : Out.Sound kp (execWaitc o s) := by
  unfold execWaitc
  dsimp only
  (repeat' split) <;> simp +contextual [h, State.sound_foldl]
@[simp] theorem State.sound_markFence (s : State) (ord : Order) (agent : Agent) (m : BitVec 5) (id : SId) :
    (s.markFence ord agent m id).Sound kp ↔ s.Sound kp := by simp [State.markFence]
@[simp] theorem sound_execFence (g : Guard) (ord : Order) (agent : Agent) (stor : BitVec 5) {s : State}
    (h : s.Sound kp) : Out.Sound kp (execFence g ord agent stor s) := by simp +contextual [execFence, h, State.sound_foldl]
theorem State.sound_barWait (s : State) (ids : List SId) (rlx arrive ret : Bool) (stor : BitVec 5) {t : State}
    (e : s.barWait ids rlx arrive ret stor = some t) :
    t.Sound kp ↔ s.Sound kp := by
  unfold State.barWait at e
  split at e
  · rw [← Option.some.inj e, State.sound_stalled]
  · split at e
    · rw [← Option.some.inj e, State.sound_stalled]
    · nomatch e
@[simp] theorem State.sound_arriveWith (s : State) (key : Option Nat) (ids : List SId) :
    (s.arriveWith key ids).Sound kp ↔ s.Sound kp := by
  simp [State.arriveWith, State.sound_foldl_iff]
@[simp] theorem State.sound_barArrive {s : State} (o : BarOp) (wait : Bool) (h : s.Sound kp) :
    (s.barArrive o wait).Sound kp := by
  unfold State.barArrive
  dsimp only
  split
  · simp [h]
  · split
    next e => exact (State.sound_barWait _ _ _ _ _ _ e).mpr h
    · split
      · simp [h]
      · split <;> split <;> simp [h]
@[simp] theorem sound_execBar (o : BarOp) {s : State} (h : s.Sound kp) : Out.Sound kp (execBar o s) :=
  (Out.sound_next _).mpr (by simp [h])
@[simp] theorem sound_execBararr (o : BarOp) {s : State} (h : s.Sound kp) : Out.Sound kp (execBararr o s) :=
  (Out.sound_next _).mpr (by simp [h])
@[simp] theorem sound_execBarwt (o : BarOp) {s : State} (h : s.Sound kp) : Out.Sound kp (execBarwt o s) := by
  unfold execBarwt
  dsimp only
  rw [Out.sound_next]
  split
  next e => exact (State.sound_barWait _ _ _ _ _ _ e).mpr h
  · split <;> simp [h]
@[simp] theorem sound_execGbar (g : Guard) (rlx : Bool) (stor : BitVec 5) {s : State} (h : s.Sound kp) : Out.Sound kp
    (execGbar g rlx stor s) := by
  unfold execGbar
  dsimp only
  rw [Out.sound_next]
  split
  · simp [h]
  · split
    · simp [h]
    · split
      next e => exact (State.sound_barWait _ _ _ _ _ _ e).mpr h
      · split <;> simp [h]
@[simp] theorem sound_execHsig (g : Guard) (s1 : Reg) (k1 : Bool) (s2 : Reg) (k2 : Bool) (vector : BitVec 11) {s : State}
    (h : s.Sound kp) : Out.Sound kp (execHsig g s1 k1 s2 k2 vector s) := by
  unfold execHsig
  (repeat' split) <;> simp [h]

/-! ### What Carter.lean defines -/

@[simp] theorem sound_execQbind (g : Guard) (p : Reg) (k : BitVec 4) {s : State} (h : s.Sound kp) : Out.Sound kp
    (execQbind g p k s) := by
  unfold execQbind
  (repeat' split) <;> simp [h]
@[simp] theorem sound_execQbindUn (g : Guard) (p : Reg) {s : State} (h : s.Sound kp) : Out.Sound kp (execQbindUn g p s) := by
  unfold execQbindUn
  (repeat' split) <;> simp [h]
@[simp] theorem sound_execQstat (g : Guard) (d p : Reg) {s : State} (h : s.Sound kp) : Out.Sound kp (execQstat g d p s) :=
  (Out.sound_next _).mpr h
@[simp] theorem sound_execQpeek (g : Guard) (d p : Reg) (pos : BitVec 4) {s : State} (h : s.Sound kp) : Out.Sound kp
    (execQpeek g d p pos s) := by
  unfold execQpeek
  (repeat' split) <;> simp [h]
@[simp] theorem sound_execQdrop (g : Guard) (d p : Reg) (n : BitVec 5) {s : State} (h : s.Sound kp) : Out.Sound kp
    (execQdrop g d p n s) := by
  unfold execQdrop
  (repeat' split) <;> simp [h]
@[simp] theorem sound_execCspawn (g : Guard) (d s1 : Reg) (k1 : Bool) (s2 : Reg) (k2 : Bool) {s : State}
    (h : s.Sound kp) : Out.Sound kp (execCspawn g d s1 k1 s2 k2 s) := by
  unfold execCspawn
  dsimp only
  (repeat' split) <;> simp [h]
@[simp] theorem sound_execCstop (g : Guard) (d : Reg) (slots : BitVec 4) {s : State} (h : s.Sound kp) : Out.Sound kp
    (execCstop g d slots s) := by
  unfold execCstop
  (repeat' split) <;> simp [h]
@[simp] theorem State.sound_startXfer {s : State} (o : CarOp) (st : Stream) (key : Nat) (gather store : Bool) (cs : List
    (Option Checked)) (h : s.Sound kp) :
    (s.startXfer o st key gather store cs).Sound kp := by
  unfold State.startXfer
  dsimp only
  rw [State.sound_changed]
  refine State.sound_foldl (fun s r hs => ?_) _ ?_
  · simpa using hs
  · rw [State.sound_onLane]
    refine State.sound_foldl (fun s c hs => ?_) _ h
    split <;> simp [hs]
@[simp] theorem State.sound_lineXfer {s : State} (o : CarOp) (store : Bool) (h : s.Sound kp) :
    (s.lineXfer o store).Sound kp := by
  unfold State.lineXfer
  dsimp only
  (repeat' split) <;> simp [h]
@[simp] theorem sound_execAload (o : CarOp) {s : State} (h : s.Sound kp) : Out.Sound kp (execAload o s) :=
  (Out.sound_next _).mpr (by simp [h])
@[simp] theorem sound_execAstore (o : CarOp) {s : State} (h : s.Sound kp) : Out.Sound kp (execAstore o s) :=
  (Out.sound_next _).mpr (by simp [h])
@[simp] theorem State.sound_readIndices {s : State} (id : SId) (slot : Nat) (x0 : List Checked) (h : s.Sound kp) :
    (s.readIndices id slot x0).2.Sound kp := by
  induction x0 generalizing s with
  | nil => unfold State.readIndices; grind
  | cons p r ih =>
    unfold State.readIndices
    grind [State.sound_recordErr, State.sound_tryLoad]
@[simp] theorem State.sound_indexXfer {s : State} (o : CarOp) (store : Bool) (h : s.Sound kp) :
    (s.indexXfer o store).Sound kp := by
  unfold State.indexXfer
  dsimp only
  (repeat' split) <;> simp [h]
@[simp] theorem sound_execAgath (o : CarOp) {s : State} (h : s.Sound kp) : Out.Sound kp (execAgath o s) :=
  (Out.sound_next _).mpr (by simp [h])
@[simp] theorem sound_execAscat (o : CarOp) {s : State} (h : s.Sound kp) : Out.Sound kp (execAscat o s) :=
  (Out.sound_next _).mpr (by simp [h])
end

end Sys2Proof.Machine
end
section
/-! PROOFS. What is kept of a state: records and their checks, atomics, nodes, work queues, collectives and the Porter. -/
namespace Sys2Proof.Machine

section
variable {kp : Kept}

/-! ### What Record.lean defines -/

@[simp] theorem State.sound_unitRead1 {s : State} (w : Who) (va n cluster : Nat) (h : s.Sound kp) :
    (s.unitRead1 w va n cluster).2.Sound kp := by
  unfold State.unitRead1
  dsimp only
  (repeat' split) <;> simp [h]
@[simp] theorem State.sound_unitReads {s : State} (w : Who) (cluster : Nat) (x0 : List (Nat × Nat)) (h : s.Sound kp) :
    (s.unitReads w cluster x0).2.Sound kp := by
  induction x0 generalizing s with
  | nil => unfold State.unitReads; grind
  | cons p r ih =>
    unfold State.unitReads
    grind [State.sound_unitRead1]
@[simp] theorem State.sound_unitRead {s : State} (w : Who) (va n : Nat) (h : s.Sound kp) :
    (s.unitRead w va n).2.Sound kp := by simp [State.unitRead, h]

section
variable {α β : Type}

/-- A check that leaves a sound state sound, whatever it answers. -/
def Chk.Keeps (kp : Kept) (m : Chk α) : Prop := ∀ s : State, s.Sound kp → State.Sound kp (m.run s).2

theorem Chk.keeps_pure (a : α) : Chk.Keeps kp (pure a) := fun _ h => h
theorem Chk.keeps_throw (w : Word) : Chk.Keeps kp (throw w : Chk α) := fun _ h => h
theorem Chk.Keeps.bind {m : Chk α} {f : α → Chk β} (hm : Chk.Keeps kp m) (hf : ∀ a, Chk.Keeps kp (f a)) : Chk.Keeps kp (m >>= f) := by
  intro s h
  have h1 : State.Sound kp (m s).2 := hm s h
  change State.Sound kp (ExceptT.bindCont f (m s).1 (m s).2).2
  cases (m s).1 with
  | ok a => exact hf a _ h1
  | error w => exact h1
theorem Chk.keeps_get_bind {f : State → Chk β} (hf : ∀ s, s.Sound kp → Chk.Keeps kp (f s)) : Chk.Keeps kp (get >>= f) :=
  fun s h => hf s h s h
theorem Chk.keeps_set_bind {s : State} {f : PUnit → Chk β} (h : s.Sound kp) (hf : Chk.Keeps kp (f ⟨⟩)) :
    Chk.Keeps kp (set s >>= f) := fun _ _ => hf s h
theorem Chk.keeps_need {ok : Bool} {k r o : Nat} : Chk.Keeps kp (need ok k r o) := by
  unfold need
  split
  · exact keeps_pure _
  · exact keeps_throw _
@[simp] theorem Chk.keeps_need_bind {ok : Bool} {k r o : Nat} {f : Unit → Chk β} :
    Chk.Keeps kp (need ok k r o >>= f) ↔ (ok = true → Chk.Keeps kp (f ())) := by
  cases ok
  · exact ⟨fun _ h => (nomatch h), fun _ s h => h⟩
  · exact ⟨fun h _ => h, fun h => h rfl⟩
theorem Chk.keeps_needPtr {a : DWord} {n k o : Nat} : Chk.Keeps kp (needPtr a n k o) := by
  simp [needPtr, keeps_need]
theorem Chk.keeps_needPtr_bind {a : DWord} {n k o : Nat} {f : Unit → Chk β} (hf : Chk.Keeps kp (f ())) :
    Chk.Keeps kp (needPtr a n k o >>= f) := keeps_needPtr.bind fun _ => hf

theorem Chk.keeps_readRecord {fn : Nat} {asid : BitVec 16} {a : DWord} {n align kind : Nat} :
    Chk.Keeps kp (readRecord fn asid a n align kind) := by
  unfold readRecord
  simp only [keeps_need_bind]
  intro _ _
  refine keeps_get_bind fun s h => ?_
  have h1 := State.sound_unitRead (kp := kp) (s.unit fn asid) a.toNat n h
  split
  next s1 e => exact keeps_set_bind (by rwa [e] at h1) (keeps_throw _)
  next bs s1 e => exact keeps_set_bind (by rwa [e] at h1) (keeps_pure _)
theorem Chk.keeps_checkSlot {d : DWord} : Chk.Keeps kp (checkSlot d) := by
  unfold checkSlot
  simp [Chk.keeps_need]
theorem Chk.keeps_checkSlots {ds : List DWord} : Chk.Keeps kp (checkSlots ds) := by
  induction ds with
  | nil => exact keeps_pure _
  | cons d r ih => exact keeps_checkSlot.bind fun _ => ih
theorem Chk.keeps_checkRegions {bs : List Byte} {n : Nat} : Chk.Keeps kp (checkRegions bs n) := by
  induction n with
  | zero => exact keeps_pure _
  | succ n ih =>
    simp only [checkRegions, keeps_need_bind]
    exact fun _ _ _ => ih.bind fun _ => keeps_pure _
theorem Chk.keeps_checkAffinity {fn : Nat} {asid : BitVec 16} {a : DWord} {kind off : Nat} :
    Chk.Keeps kp (checkAffinity fn asid a kind off) := by
  unfold checkAffinity
  split
  · exact keeps_pure _
  · simp only [keeps_need_bind]
    exact fun _ _ => keeps_readRecord.bind fun _ => keeps_checkRegions.bind fun _ => keeps_pure _
theorem Chk.keeps_checkBoxes {bs : List Byte} {nd e : Nat} {half : Bool} {kind n : Nat} :
    Chk.Keeps kp (checkBoxes bs nd e half kind n) := by
  induction n with
  | zero => exact keeps_pure _
  | succ n ih =>
    unfold checkBoxes
    dsimp only
    split <;> simp [ih]
theorem Chk.keeps_checkDims {bs : List Byte} {nd : Nat} {half dst : Bool} {kind n : Nat} :
    Chk.Keeps kp (checkDims bs nd half dst kind n) := by
  induction n with
  | zero => exact keeps_pure _
  | succ n ih =>
    unfold checkDims
    dsimp only
    split <;> simp [ih]
theorem Chk.keeps_mapOf {bs : List Byte} {dst : Bool} : Chk.Keeps kp (mapOf bs dst) := by
  simp only [mapOf, keeps_need_bind]
  intro _ _ _ _ _ _
  refine keeps_checkBoxes.bind fun _ => ?_
  simp only [keeps_need_bind]
  exact fun _ => keeps_checkDims.bind fun _ => keeps_pure _
theorem Chk.keeps_readMap {fn : Nat} {asid : BitVec 16} {a : DWord} : Chk.Keeps kp (readMap fn asid a) := keeps_readRecord
theorem Chk.keeps_checkMap {fn : Nat} {asid : BitVec 16} {a : DWord} {dst : Bool} : Chk.Keeps kp (checkMap fn asid a dst) :=
  keeps_readMap.bind fun _ => keeps_mapOf
theorem Chk.keeps_checkColl {fn : Nat} {asid : BitVec 16} {a : DWord} {opening : Bool} :
    Chk.Keeps kp (checkColl fn asid a opening) := by
  unfold checkColl
  refine keeps_readRecord.bind fun bs => keeps_get_bind fun s h => ?_
  simp only [keeps_need_bind]
  intros
  refine Keeps.bind ?_ fun ranks => ?_
  · split
    · simp only [keeps_need_bind]
      intro _ _
      have h1 := State.sound_unitRead (kp := kp) (s.unit fn asid) (fld64 bs 16).toNat 16384 h
      split
      next s1 e => exact keeps_set_bind (by rwa [e] at h1) (keeps_throw _)
      next m s1 e =>
        refine keeps_set_bind (by rwa [e] at h1) ?_
        simp only [keeps_need_bind]
        exact fun _ => keeps_pure _
    · simp only [keeps_need_bind]
      exact fun _ _ _ => keeps_pure _
  · simp only [keeps_need_bind]
    intros
    refine keeps_needPtr_bind ?_
    simp only [keeps_need_bind]
    exact fun _ => keeps_pure _
theorem Chk.keeps_readLaunch {fn : Nat} {asid : BitVec 16} {a : DWord} : Chk.Keeps kp (readLaunch fn asid a) := keeps_readRecord
theorem Chk.keeps_launchOf {fn : Nat} {asid : BitVec 16} {a : DWord} {opening : Bool} {bs : List Byte} :
    Chk.Keeps kp (launchOf fn asid a opening bs) := by
  simp only [launchOf, keeps_need_bind]
  intros
  refine keeps_needPtr_bind (keeps_needPtr_bind (keeps_checkSlots.bind fun _ => Keeps.bind ?_ fun d => ?_))
  · split
    · exact keeps_pure _
    · exact keeps_get_bind fun s _ => keeps_checkColl.bind fun _ => keeps_pure _
  · simp only [keeps_need_bind]
    intros
    refine keeps_needPtr_bind (keeps_needPtr_bind (keeps_checkAffinity.bind fun _ => keeps_get_bind fun s _ => ?_))
    simp only [keeps_need_bind]
    intros
    exact keeps_pure _
theorem Chk.keeps_checkLaunch {fn : Nat} {asid : BitVec 16} {a : DWord} {opening : Bool} :
    Chk.Keeps kp (checkLaunch fn asid a opening) := keeps_readLaunch.bind fun _ => keeps_launchOf
theorem Chk.keeps_checkRead {map : MapRead} {dst : Bool} : Chk.Keeps kp (checkRead map dst) := by
  cases map with
  | error w => exact keeps_throw _
  | ok bs => exact keeps_mapOf
theorem Chk.keeps_checkMaps {src dst : MapRead} : Chk.Keeps kp (checkMaps src dst) := by
  refine keeps_checkRead.bind fun _ => keeps_checkRead.bind fun _ => ?_
  simp only [keeps_need_bind]
  exact fun _ _ _ => keeps_pure _
theorem Chk.keeps_checkPayload {fn : Nat} {asid : BitVec 16} {typ : Nat} {p : DWord} {map : Bool} :
    Chk.Keeps kp (checkPayload fn asid typ p map) := by
  unfold checkPayload
  split
  · exact keeps_checkLaunch.bind fun _ => keeps_pure _
  · split
    · exact keeps_checkMap.bind fun _ => keeps_pure _
    · exact keeps_need.bind fun _ => keeps_pure _
  · exact keeps_checkColl.bind fun _ => keeps_pure _
  · exact keeps_need.bind fun _ => keeps_need.bind fun _ => keeps_pure _
  · exact keeps_need.bind fun _ => keeps_pure _
theorem Chk.keeps_checkAux {fn : Nat} {asid : BitVec 16} {typ : Nat} {aux : DWord} {map : Bool} :
    Chk.Keeps kp (checkAux fn asid typ aux map) := by
  unfold checkAux
  split
  · split
    · exact keeps_checkMap.bind fun _ => keeps_pure _
    · exact keeps_need.bind fun _ => keeps_pure _
  all_goals simp only [keeps_need_bind, keeps_pure, implies_true]
theorem Chk.keeps_checkArg {typ : Nat} {arg : DWord} {src dst : Option TMap} : Chk.Keeps kp (checkArg typ arg src dst) := by
  unfold checkArg
  split <;> simp [keeps_need]
theorem Chk.keeps_checkSuccs {bs : List Byte} {n : Nat} {owned : Nat → Bool} {l : List Nat} : Chk.Keeps kp (checkSuccs bs n owned l) := by
  induction l with
  | nil => exact keeps_pure _
  | cons i r ih => exact keeps_need.bind fun _ => ih
theorem Chk.keeps_checkNode {fn port : Nat} {asid : BitVec 16} {a : DWord} {idx : Nat} {owned : Nat → Bool} :
    Chk.Keeps kp (checkNode fn port asid a idx owned) := by
  refine keeps_readRecord.bind fun bs => keeps_get_bind fun s _ => ?_
  simp only [keeps_need_bind]
  intros
  refine keeps_checkPayload.bind fun src => keeps_checkSuccs.bind fun _ => keeps_checkAux.bind fun dst => keeps_checkArg.bind fun _ => ?_
  split
  · refine keeps_checkAffinity.bind fun _ => ?_
    simp only [keeps_need_bind, keeps_pure, implies_true]
  · simp only [keeps_need_bind, keeps_pure, implies_true]
theorem Chk.keeps_regionsOf (n : Node) (info : LaunchInfo) : Chk.Keeps kp (do
      let rs ← (if n.affinity = 0 then pure info.regions else checkAffinity n.fn n.asid n.affinity kNode 0x28)
      pure (info, rs)) := by
  refine Keeps.bind ?_ fun _ => keeps_pure _
  split
  · exact keeps_pure _
  · exact keeps_checkAffinity


end

@[simp] theorem State.sound_unitWrite1 {s : State} (w : Who) (va cluster : Nat) (bs : List Byte) (h : s.Sound kp) :
    (s.unitWrite1 w va cluster bs).Sound kp := by
  unfold State.unitWrite1
  split <;> simp [h]
@[simp] theorem State.sound_touchRegions {s : State} (fn : Nat) (asid : BitVec 16) (rs : List Region) (h : s.Sound kp) :
    (s.touchRegions fn asid rs).Sound kp := by
  unfold State.touchRegions
  grind [State.sound_touchRead, State.sound_foldl]

/-! ### What Atomic.lean defines -/

@[simp] theorem State.sound_rmwAt {s : State} (loc : Loc) (op : RmwOp) (lanes : List (DWord × DWord)) (h : s.Sound kp) :
    (s.rmwAt loc op lanes).2.Sound kp := by
  unfold State.rmwAt
  grind [State.sound_writeHome, State.sound_dropCopies, State.sound_settle]
@[simp] theorem State.sound_rmwHalf {s : State} (loc : Loc) (upper : Bool) (lanes : List (DWord × DWord)) (h : s.Sound kp) :
    (s.rmwHalf loc upper lanes).2.Sound kp := by
  unfold State.rmwHalf
  grind [State.sound_writeHome, State.sound_dropCopies, State.sound_settle]
@[simp] theorem State.sound_bump {s : State} (fn : Nat) (asid : BitVec 16) (a : DWord) (inc : Nat) (err : Bool) (h : s.Sound kp) :
    (s.bump fn asid a inc err).Sound kp := by
  unfold State.bump
  dsimp only
  (repeat' split) <;> simp [h]
@[simp] theorem State.sound_bumpIf {s : State} (fn : Nat) (asid : BitVec 16) (a : DWord) (inc : Nat) (err : Bool)
    (h : s.Sound kp) :
    (s.bumpIf fn asid a inc err).Sound kp := by simp [State.bumpIf, h]

/-! ### What Node.lean defines -/

@[simp] theorem State.sound_sendMsix (s : State) (fn vec : Nat) :
    (s.sendMsix fn vec).Sound kp ↔ s.Sound kp := by simp [State.sendMsix]
@[simp] theorem State.sound_nextSeq (s : State) :
    (s.nextSeq).Sound kp ↔ s.Sound kp :=
  Iff.rfl
@[simp] theorem State.sound_putEvent {s : State} (e : EvRec) (h : s.Sound kp) :
    (s.putEvent e).Sound kp := by simp [State.putEvent, h]
@[simp] theorem State.sound_writeEvents {s : State} (h : s.Sound kp) :
    (s.writeEvents).Sound kp := by
  unfold State.writeEvents
  grind [State.sound_putEvent, State.sound_mk, State.sound_fold, State.sound_foldl]
@[simp] theorem State.sound_onPort (s : State) (fn n : Nat) (f : Port → Port) :
    (s.onPort fn n f).Sound kp ↔ s.Sound kp :=
  Iff.rfl
@[simp] theorem State.sound_portIrq (s : State) (fn n : Nat) (on : Bool) :
    (s.portIrq fn n on).Sound kp ↔ s.Sound kp := by simp [State.portIrq]
@[simp] theorem State.sound_onNode (s : State) (n : Nat) (f : Node → Node) :
    (s.onNode n f).Sound kp ↔ s.Sound kp :=
  Iff.rfl
@[simp] theorem State.sound_graphFault (s : State) (n : Node) (cause : BitVec 8) (reject : Word) :
    (s.graphFault n cause reject).Sound kp ↔ s.Sound kp := by simp [State.graphFault]
@[simp] theorem State.sound_endRun (s : State) (n : Nat) :
    (s.endRun n).Sound kp ↔ s.Sound kp :=
  Iff.rfl
@[simp] theorem State.sound_readyNode (s : State) (n : Node) :
    (s.readyNode n).Sound kp ↔ s.Sound kp := by simp [State.readyNode]
@[simp] theorem State.sound_completeNode (s : State) (n : Node) :
    (s.completeNode n).Sound kp ↔ s.Sound kp := by simp [State.completeNode]
@[simp] theorem State.sound_nodeDone (s : State) (n : Nat) (succ : List Nat) :
    (s.nodeDone n succ).Sound kp ↔ s.Sound kp :=
  Iff.rfl
@[simp] theorem State.sound_nodeOk (s : State) (n : Nat) :
    (s.nodeOk n).Sound kp ↔ s.Sound kp :=
  Iff.rfl
@[simp] theorem State.sound_nodeFail (s : State) (n : Nat) (cause : BitVec 8) (reject : Word) :
    (s.nodeFail n cause reject).Sound kp ↔ s.Sound kp := by
  unfold State.nodeFail
  split <;> simp
@[simp] theorem sound_execNodeCompletion (node : Nat) {s : State} (h : s.Sound kp) : Out.Sound kp
    (execNodeCompletion node s) := by
  unfold execNodeCompletion
  dsimp only
  (repeat' split) <;> simp [h]

/-! ### What WorkQueue.lean defines -/

@[simp] theorem State.sound_engineFault (s : State) (die fn : Nat) (asid : BitVec 16) (va kind : Nat) (f : XFail)
    (core : Nat := 0xFF) :
    (s.engineFault die fn asid va kind f core).Sound kp ↔ s.Sound kp := by
  unfold State.engineFault
  (repeat' split) <;> simp
@[simp] theorem State.sound_engineFail (s : State) (die fn : Nat) (asid : BitVec 16) (kind : Nat) (e : Fail)
    (core : Nat := 0xFF) :
    (s.engineFail die fn asid kind e core).Sound kp ↔ s.Sound kp := by
  unfold State.engineFail
  split <;> simp
@[simp] theorem State.sound_setWq (s : State) (n : Nat) (q : WorkQ) :
    (s.setWq n q).Sound kp ↔ s.Sound kp :=
  Iff.rfl
@[simp] theorem State.sound_wqAppend (s : State) (n : Nat) (vs : List Word) :
    (s.wqAppend n vs).Sound kp ↔ s.Sound kp :=
  Iff.rfl
@[simp] theorem State.sound_wqEnd (s : State) (n : Nat) (asid : BitVec 16) (aborted : Bool) :
    (s.wqEnd n asid aborted).Sound kp ↔ s.Sound kp := by simp [State.wqEnd]
@[simp] theorem State.sound_wqDrop (s : State) (n : Nat) :
    (s.wqDrop n).Sound kp ↔ s.Sound kp :=
  Iff.rfl
@[simp] theorem State.sound_awaitRoom (s : State) (ids : List SId) (n : Nat) :
    (s.awaitRoom ids n).Sound kp ↔ s.Sound kp :=
  Iff.rfl
@[simp] theorem State.sound_wqWrite (s : State) (n : Nat) (w : Word) :
    (s.wqWrite n w).Sound kp ↔ s.Sound kp := by simp [State.wqWrite]
@[simp] theorem sound_execWqCtlWrite (n : Nat) (v : Word) {s : State} (h : s.Sound kp) : Out.Sound kp (execWqCtlWrite n v s) :=
  (Out.sound_next _).mpr (by simp [h])
@[simp] theorem sound_execWqpush (g : Guard) (s1 : Reg) (k1 : Bool) (s2 : Reg) (k2 : Bool) {s : State}
    (h : s.Sound kp) : Out.Sound kp (execWqpush g s1 k1 s2 k2 s) := by
  unfold execWqpush
  (repeat' split) <;> simp [h]
@[simp] theorem State.sound_wqState (s : State) (g : Guard) (s1 : Reg) (k1 : Bool) (f : WorkQ → WorkQ) :
    (s.wqState g s1 k1 f).Sound kp ↔ s.Sound kp := by
  unfold State.wqState
  (repeat' split) <;> simp
@[simp] theorem sound_execWqpushClose (g : Guard) (s1 : Reg) (k1 : Bool) {s : State} (h : s.Sound kp) : Out.Sound kp
    (execWqpushClose g s1 k1 s) :=
  (Out.sound_next _).mpr ((State.sound_wqState ..).mpr h)
@[simp] theorem sound_execWqpushReopen (g : Guard) (s1 : Reg) (k1 : Bool) {s : State} (h : s.Sound kp) : Out.Sound kp
    (execWqpushReopen g s1 k1 s) :=
  (Out.sound_next _).mpr ((State.sound_wqState ..).mpr h)
@[simp] theorem State.sound_popLane (s : State) (n : Nat) (o : Alu1) (id : SId) :
    (s.popLane n o id).Sound kp ↔ s.Sound kp := by
  unfold State.popLane
  dsimp only
  split <;> simp
@[simp] theorem sound_execWqpop (o : Alu1) {s : State} (h : s.Sound kp) : Out.Sound kp (execWqpop o s) := by
  unfold execWqpop
  dsimp only
  (repeat' split) <;> simp +contextual [h, State.sound_foldl]

/-! ### What Collective.lean defines -/

@[simp] theorem State.sound_millerAt {s : State} (i : Inst) (stack : Nat) (ak : AK) (va : Nat) (h : s.Sound kp) :
    (s.millerAt i stack ak va).2.Sound kp := by
  unfold State.millerAt
  dsimp only
  (repeat' split) <;> simp [h]
@[simp] theorem State.sound_millerRead {s : State} (i : Inst) (stack : Nat) (x0 : List (Nat × Nat)) (h : s.Sound kp) :
    (s.millerRead i stack x0).2.Sound kp := by
  induction x0 generalizing s with
  | nil => unfold State.millerRead; grind
  | cons p r ih =>
    unfold State.millerRead
    grind [State.sound_dropCopies, State.sound_settle, State.sound_millerAt]
@[simp] theorem State.sound_millerWrite {s : State} (i : Inst) (stack : Nat) (bs : List Byte) (x0 : List (Nat × Nat))
    (h : s.Sound kp) :
    (s.millerWrite i stack bs x0).2.Sound kp := by
  induction x0 generalizing s bs with
  | nil => exact h
  | cons p r ih =>
    rw [State.millerWrite]
    have h1 := State.sound_millerAt i stack .store p.1 h
    split
    next e => exact h1.snd e
    next e =>
      exact ih _ (State.sound_writeHome _ _ ((State.sound_clearPoison ..).mpr
        (State.sound_dropCopies _ (State.sound_settle _ _ (h1.snd e)))))
@[simp] theorem State.sound_onInst (s : State) (num : Nat) (f : Inst → Inst) :
    (s.onInst num f).Sound kp ↔ s.Sound kp :=
  Iff.rfl
@[simp] theorem State.sound_putStatus {s : State} (i : Inst) (w : DWord) (h : s.Sound kp) :
    (s.putStatus i w).Sound kp := by simp [State.putStatus, h]
@[simp] theorem State.sound_abortInst (s : State) (num : Nat) (cause : Cause) (member : Nat) :
    (s.abortInst num cause member).Sound kp ↔ s.Sound kp := by
  unfold State.abortInst
  split <;> simp
@[simp] theorem State.sound_checkBuffers (s : State) (num : Nat) :
    (s.checkBuffers num).Sound kp ↔ s.Sound kp := by
  unfold State.checkBuffers
  split
  · rfl
  · dsimp only
    split
    · rfl
    next va c e _ => cases e <;> simp
@[simp] theorem State.sound_grantEntries (s : State) :
    (s.grantEntries).Sound kp ↔ s.Sound kp :=
  Iff.rfl
theorem State.sound_runStage {s : State} (num v : Nat) {t : State} (e : s.runStage num v = some t) (h : s.Sound kp) :
    t.Sound kp := by
  unfold State.runStage at e
  split at e
  · nomatch e
  next i _ =>
    dsimp only at e
    split at e
    · nomatch e
    · split at e
      · nomatch e
      next g _ =>
        split at e
        · nomatch e
        · generalize hp : (if g.write && i.desc.op != 5 then State.millerWrite _ _ _ _ _ else _) = p at e
          have h1 : p.2.Sound kp := by
            rw [← hp]
            split
            · exact State.sound_millerWrite _ _ _ _ h
            · exact h
          split at e <;> rw [← Option.some.inj e] <;> simp [h1]
@[simp] theorem State.sound_runChunk {s : State} (num v : Nat) (x0 : Nat) (h : s.Sound kp) :
    (s.runChunk num v x0).Sound kp := by
  induction x0 generalizing s with
  | zero => unfold State.runChunk; grind
  | succ n ih =>
    unfold State.runChunk
    grind [State.sound_runStage]
@[simp] theorem State.sound_fireVirtual {s : State} (num v : Nat) (h : s.Sound kp) :
    (s.fireVirtual num v).Sound kp := by
  unfold State.fireVirtual
  dsimp only
  (repeat' split) <;> simp [h]
@[simp] theorem State.sound_fireChunk {s : State} (num c : Nat) (h : s.Sound kp) :
    (s.fireChunk num c).Sound kp := by
  unfold State.fireChunk
  grind [State.sound_fireVirtual, State.sound_foldl]
@[simp] theorem State.sound_openInst {s : State} (fn : Nat) (asid : BitVec 16) (a : DWord) (d : CollDesc)
    (opener : Option SId) (node : Option Nat) (rlx : Bool) (h : s.Sound kp) :
    (s.openInst fn asid a d opener node rlx).Sound kp := by simp [State.openInst, h]
@[simp] theorem State.sound_fireAll {s : State} (num : Nat) (h : s.Sound kp) :
    (s.fireAll num).Sound kp := by
  unfold State.fireAll
  grind [State.sound_fireVirtual, State.sound_foldl]
@[simp] theorem State.sound_collPacket {s : State} (p : InColl) (f : Inst → State) (hf : ∀ i, (f i).Sound kp) (h : s.Sound kp) :
    (s.collPacket p f).Sound kp := by
  unfold State.collPacket
  split
  · exact h
  · split
    · exact h
    · split
      · exact h
      · split
        · simp [h]
        · exact hf _
@[simp] theorem sound_execMillerStep (x : MillerIn) (v : Nat) (data : Option (List Byte)) {s : State}
    (h : s.Sound kp) : Out.Sound kp (execMillerStep x v data s) := by
  unfold execMillerStep
  (repeat' split) <;> simp [h]
@[simp] theorem sound_execStepTimeout (num member : Nat) {s : State} (h : s.Sound kp) : Out.Sound kp
    (execStepTimeout num member s) := by
  unfold execStepTimeout
  (repeat' split) <;> simp [h]
@[simp] theorem sound_execAbortReceive (p : InColl) (member : Nat) {s : State} (h : s.Sound kp) : Out.Sound kp
    (execAbortReceive p member s) :=
  (Out.sound_next _).mpr (by simp [h])
@[simp] theorem State.sound_endInst (s : State) (num : Nat) :
    (s.endInst num).Sound kp ↔ s.Sound kp := by
  unfold State.endInst
  (repeat' split) <;> simp
@[simp] theorem sound_execInstanceFinal (num : Nat) {s : State} (h : s.Sound kp) : Out.Sound kp (execInstanceFinal num s) := by
  unfold execInstanceFinal
  (repeat' split) <;> simp [h]
@[simp] theorem sound_execWqChunkPush (num chunk : Nat) {s : State} (h : s.Sound kp) : Out.Sound kp
    (execWqChunkPush num chunk s) := by
  unfold execWqChunkPush
  (repeat' split) <;> simp [h]
@[simp] theorem sound_execColl (o : CollOp) {s : State} (h : s.Sound kp) : Out.Sound kp (execColl o s) := by
  unfold execColl
  dsimp only
  rw [Out.sound_next]
  generalize hr : (if o.rlx then s else s.releaseTag s.curTag) = r
  have h0 : r.Sound kp := by
    rw [← hr]
    split <;> simp [h]
  generalize (if o.rlx then 0b00011 else o.stor ||| 0b00011) = m
  split
  · simp [h]
  next low _ =>
    split
    · simp [h]
    · split
      · simp [h]
      · split
        · simp [h0]
        · have h1 := Chk.keeps_checkColl (fn := s.curTeam.fn) (asid := s.curTeam.recd.asid) (a := s.recordAddr low (low.rd64
          o.s1))
            (opening := true) r h0
          split
          next e => simp [h1.snd e]
          next e => simp [h1.snd e]
@[simp] theorem sound_execCabort (o : Alu1) {s : State} (h : s.Sound kp) : Out.Sound kp (execCabort o s) := by
  unfold execCabort
  dsimp only
  (repeat' split) <;> simp [h]
@[simp] theorem sound_execCstat (o : Alu1) {s : State} (h : s.Sound kp) : Out.Sound kp (execCstat o s) := by
  unfold execCstat
  (repeat' split) <;> simp [h]

/-! ### What Porter.lean defines -/

@[simp] theorem State.sound_region (s : State) (n r : Nat) :
    (s.region n r).2.Sound kp ↔ s.Sound kp := by
  unfold State.region
  dsimp only
  split <;> simp
@[simp] theorem State.sound_portPage {s : State} (fn : Nat) (asid : BitVec 16) (ak : AK) (va : Nat) (h : s.Sound kp) :
    (s.portPage fn asid ak va).2.Sound kp := by
  unfold State.portPage
  dsimp only
  split <;> simp [h]
@[simp] theorem State.sound_portPages {s : State} (fn : Nat) (asid : BitVec 16) (ak : AK) (x0 : List (Nat × Nat))
    (h : s.Sound kp) :
    (s.portPages fn asid ak x0).2.Sound kp := by
  induction x0 generalizing s with
  | nil => unfold State.portPages; grind
  | cons p r ih =>
    unfold State.portPages
    grind [State.sound_portPage]
@[simp] theorem State.sound_portCheck (s : State) (r : InReq) (right n : Nat) (notify : Option (Nat × Nat)) :
    (s.portCheck r right n notify).2.Sound kp ↔ s.Sound kp := by
  unfold State.portCheck
  dsimp only
  (repeat' split) <;> simp
@[simp] theorem State.sound_portLocs {s : State} (k : Nat) (e : RegionEntry) (ak : AK) (off n : Nat) (h : s.Sound kp) :
    (s.portLocs k e ak off n).2.Sound kp := by
  unfold State.portLocs
  grind [State.sound_portPages]
@[simp] theorem State.sound_portRead {s : State} (x0 : List (Loc × Nat)) (h : s.Sound kp) :
    (s.portRead x0).2.Sound kp := by
  induction x0 generalizing s with
  | nil => unfold State.portRead; grind
  | cons p r ih =>
    unfold State.portRead
    grind [State.sound_lostRead, State.sound_readNow]
@[simp] theorem State.sound_portWrite {s : State} (bs : List Byte) (x0 : List (Loc × Nat)) (h : s.Sound kp) :
    (s.portWrite bs x0).Sound kp := by
  induction x0 generalizing s bs with
  | nil => exact h
  | cons p r ih =>
    obtain ⟨l, n⟩ := p
    refine ih _ ?_
    split <;> simp [h]
@[simp] theorem State.sound_serve {s : State} (r : InReq) (load : Option Nat) (data : List Byte) (h : s.Sound kp) :
    (s.serve r load data).2.Sound kp := by
  unfold State.serve
  grind [State.sound_portCheck, State.sound_portLocs, State.sound_portRead, State.sound_portWrite]
@[simp] theorem State.sound_packetLocs {s : State} (k : Nat) (e : RegionEntry) (x0 : List (Nat × List Byte)) (h : s.Sound kp) :
    (s.packetLocs k e x0).2.Sound kp := by
  induction x0 generalizing s with
  | nil => unfold State.packetLocs; grind
  | cons p r ih =>
    unfold State.packetLocs
    grind [State.sound_portLocs]
@[simp] theorem State.sound_placePacket {s : State} (r : InReq) (data : List (Nat × List Byte)) (notify : Option (Nat × Nat))
    (h : s.Sound kp) :
    (s.placePacket r data notify).2.Sound kp := by
  unfold State.placePacket
  dsimp only
  have h1 := (State.sound_portCheck s { r with offset := 0 } 1 (packetEnd data) notify).mpr h
  split
  · exact h1
  next k e _ =>
    have h2 := State.sound_packetLocs k e data h1
    split
    next e2 => exact h2.snd e2
    next e2 =>
      split
      · exact h2.snd e2
      · split
        · exact State.sound_foldl (fun s w hs => State.sound_portWrite _ _ hs) _ (h2.snd e2)
        · exact State.sound_bump _ _ _ _ _ (State.sound_foldl (fun s w hs => State.sound_portWrite _ _ hs) _ (h2.snd e2))
@[simp] theorem State.sound_serveAtomic {s : State} (r : InReq) (op : RmwOp) (lanes : List (DWord × DWord)) (h : s.Sound kp) :
    (s.serveAtomic r op lanes).2.Sound kp := by
  unfold State.serveAtomic
  grind [State.sound_rmwAt, State.sound_portCheck, State.sound_portLocs]
@[simp] theorem State.sound_send (s : State) (m : Msg) :
    (s.send m).Sound kp ↔ s.Sound kp :=
  Iff.rfl
@[simp] theorem State.sound_answerMctp (s : State) (host : Bool) (bytes : List Byte) :
    (s.answerMctp host bytes).Sound kp ↔ s.Sound kp :=
  Iff.rfl
@[simp] theorem State.sound_setPlaced (s : State) (p : Placed) :
    (s.setPlaced p).Sound kp ↔ s.Sound kp :=
  Iff.rfl
@[simp] theorem sound_execPacketPlace (p : InPacket) {s : State} (h : s.Sound kp) : Out.Sound kp (execPacketPlace p s) := by
  unfold execPacketPlace
  dsimp only
  rw [Out.sound_next]
  split
  · exact h
  · split
    · simp [h]
    · have h1 := State.sound_placePacket p.req p.data p.notify h
      split
      next e => simp [h1.snd e]
      next e => simp [h1.snd e]
@[simp] theorem sound_execCopyClose (src : Peer) (copy : Nat) {s : State} (h : s.Sound kp) : Out.Sound kp
    (execCopyClose src copy s) :=
  (Out.sound_next _).mpr h
@[simp] theorem sound_execRemoteRequest (r : InReq) (load : Option Nat) (data : List Byte) {s : State}
    (h : s.Sound kp) : Out.Sound kp (execRemoteRequest r load data s) := by simp [execRemoteRequest, h]
@[simp] theorem sound_execRemoteAtomicExecute (a : InAtomic) {s : State} (h : s.Sound kp) : Out.Sound kp
    (execRemoteAtomicExecute a s) := by
  unfold execRemoteAtomicExecute
  dsimp only
  (repeat' split) <;> simp [h]
@[simp] theorem sound_execReplyCacheExpire (srcRank seq : Nat) {s : State} (h : s.Sound kp) : Out.Sound kp
    (execReplyCacheExpire srcRank seq s) :=
  (Out.sound_next _).mpr h
@[simp] theorem State.sound_installToken (s : State) (asid : BitVec 16) (t : DWord) (r : Word) :
    (s.installToken asid t r).2.Sound kp ↔ s.Sound kp := by
  unfold State.installToken
  dsimp only
  (repeat' split) <;> simp
@[simp] theorem State.sound_removeToken (s : State) (asid : BitVec 16) (r : Word) (region : Nat) :
    (s.removeToken asid r region).2.Sound kp ↔ s.Sound kp := by
  unfold State.removeToken
  dsimp only
  (repeat' split) <;> simp
@[simp] theorem State.sound_eachLane {s : State} (f : State → Stream → Word × State) (hf : ∀ s st, s.Sound kp →
    (f s st).2.Sound kp) (l : List SId)
    (h : s.Sound kp) :
    (s.eachLane f l).2.Sound kp := by
  induction l generalizing s with
  | nil => exact h
  | cons id r ih => exact ih (hf s _ h)
@[simp] theorem sound_execRgtok (o : AluR) {s : State} (h : s.Sound kp) : Out.Sound kp (execRgtok o s) :=
  (Out.sound_next _).mpr (by simp [h])
@[simp] theorem sound_execRgtokRm (g : Guard) (d s2 : Reg) (k2 : Bool) (region : BitVec 5) {s : State}
    (h : s.Sound kp) : Out.Sound kp (execRgtokRm g d s2 k2 region s) :=
  (Out.sound_next _).mpr (by simp [h])
@[simp] theorem State.sound_validateJob (s : State) (n : Nat) (asid : BitVec 16) :
    (s.validateJob n asid).Sound kp ↔ s.Sound kp := by simp [State.validateJob]
@[simp] theorem State.sound_invalidateJob (s : State) (n : Nat) (asid : BitVec 16) :
    (s.invalidateJob n asid).Sound kp ↔ s.Sound kp := by simp [State.invalidateJob]
@[simp] theorem sound_execJobSlotValidate (n : Nat) (asid : BitVec 16) {s : State} (h : s.Sound kp) : Out.Sound kp
    (execJobSlotValidate n asid s) :=
  (Out.sound_next _).mpr ((State.sound_validateJob ..).mpr h)
@[simp] theorem sound_execJobSlotInvalidate (n : Nat) (asid : BitVec 16) {s : State} (h : s.Sound kp) : Out.Sound kp
    (execJobSlotInvalidate n asid s) :=
  (Out.sound_next _).mpr ((State.sound_invalidateJob ..).mpr h)
@[simp] theorem State.sound_jobSelf (s : State) (n : Nat) (v : Word) :
    (s.jobSelf n v).Sound kp ↔ s.Sound kp :=
  Iff.rfl
@[simp] theorem sound_execJobSelfRank (n : Nat) (v : BitVec 17) {s : State} (h : s.Sound kp) : Out.Sound kp
    (execJobSelfRank n v s) :=
  (Out.sound_next _).mpr h
@[simp] theorem sound_execJobSelfNranks (n : Nat) (v : BitVec 17) {s : State} (h : s.Sound kp) : Out.Sound kp
    (execJobSelfNranks n v s) :=
  (Out.sound_next _).mpr h
@[simp] theorem State.sound_regionLo (s : State) (n : Nat) (v : Word) :
    (s.regionLo n v).Sound kp ↔ s.Sound kp :=
  Iff.rfl
@[simp] theorem sound_execRegionBaseWrite (n : Nat) (v : Word) {s : State} (h : s.Sound kp) : Out.Sound kp
    (execRegionBaseWrite n v s) :=
  (Out.sound_next _).mpr h
@[simp] theorem State.sound_regionHi (s : State) (n : Nat) (v : Word) :
    (s.regionHi n v).Sound kp ↔ s.Sound kp :=
  Iff.rfl
@[simp] theorem State.sound_keyWord (s : State) (n : Nat) (w : Word) :
    (s.keyWord n w).Sound kp ↔ s.Sound kp :=
  Iff.rfl
@[simp] theorem sound_execKeyInstall (n : Nat) (gen : BitVec 2) (ws : List Word) {s : State} (h : s.Sound kp) : Out.Sound kp
    (execKeyInstall n gen ws s) := by simp +contextual [execKeyInstall, h, State.sound_foldl]
@[simp] theorem sound_execKeyRetire (n : Nat) (gen : BitVec 2) {s : State} (h : s.Sound kp) : Out.Sound kp
    (execKeyRetire n gen s) :=
  (Out.sound_next _).mpr (by simp [h])
@[simp] theorem sound_execMgmtKeyInstall (n : Nat) (gen : BitVec 2) (ws : List Word) {s : State}
    (h : s.Sound kp) : Out.Sound kp (execMgmtKeyInstall n gen ws s) :=
  (Out.sound_next _).mpr h
end

end Sys2Proof.Machine
end
section
/-! PROOFS. What is kept of a state: copies, and the integer, floating-point and matrix instructions. -/
namespace Sys2Proof.Machine

section
variable {kp : Kept}

/-! ### What Dray.lean defines -/

@[simp] theorem State.sound_onCopy (s : State) (c : CopyId) (f : Copy → Copy) :
    (s.onCopy c f).Sound kp ↔ s.Sound kp :=
  Iff.rfl
@[simp] theorem State.sound_putCopy (s : State) (c : Copy) :
    (s.putCopy c).Sound kp ↔ s.Sound kp :=
  Iff.rfl
@[simp] theorem State.sound_drayAt {s : State} (c : Copy) (d : Nat) (ak : AK) (a : DWord) (n : Nat) (h : s.Sound kp) :
    (s.drayAt c d ak a n).2.Sound kp := by
  unfold State.drayAt
  dsimp only
  (repeat' split) <;> simp [h]
@[simp] theorem State.sound_drayRead {s : State} (c : Copy) (d : Nat) (a : DWord) (h : s.Sound kp) :
    (s.drayRead c d a).2.Sound kp := by
  unfold State.drayRead
  grind [State.sound_lostRead, State.sound_readNow, State.sound_drayAt]
@[simp] theorem State.sound_drayGather {s : State} (c : Copy) (d : Nat) (x0 : List (DWord × Feed)) (h : s.Sound kp) :
    (s.drayGather c d x0).2.2.Sound kp := by
  induction x0 generalizing s with
  | nil => unfold State.drayGather; grind
  | cons p r ih =>
    unfold State.drayGather
    grind [State.sound_drayRead]
@[simp] theorem State.sound_fillWords {s : State} (c : CopyId) (left : List Nat) (h : s.Sound kp) :
    (s.fillWords c left).Sound kp := by
  unfold State.fillWords
  grind [State.sound_setBit, State.sound_onCopy, State.sound_foldl]
@[simp] theorem State.sound_drayScatter {s : State} (c : Copy) (d : Nat) (x0 : List (DWord × List Byte)) (h : s.Sound kp) :
    (s.drayScatter c d x0).2.Sound kp := by
  induction x0 generalizing s with
  | nil => unfold State.drayScatter; grind
  | cons p r ih =>
    unfold State.drayScatter
    grind [State.sound_lostWrite, State.sound_writeNow, State.sound_drayAt]
@[simp] theorem State.sound_copyErr (s : State) (c : CopyId) (cause : Cause) (reason : BitVec 8) :
    (s.copyErr c cause reason).Sound kp ↔ s.Sound kp :=
  Iff.rfl
@[simp] theorem State.sound_drayPut {s : State} (c : Copy) (d : Nat) (bs : List (DWord × Byte)) (left : List Nat)
    (h : s.Sound kp) :
    (s.drayPut c d bs left).Sound kp := by
  unfold State.drayPut
  grind [State.sound_fillWords, State.sound_drayScatter, State.sound_copyErr]
@[simp] theorem State.sound_setPaths (s : State) (n : Nat) (vals : List Nat) :
    (s.setPaths n vals).Sound kp ↔ s.Sound kp := by simp [State.setPaths]
@[simp] theorem State.sound_selfPacket {s : State} (c : Copy) (slot : Nat) (tok : DWord) (bs : List (DWord × Byte))
    (h : s.Sound kp) :
    (s.selfPacket c slot tok bs).2.Sound kp := by simp [State.selfPacket, h]
@[simp] theorem State.sound_selfPackets {s : State} (c : Copy) (slot : Nat) (tok : DWord) (x0 : List (List (DWord × Byte)))
    (h : s.Sound kp) :
    (s.selfPackets c slot tok x0).Sound kp := by
  induction x0 generalizing s with
  | nil => unfold State.selfPackets; grind
  | cons p r ih =>
    unfold State.selfPackets
    grind [State.sound_copyErr, State.sound_selfPacket]
@[simp] theorem State.sound_selfFetch {s : State} (slot : Nat) (tok : DWord) (x0 : List (DWord × Nat)) (h : s.Sound kp) :
    (s.selfFetch slot tok x0).2.Sound kp := by
  induction x0 generalizing s with
  | nil => unfold State.selfFetch; grind
  | cons p r ih =>
    unfold State.selfFetch
    grind [State.sound_serve]
@[simp] theorem State.sound_selfFetches {s : State} (c : Copy) (d slot : Nat) (tok : DWord) (x0 : List (List (DWord × Feed)))
    (h : s.Sound kp) :
    (s.selfFetches c d slot tok x0).Sound kp := by
  induction x0 generalizing s with
  | nil => unfold State.selfFetches; grind
  | cons p r ih =>
    unfold State.selfFetches
    grind [State.sound_copyErr, State.sound_drayPut, State.sound_selfFetch]
@[simp] theorem State.sound_finishCopy {s : State} (id : CopyId) (state : Nat) (cause : Cause) (reason : Word) (h : s.Sound kp) :
    (s.finishCopy id state cause reason).Sound kp := by
  unfold State.finishCopy
  dsimp only
  split
  · exact h
  next c _ =>
    have h1 := State.sound_fillWords id [] h
    generalize hr : State.bumpIf _ _ _ _ _ _ = r
    have h2 : r.Sound kp := by
      rw [← hr]
      refine State.sound_bumpIf _ _ _ _ _ ?_
      grind [State.sound_bumpIf, State.sound_send, State.sound_onCopy, State.sound_mk, State.sound_fold]
    split
    · split <;> simp [h2]
    · split <;> simp [h2]
@[simp] theorem State.sound_issueCopy {s : State} (c : Copy) (h : s.Sound kp) :
    (s.issueCopy c).Sound kp := by
  unfold State.issueCopy
  grind [State.sound_onLane, State.sound_setBit, State.sound_putCopy, State.sound_finishCopy, State.sound_foldl]
@[simp] theorem State.sound_copyDone (s : State) (o : CopyOp) (pair2 : Bool) (h : Word) :
    (s.copyDone o pair2 h).Sound kp ↔ s.Sound kp :=
  Iff.rfl
@[simp] theorem State.sound_rangeCopy {s : State} (o : CopyOp) (fill : Bool) (h : s.Sound kp) :
    (s.rangeCopy o fill).Sound kp := by
  unfold State.rangeCopy
  dsimp only
  (repeat' split) <;> simp [h]
@[simp] theorem sound_execDcopy (o : CopyOp) {s : State} (h : s.Sound kp) : Out.Sound kp (execDcopy o s) :=
  (Out.sound_next _).mpr (by simp [h])
@[simp] theorem sound_execDfill (o : CopyOp) {s : State} (h : s.Sound kp) : Out.Sound kp (execDfill o s) :=
  (Out.sound_next _).mpr (by simp [h])
@[simp] theorem State.sound_originBlock {s : State} (low : Stream) (a : DWord) (x0 : List Nat) (h : s.Sound kp) :
    (s.originBlock low a x0).2.Sound kp := by
  induction x0 generalizing s with
  | nil => unfold State.originBlock; grind
  | cons p r ih =>
    unfold State.originBlock
    grind [State.sound_touch, State.sound_tryBytes]
@[simp] theorem State.sound_fetchBlock (s : State) (low : Stream) (a : DWord) :
    (s.fetchBlock low a).Sound kp ↔ s.Sound kp := by
  simp [State.fetchBlock, State.sound_foldl_iff]
@[simp] theorem State.sound_rejectCopy {s : State} (c : Copy) (w : Word) (h : s.Sound kp) :
    (s.rejectCopy c w).Sound kp := by simp [State.rejectCopy, h]
@[simp] theorem State.sound_tensorCopy {s : State} (o : CopyOp) (h : s.Sound kp) :
    (s.tensorCopy o).Sound kp := by
  unfold State.tensorCopy
  split
  · simp [h]
  next low _ =>
    dsimp only
    split
    · simp [h]
    · split
      · simp [h]
      · split
        · simp [h]
        · have h1 := State.sound_originBlock low (low.rd64 o.x) (List.range 16) h
          split
          next e => split <;> simp [h1.snd e]
          next e => simp [h1.snd e]
          next s1 e =>
            have h2 := Chk.keeps_readMap (fn := (s.team low.id.tcx).fn) (asid := (s.team low.id.tcx).recd.asid)
              (a := s1.recordAddr low (low.rd64 o.s2)) s1 (h1.snd e)
            split
            next sm s2 e2 =>
              have h3 := Chk.keeps_readMap (fn := (s.team low.id.tcx).fn) (asid := (s.team low.id.tcx).recd.asid)
                (a := s2.recordAddr low (low.rd64 o.s1)) s2 (h2.snd e2)
              split
              next dm s3 e3 =>
                have h4 := h3.snd e3
                split
                · simp [h4]
                · split
                  · simp [h4]
                  · split
                    · simp [h4]
                    · have h5 := Chk.keeps_checkMaps (src := sm) (dst := dm) s3 h4
                      split
                      next e5 => simp [h5.snd e5]
                      next e5 => split <;> simp [h5.snd e5]
@[simp] theorem sound_execTcopy (o : CopyOp) {s : State} (h : s.Sound kp) : Out.Sound kp (execTcopy o s) :=
  (Out.sound_next _).mpr (by simp [h])
@[simp] theorem State.sound_cancelCopy (s : State) (id : CopyId) :
    (s.cancelCopy id).Sound kp ↔ s.Sound kp := by
  unfold State.cancelCopy
  (repeat' split) <;> simp
@[simp] theorem sound_execDstat (o : Alu1) {s : State} (h : s.Sound kp) : Out.Sound kp (execDstat o s) := by
  unfold execDstat
  (repeat' split) <;> simp [h]
@[simp] theorem sound_execDcancel (o : Alu1) {s : State} (h : s.Sound kp) : Out.Sound kp (execDcancel o s) := by
  unfold execDcancel
  dsimp only
  (repeat' split) <;> simp [h]
@[simp] theorem State.sound_moveSome {s : State} (c : Copy) (d n : Nat) (h : s.Sound kp) :
    (s.moveSome c d n).Sound kp := by
  unfold State.moveSome
  dsimp only
  split <;> simp [h]
@[simp] theorem State.sound_throughCxl {s : State} (c : Copy) (d n : Nat) (ms : List (DWord × Feed)) (k : State → State) (hk :
    (k s).Sound kp)
    (h : s.Sound kp) :
    (s.throughCxl c d n ms k).Sound kp := by
  unfold State.throughCxl
  split
  · exact hk
  · split <;> simp [h]
@[simp] theorem State.sound_moveOn {s : State} (c : Copy) (d n : Nat) (h : s.Sound kp) :
    (s.moveOn c d n).Sound kp := by simp [State.moveOn, h]
@[simp] theorem State.sound_packetOut {s : State} (c : Copy) (d : Nat) (dest : Dest) (h : s.Sound kp) :
    (s.packetOut c d dest).Sound kp := by
  unfold State.packetOut
  dsimp only
  (repeat' split) <;> simp [h]
@[simp] theorem State.sound_sendPacket {s : State} (c : Copy) (d : Nat) (dest : Dest) (h : s.Sound kp) :
    (s.sendPacket c d dest).Sound kp := by simp [State.sendPacket, h]
@[simp] theorem State.sound_burst {s : State} (id : CopyId) (n : Nat) (h : s.Sound kp) :
    (s.burst id n).Sound kp := by
  unfold State.burst
  (repeat' split) <;> simp [h]
@[simp] theorem State.sound_startRanked {s : State} (c : Copy) (d : Nat) (h : s.Sound kp) :
    (s.startRanked c d).Sound kp := by
  unfold State.startRanked
  dsimp only
  (repeat' split) <;> simp [h]
@[simp] theorem State.sound_moveRanked {s : State} (c : Copy) (d : Nat) (h : s.Sound kp) :
    (s.moveRanked c d).Sound kp := by simp [State.moveRanked, h]
@[simp] theorem sound_execCopyStart (id : CopyId) (dray : Nat) {s : State} (h : s.Sound kp) : Out.Sound kp
    (execCopyStart id dray s) := by
  unfold execCopyStart
  (repeat' split) <;> simp [h]
@[simp] theorem State.sound_loseCopies {s : State} (h : s.Sound kp) :
    (s.loseCopies).Sound kp := by
  unfold State.loseCopies
  grind [State.sound_burst, State.sound_foldl]
@[simp] theorem State.sound_writeAnswer {s : State} (c : Copy) (index : Nat) (data : List Byte) (h : s.Sound kp) :
    (s.writeAnswer c index data).Sound kp := by simp [State.writeAnswer, h]
@[simp] theorem State.sound_placeAnswer {s : State} (c : Copy) (index : Nat) (data : List Byte) (h : s.Sound kp) :
    (s.placeAnswer c index data).Sound kp := by simp [State.placeAnswer, h]
@[simp] theorem sound_execPacketAck (id : CopyId) (index : Nat) (data : List Byte) {s : State} (h : s.Sound kp) : Out.Sound kp
    (execPacketAck id index data s) := by
  unfold execPacketAck
  (repeat' split) <;> simp [h]
@[simp] theorem State.sound_copyAnswered {s : State} (op : Nat) (h : s.Sound kp) :
    (s.copyAnswered op).Sound kp := by
  unfold State.copyAnswered
  (repeat' split) <;> simp [h]
@[simp] theorem sound_execPacketNack (id : CopyId) (index : Nat) (reason : BitVec 8) {s : State}
    (h : s.Sound kp) : Out.Sound kp (execPacketNack id index reason s) := by
  unfold execPacketNack
  (repeat' split) <;> simp [h]
@[simp] theorem sound_execPacketRetransmit (id : CopyId) (index : Nat) {s : State} (h : s.Sound kp) : Out.Sound kp
    (execPacketRetransmit id index s) := by
  unfold execPacketRetransmit
  (repeat' split) <;> simp [h]
@[simp] theorem sound_execCopyTimeout (id : CopyId) (index : Nat) {s : State} (h : s.Sound kp) : Out.Sound kp
    (execCopyTimeout id index s) := by
  unfold execCopyTimeout
  (repeat' split) <;> simp [h]
@[simp] theorem sound_execCopyFinal (id : CopyId) {s : State} (h : s.Sound kp) : Out.Sound kp (execCopyFinal id s) := by
  unfold execCopyFinal
  dsimp only
  (repeat' split) <;> simp [h]
@[simp] theorem sound_execCancelConfirm (id : CopyId) {s : State} (h : s.Sound kp) : Out.Sound kp (execCancelConfirm id s) :=
  (Out.sound_next _).mpr h
@[simp] theorem sound_execCancelTimeout (id : CopyId) {s : State} (h : s.Sound kp) : Out.Sound kp (execCancelTimeout id s) := by
  unfold execCancelTimeout
  (repeat' split) <;> simp [h]

/-! ### What Integer.lean defines -/

@[simp] theorem sound_execNop (g : Guard) {s : State} (h : s.Sound kp) : Out.Sound kp (execNop g s) :=
  (Out.sound_next _).mpr h
@[simp] theorem sound_execIadd (o : Alu2) {s : State} (h : s.Sound kp) : Out.Sound kp (execIadd o s) :=
  (Out.sound_next _).mpr ((State.sound_binary ..).mpr h)
@[simp] theorem sound_execIsub (o : Alu2) {s : State} (h : s.Sound kp) : Out.Sound kp (execIsub o s) :=
  (Out.sound_next _).mpr ((State.sound_binary ..).mpr h)
@[simp] theorem sound_execImul (o : Alu2) {s : State} (h : s.Sound kp) : Out.Sound kp (execImul o s) :=
  (Out.sound_next _).mpr ((State.sound_binary ..).mpr h)
@[simp] theorem sound_execImulh (o : Alu2) {s : State} (h : s.Sound kp) : Out.Sound kp (execImulh o s) :=
  (Out.sound_next _).mpr ((State.sound_binary ..).mpr h)
@[simp] theorem sound_execImulhu (o : Alu2) {s : State} (h : s.Sound kp) : Out.Sound kp (execImulhu o s) :=
  (Out.sound_next _).mpr ((State.sound_binary ..).mpr h)
@[simp] theorem sound_execImad (o : Alu3) {s : State} (h : s.Sound kp) : Out.Sound kp (execImad o s) :=
  (Out.sound_next _).mpr ((State.sound_ternary ..).mpr h)
@[simp] theorem sound_execIdivs (o : Alu2) {s : State} (h : s.Sound kp) : Out.Sound kp (execIdivs o s) :=
  (Out.sound_next _).mpr ((State.sound_binary ..).mpr h)
@[simp] theorem sound_execIdivu (o : Alu2) {s : State} (h : s.Sound kp) : Out.Sound kp (execIdivu o s) :=
  (Out.sound_next _).mpr ((State.sound_binary ..).mpr h)
@[simp] theorem sound_execIrem (o : Alu2) (u : Bool) {s : State} (h : s.Sound kp) : Out.Sound kp (execIrem o u s) :=
  (Out.sound_next _).mpr ((State.sound_binary ..).mpr h)
@[simp] theorem sound_execAdd64 (o : Alu2) {s : State} (h : s.Sound kp) : Out.Sound kp (execAdd64 o s) :=
  (Out.sound_next _).mpr ((State.sound_wide ..).mpr h)
@[simp] theorem sound_execSub64 (o : Alu2) {s : State} (h : s.Sound kp) : Out.Sound kp (execSub64 o s) :=
  (Out.sound_next _).mpr ((State.sound_wide ..).mpr h)
@[simp] theorem sound_execMul64 (o : Alu2) {s : State} (h : s.Sound kp) : Out.Sound kp (execMul64 o s) :=
  (Out.sound_next _).mpr ((State.sound_wide ..).mpr h)
@[simp] theorem sound_execImin (o : Alu2) {s : State} (h : s.Sound kp) : Out.Sound kp (execImin o s) :=
  (Out.sound_next _).mpr ((State.sound_binary ..).mpr h)
@[simp] theorem sound_execImax (o : Alu2) {s : State} (h : s.Sound kp) : Out.Sound kp (execImax o s) :=
  (Out.sound_next _).mpr ((State.sound_binary ..).mpr h)
@[simp] theorem sound_execUmin (o : Alu2) {s : State} (h : s.Sound kp) : Out.Sound kp (execUmin o s) :=
  (Out.sound_next _).mpr ((State.sound_binary ..).mpr h)
@[simp] theorem sound_execUmax (o : Alu2) {s : State} (h : s.Sound kp) : Out.Sound kp (execUmax o s) :=
  (Out.sound_next _).mpr ((State.sound_binary ..).mpr h)
@[simp] theorem sound_execIabs (o : Alu1) (sat : Bool) {s : State} (h : s.Sound kp) : Out.Sound kp (execIabs o sat s) :=
  (Out.sound_next _).mpr ((State.sound_unary ..).mpr h)
@[simp] theorem sound_execIneg (o : Alu1) (sat : Bool) {s : State} (h : s.Sound kp) : Out.Sound kp (execIneg o sat s) :=
  (Out.sound_next _).mpr ((State.sound_unary ..).mpr h)
@[simp] theorem sound_execIadds (o : Alu2) (u : Bool) {s : State} (h : s.Sound kp) : Out.Sound kp (execIadds o u s) :=
  (Out.sound_next _).mpr ((State.sound_binary ..).mpr h)
@[simp] theorem sound_execIsubs (o : Alu2) (u : Bool) {s : State} (h : s.Sound kp) : Out.Sound kp (execIsubs o u s) :=
  (Out.sound_next _).mpr ((State.sound_binary ..).mpr h)
@[simp] theorem sound_execIsad (o : Alu3) (u : Bool) {s : State} (h : s.Sound kp) : Out.Sound kp (execIsad o u s) :=
  (Out.sound_next _).mpr ((State.sound_ternary ..).mpr h)
@[simp] theorem sound_execAnd (o : Alu2) {s : State} (h : s.Sound kp) : Out.Sound kp (execAnd o s) :=
  (Out.sound_next _).mpr ((State.sound_binary ..).mpr h)
@[simp] theorem sound_execOr (o : Alu2) {s : State} (h : s.Sound kp) : Out.Sound kp (execOr o s) :=
  (Out.sound_next _).mpr ((State.sound_binary ..).mpr h)
@[simp] theorem sound_execXor (o : Alu2) {s : State} (h : s.Sound kp) : Out.Sound kp (execXor o s) :=
  (Out.sound_next _).mpr ((State.sound_binary ..).mpr h)
@[simp] theorem sound_execAndn (o : Alu2) {s : State} (h : s.Sound kp) : Out.Sound kp (execAndn o s) :=
  (Out.sound_next _).mpr ((State.sound_binary ..).mpr h)
@[simp] theorem sound_execNot (o : Alu1) {s : State} (h : s.Sound kp) : Out.Sound kp (execNot o s) :=
  (Out.sound_next _).mpr ((State.sound_unary ..).mpr h)
@[simp] theorem sound_execLop3 (o : Alu3) (tt : BitVec 8) {s : State} (h : s.Sound kp) : Out.Sound kp (execLop3 o tt s) :=
  (Out.sound_next _).mpr ((State.sound_ternary ..).mpr h)
@[simp] theorem sound_execShl (o : Alu2) {s : State} (h : s.Sound kp) : Out.Sound kp (execShl o s) :=
  (Out.sound_next _).mpr ((State.sound_binary ..).mpr h)
@[simp] theorem sound_execShr (o : Alu2) {s : State} (h : s.Sound kp) : Out.Sound kp (execShr o s) :=
  (Out.sound_next _).mpr ((State.sound_binary ..).mpr h)
@[simp] theorem sound_execSar (o : Alu2) {s : State} (h : s.Sound kp) : Out.Sound kp (execSar o s) :=
  (Out.sound_next _).mpr ((State.sound_binary ..).mpr h)
@[simp] theorem sound_execRol (o : Alu2) {s : State} (h : s.Sound kp) : Out.Sound kp (execRol o s) :=
  (Out.sound_next _).mpr ((State.sound_binary ..).mpr h)
@[simp] theorem sound_execShf (o : Alu3) (f : Fill) {s : State} (h : s.Sound kp) : Out.Sound kp (execShf o f s) :=
  (Out.sound_next _).mpr ((State.sound_ternary ..).mpr h)
@[simp] theorem sound_execShl64 (o : Alu2) {s : State} (h : s.Sound kp) : Out.Sound kp (execShl64 o s) :=
  (Out.sound_next _).mpr ((State.sound_wideCount ..).mpr h)
@[simp] theorem sound_execShr64 (o : Alu2) (ar : Bool) {s : State} (h : s.Sound kp) : Out.Sound kp (execShr64 o ar s) :=
  (Out.sound_next _).mpr ((State.sound_wideCount ..).mpr h)
@[simp] theorem sound_execBfe (o : Alu2) (sx : Bool) {s : State} (h : s.Sound kp) : Out.Sound kp (execBfe o sx s) :=
  (Out.sound_next _).mpr ((State.sound_binary ..).mpr h)
@[simp] theorem sound_execBfi (o : Alu3) {s : State} (h : s.Sound kp) : Out.Sound kp (execBfi o s) :=
  (Out.sound_next _).mpr ((State.sound_ternary ..).mpr h)
@[simp] theorem sound_execPopc (o : Alu1) {s : State} (h : s.Sound kp) : Out.Sound kp (execPopc o s) :=
  (Out.sound_next _).mpr ((State.sound_unary ..).mpr h)
@[simp] theorem sound_execClz (o : Alu1) {s : State} (h : s.Sound kp) : Out.Sound kp (execClz o s) :=
  (Out.sound_next _).mpr ((State.sound_unary ..).mpr h)
@[simp] theorem sound_execCtz (o : Alu1) {s : State} (h : s.Sound kp) : Out.Sound kp (execCtz o s) :=
  (Out.sound_next _).mpr ((State.sound_unary ..).mpr h)
@[simp] theorem sound_execBrev (o : Alu1) {s : State} (h : s.Sound kp) : Out.Sound kp (execBrev o s) :=
  (Out.sound_next _).mpr ((State.sound_unary ..).mpr h)
@[simp] theorem sound_execPrmt (o : AluR) (sl : BitVec 12) (z : BitVec 4) {s : State} (h : s.Sound kp) : Out.Sound kp
    (execPrmt o sl z s) :=
  (Out.sound_next _).mpr ((State.sound_binaryR ..).mpr h)
@[simp] theorem sound_execSel (o : Alu3) {s : State} (h : s.Sound kp) : Out.Sound kp (execSel o s) :=
  (Out.sound_next _).mpr ((State.sound_ternary ..).mpr h)
@[simp] theorem sound_execIcmp (o : AluR) (c : ICond) (u : Bool) {s : State} (h : s.Sound kp) : Out.Sound kp (execIcmp o c u s) :=
  (Out.sound_next _).mpr ((State.sound_binaryR ..).mpr h)
@[simp] theorem sound_execIcmp64 (o : AluR) (c : ICond) (u : Bool) {s : State} (h : s.Sound kp) : Out.Sound kp
    (execIcmp64 o c u s) :=
  (Out.sound_next _).mpr ((State.sound_alu ..).mpr h)
@[simp] theorem sound_execMov (g : Guard) (d : Reg) (src : Opnd) {s : State} (h : s.Sound kp) : Out.Sound kp
    (execMov g d src s) :=
  (Out.sound_next _).mpr ((State.sound_alu ..).mpr h)
@[simp] theorem sound_execLih (g : Guard) (d : Reg) (imm : BitVec 16) {s : State} (h : s.Sound kp) : Out.Sound kp
    (execLih g d imm s) :=
  (Out.sound_next _).mpr ((State.sound_alu ..).mpr h)
@[simp] theorem State.sound_runTime {s : State} (g : Guard) (base : BitVec 8) (r : Reg) (go : Unit → State) (hg : (go
    ()).Sound kp) (h : s.Sound kp) :
    (s.runTime g base r go).Sound kp := by
  unfold State.runTime
  dsimp only
  split
  · split
    · simp [h]
    · split
      · simp [h]
      · split
        · simp [h]
        · split
          · simp [h]
          · split
            · simp [h]
            · exact hg
  · split
    · simp [h]
    · split
      · simp [h]
      · exact hg
@[simp] theorem sound_execMovri (o : Alu1) (base : BitVec 8) {s : State} (h : s.Sound kp) : Out.Sound kp (execMovri o base s) :=
  (Out.sound_next _).mpr (by simp [h])
@[simp] theorem sound_execMovwi (g : Guard) (s1 : Reg) (k1 : Bool) (s2 : Reg) (k2 : Bool) (base : BitVec 8) {s : State}
    (h : s.Sound kp) : Out.Sound kp (execMovwi g s1 k1 s2 k2 base s) := by
  unfold execMovwi
  rw [Out.sound_next]
  refine State.sound_runTime _ _ _ _ ?_ h
  split
  · dsimp only
    split
    · simp [h]
    · split
      · simp [h]
      next e => simp [(State.sound_popSrcs _ _ _ _ e).mpr h]
  · simp [h]
@[simp] theorem sound_execLea64 (o : Alu2) (sh : BitVec 3) (sx : Bool) {s : State} (h : s.Sound kp) : Out.Sound kp
    (execLea64 o sh sx s) := by
  unfold execLea64
  (repeat' split) <;> simp [h]
@[simp] theorem sound_execIdot4 (o : Alu3) (au bu : Bool) {s : State} (h : s.Sound kp) : Out.Sound kp (execIdot4 o au bu s) :=
  (Out.sound_next _).mpr ((State.sound_ternary ..).mpr h)
@[simp] theorem sound_execIdot2 (o : Alu3) (au bu : Bool) {s : State} (h : s.Sound kp) : Out.Sound kp (execIdot2 o au bu s) :=
  (Out.sound_next _).mpr ((State.sound_ternary ..).mpr h)

/-! ### What FloatInstr.lean defines -/

@[simp] theorem State.sound_binaryF (s : State) (o : Alu2) (f : Word → Word → Word) :
    (s.binaryF o f).Sound kp ↔ s.Sound kp := by simp [State.binaryF]
@[simp] theorem sound_execFadd (o : Alu2) (m : FMod) {s : State} (h : s.Sound kp) : Out.Sound kp (execFadd o m s) :=
  (Out.sound_next _).mpr ((State.sound_binaryF ..).mpr h)
@[simp] theorem sound_execFsub (o : Alu2) (m : FMod) {s : State} (h : s.Sound kp) : Out.Sound kp (execFsub o m s) :=
  (Out.sound_next _).mpr ((State.sound_binaryF ..).mpr h)
@[simp] theorem sound_execFmul (o : Alu2) (m : FMod) {s : State} (h : s.Sound kp) : Out.Sound kp (execFmul o m s) :=
  (Out.sound_next _).mpr ((State.sound_binaryF ..).mpr h)
@[simp] theorem sound_execFdiv (o : Alu2) (m : FMod) {s : State} (h : s.Sound kp) : Out.Sound kp (execFdiv o m s) :=
  (Out.sound_next _).mpr ((State.sound_binaryF ..).mpr h)
@[simp] theorem sound_execFfma (o : Alu3) (m : FMod) {s : State} (h : s.Sound kp) : Out.Sound kp (execFfma o m s) :=
  (Out.sound_next _).mpr ((State.sound_ternary ..).mpr h)
@[simp] theorem sound_execFfms (o : Alu3) (m : FMod) {s : State} (h : s.Sound kp) : Out.Sound kp (execFfms o m s) :=
  (Out.sound_next _).mpr ((State.sound_ternary ..).mpr h)
@[simp] theorem sound_execFnma (o : Alu3) (m : FMod) {s : State} (h : s.Sound kp) : Out.Sound kp (execFnma o m s) :=
  (Out.sound_next _).mpr ((State.sound_ternary ..).mpr h)
@[simp] theorem sound_execFmin (o : Alu2) (ftz : Bool) {s : State} (h : s.Sound kp) : Out.Sound kp (execFmin o ftz s) :=
  (Out.sound_next _).mpr ((State.sound_binaryF ..).mpr h)
@[simp] theorem sound_execFmax (o : Alu2) (ftz : Bool) {s : State} (h : s.Sound kp) : Out.Sound kp (execFmax o ftz s) :=
  (Out.sound_next _).mpr ((State.sound_binaryF ..).mpr h)
@[simp] theorem sound_execFclamp (o : Alu3) (ftz : Bool) {s : State} (h : s.Sound kp) : Out.Sound kp (execFclamp o ftz s) :=
  (Out.sound_next _).mpr ((State.sound_ternary ..).mpr h)
@[simp] theorem sound_execFcmp (o : AluR) (c : FCond) (ftz : Bool) {s : State} (h : s.Sound kp) : Out.Sound kp
    (execFcmp o c ftz s) :=
  (Out.sound_next _).mpr ((State.sound_binaryR ..).mpr h)
@[simp] theorem sound_execFsgn (o : AluR) (op : SgnOp) {s : State} (h : s.Sound kp) : Out.Sound kp (execFsgn o op s) :=
  (Out.sound_next _).mpr ((State.sound_binaryR ..).mpr h)
@[simp] theorem sound_execFrcp (o : Alu1) (m : FMod) {s : State} (h : s.Sound kp) : Out.Sound kp (execFrcp o m s) :=
  (Out.sound_next _).mpr ((State.sound_unary ..).mpr h)
@[simp] theorem sound_execFrsq (o : Alu1) (m : FMod) {s : State} (h : s.Sound kp) : Out.Sound kp (execFrsq o m s) :=
  (Out.sound_next _).mpr ((State.sound_unary ..).mpr h)
@[simp] theorem sound_execFsqrt (o : Alu1) (m : FMod) {s : State} (h : s.Sound kp) : Out.Sound kp (execFsqrt o m s) :=
  (Out.sound_next _).mpr ((State.sound_unary ..).mpr h)
@[simp] theorem sound_execFexp2 (o : Alu1) (ftz : Bool) {s : State} (h : s.Sound kp) : Out.Sound kp (execFexp2 o ftz s) :=
  (Out.sound_next _).mpr ((State.sound_unary ..).mpr h)
@[simp] theorem sound_execFlog2 (o : Alu1) (ftz : Bool) {s : State} (h : s.Sound kp) : Out.Sound kp (execFlog2 o ftz s) :=
  (Out.sound_next _).mpr ((State.sound_unary ..).mpr h)
@[simp] theorem sound_execFsin (o : Alu1) (ftz : Bool) {s : State} (h : s.Sound kp) : Out.Sound kp (execFsin o ftz s) :=
  (Out.sound_next _).mpr ((State.sound_unary ..).mpr h)
@[simp] theorem sound_execFcos (o : Alu1) (ftz : Bool) {s : State} (h : s.Sound kp) : Out.Sound kp (execFcos o ftz s) :=
  (Out.sound_next _).mpr ((State.sound_unary ..).mpr h)
@[simp] theorem sound_execFrnd (o : Alu1) (m : FMod) {s : State} (h : s.Sound kp) : Out.Sound kp (execFrnd o m s) :=
  (Out.sound_next _).mpr ((State.sound_unary ..).mpr h)
@[simp] theorem sound_execFclass (o : Alu1) {s : State} (h : s.Sound kp) : Out.Sound kp (execFclass o s) :=
  (Out.sound_next _).mpr ((State.sound_unary ..).mpr h)
@[simp] theorem sound_execFscale (o : Alu2) (m : FMod) {s : State} (h : s.Sound kp) : Out.Sound kp (execFscale o m s) :=
  (Out.sound_next _).mpr ((State.sound_binary ..).mpr h)
@[simp] theorem sound_execFexd (o : AluR) {s : State} (h : s.Sound kp) : Out.Sound kp (execFexd o s) :=
  (Out.sound_next _).mpr ((State.sound_binaryR ..).mpr h)
@[simp] theorem sound_execHadd2 (o : AluR) (h : Bool) (m : FMod) {s : State} (hs : s.Sound kp) : Out.Sound kp
    (execHadd2 o h m s) :=
  (Out.sound_next _).mpr ((State.sound_binaryR ..).mpr hs)
@[simp] theorem sound_execHmul2 (o : AluR) (h : Bool) (m : FMod) {s : State} (hs : s.Sound kp) : Out.Sound kp
    (execHmul2 o h m s) :=
  (Out.sound_next _).mpr ((State.sound_binaryR ..).mpr hs)
@[simp] theorem sound_execHfma2 (o : Alu3) (h : Bool) (m : FMod) {s : State} (hs : s.Sound kp) : Out.Sound kp
    (execHfma2 o h m s) :=
  (Out.sound_next _).mpr ((State.sound_ternary ..).mpr hs)
@[simp] theorem sound_execHmin2 (o : AluR) (h ftz : Bool) {s : State} (hs : s.Sound kp) : Out.Sound kp (execHmin2 o h ftz s) :=
  (Out.sound_next _).mpr ((State.sound_binaryR ..).mpr hs)
@[simp] theorem sound_execHmax2 (o : AluR) (h ftz : Bool) {s : State} (hs : s.Sound kp) : Out.Sound kp (execHmax2 o h ftz s) :=
  (Out.sound_next _).mpr ((State.sound_binaryR ..).mpr hs)
@[simp] theorem sound_execHcmp2 (o : AluR) (h : Bool) (c : FCond) (ftz : Bool) {s : State} (hs : s.Sound kp) : Out.Sound kp
    (execHcmp2 o h c ftz s) :=
  (Out.sound_next _).mpr ((State.sound_binaryR ..).mpr hs)
@[simp] theorem sound_execHdot2 (o : Alu3) (h : Bool) (m : FMod) {s : State} (hs : s.Sound kp) : Out.Sound kp
    (execHdot2 o h m s) :=
  (Out.sound_next _).mpr ((State.sound_ternary ..).mpr hs)
@[simp] theorem State.sound_pair2 (s : State) (o : AluR) (f : Nat → Nat → Nat) :
    (s.pair2 o f).Sound kp ↔ s.Sound kp :=
  Iff.rfl
@[simp] theorem sound_execDadd (o : AluR) (m : FMod) {s : State} (h : s.Sound kp) : Out.Sound kp (execDadd o m s) :=
  (Out.sound_next _).mpr h
@[simp] theorem sound_execDmul (o : AluR) (m : FMod) {s : State} (h : s.Sound kp) : Out.Sound kp (execDmul o m s) :=
  (Out.sound_next _).mpr h
@[simp] theorem sound_execDfma (o : Alu3) (m : FMod) {s : State} (h : s.Sound kp) : Out.Sound kp (execDfma o m s) :=
  (Out.sound_next _).mpr h
@[simp] theorem sound_execF2i (o : Alu1) (t : IType) (m : Rnd) {s : State} (h : s.Sound kp) : Out.Sound kp (execF2i o t m s) :=
  (Out.sound_next _).mpr ((State.sound_alu ..).mpr h)
@[simp] theorem sound_execI2f (o : Alu1) (t : IType) (m : Rnd) {s : State} (h : s.Sound kp) : Out.Sound kp (execI2f o t m s) :=
  (Out.sound_next _).mpr ((State.sound_alu ..).mpr h)
@[simp] theorem sound_execI2h2 (o : AluR) (sat h u : Bool) (m : Rnd) {s : State} (hs : s.Sound kp) : Out.Sound kp
    (execI2h2 o sat h u m s) :=
  (Out.sound_next _).mpr ((State.sound_binaryR ..).mpr hs)
@[simp] theorem sound_execDcvt (o : Alu1) (dir : CvtDir) (m : FMod) {s : State} (h : s.Sound kp) : Out.Sound kp
    (execDcvt o dir m s) :=
  (Out.sound_next _).mpr ((State.sound_alu ..).mpr h)
@[simp] theorem sound_execFpack (o : AluR) (slot pos : BitVec 3) {s : State} (h : s.Sound kp) : Out.Sound kp
    (execFpack o slot pos s) :=
  (Out.sound_next _).mpr (by simp [h])
@[simp] theorem sound_execFunpk (o : Alu1) (slot pos : BitVec 3) (side : Bool) {s : State} (h : s.Sound kp) : Out.Sound kp
    (execFunpk o slot pos side s) :=
  (Out.sound_next _).mpr (by simp [h])
@[simp] theorem sound_execQ8pack (o : Alu3) (slot pos : BitVec 3) {s : State} (h : s.Sound kp) : Out.Sound kp
    (execQ8pack o slot pos s) :=
  (Out.sound_next _).mpr (by simp [h])
@[simp] theorem sound_execQ8unpk (o : AluR) (slot pos : BitVec 3) (side : Bool) {s : State} (h : s.Sound kp) : Out.Sound kp
    (execQ8unpk o slot pos side s) :=
  (Out.sound_next _).mpr (by simp [h])
@[simp] theorem sound_execDsenc (o : Alu1) (pos : BitVec 3) (ss4 : Bool) {s : State} (h : s.Sound kp) : Out.Sound kp
    (execDsenc o pos ss4 s) :=
  (Out.sound_next _).mpr ((State.sound_alu ..).mpr h)
@[simp] theorem sound_execDsdec (o : Alu1) (pos : BitVec 3) (ss4 : Bool) {s : State} (h : s.Sound kp) : Out.Sound kp
    (execDsdec o pos ss4 s) :=
  (Out.sound_next _).mpr ((State.sound_unary ..).mpr h)
@[simp] theorem sound_execScfit (o : Alu2) {s : State} (h : s.Sound kp) : Out.Sound kp (execScfit o s) :=
  (Out.sound_next _).mpr ((State.sound_binaryF ..).mpr h)
@[simp] theorem sound_execScmul (o : AluR) (inv : Bool) (m : FMod) {s : State} (h : s.Sound kp) : Out.Sound kp
    (execScmul o inv m s) :=
  (Out.sound_next _).mpr ((State.sound_binaryR ..).mpr h)
@[simp] theorem sound_execAtmrg (o : Alu3) (mx : Bool) {s : State} (h : s.Sound kp) : Out.Sound kp (execAtmrg o mx s) :=
  (Out.sound_next _).mpr ((State.sound_alu ..).mpr h)
@[simp] theorem sound_execPairWord (a b : PHalf) {s : State} (h : s.Sound kp) : Out.Sound kp (execPairWord a b s) :=
  (Out.sound_next _).mpr h

/-! ### What Matrix.lean defines -/

@[simp] theorem State.sound_onMat (s : State) (tcx : Nat) (f : Mat → Mat) :
    (s.onMat tcx f).Sound kp ↔ s.Sound kp :=
  Iff.rfl
@[simp] theorem State.sound_setTile (s : State) (cluster t : Nat) (ws : List (Nat × Word)) :
    (s.setTile cluster t ws).Sound kp ↔ s.Sound kp :=
  Iff.rfl
@[simp] theorem State.sound_touchRows {s : State} (st : Stream) (ak : AK) (rs : List (List (DWord × Loc × Nat)))
    (h : s.Sound kp) :
    (s.touchRows st ak rs).Sound kp := by
  unfold State.touchRows
  grind [State.sound_touch, State.sound_foldl]
@[simp] theorem State.sound_enterTileOp (s : State) (o : TileOp) :
    (s.enterTileOp o).Sound kp ↔ s.Sound kp :=
  Iff.rfl
@[simp] theorem State.sound_tileIssue {s : State} (g : Guard) (f : Stream → Mat → State) (hf : ∀ st m, (f st m).Sound kp)
    (h : s.Sound kp) :
    (s.tileIssue g f).Sound kp := by
  unfold State.tileIssue
  split
  · simp [h]
  · split
    · simp [h]
    · exact hf _ _
@[simp] theorem sound_execMload (o : MatOp) {s : State} (h : s.Sound kp) : Out.Sound kp (execMload o s) := by
  unfold execMload
  refine (Out.sound_next _).mpr (State.sound_tileIssue _ _ (fun low m => ?_) h)
  dsimp only
  generalize (if ((low.rd o.s2).extractLsb' 0 8).toNat = 0 then 128 else ((low.rd o.s2).extractLsb' 0 8).toNat) = klen
  split
  · simp [h]
  · split <;> simp [h]
@[simp] theorem sound_execMswap (g : Guard) {s : State} (h : s.Sound kp) : Out.Sound kp (execMswap g s) :=
  (Out.sound_next _).mpr (by simp [h])
@[simp] theorem sound_execMmul (o : MatOp) {s : State} (h : s.Sound kp) : Out.Sound kp (execMmul o s) := by
  unfold execMmul
  refine (Out.sound_next _).mpr (State.sound_tileIssue _ _ (fun low m => ?_) h)
  dsimp only
  split
  · split
    · simp [h]
    · split
      · simp [h]
      · split <;> simp [h]
  · simp [h]
@[simp] theorem sound_execMnew (g : Guard) (tile : BitVec 3) {s : State} (h : s.Sound kp) : Out.Sound kp (execMnew g tile s) := by
  unfold execMnew
  refine (Out.sound_next _).mpr (State.sound_tileIssue _ _ (fun low m => ?_) h)
  dsimp only
  split
  · simp [h]
  · split <;> simp [h]
@[simp] theorem sound_execMrel (g : Guard) (tile : BitVec 3) {s : State} (h : s.Sound kp) : Out.Sound kp (execMrel g tile s) :=
  (Out.sound_next _).mpr (by simp [h])
@[simp] theorem sound_execMdrain (o : MatOp) {s : State} (h : s.Sound kp) : Out.Sound kp (execMdrain o s) := by
  unfold execMdrain
  refine (Out.sound_next _).mpr (State.sound_tileIssue _ _ (fun low m => ?_) h)
  dsimp only
  split
  · split
    · simp [h]
    · split <;> simp [h]
  · simp [h]
@[simp] theorem sound_execMzero (g : Guard) (s2 : Reg) (k2 : Bool) (tile : BitVec 3) {s : State}
    (h : s.Sound kp) : Out.Sound kp (execMzero g s2 k2 tile s) := by
  unfold execMzero
  refine (Out.sound_next _).mpr (State.sound_tileIssue _ _ (fun low m => ?_) h)
  split <;> simp [h]
@[simp] theorem State.sound_loadScales {s : State} (g : Guard) (s1 : Reg) (k1 : Bool) (slot : BitVec 3) (b : Bool)
    (h : s.Sound kp) :
    (s.loadScales g s1 k1 slot b).Sound kp := by
  unfold State.loadScales
  grind [State.sound_retireLanes, State.sound_trapLow, State.sound_failLane, State.sound_touchRows, State.sound_enterTileOp,
    State.sound_tileIssue]
@[simp] theorem sound_execMscA (g : Guard) (s1 : Reg) (k1 : Bool) (slot : BitVec 3) {s : State}
    (h : s.Sound kp) : Out.Sound kp (execMscA g s1 k1 slot s) :=
  (Out.sound_next _).mpr (by simp [h])
@[simp] theorem sound_execMscB (g : Guard) (s1 : Reg) (k1 : Bool) (slot : BitVec 3) {s : State}
    (h : s.Sound kp) : Out.Sound kp (execMscB g s1 k1 slot s) :=
  (Out.sound_next _).mpr (by simp [h])
@[simp] theorem sound_execMtld (g : Guard) (s1 : Reg) (k1 : Bool) (s2 : Reg) (k2 : Bool) (tile : BitVec 3) {s : State}
    (h : s.Sound kp) : Out.Sound kp (execMtld g s1 k1 s2 k2 tile s) := by
  unfold execMtld
  refine (Out.sound_next _).mpr (State.sound_tileIssue _ _ (fun low m => ?_) h)
  split
  · split <;> simp [h]
  · simp [h]
@[simp] theorem State.sound_dropOperands (s : State) (p : OpLine → Bool) :
    (s.dropOperands p).Sound kp ↔ s.Sound kp :=
  Iff.rfl
@[simp] theorem sound_execMfence (g : Guard) {s : State} (h : s.Sound kp) : Out.Sound kp (execMfence g s) := by
  unfold execMfence
  (repeat' split) <;> simp [h]
@[simp] theorem sound_execMcfg (g : Guard) (s1 : Reg) (k1 : Bool) (f : MField) {s : State} (h : s.Sound kp) : Out.Sound kp
    (execMcfg g s1 k1 f s) := by
  unfold execMcfg
  (repeat' split) <;> simp [h]
@[simp] theorem State.sound_readPiece {s : State} (sid : SId) (cluster : Nat) (l : Loc) (n : Nat) (h : s.Sound kp) :
    (s.readPiece sid cluster l n).2.Sound kp := by
  unfold State.readPiece
  (repeat' split) <;> simp [h]
@[simp] theorem State.sound_cacheOperand (s : State) (l : OpLine) :
    (s.cacheOperand l).Sound kp ↔ s.Sound kp :=
  Iff.rfl
@[simp] theorem State.sound_readCached {s : State} (sid : SId) (cluster : Nat) (a : DWord) (l : Loc) (n : Nat) (h : s.Sound kp) :
    (s.readCached sid cluster a l n).2.Sound kp := by
  unfold State.readCached
  dsimp only
  (repeat' split) <;> simp [h]
@[simp] theorem State.sound_readRow {s : State} (sid : SId) (cluster : Nat) (cached : Bool) (x0 : List (DWord × Loc × Nat))
    (h : s.Sound kp) :
    (s.readRow sid cluster cached x0).2.Sound kp := by
  induction x0 generalizing s with
  | nil => unfold State.readRow; grind
  | cons p r ih =>
    unfold State.readRow
    grind [State.sound_readPiece, State.sound_readCached]
@[simp] theorem State.sound_readRows {s : State} (sid : SId) (cluster : Nat) (cached : Bool) (x0 : List (List
    (DWord × Loc × Nat))) (h : s.Sound kp) :
    (s.readRows sid cluster cached x0).2.Sound kp := by
  induction x0 generalizing s with
  | nil => unfold State.readRows; grind
  | cons p r ih =>
    unfold State.readRows
    grind [State.sound_readRow]
@[simp] theorem State.sound_writePieces {s : State} (sid : SId) (cluster : Nat) (bs : List Byte) (x0 : List
    (DWord × Loc × Nat)) (h : s.Sound kp) :
    (s.writePieces sid cluster bs x0).Sound kp := by
  induction x0 generalizing s bs with
  | nil => exact h
  | cons p r ih =>
    obtain ⟨_, l, n⟩ := p
    refine ih _ ?_
    split
    · simp [h]
    · split <;> simp [h]
@[simp] theorem State.sound_writeRows {s : State} (sid : SId) (cluster : Nat) (x0 : List (List Byte)) (x1 : List (List
    (DWord × Loc × Nat))) (h : s.Sound kp) :
    (s.writeRows sid cluster x0 x1).Sound kp := by
  induction x0 generalizing s x1 with
  | nil => exact h
  | cons b bs ih =>
    cases x1 with
    | nil => exact h
    | cons p ps => exact ih _ (State.sound_writePieces _ _ _ _ h)
@[simp] theorem State.sound_tileDone (s : State) (o : TileOp) :
    (s.tileDone o).Sound kp ↔ s.Sound kp :=
  Iff.rfl
@[simp] theorem State.sound_onTileOp (s : State) (num : Nat) (f : TileOp → TileOp) :
    (s.onTileOp num f).Sound kp ↔ s.Sound kp :=
  Iff.rfl
@[simp] theorem State.sound_popTile (s : State) (num key w total : Nat) (x0 : Nat) :
    (s.popTile num key w total x0).Sound kp ↔ s.Sound kp := by
  induction x0 generalizing s with
  | zero => unfold State.popTile; grind
  | succ n ih =>
    unfold State.popTile
    grind [State.sound_setQueue, State.sound_changed, State.sound_onTileOp]
@[simp] theorem State.sound_pushTile (s : State) (num key w : Nat) (x0 : Nat) :
    (s.pushTile num key w x0).Sound kp ↔ s.Sound kp := by
  induction x0 generalizing s with
  | zero => unfold State.pushTile; grind
  | succ n ih =>
    unfold State.pushTile
    grind [State.sound_pushEntry, State.sound_onTileOp]
@[simp] theorem State.sound_mulTile (s : State) (o : TileOp) (cluster t : Nat) (ovw : Bool) (rows : List (List Byte)) :
    (s.mulTile o cluster t ovw rows).Sound kp ↔ s.Sound kp :=
  Iff.rfl
@[simp] theorem State.sound_stopTile (s : State) (o : TileOp) :
    (s.stopTile o).Sound kp ↔ s.Sound kp := by simp [State.stopTile]
@[simp] theorem State.sound_runTile {s : State} (cluster : Nat) (o : TileOp) (h : s.Sound kp) :
    (s.runTile cluster o).Sound kp := by
  unfold State.runTile
  dsimp only
  (repeat' split) <;> simp [h]
@[simp] theorem sound_execTileOpExecute (cluster : Nat) {s : State} (h : s.Sound kp) : Out.Sound kp
    (execTileOpExecute cluster s) := by
  unfold execTileOpExecute
  (repeat' split) <;> simp [h]
end

end Sys2Proof.Machine
end
section
/-! PROOFS. What is kept of a state: Loom, the Joiner, the MMU, windows and contexts. -/
namespace Sys2Proof.Machine

section
variable {kp : Kept}

/-! ### What Loom.lean defines -/

@[simp] theorem State.sound_onGrid (s : State) (id : Nat) (f : Grid → Grid) :
    (s.onGrid id f).Sound kp ↔ s.Sound kp :=
  Iff.rfl
@[simp] theorem State.sound_noteHead (s : State) :
    (s.noteHead).Sound kp ↔ s.Sound kp :=
  Iff.rfl
@[simp] theorem State.sound_answerLaunch (s : State) (ids : List SId) (d : Reg) (w : Word) :
    (s.answerLaunch ids d w).Sound kp ↔ s.Sound kp :=
  Iff.rfl
@[simp] theorem State.sound_portReport (s : State) (fn n : Nat) (w : Word) :
    (s.portReport fn n w).Sound kp ↔ s.Sound kp := by simp [State.portReport]
@[simp] theorem State.sound_enterGrid (s : State) (g : Grid) :
    (s.enterGrid g).Sound kp ↔ s.Sound kp := by
  unfold State.enterGrid
  split <;> simp
@[simp] theorem State.sound_failDone {s : State} (fn : Nat) (asid : BitVec 16) (done : Option DWord) (h : s.Sound kp) :
    (s.failDone fn asid done).Sound kp := by
  unfold State.failDone
  split <;> simp [h]
@[simp] theorem State.sound_rejectLaunch {s : State} (fn : Nat) (asid : BitVec 16) (done : Option DWord) (o : Origin)
    (w : Word) (h : s.Sound kp) :
    (s.rejectLaunch fn asid done o w).Sound kp := by
  unfold State.rejectLaunch
  split <;> simp [h]
@[simp] theorem State.sound_refuseLaunch {s : State} (fn : Nat) (asid : BitVec 16) (done : Option DWord) (o : Origin)
    (h : s.Sound kp) :
    (s.refuseLaunch fn asid done o).Sound kp := by
  unfold State.refuseLaunch
  split <;> simp [h]
@[simp] theorem State.sound_bindColl {s : State} (fn : Nat) (asid : BitVec 16) (r : Rec) (d : Option CollDesc) (h : s.Sound kp) :
    (s.bindColl fn asid r d).2.Sound kp := by
  unfold State.bindColl
  (repeat' split) <;> simp [h]
@[simp] theorem State.sound_acceptLaunch {s : State} (fn : Nat) (asid : BitVec 16) (name : DWord) (o : Origin)
    (info : LaunchInfo) (regions : List Region) (h : s.Sound kp) :
    (s.acceptLaunch fn asid name o info regions).Sound kp := by simp [State.acceptLaunch, h]
@[simp] theorem State.sound_submit {s : State} (fn : Nat) (asid : BitVec 16) (a name : DWord) (o : Origin) (h : s.Sound kp) :
    (s.submit fn asid a name o).Sound kp := by
  have h1 := Chk.keeps_readLaunch (fn := fn) (asid := asid) (a := a) s h
  unfold State.submit
  split
  next e => simp [h1.snd e]
  next bs s1 e =>
    have h2 := Chk.keeps_launchOf (fn := fn) (asid := asid) (a := a) (opening := true) (bs := bs) s1 (h1.snd e)
    split
    next e2 => simp [h2.snd e2]
    next e2 => simp [h2.snd e2]
@[simp] theorem sound_execHeldRecordEnter (level : Nat) {s : State} (h : s.Sound kp) : Out.Sound kp
    (execHeldRecordEnter level s) := by
  unfold execHeldRecordEnter
  (repeat' split) <;> simp [h]
@[simp] theorem sound_execGridPromote (grid : Nat) {s : State} (h : s.Sound kp) : Out.Sound kp (execGridPromote grid s) := by
  unfold execGridPromote
  (repeat' split) <;> simp [h]
@[simp] theorem sound_execGridReserve (grid : Nat) {s : State} (h : s.Sound kp) : Out.Sound kp (execGridReserve grid s) := by
  unfold execGridReserve
  (repeat' split) <;> simp [h]
@[simp] theorem State.sound_startTeam (s : State) (t : Team) :
    (s.startTeam t).Sound kp ↔ s.Sound kp := by simp [State.startTeam]
@[simp] theorem State.sound_placeTeam {s : State} (g : Grid) (core : Nat) (h : s.Sound kp) :
    (s.placeTeam g core).Sound kp := by
  unfold State.placeTeam
  dsimp only
  generalize hr : State.noteHead _ = r
  have h1 : r.Sound kp := by
    rw [← hr, State.sound_noteHead, State.sound_onGrid]
    refine (State.sound_foldl_iff (fun s k => State.sound_setQueue s k _) _ _).mpr ?_
    rw [State.sound_mk, State.sound_fold]
    refine State.sound_foldl (fun s tag hs => ?_) _ (State.sound_foldl (fun s tag hs => ?_) _ ?_)
    · exact hs
    · exact hs
    · split <;> simp [h]
  split
  · simp [h1]
  · split
    · simp [State.sound_foldl_iff, h1]
    · exact h1
@[simp] theorem sound_execPlaceTeam (grid : Nat) {s : State} (h : s.Sound kp) : Out.Sound kp (execPlaceTeam grid s) := by
  unfold execPlaceTeam
  (repeat' split) <;> simp [h]
@[simp] theorem State.sound_badWrite (s : State) (fn n : Nat) :
    (s.badWrite fn n).Sound kp ↔ s.Sound kp :=
  Iff.rfl
@[simp] theorem State.sound_submitWrite (s : State) (fn n size : Nat) (v : DWord) :
    (s.submitWrite fn n size v).Sound kp ↔ s.Sound kp := by simp [State.submitWrite]
@[simp] theorem sound_execLpSubmit (fn port size : Nat) (value : DWord) {s : State} (h : s.Sound kp) : Out.Sound kp
    (execLpSubmit fn port size value s) :=
  (Out.sound_next _).mpr (by simp [h])
@[simp] theorem State.sound_configWrite (s : State) (via fn n size : Nat) (v : DWord) :
    (s.configWrite via fn n size v).Sound kp ↔ s.Sound kp := by simp [State.configWrite]
@[simp] theorem sound_execLpConfig (via fn port size : Nat) (value : DWord) {s : State} (h : s.Sound kp) : Out.Sound kp
    (execLpConfig via fn port size value s) :=
  (Out.sound_next _).mpr (by simp [h])
@[simp] theorem sound_execLoomTakeSubmission (fn port : Nat) {s : State} (h : s.Sound kp) : Out.Sound kp
    (execLoomTakeSubmission fn port s) :=
  (Out.sound_next _).mpr (by simp [h])
@[simp] theorem State.sound_readNodes {s : State} (fn port : Nat) (asid : BitVec 16) (src : DWord) (first : Nat)
    (owned : Nat → Bool) (x0 : List Nat) (h : s.Sound kp) :
    (s.readNodes fn port asid src first owned x0).2.Sound kp := by
  induction x0 generalizing s with
  | nil => exact h
  | cons i r ih =>
    have h1 := Chk.keeps_checkNode (fn := fn) (port := port) (asid := asid) (a := src + BitVec.ofNat 64 (64 * i)) (idx := first
      + i)
      (owned := owned) s h
    rw [State.readNodes]
    split
    next e => exact h1.snd e
    next e =>
      have h2 := ih (h1.snd e)
      split
      next e2 => exact h2.snd e2
      next e2 => exact h2.snd e2
@[simp] theorem State.sound_graphRegs (s : State) (o : GraphOp) (op : Nat) (busy : Bool) :
    (s.graphRegs o op busy).Sound kp ↔ s.Sound kp :=
  Iff.rfl
@[simp] theorem State.sound_graphInstall {s : State} (o : GraphOp) (h : s.Sound kp) :
    (s.graphInstall o).Sound kp := by
  unfold State.graphInstall
  grind [State.sound_onPort, State.sound_portIrq, State.sound_badWrite, State.sound_readNodes, State.sound_graphRegs,
    State.sound_mk, State.sound_fold]
@[simp] theorem sound_execLpGraphInstall (o : GraphOp) {s : State} (h : s.Sound kp) : Out.Sound kp (execLpGraphInstall o s) :=
  (Out.sound_next _).mpr (by simp [h])
@[simp] theorem State.sound_graphRemove (s : State) (o : GraphOp) :
    (s.graphRemove o).Sound kp ↔ s.Sound kp := by simp [State.graphRemove]
@[simp] theorem sound_execLpGraphRemove (o : GraphOp) {s : State} (h : s.Sound kp) : Out.Sound kp (execLpGraphRemove o s) :=
  (Out.sound_next _).mpr (by simp [h])
@[simp] theorem State.sound_graphStart (s : State) (o : GraphOp) :
    (s.graphStart o).Sound kp ↔ s.Sound kp := by
  unfold State.graphStart
  (repeat' split) <;> simp
@[simp] theorem sound_execLpGraphStart (o : GraphOp) {s : State} (h : s.Sound kp) : Out.Sound kp (execLpGraphStart o s) :=
  (Out.sound_next _).mpr (by simp [h])
@[simp] theorem sound_execGraphRemoveComplete (fn port : Nat) {s : State} (h : s.Sound kp) : Out.Sound kp
    (execGraphRemoveComplete fn port s) :=
  (Out.sound_next _).mpr (by simp [h])
@[simp] theorem State.sound_nodeWord {s : State} (fn : Nat) (asid : BitVec 16) (a : DWord) (h : s.Sound kp) :
    (s.nodeWord fn asid a).2.Sound kp := by
  unfold State.nodeWord
  dsimp only
  (repeat' split) <;> simp [h]
@[simp] theorem State.sound_runKernel {s : State} (n : Node) (h : s.Sound kp) :
    (s.runKernel n).Sound kp := by
  have h1 := Chk.keeps_readLaunch (fn := n.fn) (asid := n.asid) (a := n.payload) s h
  unfold State.runKernel
  split
  next e => simp [h1.snd e]
  next bs s1 e =>
    dsimp only
    have h2 := (Chk.keeps_launchOf (fn := n.fn) (asid := n.asid) (a := n.payload) (opening := true) (bs := bs)).bind
      (fun info => Chk.keeps_regionsOf n info) s1 (h1.snd e)
    split
    next e2 => simp [h2.snd e2]
    next e2 => simp [h2.snd e2]
@[simp] theorem State.sound_runCopy {s : State} (n : Node) (h : s.Sound kp) :
    (s.runCopy n).Sound kp := by
  unfold State.runCopy
  dsimp only
  split
  · have h1 := Chk.keeps_readMap (fn := n.fn) (asid := n.asid) (a := n.payload) s h
    split
    next sm s1 e1 =>
      have h2 := Chk.keeps_readMap (fn := n.fn) (asid := n.asid) (a := n.aux) s1 (h1.snd e1)
      split
      next dm s2 e2 =>
        have h3 := Chk.keeps_checkMaps (src := sm) (dst := dm) s2 (h2.snd e2)
        split
        next e3 => simp [h3.snd e3]
        next e3 => simp [h3.snd e3]
  · simp [h]
@[simp] theorem State.sound_runColl {s : State} (n : Node) (h : s.Sound kp) :
    (s.runColl n).Sound kp := by
  unfold State.runColl
  split
  · simp [h]
  · have h1 := Chk.keeps_checkColl (fn := n.fn) (asid := n.asid) (a := n.payload) (opening := true) s h
    split
    next e => simp [h1.snd e]
    next e => simp [h1.snd e]
@[simp] theorem State.sound_unitWord {s : State} (fn : Nat) (asid : BitVec 16) (a : DWord) (bs : List Byte) (h : s.Sound kp) :
    (s.unitWord fn asid a bs).Sound kp := by
  unfold State.unitWord
  (repeat' split) <;> simp [h]
@[simp] theorem State.sound_runHostsig {s : State} (n : Node) (h : s.Sound kp) :
    (s.runHostsig n).Sound kp := by simp [State.runHostsig, h]
@[simp] theorem State.sound_runNode {s : State} (n : Node) (h : s.Sound kp) :
    (s.runNode n).Sound kp := by
  unfold State.runNode
  grind [State.sound_nodeDone, State.sound_nodeOk, State.sound_nodeFail, State.sound_nodeWord, State.sound_runKernel,
    State.sound_runCopy, State.sound_runColl, State.sound_runHostsig]
@[simp] theorem sound_execNodeInstanceRun (node : Nat) {s : State} (h : s.Sound kp) : Out.Sound kp
    (execNodeInstanceRun node s) := by
  unfold execNodeInstanceRun
  (repeat' split) <;> simp [h]
@[simp] theorem sound_execWaitctrSatisfied (node : Nat) {s : State} (h : s.Sound kp) : Out.Sound kp
    (execWaitctrSatisfied node s) := by
  unfold execWaitctrSatisfied
  rw [Out.sound_next]
  split
  · exact h
  next n _ =>
    split
    · exact h
    · have h1 := State.sound_nodeWord n.fn n.asid n.aux h
      split
      · exact h
      next e =>
        split
        · simp [h1.snd e]
        · split <;> simp [h1.snd e]
@[simp] theorem sound_execLaunch (g : Guard) (d s1 : Reg) {s : State} (h : s.Sound kp) : Out.Sound kp (execLaunch g d s1 s) := by
  unfold execLaunch
  (repeat' split) <;> simp [h]
@[simp] theorem State.sound_post {s : State} (g : Guard) (d s1 : Reg) (start : Bool) (h : s.Sound kp) :
    (s.post g d s1 start).Sound kp := by
  unfold State.post
  dsimp only
  (repeat' split) <;> simp [h]
@[simp] theorem sound_execGpost (g : Guard) (d s1 : Reg) {s : State} (h : s.Sound kp) : Out.Sound kp (execGpost g d s1 s) :=
  (Out.sound_next _).mpr (by simp [h])
@[simp] theorem sound_execGpostStart (g : Guard) (d s1 : Reg) {s : State} (h : s.Sound kp) : Out.Sound kp
    (execGpostStart g d s1 s) :=
  (Out.sound_next _).mpr (by simp [h])
@[simp] theorem State.sound_dropMat (s : State) (t : Team) :
    (s.dropMat t).Sound kp ↔ s.Sound kp := by
  simp [State.dropMat, State.sound_foldl_iff]
@[simp] theorem State.sound_dropStreams (s : State) (tcx : Nat) :
    (s.dropStreams tcx).Sound kp ↔ s.Sound kp :=
  Iff.rfl
@[simp] theorem State.sound_cleanTeam {s : State} (t : Team) (cause : Cause) (h : s.Sound kp) :
    (s.cleanTeam t cause).Sound kp := by
  unfold State.cleanTeam
  dsimp only
  rw [State.sound_record]
  generalize hr : State.reevaluate _ _ = r
  have h1 : r.Sound kp := by
    rw [← hr, State.sound_reevaluate, State.sound_onGrid]
    split
    · simp [State.sound_foldl_iff, h]
    · refine State.sound_fillVault _ _ ?_
      simp [State.sound_foldl_iff, h]
  split
  · split <;> simp [h1]
  · exact h1
@[simp] theorem sound_execTeamEnd (tcx : Nat) (cause : BitVec 8) {s : State} (h : s.Sound kp) : Out.Sound kp
    (execTeamEnd tcx cause s) := by
  unfold execTeamEnd
  (repeat' split) <;> simp [h]
@[simp] theorem sound_execCoreUncorrectable (tcx : Nat) {s : State} (h : s.Sound kp) : Out.Sound kp
    (execCoreUncorrectable tcx s) :=
  (Out.sound_next _).mpr h
@[simp] theorem State.sound_chunkExit {s : State} (t : Team) (h : s.Sound kp) :
    (s.chunkExit t).Sound kp := by
  unfold State.chunkExit
  (repeat' split) <;> simp [h]
@[simp] theorem State.sound_freeTeam {s : State} (t : Team) (h : s.Sound kp) :
    (s.freeTeam t).Sound kp := by
  unfold State.freeTeam
  grind [State.sound_setQueue, State.sound_fillVault, State.sound_dropMat, State.sound_dropStreams, State.sound_mk,
    State.sound_fold, State.sound_foldl]
@[simp] theorem sound_execTeamRetire (tcx : Nat) {s : State} (h : s.Sound kp) : Out.Sound kp (execTeamRetire tcx s) := by
  unfold execTeamRetire
  rw [Out.sound_next]
  split
  · exact h
  · split
    · exact h
    · dsimp only
      generalize hr : State.releaseTag (State.releaseTag _ _) _ = r
      have h1 : r.Sound kp := by simp [← hr, h]
      rw [State.sound_mk, State.sound_fold, State.sound_onGrid]
      refine State.sound_freeTeam _ ?_
      split <;> simp [h1]
@[simp] theorem sound_execGridRetire (grid : Nat) {s : State} (h : s.Sound kp) : Out.Sound kp (execGridRetire grid s) := by
  unfold execGridRetire
  dsimp only
  (repeat' split) <;> simp [h]

/-! ### What Joiner.lean defines -/

@[simp] theorem State.sound_freeShare {s : State} (n : Nat) (h : s.Sound kp) :
    (s.freeShare n).Sound kp := by simp [State.freeShare, h]
@[simp] theorem State.sound_joinDo {s : State} (op n : Nat) (h : s.Sound kp) :
    (s.joinDo op n).Sound kp := by
  unfold State.joinDo
  split <;> simp [h]
@[simp] theorem State.sound_joinCommand {s : State} (op arg fn : Nat) (h : s.Sound kp) :
    (s.joinCommand op arg fn).Sound kp := by simp [State.joinCommand, h]
@[simp] theorem sound_execJoinQuery (share : Nat) {s : State} (h : s.Sound kp) : Out.Sound kp (execJoinQuery share s) :=
  (Out.sound_next _).mpr (by simp [h])
@[simp] theorem sound_execJoinGrant (share fn : Nat) {s : State} (h : s.Sound kp) : Out.Sound kp (execJoinGrant share fn s) :=
  (Out.sound_next _).mpr (by simp [h])
@[simp] theorem sound_execJoinRelease (share : Nat) {s : State} (h : s.Sound kp) : Out.Sound kp (execJoinRelease share s) :=
  (Out.sound_next _).mpr (by simp [h])
@[simp] theorem State.sound_readMap {s : State} (w : Who) (ptr : Nat) (x0 : List Nat) (h : s.Sound kp) :
    (s.readMap w ptr x0).2.Sound kp := by
  induction x0 generalizing s with
  | nil => unfold State.readMap; grind
  | cons p r ih =>
    unfold State.readMap
    grind [State.sound_unitRead]
@[simp] theorem State.sound_readCdr {s : State} (fn : Nat) (asid : BitVec 16) (a : DWord) (vcid : Nat) (h : s.Sound kp) :
    (s.readCdr fn asid a vcid).2.Sound kp := by
  unfold State.readCdr
  grind [State.sound_unitRead, State.sound_readMap]
@[simp] theorem State.sound_joinCache (s : State) (vcid n : Nat) :
    (s.joinCache vcid n).Sound kp ↔ s.Sound kp :=
  Iff.rfl
@[simp] theorem State.sound_define {s : State} (fn : Nat) (asid : BitVec 16) (a : DWord) (vcid : Nat) (h : s.Sound kp) :
    (s.define fn asid a vcid).2.Sound kp := by
  unfold State.define
  split
  · exact h
  · split
    · exact h
    · have h1 := State.sound_readCdr fn asid a vcid h
      split
      next e => exact h1.snd e
      next c s1 e =>
        split
        · exact h1.snd e
        · exact State.sound_foldl (fun s n hs => (State.sound_joinCache s vcid n).mpr hs) _ (h1.snd e)
@[simp] theorem sound_execVcdef (g : Guard) (d s1 : Reg) (vcid : BitVec 8) {s : State} (h : s.Sound kp) : Out.Sound kp
    (execVcdef g d s1 vcid s) := by
  unfold execVcdef
  (repeat' split) <;> simp [h]
@[simp] theorem sound_execVcdefRm (g : Guard) (d : Reg) (vcid : BitVec 8) {s : State} (h : s.Sound kp) : Out.Sound kp
    (execVcdefRm g d vcid s) := by
  unfold execVcdefRm
  (repeat' split) <;> simp [h]
@[simp] theorem sound_execVcRemoveDrain (vcid : Nat) {s : State} (h : s.Sound kp) : Out.Sound kp (execVcRemoveDrain vcid s) := by
  unfold execVcRemoveDrain
  dsimp only
  (repeat' split) <;> simp +contextual [h, State.sound_foldl]
@[simp] theorem State.sound_leaveReplica {s : State} (vcid c : Nat) (h : s.Sound kp) :
    (s.leaveReplica vcid c).Sound kp := by
  unfold State.leaveReplica
  grind [State.sound_dropLines, State.sound_writeBack, State.sound_setDir, State.sound_foldl]
@[simp] theorem State.sound_migrate {s : State} (c n : VCache) (asid : BitVec 16) (counter : DWord) (h : s.Sound kp) :
    (s.migrate c n asid counter).Sound kp := by
  unfold State.migrate
  grind [State.sound_setShare, State.sound_onCache, State.sound_rehome, State.sound_joinCache, State.sound_leaveReplica,
    State.sound_foldl]
@[simp] theorem State.sound_startMigration {s : State} (fn : Nat) (asid : BitVec 16) (a counter : DWord) (vcid : Nat)
    (h : s.Sound kp) :
    (s.startMigration fn asid a counter vcid).2.Sound kp := by
  unfold State.startMigration
  split
  · exact h
  · split
    · exact h
    · have h1 := State.sound_readCdr fn asid a vcid h
      split
      next e => exact h1.snd e
      next e =>
        split
        · exact h1.snd e
        · split
          · exact h1.snd e
          · dsimp only
            split
            · exact h1.snd e
            · exact State.sound_migrate _ _ _ _ (h1.snd e)
@[simp] theorem sound_execVcmig (g : Guard) (d s1 s2 : Reg) (vcid : BitVec 8) {s : State} (h : s.Sound kp) : Out.Sound kp
    (execVcmig g d s1 s2 vcid s) := by
  unfold execVcmig
  (repeat' split) <;> simp [h]
@[simp] theorem sound_execVcmigSweep (vcid base : Nat) {s : State} (h : s.Sound kp) : Out.Sound kp
    (execVcmigSweep vcid base s) := by
  unfold execVcmigSweep
  (repeat' split) <;> simp [h]
@[simp] theorem sound_execMigrationEnd (vcid : Nat) {s : State} (h : s.Sound kp) : Out.Sound kp (execMigrationEnd vcid s) := by
  unfold execMigrationEnd
  rw [Out.sound_next]
  split
  · exact h
  · split
    · dsimp only
      split
      · exact h
      · exact State.sound_bumpIf _ _ _ _ _ ((State.sound_onCache ..).mpr
          (State.sound_foldl (fun s n hs => State.sound_freeShare n hs) _ h))
    · exact h
@[simp] theorem State.sound_countError (s : State) (n : Nat) :
    (s.countError n).Sound kp ↔ s.Sound kp := by simp [State.countError]
@[simp] theorem State.sound_withdrawLine {s : State} (l : Line) (h : s.Sound kp) :
    (s.withdrawLine l).Sound kp := by
  unfold State.withdrawLine
  split <;> simp [h]
@[simp] theorem State.sound_failShare {s : State} (n : Nat) (h : s.Sound kp) :
    (s.failShare n).Sound kp := by
  unfold State.failShare
  grind [State.sound_setShare, State.sound_rehome, State.sound_withdrawLine, State.sound_foldl]
@[simp] theorem State.sound_vaultError {s : State} (a : Nat) (h : s.Sound kp) :
    (s.vaultError a).Sound kp := by
  unfold State.vaultError
  grind [State.sound_endTeam, State.sound_record, State.sound_countError, State.sound_failShare, State.sound_mk,
    State.sound_fold, State.sound_foldl]
@[simp] theorem State.sound_poison (s : State) (k : Nat) :
    (s.poison k).Sound kp ↔ s.Sound kp :=
  Iff.rfl
@[simp] theorem State.sound_lineError {s : State} (vcid : Nat) (rep : Option Nat) (k : Nat) (h : s.Sound kp) :
    (s.lineError vcid rep k).Sound kp := by
  unfold State.lineError
  split <;> simp [h]
@[simp] theorem sound_execUncorrectableError (site : ErrSite) {s : State} (h : s.Sound kp) : Out.Sound kp
    (execUncorrectableError site s) := by
  unfold execUncorrectableError
  (repeat' split) <;> simp [h]
@[simp] theorem sound_execSweeperPass (_share : Nat) {s : State} (h : s.Sound kp) : Out.Sound kp (execSweeperPass _share s) :=
  (Out.sound_next _).mpr h

/-! ### What Mmu.lean defines -/

@[simp] theorem sound_execPageWalk (who : Holder) (asid : BitVec 16) (va : DWord) (write : Bool) {s : State}
    (h : s.Sound kp) : Out.Sound kp (execPageWalk who asid va write s) := by
  unfold execPageWalk
  dsimp only
  (repeat' split) <;> simp [h]
@[simp] theorem State.sound_onMerge (s : State) (die idx : Nat) (f : Merge → Merge) :
    (s.onMerge die idx f).Sound kp ↔ s.Sound kp :=
  Iff.rfl
@[simp] theorem sound_execFaultRecordEmit (die entry : Nat) {s : State} (h : s.Sound kp) : Out.Sound kp
    (execFaultRecordEmit die entry s) := by
  unfold execFaultRecordEmit
  (repeat' split) <;> simp [h]
@[simp] theorem State.sound_probe (s : State) (st : Stream) (p : DWord × Bool) :
    (s.probe st p).Sound kp ↔ s.Sound kp := by
  unfold State.probe
  dsimp only
  (repeat' split) <;> simp
@[simp] theorem sound_execRunahead (sid : SId) (probes : List (DWord × Bool)) {s : State} (h : s.Sound kp) : Out.Sound kp
    (execRunahead sid probes s) := by
  unfold execRunahead
  dsimp only
  (repeat' split) <;> simp +contextual [h, State.sound_foldl]
@[simp] theorem State.sound_freeEntryOf (s : State) (die idx : Nat) :
    (s.freeEntryOf die idx).Sound kp ↔ s.Sound kp :=
  Iff.rfl
@[simp] theorem State.sound_failEntryOf (s : State) (m : Merge) :
    (s.failEntryOf m).Sound kp ↔ s.Sound kp := by
  unfold State.failEntryOf
  grind [State.sound_onLane, State.sound_takeTrap, State.sound_mk, State.sound_fold, State.sound_foldl_iff]
@[simp] theorem State.sound_resume (s : State) (o : AluR) (die : Nat) (fail : Bool) :
    (s.resume o die fail).Sound kp ↔ s.Sound kp := by
  unfold State.resume
  dsimp only
  (repeat' split) <;> simp
@[simp] theorem sound_execFresume (o : AluR) (die : BitVec 2) {s : State} (h : s.Sound kp) : Out.Sound kp (execFresume o die s) :=
  (Out.sound_next _).mpr ((State.sound_resume ..).mpr h)
@[simp] theorem sound_execFresumeFail (o : AluR) (die : BitVec 2) {s : State} (h : s.Sound kp) : Out.Sound kp
    (execFresumeFail o die s) :=
  (Out.sound_next _).mpr ((State.sound_resume ..).mpr h)
@[simp] theorem State.sound_invalidateEntry {s : State} (m : Merge) (h : s.Sound kp) :
    (s.invalidateEntry m).Sound kp := by simp [State.invalidateEntry, h]
@[simp] theorem State.sound_invalidate {s : State} (asid : BitVec 16) (range : Option (Nat × Nat)) (h : s.Sound kp) :
    (s.invalidate asid range).Sound kp := by
  unfold State.invalidate
  grind [State.sound_invalidateEntry, State.sound_mk, State.sound_fold, State.sound_foldl]
@[simp] theorem State.sound_tlbDrop {s : State} (g : Guard) (w : Word) (range : Option (Nat × Nat)) (kill : Stream → Stream)
    (h : s.Sound kp) :
    (s.tlbDrop g w range kill).Sound kp := by
  unfold State.tlbDrop
  split <;> simp [h]
@[simp] theorem sound_execTlbinv (g : Guard) (s1 : Reg) (k1 : Bool) (s2 : Reg) (k2 : Bool) (s3 : Reg) {s : State}
    (h : s.Sound kp) : Out.Sound kp (execTlbinv g s1 k1 s2 k2 s3 s) := by
  unfold execTlbinv
  (repeat' split) <;> simp [h]
@[simp] theorem sound_execTlbinvAll (g : Guard) (s3 : Reg) {s : State} (h : s.Sound kp) : Out.Sound kp
    (execTlbinvAll g s3 s) := by
  unfold execTlbinvAll
  (repeat' split) <;> simp [h]
@[simp] theorem State.sound_syncWait {s : State} (g : Guard) (k : State → State) (hk : (k s).Sound kp) (h : s.Sound kp) :
    (s.syncWait g k).Sound kp := by
  unfold State.syncWait
  dsimp only
  split
  · exact hk
  · simp [h]
@[simp] theorem sound_execTlbsync (g : Guard) (d : Reg) {s : State} (h : s.Sound kp) : Out.Sound kp (execTlbsync g d s) :=
  (Out.sound_next _).mpr (by simp [h])
@[simp] theorem State.sound_zeroHbm {s : State} (p l : Nat) (h : s.Sound kp) :
    (s.zeroHbm p l).Sound kp :=
  ⟨fun c => State.MemOk.zeroHbm (h.1 c) p l, h.2⟩
@[simp] theorem sound_execTlbsyncZero (g : Guard) (d s1 : Reg) (k1 : Bool) (s2 : Reg) (k2 : Bool) {s : State}
    (h : s.Sound kp) : Out.Sound kp (execTlbsyncZero g d s1 k1 s2 k2 s) := by
  unfold execTlbsyncZero
  (repeat' split) <;> simp [h]

/-! ### What Window.lean defines -/

@[simp] theorem State.sound_dropWindowOps (s : State) (id : SId) (first : Nat) :
    (s.dropWindowOps id first).Sound kp ↔ s.Sound kp := by
  simp [State.dropWindowOps, State.sound_foldl_iff]
@[simp] theorem State.sound_squash (s : State) (id : SId) :
    (s.squash id).Sound kp ↔ s.Sound kp := by
  unfold State.squash
  split <;> simp
@[simp] theorem State.sound_resolve (s : State) (past : List (DWord × DWord)) (id : SId) :
    (s.resolve past id).Sound kp ↔ s.Sound kp := by
  unfold State.resolve
  dsimp only
  split <;> simp
@[simp] theorem sound_execPredicateResolve (sid : SId) {s : State} (h : s.Sound kp) : Out.Sound kp
    (execPredicateResolve sid s) := by
  unfold execPredicateResolve
  dsimp only
  (repeat' split) <;> simp +contextual [h, State.sound_foldl]

/-! ### What Context.lean defines -/

@[simp] theorem State.sound_swap (s : State) (cs : List Nat) :
    (s.swap cs).Sound kp ↔ s.Sound kp := by
  simp [State.swap, State.sound_foldl_iff]
@[simp] theorem State.sound_writeImage {s : State} (w : Who) (va cluster : Nat) (bs : List Byte) (h : s.Sound kp) :
    (s.writeImage w va cluster bs).Sound kp := by
  unfold State.writeImage
  grind [State.sound_touch, State.sound_writeRange, State.sound_foldl]
@[simp] theorem State.sound_moveQueue (s : State) (from_ key : Nat) :
    (s.moveQueue from_ key).Sound kp ↔ s.Sound kp :=
  Iff.rfl
@[simp] theorem State.sound_moveTile (s : State) (c p c' p' : Nat) :
    (s.moveTile c p c' p').Sound kp ↔ s.Sound kp :=
  Iff.rfl
@[simp] theorem State.sound_unlistTeams (s : State) (ts : List Team) :
    (s.unlistTeams ts).Sound kp ↔ s.Sound kp :=
  Iff.rfl
@[simp] theorem State.sound_saveTeam (s : State) (n : Nat) (t : Team) :
    (s.saveTeam n t).Sound kp ↔ s.Sound kp := by
  simp [State.saveTeam, State.sound_foldl_iff]
@[simp] theorem State.sound_ctxDone (s : State) (g : Guard) (d : Reg) (kill : Stream → Stream) (v : Nat) :
    (s.ctxDone g d kill v).Sound kp ↔ s.Sound kp :=
  Iff.rfl
@[simp] theorem sound_execCtxswSwap (g : Guard) (d s2 : Reg) (k2 : Bool) {s : State} (h : s.Sound kp) : Out.Sound kp
    (execCtxswSwap g d s2 k2 s) := by
  unfold execCtxswSwap
  (repeat' split) <;> simp [h]
@[simp] theorem sound_execCtxswSv (o : AluR) {s : State} (h : s.Sound kp) : Out.Sound kp (execCtxswSv o s) := by
  unfold execCtxswSv
  dsimp only
  (repeat' split) <;> simp +contextual [h, State.sound_foldl]
@[simp] theorem State.sound_loadTeam (s : State) (core : Nat) (t : Team) :
    (s.loadTeam core t).Sound kp ↔ s.Sound kp := by
  simp [State.loadTeam, State.sound_foldl_iff]
@[simp] theorem sound_execCtxswLd (o : AluR) {s : State} (h : s.Sound kp) : Out.Sound kp (execCtxswLd o s) := by
  unfold execCtxswLd
  rw [Out.sound_next]
  obtain ⟨n, hn⟩ : ∃ n, imageBytes = n := ⟨_, rfl⟩
  rw [hn]
  split
  · simp [h]
  next low _ =>
    split
    · simp [h]
    · dsimp only
      split
      · simp [h]
      · cases s.imageAddr low o.s1 with
        | none => simp [h]
        | some va =>
          dsimp only
          have h1 := State.sound_unitRead (s.who low) va n h
          split
          next e => simp [h1.snd e]
          next e =>
            split
            · simp [h1.snd e]
            · split
              · simp [h1.snd e]
              · split <;> simp [State.sound_foldl_iff, h1.snd e]
@[simp] theorem State.sound_flushTag {s : State} (tag : Nat) (h : s.Sound kp) :
    (s.flushTag tag).Sound kp := by
  unfold State.flushTag
  grind [State.sound_writeBack, State.sound_finishLeft, State.sound_foldl]
@[simp] theorem sound_execCtxfl (o : Alu1) {s : State} (h : s.Sound kp) : Out.Sound kp (execCtxfl o s) := by
  unfold execCtxfl
  (repeat' split) <;> simp [h]
@[simp] theorem sound_execCtagFlushAck (ctag : Nat) {s : State} (h : s.Sound kp) : Out.Sound kp (execCtagFlushAck ctag s) :=
  (Out.sound_next _).mpr (by simp [h])
@[simp] theorem State.sound_haltCores (s : State) (cs : List Nat) :
    (s.haltCores cs).Sound kp ↔ s.Sound kp := by
  simp [State.haltCores, State.sound_foldl_iff]
@[simp] theorem sound_execHalt (o : Alu1) {s : State} (h : s.Sound kp) : Out.Sound kp (execHalt o s) := by
  unfold execHalt
  (repeat' split) <;> simp [h]
end

end Sys2Proof.Machine
end
section
/-! PROOFS. Every step keeps memory canonical (O2) and takes no timestamp back (O3): what performs operations, the host,
issue, and the turn. -/
namespace Sys2Proof.Machine

section
variable {kp : Kept}

/-! ### What System.lean defines -/

@[simp] theorem sound_execTrap (g : Guard) (imm : BitVec 16) {s : State} (h : s.Sound kp) : Out.Sound kp (execTrap g imm s) :=
  (Out.sound_next _).mpr (by simp [h])
@[simp] theorem sound_execBrk (g : Guard) (imm : BitVec 16) {s : State} (h : s.Sound kp) : Out.Sound kp (execBrk g imm s) :=
  (Out.sound_next _).mpr (by simp [h])
@[simp] theorem State.sound_leave (s : State) (g : Guard) (nx : Bool) :
    (s.leave g nx).Sound kp ↔ s.Sound kp := by
  unfold State.leave
  dsimp only
  (repeat' split) <;> simp
@[simp] theorem sound_execEret (g : Guard) {s : State} (h : s.Sound kp) : Out.Sound kp (execEret g s) :=
  (Out.sound_next _).mpr ((State.sound_leave ..).mpr h)
@[simp] theorem sound_execEretNx (g : Guard) {s : State} (h : s.Sound kp) : Out.Sound kp (execEretNx g s) :=
  (Out.sound_next _).mpr ((State.sound_leave ..).mpr h)
@[simp] theorem State.sound_onFn (s : State) (n : Nat) (f : FnCfg → FnCfg) :
    (s.onFn n f).Sound kp ↔ s.Sound kp :=
  Iff.rfl
@[simp] theorem State.sound_ringWrite (s : State) (die k : Nat) (w : Word) :
    (s.ringWrite die k w).Sound kp ↔ s.Sound kp := by simp [State.ringWrite]
@[simp] theorem State.sound_jobWrite (s : State) (n k : Nat) (w : Word) :
    (s.jobWrite n k w).Sound kp ↔ s.Sound kp := by
  unfold State.jobWrite
  split <;> simp
@[simp] theorem State.sound_cregWrite {s : State} (fn num : Nat) (w : Word) (h : s.Sound kp) :
    (s.cregWrite fn num w).Sound kp := by simp [State.cregWrite, h]
@[simp] theorem sound_execCrd (g : Guard) (d : Reg) (num : BitVec 12) {s : State} (h : s.Sound kp) : Out.Sound kp
    (execCrd g d num s) :=
  (Out.sound_next _).mpr h
@[simp] theorem sound_execCwr (g : Guard) (s1 : Reg) (k1 : Bool) (num : BitVec 12) {s : State} (h : s.Sound kp) : Out.Sound kp
    (execCwr g s1 k1 num s) := by
  unfold execCwr
  (repeat' split) <;> simp [h]
@[simp] theorem sound_execPmrd (g : Guard) (d : Reg) (sel : BitVec 4) {s : State} (h : s.Sound kp) : Out.Sound kp
    (execPmrd g d sel s) :=
  (Out.sound_next _).mpr (by simp [h])

/-! ### What Perform.lean defines -/

@[simp] theorem State.sound_elemArrive (s : State) (num : Nat) (v : Word) (i : Nat) :
    (s.elemArrive num v i).Sound kp ↔ s.Sound kp := by
  unfold State.elemArrive
  (repeat' split) <;> simp
@[simp] theorem State.sound_xferDone (s : State) (num : Nat) :
    (s.xferDone num).Sound kp ↔ s.Sound kp := by
  unfold State.xferDone
  split <;> simp
@[simp] theorem State.sound_blockWord (s : State) (o : MemOp) (i : Nat) (w : DWord × Option Err) :
    (s.blockWord o i w).Sound kp ↔ s.Sound kp :=
  Iff.rfl
@[simp] theorem State.sound_endOp (s : State) (o : MemOp) (vals : List DWord) :
    (s.endOp o vals).Sound kp ↔ s.Sound kp := by
  unfold State.endOp
  dsimp only
  (repeat' split) <;> simp [State.sound_foldl_iff]
@[simp] theorem State.sound_failOp (s : State) (o : MemOp) (cause : Cause) (reason : BitVec 16) :
    (s.failOp o cause reason).Sound kp ↔ s.Sound kp := by
  unfold State.failOp
  dsimp only
  (repeat' split) <;> simp [State.sound_foldl_iff]
@[simp] theorem State.sound_failSent (s : State) (o : MemOp) (cause : Cause) (reason : BitVec 16) :
    (s.failSent o cause reason).Sound kp ↔ s.Sound kp := by simp [State.failSent]
@[simp] theorem State.sound_sendNow (s : State) (o : MemOp) :
    (s.sendNow o).Sound kp ↔ s.Sound kp :=
  Iff.rfl
@[simp] theorem State.sound_selfEnd {s : State} (o : MemOp) (x : Reply) (k : List Byte → State → State) (hk : ∀ bs,
    (k bs s).Sound kp)
    (h : s.Sound kp) :
    (s.selfEnd o x k).Sound kp := by
  unfold State.selfEnd
  split
  · exact hk _
  · simp [h]
  · simp [h]
@[simp] theorem State.sound_doLoad {s : State} (o : MemOp) (h : s.Sound kp) :
    (s.doLoad o).Sound kp := by
  unfold State.doLoad
  grind [State.sound_asIssued, State.sound_loadLocal, State.sound_markSeen, State.sound_serve, State.sound_endOp,
    State.sound_failOp, State.sound_failSent, State.sound_selfEnd]
@[simp] theorem sound_execLoadComplete (op : Nat) {s : State} (h : s.Sound kp) : Out.Sound kp (execLoadComplete op s) := by
  unfold execLoadComplete
  (repeat' split) <;> simp [h]
@[simp] theorem sound_execEntryReady (op : Nat) {s : State} (h : s.Sound kp) : Out.Sound kp (execEntryReady op s) := by
  unfold execEntryReady
  (repeat' split) <;> simp [h]
@[simp] theorem State.sound_storeLocal {s : State} (o : MemOp) (h : s.Sound kp) :
    (s.storeLocal o).2.Sound kp := by
  unfold State.storeLocal
  grind [State.sound_recordErr, State.sound_discard, State.sound_storeAt, State.sound_lostWrite, State.sound_releaseTag,
    State.sound_settle, State.sound_clearPoison, State.sound_writeNow, State.sound_foldl]
@[simp] theorem State.sound_doStore {s : State} (o : MemOp) (k : State → State) (hk : ∀ s, s.Sound kp → (k s).Sound kp)
    (h : s.Sound kp) :
    (s.doStore o k).Sound kp := by
  unfold State.doStore
  split
  · simp [h]
  · exact State.sound_selfEnd o _ _ (fun _ => hk _ (State.sound_asIssued _ _ _ (fun s hs => State.sound_serve _ _ _ hs) h))
      (State.sound_asIssued _ _ _ (fun s hs => State.sound_serve _ _ _ hs) h)
  · have h1 := State.sound_storeLocal o h
    split
    next e => simpa using h1.snd e
    next e => exact hk _ (h1.snd e)
@[simp] theorem State.sound_hsigMessage (s : State) (o : MemOp) (fn vector : Nat) :
    (s.hsigMessage o fn vector).Sound kp ↔ s.Sound kp := by simp [State.hsigMessage]
@[simp] theorem State.sound_doHsig {s : State} (o : MemOp) (fn vector : Nat) (write : Bool) (h : s.Sound kp) :
    (s.doHsig o fn vector write).Sound kp := by simp [State.doHsig, h]
@[simp] theorem State.sound_pruneSeg (s : State) (seg : Nat) :
    (s.pruneSeg seg).Sound kp ↔ s.Sound kp := by
  unfold State.pruneSeg
  split <;> simp
@[simp] theorem State.sound_rangePiece {s : State} (op : RangeOp) (vcid key n : Nat) (h : s.Sound kp) :
    (s.rangePiece op vcid key n).Sound kp := by
  unfold State.rangePiece
  grind [State.sound_onLines, State.sound_dropLines, State.sound_writeBack, State.sound_pruneSeg, State.sound_foldl]
@[simp] theorem sound_execStorePerformed (op : Nat) {s : State} (h : s.Sound kp) : Out.Sound kp (execStorePerformed op s) := by
  unfold execStorePerformed
  rw [Out.sound_next]
  split
  · exact h
  next o _ =>
    split
    · exact h
    · split
      · simp [h]
      · generalize (((s.cache? o.loc.vcid).map (·.repl)).getD false && !_) = b
        have hd : (s.doStore o fun s => s.endOp o o.blanks).Sound kp :=
          State.sound_doStore _ _ (fun s hs => (State.sound_endOp ..).mpr hs) h
        split
        · cases b
          · exact hd
          · exact h
        · cases b
          · exact hd
          · exact h
        · simp [h]
        · exact (State.sound_endOp ..).mpr (State.sound_foldl (fun s p hs => State.sound_rangePiece _ _ _ _ hs) _ h)
        · exact h
@[simp] theorem sound_execDirStore (op : Nat) {s : State} (h : s.Sound kp) : Out.Sound kp (execDirStore op s) := by
  unfold execDirStore
  (repeat' split) <;> simp [h]
@[simp] theorem sound_execDirReadMiss (vcid cluster addr : Nat) {s : State} (h : s.Sound kp) : Out.Sound kp
    (execDirReadMiss vcid cluster addr s) := by
  unfold execDirReadMiss
  (repeat' split) <;> simp [h]
@[simp] theorem State.sound_doSg {s : State} (o : MemOp) (acq : Bool) (h : s.Sound kp) :
    (s.doSg o acq).Sound kp := by
  unfold State.doSg
  split <;> simp [h]
@[simp] theorem sound_execDirSgacq (op : Nat) {s : State} (h : s.Sound kp) : Out.Sound kp (execDirSgacq op s) := by
  unfold execDirSgacq
  (repeat' split) <;> simp [h]
@[simp] theorem sound_execDirSgrel (op : Nat) {s : State} (h : s.Sound kp) : Out.Sound kp (execDirSgrel op s) := by
  unfold execDirSgrel
  (repeat' split) <;> simp [h]
@[simp] theorem sound_execDirEvict (seg : Nat) {s : State} (h : s.Sound kp) : Out.Sound kp (execDirEvict seg s) :=
  (Out.sound_next _).mpr (by simp [h])
@[simp] theorem sound_execDirTransitEnd (seg : Nat) {s : State} (h : s.Sound kp) : Out.Sound kp (execDirTransitEnd seg s) :=
  (Out.sound_next _).mpr ((State.sound_transitEnd ..).mpr h)
@[simp] theorem State.sound_doHalf {s : State} (o : MemOp) (h : s.Sound kp) :
    (s.doHalf o).Sound kp := by
  unfold State.doHalf
  grind [State.sound_onOp, State.sound_rmwHalf, State.sound_endOp, State.sound_failOp, State.sound_mk, State.sound_fold]
@[simp] theorem sound_execAtomicPerform (op : Nat) {s : State} (h : s.Sound kp) : Out.Sound kp (execAtomicPerform op s) := by
  unfold execAtomicPerform
  rw [Out.sound_next]
  split
  · exact h
  next o _ =>
    split
    · exact h
    · split
      · simp [h]
      · split
        next r _ _ =>
          split
          · simp [h]
          next q n j _ =>
            have h1 := State.sound_asIssued n j (fun s => s.serveAtomic q r o.args) (fun s hs => State.sound_serveAtomic _ _ _
              hs) h
            exact State.sound_selfEnd _ _ _ (fun bs => (State.sound_endOp ..).mpr h1) h1
          · have h0 : (if ordReleases o.ord then s.releaseTag o.ctag else s).Sound kp := by split <;> simp [h]
            dsimp only
            split
            · exact State.sound_doHalf _ h0
            · have h1 := State.sound_rmwAt o.loc r o.args h0
              split
              next e => simp [h1.snd e]
              next e => simp [h1.snd e]
        · exact h
@[simp] theorem sound_execVaultBankOp (op : Nat) {s : State} (h : s.Sound kp) : Out.Sound kp (execVaultBankOp op s) := by
  unfold execVaultBankOp
  rw [Out.sound_next]
  split
  · exact h
  · split
    · exact h
    · split
      · simp [h]
      · exact (State.sound_endOp ..).mpr (State.sound_foldl (fun s i hs => State.sound_setBit _ _ hs) _ h)
      · exact h
@[simp] theorem State.sound_answered (s : State) (o : MemOp) (bs : List Byte) :
    (s.answered o bs).Sound kp ↔ s.Sound kp := by
  unfold State.answered
  split <;> simp
@[simp] theorem sound_execRemoteReply (op : Nat) (r : Reply) {s : State} (h : s.Sound kp) : Out.Sound kp
    (execRemoteReply op r s) := by
  unfold execRemoteReply
  (repeat' split) <;> simp [h]
@[simp] theorem sound_execRemoteAccessTimeout (op : Nat) {s : State} (h : s.Sound kp) : Out.Sound kp
    (execRemoteAccessTimeout op s) := by
  unfold execRemoteAccessTimeout
  (repeat' split) <;> simp [h]
@[simp] theorem sound_execRemoteAtomicResend (op : Nat) {s : State} (h : s.Sound kp) : Out.Sound kp
    (execRemoteAtomicResend op s) := by
  unfold execRemoteAtomicResend
  (repeat' split) <;> simp [h]
@[simp] theorem sound_execAtomicOutcomeUnknown (op : Nat) {s : State} (h : s.Sound kp) : Out.Sound kp
    (execAtomicOutcomeUnknown op s) := by
  unfold execAtomicOutcomeUnknown
  (repeat' split) <;> simp [h]
@[simp] theorem sound_execCxlCompletion (op : Nat) {s : State} (h : s.Sound kp) : Out.Sound kp (execCxlCompletion op s) := by
  unfold execCxlCompletion
  (repeat' split) <;> simp [h]
@[simp] theorem sound_execCxlTimeout (op : Nat) {s : State} (h : s.Sound kp) : Out.Sound kp (execCxlTimeout op s) := by
  unfold execCxlTimeout
  (repeat' split) <;> simp [h]
@[simp] theorem sound_execJoinSlotRelease (tcx group slot : Nat) {s : State} (h : s.Sound kp) : Out.Sound kp
    (execJoinSlotRelease tcx group slot s) :=
  (Out.sound_next _).mpr h
@[simp] theorem sound_execBarrierRelease (tcx : Nat) (id : Option Nat) {s : State} (h : s.Sound kp) : Out.Sound kp
    (execBarrierRelease tcx id s) :=
  (Out.sound_next _).mpr h
@[simp] theorem sound_execNsleepWake (sid : SId) {s : State} (h : s.Sound kp) : Out.Sound kp (execNsleepWake sid s) :=
  (Out.sound_next _).mpr h
@[simp] theorem sound_execYieldExpire (sid : SId) {s : State} (h : s.Sound kp) : Out.Sound kp (execYieldExpire sid s) :=
  (Out.sound_next _).mpr h
@[simp] theorem sound_execIssueAging (sid : SId) {s : State} (h : s.Sound kp) : Out.Sound kp (execIssueAging sid s) :=
  (Out.sound_next _).mpr h
@[simp] theorem sound_execWatchdogExpire (tcx : Nat) {s : State} (h : s.Sound kp) : Out.Sound kp (execWatchdogExpire tcx s) := by
  unfold execWatchdogExpire
  (repeat' split) <;> simp [h]

/-! ### What Host.lean defines -/

@[simp] theorem State.sound_fnCfgWrite {s : State} (n : Nat) (v : DWord) (h : s.Sound kp) :
    (s.fnCfgWrite n v).Sound kp := by simp [State.fnCfgWrite, h]
@[simp] theorem sound_execFnCfgWrite (n : Nat) (v : DWord) {s : State} (h : s.Sound kp) : Out.Sound kp (execFnCfgWrite n v s) :=
  (Out.sound_next _).mpr (by simp [h])
@[simp] theorem State.sound_setPower (s : State) (p : Power) :
    (s.setPower p).Sound kp ↔ s.Sound kp := by simp [State.setPower]
@[simp] theorem State.sound_leaveStates (s : State) :
    (s.leaveStates).Sound kp ↔ s.Sound kp := by simp [State.leaveStates]
@[simp] theorem State.sound_bar0Write {s : State} (off : Nat) (v : DWord) (h : s.Sound kp) :
    (s.bar0Write off v).Sound kp := by simp [State.bar0Write, h]
@[simp] theorem State.sound_graphCtlWrite {s : State} (fn n size : Nat) (v : DWord) (h : s.Sound kp) :
    (s.graphCtlWrite fn n size v).Sound kp := by
  unfold State.graphCtlWrite
  split <;> simp [h]
@[simp] theorem State.sound_portRegWrite {s : State} (fn n off size : Nat) (v : DWord) (h : s.Sound kp) :
    (s.portRegWrite fn n off size v).Sound kp := by
  unfold State.portRegWrite
  (repeat' split) <;> simp [h]
@[simp] theorem State.sound_bar2Write {s : State} (fn off size : Nat) (v : DWord) (h : s.Sound kp) :
    (s.bar2Write fn off size v).Sound kp := by simp [State.bar2Write, h]
@[simp] theorem sound_execRegisterWrite (w : BarWrite) {s : State} (h : s.Sound kp) : Out.Sound kp (execRegisterWrite w s) :=
  (Out.sound_next _).mpr (by simp [h])
@[simp] theorem sound_execHostLinkLoss {s : State} (h : s.Sound kp) : Out.Sound kp (execHostLinkLoss s) := by simp +contextual
    [execHostLinkLoss, h, State.sound_foldl]
@[simp] theorem sound_execHostLinkUp {s : State} (h : s.Sound kp) : Out.Sound kp (execHostLinkUp s) := by simp +contextual
    [execHostLinkUp, h, State.sound_foldl]
@[simp] theorem sound_execMsixUnmask (fn vector : Nat) {s : State} (h : s.Sound kp) : Out.Sound kp (execMsixUnmask fn vector s) :=
  (Out.sound_next _).mpr (by simp [h])
@[simp] theorem State.sound_maskMsix (s : State) (fn vector : Nat) :
    (s.maskMsix fn vector).Sound kp ↔ s.Sound kp :=
  Iff.rfl
@[simp] theorem sound_execEventRecord (event : BitVec 8) (source : BitVec 16) (detail : DWord) {s : State}
    (h : s.Sound kp) : Out.Sound kp (execEventRecord event source detail s) :=
  (Out.sound_next _).mpr (by simp [h])
@[simp] theorem State.sound_podDown (s : State) (port : Nat) (o : MemOp) :
    (s.podDown port o).Sound kp ↔ s.Sound kp := by
  unfold State.podDown
  split <;> simp
@[simp] theorem sound_execUalinkPortDown (port : Nat) {s : State} (h : s.Sound kp) : Out.Sound kp
    (execUalinkPortDown port s) := by simp +contextual [execUalinkPortDown, h, State.sound_foldl]
@[simp] theorem sound_execUalinkPortUp (port : Nat) {s : State} (h : s.Sound kp) : Out.Sound kp (execUalinkPortUp port s) :=
  (Out.sound_next _).mpr h
@[simp] theorem sound_execCxlLinkDown {s : State} (h : s.Sound kp) : Out.Sound kp (execCxlLinkDown s) :=
  (Out.sound_next _).mpr h
@[simp] theorem sound_execCxlLinkUp {s : State} (h : s.Sound kp) : Out.Sound kp (execCxlLinkUp s) :=
  (Out.sound_next _).mpr h
@[simp] theorem State.sound_restartTimers (s : State) (ks : List Nat) :
    (s.restartTimers ks).Sound kp ↔ s.Sound kp := by simp [State.restartTimers]
@[simp] theorem State.sound_advance {s0 : State} (cycles quarters : Nat) (h : s0.Sound kp) :
    (s0.advance cycles quarters).Sound kp := by
  unfold State.advance
  dsimp only
  refine ⟨fun c => ?_, Nat.le_trans h.2 (Nat.le_add_right _ _)⟩
  have h1 : (if (s0.clock.gtsQ + quarters) / 4 = s0.clock.gtsQ / 4 then s0 else s0.grantEntries.writeEvents).Sound kp := by
    split <;> simp [h]
  exact h1.1 c
@[simp] theorem sound_execClkGateEnter (cluster : Nat) {s : State} (h : s.Sound kp) : Out.Sound kp (execClkGateEnter cluster s) :=
  (Out.sound_next _).mpr (by simp [h])
@[simp] theorem sound_execRetainEnter (die : Nat) {s : State} (h : s.Sound kp) : Out.Sound kp (execRetainEnter die s) :=
  (Out.sound_next _).mpr (by simp [h])
@[simp] theorem sound_execHbmSrEnter (channel : Nat) {s : State} (h : s.Sound kp) : Out.Sound kp (execHbmSrEnter channel s) :=
  (Out.sound_next _).mpr (by simp [h])
@[simp] theorem sound_execDeepEnter {s : State} (h : s.Sound kp) : Out.Sound kp (execDeepEnter s) :=
  (Out.sound_next _).mpr (by simp [h])
@[simp] theorem State.sound_wake (s : State) (u : PowerUnit) :
    (s.wake u).Sound kp ↔ s.Sound kp := by simp [State.wake]
@[simp] theorem sound_execPowerWake (u : PowerUnit) {s : State} (h : s.Sound kp) : Out.Sound kp (execPowerWake u s) :=
  (Out.sound_next _).mpr ((State.sound_wake ..).mpr h)
@[simp] theorem sound_execPowerLimit (disable : List Nat) (cap : Option Nat) {s : State} (h : s.Sound kp) : Out.Sound kp
    (execPowerLimit disable cap s) :=
  (Out.sound_next _).mpr (by simp [h])
@[simp] theorem State.sound_rouse (s : State) (i : Instr) :
    (s.rouse i).Sound kp ↔ s.Sound kp := by
  simp [State.rouse, State.sound_foldl_iff]
@[simp] theorem sound_execPtpSync (nanos : Nat) (slew : Int) (offset : Nat) {s : State} (h : s.Sound kp) : Out.Sound kp
    (execPtpSync nanos slew offset s) :=
  (Out.sound_next _).mpr (by simp [h])
@[simp] theorem State.sound_resetTeam {s : State} (t : Team) (h : s.Sound kp) :
    (s.resetTeam t).Sound kp := by
  unfold State.resetTeam
  dsimp only
  refine State.sound_freeTeam _ ?_
  have h1 : ((s.ops.filter fun o => o.isLeft && o.lanes.any fun l => l.sid.tcx == t.tcx).foldl State.finishLeft
      (((s.dr.copies.filter fun c => c.tcx == t.tcx && !c.final).map (·.id)).foldl State.cancelCopy s)).Sound kp :=
    State.sound_foldl (fun s o hs => State.sound_finishLeft o hs) _ (by simp [State.sound_foldl_iff, h])
  split
  · simpa [State.sound_foldl_iff] using h1
  · refine State.sound_fillVault _ _ ?_
    simpa [State.sound_foldl_iff] using h1
@[simp] theorem State.sound_flrOne {s : State} (n : Nat) (h : s.Sound kp) :
    (s.flrOne n).Sound kp := by
  unfold State.flrOne
  dsimp only
  rw [State.sound_record, State.sound_mk, State.sound_fold, State.sound_mk, State.sound_fold, State.sound_onFn]
  refine State.sound_foldl (fun s k hs => ?_) _ (State.sound_foldl (fun s k hs => ?_) _
    (State.sound_foldl (fun s k hs => ?_) _ (State.sound_foldl (fun s a hs => ?_) _ ?_)))
  · simp [hs]
  · split <;> simp [hs]
  · simp [hs]
  · simp [hs]
  · rw [State.sound_mk, State.sound_fold]
    refine State.sound_foldl (fun s i hs => (State.sound_abortInst ..).mpr hs) _ ?_
    rw [State.sound_mk, State.sound_fold]
    refine State.sound_foldl (fun s i hs => (State.sound_cancelCopy ..).mpr hs) _ ?_
    refine State.sound_foldl (fun s t hs => State.sound_resetTeam t hs) _ ?_
    simp [h]
@[simp] theorem State.sound_resetCaches {s : State} (h : s.Sound kp) :
    (s.resetCaches).Sound kp := by
  unfold State.resetCaches
  grind [State.sound_dropLines, State.sound_writeBack, State.sound_freeShare, State.sound_mk, State.sound_fold, State.sound_foldl]
@[simp] theorem State.sound_flrAll {s : State} (h : s.Sound kp) :
    (s.flrAll).Sound kp := by
  unfold State.flrAll
  grind [State.sound_flrOne, State.sound_resetCaches, State.sound_mk, State.sound_fold, State.sound_foldl]
@[simp] theorem sound_execFlr (fn : Nat) {s : State} (h : s.Sound kp) : Out.Sound kp (execFlr fn s) :=
  (Out.sound_next _).mpr (by simp [h])
@[simp] theorem sound_execPfFlr {s : State} (h : s.Sound kp) : Out.Sound kp (execPfFlr s) :=
  (Out.sound_next _).mpr (by simp [h])
@[simp] theorem sound_execMgmtFlr (fn : Nat) {s : State} (h : s.Sound kp) : Out.Sound kp (execMgmtFlr fn s) :=
  (Out.sound_next _).mpr (by simp [h])
@[simp] theorem sound_execDeviceReset {s : State} (h : s.Sound kp) : Out.Sound kp (execDeviceReset s) := by
  unfold execDeviceReset
  rw [Out.sound_next, State.sound_answerMctp]
  exact ⟨fun _ => reset_memOk, h.2⟩
@[simp] theorem sound_execFirmwareStage (stage : Nat) (image : List Byte) (version : Nat) {s : State}
    (h : s.Sound kp) : Out.Sound kp (execFirmwareStage stage image version s) :=
  (Out.sound_next _).mpr (by simp [h])
@[simp] theorem sound_execSpdmRequest (nonce : MctpReq) {s : State} (h : s.Sound kp) : Out.Sound kp (execSpdmRequest nonce s) :=
  (Out.sound_next _).mpr (by simp [h])
@[simp] theorem sound_execPldmFwUpdate (image : MctpReq) (version : Nat) {s : State} (h : s.Sound kp) : Out.Sound kp
    (execPldmFwUpdate image version s) :=
  (Out.sound_next _).mpr (by simp [h])
@[simp] theorem sound_execPldmMonitor {s : State} (h : s.Sound kp) : Out.Sound kp (execPldmMonitor s) :=
  (Out.sound_next _).mpr h
@[simp] theorem sound_execHaltAll {s : State} (h : s.Sound kp) : Out.Sound kp (execHaltAll s) :=
  (Out.sound_next _).mpr (by simp [h])
@[simp] theorem sound_execCrashDump {s : State} (h : s.Sound kp) : Out.Sound kp (execCrashDump s) :=
  (Out.sound_next _).mpr (by simp [h])

/-! ### What Ready.lean defines -/

@[simp] theorem State.sound_fetched {s : State} (st : Stream) (ids : List SId) (ws : List (DWord × Checked)) (h : s.Sound kp) :
    (s.fetched st ids ws).Sound kp := by
  unfold State.fetched
  grind [State.sound_recordErr, State.sound_touch, State.sound_lostRead, State.sound_readNow, State.sound_foldl]
@[simp] theorem sound_execUnassignedOpcode (_opc : BitVec 8) {s : State} (h : s.Sound kp) : Out.Sound kp
    (execUnassignedOpcode _opc s) :=
  (Out.sound_next _).mpr ((State.sound_trapEarly ..).mpr h)
@[simp] theorem sound_execQueueStallPark (sid : SId) {s : State} (h : s.Sound kp) : Out.Sound kp (execQueueStallPark sid s) := by
  unfold execQueueStallPark
  (repeat' split) <;> simp [h]

/-! ### What Issue.lean defines -/

@[simp] theorem State.sound_openWindows (s : State) (i : Instr) (npc : DWord) (ids : List SId) (ps : List (SId × Bool)) :
    (s.openWindows i npc ids ps).Sound kp ↔ s.Sound kp := by
  unfold State.openWindows
  dsimp only
  (repeat' split) <;> simp [State.sound_foldl_iff]
@[simp] theorem State.sound_noteSlots (s : State) (ids : List SId) :
    (s.noteSlots ids).Sound kp ↔ s.Sound kp := by
  unfold State.noteSlots
  split <;> simp
@[simp] theorem State.sound_atGroup (s : State) (ids : List SId) (pc : DWord) (words : Nat) :
    (s.atGroup ids pc words).Sound kp ↔ s.Sound kp :=
  Iff.rfl
@[simp] theorem State.sound_holdLanes (s : State) (ids : List SId) (firm : Stream → Bool) :
    (s.holdLanes ids firm).Sound kp ↔ s.Sound kp :=
  Iff.rfl
@[simp] theorem State.sound_fetchFault (s : State) (f : Fail) :
    (s.fetchFault f).Sound kp ↔ s.Sound kp := by
  unfold State.fetchFault
  (repeat' split) <;> simp
@[simp] theorem State.sound_examinedAll (run : Instr → State → Out) (s : State) :
    (State.examinedAll run s).Sound kp ↔ s.Sound kp :=
  Iff.rfl

/-! ### What Multicast.lean defines -/

@[simp] theorem State.sound_sendMcast (s : State) (st : Stream) (a : McArgs) (bytes : List (DWord × Byte)) :
    (s.sendMcast st a bytes).Sound kp ↔ s.Sound kp :=
  Iff.rfl
@[simp] theorem State.sound_mcastRead {s : State} (fn core : Nat) (asid : BitVec 16) (x0 : List (Nat × Nat)) (h : s.Sound kp) :
    (s.mcastRead fn core asid x0).2.Sound kp := by
  induction x0 generalizing s with
  | nil => unfold State.mcastRead; grind
  | cons p r ih =>
    unfold State.mcastRead
    grind [State.sound_refused, State.sound_touch, State.sound_lostRead, State.sound_readNow, State.sound_engineFail]
@[simp] theorem State.sound_mcastFrame {s : State} (g : Guard) (grp x : Reg) (put : Bool) (f : Stream → McArgs → State)
    (hf : ∀ st a, (f st a).Sound kp)
    (h : s.Sound kp) :
    (s.mcastFrame g grp x put f).Sound kp := by
  unfold State.mcastFrame
  dsimp only
  split
  · simp [h]
  · split
    · simp [h]
    · split
      · simp [h]
      · split
        · simp [h]
        · exact hf _ _
@[simp] theorem State.sound_countCopy (s : State) (id : SId) :
    (s.countCopy id).Sound kp ↔ s.Sound kp :=
  Iff.rfl
@[simp] theorem sound_execMcst (g : Guard) (grp s1 : Reg) (k1 : Bool) (x : Reg) {s : State} (h : s.Sound kp) : Out.Sound kp
    (execMcst g grp s1 k1 x s) := by
  unfold execMcst
  refine (Out.sound_next _).mpr (State.sound_mcastFrame _ _ _ _ _ (fun low a => ?_) h)
  dsimp only
  split
  · simp [h]
  next sa _ =>
    split
    · simp [h]
    · have h1 := State.sound_mcastRead (s.team low.id.tcx).fn ((s.team low.id.tcx).coreOf low.id) (s.team low.id.tcx).recd.asid
        (pieces sa.toNat a.len) ((State.sound_countCopy s low.id).mpr h)
      split
      next e => simp [h1.snd e]
      next e => simp [h1.snd e]
@[simp] theorem sound_execMcput (g : Guard) (grp s1 : Reg) (k1 : Bool) (x : Reg) {s : State} (h : s.Sound kp) : Out.Sound kp
    (execMcput g grp s1 k1 x s) :=
  (Out.sound_next _).mpr (by simp [h])
@[simp] theorem sound_execMcastReplicate (m member : Nat) (reason : BitVec 8) {s : State} (h : s.Sound kp) : Out.Sound kp
    (execMcastReplicate m member reason s) :=
  (Out.sound_next _).mpr h
@[simp] theorem State.sound_answerMcast {s : State} (c : Mcast) (h : s.Sound kp) :
    (s.answerMcast c).Sound kp := by simp [State.answerMcast, h]
@[simp] theorem State.sound_endMcast (s : State) (c : Mcast) :
    (s.endMcast c).Sound kp ↔ s.Sound kp := by
  unfold State.endMcast
  split <;> simp
@[simp] theorem sound_execMcastAck (m : Nat) {s : State} (h : s.Sound kp) : Out.Sound kp (execMcastAck m s) := by
  unfold execMcastAck
  (repeat' split) <;> simp [h]
end
section
variable {kp : Kept}

/-! ### What Issue.lean notes, and the turn -/

theorem State.sound_noted (s old : State) (lead : Stream) (ids : List SId) (n : Nat) :
    (s.noted old lead ids n).Sound kp ↔ s.Sound kp := by
  unfold State.noted
  dsimp only
  split
  · split <;> simp
  · rfl
theorem State.sound_noteYield (run : Instr → State → Out) (s old : State) : (State.noteYield run s old).Sound kp ↔ s.Sound kp := by
  unfold State.noteYield
  dsimp only
  split <;> rfl
theorem State.sound_noteUse (s old : State) : (s.noteUse old).Sound kp ↔ s.Sound kp := State.sound_restartTimers ..

section
variable {run : Instr → State → Out} (hrun : ∀ i s, s.Sound kp → Out.Sound kp (run i s))
include hrun

theorem State.sound_issueInstr {s : State} (lead : Stream) (all : List Stream) (ws : List (DWord × Checked)) (i : Instr)
    (h : s.Sound kp) : Out.Sound kp (s.issueInstr run lead all ws i) := by
  unfold State.issueInstr
  dsimp only
  split
  · simp [h]
  · generalize hr : State.openWindows _ _ _ _ _ = r
    have h1 : r.Sound kp := by
      rw [← hr]
      simp [h]
    generalize State.packed s _ _ = chunk
    split
    · rw [Out.sound_next, State.sound_noted, State.sound_atGroup]
      exact h1
    · split
      · simp [h1]
      · generalize hx : State.atGroup r _ _ _ = x
        have h2 := hrun i x (by rw [← hx]; simp [h1])
        generalize run i x = y at h2 ⊢
        cases y with
        | next t =>
          rw [Out.sound_next] at h2 ⊢
          rw [State.sound_noted]
          split <;> simp [h2]
        | fault f => simp
        | refused f => simp
theorem State.sound_attempt {s : State} (id : SId) (h : s.Sound kp) : Out.Sound kp (State.attempt run s id) := by
  unfold State.attempt
  dsimp only
  split
  · simp [h]
  · split
    · simp [h]
    · split
      · simp [State.sound_noted, h]
      · split
        · simp [State.sound_noted, h]
        · exact State.sound_issueInstr hrun _ _ _ _ h
theorem State.sound_issueFirst {s : State} (l : List SId) (h : s.Sound kp) : Out.Sound kp (State.issueFirst run l s) := by
  induction l generalizing s with
  | nil => simpa [State.issueFirst] using h
  | cons id r ih =>
    have h1 := State.sound_attempt hrun id h
    rw [State.issueFirst]
    cases e : State.attempt run s id with
    | next t =>
      rw [e, Out.sound_next] at h1
      dsimp only
      split
      · exact ih h1
      · simpa [State.sound_noteYield] using h1
    | fault f => simp
    | refused f => simp
theorem State.sound_turn {s : State} (t : Turn) (h : s.Sound kp) : Out.Sound kp (State.turn run s t) := by
  cases t with
  | issue id =>
    rw [State.turn]
    split
    · exact State.sound_issueFirst hrun _ h
    · simpa using h
  | core c k => exact State.sound_issueFirst hrun _ h
  | event i =>
    rw [State.turn]
    split
    · exact hrun i _ (by simpa using h)
    · simpa using h
  | _ => simp [State.turn, h]
theorem State.sound_nextTurn {s : State} (h : s.Sound kp) : Out.Sound kp (State.nextTurn run s) := by
  unfold State.nextTurn
  split
  · simp [h]
  next t r _ =>
    dsimp only
    have h1 := State.sound_turn hrun (s := { s with agenda := r }) t (by simpa using h)
    generalize State.turn run { s with agenda := r } t = o at h1 ⊢
    cases o with
    | next x => simpa [State.sound_noteUse] using h1
    | fault f => simp
    | refused f => simp
end

/-- Every instruction and every event of the device leaves what is kept of a state. -/
theorem sound_exec (i : Instr) {s : State} (h : s.Sound kp) : Out.Sound kp (exec i s) := by
  cases i <;> simp [exec, h]
theorem sound_step {s : State} (h : s.Sound kp) : Out.Sound kp (step s) :=
  State.sound_nextTurn (fun i _ h => sound_exec i h) h
end

/-- Settles O2: every function of the model keeps the form, down to the few that write memory, which write it canonically
(`memWriteN_wf`, `zeroRange_wf`). -/
theorem everyStepKeepsMemoryCanonical : Obligations.EveryStepKeepsMemoryCanonical := by
  unfold Obligations.EveryStepKeepsMemoryCanonical
  intro s t h e
  exact (sound_step (kp := ⟨True, 0⟩) (s := s) ⟨fun _ => h, Nat.zero_le _⟩ t e).1 trivial

/-- Settles O3: the clock is set by `State.advance` alone, which adds to it, and kept by a reset of the device. -/
theorem timeNeverStepsBack : Obligations.TimeNeverStepsBack := by
  unfold Obligations.TimeNeverStepsBack
  intro s t e
  exact (sound_step (kp := ⟨False, s.clock.gtsQ⟩) (s := s) ⟨False.elim, Nat.le_refl _⟩ t e).2


end Sys2Proof.Machine
end
